-- ==== Sys2Proof/Word.lean ====
section
/-! DEFINITION. The machine's word types and the plainest arithmetic on them. -/

namespace Sys2Proof

/-- One byte. -/
abbrev Byte := BitVec 8
/-- One BAR0 register: 32 bits wide (R11). -/
abbrev Word := BitVec 32
/-- A status code: class in bits [15:8], code in bits [7:0]; 0x0000 is success (R18). -/
abbrev Status := BitVec 16

end Sys2Proof
end

