-- ==== Sys2Proof/Types/Core.lean ====
section
/-! DEFINITION. Types shared by every block: paths, requests' origins, log records, and what the part sends out. -/

namespace Sys2Proof

/-- The paths a BAR0 access takes (R577, R678, R682): a PCIe link, the sideband, JTAG, or the configuration image of
step 10. -/
inductive BusPath where
  | pcie0
  | pcie1
  | sideband
  /-- The JTAG debug data register (R562, R577). -/
  | jtag
  | image
  deriving DecidableEq, Repr

/-- Where a request came from, and so where its result goes (R25, R26). -/
inductive ReqPath where
  /-- A YQI command: global function, queue and command identifier. -/
  | yqi (fn qid cid : Nat)
  /-- A Gnoz CONTROL message: sending device and message identifier. -/
  | gnoz (device msgId : Nat)
  /-- An entry of the configuration image (R602). -/
  | image
  /-- A register of a block (the status goes to that block's own register). -/
  | register
  /-- A saggar mailbox: 0 for BAR0, 1 for the sideband (R563). -/
  | mailbox (m : Nat)
  /-- A run, through its control core. -/
  | run (slot : Nat)
  /-- A stream context, for work the stream issues itself. -/
  | stream (ctx : Nat)
  deriving DecidableEq, Repr

/-- One record of the device error log (R429), without the fields the format fixes at 0. -/
structure LogEntry where
  seq : Nat
  status : Status
  detail : Nat := 0
  fn : Nat := 0xFFFF
  sqId : Nat := 0xFFFF
  cid : Nat := 0
  resumeHead : Nat := 0
  opcode : Nat := 0
  froze : Bool := false
  admin : Bool := false
  block : Nat := 0
  nsid : Nat := 0
  info0 : Nat := 0
  info1 : Nat := 0
  info2 : Nat := 0
  deriving DecidableEq, Repr

/-- The pins the part drives or senses whose level the spec gives a meaning. -/
inductive Pin where
  | mainPwrEn
  | thermtripN
  | resetReqN
  | trimFaultN
  deriving DecidableEq, Repr

/-- What the part sends out of itself, oldest first in `State.out`. It is the model's own record of the outputs. -/
inductive Emit where
  /-- The result of a request on the request's own path: status, DETAIL, result words and data. -/
  | reply (dest : ReqPath) (status : Status) (detail : Nat) (result : List Nat) (data : List Byte)
  /-- The data a register read returned on a bus. -/
  | readData (path : BusPath) (off : Nat) (data : List Word)
  /-- A PCIe Unsupported Request completion (R12). -/
  | unsupportedRequest (path : BusPath)
  /-- A completion-queue entry written to host memory: function, queue, CID, STATUS, DETAIL, SQ head, phase, result. -/
  | cqEntry (fn qid cid : Nat) (status : Status) (detail sqHead : Nat) (phase : Bool) (result : List Nat)
  /-- An MSI-X message of a function's vector. -/
  | msix (fn vector : Nat)
  /-- Bytes written to host memory of a function. -/
  | hostWrite (fn addr : Nat) (data : List Byte)
  /-- A Gnoz packet on a logical port and path: its 64-byte header and its payload, before the encryption of R484. -/
  | gnozPacket (port path : Nat) (header payload : List Byte)
  /-- A stream event of R107: kind, stream, forme, status, INFO. -/
  | streamEvent (kind streamId forme : Nat) (status : Status) (info : Nat)
  /-- A forme handed to egress for a consumer. -/
  | forme (streamId number : Nat) (bytes : List Byte)
  /-- A 64-byte run record, to the run's path (R351). -/
  | runRecord (dest : ReqPath) (slot : Nat) (status : Status) (detail tag : Nat) (info : List Nat)
  /-- A pin level. -/
  | pin (p : Pin) (level : Bool)
  /-- An Ethernet frame that is no Gnoz packet: port, kind (1 ARP/ND reply, 2 ICMP echo reply, 3 PTP), payload. -/
  | ethFrame (port kind : Nat) (payload : List Byte)
  /-- A group message to a device (heartbeat, proposal, vote, PREPARE, COMMIT, mirror...). -/
  | groupMsg (kind device : Nat) (body : List Nat)
  /-- A frame that left an Ethernet port: port, queue, bytes, CE-marked. -/
  | frameOut (port queue bytes : Nat) (ce : Bool)
  /-- A job or work completion written to memory at an address. -/
  | completion (addr : Nat) (words : List Nat)
  /-- A JTAG access ended: TDO shifts out all ones because the access is closed (true), or the access is served; what an
  open access shifts out is not spelled out (R577, R667). -/
  | tdo (allOnes : Bool)
  /-- An SMBus read byte sequence or alert response. -/
  | smbus (data : List Nat)
  /-- A trace record handed to the trace area (R394). -/
  | trace (kind : Nat) (words : List Nat)
  deriving DecidableEq, Repr

end Sys2Proof

namespace Sys2Proof

/-- A die-to-die link (R38). -/
inductive DieLink where
  | fm
  | fn
  | mn
  deriving DecidableEq, Repr

/-- What wakes the device from Idle (R624). -/
inductive WakeCause where
  | bar0Access
  | doorbell
  | packet
  | sidebandTarget
  | pwrFail
  | thermal
  | watchdogProbe
  deriving DecidableEq, Repr

end Sys2Proof

namespace Sys2Proof

/-- What a soft reset acts on (R603): a block bit of RST_BLOCK_RESET, or the unit of RST_UNIT. -/
inductive ResetTarget where
  | block (b : Nat)
  | unit
  /-- A unit of a tile: the bit of TIL_UNIT_RESET (R332). -/
  | tileUnit (tile bit : Nat)
  deriving DecidableEq, Repr

/-- Where a register access goes: BAR0 or the sideband; page 0 of a function's BAR2 (R442); or the parts of PCIe
configuration that the queue interface depends on, a function's MSI-X mask bit of a vector (R417) and VF Enable with
NumVFs of a link (R405). -/
inductive RegTarget where
  | bar0 (p : BusPath) (off : Nat)
  | bar2 (fn off : Nat)
  | msixMask (fn vector : Nat)
  | vfEnable (link : Nat)
  deriving DecidableEq, Repr

end Sys2Proof
end

