-- ==== Sys2Proof/Types/Device.lean ====
section
/-! DEFINITION. State of the part as a whole: fuses, event numbering, the error log, boot, trust and power. -/

namespace Sys2Proof.Machine

/-- Values loaded from fuses at trim load (R5, R6). Bit n of `regionMask` is 1 for an active region n. -/
structure Fuses where
  part : BitVec 16 := 0x0600#16
  stepping : Byte := 0xA1#8
  lid : Byte := 0x01#8
  regionMask : BitVec 48 := 0xFFFFFFFFFFFF#48
  /-- The MAC address of each logical port, port 0 first; one not listed is 0 (R490). -/
  macs : List (BitVec 48) := []
  deriving DecidableEq, Repr

/-- The active regions of a mask. -/
def Fuses.regions (f : Fuses) : Nat := ((List.range 48).filter (fun i => f.regionMask.getLsbD i)).length

/-- The fuses of a part that exists: a PX1536 with 48 active regions or a PX1280 with 40, at stepping A1, LID 1 (R2-R6). -/
def Fuses.wf (f : Fuses) : Bool :=
  f.stepping == 0xA1#8 && f.lid == 1#8 &&
  ((f.part == 0x0600#16 && f.regions == 48) || (f.part == 0x0500#16 && f.regions == 40))

/-- AON_PART_ID (R5). -/
def Fuses.partId (f : Fuses) : Nat := f.lid.toNat * 2 ^ 24 + f.part.toNat * 2 ^ 8 + f.stepping.toNat

/-- The event sequence number (R15, R684): the next number to issue, and the two stored ceilings. -/
structure EventSeq where
  next : Nat := 1
  /-- The ceiling in the backup domain; none once that domain has been lost (R607). -/
  backup : Option Nat := none
  /-- The ceiling of the newest anchor or handover record on the media. -/
  anchor : Option Nat := none
  /-- The ceiling the next anchor record will hold. -/
  pendingAnchor : Nat := 0
  deriving DecidableEq, Repr

/-- The device error log (R21, R429): a ring of 4,096 entries, and the records held before step 9 (R587). -/
structure ErrorLog where
  /-- Newest last; at most 4,096. -/
  entries : List LogEntry := []
  /-- NEXT of log page 0x01: entries written since reset. -/
  next : Nat := 0
  /-- Records raised before step 9, oldest first, at most 64. -/
  held : List LogEntry := []
  /-- YQI_ERRLOG_LOST. -/
  lost : Nat := 0
  deriving DecidableEq, Repr

end Sys2Proof.Machine

namespace Sys2Proof.Machine

/-- AON_BOOT_STATE.PHASE: the step of R584 (R611). -/
inductive BootPhase where
  | reset
  | flush
  | trim
  | clocks
  | links
  | training
  | wipe
  | rebuild
  | apply
  | ready
  | trimFault
  deriving DecidableEq, Repr

/-- The backup domain (R583, R607): what runs from VBAT and outlives a package reset. -/
structure Backup where
  resetCount : Nat := 0
  causePowerOn : Bool := false
  causePin : Bool := false
  /-- AON_RESET_CAUSE.REQUEST: 0 none, 1 watchdog, 2 life cycle, 3 software, 4 last gasp (R582). -/
  request : Nat := 0
  lost : Bool := false
  attemptsA : Nat := 0
  attemptsB : Nat := 0
  /-- SAG_TIME_FLOOR, in ms (R561). -/
  timeFloorMs : Nat := 0
  tripped : Bool := false
  tripDiode : Nat := 0
  refLost : Bool := false
  osc : Bool := true
  /-- The model's own marks: a trip, and a loss of the reference, that no reset has recorded yet (R619, R636). -/
  tripPending : Bool := false
  refPending : Bool := false
  deriving DecidableEq, Repr

/-- One selector record of the boot flash (R594). -/
structure Selector where
  seq : Nat
  preferB : Bool
  deriving DecidableEq, Repr

/-- The xSPI boot flash (R592-R594): its size, the two selector sectors and the two copy areas as bytes. -/
structure BootFlash where
  sizeMiB : Nat := 64
  sector0 : Option Selector := none
  sector1 : Option Selector := none
  copyA : List Byte := []
  copyB : List Byte := []
  deriving DecidableEq, Repr

/-- Boot progress and the configuration copies (R598, R611, R612). -/
structure Boot where
  phase : BootPhase := .reset
  /-- RESET_N is low, or power-on reset is held (R580, R581). -/
  resetHeld : Bool := true
  /-- Power-on reset is held: the rails are down, or the reference has not yet run for 1 ms (R581). -/
  porHeld : Bool := false
  /-- The last accepted reset was power-on: step 2 of R584 is skipped. -/
  fromPowerOn : Bool := false
  trimTries : Nat := 0
  wipePct : Nat := 0
  status : Status := 0
  loaded : Bool := false
  activeB : Bool := false
  preferB : Bool := false
  statusA : Status := 0
  statusB : Status := 0
  cfgSeq : Nat := 0
  applyFails : Nat := 0
  applyFailsOvf : Bool := false
  xspiMiB : Nat := 0
  /-- CONFIG_HASH: the SHA-384 of the signed bytes of the image loaded; none when none is (R595). -/
  configHash : Option (List Byte) := none
  /-- REFCLK_AON is running (R581, R619). -/
  refclkOk : Bool := true
  deriving DecidableEq, Repr

/-- Life-cycle states (R571). -/
inductive LcState where
  | blank
  | provisioned
  | deployed
  | returned
  deriving DecidableEq, Repr

/-- One owner key slot (R554): the KEY_ID and the 97-byte point. -/
structure OwnerKey where
  keyId : Nat
  point : List Byte
  deriving DecidableEq, Repr

/-- One pairing of the key record (R566). -/
structure PairKey where
  keyId : Nat
  peer : Nat
  rotation : Nat
  peerPoint : List Byte
  deriving DecidableEq, Repr

/-- A saggar mailbox (R562, R579). `nonce` is the mailbox's current 48-byte nonce. -/
structure Mailbox where
  opcode : Nat := 0
  length : Nat := 0
  busy : Bool := false
  done : Bool := false
  status : Status := 0
  rlen : Nat := 0
  buf : List Byte := []
  nonce : BitVec 384 := 0
  deriving DecidableEq, Repr

/-- One of the two key blocks (R555): the sequence number of the newest record it holds. -/
structure KeyBlocks where
  block0 : Option Nat := none
  block1 : Option Nat := none
  seq : Nat := 0
  /-- true when block 1 holds the current record. -/
  current1 : Bool := false
  deriving DecidableEq, Repr

/-- What OTP, fuses and the key record keep of the saggar over a reset (R552-R555, R571, R583). -/
structure TrustKept where
  /-- The written OTP slots, oldest first; slot 0 is Blank (R571). -/
  lcSlots : List LcState := [.blank]
  ownerEpoch : Nat := 0
  uid : BitVec 128 := 0
  /-- Owner key slots 0 to 15. -/
  keys : List (Option OwnerKey) := List.replicate 16 none
  pairs : List PairKey := []
  keyBlocks : KeyBlocks := {}
  /-- The number of each namespace's key in the current key record; `Config.nsKey` gives the key (R552, R555). -/
  nsKeys : List (Nat × Nat) := []
  /-- The factory certificate of IK, and the factory public key that the boot ROM holds (R553). -/
  cert : List Byte := []
  factoryKey : List Byte := []
  /-- The device-unique secret that is fused at manufacture, and the SHA-384 of the boot ROM (R552, R567). -/
  dus : BitVec 256 := 0
  romHash : List Byte := List.replicate 48 0
  deriving DecidableEq, Repr

/-- Volatile state of the saggar (R569, R576-R579). -/
structure Trust where
  quoin : BitVec 64 := 0
  /-- Per quoin bit, the time of its last 0x0F01 record (R570). -/
  deniedAt : List (Nat × Nat) := []
  mbox0 : Mailbox := {}
  mbox1 : Mailbox := {}
  pending : Bool := false
  zeroised : Bool := false
  debug : Nat := 0
  debugUsed : Bool := false
  timeInvalidLogged : Bool := false
  deriving DecidableEq, Repr

/-- PWR_STATE.STATE (R646). -/
inductive PowerState where
  | run
  | enteringIdle
  | idle
  | waking
  deriving DecidableEq, Repr

/-- Clocks, power and temperature (R616-R647). Clocks are in MHz. -/
structure Power where
  state : PowerState := .run
  offPending : Bool := false
  /-- MAIN_PWR_EN has been driven low: Off, or after a trip (R655). -/
  mainOff : Bool := false
  lastRefusal : Nat := 0
  /-- PWR_DOZE: bit n is 1 while region n is in Doze. -/
  doze : BitVec 48 := BitVec.allOnes 48
  /-- CLK_PLL_LOCK: bit n is 1 while region PLL n is locked. -/
  pllLock : BitVec 48 := 0
  /-- Non-region PLLs that lost lock: number and failed relocks; 16 failures leave the PLL stopped (R618). -/
  pllDown : List (Nat × Nat) := []
  /-- Regions waking, which the next alignment tick releases (R621, R640). -/
  waking : BitVec 48 := 0
  /-- The time each region last held a run: region, ns. -/
  idleSince : List (Nat × Nat) := []
  tileMhz : Nat := 1600
  /-- The clock the limiter allows. -/
  limMhz : Nat := 1600
  /-- The clock thermal throttling allows. -/
  thermMhz : Nat := 1600
  /-- Consecutive samples above SUSTAINED (R632 rule 2). -/
  overSamples : Nat := 0
  /-- Samples since the limiter's last cut or rise. -/
  limTicks : Nat := 0
  /-- Thermal samples since the last thermal change. -/
  thermTicks : Nat := 0
  throttle : Bool := false
  totalW : Nat := 0
  tilesW : Nat := 0
  hottest : Nat := 0
  sensor : Nat := 0
  /-- HBM4 stacks refreshing at the doubled rate (R635). -/
  hbmDouble : BitVec 6 := 0
  limitLoggedAt : Option Nat := none
  thermLoggedAt : Option Nat := none
  /-- A thermal trip is in force: field and net die clamped (R636); the time of the trip in ns. -/
  tripAt : Option Nat := none
  /-- Crossings that wait for the next alignment tick (R640). -/
  alignPending : Bool := false
  /-- Alignment ticks counted; the 6-bit counter has wrapped this often. -/
  alignTicks : Nat := 0
  /-- The watchdog's deadline in ns, while armed (R628). -/
  wdtDeadline : Option Nat := none
  wdtWarned : Bool := false
  wdtProbeAt : Nat := 0
  deriving DecidableEq, Repr

/-- A unit soft reset under way (R603, R606): class, index, start time, and whether work was held at its start. -/
structure UnitReset where
  cls : Nat
  index : Nat
  startedAt : Nat
  deriving DecidableEq, Repr

/-- The RST block (R603-R606, R613-R615). -/
structure Rst where
  /-- RST_BLOCK_RESET: resets under way, with their start times. -/
  blocks : List (Nat × Nat) := []
  forced : BitVec 9 := 0
  unit : Option UnitReset := none
  unitForced : Bool := false
  /-- Soft resets of tile units under way: tile, bit of TIL_UNIT_RESET, start time (R332, R603). -/
  tiles : List (Nat × Nat × Nat) := []
  /-- The region reset under way, and the DETAIL of a fault of its region since it began (R615). -/
  region : Option Nat := none
  regionFault : Option Nat := none
  regionStatus : Status := 0
  /-- When an access to an unassigned range was last recorded (R676). -/
  unassignedAt : Option Nat := none
  deriving DecidableEq, Repr

/-- State of one die link: 0 up, 1 retraining, 2 failed, 3 not yet trained (R45), and its retrain history (R41). -/
structure LinkState where
  state : Nat := 3
  count : Nat := 0
  ovf : Bool := false
  /-- Failed retrains in a row. -/
  failRun : Nat := 0
  /-- Times of the retrains of the last second, in ns. -/
  recent : List Nat := []
  deriving DecidableEq, Repr

/-- The die links and what fencing has logged (R43-R45, R677). -/
structure Links where
  fm : LinkState := {}
  fn : LinkState := {}
  mn : LinkState := {}
  /-- Register accesses that wait in the replay buffer of a retraining link: path, offset, word written, bytes read (R40). -/
  held : List (BusPath × Nat × Option Word × Nat) := []
  /-- 0x1002 has been recorded for the field die (net die) at this reset. -/
  fieldLogged : Bool := false
  netLogged : Bool := false
  deriving DecidableEq, Repr

/-- Levels of the pins the part drives (R655, R659, R660, R669). -/
structure Pins where
  mainPwrEn : Bool := true
  thermtripN : Bool := true
  trimFaultN : Bool := true
  resetReqN : Bool := true
  pwrFailN : Bool := true
  smbAddr : Nat := 0
  deriving DecidableEq, Repr

/-- The sideband target (R668, R669). -/
structure Sideband where
  offset : Nat := 0
  /-- The alert response has been given for the present assertion. -/
  alertAnswered : Bool := false
  deriving DecidableEq, Repr

end Sys2Proof.Machine
end

