-- ==== Sys2Proof/Types/Memory.lean ====
section
/-! DEFINITION. A sparse byte memory: address and byte pairs, addresses strictly rising, no byte 0 listed. Every
memory of the part holds zeros after the reset wipe (R586), so an unlisted address reads 0. -/

namespace Sys2Proof

/-- A memory in its canonical form. -/
abbrev Memory := List Host.Cell

end Sys2Proof
end

