-- ==== Sys2Proof/Types/Media.lean ====
section
/-! DEFINITION. Media and flash translation: operands of its commands, and its state (R109-R164). A page address
(PMA) is the 40-bit value of R124; a block is named by the PMA of its first unit. -/

namespace Sys2Proof

/-- What one tier gives for a codeword: it does not decode, or it decodes with a number of corrected bits, and the CRC-32C
over the data and metadata it gave (R116, R117). -/
inductive CwTry where
  | miss
  | decoded (corrected crc : Nat)
  deriving DecidableEq, Repr

/-- A completed page read: for each of its four codewords what tiers 1, 2 and 3 gave (R115, R116), and whether the other pages
of its row and their parity, and the other shares of its stripe, can be read (tiers 4 and 5). -/
structure NandResult where
  codewords : List (List CwTry)
  parityOk : Bool
  groupOk : Bool
  deriving DecidableEq, Repr

/-- A band the device opens for a write: 31 data blocks and a parity block, on 32 distinct targets (R131). -/
structure BandSpec where
  id : Nat
  blocks : List Nat
  parity : Nat
  deriving DecidableEq, Repr

/-- The device's placement of a command's units: where each goes, and the bands opened for it. -/
structure Placement where
  pmas : List Nat
  bands : List BandSpec
  deriving DecidableEq, Repr

/-- Where a checkpoint's directory and its changed segments, in the order the checkpoint lists them, have been written (R140). -/
structure CkptWritten where
  dir : Nat
  places : List Nat
  deriving DecidableEq, Repr

/-- How a flush or a last-gasp sequence that a reset or a loss of power meets has ended: in time, or cut off after some of its
pages (R152, R154, R583). -/
structure GaspEnd where
  done : Bool
  pages : Nat
  deriving DecidableEq, Repr

/-- A page that a band's read-back did not find correct at tier 1, and where its units go if they must move (R133). -/
structure WeakPage where
  pma : Nat
  result : NandResult
  dest : Nat
  deriving DecidableEq, Repr

/-- Cell types of a NAND die (R110). -/
inductive CellType where
  | slc
  | mlc
  | tlc
  | qlc
  deriving DecidableEq, Repr

end Sys2Proof

namespace Sys2Proof.Machine

/-- A journal entry (R138). Which blocks BAND_OPEN's band has stands in its parity block. -/
inductive JEntry where
  | map (ns lmu count pma : Nat)
  | discard (ns lmu count : Nat)
  | gcMove (ns lmu pma : Nat)
  | blockRelease (block : Nat)
  | blockRetire (block : Nat)
  | bandOpen (id parity : Nat)
  | bandVerified (id : Nat)
  | nsCreate (ns cap base : Nat)
  | nsDelete (ns : Nat)
  | nsSeal (ns : Nat)
  | nsUnseal (ns : Nat)
  | sanitizeProgress (action target : Nat)
  | checkpointDone (seq dir : Nat)
  deriving DecidableEq, Repr

/-- A journal page (R137), the targets its two copies are programmed on, and which of the two programs have passed (R136). -/
structure JPage where
  seq : Nat
  evt : Nat
  ckpt : Nat
  entries : List JEntry
  place0 : Nat × Nat := (0, 0)
  place1 : Nat × Nat := (0, 0)
  passed0 : Bool := false
  passed1 : Bool := false
  deriving DecidableEq, Repr

/-- A namespace (R121, R126): capacity in map units, base entry in the map region, and seal. -/
structure NsInfo where
  id : Nat
  cap : Nat
  base : Nat
  isSealed : Bool := false
  deriving DecidableEq, Repr

inductive BandState where
  | opened
  | unverified
  | verified
  deriving DecidableEq, Repr

/-- A band (R131-R133): its blocks, the pages programmed, the rows whose parity stands in the parity block, and the rows whose
accumulator was lost with the protected region. A row is the offset of its page in a block. -/
structure Band where
  id : Nat
  blocks : List Nat
  parity : Nat
  programmed : List Nat := []
  rows : List Nat := []
  lostRows : List Nat := []
  state : BandState := .opened
  deriving DecidableEq, Repr

/-- What the journal describes: the logical map, the namespaces, the bands, and the blocks released but not yet erased. `map`
pairs the key `ns * 2^40 + unit` with a PMA, keys rising; an absent key is UNMAPPED (R124). -/
structure MediaImage where
  map : List (Nat × Nat) := []
  ns : List NsInfo := []
  bands : List Band := []
  released : List Nat := []
  deriving DecidableEq, Repr

/-- The cell mode (0 unformatted, 1 TLC, 2 QLC) and the over-provisioning fraction in half percents (R114, R122). -/
structure MediaLayout where
  cell : Nat := 0
  opHalf : Nat := 25
  deriving DecidableEq, Repr

/-- Geometry of the reference target (R112). -/
structure NandGeometry where
  planes : Nat := 4
  pagesPerBlock : Nat := 1536
  blocksPerPlane : Nat := 512
  pageBytes : Nat := 16384
  spareBytes : Nat := 2048
  cell : CellType := .tlc
  deriving DecidableEq, Repr

/-- Sanitize under way (R128): its action (1 CRYPTO, 2 BLOCK, 3 FORMAT), the target-major index of the last target it has
completed, and the layout that FORMAT will apply. -/
structure SanitizeJob where
  action : Nat
  last : Option Nat := none
  layout : Option MediaLayout := none
  deriving DecidableEq, Repr

/-- The metadata of a unit's codewords (R115): namespace, logical map unit, and the journal sequence at which it was written;
with the number of the key that encrypted it (R558). -/
structure UnitMeta where
  ns : Nat
  unit : Nat
  jseq : Nat
  key : Nat
  deriving DecidableEq, Repr

/-- A page that a last-gasp sequence programs (R152): a unit of the write buffer with the place it was to take and the one it
took, the accumulator of a band's row, or entries of the journal tail. -/
inductive LgPage where
  | data (src dst : Nat)
  | parity (band row : Nat)
  | entries (es : List JEntry)
  deriving DecidableEq, Repr

/-- The health log (R161). `ctr` holds its 24 statistics counters in the order of MED_HEALTH_OVF's bits. -/
structure Health where
  spareLow : Bool := false
  worn : Bool := false
  lgIncomplete : Bool := false
  hot : Bool := false
  olderAnchor : Bool := false
  ctr : List Nat := List.replicate 24 0
  targetsExcluded : Nat := 0
  factoryBad : Nat := 0
  tempNow : Int := 0
  tempMax : Int := 0
  tempMin : Int := 0
  evt : Nat := 0
  deriving DecidableEq, Repr

/-- An anchor record (R142): with the place of the checkpoint directory and of the map segments it names, the target of the
journal's start page, the last-gasp blocks, and a Sanitize that has not ended. -/
structure Anchor where
  seq : Nat
  flushed : Bool
  layout : MediaLayout
  userCap : Nat
  ckptSeq : Nat
  startSeq : Nat
  image : MediaImage
  health : Health
  ceiling : Nat
  geometry : NandGeometry := {}
  dir : Nat := 0
  segments : List (Nat × Nat) := []
  startAt : Nat × Nat := (0, 0)
  lgBlocks : List Nat := []
  sanitize : Option SanitizeJob := none
  deriving DecidableEq, Repr

/-- A handover record (R574). -/
structure Handover where
  layout : MediaLayout
  userCap : Nat
  retired : List Nat
  health : Health
  ceiling : Nat
  deriving DecidableEq, Repr

/-- What the NAND holds over a package reset (R583). -/
structure MediaKept where
  /-- Unit contents, keyed by PMA * 16,384 + byte, as the cipher engine's key of `meta` decrypts them (R558). -/
  store : Memory := []
  /-- The codeword metadata of each unit written, by rising PMA. -/
  info : List (Nat × UnitMeta) := []
  anchor0 : Option Anchor := none
  anchor1 : Option Anchor := none
  handover : Option Handover := none
  /-- Committed journal pages since the start of the newest anchored checkpoint. -/
  journal : List JPage := []
  /-- The pre-erased last-gasp blocks, two per channel, and the pages programmed to them, in order (R152, R154). -/
  lgBlocks : List Nat := []
  lgPages : List LgPage := []
  /-- Units mapped in SLC mode where a last-gasp sequence programmed them, until they are moved. -/
  lgUnits : List Nat := []
  /-- Codewords whose reads fail every tier until they are rewritten: PMA * 4 + index (R119). -/
  badBlocks : List Nat := []
  /-- The bands as their parity blocks and pages hold them over a reset. -/
  bands : List Band := []
  retired : List Nat := []
  /-- Blocks erased and free, and blocks that must be erased before reuse. -/
  freeBlocks : List Nat := []
  eraseFirst : List Nat := []
  /-- Erases of single blocks, and of whole targets by target-major index. -/
  eraseCounts : List (Nat × Nat) := []
  targetErases : List (Nat × Nat) := []
  deriving DecidableEq, Repr

/-- MED_STATE.STATE (R163). -/
inductive MediaState where
  | identifying
  | rebuilding
  | ready
  | readOnlyWorn
  | lastGasp
  | noMedia
  | mapLost
  | unformatted
  | sanitizing
  deriving DecidableEq, Repr

inductive GcPhase where
  | copying
  | committing
  deriving DecidableEq, Repr

/-- A garbage-collection job (R147): its source, its copies (namespace, unit, new place), and, from the journal
commit on, how many journal entries must be committed before the erase. -/
structure GcJob where
  src : Nat
  copies : List (Nat × Nat × Nat)
  phase : GcPhase := .copying
  needs : Nat := 0
  deriving DecidableEq, Repr

/-- What a request that waits for durability is. -/
inductive WaitKind where
  | flush
  | nsFeature (sealNs : Option Nat)
  deriving DecidableEq, Repr

/-- A Flush or a namespace feature that waits: the units that must be programmed and the journal entries that must
be committed (R126, R130). -/
structure DurWait where
  path : ReqPath
  kind : WaitKind
  units : List Nat
  entries : Nat
  deriving DecidableEq, Repr

/-- A write that waits for the units it merges with (R125): its data, its places and whether it asks for FUA. -/
structure PendingWrite where
  data : List Byte
  pmas : List Nat
  fua : Bool
  deriving DecidableEq, Repr

/-- A read in flight (R116): what it reads, the units it still waits for, and the write that needs it, if any. -/
structure PendingRead where
  path : ReqPath
  nsid : Nat
  lba : Nat
  count : Nat
  waiting : List Nat
  write : Option PendingWrite := none
  deriving DecidableEq, Repr

/-- A running checkpoint (R140): the image and journal position it started from, and the map segments it writes. -/
structure Checkpoint where
  image : MediaImage
  start : Nat
  segments : List Nat
  deriving DecidableEq, Repr

/-- The media service's volatile state. -/
structure Media where
  state : MediaState := .identifying
  rebuildPct : Nat := 0
  geometry : NandGeometry := {}
  /-- Usable targets as (channel, target) in target-major order, those excluded or lost, those lost at run time, and those
  without read-level offsets. -/
  usable : List (Nat × Nat) := []
  excluded : List (Nat × Nat) := []
  lost : List (Nat × Nat) := []
  noTier2 : List (Nat × Nat) := []
  /-- The rate of each channel with usable targets, in 100 MT/s (R111). -/
  rates : List (Nat × Nat) := []
  /-- Raw capacity in use, in units of 16 KiB (R123). -/
  rawUnits : Nat := 0
  /-- Where the map region starts in bulk memory (R123). -/
  mapStart : Nat := 0
  /-- The map is in the map region: there is an image to serve and to write anchors of (R113, R143, R145). -/
  mapLoaded : Bool := false
  layout : MediaLayout := {}
  nextLayout : Option MediaLayout := none
  userCap : Nat := 0
  image : MediaImage := {}
  /-- Units whose data is only in the protected write buffer (R129, R132). -/
  buffered : List Nat := []
  /-- The journal tail, with the time in ns and the event sequence number of its first entry; pages being programmed. -/
  tail : List JEntry := []
  tailSince : Nat := 0
  tailEvt : Nat := 0
  programming : List JPage := []
  nextJSeq : Nat := 0
  /-- Journal entries appended and committed since reset. -/
  appended : Nat := 0
  committed : Nat := 0
  /-- Journal bytes written since the start of the newest anchored checkpoint, and since the last one started. -/
  journalBytes : Nat := 0
  ckptBytes : Nat := 0
  ckptStartedAt : Nat := 0
  ckptSeq : Nat := 0
  ckpt : Option Checkpoint := none
  /-- Map segments changed since the last checkpoint started; the directory's place and the segments it names (R140). -/
  changed : List Nat := []
  dir : Nat := 0
  segments : List (Nat × Nat) := []
  stalled : Bool := false
  relocate : List Nat := []
  gc : List GcJob := []
  /-- Bands opened for garbage collection (R147). -/
  gcBands : List Nat := []
  waits : List DurWait := []
  reads : List PendingRead := []
  sanitize : Option SanitizeJob := none
  health : Health := {}
  healthOvf : BitVec 24 := 0
  lgActive : Bool := false
  lgDone : Bool := false
  lgLastIncomplete : Bool := false
  lgUs : Nat := 0
  /-- Namespaces whose key is unwrapped in the media cipher engine, with the number of that key (R559). -/
  engineKeys : List (Nat × Nat) := []
  /-- A namespace has been deleted since the device became READ_ONLY_WORN (R159). -/
  wornDelete : Bool := false
  deriving DecidableEq, Repr

end Sys2Proof.Machine
end

