-- ==== Sys2Proof/Types/Stream.lean ====
section
/-! DEFINITION. Streams, decode, augment and text: the stream graph, the operands of a stage, and the state of
stream contexts, ingest channels, vocabularies, grammars and generation contexts (R50-R108, R199-R285). -/

namespace Sys2Proof

/-- Where CROP takes its origin (R218). -/
inductive CropOrigin where
  | entry
  | centre
  | roi
  deriving DecidableEq, Repr

inductive ResizeMethod where
  | nearest
  | bilinear
  | area
  deriving DecidableEq, Repr

/-- The output size of RESIZE (R219): fixed, or a shorter side from the graph or from the entry (the graph's value
stands where the entry's SHORT_SIDE is 0). -/
inductive ResizeSize where
  | fixed (w h : Nat)
  | shortGraph (s : Nat)
  | shortEntry (s : Nat)
  deriving DecidableEq, Repr

/-- An augment operation with its graph values (R217). FLIP with `none` takes the entry's flags. -/
inductive AugOp where
  | crop (w h : Nat) (origin : CropOrigin) (clampOrigin : Bool)
  | flip (fixed : Option (Bool × Bool))
  | resize (method : ResizeMethod) (size : ResizeSize)
  | tone
  | saturate
  | grey
  | yuvToRgb (bt709 : Bool)
  | convert (format : Nat) (scale bias : List Int) (chw bgr : Bool)
  | timeCrop (len : Nat)
  | mix
  | gain
  | resample (rate : Nat)
  deriving DecidableEq, Repr

/-- The decoder class of a stage (R200), or a field that goes to the tokeniser or straight to the section. -/
inductive FieldClass where
  | jpeg
  | png
  | video
  | audio
  | text
  | raw
  deriving DecidableEq, Repr

/-- The output form of a picture (R207, R209): channels 1 to 4 (Y, YA, RGB, RGBA), and 16-bit or 8-bit. -/
structure PicForm where
  channels : Nat
  deep : Bool
  deriving DecidableEq, Repr

/-- The text settings of a field (R261, R267, R268): the digest of its vocabulary image, and flags. -/
structure TextSpec where
  vocab : Nat
  strict : Bool
  addBos : Bool
  addEos : Bool
  deriving DecidableEq, Repr

/-- One field of a stream graph. The values that begin with `max` may lower the limits of R203. -/
structure GraphField where
  tag : Nat
  cls : FieldClass
  form : PicForm
  /-- Y8 requested of a three-component JPEG (R207). -/
  lumaOnly : Bool := false
  maxWidth : Nat := 16384
  maxHeight : Nat := 16384
  maxPixels : Nat := 268435456
  /-- H.264: level_idc, macroblocks of a picture, macroblocks of a dimension; HEVC: general_level_idc, luma samples of a
  picture, luma samples of a dimension. -/
  maxH264Level : Nat := 52
  maxH264Mbs : Nat := 36864
  maxH264Side : Nat := 543
  maxHevcLevel : Nat := 153
  maxHevcLuma : Nat := 8912896
  maxHevcSide : Nat := 8444
  maxPictures : Nat := 65536
  maxChannels : Nat := 8
  maxRate : Nat := 384000
  maxSamples : Nat := 2147483647
  /-- Video: pictures to output, and whether FIRST_FRAME and FRAME_STEP come from the entry (R211). -/
  frameCount : Nat := 0
  frameEntry : Bool := false
  firstFrame : Nat := 0
  frameStep : Nat := 1
  ops : List AugOp := []
  text : Option TextSpec := none
  /-- The section the field's output goes to. -/
  sect : Nat := 0
  deriving DecidableEq, Repr

/-- A section of the forme (R92). Text sections have STRIDE 0 and ROWS rows of T tokens (R268). -/
structure SectionSpec where
  kind : Nat
  format : Nat
  tag : Nat
  stride : Nat
  rows : Nat := 0
  context : Nat := 0
  deriving DecidableEq, Repr

/-- The region-of-interest mode (R241). -/
inductive RoiMode where
  | motion (threshold : Nat)
  | plate
  deriving DecidableEq, Repr

/-- The sieve stage: its declared cost and whether its program takes USER (R80, R224). -/
structure SieveSpec where
  cost : Nat
  takesUser : Bool
  deriving DecidableEq, Repr

/-- A compiled stream graph, as the device reads it from the graph's plate. The plate's own encoding is the
compiler's, so the graph arrives as an operand of LOAD_PLATE. -/
structure Graph where
  fields : List GraphField
  sections : List SectionSpec
  /-- Plate digests of the stage runs (R343). -/
  stageRuns : List Nat := []
  /-- The section a generation stage's output goes to (R271). -/
  gen : Option Nat := none
  sieve : Option SieveSpec := none
  roi : Option RoiMode := none
  deriving DecidableEq, Repr

/-- A point of a field's data at which its decoder charges or fails (R80, R81, R685): a JPEG frame's pixels at its first
SOS, the unfiltered bytes of a PNG pass, a picture's luma samples, decoded audio samples over channels, or a fault. -/
inductive DecodeEvent where
  | jpegFrame (pixels : Nat)
  | pngPass (bytes : Nat)
  | picture (luma : Nat)
  | audioSamples (n : Nat)
  | fault (status : Status)
  deriving DecidableEq, Repr

/-- A JPEG component: sampling factors, blocks per line, and its blocks of 64 quantised coefficients in natural
order, with the quantisation table. -/
structure JpegComponent where
  h : Nat
  v : Nat
  blocksPerLine : Nat
  quant : List Int
  blocks : List (List Int)
  deriving DecidableEq, Repr

/-- What a field's format holds: coefficients, stored samples, pictures, audio samples, or bytes. Everything the manual
itself defines on top of it is computed. -/
inductive Decoded where
  /-- Width, height, components, and whether the data is YCbCr (false: taken as RGB). -/
  | jpeg (w h : Nat) (ycc : Bool) (comps : List JpegComponent)
  /-- Width, height, colour type, bit depth, stored samples row by row, PLTE and tRNS (R209). -/
  | png (w h colour depth : Nat) (samples : List Nat) (plte : List (Nat × Nat × Nat)) (trns : List Nat)
  /-- Width, height, depth, 4:0:0, and the output pictures in output order, each Y then Cb then Cr (R212). -/
  | video (w h depth : Nat) (mono : Bool) (pictures : List (List Nat))
  /-- Channels, rate, bits per sample, unsigned 8-bit WAV, and interleaved samples (R214). -/
  | audio (channels rate bits : Nat) (wavBytes : Bool) (samples : List Int)
  /-- Bytes of a text or raw field after decompression. -/
  | bytes (b : List Byte)
  deriving DecidableEq, Repr

/-- What a decoder made of a field: its charges and, last, a fault if it has one, each with the bytes of the field taken in
by then, and what it holds. A fault found only because the field ends has an offset beyond the field's length. -/
structure FieldDecode where
  events : List (Nat × DecodeEvent)
  held : Option Decoded
  deriving DecidableEq, Repr

/-- Where a generation request's buffers lie in its run's address space (R273, R282), and the run's logical counter that
the lane signals. -/
structure GenBuffers where
  outAddr : Nat
  mailbox : Nat
  mask : Nat
  counter : Nat
  deriving DecidableEq, Repr

/-- What an RTP packet says (R235, R236), with the Annex B bytes its depacketisation yields. -/
structure RtpPacket where
  version : Nat
  payloadType : Nat
  ssrc : Nat
  seq : Nat
  timestamp : Nat
  marker : Bool
  /-- Packet type the payload format supports (R235). -/
  supported : Bool
  nal : List Byte
  randomAccess : Bool
  deriving DecidableEq, Repr

end Sys2Proof

namespace Sys2Proof.Machine

/-- The stream parameter block (R66). -/
structure StreamParams where
  streamId : Nat
  flags : Nat
  nsid : Nat
  descLba : Nat
  snapshotId : Nat
  seed : Nat
  firstEpoch : Nat
  lastEpoch : Nat
  world : Nat
  rank : Nat
  slots : Nat
  window : Nat
  budget : Nat
  witnessNsid : Nat
  graph : Nat
  replayFrom : Nat
  consumer : Nat
  deriving DecidableEq, Repr

/-- Slot cause codes (R79). -/
inductive SlotCause where
  | noFailure
  | format
  | recordCrc
  | decompress
  | decode
  | limit
  | budget
  | sieve
  | param
  | tail
  deriving DecidableEq, Repr

/-- A slot-table entry (R77, R93). -/
structure SlotEntry where
  folio : Nat
  substituted : Bool := false
  isVoid : Bool := false
  rejected : Bool := false
  truncated : Bool := false
  tail : Bool := false
  depth : Nat := 0
  cause : SlotCause := .noFailure
  value : Nat := 0
  deriving DecidableEq, Repr

/-- A field's content on its way through the stages. -/
inductive Sample where
  | image (w h channels : Nat) (deep : Bool) (px : List Nat)
  | yuv (w h depth : Nat) (mono : Bool) (pictures : List (List Nat))
  | audio (channels rate : Nat) (xs : List Int)
  | elements (b : List Byte)
  | tokens (ids : List Nat)
  deriving DecidableEq, Repr

inductive CandState where
  | working
  | passed
  | failed (c : SlotCause)
  deriving DecidableEq, Repr

/-- What the work on a candidate shows outside its slot: a decoder fault, a field decoded, a text tokenised, a media read
that the group reconstructed, a decompression, and a decode buffer. A higher candidate's wait until it is tried (R73). -/
inductive CandEffect where
  | fault (st : Status) (tag content : Nat)
  | decoded (cls : Nat)
  | text (invalid breaks : Nat) (passed : Bool)
  | reconstruct (addr len : Nat)
  | packed (ok : Bool)
  | buffer (port unit size : Nat)
  deriving DecidableEq, Repr

/-- A candidate of a slot (R72): its number, folio, running total of work units, the stages it has finished, its record as
read (a live unit's NAL data), its parameter entry once looked up, the field under way and the outputs written so far. -/
structure Candidate where
  j : Nat
  folio : Nat
  wu : Nat := 0
  stage : Nat := 0
  record : List Byte := []
  effects : List CandEffect := []
  entry : Option (List Byte) := none
  cur : List Sample := []
  outputs : List (Nat × List Sample) := []
  roi : Option (Nat × Nat) := none
  /-- TAG and CONTENT of the field under way, and the luma of a live picture. -/
  fieldAt : Nat × Nat := (0, 0)
  luma : Nat × Nat × List Nat := (0, 0, [])
  status : CandState := .working
  deriving DecidableEq, Repr

/-- A slot in the window (R72, R83): its global index, its candidates and its outcome with the delivered outputs. -/
structure Slot where
  g : Nat
  cands : List Candidate
  outcome : Option (SlotEntry × List (Nat × List Sample)) := none
  deriving DecidableEq, Repr

/-- A record of a parameter push (R226). -/
structure PushRecord where
  epoch : Nat
  folio : Nat
  entry : List Byte
  deriving DecidableEq, Repr

/-- A closed ingest unit (R237). -/
structure LiveUnit where
  channel : Nat
  gap : Bool
  byMarker : Bool
  randomAccess : Bool
  packets : Nat
  timestamp : Nat
  firstSeq : Nat
  lastSeq : Nat
  ssrc : Nat
  nal : List Byte
  deriving DecidableEq, Repr

/-- A forme handed to a Forme Read whose CQ entry is not written yet (R419, R420): its number, the read that holds it, and
its bytes. -/
structure HeldForme where
  n : Nat
  path : Option ReqPath
  bytes : List Byte
  deriving DecidableEq, Repr

/-- What the decode of a live slot started from (R239, R241), with the NAL data of the units that decoded before it. -/
structure LiveHist where
  g : Nat
  nal : List Byte
  needRandom : Bool
  decodedUnits : List (Nat × Nat × List Nat)
  roiCentre : Option (Nat × Nat)
  deriving DecidableEq, Repr

/-- Where the galley of a forme lies (R85): a buffer of the media die's staging store, as pool and index, or bulk memory. -/
structure Galley where
  n : Nat
  place : Option (Nat × Nat)
  deriving DecidableEq, Repr

/-- A stream context (R66-R108). Its five counters stand in the order of WDG_CTX_OVF: substituted, void, rejected,
over budget, stale credit. -/
structure StreamCtx where
  isOpen : Bool := false
  params : StreamParams
  diag : Bool := false
  /-- Sample count N and signature count S of the snapshot; 0 for a live stream. -/
  sampleCount : Nat := 0
  sigCount : Nat := 0
  manifestLba : Nat := 0
  sigTableLba : Nat := 0
  paramLba : Nat := 0
  paramLength : Nat := 0
  paramChecked : Bool := false
  graph : Graph
  /-- Formes per epoch F (R67). -/
  formes : Nat := 0
  halted : Option (Status × Nat) := none
  /-- Every forme has been handed to egress; STREAM_END has been reported (R69). -/
  done : Bool := false
  ended : Bool := false
  status : Status := 0
  next : Nat := 0
  ack : Nat := 0
  limit : Nat := 0
  ctr : List Nat := List.replicate 5 0
  ovf : BitVec 5 := 0
  slots : List Slot := []
  galleys : List Galley := []
  /-- The last forme handed to egress (R105). -/
  lastSent : Option Nat := none
  /-- Formes handed to egress that have not completed, oldest first. -/
  inEgress : List Nat := []
  closing : Option ReqPath := none
  /-- Run slots of the stage runs, and of those that ended the plate digest and the halt's status (R686). -/
  stageRuns : List Nat := []
  endedRuns : List (Nat × Status) := []
  /-- Forme Reads outstanding, oldest first (R419). -/
  formeReads : List ReqPath := []
  held : List HeldForme := []
  pushes : List PushRecord := []
  completeEpoch : Option Nat := none
  /-- Live stream: units with folios, and the next folio. -/
  live : List (Nat × LiveUnit) := []
  nextFolio : Nat := 0
  /-- The last two decoded units' luma cell means, width and height (R241), and the ROI centre. -/
  decodedUnits : List (Nat × Nat × List Nat) := []
  roiCentre : Option (Nat × Nat) := none
  /-- The NAL data of the units that decoded, oldest first (R234, R239). -/
  liveNal : List Byte := []
  /-- A unit with GAP has been met, and no random-access unit has decoded since (R239). -/
  needRandom : Bool := false
  /-- What the decode of a live slot started from (R239, R241), kept until A passes its forme so that a resume gives the
  same bits (R89). -/
  liveHist : List LiveHist := []
  /-- Replay: the STREAM_ID of the recorded STREAM_OPEN (R107). -/
  replayId : Option Nat := none
  /-- Replay: the byte offsets of the first record after the recorded STREAM_OPEN, and of the log's end at open. -/
  replayStart : Nat := 0
  replayEnd : Nat := 0
  formeLength : Nat := 0
  deriving DecidableEq, Repr

/-- An ingest unit being assembled (R236): timestamp, packets received by sequence number, and when a packet with a
later timestamp first arrived. -/
structure OpenUnit where
  timestamp : Nat
  packets : List (Nat × List Byte)
  markerSeq : Option Nat
  randomAccess : Bool
  laterAt : Option Nat
  deriving DecidableEq, Repr

/-- An ingest channel (R234-R246). -/
structure LiveChannel where
  ssrc : Option Nat := none
  units : List OpenUnit := []
  /-- Timestamp and last sequence number of the last closed unit. -/
  lastClosed : Option (Nat × Nat) := none
  /-- The lowest sequence number received since enable, for the first unit. -/
  firstSeq : Option Nat := none
  deriving DecidableEq, Repr

/-- A resident vocabulary (R251-R256), with its image's tables. -/
structure Vocab where
  slot : Nat
  digest : Nat
  plate : Nat
  model : Nat
  presplit : Nat
  byteBase : Nat
  bos : Nat
  eos : Nat
  pad : Nat
  flags : Nat
  unkScore : Int
  tokens : List (List Byte × Nat)
  merges : List (Nat × Nat × Nat)
  scores : List Int
  kib : Nat
  deriving DecidableEq, Repr

/-- A resident grammar (R278, R279). -/
structure Grammar where
  digest : Nat
  plate : Nat
  vocabDigest : Nat
  classes : List Nat
  /-- Per state: mask index, accepting, transitions (class, next). -/
  states : List (Nat × Bool × List (Nat × Nat))
  masks : List (List Byte)
  bytes : Nat
  deriving DecidableEq, Repr

/-- A generation context (R271-R282). -/
structure GenCtx where
  lane : Nat
  idx : Nat
  owner : ReqPath
  vocab : Nat
  request : Nat
  grammar : Nat
  maxTokens : Nat
  outCap : Nat
  includeStop : Bool
  addBos : Bool
  stops : List (List Byte)
  prompt : List Nat
  /-- Addresses of the output buffer, mailbox and mask buffer in the run's address space. -/
  outAddr : Nat
  mailboxAddr : Nat
  maskAddr : Nat
  /-- The counters by which run and lane signal each other. -/
  runCounter : Nat
  state : Nat := 0
  tokens : Nat := 0
  /-- Bytes not yet scanned into characters (R274). -/
  carry : List Byte := []
  /-- Text after replacement that has not been released, and the bytes released. -/
  held : List Byte := []
  released : Nat := 0
  seenChar : Bool := false
  deriving DecidableEq, Repr

/-- The text block (R248-R285). -/
structure Text where
  oos : BitVec 64 := 0
  vocabs : List Vocab := []
  grammars : List Grammar := []
  gens : List GenCtx := []
  deriving DecidableEq, Repr

/-- The decode block (R199-R247): units out of service by class, and ingest channels. -/
structure Decode where
  oosJpeg : List Nat := []
  oosPng : List Nat := []
  oosVideo : List Nat := []
  oosAudio : List Nat := []
  oosAug : List Nat := []
  channels : List LiveChannel := List.replicate 64 {}
  deriving DecidableEq, Repr

/-- The stream engine (R97, R104-R106). -/
structure StreamEngine where
  /-- Contexts 0 to 511 in use, as (context, stream). -/
  ctxs : List (Nat × StreamCtx) := []
  selftestBusy : Bool := false
  /-- The counters and overflow bits of contexts freed and not opened again (R99). -/
  past : List (Nat × List Nat × BitVec 5) := []
  /-- Ends of witness logs in use: namespace and byte offset. -/
  witnessEnds : List (Nat × Nat) := []
  deriving DecidableEq, Repr

end Sys2Proof.Machine
end

