-- ==== Sys2Proof/Types/Run.lean ====
section
/-! DEFINITION. Plates, runs, tile operations, sync counters and observation: operands of their commands, and their
state (R286-R402). -/

namespace Sys2Proof

/-- Where LOAD_PLATE finds the plate: bytes at a host address or in the configuration image, or a block of a namespace (R422,
R481, R596). -/
inductive PlateSource where
  | data (b : List Byte)
  | media (nsid lba : Nat)
  deriving DecidableEq, Repr

/-- How an operation names a counter (R373): a run's logical number, or a binding of the stream engine's. -/
inductive CtrName where
  | run (slot c : Nat)
  | stream (ctx b : Nat)
  deriving DecidableEq, Repr

/-- Who issues an operation on a counter (R375): a core or the DMA of a logical tile, a gather engine of the run's
regions (2i and 2i + 1 of logical region i), a text lane, or the stream engine for a context. -/
inductive SyncIssuer where
  | core (tile : Nat)
  | dma (tile : Nat)
  | engine (e : Nat)
  | lane (l : Nat)
  | stream (ctx : Nat)
  deriving DecidableEq, Repr

/-- Who issues a range marker (R391): a logical tile of a run, or software through a path. -/
inductive MarkSource where
  | tile (slot t : Nat)
  | software (p : BusPath)
  deriving DecidableEq, Repr

/-- What isolates a region (R34). -/
inductive RegionFaultCause where
  | pll
  | island
  | store
  deriving DecidableEq, Repr

/-- A START request: the 128-byte run descriptor, the argument block and the table descriptors it names, as read in
the address space of the request's path (R343). -/
structure StartReq where
  desc : List Byte
  args : List Byte
  tables : List (List Byte)
  /-- Where run records go: RECORD_ADDR and RECORD_VECTOR (R422), or a destination handle (R481, R602). -/
  recAddr : Nat := 0
  recVector : Nat := 0
  recHandle : Nat := 0
  deriving DecidableEq, Repr

/-- The rounding an operation names: RNE, or SR with the operation number the plate gives it (R299). -/
inductive RoundSel where
  | rne
  | sr (op : Nat)
  deriving DecidableEq, Repr

/-- One output tile of a matrix operation (R300): at most 64 × 64 elements. A is m rows of k elements, B is n columns
of k elements, each tensor as R294 stores it. `c` is the address and the format of a C_in of m × n elements. A 2:4 sparse B
has its metadata at `meta24`. The output element (i, j) has the row-major index idxBase + i × idxStride + j in the
operation's logical output tensor (R299). -/
structure MatrixOp where
  m : Nat
  n : Nat
  k : Nat
  fmtA : Nat
  fmtB : Nat
  a : Nat
  b : Nat
  c : Option (Nat × Nat)
  out : Nat
  fmtOut : Nat
  sat : Bool
  rnd : RoundSel
  idxBase : Nat
  idxStride : Nat
  meta24 : Option Nat
  deriving DecidableEq, Repr

inductive VecKind where
  | add
  | sub
  | mul
  | fma
  | minimum
  | maximum
  deriving DecidableEq, Repr

/-- An elementwise operation on n elements (R305); `z` is the third operand of fma. -/
structure VectorOp where
  kind : VecKind
  fmtX : Nat
  x : Nat
  fmtY : Nat
  y : Nat
  fmtZ : Nat
  z : Nat
  n : Nat
  fmtOut : Nat
  out : Nat
  sat : Bool
  rnd : RoundSel
  idxBase : Nat
  deriving DecidableEq, Repr

inductive ReduceKind where
  | sum
  | minimum
  | maximum
  deriving DecidableEq, Repr

/-- A reduction of n elements (R306). With `canonical` the n leaves are logical ranks, added pairwise level by level
as slow-fire does (R327). -/
structure ReduceOp where
  kind : ReduceKind
  fmt : Nat
  src : Nat
  n : Nat
  out : Nat
  canonical : Bool
  deriving DecidableEq, Repr

inductive SpecialFn where
  | sqrt
  | rcp
  | rsqrt
  | div
  | exp2
  | log2
  | exp
  | log
  | sigmoid
  | tanh
  deriving DecidableEq, Repr

/-- A special function on n FP32 elements (R307); `src2` is the divisor. -/
structure SpecialOp where
  fn : SpecialFn
  src : Nat
  src2 : Nat
  n : Nat
  out : Nat
  deriving DecidableEq, Repr

/-- A quantise or convert operation (R296-R299). `inner` is the innermost dimension. -/
structure QuantOp where
  fmtIn : Nat
  src : Nat
  n : Nat
  inner : Nat
  fmtOut : Nat
  out : Nat
  sat : Bool
  rnd : RoundSel
  idxBase : Nat
  deriving DecidableEq, Repr

/-- ROUTE (R311, R312). Its outputs: per expert a u32 count at `counts`, and its row numbers as u32 from
`rows + 4 × c × expert`; per row and rank 12 bytes (u16 expert, u16 0, u32 slot, FP32 score) at `choices`; and a u32
number of dropped choices at `dropped`. -/
structure RouteOp where
  g : Nat
  n : Nat
  e : Nat
  k : Nat
  c : Nat
  tau : Word
  counts : Nat
  rows : Nat
  choices : Nat
  dropped : Nat
  deriving DecidableEq, Repr

/-- COMBINE (R313): the choices of a ROUTE, expert outputs of c slots × d FP32 elements per expert, and optionally a
weight tensor of n × k. -/
structure CombineOp where
  choices : Nat
  n : Nat
  k : Nat
  c : Nat
  d : Nat
  y : Nat
  w : Option Nat
  out : Nat
  deriving DecidableEq, Repr

inductive GatherMode where
  | none
  | sum
  | wsum
  | mean
  | max
  deriving DecidableEq, Repr

/-- EMB_GATHER (R319). -/
structure GatherOp where
  table : Nat
  bags : Nat
  offsets : Nat
  indices : Nat
  weights : Option Nat
  mode : GatherMode
  fmtOut : Nat
  out : Nat
  sat : Bool
  deriving DecidableEq, Repr

/-- EMB_APPLY (R322). -/
structure ApplyOp where
  table : Nat
  step : Nat
  lr : Word
  deriving DecidableEq, Repr

/-- WATCH (R397). -/
structure WatchOp where
  id : Nat
  fmt : Nat
  src : Nat
  n : Nat
  out : Nat
  deriving DecidableEq, Repr

/-- An operation of a tile, its DMA or a gather engine: what a suspended or held operation retries. -/
inductive TileOp where
  | matrix (o : MatrixOp)
  | vector (o : VectorOp)
  | reduce (o : ReduceOp)
  | special (o : SpecialOp)
  | quant (o : QuantOp)
  | route (o : RouteOp)
  | combine (o : CombineOp)
  | watch (o : WatchOp)
  | gather (o : GatherOp)
  | apply (o : ApplyOp)
  /-- A DMA descriptor at an address, with the plane, row and byte reached (R363). -/
  | dma (desc i2 i1 off : Nat)
  deriving DecidableEq, Repr

/-- One gradient contribution (R321). -/
structure GradContribution where
  table : Nat
  row : Nat
  grad : List Word
  folio : Nat
  position : Nat
  deriving DecidableEq, Repr

end Sys2Proof

namespace Sys2Proof.Machine

/-- A section of a resident plate (R335). -/
structure PlateSection where
  kind : Nat
  subtype : Nat
  write : Bool
  vaddr : Nat
  data : List Byte
  deriving DecidableEq, Repr

/-- A WEIGHT_REFS entry (R336). -/
structure WeightRef where
  vaddr : Nat
  lba : Nat
  length : Nat
  nsid : Nat
  tier : Nat
  hash : List Byte := []
  deriving DecidableEq, Repr

/-- A MEMORY_MAP entry (R337). -/
structure MapEntry where
  vaddr : Nat
  length : Nat
  tier : Nat
  write : Bool
  pinned : Bool
  page2m : Bool
  nsid : Nat
  lba : Nat
  deriving DecidableEq, Repr

/-- A resident plate (R334-R341). -/
structure Plate where
  digest : Nat
  kind : Nat
  regions : Nat
  slowFire : Bool
  sieve : Bool
  generation : Bool
  ranks : Nat
  sieveCost : Nat
  length : Nat
  stackMin : Nat
  bulkMin : Nat
  sections : List PlateSection
  weights : List WeightRef
  maps : List MapEntry
  refs : List Nat
  graph : Option Graph
  deriving DecidableEq, Repr

/-- Run states (R346). -/
inductive RunState where
  | free
  | queued
  | starting
  | running
  | preempting
  | saved
  | resuming
  | held
  | ending
  deriving DecidableEq, Repr

/-- An embedding table of a run (R315). -/
structure EmbTable where
  number : Nat
  fmt : Nat
  nsid : Nat
  baseLba : Nat
  rows : Nat
  dim : Nat
  stride : Nat
  optimiser : Nat
  srOnStore : Bool
  indexSkip : Bool
  sat : Bool
  eps : Nat
  hotMib : Nat
  warmGib : Nat
  deriving DecidableEq, Repr

/-- A mapping of a run's paged range, where it was placed (R355): tier 1 stack, 2 bulk, 4 media-backed. -/
structure Mapping where
  vaddr : Nat
  length : Nat
  tier : Nat
  write : Bool
  exec : Bool
  pinned : Bool
  page2m : Bool
  nsid : Nat
  lba : Nat
  deriving DecidableEq, Repr

/-- What a page-table entry holds that changes (R353): accessed, dirty, resident, its frame, and when it was last
used. -/
structure PageEntry where
  va : Nat
  accessed : Bool := false
  dirty : Bool := false
  resident : Bool := true
  frame : Nat := 0
  used : Nat := 0
  deriving DecidableEq, Repr

/-- A row in a table's caches (R317), most recently used first in `Run.rows`. -/
structure CachedRow where
  table : Nat
  row : Nat
  bytes : List Byte
  dirty : Bool
  deriving DecidableEq, Repr

/-- A suspended operation (R361-R363): its source (logical tile, or 0x8000 + engine), the page or the table rows it
waits for, and the fault status once it is held. -/
structure Susp where
  source : Nat
  op : TileOp
  page : Option Nat := none
  rows : List (Nat × Nat) := []
  status : Nat := 0
  vaddr : Nat := 0
  deriving DecidableEq, Repr

/-- What a waiter waits for (R375). -/
inductive WaitFor where
  | ge (v : Nat)
  | sub (n : Nat)
  | release (gen : Nat)
  deriving DecidableEq, Repr

/-- A waiter: its signaller code (R386), its logical tile, and what it waits for. -/
structure Waiter where
  who : Nat
  tile : Nat
  what : WaitFor
  deriving DecidableEq, Repr

/-- A DMA descriptor in a tile DMA's chain (R357, R358). -/
structure DmaJob where
  desc : Nat
  isLast : Bool
  signal : Bool
  sync : Nat
  /-- Its bytes have moved, or its engine job's completion is written. -/
  done : Bool
  deriving DecidableEq, Repr

/-- State of one tile (R332, R388-R391, R401), by physical number. `acc0` and `acc1` are the two accumulator sets
of the MAC array, as FP32 codes of the last output tiles, row-major (R304). -/
structure TileState where
  faulted : Bool := false
  evtSel : List Nat := List.replicate 8 0
  evtCnt : List Nat := List.replicate 8 0
  evtOvf : BitVec 8 := 0
  /-- The latched HI word of the last 32-bit LO read: counter and value (R390). -/
  hiLatch : Option (Nat × Nat) := none
  depth : Nat := 0
  realign : List Nat := List.replicate 8 0
  dma : List DmaJob := []
  acc0 : List Nat := []
  acc1 : List Nat := []
  accNext1 : Bool := false
  deriving DecidableEq, Repr

/-- What a save area holds (R364, R365): the bytes of its save header, region counters, and region and tile stores by logical
number. -/
structure SaveArea where
  header : List Byte
  counters : List Nat
  /-- Pending waits of the tiles, by logical counter (R374). -/
  waits : List (Nat × Waiter)
  regionStores : List Memory
  tileStores : List Memory
  /-- Per tile: accumulators, DMA queue, event counters and sync-port state. -/
  tiles : List TileState
  deriving DecidableEq, Repr

/-- A run in its slot (R343-R351, R369). -/
structure Run where
  slot : Nat
  state : RunState := .free
  path : ReqPath
  plate : Nat
  seed : Nat
  regionMask : Nat
  slow : Bool
  priority : Nat
  preemptible : Bool
  queue : Bool
  tag : Nat
  fn : Nat
  hostBase : Nat
  hostLength : Nat
  /-- The function of the START has been reset, or its link has gone down, since (R423, R438). -/
  hostGone : Bool := false
  recAddr : Nat := 0
  recVector : Nat := 0
  recHandle : Nat := 0
  deviceCount : Nat
  deviceIndex : Nat
  stackPages : Nat
  bulkPages : Nat
  savePages : Nat := 0
  /-- Physical regions held, in logical order; and those held last. -/
  regions : List Nat := []
  lastRegions : List Nat := []
  tables : List EmbTable := []
  args : List Byte := []
  maps : List Mapping := []
  /-- Contents of the paged range, by virtual address. -/
  mem : Memory := []
  pages : List PageEntry := []
  /-- Pages being filled. -/
  filling : List Nat := []
  /-- Cached table rows and the rows of the stack-memory cache, most recently used first. -/
  rows : List CachedRow := []
  hot : List (Nat × Nat) := []
  grads : List GradContribution := []
  /-- EMB_FLUSH under way: rows dirty at its issue. -/
  flush : Option (List (Nat × Nat)) := none
  susp : List Susp := []
  heldPending : Bool := false
  save : Option SaveArea := none
  /-- Order of its request in the waiting list, and of its start. -/
  order : Nat := 0
  started : Nat := 0
  resumeQueued : Bool := false
  /-- A PREEMPT was asked by the scheduler (R350). -/
  status : Status := 0
  detail : Nat := 0
  tile : Nat := 0xFFFF
  faultVaddr : Nat := 0
  cycles : Nat := 0
  stackUsed : Nat := 0
  bulkUsed : Nat := 0
  spills : Nat := 0
  fills : Nat := 0
  evictions : Nat := 0
  preempts : Nat := 0
  ovf : BitVec 3 := 0
  ptRoot : Nat := 0
  /-- A stream's stage run: its context. -/
  stage : Option Nat := none
  deriving DecidableEq, Repr

/-- The run manager (R334-R369): plates, runs by slot, and free pages of 2 MiB. -/
structure RunMgr where
  plates : List Plate := []
  runs : List Run := []
  stackFree : Nat := 0
  bulkFree : Nat := 0
  ptUsed : Nat := 0
  /-- The order number the next waiting or started run takes. -/
  nextOrder : Nat := 0
  /-- Regions isolated by a fault (R34), and regions with a faulted router (R36). -/
  isolated : List Nat := []
  routers : List Nat := []
  /-- Flows of runs, as source and destination tile, that have moved to YX routing (R36). -/
  yxFlows : List (Nat × Nat) := []
  /-- Last status words of slots whose run has ended (R369). -/
  lastStatus : List (Nat × Nat × Nat) := []
  deriving DecidableEq, Repr

/-- Statistics of a region's gather engines (R332): gathers, media reads, skips, apply skips. -/
structure RegionState where
  ctr : List Nat := List.replicate 4 0
  ovf : BitVec 4 := 0
  deriving DecidableEq, Repr

/-- The field die's stores: tile stores by physical tile × 2^20, region stores by region × 2^23, and the state of
tiles and regions that differs from its reset value. -/
structure Field where
  tileMem : Memory := []
  regionMem : Memory := []
  tiles : List (Nat × TileState) := []
  regions : List (Nat × RegionState) := []
  deriving DecidableEq, Repr

/-- Who owns a shared counter (R372). -/
inductive CounterOwner where
  | run (slot binding : Nat)
  | stream (ctx binding : Nat)
  deriving DecidableEq, Repr

/-- A sync counter (R370-R387). -/
structure Counter where
  value : Nat := 0
  barrier : Bool := false
  parties : Nat := 0
  pairs : List (Nat × Nat) := []
  gen : Nat := 0
  bgen : Nat := 0
  remote : Bool := false
  owner : Option CounterOwner := none
  seq : Nat := 0
  signaller : Nat := 0
  device : Nat := 0
  waiters : List Waiter := []
  changedAt : Nat := 0
  deriving DecidableEq, Repr

/-- The sync counters, and barriers whose release is due (R379). -/
structure Sync where
  ctrs : List (Nat × Counter) := []
  due : List Nat := []
  deriving DecidableEq, Repr

/-- The trace (R392-R396). -/
structure Obs where
  active : Bool := false
  full : Bool := false
  wrapped : Bool := false
  base : Nat := 0
  wr : Nat := 0
  lostSince : Nat := 0
  pages : Nat := 0
  /-- The trace area, by byte of the area. -/
  mem : Memory := []
  /-- Nesting depth of software markers (R391). -/
  depth : Nat := 0
  deriving DecidableEq, Repr

end Sys2Proof.Machine
end

