-- ==== Sys2Proof/Types/Boot.lean ====
section
/-! DEFINITION. What the board, the media and the external algorithms answer while the reset sequence runs
(R584-R602). -/

namespace Sys2Proof

/-- A populated NAND target and what its identification and training find (R110-R112): whether it answers at SDR timing mode 0, its
parameters pass their CRC, a supported data interface, its page, cell type and SLC mode, EZ-NAND, the outcome of training, its
geometry, the rates it supports in 100 MT/s, and read-level offsets. -/
structure FoundTarget where
  channel : Nat
  target : Nat
  responds : Bool := true
  paramOk : Bool := true
  interfaceOk : Bool := true
  slcMode : Bool := true
  ezNand : Bool := false
  trains : Bool := true
  geometry : Machine.NandGeometry := {}
  rates : List Nat := [8, 12, 16, 24, 32, 36]
  readLevel : Bool := true
  deriving DecidableEq, Repr

/-- How a configuration copy was read (R598): without an xSPI error, and the second read equal to the first. -/
structure CopyRead where
  readOk : Bool := true
  sameAgain : Bool := true
  deriving DecidableEq, Repr

/-- The outcome of each step of the sequence that the part does not decide itself. -/
structure BootInputs where
  /-- What the part's fuses hold; looked at by the part's first trim load only (R2-R6, R590). -/
  fuses : Machine.Fuses := {}
  /-- The trim attempt that passes its CRC, 1 to 3; 0 when all three fail (R590). -/
  trim : Nat := 1
  /-- The die links that train (R40). -/
  fm : Bool := true
  fn : Bool := true
  mn : Bool := true
  /-- GiB on each DDR5 channel, and the DDR5 channels and HBM4 stacks that fail training (R588). -/
  dimms : List Nat := []
  badChannels : List Nat := []
  badStacks : List Nat := []
  /-- The populated NAND targets. -/
  targets : List FoundTarget := []
  /-- The anchor records that are valid, and the checkpoint of the current one readable through tier 5 (R143, R145). -/
  anchor0Ok : Bool := true
  anchor1Ok : Bool := true
  ckptOk : Bool := true
  /-- Copies of journal pages that fail their CRC, as JOURNAL_SEQ and copy; and last-gasp pages read before the first that
  fails. -/
  journalBad : List (Nat × Nat) := []
  gaspGood : Nat := 2 ^ 64
  /-- REBUILD_PCT at which a reset cuts the rebuild off. -/
  rebuildPct : Nat := 0
  /-- The flash answers discovery and is of a supported kind (R592). -/
  flashOk : Bool := true
  copyA : CopyRead := {}
  copyB : CopyRead := {}
  /-- NAMESPACES entries, by section and entry, whose key no key block accepts (R557). -/
  keyFails : List (Nat × Nat) := []
  /-- How far the sequence runs before the next reset cuts it off: to READY, or into the step named; with the number of
  image entries applied when it is APPLY (R608). -/
  reach : Machine.BootPhase := .ready
  applied : Nat := 0
  deriving DecidableEq, Repr

end Sys2Proof
end

