-- ==== Sys2Proof/Types/Net.lean ====
section
/-! DEFINITION. Jobs, host queues, the Gnoz transport, buffer pools, egress and stripe groups: operands of their
commands, and their state (R165-R198, R403-R549). -/

namespace Sys2Proof

/-- How a host-memory access ended (R418, R360). -/
inductive HostAccess where
  | ok
  | unsupportedRequest
  | completerAbort
  | timeout
  | poisoned
  deriving DecidableEq, Repr

/-- What an external format made of a compression-engine job (R173, R176, R184): its status with the values of its
completion, the bytes it wrote, and, on a stop, the record it writes. -/
structure JobOutcome where
  status : Status
  detail : Nat := 0
  inBits : Nat := 0
  output : List Byte := []
  valueA : Nat := 0
  valueB : Nat := 0
  block : Nat := 0
  record : List Byte := []
  deriving DecidableEq, Repr

/-- A received frame as the policers see it (R511): logical port, wire bytes and DSCP. -/
structure FrameInfo where
  port : Nat
  wire : Nat
  dscp : Nat
  deriving DecidableEq, Repr

/-- A received Ethernet frame that carries a Gnoz packet: logical port, the 64-byte header, the fragment payload
(encrypted in sealed mode), the tag that follows it in sealed mode, the CE mark, the DSCP and the frame length in bytes. -/
structure GnozPacket where
  port : Nat
  header : List Byte
  payload : List Byte
  tag : List Byte
  ce : Bool
  dscp : Nat
  frameBytes : Nat
  deriving DecidableEq, Repr

/-- Why a received frame is discarded (R443, R445). -/
inductive DiscardCause where
  | oversize
  | doubleTagged
  | pauseOrPfc
  | ipOptionsOrFragments
  | ipv6Extension
  | zeroChecksumV6
  | badChecksum
  | otherIcmp
  | unknownUdp
  | ptpNotEnabled
  | vlanTag
  deriving DecidableEq, Repr

/-- The egress shape of a frame (R506): a strict queue or a weighted one. -/
inductive QueueSel where
  | strict (n : Nat)
  | weighted (q : Nat)
  deriving DecidableEq, Repr

/-- A change of the group table (R525, R528, R536): an entry declared failed, a device added as spare with its route, a
rebuilt position that becomes ACTIVE. -/
inductive GroupChange where
  | failed (entry : Nat)
  | spare (device route : Nat)
  | active (entry : Nat)
  deriving DecidableEq, Repr

/-- A group namespace (R529): its stripes, whether it is sealed, and its lost stripes, as pairs (r, m): every stripe s
with s mod G = r and s ≥ m is lost (R546). -/
structure GroupNs where
  nsid : Nat
  stripes : Nat
  isSealed : Bool := false
  lost : List (Nat × Nat) := []
  deriving DecidableEq, Repr

/-- A group table, as a group record on the media holds it (R525): its generation, the settings, and device, route and
state of the 65 entries; a spare also receives the group namespaces with it. -/
structure GroupRecord where
  gen : Nat
  groupId : Nat
  members : Nat
  devices : List Nat
  routes : List Nat
  states : List Nat
  spaces : List GroupNs := []
  deriving DecidableEq, Repr

/-- What a group message that is no heartbeat, proposal, PREPARE, COMMIT, mirror or stream-table entry reports (R525, R529,
R533, R540, R541): an entry suspected; a proposal acknowledged; a stream-table entry stored; a mirror stored; a PREPARE
held; a COMMIT decision journaled by the Q holder; a namespace request applied, or refused; a forwarded stripe write ended. -/
inductive GroupVote where
  | suspect (entry : Nat)
  | ack (gen : Nat)
  | tableStored (streamId : Nat)
  | mirrorStored (streamId : Nat)
  | prepared (write : Nat)
  | decided (write : Nat)
  | nsApplied (nsid : Nat) (status : Status)
  | writeEnded (write : Nat) (status : Status)
  deriving DecidableEq, Repr

end Sys2Proof

namespace Sys2Proof.Machine

/-- A job descriptor (R169). -/
structure JobDesc where
  op : Nat
  format : Nat
  flags : Nat
  tag : Nat
  inAddr : Nat
  inLen : Nat
  outAddr : Nat
  outCap : Nat
  expected : Nat
  stateAddr : Nat
  histAddr : Nat
  deriving DecidableEq, Repr

/-- Who submitted a job: a ring, a run's tile DMA, or a Gnoz queue's check. -/
inductive JobOwner where
  | ring (q : Nat)
  | run (slot tile desc : Nat)
  deriving DecidableEq, Repr

/-- A job an engine holds (R171). -/
structure CmpJob where
  engine : Nat
  owner : JobOwner
  desc : JobDesc
  /-- Proof blocks: the job has been resubmitted once (R185). -/
  retried : Bool := false
  deriving DecidableEq, Repr

/-- A job submitted and not yet started: the next descriptor of a ring, or a job of a run's DMA, with whether it is submitted for
the second time (R185, R192). -/
inductive CmpSub where
  | ring (q : Nat)
  | run (owner : JobOwner) (desc : JobDesc) (retried : Bool)
  deriving DecidableEq, Repr

/-- Compression engines and check units: jobs held, descriptors started per ring, engines out of service. -/
structure Cmp where
  jobs : List CmpJob := []
  started : List Nat := List.replicate 16 0
  /-- Jobs that wait for an engine, in order of submission. -/
  queue : List CmpSub := []
  oos : BitVec 32 := 0
  deriving DecidableEq, Repr

/-- A submission-queue entry (R412). -/
structure SqEntry where
  opcode : Nat
  flags : Nat
  cid : Nat
  nsid : Nat
  arg0 : Nat
  arg1 : Nat
  dataAddr : Nat
  dataLen : Nat
  arg2 : Nat
  arg3 : Nat
  arg4 : Nat
  reserved : Nat
  deriving DecidableEq, Repr

/-- A queue pair (R408-R416, R430-R433). -/
structure Queue where
  fn : Nat
  qid : Nat
  depth : Nat
  sqBase : Nat
  cqBase : Nat
  vector : Nat
  irqEn : Bool
  sqHead : Nat := 0
  sqTail : Nat := 0
  cqTail : Nat := 0
  cqHead : Nat := 0
  phase : Bool := true
  frozen : Bool := false
  resumeHead : Nat := 0
  /-- Queue Delete waits: the CID of the delete command, or none when the function is being reset. -/
  deleting : Option (Option Nat) := none
  deriving DecidableEq, Repr

/-- A fetched command: its queue, its SQ index and its entry; admitted or waiting. -/
structure Cmd where
  fn : Nat
  qid : Nat
  idx : Nat
  entry : SqEntry
  deriving DecidableEq, Repr

/-- A range-lock entry (R435). -/
structure RangeLock where
  path : ReqPath
  nsid : Nat
  lba : Nat
  count : Nat
  excl : Bool
  deriving DecidableEq, Repr

/-- Coalescing of one vector (R417): threshold, time in µs, entries since the last raise, when the first came. -/
structure Coalesce where
  vector : Nat
  threshold : Nat := 1
  time : Nat := 0
  count : Nat := 0
  firstAt : Nat := 0
  deriving DecidableEq, Repr

/-- A function (R404-R409, R442). -/
structure Fn where
  g : Nat
  queues : Nat := 0
  vectors : Nat := 0
  burst : Nat := 8
  nsVis : BitVec 256 := 0
  vfEnabled : Nat := 0
  coalesce : List Coalesce := []
  /-- MSI-X vectors that are unmasked, and those with their pending bit set (R417). -/
  unmasked : List Nat := []
  msixPending : List Nat := []
  aqSq : Nat := 0
  aqCq : Nat := 0
  aqCfg : Word := 0
  aqReady : Bool := false
  badConfig : Bool := false
  deriving DecidableEq, Repr

/-- A result waiting for its CQ entry: path, status, detail, result words or data. -/
structure CmdDone where
  fn : Nat
  qid : Nat
  cid : Nat
  status : Status
  detail : Nat
  result : List Nat
  data : List Byte := []
  deriving DecidableEq, Repr

/-- A PCIe link: up, flit mode, GT/s, lanes. -/
structure PcieLink where
  up : Bool := false
  flit : Bool := false
  speed : Nat := 0
  width : Nat := 0
  deriving DecidableEq, Repr

/-- The host queue interface (R403-R442). -/
structure Yqi where
  link0 : PcieLink := {}
  link1 : PcieLink := {}
  fns : List Fn := [{ g := 0, queues := 2048, vectors := 1024 }, { g := 32, queues := 2048, vectors := 1024 }]
  queues : List Queue := []
  admitted : List Cmd := []
  parked : List Cmd := []
  /-- Commands a policer holds: the command, its policer and the policer stage. -/
  policed : List (Cmd × Nat × Nat) := []
  locks : List RangeLock := []
  done : List CmdDone := []
  /-- The arbiter: the I/O queue served last, and the commands taken from it in turn (R434). -/
  turn : Option (Nat × Nat) := none
  taken : Nat := 0
  /-- Configuration-image staging (R428). -/
  staging : Memory := []
  deriving DecidableEq, Repr

/-- The header of a Gnoz message, without the fields of one fragment (R446). -/
structure GnozHdr where
  kind : Nat
  flags : Nat := 0
  device : Nat
  route : Nat
  dstQueue : Nat
  srcQueue : Nat
  msgId : Nat
  length : Nat
  rkey : Nat := 0
  remoteAddr : Nat := 0
  immediate : Nat := 0
  deriving DecidableEq, Repr

/-- Whose message it is, and so where its end is reported. A work request carries where its returned data goes. -/
inductive MsgOwner where
  | wr (queue index op replyAddr replyCap : Nat)
  | forme (ctx n : Nat)
  | event (ctx status forme : Nat)
  | reply
  | group
  | record (slot : Nat)
  deriving DecidableEq, Repr

/-- A message of this device that has not ended (R454, R455). It takes its message ID at its first transmission
(`minted`); `nextFrag` is the next fragment of the first transmission, `resend` those to send again, `flight` the
fragments in flight with their paths, `held` whether it waits at a backlog limit, `acked` whether only its
returned data is still to come, `refused` the refusal that is retried (R474), and `ended` whether a forme or event
waits to be sent again (R480). -/
structure OutMsg where
  hdr : GnozHdr
  payload : List Byte
  owner : MsgOwner
  minted : Bool := false
  bornAt : Nat := 0
  shift : Nat := 10
  nextFrag : Nat := 0
  resend : List Nat := []
  probe : Bool := false
  attempt : Nat := 0
  lastPath : Nat := 7
  rtoAt : Nat := 0
  rto : Nat := 0
  busy : Bool := false
  flight : List (Nat × Nat) := []
  held : Bool := false
  acked : Bool := false
  refused : Status := 0
  ended : Bool := false
  deriving DecidableEq, Repr

/-- A received message, complete, that waits to be applied. -/
structure InMsg where
  hdr : GnozHdr
  attempt : Nat
  sendTime : Nat
  path : Nat
  port : Nat
  ce : Bool
  payload : List Byte
  /-- The key check that a fragment failed (R465); `placed`: its fragments have been checked and stored. -/
  status : Status := 0
  placed : Bool := false
  deriving DecidableEq, Repr

/-- A duplicate-table entry (R456): its message, and its status and RESULT once applied. -/
structure DupEntry where
  device : Nat
  msgId : Nat
  result : Option (Status × Nat) := none
  deriving DecidableEq, Repr

/-- A reassembly context (R460). -/
structure Reassembly where
  hdr : GnozHdr
  count : Nat
  shift : Nat
  got : List (Nat × List Byte)
  status : Status := 0
  deriving DecidableEq, Repr

/-- Key kinds (R463). -/
inductive KeyKind where
  | bulk
  | run (slot : Nat)
  | nsRange (nsid : Nat)
  /-- The key each member registers for a member namespace (R532): it reads shares. -/
  | member (nsid : Nat)
  deriving DecidableEq, Repr

/-- A key-table entry (R463-R466). -/
structure GnozKey where
  index : Nat
  valid : Bool
  kind : KeyKind
  base : Nat
  length : Nat
  write : Bool
  read : Bool
  notify : Nat
  gen : Nat
  registeredAt : Nat
  deriving DecidableEq, Repr

/-- A route-table entry (R450). -/
structure Route where
  index : Nat
  device : Nat
  remoteSlot : Nat
  pathMask : Nat
  flags : Nat
  sportBase : Nat
  dstPort : Nat
  keyId : Nat
  address : List Byte
  pathPort : List Nat
  targetDelay : Nat
  deriving DecidableEq, Repr

/-- A work request (R468). -/
structure WorkReq where
  op : Nat
  flags : Nat
  waitQueue : Nat
  waitCount : Nat
  dest : Nat
  localAddr : Nat
  length : Nat
  rkey : Nat
  remoteAddr : Nat
  immediate : Nat
  replyAddr : Nat
  replyCap : Nat
  armTag : Nat
  checkCtx : Nat
  reserved : Nat
  deriving DecidableEq, Repr

/-- A Gnoz queue (R467-R475). `group` holds the ring indexes of the writes of the present group that have not
completed, `groupFailed` the first that failed, and `sealed` a sealed write that waits. -/
structure GnozQueue where
  q : Nat
  run : Option Nat := none
  head : Nat := 0
  count : Nat := 0
  cqTail : Nat := 0
  armed : List (Nat × WorkReq) := []
  /-- Armed requests that an ARM released, which start under R472 before the ring's own. -/
  released : List (Nat × WorkReq) := []
  group : List Nat := []
  groupFailed : Option Nat := none
  sealWaits : List (Nat × WorkReq × List Nat) := []
  recvs : List (Nat × WorkReq) := []
  lastStatus : Nat := 0
  waiting : Bool := false
  deriving DecidableEq, Repr

/-- The congestion state of a (route, path) (R482). -/
structure PathState where
  route : Nat
  path : Nat
  window : Nat := 524288
  inFlight : Nat := 0
  /-- RTT samples of the last 10 s: time and RTT, in ns. -/
  rtts : List (Nat × Nat) := []
  cutAt : Option Nat := none
  deriving DecidableEq, Repr

/-- A CONTROL request being served: device, message, requester's queue, reply address and route (R481). -/
structure ControlReq where
  device : Nat
  msgId : Nat
  queue : Nat
  route : Nat
  path : Nat
  deriving DecidableEq, Repr

/-- The transport (R443-R490). -/
structure Gnoz where
  routes : List Route := []
  /-- Routes whose KEY_ID has changed: index, the previous KEY_ID, and when (R566). -/
  prevKeys : List (Nat × Nat × Nat) := []
  keys : List GnozKey := []
  queues : List GnozQueue := []
  out : List OutMsg := []
  inbox : List InMsg := []
  dups : List DupEntry := []
  reasm : List Reassembly := []
  paths : List PathState := []
  controls : List ControlReq := []
  msgCtr : Nat := 0
  /-- The hold-off of R453 has ended. -/
  started : Bool := false
  /-- Gnoz time minus device time, in ns, and whether it has been set; the PTP servo's lock (R452). -/
  clockOffset : Int := 0
  timeSet : Bool := false
  ptpLocked : Bool := false
  /-- Logical ports that are up, with their speed code (R490). -/
  portsUp : List (Nat × Nat) := []
  tableStatus : Nat := 0
  tableData : List Word := List.replicate 16 0
  deriving DecidableEq, Repr

/-- A granted buffer (R501): its owner is a requester port and unit. -/
structure Buffer where
  die : Nat
  pool : Nat
  index : Nat
  cls : Nat
  port : Nat
  unit : Nat
  holders : List (Nat × Nat) := []
  freePending : Bool := false
  deriving DecidableEq, Repr

/-- A waiting buffer request (R499). -/
structure BufWait where
  die : Nat
  port : Nat
  unit : Nat
  cls : Nat
  home : Nat
  deriving DecidableEq, Repr

/-- The pool managers: granted buffers, wait lists, and pools whose WARN is set (R491-R504). -/
structure Pools where
  bufs : List Buffer := []
  waits : List BufWait := []
  warn : List (Nat × Nat) := []
  deriving DecidableEq, Repr

/-- A frame that waits in an egress queue: its wire bytes, whether it is a Gnoz frame, and what it sends. -/
structure Frame where
  wire : Nat
  gnoz : Bool
  send : Emit
  deriving DecidableEq, Repr

/-- A queue instance of a port (R505, R507, R509): frames, the head's tag, the last tag, and the eligible time and
the calendar slot it waits for. -/
structure QueueInst where
  port : Nat
  sel : QueueSel
  frames : List Frame := []
  headTag : Nat := 0
  lastTag : Nat := 0
  eligAt : Nat := 0
  slot : Option Nat := none
  deriving DecidableEq, Repr

/-- The egress scheduler (R505-R510): queue instances and each port's virtual time. -/
structure Egress where
  insts : List QueueInst := []
  vtime : List (Nat × Nat) := []
  deriving DecidableEq, Repr

/-- A policer's buckets in bits (R512). -/
structure Policer where
  die : Nat
  n : Nat
  tc : Nat
  te : Nat
  deriving DecidableEq, Repr

/-- POOL and EGS configuration (R516): the register file holds the shadow copy; `inForce` holds the values still in
force of the words whose shadow copy waits for the next tick. `policers` holds the buckets of enabled policers. -/
structure Shadow where
  inForce : List (Nat × Word) := []
  policers : List Policer := []
  deriving DecidableEq, Repr

/-- A prepared share (R533): group write identifier, its coordinator's position, namespace, stripe, share index and
data; `decided` once the COMMIT decision is known here. -/
structure Prepared where
  write : Nat
  coord : Nat
  nsid : Nat
  stripe : Nat
  share : Nat
  data : List Byte
  decided : Bool := false
  deriving DecidableEq, Repr

/-- How far a stripe write has come at the member that follows it (R533): with its coordinator elsewhere; PREPAREs sent;
the decision journaled here and sent to the Q holder. -/
inductive StripePhase where
  | forwarded
  | preparing
  | deciding
  deriving DecidableEq, Repr

/-- A stripe write under way (R533): its identifier, the writer, the new shares, and the positions whose acknowledgement
is still to come. -/
structure StripeWrite where
  write : Nat
  path : ReqPath
  nsid : Nat
  stripe : Nat
  shares : List (Nat × List Byte)
  phase : StripePhase
  waiting : List Nat
  /-- A stripe of the same request was aborted. -/
  failed : Bool := false
  deriving DecidableEq, Repr

/-- A membership proposal (R525, R528): the generation it makes, its change, and the entries that acknowledged it. -/
structure Proposal where
  gen : Nat
  change : GroupChange
  acks : List Nat
  /-- The table a spare receives with the proposal that adds it. -/
  table : Option GroupRecord := none
  deriving DecidableEq, Repr

/-- A group stream-table entry (R540). -/
structure GroupStream where
  params : StreamParams
  ctx : Nat
  primary : Nat
  partner : Nat
  deriving DecidableEq, Repr

/-- A mirror held for a primary (R541). -/
structure Mirror where
  streamId : Nat
  pushes : List PushRecord
  completeEpoch : Option Nat
  halted : Option (Status × Nat)
  ack : Nat
  limit : Nat
  deriving DecidableEq, Repr

/-- A bring-in (R536, R537): its position, the index of the namespace it has reached, and the next stripe of it. -/
structure Rebuild where
  pos : Nat
  nsIndex : Nat := 0
  next : Nat := 0
  deriving DecidableEq, Repr

/-- A GRP_NS_CTRL request that this member issued (R529): its action, its namespace, and the members that applied it. -/
structure NsRequest where
  action : Nat
  nsid : Nat
  acks : List Nat
  deriving DecidableEq, Repr

/-- Group state (R521-R549). Entry states: 0 EMPTY, 1 ACTIVE, 2 REBUILDING, 3 FAILED; `state` is GRP_STATE.STATE. -/
structure Group where
  self : Nat := 127
  gen : Nat := 0
  state : Nat := 0
  states : List Nat := List.replicate 65 0
  /-- Entries whose heartbeats carried this device's digest, and another one (R523). -/
  digestSame : List Nat := []
  digestOther : List Nat := []
  badLogged : Bool := false
  /-- Last heartbeat of each entry, in ns. -/
  heard : List (Nat × Nat) := []
  /-- (reporter, suspect) pairs. -/
  suspects : List (Nat × Nat) := []
  proposal : Option Proposal := none
  /-- Without quorum for 40 ms (R526): group formes and group writes are held. -/
  holding : Bool := false
  namespaces : List GroupNs := []
  nsRequest : Option NsRequest := none
  prepared : List Prepared := []
  writes : List StripeWrite := []
  /-- Writes whose COMMIT decision is journaled here. -/
  decisions : List Nat := []
  rebuilds : List Rebuild := []
  /-- The model's own view of the other members: the shares they hold, keyed nsid * 2^64 + (stripe * 16 + share) * 16,384
  + byte. -/
  remoteShares : Memory := []
  lostMask : BitVec 64 := 0
  streams : List GroupStream := []
  mirrors : List Mirror := []
  /-- Contexts that have sent REHOMED and wait for the consumer's CREDIT. -/
  rehoming : List Nat := []
  nextWrite : Nat := 0
  /-- Parameter pushes that wait for the partner's acknowledgement (R541): path, context, records, COMPLETE_EPOCH. -/
  pushWaits : List (ReqPath × Nat × List PushRecord × Option Nat) := []
  /-- Stream Opens and Closes that wait for a quorum (R540): path, stream-table entry, removal, result, entries that
  stored it. -/
  tableWaits : List (ReqPath × GroupStream × Bool × List Nat × List Nat) := []
  spareStatus : Nat := 0
  nsStatus : Nat := 0
  deriving DecidableEq, Repr

end Sys2Proof.Machine
end

