-- ==== Sys2Proof/Types/Trust.lean ====
section
/-! DEFINITION. Operands of the saggar's commands. -/

namespace Sys2Proof

/-- The random numbers that the saggar draws for the two signatures of a report: that of IK over AK, and that of AK over the
report (R339, R567). -/
structure SignDraws where
  ak : Nat
  report : Nat
  deriving DecidableEq, Repr

/-- A JTAG access (R577). -/
inductive JtagAccess where
  | idcodeBypass
  | extest
  | registerAccess (off : Nat) (write : Option Word)
  | scan
  | saggarInternals
  deriving DecidableEq, Repr

end Sys2Proof
end

