-- ==== Sys2Proof/Syntax.lean ====
section
/-! DEFINITION. The commands: one constructor for each row of the table, with the row's operands; the rows that have none
stand last. -/

namespace Sys2Proof

inductive Instr where
  /-- REGISTER_WRITE (R10). A BAR0 or sideband write to a register that has no row of its own updates its unlocked fields, including any range checks that the register's chapter defines. -/
  | registerWrite (t : RegTarget) (v : Word) (hi : Option Word)
  /-- BAD_ACCESS (R12). A BAR0 access of an unsupported size or alignment completes with Unsupported Request, writes nothing and records 0x0106. -/
  | badAccess (p : BusPath) (off : Nat) (bytes : Nat)
  /-- INACTIVE_TILE_ACCESS (R7). An access to the window of a tile in an inactive region discards a write or returns 0 for a read, and records 0x0103. -/
  | inactiveTileAccess (p : BusPath) (off : Nat) (write : Option Word)
  /-- UNASSIGNED_ACCESS (R676). From READY onward, an access to an unassigned BAR0 range returns 0 or discards the write, and records 0x0101 at most once per second. -/
  | unassignedAccess (p : BusPath) (off : Nat) (write : Option Word)
  /-- FENCED_DIE_ACCESS (R677). An access to a range served by a fenced die returns 0xFFFF_FFFF or discards the write, and records 0x1002 once per die per reset. -/
  | fencedDieAccess (p : BusPath) (off : Nat) (write : Option Word)
  /-- TILE_FAULT (R32). A tile fault ends the run that holds the tile, on all of its regions, with a class 0x09 status. -/
  | tileFault (t : Nat) (noProgress : Bool)
  /-- REGION_FAULT (R34). A PLL loss of lock, a power-island fault or an unretryable region-store parity error isolates the region and ends the run that holds it. -/
  | regionFault (g : Nat) (c : RegionFaultCause)
  /-- ROUTER_PARITY_FAULT (R36). A router parity fault isolates its region, moves the crossing flows to YX routing, ends runs that have no route and records the fault. -/
  | routerParityFault (t : Nat) (flows : List (Nat × Nat × Nat))
  /-- FLIT_ERROR (R40). A flit error on a die link is corrected by link-level retry. -/
  | flitError (l : DieLink) (recovered : Bool)
  /-- LINK_RETRAIN_DONE (R41). A retrain ends, and the device counts the retrain and judges the link's failure conditions. -/
  | linkRetrainDone (l : DieLink) (ok : Bool)
  /-- STREAM_OPEN (R70). A Stream Open request, from YQI, Gnoz or the configuration image, is checked in order and either creates a stream context with its stage runs or is refused. -/
  | streamOpen (p : ReqPath) (block : List Byte)
  /-- STREAM_CLOSE (R90). A Stream Close request stops the stream's stage runs and begins closing the stream. -/
  | streamClose (p : ReqPath) (id : Nat)
  /-- STREAM_CLOSE_COMPLETE (R90). Once the formes already handed to egress have completed, the stream discards its incomplete galleys and frees its context. -/
  | streamCloseComplete (c : Nat)
  /-- STREAM_PARAMETERS (R230). A parameter push is checked in order, and is then accepted whole or refused whole. -/
  | streamParameters (p : ReqPath) (push : List Byte)
  /-- STREAM_RESUME (R89). A resume request to a forme m between A and n_next discards galleys at or above m, restarts ended stage runs, and continues the stream from m. -/
  | streamResume (p : ReqPath) (id : Nat) (m : Nat)
  /-- GNOZ_RX_CREDIT (R87). A CREDIT message updates the stream's ACK and LIMIT, or is discarded as stale, or is refused with 0x040A. -/
  | gnozRxCredit (device : Nat) (msgId : Nat)
  /-- FORME_READ (R419). A YQI Forme Read is checked and, when accepted, grants one forme and raises the stream's LIMIT. -/
  | formeRead (p : ReqPath) (id : Nat) (len : Nat)
  /-- FORME_READ_COMPLETE (R419). A forme has been written to the host buffer and its CQ entry written, and ACK advances past the forme. -/
  | formeReadComplete (fn : Nat) (q : Nat) (cid : Nat) (a : HostAccess)
  /-- CANDIDATE_START (R83). When a slot's global index enters the lookahead window, the stream engine starts work on a candidate for that slot. -/
  | candidateStart (c : Nat) (g : Nat) (j : Nat)
  /-- STAGE_COMPLETE (R685). A stage of a candidate's graph finishes, its work units are charged in order, and the candidate passes the stage or fails it. -/
  | stageComplete (c : Nat) (g : Nat) (j : Nat) (stage : Nat)
  /-- PARAM_LOOKUP (R227). Once the candidate's epoch is complete, a parameter-table lookup is made at the start of the stage that reads the entry, and the entry's checks are applied. -/
  | paramLookup (c : Nat) (g : Nat) (j : Nat)
  /-- FORME_HANDOFF (R86). A complete forme whose number is below LIMIT and within 64 of ACK is handed to egress. -/
  | formeHandoff (c : Nat)
  /-- WDG_SELFTEST_START (R64). Writing WDG_DIAG.SELFTEST_START runs both SipHash vectors through every Feistel pipeline. -/
  | wdgSelftestStart (v : Word)
  /-- WDG_SELFTEST_DONE (R64). The self-test finishes and sets SELFTEST_DONE and SELFTEST_PASS. -/
  | wdgSelftestDone (ok : Bool)
  /-- READ (R418). A YQI Read command reads logical blocks of a namespace through the translation layer. -/
  | read (p : ReqPath) (nsid : Nat) (lba : Nat) (count : Nat) (dataLen : Nat)
  /-- NAND_READ_COMPLETE (R116). A page read completes and is decoded through the correction tiers until one tier succeeds or every tier fails. -/
  | nandReadComplete (pma : Nat) (r : NandResult)
  /-- PATROL_READ (R120). The patrol reader visits a closed block and queues it for relocation when it needs tier 2 or higher. -/
  | patrolRead (block : Nat) (rs : List (Nat × NandResult))
  /-- WRITE (R130). A Write command reserves space and is acknowledged once its data and MAP entry are in the protected region. -/
  | write (p : ReqPath) (nsid : Nat) (lba : Nat) (data : List Byte) (fua : Bool) (pl : Placement)
  /-- DISCARD (R155). A Discard sets the map units it wholly covers to UNMAPPED and journals DISCARD. -/
  | discard (p : ReqPath) (nsid : Nat) (lba : Nat) (count : Nat)
  /-- FLUSH (R130). A Flush begins waiting for every earlier acknowledged write and its journal page to be programmed. -/
  | flush (p : ReqPath) (nsid : Nat)
  /-- PAGE_PROGRAM_DONE (R132). A page program completes; parity is accumulated and write-buffer entries are released. -/
  | pageProgramDone (pmas : List Nat)
  /-- BAND_VERIFY_DONE (R133). The read-back of a band completes; weak pages are rebuilt or settled, and BAND_VERIFIED is journaled. -/
  | bandVerifyDone (id : Nat) (weak : List WeakPage)
  /-- PROGRAM_FAIL (R134). A program failure rebuilds the page, relocates the block's units, retires the block and records 0x0202. -/
  | programFail (pma : Nat) (dests : List Nat)
  /-- ERASE_FAIL (R134). An erase failure retires the block and records 0x0203. -/
  | eraseFail (block : Nat)
  /-- TARGET_LOST (R135). A target that stops responding is marked lost, its bands are closed short and its units are relocated. -/
  | targetLost (c : Nat) (t : Nat)
  /-- CHECKPOINT_DONE (R140). A checkpoint journals CHECKPOINT_DONE and writes an anchor record, and older journal pages are released. -/
  | checkpointDone (w : CkptWritten)
  /-- GC_BLOCK_START (R146). Garbage collection selects a source block and copies its valid units. -/
  | gcBlockStart (pl : Placement)
  /-- GC_VERIFY_DONE (R147). The copies are verified, and GC_MOVE and BLOCK_RELEASE are journaled for units that still map to the source. -/
  | gcVerifyDone (src : Nat)
  /-- GC_ERASE (R148). After its BLOCK_RELEASE is committed and reads in flight have ended, the source block is erased and freed. -/
  | gcErase (src : Nat)
  /-- LAST_GASP (R152). PWR_FAIL_N asserted beyond its glitch filter starts the hard-wired last-gasp sequence. -/
  | lastGasp (ns : Nat)
  /-- LAST_GASP_DONE (R153). The last-gasp sequence ends, sets DONE, and leaves the media service stopped until RESET_N. -/
  | lastGaspDone (us : Nat)
  /-- SANITIZE_CRYPTO (R128). Sanitize CRYPTO replaces every namespace key and unmaps every entry. -/
  | sanitizeCrypto (p : ReqPath) (nsid : Nat) (keyOk : Bool)
  /-- SANITIZE_BLOCK (R128). Sanitize BLOCK crypto-erases and then erases every block of every usable target. -/
  | sanitizeBlock (p : ReqPath) (nsid : Nat) (keyOk : Bool)
  /-- SANITIZE_FORMAT (R128). Sanitize FORMAT performs BLOCK and then applies the media layout feature. -/
  | sanitizeFormat (p : ReqPath) (nsid : Nat) (keyOk : Bool)
  /-- SANITIZE_TARGET_DONE (R128). A target's sanitize completes, SANITIZE_PROGRESS is journaled, and Sanitize ends after the last target. -/
  | sanitizeTargetDone (factoryBad : Nat)
  /-- NS_CREATE (R126). The NAMESPACE Create action makes a namespace with a new key and every entry unmapped. -/
  | nsCreate (p : ReqPath) (nsid : Nat) (cap : Nat) (keyOk : Bool)
  /-- NS_DELETE (R126). The NAMESPACE Delete action destroys the namespace key and unmaps its entries. -/
  | nsDelete (p : ReqPath) (nsid : Nat) (keyOk : Bool)
  /-- NS_SEAL (R126). The NAMESPACE Seal action makes earlier writes durable and makes the namespace read-only. -/
  | nsSeal (p : ReqPath) (nsid : Nat)
  /-- NS_UNSEAL (R126). The NAMESPACE Unseal action makes the namespace writable unless a stream is open on it. -/
  | nsUnseal (p : ReqPath) (nsid : Nat)
  /-- MAP_CKPT_CONFIG_WRITE (R164). A write to MAP_CKPT_CONFIG sets the checkpoint limits, or changes neither field and records 0x0101 when a value is out of range. -/
  | mapCkptConfigWrite (v : Word)
  /-- CMP_RING_DOORBELL (R171). A write of a job ring's TAIL makes new descriptors available to the engines. -/
  | cmpRingDoorbell (q : Nat) (v : Word)
  /-- CMP_JOB_START (R172). An engine takes the next descriptor in ring order and checks it, completing an invalid one with 0x0101. -/
  | cmpJobStart (e : Nat) (q : Option Nat)
  /-- DECOMPRESS_JOB_END (R173). A decompression job ends with success, an error at the first offending symbol, or a stop that writes a resume record. -/
  | decompressJobEnd (e : Nat) (stop : Nat)
  /-- COMPRESS_JOB_END (R184). A compression job ends once every block has been compressed and proven. -/
  | compressJobEnd (e : Nat) (bad : Option Nat)
  /-- CHECK_JOB_END (R188). A check job updates RUNNING and, on LAST, appends or verifies and strips the alive field and check value. -/
  | checkJobEnd (e : Nat)
  /-- CHK_CTX_HOLD (R193). A write of CHK_CTX_CTRL.HOLD holds or releases a check context for save and restore. -/
  | chkCtxHold (die : Nat) (c : Nat) (v : Word)
  /-- CHK_CTX_WRITE (R193). A write to a check-context register applies only while the context is held and idle and its values are in range, and otherwise records 0x0806 or 0x0101. -/
  | chkCtxWrite (die : Nat) (c : Nat) (w : Nat) (v : Word)
  /-- DECODER_UNIT_FAULT (R202). A decoder or augment unit parity error takes the unit out of service and restarts its work on another unit. -/
  | decoderUnitFault (cls : Nat) (unit : Nat)
  /-- DECODER_NO_PROGRESS (R202). A decoder unit that makes no progress for 10 ms while holding work is treated as faulted. -/
  | decoderNoProgress (cls : Nat) (unit : Nat)
  /-- RTP_PACKET (R236). A received RTP packet is checked and assembled into its ingest unit. -/
  | rtpPacket (f : FrameInfo) (port : Nat) (b : List Byte)
  /-- LIVE_UNIT_TIMEOUT (R236). 20 ms after a packet with a later timestamp arrived, the open unit closes, with GAP when sequence numbers are missing. -/
  | liveUnitTimeout (c : Nat)
  /-- DEC_LIVE_CFG_WRITE (R246). A write to an ingest channel's configuration enables it, disables it, or is refused with 0x0101. -/
  | decLiveCfgWrite (c : Nat) (v : Word)
  /-- LANE_FAULT (R250). A text-lane parity error takes the lane out of service and records 0x060A. -/
  | laneFault (lane : Nat)
  /-- LANE_NO_PROGRESS (R250). A text lane that makes no progress for 10 ms while holding work is treated as faulted. -/
  | laneNoProgress (lane : Nat)
  /-- GEN_OPEN (R272). A generation request opens a context on a lane, or is refused with 0x0608 or 0x0609. -/
  | genOpen (p : ReqPath) (req : List Byte) (b : GenBuffers)
  /-- GEN_STEP (R273). The lane serves a signalled token: it checks the grammar, detokenises, matches stop strings, writes the next mask and signals the run. -/
  | genStep (lane : Nat) (idx : Nat) (token : Nat)
  /-- TIL_RESET_MAC (R333). TIL_UNIT_RESET.MAC soft-resets the tile's MAC array and ends any run that holds the tile. -/
  | tilResetMac (t : Nat)
  /-- TIL_RESET_VEC (R333). TIL_UNIT_RESET.VEC soft-resets the tile's vector unit. -/
  | tilResetVec (t : Nat)
  /-- TIL_RESET_DMA (R333). TIL_UNIT_RESET.DMA soft-resets the tile DMA. -/
  | tilResetDma (t : Nat)
  /-- TIL_RESET_CORE (R333). TIL_UNIT_RESET.CORE soft-resets the control core. -/
  | tilResetCore (t : Nat)
  /-- TIL_RESET_SYNC (R333). TIL_UNIT_RESET.SYNC clears the sync port's pending waits and queued operations and keeps counter values. -/
  | tilResetSync (t : Nat)
  /-- TIL_RESET_OBS (R333). TIL_UNIT_RESET.OBS zeroes the event counters, their overflow bits and the marker depth. -/
  | tilResetObs (t : Nat)
  /-- TIL_RESET_STORE (R333). TIL_UNIT_RESET.STORE zeroes the tile store with parity set. -/
  | tilResetStore (t : Nat)
  /-- TIL_RESET_ROUTER (R333). TIL_UNIT_RESET.ROUTER drains and clears the router while transit flows are held at its neighbours. -/
  | tilResetRouter (t : Nat)
  /-- MATRIX_OP (R301). A dense matrix operation accumulates in chunks of 32 with one rounding per chunk. -/
  | matrixOp (slot : Nat) (tile : Nat) (o : MatrixOp)
  /-- SPARSE_MATRIX_OP (R309). A 2:4 sparse matrix operation computes the dense rule over the kept positions. -/
  | sparseMatrixOp (slot : Nat) (tile : Nat) (o : MatrixOp) (metaAt : Nat)
  /-- VECTOR_OP (R305). An elementwise vector operation computes in FP32 with RNE or in integers. -/
  | vectorOp (slot : Nat) (tile : Nat) (o : VectorOp)
  /-- VECTOR_REDUCE (R306). A sum, maximum or minimum reduction is formed in lanes and then a binary tree. -/
  | vectorReduce (slot : Nat) (tile : Nat) (o : ReduceOp)
  /-- SPECIAL_FUNCTION (R307). A special function is evaluated as the table defines. -/
  | specialFunction (slot : Nat) (tile : Nat) (o : SpecialOp)
  /-- QUANTISE (R298). A quantise or convert operation produces MX blocks or converted elements. -/
  | quantise (slot : Nat) (tile : Nat) (o : QuantOp)
  /-- ROUTE (R311). ROUTE ranks experts per row and places the choices by capacity. -/
  | route (slot : Nat) (tile : Nat) (o : RouteOp)
  /-- COMBINE (R313). COMBINE sums the weighted expert outputs in rank order. -/
  | combine (slot : Nat) (tile : Nat) (o : CombineOp)
  /-- EMB_GATHER (R319). EMB_GATHER reads table rows and pools them per bag. -/
  | embGather (slot : Nat) (e : Nat) (o : GatherOp)
  /-- EMB_ROW_READ_DONE (R317). A cold-row media read for a gather completes, and the gather continues or is held on failure. -/
  | embRowReadDone (slot : Nat) (table : Nat) (row : Nat) (ok : Bool)
  /-- EMB_GRAD (R321). EMB_GRAD hands gradient contributions to the engines, which sum them in folio order. -/
  | embGrad (slot : Nat) (e : Nat) (cs : List GradContribution)
  /-- EMB_APPLY (R322). EMB_APPLY updates every row that has a gradient unless its STEP already equals the step. -/
  | embApply (slot : Nat) (e : Nat) (o : ApplyOp)
  /-- EMB_FLUSH (R324). EMB_FLUSH starts the write-back of every dirty row. -/
  | embFlush (slot : Nat)
  /-- EMB_FLUSH_DONE (R324). EMB_FLUSH completes when every row dirty at its issue has been acknowledged. -/
  | embFlushDone (slot : Nat)
  /-- LOAD_PLATE (R341). LOAD_PLATE checks a plate in order and makes it resident, or refuses it. -/
  | loadPlate (p : ReqPath) (src : PlateSource)
  /-- UNLOAD_PLATE (R342). UNLOAD_PLATE removes a resident plate that nothing uses, or refuses. -/
  | unloadPlate (p : ReqPath) (digest : Nat)
  /-- START (R344). START checks a run descriptor and takes a slot, in STARTING or, with QUEUE, in QUEUED. -/
  | start (p : ReqPath) (r : StartReq)
  /-- PREEMPT (R349). PREEMPT starts saving a RUNNING or HELD pre-emptible run. -/
  | preempt (p : ReqPath) (slot : Nat)
  /-- RESUME (R349). RESUME restores a SAVED run when regions are free, or retries a HELD run's operation. -/
  | resume (p : ReqPath) (slot : Nat)
  /-- STOP (R349). STOP frees a QUEUED run or sends the run to ENDING with 0x090E. -/
  | stop (p : ReqPath) (slot : Nat)
  /-- RUN_LOADED (R347). STARTING finishes loading and hash-checking the run and enters RUNNING, or ends the run on a load failure. -/
  | runLoaded (slot : Nat) (bad : Option Nat)
  /-- PLATE_END (R346). A run reaches the end of its plate and enters ENDING. -/
  | plateEnd (slot : Nat)
  /-- RUN_CLEANUP_DONE (R348). ENDING finishes write-back, region reset and freeing, delivers the run record, and the slot becomes FREE. -/
  | runCleanupDone (slot : Nat)
  /-- DMA_COPY (R358). A tile DMA COPY descriptor moves bytes in row order. -/
  | dmaCopy (slot : Nat) (tile : Nat) (desc : Nat)
  /-- DMA_FILL (R358). A tile DMA FILL descriptor writes a repeated 8-byte pattern. -/
  | dmaFill (slot : Nat) (tile : Nat) (desc : Nat)
  /-- DMA_ENGINE (R358). A tile DMA ENGINE descriptor submits a compression or check job. -/
  | dmaEngine (slot : Nat) (tile : Nat) (desc : Nat)
  /-- DMA_DESCRIPTOR_DONE (R358). A descriptor completes in chain order and signals its sync counter when SIGNAL is set. -/
  | dmaDescriptorDone (slot : Nat) (tile : Nat)
  /-- FILL_DONE (R356). A page fill completes, sets RESIDENT and FRAME, and retries the suspended access. -/
  | fillDone (slot : Nat) (page : Nat) (ok : Bool)
  /-- PREEMPT_SAVE_DONE (R364). The save area has been written, the regions are reset and released, and the run is SAVED. -/
  | preemptSaveDone (slot : Nat) (parity : Option Nat)
  /-- RESUME_RESTORE_DONE (R364). A restore completes onto the granted regions, and the run is RUNNING or HELD. -/
  | resumeRestoreDone (slot : Nat) (ok : Bool)
  /-- SYNC_ADD (R375). ADD raises a sync counter by n and releases the waiters it satisfies. -/
  | syncAdd (c : CtrName) (issuer : SyncIssuer) (n : Nat)
  /-- SYNC_SUB (R375). SUB lowers a counter, or raises SYNC_UNDERFLOW. -/
  | syncSub (slot : Nat) (tile : Nat) (k : Nat) (n : Nat)
  /-- SYNC_WAIT_GE (R375). WAIT_GE makes the issuer wait until the value reaches v. -/
  | syncWaitGe (slot : Nat) (issuer : SyncIssuer) (k : Nat) (v : Nat)
  /-- SYNC_WAIT_SUB (R375). WAIT_SUB waits until the value reaches n, then subtracts n. -/
  | syncWaitSub (slot : Nat) (tile : Nat) (k : Nat) (n : Nat)
  /-- SYNC_ARRIVE (R379). ARRIVE adds 1 to a barrier and waits for its release. -/
  | syncArrive (slot : Nat) (tile : Nat) (k : Nat) (reissued : Option Nat)
  /-- SYNC_READ (R375). READ returns a counter's value and, for a barrier, its generation. -/
  | syncRead (slot : Nat) (tile : Nat) (k : Nat)
  /-- SYNC_ALLOC (R372). ALLOC binds a free shared counter to a binding number. -/
  | syncAlloc (c : CtrName) (tile : Nat) (remote : Bool) (pick : Nat)
  /-- SYNC_FREE (R375). FREE unbinds a binding and frees its counter. -/
  | syncFree (slot : Nat) (tile : Nat) (b : Nat)
  /-- SYNC_CONFIG (R375). CONFIG sets a shared counter's mode, parties and realignment pairs. -/
  | syncConfig (slot : Nat) (tile : Nat) (k : Nat) (barrier : Bool) (parties : Nat) (pairs : List (Nat × Nat))
  /-- BARRIER_RELEASE (R379). In the cycle after the completing arrival, the hub realigns pairs, resets the barrier, increments its generation and releases its waiters. -/
  | barrierRelease (p : Nat)
  /-- SYN_DBG_SEL_WRITE (R385). A write to SYN_DBG_SEL latches the counter's state into the debug registers. -/
  | synDbgSelWrite (v : Word)
  /-- SYN_SW_SIGNAL (R384). A write to SYN_SW_SIGNAL applies a software ADD, or records 0x0101. -/
  | synSwSignal (p : BusPath) (v : Word)
  /-- TIL_EVT_CLEAR (R388). TIL_EVT_CTRL.CLEAR zeroes the tile's 8 event counts. -/
  | tilEvtClear (t : Nat)
  /-- TIL_EVT_SEL_WRITE (R389). A write to an event selector sets the event, or records 0x0101 for a code above 0x10. -/
  | tilEvtSelWrite (t : Nat) (n : Nat) (v : Word)
  /-- TIL_EVT_CNT_LO_READ (R390). A 32-bit read of an event counter's LO register latches its HI register. -/
  | tilEvtCntLoRead (p : BusPath) (t : Nat) (n : Nat)
  /-- MARK_BEGIN (R391). A BEGIN marker from plate code or OBS_MARK raises the nesting depth and is traced. -/
  | markBegin (src : MarkSource) (id : Nat) (user : Nat)
  /-- MARK_END (R391). An END marker lowers the nesting depth and is traced. -/
  | markEnd (src : MarkSource) (id : Nat) (user : Nat)
  /-- MARK_INSTANT (R391). An INSTANT marker is traced. -/
  | markInstant (src : MarkSource) (id : Nat) (user : Nat)
  /-- TRACE_ENABLE (R396). Writing ENABLE = 1 reserves the trace area, or records 0x0B06 when bulk pages are short. -/
  | traceEnable (v : Word)
  /-- TRACE_DISABLE (R396). Writing ENABLE = 0 stops the trace once the queued records are written. -/
  | traceDisable (v : Word)
  /-- TRACE_RELEASE (R396). Writing RELEASE frees the trace area while ENABLE = 0. -/
  | traceRelease (v : Word)
  /-- WATCH (R397). WATCH summarises a logical tensor into a record and emits a WATCH trace record. -/
  | watch (slot : Nat) (tile : Nat) (o : WatchOp)
  /-- SQ_TAIL_DOORBELL (R410). A write of an SQ tail doorbell announces new submission entries. -/
  | sqTailDoorbell (fn : Nat) (q : Nat) (v : Nat)
  /-- CQ_HEAD_DOORBELL (R410). A write of a CQ head doorbell frees completion slots. -/
  | cqHeadDoorbell (fn : Nat) (q : Nat) (v : Nat)
  /-- AQ_ENABLE (R409). Setting YQI_AQ_CFG.ENABLE brings up the admin queue, or sets BAD_CONFIG or NO_RESOURCES. -/
  | aqEnable (fn : Nat) (v : Word)
  /-- AQ_DISABLE (R442). Clearing YQI_AQ_CFG.ENABLE deletes every queue of the function, as a Function Level Reset does. -/
  | aqDisable (fn : Nat) (v : Word)
  /-- COMMAND_FETCH (R434). The arbiter fetches a command when its CQ has room, and the command is admitted or parked. -/
  | commandFetch (a : HostAccess)
  /-- IO_COMMAND_COMPLETE (R430). An I/O command completes and its CQ entry is written. -/
  | ioCommandComplete (fn : Nat) (q : Nat) (cid : Nat) (a : HostAccess)
  /-- IDENTIFY (R425). Identify returns device, namespace or function data. -/
  | identify (p : ReqPath) (cns : Nat) (nsid : Nat)
  /-- GET_LOG (R426). Get Log, or Gnoz LOG_READ, returns a log page. -/
  | getLog (p : ReqPath) (page : Nat) (off : Nat) (len : Nat)
  /-- GET_FEATURE (R427). Get Feature returns a feature value. -/
  | getFeature (p : ReqPath) (id : Nat) (sel : Nat)
  /-- SET_ARBITRATION (R427). Set Feature ARBITRATION sets BURST. -/
  | setArbitration (p : ReqPath) (burst : Nat)
  /-- SET_COALESCING (R417). Set Feature COALESCING sets a vector's THRESHOLD and TIME. -/
  | setCoalescing (p : ReqPath) (v : Nat) (threshold : Nat) (time : Nat)
  /-- SET_VF_RESOURCES (R405). Set Feature VF_RESOURCES gives queue pairs and vectors to a VF while VF Enable is 0. -/
  | setVfResources (p : ReqPath) (vf : Nat) (queues : Nat) (vectors : Nat)
  /-- SET_NS_VISIBILITY (R406). Set Feature NS_VISIBILITY sets a VF's namespace bitmap. -/
  | setNsVisibility (p : ReqPath) (vf : Nat) (map : BitVec 256)
  /-- SET_MEDIA_LAYOUT (R122). Set Feature MEDIA_LAYOUT sets the cell mode and over-provisioning for the next FORMAT. -/
  | setMediaLayout (p : ReqPath) (cell : Nat) (opHalf : Nat)
  /-- FIRMWARE_DOWNLOAD (R428). Firmware Download, or CONFIG_WRITE, places a chunk in the staging buffer. -/
  | firmwareDownload (p : ReqPath) (off : Nat) (chunk : List Byte)
  /-- FIRMWARE_COMMIT (R428). Firmware Commit, or CONFIG_COMMIT, verifies the staged image, writes the inactive copy and optionally selects it. -/
  | firmwareCommit (p : ReqPath) (activate : Bool) (flashOk : Bool)
  /-- QUEUE_CREATE (R433). Queue Create makes an I/O queue pair, or is refused with 0x0101. -/
  | queueCreate (p : ReqPath) (q : Nat) (depth : Nat) (v : Nat) (irq : Bool) (sq : Nat) (cq : Nat)
  /-- QUEUE_DELETE (R433). Queue Delete stops fetching and lets admitted commands finish. -/
  | queueDelete (p : ReqPath) (q : Nat)
  /-- QUEUE_DELETE_DONE (R433). Once admitted commands finish, the pair is freed and the delete completes. -/
  | queueDeleteDone (fn : Nat) (q : Nat)
  /-- QUEUE_RESTART_RESUME (R432). Queue Restart ACTION 0 refetches a frozen queue from RESUME_HEAD. -/
  | queueRestartResume (p : ReqPath) (q : Nat)
  /-- QUEUE_RESTART_SKIP (R432). Queue Restart ACTION 1 sets the head to the tail and discards the entries between. -/
  | queueRestartSkip (p : ReqPath) (q : Nat)
  /-- COALESCE_TIMEOUT (R417). TIME after the first uncoalesced entry, the vector is raised. -/
  | coalesceTimeout (fn : Nat) (v : Nat)
  /-- FUNCTION_LEVEL_RESET (R438). A Function Level Reset deletes the function's queues and masks its vectors. -/
  | functionLevelReset (fn : Nat)
  /-- PCIE_LINK_DOWN (R439). PERST_N, link down or hot reset acts as an FLR of every function of the link. -/
  | pcieLinkDown (l : Nat)
  /-- PCIE_LINK_UP (R440). A link that trains brings up its functions with no queues. -/
  | pcieLinkUp (l : Nat) (flit : Bool) (speed : Nat) (width : Nat)
  /-- GNOZ_FRAGMENT_RECEIVE (R460). A received Gnoz packet passes the drop checks and its fragment is placed into its reassembly context. -/
  | gnozFragmentReceive (p : GnozPacket)
  /-- GNOZ_RX_WRITE (R464). A complete WRITE message is key-checked and stored at REMOTE_ADDR. -/
  | gnozRxWrite (device : Nat) (msgId : Nat) (pl : Placement)
  /-- GNOZ_RX_SEND (R474). A SEND message is placed in the next posted receive, or refused. -/
  | gnozRxSend (device : Nat) (msgId : Nat)
  /-- GNOZ_RX_READ (R477). A READ is answered with READ_DATA, or with an ACK carrying a refusal. -/
  | gnozRxRead (device : Nat) (msgId : Nat)
  /-- GNOZ_RX_READ_DATA (R477). READ_DATA is placed at REPLY_ADDR and completes the READ. -/
  | gnozRxReadData (device : Nat) (msgId : Nat)
  /-- GNOZ_RX_SYNC_ADD (R478). A SYNC_ADD applies a remote ADD, or is refused with 0x0B05 or 0x0C08. -/
  | gnozRxSyncAdd (device : Nat) (msgId : Nat)
  /-- GNOZ_RX_REPLY (R481). A REPLY to a CONTROL is placed at REPLY_ADDR and completes the request. -/
  | gnozRxReply (device : Nat) (msgId : Nat)
  /-- GNOZ_RX_FORME (R480). A FORME message is placed in a receive of the consumer queue. -/
  | gnozRxForme (device : Nat) (msgId : Nat)
  /-- GNOZ_RX_STREAM_EVENT (R480). A STREAM_EVENT message is placed in a receive of the consumer queue. -/
  | gnozRxStreamEvent (device : Nat) (msgId : Nat)
  /-- GNOZ_RX_ARM (R473). An ARM message releases the armed requests with its tag. -/
  | gnozRxArm (device : Nat) (msgId : Nat)
  /-- GNOZ_RX_ACK (R454). An ACK completes its message, updates the congestion window, or is dropped as stray. -/
  | gnozRxAck (device : Nat) (msgId : Nat)
  /-- GNZ_Q_DOORBELL (R467). A write of GNZ_Q_TAIL makes new work requests available. -/
  | gnzQDoorbell (q : Nat) (v : Word)
  /-- WR_WRITE (R468). A WRITE work request starts and sends its fragments. -/
  | wrWrite (q : Nat)
  /-- WR_SEND (R468). A SEND work request starts. -/
  | wrSend (q : Nat)
  /-- WR_READ (R477). A READ work request starts, or completes with 0x0C07 when the reply cannot fit. -/
  | wrRead (q : Nat)
  /-- WR_SYNC_ADD (R478). A SYNC_ADD work request starts. -/
  | wrSyncAdd (q : Nat)
  /-- WR_CONTROL (R481). A CONTROL work request starts. -/
  | wrControl (q : Nat)
  /-- WR_ARM (R473). An ARM work request starts. -/
  | wrArm (q : Nat)
  /-- WR_RECV (R474). A RECV work request posts a receive buffer. -/
  | wrRecv (q : Nat)
  /-- RTO_EXPIRY (R455). An RTO expiry retransmits the message on another path and collapses that path's window. -/
  | rtoExpiry (idx : Nat)
  /-- MESSAGE_EXPIRY (R455). At 400 ms of age, or when ATTEMPT would exceed 255, the request completes with 0x0C01. -/
  | messageExpiry (idx : Nat)
  /-- DUP_ENTRY_EXPIRY (R456). A duplicate-table entry is freed at the tick at which its d reaches 501. -/
  | dupEntryExpiry (device : Nat) (msgId : Nat)
  /-- REASSEMBLY_EXPIRY (R461). A reassembly context whose message reaches d = 501 is freed with the message unapplied. -/
  | reassemblyExpiry (device : Nat) (msgId : Nat)
  /-- KEY_REGISTER (R466). A run's control core registers a key and increments its generation, or is refused with 0x0C0B. -/
  | keyRegister (slot : Nat) (k : Nat) (base : Nat) (len : Nat) (write : Bool) (read : Bool) (notify : Nat)
  /-- GNZ_QUEUE_ALLOC (R467). A run allocates a Gnoz queue, or receives 0x0C0E. -/
  | gnzQueueAlloc (slot : Nat) (k : Nat) (wr : Nat) (cq : Nat)
  /-- GNZ_CLOCK_WRITE (R452). A write of GNZ_CLOCK_HI sets Gnoz time unless PTP is locked. -/
  | gnzClockWrite (v : Word)
  /-- PTP_MESSAGE (R445). A PTP message on the PTP port goes to the slave servo. -/
  | ptpMessage (f : FrameInfo) (offset : Int) (locked : Bool) (delayReq : Option Nat)
  /-- GNZ_ETH_MODE_WRITE (R444). A write to GNZ_ETH_MODE retrains each port whose mode changes. -/
  | gnzEthModeWrite (v : Word)
  /-- ETH_PORT_LINK_CHANGE (R444). A logical Ethernet port goes up or down. -/
  | ethPortLinkChange (lp : Nat) (up : Bool)
  /-- ARP_NEIGHBOUR_RX (R443). An ARP or neighbour solicitation for a port's address is answered. -/
  | arpNeighbourRx (f : FrameInfo) (addr : List Byte)
  /-- ICMP_ECHO_RX (R443). An ICMP echo request is answered. -/
  | icmpEchoRx (f : FrameInfo) (payload : List Byte)
  /-- GNZ_CFG_WRITE (R487). A write to GNZ_CFG or GNZ_TIMING is checked, and a forbidden port or an out-of-range RTO records 0x0101. -/
  | gnzCfgWrite (timing : Bool) (v : Word)
  /-- BUFFER_REQUEST (R496). A buffer request is granted from the first passing pool, waits, or is refused. -/
  | bufferRequest (die : Nat) (port : Nat) (unit : Nat) (cls : Nat) (size : Nat) (idx : Nat)
  /-- BUFFER_FREE (R502). FREE returns a buffer to its pool, or sets FREE_PENDING. -/
  | bufferFree (h : Nat) (port : Nat) (unit : Nat)
  /-- BUFFER_DROP (R502). DROP lowers REFS and frees the buffer at 0 when FREE_PENDING is set. -/
  | bufferDrop (h : Nat) (port : Nat) (unit : Nat)
  /-- BUFFER_SHARE (R502). SHARE raises REFS by n. -/
  | bufferShare (h : Nat) (port : Nat) (unit : Nat) (new : List (Nat × Nat))
  /-- BUFFER_HANDOVER (R502). HANDOVER names a new owner. -/
  | bufferHandover (h : Nat) (port : Nat) (unit : Nat) (newPort : Nat) (newUnit : Nat)
  /-- CONFIG_SHADOW_WRITE (R516). A write to a POOL or EGS configuration field enters the shadow copy, or is refused out of range. -/
  | configShadowWrite (off : Nat) (v : Word)
  /-- EGRESS_SELECT (R507). When a port is free, the scheduler sends the next frame from strict queues, or from the weighted queue with the least head tag. -/
  | egressSelect (port : Nat)
  /-- HEARTBEAT_RECEIVE (R525). A heartbeat is checked against the group digest and generation and refreshes the peer. -/
  | heartbeatReceive (entry : Nat) (gen : Nat) (digest : Nat) (table : Option GroupRecord)
  /-- PEER_SUSPECT (R525). No heartbeat from a device for 50 ms makes it suspected. -/
  | peerSuspect (entry : Nat)
  /-- PROPOSAL_RX (R525). A membership proposal from the steward is acknowledged. -/
  | proposalRx (entry : Nat) (gen : Nat) (change : GroupChange) (table : Option GroupRecord)
  /-- VOTE_RX (R525). A vote or acknowledgement is counted toward quorum. -/
  | voteRx (entry : Nat) (gen : Nat) (vote : GroupVote)
  /-- GRP_SPARE_ADD (R528). A write to GRP_SPARE_ADD proposes a device as spare. -/
  | grpSpareAdd (device : Nat) (ready : Bool)
  /-- GROUP_NS_CREATE (R529). GRP_NS_CTRL action 1 creates a group namespace on every member. -/
  | groupNsCreate (nsid : Nat) (origin : Option Nat) (stripes : Nat) (keyOk : Bool)
  /-- GROUP_NS_DELETE (R529). GRP_NS_CTRL action 2 deletes a group namespace. -/
  | groupNsDelete (nsid : Nat) (origin : Option Nat) (keyOk : Bool)
  /-- GROUP_NS_SEAL (R529). GRP_NS_CTRL action 3 seals a group namespace. -/
  | groupNsSeal (nsid : Nat) (origin : Option Nat)
  /-- GROUP_NS_UNSEAL (R529). GRP_NS_CTRL action 4 unseals a group namespace. -/
  | groupNsUnseal (nsid : Nat) (origin : Option Nat)
  /-- GROUP_WRITE (R533). A write to a group namespace is forwarded to the coordinator of each stripe, which computes the parity. -/
  | groupWrite (p : ReqPath) (nsid : Nat) (lba : Nat) (data : List Byte)
  /-- STRIPE_PREPARE (R533). A PREPARE share is held in the protected buffer and acknowledged. -/
  | stripePrepare (entry : Nat) (gen : Nat) (write : Nat) (ns : Nat) (stripe : Nat) (share : Nat) (data : List Byte)
  /-- STRIPE_COMMIT (R533). A COMMIT journals the prepared share as MAP and releases it. -/
  | stripeCommit (write : Nat) (pl : Placement)
  /-- PREPARE_RESOLVE (R534). A position holding a prepared share without an outcome asks the others and commits or aborts it. -/
  | prepareResolve (write : Nat) (commit : Bool) (pl : Placement)
  /-- REBUILD_STRIPE (R537). The spare rebuilds the next stripe from a tree of partial sums under the stripe lock. -/
  | rebuildStripe (pos : Nat) (shares : List (Nat × List Byte)) (pl : Placement)
  /-- REBUILD_COMPLETE (R536). When rebuild ends, the position becomes ACTIVE and 0x0E0D is logged. -/
  | rebuildComplete (pos : Nat)
  /-- MIRROR_UPDATE (R541). A primary's mirror of pushes, completeness, halt state and credits is stored at the partner. -/
  | mirrorUpdate (entry : Nat) (gen : Nat) (m : Machine.Mirror)
  /-- STREAM_TABLE_UPDATE (R540). A group stream-table entry or its removal is stored. -/
  | streamTableUpdate (entry : Nat) (gen : Nat) (block : List Byte) (ctx : Nat) (primary : Nat) (partner : Nat) (removal : Bool)
  /-- REHOME_EVENT_RESEND (R543). Every 10 ms, REHOMED is sent again until the consumer answers. -/
  | rehomeEventResend (ctx : Nat)
  /-- GRP_CFG_WRITE (R548). A write to GRP_CFG enables or disables group participation, or is refused with 0x0E08. -/
  | grpCfgWrite (v : Word)
  /-- GET_NONCE (R563). The mailbox returns its current nonce. -/
  | getNonce (m : Nat)
  /-- GET_IDENTITY (R563). The mailbox returns the IK point and the factory certificate. -/
  | getIdentity (m : Nat)
  /-- ATTEST (R567). ATTEST returns a report signed with AK, or is refused. -/
  | attest (m : Nat) (draws : SignDraws)
  /-- LC_TRANSITION (R573). A signed life-cycle transition closes admission, crypto-erases, writes OTP, zeroises and requests a reset. -/
  | lcTransition (m : Nat) (keyOk : Bool)
  /-- INSTALL_KEY (R563). A signed INSTALL_KEY places a signing key in a slot. -/
  | installKey (m : Nat) (keyOk : Bool)
  /-- REMOVE_KEY (R563). A signed REMOVE_KEY empties a key slot. -/
  | removeKey (m : Nat) (keyOk : Bool)
  /-- PAIR (R566). PAIR derives a pair key with a peer and stores it under KEY_ID. -/
  | pair (m : Nat) (keyOk : Bool)
  /-- UNPAIR (R566). UNPAIR removes a pair key that no valid route names. -/
  | unpair (m : Nat) (keyOk : Bool)
  /-- DEBUG_UNLOCK (R577). A signed DEBUG_UNLOCK opens a JTAG level, zeroising first in Deployed. -/
  | debugUnlock (m : Nat) (level : Nat)
  /-- ZEROISE (R575). The ZEROISE command or a SAG_ZEROISE key write clears every unwrapped key within 10 µs. -/
  | zeroise (viaMbox : Option Nat) (key : Word)
  /-- QUOIN_SET (R569). A W1S write to SAG_QUOIN_SET0 or SAG_QUOIN_SET1 sets quoin bits until reset. -/
  | quoinSet (hi : Bool) (v : Word)
  /-- JTAG_TAP_ACCESS (R577). A JTAG access is served or closed according to the life-cycle state and the unlock level. -/
  | jtagTapAccess (a : JtagAccess)
  /-- POWER_ON (R581). The always-on rail monitor raises power-on reset once VDD_AON and the reference are good. -/
  | powerOn (smbAddr : Nat)
  /-- RESET_N_ASSERT (R580). An accepted RESET_N assertion starts a package reset. -/
  | resetNAssert (ns : Nat) (refclk : Bool) (flush : GaspEnd)
  /-- RESET_RELEASE (R584). The release of RESET_N runs trim load, clocks, links, training, wipe, map rebuild and configuration apply up to READY. -/
  | resetRelease (b : BootInputs)
  /-- RST_REQUEST_WRITE (R582). A write of the key to RST_REQUEST makes the kiln sitter drive RESET_REQ_N with reason SOFTWARE. -/
  | rstRequestWrite (key : Word)
  /-- BLOCK_SOFT_RESET (R604). A bit of RST_BLOCK_RESET starts a quiesced soft reset of every unit of a block. -/
  | blockSoftReset (bits : Word)
  /-- UNIT_SOFT_RESET (R606). RST_UNIT GO starts a quiesced soft reset of one unit, or is refused with 0x0101. -/
  | unitSoftReset (cls : Nat) (index : Nat)
  /-- SOFT_RESET_QUIESCED (R603). A unit under soft reset goes idle, its state is cleared and it takes work again. -/
  | softResetQuiesced (t : ResetTarget)
  /-- QUIESCE_TIMEOUT (R603). At the quiesce timeout, the reset is forced, held work ends with 0x0105, and 0x1009 is logged. -/
  | quiesceTimeout (t : ResetTarget)
  /-- REGION_RESET (R615). RST_REGION GO starts a region reset, or is refused. -/
  | regionReset (r : Nat)
  /-- REGION_RESET_DONE (R615). The region reset ends with the region zeroed and de-isolated, or isolated again on a new fault. -/
  | regionResetDone (fault : Option Nat)
  /-- BOOT_COPY_CLEAR (R599). A write to BOOT_COPY_STATE.CLEAR clears a copy's attempt count. -/
  | bootCopyClear (a : Bool) (b : Bool)
  /-- RST_TIMEOUT_WRITE (R614). A write to RST_TIMEOUT_b sets the quiesce timeout, or is refused out of range. -/
  | rstTimeoutWrite (b : Nat) (v : Word)
  /-- PLL_UNLOCK (R618). A non-region PLL that loses lock stops its domain and logs 0x1014. -/
  | pllUnlock (pll : Nat)
  /-- PLL_RELOCK (R618). The PLL relocks, the die links retrain and the domain resumes, or the PLL stays stopped after 16 failures. -/
  | pllRelock (pll : Nat) (ok : Bool) (die : Nat)
  /-- REGION_DOZE (R621). A region that has held no run for PWR_DOZE_DELAY enters Doze. -/
  | regionDoze (r : Nat)
  /-- REGION_WAKE_DONE (R621). A region's wake completes with its stores zeroed, and the region becomes available. -/
  | regionWakeDone (r : Nat)
  /-- OFF_REQUEST (R626). PWR_CTRL.TARGET = 2 with its key closes admission and flushes before entry to Off. -/
  | offRequest (key : Nat)
  /-- WAKE_EVENT (R624). A wake event in Idle or during its entry starts the return to Run. -/
  | wakeEvent (c : WakeCause)
  /-- WDT_KICK (R628). A key write to AON_WDT_KICK restarts the watchdog count and clears WARNED. -/
  | wdtKick (key : Word)
  /-- WDT_PROBE (R628). In health mode, at each quarter period the kiln sitter probes the dies and restarts the count when all answer. -/
  | wdtProbe (field : Bool) (media : Bool) (net : Bool)
  /-- AON_WDT_CFG_WRITE (R630). A write to AON_WDT_CFG arms or disarms the watchdog, or records 0x0101. -/
  | aonWdtCfgWrite (v : Word)
  /-- POWER_SAMPLE (R632). Every 10 µs, the limiter samples package power and cuts or raises the tile clock. -/
  | powerSample (total : Nat) (tiles : Nat)
  /-- THERMAL_SAMPLE (R635). Every 100 µs, the sensors are read and the thermal throttle lowers or raises the tile clock. -/
  | thermalSample (temps : List Nat)
  /-- THERMAL_TRIP (R636). A trip diode at 110 °C drives THERMTRIP_N, clamps the field and net dies and starts last gasp. -/
  | thermalTrip (diode : Nat)
  /-- PWR_CONFIG_WRITE (R647). A write to a CLK/PWR limit, cap or doze field is applied, or refused out of range. -/
  | pwrConfigWrite (off : Nat) (v : Word)
  /-- SMB_SET_OFFSET (R668). SMBus command 0x01 sets the sideband access offset. -/
  | smbSetOffset (off : Word) (pecOk : Bool)
  /-- SMB_READ (R668). SMBus command 0x02 reads the register at the offset, returns a status, and advances the offset. -/
  | smbRead (answered : Bool)
  /-- SMB_WRITE (R668). SMBus command 0x03 writes a register. -/
  | smbWrite (off : Word) (v : Word) (pecOk : Bool) (answered : Bool)
  /-- MED_NAND_PAD_WRITE (R666). A write to MED_NAND_PAD sets NAND pad settings for the next reset, or records 0x0101 for ODT 5 to 7. -/
  | medNandPadWrite (v : Word)
  /-- GNOZ_RX_CONTROL (R481). A complete CONTROL message at queue 0 is checked for PERMIT_CONTROL and a known, well-formed request, dispatched to the control service, and answered with a REPLY or refused with 0x0C08 or 0x0C0A. -/
  | gnozRxControl (device : Nat) (msgId : Nat)
  /-- POWER_LOSS (R657). The rails fall, with or without PWR_FAIL_N or before the hold-up ends; volatile state and the protected region are lost, and the backup domain runs from VBAT or is cleared when VBAT is also absent. -/
  | powerLoss (vbat : Bool) (gasp : GaspEnd)
  /-- FRAME_DISCARD (R445). A received Ethernet frame that no service takes, such as PAUSE, PFC, an oversize or double-tagged frame, an IP packet with options or fragments, or UDP to an unknown port, is discarded and counted in RX_DROPPED. -/
  | frameDiscard (f : FrameInfo) (cause : DiscardCause)
  /-- NAND_TEMPERATURE_SAMPLE (R161). Each second, the device reads the NAND target temperatures and updates TEMP_NOW, TEMP_MAX, TEMP_MIN, CRITICAL bit 3 and the TEMP_SECONDS bin of the health log. -/
  | nandTemperatureSample (temps : List Int)
  /-- EVENT_SEQ_CEILING_RAISE (R684). When the issued event sequence numbers come within 2^32 of the ceiling, the device raises the ceiling by 2^36 and writes it to the backup domain and to the next anchor record. -/
  | eventSeqCeilingRaise
  /-- FLUSH_COMPLETE (R130). A Flush completes once every earlier acknowledged write and its journal page have been programmed. -/
  | flushComplete
  /-- JOURNAL_TAIL_TIMEOUT (R136). 10 ms after the tail's first entry, the journal tail is programmed. -/
  | journalTailTimeout
  /-- JOURNAL_PAGE_COMMIT (R136). A journal page is committed when both of its programs pass, which completes the commands and features that waited on it. -/
  | journalPageCommit
  /-- CHECKPOINT_START (R139). A checkpoint starts when 8 GiB of journal or 10 minutes is reached since the previous checkpoint started. -/
  | checkpointStart
  /-- CHECKPOINT_STALL (R141). When 12 GiB of journal has been written since the newest anchored checkpoint, admission of writes stalls until the checkpoint completes. -/
  | checkpointStall
  /-- LAST_GASP_RESET_REQUEST (R582). After a completed last gasp, PWR_FAIL_N deasserted for 10 ms makes the kiln sitter drive RESET_REQ_N with reason LAST_GASP. -/
  | lastGaspResetRequest
  /-- RUN_DEQUEUE (R350). When regions become free and the head of the list fits, the device grants it regions. -/
  | runDequeue
  /-- PARKED_ADMIT (R436). A parked command is admitted in order once its conflicts clear. -/
  | parkedAdmit
  /-- GNZ_TABLE_READ (R488). GNZ_TABLE_CMD 1 reads a route or key entry into DATA. -/
  | gnzTableRead
  /-- GNZ_TABLE_WRITE (R488). GNZ_TABLE_CMD 2 writes a route, or registers a key under R466. -/
  | gnzTableWrite
  /-- GNZ_TABLE_INVALIDATE (R488). GNZ_TABLE_CMD 3 invalidates a route or key entry. -/
  | gnzTableInvalidate
  /-- GNOZ_HOLDOFF_END (R453). 600 ms after reset release, or after a GNZ block reset, the transport may send packets. -/
  | gnozHoldoffEnd
  /-- FORME_RESEND (R480). Every 10 ms, an unacknowledged FORME or STREAM_EVENT is sent again as a new message. -/
  | formeResend
  /-- CONFIG_TICK (R516). At the refill tick, every pending shadow configuration is applied together. -/
  | configTick
  /-- POLICER_TICK (R515). At each 1 µs tick, the policers clamp, refill and re-meter held commands. -/
  | policerTick
  /-- CALENDAR_SLOT (R509). At each 64 ns calendar slot, the shaped queues placed there become eligible. -/
  | calendarSlot
  /-- HEARTBEAT_SEND (R525). Every 10 ms, each group device sends a heartbeat to every other device. -/
  | heartbeatSend
  /-- QUORUM_HOLD (R526). After 40 ms without quorum, a device stops handing group formes to egress and admitting group writes. -/
  | quorumHold
  /-- QUORUM_LOST (R526). After 500 ms without quorum, a device shows NO_QUORUM and refuses group requests. -/
  | quorumLost
  /-- TIME_FLOOR_UPDATE (R561). Once per second while Gnoz time is valid, the saggar writes it to SAG_TIME_FLOOR. -/
  | timeFloorUpdate
  /-- REFCLK_LOSS (R619). No REFCLK_AON edge for 1 ms sets REF_LOST in the backup domain. -/
  | refclkLoss
  /-- IDLE_REQUEST (R622). PWR_CTRL.TARGET = 1 starts entry to Idle, or is refused with 0x1015. -/
  | idleRequest
  /-- IDLE_ENTERED (R623). Entry to Idle completes. -/
  | idleEntered
  /-- OFF_FLUSH_DONE (R626). The flush completes, an anchor with FLUSHED is written, and MAIN_PWR_EN is driven low. -/
  | offFlushDone
  /-- WAKE_COMPLETE (R625). The return from Idle completes, and the device is in Run. -/
  | wakeComplete
  /-- ALIGNMENT_TICK (R640). At the wrap of the 6-bit counter, pending crossings are released or realigned. -/
  | alignmentTick
  /-- WDT_EXPIRY (R629). A watchdog expiry sets WARNED, or with WARNED set drives RESET_REQ_N. -/
  | wdtExpiry
  /-- TRIP_POWER_OFF (R636). When last gasp is done, or 30 ms after the trip, MAIN_PWR_EN is driven low. -/
  | tripPowerOff
  /-- SMB_ALERT_RESPONSE (R669). A read of the Alert Response Address returns the device address once. -/
  | smbAlertResponse
  deriving DecidableEq, Repr

end Sys2Proof
end

