-- ==== Sys2Proof/Config.lean ====
section
/-! DEFINITION. What the spec leaves open, and data of external standards: constants without a body. Nothing in Lean
can evaluate one, so a proof holds whatever each of them is. `Config.freeBit` and its companions are applied to
`State.freeCtr`, which the command that needs a free value reads and advances. -/

namespace Sys2Proof

/-- A choice the spec lists the outcomes of without fixing which occurs. -/
opaque Config.freeBit : Nat → Bool
/-- A 32-bit value the spec leaves open. -/
opaque Config.freeWord : Nat → BitVec 32
/-- A number the spec leaves open. -/
opaque Config.freeNat : Nat → Nat
/-- A mailbox nonce: random, drawn from the saggar's DRBG (R552, R565). -/
opaque Config.nonce : Nat → BitVec 384
/-- The namespace key that the saggar's DRBG gives at its n-th draw: key 1 in the low 256 bits, key 2 above (R552). -/
opaque Config.nsKey : Nat → BitVec 512
/-- The stream graph that a stream-graph plate encodes, whose encoding is private to the compiler; none when it encodes none
(R334, R335). -/
opaque Config.graphOf : List (BitVec 8) → Option Graph
/-- The rated erase cycles of a NAND block (R161). -/
opaque Config.ratedCycles : Nat
/-- Which of several equally long matches a compression engine takes, for an input and a place in it (R180, R181). -/
opaque Config.matchPick : List (BitVec 8) → Nat → Nat
/-- How many of a run of equal code lengths one code-length symbol takes, for the lengths and a place among them (R181). -/
opaque Config.runPick : List Nat → Nat → Nat
/-- What H.264 (false) or HEVC (true) makes of an Annex B stream that follows other NAL data: at which byte each picture's
first slice ends its header (code 0), or at which byte a feature that is not supported, a syntax error or a missing
reference shows (codes 1, 2, 3), in the order of the data (R210). -/
opaque Config.videoEvents : Bool → List (BitVec 8) → List (BitVec 8) → List (Nat × Nat)
/-- The pictures of that stream in output order: how many pictures have been decoded when each is output, and its samples
after the cropping window, plane by plane (R210-R212). -/
opaque Config.videoOutput : Bool → List (BitVec 8) → List (BitVec 8) → List (Nat × List Nat)
/-- What a sieve program decides of a sample, from its plate, the stream's seed, the epoch, the folio, the sample's outputs
by section and USER: accepted or not, and the pair it returns (R102, R241, R314). -/
opaque Config.sieve : Nat → Nat → Nat → Nat → List (Nat × List (BitVec 8)) → Nat → Bool × Nat × Nat
/-- How a generation stage's request ends for a sample and the text it releases, from the same values (R102, R282). -/
opaque Config.generated : Nat → Nat → Nat → Nat → List (Nat × List (BitVec 8)) → BitVec 16 × List (BitVec 8)
/-- The class of a character under Unicode 15.1 (R264): 0 L, 1 N, 2 S (White_Space), 3 P. -/
opaque Config.charClass : Nat → Nat
/-- The full canonical decomposition of a character under Unicode 15.1 (R262). -/
opaque Config.decompose : Nat → List Nat
/-- The Canonical_Combining_Class of a character under Unicode 15.1 (R262). -/
opaque Config.combiningClass : Nat → Nat
/-- Canonical ordering and composition of one decomposed segment, as UAX #15 defines it (R262). -/
opaque Config.composeSegment : List Nat → List Nat

end Sys2Proof
end

