-- ==== Sys2Proof/Machine/State.lean ====
section
/-! DEFINITION. The machine's state: everything the spec gives the part, as plain data, the queue of waiting
commands, and the reset state. -/

namespace Sys2Proof.Machine

/-- The part's state. Fields carry their value at reset as their default. -/
structure State where
  /-- Commands that wait, first in, first out. -/
  pending : List Instr := []
  /-- The model's own counter: which free value of Config the next command takes. -/
  freeCtr : Nat := 0
  /-- The model's own record of what the part sent out, oldest first. -/
  out : List Emit := []
  /-- Device time in ns, the model's clock for the windows and time-outs of the spec. -/
  now : Nat := 0
  /-- BAR0 words that differ from their reset value, by rising offset. -/
  regs : List (Nat × Word) := []
  /-- What the part's fuses hold, once a trim load has read them, and what the last trim load loaded (R2-R6, R590). -/
  fuseArray : Option Fuses := none
  fuses : Fuses := {}
  evt : EventSeq := {}
  errlog : ErrorLog := {}
  backup : Backup := {}
  flash : BootFlash := {}
  boot : Boot := {}
  trustKept : TrustKept := {}
  trust : Trust := {}
  power : Power := {}
  rst : Rst := {}
  links : Links := {}
  pins : Pins := {}
  sideband : Sideband := {}
  nand : MediaKept := {}
  media : Media := {}
  streamEng : StreamEngine := {}
  decode : Decode := {}
  text : Text := {}
  mgr : RunMgr := {}
  field : Field := {}
  sync : Sync := {}
  obs : Obs := {}
  cmp : Cmp := {}
  yqi : Yqi := {}
  gnoz : Gnoz := {}
  pools : Pools := {}
  egress : Egress := {}
  shadow : Shadow := {}
  group : Group := {}
  /-- The group record on the media, kept over a reset (R527). -/
  groupRecord : Option GroupRecord := none
  /-- Bulk memory that software names by offset (R171, R463, R467). -/
  bulkMem : Memory := []
  /-- Host memory as the part sees it, keyed by function * 2^64 + address. -/
  hostMem : Memory := []
  deriving DecidableEq, Repr

/-- Why the part stops: no rule of the spec stops it, so no command answers with a fault. A command that needs one
would be unsafe to pass over in silence; there is none. -/
inductive Fault where
  /-- Raised by no command: the spec gives every command an outcome. Safe. -/
  | machineStopped
  deriving DecidableEq, Repr

/-- Why a command has no meaning here. -/
inductive Refusal where
  /-- The command is not modelled yet; raised by the dispatcher. Safe: nothing is claimed about it. -/
  | notModelled (mnemonic : String)
  deriving DecidableEq, Repr

/-- The machine right after a package reset has been accepted: every field at its default, which is the value the
spec gives for reset or the value named in the assumption log. -/
def State.reset : State := {}

end Sys2Proof.Machine
end

