-- ==== Sys2Proof/Machine/Regs.lean ====
section
/-! DEFINITION. The BAR0 register file: which words exist, their access codes and reset values (R8, R9, R683), and
how one word is read, set by the part and written from a bus (R10). -/

namespace Sys2Proof.Machine

/-- Base offsets of the blocks (R675). -/
def aonBase : Nat := 0x0000000
def bootBase : Nat := 0x0010000
def rstBase : Nat := 0x0020000
def pwrBase : Nat := 0x0030000
def sagBase : Nat := 0x0040000
def yqiBase : Nat := 0x0100000
def medBase : Nat := 0x0200000
def mapBase : Nat := 0x0300000
def cmpBase : Nat := 0x0400000
def decBase : Nat := 0x0500000
def tokBase : Nat := 0x0600000
def wdgBase : Nat := 0x0700000
def poolBase : Nat := 0x0800000
def egsBase : Nat := 0x0900000
def gnzBase : Nat := 0x0A00000
def grpBase : Nat := 0x0B00000
def synBase : Nat := 0x0C00000
def obsBase : Nat := 0x0D00000
def stkBase : Nat := 0x0E00000
def tilBase : Nat := 0x1000000

/-- A row of the register index: words `base + i * stride + j * stride2`, `i < count`, `j < count2`, with the masks
of the bits each access code of R8 covers. Bits in no mask are RO or reserved. -/
structure RegRow where
  base : Nat
  reset : Nat := 0
  rw : Nat := 0
  w1c : Nat := 0
  w1s : Nat := 0
  rwq : Nat := 0
  quoin : Nat := 0
  count : Nat := 1
  stride : Nat := 4
  count2 : Nat := 1
  stride2 : Nat := 1
  deriving DecidableEq, Repr

/-- Does the row hold the word at this BAR0 offset? -/
def RegRow.covers (r : RegRow) (off : Nat) : Bool :=
  r.base ≤ off &&
    (let d := off - r.base
     let j := if r.count2 ≤ 1 then 0 else d / r.stride2
     let e := d - j * r.stride2
     j < r.count2 && e % r.stride == 0 && e / r.stride < r.count)

/-- Bits [lo + len - 1 : lo] of a word, as a number. -/
def fld (v : Word) (lo len : Nat) : Nat := (v.toNat >>> lo) % 2 ^ len

/-- A word with bits [lo + len - 1 : lo] replaced by `x`. -/
def setFld (v : Word) (lo len x : Nat) : Word :=
  BitVec.ofNat 32 (v.toNat - ((v.toNat >>> lo) % 2 ^ len) * 2 ^ lo + (x % 2 ^ len) * 2 ^ lo)

/-- A word built from fields given as (low bit, value). -/
def packFields (fs : List (Nat × Nat)) : Word :=
  BitVec.ofNat 32 (fs.foldl (fun a f => a + f.2 <<< f.1) 0)

def bitOf (b : Bool) : Nat := if b then 1 else 0

/-- What an unlocked bus write makes of a word (R8, R10): RW bits are set, W1C ones cleared, W1S ones set, RW/Q bits
set unless their quoin bit is set. -/
def RegRow.write (r : RegRow) (locked : Bool) (old new : Word) : Word :=
  let rwm := BitVec.ofNat 32 (if locked then r.rw else r.rw ||| r.rwq)
  let kept := old &&& ~~~rwm
  let w := kept ||| (new &&& rwm)
  let w := w &&& ~~~(new &&& BitVec.ofNat 32 r.w1c)
  w ||| (new &&& BitVec.ofNat 32 r.w1s)

/-- A write that would have given a locked field another value (R10). -/
def RegRow.lockedDiffers (r : RegRow) (old new : Word) : Bool :=
  (old &&& BitVec.ofNat 32 r.rwq) != (new &&& BitVec.ofNat 32 r.rwq)

/-- The AON, BOOT, RST and CLK/PWR registers held as plain words (R611-R613, R645, R646, R665). -/
def regsAlwaysOn : List RegRow := [
  { base := aonBase + 0x30, reset := 1000 <<< 16, rwq := 0xFFFF0003, quoin := 0 },      -- AON_WDT_CFG
  { base := aonBase + 0x50, reset := 0x16, rwq := 0xF, quoin := 0 },                    -- AON_PAD_CFG
  { base := rstBase + 0x10, rw := 0xFF0F },                                             -- RST_UNIT
  { base := rstBase + 0x18, rw := 0x3F },                                               -- RST_REGION
  { base := rstBase + 0x100, reset := 1000, rwq := 0x1FFFF, quoin := 2, count := 10 },  -- RST_TIMEOUT_b
  { base := pwrBase + 0x10, reset := 1000, rw := 0xFFFFF },                             -- PWR_DOZE_DELAY
  { base := pwrBase + 0x20, reset := 2800 + 3100 <<< 16, rwq := 0x0FFF0FFF, quoin := 3 }, -- PWR_LIMIT
  { base := pwrBase + 0x30, reset := 1600 <<< 16, rwq := 0x07FF0000, quoin := 3 },      -- CLK_TILE (CAP_MHZ)
  { base := pwrBase + 0x34, reset := 1, rwq := 1, quoin := 3 },                         -- CLK_SSC
  { base := pwrBase + 0x40, count := 3 },                                               -- PWR_*_EVENTS
  { base := pwrBase + 0x4C, w1c := 7 },                                                 -- PWR_OVF
  { base := sagBase + 0x0C },                                                           -- SAG_QUOIN_DENIED
  { base := sagBase + 0x10, w1c := 1 } ]                                                -- SAG_OVF

def regAonWdtCfg : Nat := aonBase + 0x30
def regAonPadCfg : Nat := aonBase + 0x50
def regRstUnit : Nat := rstBase + 0x10
def regRstRegion : Nat := rstBase + 0x18
def regRstTimeout (b : Nat) : Nat := rstBase + 0x100 + 4 * b
def regPwrDozeDelay : Nat := pwrBase + 0x10
def regPwrLimit : Nat := pwrBase + 0x20
def regClkTile : Nat := pwrBase + 0x30
def regPwrLimitEvents : Nat := pwrBase + 0x40
def regPwrThermEvents : Nat := pwrBase + 0x44
def regPwrDvfsEvents : Nat := pwrBase + 0x48
def regPwrOvf : Nat := pwrBase + 0x4C
def regSagQuoinDenied : Nat := sagBase + 0x0C
def regSagOvf : Nat := sagBase + 0x10

/-- The YQI statistics counters (R441). -/
def regsYqi : List RegRow := [
  { base := yqiBase + 0x10, count := 2 },                                               -- COMMANDS, FREEZES
  { base := yqiBase + 0x1C, w1c := 7 } ]                                                -- YQI_OVF

/-- The MED and MAP registers held as plain words (R164, R666). -/
def regsMedia : List RegRow := [
  { base := medBase + 0x14, reset := 0x29, rwq := 0x7F, quoin := 4 },                   -- MED_NAND_PAD
  { base := mapBase, reset := 8 + 600 <<< 16, rwq := 0x03FF000F, quoin := 4 } ]         -- MAP_CKPT_CONFIG

/-- The POOL registers held as plain words (R518, R519). POOL_COUNT's resets are in `resetWord`. -/
def regsPool : List RegRow := [
  { base := poolBase + 0x10, count := 2, stride := 0x10000 },                           -- POOL_ERRORS
  { base := poolBase + 0x14, w1c := 1, count := 2, stride := 0x10000 },                 -- POOL_ERR_OVF
  { base := poolBase + 0x100, rw := 0xFFFFFF, count := 16, stride := 0x40, count2 := 2, stride2 := 0x10000 },
  { base := poolBase + 0x108, reset := 0x10000, rw := 0xFFFFFFFF, count := 16, stride := 0x40, count2 := 2,
    stride2 := 0x10000 },                                                               -- POOL_THRESH
  { base := poolBase + 0x110, rw := 0xFFFFFFFF, count := 16, stride := 0x40, count2 := 2, stride2 := 0x10000 },
  { base := poolBase + 0x114, rw := 0xFFFFFFFF, count := 16, stride := 0x40, count2 := 2, stride2 := 0x10000 },
  { base := poolBase + 0x118, rw := 0xFFFFFFFF, count := 16, stride := 0x40, count2 := 2, stride2 := 0x10000 },
  { base := poolBase + 0x11C, rw := 0xFFFFFFFF, count := 16, stride := 0x40, count2 := 2, stride2 := 0x10000 },
  { base := poolBase + 0x120, count := 16, stride := 0x40, count2 := 2, stride2 := 0x10000 },  -- ALLOCS
  { base := poolBase + 0x124, count := 16, stride := 0x40, count2 := 2, stride2 := 0x10000 },  -- FALLBACKS
  { base := poolBase + 0x128, count := 16, stride := 0x40, count2 := 2, stride2 := 0x10000 },  -- WAITS
  { base := poolBase + 0x12C, count := 16, stride := 0x40, count2 := 2, stride2 := 0x10000 },  -- NO_GRANT
  { base := poolBase + 0x130, count := 16, stride := 0x40, count2 := 2, stride2 := 0x10000 },  -- WARNS
  { base := poolBase + 0x134, w1c := 0x1F, count := 16, stride := 0x40, count2 := 2, stride2 := 0x10000 },
  { base := poolBase + 0x20000, rw := 0x3F, count := 1024, stride := 0x40, count2 := 2, stride2 := 0x10000 },
  { base := poolBase + 0x20004, rw := 0xFFFFF, count := 1024, stride := 0x40, count2 := 2, stride2 := 0x10000 },
  { base := poolBase + 0x20008, rw := 0xFFFFF, count := 1024, stride := 0x40, count2 := 2, stride2 := 0x10000 },
  { base := poolBase + 0x2000C, rw := 0xFFFFFF, count := 1024, stride := 0x40, count2 := 2, stride2 := 0x10000 },
  { base := poolBase + 0x20010, rw := 0xFFFFFF, count := 1024, stride := 0x40, count2 := 2, stride2 := 0x10000 },
  { base := poolBase + 0x20014, count := 1024, stride := 0x40, count2 := 2, stride2 := 0x10000 },  -- POL_GREEN
  { base := poolBase + 0x20018, count := 1024, stride := 0x40, count2 := 2, stride2 := 0x10000 },  -- POL_YELLOW
  { base := poolBase + 0x2001C, count := 1024, stride := 0x40, count2 := 2, stride2 := 0x10000 },  -- POL_RED
  { base := poolBase + 0x20020, w1c := 7, count := 1024, stride := 0x40, count2 := 2, stride2 := 0x10000 },
  { base := poolBase + 0x40000, rw := 0x83FF, count := 64 },                            -- media: function
  { base := poolBase + 0x40100, rw := 0x83FF, count := 256 },                           -- media: namespace
  { base := poolBase + 0x41000, rw := 0x83FF, count := 64 },                            -- net: logical port
  { base := poolBase + 0x41100, rw := 0x83FF, count := 16 },                            -- net: Gnoz TYPE
  { base := poolBase + 0x41200, rw := 0x83FF, count := 64 } ]                           -- net: ingest channel

/-- The EGS registers held as plain words (R520). The source map's resets are in `resetWord`. -/
def regsEgress : List RegRow := [
  { base := egsBase + 0x1000, reset := 1024, rw := 0xFFFF, count := 64, stride := 0x40 },  -- EGS_PORT_ECN
  { base := egsBase + 0x1010, rw := 0xFFFFF, count := 4, count2 := 64, stride2 := 0x40 },  -- EGS_SP_RATE_s
  { base := egsBase + 0x1020, count := 3, count2 := 64, stride2 := 0x40 },              -- SP0_DROPS, CE_MARKED, HOLDS
  { base := egsBase + 0x102C, w1c := 7, count := 64, stride := 0x40 },                  -- EGS_PORT_OVF
  { base := egsBase + 0x10000, reset := 1024, rw := 0x7FF, count := 4096, stride := 0x10 },  -- EGS_WQ_WEIGHT
  { base := egsBase + 0x10004, rw := 0xFFFFF, count := 4096, stride := 0x10 },          -- EGS_WQ_RATE
  { base := egsBase + 0x10008, reset := 256 + 1024 <<< 16, rw := 0xFFFFFFFF, count := 4096, stride := 0x10 },
  { base := egsBase + 0x20000, rw := 0x7FFF, count := 4608 } ]                          -- EGS_SRC_MAP_i

/-- The GNZ registers held as plain words (R487-R490). -/
def regsGnoz : List RegRow := [
  { base := gnzBase + 0x04, reset := 47890, rw := 0x10000, rwq := 0xFFFF, quoin := 6 },  -- GNZ_CFG
  { base := gnzBase + 0x08, rwq := 0xFFFFFF, quoin := 6 },                             -- GNZ_DEVICE
  { base := gnzBase + 0x0C, reset := 100, rw := 0x3FF },                                -- GNZ_TIMING
  { base := gnzBase + 0x10, rw := 0xFFFF },                                             -- GNZ_ETH_MODE
  { base := gnzBase + 0x14, rw := 0x7F },                                               -- GNZ_PTP
  { base := gnzBase + 0x18, rw := 0xFFFFFFFF },                                         -- GNZ_CLOCK_LO, as written
  { base := gnzBase + 0x40, count := 13 },                                              -- counters
  { base := gnzBase + 0x74, w1c := 0x1FFF },                                            -- GNZ_OVF
  { base := gnzBase + 0x80, rw := 0x1FFFF },                                            -- GNZ_TABLE_SEL
  { base := gnzBase + 0x8000, rwq := 0xFFFFFFFF, quoin := 7, count := 64, stride := 0x40 },
  { base := gnzBase + 0x8004, rw := 0x1FFF0000, rwq := 0xFFFF, quoin := 7, count := 64, stride := 0x40 },
  { base := gnzBase + 0x8008, rw := 0xFFFFFFFF, count := 64, stride := 0x40 },
  { base := gnzBase + 0x800C, rw := 0xFFFF, count := 64, stride := 0x40 },
  { base := gnzBase + 0x8010, rw := 0xFFFFFFFF, count := 5, count2 := 64, stride2 := 0x40 },
  { base := gnzBase + 0x10000, rw := 0x3F7F, count := 4096, stride := 0x40 },           -- GNZ_Q_CFG
  { base := gnzBase + 0x10008, rw := 0xFFFFFFFF, count := 4, count2 := 4096, stride2 := 0x40 },
  { base := gnzBase + 0x10018, rw := 0x1FFFF, count := 4096, stride := 0x40 } ]         -- GNZ_Q_TAIL

/-- The CMP and CHK registers held as plain words (R196, R197). IDLE of CHK_CTX_CTRL is computed. -/
def regsCmp : List RegRow := [
  { base := cmpBase + 0x10, count := 3 },                                               -- CMP_JOBS, ERRORS, PROOF_FAILS
  { base := cmpBase + 0x1C, w1c := 7 },                                                 -- CMP_STAT_OVF
  { base := cmpBase + 0x100, rw := 0xFFFFFFC0, count := 16, stride := 0x20 },           -- CMP_RING_DESC_LO
  { base := cmpBase + 0x104, rw := 0xFFFFFFFF, count := 16, stride := 0x20 },
  { base := cmpBase + 0x108, rw := 0xFFFFFFC0, count := 16, stride := 0x20 },           -- CMP_RING_CPL_LO
  { base := cmpBase + 0x10C, rw := 0xFFFFFFFF, count := 16, stride := 0x20 },
  { base := cmpBase + 0x110, rw := 0xFFF7F, count := 16, stride := 0x20 },              -- CMP_RING_CFG
  { base := cmpBase + 0x114, rw := 0x1FFFF, count := 16, stride := 0x20 },              -- CMP_RING_TAIL
  { base := cmpBase + 0x118, count := 16, stride := 0x20 },                             -- CMP_RING_HEAD
  { base := cmpBase + 0x11C, count := 16, stride := 0x20 },                             -- CMP_RING_STATUS
  { base := cmpBase + 0x11000, reset := 32, rw := 0xFF1FFFFF, count := 256, stride := 0x40, count2 := 2, stride2 := 0x10000 },
  { base := cmpBase + 0x11004, rw := 5, count := 256, stride := 0x40, count2 := 2, stride2 := 0x10000 },
  { base := cmpBase + 0x11008, rw := 0xFFFFFFFF, count := 256, stride := 0x40, count2 := 2, stride2 := 0x10000 },
  { base := cmpBase + 0x1100C, rw := 0xFFFFFFFF, count := 256, stride := 0x40, count2 := 2, stride2 := 0x10000 },
  { base := cmpBase + 0x11010, rw := 0xFFFFFFFF, count := 256, stride := 0x40, count2 := 2, stride2 := 0x10000 },
  { base := cmpBase + 0x11014, rw := 0xFFFFFFFF, count := 256, stride := 0x40, count2 := 2, stride2 := 0x10000 },
  { base := cmpBase + 0x11018, rw := 0xFFFFFFFF, count := 256, stride := 0x40, count2 := 2, stride2 := 0x10000 },
  { base := cmpBase + 0x1101C, rw := 0xFFFFFFFF, count := 256, stride := 0x40, count2 := 2, stride2 := 0x10000 },
  { base := cmpBase + 0x11020, rw := 0xFFFFFFFF, count := 256, stride := 0x40, count2 := 2, stride2 := 0x10000 },
  { base := cmpBase + 0x11024, rw := 0xFFFFFFFF, count := 256, stride := 0x40, count2 := 2, stride2 := 0x10000 },
  { base := cmpBase + 0x11028, rw := 0x1FFFF, count := 256, stride := 0x40, count2 := 2, stride2 := 0x10000 },
  { base := cmpBase + 0x1102C, count := 256, stride := 0x40, count2 := 2, stride2 := 0x10000 },
  { base := cmpBase + 0x11030, count := 256, stride := 0x40, count2 := 2, stride2 := 0x10000 },
  { base := cmpBase + 0x11034, count := 256, stride := 0x40, count2 := 2, stride2 := 0x10000 },
  { base := cmpBase + 0x11038, count := 256, stride := 0x40, count2 := 2, stride2 := 0x10000 },
  { base := cmpBase + 0x1103C, w1c := 0xF, count := 256, stride := 0x40, count2 := 2, stride2 := 0x10000 } ]

/-- The DEC registers held as plain words (R244, R245). -/
def regsDec : List RegRow := [
  { base := decBase + 0x10, count := 4 },                                               -- DEC_LAST_*
  { base := decBase + 0x20, count := 7 },                                               -- counters
  { base := decBase + 0x3C, w1c := 0x7F },                                              -- DEC_STAT_OVF
  { base := decBase + 0x10000, reset := 96 <<< 2 + 256 <<< 16, rw := 0x1FFF01FF, count := 64, stride := 0x40 },
  { base := decBase + 0x10004, rw := 0xFFFF, count := 64, stride := 0x40 },             -- DEC_LIVE_PORT
  { base := decBase + 0x10010, count := 7, count2 := 64, stride2 := 0x40 },             -- counters
  { base := decBase + 0x1002C, w1c := 0x7F, count := 64, stride := 0x40 } ]             -- DEC_LIVE_OVF

/-- The TOK registers held as plain words (R284). -/
def regsTok : List RegRow := [
  { base := tokBase + 0x20, count := 7 },                                               -- counters
  { base := tokBase + 0x3C, w1c := 0x7F } ]                                             -- TOK_STAT_OVF

/-- The WDG registers held as plain words (R97). -/
def regsWdg : List RegRow := [
  { base := wdgBase + 0x04, rwq := 1, quoin := 5 } ]                                    -- WDG_DIAG

/-- The SYN and OBS registers held as plain words (R400, R402). SYN_DBG_* hold what the last latch gave. -/
def regsSync : List RegRow := [
  { base := synBase + 0x10, rw := 0xFFFF },                                             -- SYN_DBG_SEL
  { base := synBase + 0x14, count := 6 },                                               -- SYN_DBG_*
  { base := synBase + 0x40, count := 2 },                                               -- SYN_REMOTE_*
  { base := synBase + 0x48, w1c := 3 },                                                 -- SYN_OVF
  { base := obsBase, reset := 26 <<< 8, rw := 0x7F3F03 },                               -- OBS_TRACE_CFG
  { base := obsBase + 0x1C },                                                           -- OBS_TRACE_LOST
  { base := obsBase + 0x28, rw := 0xFFFFFFFF, count := 2 },                             -- OBS_MARK_ID, _USER
  { base := obsBase + 0x34, w1c := 1 } ]                                                -- OBS_OVF

/-- The GRP registers held as plain words (R548, R549). -/
def regsGrp : List RegRow := [
  { base := grpBase, rw := 0xFF },                                                      -- GRP_CFG
  { base := grpBase + 0x04, rw := 0xFFFFFFFF },                                         -- GRP_ID
  { base := grpBase + 0x08, reset := 1, rw := 0xFFF },                                  -- GRP_QUEUE
  { base := grpBase + 0x30, count := 3 },                                               -- RECONSTRUCTS, REHOMES, ABORTS
  { base := grpBase + 0x3C, w1c := 7 },                                                 -- GRP_OVF
  { base := grpBase + 0x44, rw := 0xFFFFFFFF, count := 2 },                             -- GRP_NS_STRIPES
  { base := grpBase + 0x100, rw := 0xFFFFFF, count := 65, stride := 8 },                -- GRP_POS_DEV_n
  { base := grpBase + 0x104, rw := 0xFFFF, count := 65, stride := 8 } ]                 -- GRP_POS_ROUTE_n

end Sys2Proof.Machine
end

