-- ==== Sys2Proof/Machine/RegMap.lean ====
section
/-! DEFINITION. The register index (R683): every word held as plain data, with its reset value. -/

namespace Sys2Proof.Machine

/-- Every row of the index that the register file holds. -/
def regTable : List RegRow := regsAlwaysOn ++ regsYqi ++ regsMedia ++ regsPool ++ regsEgress ++ regsGnoz ++ regsCmp ++ regsDec ++ regsTok ++ regsWdg ++ regsSync ++ regsGrp

/-- The row that holds a word, if the register file holds one there. -/
def findRow (off : Nat) : Option RegRow := regTable.find? (fun r => r.covers off)

/-- Words whose reset value depends on their number: POOL_COUNT_i (R492) and the source map (R506). -/
def numberedReset (off : Nat) : Option Nat :=
  if egsBase + 0x20000 ≤ off ∧ off < egsBase + 0x20000 + 4608 * 4 then
    (if off % 4 = 0 then some ((off - egsBase - 0x20000) / 4 % 4096) else none)
  else if poolBase + 0x100 ≤ off ∧ off < poolBase + 0x500 ∧ off % 0x40 = 0 then
    some (12 * 2 ^ 20 / 16 / (256 * 2 ^ ((off - poolBase - 0x100) / 0x40)))
  else if poolBase + 0x10100 ≤ off ∧ off < poolBase + 0x10500 ∧ off % 0x40 = 0 then
    some (40 * 2 ^ 20 / 16 / (256 * 2 ^ ((off - poolBase - 0x10100) / 0x40)))
  else none

/-- The value a word holds after any reset (R8); a reserved word reads 0 (R9). -/
def resetWord (off : Nat) : Word :=
  match numberedReset off with
  | some v => BitVec.ofNat 32 v
  | none =>
    match findRow off with
    | some r => BitVec.ofNat 32 r.reset
    | none => 0

end Sys2Proof.Machine
end

