-- ==== Sys2Proof/Machine/Ops.lean ====
section
/-! DEFINITION. Shared operations: register words, counters, event numbers, the error log, replies and outputs. -/

namespace Sys2Proof.Machine

/-- A sorted association list with no entry equal to its key's default. -/
def assocSet (dflt : Word) (k : Nat) (v : Word) : List (Nat × Word) → List (Nat × Word)
  | [] => if v = dflt then [] else [(k, v)]
  | (k', v') :: rest =>
    if k < k' then (if v = dflt then (k', v') :: rest else (k, v) :: (k', v') :: rest)
    else if k = k' then (if v = dflt then rest else (k, v) :: rest)
    else (k', v') :: assocSet dflt k v rest

def assocGet (dflt : Word) (k : Nat) : List (Nat × Word) → Word
  | [] => dflt
  | (k', v') :: rest => if k = k' then v' else assocGet dflt k rest

/-- The stored word at a BAR0 offset. -/
def State.reg (s : State) (off : Nat) : Word := assocGet (resetWord off) off s.regs

/-- The part sets a word. -/
def State.setReg (s : State) (off : Nat) (v : Word) : State :=
  { s with regs := assocSet (resetWord off) off v s.regs }

/-- The part sets bits [lo + len - 1 : lo] of a word. -/
def State.setBits (s : State) (off lo len x : Nat) : State := s.setReg off (setFld (s.reg off) lo len x)

/-- A field of a stored word. -/
def State.regFld (s : State) (off lo len : Nat) : Nat := fld (s.reg off) lo len

/-- A 32-bit statistics counter rises by `n` (R16): it saturates at 2^32 - 1, and on reaching that value its sticky
overflow bit is set. -/
def State.bumpBy (s : State) (off ovfOff ovfBit n : Nat) : State :=
  let v := min ((s.reg off).toNat + n) (2 ^ 32 - 1)
  let s := s.setReg off (BitVec.ofNat 32 v)
  if v = 2 ^ 32 - 1 then s.setBits ovfOff ovfBit 1 1 else s

def State.bump (s : State) (off ovfOff ovfBit : Nat) : State := s.bumpBy off ovfOff ovfBit 1

/-- A statistics counter kept as a number of `w` bits, with its overflow bit. -/
def satBump (w v n : Nat) (ovf : Bool) : Nat × Bool :=
  let v' := min (v + n) (2 ^ w - 1)
  (v', ovf || v' == 2 ^ w - 1)

/-- Appends to the outputs. -/
def State.emit (s : State) (e : Emit) : State := { s with out := s.out ++ [e] }

/-- Takes the next free value's number. -/
def State.takeFree (s : State) : Nat × State := (s.freeCtr, { s with freeCtr := s.freeCtr + 1 })

/-- Lookups of a text lane in its vocabulary cache are counted as hits and misses (R257, R258). How many there are of each
depends on the lookup structures and on the order of fetches, which the spec leaves open: two free numbers. -/
def State.vocabLookups (s : State) : State :=
  let k := s.freeCtr
  (({ s with freeCtr := k + 2 }).bumpBy (tokBase + 0x28) (tokBase + 0x3C) 2 (Config.freeNat k)).bumpBy (tokBase + 0x2C)
    (tokBase + 0x3C) 3 (Config.freeNat (k + 1))

/-- Raises the event-number ceiling by 2^36: at once in the backup domain, and in the next anchor record (R684). -/
def EventSeq.raise (e : EventSeq) : EventSeq :=
  let c := (max (e.backup.getD 0) (e.anchor.getD 0)) + 2 ^ 36
  { e with backup := some c, pendingAnchor := c }

/-- The ceiling in force. -/
def EventSeq.ceiling (e : EventSeq) : Nat := e.backup.getD 0

/-- The numbers issued have come within 2^32 of the ceiling (R684). -/
def EventSeq.near (e : EventSeq) : Bool := decide (e.ceiling ≤ e.next + 2 ^ 32)

/-- The next number is below the ceiling that the anchor records hold (R684). -/
def EventSeq.covered (e : EventSeq) : Bool := decide (e.next < e.anchor.getD 0)

/-- The current anchor: the valid record with the highest sequence (R142). -/
def MediaKept.current (k : MediaKept) : Option Anchor :=
  match k.anchor0, k.anchor1 with
  | some a, some b => if a.seq > b.seq then some a else some b
  | some a, none => some a
  | none, b => b

/-- The two targets that the copies of a journal page go to: one after another in target-major order for copy 0, and the next of
them on another channel for copy 1 (R136). -/
def Media.journalPlaces (m : Media) (seq : Nat) : (Nat × Nat) × (Nat × Nat) :=
  let k := seq % max m.usable.length 1
  let a := m.usable.getD k (0, 0)
  (a, (((m.usable.drop k) ++ m.usable).find? (fun t => t.1 != a.1)).getD a)

/-- Writes an anchor record to the next anchor block in turn (R142); it carries the event-number ceiling (R684). -/
def State.writeAnchorWith (s : State) (flushed : Bool) (img : MediaImage) (startSeq : Nat) : State :=
  let sq (a : Option Anchor) : Nat := match a with | some x => x.seq | none => 0
  let n := max (sq s.nand.anchor0) (sq s.nand.anchor1) + 1
  let m := s.media
  let a : Anchor := {
    seq := n, flushed := flushed, layout := m.layout, userCap := m.userCap, ckptSeq := m.ckptSeq, startSeq := startSeq,
    image := img, health := m.health, ceiling := max s.evt.ceiling s.evt.pendingAnchor, geometry := m.geometry, dir := m.dir,
    segments := m.segments, startAt := (m.journalPlaces startSeq).1, lgBlocks := s.nand.lgBlocks, sanitize := m.sanitize }
  let nand := if n % 2 = 1 then { s.nand with anchor0 := some a } else { s.nand with anchor1 := some a }
  { s with nand := nand, evt := { s.evt with anchor := some a.ceiling } }

/-- An anchor record that keeps the checkpoint of the current one; none is written while there is no map (R113, R145). -/
def State.writeAnchor (s : State) (flushed : Bool) : State :=
  match s.nand.current with
  | some a => if s.media.mapLoaded then s.writeAnchorWith flushed a.image a.startSeq else s
  | none => s

/-- Issues one event sequence number (R15, R684): the ceiling rises when the numbers come within 2^32 of it, and a number at or
above the ceiling of the current anchor record is issued only once a new record has been written, when one can be. -/
def State.issueSeq (s : State) : Nat × State :=
  let s := if s.evt.near then { s with evt := s.evt.raise } else s
  let s := if s.evt.covered then s else s.writeAnchor false
  (s.evt.next, { s with evt := { s.evt with next := s.evt.next + 1 } })

/-- Before step 9 of R584 no log is running (R587). -/
def BootPhase.beforeRebuild : BootPhase → Bool
  | .reset | .flush | .trim | .clocks | .links | .training | .wipe | .trimFault => true
  | .rebuild | .apply | .ready => false

/-- Appends an entry to the ring of 4,096; an overwritten entry is counted in YQI_ERRLOG_LOST (R429). -/
def ErrorLog.push (l : ErrorLog) (e : LogEntry) : ErrorLog :=
  let all := l.entries ++ [e]
  if all.length > 4096 then
    { l with entries := all.drop 1, next := l.next + 1, lost := min (l.lost + 1) (2 ^ 32 - 1) }
  else { l with entries := all, next := l.next + 1 }

/-- Records an entry in the device error log, or holds it until step 9 (R21, R587). The entry's own number is
replaced by the one issued here. -/
def State.logEntry (s : State) (e : LogEntry) : State :=
  if s.boot.phase.beforeRebuild then
    if s.errlog.held.length < 64 then
      { s with errlog := { s.errlog with held := s.errlog.held ++ [e] } }
    else { s with errlog := { s.errlog with lost := min (s.errlog.lost + 1) (2 ^ 32 - 1) } }
  else
    let (n, s) := s.issueSeq
    let s := { s with errlog := s.errlog.push { e with seq := n } }
    if s.errlog.lost = 2 ^ 32 - 1 then s.setBits (yqiBase + 0x1C) 2 1 1 else s

/-- Records a status with the block that reports it and its INFO fields. -/
def State.log (s : State) (st : Status) (block : Nat := 0) (info0 : Nat := 0) (info1 : Nat := 0)
    (info2 : Nat := 0) (detail : Nat := 0) (nsid : Nat := 0) : State :=
  s.logEntry { seq := 0, status := st, block := block / 2 ^ 16, info0 := info0, info1 := info1, info2 := info2,
               detail := detail, nsid := nsid }

/-- The records held before step 9 enter the log in the order they were raised (R587). -/
def State.releaseHeldLog (s : State) : State :=
  let held := s.errlog.held
  let s := { s with errlog := { s.errlog with held := [] } }
  held.foldl (fun s e => s.logEntry e) s

/-- A command that tells of the end of a time brings the clock to that end, when it is not there yet. -/
def State.advance (s : State) (t : Nat) : State := { s with now := max s.now t }

/-- Time passes while no command waits: 1 µs for each step. -/
def State.tick (s : State) : State := s.advance (s.now + 1000)

/-- At most one record per second: whether one is due, given the time of the last. -/
def secondPassed (now : Nat) : Option Nat → Bool
  | none => true
  | some t => decide (now ≥ t + 1000000000)

/-- A locked write of R10 is recorded at most once per second for its quoin bit and counted (R570). -/
def State.quoinDenied (s : State) (off bit : Nat) : State :=
  let s := s.bump regSagQuoinDenied regSagOvf 0
  if secondPassed s.now ((s.trust.deniedAt.find? (fun p => p.1 == bit)).map (·.2)) then
    let kept := s.trust.deniedAt.filter (fun p => p.1 != bit)
    { (s.log 0x0F01 sagBase off bit) with
      trust := { s.trust with deniedAt := kept ++ [(bit, s.now)] } }
  else s

/-- Is the quoin bit set (R569)? -/
def State.quoinSet (s : State) (bit : Nat) : Bool := s.trust.quoin.getLsbD bit

/-- A write of new contents into a plain word, with the locking of R10 and R570. -/
def State.plainWrite (s : State) (off : Nat) (new : Word) : State :=
  match findRow off with
  | none => s
  | some r =>
    let old := s.reg off
    let locked := r.rwq != 0 && s.quoinSet r.quoin
    let s := if locked && r.lockedDiffers old new then s.quoinDenied off r.quoin else s
    s.setReg off (r.write locked old new)

/-- READY has been reached (R584 step 11). -/
def State.ready (s : State) : Bool := s.boot.phase == .ready

/-- The life-cycle state: the highest written OTP slot (R571). -/
def State.lc (s : State) : LcState := s.trustKept.lcSlots.getLastD .blank

/-- An active region of the part (R3, R5). -/
def State.regionActive (s : State) (r : Nat) : Bool := decide (r < 48) && s.fuses.regionMask.getLsbD r

/-- The field die is fenced: FM has failed and so has FN or MN (R43). -/
def State.fieldFenced (s : State) : Bool :=
  s.links.fm.state == 2 && (s.links.fn.state == 2 || s.links.mn.state == 2)

/-- The net die is fenced: MN has failed and so has FN or FM (R43). -/
def State.netFenced (s : State) : Bool :=
  s.links.mn.state == 2 && (s.links.fn.state == 2 || s.links.fm.state == 2)

/-- A soft reset of block b is under way (R603, R604). -/
def State.blockHeld (s : State) (b : Nat) : Bool := s.rst.blocks.any (fun p => p.1 == b)

/-- A soft reset of a unit, or of its whole block, is under way: it takes no new work (R603). -/
def State.unitHeld (s : State) (b cls idx : Nat) : Bool :=
  s.blockHeld b || (match s.rst.unit with | some u => u.cls == cls && u.index == idx | none => false)

/-- A PLL has stopped, and its domain holds all work (R618). PLLs are numbered in the order of the table of R616: 0 to 47 the
regions, 48 the mesh, 49 the media core, 50 the net core, then stack memory, bulk memory, NAND and die links. -/
def State.clockDown (s : State) (pll : Nat) : Bool := s.power.pllDown.any (fun p => p.1 == pll)

/-- A list with position `i` updated. -/
def modAt {α : Type} (l : List α) (i : Nat) (f : α → α) : List α :=
  match l, i with
  | [], _ => []
  | x :: xs, 0 => f x :: xs
  | x :: xs, i + 1 => x :: modAt xs i f

/-- Sets or clears one bit of a vector. -/
def setBit {n : Nat} (v : BitVec n) (i : Nat) (b : Bool) : BitVec n :=
  if b then v ||| (1#n <<< i) else v &&& ~~~(1#n <<< i)

/-- a is earlier than b as n-bit sequence values (R17). -/
def seqEarlier (n a b : Nat) : Bool :=
  let d := (b + 2 ^ n - a % 2 ^ n) % 2 ^ n
  decide (1 ≤ d ∧ d ≤ 2 ^ (n - 1) - 1)

/-- The value of a list of bytes, least significant first (R13). -/
def leNat : List Byte → Nat
  | [] => 0
  | b :: bs => b.toNat + 256 * leNat bs

/-- n bytes of a number, least significant first. -/
def leBytes : Nat → Nat → List Byte
  | 0, _ => []
  | n + 1, x => BitVec.ofNat 8 x :: leBytes n (x / 256)

/-- `len` bytes of a list from `off`; bytes past its end read 0. -/
def slice (b : List Byte) (off len : Nat) : List Byte :=
  let p := (b.drop off).take len
  p ++ List.replicate (len - p.length) 0

/-- A little-endian field of a structure in memory. -/
def leField (b : List Byte) (off len : Nat) : Nat := leNat (slice b off len)

/-- n bytes of a number in network order. -/
def beBytes (n x : Nat) : List Byte := (leBytes n x).reverse

/-- One bit step of CRC-32C, reflected polynomial 0x82F6_3B78. -/
def crc32cBits : Nat → BitVec 32 → BitVec 32
  | 0, c => c
  | n + 1, c => crc32cBits n (if c.getLsbD 0 then (c >>> 1) ^^^ 0x82F63B78#32 else c >>> 1)

/-- CRC-32C of a byte string. -/
def crc32c (b : List Byte) : Nat :=
  ((b.foldl (fun c x => crc32cBits 8 (c ^^^ x.zeroExtend 32)) 0xFFFFFFFF#32) ^^^ 0xFFFFFFFF#32).toNat

/-- A function that the device has (R404). -/
def State.fnAt (s : State) (g : Nat) : Option Fn := s.yqi.fns.find? (fun f => f.g == g)

def State.setFn (s : State) (g : Nat) (f : Fn → Fn) : State :=
  { s with yqi := { s.yqi with fns := s.yqi.fns.map (fun (x : Fn) => if x.g = g then f x else x) } }

/-- Raises a vector, or sets its pending bit while it is masked (R417). -/
def State.raiseVector (s : State) (fn v : Nat) : State :=
  match s.fnAt fn with
  | none => s
  | some f =>
    let s := s.setFn fn (fun f => { f with coalesce := f.coalesce.map (fun (c : Coalesce) => if c.vector = v then { c with count := 0 } else c) })
    if f.unmasked.contains v then s.emit (.msix fn v)
    else s.setFn fn (fun f => { f with msixPending := if f.msixPending.contains v then f.msixPending else f.msixPending ++ [v] })

/-- WAKE_EVENT (R623, R624): in Idle the return begins; during entry it ends the entry and the request is recorded
in LAST_REFUSAL with DETAIL 6. A watchdog probe wakes only while the watchdog is armed. -/
def State.wakeEvent (s : State) (c : WakeCause) : State :=
  if c == .watchdogProbe && s.regFld regAonWdtCfg 0 2 == 0 then s
  else match s.power.state with
    | .idle => { s with power := { s.power with state := .waking } }
    | .enteringIdle => { s with power := { s.power with state := .waking, lastRefusal := 6 } }
    | _ => s

end Sys2Proof.Machine
end

