-- ==== Sys2Proof/Machine/Numerics.lean ====
section
/-! DEFINITION. Exact values, element formats, rounding and conversion (R291-R299, R305). -/

namespace Sys2Proof.Machine

/-- An exact value: NaN, an infinity, or ± mag × 2^exp. -/
inductive Num where
  | nan
  | inf (neg : Bool)
  | fin (neg : Bool) (mag : Nat) (exp : Int)
  deriving DecidableEq, Repr

def Num.zero : Num := .fin false 0 0

/-- The integer as an exact value. -/
def Num.ofInt (i : Int) : Num := .fin (decide (i < 0)) i.natAbs 0

def Num.isNan : Num → Bool
  | .nan => true
  | _ => false

def Num.isInf : Num → Bool
  | .inf _ => true
  | _ => false

def Num.isZero : Num → Bool
  | .fin _ 0 _ => true
  | _ => false

def Num.isNeg : Num → Bool
  | .nan => false
  | .inf n => n
  | .fin n _ _ => n

def Num.neg : Num → Num
  | .nan => .nan
  | .inf n => .inf (!n)
  | .fin n m e => .fin (!n) m e

def Num.abs : Num → Num
  | .nan => .nan
  | .inf _ => .inf false
  | .fin _ m e => .fin false m e

/-- A finite value as an integer of units 2^e, for an e at or below its own exponent. -/
def scaledInt (neg : Bool) (m : Nat) (x e : Int) : Int :=
  let v : Int := m * 2 ^ (x - e).toNat
  if neg then -v else v

/-- The exact sum under the special-value rules of IEEE 754; an exact zero of unlike signs is +0. -/
def Num.add : Num → Num → Num
  | .nan, _ => .nan
  | _, .nan => .nan
  | .inf a, .inf b => if a = b then .inf a else .nan
  | .inf a, .fin _ _ _ => .inf a
  | .fin _ _ _, .inf b => .inf b
  | .fin n m x, .fin n' m' x' =>
    let e := min x x'
    let v := scaledInt n m x e + scaledInt n' m' x' e
    if v = 0 then .fin (n && n') 0 e else .fin (decide (v < 0)) v.natAbs e

def Num.sub (a b : Num) : Num := a.add b.neg

/-- The exact product; infinity times zero is NaN. -/
def Num.mul : Num → Num → Num
  | .nan, _ => .nan
  | _, .nan => .nan
  | .inf a, .inf b => .inf (a != b)
  | .inf a, .fin n m _ => if m = 0 then .nan else .inf (a != n)
  | .fin n m _, .inf b => if m = 0 then .nan else .inf (n != b)
  | .fin n m x, .fin n' m' x' => .fin (n != n') (m * m') (x + x')

/-- The value times 2^k. -/
def Num.scale (k : Int) : Num → Num
  | .fin n m e => .fin n m (e + k)
  | v => v

/-- a < b for values that are no NaN; zeros are equal. -/
def Num.lt : Num → Num → Bool
  | .nan, _ => false
  | _, .nan => false
  | .inf a, .inf b => a && !b
  | .inf a, .fin _ _ _ => a
  | .fin _ _ _, .inf b => !b
  | .fin n m x, .fin n' m' x' =>
    let e := min x x'
    decide (scaledInt n m x e < scaledInt n' m' x' e)

/-- floor(log2 |v|) of a nonzero finite value. -/
def floorLog2 (m : Nat) (e : Int) : Int := (Nat.log2 m : Int) + e

/-- How the top exponent of a format is used (R292). -/
inductive TopKind where
  | ieee
  | e4m3
  | finite
  deriving DecidableEq, Repr

/-- A floating-point element format (R292): exponent bits, mantissa bits, bias, and its special values. -/
structure FloatFmt where
  expBits : Nat
  man : Nat
  bias : Nat
  top : TopKind
  deriving DecidableEq, Repr

def fmtFp32 : FloatFmt := ⟨8, 23, 127, .ieee⟩
def fmtFp16 : FloatFmt := ⟨5, 10, 15, .ieee⟩
def fmtBf16 : FloatFmt := ⟨8, 7, 127, .ieee⟩
def fmtE4m3 : FloatFmt := ⟨4, 3, 7, .e4m3⟩
def fmtE5m2 : FloatFmt := ⟨5, 2, 15, .ieee⟩
def fmtE3m2 : FloatFmt := ⟨3, 2, 3, .finite⟩
def fmtE2m3 : FloatFmt := ⟨2, 3, 1, .finite⟩
def fmtE2m1 : FloatFmt := ⟨2, 1, 1, .finite⟩

/-- The exponent of a unit in the last place of the smallest normal numbers. -/
def FloatFmt.minQ (f : FloatFmt) : Int := 1 - (f.bias : Int) - f.man

/-- The largest finite value, as significand and exponent (R292). -/
def FloatFmt.maxFinite (f : FloatFmt) : Nat × Int :=
  let full := 2 ^ (f.man + 1) - 1
  let topExp : Int := (2 ^ f.expBits - 1 : Nat) - (f.bias : Int) - f.man
  match f.top with
  | .ieee => (full, topExp - 1)
  | .e4m3 => (full - 1, topExp)
  | .finite => (full, topExp)

/-- The canonical NaN of a format (R296). -/
def FloatFmt.nanBits (f : FloatFmt) : Nat :=
  match f.top with
  | .ieee => (2 ^ f.expBits - 1) * 2 ^ f.man + 2 ^ (f.man - 1)
  | _ => 2 ^ (f.expBits + f.man) - 1

def FloatFmt.infBits (f : FloatFmt) : Nat := (2 ^ f.expBits - 1) * 2 ^ f.man

def FloatFmt.signBit (f : FloatFmt) : Nat := 2 ^ (f.expBits + f.man)

/-- The value a code stands for (R292); every NaN code reads as NaN. -/
def FloatFmt.decode (f : FloatFmt) (bits : Nat) : Num :=
  let neg := bits.testBit (f.expBits + f.man)
  let e := bits / 2 ^ f.man % 2 ^ f.expBits
  let m := bits % 2 ^ f.man
  let value : Num :=
    if e = 0 then .fin neg m f.minQ else .fin neg (2 ^ f.man + m) ((e : Int) - 1 + f.minQ)
  match f.top with
  | .ieee => if e = 2 ^ f.expBits - 1 then (if m = 0 then .inf neg else .nan) else value
  | .e4m3 => if e = 2 ^ f.expBits - 1 ∧ m = 2 ^ f.man - 1 then .nan else value
  | .finite => value

/-- The rounding mode an operation names (R295): RNE, or SR with its 16-bit r (R299). -/
inductive RoundMode where
  | rne
  | sr (r : Nat)
  deriving DecidableEq, Repr

/-- Rounds m × 2^e to a multiple of 2^q: how many units (R295, R299). -/
def roundUnits (mode : RoundMode) (m : Nat) (e q : Int) : Nat :=
  if q ≤ e then m * 2 ^ (e - q).toNat
  else
    let sh := (q - e).toNat
    let lo := m / 2 ^ sh
    let rem := m % 2 ^ sh
    match mode with
    | .rne => if rem * 2 > 2 ^ sh ∨ (rem * 2 = 2 ^ sh ∧ lo % 2 = 1) then lo + 1 else lo
    | .sr r => if rem ≠ 0 ∧ rem * 65536 / 2 ^ sh > r then lo + 1 else lo

/-- Rounds a nonzero magnitude to the format's precision with unbounded exponent: significand and exponent. -/
def FloatFmt.roundMag (f : FloatFmt) (mode : RoundMode) (m : Nat) (e : Int) : Nat × Int :=
  let q := max (floorLog2 m e - f.man) f.minQ
  let n := roundUnits mode m e q
  if n ≥ 2 ^ (f.man + 1) then (n / 2, q + 1) else (n, q)

/-- n × 2^q lies beyond the largest finite value. -/
def FloatFmt.beyond (f : FloatFmt) (n : Nat) (q : Int) : Bool :=
  let mx := f.maxFinite
  (Num.fin false mx.1 mx.2).lt (.fin false n q)

/-- The code of a rounded magnitude (R292). -/
def FloatFmt.encodeMag (f : FloatFmt) (n : Nat) (q : Int) : Nat :=
  if n < 2 ^ f.man then n else (q - f.minQ + 1).toNat * 2 ^ f.man + (n - 2 ^ f.man)

def FloatFmt.withSign (f : FloatFmt) (neg : Bool) (bits : Nat) : Nat := if neg then f.signBit + bits else bits

def FloatFmt.maxBits (f : FloatFmt) : Nat :=
  let mx := f.maxFinite
  f.encodeMag mx.1 mx.2

/-- Conversion of an exact value to a floating-point format (R296). -/
def FloatFmt.convert (f : FloatFmt) (mode : RoundMode) (sat : Bool) : Num → Nat
  | .nan => f.nanBits
  | .inf neg =>
    if sat then f.withSign neg f.maxBits
    else if f.top = .ieee then f.withSign neg f.infBits else f.nanBits
  | .fin neg m e =>
    if m = 0 then f.withSign neg 0
    else
      let r := f.roundMag mode m e
      if f.beyond r.1 r.2 then
        (if sat then f.withSign neg f.maxBits
         else if f.top = .ieee then f.withSign neg f.infBits else f.nanBits)
      else f.withSign neg (f.encodeMag r.1 r.2)

/-- The RNE rounding of an exact value to FP32, as a value. -/
def rne32 (v : Num) : Num := fmtFp32.decode (fmtFp32.convert .rne false v)

/-- Rounds an exact value to the nearest integer, ties to even. -/
def rneInt : Num → Int
  | .fin neg m e =>
    let n : Int := roundUnits .rne m e 0
    if neg then -n else n
  | _ => 0

/-- Conversion to an integer format of a range (R297). -/
def convertInt (lo hi : Int) : Num → Int
  | .nan => 0
  | .inf neg => if neg then lo else hi
  | v => max lo (min hi (rneInt v))

/-- An element format code of R291, by its kind. -/
inductive ElemKind where
  | bytes
  | int (bits : Nat) (isSigned : Bool)
  | float (f : FloatFmt)
  | mx (f : FloatFmt) (bits : Nat)
  | mxInt8
  deriving DecidableEq, Repr

/-- The format a code names (R291); none for an unknown code. -/
def elemKind (code : Nat) : Option ElemKind :=
  match code with
  | 0x0000 => some .bytes
  | 0x0001 => some (.int 8 false)
  | 0x0002 => some (.int 8 true)
  | 0x0003 => some (.int 16 false)
  | 0x0004 => some (.int 16 true)
  | 0x0005 => some (.int 32 false)
  | 0x0006 => some (.int 32 true)
  | 0x0010 => some (.float fmtFp32)
  | 0x0011 => some (.float fmtFp16)
  | 0x0012 => some (.float fmtBf16)
  | 0x0013 => some (.float fmtE4m3)
  | 0x0014 => some (.float fmtE5m2)
  | 0x0020 => some (.mx fmtE4m3 8)
  | 0x0021 => some (.mx fmtE5m2 8)
  | 0x0022 => some (.mx fmtE3m2 6)
  | 0x0023 => some (.mx fmtE2m3 6)
  | 0x0024 => some (.mx fmtE2m1 4)
  | 0x0025 => some .mxInt8
  | _ => none

/-- Bits of one element (R291). -/
def ElemKind.bits : ElemKind → Nat
  | .bytes => 8
  | .int b _ => b
  | .float f => 1 + f.expBits + f.man
  | .mx _ b => b
  | .mxInt8 => 8

def ElemKind.isMx : ElemKind → Bool
  | .mx _ _ => true
  | .mxInt8 => true
  | _ => false

/-- The range of an integer format. -/
def intRange (bits : Nat) (isSigned : Bool) : Int × Int :=
  if isSigned then (-(2 : Int) ^ (bits - 1), (2 : Int) ^ (bits - 1) - 1) else (0, (2 : Int) ^ bits - 1)

/-- A two's-complement reading of a code. -/
def signedOf (bits n : Nat) : Int := if n.testBit (bits - 1) then (n : Int) - 2 ^ bits else n

/-- The value of one element, without its block scale (R292): a stored MXINT8 −128 reads as −2. -/
def ElemKind.value (k : ElemKind) (code : Nat) : Num :=
  match k with
  | .bytes => .ofInt code
  | .int b sg => .ofInt (if sg then signedOf b code else code)
  | .float f => f.decode code
  | .mx f _ => f.decode code
  | .mxInt8 => (Num.ofInt (signedOf 8 code)).scale (-6)

/-- The code an exact value converts to (R296, R297) in a format that is not MX. -/
def ElemKind.convert (k : ElemKind) (mode : RoundMode) (sat : Bool) (v : Num) : Nat :=
  match k with
  | .float f => f.convert mode sat v
  | .int b sg =>
    let r := intRange b sg
    ((convertInt r.1 r.2 v) % (2 : Int) ^ b).toNat
  | _ => ((convertInt 0 255 v) % 256).toNat

/-- EMAX of an MX element format (R292). -/
def ElemKind.emax : ElemKind → Int
  | .mx f _ => let mx := f.maxFinite; floorLog2 mx.1 mx.2
  | _ => 0

/-- One element of an MX block, of a value already scaled (R298): rounded, then clamped. -/
def ElemKind.mxElement (k : ElemKind) (mode : RoundMode) (v : Num) : Nat :=
  match k, v with
  | .mx f _, .fin _ _ _ => f.convert mode true v
  | .mxInt8, .fin neg m e =>
    let n := min (roundUnits mode m e (-6)) 127
    if neg ∧ n ≠ 0 then 256 - n else n
  | _, _ => 0

/-- The largest magnitude of a block of finite values. -/
def amaxOf (vs : List Num) : Num := vs.foldl (fun a v => if a.lt v.abs then v.abs else a) .zero

/-- Quantises one block (R298): the scale byte and the element codes. `mode` gives each element's rounding by its
place in the block. -/
def quantBlock (k : ElemKind) (mode : Nat → RoundMode) (vs : List Num) : Nat × List Nat :=
  if vs.any (fun v => v.isNan || v.isInf) then (0xFF, vs.map (fun _ => 0))
  else match amaxOf vs with
    | .fin _ m e =>
      if m = 0 then (0, vs.map (fun _ => 0))
      else
        let ex := floorLog2 m e - k.emax
        let x := ((max (-127) (min 127 ex)) + 127).toNat
        (x, (List.range vs.length).map (fun i => k.mxElement (mode i) ((vs.getD i .zero).scale (127 - (x : Int)))))
    | _ => (0, vs.map (fun _ => 0))

/-- The mixing function of R299. -/
def mix64 (z : BitVec 64) : BitVec 64 :=
  let z := (z ^^^ (z >>> 30)) * 0xBF58476D1CE4E5B9#64
  let z := (z ^^^ (z >>> 27)) * 0x94D049BB133111EB#64
  z ^^^ (z >>> 31)

/-- The 16-bit r of stochastic rounding (R299). -/
def srWord (seed op idx : Nat) : Nat :=
  let z := mix64 (BitVec.ofNat 64 op ^^^ (BitVec.ofNat 64 idx * 0x9E3779B97F4A7C15#64))
  (mix64 (BitVec.ofNat 64 seed ^^^ z) >>> 48).toNat

/-- How an operation rounds (R295): RNE, or SR with its seed and operation number. -/
inductive Rounding where
  | rne
  | sr (seed op : Nat)
  deriving DecidableEq, Repr

def Rounding.at (r : Rounding) (idx : Nat) : RoundMode :=
  match r with
  | .rne => .rne
  | .sr seed op => .sr (srWord seed op idx)

/-- The scale of an E8M0 byte (R293); none is NaN. -/
def mxScale (x : Nat) : Option Int := if x = 0xFF then none else some ((x : Int) - 127)

/-- Bytes of the element array of n elements (R294). -/
def elemBytes (k : ElemKind) (n : Nat) : Nat := (n * k.bits + 7) / 8

/-- Where the scale array begins (R294). -/
def scaleOffset (k : ElemKind) (n : Nat) : Nat := (elemBytes k n + 255) / 256 * 256

/-- Bytes of a stored tensor of n elements (R294). -/
def tensorBytes (k : ElemKind) (n : Nat) : Nat :=
  if k.isMx then scaleOffset k n + n / 32 else elemBytes k n

/-- The code of element i in a packed element array, little-endian, the lower-numbered element lower (R294). -/
def elemCode (k : ElemKind) (b : List Byte) (i : Nat) : Nat :=
  leField b (i * k.bits / 8) 4 / 2 ^ (i * k.bits % 8) % 2 ^ k.bits

/-- A tensor read from bytes: element values without scale, and the scale of each block of 32. -/
structure Tensor where
  elems : List Num
  scales : List (Option Int)
  deriving DecidableEq, Repr

def readTensor (k : ElemKind) (b : List Byte) (n : Nat) : Tensor :=
  { elems := (List.range n).map (fun i => k.value (elemCode k b i)),
    scales := if k.isMx then (List.range (n / 32)).map (fun i => mxScale (leField b (scaleOffset k n + i) 1))
              else [] }

/-- The full value of element i. -/
def Tensor.val (t : Tensor) (i : Nat) : Num :=
  let v := t.elems.getD i .zero
  match t.scales[i / 32]? with
  | none => v
  | some none => .nan
  | some (some e) => v.scale e

def Tensor.vals (t : Tensor) : List Num := (List.range t.elems.length).map t.val

/-- Packs codes of `bits` bits each into bytes, the lower-numbered lower (R294). -/
def packCodes (bits : Nat) (codes : List Nat) : List Byte :=
  leBytes ((codes.length * bits + 7) / 8) (codes.reverse.foldl (fun a c => a * 2 ^ bits + c % 2 ^ bits) 0)

/-- Splits a list into pieces of n. -/
def chunksOf {α : Type} (n : Nat) : Nat → List α → List (List α)
  | 0, _ => []
  | _, [] => []
  | fuel + 1, xs => xs.take n :: chunksOf n fuel (xs.drop n)

/-- Values as the bytes of a tensor in a format, by conversion or by block quantisation (R296-R298). -/
def writeTensor (k : ElemKind) (r : Rounding) (sat : Bool) (base : Nat) (vs : List Num) : List Byte :=
  if k.isMx then
    let bs := chunksOf 32 vs.length vs
    let q := (List.range bs.length).map (fun i => quantBlock k (fun j => r.at (base + 32 * i + j)) (bs.getD i []))
    let el := packCodes k.bits (q.flatMap (·.2))
    slice el 0 (scaleOffset k vs.length) ++ q.map (fun x => BitVec.ofNat 8 x.1)
  else packCodes k.bits ((List.range vs.length).map (fun i => k.convert (r.at (base + i)) sat (vs.getD i .zero)))

end Sys2Proof.Machine
end

