-- ==== Sys2Proof/Machine/DecodeFns.lean ====
section
/-! DEFINITION. Pixel and sample arithmetic of decode and augment as functions of their inputs alone (R206, R207, R209,
R214, R218-R223, R241). -/

namespace Sys2Proof.Machine

/-- Min and max of an integer range. -/
def clampI (v lo hi : Int) : Int := min (max v lo) hi

/-- Arithmetic shift right: division by a power of two toward minus infinity. -/
def sar (v : Int) (n : Nat) : Int := v / (2 : Int) ^ n

/-- Magnitudes of k for cosine arguments of n × π/16 (R206); index 4 is also c(0)'s 2,896. -/
def cosMag : Nat → Int
  | 1 => 4017 | 2 => 3784 | 3 => 3406 | 4 => 2896 | 5 => 2276 | 6 => 1567 | 7 => 799
  | 0 => 4096
  | _ => 0

/-- 8,192 × c(u) × cos((2x + 1) u π / 16), rounded (R206). -/
def kUX (u x : Nat) : Int :=
  if u = 0 then 2896
  else
    let a := (2 * x + 1) * u % 32
    if a < 8 then cosMag a
    else if a = 8 then 0
    else if a ≤ 16 then -cosMag (16 - a)
    else if a < 24 then -cosMag (a - 16)
    else if a = 24 then 0
    else cosMag (32 - a)

def sumRange (n : Nat) (f : Nat → Int) : Int := (List.range n).foldl (fun a i => a + f i) 0

/-- One 8 × 8 block, row-major, from its dequantised coefficients (R206). -/
def idctBlock (coef : List Int) : List Int :=
  let t := (List.range 64).map (fun i => sar (sumRange 8 (fun u => kUX u (i % 8) * coef.getD (i / 8 * 8 + u) 0) + 1024) 11)
  (List.range 64).map (fun i =>
    clampI (sar (sumRange 8 (fun v => kUX v (i / 8) * t.getD (v * 8 + i % 8) 0) + 16384) 15 + 128) 0 255)

/-- The sample of a component at its own (x, y). -/
def jpegSampleAt (c : JpegComponent) (blocks : List (List Int)) (x y : Nat) : Int :=
  ((blocks.getD (y / 8 * c.blocksPerLine + x / 8) []).getD (y % 8 * 8 + x % 8) 0)

/-- The decoded blocks of a component. -/
def jpegDecoded (c : JpegComponent) : List (List Int) :=
  c.blocks.map (fun b => idctBlock ((List.range 64).map (fun i => b.getD i 0 * c.quant.getD i 0)))

/-- RGB of one YCbCr pixel (R207). -/
def yccPixel (y cbv crv : Int) : List Nat :=
  let cb := cbv - 128
  let cr := crv - 128
  [(clampI (y + sar (91881 * cr + 32768) 16) 0 255).toNat,
   (clampI (y + sar (-22554 * cb - 46802 * cr + 32768) 16) 0 255).toNat,
   (clampI (y + sar (116130 * cb + 32768) 16) 0 255).toNat]

/-- Grey of RGB (R209 rule 4, R220). -/
def greyOf (r g b : Int) : Int := sar (77 * r + 150 * g + 29 * b + 128) 8

/-- A JPEG's pixels (R207). -/
def jpegPixels (w h : Nat) (ycc lumaOnly : Bool) (comps : List JpegComponent) : Sample :=
  let hm := (comps.map (·.h)).foldl max 1
  let vm := (comps.map (·.v)).foldl max 1
  let ds := comps.map (fun c => (c, jpegDecoded c))
  let at' (i x y : Nat) : Int := match ds[i]? with
    | some (c, b) => jpegSampleAt c b (x * c.h / hm) (y * c.v / vm)
    | none => 0
  let one := comps.length ≤ 1 || lumaOnly
  let px := (List.range (w * h)).flatMap (fun p =>
    let x := p % w
    let y := p / w
    if one then [(at' 0 x y).toNat]
    else if ycc then yccPixel (at' 0 x y) (at' 1 x y) (at' 2 x y)
    else [(at' 0 x y).toNat, (at' 1 x y).toNat, (at' 2 x y).toNat])
  .image w h (if one then 1 else 3) false px

/-- A stored sample of depth d scaled to 8 or 16 bits (R209 rules 2 and 3). -/
def scaleSample (d : Nat) (deep : Bool) (v : Nat) : Nat :=
  if d < 8 then v * (if deep then 65535 else 255) / (2 ^ d - 1)
  else if d = 8 then (if deep then v * 257 else v)
  else if deep then v else (v * 255 + 32895) / 65536

/-- The colour and alpha of one stored pixel (R209): none is a palette index beyond the palette. -/
def pngPixel (colour depth : Nat) (f : PicForm) (plte : List (Nat × Nat × Nat)) (trns : List Nat) (ss : List Nat) :
    Option (List Nat) :=
  let full := if f.deep then 65535 else 255
  let sc := scaleSample depth f.deep
  let up8 (v : Nat) : Nat := if f.deep then v * 257 else v
  let base : Option (Nat × Nat × Nat × Bool × Nat) :=    -- red, green, blue, grey source, alpha
    match colour with
    | 3 =>
      let i := ss.getD 0 0
      (plte[i]?).map (fun c => (up8 c.1, up8 c.2.1, up8 c.2.2, false, match trns[i]? with | some a => up8 a | none => full))
    | 0 =>
      let v := sc (ss.getD 0 0)
      some (v, v, v, true, if !trns.isEmpty && trns.getD 0 0 % 2 ^ depth == ss.getD 0 0 then 0 else full)
    | 4 => let v := sc (ss.getD 0 0); some (v, v, v, true, sc (ss.getD 1 0))
    | 6 => some (sc (ss.getD 0 0), sc (ss.getD 1 0), sc (ss.getD 2 0), false, sc (ss.getD 3 0))
    | _ => some (sc (ss.getD 0 0), sc (ss.getD 1 0), sc (ss.getD 2 0), false,
        if trns.length ≥ 3 && (trns.take 3).map (· % 2 ^ depth) == ss.take 3 then 0 else full)
  base.map (fun (r, g, b, grey, a) =>
    let y := if grey then r else (greyOf r g b).toNat
    match f.channels with
    | 1 => [y]
    | 2 => [y, a]
    | 3 => [r, g, b]
    | _ => [r, g, b, a])

/-- Stored samples of a PNG pixel, by colour type. -/
def pngStored : Nat → Nat
  | 0 => 1 | 3 => 1 | 4 => 2 | 2 => 3 | _ => 4

/-- A PNG's pixels in the form asked for (R209). -/
def pngPixels (w h colour depth : Nat) (f : PicForm) (plte : List (Nat × Nat × Nat)) (trns : List Nat)
    (samples : List Nat) : Option Sample :=
  let n := pngStored colour
  let px := (List.range (w * h)).map (fun i => pngPixel colour depth f plte trns ((samples.drop (i * n)).take n))
  if px.all Option.isSome then some (.image w h f.channels f.deep (px.flatMap (fun p => p.getD []))) else none

/-- A decoded audio sample as a 24-bit value (R214). -/
def audio24 (bits : Nat) (wavBytes : Bool) (x : Int) : Int :=
  let x := if wavBytes then x - 128 else x
  if bits ≤ 24 then x * (2 : Int) ^ (24 - bits) else clampI (sar (x + 128) 8) (-(2 : Int) ^ 23) ((2 : Int) ^ 23 - 1)

/-- The value of an image at (x, y), channel k. -/
def pixAt (w ch : Nat) (px : List Nat) (x y k : Nat) : Nat := px.getD ((y * w + x) * ch + k) 0

/-- Builds an image by a function of (x, y, channel). -/
def buildImage (w h ch : Nat) (deep : Bool) (f : Nat → Nat → Nat → Nat) : Sample :=
  .image w h ch deep ((List.range (w * h * ch)).map (fun i => f (i / ch % w) (i / ch / w) (i % ch)))

/-- A column or row coordinate of BILINEAR (R219): index, next index, weight. -/
def bilinCoord (x inN outN : Nat) : Nat × Nat × Nat :=
  let f : Int := ((2 * x + 1) * inN * 65536 / (2 * outN) : Nat) - 32768
  let f := f.toNat
  (f / 65536, min (f / 65536 + 1) (inN - 1), f % 65536)

/-- RESIZE by a method to a size (R219); none is a PARAM failure. -/
def resizeImage (m : ResizeMethod) (w h ch : Nat) (deep : Bool) (px : List Nat) (wo ho : Nat) : Option Sample :=
  match m with
  | .nearest => some (buildImage wo ho ch deep (fun x y k =>
      pixAt w ch px ((2 * x + 1) * w / (2 * wo)) ((2 * y + 1) * h / (2 * ho)) k))
  | .area =>
    if wo = 0 ∨ ho = 0 ∨ w % wo ≠ 0 ∨ h % ho ≠ 0 then none
    else
      let a := w / wo
      let b := h / ho
      some (buildImage wo ho ch deep (fun x y k =>
        let total := (List.range (a * b)).foldl (fun t i => t + pixAt w ch px (x * a + i % a) (y * b + i / a) k) 0
        (total + a * b / 2) / (a * b)))
  | .bilinear => some (buildImage wo ho ch deep (fun x y k =>
      let cx := bilinCoord x w wo
      let cy := bilinCoord y h ho
      let row (yy : Nat) : Nat := pixAt w ch px cx.1 yy k * (65536 - cx.2.2) + pixAt w ch px cx.2.1 yy k * cx.2.2
      (row cy.1 * (65536 - cy.2.2) + row cy.2.1 * cy.2.2 + 2 ^ 31) / 2 ^ 32))

/-- The output size of RESIZE (R219); none is a PARAM failure. -/
def resizeTo (z : ResizeSize) (w h shortSide : Nat) : Option (Nat × Nat) :=
  let short (s : Nat) : Option (Nat × Nat) :=
    if s < 1 ∨ s > 16384 then none
    else if w ≤ h then some (s, (2 * h * s + w) / (2 * w)) else some ((2 * w * s + h) / (2 * h), s)
  match z with
  | .fixed wo ho => some (wo, ho)
  | .shortGraph s => short s
  | .shortEntry s => short (if shortSide = 0 then s else shortSide)

/-- YUV_TO_RGB of one picture (R221). -/
def yuvToRgb (bt709 : Bool) (w h d : Nat) (mono : Bool) (p : List Nat) : Sample :=
  let krv : Int := if bt709 then 117489 else 104597
  let kgu : Int := if bt709 then 13975 else 25675
  let kgv : Int := if bt709 then 34925 else 53279
  let kbu : Int := if bt709 then 138438 else 132201
  let top : Int := (2 : Int) ^ d - 1
  let cw := w / 2
  let csz := cw * (h / 2)
  let yv (x y : Nat) : Int := (p.getD (y * w + x) 0 : Int) - 16 * (2 : Int) ^ (d - 8)
  let c (plane x y : Nat) : Int :=
    if mono then 0 else (p.getD (w * h + plane * csz + y / 2 * cw + x / 2) 0 : Int) - (2 : Int) ^ (d - 1)
  buildImage w h 3 (decide (d > 8)) (fun x y k =>
    let yy := 76309 * yv x y
    let v := match k with
      | 0 => yy + krv * c 1 x y
      | 1 => yy - kgu * c 0 x y - kgv * c 1 x y
      | _ => yy + kbu * c 0 x y
    (clampI (sar (v + 32768) 16) 0 top).toNat)

/-- One CONVERT element: t as R222 forms it, written in a target format. -/
def convertElem (fmt : Nat) (t : Int) : List Byte :=
  match elemKind fmt with
  | some (.int b sg) =>
    let r := intRange b sg
    leBytes (b / 8) ((clampI (sar (t + 32768) 16) r.1 r.2) % (2 : Int) ^ b).toNat
  | some (.float f) =>
    let v := (Num.ofInt t).scale (-16)
    leBytes ((1 + f.expBits + f.man + 7) / 8) (f.convert .rne true v)
  | _ => []

/-- Channel order of CONVERT's output: BGR swaps the first and third of three or four channels. -/
def chanOrder (bgr : Bool) (ch k : Nat) : Nat := if bgr && decide (ch ≥ 3) then (if k = 0 then 2 else if k = 2 then 0 else k) else k

/-- CONVERT of an image or of audio (R222). -/
def convertSample (fmt : Nat) (scale bias : List Int) (chw bgr : Bool) : Sample → Option (List Byte)
  | .image w h ch _ px =>
    let el (x y k : Nat) : List Byte :=
      let s := chanOrder bgr ch k
      convertElem fmt ((pixAt w ch px x y s : Int) * scale.getD s 0 + bias.getD s 0)
    let n := w * h * ch
    some ((List.range n).flatMap (fun i =>
      if chw then el (i % (w * h) % w) (i % (w * h) / w) (i / (w * h)) else el (i / ch % w) (i / ch / w) (i % ch)))
  | .audio ch _ xs => some ((List.range xs.length).flatMap (fun i =>
      convertElem fmt (xs.getD i 0 * scale.getD (i % max ch 1) 0 + bias.getD (i % max ch 1) 0)))
  | _ => none

/-- The reciprocals of MIX (R223). -/
def mixM : Nat → Int
  | 1 => 65536 | 2 => 32768 | 3 => 21845 | 4 => 16384 | 5 => 13107 | 6 => 10923 | 7 => 9362 | _ => 8192

/-- Values of a parameter entry (R225). -/
def entryS16 (e : List Byte) (off : Nat) : Int := signedOf 16 (leField e off 2)

/-- One augment operation on one sample (R218-R223), with the parameter entry and the ROI centre: none is a PARAM
failure. -/
def augOne (op : AugOp) (e : List Byte) (roi : Option (Nat × Nat)) (x : Sample) : Option Sample :=
  match op, x with
  | .crop w h origin clampO, .image iw ih ch deep px =>
    if w > iw ∨ h > ih then none
    else
      let o : Nat × Nat := match origin with
        | .centre => ((iw - w) / 2, (ih - h) / 2)
        | .entry =>
          let a := (leField e 0 4, leField e 4 4)
          if clampO then (min a.1 (iw - w), min a.2 (ih - h)) else a
        | .roi =>
          let c := roi.getD (iw / 2, ih / 2)
          (min (c.1 - w / 2) (iw - w), min (c.2 - h / 2) (ih - h))
      if o.1 + w > iw ∨ o.2 + h > ih then none
      else some (buildImage w h ch deep (fun x y k => pixAt iw ch px (o.1 + x) (o.2 + y) k))
  | .flip fixed, .image w h ch deep px =>
    let f := fixed.getD ((leField e 0xA 2).testBit 0, (leField e 0xA 2).testBit 1)
    some (buildImage w h ch deep (fun x y k =>
      pixAt w ch px (if f.1 then w - 1 - x else x) (if f.2 then h - 1 - y else y) k))
  | .resize m z, .image w h ch deep px =>
    match resizeTo z w h (leField e 8 2) with
    | some (wo, ho) => resizeImage m w h ch deep px wo ho
    | none => none
  | .tone, .image w h ch deep px =>
    some (.image w h ch deep (px.map (fun (v : Nat) =>
      (clampI (128 + sar (((v : Int) - 128) * leField e 0xE 2 + 2048) 12 + entryS16 e 0xC) 0 255).toNat)))
  | .saturate, .image w h ch deep px =>
    let sat : Int := leField e 0x10 2
    some (buildImage w h ch deep (fun x y k =>
      let g := greyOf (pixAt w ch px x y 0) (pixAt w ch px x y 1) (pixAt w ch px x y 2)
      (clampI (g + sar (((pixAt w ch px x y k : Int) - g) * sat + 2048) 12) 0 255).toNat))
  | .grey, .image w h ch deep px =>
    some (buildImage w h 1 deep (fun x y _ =>
      (clampI (greyOf (pixAt w ch px x y 0) (pixAt w ch px x y 1) (pixAt w ch px x y 2)) 0 65535).toNat))
  | .convert fmt scale bias chw bgr, x => (convertSample fmt scale bias chw bgr x).map .elements
  | .timeCrop len, .audio ch rate xs =>
    let start := leField e 0x18 8
    let n := xs.length / max ch 1
    some (.audio ch rate ((List.range (len * ch)).map (fun i =>
      if start + i / ch < n then xs.getD ((start + i / ch) * ch + i % ch) 0 else 0)))
  | .mix, .audio ch rate xs =>
    some (.audio 1 rate ((List.range (xs.length / max ch 1)).map (fun i =>
      sar (sumRange ch (fun c => xs.getD (i * ch + c) 0 * mixM ch) + 32768) 16)))
  | .gain, .audio ch rate xs =>
    some (.audio ch rate (xs.map (fun v =>
      clampI (sar (v * leField e 0x20 2 + 2048) 12) (-(2 : Int) ^ 23) ((2 : Int) ^ 23 - 1))))
  | .resample ro, .audio ch rate xs =>
    let n := xs.length / max ch 1
    let lo := n * ro / max rate 1
    some (.audio ch ro ((List.range (lo * ch)).map (fun i =>
      let k := i / ch
      let pos := k * rate * 2 ^ 32 / max ro 1
      let j := pos / 2 ^ 32
      let a := pos / 2 ^ 16 % 65536
      sar (xs.getD (j * ch + i % ch) 0 * ((65536 - a : Nat) : Int) +
        xs.getD (min (j + 1) (n - 1) * ch + i % ch) 0 * (a : Int) + 32768) 16)))
  | _, _ => none

/-- One augment operation on a field's samples: YUV_TO_RGB takes each picture of a video field. -/
def augRun (op : AugOp) (e : List Byte) (roi : Option (Nat × Nat)) (xs : List Sample) : Option (List Sample) :=
  match op with
  | .yuvToRgb bt709 =>
    some (xs.flatMap (fun x => match x with
      | .yuv w h d mono ps => ps.map (yuvToRgb bt709 w h d mono)
      | x => [x]))
  | op =>
    let ys := xs.map (augOne op e roi)
    if ys.all Option.isSome then some (ys.filterMap id) else none

/-- Elements of a sample, for its charge (R80, R217). -/
def Sample.count (fmtBytes : Nat) : Sample → Nat
  | .image w h ch _ _ => w * h * ch
  | .yuv w h _ mono ps => ps.length * (if mono then w * h else w * h + 2 * (w / 2) * (h / 2))
  | .audio _ _ xs => xs.length
  | .elements b => b.length / max fmtBytes 1
  | .tokens ids => ids.length

/-- Output elements that an operation declares for one sample, known before it starts (R217, R685). -/
def augElems (op : AugOp) (e : List Byte) (x : Sample) : Nat :=
  match op, x with
  | .crop w h _ _, .image _ _ ch _ _ => w * h * ch
  | .resize _ z, .image w h ch _ _ => match resizeTo z w h (leField e 8 2) with
    | some (wo, ho) => wo * ho * ch
    | none => 0
  | .grey, .image w h _ _ _ => w * h
  | .yuvToRgb _, .yuv w h _ _ ps => ps.length * w * h * 3
  | .timeCrop len, .audio ch _ _ => len * ch
  | .mix, .audio ch _ xs => xs.length / max ch 1
  | .resample ro, .audio ch rate xs => xs.length / max ch 1 * ro / max rate 1 * ch
  | _, x => x.count 1

/-- An operation takes a value from the parameter entry (R217). -/
def augReadsEntry : AugOp → Bool
  | .crop _ _ .entry _ => true
  | .flip none => true
  | .resize _ (.shortEntry _) => true
  | .tone => true
  | .saturate => true
  | .timeCrop _ => true
  | .gain => true
  | _ => false

/-- The bytes of a sample in a per-slot section (R212, R222). -/
def Sample.bytes : Sample → List Byte
  | .image _ _ _ deep px => px.flatMap (fun v => leBytes (if deep then 2 else 1) v)
  | .yuv _ _ d _ ps => ps.flatMap (fun p => p.flatMap (fun v => leBytes (if d > 8 then 2 else 1) v))
  | .audio _ _ xs => xs.flatMap (fun v => leBytes 4 (v % (2 : Int) ^ 32).toNat)
  | .elements b => b
  | .tokens _ => []

/-- Mean luma of the 32 × 32 cells of a picture (R241), row by row. -/
def cellMeans (w h : Nat) (luma : List Nat) : List Nat :=
  (List.range 1024).map (fun c =>
    let i := c % 32
    let j := c / 32
    let x0 := i * w / 32
    let x1 := (i + 1) * w / 32
    let y0 := j * h / 32
    let y1 := (j + 1) * h / 32
    let n := (x1 - x0) * (y1 - y0)
    let total := (List.range n).foldl (fun t q => t + luma.getD ((y0 + q / (x1 - x0)) * w + x0 + q % (x1 - x0)) 0) 0
    total / max n 1)

/-- The centre that MOTION gives from the last two decoded units, P the later (R241); none carries the centre over. -/
def motionCentre (t : Nat) (p q : Nat × Nat × List Nat) : Option (Nat × Nat) :=
  let d (c : Nat) : Nat := ((p.2.2.getD c 0 : Int) - q.2.2.getD c 0).natAbs
  let total := (List.range 1024).foldl (fun a c => a + d c) 0
  if p.1 < 32 ∨ p.2.1 < 32 ∨ total < t ∨ total = 0 then none
  else
    let sx := (List.range 1024).foldl (fun a c => a + d c * (2 * (c % 32) + 1)) 0
    let sy := (List.range 1024).foldl (fun a c => a + d c * (2 * (c / 32) + 1)) 0
    some (sx * p.1 / (64 * total), sy * p.2.1 / (64 * total))

end Sys2Proof.Machine
end

