-- ==== Sys2Proof/Machine/Inflate.lean ====
section
/-! DEFINITION. DEFLATE, zlib and gzip as the decompression engines decode them (R165-R178). The bit layouts are
those of RFC 1951, RFC 1950 and RFC 1952, which R165 names; errors, stops and the resume record are the manual's. -/

namespace Sys2Proof.Machine

/-- Bits of a byte string, each byte's least significant bit first. -/
def bitsOfBytes (b : List Byte) : List Bool := b.flatMap (fun x => (List.range 8).map x.getLsbD)

/-- One bit step of the CRC-32 of gzip and PNG, reflected polynomial 0xEDB8_8320. -/
def crc32Bits : Nat → BitVec 32 → BitVec 32
  | 0, c => c
  | n + 1, c => crc32Bits n (if c.getLsbD 0 then (c >>> 1) ^^^ 0xEDB88320#32 else c >>> 1)

/-- The CRC-32 of a string goes on by one byte. -/
def crc32Add (crc : Nat) (x : Byte) : Nat :=
  (crc32Bits 8 ((BitVec.ofNat 32 crc ^^^ 0xFFFFFFFF#32) ^^^ x.zeroExtend 32) ^^^ 0xFFFFFFFF#32).toNat

def crc32 (b : List Byte) : Nat := b.foldl crc32Add 0

/-- The Adler-32 of a string goes on by one byte; it begins at 1. -/
def adlerAdd (v : Nat) (x : Byte) : Nat :=
  let a := (v % 65536 + x.toNat) % 65521
  a + 65536 * ((v / 65536 + a) % 65521)

def adler32 (b : List Byte) : Nat := b.foldl adlerAdd 1

/-- Why decoding does not go on: the stream has ended, the output is full, the input is too short, or an error of R173
with the input left, for an error from the offending symbol on. `vb` none: the bit offset of that symbol within its block. -/
inductive InfStop where
  | done (rest : List Bool)
  | full
  | short
  | err (status : Status) (detail va : Nat) (vb : Option Nat) (rest : List Bool)
  deriving DecidableEq, Repr

def illegal (detail va : Nat) (rest : List Bool) : InfStop := .err 0x0701 detail va none rest

/-- n bits as a number, the first the least significant. -/
def takeBits : Nat → List Bool → Except InfStop (Nat × List Bool)
  | 0, bs => .ok (0, bs)
  | _ + 1, [] => .error .short
  | n + 1, b :: bs => do
    let r ← takeBits n bs
    .ok (bitOf b + 2 * r.1, r.2)

/-- A prefix code: how many codes there are of each length from 1 up, and the symbols in code order. -/
structure Huff where
  counts : List Nat
  syms : List Nat
  deriving DecidableEq, Repr

def huffOf (lens : List Nat) : Huff :=
  let of (l : Nat) : List Nat := (lens.zipIdx.filter (fun x => x.1 == l)).map (·.2)
  let by_ := (List.range 15).map (fun i => of (i + 1))
  { counts := by_.map List.length, syms := by_.flatten }

/-- What code lengths leave of the code space, in units of the longest code: negative is over-subscribed. -/
def codeSpace (lens : List Nat) : Int := (huffOf lens).counts.foldl (fun (left : Int) (c : Nat) => 2 * left - (c : Int)) 1

/-- Whether the lengths over-subscribe their code at some length. -/
def overSubscribed (lens : List Nat) : Bool :=
  ((huffOf lens).counts.foldl (fun (a : Int × Bool) (c : Nat) => (2 * a.1 - (c : Int), a.2 || decide (2 * a.1 < (c : Int)))) (1, false)).2

/-- The symbol of the code that the input begins with; `at_` is the input from the code on. -/
def huffWalk (at_ : List Bool) (syms : List Nat) : List Nat → Nat → Nat → Nat → List Bool → Except InfStop (Nat × List Bool)
  | [], _, _, _, _ => .error (illegal 4 0 at_)
  | c :: cs, code, first, index, bs =>
    if c == 0 && cs.all (· == 0) then .error (illegal 4 0 at_)
    else match bs with
      | [] => .error .short
      | b :: bs =>
        let code := code + bitOf b
        if code < first + c then .ok (syms.getD (index + (code - first)) 0, bs)
        else huffWalk at_ syms cs (2 * code) (2 * (first + c)) (index + c) bs

def Huff.read (h : Huff) (bs : List Bool) : Except InfStop (Nat × List Bool) := huffWalk bs h.syms h.counts 0 0 0 bs

/-- A set of code lengths is a code: not over-subscribed, and complete, but for a distance code that has one entry of
length 1 or none (R173). -/
def codeCheck (dist : Bool) (lens : List Nat) (rest : List Bool) : Except InfStop Unit :=
  let used := lens.filter (· != 0)
  if overSubscribed lens then .error (illegal 3 0 rest)
  else if codeSpace lens ≠ 0 ∧ ¬(dist ∧ (used = [1] ∨ used = [])) then .error (illegal 4 0 rest)
  else .ok ()

/-- The code lengths of a dynamic block, newest first, n in all. -/
def readLens (h : Huff) (n : Nat) : Nat → List Nat → List Bool → Except InfStop (List Nat × List Bool)
  | 0, acc, bs => .ok (acc.reverse, bs)
  | f + 1, acc, bs =>
    if acc.length ≥ n then .ok (acc.reverse, bs)
    else do
      let (sym, r) ← h.read bs
      let (rep, v, r) ← (match sym with
        | 16 => do
          let (x, r) ← takeBits 2 r
          if acc.isEmpty then .error (illegal 7 16 bs) else .ok (3 + x, acc.headD 0, r)
        | 17 => do
          let (x, r) ← takeBits 3 r
          .ok (3 + x, 0, r)
        | 18 => do
          let (x, r) ← takeBits 7 r
          .ok (11 + x, 0, r)
        | _ => .ok (1, sym, r))
      if acc.length + rep > n then .error (illegal 7 sym bs) else readLens h n f (List.replicate rep v ++ acc) r

def clOrder : List Nat := [16, 17, 18, 0, 8, 7, 9, 6, 10, 5, 11, 4, 12, 3, 13, 2, 14, 1, 15]

/-- m code-length code lengths of 3 bits. -/
def readCl : Nat → List Nat → List Bool → Except InfStop (List Nat × List Bool)
  | 0, acc, bs => .ok (acc.reverse, bs)
  | m + 1, acc, bs => do
    let (x, r) ← takeBits 3 bs
    readCl m (x :: acc) r

def fixedLit : List Nat := List.replicate 144 8 ++ List.replicate 112 9 ++ List.replicate 24 7 ++ List.replicate 8 8
def fixedDist : List Nat := List.replicate 32 5

/-- A block's header: final, type, stored bytes, literal and distance code lengths. -/
structure BlockHead where
  final : Bool
  kind : Nat
  left : Nat := 0
  lit : List Nat := []
  dist : List Nat := []
  deriving DecidableEq, Repr

/-- The bits up to the next byte boundary are dropped; an input holds whole bytes. -/
def alignBits (bs : List Bool) : List Bool := bs.drop (bs.length % 8)

def dynamicHead (bs : List Bool) : Except InfStop (List Nat × List Nat × List Bool) := do
  let (hlit, bs) ← takeBits 5 bs
  let (hdist, bs) ← takeBits 5 bs
  let (hclen, bs) ← takeBits 4 bs
  let (cl, bs) ← readCl (hclen + 4) [] bs
  let lens := (List.range 19).map (fun i => match clOrder.findIdx? (· == i) with | some k => cl.getD k 0 | none => 0)
  codeCheck false lens bs
  let (xs, bs) ← readLens (huffOf lens) (hlit + 257 + hdist + 1) 330 [] bs
  codeCheck false (xs.take (hlit + 257)) bs
  codeCheck true (xs.drop (hlit + 257)) bs
  .ok (xs.take (hlit + 257), xs.drop (hlit + 257), bs)

def blockHead (bs : List Bool) : Except InfStop (BlockHead × List Bool) := do
  let (final, bs) ← takeBits 1 bs
  let (kind, r) ← takeBits 2 bs
  match kind with
  | 0 => do
    let at_ := alignBits r
    let (len, r) ← takeBits 16 at_
    let (nlen, r) ← takeBits 16 r
    if len + nlen ≠ 65535 then .error (illegal 2 len at_) else .ok ({ final := final == 1, kind := 0, left := len }, r)
  | 1 => .ok ({ final := final == 1, kind := 1, lit := fixedLit, dist := fixedDist }, r)
  | 2 => do
    let (lit, dist, r) ← dynamicHead r
    .ok ({ final := final == 1, kind := 2, lit := lit, dist := dist }, r)
  | _ => .error (illegal 1 3 bs)

def badHead (detail va : Nat) (rest : List Bool) : InfStop := .err 0x0708 detail va (some 0) rest

/-- Bytes up to and with a zero byte. -/
def skipString : Nat → List Bool → Except InfStop (List Bool)
  | 0, _ => .error .short
  | f + 1, bs => do
    let (x, r) ← takeBits 8 bs
    if x = 0 then .ok r else skipString f r

/-- The bytes between two places of the input. -/
def bytesBetween (a b : List Bool) : List Byte :=
  let n := (a.length - b.length) / 8
  (List.range n).map (fun i => BitVec.ofNat 8 (match takeBits 8 (a.drop (8 * i)) with | .ok x => x.1 | .error _ => 0))

/-- A zlib header (R165): its checks as the fields come. -/
def zlibHead (bs : List Bool) : Except InfStop (List Bool) := do
  let (cm, r) ← takeBits 4 bs
  if cm ≠ 8 then .error (badHead 2 cm bs)
  let (cinfo, r') ← takeBits 4 r
  if cinfo > 7 then .error (.err 0x0704 1 (2 ^ (cinfo + 8)) (some 32768) r)
  let (flg, r) ← takeBits 8 r'
  if (256 * (cm + 16 * cinfo) + flg) % 31 ≠ 0 then .error (badHead 3 (flg % 32) r')
  if flg / 32 % 2 = 1 then .error (.err 0x0707 1 1 (some 0) r')
  .ok r

/-- A gzip member header (R165). -/
def gzipHead (bs : List Bool) : Except InfStop (List Bool) := do
  let (magic, r) ← takeBits 16 bs
  if magic ≠ 0x8B1F then .error (badHead 1 magic bs)
  let (cm, r') ← takeBits 8 r
  if cm ≠ 8 then .error (badHead 2 cm r)
  let (flg, r) ← takeBits 8 r'
  if flg / 32 ≠ 0 then .error (badHead 4 flg r')
  let (_, r) ← takeBits 48 r
  let r ← (if flg / 4 % 2 = 1 then do
      let (n, r) ← takeBits 16 r
      let (_, r) ← takeBits (8 * n) r
      .ok r
    else .ok r)
  let r ← (if flg / 8 % 2 = 1 then skipString (r.length / 8 + 1) r else .ok r)
  let r ← (if flg / 16 % 2 = 1 then skipString (r.length / 8 + 1) r else .ok r)
  if flg / 2 % 2 = 1 then do
    let (x, r') ← takeBits 16 r
    let c := crc32 (bytesBetween bs r) % 65536
    if x ≠ c then .error (.err 0x0705 4 x (some c) r) else .ok r'
  else .ok r

/-- A decompression of formats 1 to 3 under way. Output, newest first, with the history before it; the lengths of a
block's codes and the codes. `phase` is PHASE of R178. `blocks` are the ended blocks: type and bytes. -/
structure Inflate where
  format : Nat
  phase : Nat := 0
  bits : List Bool
  room : Nat
  /-- EXPECTED_LENGTH; none: not checked. -/
  expected : Option Nat := none
  all : List Byte := []
  made : Nat := 0
  total : Nat := 0
  member : Nat := 0
  check : Nat := 0
  ended : Nat := 0
  head : BlockHead := { final := false, kind := 0 }
  litCode : Huff := { counts := [], syms := [] }
  distCode : Huff := { counts := [], syms := [] }
  pendLen : Nat := 0
  pendDist : Nat := 0
  /-- Bits of the chain up to the end of the input, and at the start of the block under way. -/
  endPos : Nat := 0
  start : Nat := 0
  blocks : List (Nat × Nat) := []
  deriving DecidableEq, Repr

/-- The place of the input in the chain, in bits. -/
def Inflate.pos (z : Inflate) (rest : List Bool) : Nat := z.endPos - rest.length

/-- A byte of output. -/
def Inflate.put (z : Inflate) (x : Byte) : Inflate :=
  { z with
    all := x :: z.all, made := z.made + 1, total := z.total + 1, member := z.member + 1,
    check := match z.format with | 2 => adlerAdd z.check x | 3 => crc32Add z.check x | _ => 0,
    blocks := match z.blocks with | (k, n) :: bs => (k, n + 1) :: bs | [] => [] }

/-- n bytes of a match. -/
def Inflate.copy (z : Inflate) (dist : Nat) : Nat → Inflate
  | 0 => z
  | n + 1 => (z.put (z.all.getD (dist - 1) 0)).copy dist n

/-- A match of n bytes as far as there is room; the rest is pending. -/
def Inflate.match_ (z : Inflate) (dist n : Nat) : Inflate :=
  let k := min n (z.room - z.made)
  { z.copy dist k with pendLen := n - k, pendDist := if n - k = 0 then 0 else dist }

/-- n more bytes would go beyond EXPECTED_LENGTH. -/
def Inflate.overrun (z : Inflate) (n : Nat) : Except InfStop Unit :=
  match z.expected with
  | some e => if z.total + n > e then .error (.err 0x0703 1 e (some (z.total + n)) z.bits) else .ok ()
  | none => .ok ()

def lenBase : List Nat :=
  [3, 4, 5, 6, 7, 8, 9, 10, 11, 13, 15, 17, 19, 23, 27, 31, 35, 43, 51, 59, 67, 83, 99, 115, 131, 163, 195, 227, 258]

def lenExtra (i : Nat) : Nat := if i < 8 ∨ i ≥ 28 then 0 else (i - 4) / 4

def distBase (i : Nat) : Nat := if i < 4 then i + 1 else 2 ^ (i / 2 - 1) * (2 + i % 2) + 1

def distExtra (i : Nat) : Nat := i / 2 - 1

/-- A block has ended (R178). -/
def Inflate.endBlock (z : Inflate) (rest : List Bool) : Inflate :=
  { z with bits := rest, phase := if z.head.final then 3 else 1, ended := z.ended + 1 }

/-- One symbol of a block: a stored byte, a literal, the end of the block or a match (R173, R174, R176). -/
def Inflate.symbol (z : Inflate) : Except InfStop Inflate :=
  if z.pendLen ≠ 0 then if z.room ≤ z.made then .error .full else .ok (z.match_ z.pendDist z.pendLen)
  else if z.head.kind = 0 then
    if z.head.left = 0 then .ok (z.endBlock z.bits)
    else do
      let (x, r) ← takeBits 8 z.bits
      z.overrun 1
      if z.room ≤ z.made then .error .full
      else .ok { z.put (BitVec.ofNat 8 x) with bits := r, head := { z.head with left := z.head.left - 1 } }
  else do
    let (sym, r) ← z.litCode.read z.bits
    if sym < 256 then do
      z.overrun 1
      if z.room ≤ z.made then .error .full else .ok { z.put (BitVec.ofNat 8 sym) with bits := r }
    else if sym = 256 then .ok (z.endBlock r)
    else if sym > 285 then .error (illegal 5 sym z.bits)
    else do
      let (x, r) ← takeBits (lenExtra (sym - 257)) r
      let n := lenBase.getD (sym - 257) 0 + x
      let (d, r') ← z.distCode.read r
      if d > 29 then .error (illegal 6 d r)
      let (x, r) ← takeBits (distExtra d) r'
      let dist := distBase d + x
      let avail := min z.member 32768
      if dist > avail then .error (.err 0x0702 1 dist (some avail) z.bits)
      z.overrun n
      if z.room ≤ z.made then .error .full else .ok { z.match_ dist n with bits := r }

/-- A carried checksum of n bytes differs from the computed value. -/
def checkField (detail carried computed : Nat) (rest : List Bool) : Except InfStop Unit :=
  if carried ≠ computed then .error (.err 0x0705 detail carried (some computed) rest) else .ok ()

def beBits (bs : List Bool) : Except InfStop (Nat × List Bool) := do
  let (a, r) ← takeBits 8 bs
  let (b, r) ← takeBits 8 r
  let (c, r) ← takeBits 8 r
  let (d, r) ← takeBits 8 r
  .ok (((a * 256 + b) * 256 + c) * 256 + d, r)

/-- The stream has ended: its length against EXPECTED_LENGTH. -/
def Inflate.finish (z : Inflate) : InfStop :=
  match z.expected with
  | some e => if z.total ≠ e then .err 0x0705 9 e (some z.total) z.bits else .done z.bits
  | none => .done z.bits

/-- A stream, member or block begins, a symbol is decoded, or a trailer is checked. -/
def Inflate.step (z : Inflate) (more : Bool) : Except InfStop Inflate :=
  match z.phase with
  | 1 => do
    let (h, r) ← blockHead z.bits
    .ok { z with
      bits := r, phase := 2, head := h, litCode := huffOf h.lit, distCode := huffOf h.dist, start := z.pos z.bits,
      blocks := (h.kind, 0) :: z.blocks }
  | 2 => z.symbol
  | 3 => match z.format with
    | 1 => .error z.finish
    | 2 => do
      let at_ := alignBits z.bits
      let (x, r) ← beBits at_
      checkField 3 x z.check at_
      .error { z with bits := r }.finish
    | _ => do
      let at_ := alignBits z.bits
      let (x, r) ← takeBits 32 at_
      checkField 1 x z.check at_
      let (y, r') ← takeBits 32 r
      checkField 2 y (z.member % 2 ^ 32) r
      .ok { z with bits := r', phase := 4 }
  | p => match z.format with
    | 1 => .ok { z with phase := 1 }
    | 2 => do
      let r ← zlibHead z.bits
      .ok { z with bits := r, phase := 1, check := 1 }
    | _ =>
      if p = 4 ∧ z.bits.isEmpty ∧ !more then .error z.finish
      else do
        let r ← gzipHead z.bits
        .ok { z with bits := r, phase := 1, check := 0, member := 0 }

/-- The end of a decompression: why, and what is left. -/
def Inflate.run (more : Bool) : Nat → Inflate → InfStop × Inflate
  | 0, z => (.short, z)
  | f + 1, z => match z.step more with
    | .error e => (e, z)
    | .ok z => z.run more f

/-- Steps that suffice for an input: each takes in a bit, ends a pending match, or ends a block. -/
def Inflate.fuel (z : Inflate) : Nat := 2 * z.bits.length + 16

def Inflate.decode (z : Inflate) (more : Bool) : InfStop × Inflate := z.run more z.fuel

/-- The output of this job in order. -/
def Inflate.output (z : Inflate) : List Byte := (z.all.take z.made).reverse

/-- BLOCK of a completion or record: the block being decoded, or the last one. -/
def Inflate.block (z : Inflate) : Nat := if 3 ≤ z.phase then z.ended - 1 else z.ended

/-- Code lengths as nibbles, low nibble first (R178). -/
def lensBytes : List Nat → List Byte
  | a :: b :: r => BitVec.ofNat 8 (a % 16 + 16 * (b % 16)) :: lensBytes r
  | [a] => [BitVec.ofNat 8 (a % 16)]
  | [] => []

/-- The resume record of formats 1 to 3 (R178). What a restart needs beyond the named fields stands in bytes 4 to 23 of
CHECK_STATE: the block is final, its type, the member's length, and where the block began. -/
def Inflate.record (z : Inflate) (part : Nat) : List Byte :=
  let lens (n : Nat) (l : List Nat) : List Nat := (List.range n).map (fun i => l.getD i 0)
  let tables := if z.phase = 2 ∧ z.head.kind ≠ 0 then lensBytes (lens 288 z.head.lit ++ lens 32 z.head.dist) else List.replicate 160 0
  let b := leBytes 4 0x434D5052 ++ leBytes 2 1 ++ leBytes 1 z.format ++ leBytes 1 z.phase ++ leBytes 8 (z.pos z.bits) ++
    leBytes 8 z.total ++ leBytes 4 z.pendLen ++ leBytes 4 z.pendDist ++
    (leBytes 4 z.check ++ leBytes 4 (bitOf z.head.final + 2 * z.head.kind) ++ leBytes 8 z.member ++ leBytes 8 z.start ++
      List.replicate 40 0) ++
    leBytes 4 z.block ++ leBytes 4 z.head.left ++ leBytes 4 part ++ leBytes 4 0 ++ tables ++ List.replicate 236 0
  b ++ leBytes 4 (crc32c b)

/-- Decoding goes on from a record: the input from bit IN_BITS mod 8 of its first byte on, and the history (R177). -/
def Inflate.resume (r : List Byte) (input : List Byte) (room : Nat) (expected : Option Nat) (history : List Byte) : Inflate :=
  let inBits := leField r 8 8
  let bits := (bitsOfBytes input).drop (inBits % 8)
  let kind := leField r 0x24 1 / 2 % 4
  let lens := (List.range 320).map (fun i => leField r (0x70 + i / 2) 1 / 16 ^ (i % 2) % 16)
  { format := leField r 6 1, phase := leField r 7 1, bits := bits, room := room, expected := expected, all := history.reverse,
    total := leField r 0x10 8, member := leField r 0x28 8, check := leField r 0x20 4,
    ended := if 3 ≤ leField r 7 1 then leField r 0x60 4 + 1 else leField r 0x60 4,
    head := { final := leField r 0x24 1 % 2 == 1, kind := kind, left := leField r 0x64 4, lit := lens.take 288, dist := lens.drop 288 },
    litCode := huffOf (lens.take 288), distCode := huffOf (lens.drop 288),
    pendLen := leField r 0x18 4, pendDist := leField r 0x1C 4, endPos := inBits + bits.length, start := leField r 0x30 8 }

/-- A stream from its first byte. -/
def Inflate.fresh (format : Nat) (input : List Byte) (room : Nat) (expected : Option Nat) : Inflate :=
  let bits := bitsOfBytes input
  { format := format, bits := bits, room := room, expected := expected, endPos := bits.length }

end Sys2Proof.Machine
end

