-- ==== Sys2Proof/Machine/Frames.lean ====
section
/-! DEFINITION. Zstandard and LZ4 frames as the decompression engines decode them (R165-R178): the layouts are those
of RFC 8878 and of the LZ4 frame format, which R165 names; limits, statuses, stops and the resume record are the manual's. -/

namespace Sys2Proof.Machine

def rotl (w x n : Nat) : Nat := (x * 2 ^ n % 2 ^ w) + x / 2 ^ (w - n)

/-- xxHash32 and xxHash64 with seed 0 share one shape: lanes of w/8 bytes. -/
structure XxParams where
  w : Nat
  p1 : Nat
  p2 : Nat
  p3 : Nat
  p4 : Nat
  p5 : Nat
  roundRot : Nat

def xx32 : XxParams :=
  { w := 32, p1 := 2654435761, p2 := 2246822519, p3 := 3266489917, p4 := 668265263, p5 := 374761393, roundRot := 13 }

def xx64 : XxParams :=
  { w := 64, p1 := 11400714785074694791, p2 := 14029467366897019727, p3 := 1609587929392839161,
    p4 := 9650029242287828579, p5 := 2870177450012600261, roundRot := 31 }

def XxParams.round (p : XxParams) (acc x : Nat) : Nat :=
  rotl p.w ((acc + x * p.p2) % 2 ^ p.w) p.roundRot * p.p1 % 2 ^ p.w

/-- The stripes of four lanes; what is left. -/
def XxParams.stripes (p : XxParams) : Nat → List Nat → List Byte → List Nat × List Byte
  | 0, v, b => (v, b)
  | f + 1, v, b =>
    let n := p.w / 8
    if b.length < 4 * n then (v, b)
    else p.stripes f ((List.range 4).map (fun i => p.round (v.getD i 0) (leField b (n * i) n))) (b.drop (4 * n))

def XxParams.start (p : XxParams) : List Nat :=
  [(p.p1 + p.p2) % 2 ^ p.w, p.p2, 0, 2 ^ p.w - p.p1]

def xor (x y : Nat) : Nat := x ^^^ y

/-- A hash under way: its lanes, the bytes after the last whole stripe, and the length so far. -/
structure XxState where
  lanes : List Nat := []
  rest : List Byte := []
  len : Nat := 0
  deriving DecidableEq, Repr

def XxParams.begin (p : XxParams) : XxState := { lanes := p.start }

/-- A hash goes on by some bytes. -/
def XxParams.add (p : XxParams) (x : XxState) (b : List Byte) : XxState :=
  let all := x.rest ++ b
  let (v, r) := p.stripes (all.length / (p.w / 2) + 1) x.lanes all
  { lanes := v, rest := r, len := x.len + b.length }

def xxTail32 : Nat → Nat → List Byte → Nat
  | 0, h, _ => h
  | f + 1, h, b =>
    if b.length ≥ 4 then xxTail32 f (rotl 32 ((h + leField b 0 4 * xx32.p3) % 2 ^ 32) 17 * xx32.p4 % 2 ^ 32) (b.drop 4)
    else match b with
      | x :: b => xxTail32 f (rotl 32 ((h + x.toNat * xx32.p5) % 2 ^ 32) 11 * xx32.p1 % 2 ^ 32) b
      | [] => h

def xxEnd32 (x : XxState) : Nat :=
  let g (i : Nat) : Nat := x.lanes.getD i 0
  let h := if x.len ≥ 16 then (rotl 32 (g 0) 1 + rotl 32 (g 1) 7 + rotl 32 (g 2) 12 + rotl 32 (g 3) 18) % 2 ^ 32 else xx32.p5
  let h := xxTail32 (x.rest.length + 1) ((h + x.len) % 2 ^ 32) x.rest
  let h := xor h (h / 2 ^ 15) * xx32.p2 % 2 ^ 32
  let h := xor h (h / 2 ^ 13) * xx32.p3 % 2 ^ 32
  xor h (h / 2 ^ 16)

def xxh32 (b : List Byte) : Nat := xxEnd32 (xx32.add xx32.begin b)

def xxTail64 : Nat → Nat → List Byte → Nat
  | 0, h, _ => h
  | f + 1, h, b =>
    if b.length ≥ 8 then
      xxTail64 f ((rotl 64 (xor h (xx64.round 0 (leField b 0 8))) 27 * xx64.p1 + xx64.p4) % 2 ^ 64) (b.drop 8)
    else if b.length ≥ 4 then
      xxTail64 f ((rotl 64 (xor h (leField b 0 4 * xx64.p1 % 2 ^ 64)) 23 * xx64.p2 + xx64.p3) % 2 ^ 64) (b.drop 4)
    else match b with
      | x :: b => xxTail64 f (rotl 64 (xor h (x.toNat * xx64.p5 % 2 ^ 64)) 11 * xx64.p1 % 2 ^ 64) b
      | [] => h

def xxEnd64 (x : XxState) : Nat :=
  let g (i : Nat) : Nat := x.lanes.getD i 0
  let h := if x.len ≥ 32 then
      (List.range 4).foldl (fun h i => (xor h (xx64.round 0 (g i)) * xx64.p1 + xx64.p4) % 2 ^ 64)
        ((rotl 64 (g 0) 1 + rotl 64 (g 1) 7 + rotl 64 (g 2) 12 + rotl 64 (g 3) 18) % 2 ^ 64)
    else xx64.p5
  let h := xxTail64 (x.rest.length + 1) ((h + x.len) % 2 ^ 64) x.rest
  let h := xor h (h / 2 ^ 33) * xx64.p2 % 2 ^ 64
  let h := xor h (h / 2 ^ 29) * xx64.p3 % 2 ^ 64
  xor h (h / 2 ^ 32)

def xxh64 (b : List Byte) : Nat := xxEnd64 (xx64.add xx64.begin b)

/-- Literals and then a match; length 0 is none. -/
structure LzOp where
  lits : List Byte
  dist : Nat := 0
  len : Nat := 0
  deriving DecidableEq, Repr

/-! Zstandard. -/

/-- A backward bit stream: from the last byte's highest set bit down; none without that bit. -/
def backBits (b : List Byte) : Option (List Bool) :=
  match b.reverse with
  | [] => none
  | x :: _ =>
    if x = 0 then none
    else some ((b.reverse.flatMap (fun x => (List.range 8).map (fun i => x.getLsbD (7 - i)))).dropWhile (!·)).tail

/-- n bits, most significant first. -/
def msbBits : Nat → List Bool → Option (Nat × List Bool)
  | 0, bs => some (0, bs)
  | _ + 1, [] => none
  | n + 1, b :: bs => (msbBits n bs).map (fun r => (bitOf b * 2 ^ n + r.1, r.2))

/-- A cell of an FSE table: symbol, bits to read, baseline. -/
structure FseCell where
  sym : Nat
  bits : Nat
  base : Nat
  deriving DecidableEq, Repr

/-- An FSE table: its probabilities, which are what a resume record keeps, and its cells. -/
structure FseTable where
  log : Nat
  probs : List Int
  cells : List FseCell
  deriving DecidableEq, Repr

/-- How many 0 probabilities the repeat flags add. -/
def fseZeros : Nat → Nat → List Bool → Except InfStop (Nat × List Bool)
  | 0, _, _ => .error .short
  | f + 1, n, bs => do
    let (r, bs) ← takeBits 2 bs
    if r = 3 then fseZeros f (n + 3) bs else .ok (n + r, bs)

/-- The probabilities of an FSE table description, newest first; −1 counts one. -/
def fseProbs : Nat → Nat → Nat → List Int → List Bool → Except InfStop (List Int × List Bool)
  | 0, _, _, _, _ => .error (illegal 8 0 [])
  | f + 1, remaining, nbits, acc, bs =>
    if remaining = 1 then .ok (acc.reverse, bs)
    else do
      let th := 2 ^ (nbits - 1)
      let mx := 2 * th - 1 - remaining
      let (lo, r1) ← takeBits (nbits - 1) bs
      let (v, r) ← (if lo < mx then .ok (lo, r1) else do
        let (hi, r2) ← takeBits 1 r1
        let x := lo + hi * th
        .ok (if x ≥ th then x - mx else x, r2))
      let p : Int := (v : Int) - 1
      let cost := if v = 0 then 1 else v - 1
      if cost ≥ remaining then .error (illegal 8 0 bs)
      let left := remaining - cost
      let (z, r) ← (if v = 1 then fseZeros (r.length + 1) 0 r else .ok (0, r))
      fseProbs f left (if left < th then Nat.log2 left + 1 else nbits) (List.replicate z (0 : Int) ++ p :: acc) r

/-- `x` before the first member it may stand before. -/
def placeBy {α : Type} (le : α → α → Bool) (x : α) : List α → List α
  | [] => [x]
  | y :: ys => if le x y then x :: y :: ys else y :: placeBy le x ys

/-- A stable sort by structural recursion. -/
def orderBy {α : Type} (le : α → α → Bool) (xs : List α) : List α := xs.foldr (placeBy le) []

/-- Symbols by cell: the −1 symbols from the top down, the others spread by the step. -/
def fseSpread (log : Nat) (probs : List Int) : List Nat :=
  let size := 2 ^ log
  let low := (probs.zipIdx.filter (fun x => x.1 == -1)).map (·.2)
  let high := size - low.length
  let step := size / 2 + size / 8 + 3
  let seq := probs.zipIdx.flatMap (fun x => if x.1 > 0 then List.replicate x.1.toNat x.2 else [])
  let slots := ((List.range size).map (fun k => k * step % size)).filter (· < high)
  let placed := orderBy (fun a b => decide (a.1 ≤ b.1)) (slots.zip seq)
  placed.map (·.2) ++ low.reverse

def fseCells (log : Nat) (probs : List Int) : List Nat → List Nat → List FseCell
  | [], _ => []
  | x :: xs, next =>
    let n := next.getD x 0
    let nb := log - Nat.log2 n
    { sym := x, bits := nb, base := n * 2 ^ nb - 2 ^ log } :: fseCells log probs xs (next.set x (n + 1))

def fseTable (log : Nat) (probs : List Int) : FseTable :=
  { log := log, probs := probs, cells := fseCells log probs (fseSpread log probs) (probs.map (fun p => if p = -1 then 1 else p.toNat)) }

/-- An FSE table description: at most `maxLog` and symbols to `maxSym`; the bytes after it. -/
def fseRead (maxLog maxSym : Nat) (b : List Byte) : Except InfStop (FseTable × List Byte) := do
  let bs := bitsOfBytes b
  let (a, r) ← takeBits 4 bs
  let log := a + 5
  if log > maxLog then .error (illegal 8 log bs)
  let (probs, r) ← fseProbs 300 (2 ^ log + 1) (log + 1) [] r
  if probs.length > maxSym + 1 then .error (illegal 8 probs.length bs)
  .ok (fseTable log probs, b.drop (b.length - r.length / 8))

/-- A Zstandard Huffman code: the longest code, the weight of every symbol, and, by code value of the longest length, symbol and
bits. -/
structure ZHuff where
  bits : Nat
  weights : List Nat
  cells : List (Nat × Nat)
  deriving DecidableEq, Repr

/-- The code of the weights of all symbols. -/
def zhuffBuild (mx : Nat) (weights : List Nat) : ZHuff :=
  { bits := mx, weights := weights, cells := (List.range mx).flatMap (fun i =>
    (weights.zipIdx.filter (fun x => x.1 == i + 1)).flatMap (fun x => List.replicate (2 ^ i) (x.2, mx - i))) }

/-- The code of a tree description, whose last weight is implied. -/
def zhuffOf (weights : List Nat) : Option ZHuff :=
  let sum := (weights.map (fun w => if w = 0 then 0 else 2 ^ (w - 1))).sum
  if sum = 0 then none
  else
    let mx := Nat.log2 sum + 1
    let left := 2 ^ mx - sum
    let w := Nat.log2 left + 1
    if mx > 11 ∨ 2 ^ (w - 1) ≠ left ∨ weights.any (· > mx) then none
    else some (zhuffBuild mx (weights ++ [w]))

/-- The weights from two interleaved FSE states: until the stream has no more bits for an update. -/
def zweights (t : FseTable) : Nat → Nat → Nat → List Nat → List Bool → Option (List Nat)
  | 0, _, _, _, _ => none
  | f + 1, a, b, acc, bs =>
    match t.cells[a]? with
    | none => none
    | some c => match msbBits c.bits bs with
      | some (x, bs) => zweights t f b (c.base + x) (c.sym :: acc) bs
      | none => match t.cells[b]? with
        | some d => some ((d.sym :: c.sym :: acc).reverse)
        | none => none

/-- A Huffman tree description; the bytes after it. -/
def zhuffRead (b : List Byte) : Except InfStop (ZHuff × List Byte) :=
  let bad : InfStop := illegal 8 0 (bitsOfBytes b)
  match b with
  | [] => .error bad
  | h :: b =>
    let h := h.toNat
    let go (ws : Option (List Nat)) (rest : List Byte) : Except InfStop (ZHuff × List Byte) :=
      match ws.bind (fun ws => if ws.length > 255 then none else zhuffOf ws) with
      | some z => .ok (z, rest)
      | none => .error bad
    if h ≥ 128 then
      let n := h - 127
      let k := (n + 1) / 2
      if b.length < k then .error bad
      else go (some (((b.take k).flatMap (fun x => [x.toNat / 16, x.toNat % 16])).take n)) (b.drop k)
    else if b.length < h then .error bad
    else match fseRead 6 255 (b.take h) with
      | .error _ => .error bad
      | .ok (t, r) => match backBits r with
        | none => .error bad
        | some bs => match msbBits t.log bs with
          | none => .error bad
          | some (x, bs) => match msbBits t.log bs with
            | none => .error bad
            | some (y, bs) => go (zweights t 256 x y [] bs) (b.drop h)

/-- n literals of a Huffman stream, newest first; the stream is used up exactly. -/
def zlits (h : ZHuff) : Nat → List Byte → List Bool → Option (List Byte)
  | 0, acc, bs => if bs.isEmpty then some acc.reverse else none
  | n + 1, acc, bs =>
    let w := bs.take h.bits
    match msbBits h.bits (w ++ List.replicate (h.bits - w.length) false) with
    | none => none
    | some (v, _) =>
      let c := h.cells.getD v (0, 0)
      if c.2 > bs.length ∨ c.2 = 0 then none else zlits h n (BitVec.ofNat 8 c.1 :: acc) (bs.drop c.2)

def zlitStream (h : ZHuff) (n : Nat) (b : List Byte) : Option (List Byte) := (backBits b).bind (zlits h n [])

/-- What a frame keeps from block to block: the Huffman code, the three FSE tables, the repeat offsets. -/
structure ZTables where
  huff : Option ZHuff := none
  ll : Option FseTable := none
  of_ : Option FseTable := none
  ml : Option FseTable := none
  rep : Nat × Nat × Nat := (1, 4, 8)
  deriving DecidableEq, Repr

/-- The literals section of a block's content, with the tables and the byte offset after it; an error is the bit offset, in the
content, of the symbol at which it stands. -/
def zliterals (t : ZTables) (b : List Byte) : Except Nat (List Byte × ZTables × Nat) :=
  let b0 := leField b 0 1
  let sf := b0 / 4 % 4
  if b0 % 4 < 2 then
    let hl := if sf % 2 = 0 then 1 else if sf = 1 then 2 else 3
    let n := if sf % 2 = 0 then b0 / 8 else leField b 0 hl / 16
    let k := if b0 % 4 = 0 then n else 1
    if b.length < hl + k ∨ n > 131072 then .error 0
    else
      let d := (b.drop hl).take k
      .ok (if b0 % 4 = 0 then d else List.replicate n (d.headD 0), t, hl + k)
  else
    let hl := if sf < 2 then 3 else sf + 2
    let w := if sf < 2 then 10 else if sf = 2 then 14 else 18
    let v := leField b 0 hl / 16
    let n := v % 2 ^ w
    let c := v / 2 ^ w % 2 ^ w
    if b.length < hl + c ∨ n > 131072 then .error 0
    else
      let d := (b.drop hl).take c
      let tree : Option (ZHuff × List Byte) :=
        if b0 % 4 = 2 then (match zhuffRead d with | .ok x => some x | .error _ => none) else t.huff.map (fun h => (h, d))
      match tree with
      | none => .error (8 * hl)
      | some (h, e) =>
        let at_ := hl + (d.length - e.length)
        let stream (place n : Nat) (x : List Byte) : Except Nat (List Byte) :=
          match zlitStream h n x with
          | some l => .ok l
          | none => .error (8 * place)
        let done (l : List Byte) : List Byte × ZTables × Nat := (l, { t with huff := some h }, hl + c)
        if sf = 0 then (stream at_ n e).map done
        else
          let s1 := leField e 0 2
          let s2 := leField e 2 2
          let s3 := leField e 4 2
          let q := (n + 3) / 4
          let f := e.drop 6
          if e.length < 6 ∨ s1 + s2 + s3 > f.length ∨ 3 * q > n then .error (8 * at_)
          else do
            let a ← stream (at_ + 6) q (f.take s1)
            let b ← stream (at_ + 6 + s1) q ((f.drop s1).take s2)
            let c ← stream (at_ + 6 + s1 + s2) q ((f.drop (s1 + s2)).take s3)
            let x ← stream (at_ + 6 + s1 + s2 + s3) (n - 3 * q) (f.drop (s1 + s2 + s3))
            .ok (done (a ++ b ++ c ++ x))

def llBase (c : Nat) : Nat × Nat :=
  if c < 16 then (c, 0)
  else [(16, 1), (18, 1), (20, 1), (22, 1), (24, 2), (28, 2), (32, 3), (40, 3), (48, 4), (64, 6), (128, 7), (256, 8),
    (512, 9), (1024, 10), (2048, 11), (4096, 12), (8192, 13), (16384, 14), (32768, 15), (65536, 16)].getD (c - 16) (0, 0)

def mlBase (c : Nat) : Nat × Nat :=
  if c < 32 then (c + 3, 0)
  else [(35, 1), (37, 1), (39, 1), (41, 1), (43, 2), (47, 2), (51, 3), (59, 3), (67, 4), (83, 4), (99, 5), (131, 7), (259, 8),
    (515, 9), (1027, 10), (2051, 11), (4099, 12), (8195, 13), (16387, 14), (32771, 15), (65539, 16)].getD (c - 32) (0, 0)

def llDefault : List Int :=
  [4, 3, 2, 2, 2, 2, 2, 2, 2, 2, 2, 2, 2, 1, 1, 1, 2, 2, 2, 2, 2, 2, 2, 2, 2, 3, 2, 1, 1, 1, 1, 1, -1, -1, -1, -1]

def mlDefault : List Int := [1, 4, 3, 2, 2, 2, 2, 2, 2] ++ List.replicate 37 1 ++ List.replicate 7 (-1)

def ofDefault : List Int :=
  [1, 1, 1, 1, 1, 1, 2, 2, 2, 1, 1, 1, 1, 1, 1, 1, 1, 1, 1, 1, 1, 1, 1, 1, -1, -1, -1, -1, -1]

/-- How far into some bytes decoding stopped, in bits. -/
def stopBits (b : List Byte) : InfStop → Nat
  | .err _ _ _ _ rest => 8 * b.length - rest.length
  | _ => 8 * b.length

/-- A sequence table by its mode: predefined, one symbol, described, or the last one; with how many bytes it takes. -/
def zmode (mode maxLog maxSym defLog : Nat) (def_ : List Int) (old : Option FseTable) (b : List Byte) :
    Except Nat (FseTable × Nat) :=
  match mode with
  | 0 => .ok (fseTable defLog def_, 0)
  | 1 => match b with
    | x :: _ => if x.toNat > maxSym then .error 0 else .ok (fseTable 0 (List.replicate x.toNat 0 ++ [1]), 1)
    | [] => .error 0
  | 2 => match fseRead maxLog maxSym b with
    | .ok x => .ok (x.1, b.length - x.2.length)
    | .error e => .error (stopBits b e)
  | _ => match old with
    | some t => .ok (t, 0)
    | none => .error 0

/-- The offset of a sequence and the repeat offsets after it; 0 is not permitted. -/
def zoffset (rep : Nat × Nat × Nat) (v ll : Nat) : Nat × (Nat × Nat × Nat) :=
  let (r1, r2, r3) := rep
  if v > 3 then (v - 3, v - 3, r1, r2)
  else match (if ll = 0 then v + 1 else v) with
    | 1 => (r1, r1, r2, r3)
    | 2 => (r2, r2, r1, r3)
    | 3 => (r3, r3, r1, r2)
    | _ => (r1 - 1, r1 - 1, r1, r2)

/-- n sequences: the operations, the repeat offsets, the literals left, and, where a sequence is not right, the bits of the
stream left at it. -/
def zseqs (tl to_ tm : FseTable) : Nat → Nat → Nat → Nat → Nat × Nat × Nat → List Byte → List Bool →
    List LzOp × (Nat × Nat × Nat) × List Byte × Option Nat
  | 0, _, _, _, rep, lits, bs => ([], rep, lits, if bs.isEmpty then none else some bs.length)
  | n + 1, sl, so, sm, rep, lits, bs =>
    let bad : List LzOp × (Nat × Nat × Nat) × List Byte × Option Nat := ([], rep, lits, some bs.length)
    let cl := tl.cells.getD sl ⟨0, 0, 0⟩
    let co := to_.cells.getD so ⟨0, 0, 0⟩
    let cm := tm.cells.getD sm ⟨0, 0, 0⟩
    match msbBits co.sym bs with
    | none => bad
    | some (xo, r) => match msbBits (mlBase cm.sym).2 r with
      | none => bad
      | some (xm, r) => match msbBits (llBase cl.sym).2 r with
        | none => bad
        | some (xl, r) =>
          let ll := (llBase cl.sym).1 + xl
          let ml := (mlBase cm.sym).1 + xm
          let (off, rep') := zoffset rep (2 ^ co.sym + xo) ll
          if ll > lits.length ∨ off = 0 then bad
          else
            let op : LzOp := { lits := lits.take ll, dist := off, len := ml }
            let lits := lits.drop ll
            let last : List LzOp × (Nat × Nat × Nat) × List Byte × Option Nat := ([op], rep', lits, some r.length)
            if n = 0 then ([op], rep', lits, if r.isEmpty then none else some r.length)
            else match msbBits cl.bits r with
              | none => last
              | some (a, r) => match msbBits cm.bits r with
                | none => last
                | some (c, r) => match msbBits co.bits r with
                  | none => last
                  | some (b, r) =>
                    let x := zseqs tl to_ tm n (cl.base + a) (co.base + b) (cm.base + c) rep' lits r
                    (op :: x.1, x.2)

/-- The sequences section of a block's content, from byte `at_` on: the operations, the tables after it, and the bit offset in the
content of a symbol that is not permitted. -/
def zsequences (t : ZTables) (lits : List Byte) (all : List Byte) (at_ : Nat) : List LzOp × ZTables × Option Nat :=
  let b := all.drop at_
  let bad (k : Nat) : List LzOp × ZTables × Option Nat := ([], t, some (8 * at_ + k))
  let b0 := leField b 0 1
  let hl := if b0 < 128 then 1 else if b0 < 255 then 2 else 3
  let n := if b0 < 128 then b0 else if b0 < 255 then (b0 - 128) * 256 + leField b 1 1 else leField b 1 2 + 0x7F00
  if b.length < hl then bad 0
  else if n = 0 then ([{ lits := lits }], t, if b.length = hl then none else some (8 * (at_ + hl)))
  else if b.length < hl + 1 ∨ leField b hl 1 % 4 ≠ 0 then bad (8 * hl)
  else
    let m := leField b hl 1
    let k0 := hl + 1
    match zmode (m / 64) 9 35 6 llDefault t.ll (b.drop k0) with
    | .error k => bad (8 * k0 + k)
    | .ok (tl, n1) =>
      let k1 := k0 + n1
      match zmode (m / 16 % 4) 8 31 5 ofDefault t.of_ (b.drop k1) with
      | .error k => bad (8 * k1 + k)
      | .ok (to_, n2) =>
        let k2 := k1 + n2
        match zmode (m / 4 % 4) 9 52 6 mlDefault t.ml (b.drop k2) with
        | .error k => bad (8 * k2 + k)
        | .ok (tm, n3) =>
          let k3 := k2 + n3
          let first : Option (Nat × Nat × Nat × List Bool) := do
            let bs ← backBits (b.drop k3)
            let (sl, bs) ← msbBits tl.log bs
            let (so, bs) ← msbBits to_.log bs
            let (sm, bs) ← msbBits tm.log bs
            pure (sl, so, sm, bs)
          match first with
          | none => bad (8 * k3)
          | some (sl, so, sm, bs) =>
            let r := zseqs tl to_ tm n sl so sm t.rep lits bs
            (r.1 ++ (if r.2.2.2.isNone then [{ lits := r.2.2.1 }] else []),
              { t with ll := some tl, of_ := some to_, ml := some tm, rep := r.2.1 },
              r.2.2.2.map (fun left => 8 * (at_ + k3) + left - 1))

/-- A compressed block's content: its operations, the tables after it, and where a symbol is not permitted. -/
def zstdOps (t : ZTables) (b : List Byte) : List LzOp × ZTables × Option Nat :=
  match zliterals t b with
  | .error k => ([], t, some k)
  | .ok (lits, t, at_) => zsequences t lits b at_

/-! The chain of frames. -/

/-- A symbol of a compressed block: a run of literals, or a match. -/
structure LzSym where
  lits : List Byte := []
  dist : Nat := 0
  len : Nat
  deriving DecidableEq, Repr

def LzOp.symbols (o : LzOp) : List LzSym :=
  (if o.lits.isEmpty then [] else [{ lits := o.lits, len := o.lits.length }]) ++
  (if o.len = 0 then [] else [{ dist := o.dist, len := o.len }])

/-- What a block holds; a skippable frame's bytes count as a block (R165). -/
inductive FrameKind where
  | raw
  | rle
  | zstd
  | lz4
  | skip
  deriving DecidableEq, Repr

/-- A chain of frames under way (R165-R178). `phase` is PHASE of R178. The output is newest first, with the history before it.
`content` counts the frame's output and `inBlock` the block's; `left` and `blockLen` count the input of the block under way; `nib` is
the match half of an LZ4 token whose literals are under way. A compressed Zstandard block's input is consumed when its output is
complete. -/
structure Frames where
  format : Nat
  phase : Nat := 0
  inp : List Byte
  room : Nat
  expected : Option Nat := none
  out : List Byte := []
  made : Nat := 0
  total : Nat := 0
  content : Nat := 0
  inBlock : Nat := 0
  window : Nat := 0
  blockMax : Nat := 0
  size : Option Nat := none
  linked : Bool := true
  blockCheck : Bool := false
  contentCheck : Bool := false
  hash : XxState := {}
  blockHash : XxState := {}
  kind : FrameKind := .raw
  last : Bool := false
  left : Nat := 0
  blockLen : Nat := 0
  nib : Option Nat := none
  pendLen : Nat := 0
  pendDist : Nat := 0
  tables : ZTables := {}
  ended : Nat := 0
  /-- Bits of the chain up to the end of the input, and at the start of the block under way. -/
  endPos : Nat := 0
  start : Nat := 0
  deriving DecidableEq, Repr

def Frames.xx (z : Frames) : XxParams := if z.format = 4 then xx64 else xx32

/-- The place of the input in the chain, in bits. -/
def Frames.pos (z : Frames) : Nat := z.endPos - 8 * z.inp.length

def errAt (status : Status) (detail va : Nat) (vb : Option Nat) (inp : List Byte) : InfStop :=
  .err status detail va vb (bitsOfBytes inp)

/-- A symbol `k` bits into the input is not permitted (R173). -/
def Frames.invalid (z : Frames) (k : Nat) : InfStop := illegal 8 0 ((bitsOfBytes z.inp).drop k)

/-- Why n more bytes would be too many (R173). -/
def Frames.overrun (z : Frames) (n : Nat) : Option InfStop :=
  let beyond (detail declared reach : Nat) : Option InfStop :=
    if reach > declared then some (errAt 0x0703 detail declared (some reach) z.inp) else none
  (z.expected.bind (fun e => beyond 1 e (z.total + n))).orElse (fun _ =>
    (z.size.bind (fun e => beyond 2 e (z.content + n))).orElse (fun _ => beyond 3 z.blockMax (z.inBlock + n)))

/-- Why a match or a literal run may not stand here (R173, R174). -/
def Frames.symbolFault (z : Frames) (dist n : Nat) : Option InfStop :=
  let reach := if z.linked then z.content else z.inBlock
  if dist > reach then some (errAt 0x0702 1 dist (some reach) z.inp)
  else if dist > z.window then some (errAt 0x0702 2 dist (some z.window) z.inp)
  else z.overrun n

/-- Bytes of output. -/
def Frames.put (z : Frames) (b : List Byte) : Frames :=
  { z with
    out := b.reverse ++ z.out, made := z.made + b.length, total := z.total + b.length, content := z.content + b.length,
    inBlock := z.inBlock + b.length, hash := z.xx.add z.hash b }

/-- n bytes from `dist` back, oldest first. -/
def copyFrom (dist : Nat) : Nat → List Byte → List Byte
  | 0, _ => []
  | n + 1, out => let x := out.getD (dist - 1) 0; x :: copyFrom dist n (x :: out)

/-- The output of this job in order. -/
def Frames.output (z : Frames) : List Byte := (z.out.take z.made).reverse

/-- n bytes of the input, or too few. -/
def Frames.take (z : Frames) (n : Nat) : Except InfStop (List Byte × Frames) :=
  if z.inp.length < n then .error .short else .ok (z.inp.take n, { z with inp := z.inp.drop n })

/-- n bytes of the block's own input are consumed. -/
def Frames.eat (z : Frames) (n : Nat) : Frames :=
  { z with inp := z.inp.drop n, left := z.left - n, blockHash := xx32.add z.blockHash (z.inp.take n) }

/-- A length continued by bytes of 255; how many bytes it took. -/
def lz4Len : Nat → Nat → List Byte → Option (Nat × Nat)
  | _, _, [] => none
  | n, k, x :: b => if x = 255 then lz4Len (n + 255) (k + 1) b else some (n + x.toNat, k + 1)

/-- A length of an LZ4 token half, continued in the bytes that follow. -/
def lz4Ext (half : Nat) (b : List Byte) : Option (Nat × Nat) := if half = 15 then lz4Len 15 0 b else some (half, 0)

/-- A carried hash of 4 bytes. -/
def Frames.carried (z : Frames) (detail computed : Nat) : Except InfStop Frames := do
  let (h, z') ← z.take 4
  if leNat h ≠ computed then .error (errAt 0x0705 detail (leNat h) (some computed) z.inp) else .ok z'

/-- A block has ended: an LZ4 block checksum follows its data (R174). -/
def Frames.endBlock (z : Frames) : Except InfStop Frames := do
  let z ← (if z.format = 5 ∧ z.blockCheck then z.carried 7 (xxEnd32 z.blockHash) else .ok z)
  .ok { z with ended := z.ended + 1, phase := if z.last then 3 else 1, nib := none, pendLen := 0, pendDist := 0 }

/-- The symbols of a compressed block from `skip` bytes of its output on, as far as there is room; whether they are all done. -/
def Frames.apply : Nat → List LzSym → Frames → Frames × Option InfStop × Bool
  | _, [], z => (z, none, true)
  | skip, x :: xs, z =>
    if x.len ≤ skip then Frames.apply (skip - x.len) xs z
    else match (if skip = 0 then z.symbolFault x.dist x.len else none) with
      | some e => (z, some e, false)
      | none =>
        let k := min (x.len - skip) (z.room - z.made)
        let z := z.put (if x.dist = 0 then (x.lits.drop skip).take k else copyFrom x.dist k z.out)
        if k < x.len - skip then
          (if k + skip = 0 then z else { z with pendLen := x.len - skip - k, pendDist := x.dist }, none, false)
        else Frames.apply 0 xs { z with pendLen := 0, pendDist := 0 }

/-- A compressed Zstandard block, decoded once all of it is there. -/
def Frames.zstdBlock (z : Frames) : Except InfStop Frames :=
  if z.inp.length < z.left then .error .short
  else
    let (ops, t, bad) := zstdOps z.tables (z.inp.take z.left)
    let r := Frames.apply z.inBlock (ops.flatMap LzOp.symbols) z
    if r.1.made > z.made then .ok (if r.2.2 || r.2.1.isSome then { r.1 with pendLen := 0, pendDist := 0 } else r.1)
    else match r.2.1, r.2.2, bad with
      | some e, _, _ => .error e
      | none, false, _ => .error .full
      | none, true, some k => .error (z.invalid k)
      | none, true, none => { z.eat z.left with tables := t }.endBlock

/-- The next part of an LZ4 sequence: a token with its literals' length, or an offset with its match length. -/
def Frames.lz4Sequence (z : Frames) : Except InfStop Frames :=
  let b := z.inp.take z.left
  let cut {α : Type} (k : Nat) : Except InfStop α := if z.inp.length < z.left then .error .short else .error (z.invalid k)
  match z.nib with
  | none => match b with
    | [] => cut 0
    | t :: r => match lz4Ext (t.toNat / 16) r with
      | none => cut 0
      | some (n, k) =>
        if 1 + k + n > z.left then .error (z.invalid 0)
        else match (if n = 0 then none else z.symbolFault 0 n) with
          | some e => .error e
          | none => .ok { z.eat (1 + k) with nib := some (t.toNat % 16), pendLen := n, pendDist := 0 }
  | some h =>
    if z.left = 0 then z.endBlock
    else match b with
      | x :: y :: r =>
        let d := x.toNat + 256 * y.toNat
        if d = 0 then .error (z.invalid 0)
        else match lz4Ext h r with
          | none => cut 0
          | some (m, k) => match z.symbolFault d (m + 4) with
            | some e => .error e
            | none => .ok { z.eat (2 + k) with nib := none, pendLen := m + 4, pendDist := d }
      | _ => if z.left < 2 then .error (z.invalid 0) else cut 0

/-- Bytes of an unfinished match or literal run (R176). -/
def Frames.pending (z : Frames) : Except InfStop Frames :=
  if z.room ≤ z.made then .error .full
  else if z.pendDist = 0 then
    let k := min (min z.pendLen (z.room - z.made)) z.inp.length
    if k = 0 then .error .short else .ok { (z.put (z.inp.take k)).eat k with pendLen := z.pendLen - k }
  else
    let k := min z.pendLen (z.room - z.made)
    .ok { z.put (copyFrom z.pendDist k z.out) with
      pendLen := z.pendLen - k, pendDist := if z.pendLen = k then 0 else z.pendDist }

/-- One step within a block. -/
def Frames.block (z : Frames) : Except InfStop Frames :=
  match z.kind with
  | .skip =>
    let k := min z.left z.inp.length
    if z.left = 0 then .ok { z with phase := 4 } else if k = 0 then .error .short else .ok (z.eat k)
  | .zstd => z.zstdBlock
  | .raw =>
    if z.pendLen ≠ 0 then z.pending
    else if z.left = 0 then z.endBlock
    else match z.overrun z.left with
      | some e => .error e
      | none => .ok { z with pendLen := z.left, pendDist := 0 }
  | .rle =>
    if z.pendLen ≠ 0 then z.pending
    else if z.left = 0 then z.endBlock
    else match z.overrun z.blockLen with
      | some e => .error e
      | none =>
        if z.inp.isEmpty then .error .short
        else if z.blockLen = 0 then .ok (z.eat 1)
        else if z.room ≤ z.made then .error .full
        else .ok { (z.put (z.inp.take 1)).eat 1 with pendLen := z.blockLen - 1, pendDist := if z.blockLen = 1 then 0 else 1 }
  | .lz4 => if z.pendLen ≠ 0 then z.pending else z.lz4Sequence

/-- A block's header (R165, R173). -/
def Frames.blockHead (z : Frames) : Except InfStop Frames := do
  let z0 := { z with
    start := z.pos, inBlock := 0, pendLen := 0, pendDist := 0, nib := none, blockHash := xx32.begin }
  if z.format = 4 then
    let (w, z1) ← z0.take 3
    let kind := leNat w / 2 % 4
    let n := leNat w / 8
    if kind = 3 then .error (errAt 0x0701 1 3 none z.inp)
    if n > z.blockMax then .error (errAt 0x0703 3 z.blockMax (some n) z.inp)
    .ok { z1 with
      phase := 2, kind := match kind with | 0 => .raw | 1 => .rle | _ => .zstd, last := leNat w % 2 == 1,
      left := if kind = 1 then 1 else n, blockLen := n }
  else
    let (w, z1) ← z0.take 4
    let n := leNat w % 2 ^ 31
    if leNat w = 0 then .ok { z1 with phase := 3 }
    else if n > z.blockMax then .error (errAt 0x0703 3 z.blockMax (some n) z.inp)
    else .ok { z1 with
      phase := 2, kind := if leNat w ≥ 2 ^ 31 then .raw else .lz4, last := false, left := n, blockLen := n }

/-- A frame ends: its content size, and its content checksum (R173, R174). -/
def Frames.trailer (z : Frames) : Except InfStop Frames := do
  if z.size.any (fun n => z.content != n) then .error (z.invalid 0)
  let z ← (if !z.contentCheck then .ok z
    else if z.format = 4 then z.carried 5 (xxEnd64 z.hash % 2 ^ 32) else z.carried 6 (xxEnd32 z.hash))
  .ok { z with phase := 4 }

/-- A frame begins. -/
def Frames.beginFrame (z : Frames) : Frames :=
  { z with phase := 1, content := 0, hash := z.xx.begin, tables := {} }

/-- An LZ4 frame header after its magic (R165). -/
def lz4Head (z : Frames) : Except InfStop Frames := do
  let (fl, z1) ← z.take 1
  let flg := leNat fl
  if flg / 64 ≠ 1 ∨ flg / 2 % 2 = 1 then .error (errAt 0x0708 4 flg (some 0) z.inp)
  if flg % 2 = 1 then .error (errAt 0x0707 2 1 (some 0) z.inp)
  let (bd, z2) ← z1.take 1
  let m := leNat bd / 16 % 8
  if leNat bd / 128 = 1 ∨ leNat bd % 16 ≠ 0 ∨ m < 4 then .error (errAt 0x0708 4 (leNat bd) (some 0) z1.inp)
  let (sz, z3) ← z2.take (if flg / 8 % 2 = 1 then 8 else 0)
  let (hc, z4) ← z3.take 1
  let c := xxh32 (fl ++ bd ++ sz) / 256 % 256
  if leNat hc ≠ c then .error (errAt 0x0705 8 (leNat hc) (some c) z3.inp)
  .ok { z4.beginFrame with
    linked := flg / 32 % 2 = 0, blockCheck := flg / 16 % 2 = 1, contentCheck := flg / 4 % 2 = 1,
    blockMax := 2 ^ (8 + 2 * m), window := 65535, size := if sz.isEmpty then none else some (leNat sz) }

/-- A Zstandard frame header after its magic (R165). -/
def zstdHead (z : Frames) : Except InfStop Frames := do
  let (fh, z1) ← z.take 1
  let d := leNat fh
  if d / 8 % 2 = 1 then .error (errAt 0x0708 4 d (some 0) z.inp)
  let single := d / 32 % 2 = 1
  let (wd, z2) ← z1.take (if single then 0 else 1)
  let wb := 2 ^ (10 + leNat wd / 8)
  let window := wb + wb / 8 * (leNat wd % 8)
  if !single ∧ window > 67108864 then .error (errAt 0x0704 2 window (some 67108864) z1.inp)
  let (di, z3) ← z2.take ([0, 1, 2, 4].getD (d % 4) 0)
  if leNat di ≠ 0 then .error (errAt 0x0707 2 (leNat di) (some 0) z2.inp)
  let fl := [if single then 1 else 0, 2, 4, 8].getD (d / 64) 0
  let (fs, z4) ← z3.take fl
  let size := leNat fs + (if fl = 2 then 256 else 0)
  let window := if single then size else window
  if window > 67108864 then .error (errAt 0x0704 2 window (some 67108864) z3.inp)
  .ok { z4.beginFrame with
    linked := true, blockCheck := false, contentCheck := d / 4 % 2 = 1, window := window, blockMax := min window 131072,
    size := if fl = 0 then none else some size }

/-- A frame's magic and header (R165): skippable frames yield nothing; legacy formats are refused. -/
def Frames.head (z : Frames) : Except InfStop Frames := do
  let (m, z1) ← z.take 4
  let magic := leNat m
  if 0x184D2A50 ≤ magic ∧ magic ≤ 0x184D2A5F then
    let (n, z2) ← z1.take 4
    .ok { z2 with phase := 2, kind := .skip, left := leNat n, blockLen := leNat n, inBlock := 0, pendLen := 0, pendDist := 0 }
  else
    let legacy := if z.format = 4 then decide (magic = 0xFD2FB51E ∨ (0xFD2FB522 ≤ magic ∧ magic ≤ 0xFD2FB527)) else magic == 0x184C2102
    if legacy then .error (errAt 0x0708 5 magic (some 0) z.inp)
    if magic ≠ (if z.format = 4 then 0xFD2FB528 else 0x184D2204) then .error (errAt 0x0708 1 magic (some 0) z.inp)
    if z.format = 4 then zstdHead z1 else lz4Head z1

/-- The chain has ended: its length against EXPECTED_LENGTH. -/
def Frames.finish (z : Frames) : InfStop :=
  match z.expected with
  | some e => if z.total ≠ e then errAt 0x0705 9 e (some z.total) z.inp else .done (bitsOfBytes z.inp)
  | none => .done (bitsOfBytes z.inp)

/-- A frame, a block or a part of one; frames follow one another until the input ends. -/
def Frames.step (z : Frames) (more : Bool) : Except InfStop Frames :=
  match z.phase with
  | 1 => z.blockHead
  | 2 => z.block
  | 3 => z.trailer
  | p => if p = 4 ∧ z.inp.isEmpty ∧ !more then .error z.finish else z.head

def Frames.run (more : Bool) : Nat → Frames → InfStop × Frames
  | 0, z => (.short, z)
  | f + 1, z => match z.step more with
    | .error e => (e, z)
    | .ok z => z.run more f

/-- The end of a decompression: why, and what is left. Each step takes in input, puts out what is pending, or ends a block. -/
def Frames.decode (z : Frames) (more : Bool) : InfStop × Frames := z.run more (4 * z.inp.length + 16)

/-- BLOCK of a completion or record: the block being decoded, or the last one. -/
def Frames.blockIndex (z : Frames) : Nat := if 3 ≤ z.phase then z.ended - 1 else z.ended

/-- A chain from its first byte. -/
def Frames.fresh (format : Nat) (input : List Byte) (room : Nat) (expected : Option Nat) : Frames :=
  { format := format, inp := input, room := room, expected := expected, endPos := 8 * input.length }

/-- Bytes padded with zeros to n. -/
def padTo (n : Nat) (b : List Byte) : List Byte := b ++ List.replicate (n - b.length) 0

def FrameKind.code : FrameKind → Nat
  | .raw => 0
  | .rle => 1
  | .zstd => 2
  | .lz4 => 3
  | .skip => 4

def FrameKind.ofCode : Nat → FrameKind
  | 0 => .raw
  | 1 => .rle
  | 2 => .zstd
  | 3 => .lz4
  | _ => .skip

/-- The probabilities of a sequence table, 10 bits each; a table that is absent has none. -/
def probNat (n : Nat) (t : Option FseTable) : Nat :=
  let ps := match t with | some t => t.probs | none => []
  (List.range n).foldr (fun i a => (ps.getD i 0 + 1).toNat + 1024 * a) 0

/-- The table that n probabilities give; none where all are 0. -/
def probTable (n v : Nat) : Option FseTable :=
  let ps := (List.range n).map (fun i => ((v / 1024 ^ i % 1024 : Nat) : Int) - 1)
  let sum := ps.foldl (fun a p => a + p.natAbs) 0
  if sum = 0 then none else some (fseTable (Nat.log2 sum) ps)

/-- The code whose weights a record keeps; none where all are 0. -/
def weightTable (ws : List Nat) : Option ZHuff :=
  let sum := (ws.map (fun w => if w = 0 then 0 else 2 ^ (w - 1))).sum
  if sum = 0 then none else some (zhuffBuild (Nat.log2 sum) ws)

/-- TABLES of a record of formats 4 and 5 (R178): what the frame and the block need to go on, then the repeat offsets, the Huffman
weights and the three sequence tables. -/
def Frames.tableBytes (z : Frames) : List Byte :=
  let flags := bitOf z.size.isSome + 2 * bitOf z.linked + 4 * bitOf z.blockCheck + 8 * bitOf z.contentCheck + 16 * bitOf z.last
  let ws := match z.tables.huff with | some h => h.weights | none => []
  let probs := probNat 36 z.tables.ll + 1024 ^ 36 * (probNat 32 z.tables.of_ + 1024 ^ 32 * probNat 53 z.tables.ml)
  padTo 396 (leBytes 8 z.window ++ leBytes 8 (z.size.getD 0) ++ leBytes 8 z.content ++ leBytes 4 z.inBlock ++ leBytes 4 z.blockMax ++
    leBytes 1 flags ++ leBytes 1 z.kind.code ++ leBytes 1 (match z.nib with | some h => h + 1 | none => 0) ++ leBytes 1 0 ++
    leBytes 4 z.blockLen ++ leBytes 8 z.start ++ leBytes 4 0 ++ leBytes 4 z.tables.rep.1 ++ leBytes 4 z.tables.rep.2.1 ++
    leBytes 4 z.tables.rep.2.2 ++ lensBytes ((List.range 256).map (fun i => ws.getD i 0)) ++ leBytes 152 probs)

/-- CHECK_STATE of formats 4 and 5 (R178): the content's hash, and for LZ4 the block's. -/
def Frames.checkBytes (z : Frames) : List Byte :=
  let lanes (n : Nat) (x : XxState) : List Byte :=
    ((List.range 4).flatMap (fun i => leBytes n (x.lanes.getD i 0))) ++ padTo (4 * n) x.rest
  if z.format = 4 then lanes 8 z.hash else lanes 4 z.hash ++ lanes 4 z.blockHash

/-- The resume record of formats 4 and 5 (R178). -/
def Frames.record (z : Frames) (part : Nat) : List Byte :=
  let b := leBytes 4 0x434D5052 ++ leBytes 2 1 ++ leBytes 1 z.format ++ leBytes 1 z.phase ++ leBytes 8 z.pos ++ leBytes 8 z.total ++
    leBytes 4 z.pendLen ++ leBytes 4 z.pendDist ++ z.checkBytes ++ leBytes 4 z.blockIndex ++ leBytes 4 z.left ++ leBytes 4 part ++
    leBytes 4 0 ++ z.tableBytes
  b ++ leBytes 4 (crc32c b)

/-- Decoding goes on from a record and the history (R166, R177). -/
def Frames.resume (r : List Byte) (input : List Byte) (room : Nat) (expected : Option Nat) (history : List Byte) : Frames :=
  let f (o n : Nat) : Nat := leField r (0x70 + o) n
  let format := leField r 6 1
  let n := if format = 4 then 8 else 4
  let hashAt (o len : Nat) : XxState :=
    { lanes := (List.range 4).map (fun i => leField r (0x20 + o + n * i) n), rest := slice r (0x20 + o + 4 * n) (len % (4 * n)),
      len := len }
  let left := leField r 0x64 4
  let probs := f 192 152
  { format := format, phase := leField r 7 1, inp := input, room := room, expected := expected, out := history.reverse,
    total := leField r 0x10 8, content := f 16 8, inBlock := f 24 4, window := f 0 8, blockMax := f 28 4,
    size := if f 32 1 % 2 = 1 then some (f 8 8) else none, linked := f 32 1 / 2 % 2 == 1, blockCheck := f 32 1 / 4 % 2 == 1,
    contentCheck := f 32 1 / 8 % 2 == 1, last := f 32 1 / 16 % 2 == 1, hash := hashAt 0 (f 16 8),
    blockHash := if format = 4 then {} else hashAt 32 (f 36 4 - left), kind := .ofCode (f 33 1), left := left, blockLen := f 36 4,
    nib := if f 34 1 = 0 then none else some (f 34 1 - 1), pendLen := leField r 0x18 4, pendDist := leField r 0x1C 4,
    tables := {
      huff := weightTable ((List.range 256).map (fun i => f (64 + i / 2) 1 / 16 ^ (i % 2) % 16)),
      ll := probTable 36 probs, of_ := probTable 32 (probs / 1024 ^ 36), ml := probTable 53 (probs / 1024 ^ 68),
      rep := (f 52 4, f 56 4, f 60 4) },
    ended := if 3 ≤ leField r 7 1 then leField r 0x60 4 + 1 else leField r 0x60 4,
    endPos := leField r 8 8 + 8 * input.length, start := f 40 8 }

end Sys2Proof.Machine
end

