-- ==== Sys2Proof/Machine/DecodePng.lean ====
section
/-! DEFINITION. PNG fields (R200-R204, R208, R209, R215, R685): chunks, limits, the inflated image stream and its passes,
with the place in the field at which each charge or fault stands. Layouts are those of ISO/IEC 15948, which R208 names. -/

namespace Sys2Proof.Machine

def beInt (b : List Byte) (off len : Nat) : Nat := leNat (slice b off len).reverse

/-- Charges and faults in the order of the data, up to the first fault. Where one point has several, UNSUPPORTED comes first,
then LIMIT_EXCEEDED (R215); a charge comes before a fault. -/
def eventRank : DecodeEvent → Nat
  | .fault st => if st = 0x0502 then 1 else if st = 0x0503 then 2 else if st = 0x0501 then 3 else if st = 0x0504 then 4 else 5
  | _ => 0

def uptoFault : List (Nat × DecodeEvent) → List (Nat × DecodeEvent)
  | [] => []
  | (p, .fault st) :: _ => [(p, .fault st)]
  | e :: es => e :: uptoFault es

def sortEvents (es : List (Nat × DecodeEvent)) : List (Nat × DecodeEvent) :=
  uptoFault (orderBy (fun a b => decide (a.1 < b.1) || (a.1 == b.1 && decide (eventRank a.2 ≤ eventRank b.2))) es)

/-- IHDR (R203, R208). -/
structure PngHead where
  w : Nat
  h : Nat
  depth : Nat
  colour : Nat
  lace : Nat
  deriving DecidableEq, Repr

def pngDepthOk (colour depth : Nat) : Bool :=
  match colour with
  | 0 => [1, 2, 4, 8, 16].contains depth
  | 3 => [1, 2, 4, 8].contains depth
  | 2 => depth == 8 || depth == 16
  | 4 => depth == 8 || depth == 16
  | 6 => depth == 8 || depth == 16
  | _ => false

/-- The chunks of a file up to IEND or the first fault: the header, palette and key, the image data with the place of each
piece, where the image data ended, and the fault. -/
structure PngWalk where
  head : Option PngHead := none
  plte : List Byte := []
  trns : List Byte := []
  idat : List (Nat × List Byte) := []
  closed : Option Nat := none
  fault : Option (Nat × DecodeEvent) := none
  deriving DecidableEq, Repr

def PngWalk.fail (w : PngWalk) (at_ : Nat) (st : Status) : PngWalk := { w with fault := some (at_, .fault st) }

def pngType (s : String) : Nat := s.toList.foldl (fun n c => n * 256 + c.toNat) 0

/-- IHDR's fields at their end (R203, R208). -/
def PngWalk.header (w : PngWalk) (g : GraphField) (pos : Nat) (d : List Byte) : PngWalk :=
  let x := beInt d 0 4
  let y := beInt d 4 4
  let h : PngHead := { w := x, h := y, depth := leField d 8 1, colour := leField d 9 1, lace := leField d 12 1 }
  if x < 1 ∨ x > min g.maxWidth 16384 ∨ y < 1 ∨ y > min g.maxHeight 16384 ∨ x * y > min g.maxPixels 268435456 then w.fail pos 0x0503
  else if !pngDepthOk h.colour h.depth || leField d 10 1 != 0 || leField d 11 1 != 0 || decide (h.lace > 1) then w.fail pos 0x0501
  else { w with head := some h }

/-- A chunk whose type has been read: whether it may stand here. -/
def PngWalk.typeFault (w : PngWalk) (ty len : Nat) : Option Status :=
  let critical := ty / 2 ^ 29 % 2 = 0
  let letter (c : Nat) : Bool := decide (65 ≤ c ∧ c ≤ 90) || decide (97 ≤ c ∧ c ≤ 122)
  if !(List.range 4).all (fun i => letter (ty / 256 ^ i % 256)) then some 0x0501
  else match w.head with
  | none =>
    if critical ∧ !([pngType "IHDR", pngType "PLTE", pngType "IDAT", pngType "IEND"].contains ty) then some 0x0502
    else if ty ≠ pngType "IHDR" ∨ len ≠ 13 then some 0x0501 else none
  | some h =>
    if ty = pngType "IHDR" then some 0x0501
    else if ty = pngType "PLTE" then
      if !w.plte.isEmpty || !w.idat.isEmpty || h.colour == 0 || h.colour == 4 || len % 3 != 0 || len == 0 || decide (len > 768) ||
        (h.colour == 3 && decide (len > 3 * 2 ^ h.depth)) then some 0x0501 else none
    else if ty = pngType "IDAT" then if w.closed.isSome || (h.colour == 3 && w.plte.isEmpty) then some 0x0501 else none
    else if ty = pngType "IEND" then if w.idat.isEmpty || len != 0 then some 0x0501 else none
    else if critical then some 0x0502 else none

def pngChunks (g : GraphField) (total : Nat) : Nat → List Byte → PngWalk → PngWalk
  | 0, _, w => w
  | f + 1, b, w =>
    let pos := total - b.length
    if b.isEmpty then w.fail (total + 1) 0x0501
    else if b.length < 8 then w.fail (total + 1) 0x0504
    else
      let len := beInt b 0 4
      let ty := beInt b 4 4
      let w := if !w.idat.isEmpty && ty != pngType "IDAT" && w.closed.isNone then { w with closed := some (pos + 8) } else w
      if len ≥ 2 ^ 31 then w.fail (pos + 4) 0x0501
      else match w.typeFault ty len with
        | some st => w.fail (pos + 8) st
        | none =>
          let d := (b.drop 8).take len
          let w :=
            if ty = pngType "IDAT" then { w with idat := w.idat ++ [(pos + 8, d)] }
            else if d.length < len then w
            else if ty = pngType "IHDR" then w.header g (pos + 8 + len) d
            else if ty = pngType "PLTE" then { w with plte := d }
            else if ty = pngType "tRNS" ∧ w.idat.isEmpty then { w with trns := d }
            else w
          if w.fault.isSome then w
          else if b.length < 12 + len then w.fail (total + 1) 0x0504
          else if crc32 ((b.drop 4).take (4 + len)) ≠ beInt b (8 + len) 4 then w.fail (pos + 12 + len) 0x0505
          else if ty = pngType "IEND" then w
          else pngChunks g total f (b.drop (12 + len)) w

def pngSig : List Byte := [0x89, 0x50, 0x4E, 0x47, 0x0D, 0x0A, 0x1A, 0x0A]

/-- A pass: width, height, origin and steps. -/
structure PngPass where
  w : Nat
  h : Nat
  x0 : Nat := 0
  y0 : Nat := 0
  dx : Nat := 1
  dy : Nat := 1
  deriving DecidableEq, Repr

def pngPasses (h : PngHead) : List PngPass :=
  if h.lace = 0 then [{ w := h.w, h := h.h }]
  else ([(0, 0, 8, 8), (4, 0, 8, 8), (0, 4, 4, 8), (2, 0, 4, 4), (0, 2, 2, 4), (1, 0, 2, 2), (0, 1, 1, 2)].map
    (fun (x0, y0, dx, dy) => (⟨(h.w - x0 + dx - 1) / dx, (h.h - y0 + dy - 1) / dy, x0, y0, dx, dy⟩ : PngPass))).filter (fun p => decide (0 < p.w ∧ 0 < p.h))

def PngHead.bpp (h : PngHead) : Nat := pngStored h.colour * h.depth
def PngHead.rowBytes (h : PngHead) (p : PngPass) : Nat := (p.w * h.bpp + 7) / 8

def paeth (a b c : Nat) : Nat :=
  let p : Int := a + b - c
  let da := (p - a).natAbs
  let db := (p - b).natAbs
  let dc := (p - c).natAbs
  if da ≤ db ∧ da ≤ dc then a else if db ≤ dc then b else c

/-- A scanline without its filter; bytes so far newest first, fb the bytes of a pixel. -/
def unfilter (ft fb : Nat) : List Nat → List Nat → List Nat → List Nat → List Nat
  | x :: xs, u :: us, c :: cs, acc =>
    let a := acc.getD (fb - 1) 0
    let add := match ft with | 0 => 0 | 1 => a | 2 => u | 3 => (a + u) / 2 | _ => paeth a u c
    unfilter ft fb xs us cs ((x + add) % 256 :: acc)
  | _, _, _, acc => acc.reverse

/-- The scanlines of a pass: their bytes without filters, the image bytes left. -/
def pngRows (n fb : Nat) : Nat → List Nat → List Nat → List (List Nat) → List (List Nat) × List Nat
  | 0, _, bs, acc => (acc.reverse, bs)
  | k + 1, up, bs, acc =>
    let row := unfilter (bs.headD 0) fb (bs.tail.take n) up (List.replicate fb 0 ++ up) []
    pngRows n fb k row (bs.drop (n + 1)) (row :: acc)

/-- Stored samples of a scanline. -/
def rowSamples (depth n : Nat) (row : List Nat) : List Nat :=
  if depth = 8 then row.take n
  else if depth = 16 then (List.range n).map (fun i => row.getD (2 * i) 0 * 256 + row.getD (2 * i + 1) 0)
  else (row.flatMap (fun x => (List.range (8 / depth)).map (fun i => x / 2 ^ (8 - depth * (i + 1)) % 2 ^ depth))).take n

/-- The samples of the passes, scanline by scanline. -/
def pngPassRows (h : PngHead) : List PngPass → List Nat → List (PngPass × List (List Nat))
  | [], _ => []
  | p :: ps, bs =>
    let n := h.rowBytes p
    let r := pngRows n (max 1 (h.bpp / 8)) p.h (List.replicate n 0) bs []
    (p, r.1.map (rowSamples h.depth (p.w * pngStored h.colour))) :: pngPassRows h ps r.2

/-- The stored samples of the picture row by row, each pixel from its pass. -/
def pngSamples (h : PngHead) (rows : List (PngPass × List (List Nat))) : List Nat :=
  let k := pngStored h.colour
  (List.range (h.w * h.h)).flatMap (fun i =>
    let x := i % h.w
    let y := i / h.w
    match rows.find? (fun r => decide (r.1.x0 ≤ x ∧ r.1.y0 ≤ y) && (x - r.1.x0) % r.1.dx == 0 && (y - r.1.y0) % r.1.dy == 0) with
    | some (p, rs) => (((rs.getD ((y - p.y0) / p.dy) []).drop ((x - p.x0) / p.dx * k)).take k)
    | none => [])

/-- The inflated image stream: how the stream ends, its bytes, and after each step how much there was and how many bits
had been taken in. -/
def pngInflate : Nat → Inflate → List (Nat × Nat) → InfStop × Inflate × List (Nat × Nat)
  | 0, z, marks => (.short, z, marks)
  | f + 1, z, marks => match z.step false with
    | .error e => (e, z, marks)
    | .ok z' => pngInflate f z' (if z'.made > z.made then (z'.made, z'.pos z'.bits) :: marks else marks)

/-- Where the input ends that shows an error: the fewest bytes with which the step fails. -/
def Inflate.foundAt (z : Inflate) : Nat :=
  let cut (k : Nat) : List Bool := z.bits.take (z.bits.length % 8 + 8 * k)
  let bad (k : Nat) : Bool := match ({ z with bits := cut k } : Inflate).step false with
    | .error (.err _ _ _ _ _) => true
    | _ => false
  z.pos z.bits + (cut (((List.range (z.bits.length / 8 + 1)).find? bad).getD 0)).length

/-- The place in the field of bit `pos` of the image data. -/
def idatPlace (pieces : List (Nat × List Byte)) (pos : Nat) : Nat :=
  let go : List (Nat × List Byte) → Nat → Nat := fun ps n =>
    (ps.foldl (fun (a : Nat × Nat) p => if a.1 = 0 then a
      else if a.1 ≤ p.2.length then (0, p.1 + a.1) else (a.1 - p.2.length, p.1 + p.2.length)) (n, 0)).2
  go pieces ((pos + 7) / 8)

/-- Per scanline: where it begins in the image stream, its pass's charge when it is the first, and its bytes. -/
def pngLines (h : PngHead) : List PngPass → Nat → List (Nat × Option Nat × Nat)
  | [], _ => []
  | p :: ps, at_ =>
    let n := h.rowBytes p + 1
    (List.range p.h).map (fun i => (at_ + i * n, if i = 0 then some ((n - 1) * p.h) else none, n - 1)) ++
      pngLines h ps (at_ + p.h * n)

/-- A PNG field (R208, R215, R685). -/
def pngField (g : GraphField) (b : List Byte) : FieldDecode :=
  if b.take 8 ≠ pngSig then
    { events := [if b.length < 8 ∧ b.isPrefixOf pngSig then (b.length + 1, .fault 0x0504) else (min 8 b.length, .fault 0x0501)],
      held := none }
  else
    let w := pngChunks g b.length (b.length + 1) (b.drop 8) {}
    let ended : List (Nat × DecodeEvent) := w.fault.toList
    match w.head with
    | none => { events := ended, held := none }
    | some h =>
      let data := w.idat.flatMap (·.2)
      let z0 := Inflate.fresh 2 data (2 ^ 63) none
      let r := pngInflate z0.fuel z0 []
      let img := r.2.1.output.map (·.toNat)
      let marks := r.2.2.reverse
      let place (q : Nat) : Option Nat := (marks.find? (fun m => decide (m.1 > q))).map (fun m => idatPlace w.idat m.2)
      let lines := pngLines h (pngPasses h) 0
      let size := (lines.map (fun l => l.2.2 + 1)).sum
      let rows := pngPassRows h (pngPasses h) (img ++ List.replicate (size - img.length) 0)
      let samples := (rows.flatMap (·.2))
      let lineEvents := (lines.zip (samples ++ List.replicate lines.length [])).flatMap (fun (l, ss) =>
        (match place l.1 with
          | some p => (match l.2.1 with | some n => [(p, DecodeEvent.pngPass n)] | none => []) ++
              (if img.getD l.1 0 > 4 then [(p, .fault 0x0501)] else [])
          | none => []) ++
        (match (if h.colour = 3 then ss.findIdx? (fun i => decide (3 * i ≥ w.plte.length)) else none) with
          | some k => (match place (l.1 + 1 + k * h.depth / 8) with | some p => [(p, DecodeEvent.fault 0x0501)] | none => [])
          | none => []))
      let whole := decide (size ≤ img.length)
      let endEvents : List (Nat × DecodeEvent) := match r.1 with
        | .done rest => if whole then [] else [(idatPlace w.idat (r.2.1.pos rest), .fault 0x0504)]
        | .err _ _ _ _ _ => [(idatPlace w.idat r.2.1.foundAt, .fault 0x0501)]
        | _ => (match w.closed with
          | some p => [(p, .fault (if whole then 0x0501 else 0x0504))]
          | none => [])
      let plte := (List.range (w.plte.length / 3)).map (fun i =>
        (leField w.plte (3 * i) 1, leField w.plte (3 * i + 1) 1, leField w.plte (3 * i + 2) 1))
      let trns := if h.colour = 3 then w.trns.map (·.toNat)
        else (List.range (w.trns.length / 2)).map (fun i => beInt w.trns (2 * i) 2)
      { events := sortEvents (lineEvents ++ endEvents ++ ended),
        held := some (.png h.w h.h h.colour h.depth (pngSamples h rows) plte trns) }

end Sys2Proof.Machine
end

