-- ==== Sys2Proof/Machine/DecodeAudio.lean ====
section
/-! DEFINITION. WAV and FLAC fields (R203, R204, R213-R215, R685): headers, limits, samples and checks, with the place in the
field of each charge or fault. WAV chunks and RFC 9639 frames are laid out as R213 names them. -/

namespace Sys2Proof.Machine

/-- The fmt chunk's settings. -/
structure WavFmt where
  channels : Nat
  rate : Nat
  bits : Nat
  deriving DecidableEq, Repr

def WavFmt.frame (f : WavFmt) : Nat := f.channels * (f.bits / 8)

/-- A stored sample: 8-bit samples unsigned, others signed. -/
def wavSample (bits : Nat) (b : List Byte) : Int := if bits = 8 then leNat b else signedOf bits (leNat b)

/-- The subformat of PCM: tag 1 and the fixed rest of the GUID. -/
def pcmGuid : List Byte := [1, 0, 0, 0, 0, 0, 0x10, 0, 0x80, 0, 0, 0xAA, 0, 0x38, 0x9B, 0x71]

def wavFmt (g : GraphField) (d : List Byte) : Except Status WavFmt :=
  let tag := leField d 0 2
  let f : WavFmt := { channels := leField d 2 2, rate := leField d 4 4, bits := leField d 14 2 }
  if (tag ≠ 1 ∧ tag ≠ 0xFFFE) ∨ (tag = 0xFFFE ∧ 40 ≤ d.length ∧ slice d 24 16 ≠ pcmGuid) ∨ !([8, 16, 24, 32].contains f.bits) then
    .error 0x0502
  else if f.channels < 1 ∨ f.channels > min g.maxChannels 8 ∨ f.rate < 8000 ∨ f.rate > min g.maxRate 384000 then .error 0x0503
  else if leField d 12 2 ≠ f.frame ∨ (tag = 0xFFFE ∧ d.length < 40) then .error 0x0501
  else .ok f

/-- The chunks of a WAV file to its RIFF size; what the data chunk held. -/
def wavChunks (g : GraphField) (total end_ : Nat) :
    Nat → Nat → List Byte → Option WavFmt → List (Nat × DecodeEvent) → Option Decoded → FieldDecode
  | 0, _, _, _, es, held => { events := es, held := held }
  | n + 1, pos, b, fmt, es, held =>
    let stop (at_ : Nat) (st : Status) : FieldDecode := { events := es ++ [(at_, .fault st)], held := held }
    if pos ≥ end_ then
      if end_ > total then stop (total + 1) 0x0504
      else if held.isNone then stop (min pos total) 0x0501 else { events := es, held := held }
    else if b.length < 8 then stop (total + 1) 0x0504
    else
      let id := leField b 0 4
      let size := leField b 4 4
      let d := (b.drop 8).take size
      let next := 8 + size + size % 2
      let skip := wavChunks g total end_ n (pos + next) (b.drop next)
      if id = 0x20746D66 ∧ held.isNone then        -- "fmt "
        if fmt.isSome ∨ size < 16 then stop (pos + 8) 0x0501
        else if d.length < size then stop (total + 1) 0x0504
        else match wavFmt g d with
          | .error st => stop (pos + 8 + size) st
          | .ok f => skip (some f) es held
      else if id = 0x61746164 ∧ held.isNone then   -- "data"
        match fmt with
        | none => stop (pos + 8) 0x0501
        | some f =>
          if size / f.frame > min g.maxSamples 2147483647 then stop (pos + 8) 0x0503
          else
            let k := d.length / f.frame * f.channels
            let w := f.bits / 8
            let xs := (List.range k).map (fun i => wavSample f.bits (slice d (i * w) w))
            let es := if k = 0 then es else es ++ [(pos + 8 + k * w, .audioSamples k)]
            let held := some (Decoded.audio f.channels f.rate f.bits (f.bits == 8) xs)
            if d.length < size then { events := es ++ [(total + 1, .fault 0x0504)], held := held } else skip fmt es held
      else if d.length < size then stop (total + 1) 0x0504
      else skip fmt es held

/-- A WAV field (R213); one that ends inside its RIFF header is cut off. -/
def wavField (g : GraphField) (b : List Byte) : FieldDecode :=
  let id := leField b 0 4
  let riff : List Byte := [0x52, 0x49, 0x46, 0x46]
  let wave : List Byte := [0x57, 0x41, 0x56, 0x45]
  if 4 ≤ b.length ∧ (id = 0x34364652 ∨ id = 0x34365742) then { events := [(4, .fault 0x0502)], held := none }   -- RF64, BW64
  else if !(b.take 4).isPrefixOf riff then { events := [(min 4 b.length, .fault 0x0501)], held := none }
  else if !((b.drop 8).take 4).isPrefixOf wave then { events := [(min 12 b.length, .fault 0x0501)], held := none }
  else if b.length < 12 then { events := [(b.length + 1, .fault 0x0504)], held := none }
  else wavChunks g b.length (8 + leField b 4 4) (b.length + 1) 12 (b.drop 12) none [] none

/-! FLAC. -/

/-- A fault of a FLAC stream: its status, with the bits left where it is found, or none where the field ends. -/
abbrev FlacFault := Status × Option (List Bool)

def msbBitsOf (b : List Byte) : List Bool := b.flatMap (fun x => (List.range 8).map (fun i => x.getLsbD (7 - i)))

/-- n bits; a field that ends first is truncated. -/
def fBits (n : Nat) (bs : List Bool) : Except FlacFault (Nat × List Bool) :=
  match msbBits n bs with
  | some r => .ok r
  | none => .error (0x0504, none)

def fSigned (n : Nat) (bs : List Bool) : Except FlacFault (Int × List Bool) := do
  let (x, r) ← fBits n bs
  .ok (signedOf n x, r)

def fBad {α : Type} (st : Status) (bs : List Bool) : Except FlacFault (α × List Bool) := .error (st, some bs)

/-- Zeros before a one. -/
def fUnary : List Bool → Nat → Except FlacFault (Nat × List Bool)
  | [], _ => .error (0x0504, none)
  | true :: bs, n => .ok (n, bs)
  | false :: bs, n => fUnary bs (n + 1)

/-- k values, newest first. -/
def fMany (read : List Bool → Except FlacFault (Int × List Bool)) : Nat → List Int → List Bool → Except FlacFault ((List Int) × List Bool)
  | 0, acc, bs => .ok (acc, bs)
  | k + 1, acc, bs => do
    let (x, r) ← read bs
    fMany read k (x :: acc) r

def fRice (k : Nat) (bs : List Bool) : Except FlacFault (Int × List Bool) := do
  let (q, r) ← fUnary bs 0
  let (x, r) ← fBits k r
  let v := q * 2 ^ k + x
  .ok (if v % 2 = 0 then (v / 2 : Int) else -((v + 1) / 2 : Int), r)

/-- The partitions of a residual, values newest first. -/
def fParts (pbits size order : Nat) : Nat → Bool → List Int → List Bool → Except FlacFault ((List Int) × List Bool)
  | 0, _, acc, bs => .ok (acc, bs)
  | n + 1, first, acc, bs => do
    let k := if first then size - order else size
    let (p, r) ← fBits pbits bs
    let (acc, r) ← (if p = 2 ^ pbits - 1 then do
        let (w, r) ← fBits 5 r
        if w = 0 then .ok (List.replicate k 0 ++ acc, r) else fMany (fSigned w) k acc r
      else fMany (fRice p) k acc r)
    fParts pbits size order n false acc r

/-- A residual for a block and a predictor order. -/
def fResidual (block order : Nat) (bs : List Bool) : Except FlacFault ((List Int) × List Bool) := do
  let (m, r) ← fBits 2 bs
  if m > 1 then fBad 0x0501 bs
  else do
    let (po, r') ← fBits 4 r
    let size := block / 2 ^ po
    if block % 2 ^ po ≠ 0 ∨ size < order then fBad 0x0501 r
    else do
      let (x, r) ← fParts (4 + m) size order (2 ^ po) true [] r'
      .ok (x.reverse, r)

/-- A prediction from the samples so far, newest first, and a residual. -/
def fPredict (coefs : List Int) (shift : Nat) : List Int → List Int → List Int
  | [], acc => acc
  | r :: rs, acc => fPredict coefs shift rs (((sar ((coefs.zip acc).foldl (fun a x => a + x.1 * x.2) 0) shift) + r) :: acc)

def fixedCoefs : Nat → List Int
  | 0 => [] | 1 => [1] | 2 => [2, -1] | 3 => [3, -3, 1] | _ => [4, -6, 4, -1]

/-- A subframe of a block: its samples in order. -/
def fSubframe (block bits : Nat) (bs : List Bool) : Except FlacFault ((List Int) × List Bool) := do
  let (z, r) ← fBits 1 bs
  if z = 1 then fBad 0x0501 bs
  else do
    let (ty, r') ← fBits 6 r
    let (wf, r2) ← fBits 1 r'
    let (wasted, r2) ← (if wf = 1 then do
      let (k, q) ← fUnary r2 0
      .ok (k + 1, q) else .ok (0, r2))
    if wasted ≥ bits then fBad 0x0501 r'
    else do
      let n := bits - wasted
      let out (p : List Int × List Bool) : Except FlacFault ((List Int) × List Bool) := .ok (p.1.map (fun x => x * (2 : Int) ^ wasted), p.2)
      if ty = 0 then do
        let (x, r) ← fSigned n r2
        out (List.replicate block x, r)
      else if ty = 1 then do
        let (xs, r) ← fMany (fSigned n) block [] r2
        out (xs.reverse, r)
      else if 8 ≤ ty ∧ ty ≤ 12 then do
        let o := ty - 8
        if block < o then fBad 0x0501 r
        else do
          let (warm, q) ← fMany (fSigned n) o [] r2
          let (res, q) ← fResidual block o q
          out ((fPredict (fixedCoefs o) 0 res warm).reverse, q)
      else if 32 ≤ ty then do
        let o := ty - 31
        if block < o then fBad 0x0501 r
        else do
          let (warm, q) ← fMany (fSigned n) o [] r2
          let (prec, q') ← fBits 4 q
          if prec = 15 then fBad 0x0501 q
          else do
            let (sh, q2) ← fSigned 5 q'
            if sh < 0 then fBad 0x0501 q'
            else do
              let (cs, q3) ← fMany (fSigned (prec + 1)) o [] q2
              let (res, q4) ← fResidual block o q3
              out ((fPredict cs.reverse sh.toNat res warm).reverse, q4)
      else fBad 0x0501 r

/-- CRC of FLAC headers (width 8, 0x07) and frames (width 16, 0x8005). -/
def crcMsb (w poly : Nat) (b : List Byte) : Nat :=
  b.foldl (fun c x => (List.range 8).foldl (fun c _ =>
    if c / 2 ^ (w - 1) % 2 = 1 then (c * 2 % 2 ^ w) ^^^ poly else c * 2 % 2 ^ w) (c ^^^ x.toNat * 2 ^ (w - 8))) 0

/-- STREAMINFO as the decoder uses it. -/
structure FlacInfo where
  rate : Nat
  channels : Nat
  bits : Nat
  total : Nat
  md5 : List Byte
  deriving DecidableEq, Repr

/-- The bytes of a coded number after its first. -/
def fCodedLen (x : Nat) : Option Nat :=
  if x < 0x80 then some 0 else if x < 0xC0 then none else if x < 0xE0 then some 1 else if x < 0xF0 then some 2
  else if x < 0xF8 then some 3 else if x < 0xFC then some 4 else if x < 0xFE then some 5 else if x = 0xFE then some 6 else none

def fTails : Nat → List Bool → Except FlacFault (Unit × List Bool)
  | 0, bs => .ok ((), bs)
  | n + 1, bs => do
    let (x, r) ← fBits 8 bs
    if x / 64 ≠ 2 then fBad 0x0501 bs else fTails n r

/-- A frame header: block size and channel assignment (R213, RFC 9639). -/
def fHeader (i : FlacInfo) (bs : List Bool) : Except FlacFault ((Nat × Nat) × List Bool) := do
  let (sync, r) ← fBits 15 bs
  if sync ≠ 0x7FFC then fBad 0x0501 bs
  else do
    let (_, r) ← fBits 1 r
    let (bc, r1) ← fBits 4 r
    if bc = 0 then fBad 0x0501 r
    else do
      let (rc, r2) ← fBits 4 r1
      if rc = 15 then fBad 0x0501 r1
      else do
        let (cc, r3) ← fBits 4 r2
        if cc > 10 ∨ (if cc < 8 then cc + 1 else 2) ≠ i.channels then fBad 0x0501 r2
        else do
          let (sc, r4) ← fBits 3 r3
          if sc = 7 then fBad 0x0502 r3
          else if sc = 3 ∨ (sc ≠ 0 ∧ [0, 8, 12, 0, 16, 20, 24].getD sc 0 ≠ i.bits) then fBad 0x0501 r3
          else do
            let (z, r5) ← fBits 1 r4
            if z = 1 then fBad 0x0501 r4
            else do
              let (x, r6) ← fBits 8 r5
              match fCodedLen x with
              | none => fBad 0x0501 r5
              | some k => do
                let (_, r7) ← fTails k r6
                let (block, r8) ← (if bc = 6 then do
                    let (v, q) ← fBits 8 r7
                    .ok (v + 1, q)
                  else if bc = 7 then do
                    let (v, q) ← fBits 16 r7
                    .ok (v + 1, q)
                  else .ok (if bc = 1 then 192 else if bc < 6 then 576 * 2 ^ (bc - 2) else 256 * 2 ^ (bc - 8), r7))
                let (_, r9) ← fBits (if rc = 12 then 8 else if rc = 13 ∨ rc = 14 then 16 else 0) r8
                let (crc, r10) ← fBits 8 r9
                if crc ≠ crcMsb 8 7 (msbBytes bs r9) then fBad 0x0505 r10 else .ok ((block, cc), r10)
where
  /-- The whole bytes between two places. -/
  msbBytes (a b : List Bool) : List Byte :=
    (List.range ((a.length - b.length) / 8)).map (fun i => BitVec.ofNat 8 (((msbBits 8 (a.drop (8 * i))).getD (0, [])).1))

/-- The channels of a frame from its subframes. -/
def fStereo (cc : Nat) (ch : List (List Int)) : List (List Int) :=
  let a := ch.getD 0 []
  let b := ch.getD 1 []
  match cc with
  | 8 => [a, (a.zip b).map (fun x => x.1 - x.2)]
  | 9 => [(a.zip b).map (fun x => x.1 + x.2), b]
  | 10 =>
    let mid := (a.zip b).map (fun x => 2 * x.1 + x.2 % 2)
    [(mid.zip b).map (fun x => sar (x.1 + x.2) 1), (mid.zip b).map (fun x => sar (x.1 - x.2) 1)]
  | _ => ch

/-- The subframes of a frame; on a fault, how many were decoded before it. -/
def fSubframes (block bits cc : Nat) : Nat → Nat → List (List Int) → List Bool →
    Except (FlacFault × Nat) (List (List Int) × List Bool)
  | 0, _, acc, bs => .ok (acc.reverse, bs)
  | n + 1, c, acc, bs =>
    let w := bits + (if (cc = 8 ∧ c = 1) ∨ (cc = 9 ∧ c = 0) ∨ (cc = 10 ∧ c = 1) then 1 else 0)
    match fSubframe block w bs with
    | .error e => .error (e, c)
    | .ok (x, r) => fSubframes block bits cc n (c + 1) (x :: acc) r

/-! The digest that STREAMINFO carries is MD5 (RFC 1321). -/

def md5K : List Nat :=
  [0xd76aa478, 0xe8c7b756, 0x242070db, 0xc1bdceee, 0xf57c0faf, 0x4787c62a, 0xa8304613, 0xfd469501,
   0x698098d8, 0x8b44f7af, 0xffff5bb1, 0x895cd7be, 0x6b901122, 0xfd987193, 0xa679438e, 0x49b40821,
   0xf61e2562, 0xc040b340, 0x265e5a51, 0xe9b6c7aa, 0xd62f105d, 0x02441453, 0xd8a1e681, 0xe7d3fbc8,
   0x21e1cde6, 0xc33707d6, 0xf4d50d87, 0x455a14ed, 0xa9e3e905, 0xfcefa3f8, 0x676f02d9, 0x8d2a4c8a,
   0xfffa3942, 0x8771f681, 0x6d9d6122, 0xfde5380c, 0xa4beea44, 0x4bdecfa9, 0xf6bb4b60, 0xbebfbc70,
   0x289b7ec6, 0xeaa127fa, 0xd4ef3085, 0x04881d05, 0xd9d4d039, 0xe6db99e5, 0x1fa27cf8, 0xc4ac5665,
   0xf4292244, 0x432aff97, 0xab9423a7, 0xfc93a039, 0x655b59c3, 0x8f0ccc92, 0xffeff47d, 0x85845dd1,
   0x6fa87e4f, 0xfe2ce6e0, 0xa3014314, 0x4e0811a1, 0xf7537e82, 0xbd3af235, 0x2ad7d2bb, 0xeb86d391]

def md5S : List Nat := [7, 12, 17, 22, 5, 9, 14, 20, 4, 11, 16, 23, 6, 10, 15, 21]

def md5Step (m : List Nat) (v : Nat × Nat × Nat × Nat) (i : Nat) : Nat × Nat × Nat × Nat :=
  let (a, b, c, d) := v
  let inv (x : Nat) : Nat := 2 ^ 32 - 1 - x
  let (f, g) : Nat × Nat :=
    if i < 16 then ((b &&& c) ||| (inv b &&& d), i)
    else if i < 32 then ((d &&& b) ||| (inv d &&& c), (5 * i + 1) % 16)
    else if i < 48 then (b ^^^ c ^^^ d, (3 * i + 5) % 16)
    else (c ^^^ (b ||| inv d), 7 * i % 16)
  let x := (a + f + md5K.getD i 0 + m.getD g 0) % 2 ^ 32
  let s := md5S.getD (i / 16 * 4 + i % 4) 0
  (d, (b + (x * 2 ^ s % 2 ^ 32 + x / 2 ^ (32 - s))) % 2 ^ 32, b, c)

def md5Blocks : Nat → List Byte → Nat × Nat × Nat × Nat → Nat × Nat × Nat × Nat
  | 0, _, v => v
  | n + 1, b, v =>
    let m := (List.range 16).map (fun i => leField b (4 * i) 4)
    let r := (List.range 64).foldl (md5Step m) v
    md5Blocks n (b.drop 64) ((v.1 + r.1) % 2 ^ 32, (v.2.1 + r.2.1) % 2 ^ 32, (v.2.2.1 + r.2.2.1) % 2 ^ 32, (v.2.2.2 + r.2.2.2) % 2 ^ 32)

def md5 (b : List Byte) : List Byte :=
  let n := b.length
  let p := b ++ [0x80] ++ List.replicate ((119 - n % 64) % 64) 0 ++ leBytes 8 (8 * n)
  let r := md5Blocks (p.length / 64) p (0x67452301, 0xEFCDAB89, 0x98BADCFE, 0x10325476)
  leBytes 4 r.1 ++ leBytes 4 r.2.1 ++ leBytes 4 r.2.2.1 ++ leBytes 4 r.2.2.2

/-- Samples interleaved by channel. -/
def interleave (ch : List (List Int)) : List Int :=
  (List.range ((ch.headD []).length)).flatMap (fun i => ch.map (fun c => c.getD i 0))

/-- The frames of a stream: its events and samples, newest first. -/
def flacFrames (i : FlacInfo) (size : Nat) : Nat → List Bool → Nat → List (Nat × DecodeEvent) → List Int → FieldDecode
  | 0, _, _, es, out => { events := es.reverse, held := some (.audio i.channels i.rate i.bits false out.reverse) }
  | n + 1, bs, done, es, out =>
    let held (out : List Int) : Option Decoded := some (.audio i.channels i.rate i.bits false out.reverse)
    let place (r : List Bool) : Nat := size - r.length / 8
    let stop (e : FlacFault) (k : Nat) : FieldDecode :=
      let at_ := match e.2 with | some r => place r | none => size + 1
      { events := (es.reverse ++ (if k = 0 then [] else [(min at_ size, DecodeEvent.audioSamples k)])) ++ [(at_, .fault e.1)],
        held := held out }
    if (i.total ≠ 0 ∧ done ≥ i.total) ∨ (i.total = 0 ∧ bs.isEmpty) then
      let xs := (out.reverse).flatMap (fun x => leBytes ((i.bits + 7) / 8) (x % (2 : Int) ^ 32).toNat)
      if i.md5.any (· != 0) && md5 xs != i.md5 then stop (0x0505, some bs) 0
      else { events := es.reverse, held := held out }
    else match fHeader i bs with
      | .error e => stop e 0
      | .ok ((block, cc), r) => match fSubframes block i.bits cc i.channels 0 [] r with
        | .error (e, c) => stop e (c * block)
        | .ok (ch, r) =>
          let r := r.drop (r.length % 8)
          let k := block * i.channels
          match fBits 16 r with
          | .error e => stop e k
          | .ok (crc, r') =>
            if crc ≠ crcMsb 16 0x8005 (fHeader.msbBytes bs r) then stop (0x0505, some r') k
            else flacFrames i size n r' (done + block) ((place r, .audioSamples k) :: es) ((interleave (fStereo cc ch)).reverse ++ out)

/-- The metadata blocks after STREAMINFO are skipped. -/
def flacMeta : Nat → List Byte → Except (Status × Bool) (List Byte)
  | 0, b => .ok b
  | n + 1, b =>
    if b.length < 4 then .error (0x0504, true)
    else
      let ty := leField b 0 1 % 128
      let len := beInt b 1 3
      if ty = 127 then .error (0x0501, false)
      else if b.length < 4 + len then .error (0x0504, true)
      else if leField b 0 1 / 128 = 1 then .ok (b.drop (4 + len)) else flacMeta n (b.drop (4 + len))

/-- A FLAC field (R203, R213). -/
def flacField (g : GraphField) (b : List Byte) : FieldDecode :=
  let stop (at_ : Nat) (st : Status) : FieldDecode := { events := [(at_, .fault st)], held := none }
  if b.take 4 ≠ [0x66, 0x4C, 0x61, 0x43] then
    if b.length < 4 ∧ b.isPrefixOf [0x66, 0x4C, 0x61, 0x43] then stop (b.length + 1) 0x0504 else stop (min 4 b.length) 0x0501
  else if b.length < 8 then stop (b.length + 1) 0x0504
  else if leField b 4 1 % 128 ≠ 0 ∨ beInt b 5 3 ≠ 34 then stop 8 0x0501
  else if b.length < 42 then stop (b.length + 1) 0x0504
  else
    let v := beInt b 18 8
    let i : FlacInfo := { rate := v / 2 ^ 44, channels := v / 2 ^ 41 % 8 + 1, bits := v / 2 ^ 36 % 32 + 1, total := v % 2 ^ 36,
                          md5 := slice b 26 16 }
    if i.bits > 24 ∨ (4 ≤ i.bits ∧ i.bits < 8) then stop 26 0x0502
    else if i.channels > min g.maxChannels 8 ∨ i.rate < 8000 ∨ i.rate > min g.maxRate 384000 ∨
        i.total > min g.maxSamples 2147483647 then stop 26 0x0503
    else if i.bits < 4 then stop 26 0x0501
    else match (if leField b 4 1 / 128 = 1 then .ok (b.drop 42) else flacMeta b.length (b.drop 42)) with
      | .error (st, cut) => stop (if cut then b.length + 1 else 46) st
      | .ok r => flacFrames i b.length (r.length + 1) (msbBitsOf r) 0 [] []

end Sys2Proof.Machine
end

