-- ==== Sys2Proof/Machine/DecodeJpeg.lean ====
section
/-! DEFINITION. JPEG fields (R203-R205, R207, R215, R685): markers, limits, and the entropy-coded scans of baseline, extended
and progressive frames, down to the quantised coefficients. The layouts and procedures are those of ITU-T T.81, which R205
names; statuses and the charge are the manual's. -/

namespace Sys2Proof.Machine

/-- Natural position of the zigzag index. -/
def zigzag : List Nat :=
  [0, 1, 8, 16, 9, 2, 3, 10, 17, 24, 32, 25, 18, 11, 4, 5, 12, 19, 26, 33, 40, 48, 41, 34, 27, 20, 13, 6, 7, 14, 21, 28,
   35, 42, 49, 56, 57, 50, 43, 36, 29, 22, 15, 23, 30, 37, 44, 51, 58, 59, 52, 45, 38, 31, 39, 46, 53, 60, 61, 54, 47, 55, 62, 63]

def zz (k : Nat) : Nat := zigzag.getD k 0

/-- A component of the frame: its factors, tables, and its blocks of coefficients in natural order. -/
structure JComp where
  id : Nat
  h : Nat
  v : Nat
  tq : Nat
  perLine : Nat := 0
  blocks : List (List Int) := []
  quant : Option (List Int) := none
  deriving DecidableEq, Repr

structure JFrame where
  w : Nat
  h : Nat
  prog : Bool
  comps : List JComp
  charged : Bool := false
  deriving DecidableEq, Repr

/-- What the markers have set. -/
structure JState where
  dqt : List (Nat × List Int) := []
  dc : List (Nat × Huff) := []
  ac : List (Nat × Huff) := []
  restart : Nat := 0
  adobe : Option Nat := none
  frame : Option JFrame := none
  deriving DecidableEq, Repr

/-- Why entropy decoding stops: the data of the segment ends, or a code or coefficient is not permitted, with the bits left. -/
inductive JStop where
  | short
  | bad (left : Nat)
  deriving DecidableEq, Repr

def jBits (n : Nat) (bs : List Bool) : Except JStop (Nat × List Bool) :=
  match msbBits n bs with
  | some r => .ok r
  | none => .error .short

def jWalk (syms : List Nat) : List Nat → Nat → Nat → Nat → List Bool → Except JStop (Nat × List Bool)
  | [], _, _, _, bs => .error (.bad bs.length)
  | _ :: _, _, _, _, [] => .error .short
  | c :: cs, code, first, index, b :: bs =>
    let code := code + bitOf b
    if code < first + c then .ok (syms.getD (index + (code - first)) 0, bs)
    else jWalk syms cs (2 * code) (2 * (first + c)) (index + c) bs

def jSym (h : Huff) (bs : List Bool) : Except JStop (Nat × List Bool) := jWalk h.syms h.counts 0 0 0 bs

/-- A value of category s. -/
def jValue (s : Nat) (bs : List Bool) : Except JStop (Int × List Bool) := do
  let (v, r) ← jBits s bs
  .ok (if s = 0 then 0 else if v < 2 ^ (s - 1) then (v : Int) - 2 ^ s + 1 else v, r)

/-- A DC difference. -/
def jDc (h : Huff) (bs : List Bool) : Except JStop (Int × List Bool) := do
  let (s, r) ← jSym h bs
  if s > 11 then .error (.bad r.length) else jValue s r

/-- The AC coefficients of a sequential block from zigzag index k. -/
def jAc (h : Huff) : Nat → Nat → List Int → List Bool → Except JStop (List Int × List Bool)
  | 0, _, b, bs => .ok (b, bs)
  | f + 1, k, b, bs =>
    if k > 63 then .ok (b, bs)
    else do
      let (rs, r) ← jSym h bs
      let run := rs / 16
      let s := rs % 16
      if s = 0 then
        if run = 0 then .ok (b, r)
        else if run = 15 then (if k + 15 > 63 then .error (.bad r.length) else jAc h f (k + 16) b r)
        else .error (.bad r.length)
      else if s > 10 ∨ k + run > 63 then .error (.bad r.length)
      else do
        let (v, r) ← jValue s r
        jAc h f (k + run + 1) (b.set (zz (k + run)) v) r

/-- A scan's settings (T.81 B.2.3). -/
structure JScan where
  ss : Nat
  se : Nat
  ah : Nat
  al : Nat
  prog : Bool
  deriving DecidableEq, Repr

/-- First AC scan of a progressive block: the block, the EOB run left. -/
def jAcFirst (p : JScan) (h : Huff) : Nat → Nat → List Int → List Bool → Except JStop (List Int × Nat × List Bool)
  | 0, _, b, bs => .ok (b, 0, bs)
  | f + 1, k, b, bs =>
    if k > p.se then .ok (b, 0, bs)
    else do
      let (rs, r) ← jSym h bs
      let run := rs / 16
      let s := rs % 16
      if s = 0 then
        if run = 15 then (if k + 15 > p.se then .error (.bad r.length) else jAcFirst p h f (k + 16) b r)
        else do
          let (x, r) ← jBits run r
          .ok (b, 2 ^ run + x - 1, r)
      else if s > 10 ∨ k + run > p.se then .error (.bad r.length)
      else do
        let (v, r) ← jValue s r
        jAcFirst p h f (k + run + 1) (b.set (zz (k + run)) (v * (2 : Int) ^ p.al)) r

/-- Corrections of the nonzero coefficients from k on, past `run` zero ones: the block and where it stops. -/
def jCorrect (p : JScan) : Nat → Nat → Nat → List Int → List Bool → Except JStop (List Int × Nat × List Bool)
  | 0, k, _, b, bs => .ok (b, k, bs)
  | f + 1, k, run, b, bs =>
    if k > p.se then .ok (b, k, bs)
    else
      let c := b.getD (zz k) 0
      if c ≠ 0 then do
        let (x, r) ← jBits 1 bs
        let one : Int := (2 : Int) ^ p.al
        let b := if x = 1 ∧ c.natAbs / 2 ^ p.al % 2 = 0 then b.set (zz k) (if c > 0 then c + one else c - one) else b
        jCorrect p f (k + 1) run b r
      else if run = 0 then .ok (b, k, bs)
      else jCorrect p f (k + 1) (run - 1) b bs

/-- A refinement AC scan of a block: the block, the EOB run left (the block itself included). -/
def jAcRefine (p : JScan) (h : Huff) : Nat → Nat → List Int → List Bool → Except JStop (List Int × Nat × Nat × List Bool)
  | 0, k, b, bs => .ok (b, k, 0, bs)
  | f + 1, k, b, bs =>
    if k > p.se then .ok (b, k, 0, bs)
    else do
      let (rs, r) ← jSym h bs
      let run := rs / 16
      let s := rs % 16
      if s = 0 ∧ run < 15 then do
        let (x, r) ← jBits run r
        .ok (b, k, 2 ^ run + x, r)
      else if s > 1 then .error (.bad r.length)
      else do
        let (sign, r) ← jBits s r
        let (b, k', r) ← jCorrect p 65 k run b r
        if s = 1 then
          if k' > p.se then .error (.bad r.length)
          else jAcRefine p h f (k' + 1) (b.set (zz k') (if sign = 1 then (2 : Int) ^ p.al else -(2 : Int) ^ p.al)) r
        else if k' > p.se then .error (.bad r.length)
        else jAcRefine p h f (k' + 1) b r

/-- What runs through an interval: the DC predictions, the EOB run, the components, the bits. -/
structure JRun where
  preds : List Int
  eob : Nat := 0
  comps : List JComp
  bits : List Bool
  deriving DecidableEq, Repr

/-- A block that a scan visits: component, block, and its tables. -/
structure JVisit where
  comp : Nat
  block : Nat
  dc : Huff
  ac : Huff
  deriving DecidableEq, Repr

def JRun.put (z : JRun) (v : JVisit) (b : List Int) : JRun :=
  { z with comps := z.comps.modify v.comp (fun c => { c with blocks := c.blocks.set v.block b }) }

def jBlock (p : JScan) (v : JVisit) (z : JRun) : Except JStop JRun := do
  let b := (z.comps[v.comp]?.map (fun c => c.blocks.getD v.block [])).getD []
  let pred := z.preds.getD v.comp 0
  if !p.prog then do
    let (d, r) ← jDc v.dc z.bits
    let (b, r) ← jAc v.ac 64 1 (b.set 0 (pred + d)) r
    .ok ({ z with preds := z.preds.set v.comp (pred + d), bits := r }.put v b)
  else if p.ss = 0 then
    if p.ah = 0 then do
      let (d, r) ← jDc v.dc z.bits
      .ok ({ z with preds := z.preds.set v.comp (pred + d), bits := r }.put v (b.set 0 ((pred + d) * (2 : Int) ^ p.al)))
    else do
      let (x, r) ← jBits 1 z.bits
      let c := b.getD 0 0
      .ok ({ z with bits := r }.put v (if x = 1 ∧ sar c p.al % 2 = 0 then b.set 0 (c + (2 : Int) ^ p.al) else b))
  else if p.ah = 0 then
    if z.eob ≠ 0 then .ok { z with eob := z.eob - 1 }
    else do
      let (b, eob, r) ← jAcFirst p v.ac 65 p.ss b z.bits
      .ok ({ z with eob := eob, bits := r }.put v b)
  else do
    let (b, k, eob, r) ← (if z.eob ≠ 0 then .ok (b, p.ss, z.eob, z.bits) else jAcRefine p v.ac 65 p.ss b z.bits)
    if eob = 0 then .ok ({ z with eob := 0, bits := r }.put v b)
    else do
      let (b, _, r) ← jCorrect p 65 k 64 b r
      .ok ({ z with eob := eob - 1, bits := r }.put v b)

def jMcus (p : JScan) : List (List JVisit) → JRun → Except JStop JRun
  | [], z => .ok z
  | m :: ms, z => do
    let z ← m.foldlM (fun z v => jBlock p v z) z
    jMcus p ms z

/-- The bytes of an entropy-coded segment without stuffing, newest first, and the data from its marker on. -/
def jSegment : Nat → List Byte → List Byte → List Byte × List Byte
  | 0, acc, b => (acc, b)
  | _ + 1, acc, [] => (acc, [])
  | f + 1, acc, x :: b =>
    if x ≠ 0xFF then jSegment f (x :: acc) b
    else match b with
      | [] => (acc, [])
      | y :: b' => if y = 0 then jSegment f (0xFF :: acc) b' else if y = 0xFF then jSegment f acc b else (acc, x :: b)

/-- The bytes of the data that hold the first n bytes of a segment. -/
def jRaw : Nat → List Byte → Nat
  | 0, _ => 0
  | _ + 1, [] => 0
  | n + 1, x :: b => if x = 0xFF then jRaw n (b.drop 1) + 2 else jRaw n b + 1

/-- A scan's intervals (T.81 E.2): the components after it and the data from the marker that ends it, or a fault with its
place. -/
def jIntervals (p : JScan) (restart size : Nat) : Nat → Nat → List (List JVisit) → List JComp → List Byte →
    Except (Nat × Status × List JComp) (List JComp × List Byte)
  | 0, _, _, comps, b => .ok (comps, b)
  | f + 1, i, mcus, comps, b =>
    let (acc, rest) := jSegment (b.length + 1) [] b
    let now := if restart = 0 then mcus else mcus.take restart
    let later := if restart = 0 then [] else mcus.drop restart
    let ends := leField rest 1 1
    let isRst := decide (0xD0 ≤ ends ∧ ends ≤ 0xD7) && !rest.isEmpty
    let atEnd := if rest.isEmpty then size + 1 else size - rest.length + 2
    match jMcus p now { preds := List.replicate comps.length 0, comps := comps, bits := msbBitsOf acc.reverse } with
    | .error (.bad left) => .error (size - b.length + jRaw (acc.length - left / 8) b, 0x0501, comps)
    | .error .short => .error (atEnd, if isRst then 0x0501 else 0x0504, comps)
    | .ok z =>
      if later.isEmpty then .ok (z.comps, rest)
      else if rest.isEmpty then .error (atEnd, 0x0504, z.comps)
      else if ends ≠ 0xD0 + i % 8 then .error (atEnd, 0x0501, z.comps)
      else jIntervals p restart size f (i + 1) later z.comps (rest.drop 2)

def ceilDiv (a b : Nat) : Nat := (a + b - 1) / b

/-- The blocks a scan visits, MCU by MCU (T.81 A.2). -/
def jVisits (fr : JFrame) (scan : List (Nat × Huff × Huff)) : List (List JVisit) :=
  let hm := (fr.comps.map (·.h)).foldl max 1
  let vm := (fr.comps.map (·.v)).foldl max 1
  match scan with
  | [(i, dc, ac)] => (match fr.comps[i]? with
    | none => []
    | some c =>
      let bw := ceilDiv (ceilDiv (fr.w * c.h) hm) 8
      let bh := ceilDiv (ceilDiv (fr.h * c.v) vm) 8
      (List.range (bw * bh)).map (fun k => [{ comp := i, block := k / bw * c.perLine + k % bw, dc := dc, ac := ac }]))
  | _ =>
    let mw := ceilDiv fr.w (8 * hm)
    let mh := ceilDiv fr.h (8 * vm)
    (List.range (mw * mh)).map (fun m => scan.flatMap (fun (i, dc, ac) => match fr.comps[i]? with
      | none => []
      | some c => (List.range (c.h * c.v)).map (fun k =>
          { comp := i, block := (m / mw * c.v + k / c.h) * c.perLine + m % mw * c.h + k % c.h, dc := dc, ac := ac })))

/-- A quantisation table segment. -/
def jDqt : Nat → List Byte → List (Nat × List Int) → Option (List (Nat × List Int))
  | 0, _, t => some t
  | f + 1, b, t =>
    match b with
    | [] => some t
    | x :: b =>
      let w := if x.toNat / 16 = 0 then 1 else 2
      if x.toNat / 16 > 1 ∨ x.toNat % 16 > 3 ∨ b.length < 64 * w then none
      else
        let q (k : Nat) : Int := beInt b (w * k) w
        jDqt f (b.drop (64 * w)) ((x.toNat % 16, (List.range 64).map (fun n => q ((zigzag.findIdx? (· == n)).getD 0))) :: t)

/-- A Huffman table segment: class and number, and the table; none where it over-subscribes. -/
def jDht : Nat → List Byte → List (Nat × Nat × Huff) → Option (List (Nat × Nat × Huff))
  | 0, _, t => some t
  | f + 1, b, t =>
    match b with
    | [] => some t
    | x :: b =>
      let counts := (b.take 16).map (·.toNat)
      let n := counts.sum
      let space := counts.foldl (fun (a : Int × Bool) (c : Nat) => (2 * a.1 - (c : Int), a.2 || decide (2 * a.1 < (c : Int)))) (1, false)
      if x.toNat / 16 > 1 ∨ x.toNat % 16 > 3 ∨ b.length < 16 + n ∨ n > 256 ∨ space.2 then none
      else jDht f (b.drop (16 + n)) ((x.toNat / 16, x.toNat % 16, { counts := counts, syms := ((b.drop 16).take n).map (·.toNat) }) :: t)

/-- A frame header (R203, R205), of baseline (`base`), extended or progressive frames; what is not supported stands before a
limit, and a limit before what T.81 forbids (R215). -/
def jSof (g : GraphField) (base prog : Bool) (d : List Byte) : Except Status JFrame :=
  let prec := leField d 0 1
  let h := beInt d 1 2
  let w := beInt d 3 2
  let n := leField d 5 1
  let comps : List JComp := (List.range n).map (fun i =>
    { id := leField d (6 + 3 * i) 1, h := leField d (7 + 3 * i) 1 / 16, v := leField d (7 + 3 * i) 1 % 16, tq := leField d (8 + 3 * i) 1 })
  let hm := (comps.map (·.h)).foldl max 1
  let vm := (comps.map (·.v)).foldl max 1
  let factorOk (x m : Nat) : Bool := decide (1 ≤ x ∧ x ≤ 4) && m % x == 0
  if d.length < 6 then .error 0x0501
  else if (prec = 12 ∧ !base) ∨ n = 2 ∨ n = 4 ∨ (4 < n ∧ !prog) ∨ h = 0 ∨
      (d.length = 6 + 3 * n ∧ !comps.all (fun c => factorOk c.h hm && factorOk c.v vm)) then .error 0x0502
  else if w < 1 ∨ w > min g.maxWidth 16384 ∨ h > min g.maxHeight 16384 ∨ w * h > min g.maxPixels 268435456 then .error 0x0503
  else if prec ≠ 8 ∨ (n ≠ 1 ∧ n ≠ 3) ∨ d.length ≠ 6 + 3 * n ∨ comps.any (fun c => decide (c.tq > 3)) ∨
      ¬(comps.map (·.id)).Nodup then .error 0x0501
  else
    let mw := ceilDiv w (8 * hm)
    let mh := ceilDiv h (8 * vm)
    .ok { w := w, h := h, prog := prog, comps := comps.map (fun c => { c with
      perLine := mw * c.h, blocks := List.replicate (mw * c.h * (mh * c.v)) (List.replicate 64 0) }) }

/-- A scan header: its settings and its components with their tables. -/
def jSos (s : JState) (fr : JFrame) (d : List Byte) : Option (JScan × List (Nat × Huff × Huff)) :=
  let n := leField d 0 1
  let p : JScan := { ss := leField d (1 + 2 * n) 1, se := leField d (2 + 2 * n) 1, ah := leField d (3 + 2 * n) 1 / 16,
                     al := leField d (3 + 2 * n) 1 % 16, prog := fr.prog }
  let none_ : Huff := { counts := [], syms := [] }
  let pick (i : Nat) : Option (Nat × Huff × Huff) := do
    let k ← fr.comps.findIdx? (fun c => c.id == leField d (1 + 2 * i) 1)
    let t := leField d (2 + 2 * i) 1
    let needDc := !p.prog || (p.ss == 0 && p.ah == 0)
    let needAc := !p.prog || p.ss != 0
    let dc ← if needDc then s.dc.lookup (t / 16) else some none_
    let ac ← if needAc then s.ac.lookup (t % 16) else some none_
    let c ← fr.comps[k]?
    let _ ← c.quant.orElse (fun _ => s.dqt.lookup c.tq)
    some (k, dc, ac)
  let cs := (List.range n).map pick
  let ok := decide (1 ≤ n ∧ n ≤ 3) && d.length == 4 + 2 * n && cs.all Option.isSome && (cs.filterMap (fun c => c.map (·.1))).Nodup &&
    (if p.prog then
      decide (p.al ≤ 13) && (p.ah == 0 || p.ah == p.al + 1) &&
        (if p.ss = 0 then p.se == 0 else n == 1 && decide (p.ss ≤ p.se ∧ p.se ≤ 63))
     else p.ss == 0 && p.se == 63 && p.ah == 0 && p.al == 0)
  if ok then some (p, cs.filterMap id) else none

def jHeld (s : JState) : Option Decoded :=
  s.frame.map (fun fr => .jpeg fr.w fr.h (s.adobe != some 0) (fr.comps.map (fun c =>
    { h := c.h, v := c.v, blocksPerLine := c.perLine, quant := c.quant.getD [], blocks := c.blocks })))

/-- The markers of a field from `b` on; `es` are its events, newest first. -/
def jMarkers (g : GraphField) (size : Nat) : Nat → List Byte → JState → List (Nat × DecodeEvent) → FieldDecode
  | 0, _, s, es => { events := es.reverse, held := jHeld s }
  | f + 1, b, s, es =>
    let pos := size - b.length
    let stop (at_ : Nat) (st : Status) (es : List (Nat × DecodeEvent)) : FieldDecode :=
      { events := es.reverse ++ [(at_, .fault st)], held := jHeld s }
    match b with
    | [] => stop (size + 1) 0x0504 es
    | x :: b1 =>
      if x ≠ 0xFF then stop (pos + 1) 0x0501 es
      else match b1 with
        | [] => stop (size + 1) 0x0504 es
        | m :: b2 =>
          let m := m.toNat
          if m = 0xFF then jMarkers g size f b1 s es
          else if m = 0 ∨ m = 1 ∨ (0xD0 ≤ m ∧ m ≤ 0xD8) then stop (pos + 2) 0x0501 es
          else if m = 0xD9 then
            match s.frame with
            | none => stop (pos + 2) 0x0501 es
            | some fr => if fr.comps.all (fun c => c.quant.isSome) then { events := es.reverse, held := jHeld s } else stop (pos + 2) 0x0504 es
          else
            let es := match s.frame with
              | some fr => if m = 0xDA ∧ !fr.charged then (pos + 2, DecodeEvent.jpegFrame (fr.w * fr.h)) :: es else es
              | none => es
            let s := { s with frame := s.frame.map (fun fr => if m = 0xDA then { fr with charged := true } else fr) }
            if (0xC3 ≤ m ∧ m ≤ 0xCF ∧ m ≠ 0xC4 ∧ m ≠ 0xC8) ∨ m = 0xDC ∨ m = 0xDE ∨ m = 0xDF then stop (pos + 2) 0x0502 es
            else if b2.length < 2 then stop (size + 1) 0x0504 es
            else
              let len := beInt b2 0 2
              let d := (b2.drop 2).take (len - 2)
              let next := b2.drop len
              if len < 2 then stop (pos + 4) 0x0501 es
              else if b2.length < len then stop (size + 1) 0x0504 es
              else
                let end_ := pos + 2 + len
                if m = 0xDB then
                  match jDqt (d.length + 1) d s.dqt with
                  | some t => jMarkers g size f next { s with dqt := t } es
                  | none => stop end_ 0x0501 es
                else if m = 0xC4 then
                  match jDht (d.length + 1) d [] with
                  | some t => jMarkers g size f next { s with
                      dc := (t.filter (·.1 == 0)).map (·.2) ++ s.dc, ac := (t.filter (·.1 == 1)).map (·.2) ++ s.ac } es
                  | none => stop end_ 0x0501 es
                else if m = 0xDD then
                  if len ≠ 4 then stop end_ 0x0501 es else jMarkers g size f next { s with restart := beInt d 0 2 } es
                else if 0xC0 ≤ m ∧ m ≤ 0xC2 then
                  if s.frame.isSome then stop end_ 0x0501 es
                  else match jSof g (m == 0xC0) (m == 0xC2) d with
                    | .error st => stop end_ st es
                    | .ok fr => jMarkers g size f next { s with frame := some fr } es
                else if m = 0xEE then
                  let adobe := decide (12 ≤ d.length) && d.take 5 == [0x41, 0x64, 0x6F, 0x62, 0x65]
                  jMarkers g size f next (if adobe then { s with adobe := some (leField d 11 1) } else s) es
                else if (0xE0 ≤ m ∧ m ≤ 0xEF) ∨ m = 0xFE then jMarkers g size f next s es
                else if m = 0xDA then
                  match s.frame with
                  | none => stop (pos + 2) 0x0501 es
                  | some fr => match jSos s fr d with
                    | none => stop end_ 0x0501 es
                    | some (p, cs) =>
                      let comps := fr.comps.zipIdx.map (fun (c, k) =>
                        if cs.any (fun x => x.1 == k) then { c with quant := c.quant.orElse (fun _ => s.dqt.lookup c.tq) } else c)
                      match jIntervals p s.restart size (next.length + 1) 0 (jVisits fr cs) comps next with
                      | .error (at_, st, comps) =>
                        { events := es.reverse ++ [(at_, .fault st)], held := jHeld { s with frame := some { fr with comps := comps } } }
                      | .ok (comps, rest) => jMarkers g size f rest { s with frame := some { fr with comps := comps } } es
                else stop (pos + 2) 0x0501 es

/-- A JPEG field (R205). -/
def jpegField (g : GraphField) (b : List Byte) : FieldDecode :=
  if b.take 2 ≠ [0xFF, 0xD8] then
    { events := [if b.length < 2 ∧ b.isPrefixOf [0xFF, 0xD8] then (b.length + 1, .fault 0x0504) else (min 2 b.length, .fault 0x0501)],
      held := none }
  else jMarkers g b.length (b.length + 1) (b.drop 2) {} []

end Sys2Proof.Machine
end

