-- ==== Sys2Proof/Machine/DecodeVideo.lean ====
section
/-! DEFINITION. The video units (R203, R210-R212): the Annex B byte stream, the first sequence parameter set with the limits
and features it declares, and the pictures. What the two standards make of slice data is `Config.videoEvents` and
`Config.videoOutput`. -/

namespace Sys2Proof.Machine

/-- The NAL units of an Annex B stream from `pos` on, each with the place of its end: `zeros` counts the zero bytes just read,
`cur` is the unit under way, newest byte first. -/
def nalUnits : List Byte → Nat → Nat → Option (List Byte) → List (Nat × List Byte)
  | [], pos, _, cur => (cur.map (fun u => (pos, u.reverse))).toList
  | x :: xs, pos, zeros, cur =>
    if x = 1 ∧ 2 ≤ zeros then
      (cur.map (fun u => (pos - zeros, (u.dropWhile (· == 0)).reverse))).toList ++ nalUnits xs (pos + 1) 0 (some [])
    else nalUnits xs (pos + 1) (if x = 0 then zeros + 1 else 0) (cur.map (x :: ·))

/-- A NAL unit's payload without its emulation prevention bytes. -/
def nalPayload : List Byte → Nat → List Byte
  | [], _ => []
  | x :: xs, zeros => if x = 3 ∧ 2 ≤ zeros then nalPayload xs 0 else x :: nalPayload xs (if x = 0 then zeros + 1 else 0)

/-- An unsigned Exp-Golomb code. -/
def expGolomb (bs : List Bool) : Option (Nat × List Bool) :=
  let z := (bs.takeWhile (!·)).length
  (msbBits z (bs.drop (z + 1))).bind (fun r => if bs.length ≤ z then none else some (2 ^ z - 1 + r.1, r.2))

/-- Several of them, which nothing is read of. -/
def skipGolombs : Nat → List Bool → Option (List Bool)
  | 0, bs => some bs
  | n + 1, bs => (expGolomb bs).bind (fun r => skipGolombs n r.2)

/-- A signed Exp-Golomb code. -/
def signedGolomb (bs : List Bool) : Option (Int × List Bool) :=
  (expGolomb bs).map (fun r => (if r.1 % 2 = 1 then (r.1 / 2 + 1 : Int) else -(r.1 / 2 : Int), r.2))

/-- An H.264 scaling list of n entries. -/
def scalingList : Nat → Int → Int → List Bool → Option (List Bool)
  | 0, _, _, bs => some bs
  | n + 1, last, next, bs =>
    if next = 0 then scalingList n last next bs
    else (signedGolomb bs).bind (fun r =>
      let nx := (last + r.1 + 256) % 256
      scalingList n (if nx = 0 then last else nx) nx r.2)

def scalingLists : Nat → Nat → List Bool → Option (List Bool)
  | 0, _, bs => some bs
  | n + 1, i, bs => (msbBits 1 bs).bind (fun r =>
      if r.1 = 0 then scalingLists n (i + 1) r.2
      else (scalingList (if i < 6 then 16 else 64) 8 8 r.2).bind (scalingLists n (i + 1)))

/-- A sequence parameter set: the coded and the output size, the sample depth, 4:0:0, and whether it declares a feature
outside R210 or a value beyond R203. -/
structure VideoHead where
  codedW : Nat
  codedH : Nat
  w : Nat
  h : Nat
  depth : Nat
  mono : Bool
  unsupported : Bool
  beyond : Bool
  deriving DecidableEq, Repr

/-- An H.264 sequence parameter set (R203, R210). -/
def h264Head (g : GraphField) (b : List Byte) : Option VideoHead := do
  let (profile, r) ← msbBits 8 (msbBitsOf b)
  let (flags, r) ← msbBits 8 r
  let (level, r) ← msbBits 8 r
  let (_, r) ← expGolomb r
  let high := [100, 110, 122, 244, 44, 83, 86, 118, 128, 138, 139, 134, 135].contains profile
  let (chroma, deep, r) ← (if high then do
      let (chroma, r) ← expGolomb r
      let (_, r) ← msbBits (if chroma = 3 then 1 else 0) r
      let (dl, r) ← expGolomb r
      let (dc, r) ← expGolomb r
      let (_, r) ← msbBits 1 r
      let (m, r) ← msbBits 1 r
      let r ← (if m = 1 then scalingLists (if chroma = 3 then 12 else 8) 0 r else some r)
      some (chroma, dl != 0 || dc != 0, r)
    else some (1, false, r))
  let (_, r) ← expGolomb r
  let (poc, r) ← expGolomb r
  let r ← (if poc = 0 then skipGolombs 1 r
    else if poc = 1 then do
      let (_, r) ← msbBits 1 r
      let r ← skipGolombs 2 r
      let (n, r) ← expGolomb r
      skipGolombs (min n 255) r
    else some r)
  let r ← skipGolombs 1 r
  let (_, r) ← msbBits 1 r
  let (wm, r) ← expGolomb r
  let (hm, r) ← expGolomb r
  let (frame, r) ← msbBits 1 r
  let (_, r) ← msbBits (if frame = 1 then 1 else 2) r
  let (crop, r) ← msbBits 1 r
  let (cl, cr, ct, cb) ← (if crop = 1 then do
      let (cl, r) ← expGolomb r
      let (cr, r) ← expGolomb r
      let (ct, r) ← expGolomb r
      let (cb, _) ← expGolomb r
      some (cl, cr, ct, cb)
    else some (0, 0, 0, 0))
  let mbW := wm + 1
  let mbH := (2 - frame) * (hm + 1)
  let unit := if chroma = 0 then 1 else 2
  some {
    codedW := 16 * mbW, codedH := 16 * mbH, w := 16 * mbW - unit * (cl + cr), h := 16 * mbH - unit * (ct + cb), depth := 8,
    mono := chroma == 0,
    unsupported := !([66, 77, 100].contains profile || flags.testBit 6) || decide (chroma > 1) || deep || frame == 0,
    beyond := decide (level > min g.maxH264Level 52) || decide (mbW * mbH > min g.maxH264Mbs 36864) ||
      decide (mbW > min g.maxH264Side 543) || decide (mbH > min g.maxH264Side 543) }

/-- The sub-layer part of a profile_tier_level structure of HEVC, whose presence flags are given. -/
def skipSubLayers : List (Nat × Nat) → List Bool → Option (List Bool)
  | [], bs => some bs
  | (p, l) :: fs, bs => (msbBits ((if p = 1 then 88 else 0) + (if l = 1 then 8 else 0)) bs).bind (fun r => skipSubLayers fs r.2)

/-- An HEVC sequence parameter set (R203, R210). -/
def hevcHead (g : GraphField) (b : List Byte) : Option VideoHead := do
  let (_, r) ← msbBits 4 (msbBitsOf b)
  let (sub, r) ← msbBits 3 r
  let (_, r) ← msbBits 4 r
  let (profile, r) ← msbBits 5 r
  let (compat, r) ← msbBits 32 r
  let (_, r) ← msbBits 48 r
  let (level, r) ← msbBits 8 r
  let (present, r) ← msbBits (if sub = 0 then 0 else 16) r
  let layers := (List.range sub).map (fun i => (present / 2 ^ (15 - 2 * i) % 2, present / 2 ^ (14 - 2 * i) % 2))
  let r ← skipSubLayers layers r
  let (_, r) ← expGolomb r
  let (chroma, r) ← expGolomb r
  let (_, r) ← msbBits (if chroma = 3 then 1 else 0) r
  let (w, r) ← expGolomb r
  let (h, r) ← expGolomb r
  let (window, r) ← msbBits 1 r
  let ((cl, cr, ct, cb), r) ← (if window = 1 then do
      let (cl, r) ← expGolomb r
      let (cr, r) ← expGolomb r
      let (ct, r) ← expGolomb r
      let (cb, r) ← expGolomb r
      some ((cl, cr, ct, cb), r)
    else some ((0, 0, 0, 0), r))
  let (dl, r) ← expGolomb r
  let (dc, _) ← expGolomb r
  let unit := if chroma = 0 then 1 else 2
  some {
    codedW := w, codedH := h, w := w - unit * (cl + cr), h := h - unit * (ct + cb), depth := 8 + dl, mono := chroma == 0,
    unsupported := !([1, 2, 3].contains profile || [1, 2, 3].any (fun i => compat / 2 ^ (31 - i) % 2 == 1)) ||
      decide (chroma > 1) || !(dl == 0 || dl == 2) || (chroma == 1 && dc != dl),
    beyond := decide (level > min g.maxHevcLevel 153) || decide (w * h > min g.maxHevcLuma 8912896) ||
      decide (w > min g.maxHevcSide 8444) || decide (h > min g.maxHevcSide 8444) }

/-- The first sequence parameter set of a stream with the place of its end; none when it breaks the syntax (R203). -/
def firstSps (g : GraphField) (hevc : Bool) (b : List Byte) : Option (Nat × Option VideoHead) :=
  let isSps (u : Nat × List Byte) : Bool :=
    let x := (u.2.headD 0).toNat
    if hevc then x / 2 % 64 == 33 else x % 32 == 7
  ((nalUnits b 0 0 none).find? isSps).map (fun u =>
    (u.1, if hevc then hevcHead g (nalPayload (u.2.drop 2) 0) else h264Head g (nalPayload (u.2.drop 1) 0)))

/-- What a parameter set ends the field with (R215). -/
def spsFault : Option VideoHead → Option Status
  | none => some 0x0501
  | some v =>
    if v.unsupported then some 0x0502
    else if v.beyond then some 0x0503
    else if v.w = 0 ∨ v.h = 0 then some 0x0501 else none

/-- Samples of an output picture (R212). -/
def VideoHead.samples (v : VideoHead) : Nat := v.w * v.h + (if v.mono then 0 else 2 * (v.w / 2 * (v.h / 2)))

/-- Events up to the n-th picture. -/
def uptoPicture : Nat → List (Nat × DecodeEvent) → List (Nat × DecodeEvent)
  | _, [] => []
  | 0, _ => []
  | n + 1, e :: es => match e.2 with
    | .picture _ => e :: uptoPicture n es
    | _ => e :: uptoPicture (n + 1) es

/-- The pictures of a field beyond the limit of R203. -/
def limitPictures (most : Nat) (es : List (Nat × DecodeEvent)) : List (Nat × DecodeEvent) :=
  (es.foldl (fun (a : List (Nat × DecodeEvent) × Nat × Bool) e =>
    if a.2.2 then a
    else match e.2 with
      | .picture _ => if a.2.1 ≥ most then ((e.1, .fault 0x0503) :: a.1, a.2.1, true) else (e :: a.1, a.2.1 + 1, false)
      | .fault _ => (e :: a.1, a.2.1, true)
      | _ => (e :: a.1, a.2.1, false)) ([], 0, false)).1.reverse

/-- A video field (R203, R210-R212) that follows the NAL data `before`; decoding stops once picture `last` is output. -/
def videoField (g : GraphField) (hevc : Bool) (before b : List Byte) (last : Option Nat) : FieldDecode :=
  if !(b.take 3 == [0, 0, 1] || b.take 4 == [0, 0, 0, 1]) then { events := [(min 4 b.length, .fault 0x0501)], held := none }
  else
    let sps := firstSps g hevc (before ++ b)
    let at_ := match sps with | some (p, _) => p - before.length | none => b.length + 1
    let head : VideoHead := (sps.bind (·.2)).getD {
      codedW := 0, codedH := 0, w := 0, h := 0, depth := 8, mono := true, unsupported := false, beyond := false }
    let bad : List (Nat × DecodeEvent) := ((sps.bind (fun x => spsFault x.2)).map (fun st => (at_, DecodeEvent.fault st))).toList
    let slice_ (e : Nat × Nat) : Nat × DecodeEvent := (e.1, match e.2 with
      | 0 => if e.1 < at_ then .fault 0x0501 else .picture (head.codedW * head.codedH)
      | 1 => .fault 0x0502
      | 2 => .fault 0x0501
      | _ => .fault 0x0506)
    let es := limitPictures (min g.maxPictures 65536) (sortEvents (bad ++ (Config.videoEvents hevc before b).map slice_))
    let out := Config.videoOutput hevc before b
    let es := match last.bind (fun i => out[i]?) with
      | some (n, _) => uptoPicture n es
      | none => es
    { events := es,
      held := some (.video head.w head.h head.depth head.mono (out.map (fun p =>
        (List.range head.samples).map (fun i => p.2.getD i 0 % 2 ^ head.depth)))) }

end Sys2Proof.Machine
end

