-- ==== Sys2Proof/Machine/JournalFormat.lean ====
section
/-! DEFINITION. Journal entries and pages as the NAND holds them: little-endian bytes (R13, R137, R138). -/

namespace Sys2Proof.Machine

/-- The fields of a journal entry: TYPE, namespace, COUNT, LMU and PMA. -/
structure JFields where
  type : Nat
  ns : Nat := 0
  count : Nat := 0
  lmu : Nat := 0
  pma : Nat := 0
  deriving DecidableEq, Repr

/-- A journal entry's fields (R138). SANITIZE_PROGRESS packs its action above the target-major index of its target. -/
def JEntry.fields : JEntry → JFields
  | .map ns lmu count pma => { type := 1, ns := ns, count := count, lmu := lmu, pma := pma }
  | .discard ns lmu count => { type := 2, ns := ns, count := count, lmu := lmu, pma := 0xFFFFFFFFFF }
  | .gcMove ns lmu pma => { type := 3, ns := ns, count := 1, lmu := lmu, pma := pma }
  | .blockRelease b => { type := 4, pma := b }
  | .blockRetire b => { type := 5, pma := b }
  | .bandOpen id parity => { type := 6, lmu := id, pma := parity }
  | .bandVerified id => { type := 7, lmu := id }
  | .nsCreate ns cap base => { type := 8, ns := ns, lmu := cap, pma := base }
  | .nsDelete ns => { type := 9, ns := ns }
  | .nsSeal ns => { type := 10, ns := ns }
  | .nsUnseal ns => { type := 11, ns := ns }
  | .sanitizeProgress action target => { type := 12, lmu := action * 2 ^ 32 + target }
  | .checkpointDone seq dir => { type := 13, lmu := seq, pma := dir }

/-- The entry that some fields stand for; none where R138 names no such type. -/
def JFields.entry (f : JFields) : Option JEntry :=
  match f.type with
  | 1 => some (.map f.ns f.lmu f.count f.pma)
  | 2 => some (.discard f.ns f.lmu f.count)
  | 3 => some (.gcMove f.ns f.lmu f.pma)
  | 4 => some (.blockRelease f.pma)
  | 5 => some (.blockRetire f.pma)
  | 6 => some (.bandOpen f.lmu f.pma)
  | 7 => some (.bandVerified f.lmu)
  | 8 => some (.nsCreate f.ns f.lmu f.pma)
  | 9 => some (.nsDelete f.ns)
  | 10 => some (.nsSeal f.ns)
  | 11 => some (.nsUnseal f.ns)
  | 12 => some (.sanitizeProgress (f.lmu / 2 ^ 32) (f.lmu % 2 ^ 32))
  | 13 => some (.checkpointDone f.lmu f.pma)
  | _ => none

/-- NS as it is stored: namespace ID − 1, and 0 in the types that name no namespace. -/
def nsCode (type ns : Nat) : Nat := if type ≤ 3 ∨ 8 ≤ type ∧ type ≤ 11 then ns - 1 else 0

/-- The 16 bytes of an entry (R138). -/
def JEntry.bytes (e : JEntry) : List Byte :=
  let f := e.fields
  leBytes 1 f.type ++ leBytes 1 (nsCode f.type f.ns) ++ leBytes 2 f.count ++ leBytes 5 f.lmu ++ leBytes 5 f.pma ++ leBytes 2 0

/-- Reads an entry's bytes. -/
def parseEntry (b : List Byte) : Option JEntry :=
  let t := leField b 0 1
  JFields.entry {
    type := t, ns := if t ≤ 3 ∨ 8 ≤ t ∧ t ≤ 11 then leField b 1 1 + 1 else 0, count := leField b 2 2,
    lmu := leField b 4 5, pma := leField b 9 5 }

/-- Every field of an entry fits its place in R138. -/
def JEntry.fits (e : JEntry) : Bool :=
  let f := e.fields
  decide (f.count < 2 ^ 16) && decide (f.lmu < 2 ^ 40) && decide (f.pma < 2 ^ 40) &&
    (match e with
      | .map ns _ _ _ | .discard ns _ _ | .gcMove ns _ _ | .nsCreate ns _ _ | .nsDelete ns | .nsSeal ns | .nsUnseal ns =>
        decide (1 ≤ ns ∧ ns ≤ 256)
      | .sanitizeProgress _ t => decide (t < 2 ^ 32)
      | _ => true)

/-- The 16 KiB of a journal page (R137): the CRC is over the page with its own field taken as 0. -/
def JPage.bytes (p : JPage) : List Byte :=
  let head := leBytes 4 0x4A524E4C ++ leBytes 2 1 ++ leBytes 2 p.entries.length ++ leBytes 8 p.seq ++ leBytes 8 p.evt ++
    leBytes 8 p.ckpt ++ List.replicate 0x1C 0
  let body := slice (p.entries.flatMap JEntry.bytes) 0 (16384 - 0x40)
  head ++ leBytes 4 (crc32c (head ++ leBytes 4 0 ++ body)) ++ body

/-- `n` entries from a page's bytes; none when one of them is no entry. -/
def parseEntries : Nat → List Byte → Option (List JEntry)
  | 0, _ => some []
  | n + 1, b => match parseEntry (b.take 16), parseEntries n (b.drop 16) with
    | some e, some es => some (e :: es)
    | _, _ => none

/-- Reads a journal page's bytes: none when its MAGIC, VERSION, ENTRIES or CRC is wrong (R137, R143). -/
def parsePage (b : List Byte) : Option JPage :=
  let n := leField b 6 2
  let head := slice b 0 0x3C
  let ok := leField b 0 4 == 0x4A524E4C && leField b 4 2 == 1 && decide (1 ≤ n ∧ n ≤ 1020) &&
    leField b 0x3C 4 == crc32c (head ++ leBytes 4 0 ++ slice b 0x40 (16384 - 0x40))
  if ok then
    (parseEntries n (b.drop 0x40)).map (fun es => { seq := leField b 8 8, evt := leField b 0x10 8, ckpt := leField b 0x18 8, entries := es })
  else none

/-- What the NAND holds of one copy of a journal page (R136). -/
def MediaKept.pageBytes (k : MediaKept) (seq : Nat) : Option (List Byte) := (k.journal.find? (fun p => p.seq == seq)).map JPage.bytes

end Sys2Proof.Machine
end

