-- ==== Sys2Proof/Machine/Cipher.lean ====
section
/-! DEFINITION. The media cipher engine: AES-256 (FIPS 197) and XTS (IEEE 1619) over 4 KiB data units (R558). -/

namespace Sys2Proof.Machine

/-- Doubling in the field of AES. -/
def aesDouble (a : Byte) : Byte := if a.getLsbD 7 then (a <<< 1) ^^^ 0x1B else a <<< 1

/-- The product of the low `n` bits of b and a in the field of AES. -/
def aesMulBits : Nat → Byte → Byte → Byte
  | 0, _, _ => 0
  | n + 1, a, b => (if b.getLsbD 0 then a else 0) ^^^ aesMulBits n (aesDouble a) (b >>> 1)

def aesMul (a b : Byte) : Byte := aesMulBits 8 a b

def aesSquare (a : Byte) : Byte := aesMul a a

/-- The inverse of a byte, its 254th power; 0 gives 0. -/
def aesInverse (a : Byte) : Byte :=
  let a2 := aesSquare a
  let a4 := aesSquare a2
  let a8 := aesSquare a4
  let a16 := aesSquare a8
  let a32 := aesSquare a16
  let a64 := aesSquare a32
  aesMul (aesMul (aesMul a2 a4) (aesMul a8 a16)) (aesMul (aesMul a32 a64) (aesSquare a64))

def rotlByte (a : Byte) (n : Nat) : Byte := (a <<< n) ||| (a >>> (8 - n))

/-- The S-box and its inverse. -/
def aesSub (a : Byte) : Byte :=
  let b := aesInverse a
  b ^^^ rotlByte b 1 ^^^ rotlByte b 2 ^^^ rotlByte b 3 ^^^ rotlByte b 4 ^^^ 0x63

def aesUnsub (b : Byte) : Byte := aesInverse (rotlByte b 1 ^^^ rotlByte b 3 ^^^ rotlByte b 6 ^^^ 0x05)

/-- ShiftRows by `k` columns a row: 1 forwards, 3 backwards. The state is a list of 16 bytes, column by column. -/
def aesShift (k : Nat) (s : List Byte) : List Byte :=
  (List.range 16).map (fun i => s.getD ((i + 4 * k * (i % 4)) % 16) 0)

/-- One byte of a mixed column: the column's bytes times the row of the matrix that starts with `m`, turned by `r`. -/
def aesMixByte (m : List Byte) (col : List Byte) (r : Nat) : Byte :=
  (List.range 4).foldl (fun a c => a ^^^ aesMul (m.getD ((c + 4 - r) % 4) 0) (col.getD c 0)) 0

/-- MixColumns with the circulant matrix whose first row is `m`. -/
def aesMix (m : List Byte) (s : List Byte) : List Byte :=
  (List.range 16).map (fun i => aesMixByte m ((s.drop (i / 4 * 4)).take 4) (i % 4))

def aesMixRow : List Byte := [0x02, 0x03, 0x01, 0x01]

def aesUnmixRow : List Byte := [0x0E, 0x0B, 0x0D, 0x09]

/-- The bitwise difference of two byte strings. -/
def xorBytes (a b : List Byte) : List Byte := List.zipWith (· ^^^ ·) a b

/-- The key schedule: `n` words after those of `ws`, newest first; `i` is the number of the next word. -/
def aesWords : Nat → Nat → Byte → List (List Byte) → List (List Byte)
  | 0, _, _, ws => ws
  | n + 1, i, rcon, ws =>
    let t := ws.headD []
    let old := ws.getD 7 []
    if i % 8 = 0 then
      let g := xorBytes (((t.drop 1) ++ t.take 1).map aesSub) [rcon, 0, 0, 0]
      aesWords n (i + 1) (aesDouble rcon) (xorBytes old g :: ws)
    else if i % 8 = 4 then aesWords n (i + 1) rcon (xorBytes old (t.map aesSub) :: ws)
    else aesWords n (i + 1) rcon (xorBytes old t :: ws)

/-- The 15 round keys of a 32-byte key. -/
def aesRoundKeys (key : List Byte) : List (List Byte) :=
  let ws := (aesWords 52 8 1 (((List.range 8).map (fun i => (key.drop (4 * i)).take 4)).reverse)).reverse
  (List.range 15).map (fun r => ((ws.drop (4 * r)).take 4).flatten)

/-- One round of encryption, and of decryption, between the first key and the last round. -/
def aesRound (k s : List Byte) : List Byte := xorBytes (aesMix aesMixRow (aesShift 1 (s.map aesSub))) k

def aesUnround (k s : List Byte) : List Byte := (aesShift 3 (aesMix aesUnmixRow (xorBytes s k))).map aesUnsub

/-- AES-256 on a block of 16 bytes. -/
def aesEncrypt (rk : List (List Byte)) (b : List Byte) : List Byte :=
  let s := ((rk.drop 1).take 13).foldl (fun s k => aesRound k s) (xorBytes b (rk.headD []))
  xorBytes (aesShift 1 (s.map aesSub)) (rk.getD 14 [])

def aesDecrypt (rk : List (List Byte)) (b : List Byte) : List Byte :=
  let s := (aesShift 3 (xorBytes b (rk.getD 14 []))).map aesUnsub
  xorBytes (((rk.drop 1).take 13).reverse.foldl (fun s k => aesUnround k s) s) (rk.headD [])

/-- The next tweak of XTS: multiplication by α in GF(2^128), the bytes least significant first. -/
def xtsNext (t : BitVec 128) : BitVec 128 := if t.getLsbD 127 then (t <<< 1) ^^^ 0x87 else t <<< 1

/-- XTS over whole 16-byte blocks: `f` is AES under key 1 in one direction, `t` the tweak of the first block. -/
def xtsBlocks (f : List Byte → List Byte) (t : BitVec 128) : Nat → List Byte → List Byte
  | 0, _ => []
  | n + 1, d =>
    let m := leBytes 16 t.toNat
    xorBytes (f (xorBytes (d.take 16) m)) m ++ xtsBlocks f (xtsNext t) n (d.drop 16)

/-- AES-256-XTS of one data unit of `n` blocks under a tweak value, taken as a 128-bit little-endian value (R551, R558). -/
def xtsData (enc : Bool) (key : BitVec 512) (tweak n : Nat) (d : List Byte) : List Byte :=
  let rk1 := aesRoundKeys (leBytes 32 (key.toNat % 2 ^ 256))
  let rk2 := aesRoundKeys (leBytes 32 (key.toNat / 2 ^ 256))
  let t := BitVec.ofNat 128 (leNat (aesEncrypt rk2 (leBytes 16 tweak)))
  xtsBlocks (if enc then aesEncrypt rk1 else aesDecrypt rk1) t n d

/-- AES-256-XTS of one 4 KiB data unit (R558): the tweak is the LBA. -/
def xtsDataUnit (enc : Bool) (key : BitVec 512) (lba : Nat) (d : List Byte) : List Byte := xtsData enc key lba 256 d

/-- A map unit under a numbered namespace key: its four data units, LBA by LBA. -/
def xtsUnit (enc : Bool) (key unit : Nat) (d : List Byte) : List Byte :=
  (List.range 4).flatMap (fun i => xtsDataUnit enc (Config.nsKey key) (unit * 4 + i) ((d.drop (4096 * i)).take 4096))

end Sys2Proof.Machine
end

