-- ==== Sys2Proof/Machine/Memory.lean ====
section
/-! DEFINITION. Operations on a sparse byte memory; every one keeps the canonical form. -/

namespace Sys2Proof.Machine

/-- The byte at an address; an unlisted address reads 0. -/
def memGet : Memory → Nat → Byte
  | [], _ => 0
  | (a, b) :: rest, k => if k = a then b else memGet rest k

/-- Writes one byte; writing 0 removes the entry. -/
def memSet : Memory → Nat → Byte → Memory
  | [], k, v => if v = 0 then [] else [(k, v)]
  | (a, b) :: rest, k, v =>
    if k < a then (if v = 0 then (a, b) :: rest else (k, v) :: (a, b) :: rest)
    else if k = a then (if v = 0 then rest else (k, v) :: rest)
    else (a, b) :: memSet rest k v

/-- `n` bytes from an address. -/
def memRead (m : Memory) (addr : Nat) : Nat → List Byte
  | 0 => []
  | n + 1 => memGet m addr :: memRead m (addr + 1) n

/-- Writes a byte string at an address, lowest address first. -/
def memWrite (m : Memory) (addr : Nat) : List Byte → Memory
  | [] => m
  | b :: bs => memWrite (memSet m addr b) (addr + 1) bs

/-- Zeroes every byte of [lo, hi). -/
def memZero (m : Memory) (lo hi : Nat) : Memory := m.filter (fun c => decide (c.1 < lo) || decide (hi ≤ c.1))

/-- The canonical form: addresses strictly rising from `lo`, no byte 0 listed. -/
def memWfFrom : Nat → Memory → Bool
  | _, [] => true
  | lo, (a, b) :: rest => decide (lo ≤ a) && (b != 0) && memWfFrom (a + 1) rest

/-- The canonical form of a memory. -/
def Memory.wf (m : Memory) : Bool := memWfFrom 0 m

end Sys2Proof.Machine
end

