-- ==== Sys2Proof/Machine/MediaMap.lean ====
section
/-! DEFINITION. The logical map: what a journal entry does to it, and the bytes a namespace holds (R121-R138). -/

namespace Sys2Proof.Machine

/-- Sorted association lists of numbers, for the logical map: an absent key is UNMAPPED (R124). -/
def natGet : List (Nat × Nat) → Nat → Option Nat
  | [], _ => none
  | (a, b) :: rest, k => if k = a then some b else natGet rest k

def natSet : List (Nat × Nat) → Nat → Nat → List (Nat × Nat)
  | [], k, v => [(k, v)]
  | (a, b) :: rest, k, v =>
    if k < a then (k, v) :: (a, b) :: rest
    else if k = a then (k, v) :: rest
    else (a, b) :: natSet rest k v

/-- The key of map unit `u` of namespace `ns`. -/
def mapKey (ns u : Nat) : Nat := ns * 2 ^ 40 + u

/-- `count` consecutive units mapped to consecutive places (R138 MAP). -/
def mapRun (m : List (Nat × Nat)) (ns lmu pma : Nat) : Nat → List (Nat × Nat)
  | 0 => m
  | n + 1 => natSet (mapRun m ns lmu pma n) (mapKey ns (lmu + n)) (pma + n)

def insertNs (l : List NsInfo) (x : NsInfo) : List NsInfo :=
  (l.filter (fun y => decide (y.id < x.id))) ++ [x] ++ l.filter (fun y => decide (y.id > x.id))

/-- Drops a block from every band's data blocks. -/
def dropBlock (bands : List Band) (b : Nat) : List Band :=
  bands.map (fun x => { x with blocks := x.blocks.filter (· != b) })

/-- Applies a journal entry to the image (R138); an entry sets state to a stated value. `held` are the bands whose blocks stand in
their parity blocks. -/
def applyJ (held : List Band) (i : MediaImage) : JEntry → MediaImage
  | .map ns lmu count pma => { i with map := mapRun i.map ns lmu pma count }
  | .discard ns lmu count =>
    { i with map := i.map.filter (fun e => decide (e.1 < mapKey ns lmu) || decide (mapKey ns (lmu + count) ≤ e.1)) }
  | .gcMove ns lmu pma => { i with map := natSet i.map (mapKey ns lmu) pma }
  | .blockRelease b =>
    { i with bands := dropBlock i.bands b, released := i.released.filter (· != b) ++ [b] }
  | .blockRetire b => { i with bands := dropBlock i.bands b, released := i.released.filter (· != b) }
  | .bandOpen id parity =>
    let blocks := ((held.find? (fun x => x.id == id)).map (·.blocks)).getD []
    { i with bands := (i.bands.filter (fun x => x.id != id)) ++ [{ id := id, blocks := blocks, parity := parity }],
             released := i.released.filter (fun b => !blocks.contains b && b != parity) }
  | .bandVerified id =>
    { i with bands := i.bands.map (fun x => if x.id == id then { x with state := .verified } else x) }
  | .nsCreate ns cap base => { i with ns := insertNs i.ns { id := ns, cap := cap, base := base } }
  | .nsDelete ns =>
    { i with ns := i.ns.filter (fun x => x.id != ns),
             map := i.map.filter (fun e => e.1 / 2 ^ 40 != ns) }
  | .nsSeal ns => { i with ns := i.ns.map (fun x => if x.id == ns then { x with isSealed := true } else x) }
  | .nsUnseal ns => { i with ns := i.ns.map (fun x => if x.id == ns then { x with isSealed := false } else x) }
  | .sanitizeProgress _ _ => i
  | .checkpointDone _ _ => i

/-- The namespace with an ID. -/
def State.nsInfo (s : State) (ns : Nat) : Option NsInfo := s.media.image.ns.find? (fun x => x.id == ns)

/-- Where a map unit lies; none is UNMAPPED. -/
def State.pmaOf (s : State) (ns u : Nat) : Option Nat := natGet s.media.image.map (mapKey ns u)

/-- Units of one block over all its planes. -/
def NandGeometry.blockUnits (g : NandGeometry) : Nat := g.planes * g.pagesPerBlock

/-- The block that holds a unit, named by its first unit (R124). -/
def NandGeometry.blockOf (g : NandGeometry) (pma : Nat) : Nat :=
  pma / 2 ^ 30 * 2 ^ 30 + pma % 2 ^ 30 / g.blockUnits * g.blockUnits

def State.blockOf (s : State) (pma : Nat) : Nat := s.media.geometry.blockOf pma

/-- Channel and target of a place (R124). -/
def pmaTarget (pma : Nat) : Nat × Nat := (pma / 2 ^ 34, pma / 2 ^ 30 % 16)

/-- The mapped units that lie in a block: key and place. -/
def State.unitsIn (s : State) (block : Nat) : List (Nat × Nat) :=
  s.media.image.map.filter (fun e => s.blockOf e.2 == block)

/-- The map unit that maps to a place. -/
def State.unitAt (s : State) (pma : Nat) : Option (Nat × Nat) :=
  (s.media.image.map.find? (fun e => e.2 == pma)).map (fun e => (e.1 / 2 ^ 40, e.1 % 2 ^ 40))

/-- Association lists of numbers with values, keys rising. -/
def infoSet {α : Type} : List (Nat × α) → Nat → α → List (Nat × α)
  | [], k, v => [(k, v)]
  | (a, b) :: rest, k, v =>
    if k < a then (k, v) :: (a, b) :: rest
    else if k = a then (k, v) :: rest
    else (a, b) :: infoSet rest k v

/-- The codeword metadata of the unit at a place (R115). -/
def State.infoAt (s : State) (pma : Nat) : Option UnitMeta :=
  (s.nand.info.find? (fun x => x.1 == pma)).map (·.2)

/-- The number of the key that the cipher engine holds for a namespace; 0 is a cleared key register (R559). -/
def State.engineKey (s : State) (ns : Nat) : Nat :=
  ((s.media.engineKeys.find? (fun x => x.1 == ns)).map (·.2)).getD 0

/-- The cipher engine holds the key that the unit at a place was encrypted under (R558, R559). -/
def State.keyOk (s : State) (pma : Nat) : Bool :=
  match s.infoAt pma with
  | none => true
  | some m => s.engineKey m.ns == m.key

/-- What decryption of the unit at a place gives (R558): what was written where the key is the one it was written under, else
the ciphertext under the old key decrypted with the engine's. -/
def State.unitAtPlace (s : State) (pma : Nat) : List Byte :=
  let d := memRead s.nand.store (pma * 16384) 16384
  match s.infoAt pma with
  | none => d
  | some m =>
    let k := s.engineKey m.ns
    if k == m.key then d else xtsUnit false k m.unit (xtsUnit true m.key m.unit d)

/-- What the NAND itself holds of the data of the unit at a place: its ciphertext (R551, R558). -/
def State.cipherAt (s : State) (pma : Nat) : List Byte :=
  let d := memRead s.nand.store (pma * 16384) 16384
  match s.infoAt pma with
  | none => d
  | some m => xtsUnit true m.key m.unit d

/-- The 32 metadata bytes of codeword `i` of a unit, which are not encrypted (R115, R558): namespace, unit, index, journal sequence,
and the CRC-32C over the plain data and the metadata before it. -/
def codewordInfo (m : UnitMeta) (i : Nat) (data : List Byte) : List Byte :=
  let h := leBytes 2 m.ns ++ leBytes 5 m.unit ++ leBytes 1 i ++ leBytes 8 m.jseq ++ List.replicate 12 0
  h ++ leBytes 4 (crc32c (data ++ h))

/-- The CRC-32C that stands in the metadata of codeword `i` of the unit at a place. -/
def State.codewordCrc (s : State) (pma i : Nat) : Nat :=
  leField (codewordInfo ((s.infoAt pma).getD { ns := 0, unit := 0, jseq := 0, key := 0 }) i
    (memRead s.nand.store (pma * 16384 + i * 4096) 4096)) 28 4

/-- The 16 KiB a map unit holds; an unmapped unit reads zeros (R124). -/
def State.unitBytes (s : State) (ns u : Nat) : List Byte :=
  match s.pmaOf ns u with
  | some p => s.unitAtPlace p
  | none => List.replicate 16384 0

/-- A 4 KiB block of a unit cannot be read (R119): every tier has failed on its codeword, or its key is gone, so that no CRC
matches (R117). -/
def State.blockBad (s : State) (pma i : Nat) : Bool := s.nand.badBlocks.contains (pma * 4 + i) || !s.keyOk pma

/-- Every block of a unit can be read. -/
def State.unitGood (s : State) (pma : Nat) : Bool := (List.range 4).all (fun i => !s.blockBad pma i)

/-- Where the map entries of a namespace's unit stand: their index in the map region (R124, R138). -/
def NsInfo.entry (x : NsInfo) (u : Nat) : Nat := x.base + u

/-- The 40-bit entry at an index of the map region: 0xFF_FFFF_FFFF where the unit is UNMAPPED (R124). -/
def State.mapEntry (s : State) (e : Nat) : Nat :=
  match s.media.image.ns.find? (fun x => decide (x.base ≤ e ∧ e < x.base + x.cap)) with
  | some x => (s.pmaOf x.id (e - x.base)).getD (2 ^ 40 - 1)
  | none => 2 ^ 40 - 1

/-- A byte of bulk memory: in the map region, which starts at `mapStart`, that of a 5-byte little-endian map entry (R123, R124). -/
def State.bulkByte (s : State) (a : Nat) : Byte :=
  if s.media.mapLoaded && decide (s.media.mapStart ≤ a) then
    (leBytes 5 (s.mapEntry ((a - s.media.mapStart) / 5))).getD ((a - s.media.mapStart) % 5) 0
  else memGet s.bulkMem a

/-- Reads bulk memory by offset, the map region with the entries it holds. -/
def State.bulkRead (s : State) (a : Nat) : Nat → List Byte
  | 0 => []
  | n + 1 => s.bulkByte a :: s.bulkRead (a + 1) n

/-- Multiplication by the generator 0x02 in GF(2^8) with the polynomial 0x11D (R531). -/
def gfDouble (a : Byte) : Byte := if a.getLsbD 7 then (a <<< 1) ^^^ 0x1D else a <<< 1

/-- The product of the low `n` bits of b and a in GF(2^8) (R531). -/
def gfMulBits : Nat → Byte → Byte → Byte
  | 0, _, _ => 0
  | n + 1, a, b => (if b.getLsbD 0 then a else 0) ^^^ gfMulBits n (gfDouble a) (b >>> 1)

def gfMul (a b : Byte) : Byte := gfMulBits 8 a b

/-- a to the power n in GF(2^8). -/
def gfPow (a : Byte) : Nat → Byte
  | 0 => 1
  | n + 1 => gfMul a (gfPow a n)

/-- The inverse of a non-zero byte: its 254th power. -/
def gfInv (a : Byte) : Byte := gfPow a 254

/-- g to the power k (R531). -/
def gfGen (k : Nat) : Byte := gfPow 2 k

def scaleBytes (c : Byte) (a : List Byte) : List Byte := a.map (gfMul c)

/-- The xor of some shares, of `n` bytes each. -/
def xorAll (n : Nat) (l : List (List Byte)) : List Byte := l.foldl xorBytes (List.replicate n 0)

/-- P of the data shares of a stripe (R531). -/
def parityP (n : Nat) (d : List (List Byte)) : List Byte := xorAll n d

/-- Q of data shares given with their indexes (R531). -/
def parityQ (n : Nat) (d : List (Nat × List Byte)) : List Byte := xorAll n (d.map (fun x => scaleBytes (gfGen x.1) x.2))

/-- Recovers data share x of a stripe (R531) from its surviving data shares, with their indexes, and from P and Q where they
survive. `lost` names the lost data shares. More than two lost shares of the stripe give none. -/
def recoverShare (n : Nat) (data : List (Nat × List Byte)) (p q : Option (List Byte)) (lost : List Nat) (x : Nat) :
    Option (List Byte) :=
  let p' := p.map (fun v => xorBytes v (xorAll n (data.map (·.2))))
  let q' := q.map (fun v => xorBytes v (parityQ n data))
  match lost, p', q' with
  | [_], some a, _ => some a
  | [_], none, some b => some (scaleBytes (gfInv (gfGen x)) b)
  | [u, v], some a, some b =>
    let du := scaleBytes (gfInv (gfGen u ^^^ gfGen v)) (xorBytes b (scaleBytes (gfGen v) a))
    if x = u then some du else some (xorBytes a du)
  | _, _, _ => none

/-- G, the positions of the group, and W, the stripe width (R521, R530, R548). -/
def State.groupG (s : State) : Nat := max (s.regFld grpBase 1 7) 1

def State.groupW (s : State) : Nat := min s.groupG 16

/-- A namespace that belongs to the stripe group (R529). -/
def State.groupNs (s : State) (nsid : Nat) : Option GroupNs := s.group.namespaces.find? (fun g => g.nsid == nsid)

def State.memberNs (s : State) (nsid : Nat) : Bool := s.group.namespaces.any (fun g => g.nsid == nsid)

/-- The namespace as its users see it: a group namespace holds S stripes of W - 2 units (R529, R530). -/
def State.nsSeen (s : State) (ns : Nat) : Option NsInfo :=
  (s.nsInfo ns).map (fun x => match s.groupNs ns with
    | some g => { x with cap := g.stripes * (s.groupW - 2) }
    | none => x)

/-- The position of share j of a stripe, and its local map unit there (R530). -/
def State.sharePos (s : State) (stripe j : Nat) : Nat := (stripe + j) % s.groupG

def State.shareUnit (s : State) (stripe j : Nat) : Nat := stripe / s.groupG * s.groupW + j

/-- The stripe and the share of a group map unit (R530). -/
def State.unitStripe (s : State) (u : Nat) : Nat := u / (s.groupW - 2)

def State.unitShare (s : State) (u : Nat) : Nat := u % (s.groupW - 2)

/-- Where a share of another member stands in `remoteShares`. -/
def shareKey (ns stripe j : Nat) : Nat := ns * 2 ^ 64 + (stripe * 16 + j) * 16384

/-- A share's bytes: on this device a prepared share whose COMMIT is known, or the member namespace's unit; else what the
other member holds. -/
def State.shareBytes (s : State) (ns stripe j : Nat) : List Byte :=
  if s.sharePos stripe j = s.group.self then
    match s.group.prepared.reverse.find? (fun p => p.decided && p.nsid == ns && p.stripe == stripe && p.share == j) with
    | some p => p.data
    | none => s.unitBytes ns (s.shareUnit stripe j)
  else memRead s.group.remoteShares (shareKey ns stripe j) 16384

/-- A bring-in of a position has passed a stripe of a namespace (R536, R537). -/
def State.rebuiltPast (s : State) (pos ns stripe : Nat) : Bool :=
  let i := s.group.namespaces.findIdx (fun g => g.nsid == ns)
  s.group.rebuilds.any (fun (r : Rebuild) => decide (r.pos = pos) && (decide (i < r.nsIndex) || (decide (i = r.nsIndex) && decide (stripe < r.next))))

/-- A share can be read where it is held (R119, R532). -/
def State.shareUp (s : State) (ns stripe j : Nat) : Bool :=
  let x := s.sharePos stripe j
  let st := s.group.states.getD x 0
  (decide (st = 1) || (decide (st = 2) && s.rebuiltPast x ns stripe)) &&
    (decide (x ≠ s.group.self) || (match s.pmaOf ns (s.shareUnit stripe j) with
      | some p => s.unitGood p
      | none => true))

/-- The shares of a stripe that cannot be read. -/
def State.sharesDown (s : State) (ns stripe : Nat) : List Nat :=
  (List.range s.groupW).filter (fun j => !s.shareUp ns stripe j)

/-- A data share decoded from the surviving shares of its stripe (R531, R532). -/
def State.decodeShare (s : State) (ns stripe j : Nat) : Option (List Byte) :=
  let w := s.groupW
  let down := s.sharesDown ns stripe
  let data := ((List.range (w - 2)).filter (fun k => !down.contains k)).map (fun k => (k, s.shareBytes ns stripe k))
  let p := if down.contains (w - 2) then none else some (s.shareBytes ns stripe (w - 2))
  let q := if down.contains (w - 1) then none else some (s.shareBytes ns stripe (w - 1))
  if down.length > 2 then none else recoverShare 16384 data p q (down.filter (fun k => decide (k < w - 2))) j

/-- A map unit of a namespace as its users see it: a group unit comes from the position that holds its data share, or is
reconstructed (R530, R532). -/
def State.unitSeen (s : State) (ns u : Nat) : List Byte :=
  if s.memberNs ns then
    let st := s.unitStripe u
    let j := s.unitShare u
    if s.shareUp ns st j then s.shareBytes ns st j else (s.decodeShare ns st j).getD (List.replicate 16384 0)
  else s.unitBytes ns u

/-- Group units of a byte range that can only be had by reconstruction (R532). -/
def State.reconstructs (s : State) (ns addr len : Nat) : Nat :=
  if s.memberNs ns then
    ((List.range ((addr + len + 16383) / 16384 - addr / 16384)).filter (fun i =>
      let u := addr / 16384 + i
      !s.shareUp ns (s.unitStripe u) (s.unitShare u))).length
  else 0

/-- A run of bytes of a namespace can be read: no 4 KiB block of it is known bad (R119), and of a group namespace no unit
lies in a stripe with more than two shares down while its own is (R532, R546). -/
def State.nsReadable (s : State) (ns addr len : Nat) : Bool :=
  (List.range ((addr + len + 4095) / 4096 - addr / 4096)).all (fun i =>
    let b := addr / 4096 + i
    let u := b / 4
    if s.memberNs ns then
      s.shareUp ns (s.unitStripe u) (s.unitShare u) || decide ((s.sharesDown ns (s.unitStripe u)).length ≤ 2)
    else match s.pmaOf ns u with
      | some p => !s.blockBad p (b % 4)
      | none => true)

/-- The place of a namespace's map unit on this device: for a group unit, its share's, where this position holds it. -/
def State.pmaSeen (s : State) (ns u : Nat) : Option Nat :=
  if s.memberNs ns then
    if s.sharePos (s.unitStripe u) (s.unitShare u) = s.group.self then
      s.pmaOf ns (s.shareUnit (s.unitStripe u) (s.unitShare u))
    else none
  else s.pmaOf ns u

/-- `count` logical blocks of a namespace from an LBA. -/
def State.blocksBytes (s : State) (ns lba : Nat) : Nat → List Byte
  | 0 => []
  | n + 1 => slice (s.unitSeen ns (lba / 4)) (lba % 4 * 4096) 4096 ++ s.blocksBytes ns (lba + 1) n

/-- `len` bytes of a namespace from a byte address. -/
def State.nsBytes (s : State) (ns addr len : Nat) : List Byte :=
  slice (s.blocksBytes ns (addr / 4096) ((addr % 4096 + len + 4095) / 4096)) (addr % 4096) len

/-- `n` units of the member namespace itself, from a unit. -/
def State.localUnits (s : State) (ns u : Nat) : Nat → List Byte
  | 0 => []
  | n + 1 => s.unitBytes ns u ++ s.localUnits ns (u + 1) n

/-- `len` bytes of the shares this member holds, from a byte address of the member namespace (R532). -/
def State.memberBytes (s : State) (ns addr len : Nat) : List Byte :=
  slice (s.localUnits ns (addr / 16384) ((addr % 16384 + len + 16383) / 16384)) (addr % 16384) len

/-- A statistics counter of the health log rises by `n` (R161). Counters 9 to 14 and 16 to 23 are 32 bits wide. -/
def State.healthBump (s : State) (i n : Nat) : State :=
  let w := if (9 ≤ i ∧ i ≤ 14) ∨ 16 ≤ i then 32 else 64
  let v := min (s.media.health.ctr.getD i 0 + n) (2 ^ w - 1)
  let h := { s.media.health with ctr := modAt s.media.health.ctr i (fun _ => v), evt := s.evt.next - 1 }
  let ovf := if v = 2 ^ w - 1 then setBit s.media.healthOvf i true else s.media.healthOvf
  { s with media := { s.media with health := h, healthOvf := ovf } }

/-- Reconstructed group units are counted in GROUP_RECONSTRUCT and GRP_RECONSTRUCTS (R532). -/
def State.countReconstructs (s : State) (ns addr len : Nat) : State :=
  let n := s.reconstructs ns addr len
  if n = 0 then s else (s.healthBump 7 n).bumpBy (grpBase + 0x30) (grpBase + 0x3C) 0 n

end Sys2Proof.Machine
end

