-- ==== Sys2Proof/Machine/Seal.lean ====
section
/-! DEFINITION. The net-die cipher engine: AES-256-GCM over Gnoz packets (R484), and the window keys that the saggar derives by
the KDF of R552 from HMAC-SHA-384 (R560). -/

namespace Sys2Proof.Machine

/-- SHA-384's round constants (FIPS 180-4). -/
def shaConsts0 : List Nat :=
  [0x428a2f98d728ae22, 0x7137449123ef65cd, 0xb5c0fbcfec4d3b2f, 0xe9b5dba58189dbbc,
   0x3956c25bf348b538, 0x59f111f1b605d019, 0x923f82a4af194f9b, 0xab1c5ed5da6d8118,
   0xd807aa98a3030242, 0x12835b0145706fbe, 0x243185be4ee4b28c, 0x550c7dc3d5ffb4e2,
   0x72be5d74f27b896f, 0x80deb1fe3b1696b1, 0x9bdc06a725c71235, 0xc19bf174cf692694,
   0xe49b69c19ef14ad2, 0xefbe4786384f25e3, 0x0fc19dc68b8cd5b5, 0x240ca1cc77ac9c65,
   0x2de92c6f592b0275, 0x4a7484aa6ea6e483, 0x5cb0a9dcbd41fbd4, 0x76f988da831153b5,
   0x983e5152ee66dfab, 0xa831c66d2db43210, 0xb00327c898fb213f, 0xbf597fc7beef0ee4,
   0xc6e00bf33da88fc2, 0xd5a79147930aa725, 0x06ca6351e003826f, 0x142929670a0e6e70,
   0x27b70a8546d22ffc, 0x2e1b21385c26c926, 0x4d2c6dfc5ac42aed, 0x53380d139d95b3df,
   0x650a73548baf63de, 0x766a0abb3c77b2a8, 0x81c2c92e47edaee6, 0x92722c851482353b]

def shaConsts1 : List Nat :=
  [0xa2bfe8a14cf10364, 0xa81a664bbc423001, 0xc24b8b70d0f89791, 0xc76c51a30654be30,
   0xd192e819d6ef5218, 0xd69906245565a910, 0xf40e35855771202a, 0x106aa07032bbd1b8,
   0x19a4c116b8d2d0c8, 0x1e376c085141ab53, 0x2748774cdf8eeb99, 0x34b0bcb5e19b48a8,
   0x391c0cb3c5c95a63, 0x4ed8aa4ae3418acb, 0x5b9cca4f7763e373, 0x682e6ff3d6b2b8a3,
   0x748f82ee5defb2fc, 0x78a5636f43172f60, 0x84c87814a1f0ab72, 0x8cc702081a6439ec,
   0x90befffa23631e28, 0xa4506cebde82bde9, 0xbef9a3f7b2c67915, 0xc67178f2e372532b,
   0xca273eceea26619c, 0xd186b8c721c0c207, 0xeada7dd6cde0eb1e, 0xf57d4f7fee6ed178,
   0x06f067aa72176fba, 0x0a637dc5a2c898a6, 0x113f9804bef90dae, 0x1b710b35131c471b,
   0x28db77f523047d84, 0x32caab7b40c72493, 0x3c9ebe0a15c9bebc, 0x431d67c49c100d4c,
   0x4cc5d4becb3e42b6, 0x597f299cfc657e2a, 0x5fcb6fab3ad6faec, 0x6c44198c4a475817]

/-- SHA-384's first state. -/
def shaInit : List (BitVec 64) :=
  [0xcbbb9d5dc1059ed8, 0x629a292a367cd507, 0x9159015a3070dd17, 0x152fecd8f70e5939,
   0x67332667ffc00b31, 0x8eb44a8768581511, 0xdb0c2e0d64f98fa7, 0x47b5481dbefa4fa4]

/-- The next word of the message schedule; the words before it are newest first. -/
def shaSchedule : Nat → List (BitVec 64) → List (BitVec 64)
  | 0, ws => ws
  | n + 1, ws =>
    let a := ws.getD 14 0
    let b := ws.getD 1 0
    let s0 := a.rotateRight 1 ^^^ a.rotateRight 8 ^^^ (a >>> 7)
    let s1 := b.rotateRight 19 ^^^ b.rotateRight 61 ^^^ (b >>> 6)
    shaSchedule n ((ws.getD 15 0 + s0 + ws.getD 6 0 + s1) :: ws)

/-- One round with its constant and word. -/
def shaRound (v : List (BitVec 64)) (kw : BitVec 64) : List (BitVec 64) :=
  let a := v.getD 0 0
  let b := v.getD 1 0
  let c := v.getD 2 0
  let e := v.getD 4 0
  let t1 := v.getD 7 0 + (e.rotateRight 14 ^^^ e.rotateRight 18 ^^^ e.rotateRight 41) +
    ((e &&& v.getD 5 0) ^^^ (~~~e &&& v.getD 6 0)) + kw
  let t2 := (a.rotateRight 28 ^^^ a.rotateRight 34 ^^^ a.rotateRight 39) + ((a &&& b) ^^^ (a &&& c) ^^^ (b &&& c))
  [t1 + t2, a, b, c, v.getD 3 0 + t1, e, v.getD 5 0, v.getD 6 0]

def shaBlock (v : List (BitVec 64)) (b : List Byte) : List (BitVec 64) :=
  let ws := (List.range 16).map (fun i => BitVec.ofNat 64 (leNat (((b.drop (8 * i)).take 8).reverse)))
  let w := (shaSchedule 64 ws.reverse).reverse
  let ks := (shaConsts0 ++ shaConsts1).map (BitVec.ofNat 64)
  List.zipWith (· + ·) v ((List.zipWith (· + ·) ks w).foldl shaRound v)

def shaBlocks : Nat → List Byte → List (BitVec 64) → List (BitVec 64)
  | 0, _, v => v
  | n + 1, b, v => shaBlocks n (b.drop 128) (shaBlock v b)

/-- SHA-384 of a byte string. -/
def sha384 (b : List Byte) : List Byte :=
  let n := b.length
  let p := b ++ [0x80] ++ List.replicate ((239 - n % 128) % 128) 0 ++ (leBytes 16 (8 * n)).reverse
  (((shaBlocks (p.length / 128) p shaInit).take 6)).flatMap (fun x => (leBytes 8 x.toNat).reverse)

/-- HMAC-SHA-384 under a key of at most 128 bytes. -/
def hmac384 (key b : List Byte) : List Byte :=
  let pad (x : Byte) : List Byte := (List.range 128).map (fun i => key.getD i 0 ^^^ x)
  sha384 (pad 0x5C ++ sha384 (pad 0x36 ++ b))

/-- KDF of R552, of `bits` bits. -/
def kdf (key label context : List Byte) (bits : Nat) : List Byte :=
  (hmac384 key (leBytes 4 1 ++ label ++ [0] ++ context ++ leBytes 4 bits)).take (bits / 8)

/-- A label of R552: its ASCII codes. -/
def label (s : String) : List Byte := s.toList.map (fun c => BitVec.ofNat 8 c.toNat)

/-- The window key of a sender's packets in window w under a pair key (R552, R560). -/
def windowKey (pair : BitVec 256) (sender w : Nat) : List Byte :=
  kdf (leBytes 32 pair.toNat) (label "gnoz-window") (leBytes 4 sender ++ leBytes 8 w) 256

/-- A product in GF(2^128) as GCM takes it, over the bits of x from the first on; v is y times the power reached. -/
def gcmMulBits (x : BitVec 128) : Nat → BitVec 128 → BitVec 128 → BitVec 128
  | 0, _, z => z
  | n + 1, v, z =>
    gcmMulBits x n (if v.getLsbD 0 then (v >>> 1) ^^^ (0xE1#128 <<< 120) else v >>> 1) (if x.getLsbD n then z ^^^ v else z)

def gcmMul (x y : BitVec 128) : BitVec 128 := gcmMulBits x 128 y 0

/-- 16 bytes as a block, the first byte uppermost. -/
def gcmBlock (b : List Byte) : BitVec 128 := BitVec.ofNat 128 (leNat ((b ++ List.replicate (16 - b.length) 0).take 16).reverse)

/-- GHASH from a value over n blocks. -/
def ghash (h : BitVec 128) : Nat → List Byte → BitVec 128 → BitVec 128
  | 0, _, y => y
  | n + 1, b, y => ghash h n (b.drop 16) (gcmMul (y ^^^ gcmBlock (b.take 16)) h)

/-- Counter mode from a counter on. -/
def gcmCtr (rk : List (List Byte)) (nonce : List Byte) : Nat → Nat → List Byte → List Byte
  | 0, _, _ => []
  | n + 1, c, b => xorBytes (b.take 16) (aesEncrypt rk (nonce ++ (leBytes 4 c).reverse)) ++ gcmCtr rk nonce n (c + 1) (b.drop 16)

/-- The text of AES-256-GCM the other way: its encryption and its decryption. -/
def gcmText (key nonce text : List Byte) : List Byte := gcmCtr (aesRoundKeys key) nonce ((text.length + 15) / 16) 2 text

/-- The tag of AES-256-GCM over additional data and a ciphertext. -/
def gcmTag (key nonce aad text : List Byte) : List Byte :=
  let rk := aesRoundKeys key
  let h := gcmBlock (aesEncrypt rk (List.replicate 16 0))
  let y := ghash h ((aad.length + 15) / 16) aad 0
  let y := ghash h ((text.length + 15) / 16) text y
  let y := gcmMul (y ^^^ BitVec.ofNat 128 (8 * aad.length * 2 ^ 64 + 8 * text.length)) h
  xorBytes ((leBytes 16 y.toNat).reverse) (aesEncrypt rk (nonce ++ [0, 0, 0, 1]))

end Sys2Proof.Machine
end

