-- ==== Sys2Proof/Machine/Curve.lean ====
section
/-! DEFINITION. The curve P-384 with ECDSA and ECDH, and the signatures and key numbers that rest on them (R339, R340, R552,
R554). -/

namespace Sys2Proof.Machine

/-- P-384 (FIPS 186): the field, the order of the group, the coefficient b, and the base point. -/
def p384 : Nat := 0xfffffffffffffffffffffffffffffffffffffffffffffffffffffffffffffffeffffffff0000000000000000ffffffff

def n384 : Nat := 0xffffffffffffffffffffffffffffffffffffffffffffffffc7634d81f4372ddf581a0db248b0a77aecec196accc52973

def b384 : Nat := 0xb3312fa7e23ee7e4988e056be3f82d19181d9c6efe8141120314088f5013875ac656398d8a2ed19d2a85c8edd3ec2aef

/-- A point in Jacobian coordinates; z = 0 is the identity. -/
structure Jac where
  x : Nat
  y : Nat
  z : Nat
  deriving DecidableEq, Repr

def base384 : Jac :=
  ⟨0xaa87ca22be8b05378eb1c71ef320ad746e1d3b628ba79b9859f741e082542a385502f25dbf55296c3a545e3872760ab7,
   0x3617de4a96262c6f5d9e98bf9292dc29f8f41dbd289a147ce9da3113b5f0b8c00a60b1ce1d7e819d7a431d7c90ea0e5f, 1⟩

/-- A power modulo m; the exponent has at most `k` bits. -/
def powMod (m : Nat) : Nat → Nat → Nat → Nat → Nat
  | 0, _, _, acc => acc
  | k + 1, e, b, acc => powMod m k (e / 2) (b * b % m) (if e % 2 = 1 then acc * b % m else acc)

/-- The inverse modulo a prime of at most 384 bits. -/
def invMod (m a : Nat) : Nat := powMod m 384 (m - 2) (a % m) 1

def Jac.double (a : Jac) : Jac :=
  if a.z = 0 ∨ a.y = 0 then ⟨1, 1, 0⟩
  else
    let p := p384
    let d := a.z * a.z % p
    let g := a.y * a.y % p
    let b := a.x * g % p
    let al := 3 * (a.x + (p - d)) * (a.x + d) % p
    let x := (al * al + 8 * (p - b)) % p
    let y := (al * (4 * b + (p - x)) + 8 * (p - g * g % p)) % p
    ⟨x, y, 2 * a.y * a.z % p⟩

def Jac.add (a b : Jac) : Jac :=
  if a.z = 0 then b
  else if b.z = 0 then a
  else
    let p := p384
    let z1 := a.z * a.z % p
    let z2 := b.z * b.z % p
    let u1 := a.x * z2 % p
    let u2 := b.x * z1 % p
    let s1 := a.y * (z2 * b.z % p) % p
    let s2 := b.y * (z1 * a.z % p) % p
    if u1 = u2 then (if s1 = s2 then a.double else ⟨1, 1, 0⟩)
    else
      let h := (u2 + (p - u1)) % p
      let r := (s2 + (p - s1)) % p
      let hh := h * h % p
      let hhh := h * hh % p
      let v := u1 * hh % p
      let x := (r * r + (p - hhh) + 2 * (p - v)) % p
      ⟨x, (r * (v + (p - x)) + s1 * (p - hhh)) % p, h * a.z % p * b.z % p⟩

/-- k × q over the lower bits of k. -/
def Jac.mulFrom (k : Nat) (q : Jac) : Nat → Jac → Jac
  | 0, acc => acc
  | i + 1, acc =>
    let acc := acc.double
    Jac.mulFrom k q i (if k / 2 ^ i % 2 = 1 then acc.add q else acc)

def Jac.mul (k : Nat) (q : Jac) : Jac := Jac.mulFrom k q 384 ⟨1, 1, 0⟩

/-- A point's coordinates; none for the identity. -/
def Jac.affine (a : Jac) : Option (Nat × Nat) :=
  if a.z = 0 then none
  else
    let i := invMod p384 a.z
    let i2 := i * i % p384
    some (a.x * i2 % p384, a.y * (i2 * i % p384) % p384)

/-- A big-endian number. -/
def beNat (b : List Byte) : Nat := leNat b.reverse

/-- The point of a 97-byte uncompressed encoding (R554); none when it does not lie on the curve. -/
def pointOf (b : List Byte) : Option Jac :=
  let x := beNat (slice b 1 48)
  let y := beNat (slice b 49 48)
  if b.length = 97 ∧ b.headD 0 = 0x04 ∧ x < p384 ∧ y < p384 ∧
      y * y % p384 = (x * x % p384 * x + (p384 - 3) * x + b384) % p384 then some ⟨x, y, 1⟩
  else none

/-- The encoding of the public point of a private scalar. -/
def publicPoint (d : Nat) : List Byte :=
  match (base384.mul d).affine with
  | some (x, y) => 0x04 :: ((leBytes 48 x).reverse ++ (leBytes 48 y).reverse)
  | none => List.replicate 97 0

/-- ECDSA with SHA-384 (R339): r and s sign a message under a public point. -/
def ecdsaOk (point msg : List Byte) (r s : Nat) : Bool :=
  match pointOf point with
  | none => false
  | some q =>
    let e := beNat (sha384 msg)
    let w := invMod n384 s
    decide (1 ≤ r ∧ r < n384 ∧ 1 ≤ s ∧ s < n384) &&
      (match ((base384.mul (e * w % n384)).add (q.mul (r * w % n384))).affine with
       | some (x, _) => x % n384 == r
       | none => false)

/-- The signature of a message under a private scalar, with a random k: r and s, big-endian. -/
def ecdsaSign (d k : Nat) (msg : List Byte) : List Byte :=
  let r := match (base384.mul k).affine with | some (x, _) => x % n384 | none => 0
  let s := invMod n384 k * (beNat (sha384 msg) + r * d) % n384
  (leBytes 48 r).reverse ++ (leBytes 48 s).reverse

/-- The x-coordinate that ECDH gives of a private scalar and a peer's point, big-endian (R552). -/
def ecdhX (d : Nat) (peer : List Byte) : List Byte :=
  match (pointOf peer).bind (fun q => (q.mul d).affine) with
  | some (x, _) => (leBytes 48 x).reverse
  | none => List.replicate 48 0

/-- A number as 384 random bits give it for a private scalar, from 1 to n - 1 (R552). -/
def scalarOf (b : List Byte) : Nat := beNat b % (n384 - 1) + 1

/-- The first 8 bytes of the SHA-384 of a byte string, little-endian: a KEY_ID or a digest (R340, R554). -/
def digest8 (b : List Byte) : Nat := leNat ((sha384 b).take 8)

/-- The random number of a signature, from 1 to n - 1. -/
def signK (x : Nat) : Nat := x % (n384 - 1) + 1

/-- What a trailer signs: everything before it (R339). -/
def signedPart (b : List Byte) : List Byte := b.take (b.length - 128)

/-- The form of a signature trailer at the end of a structure (R339). -/
def trailerFormOk (b : List Byte) (keyId : Nat) : Bool :=
  let t := b.drop (b.length - 128)
  leField t 0 4 == 0x53494753 && leField t 4 4 == 1 && leField t 8 8 == keyId && (slice t 0x70 16).all (· == 0)

/-- A trailer verifies under a public point: it is well formed, and its signature is of everything before it (R339). -/
def trailerVerifies (b : List Byte) (keyId : Nat) (point : List Byte) : Bool :=
  let t := b.drop (b.length - 128)
  trailerFormOk b keyId && ecdsaOk point (signedPart b) (beNat (slice t 0x10 48)) (beNat (slice t 0x40 48))

/-- A trailer with a signature under a private scalar (R339). -/
def makeTrailer (d k keyId : Nat) (msg : List Byte) : List Byte :=
  leBytes 4 0x53494753 ++ leBytes 4 1 ++ leBytes 8 keyId ++ ecdsaSign d k msg ++ List.replicate 16 0

/-- The device's secret as KDF takes it. -/
def TrustKept.secret (k : TrustKept) : List Byte := leBytes 32 k.dus.toNat

/-- The private scalars of IK, TK and AK (R552); CONFIG_HASH is that of the configuration image loaded. -/
def TrustKept.ik (k : TrustKept) : Nat := scalarOf (kdf k.secret (label "identity") [] 384)

def TrustKept.tk (k : TrustKept) : Nat := scalarOf (kdf k.secret (label "transport") (leBytes 1 k.ownerEpoch) 384)

def TrustKept.ak (k : TrustKept) (lc : Nat) (configHash : List Byte) : Nat :=
  scalarOf (kdf k.secret (label "attest") (leBytes 1 k.ownerEpoch ++ leBytes 1 lc ++ k.romHash ++ configHash) 384)

/-- The metadata key and the namespace wrapping key (R552). -/
def TrustKept.metadataKey (k : TrustKept) : List Byte :=
  kdf k.secret (label "metadata") (leBytes 1 k.ownerEpoch) 384 ++ kdf k.secret (label "metadata2") (leBytes 1 k.ownerEpoch) 128

def TrustKept.wrapKey (k : TrustKept) : List Byte := kdf k.secret (label "ns-wrap") (leBytes 1 k.ownerEpoch) 256

/-- One step of AES key wrap (SP 800-38F): the checking half, and the rest with its first half-block moved to the end. -/
def kwStep (rk : List (List Byte)) (x : List Byte × List (List Byte)) (t : Nat) : List Byte × List (List Byte) :=
  match x.2 with
  | [] => x
  | r :: rs =>
    let b := aesEncrypt rk (x.1 ++ r)
    (xorBytes (b.take 8) (beBytes 8 (t + 1)), rs ++ [b.drop 8])

/-- AES-256-KW of `n` half-blocks (SP 800-38F). -/
def kwWrap (key : List Byte) (n : Nat) (d : List Byte) : List Byte :=
  let rs := (List.range n).map (fun i => (d.drop (8 * i)).take 8)
  let r := (List.range (6 * n)).foldl (kwStep (aesRoundKeys key)) (List.replicate 8 0xA6, rs)
  r.1 ++ r.2.flatten

/-- A namespace key as the key record holds it (R552, R555): wrapped. -/
def TrustKept.wrappedKey (k : TrustKept) (ns : Nat) : Option (List Byte) :=
  (k.nsKeys.find? (fun x => x.1 == ns)).map (fun x => kwWrap k.wrapKey 8 (leBytes 64 (Config.nsKey x.2).toNat))

/-- What a page of the device's own records is on the NAND (R551): under the metadata key, with its page's address as tweak. -/
def TrustKept.metaSeal (k : TrustKept) (page : Nat) (d : List Byte) : List Byte :=
  xtsData true (BitVec.ofNat 512 (leNat k.metadataKey)) page (d.length / 16) d

/-- The public point of an installed owner key (R554). -/
def TrustKept.keyPoint (k : TrustKept) (keyId : Nat) : Option (List Byte) :=
  k.keys.findSome? (fun x => match x with
    | some o => if o.keyId = keyId then some o.point else none
    | none => none)

end Sys2Proof.Machine
end

