-- ==== Sys2Proof/Machine/NetOps.lean ====
section
/-! DEFINITION. Shared operations of the buffer pools, the policers and the egress scheduler (R491-R520). -/

namespace Sys2Proof.Machine

/-- The value of a POOL or EGS configuration word in force (R516). -/
def State.cfg (s : State) (off : Nat) : Word :=
  match s.shadow.inForce.find? (fun p => p.1 == off) with
  | some p => p.2
  | none => s.reg off

def State.cfgFld (s : State) (off lo len : Nat) : Nat := fld (s.cfg off) lo len

/-- The registers of pool i of a die (R518). -/
def poolReg (die i word : Nat) : Nat := poolBase + die * 0x10000 + 0x100 + i * 0x40 + word

/-- Bytes of a buffer of pool i (R491). -/
def poolSize (i : Nat) : Nat := 256 * 2 ^ i

/-- The pool area of a die, in bytes (R491). -/
def poolArea (die : Nat) : Nat := if die = 0 then 12 * 2 ^ 20 else 40 * 2 ^ 20

/-- The smallest pool whose buffers hold a size (R496). -/
def homePool (size : Nat) : Nat := ((List.range 16).find? (fun i => decide (size ≤ poolSize i))).getD 15

def State.poolCount (s : State) (die i : Nat) : Nat := s.cfgFld (poolReg die i 0) 0 24

/-- The reserve of a class in a pool (R518). -/
def State.poolReserve (s : State) (die i cls : Nat) : Nat :=
  s.cfgFld (poolReg die i (0x10 + 4 * (cls / 2))) (cls % 2 * 16) 16

def State.poolGranted (s : State) (die i : Nat) : Nat :=
  (s.pools.bufs.filter (fun b => b.die == die && b.pool == i)).length

/-- Buffers of a pool that class k holds (R496). -/
def State.poolUsed (s : State) (die i k : Nat) : Nat :=
  (s.pools.bufs.filter (fun b => b.die == die && b.pool == i && b.cls == k)).length

/-- Free buffers of a pool; a pool that still owes buffers to a smaller COUNT has none (R493). -/
def State.poolFree (s : State) (die i : Nat) : Nat := s.poolCount die i - s.poolGranted die i

/-- Buffers of pool q owed to the reserves of the other classes (R496). -/
def State.poolOwed (s : State) (die q c : Nat) : Nat :=
  ((List.range 8).filter (· != c)).foldl (fun a k => a + (s.poolReserve die q k - s.poolUsed die q k)) 0

/-- The test of R496. -/
def State.poolGrants (s : State) (die q c : Nat) : Bool :=
  decide (s.poolFree die q > 0) &&
    (decide (s.poolUsed die q c < s.poolReserve die q c) || decide (s.poolFree die q > s.poolOwed die q c))

def poolsFrom (p : Nat) : List Nat := (List.range 16).filter (fun q => decide (p ≤ q))

/-- The first pool from p up that grants (R497). -/
def State.poolPick (s : State) (die p c : Nat) : Option Nat := (poolsFrom p).find? (fun q => s.poolGrants die q c)

/-- Backpressure holds for a class at a home pool (R500). -/
def State.backpressure (s : State) (die c p : Nat) : Bool :=
  (poolsFrom p).all (fun q => s.pools.warn.contains (die, q)) ||
  (poolsFrom p).all (fun q => !s.poolGrants die q c)

/-- The WARN state of a pool after its free count has changed (R500). -/
def State.poolWarn (s : State) (die i : Nat) : State :=
  let free := s.poolFree die i
  let on := s.pools.warn.contains (die, i)
  if !on && decide (free ≤ s.cfgFld (poolReg die i 8) 0 16) then
    let s := { s with pools := { s.pools with warn := s.pools.warn ++ [(die, i)] } }
    (s.bump (poolReg die i 0x30) (poolReg die i 0x34) 4).log 0x0000 poolBase i
  else if on && decide (free ≥ s.cfgFld (poolReg die i 8) 16 16) then
    { s with pools := { s.pools with warn := s.pools.warn.filter (· != (die, i)) } }
  else s

/-- Grants a buffer of a pool to a requester (R497). -/
def State.poolGive (s : State) (die q index c port unit home : Nat) : State :=
  let b : Buffer := { die := die, pool := q, index := index, cls := c, port := port, unit := unit }
  let s := { s with pools := { s.pools with bufs := s.pools.bufs ++ [b] } }
  let s := s.bump (poolReg die q 0x20) (poolReg die q 0x34) 0
  let s := if q > home then s.bump (poolReg die q 0x24) (poolReg die q 0x34) 1 else s
  s.poolWarn die q

/-- A request of a class can be granted now (R496, R497). -/
def State.poolHas (s : State) (die c size : Nat) : Bool := (s.poolPick die (homePool size) c).isSome

/-- A request that no pool grants, of a class that does not wait, is counted in NO_GRANT of its home pool (R499). -/
def State.noGrant (s : State) (die size : Nat) : State :=
  s.bump (poolReg die (homePool size) 0x2C) (poolReg die (homePool size) 0x34) 3

/-- The least index of a pool that no granted buffer has. -/
def State.leastBuf (s : State) (die q : Nat) : Nat :=
  ((List.range (s.poolGranted die q + 1)).find? (fun i =>
    !s.pools.bufs.any (fun b => b.die == die && b.pool == q && b.index == i))).getD 0

/-- Classes that wait when no pool grants (R494). -/
def classWaits (die c : Nat) : Bool :=
  if die = 0 then decide (2 ≤ c) else decide (c = 1 ∨ c = 2 ∨ c = 6)

/-- A buffer returns to its pool; it goes to the oldest waiting request that it can serve (R499). -/
def State.poolReturn (s : State) (b : Buffer) : State :=
  let gone (x : Buffer) : Bool := x.die == b.die && x.pool == b.pool && x.index == b.index
  let s := { s with pools := { s.pools with bufs := s.pools.bufs.filter (fun x => !gone x) } }
  let s := s.poolWarn b.die b.pool
  match s.pools.waits.find? (fun w => w.die == b.die && decide (w.home ≤ b.pool) && s.poolGrants b.die b.pool w.cls) with
  | none => s
  | some w =>
    let s := { s with pools := { s.pools with waits := s.pools.waits.erase w } }
    s.poolGive b.die b.pool b.index w.cls w.port w.unit w.home

/-- A buffer taken and given back within one step: none when no pool grants, which is counted in NO_GRANT (R494,
R499). -/
def State.poolPass (s : State) (die c port unit size : Nat) : Bool × State :=
  let home := homePool size
  match s.poolPick die home c with
  | none => (false, s.noGrant die size)
  | some q =>
    let idx := s.leastBuf die q
    let s := s.poolGive die q idx c port unit home
    (true, s.poolReturn { die := die, pool := q, index := idx, cls := c, port := port, unit := unit })

/-- The registers of policer n of a die (R519). -/
def polReg (die n word : Nat) : Nat := poolBase + 0x20000 + die * 0x10000 + n * 0x40 + word

/-- The buckets of a policer: full when it has been enabled (R512). -/
def State.polBuckets (s : State) (die n : Nat) : Nat × Nat :=
  match s.shadow.policers.find? (fun p => p.die == die && p.n == n) with
  | some p => (p.tc, p.te)
  | none => (8 * s.cfgFld (polReg die n 0xC) 0 24, 8 * s.cfgFld (polReg die n 0x10) 0 24)

def State.setPol (s : State) (die n tc te : Nat) : State :=
  let rest := s.shadow.policers.filter (fun p => !(p.die == die && p.n == n))
  { s with shadow := { s.shadow with policers := rest ++ [{ die := die, n := n, tc := tc, te := te }] } }

/-- A colour (R512). -/
inductive Colour where
  | green
  | yellow
  | red
  deriving DecidableEq, Repr

/-- One meter decision (R512): the colour and the buckets after it. -/
def meter (twoRate : Bool) (tc te b : Nat) (pc : Colour) : Colour × Nat × Nat :=
  if twoRate then
    if pc = .red ∨ te < b then (.red, tc, te)
    else if pc = .yellow ∨ tc < b then (.yellow, tc, te - b)
    else (.green, tc - b, te - b)
  else if pc = .green ∧ tc ≥ b then (.green, tc - b, te)
  else if pc ≠ .red ∧ te ≥ b then (.yellow, tc, te - b)
  else (.red, tc, te)

/-- One tick's refill (R512), after the buckets have been clamped to their sizes. -/
def refill (twoRate : Bool) (cir pir cbs8 ebs8 tc te : Nat) : Nat × Nat :=
  let tc := min tc cbs8
  let te := min te ebs8
  if twoRate then (min cbs8 (tc + cir), min ebs8 (te + pir))
  else
    let toC := min cir (cbs8 - tc)
    (tc + toC, min ebs8 (te + cir - toC))

/-- A policer meters a frame or command: its colour, counted (R512, R519). A policer not in use gives green. -/
def State.police (s : State) (die n bits : Nat) (pc : Colour) : Colour × State :=
  let c := s.cfg (polReg die n 0)
  if fld c 0 1 = 0 then (.green, s)
  else
    let pc := if fld c 2 1 = 1 then pc else .green
    let t := s.polBuckets die n
    let r := meter (fld c 1 1 == 1) t.1 t.2 bits pc
    let s := s.setPol die n r.2.1 r.2.2
    let i := match r.1 with | .green => 0 | .yellow => 1 | .red => 2
    (r.1, s.bump (polReg die n (0x14 + 4 * i)) (polReg die n 0x20) i)

/-- What a policer does with a colour (R514): pass, pass and treat as CE, or stop (drop or hold). -/
inductive PolAct where
  | pass
  | passCe
  | stop
  deriving DecidableEq, Repr

def State.polAct (s : State) (die n : Nat) : Colour → PolAct
  | .green => .pass
  | .yellow =>
    match s.cfgFld (polReg die n 0) 3 2 with
    | 0 => .pass
    | 1 => if die = 0 then .pass else .passCe
    | _ => .stop
  | .red => if s.cfgFld (polReg die n 0) 5 1 = 1 then .pass else .stop

/-- A policer-map word names a policer (R519). -/
def State.polMap (s : State) (die off : Nat) : Option Nat :=
  let w := s.cfg (poolBase + 0x40000 + die * 0x1000 + off)
  if fld w 15 1 = 1 then some (fld w 0 10) else none

/-- The pre-colour of a DSCP (R513). -/
def dscpColour (d : Nat) : Colour :=
  if d = 12 ∨ d = 20 ∨ d = 28 ∨ d = 36 then .yellow
  else if d = 14 ∨ d = 22 ∨ d = 30 ∨ d = 38 then .red
  else .green

/-- Polices a received frame on the net die (R511, R513, R514): whether it passes, and whether it counts as CE. -/
def State.policeFrame (s : State) (port wire dscp : Nat) (second : Option Nat) : Bool × Bool × State :=
  let bits := 8 * wire
  let pc := dscpColour dscp
  let one (s : State) (m : Option Nat) (pc : Colour) : PolAct × Colour × State :=
    match m with
    | none => (.pass, pc, s)
    | some n => let r := s.police 1 n bits pc; (r.2.polAct 1 n r.1, r.1, r.2)
  let a := one s (s.polMap 1 (4 * port)) pc
  if a.1 = .stop then (false, false, a.2.2)
  else
    let m2 := match second with | some off => a.2.2.polMap 1 off | none => none
    let b := one a.2.2 m2 a.2.1
    if b.1 = .stop then (false, false, b.2.2)
    else (true, a.1 == .passCe || b.1 == .passCe, b.2.2)

/-- A received frame that is no Gnoz packet is policed by its logical port (R511); whether it passes. -/
def State.policeOther (s : State) (f : FrameInfo) (second : Option Nat) : Bool × State :=
  if s.netFenced || s.power.tripAt.isSome then (false, s)
  else
    let r := s.policeFrame f.port f.wire f.dscp second
    (r.1, r.2.2)

/-- The registers of a logical port and of a weighted queue (R520). -/
def egsPort (p word : Nat) : Nat := egsBase + 0x1000 + p * 0x40 + word

def egsQueue (w word : Nat) : Nat := egsBase + 0x10000 + w * 0x10 + word

/-- Where a source-map entry sends its frames (R506). -/
def State.srcMap (s : State) (i : Nat) : QueueSel :=
  let w := s.cfg (egsBase + 0x20000 + 4 * i)
  if fld w 14 1 = 1 then .strict (fld w 12 2) else .weighted (fld w 0 12)

def State.inst (s : State) (port : Nat) (q : QueueSel) : QueueInst :=
  (s.egress.insts.find? (fun i => i.port == port && i.sel == q)).getD { port := port, sel := q }

def State.setInst (s : State) (i : QueueInst) : State :=
  let rest := s.egress.insts.filter (fun x => !(x.port == i.port && x.sel == i.sel))
  { s with egress := { s.egress with insts := rest ++ [i] } }

/-- Backlog of a queue instance in wire bytes. -/
def QueueInst.backlog (i : QueueInst) : Nat := i.frames.foldl (fun a f => a + f.wire) 0

/-- Backlog of a port. -/
def State.portBacklog (s : State) (port : Nat) : Nat :=
  (s.egress.insts.filter (fun i => i.port == port)).foldl (fun a i => a + i.backlog) 0

/-- The virtual time of a port's weighted group. -/
def State.vtime (s : State) (port : Nat) : Nat :=
  ((s.egress.vtime.find? (fun p => p.1 == port)).map (·.2)).getD 0

/-- The head tag of a frame that follows `start` (R507). -/
def State.tagAfter (s : State) (q start wire : Nat) : Nat :=
  let w := max (s.cfgFld (egsQueue q 0) 0 11) 1
  (start + (wire * 1024 + w - 1) / w) % 2 ^ 48

/-- The most bytes a queue holds (R508). -/
def State.queueLimit (s : State) : QueueSel → Nat
  | .strict _ => 2 ^ 20
  | .weighted q => s.cfgFld (egsQueue q 8) 16 16 * 1024

/-- A queue has room for a frame (R508). -/
def State.queueRoom (s : State) (port : Nat) (q : QueueSel) (wire : Nat) : Bool :=
  match q with
  | .strict 0 => decide ((s.inst port q).frames.length < 64)
  | _ => decide ((s.inst port q).backlog + wire ≤ s.queueLimit q)

/-- A frame enters a queue with room (R506, R507): a queue that was empty wakes at the port's virtual time. -/
def State.enqueue (s : State) (port : Nat) (q : QueueSel) (f : Frame) : State :=
  let i := s.inst port q
  let tag := match q with
    | .weighted w => if i.frames.isEmpty then s.tagAfter w (s.vtime port) f.wire else i.headTag
    | .strict _ => i.headTag
  s.setInst { i with frames := i.frames ++ [f], headTag := tag }

/-- A frame for SP0 (R494, R508): one beyond 64, or for which the net die has no buffer of class SYSTEM, is dropped and counted. -/
def State.enqueueSp0 (s : State) (port : Nat) (f : Frame) : State :=
  if !s.poolHas 1 7 f.wire then s.noGrant 1 f.wire
  else if s.queueRoom port (.strict 0) f.wire then s.enqueue port (.strict 0) f
  else s.bump (egsPort port 0x20) (egsPort port 0x2C) 0

/-- The shaping rate of a queue (R509). -/
def State.shapeRate (s : State) (port : Nat) : QueueSel → Nat
  | .strict n => s.cfgFld (egsPort port (0x10 + 4 * n)) 0 20
  | .weighted q => s.cfgFld (egsQueue q 4) 0 20

/-- The least tag of eligible weighted queues; equal tags go to the lower queue (R507). Tags are sequence values, and two that are
unordered count as equal (R17). -/
def leastTag : List QueueInst → Option QueueInst
  | [] => none
  | i :: is =>
    match leastTag is with
    | none => some i
    | some b =>
      let num (x : QueueInst) : Nat := match x.sel with | .weighted n => n | .strict n => n
      if seqEarlier 48 b.headTag i.headTag || (!seqEarlier 48 i.headTag b.headTag && decide (num b < num i)) then some b else some i

/-- The queue that sends next on a port (R505, R507, R509). -/
def State.nextQueue (s : State) (port : Nat) : Option QueueInst :=
  let can (i : QueueInst) : Bool := i.port == port && !i.frames.isEmpty && i.slot.isNone
  let strict := (List.range 4).filterMap (fun n =>
    s.egress.insts.find? (fun i => can i && i.sel == QueueSel.strict n))
  match strict with
  | i :: _ => some i
  | [] => leastTag (s.egress.insts.filter (fun i => can i && (match i.sel with | .weighted _ => true | _ => false)))

/-- The calendar slot in which a queue becomes eligible, at most 4,095 slots ahead (R509). -/
def calendarSlot (now elig : Nat) : Option Nat :=
  let slot := (elig + 63) / 64
  if slot * 64 ≤ now then none else some (min slot (now / 64 + 4095))

/-- The head frame of a queue leaves the port (R507, R509, R510). -/
def State.sendHead (s : State) (i : QueueInst) : State :=
  match i.frames with
  | [] => s
  | f :: rest =>
    let rate := s.shapeRate i.port i.sel
    let elig := if rate = 0 then i.eligAt else max i.eligAt s.now + (f.wire * 8000 + rate - 1) / rate
    let head := match i.sel, rest with
      | .weighted w, g :: _ => s.tagAfter w i.headTag g.wire
      | _, _ => i.headTag
    let i' := { i with
      frames := rest, headTag := head, lastTag := i.headTag, eligAt := elig,
      slot := if rate = 0 then none else calendarSlot s.now elig }
    let s := s.setInst i'
    let s := match i.sel with
      | .weighted _ => { s with egress := { s.egress with
          vtime := (s.egress.vtime.filter (fun p : Nat × Nat => p.1 != i.port)) ++ [(i.port, i.headTag)] } }
      | .strict _ => s
    let ecn : Nat := match i.sel with | .weighted w => s.cfgFld (egsQueue w 8) 0 16 | .strict _ => 0
    let portEcn := s.cfgFld (egsPort i.port 0) 0 16
    let ce := f.gnoz && i.sel != QueueSel.strict 0 &&
      ((ecn != 0 && decide (i'.backlog ≥ ecn * 1024)) ||
       (portEcn != 0 && decide (s.portBacklog i.port ≥ portEcn * 1024)))
    let s := if ce then s.bump (egsPort i.port 0x24) (egsPort i.port 0x2C) 1 else s
    let q := match i.sel with | .strict n => n | .weighted n => 4 + n
    (s.emit f.send).emit (.frameOut i.port q f.wire ce)

end Sys2Proof.Machine
end

