-- ==== Sys2Proof/Machine/RunMem.lean ====
section
/-! DEFINITION. A run's 48-bit address space (R352-R356): where an address lies, what an access meets, and reading
and writing its bytes. -/

namespace Sys2Proof.Machine

/-- The run in a slot. -/
def State.runAt (s : State) (slot : Nat) : Option Run := s.mgr.runs.find? (fun r => r.slot == slot)

def State.setRuns (s : State) (rs : List Run) : State := { s with mgr := { s.mgr with runs := rs } }

/-- Changes the run in a slot. -/
def State.updRun (s : State) (slot : Nat) (f : Run → Run) : State :=
  s.setRuns (s.mgr.runs.map (fun r => if r.slot == slot then f r else r))

/-- Physical tile of a logical tile: local tile l of the i-th region, regions ascending (R289). -/
def Run.physTile (r : Run) (t : Nat) : Option Nat := (r.regions[t / 32]?).map (fun g => g * 32 + t % 32)

/-- A place in a run's address space (R352). -/
inductive Place where
  | tile (phys off : Nat)
  | region (phys off : Nat)
  | paged
  | host (addr : Nat)
  | outside
  deriving DecidableEq, Repr

/-- The first byte of the paged range, where the argument block lies. -/
def argPage : Nat := 0x100000000

def hostWindow : Nat := 0xC00000000000

/-- Where an address lies (R352). -/
def Run.place (r : Run) (va : Nat) : Place :=
  if va < 0x80000000 then
    match r.physTile (va / 2 ^ 20) with
    | some p => .tile p (va % 2 ^ 20)
    | none => .outside
  else if va < argPage then
    match r.regions[(va - 0x80000000) / 2 ^ 23]? with
    | some g => .region g (va % 2 ^ 23)
    | none => .outside
  else if va < hostWindow then .paged
  else if va < hostWindow + r.hostLength then .host (r.hostBase + (va - hostWindow))
  else .outside

/-- The mapping that covers a paged address. -/
def Run.mapping (r : Run) (va : Nat) : Option Mapping :=
  r.maps.find? (fun m => decide (m.vaddr ≤ va ∧ va < m.vaddr + (m.length + 65535) / 65536 * 65536))

/-- The first byte of an address's 64 KiB page. -/
def pageOf (va : Nat) : Nat := va / 65536 * 65536

/-- A media-backed page is resident (R354). -/
def Run.resident (r : Run) (page : Nat) : Bool := r.pages.any (fun p => p.va == page && p.resident)

/-- What an access meets: the fault classes of R360. -/
inductive Access where
  | ok
  /-- A terminal fault's status and address. -/
  | fault (st : Status) (va : Nat)
  /-- A fill fault: the page to fill. -/
  | fill (page : Nat)
  /-- A host-window access that cannot be made (R438). -/
  | hostFail (va : Nat)
  deriving DecidableEq, Repr

/-- One byte's access: the range, the entry, the rights, then residency (R360). -/
def Run.check1 (r : Run) (write : Bool) (va : Nat) : Access :=
  match r.place va with
  | .outside => .fault 0x0A01 va
  | .paged =>
    match r.mapping va with
    | none => .fault 0x0A01 va
    | some m =>
      if write && !m.write then .fault 0x0A02 va
      else if m.tier = 4 ∧ !r.resident (pageOf va) then .fill (pageOf va)
      else .ok
  | .host _ => if r.hostGone then .hostFail va else .ok
  | _ => .ok

/-- An access of a byte range: each of its 64 KiB pieces in order, the first failure decides. -/
def Run.checkRange (r : Run) (write : Bool) (va len : Nat) : Nat → Access
  | 0 => .ok
  | n + 1 =>
    if len = 0 then .ok
    else match r.check1 write va with
      | .ok =>
        let step := min len (pageOf va + 65536 - va)
        r.checkRange write (va + step) (len - step) n
      | x => x

def Run.check (r : Run) (write : Bool) (va len : Nat) : Access := r.checkRange write va len (len / 65536 + 2)

/-- The next access when an earlier one was in order. -/
def Access.then (a b : Access) : Access :=
  match a with
  | .ok => b
  | x => x

/-- The page-table entry of a page (R353): a media-backed page has an entry of its own; the frames of stack and bulk pages are
chosen when they are mapped. -/
def Run.pageWord (r : Run) (m : Mapping) (va frame : Nat) : Nat :=
  let p := (r.pages.find? (fun (p : PageEntry) => p.va == pageOf va)).getD { va := pageOf va, resident := false, frame := frame }
  1 + 2 + 4 * bitOf m.write + 8 * bitOf m.exec + 16 * m.tier + 128 * bitOf p.accessed + 256 * bitOf p.dirty +
    512 * bitOf m.pinned + 1024 * bitOf (m.tier == 4 && p.resident) + 65536 * (p.frame / 65536)

/-- Host memory of a function, keyed by function and address. -/
def hostKey (fn addr : Nat) : Nat := fn * 2 ^ 64 + addr % 2 ^ 64

/-- One byte of the run's space. A page that is not resident has the content of its backing (R354, R356). -/
def State.vByte (s : State) (r : Run) (va : Nat) : Byte :=
  match r.place va with
  | .tile p off => memGet s.field.tileMem (p * 2 ^ 20 + off)
  | .region g off => memGet s.field.regionMem (g * 2 ^ 23 + off)
  | .paged =>
    match r.mapping va with
    | none => 0
    | some m =>
      if m.tier = 4 ∧ !r.resident (pageOf va) then
        (s.nsBytes m.nsid (m.lba * 4096 + (va - m.vaddr)) 1).headD 0
      else memGet r.mem va
  | .host a => memGet s.hostMem (hostKey r.fn a)
  | .outside => 0

/-- `n` bytes of the run's space. -/
def State.vRead (s : State) (r : Run) (va : Nat) : Nat → List Byte
  | 0 => []
  | n + 1 => s.vByte r va :: s.vRead r (va + 1) n

/-- Marks a resident media-backed page accessed, and dirty on a write (R353). -/
def Run.touch (r : Run) (write : Bool) (page now : Nat) : Run :=
  { r with pages := r.pages.map (fun p =>
      if p.va == page then { p with accessed := true, dirty := p.dirty || write, used := now } else p) }

/-- Marks the pages of a range. -/
def Run.touchRange (r : Run) (write : Bool) (va len now : Nat) : Run :=
  { r with pages := r.pages.map (fun p =>
      if decide (p.va < va + len) && decide (va < p.va + 65536) then
        { p with accessed := true, dirty := p.dirty || write, used := now }
      else p) }

/-- Writes one byte of the run's space; nothing is written outside it. -/
def State.vSet (s : State) (slot va : Nat) (b : Byte) : State :=
  match s.runAt slot with
  | none => s
  | some r =>
    match r.place va with
    | .tile p off => { s with field := { s.field with tileMem := memSet s.field.tileMem (p * 2 ^ 20 + off) b } }
    | .region g off => { s with field := { s.field with regionMem := memSet s.field.regionMem (g * 2 ^ 23 + off) b } }
    | .paged => s.updRun slot (fun r => { r with mem := memSet r.mem va b }.touch true (pageOf va) s.now)
    | .host a => { s with hostMem := memSet s.hostMem (hostKey r.fn a) b }
    | .outside => s

/-- Writes a byte string to the run's space, lowest address first. -/
def State.vWrite (s : State) (slot va : Nat) : List Byte → State
  | [] => s
  | b :: bs => (s.vSet slot va b).vWrite slot (va + 1) bs

/-- The bulk frames of the run that media-backed pages hold, in 64 KiB units. -/
def Run.residentPages (r : Run) : Nat := (r.pages.filter (·.resident)).length

/-- Brings a media-backed page into its frame (R356): its four map units are read. The frame's number is the
device's choice, a free value. -/
def State.placePage (s : State) (slot page : Nat) : State :=
  match s.runAt slot with
  | none => s
  | some r =>
    match r.mapping page with
    | none => s
    | some m =>
      let data := s.nsBytes m.nsid (m.lba * 4096 + (page - m.vaddr)) 65536
      let s := s.countReconstructs m.nsid (m.lba * 4096 + (page - m.vaddr)) 65536
      let (k, s) := s.takeFree
      let e : PageEntry := { va := page, frame := Config.freeNat k, used := s.now, accessed := true }
      s.updRun slot (fun r => { r with
        mem := memWrite (memZero r.mem page (page + 65536)) page data,
        pages := r.pages.filter (fun p => p.va != page) ++ [e],
        filling := r.filling.filter (· != page) })

/-- Fills every page of a range that an agent outside the tiles accesses; placement and fills change timing only
(R101, R356). -/
def State.fillRange (s : State) (slot va len : Nat) (write : Bool) : Nat → State
  | 0 => s
  | n + 1 =>
    match s.runAt slot with
    | none => s
    | some r =>
      match r.check write va len with
      | .fill p => ((s.placePage slot p).updRun slot (fun r => { r with fills := r.fills + 1 })).fillRange slot va len write n
      | _ => s

end Sys2Proof.Machine
end

