-- ==== Sys2Proof/Machine/GnozOps.lean ====
section
/-! DEFINITION. Shared operations of the Gnoz transport: time, routes, handles, sending and acknowledging messages,
queue memory and completions, and the key checks (R446-R482). -/

namespace Sys2Proof.Machine

/-- Gnoz time in ns (R452). -/
def State.gnozTime (s : State) : Nat := ((s.now : Int) + s.gnoz.clockOffset).toNat

/-- The coarse time, in ticks of 1 ms (R452). -/
def State.coarse (s : State) : Nat := s.gnozTime / 1000000 % 65536

/-- d of R452 for a message's timestamp. -/
def State.ageTicks (s : State) (msgId : Nat) : Nat := (s.coarse + 65536 - msgId / 2 ^ 32 % 65536) % 65536

def gnzCfg : Nat := gnzBase + 4
def gnzDevice : Nat := gnzBase + 8
def gnzOvf : Nat := gnzBase + 0x74

/-- A transport counter rises (R487): i counts from TX at 0. -/
def State.gnzBump (s : State) (i : Nat) : State := s.bump (gnzBase + 0x40 + 4 * i) gnzOvf i

/-- The own device ID (R449). -/
def State.deviceId (s : State) : Nat := s.regFld gnzDevice 0 24

/-- The transport is enabled, past READY, in a life-cycle state that uses Gnoz, with its die in use (R44, R485, R487,
R587). -/
def State.gnozEnabled (s : State) : Bool :=
  s.regFld gnzCfg 16 1 == 1 && s.ready && (s.lc == .provisioned || s.lc == .deployed) && !s.netFenced && s.power.tripAt.isNone

/-- The transport may send: enabled and past the 600 ms hold-off (R453). -/
def State.gnozSends (s : State) : Bool := s.gnozEnabled && s.gnoz.started

/-- Gnoz time in ms. -/
def State.gnozTimeMs (s : State) : Nat := s.gnozTime / 1000000

/-- Gnoz time is valid (R561): set since reset, and past the floor by 1,000 ms. -/
def State.gnozTimeValid (s : State) : Bool :=
  (s.gnoz.ptpLocked || s.gnoz.timeSet) && decide (s.gnozTimeMs ≥ s.backup.timeFloorMs + 1000)

/-- Sealed packets are sent and accepted (R561, R576). -/
def State.sealedOk (s : State) : Bool := s.gnozTimeValid && !s.trust.zeroised

/-- A field of a structure in network order. -/
def beField (b : List Byte) (off len : Nat) : Nat := leNat (slice b off len).reverse

def Route.flag (r : Route) (i : Nat) : Bool := r.flags.testBit i

/-- A valid route (R450). -/
def State.route (s : State) (i : Nat) : Option Route := s.gnoz.routes.find? (fun r => r.index == i && r.flag 0)

/-- A destination handle names a valid route whose DEVICE it carries (R449). -/
def State.handle (s : State) (h : Nat) : Option Route :=
  if h / 2 ^ 56 ≠ 0 then none
  else match s.route (h % 65536) with
    | some r => if r.device = h / 2 ^ 32 % 2 ^ 24 then some r else none
    | none => none

/-- The handle's destination queue. -/
def handleQueue (h : Nat) : Nat := h / 65536 % 65536

def Route.paths (r : Route) : List Nat := (List.range 8).filter (fun p => r.pathMask.testBit p)

def State.pathState (s : State) (route path : Nat) : PathState :=
  (s.gnoz.paths.find? (fun p => p.route == route && p.path == path)).getD { route := route, path := path }

def State.setPath (s : State) (p : PathState) : State :=
  let rest := s.gnoz.paths.filter (fun x => !(x.route == p.route && x.path == p.path))
  { s with gnoz := { s.gnoz with paths := rest ++ [p] } }

/-- Wire bytes of a packet: Ethernet, one tag, IP, UDP, header, payload, authentication tag, FCS, and 20 (R446, R507). -/
def State.wireBytes (s : State) (r : Route) (port len : Nat) : Nat :=
  14 + (if s.regFld (gnzBase + 0x8004 + port * 0x40) 28 1 = 1 then 4 else 0) + (if r.flag 1 then 40 else 20) +
    8 + 64 + len + (if r.flag 2 then 16 else 0) + 4 + 20

/-- The egress queue of a message (R506). -/
def State.msgQueue (s : State) (m : OutMsg) : QueueSel :=
  match m.hdr.kind with
  | 1 => s.srcMap m.hdr.srcQueue
  | 2 => s.srcMap m.hdr.srcQueue
  | 3 => s.srcMap m.hdr.srcQueue
  | 0xB => s.srcMap m.hdr.srcQueue
  | 4 => s.srcMap m.hdr.srcQueue
  | 9 => match m.owner with
    | .forme c _ => s.srcMap (4096 + c)
    | _ => .strict 1
  | _ => .strict 1

def OutMsg.fragSize (m : OutMsg) : Nat := 2 ^ m.shift

/-- FRAGMENT_COUNT (R446). -/
def OutMsg.frags (m : OutMsg) : Nat := max 1 ((m.hdr.length + m.fragSize - 1) / m.fragSize)

/-- Payload bytes of fragment i. -/
def OutMsg.fragLen (m : OutMsg) (i : Nat) : Nat := min m.fragSize (m.hdr.length - i * m.fragSize)

/-- The next enabled path in round-robin order that satisfies a test (R459). -/
def Route.nextPath (r : Route) (last : Nat) (ok : Nat → Bool) : Option Nat :=
  ((List.range 8).map (fun i => (last + 1 + i) % 8)).find? (fun p => r.paths.contains p && ok p)

/-- A message of a Gnoz queue, whose fragments take buffers of class TX (R494). -/
def OutMsg.fromQueue (m : OutMsg) : Bool := match m.owner with | .wr _ _ _ _ _ => true | _ => false

/-- The bytes of a path in flight change. -/
def State.addFlight (s : State) (route path len : Nat) : State :=
  let p := s.pathState route path
  s.setPath { p with inFlight := p.inFlight + len }

def State.subFlight (s : State) (route path len : Nat) : State :=
  let p := s.pathState route path
  s.setPath { p with inFlight := p.inFlight - len }

/-- Takes the next message ID: the coarse timestamp and the message counter (R453). -/
def State.mintId (s : State) : Nat × State :=
  (s.coarse * 2 ^ 32 + s.gnoz.msgCtr,
   { s with gnoz := { s.gnoz with msgCtr := (s.gnoz.msgCtr + 1) % 2 ^ 32 } }.gnzBump 0)

def State.setOut (s : State) (i : Nat) (m : OutMsg) : State :=
  { s with gnoz := { s.gnoz with out := modAt s.gnoz.out i (fun _ => m) } }

/-- The fragment a message sends next: one to send again, or the next of its first transmission. -/
def OutMsg.nextToSend (m : OutMsg) : Option (Nat × Bool) :=
  match m.resend with
  | f :: _ => some (f, true)
  | [] => if m.nextFrag < m.frags then some (m.nextFrag, false) else none

/-- The fields of one packet's header that its message does not fix (R446): attempt, path, fragment, their number, the
fragment shift and SEND_TIME. -/
structure PacketPart where
  attempt : Nat
  path : Nat
  frag : Nat := 0
  count : Nat := 1
  shift : Nat := 10
  time : Nat
  deriving DecidableEq, Repr

/-- The 64-byte header (R446) of a packet from device `src` on a route. -/
def gnozHeader (src : Nat) (r : Route) (h : GnozHdr) (flags : Nat) (p : PacketPart) : List Byte :=
  let b := beBytes 1 1 ++ beBytes 1 h.kind ++ beBytes 2 flags ++ beBytes 4 (src % 2 ^ 24 + p.attempt % 256 * 2 ^ 24) ++
    beBytes 4 (r.device % 2 ^ 24 + p.path * 2 ^ 24) ++ beBytes 2 h.dstQueue ++ beBytes 2 h.srcQueue ++
    beBytes 2 r.remoteSlot ++ beBytes 2 p.frag ++ beBytes 2 p.count ++ beBytes 1 p.shift ++ beBytes 1 0 ++
    beBytes 6 h.msgId ++ beBytes 2 0 ++ beBytes 4 h.length ++ beBytes 4 h.rkey ++ beBytes 8 h.remoteAddr ++
    beBytes 8 h.immediate ++ beBytes 4 p.time
  b ++ beBytes 4 (crc32c b)

/-- The full Gnoz time in ms of a message with a coarse timestamp (R560). -/
def State.sealTime (s : State) (ts : Nat) : Nat :=
  let n := s.gnozTimeMs
  let d := (n % 65536 + 65536 - ts) % 65536
  if d ≤ 500 then n - d else n + 65536 - d

/-- The pair key held under a KEY_ID (R552, R566). -/
def State.pairKey (s : State) (keyId : Nat) : Option (BitVec 256) :=
  (s.trustKept.pairs.find? (fun p => p.keyId == keyId)).map (fun p =>
    let x := ecdhX s.trustKept.tk p.peerPoint
    BitVec.ofNat 256 (leNat (kdf x (label "gnoz-pair")
      (leBytes 4 (min s.deviceId p.peer) ++ leBytes 4 (max s.deviceId p.peer) ++ leBytes 2 p.rotation) 256)))

/-- The window key of a packet, from its header, under a KEY_ID (R560). -/
def State.packetKey (s : State) (keyId : Nat) (head : List Byte) : Option (List Byte) :=
  (s.pairKey keyId).map (fun k => windowKey k (beField head 4 4 % 2 ^ 24) (s.sealTime (beField head 0x18 2) / 65536))

/-- The nonce of a packet, from its header: the source device ID, the message ID, the fragment and the attempt (R484). -/
def packetNonce (head : List Byte) : List Byte :=
  beBytes 12 (beField head 4 4 % 2 ^ 24 * 2 ^ 70 + beField head 0x18 6 * 2 ^ 22 + beField head 0x12 2 % 2 ^ 14 * 2 ^ 8 + beField head 4 1)

/-- A packet's payload as it leaves on a route: in sealed mode encrypted, with its tag (R484, R560). -/
def State.sealPacket (s : State) (r : Route) (head payload : List Byte) : List Byte :=
  if r.flag 2 then
    match s.packetKey r.keyId head with
    | some k =>
      let c := gcmText k (packetNonce head) payload
      c ++ gcmTag k (packetNonce head) head c
    | none => payload
  else payload

/-- The payload of a received packet in clear; none when its tag fails. For 1 s after a route's KEY_ID has changed, the previous
one is tried too (R484, R560, R566). -/
def State.openPacket (s : State) (r : Route) (head payload tag : List Byte) : Option (List Byte) :=
  if r.flag 2 then
    let old := (s.gnoz.prevKeys.filter (fun x => x.1 == r.index && decide (s.now < x.2.2 + 1000000000))).map (·.2.1)
    (([r.keyId] ++ old).filterMap (fun k => s.packetKey k head)).findSome? (fun k =>
      if gcmTag k (packetNonce head) head payload = tag then some (gcmText k (packetNonce head) payload) else none)
  else some payload

/-- The first RTO in ns (R455, R487). -/
def State.rtoMin (s : State) : Nat := s.regFld (gnzBase + 0xC) 0 10 * 1000

/-- A message sends its next fragment where a path and its egress queue have room (R459, R494, R508), again on another path than the last
where its route has more than one (R455): true when it did. It waits while the egress block is being reset or its clock has stopped
(R603, R618). A wait at the backlog limit is counted in HOLDS once. -/
def State.pumpStep (s : State) (i : Nat) : Bool × State :=
  match s.gnoz.out[i]? with
  | none => (false, s)
  | some m =>
    match s.route m.hdr.route, m.nextToSend with
    | some r, some (f, again) =>
      let len := m.fragLen f
      let fits (p : Nat) : Bool :=
        let x := s.pathState r.index p
        decide (x.inFlight + len ≤ x.window) && !(again && p == m.lastPath && decide (1 < r.paths.length))
      if r.flag 2 && !s.sealedOk || s.blockHeld 6 || s.clockDown 50 then (false, s)
      else match r.nextPath m.lastPath fits with
      | none => (false, s)
      | some p =>
        let port := r.pathPort.getD p 0
        let q := s.msgQueue m
        let wire := s.wireBytes r port len
        if m.fromQueue && !s.poolHas 1 1 wire then (false, s)
        else if !s.queueRoom port q wire then
          (false, if m.held then s
            else (s.setOut i { m with held := true }).bump (egsPort port 0x28) (egsPort port 0x2C) 2)
        else
          let minted := if m.minted then (m.hdr.msgId, s) else s.mintId
          let id := minted.1
          let s := minted.2
          let att := if again then m.attempt else 0
          let data := slice m.payload (f * m.fragSize) len
          let flags := m.hdr.flags % 2 + 2 * bitOf (m.probe && again) + 16 * bitOf (r.flag 2)
          let head := gnozHeader s.deviceId r { m.hdr with msgId := id } flags
            { attempt := att, path := p, frag := f, count := m.frags, shift := m.shift, time := s.gnozTime }
          let s := s.enqueue port q { wire := wire, gnoz := true, send := .gnozPacket port p head (s.sealPacket r head data) }
          let s := if again then s.gnzBump 2 else s
          let rto := if m.rto = 0 then s.rtoMin else m.rto
          let m' := { m with
            hdr := { m.hdr with msgId := id }, minted := true,
            bornAt := if m.minted then m.bornAt else s.now,
            nextFrag := if again then m.nextFrag else m.nextFrag + 1,
            resend := if again then m.resend.drop 1 else m.resend,
            probe := m.probe && !again,
            lastPath := p, held := false, rto := rto, rtoAt := s.now + rto,
            flight := m.flight ++ [(f, p)] }
          (true, (s.setOut i m').addFlight r.index p len)
    | _, _ => (false, s)

/-- A message sends what it can. -/
def State.pumpMsg (s : State) (i : Nat) : Nat → State
  | 0 => s
  | n + 1 => match s.pumpStep i with
    | (true, s) => s.pumpMsg i n
    | (false, s) => s

/-- Every message sends what it can, oldest first. -/
def State.pump (s : State) : State :=
  if s.gnozSends then
    (List.range s.gnoz.out.length).foldl (fun s i =>
      match s.gnoz.out[i]? with
      | some m => s.pumpMsg i (m.frags + m.resend.length)
      | none => s) s
  else s

/-- A new message (R446): it joins the messages under way and sends what it can. -/
def State.sendMsg (s : State) (hdr : GnozHdr) (payload : List Byte) (owner : MsgOwner) : State :=
  let shift := match s.route hdr.route with | some r => if r.flag 3 then 13 else 10 | none => 10
  let m : OutMsg := {
    hdr := { hdr with length := payload.length }, payload := payload, owner := owner, shift := shift, bornAt := s.now }
  { s with gnoz := { s.gnoz with out := s.gnoz.out ++ [m] } }.pump

/-- Sends an acknowledgement back along the path of a fragment (R454): through SP0, with no retransmission. -/
def State.sendAck (s : State) (m : InMsg) (status : Status) (result : Nat := 0) (bitmap : List Byte := []) : State :=
  if !s.gnozSends then s
  else match s.route m.hdr.route with
    | none => s
    | some r =>
      if r.flag 2 && !s.sealedOk then s
      else
        let port := r.pathPort.getD m.path 0
        let (id, s) := s.mintId
        let ece := m.ce || s.backpressure 1 0 (homePool m.payload.length)
        let flags := 4 * bitOf ece + 8 * bitOf (!bitmap.isEmpty) + 16 * bitOf (r.flag 2)
        let h : GnozHdr := {
          kind := 0xC, device := r.device, route := r.index, dstQueue := m.hdr.srcQueue, srcQueue := m.hdr.dstQueue,
          msgId := id, length := bitmap.length, remoteAddr := m.sendTime + result % 2 ^ 32 * 2 ^ 32,
          immediate := m.hdr.msgId + status.toNat * 2 ^ 48 }
        let head := gnozHeader s.deviceId r h flags { attempt := 0, path := m.path, shift := 13, time := s.gnozTime }
        s.enqueueSp0 port {
          wire := s.wireBytes r port bitmap.length, gnoz := true, send := .gnozPacket port m.path head (s.sealPacket r head bitmap) }

/-- A Gnoz queue's state. -/
def State.gq (s : State) (q : Nat) : GnozQueue := (s.gnoz.queues.find? (fun x => x.q == q)).getD { q := q }

def State.setGq (s : State) (x : GnozQueue) : State :=
  let rest := s.gnoz.queues.filter (fun y => y.q != x.q)
  { s with gnoz := { s.gnoz with queues := rest ++ [x] } }

/-- The registers of Gnoz queue q (R489). -/
def gnzQ (q word : Nat) : Nat := gnzBase + 0x10000 + q * 0x40 + word

/-- Queue q is in use (R489). -/
def State.gqEnabled (s : State) (q : Nat) : Bool := decide (q < 4096) && s.regFld (gnzQ q 0) 6 1 == 1

def State.gqEntries (s : State) (q : Nat) : Nat := 2 ^ s.regFld (gnzQ q 0) 0 5

/-- A 64-bit value in two registers. -/
def State.reg64 (s : State) (off : Nat) : Nat := (s.reg off).toNat + (s.reg (off + 4)).toNat * 2 ^ 32

/-- Reads the memory a queue's rings and buffers lie in: its run's space, host memory, or bulk memory (R467, R489). -/
def State.gqRead (s : State) (q addr n : Nat) : List Byte :=
  match (s.gq q).run with
  | some slot => match s.runAt slot with
    | some r => s.vRead r addr n
    | none => List.replicate n 0
  | none =>
    if s.regFld (gnzQ q 0) 5 1 = 1 then memRead s.hostMem (hostKey (s.regFld (gnzQ q 0) 8 6) addr) n
    else s.bulkRead addr n

/-- Writes that memory. -/
def State.gqWrite (s : State) (q addr : Nat) (b : List Byte) : State :=
  match (s.gq q).run with
  | some slot => (s.fillRange slot addr b.length true (b.length / 65536 + 2)).vWrite slot addr b
  | none =>
    if s.regFld (gnzQ q 0) 5 1 = 1 then
      let fn := s.regFld (gnzQ q 0) 8 6
      { s with hostMem := memWrite s.hostMem (hostKey fn addr) b }.emit (.hostWrite fn addr b)
    else { s with bulkMem := memWrite s.bulkMem addr b }

/-- Writes a completion to a queue's completion ring (R467, R469): phase rule of R415, the count rises by one. -/
def State.gqComplete (s : State) (q idx op : Nat) (status : Status) (detail : Nat := 0) (immediate : Nat := 0)
    (length : Nat := 0) (source : Nat := 0) : State :=
  let g := s.gq q
  let n := s.gqEntries q
  let phase := if g.count / n % 2 = 0 then 1 else 0
  let (ev, s) := s.issueSeq
  let e := leBytes 2 status.toNat ++ leBytes 2 detail ++ leBytes 2 idx ++ leBytes 1 op ++ leBytes 1 phase ++
    leBytes 8 immediate ++ leBytes 4 length ++ leBytes 4 source ++ leBytes 8 ev
  let s := s.gqWrite q (s.reg64 (gnzQ q 0x10) + 32 * (g.count % n)) e
  s.setGq { g with count := (g.count + 1) % 2 ^ 32, lastStatus := status.toNat }

/-- The key-table entry an RKEY names. -/
def State.keyAt (s : State) (rkey : Nat) : Option GnozKey :=
  s.gnoz.keys.find? (fun k => k.index == rkey / 65536 && k.valid)

/-- The checks of R464, in order. REMOTE_ADDR counts from the key's base. WRITE and READ allow every kind of key. -/
def State.keyCheck (s : State) (write : Bool) (rkey addr len : Nat) : Status :=
  match s.keyAt rkey with
  | none => 0x0C03
  | some k =>
    if k.gen ≠ rkey % 256 then 0x0C04
    else if addr + len > k.length || !(if write then k.write else k.read) then 0x0C05
    else 0

/-- Stores bytes in a key's range (R460). A namespace range is written as ingest (R476) and stores nothing here. -/
def State.keyStore (s : State) (rkey addr : Nat) (b : List Byte) : State :=
  match s.keyAt rkey with
  | none => s
  | some k =>
    match k.kind with
    | .bulk => { s with bulkMem := memWrite s.bulkMem (k.base + addr) b }
    | .run slot => (s.fillRange slot (k.base + addr) b.length true (b.length / 65536 + 2)).vWrite slot (k.base + addr) b
    | .nsRange _ => s
    | .member _ => s

/-- Reads bytes of a key's range. -/
def State.keyRead (s : State) (rkey addr n : Nat) : List Byte :=
  match s.keyAt rkey with
  | none => []
  | some k =>
    match k.kind with
    | .bulk => s.bulkRead (k.base + addr) n
    | .run slot => match s.runAt slot with
      | some r => s.vRead r (k.base + addr) n
      | none => []
    | .nsRange ns => s.nsBytes ns (k.base * 4096 + addr) n
    | .member ns => s.memberBytes ns addr n

/-- A duplicate-table entry gets its result (R456). -/
def State.dupResult (s : State) (device msgId : Nat) (st : Status) (result : Nat) : State :=
  { s with gnoz := { s.gnoz with dups := s.gnoz.dups.map (fun d =>
      if d.device == device && d.msgId == msgId then { d with result := some (st, result) } else d) } }

/-- Ends the application of a message: its result enters its duplicate entry, it is counted when it was applied, and
its acknowledgement is sent (R454, R456). -/
def State.ackApplied (s : State) (m : InMsg) (st : Status) (result : Nat := 0) : State :=
  let s := s.dupResult m.hdr.device m.hdr.msgId st result
  let s := if st = 0 then s.gnzBump 1 else if st = 0x0C04 then s.gnzBump 5 else s
  s.sendAck m st result

/-- A WRITE ends (R470): when it has been applied and is sealed, its notification goes to the key's notify queue; then its
acknowledgement is sent. -/
def State.writeEnd (s : State) (m : InMsg) (st : Status) : State :=
  let s := { s with gnoz := { s.gnoz with inbox := s.gnoz.inbox.erase m } }
  let s := if st = 0 ∧ m.hdr.flags.testBit 0 then
      match s.keyAt m.hdr.rkey with
      | some k => if s.gqEnabled k.notify then
          s.gqComplete k.notify 0xFFFF 0x81 0 0 m.hdr.immediate m.hdr.length m.hdr.device else s
      | none => s
    else s
  s.ackApplied m st

/-- The received message (device, ID) of a kind that waits to be applied. -/
def State.inMsg (s : State) (device msgId kind : Nat) : Option InMsg :=
  s.gnoz.inbox.find? (fun m => m.hdr.device == device && m.hdr.msgId == msgId && m.hdr.kind == kind)

/-- The message leaves the inbox. -/
def State.dropIn (s : State) (m : InMsg) : State := { s with gnoz := { s.gnoz with inbox := s.gnoz.inbox.erase m } }

end Sys2Proof.Machine
end

