-- ==== Sys2Proof/Machine/Reply.lean ====
section
/-! DEFINITION. Where a request's result goes: the request's own path (R25, R26). -/

namespace Sys2Proof.Machine

/-- A CONTROL request ends (R481): its acknowledgement is sent, and a REPLY goes to the requester's queue, with a
16-byte header, then data. -/
def State.controlReply (s : State) (c : ControlReq) (st : Status) (detail : Nat) (result : Nat) (data : List Byte) :
    State :=
  let s := { s with gnoz := { s.gnoz with controls := s.gnoz.controls.erase c } }
  let h : GnozHdr := { kind := 7, device := c.device, route := c.route, dstQueue := 0, srcQueue := c.queue,
                       msgId := c.msgId, length := 0 }
  let m : InMsg := { hdr := h, attempt := 0, sendTime := 0, path := c.path, port := 0, ce := false, payload := [] }
  let s := s.ackApplied m 0
  let body := leBytes 2 st.toNat ++ leBytes 2 detail ++ leBytes 4 0 ++ leBytes 8 result ++ data
  s.sendMsg { kind := 8, device := c.device, route := c.route, dstQueue := c.queue, srcQueue := 0, msgId := 0,
              length := 0, immediate := c.msgId } body .reply

/-- The result of a request: status, DETAIL, result words and data, on the request's own path. A YQI command joins
the commands that wait for their CQ entry, and one that wrote gives back its range lock (R435); a Gnoz WRITE to a namespace is acknowledged (R476). -/
def State.replyData (s : State) (p : ReqPath) (st : Status) (detail : Nat) (result : List Nat) (data : List Byte) :
    State :=
  let s := s.emit (.reply p st detail result data)
  match p with
  | .yqi fn qid cid =>
    let d : CmdDone := { fn := fn, qid := qid, cid := cid, status := st, detail := detail, result := result, data := data }
    { s with yqi := { s.yqi with
        done := s.yqi.done ++ [d], locks := s.yqi.locks.filter (fun l => !(l.path == p && l.excl)) } }
  | .gnoz device msgId =>
    match s.gnoz.controls.find? (fun c => c.device == device && c.msgId == msgId) with
    | some c => s.controlReply c st detail (result.headD 0) data
    | none => match s.inMsg device msgId 1 with
      | some m => s.writeEnd m st
      | none => s
  | _ => s

/-- The result of a request without data. -/
def State.reply (s : State) (p : ReqPath) (st : Status) (detail : Nat := 0) (result : List Nat := []) : State :=
  s.replyData p st detail result []

end Sys2Proof.Machine
end

