-- ==== Sys2Proof/Machine/MediaOps.lean ====
section
/-! DEFINITION. Shared operations of media and flash translation: the map, the journal, durability, spare space,
bands and crypto-erase (R109-R164). -/

namespace Sys2Proof.Machine

def State.setMedia (s : State) (m : Media) : State := { s with media := m }

/-- The journal tail is programmed: it takes the next JOURNAL_SEQ, and goes to two targets (R136, R137). -/
def State.pushTail (s : State) : State :=
  let m := s.media
  if m.tail.isEmpty then s
  else
    let places := m.journalPlaces m.nextJSeq
    let pg : JPage := { seq := m.nextJSeq, evt := m.tailEvt, ckpt := m.ckptSeq, entries := m.tail,
                        place0 := places.1, place1 := places.2 }
    { s with media := { m with
        tail := [], programming := m.programming ++ [pg], nextJSeq := m.nextJSeq + 1,
        journalBytes := m.journalBytes + 16384, ckptBytes := m.ckptBytes + 16384 } }

/-- What the NAND holds of a copy of a journal page at a page address: its bytes under the metadata key (R137, R551). -/
def State.journalOnMedia (s : State) (seq page : Nat) : Option (List Byte) :=
  (s.nand.pageBytes seq).map (s.trustKept.metaSeal page)

/-- The 640 MiB segments, of 2^27 entries, that `n` map entries from index `e` lie in (R140). -/
def segRange (e n : Nat) : List Nat :=
  if n = 0 then [] else (List.range ((e + n - 1) / 2 ^ 27 - e / 2 ^ 27 + 1)).map (· + e / 2 ^ 27)

/-- The map segments a journal entry changes. -/
def JEntry.segments (i : MediaImage) (e : JEntry) : List Nat :=
  let of (ns lmu count : Nat) : List Nat :=
    match i.ns.find? (fun x => x.id == ns) with
    | some x => segRange (x.base + lmu) count
    | none => []
  match e with
  | .map ns lmu count _ => of ns lmu count
  | .discard ns lmu count => of ns lmu count
  | .gcMove ns lmu _ => of ns lmu 1
  | .nsDelete ns => match i.ns.find? (fun x => x.id == ns) with
    | some x => segRange x.base x.cap
    | none => []
  | _ => []

/-- Adds the members of a list that another lacks. -/
def addNew (l new : List Nat) : List Nat := l ++ new.filter (fun x => !l.contains x)

/-- The first entry of a journal page takes an event sequence number, and its time is noted (R136, R137). -/
def State.openTail (s : State) : State :=
  if s.media.tail.isEmpty then
    let r := s.issueSeq
    { r.2 with media := { r.2.media with tailEvt := r.1, tailSince := r.2.now } }
  else s

/-- Journals an entry: the image changes and the entry joins the tail, which is programmed when a page is full. -/
def State.journal (s : State) (e : JEntry) : State :=
  let s := s.openTail
  let m := s.media
  let s := { s with media := { m with
    image := applyJ s.nand.bands m.image e, tail := m.tail ++ [e], appended := m.appended + 1,
    changed := addNew m.changed (e.segments m.image) } }
  if s.media.tail.length ≥ 1020 then s.pushTail else s

/-- Journals DISCARD for a run of units, at most 65,535 in one entry (R138). -/
def State.journalDiscard (s : State) (ns lmu : Nat) : Nat → Nat → State
  | 0, _ => s
  | _, 0 => s
  | fuel + 1, n + 1 =>
    let c := min (n + 1) 65535
    (s.journal (.discard ns lmu c)).journalDiscard ns (lmu + c) fuel (n + 1 - c)

/-- The capacity of the blocks of bands that are open or unverified, in units (R157). -/
def State.bandUnits (s : State) : Nat :=
  (s.media.image.bands.filter (fun b => b.state != .verified)).foldl
    (fun a b => a + b.blocks.length * s.media.geometry.blockUnits) 0

/-- Channels that hold a usable target. -/
def Media.channels (m : Media) : List Nat := (m.usable.map (·.1)).eraseDups

def State.usableChannels (s : State) : Nat := s.media.channels.length

/-- Pages an SLC-mode block holds: those of the native block divided by its bits per cell. -/
def State.slcUnits (s : State) : Nat :=
  s.media.geometry.blockUnits / (if s.media.layout.cell = 2 then 4 else 3)

/-- The SLC journal and parity reserve, in blocks (R157). -/
def State.slcReserve (s : State) : Nat :=
  let per := max s.slcUnits 1
  (24 * 2 ^ 30 / 16384 + per - 1) / per + 4 + 64

/-- The reserve, in units (R157). -/
def State.reserveUnits (s : State) : Nat :=
  (2 * s.media.usable.length + 2 * s.usableChannels + s.slcReserve) * s.media.geometry.blockUnits

/-- P: the data capacity of the usable targets, in units, within the raw capacity in use, after bad blocks and the SLC
reserves (R122, R123); the blocks of a target lost at run time are gone from it (R135). -/
def State.dataUnits (s : State) : Nat :=
  let m := s.media
  let per := m.geometry.blocksPerPlane
  let all := min ((m.usable.length + m.lost.length) * per) (m.rawUnits / max m.geometry.blockUnits 1)
  let retired := (s.nand.retired.filter (fun b => !m.lost.contains (pmaTarget b))).length
  (all - m.lost.length * per - m.health.factoryBad - retired - (2 * s.usableChannels + s.slcReserve)) * m.geometry.blockUnits

/-- The spare space, in units; it can fall below zero (R157). -/
def State.spareUnits (s : State) : Int :=
  (s.dataUnits : Int) - (s.media.userCap : Int) - (s.bandUnits : Int)

/-- U for a cell layout: P × (1 − OP), rounded down (R122). -/
def userCapOf (p opHalf : Nat) : Nat := p * (200 - opHalf) / 200

/-- WEAR_USED (R161): the mean erase count of the usable targets' blocks as a percentage of the rated cycles. -/
def State.wearUsed (s : State) : Nat :=
  let per := s.media.geometry.blocksPerPlane
  let total := s.nand.eraseCounts.foldl (fun a e => a + e.2) 0 + s.nand.targetErases.foldl (fun a e => a + e.2 * per) 0
  min 255 (total * 100 / (s.media.usable.length * per * Config.ratedCycles))

/-- When spare space falls to the reserve, every namespace becomes read-only, recorded once (R158). -/
def State.checkWorn (s : State) : State :=
  if s.media.health.worn then s
  else if s.spareUnits ≤ (s.reserveUnits : Int) then
    let s := s.log 0x0307 medBase
    let s := { s with media := { s.media with
      health := { s.media.health with worn := true }, wornDelete := false,
      state := if s.media.state = MediaState.ready then MediaState.readOnlyWorn else s.media.state } }
    s.writeAnchor false
  else s

/-- When spare space falls below 10 % of P − U, CRITICAL bit 0 is set and a warning is recorded (R160). -/
def State.checkSpare (s : State) : State :=
  let low := decide (s.spareUnits * 10 < (s.dataUnits : Int) - (s.media.userCap : Int))
  if low && !s.media.health.spareLow then
    let s := s.log 0x0000 medBase
    { s with media := { s.media with health := { s.media.health with spareLow := true } } }
  else { s with media := { s.media with health := { s.media.health with spareLow := low } } }

/-- The spare space has changed: the warning and the reserve are looked at (R158, R160). -/
def State.spareChanged (s : State) : State := s.checkSpare.checkWorn

/-- The device leaves READ_ONLY_WORN once a Delete has been made in it and the spare space is 1 % of P above the reserve
(R159). -/
def State.checkWornExit (s : State) : State :=
  if s.media.health.worn && s.media.wornDelete &&
      decide ((s.reserveUnits : Int) * 100 + (s.dataUnits : Int) ≤ s.spareUnits * 100) then
    let s := { s with media := { s.media with
      health := { s.media.health with worn := false }, wornDelete := false,
      state := if s.media.state = MediaState.readOnlyWorn then MediaState.ready else s.media.state } }
    s.writeAnchor false
  else s

/-- Why a media command is refused whatever it asks: a pending life-cycle transition, a Returned part, zeroised keys,
Sanitize, too few targets, or a lost map (R113, R128, R145, R571, R573, R576). -/
def State.mediaGate (s : State) : Option Status :=
  if s.trust.pending || s.lc == .returned then some 0x0F03
  else if s.trust.zeroised then some 0x0F08
  else if s.media.sanitize.isSome then some 0x0309
  else match s.media.state with
    | .noMedia => some 0x0207
    | .mapLost => some 0x0308
    | .unformatted => some 0x0308
    | _ => none

/-- The last-gasp sequencer, or the entry to Off, has closed admission: a new command gets no completion (R152, R153, R626). -/
def State.mediaStopped (s : State) : Bool := s.media.lgActive || s.media.lgDone || s.power.offPending

/-- Admission of writes and Discards is held: the journal has reached 12 GiB since the newest anchored checkpoint's start
(R141). -/
def State.admissionHeld (s : State) : Bool := s.media.stalled || decide (s.media.journalBytes ≥ 12 * 2 ^ 30)

/-- Places that admitted writes hold while they wait for the units they merge with (R157). -/
def State.heldPlaces (s : State) : List Nat :=
  s.media.reads.flatMap (fun r => match r.write with | some w => w.pmas | none => [])

/-- Units the write buffer holds or has promised: buffered ones, those of writes that wait, and prepared shares (R129, R533). -/
def State.unitsHeld (s : State) : Nat := s.media.buffered.length + s.heldPlaces.length + s.group.prepared.length

/-- The protected region has room for `n` more units: the write buffer's 32 MiB and the journal tail's 4 MiB of entries
(R129). -/
def State.roomFor (s : State) (n : Nat) : Bool :=
  decide (s.unitsHeld + n ≤ 2048) &&
  decide (s.media.tail.length + (s.media.programming.map (fun p => p.entries.length)).sum + n ≤ 262144)

/-- Space can be reserved for `n` more units whose places are chosen later: the spare space and what open bands have left cover them
with those already promised (R157). -/
def State.spaceFor (s : State) (n : Nat) : Bool :=
  let left := ((s.media.image.bands.filter (fun b => b.state == .opened)).map (fun b =>
    b.blocks.length * s.media.geometry.blockUnits - b.programmed.length)).sum
  decide (((s.unitsHeld + n : Nat) : Int) ≤ s.spareUnits + (left : Int))

/-- The bands a placement opens are legal: 31 data blocks and a parity block on 32 distinct usable targets, on
distinct channels where 32 channels are usable, and at most 64 bands open (R131). -/
def State.bandOk (s : State) (b : BandSpec) : Bool :=
  let ts := (b.blocks ++ [b.parity]).map pmaTarget
  b.blocks.length == 31 && ts.eraseDups.length == 32 && ts.all (fun t => s.media.usable.contains t) &&
    (decide (s.usableChannels < 32) || ((ts.map (·.1)).eraseDups.length == 32)) &&
    decide ((s.media.image.bands.filter (fun x => x.state == .opened)).length < 64) &&
    s.media.image.bands.all (fun x => x.id != b.id) &&
    (b.blocks ++ [b.parity]).all (fun x => s.nand.freeBlocks.contains x)

/-- Opens a placement's bands (R131), each recorded in its parity block and journaled BAND_OPEN; `gc` marks them as
garbage-collection bands (R147). -/
def State.openBands (s : State) (gc : Bool) : List BandSpec → State
  | [] => s
  | b :: bs =>
    if s.bandOk b then
      let held : Band := { id := b.id, blocks := b.blocks, parity := b.parity }
      let s := { s with
        nand := { s.nand with
          freeBlocks := s.nand.freeBlocks.filter (fun x => !(b.blocks ++ [b.parity]).contains x),
          bands := s.nand.bands.filter (fun (x : Band) => x.id != b.id) ++ [held] },
        media := { s.media with gcBands := if gc then s.media.gcBands ++ [b.id] else s.media.gcBands.filter (· != b.id) } }
      (s.journal (.bandOpen b.id b.parity)).spareChanged.openBands gc bs
    else s.openBands gc bs

/-- The band that holds a block as one of its data blocks. -/
def State.bandOf (s : State) (block : Nat) : Option Band := s.media.image.bands.find? (fun b => b.blocks.contains block)

/-- A place is free for a new unit: its UNIT may be assigned (R124), it lies in an open band, and it is not programmed, buffered,
mapped or held for a write that waits (R131). -/
def State.placeFree (s : State) (pma : Nat) : Bool :=
  decide (pma % 2 ^ 30 < 0x3FFFFFFE) &&
  s.media.image.bands.any (fun b => b.state == .opened && b.blocks.contains (s.blockOf pma) &&
    !b.programmed.contains pma) &&
  !s.media.buffered.contains pma && (s.unitAt pma).isNone && !s.heldPlaces.contains pma

/-- Every place of a list is free and no two are the same. -/
def State.placesFree (s : State) (ps : List Nat) : Bool :=
  ps.all (fun p => s.placeFree p) && ps.eraseDups.length == ps.length

/-- Free places in bands of one kind: those of garbage collection, or the others (R147). -/
def State.placesOk (s : State) (ps : List Nat) (gc : Bool := false) : Bool :=
  s.placesFree ps &&
  ps.all (fun p => (s.bandOf (s.blockOf p)).any (fun b => s.media.gcBands.contains b.id == gc))

/-- The rows of a band whose parity is being built in an accumulator (R132). -/
def Band.accRows (g : NandGeometry) (b : Band) : List Nat :=
  if b.state = .opened then
    ((b.programmed.map (fun p => p - g.blockOf p)).eraseDups).filter (fun r => !b.rows.contains r && !b.lostRows.contains r)
  else []

/-- Accumulators of 16 KiB in use; the protected region holds 512 (R129, R132). -/
def State.accumulators (s : State) : Nat :=
  (s.media.image.bands.map (fun b => (b.accRows s.media.geometry).length)).sum

/-- A page of row `row` joins its band: once all of the row is programmed, so is its parity, and a full band becomes unverified
(R132, R133). -/
def Band.program (g : NandGeometry) (b : Band) (pma : Nat) : Band :=
  let row := pma - g.blockOf pma
  let b := { b with programmed := b.programmed ++ [pma] }
  let b := if b.blocks.all (fun x => b.programmed.contains (x + row)) then { b with rows := b.rows ++ [row] } else b
  if b.programmed.length ≥ b.blocks.length * g.blockUnits then { b with state := .unverified } else b

/-- A page of an open band has been transferred to its target: the accumulator of its row includes it, its entry leaves the write
buffer, and it is counted (R132, R161). -/
def State.programPage (s : State) (pma : Nat) : State :=
  let blk := s.blockOf pma
  let mine (b : Band) : Bool := b.state == .opened && b.blocks.contains blk && !b.programmed.contains pma
  if s.media.image.bands.any mine then
    let upd (b : Band) : Band := if mine b then b.program s.media.geometry pma else b
    let s := { s with media := { s.media with
      image := { s.media.image with bands := s.media.image.bands.map upd },
      buffered := s.media.buffered.filter (· != pma) } }
    s.healthBump 2 1
  else s

/-- A page is transferred once its row has an accumulator: one in use, or one of the 512 that is free (R129, R132). -/
def State.pageProgrammed (s : State) (pma : Nat) : State :=
  let blk := s.blockOf pma
  let open' := (s.bandOf blk).any (fun b => (b.accRows s.media.geometry).contains (pma - blk))
  if open' || decide (s.accumulators < 512) then s.programPage pma else s

/-- The XOR of the programmed pages of a row of a band: the content of its accumulator, and of its page in the parity block once
the row is full (R132). -/
def State.rowParity (s : State) (b : Band) (row : Nat) : List Byte :=
  xorAll 16384 ((b.blocks.filter (fun x => b.programmed.contains (x + row))).map (fun x => s.cipherAt (x + row)))

/-- Writes a unit's content at a place of the protected buffer, encrypted under its namespace's key, with the metadata of its
codewords (R115, R558). -/
def State.storeUnit (s : State) (ns u pma : Nat) (data : List Byte) : State :=
  { s with
    nand := { s.nand with
      store := memWrite s.nand.store (pma * 16384) data,
      info := infoSet s.nand.info pma { ns := ns, unit := u, jseq := s.media.nextJSeq, key := s.engineKey ns },
      badBlocks := s.nand.badBlocks.filter (fun p => p / 4 != pma) },
    media := { s.media with buffered := s.media.buffered ++ [pma] } }

/-- Stores a unit's new content at its place, in the protected buffer, and journals MAP (R130); what failed at its old place is
rewritten by it (R119). -/
def State.placeUnit (s : State) (ns u pma : Nat) (data : List Byte) : State :=
  let old := s.pmaOf ns u
  let s := s.storeUnit ns u pma (slice data 0 16384)
  let s := { s with nand := { s.nand with badBlocks := s.nand.badBlocks.filter (fun p => some (p / 4) != old) } }
  s.journal (.map ns u 1 pma)

/-- Copies a mapped unit to another place and journals GC_MOVE (R133, R134); a request that waits for it to be programmed waits for
the copy. -/
def State.moveUnit (s : State) (ns u pma : Nat) : State :=
  match s.pmaOf ns u with
  | none => s
  | some old =>
    let s := s.storeUnit ns u pma (s.unitAtPlace old)
    let moved (w : DurWait) : DurWait := { w with units := w.units.map (fun x => if x = old then pma else x) }
    let s := { s with media := { s.media with
      buffered := s.media.buffered.filter (· != old), waits := s.media.waits.map moved } }
    s.journal (.gcMove ns u pma)

/-- A waiting request's durability condition (R126, R130). -/
def State.durable (s : State) (w : DurWait) : Bool :=
  w.units.all (fun u => !s.media.buffered.contains u && !s.heldPlaces.contains u) && decide (w.entries ≤ s.media.committed)

/-- Completes the waiting requests of a kind whose condition holds, oldest first. -/
def State.settle (s : State) (features : Bool) : State :=
  let isF (w : DurWait) : Bool := match w.kind with | .flush => false | .nsFeature _ => true
  let done := s.media.waits.filter (fun w => isF w == features && s.durable w)
  let rest := s.media.waits.filter (fun w => !(isF w == features && s.durable w))
  let s := { s with media := { s.media with waits := rest } }
  done.foldl (fun s w => s.reply w.path 0) s

/-- A namespace's Seal has been admitted but has not completed (R126). -/
def State.sealWaiting (s : State) (ns : Nat) : Bool :=
  s.media.waits.any (fun w => match w.kind with | .nsFeature (some n) => n == ns | _ => false)

/-- Sealed for Stream Open: the Seal has completed (R126). -/
def State.nsSealedDone (s : State) (ns : Nat) : Bool :=
  match s.nsInfo ns with
  | some x => x.isSealed && !s.sealWaiting ns
  | none => false

/-- A namespace gets a new key, drawn from the saggar's DRBG, which is unwrapped into the cipher engine (R552, R559). -/
def State.drawKey (s : State) (ns : Nat) : State :=
  let f := s.takeFree
  { f.2 with
    trustKept := { f.2.trustKept with nsKeys := natSet f.2.trustKept.nsKeys ns (f.1 + 1) },
    media := { f.2.media with engineKeys := natSet f.2.media.engineKeys ns (f.1 + 1) } }

/-- A namespace's key is destroyed (R126, R559). -/
def State.dropKey (s : State) (ns : Nat) : State :=
  { s with
    trustKept := { s.trustKept with nsKeys := s.trustKept.nsKeys.filter (fun x => x.1 != ns) },
    media := { s.media with engineKeys := s.media.engineKeys.filter (fun x => x.1 != ns) } }

/-- The key record moves to the other key block and the old block is erased (R556). -/
def State.cryptoEraseRecord (s : State) : State :=
  let k := s.trustKept.keyBlocks
  let n := k.seq + 1
  let k : KeyBlocks := if k.current1 then { block0 := some n, block1 := none, seq := n, current1 := false }
    else { block0 := none, block1 := some n, seq := n, current1 := true }
  { s with trustKept := { s.trustKept with keyBlocks := k } }

/-- CRYPTO on every namespace: new keys, every entry UNMAPPED (R128, R556). -/
def State.cryptoEraseAll (s : State) : State :=
  let s := (s.media.image.ns).foldl (fun s x => s.drawKey x.id) s.cryptoEraseRecord
  (s.media.image.ns).foldl (fun s x => s.journalDiscard x.id 0 (x.cap / 65535 + 1) x.cap) s

/-- The media handover of R574: anchor, key, journal and last-gasp blocks are erased and a plain handover record is
written. -/
def State.mediaHandover (s : State) : State :=
  let h : Handover := { layout := s.media.layout, userCap := s.media.userCap, retired := s.nand.retired,
                        health := s.media.health, ceiling := s.evt.ceiling }
  { s with nand := { s.nand with
             anchor0 := none, anchor1 := none, journal := [], lgPages := [], lgUnits := [], handover := some h },
           trustKept := { s.trustKept with keyBlocks := {}, nsKeys := [] } }

/-- Every acknowledged write is programmed and the journal committed (R130), as Flush of every namespace. -/
def State.flushAllMedia (s : State) : State :=
  let s := s.media.buffered.foldl (fun s p => s.programPage p) s
  let s := s.pushTail
  { s with nand := { s.nand with journal := s.nand.journal ++ s.media.programming },
           media := { s.media with programming := [], committed := s.media.appended } }

/-- Starts the last-gasp sequencer, unless it is running or has run (R150, R153); it wakes a device in Idle (R624). -/
def State.lastGaspStart (s : State) : State :=
  if s.media.lgActive || s.media.lgDone then s
  else ({ s with media := { s.media with lgActive := true } }).wakeEvent .pwrFail

/-- The place of the `k`-th page of a last-gasp sequence: the blocks are filled side by side. -/
def State.lgPlace (s : State) (k : Nat) : Nat :=
  let n := max s.nand.lgBlocks.length 1
  s.nand.lgBlocks.getD (k % n) 0 + k / n

/-- The pages a last-gasp sequence programs, in order (R152 steps 5 and 6): the write buffer, the accumulators, the journal
tail. -/
def State.lgSequence (s : State) : List LgPage :=
  let m := s.media
  m.buffered.zipIdx.map (fun x => LgPage.data x.1 (s.lgPlace x.2)) ++
  m.image.bands.flatMap (fun b => (b.accRows m.geometry).map (fun r => LgPage.parity b.id r)) ++
  (if m.tail.isEmpty then [] else [LgPage.entries m.tail])

/-- The first `n` pages of the sequence are programmed; programs in progress have completed by then, so that the journal pages being
programmed are on the media too (R152 step 4). -/
def State.gaspProgram (s : State) (n : Nat) : State :=
  let ps := s.lgSequence.take n
  let units := (ps.filter (fun p => match p with | .data _ _ => true | _ => false)).length
  let s := { s with nand := { s.nand with
    journal := s.nand.journal ++ s.media.programming, lgPages := s.nand.lgPages ++ ps } }
  if units = 0 then s else s.healthBump 2 units

/-- The end of the sequence (R152 steps 3 to 7): the write buffer, the accumulators and the journal tail are programmed to the
last-gasp blocks, and an anchor record with FLUSHED and the health log is written where there is a map. -/
def State.lastGaspFinish (s : State) (us : Nat) : State :=
  let s := (s.healthBump 12 1).gaspProgram s.lgSequence.length
  let s := { s with media := { s.media with
    buffered := [], programming := [], tail := [], lgActive := false, lgDone := true, lgUs := us, state := .lastGasp } }
  s.writeAnchor true

def State.lastGaspDone (s : State) : Bool := s.media.lgDone

end Sys2Proof.Machine
end

