-- ==== Sys2Proof/Machine/StreamBase.lean ====
section
/-! DEFINITION. Shared operations of streams: contexts, halts, stream events and the witness log (R94-R108). -/

namespace Sys2Proof.Machine

/-- CMP_JOBS and, for an error, CMP_ERRORS rise (R175). -/
def State.jobCount (s : State) (st : Status) : State :=
  let s := s.bump (cmpBase + 0x10) (cmpBase + 0x1C) 0
  if st = 0 ∨ st = 0x0709 ∨ st = 0x070B then s else s.bump (cmpBase + 0x14) (cmpBase + 0x1C) 1

/-- An open stream context. -/
def State.ctxOf (s : State) (c : Nat) : Option StreamCtx :=
  (s.streamEng.ctxs.find? (fun x => x.1 == c)).map (·.2)

def State.setCtxs (s : State) (l : List (Nat × StreamCtx)) : State :=
  { s with streamEng := { s.streamEng with ctxs := l } }

def State.updCtx (s : State) (c : Nat) (f : StreamCtx → StreamCtx) : State :=
  s.setCtxs (s.streamEng.ctxs.map (fun x => if x.1 == c then (x.1, f x.2) else x))

/-- The context that holds an open stream (R70). -/
def State.ctxByStream (s : State) (id : Nat) : Option (Nat × StreamCtx) :=
  s.streamEng.ctxs.find? (fun x => x.2.params.streamId == id)

def StreamParams.tailVoid (p : StreamParams) : Bool := p.flags.testBit 0

def StreamParams.witness (p : StreamParams) : Bool := p.flags.testBit 1

def StreamParams.replay (p : StreamParams) : Bool := p.flags.testBit 2

def StreamParams.live (p : StreamParams) : Bool := p.flags.testBit 3

/-- The effective window and budget (R66): 0 selects the default. -/
def StreamParams.windowOf (p : StreamParams) : Nat := if p.window = 0 then 4096 else p.window

def StreamParams.budgetOf (p : StreamParams) : Nat := if p.budget = 0 then 16777216 else p.budget

/-- A stream on a snapshot of this namespace is open (R51). -/
def State.streamOpenOn (s : State) (nsid : Nat) : Bool :=
  s.streamEng.ctxs.any (fun x => !x.2.params.live && x.2.params.nsid == nsid)

/-- A witnessed stream is open on this namespace (R106). -/
def State.streamWitness (s : State) (nsid : Nat) : Bool :=
  s.streamEng.ctxs.any (fun x => x.2.params.witness && x.2.params.witnessNsid == nsid)

/-- A group stream (R539). -/
def State.groupCtx (s : State) (x : StreamCtx) : Bool := !x.params.live && s.memberNs x.params.nsid

/-- Why a group request is refused (R526, R527, R547). -/
def State.groupGate (s : State) : Option Status :=
  if s.group.state = 4 then some 0x0E02 else if s.group.state = 0 ∨ s.group.state = 5 then some 0x0E01 else none

/-- q (R524). -/
def State.quorum (s : State) : Nat := (s.groupG + 1) / 2 + 1

/-- The device ID of a group entry (R549). -/
def State.entryDevice (s : State) (n : Nat) : Nat := s.regFld (grpBase + 0x100 + 8 * n) 0 24

def State.entryState (s : State) (n : Nat) : Nat := s.group.states.getD n 0

/-- The other devices of the group: the entries that are not EMPTY, FAILED ones included, but for the own one. -/
def State.others (s : State) : List Nat :=
  (List.range 65).filter (fun n => decide (s.entryState n ≠ 0 ∧ n ≠ s.group.self))

/-- Sends a group message (R522) to an entry's device. The message carries GROUP_ID and the sender's generation; the spec
gives no encoding of it, so the model records what it says. -/
def State.groupSend (s : State) (kind n : Nat) (body : List Nat) : State :=
  if n = s.group.self then s
  else s.emit (.groupMsg kind (s.entryDevice n) ([(s.reg (grpBase + 4)).toNat, s.group.gen] ++ body))

/-- Sends a group message to every other device of the group. -/
def State.groupCast (s : State) (kind : Nat) (body : List Nat) : State :=
  s.others.foldl (fun s n => s.groupSend kind n body) s

/-- The partner of a group stream (R539): the next position after the primary's that is ACTIVE or REBUILDING. -/
def State.partnerOf (s : State) (primary : Nat) : Option Nat :=
  let g := s.regFld grpBase 1 7
  ((List.range (g - 1)).map (fun i => (primary + 1 + i) % max g 1)).find? (fun n =>
    let st := s.group.states.getD n 0
    decide (st = 1 ∨ st = 2) && decide (n < g))

/-- The delivered prefix D of a stream (R542). -/
def StreamCtx.delivered (c : StreamCtx) : Nat := c.inEgress.headD c.next

/-- A counter of a stream context rises (R99). -/
def StreamCtx.bump (c : StreamCtx) (i n : Nat) : StreamCtx :=
  let r := satBump 32 (c.ctr.getD i 0) n (c.ovf.getLsbD i)
  { c with ctr := modAt c.ctr i (fun _ => r.1), ovf := setBit c.ovf i r.2 }

/-- A status for the consumer of a stream that Gnoz serves (R480). -/
def State.sendStreamEvent (s : State) (c : Nat) (x : StreamCtx) (st : Status) (forme : Nat) : State :=
  let h := x.params.consumer
  let s := s.emit (.streamEvent 0 x.params.streamId forme st 0)
  if h = 0 then s
  else s.sendMsg {
    kind := 0xA, device := h / 2 ^ 32 % 2 ^ 24, route := h % 65536, dstQueue := handleQueue h, srcQueue := 0xFFFF,
    msgId := 0, length := 0, immediate := x.params.streamId + st.toNat * 65536, remoteAddr := forme }
    [] (.event c st.toNat forme)

/-- A stream halts at a forme (R94, R96): recorded in its status, in the error log with the stream and the forme, and
for the consumer. A halt at an earlier forme stands. -/
def State.haltStream (s : State) (c : Nat) (st : Status) (forme : Nat) : State :=
  match s.ctxOf c with
  | none => s
  | some x =>
    let already := match x.halted with | some (_, f) => !seqEarlier 48 forme f | none => false
    if already then s
    else
      let s := s.updCtx c (fun x => { x with halted := some (st, forme), status := st })
      let s := s.log st wdgBase x.params.streamId forme
      s.sendStreamEvent c x st forme

/-- The stages of a candidate in the order of R81. -/
inductive Stage where
  | record
  | decode (f : Nat)
  | op (f k : Nat)
  | gen
  | sieve
  deriving DecidableEq, Repr

def graphStages (g : Graph) : List Stage :=
  [.record] ++
    (List.range g.fields.length).flatMap (fun f =>
      .decode f :: (List.range ((g.fields[f]?).map (fun x => x.ops.length) |>.getD 0)).map (Stage.op f)) ++
    (match g.gen with | some _ => [.gen] | none => []) ++ (match g.sieve with | some _ => [.sieve] | none => [])

/-- Check 1 of R74: the manifest entry and its signature; `unreadable` when the signature header cannot be read. -/
inductive RecordPlace where
  | bad
  | unreadable
  | at (addr len : Nat)
  deriving DecidableEq, Repr

def State.recordPlace (s : State) (c : StreamCtx) (folio : Nat) : RecordPlace :=
  let ns := c.params.nsid
  let cap := ((s.nsSeen ns).map (·.cap)).getD 0 * 16384
  let m := c.manifestLba * 4096 + 16 * folio
  if !s.nsReadable ns m 16 then .unreadable
  else
    let e := s.nsBytes ns m 16
    let sig := leField e 0 4
    let len := leField e 4 4
    let off := leField e 8 8
    if sig ≥ c.sigCount ∨ off % 64 ≠ 0 ∨ off < 4096 ∨ len % 64 ≠ 0 ∨ len < 64 ∨ len > 67108864 then .bad
    else
      let t := c.sigTableLba * 4096 + 16 * sig
      if !s.nsReadable ns t 16 then .unreadable
      else
        let g := s.nsBytes ns t 16
        let lba := leField g 0 8
        let sl := leField g 8 8
        if off + len > sl ∨ lba * 4096 + sl > cap then .bad
        else if !s.nsReadable ns (lba * 4096) 4096 then .unreadable
        else
          let h := s.nsBytes ns (lba * 4096) 4096
          if leField h 0 4 ≠ 0x5349474E ∨ leField h 4 2 ≠ 1 ∨ leField h 8 16 ≠ c.params.snapshotId ∨
            leField h 0x18 4 ≠ sig ∨ leField h 0xFFC 4 ≠ crc32c (h.take 0xFFC) then .bad
          else if !s.nsReadable ns (lba * 4096 + off) len then .unreadable
          else .at (lba * 4096 + off) len

/-- A graph with its fields in the field order of a record (R57, R81): by the first descriptor that carries their TAG. -/
def recordOrder (r : List Byte) (g : Graph) : Graph :=
  let at_ (f : GraphField) : Option Nat := (List.range (leField r 4 2)).find? (fun i => leField r (0x2E + 32 * i) 2 == f.tag)
  { g with fields := (List.range (leField r 4 2)).flatMap (fun i => g.fields.filter (fun f => at_ f == some i)) ++
      g.fields.filter (fun f => (at_ f).isNone) }

/-- The graph as a candidate goes through it: a stored record, once read, sets the order of the fields; a live unit has one
field. -/
def StreamCtx.candGraph (x : StreamCtx) (z : Candidate) : Graph :=
  if x.params.live || z.record.isEmpty then x.graph else recordOrder z.record x.graph

def StreamCtx.slotAt (c : StreamCtx) (g : Nat) : Option Slot := c.slots.find? (fun x => x.g == g)

/-- Candidates 0 to n - 1 of a slot have failed. -/
def Slot.failedBelow (y : Slot) (n : Nat) : Bool :=
  (List.range n).all (fun j => y.cands.any (fun (z : Candidate) => z.j == j && (match z.status with | .failed _ => true | _ => false)))

/-- A candidate that is tried now, whose record cannot be read. -/
def State.unreadCand (s : State) (x : StreamCtx) (y : Slot) : Bool :=
  y.outcome.isNone && y.cands.any (fun (z : Candidate) =>
    z.status == .working && z.stage == 0 && y.failedBelow z.j && s.recordPlace x z.folio == .unreadable)

/-- A media read of a stream failed every tier: the stream halts at the first forme with a slot whose record it keeps from
being read (R82). -/
def State.streamUnreadable (s : State) (c : Nat) : State :=
  match s.ctxOf c with
  | none => s
  | some x =>
    match (if x.params.live then [] else x.slots.filter (s.unreadCand x)).map (fun (y : Slot) => y.g / max x.params.slots 1) with
    | [] => s
    | n :: ns => s.haltStream c 0x0408 (ns.foldl min n)

/-- The first free place of the open bands, those of garbage collection apart; the device's own choice for a unit it writes itself. -/
def State.autoPlace (s : State) : Option Nat :=
  ((s.media.image.bands.filter (fun b => b.state == .opened && !s.media.gcBands.contains b.id)).flatMap (·.blocks)).findSome? (fun b =>
    ((List.range s.media.geometry.blockUnits).map (b + ·)).find? s.placeFree)

/-- Free blocks on targets not named yet, at most `n` of them. -/
def pickBlocks : Nat → List (Nat × Nat) → List Nat → List Nat
  | 0, _, _ => []
  | _, _, [] => []
  | n + 1, used, b :: bs =>
    if used.contains (pmaTarget b) then pickBlocks (n + 1) used bs
    else b :: pickBlocks n (pmaTarget b :: used) bs

/-- A place for a unit that the device writes itself, in a new band where no open band has room. -/
def State.autoPlaceOpen (s : State) : Option (Nat × State) :=
  match s.autoPlace with
  | some p => some (p, s)
  | none =>
    let bs := pickBlocks 32 [] s.nand.freeBlocks
    let id := (s.media.image.bands.map (·.id)).foldl max 0 + 1
    let s' := s.openBands false [{ id := id, blocks := bs.take 31, parity := bs.getD 31 0 }]
    match s'.autoPlace with
    | some p => some (p, s')
    | none => none

/-- Bytes written over a unit's content. -/
def patchBytes (old : List Byte) (off : Nat) (b : List Byte) : List Byte :=
  old.take off ++ b ++ old.drop (off + b.length)

/-- New contents of a share: at a place of this device's own choice where this position holds it, else at its member;
none when this device has no place for it. -/
def State.putShare (s : State) (ns stripe j : Nat) (b : List Byte) : Option State :=
  if s.sharePos stripe j = s.group.self then
    match s.autoPlaceOpen with
    | some (p, s) => some (s.placeUnit ns (s.shareUnit stripe j) p b)
    | none => none
  else some { s with group := { s.group with remoteShares := memWrite s.group.remoteShares (shareKey ns stripe j) b } }

/-- A stripe of a group namespace is lost (R546). -/
def State.stripeLost (s : State) (ns stripe : Nat) : Bool :=
  match s.groupNs ns with
  | some g => g.lost.any (fun l => decide (stripe % s.groupG = l.1 ∧ l.2 ≤ stripe))
  | none => false

/-- The data shares of a stripe as they stand, each readable or decoded. -/
def State.stripeData (s : State) (ns stripe : Nat) : List (List Byte) :=
  (List.range (s.groupW - 2)).map (fun j => s.unitSeen ns (stripe * (s.groupW - 2) + j))

/-- The shares of a stripe that a write changes (R533): its new data shares, then P and Q over the whole stripe. -/
def State.newShares (s : State) (ns stripe : Nat) (new : List (Nat × List Byte)) : List (Nat × List Byte) :=
  let w := s.groupW
  let old := s.stripeData ns stripe
  let d := (List.range (w - 2)).map (fun j => match new.find? (fun x => x.1 == j) with
    | some x => x.2
    | none => old.getD j [])
  new ++ [(w - 2, parityP 16384 d), (w - 1, parityQ 16384 ((List.range (w - 2)).zip d))]

/-- Places shares one after another. -/
def State.putShares (s : State) (ns stripe : Nat) : List (Nat × List Byte) → Option State
  | [] => some s
  | x :: xs => match s.putShare ns stripe x.1 x.2 with
    | some s => s.putShares ns stripe xs
    | none => none

/-- The device writes bytes of a namespace through the write path; none when it cannot (R106, R348). A unit of a group
namespace goes with the parity of its stripe (R533). -/
def State.deviceWrite (s : State) (ns addr : Nat) (b : List Byte) : Nat → Option State
  | 0 => if b.isEmpty then some s else none
  | n + 1 =>
    if b.isEmpty then some s
    else
      let u := addr / 16384
      let off := addr % 16384
      let now := b.take (16384 - off)
      if s.memberNs ns then
        let st := s.unitStripe u
        if s.stripeLost ns st then none
        else match s.putShares ns st (s.newShares ns st [(s.unitShare u, patchBytes (s.unitSeen ns u) off now)]) with
          | none => none
          | some s => s.deviceWrite ns (addr + now.length) (b.drop now.length) n
      else match s.autoPlaceOpen with
      | none => none
      | some (p, s) =>
        (s.placeUnit ns u p (patchBytes (s.unitBytes ns u) off now)).deviceWrite ns (addr + now.length)
          (b.drop now.length) n

/-- A witness record (R105): a 32-byte header, then the payload padded to a multiple of 32 bytes. -/
def witnessRecord (type streamId seq key : Nat) (payload : List Byte) : List Byte :=
  let len := 32 + (payload.length + 31) / 32 * 32
  let h := leBytes 2 type ++ leBytes 2 streamId ++ leBytes 4 len ++ leBytes 8 seq ++ leBytes 8 key ++
    leBytes 4 (crc32c payload)
  h ++ leBytes 4 (crc32c h) ++ slice payload 0 (len - 32)

/-- The end of a namespace's witness log in use. -/
def State.witnessEnd (s : State) (ns : Nat) : Nat :=
  ((s.streamEng.witnessEnds.find? (fun x => x.1 == ns)).map (·.2)).getD 0

def State.setWitnessEnd (s : State) (ns e : Nat) : State :=
  { s with streamEng := { s.streamEng with
      witnessEnds := s.streamEng.witnessEnds.filter (fun x => x.1 != ns) ++ [(ns, e)] } }

/-- Appends a record to a witness namespace; none when it does not fit or the media is READ_ONLY_WORN (R104, R106). -/
def State.witnessWrite (s : State) (ns type streamId key : Nat) (payload : List Byte) : Option State :=
  match s.nsSeen ns with
  | none => none
  | some n =>
    let len := 32 + (payload.length + 31) / 32 * 32
    if s.media.health.worn || s.mediaStopped || decide (s.witnessEnd ns + len > n.cap * 16384) then none
    else
      let (seq, s) := s.issueSeq
      let b := witnessRecord type streamId seq key payload
      match s.deviceWrite ns (s.witnessEnd ns) b (b.length / 16384 + 2) with
      | none => none
      | some s => some (s.setWitnessEnd ns (s.witnessEnd ns + len))

/-- Records an external input of a stream before it takes effect (R104): the state when the input may take effect,
or none after the stream has been halted with 0x040B (R106). A stream without WITNESS records nothing. -/
def State.witnessAppend (s : State) (c type key : Nat) (payload : List Byte) : Bool × State :=
  match s.ctxOf c with
  | none => (true, s)
  | some x =>
    if !x.params.witness then (true, s)
    else match s.witnessWrite x.params.witnessNsid type x.params.streamId key payload with
      | some s => (true, s)
      | none => (false, s.haltStream c 0x040B x.next)

/-- A record of a witness log as read: its type, stream, sequence, key, offset, payload before padding, and whether
the payload's CRC passes. -/
structure WRecord where
  type : Nat
  streamId : Nat
  seq : Nat
  key : Nat
  off : Nat
  len : Nat
  payload : List Byte
  crcOk : Bool
  deriving DecidableEq, Repr

/-- The payload length before padding that TYPE gives (R105). -/
def witnessPayloadLen (type : Nat) (body : List Byte) : Nat :=
  match type with
  | 1 => 128
  | 2 => 72
  | 3 => 32 + leField body 0x10 4
  | 4 => 0x40 + 68 * leField body 0x20 2 + leField body 0x24 4
  | _ => 0

/-- What a position of a log holds: an unreadable block, its end, or a record (R106). -/
inductive WStep where
  | unreadable
  | atEnd
  | record (r : WRecord)
  deriving DecidableEq, Repr

def State.witnessAt (s : State) (ns cap off : Nat) : WStep :=
  if off + 32 > cap then .atEnd
  else if !s.nsReadable ns off 32 then .unreadable
  else
    let h := s.nsBytes ns off 32
    let len := leField h 4 4
    if h.all (· == 0) || leField h 0x1C 4 != crc32c (h.take 0x1C) || decide (len < 32) then .atEnd
    else if !s.nsReadable ns off len then .unreadable
    else
      let body := s.nsBytes ns (off + 32) (len - 32)
      let t := leField h 0 2
      let p := slice body 0 (witnessPayloadLen t body)
      .record { type := t, streamId := leField h 2 2, seq := leField h 8 8, key := leField h 0x10 8, off := off,
                len := len, payload := p, crcOk := leField h 0x18 4 == crc32c p }

/-- Reads a log from an offset to its end (R106): the records, the end, and whether an unreadable block stopped it. -/
def State.witnessScan (s : State) (ns cap off : Nat) : Nat → List WRecord × Nat × Bool
  | 0 => ([], off, false)
  | n + 1 =>
    match s.witnessAt ns cap off with
    | .unreadable => ([], off, true)
    | .atEnd => ([], off, false)
    | .record r =>
      let t := s.witnessScan ns cap (off + r.len) n
      (r :: t.1, t.2)

/-- The whole log of a namespace. -/
def State.witnessLog (s : State) (ns : Nat) : List WRecord × Nat × Bool :=
  let cap := ((s.nsSeen ns).map (·.cap)).getD 0 * 16384
  s.witnessScan ns cap 0 (cap / 32 + 1)

end Sys2Proof.Machine
end

