-- ==== Sys2Proof/Machine/RunOps.lean ====
section
/-! DEFINITION. Shared operations of runs, trace records and sync counters (R346-R396). -/

namespace Sys2Proof.Machine

/-- The timebase, in ticks of 2.5 ns (R392). -/
def State.timebase (s : State) : Nat := s.now * 2 / 5

def regObsCfg : Nat := obsBase

/-- Writes one record at the trace's write index (R395): the ring overwrites its oldest, STOP mode ends at its end. -/
def State.traceWrite (s : State) (b : List Byte) : State :=
  let size := 2 ^ s.regFld regObsCfg 8 6
  let stop := s.regFld regObsCfg 1 1 = 1
  let o := s.obs
  let n := size / 32
  let o' := { o with
    mem := memWrite o.mem (o.wr * 32 % size) b, wr := o.wr + 1,
    wrapped := o.wrapped || (!stop && decide (o.wr ≥ n)),
    active := o.active && !(stop && decide (o.wr + 1 ≥ n)),
    full := o.full || (stop && decide (o.wr + 1 ≥ n)) }
  { s with obs := o' }

/-- The bytes of a trace record (R392). -/
def State.traceBytes (s : State) (seq type source run flags arg0 arg1 : Nat) : List Byte :=
  leBytes 8 seq ++ leBytes 8 s.timebase ++ leBytes 2 type ++ leBytes 2 source ++ leBytes 1 run ++ leBytes 1 flags ++
    leBytes 2 arg0 ++ leBytes 8 arg1

/-- A record of an enabled type is written, after a LOST record for those lost before it; with the trace stopped it
is dropped and counted (R393, R394). The source bit of the type is given. -/
def State.trace (s : State) (type bit source : Nat) (run flags arg0 arg1 : Nat) : State :=
  if s.regFld regObsCfg (16 + bit) 1 = 0 || s.obs.pages = 0 then s
  else if !s.obs.active then
    let s := s.bump (obsBase + 0x1C) (obsBase + 0x34) 0
    { s with obs := { s.obs with lostSince := s.obs.lostSince + 1 } }
  else
    let s :=
      if s.obs.lostSince = 0 then s
      else
        let (q, s) := s.issueSeq
        let n := s.obs.lostSince
        { s with obs := { s.obs with lostSince := 0 } }.traceWrite (s.traceBytes q 10 0 0xFF 0 0 n)
    let (q, s) := s.issueSeq
    s.traceWrite (s.traceBytes q type source run flags arg0 arg1)

/-- SIGNALLER codes (R386). -/
def sigTile (phys : Nat) : Nat := 0x1000 + phys
def sigDma (phys : Nat) : Nat := 0x2000 + phys
def sigEngine (e : Nat) : Nat := 0x3000 + e
def sigLane (l : Nat) : Nat := 0x4000 + l
def sigStream (c : Nat) : Nat := 0x5000 + c
def sigRemote (d : Nat) : Nat := 0x6000 + d % 4096
def sigSoftware (p : Nat) : Nat := 0x7000 + p

def RunState.code : RunState → Nat
  | .free => 0
  | .queued => 1
  | .starting => 2
  | .running => 3
  | .preempting => 4
  | .saved => 5
  | .resuming => 6
  | .held => 7
  | .ending => 8

/-- A run enters a state, which is traced (R346, R393). -/
def State.runState (s : State) (slot : Nat) (st : RunState) : State :=
  let s := s.updRun slot (fun r => { r with state := st })
  match s.runAt slot with
  | some r => s.trace 6 3 0 slot 0 st.code (r.status.toNat + r.detail * 65536)
  | none => s

/-- A region's run (R33). -/
def State.runOfRegion (s : State) (r : Nat) : Option Run := s.mgr.runs.find? (fun x => x.regions.contains r)

/-- A bit mask of region numbers. -/
def regionBits (l : List Nat) : Nat := l.foldl (fun a r => a + 2 ^ r) 0

/-- A run record (R351): delivered on the path of the run's START. -/
def State.deliverRecord (s : State) (slot : Nat) : State :=
  match s.runAt slot with
  | none => s
  | some r =>
    let (q, s) := s.issueSeq
    let regs := regionBits (if r.regions.isEmpty then r.lastRegions else r.regions)
    let st := match r.state with | .saved => 5 | .held => 7 | _ => 0
    let b := leBytes 2 r.status.toNat ++ leBytes 2 r.detail ++ leBytes 1 slot ++ leBytes 1 st ++ leBytes 2 r.tile ++
      leBytes 8 r.tag ++ leBytes 8 r.faultVaddr ++ leBytes 8 q ++ leBytes 8 r.cycles ++ leBytes 8 regs ++
      leBytes 4 r.fills ++ leBytes 4 r.preempts ++ leBytes 8 0
    let s := s.emit (.runRecord r.path slot r.status r.detail r.tag [st, r.tile, r.faultVaddr, regs])
    match r.path with
    | .yqi fn _ _ =>
      if r.hostGone || r.recAddr = 0 then s
      else ({ s with hostMem := memWrite s.hostMem (hostKey fn r.recAddr) b }.emit (.hostWrite fn r.recAddr b)).raiseVector
        fn r.recVector
    | .gnoz _ _ =>
      if (s.handle r.recHandle).isNone then s
      else s.sendMsg {
        kind := 2, device := r.recHandle / 2 ^ 32 % 2 ^ 24, route := r.recHandle % 65536,
        dstQueue := handleQueue r.recHandle, srcQueue := 0, msgId := 0, length := 0, immediate := r.tag } b (.record slot)
    | .image =>
      if r.recHandle = 0 || (s.handle r.recHandle).isNone then s
      else s.sendMsg {
        kind := 2, device := r.recHandle / 2 ^ 32 % 2 ^ 24, route := r.recHandle % 65536,
        dstQueue := handleQueue r.recHandle, srcQueue := 0, msgId := 0, length := 0, immediate := r.tag } b (.record slot)
    | _ => s

/-- The global index of slot 0 of the oldest forme not handed to egress (R83). -/
def StreamCtx.g0 (c : StreamCtx) : Nat := c.next * c.params.slots

/-- The stage that a plate's run computes: the generation stage has the graph's first stage run, the sieve its last. -/
def StreamCtx.runStage (c : StreamCtx) (plate : Nat) : Option Nat :=
  let at_ (st : Stage) : Option Nat := (graphStages c.graph).findIdx? (· == st)
  if c.graph.gen.isSome ∧ c.graph.stageRuns.head? = some plate then at_ .gen
  else if c.graph.sieve.isSome ∧ c.graph.stageRuns.getLast? = some plate then at_ .sieve else none

/-- The work of a slot's candidates in a plate's run is finished: the slot has its outcome, or the candidate that is tried now
has left the run's stage behind. -/
def StreamCtx.slotLeft (c : StreamCtx) (plate g : Nat) : Bool :=
  match c.slotAt g with
  | none => false
  | some y => y.outcome.isSome || y.cands.all (fun (z : Candidate) =>
      !y.failedBelow z.j || z.status != .working ||
        (match c.runStage plate with | some k => decide (k < z.stage) | none => false))

/-- The first forme that holds a slot whose candidate has not finished its work in a plate's run (R686). -/
def StreamCtx.firstUnfinished (c : StreamCtx) (plate : Nat) : Nat :=
  let b := max c.params.slots 1
  (((List.range (c.params.windowOf / b + 1)).map (c.next + ·)).find? (fun n =>
    !(List.range b).all (fun i => c.slotLeft plate (n * b + i)))).getD c.next

/-- A stage run has ended while its stream is open: the stream halts (R686). -/
def State.stageRunEnded (s : State) (r : Run) : State :=
  match r.stage with
  | none => s
  | some c =>
    match s.ctxOf c with
    | none => s
    | some x =>
      let st := if r.status = 0 then 0x090E else r.status
      let s := s.updCtx c (fun x => { x with
        stageRuns := x.stageRuns.filter (· != r.slot), endedRuns := x.endedRuns ++ [(r.plate, st)] })
      if x.closing.isSome then s
      else s.haltStream c st (x.firstUnfinished r.plate)

/-- A run that has not ended goes to ENDING with a status (R346, R360): recorded in the error log when it is a fault that
nothing has recorded yet, traced, its operations stopped, and its stream halted. -/
def State.endRun (s : State) (slot : Nat) (st : Status) (detail : Nat := 0) (tile : Nat := 0xFFFF) (va : Nat := 0)
    (logged : Bool := false) : State :=
  match s.runAt slot with
  | none => s
  | some r =>
    if r.state = RunState.free ∨ r.state = RunState.ending then s
    else
      let s := s.updRun slot (fun r => { r with
        status := st, detail := detail, tile := tile, faultVaddr := va, susp := [], filling := [], flush := none,
        resumeQueued := false, order := 0 })
      let s := if st = 0 ∨ st = 0x090E then s
        else (if logged then s else s.log st stkBase slot va 0 detail).trace 7 4 0 slot 0 st.toNat (if va = 0 then detail else va)
      let s := s.runState slot .ending
      match s.runAt slot with
      | some r => s.stageRunEnded r
      | none => s

/-- The logical tile of an operation's source, or 0x8000 + engine: a tile's core and MAC array have the tile's number as
source, its DMA 0x4000 + that number. -/
def sourceTile (source : Nat) : Nat := if source < 0x8000 then source % 0x4000 else source

/-- A held fault (R361): every tile stops and the run is HELD, with the faulting operation recorded; its record is
delivered. -/
def State.holdRun (s : State) (slot : Nat) (st : Status) (x : Susp) : State :=
  match s.runAt slot with
  | none => s
  | some r =>
    let s := s.updRun slot (fun r => { r with
      status := st, detail := 0, tile := sourceTile x.source, faultVaddr := x.vaddr,
      susp := r.susp.filter (fun y => y.source != x.source) ++ [{ x with status := st.toNat }] })
    if r.state = RunState.preempting then s.updRun slot (fun r => { r with heldPending := true })
    else
      let s := (s.log st stkBase slot x.vaddr).trace 7 4 0 slot 0 st.toNat x.vaddr
      (s.runState slot .held).deliverRecord slot

/-- A physical sync counter. -/
def State.ctr (s : State) (n : Nat) : Counter := ((s.sync.ctrs.find? (fun x => x.1 == n)).map (·.2)).getD {}

def State.setCtr (s : State) (n : Nat) (c : Counter) : State :=
  let rest := s.sync.ctrs.filter (fun x => x.1 != n)
  { s with sync := { s.sync with ctrs := if c = {} then rest else rest ++ [(n, c)] } }

/-- The physical counter that a logical number of a run names (R370, R373). -/
def State.runCounter (s : State) (r : Run) (c : Nat) : Option Nat :=
  if c < 1024 * r.regions.length then (r.regions[c / 1024]?).map (fun g => g * 1024 + c % 1024)
  else if 0xC000 ≤ c then
    (s.sync.ctrs.find? (fun x => x.2.owner == some (.run r.slot (c - 0xC000)))).map (·.1)
  else none

/-- The counter a name names. -/
def State.resolve (s : State) : CtrName → Option Nat
  | .run slot c => match s.runAt slot with
    | some r => s.runCounter r c
    | none => none
  | .stream ctx b => (s.sync.ctrs.find? (fun x => x.2.owner == some (.stream ctx b))).map (·.1)

/-- The logical number of a counter of a run. -/
def State.logicalOf (s : State) (n : Nat) : Nat :=
  if n < 49152 then
    match s.runOfRegion (n / 1024) with
    | some r => (r.regions.idxOf (n / 1024)) * 1024 + n % 1024
    | none => 0
  else match (s.ctr n).owner with
    | some (.run _ b) => 0xC000 + b
    | some (.stream _ b) => 0xC000 + b
    | none => 0

/-- The owner of a counter (R371, R372). -/
def State.ownerOf (s : State) (n : Nat) : Option CounterOwner :=
  if n < 49152 then (s.runOfRegion (n / 1024)).map (fun r => CounterOwner.run r.slot 0)
  else (s.ctr n).owner

/-- A sync fault (R383): the owning run ends, or the owning stream halts; logged with the last signaller. -/
def State.syncFault (s : State) (owner : Option CounterOwner) (n : Nat) (st : Status) (tile logical : Nat) : State :=
  let c := s.ctr n
  let run := match owner with | some (.run slot _) => slot | _ => 0xFF
  let s := s.trace 4 1 c.signaller run 0 st.toNat (n % 65536 + c.seq * 65536)
  let s := s.log st synBase n c.signaller 0 logical
  match owner with
  | some (.run slot _) => s.endRun slot st logical tile 0 true
  | some (.stream ctx _) => match s.ctxOf ctx with
    | some x => s.haltStream ctx st x.next
    | none => s
  | none => s

/-- A step that changes a counter's value (R386); the device of the last remote one is kept (R400). -/
def Counter.step (c : Counter) (v who device now : Nat) : Counter :=
  { c with
    value := v, seq := (c.seq + 1) % 2 ^ 32, signaller := who,
    device := if who / 4096 = 6 then device else c.device, changedAt := now }

/-- The waiters of a counter after its value rose, in the order their waits arrived (R377). -/
def wakeWaiters (now : Nat) : List Waiter → Counter → List Waiter × Counter
  | [], c => ([], c)
  | w :: ws, c =>
    match w.what with
    | .ge v =>
      if c.value ≥ v then wakeWaiters now ws c
      else let t := wakeWaiters now ws c; (w :: t.1, t.2)
    | .sub n =>
      if c.value ≥ n then wakeWaiters now ws (c.step (c.value - n) w.who 0 now)
      else let t := wakeWaiters now ws c; (w :: t.1, t.2)
    | .release _ => let t := wakeWaiters now ws c; (w :: t.1, t.2)

def State.wake (s : State) (n : Nat) : State :=
  let c := s.ctr n
  let t := wakeWaiters s.now c.waiters c
  s.setCtr n { t.2 with waiters := t.1 }

/-- A barrier that has reached its parties is due for release (R379). -/
def State.barrierDue (s : State) (n : Nat) : State :=
  let c := s.ctr n
  if c.barrier && decide (c.value ≥ c.parties) && !s.sync.due.contains n then
    { s with sync := { s.sync with due := s.sync.due ++ [n] } }
  else s

/-- ADD (R375, R377, R383): the value rises, waiters are examined, a barrier may become due. A sum above 2^32 - 1
leaves the limit and raises SYNC_OVERFLOW. The status tells which. -/
def State.counterAdd (s : State) (n amount who device tile : Nat) : Status × State :=
  let c := s.ctr n
  if c.value + amount > 2 ^ 32 - 1 then
    let c' := if c.value = 2 ^ 32 - 1 then c else c.step (2 ^ 32 - 1) who device s.now
    let s := s.setCtr n c'
    (0x0B01, s.syncFault (s.ownerOf n) n 0x0B01 tile (s.logicalOf n))
  else
    (0, ((s.setCtr n (c.step (c.value + amount) who device s.now)).wake n).barrierDue n)

/-- A shared counter becomes free; its generation is kept (R372), and a release that was due of it is not made. -/
def State.freeCounter (s : State) (p : Nat) : State :=
  { s with sync := { s.sync with due := s.sync.due.filter (· != p) } }.setCtr p { gen := (s.ctr p).gen }

/-- The tile state of a physical tile. -/
def State.tile (s : State) (n : Nat) : TileState := ((s.field.tiles.find? (fun x => x.1 == n)).map (·.2)).getD {}

def State.setTile (s : State) (n : Nat) (t : TileState) : State :=
  let rest := s.field.tiles.filter (fun x => x.1 != n)
  { s with field := { s.field with tiles := if t = {} then rest else rest ++ [(n, t)] } }

/-- Events of a tile are counted by the counters that select them, while its run is RUNNING (R388). -/
def State.tileEvent (s : State) (r : Run) (logical code n : Nat) : State :=
  if r.state ≠ RunState.running then s
  else match r.physTile logical with
    | none => s
    | some p =>
      let t := s.tile p
      let sel (i : Nat) : Bool := t.evtSel.getD i 0 == code
      let v (i : Nat) : Nat × Bool := satBump 48 (t.evtCnt.getD i 0) n (t.evtOvf.getLsbD i)
      s.setTile p { t with
        evtCnt := (List.range 8).map (fun i => if sel i then (v i).1 else t.evtCnt.getD i 0),
        evtOvf := (List.range 8).foldl (fun o i => if sel i then setBit o i (v i).2 else o) t.evtOvf }

/-- A region's engine counters. -/
def State.regionSt (s : State) (g : Nat) : RegionState :=
  ((s.field.regions.find? (fun x => x.1 == g)).map (·.2)).getD {}

def State.setRegionSt (s : State) (g : Nat) (t : RegionState) : State :=
  let rest := s.field.regions.filter (fun x => x.1 != g)
  { s with field := { s.field with regions := if t = {} then rest else rest ++ [(g, t)] } }

/-- TIL_EMB_* of a region rises (R332). -/
def State.regionBump (s : State) (g i n : Nat) : State :=
  let t := s.regionSt g
  let v := satBump 32 (t.ctr.getD i 0) n (t.ovf.getLsbD i)
  s.setRegionSt g { ctr := modAt t.ctr i (fun _ => v.1), ovf := setBit t.ovf i v.2 }

/-- A region reset's clearing (R37, R333, R371): region store, tile stores, engine state, counters of the region. The event
counters return to 0 at the next run's start (R388). -/
def State.zeroRegion (s : State) (g : Nat) : State :=
  let keep (x : Nat × TileState) : Nat × TileState :=
    if x.1 / 32 = g then
      (x.1, { evtSel := x.2.evtSel, faulted := x.2.faulted, evtCnt := x.2.evtCnt, evtOvf := x.2.evtOvf, hiLatch := x.2.hiLatch })
    else x
  { s with
    field := { s.field with
      tileMem := memZero s.field.tileMem (g * 2 ^ 25) ((g + 1) * 2 ^ 25),
      regionMem := memZero s.field.regionMem (g * 2 ^ 23) ((g + 1) * 2 ^ 23),
      tiles := (s.field.tiles.map keep).filter (fun x => x.2 != {}),
      regions := s.field.regions.filter (fun x => x.1 != g) },
    sync := { s.sync with ctrs := s.sync.ctrs.filter (fun x => decide (x.1 ≥ 49152) || x.1 / 1024 != g) } }

/-- Regions free for a run: active, held by none, not isolated, not out of Doze reach (R34, R345). -/
def State.freeRegions (s : State) : List Nat :=
  (List.range 48).filter (fun g => s.regionActive g && (s.runOfRegion g).isNone && !s.mgr.isolated.contains g &&
    s.rst.region != some g)

/-- A region is isolated (R34): its power island is gated, the run that holds it ends, and it is excluded from new
runs. -/
def State.isolateRegion (s : State) (g : Nat) (detail : Nat) : State :=
  let s := { s with mgr := { s.mgr with
    isolated := if s.mgr.isolated.contains g then s.mgr.isolated else s.mgr.isolated ++ [g] } }
  let s := match s.runOfRegion g with
    | some r => s.endRun r.slot 0x090C detail
    | none => s
  let s := s.zeroRegion g
  { s with power := { s.power with
    doze := setBit s.power.doze g true, pllLock := setBit s.power.pllLock g false, waking := setBit s.power.waking g false } }

/-- A unit of a tile is being reset, so that it takes no new work (R603). -/
def State.tileUnitHeld (s : State) (t bit : Nat) : Bool := s.rst.tiles.any (fun x => x.1 == t && x.2.1 == bit)

end Sys2Proof.Machine
end

