-- ==== Sys2Proof/Machine/TileFns.lean ====
section
/-! DEFINITION. The numerics of the tile operations: matrix products, vector arithmetic, special functions, routing,
embedding arithmetic and tensor watch (R300-R323, R397, R398). -/

namespace Sys2Proof.Machine

/-- The FP32 code of a value, and the value of a code. -/
def f32 (v : Num) : Nat := fmtFp32.convert .rne false v

def f32val (code : Nat) : Num := fmtFp32.decode code

/-- The pairings of R300. -/
def matrixPair (a b : Nat) : Bool :=
  let eight (x : Nat) : Bool := [0x13, 0x14, 0x20, 0x21, 0x22, 0x23].contains x
  let low (x : Nat) : Bool := eight x || x == 0x24
  (a == 0x24 && b == 0x24) || (low a && low b && (eight a || eight b)) ||
    ([0x11, 0x12].contains a && [0x11, 0x12].contains b) || (a == 0x02 && b == 0x02) || (a == 0x25 && b == 0x25)

/-- floor(|p| × 2^k) with its sign. -/
def truncScaled (k : Int) : Num → Int
  | .fin neg m e =>
    let x := e + k
    let v : Nat := if 0 ≤ x then m * 2 ^ x.toNat else m / 2 ^ (-x).toNat
    if neg then -(v : Int) else v
  | _ => 0

/-- The largest floor(log2 |p|) of the nonzero values. -/
def maxLog (ps : List Num) : Option Int :=
  ps.foldl (fun a p => match p with
    | .fin _ m e => if m = 0 then a else
        let l := floorLog2 m e
        some (match a with | some x => max x l | none => l)
    | _ => a) none

/-- One chunk step of a floating-point accumulation (R301), rounded once. -/
def chunkStep (acc : Num) (a b : List Num) (sa sb : Option Int) : Num :=
  let ps := (a.zip b).map (fun x => x.1.mul x.2)
  match sa, sb with
  | some sa, some sb =>
    let pos := ps.any (fun p => p == .inf false)
    let neg := ps.any (fun p => p == .inf true)
    if ps.any Num.isNan || (pos && neg) then acc.add .nan
    else if pos then rne32 (acc.add (.inf false))
    else if neg then rne32 (acc.add (.inf true))
    else match maxLog ps with
      | none => acc
      | some e =>
        let sum := ps.foldl (fun t p => t + truncScaled (47 - e) p) 0
        if sum = 0 then acc else rne32 (acc.add ((Num.ofInt sum).scale (e - 47 + sa + sb)))
  | _, _ => .nan

/-- A chunk step of MXINT8 operands (R303): the exact integer sum, scaled, rounded once. -/
def chunkStepInt (acc : Num) (a b : List Num) (sa sb : Option Int) : Num :=
  match sa, sb with
  | some sa, some sb =>
    let sum := (a.zip b).foldl (fun t x => t.add (x.1.mul x.2)) Num.zero
    if sum.isZero then acc else rne32 (acc.add (sum.scale (sa + sb)))
  | _, _ => .nan

/-- One operand row: its elements padded with zeros to `chunks` × 32, and the scale of each chunk. -/
structure MatRow where
  elems : List Num
  scales : List (Option Int)
  deriving DecidableEq, Repr

def MatRow.chunk (r : MatRow) (q : Nat) : List Num :=
  let l := (r.elems.drop (32 * q)).take 32
  l ++ List.replicate (32 - l.length) Num.zero

def MatRow.scaleAt (r : MatRow) (q : Nat) : Option Int := r.scales.getD q (some 0)

/-- An output element of a floating-point or MXINT8 matrix operation (R301, R303). -/
def matElement (isInt : Bool) (cin : Num) (a b : MatRow) (chunks : Nat) : Num :=
  (List.range chunks).foldl (fun acc q =>
    if isInt then chunkStepInt acc (a.chunk q) (b.chunk q) (a.scaleAt q) (b.scaleAt q)
    else chunkStep acc (a.chunk q) (b.chunk q) (a.scaleAt q) (b.scaleAt q)) cin

/-- A number wrapped to 32 bits, read as signed or unsigned. -/
def wrap32 (isSigned : Bool) (v : Int) : Int :=
  let u := v % (2 : Int) ^ 32
  if isSigned ∧ u ≥ 2 ^ 31 then u - 2 ^ 32 else u

/-- An output element of an S8 operation (R303): exact products in S32, wrapping. -/
def matElementS8 (cin : Int) (a b : List Num) : Int :=
  wrap32 true ((a.zip b).foldl (fun t x => t + rneInt (x.1.mul x.2)) cin)

/-- The values of a row of a stored matrix of rows of k elements. -/
def matRow (kind : ElemKind) (t : Tensor) (k i : Nat) : MatRow :=
  { elems := (t.elems.drop (i * k)).take k,
    scales := if kind.isMx then (t.scales.drop (i * (k / 32))).take (k / 32) else [] }

/-- The two kept positions that a 2:4 metadata nibble names (R308); none for an invalid nibble. -/
def sparsePair (nib : Nat) : Option (Nat × Nat) :=
  if [0x4, 0x8, 0xC, 0x9, 0xD, 0xE].contains nib then some (nib % 4, nib / 4) else none

/-- The dense row that a 2:4 sparse row stands for, group by group: kept positions hold their element, and `none`
marks a position that is left out. -/
def sparseRow : List Nat → List Num → Option (List (Option Num))
  | [], _ => some []
  | n :: ns, es =>
    match sparsePair n, es with
    | some (i, j), x :: y :: rest =>
      match sparseRow ns rest with
      | some t => some (((List.range 4).map (fun p => if p = i then some x else if p = j then some y else none)) ++ t)
      | none => none
    | _, _ => none

/-- Metadata nibble g of a byte string (R308): the lower-numbered group in bits [3:0]. -/
def nibbleAt (b : List Byte) (g : Nat) : Nat := (b.getD (g / 2) 0).toNat / 16 ^ (g % 2) % 16

/-- The product terms of a sparse row: positions left out take no part (R309). -/
def dropLeftOut (a : List Num) (b : List (Option Num)) : List Num × List Num :=
  ((a.zip b).filterMap (fun x => x.2.map (fun y => (x.1, y)))).unzip

/-- minimum and maximum of IEEE 754-2019: NaN propagates, −0 below +0 (R305). -/
def Num.min2 (a b : Num) : Num :=
  if a.isNan || b.isNan then .nan
  else if a.isZero && b.isZero then (if a.isNeg then a else b)
  else if b.lt a then b else a

def Num.max2 (a b : Num) : Num :=
  if a.isNan || b.isNan then .nan
  else if a.isZero && b.isZero then (if a.isNeg then b else a)
  else if a.lt b then b else a

/-- One elementwise operation in FP32 (R305). -/
def vecFloat (k : VecKind) (x y z : Num) : Num :=
  match k with
  | .add => rne32 (x.add y)
  | .sub => rne32 (x.sub y)
  | .mul => rne32 (x.mul y)
  | .fma => rne32 ((x.mul y).add z)
  | .minimum => x.min2 y
  | .maximum => x.max2 y

/-- One elementwise operation in integers (R305): wrapping modulo 2^32, or saturating. -/
def vecInt (k : VecKind) (isSigned sat : Bool) (x y z : Int) : Int :=
  let v : Int := match k with
    | .add => x + y
    | .sub => x - y
    | .mul => x * y
    | .fma => x * y + z
    | .minimum => min x y
    | .maximum => max x y
  let r := intRange 32 isSigned
  if sat then max r.1 (min r.2 v) else wrap32 isSigned v

/-- Adds neighbours pairwise until one value is left (R306, R327). -/
def pairUp {α : Type} (f : α → α → α) : List α → List α
  | a :: b :: rest => f a b :: pairUp f rest
  | l => l

def treeFold {α : Type} (f : α → α → α) (dflt : α) : Nat → List α → α
  | 0, l => l.headD dflt
  | n + 1, l => if l.length ≤ 1 then l.headD dflt else treeFold f dflt n (pairUp f l)

/-- The reduction shape of R306: 64 lanes, then a binary tree. -/
def laneReduce {α : Type} (f : α → α → α) (start : α) (xs : List α) : α :=
  let lanes := (List.range 64).map (fun l =>
    (List.range ((xs.length + 63 - l) / 64)).foldl (fun acc j => match xs[l + 64 * j]? with
      | some x => f acc x
      | none => acc) start)
  treeFold f start 7 lanes

/-- A magnitude between m × 2^e and (m + 1) × 2^e, exactly the lower end when `exact`. -/
def sticky (neg exact : Bool) (m : Nat) (e : Int) : Num := .fin neg (2 * m + bitOf (!exact)) (e - 1)

/-- The exact quotient to more bits than any rounding here needs (R307). -/
def Num.div : Num → Num → Num
  | .nan, _ => .nan
  | _, .nan => .nan
  | .inf _, .inf _ => .nan
  | .inf a, .fin n _ _ => .inf (a != n)
  | .fin n _ _, .inf b => .fin (n != b) 0 0
  | .fin n m e, .fin n' m' e' =>
    if m' = 0 then (if m = 0 then .nan else .inf (n != n'))
    else if m = 0 then .fin (n != n') 0 0
    else
      let k := Nat.log2 m' + 64
      let q := m * 2 ^ k / m'
      sticky (n != n') (decide (q * m' = m * 2 ^ k)) q (e - e' - k)

/-- The integer square root, bit by bit. -/
def isqrtFrom (n : Nat) : Nat → Nat → Nat
  | 0, r => r
  | b + 1, r => let t := r + 2 ^ b; if t * t ≤ n then isqrtFrom n b t else isqrtFrom n b r

def isqrt (n : Nat) : Nat := isqrtFrom n (Nat.log2 n / 2 + 1) 0

/-- The square root (R307). -/
def Num.sqrt : Num → Num
  | .nan => .nan
  | .inf n => if n then .nan else .inf false
  | .fin n m e =>
    if m = 0 then .fin n 0 0
    else if n then .nan
    else
      let odd : Nat := if e % 2 = 0 then 0 else 1
      let mm := m * 2 ^ odd * 2 ^ 128
      let r := isqrt mm
      sticky false (decide (r * r = mm)) r ((e - odd) / 2 - 64)

/-- 1 ÷ √x (R307). -/
def Num.rsqrt : Num → Num
  | .nan => .nan
  | .inf n => if n then .nan else .fin false 0 0
  | .fin n m e =>
    if m = 0 then .inf n
    else if n then .nan
    else
      let odd : Nat := if e % 2 = 0 then 0 else 1
      let mm := m * 2 ^ odd
      let k := Nat.log2 mm + 128
      let r := isqrt (2 ^ (2 * k) / mm)
      sticky false (decide (r * r * mm = 2 ^ (2 * k))) r (-(k : Int) - (e - odd) / 2)

/-- Binary digits of log2 of y × 2^-256, for y × 2^-256 in [1, 2): `n` digits after those in `acc`. -/
def logDigits : Nat → Nat → Nat → Nat
  | 0, _, acc => acc
  | n + 1, y, acc =>
    let z := y * y / 2 ^ 256
    if z ≥ 2 ^ 257 then logDigits n (z / 2) (2 * acc + 1) else logDigits n z (2 * acc)

/-- The base-2 logarithm to 100 fraction bits (R307). -/
def Num.log2 : Num → Num
  | .nan => .nan
  | .inf n => if n then .nan else .inf false
  | .fin n m e =>
    if m = 0 then .inf true
    else if n then .nan
    else
      let l := Nat.log2 m
      let whole : Int := (l : Int) + e
      if m = 2 ^ l then .ofInt whole
      else
        let d := logDigits 100 (m * 2 ^ (256 - l)) 0
        let t : Int := 2 * (whole * 2 ^ 100 + d) + 1
        (Num.ofInt t).scale (-101)

/-- The product of 2^(2^-j) over the set digits of a 54-digit fraction, with 256 fraction bits; `c` is the present
root. -/
def expRoots : Nat → Nat → Nat → Nat → Nat
  | 0, _, _, acc => acc
  | n + 1, f, c, acc =>
    let c := isqrt (c * 2 ^ 256)
    let acc := if f.testBit n then acc * c / 2 ^ 256 else acc
    expRoots n f c acc

/-- 2^x for an FP32 value x (R307). -/
def Num.exp2 : Num → Num
  | .nan => .nan
  | .inf n => if n then .fin false 0 0 else .inf false
  | .fin n m e =>
    if m = 0 then .fin false 1 0
    else if floorLog2 m e ≥ 8 then (if n then .fin false 1 (-200) else .fin false 1 200)
    else if floorLog2 m e < -30 then sticky false false (if n then 2 ^ 64 - 1 else 2 ^ 64) (-64)
    else
      let x : Int := truncScaled 54 (.fin n m e)
      let whole := x / 2 ^ 54
      let frac := (x % 2 ^ 54).toNat
      if frac = 0 then .fin false 1 whole
      else sticky false false (expRoots 54 frac (2 * 2 ^ 256) (2 ^ 256)) (whole - 256)

/-- exp and log (R307): the composition is fixed. -/
def Num.exp (x : Num) : Num := rne32 (rne32 (x.mul (f32val 0x3FB8AA3B))).exp2

def Num.log (x : Num) : Num := rne32 ((rne32 x.log2).mul (f32val 0x3F317218))

def Num.rcp (x : Num) : Num := rne32 ((Num.ofInt 1).div x)

def Num.sigmoid (x : Num) : Num := (rne32 ((Num.ofInt 1).add x.neg.exp)).rcp

def Num.tanh (x : Num) : Num :=
  rne32 ((rne32 ((Num.ofInt 2).mul (rne32 ((Num.ofInt 2).mul x)).sigmoid)).sub (.ofInt 1))

/-- A special function of one FP32 element, and the divisor (R307). -/
def specialFn (f : SpecialFn) (x y : Num) : Num :=
  match f with
  | .sqrt => rne32 x.sqrt
  | .rcp => x.rcp
  | .rsqrt => rne32 x.rsqrt
  | .div => rne32 (x.div y)
  | .exp2 => rne32 x.exp2
  | .log2 => rne32 x.log2
  | .exp => x.exp
  | .log => x.log
  | .sigmoid => x.sigmoid
  | .tanh => x.tanh

/-- Ranks experts (R311): a before b when its score is higher, a NaN below −infinity, the lower number first. -/
def expertBefore (a b : Nat × Num) : Bool :=
  if a.2.isNan then b.2.isNan && decide (a.1 < b.1)
  else if b.2.isNan then true
  else if b.2.lt a.2 then true
  else if a.2.lt b.2 then false
  else decide (a.1 < b.1)

def insertExpert (x : Nat × Num) : List (Nat × Num) → List (Nat × Num)
  | [] => [x]
  | y :: ys => if expertBefore x y then x :: y :: ys else y :: insertExpert x ys

def rankExperts (row : List Num) : List (Nat × Num) :=
  ((List.range row.length).zip row).foldl (fun acc x => insertExpert x acc) []

/-- A row's choices (R311). -/
def rowChoices (k : Nat) (tau : Num) (row : List Num) : List (Nat × Num) :=
  let ok (x : Nat × Num) : Bool := tau == .inf true || (!x.2.isNan && !tau.isNan && !(x.2.lt tau))
  ((rankExperts row).filter ok).take k

/-- A placed choice: expert, slot (none when dropped) and score. -/
abbrev Choice := Nat × Option Nat × Num

/-- Places the choices of one row (R312); `cnt` holds per expert the rows it took, newest last. -/
def placeRow (c row : Nat) : List (Nat × Num) → List (List Nat) → List Choice × List (List Nat) × Nat
  | [], cnt => ([], cnt, 0)
  | (e, sc) :: rest, cnt =>
    let used := (cnt.getD e []).length
    if used ≥ c then
      let t := placeRow c row rest cnt
      ((e, none, sc) :: t.1, t.2.1, t.2.2 + 1)
    else
      let t := placeRow c row rest (modAt cnt e (fun l => l ++ [row]))
      ((e, some used, sc) :: t.1, t.2.1, t.2.2)

def placeRows (c : Nat) : List (List (Nat × Num)) → Nat → List (List Nat) → List (List Choice) × List (List Nat) × Nat
  | [], _, cnt => ([], cnt, 0)
  | r :: rs, i, cnt =>
    let a := placeRow c i r cnt
    let t := placeRows c rs (i + 1) a.2.1
    (a.1 :: t.1, t.2.1, a.2.2 + t.2.2)

/-- The bytes of one rank of a row (R312): `noScore` stands for the score of an absent choice, which is not stated. -/
def choiceBytes (noScore : Nat) (c : Option Choice) : List Byte :=
  match c with
  | none => leBytes 2 0xFFFF ++ leBytes 2 0 ++ leBytes 4 0xFFFFFFFF ++ leBytes 4 noScore
  | some (e, sl, sc) => leBytes 2 e ++ leBytes 2 0 ++ leBytes 4 (sl.getD 0xFFFFFFFF) ++ leBytes 4 (f32 sc)

/-- One element of COMBINE (R313): (w, y) of the ranks that were placed, in rank order. -/
def combineElem (ws : List (Num × Num)) : Num :=
  ws.foldl (fun acc x => rne32 (acc.add (rne32 (x.1.mul x.2)))) .zero

/-- One element of a pooled bag (R319): the weights and row elements in bag order. -/
def poolElem (m : GatherMode) (xs : List (Num × Num)) : Num :=
  if xs.isEmpty then .zero
  else match m with
    | .none => .zero
    | .sum => xs.foldl (fun acc x => rne32 (acc.add x.2)) .zero
    | .wsum => xs.foldl (fun acc x => rne32 ((x.1.mul x.2).add acc)) .zero
    | .mean =>
      rne32 ((xs.foldl (fun acc x => rne32 (acc.add x.2)) Num.zero).div (.ofInt xs.length))
    | .max => xs.foldl (fun acc x => acc.max2 x.2) (.inf true)

/-- The row's new values and optimiser state (R322). -/
def sgdRow (lr : Num) (w g : List Num) : List Num :=
  (w.zip g).map (fun x => rne32 (x.1.sub (rne32 (lr.mul x.2))))

def adagradRow (lr eps st : Num) (w g : List Num) : List Num × Num :=
  let m := g.foldl (fun acc x => rne32 (acc.add (rne32 (x.mul x)))) Num.zero
  let m := rne32 (m.div (.ofInt g.length))
  let st := rne32 (st.add m)
  let den := rne32 ((rne32 st.sqrt).add eps)
  ((w.zip g).map (fun x => rne32 (x.1.sub (rne32 ((rne32 (lr.mul x.2)).div den)))), st)

/-- Before: by folio, then position (R321). -/
def gradBefore (a b : GradContribution) : Bool :=
  decide (a.folio < b.folio) || (a.folio == b.folio && decide (a.position < b.position))

def insertGrad (x : GradContribution) : List GradContribution → List GradContribution
  | [] => [x]
  | y :: ys => if gradBefore x y then x :: y :: ys else y :: insertGrad x ys

/-- The gradient sum of a row (R321): contributions in order, from +0, RNE per addition. -/
def gradSum (dim : Nat) (cs : List GradContribution) : List Num :=
  let sorted := cs.foldl (fun acc x => insertGrad x acc) []
  sorted.foldl (fun acc c => (List.range dim).map (fun d =>
    rne32 ((acc.getD d Num.zero).add (f32val (c.grad.getD d 0).toNat)))) (List.replicate dim Num.zero)

/-- The digest of a tensor (R398), over (index, code) pairs. -/
def watchDigest (codes : List Nat) : Nat :=
  ((List.range codes.length).foldl (fun d k => d ^^^ mix64
    ((BitVec.ofNat 64 k * 0x9E3779B97F4A7C15#64) ^^^ BitVec.ofNat 64 (codes.getD k 0))) (0#64 : BitVec 64)).toNat

/-- The 64-byte record of tensor watch (R397) of values with their codes. -/
def watchRecord (id fmt : Nat) (vs : List Num) (codes : List Nat) : List Byte × Nat :=
  let real := vs.filter (fun v => !v.isNan)
  let fin := real.filter (fun v => !v.isInf)
  let fold (f : Num → Num → Num) : Nat := match real with
    | [] => 0x7FC00000
    | v :: rest => f32 (rest.foldl f v)
  let mean := if fin.isEmpty then 0x7FC00000
    else f32 ((fin.foldl Num.add Num.zero).div (.ofInt fin.length))
  let d := watchDigest codes
  (leBytes 4 id ++ leBytes 2 fmt ++ leBytes 2 0 ++ leBytes 8 vs.length ++ leBytes 8 (vs.filter Num.isNan).length ++
    leBytes 8 (vs.filter Num.isInf).length ++ leBytes 8 (vs.filter Num.isZero).length ++
    leBytes 4 (fold Num.min2) ++ leBytes 4 (fold Num.max2) ++ leBytes 4 mean ++ leBytes 4 0 ++ leBytes 8 d, d)

end Sys2Proof.Machine
end

