-- ==== Sys2Proof/Machine/Tiles.lean ====
section
/-! DEFINITION. The commands of tile operations and of the gather engines (R300-R324, R397). An operation reads and
writes the run's address space; what it meets there is R360's. -/

namespace Sys2Proof.Machine

/-- One range an operation accesses: write, address, bytes. -/
abbrev Span := Bool × Nat × Nat

/-- The first access that is not in order. -/
def Run.firstBad (r : Run) : List Span → Access
  | [] => .ok
  | (w, va, n) :: rest => (r.check w va n).then (r.firstBad rest)

/-- Is the suspended operation a DMA descriptor? -/
def Susp.isDma (x : Susp) : Bool := match x.op with | .dma _ _ _ _ => true | _ => false

/-- Whether a source has a suspended operation. -/
def Run.suspended (r : Run) (source : Nat) : Bool := r.susp.any (fun x => x.source == source)

/-- An operand fault (R290): it ends the run with 0x090D. -/
def State.operandFault (s : State) (slot detail source : Nat) : State :=
  s.endRun slot 0x090D detail (if source < 0x8000 then source else 0xFFFF)

/-- A fill fault (R356): the operation suspends and its page's fill starts. -/
def State.suspendFill (s : State) (slot source : Nat) (op : TileOp) (page : Nat) : State :=
  let s := s.updRun slot (fun r => { r with
    susp := r.susp ++ [{ source := source, op := op, page := some page, vaddr := page }],
    filling := if r.filling.contains page then r.filling else r.filling ++ [page] })
  match s.runAt slot with
  | some r => if source < 0x8000 then s.tileEvent r source 0xE 1 else s
  | none => s

/-- The accesses of an operation mark their pages (R353). -/
def State.touchSpans (s : State) (slot : Nat) (spans : List Span) : State :=
  s.updRun slot (fun r => spans.foldl (fun r x => r.touchRange x.1 x.2.1 x.2.2 s.now) r)

/-- An operation runs when its accesses are in order (R360): otherwise it ends the run, suspends, or holds the run. -/
def State.access (s : State) (r : Run) (source : Nat) (op : TileOp) (spans : List Span) (go : State) : State :=
  match r.firstBad spans with
  | .ok => go.touchSpans r.slot spans
  | .fault st va => s.endRun r.slot st 0 (if source < 0x8000 then source else 0xFFFF) va
  | .fill p => s.suspendFill r.slot source op p
  | .hostFail va => s.holdRun r.slot 0x0A09 { source := source, op := op, vaddr := va }

/-- The run, RUNNING, when this tile of it is free to issue an operation; none while the mesh clock is stopped (R618). -/
def State.tileReady (s : State) (slot tile : Nat) : Option Run :=
  match s.runAt slot with
  | some r =>
    if r.state = RunState.running ∧ (r.physTile tile).isSome ∧ !r.suspended tile ∧ !s.clockDown 48 then some r else none
  | none => none

/-- The rounding an operation names, with the run's seed (R299). -/
def Run.rounding (r : Run) : RoundSel → Rounding
  | .rne => .rne
  | .sr op => .sr r.seed op

/-- Formats that take part in arithmetic; BYTES do not (R291). -/
def arith (code : Nat) : Option ElemKind :=
  match elemKind code with
  | some .bytes => none
  | k => k

/-- An innermost dimension that an MX format allows (R290). -/
def mxDimOk (k : ElemKind) (inner : Nat) : Bool := !k.isMx || inner % 32 == 0

/-- The tensor of n elements at an address. -/
def State.tensorAt (s : State) (r : Run) (k : ElemKind) (va n : Nat) : Tensor := readTensor k (s.vRead r va (tensorBytes k n)) n

/-- The accumulator set of the MAC array takes the finished output tile (R304). -/
def State.drainTile (s : State) (r : Run) (tile : Nat) (acc : List Nat) : State :=
  match r.physTile tile with
  | none => s
  | some p =>
    let t := s.tile p
    s.setTile p (if t.accNext1 then { t with acc1 := acc, accNext1 := false }
      else { t with acc0 := acc, accNext1 := true })

/-- Chunk steps performed and skipped (R310). -/
def chunkSkips (rowsA : List MatRow) (rowsB : List MatRow) (chunks : Nat) : Nat :=
  ((List.range chunks).filter (fun q =>
    rowsA.all (fun a => (a.chunk q).all Num.isZero && (a.scaleAt q).isSome) &&
    rowsB.all (fun b => (b.chunk q).all (fun v => !v.isNan && !v.isInf) && (b.scaleAt q).isSome))).length

/-- The vector unit writes an output tensor; an instruction and its NaN results are counted (R389). -/
def State.putTensor (s : State) (r : Run) (tile : Nat) (k : ElemKind) (rnd : Rounding) (sat : Bool) (base va : Nat)
    (vs : List Num) : State :=
  let b := writeTensor k rnd sat base vs
  let nan := ((readTensor k b vs.length).vals.filter Num.isNan).length
  ((s.tileEvent r tile 5 1).tileEvent r tile 0x10 nan).vWrite r.slot va b

/-- The output elements of one dense output tile, row-major, as values, with their logical indices. -/
def matValues (o : MatrixOp) (ka kb : ElemKind) (ta tb : Tensor) (cin : List Num) : List Num :=
  let chunks := (o.k + 31) / 32
  let rowsA := (List.range o.m).map (fun i => matRow ka ta o.k i)
  let rowsB := (List.range o.n).map (fun j => matRow kb tb o.k j)
  (List.range (o.m * o.n)).map (fun x =>
    let a := rowsA.getD (x / o.n) ⟨[], []⟩
    let b := rowsB.getD (x % o.n) ⟨[], []⟩
    let c := cin.getD x Num.zero
    if o.fmtA = 2 then .ofInt (matElementS8 (rneInt c) a.elems b.elems) else matElement (o.fmtA == 0x25) c a b chunks)

/-- Converts output values that carry their own logical index (R296, R297, R299). -/
def matCodes (o : MatrixOp) (k : ElemKind) (rnd : Rounding) (vs : List Num) : List Byte :=
  packCodes k.bits ((List.range vs.length).map (fun x =>
    k.convert (rnd.at (o.idxBase + x / o.n * o.idxStride + x % o.n)) o.sat (vs.getD x Num.zero)))

/-- The addend C_in, read into FP32; an S8 operation takes it as integers (R300, R303). -/
def State.matCin (s : State) (r : Run) (o : MatrixOp) : List Num :=
  match o.c with
  | none => []
  | some (va, f) => match arith f with
    | some k => ((s.tensorAt r k va (o.m * o.n)).vals).map (if o.fmtA = 2 then id else rne32)
    | none => []

/-- The range C_in is read from. -/
def matCinSpan (o : MatrixOp) : List Span :=
  match o.c with
  | none => []
  | some (va, f) => match arith f with
    | some k => [(false, va, tensorBytes k (o.m * o.n))]
    | none => []

/-- The ranges a dense operation accesses (R300). -/
def matSpans (o : MatrixOp) (ka kb ko : ElemKind) : List Span :=
  [(false, o.a, tensorBytes ka (o.m * o.k)), (false, o.b, tensorBytes kb (o.n * o.k))] ++ matCinSpan o ++
    [(true, o.out, elemBytes ko (o.m * o.n))]

/-- The bytes of a sparse B: half of every row, with the scales of its blocks (R308, R309). -/
def sparseBytes (kb : ElemKind) (n k : Nat) : Nat :=
  if kb.isMx then scaleOffset kb (n * (k / 2)) + n * (k / 32) else elemBytes kb (n * (k / 2))

/-- The ranges a sparse operation accesses: its metadata is read with B (R308). -/
def sparseSpans (o : MatrixOp) (metaAt : Nat) (ka kb ko : ElemKind) : List Span :=
  [(false, o.a, tensorBytes ka (o.m * o.k)), (false, o.b, sparseBytes kb o.n o.k), (false, metaAt, (o.n * (o.k / 4) + 1) / 2)] ++
    matCinSpan o ++ [(true, o.out, elemBytes ko (o.m * o.n))]

/-- C_in has an arithmetic format, and one with MX blocks its whole blocks (R290). -/
def matCinFault (o : MatrixOp) : Option Nat :=
  match o.c with
  | none => none
  | some (_, f) => match arith f with
    | none => some 3
    | some k => if mxDimOk k o.n then none else some 4

/-- What every matrix operation checks first: shape, formats and MX dimensions (R290, R300). -/
def matFault (o : MatrixOp) : Option Nat :=
  match arith o.fmtA, arith o.fmtB, arith o.fmtOut with
  | some ka, some kb, some ko =>
    if !matrixPair o.fmtA o.fmtB || ko.isMx then some 3
    else if !mxDimOk ka o.k || !mxDimOk kb o.k then some 4
    else matCinFault o
  | _, _, _ => some 3

/-- A shape of one output tile (R286). -/
def matShape (o : MatrixOp) : Bool := decide (1 ≤ o.m ∧ o.m ≤ 64 ∧ 1 ≤ o.n ∧ o.n ≤ 64)

/-- Ends a matrix operation: drains the accumulators, counts chunk steps, stores the output. -/
def State.matStore (s : State) (r : Run) (tile : Nat) (o : MatrixOp) (ko : ElemKind) (vs : List Num) (done skipped : Nat) :
    State :=
  let s := s.drainTile r tile (vs.map f32)
  let s := (s.tileEvent r tile 2 done).tileEvent r tile 3 skipped
  s.vWrite r.slot o.out (matCodes o ko (r.rounding o.rnd) vs)

/-- A dense matrix operation on one output tile (R300-R303). -/
def State.matrixDense (s : State) (r : Run) (tile : Nat) (o : MatrixOp) : State :=
  match matFault o, elemKind o.fmtA, elemKind o.fmtB, elemKind o.fmtOut with
  | none, some ka, some kb, some ko =>
    let ta := s.tensorAt r ka o.a (o.m * o.k)
    let tb := s.tensorAt r kb o.b (o.n * o.k)
    let chunks := (o.k + 31) / 32
    let skipped := chunkSkips ((List.range o.m).map (matRow ka ta o.k)) ((List.range o.n).map (matRow kb tb o.k)) chunks
    s.access r tile (.matrix o) (matSpans o ka kb ko)
      (s.matStore r tile o ko (matValues o ka kb ta tb (s.matCin r o)) (chunks - skipped) skipped)
  | some d, _, _, _ => s.operandFault r.slot d tile
  | _, _, _, _ => s.operandFault r.slot 3 tile

/-- A sparse row of B: its dense places, left-out positions marked, with its scales. -/
def sparseRowOf (kb : ElemKind) (b : List Byte) (md : List Byte) (n k j : Nat) :
    Option (List (Option Num) × List (Option Int)) :=
  let half := k / 2
  let es := (List.range half).map (fun i => kb.value (elemCode kb b (j * half + i)))
  let off := scaleOffset kb (n * half)
  let scales := if kb.isMx then (List.range (k / 32)).map (fun q => mxScale (leField b (off + j * (k / 32) + q) 1)) else []
  match sparseRow ((List.range (k / 4)).map (fun g => nibbleAt md (j * (k / 4) + g))) es with
  | some l => some (l, scales)
  | none => none

/-- An output element of a sparse operation (R309): chunk by chunk, the products of left-out positions left out. -/
def sparseElement (fmtA : Nat) (cin : Num) (a : MatRow) (b : List (Option Num)) (sb : List (Option Int)) (chunks : Nat) :
    Num :=
  if fmtA = 2 then
    let t := dropLeftOut a.elems b
    .ofInt (matElementS8 (rneInt cin) t.1 t.2)
  else (List.range chunks).foldl (fun acc q =>
    let t := dropLeftOut (a.chunk q) ((b.drop (32 * q)).take 32)
    if fmtA = 0x25 then chunkStepInt acc t.1 t.2 (a.scaleAt q) (sb.getD q (some 0))
    else chunkStep acc t.1 t.2 (a.scaleAt q) (sb.getD q (some 0))) cin

/-- Chunk steps a sparse operation skips (R310): its kept B elements hold no infinity and no NaN. -/
def sparseSkips (rowsA : List MatRow) (rowsB : List (List (Option Num) × List (Option Int))) (chunks : Nat) : Nat :=
  let finite (v : Option Num) : Bool := match v with | some x => !x.isNan && !x.isInf | none => true
  ((List.range chunks).filter (fun q =>
    rowsA.all (fun a => (a.chunk q).all Num.isZero && (a.scaleAt q).isSome) &&
    rowsB.all (fun b => ((b.1.drop (32 * q)).take 32).all finite && (b.2.getD q (some 0)).isSome))).length

/-- A 2:4 sparse matrix operation on one output tile (R308, R309). Metadata is read with B; an invalid nibble is an
operand fault with DETAIL 1. -/
def State.matrixSparse (s : State) (r : Run) (tile : Nat) (o : MatrixOp) (metaAt : Nat) : State :=
  match matFault o, elemKind o.fmtA, elemKind o.fmtB, elemKind o.fmtOut with
  | none, some ka, some kb, some ko =>
    if o.k % 4 ≠ 0 then s.operandFault r.slot 1 tile
    else
      let ta := s.tensorAt r ka o.a (o.m * o.k)
      let bb := s.vRead r o.b (sparseBytes kb o.n o.k)
      let mm := s.vRead r metaAt ((o.n * (o.k / 4) + 1) / 2)
      let rows := (List.range o.n).map (sparseRowOf kb bb mm o.n o.k)
      let chunks := (o.k + 31) / 32
      let cin := s.matCin r o
      let go : State :=
        if rows.any Option.isNone then s.operandFault r.slot 1 tile
        else
          let vs := (List.range (o.m * o.n)).map (fun x =>
            match rows.getD (x % o.n) none with
            | some (b, sb) => sparseElement o.fmtA (cin.getD x Num.zero) (matRow ka ta o.k (x / o.n)) b sb chunks
            | none => Num.zero)
          let skipped := sparseSkips ((List.range o.m).map (matRow ka ta o.k)) (rows.filterMap id) chunks
          s.matStore r tile o ko vs (chunks - skipped) skipped
      s.access r tile (.matrix o) (sparseSpans o metaAt ka kb ko) go
  | some d, _, _, _ => s.operandFault r.slot d tile
  | _, _, _, _ => s.operandFault r.slot 3 tile

/-- The ranges an elementwise operation accesses (R305). -/
def vecSpans (o : VectorOp) (kx ky kz ko : ElemKind) : List Span :=
  [(false, o.x, tensorBytes kx o.n), (false, o.y, tensorBytes ky o.n)] ++
    (if o.kind == VecKind.fma then [(false, o.z, tensorBytes kz o.n)] else []) ++ [(true, o.out, tensorBytes ko o.n)]

/-- An elementwise vector operation (R305): integers when every operand is an integer, otherwise FP32. -/
def State.vectorRun (s : State) (r : Run) (tile : Nat) (o : VectorOp) : State :=
  let fma := o.kind == VecKind.fma
  match arith o.fmtX, arith o.fmtY, arith (if fma then o.fmtZ else o.fmtX), arith o.fmtOut with
  | some kx, some ky, some kz, some ko =>
    if !([kx, ky, kz, ko].all (fun k => mxDimOk k o.n)) then s.operandFault r.slot 4 tile
    else
      let xs := (s.tensorAt r kx o.x o.n).vals
      let ys := (s.tensorAt r ky o.y o.n).vals
      let zs := if fma then (s.tensorAt r kz o.z o.n).vals else []
      let isInt (k : ElemKind) : Option Bool := match k with | .int _ sg => some sg | _ => none
      let vs := (List.range o.n).map (fun i =>
        let x := xs.getD i Num.zero
        let y := ys.getD i Num.zero
        let z := zs.getD i Num.zero
        match isInt kx, isInt ky, isInt kz with
        | some sg, some _, some _ => .ofInt (vecInt o.kind sg o.sat (rneInt x) (rneInt y) (rneInt z))
        | _, _, _ => vecFloat o.kind (rne32 x) (rne32 y) (rne32 z))
      s.access r tile (.vector o) (vecSpans o kx ky kz ko) (s.putTensor r tile ko (r.rounding o.rnd) o.sat o.idxBase o.out vs)
  | _, _, _, _ => s.operandFault r.slot 3 tile

/-- A reduction's value (R306, R327): float or integer, in the lane tree or in the canonical tree over ranks. -/
def reduceValue (o : ReduceOp) (k : ElemKind) (xs : List Num) : Num :=
  match k with
  | .int b sg =>
    let is := xs.map rneInt
    let rg := intRange b sg
    match o.kind with
    | .sum =>
      let f (a c : Int) : Int := wrap32 sg (a + c)
      .ofInt (if o.canonical then treeFold f 0 17 is else laneReduce f 0 is)
    | .minimum => .ofInt (laneReduce min rg.2 is)
    | .maximum => .ofInt (laneReduce max rg.1 is)
  | _ =>
    let fs := xs.map rne32
    match o.kind with
    | .sum =>
      let f (a c : Num) : Num := rne32 (a.add c)
      if o.canonical then treeFold f Num.zero 17 fs else laneReduce f Num.zero fs
    | .minimum => laneReduce Num.min2 (.inf false) fs
    | .maximum => laneReduce Num.max2 (.inf true) fs

/-- A reduction of n values (R306): its result is 4 bytes, FP32 or a 32-bit integer. -/
def State.reduceRun (s : State) (r : Run) (tile : Nat) (o : ReduceOp) : State :=
  match arith o.fmt with
  | some k =>
    if !mxDimOk k o.n then s.operandFault r.slot 4 tile
    else
      let v := reduceValue o k (s.tensorAt r k o.src o.n).vals
      let code := match k with
        | .int _ _ => ((rneInt v) % (2 : Int) ^ 32).toNat
        | _ => f32 v
      s.access r tile (.reduce o) [(false, o.src, tensorBytes k o.n), (true, o.out, 4)]
        (((s.tileEvent r tile 5 1).tileEvent r tile 0x10 (bitOf v.isNan)).vWrite r.slot o.out (leBytes 4 code))
  | none => s.operandFault r.slot 3 tile

/-- The ranges a special function accesses (R307). -/
def specialSpans (o : SpecialOp) : List Span :=
  [(false, o.src, 4 * o.n)] ++ (if o.fn == SpecialFn.div then [(false, o.src2, 4 * o.n)] else []) ++ [(true, o.out, 4 * o.n)]

/-- A special function on n FP32 elements (R307). -/
def State.specialRun (s : State) (r : Run) (tile : Nat) (o : SpecialOp) : State :=
  let two := o.fn == SpecialFn.div
  let xs := (s.tensorAt r (.float fmtFp32) o.src o.n).vals
  let ys := if two then (s.tensorAt r (.float fmtFp32) o.src2 o.n).vals else []
  let vs := (List.range o.n).map (fun i => specialFn o.fn (xs.getD i Num.zero) (ys.getD i Num.zero))
  s.access r tile (.special o) (specialSpans o)
    ((s.tileEvent r tile 6 o.n).putTensor r tile (.float fmtFp32) .rne false 0 o.out vs)

/-- A quantise or convert operation (R296-R299). -/
def State.quantRun (s : State) (r : Run) (tile : Nat) (o : QuantOp) : State :=
  match arith o.fmtIn, arith o.fmtOut with
  | some ki, some ko =>
    if !mxDimOk ki o.inner || !mxDimOk ko o.inner || !mxDimOk ki o.n || !mxDimOk ko o.n then s.operandFault r.slot 4 tile
    else
      let vs := (s.tensorAt r ki o.src o.n).vals
      s.access r tile (.quant o) [(false, o.src, tensorBytes ki o.n), (true, o.out, tensorBytes ko o.n)]
        (s.putTensor r tile ko (r.rounding o.rnd) o.sat o.idxBase o.out vs)
  | _, _ => s.operandFault r.slot 3 tile

/-- The ranges ROUTE accesses (R311, R312). -/
def routeSpans (o : RouteOp) : List Span :=
  [(false, o.g, 4 * o.n * o.e), (true, o.counts, 4 * o.e), (true, o.rows, 4 * o.c * o.e), (true, o.choices, 12 * o.n * o.k),
    (true, o.dropped, 4)]

/-- ROUTE (R311, R312): counts and rows per expert, choices per row and rank, and the number dropped. -/
def State.routeRun (s : State) (r : Run) (tile : Nat) (o : RouteOp) : State :=
  if o.e = 0 ∨ o.e > 256 ∨ o.k = 0 ∨ o.k > min 8 o.e ∨ o.c = 0 ∨ o.c > 65536 then s
  else
    let g := (s.tensorAt r (.float fmtFp32) o.g (o.n * o.e)).vals
    let rows := (List.range o.n).map (fun i => rowChoices o.k (f32val o.tau.toNat) ((g.drop (i * o.e)).take o.e))
    let t := placeRows o.c rows 0 (List.replicate o.e [])
    let (fr, s1) := s.takeFree
    let noScore := (Config.freeWord fr).toNat
    let s1 := s1.tileEvent r tile 5 1
    let s1 := s1.vWrite r.slot o.counts (t.2.1.flatMap (fun l => leBytes 4 l.length))
    let s1 := (List.range o.e).foldl (fun s e =>
      s.vWrite r.slot (o.rows + 4 * o.c * e) ((t.2.1.getD e []).flatMap (leBytes 4))) s1
    let s1 := s1.vWrite r.slot o.choices (t.1.flatMap (fun cs =>
      (List.range o.k).flatMap (fun i => choiceBytes noScore cs[i]?)))
    s.access r tile (.route o) (routeSpans o) (s1.vWrite r.slot o.dropped (leBytes 4 t.2.2))

/-- The placed choices of a row as COMBINE reads them: rank, expert, slot and score. -/
def readChoices (b : List Byte) (k i : Nat) : List (Nat × Nat × Nat × Num) :=
  (List.range k).filterMap (fun j =>
    let o := 12 * (i * k + j)
    let e := leField b o 2
    let sl := leField b (o + 4) 4
    if e = 0xFFFF ∨ sl = 0xFFFFFFFF then none else some (j, e, sl, f32val (leField b (o + 8) 4)))

/-- The ranges COMBINE accesses: its expert outputs are those that the choices name (R313). -/
def State.combineSpans (s : State) (r : Run) (o : CombineOp) : List Span :=
  let rows := (List.range o.n).map (readChoices (s.vRead r o.choices (12 * o.n * o.k)) o.k)
  [(false, o.choices, 12 * o.n * o.k)] ++
    (match o.w with | some w => [(false, w, 4 * o.n * o.k)] | none => []) ++
    (rows.flatMap id).map (fun x => (false, o.y + 4 * ((x.2.1 * o.c + x.2.2.1) * o.d), 4 * o.d)) ++
    [(true, o.out, 4 * o.n * o.d)]

/-- COMBINE (R313): per row, the weighted expert outputs in rank order. -/
def State.combineRun (s : State) (r : Run) (tile : Nat) (o : CombineOp) : State :=
  let cb := s.vRead r o.choices (12 * o.n * o.k)
  let rows := (List.range o.n).map (readChoices cb o.k)
  let weight (i j : Nat) (sc : Num) : Num :=
    match o.w with
    | some w => f32val (leNat (s.vRead r (w + 4 * (i * o.k + j)) 4))
    | none => sc
  let vs := (List.range (o.n * o.d)).map (fun x =>
    let i := x / o.d
    combineElem ((rows.getD i []).map (fun c =>
      (weight i c.1 c.2.2.2, f32val (leNat (s.vRead r (o.y + 4 * ((c.2.1 * o.c + c.2.2.1) * o.d + x % o.d)) 4))))))
  s.access r tile (.combine o) (s.combineSpans r o)
    (s.putTensor r tile (.float fmtFp32) .rne false 0 o.out vs)

/-- The codes of a tensor as the digest takes them (R398): an MX code with its block scale above it. -/
def watchCodes (k : ElemKind) (b : List Byte) (n : Nat) : List Nat :=
  (List.range n).map (fun i => elemCode k b i +
    (if k.isMx then leField b (scaleOffset k n + i / 32) 1 * 2 ^ 32 else 0))

/-- WATCH (R397, R398): a 64-byte record, and a WATCH trace record with the digest. -/
def State.watchRun (s : State) (r : Run) (tile : Nat) (o : WatchOp) : State :=
  match arith o.fmt with
  | some k =>
    if !mxDimOk k o.n then s.operandFault r.slot 4 tile
    else
      let b := s.vRead r o.src (tensorBytes k o.n)
      let w := watchRecord o.id o.fmt (readTensor k b o.n).vals (watchCodes k b o.n)
      s.access r tile (.watch o) [(false, o.src, tensorBytes k o.n), (true, o.out, 64)]
        (((s.tileEvent r tile 0xF o.n).vWrite r.slot o.out w.1).trace 8 5 (sigTile ((r.physTile tile).getD 0)) r.slot 0
          (o.id % 65536) w.2)
  | none => s.operandFault r.slot 3 tile

/-- The run's table of a number (R315). -/
def Run.table (r : Run) (n : Nat) : Option EmbTable := r.tables.find? (fun t => t.number == n)

/-- Where row n lies in the namespace, in bytes (R316). -/
def EmbTable.rowAt (t : EmbTable) (n : Nat) : Nat :=
  if t.stride ≤ 4096 then
    let per := 4096 / max t.stride 1
    (t.baseLba + n / per) * 4096 + n % per * t.stride
  else t.baseLba * 4096 + n * t.stride

/-- The elements of a stored row, widened (R316, R319). -/
def EmbTable.values (t : EmbTable) (b : List Byte) : List Num :=
  match elemKind t.fmt with
  | none => []
  | some k =>
    (List.range t.dim).map (fun i =>
      let v := k.value (elemCode k b i)
      if k.isMx then
        match mxScale (leField b (elemBytes k t.dim + i / 32) 1) with
        | some e => v.scale e
        | none => .nan
      else v)

def Run.cachedRow (r : Run) (table row : Nat) : Option CachedRow :=
  r.rows.find? (fun x => x.table == table && x.row == row)

/-- Rows that a suspended operation still needs: none of them leaves the cache. -/
def Run.rowWanted (r : Run) (x : CachedRow) : Bool :=
  r.susp.any (fun y => match y.op with
    | .gather o => o.table == x.table
    | .apply o => o.table == x.table
    | _ => false)

/-- A dirty row is written back through the namespace write path (R324). -/
def State.rowWriteBack (s : State) (r : Run) (x : CachedRow) : State :=
  match r.table x.table with
  | none => s
  | some t => (s.deviceWrite t.nsid (t.rowAt x.row) x.bytes (x.bytes.length / 16384 + 2)).getD s

/-- The bulk-memory tier of a table holds so many rows. -/
def EmbTable.capacity (t : EmbTable) : Nat := max 1 (t.warmGib * 2 ^ 30 / max t.stride 1)

/-- Puts a row at the front of the cache; the least recently used row beyond the tier's capacity leaves it, and a
dirty one is written back (R317, R324). -/
def State.rowInsert (s : State) (slot : Nat) (x : CachedRow) : State :=
  match s.runAt slot with
  | none => s
  | some r =>
    let rest := r.rows.filter (fun y => !(y.table == x.table && y.row == x.row))
    let mine := (rest.filter (fun y => y.table == x.table)).length
    let cap := ((r.table x.table).map EmbTable.capacity).getD 1
    let victim := if mine + 1 > cap then (rest.filter (fun y => y.table == x.table && !r.rowWanted y)).getLast? else none
    let rest := match victim with
      | some v => rest.filter (fun y => !(y.table == v.table && y.row == v.row))
      | none => rest
    let hotCap := ((r.table x.table).map (fun t => t.hotMib * 2 ^ 20 / max t.stride 1)).getD 0
    let hot := (x.table, x.row) :: r.hot.filter (· != (x.table, x.row))
    let hotMine := (hot.filter (fun h => h.1 == x.table)).take hotCap
    let s := s.updRun slot (fun r => { r with
      rows := x :: rest, hot := hotMine ++ hot.filter (fun h => h.1 != x.table) })
    match victim with
    | some v => if v.dirty then s.rowWriteBack r v else s
    | none => s

/-- An engine suspends for table rows that no cache holds (R317): each is read from the media once. -/
def State.suspendRows (s : State) (slot source : Nat) (op : TileOp) (rows : List (Nat × Nat)) : State :=
  s.updRun slot (fun r => { r with susp := r.susp ++ [{ source := source, op := op, rows := rows }] })

/-- The physical region of an engine of the run. -/
def Run.engineRegion (r : Run) (source : Nat) : Nat := r.regions.getD ((source - 0x8000) / 2) 0

/-- The bag offsets and the indices a gather reads (R319). -/
def State.gatherOffsets (s : State) (r : Run) (o : GatherOp) : List Nat :=
  (List.range (o.bags + 1)).map (fun i => leNat (s.vRead r (o.offsets + 4 * i) 4))

def State.gatherIndices (s : State) (r : Run) (o : GatherOp) : List Nat :=
  (List.range ((s.gatherOffsets r o).getLastD 0)).map (fun i => leNat (s.vRead r (o.indices + 8 * i) 8))

/-- The ranges a gather of so many indices accesses (R319). -/
def gatherSpans (o : GatherOp) (t : EmbTable) (ko : ElemKind) (total : Nat) : List Span :=
  [(false, o.offsets, 4 * (o.bags + 1)), (false, o.indices, 8 * total)] ++
    (match o.weights with | some w => [(false, w, 4 * total)] | none => []) ++
    [(true, o.out, tensorBytes ko ((if o.mode = GatherMode.none then total else o.bags) * t.dim))]

/-- EMB_GATHER (R319, R320): bags of indices, pooled and converted; rows no cache holds are read first. -/
def State.gatherRun (s : State) (r : Run) (source : Nat) (o : GatherOp) : State :=
  match r.table o.table, arith o.fmtOut with
  | some t, some ko =>
    let offs := s.gatherOffsets r o
    let total := offs.getLastD 0
    let idx := s.gatherIndices r o
    let wts := match o.weights with
      | some w => (List.range total).map (fun i => f32val (leNat (s.vRead r (w + 4 * i) 4)))
      | none => List.replicate total (Num.ofInt 1)
    let g := r.engineRegion source
    let bad := idx.any (fun i => decide (i ≥ t.rows))
    let go : State :=
      if bad && !t.indexSkip then s.operandFault r.slot 2 source
      else if ko.isMx && t.dim % 32 != 0 then s.operandFault r.slot 4 source
      else
        let used := (idx.filter (fun i => decide (i < t.rows))).reverse.eraseDups.reverse
        let missing := (used.filter (fun i => (r.cachedRow o.table i).isNone)).map (fun i => (o.table, i))
        if !missing.isEmpty then (s.suspendRows r.slot source (.gather o) missing).regionBump g 1 missing.length
        else
          let rowOf (i : Nat) : List Num := ((r.cachedRow o.table i).map (fun x => t.values x.bytes)).getD []
          let bagItems (b : Nat) : List (Nat × Nat) :=
            ((List.range total).filter (fun p => decide (offs.getD b 0 ≤ p ∧ p < offs.getD (b + 1) 0))).filterMap (fun p =>
              let i := idx.getD p 0
              if i < t.rows then some (p, i) else none)
          let vs : List Num :=
            if o.mode = GatherMode.none then
              ((List.range o.bags).flatMap bagItems).flatMap (fun x => rowOf x.2)
            else (List.range o.bags).flatMap (fun b =>
              let items := (bagItems b).map (fun x => (wts.getD x.1 Num.zero, rowOf x.2))
              (List.range t.dim).map (fun d => poolElem o.mode (items.map (fun x => (x.1, x.2.getD d Num.zero)))))
          let served := (idx.filter (fun i => decide (i < t.rows))).length * ((t.stride + 255) / 256)
          let s := (s.regionBump g 0 served).regionBump g 2 (idx.filter (fun i => decide (i ≥ t.rows))).length
          let s := used.foldl (fun s i => match r.cachedRow o.table i with
            | some x => s.rowInsert r.slot x
            | none => s) s
          s.vWrite r.slot o.out (writeTensor ko .rne o.sat 0 vs)
    s.access r source (.gather o) (gatherSpans o t ko total) go
  | _, _ => s.operandFault r.slot (if (r.table o.table).isNone then 2 else 3) source

/-- A row's new bytes after an update (R316, R322). -/
def EmbTable.store (t : EmbTable) (seed step row : Nat) (old : List Byte) (w : List Num) (st : Nat) : List Byte :=
  match elemKind t.fmt with
  | none => old
  | some k =>
    let rnd : Rounding := if t.srOnStore then .sr (seed ^^^ (t.number * 2 ^ 48)) step else .rne
    let el : List Byte :=
      if k.isMx then
        let q := (List.range (t.dim / 32)).map (fun i => quantBlock k (fun j => rnd.at (row * t.dim + 32 * i + j))
          ((w.drop (32 * i)).take 32))
        packCodes k.bits (q.flatMap (·.2)) ++ q.map (fun x => BitVec.ofNat 8 x.1)
      else packCodes k.bits ((List.range t.dim).map (fun d => k.convert (rnd.at (row * t.dim + d)) t.sat (w.getD d Num.zero)))
    slice el 0 (t.stride - 8) ++ leBytes 4 st ++ leBytes 4 step

/-- One row's update (R322): left as it is when its STEP already equals the step. -/
def State.applyRow (s : State) (r : Run) (g : Nat) (t : EmbTable) (o : ApplyOp) (row : Nat) : State :=
  match r.cachedRow t.number row with
  | none => s
  | some x =>
    let st := leField x.bytes (t.stride - 8) 4
    let step := leField x.bytes (t.stride - 4) 4
    if step = o.step % 2 ^ 32 then s.regionBump g 3 1
    else
      let gs := gradSum t.dim (r.grads.filter (fun c => c.table == t.number && c.row == row))
      let w := t.values x.bytes
      let lr := f32val o.lr.toNat
      let upd := if t.optimiser = 1 then (sgdRow lr w gs, st)
        else let a := adagradRow lr (f32val t.eps) (f32val st) w gs; (a.1, f32 a.2)
      s.rowInsert r.slot { x with
        bytes := t.store r.seed (o.step % 2 ^ 32) row x.bytes upd.1 upd.2, dirty := true }

/-- EMB_APPLY (R322, R323): every row of the table with a gradient is updated whole, its rows read first. -/
def State.applyRun (s : State) (r : Run) (source : Nat) (o : ApplyOp) : State :=
  match r.table o.table with
  | none => s.operandFault r.slot 2 source
  | some t =>
    let rows := ((r.grads.filter (fun c => c.table == o.table)).map (·.row)).eraseDups
    let g := r.engineRegion source
    if t.optimiser = 0 then s
    else if rows.any (fun x => decide (x ≥ t.rows)) && !t.indexSkip then s.operandFault r.slot 2 source
    else
      let rows := rows.filter (fun x => decide (x < t.rows))
      let missing := (rows.filter (fun i => (r.cachedRow o.table i).isNone)).map (fun i => (o.table, i))
      if !missing.isEmpty then (s.suspendRows r.slot source (.apply o) missing).regionBump g 1 missing.length
      else
        let s := rows.foldl (fun s x => s.applyRow r g t o x) s
        s.updRun r.slot (fun r => { r with grads := r.grads.filter (fun c => c.table != o.table) })

/-- Runs an operation that is not a DMA descriptor, at its source. -/
def State.runTileOp (s : State) (r : Run) (source : Nat) : TileOp → State
  | .matrix o => match o.meta24 with
    | none => s.matrixDense r source o
    | some m => s.matrixSparse r source o m
  | .vector o => s.vectorRun r source o
  | .reduce o => s.reduceRun r source o
  | .special o => s.specialRun r source o
  | .quant o => s.quantRun r source o
  | .route o => s.routeRun r source o
  | .combine o => s.combineRun r source o
  | .watch o => s.watchRun r source o
  | .gather o => s.gatherRun r source o
  | .apply o => s.applyRun r source o
  | .dma _ _ _ _ => s

/-- MATRIX_OP (R300-R304): one dense output tile. -/
def State.matrixOp (s : State) (slot tile : Nat) (o : MatrixOp) : State :=
  match s.tileReady slot tile with
  | some r => if matShape o then s.runTileOp r tile (.matrix { o with meta24 := none }) else s
  | none => s

def execMatrixOp (slot tile : Nat) (o : MatrixOp) (s : State) : Host.Outcome State Fault Refusal :=
  .next (s.matrixOp slot tile o)

/-- SPARSE_MATRIX_OP (R308, R309): one output tile with a 2:4 sparse B. -/
def State.sparseMatrixOp (s : State) (slot tile : Nat) (o : MatrixOp) (metaAt : Nat) : State :=
  match s.tileReady slot tile with
  | some r => if matShape o then s.runTileOp r tile (.matrix { o with meta24 := some metaAt }) else s
  | none => s

def execSparseMatrixOp (slot tile : Nat) (o : MatrixOp) (metaAt : Nat) (s : State) : Host.Outcome State Fault Refusal :=
  .next (s.sparseMatrixOp slot tile o metaAt)

/-- An operation of a tile. -/
def State.tileOp (s : State) (slot tile : Nat) (op : TileOp) : State :=
  match s.tileReady slot tile with
  | some r => s.runTileOp r tile op
  | none => s

def execVectorOp (slot tile : Nat) (o : VectorOp) (s : State) : Host.Outcome State Fault Refusal :=
  .next (s.tileOp slot tile (.vector o))

def execVectorReduce (slot tile : Nat) (o : ReduceOp) (s : State) : Host.Outcome State Fault Refusal :=
  .next (s.tileOp slot tile (.reduce o))

def execSpecialFunction (slot tile : Nat) (o : SpecialOp) (s : State) : Host.Outcome State Fault Refusal :=
  .next (s.tileOp slot tile (.special o))

def execQuantise (slot tile : Nat) (o : QuantOp) (s : State) : Host.Outcome State Fault Refusal :=
  .next (s.tileOp slot tile (.quant o))

def execRoute (slot tile : Nat) (o : RouteOp) (s : State) : Host.Outcome State Fault Refusal :=
  .next (s.tileOp slot tile (.route o))

def execCombine (slot tile : Nat) (o : CombineOp) (s : State) : Host.Outcome State Fault Refusal :=
  .next (s.tileOp slot tile (.combine o))

def execWatch (slot tile : Nat) (o : WatchOp) (s : State) : Host.Outcome State Fault Refusal :=
  .next (s.tileOp slot tile (.watch o))

/-- The run, RUNNING, when this engine of it is free to take an operation; none while the mesh clock is stopped (R618). -/
def State.engineReady (s : State) (slot e : Nat) : Option Run :=
  match s.runAt slot with
  | some r =>
    if r.state = RunState.running ∧ e < 2 * r.regions.length ∧ !r.suspended (0x8000 + e) ∧ !s.clockDown 48 then some r else none
  | none => none

/-- EMB_GATHER, on engine e of the run. -/
def State.embGather (s : State) (slot e : Nat) (o : GatherOp) : State :=
  match s.engineReady slot e with
  | some r => s.runTileOp r (0x8000 + e) (.gather o)
  | none => s

def execEmbGather (slot e : Nat) (o : GatherOp) (s : State) : Host.Outcome State Fault Refusal :=
  .next (s.embGather slot e o)

/-- Operations that wait for nothing more are retried (R356, R317). -/
def State.retryReady (s : State) (slot : Nat) : State :=
  match s.runAt slot with
  | none => s
  | some r =>
    if r.state ≠ RunState.running then s
    else
      let ready := r.susp.filter (fun x => x.page.isNone && x.rows.isEmpty && x.status == 0 && !x.isDma)
      ready.foldl (fun s x =>
        let s := s.updRun slot (fun r => { r with susp := r.susp.filter (fun y => y.source != x.source) })
        match s.runAt slot with
        | some r => if r.state = RunState.running then s.runTileOp r x.source x.op else s
        | none => s) s

/-- EMB_ROW_READ_DONE (R317, R318): the row enters the caches and waiting operations go on; a read that failed every
tier holds the run with 0x0A03. -/
def State.embRowReadDone (s : State) (slot table row : Nat) (ok : Bool) : State :=
  match s.runAt slot with
  | none => s
  | some r =>
    match r.susp.find? (fun x => x.rows.contains (table, row)), r.table table with
    | some x, some t =>
      if !ok || !s.nsReadable t.nsid (t.rowAt row) t.stride then
        s.holdRun slot 0x0A03 { x with vaddr := row }
      else
        let b := s.nsBytes t.nsid (t.rowAt row) t.stride
        let s := s.countReconstructs t.nsid (t.rowAt row) t.stride
        let s := s.rowInsert slot { table := table, row := row, bytes := b, dirty := false }
        let s := s.updRun slot (fun r => { r with
          susp := r.susp.map (fun y => { y with rows := y.rows.filter (· != (table, row)) }) })
        s.retryReady slot
    | _, _ => s

def execEmbRowReadDone (slot table row : Nat) (ok : Bool) (s : State) : Host.Outcome State Fault Refusal :=
  .next (s.embRowReadDone slot table row ok)

/-- EMB_GRAD (R321): the engines take gradient contributions of the run's tables. -/
def State.embGrad (s : State) (slot e : Nat) (cs : List GradContribution) : State :=
  match s.engineReady slot e with
  | none => s
  | some r =>
    let ok (c : GradContribution) : Bool := match r.table c.table with
      | some t => c.grad.length == t.dim
      | none => false
    if cs.all ok then s.updRun slot (fun r => { r with grads := r.grads ++ cs }) else s

def execEmbGrad (slot e : Nat) (cs : List GradContribution) (s : State) : Host.Outcome State Fault Refusal :=
  .next (s.embGrad slot e cs)

/-- EMB_APPLY, on engine e of the run. -/
def State.embApply (s : State) (slot e : Nat) (o : ApplyOp) : State :=
  match s.engineReady slot e with
  | some r => s.runTileOp r (0x8000 + e) (.apply o)
  | none => s

def execEmbApply (slot e : Nat) (o : ApplyOp) (s : State) : Host.Outcome State Fault Refusal :=
  .next (s.embApply slot e o)

/-- EMB_FLUSH (R324): starts the write-back of every row dirty now. -/
def State.embFlush (s : State) (slot : Nat) : State :=
  match s.runAt slot with
  | none => s
  | some r =>
    if r.state ≠ RunState.running ∨ r.flush.isSome then s
    else s.updRun slot (fun r => { r with
      flush := some ((r.rows.filter (·.dirty)).map (fun x => (x.table, x.row))) })

def execEmbFlush (slot : Nat) (s : State) : Host.Outcome State Fault Refusal := .next (s.embFlush slot)

/-- EMB_FLUSH_DONE (R324): every row dirty at the flush's issue has been written and acknowledged. -/
def State.embFlushDone (s : State) (slot : Nat) : State :=
  match s.runAt slot with
  | none => s
  | some r =>
    match r.flush with
    | none => s
    | some rows =>
      let mine (x : CachedRow) : Bool := x.dirty && rows.contains (x.table, x.row)
      let s := (r.rows.filter mine).foldl (fun s x => s.rowWriteBack r x) s
      let s := s.updRun slot (fun r => { r with
        rows := r.rows.map (fun x => if mine x then { x with dirty := false } else x), flush := none })
      s.reply (.run slot) 0

def execEmbFlushDone (slot : Nat) (s : State) : Host.Outcome State Fault Refusal := .next (s.embFlushDone slot)

end Sys2Proof.Machine
end

