-- ==== Sys2Proof/Machine/Dma.lean ====
section
/-! DEFINITION. Tile DMA descriptors, page fills and eviction (R356-R363). -/

namespace Sys2Proof.Machine

/-- Writes a page back through the namespace write path (R348, R356). -/
def State.pageWriteBack (s : State) (r : Run) (page : Nat) : State :=
  match r.mapping page with
  | none => s
  | some m =>
    let b := memRead r.mem page 65536
    (s.deviceWrite m.nsid (m.lba * 4096 + (page - m.vaddr)) b 6).getD s

/-- A DMA descriptor as read (R357). Strides are two's complement. -/
structure DmaDesc where
  op : Nat
  flags : Nat
  sync : Nat
  count0 : Nat
  src : Nat
  dst : Nat
  count1 : Nat
  count2 : Nat
  srcStride1 : Int
  srcStride2 : Int
  dstStride1 : Int
  dstStride2 : Int
  deriving DecidableEq, Repr

def s64Field (b : List Byte) (off : Nat) : Int :=
  let x := leField b off 8
  if x < 2 ^ 63 then x else (x : Int) - 2 ^ 64

def dmaDesc (b : List Byte) : DmaDesc :=
  { op := leField b 0 1, flags := leField b 1 1, sync := leField b 2 2, count0 := leField b 4 4, src := leField b 8 8,
    dst := leField b 0x10 8, count1 := leField b 0x18 4, count2 := leField b 0x1C 4, srcStride1 := s64Field b 0x20,
    srcStride2 := s64Field b 0x28, dstStride1 := s64Field b 0x30, dstStride2 := s64Field b 0x38 }

/-- The first address of row i1 of plane i2. -/
def dmaRow (base : Nat) (s1 s2 : Int) (i1 i2 : Nat) : Int := (base : Int) + s1 * i1 + s2 * i2

/-- The span of a descriptor's rows: lowest address, and highest + 1. -/
def dmaSpan (base : Nat) (s1 s2 : Int) (d : DmaDesc) : Int × Int :=
  let a1 := s1 * ((d.count1 : Int) - 1)
  let a2 := s2 * ((d.count2 : Int) - 1)
  ((base : Int) + min 0 a1 + min 0 a2, (base : Int) + max 0 a1 + max 0 a2 + d.count0)

/-- A descriptor that R359 does not call invalid. -/
def DmaDesc.ok (d : DmaDesc) : Bool :=
  let src := dmaSpan d.src d.srcStride1 d.srcStride2 d
  let dst := dmaSpan d.dst d.dstStride1 d.dstStride2 d
  decide (1 ≤ d.op ∧ d.op ≤ 3) && decide (d.flags < 4) && decide (1 ≤ d.count0 ∧ 1 ≤ d.count1 ∧ 1 ≤ d.count2) &&
    decide (d.count0 * d.count1 * d.count2 ≤ 2 ^ 40) &&
    (d.op != 1 || decide (src.2 ≤ dst.1) || decide (dst.2 ≤ src.1)) && (d.op != 3 || d.dst == 0)

/-- Byte b of row (i1, i2) for FILL: the pattern is repeated over the bytes in the order they move (R357, R358). -/
def DmaDesc.fillByte (d : DmaDesc) (i1 i2 b : Nat) : Byte :=
  BitVec.ofNat 8 (d.src / 256 ^ (((i2 * d.count1 + i1) * d.count0 + b) % 8))

/-- An address a descriptor computes, modulo 2^64. -/
def vaOf (x : Int) : Nat := (x % (2 : Int) ^ 64).toNat

/-- Whether an address lies in the tile stores. -/
def inTileStore (va : Nat) : Bool := decide (va < 0x80000000)

/-- A DMA's access that is not in order (R360). -/
def State.dmaStop (s : State) (slot tile : Nat) (op : TileOp) : Access → State
  | .ok => s
  | .fault st va => s.endRun slot st 0 tile va
  | .fill p =>
    let s := s.updRun slot (fun r => { r with
      susp := r.susp ++ [{ source := 0x4000 + tile, op := op, page := some p, vaddr := p }],
      filling := if r.filling.contains p then r.filling else r.filling ++ [p] })
    match s.runAt slot with
    | some r => s.tileEvent r tile 0xE 1
    | none => s
  | .hostFail va => s.holdRun slot 0x0A09 { source := 0x4000 + tile, op := op, vaddr := va }

/-- A descriptor's bytes have moved, or its job has ended. -/
def State.dmaMoved (s : State) (phys desc : Nat) : State :=
  let t := s.tile phys
  match t.dma.findIdx? (fun j => j.desc == desc && !j.done) with
  | some i => s.setTile phys { t with dma := modAt t.dma i (fun j => { j with done := true }) }
  | none => s

/-- Moves units of 4,096 bytes from (i2, i1, off) on, until the end or an access that is not in order (R358, R362). -/
def State.dmaUnits (s : State) (slot tile desc : Nat) (d : DmaDesc) (i2 i1 off : Nat) : Nat → State
  | 0 => s
  | n + 1 =>
    match s.runAt slot with
    | none => s
    | some r =>
      if i2 ≥ d.count2 then
        match r.physTile tile with
        | some p => s.dmaMoved p desc
        | none => s
      else
        let len := min 4096 (d.count0 - off)
        let src := vaOf (dmaRow d.src d.srcStride1 d.srcStride2 i1 i2) + off
        let dst := vaOf (dmaRow d.dst d.dstStride1 d.dstStride2 i1 i2) + off
        let a := (if d.op = 1 then r.check false src len else .ok).then (r.check true dst len)
        match a with
        | .ok =>
          let b := if d.op = 1 then s.vRead r src len else (List.range len).map (fun k => d.fillByte i1 i2 (off + k))
          let s := (s.vWrite slot dst b).touchSpans slot [(false, src, if d.op = 1 then len else 0)]
          let s := if inTileStore dst then s.tileEvent r tile 7 len else s
          let s := if d.op = 1 ∧ inTileStore src then s.tileEvent r tile 8 len else s
          if off + len < d.count0 then s.dmaUnits slot tile desc d i2 i1 (off + len) n
          else if i1 + 1 < d.count1 then s.dmaUnits slot tile desc d i2 (i1 + 1) 0 n
          else s.dmaUnits slot tile desc d (i2 + 1) 0 0 n
        | x => s.dmaStop slot tile (.dma desc i2 i1 off) x

/-- The units of a descriptor, with one step for its end. -/
def DmaDesc.units (d : DmaDesc) : Nat := (d.count0 + 4095) / 4096 * d.count1 * d.count2 + 1

/-- An R169 job descriptor as read. -/
def jobDesc (b : List Byte) : JobDesc :=
  { op := leField b 0 1, format := leField b 1 1, flags := leField b 2 2, tag := leField b 4 4, inAddr := leField b 8 8,
    inLen := leField b 0x10 8, outAddr := leField b 0x18 8, outCap := leField b 0x20 8, expected := leField b 0x28 8,
    stateAddr := leField b 0x30 8, histAddr := leField b 0x38 8 }

/-- An ENGINE descriptor submits its job, unless it is a decompress job without STATE_ADDR (R358, R359). -/
def State.dmaEngine (s : State) (r : Run) (tile desc : Nat) (d : DmaDesc) : State :=
  match r.check false d.src 64 with
  | .ok =>
    let j := jobDesc (s.vRead r d.src 64)
    if j.op = 1 ∧ j.stateAddr = 0 then s.endRun r.slot 0x0A05 0 tile desc
    else { s with cmp := { s.cmp with queue := s.cmp.queue ++ [.run (.run r.slot tile desc) j false] } }
  | x => s.dmaStop r.slot tile (.dma desc 0 0 0) x

/-- A descriptor goes on from (i2, i1, off): it is read, checked and carried out (R357-R362). -/
def State.dmaGo (s : State) (r : Run) (tile desc i2 i1 off : Nat) : State :=
  match r.check false desc 64 with
  | .ok =>
    let d := dmaDesc (s.vRead r desc 64)
    if !d.ok then s.endRun r.slot 0x0A05 0 tile desc
    else if d.op = 3 then s.dmaEngine r tile desc d
    else s.dmaUnits r.slot tile desc d i2 i1 off d.units
  | x => s.dmaStop r.slot tile (.dma desc i2 i1 off) x

/-- A tile DMA takes the next descriptor of its chain, which has the operation of the command. -/
def State.dmaIssue (s : State) (slot tile desc op : Nat) : State :=
  match s.runAt slot with
  | none => s
  | some r =>
    match r.physTile tile with
    | none => s
    | some p =>
      if r.state ≠ RunState.running ∨ r.suspended (0x4000 + tile) ∨ s.tileUnitHeld p 2 then s
      else
        let d := dmaDesc (s.vRead r desc 64)
        if r.check false desc 64 = .ok ∧ d.ok ∧ d.op ≠ op then s
        else
          let t := s.tile p
          let j : DmaJob := { desc := desc, isLast := d.flags.testBit 0, signal := d.flags.testBit 1, sync := d.sync,
                              done := false }
          (s.setTile p { t with dma := t.dma ++ [j] }).dmaGo r tile desc 0 0 0

def execDmaCopy (slot tile desc : Nat) (s : State) : Host.Outcome State Fault Refusal :=
  .next (s.dmaIssue slot tile desc 1)

def execDmaFill (slot tile desc : Nat) (s : State) : Host.Outcome State Fault Refusal :=
  .next (s.dmaIssue slot tile desc 2)

def execDmaEngine (slot tile desc : Nat) (s : State) : Host.Outcome State Fault Refusal :=
  .next (s.dmaIssue slot tile desc 3)

/-- DMA_DESCRIPTOR_DONE (R358): the oldest descriptor completes once its work is done, and signals. -/
def State.dmaDescriptorDone (s : State) (slot tile : Nat) : State :=
  match s.runAt slot with
  | none => s
  | some r =>
    match r.physTile tile with
    | none => s
    | some p =>
      match (s.tile p).dma with
      | [] => s
      | j :: rest =>
        if !j.done ∨ r.state ≠ RunState.running then s
        else
          let s := s.setTile p { s.tile p with dma := rest }
          if !j.signal then s
          else match s.runCounter r j.sync with
            | some n => (s.counterAdd n 1 (sigDma p) 0 tile).2
            | none => s.endRun slot 0x0B03 j.sync tile

def execDmaDescriptorDone (slot tile : Nat) (s : State) : Host.Outcome State Fault Refusal :=
  .next (s.dmaDescriptorDone slot tile)

/-- Suspended DMA descriptors whose page is in go on (R362). -/
def State.retryDma (s : State) (slot : Nat) : State :=
  match s.runAt slot with
  | none => s
  | some r =>
    if r.state ≠ RunState.running then s
    else
      let ready := r.susp.filter (fun x => x.page.isNone && x.status == 0 && x.isDma)
      ready.foldl (fun s x =>
        let s := s.updRun slot (fun r => { r with susp := r.susp.filter (fun y => y.source != x.source) })
        match s.runAt slot, x.op with
        | some r, .dma desc i2 i1 off =>
          if r.state = RunState.running then s.dmaGo r (sourceTile x.source) desc i2 i1 off else s
        | _, _ => s) s

/-- Every suspended operation that can go on goes on (R361). -/
def State.retryAll (s : State) (slot : Nat) : State := (s.retryReady slot).retryDma slot

/-- Bulk frames of the run's quota, in 64 KiB units, that media-backed pages can take (R356). -/
def Run.frameRoom (r : Run) : Nat := r.bulkPages * 32 - r.bulkUsed

/-- The least recently used unpinned resident page (R356). -/
def Run.victim (r : Run) : Option PageEntry :=
  let c := r.pages.filter (fun p => p.resident && match r.mapping p.va with | some m => !m.pinned | none => true)
  c.foldl (fun v p => match v with
    | none => some p
    | some q => if p.used < q.used then some p else some q) none

/-- Evicts a page, writing a dirty one back first (R356). -/
def State.evict (s : State) (r : Run) (e : PageEntry) : State :=
  let s := if e.dirty then s.pageWriteBack r e.va else s
  s.updRun r.slot (fun r =>
    let n := satBump 32 r.evictions 1 (r.ovf.getLsbD 1)
    { r with
      pages := r.pages.filter (fun p => p.va != e.va), mem := memZero r.mem e.va (e.va + 65536), evictions := n.1,
      ovf := setBit r.ovf 1 n.2 })

/-- A fill cannot end: the operations that wait for the page are held (R361), or will be when the run is resumed. -/
def State.fillFails (s : State) (r : Run) (page : Nat) (st : Status) : State :=
  let s := s.updRun r.slot (fun r => { r with filling := r.filling.filter (· != page) })
  match r.susp.find? (fun x => x.page == some page) with
  | none => s
  | some x =>
    if r.state = RunState.running ∨ r.state = RunState.preempting then s.holdRun r.slot st { x with vaddr := page }
    else s.updRun r.slot (fun r => { r with
      susp := r.susp.map (fun y => if y.page == some page then { y with status := st.toNat } else y) })

/-- FILL_DONE (R356): the page becomes resident and the suspended accesses are retried. -/
def State.fillDone (s : State) (slot page : Nat) (ok : Bool) : State :=
  match s.runAt slot with
  | none => s
  | some r =>
    if !r.filling.contains page ∨ r.state = RunState.ending ∨ r.state = RunState.free then s
    else match r.mapping page with
      | none => s
      | some m =>
        if !ok || !s.nsReadable m.nsid (m.lba * 4096 + (page - m.vaddr)) 65536 then s.fillFails r page 0x0A03
        else
          let full := decide (r.residentPages ≥ r.frameRoom)
          match full, r.victim with
          | true, none => s.fillFails r page 0x0A04
          | _, v =>
            let s := match full, v with
              | true, some e => s.evict r e
              | _, _ => s
            let s := (s.placePage slot page).updRun slot (fun r =>
              let n := satBump 32 r.fills 1 (r.ovf.getLsbD 0)
              { r with
                fills := n.1, ovf := setBit r.ovf 0 n.2,
                susp := r.susp.map (fun x => if x.page == some page then { x with page := none } else x) })
            s.retryAll slot

def execFillDone (slot page : Nat) (ok : Bool) (s : State) : Host.Outcome State Fault Refusal :=
  .next (s.fillDone slot page ok)

end Sys2Proof.Machine
end

