-- ==== Sys2Proof/Machine/TextFns.lean ====
section
/-! DEFINITION. Tokenisation, detokenisation, packing, stop strings and grammar steps as functions of their inputs
alone (R259-R281). -/

namespace Sys2Proof.Machine

/-- One item of a scanned field (R259): a character with its bytes, or an invalid byte. -/
inductive TextItem where
  | char (cp : Nat) (bytes : List Byte)
  | bad (b : Byte)
  deriving DecidableEq, Repr

/-- A continuation byte in a range. -/
def inRange (b : Byte) (lo hi : Nat) : Bool := decide (lo ≤ b.toNat ∧ b.toNat ≤ hi)

/-- The bounds of the second byte and the length of a sequence, by its first byte (Unicode 15.1, Table 3-7). -/
def utf8Lead (b : Byte) : Option (Nat × Nat × Nat) :=
  let n := b.toNat
  if n ≤ 0x7F then some (1, 0, 0)
  else if 0xC2 ≤ n ∧ n ≤ 0xDF then some (2, 0x80, 0xBF)
  else if n = 0xE0 then some (3, 0xA0, 0xBF)
  else if n = 0xED then some (3, 0x80, 0x9F)
  else if 0xE1 ≤ n ∧ n ≤ 0xEF then some (3, 0x80, 0xBF)
  else if n = 0xF0 then some (4, 0x90, 0xBF)
  else if 0xF1 ≤ n ∧ n ≤ 0xF3 then some (4, 0x80, 0xBF)
  else if n = 0xF4 then some (4, 0x80, 0x8F)
  else none

/-- Do the bytes after the first fit a sequence of its lead, as far as they go? -/
def utf8Tail (lo hi : Nat) : List Byte → Bool
  | [] => true
  | b :: bs => inRange b lo hi && bs.all (fun x => inRange x 0x80 0xBF)

/-- The code point of a well-formed sequence. -/
def utf8Value (bs : List Byte) : Nat :=
  match bs with
  | [] => 0
  | [a] => a.toNat
  | a :: rest =>
    let lead := if rest.length = 1 then a.toNat % 32 else if rest.length = 2 then a.toNat % 16 else a.toNat % 8
    rest.foldl (fun v x => v * 64 + x.toNat % 64) lead

/-- The UTF-8 bytes of a code point. -/
def utf8Encode (cp : Nat) : List Byte :=
  let b (n : Nat) : Byte := BitVec.ofNat 8 n
  if cp < 0x80 then [b cp]
  else if cp < 0x800 then [b (0xC0 + cp / 64), b (0x80 + cp % 64)]
  else if cp < 0x10000 then [b (0xE0 + cp / 4096), b (0x80 + cp / 64 % 64), b (0x80 + cp % 64)]
  else [b (0xF0 + cp / 262144), b (0x80 + cp / 4096 % 64), b (0x80 + cp / 64 % 64), b (0x80 + cp % 64)]

/-- What stands at the head of the input (R259): a whole character, a proper prefix of one that reaches the input's
end, or an invalid byte. -/
inductive Utf8Head where
  | whole (len : Nat)
  | part
  | bad
  deriving DecidableEq, Repr

def utf8Head : List Byte → Utf8Head
  | [] => .bad
  | b :: bs =>
    match utf8Lead b with
    | none => .bad
    | some (len, lo, hi) =>
      let rest := bs.take (len - 1)
      if !utf8Tail lo hi rest then .bad
      else if rest.length = len - 1 then .whole len
      else .part

/-- Scans input that is not at its end: items, and the tail that may still become a character (R259, R274). -/
def scanPart : Nat → List Byte → List TextItem × List Byte
  | 0, bs => ([], bs)
  | _, [] => ([], [])
  | fuel + 1, b :: bs =>
    match utf8Head (b :: bs) with
    | .whole len =>
      let c := (b :: bs).take len
      let r := scanPart fuel ((b :: bs).drop len)
      (.char (utf8Value c) c :: r.1, r.2)
    | .part => ([], b :: bs)
    | .bad =>
      let r := scanPart fuel bs
      (.bad b :: r.1, r.2)

/-- Scans a whole field: bytes still in the carry at its end are invalid, each in turn (R259). -/
def scanField (bs : List Byte) : List TextItem :=
  let r := scanPart (bs.length + 1) bs
  r.1 ++ r.2.map TextItem.bad

/-- Splits a decomposed run so that no more than 30 consecutive non-starters stand in one segment (R262). -/
def nfcSegments : List Nat → Nat → List Nat → List (List Nat)
  | [], _, acc => if acc.isEmpty then [] else [acc]
  | c :: cs, n, acc =>
    let m := if Config.combiningClass c ≠ 0 then n + 1 else 0
    if m > 30 then acc :: nfcSegments cs 1 [c] else nfcSegments cs m (acc ++ [c])

/-- NFC of a run of characters, with the count of segment breaks (R262). -/
def nfcRun (cps : List Nat) : List Nat × Nat :=
  let segs := nfcSegments (cps.flatMap Config.decompose) 0 []
  (segs.flatMap Config.composeSegment, segs.length - 1)

/-- The class a character takes in pre-splitting (R264): U+0020 is of class S and U+2581 of class P. -/
def splitClass (cp : Nat) : Nat := if cp = 0x20 then 2 else if cp = 0x2581 then 3 else Config.charClass cp

def isSplitSpace (cp : Nat) : Bool := cp == 0x20 || cp == 0x2581

/-- Whitespace pre-splitting (R264, PRESPLIT 1): a run of non-spaces with the spaces before it; spaces at the end of
the run stand alone. `cur` is the pre-token under way, `word` whether it has a non-space. -/
def splitWs : List Nat → List Nat → Bool → List (List Nat)
  | [], cur, _ => if cur.isEmpty then [] else [cur]
  | c :: cs, cur, word =>
    if splitClass c == 2 then
      if word then cur :: splitWs cs [c] false else splitWs cs (cur ++ [c]) false
    else splitWs cs (cur ++ [c]) true

/-- Maximal runs of one class. -/
def classRuns : List Nat → List Nat → List (List Nat)
  | [], cur => if cur.isEmpty then [] else [cur]
  | c :: cs, cur =>
    match cur.getLast? with
    | some d => if splitClass d = splitClass c then classRuns cs (cur ++ [c]) else cur :: classRuns cs [c]
    | none => classRuns cs [c]

/-- A space directly before an L or N run leaves its own run and joins that run (R264, PRESPLIT 2). `pre` is the
space that the run before gave up. -/
def joinSpaces (pre : List Nat) : List (List Nat) → List (List Nat)
  | [] => if pre.isEmpty then [] else [pre]
  | a :: rest =>
    let run := pre ++ a
    let cls := splitClass ((rest.headD []).headD 0)
    match run.getLast? with
    | some x =>
      if !rest.isEmpty && isSplitSpace x && (cls == 0 || cls == 1) then
        (if run.length > 1 then [run.dropLast] else []) ++ joinSpaces [x] rest
      else run :: joinSpaces [] rest
    | none => joinSpaces [] rest

/-- With DIGITS_SPLIT each N character stands alone, and a joined space stays with the first (R264). -/
def splitDigits (run : List Nat) : List (List Nat) :=
  match run with
  | [] => []
  | x :: rest =>
    if isSplitSpace x && splitClass (rest.headD 0x41) == 1 then
      match rest with
      | [] => [run]
      | d :: ds => [x, d] :: ds.map (fun c => [c])
    else if splitClass x == 1 then run.map (fun c => [c])
    else [run]

/-- Closes a pre-token before the character that would take it beyond 4,096 bytes (R264). -/
def splitLong : List Nat → List Nat → Nat → List (List Nat)
  | [], cur, _ => if cur.isEmpty then [] else [cur]
  | c :: cs, cur, n =>
    let k := (utf8Encode c).length
    if n + k > 4096 then cur :: splitLong cs [c] k else splitLong cs (cur ++ [c]) (n + k)

/-- The pre-tokens of a run of characters (R264). -/
def presplit (kind : Nat) (digits : Bool) (run : List Nat) : List (List Nat) :=
  let rs := match kind with
    | 1 => splitWs run [] false
    | 2 =>
      let r := joinSpaces [] (classRuns run [])
      if digits then r.flatMap splitDigits else r
    | _ => if run.isEmpty then [] else [run]
  rs.flatMap (fun r => splitLong r [] 0)

/-- The lowest rank of an adjacent pair that a merge names (R265). -/
def lowestMerge (merges : List (Nat × Nat × Nat)) : List Nat → Option Nat
  | a :: b :: rest =>
    let here := merges.findIdx? (fun m => m.1 == a && m.2.1 == b)
    match here, lowestMerge merges (b :: rest) with
    | some i, some j => some (min i j)
    | some i, none => some i
    | none, x => x
  | _ => none

/-- Replaces every occurrence of a pair in one left-to-right pass (R265). -/
def mergePass (l r res : Nat) : List Nat → List Nat
  | a :: b :: rest => if a = l ∧ b = r then res :: mergePass l r res rest else a :: mergePass l r res (b :: rest)
  | x => x

/-- The BPE loop (R265); each pass shortens the sequence, so its length bounds the passes. -/
def bpeLoop (merges : List (Nat × Nat × Nat)) : Nat → List Nat → List Nat
  | 0, seq => seq
  | fuel + 1, seq =>
    match lowestMerge merges seq with
    | none => seq
    | some i =>
      match merges[i]? with
      | some (l, r, res) => bpeLoop merges fuel (mergePass l r res seq)
      | none => seq

/-- Byte-level BPE of a pre-token's bytes (R265). -/
def bpe (v : Vocab) (bytes : List Byte) : List Nat :=
  bpeLoop v.merges bytes.length (bytes.map (fun b => v.byteBase + b.toNat))

/-- The kind-0 token whose string equals some bytes. -/
def kind0Token (v : Vocab) (bytes : List Byte) : Option Nat := v.tokens.findIdx? (fun t => t.2 == 0 && t.1 == bytes)

/-- One position of the Viterbi lattice (R266): the best total and the tokens to boundary i, from the boundaries
before it (oldest first); among equal totals the smaller j wins. -/
def viterbiAt (v : Vocab) (chars : List (List Byte)) (best : List (Int × List Nat)) (i : Nat) :
    Int × List Nat :=
  let edges := (List.range i).filterMap (fun j =>
    let str := ((chars.drop j).take (i - j)).flatten
    let b := best.getD j (0, [])
    match kind0Token v str with
    | some t => some (b.1 + v.scores.getD t 0, b.2 ++ [t])
    | none => if j + 1 = i then some (b.1 + v.unkScore, b.2 ++ str.map (fun x => v.byteBase + x.toNat)) else none)
  match edges with
  | [] => (0, [])
  | e :: es => es.foldl (fun a x => if x.1 > a.1 then x else a) e

/-- Unigram tokens of a pre-token's characters (R266). -/
def unigram (v : Vocab) (cps : List Nat) : List Nat :=
  let chars := cps.map utf8Encode
  let best := (List.range cps.length).foldl
    (fun bs i => bs ++ [viterbiAt v chars bs (i + 1)]) [((0 : Int), ([] : List Nat))]
  (best.getLastD (0, [])).2

/-- The tokens of one pre-token. -/
def modelTokens (v : Vocab) (cps : List Nat) : List Nat :=
  if v.model = 1 then bpe v (cps.flatMap utf8Encode) else unigram v cps

/-- What happens in a text field, in order (R685): input bytes taken in, tokens emitted, and a failure. -/
inductive TextEvent where
  | input (n : Nat)
  | emit (ids : List Nat)
  | strictFail
  deriving DecidableEq, Repr

/-- META_SPACE and PREFIX_SPACE (R263). -/
def spaceForm (v : Vocab) (first : Bool) (cps : List Nat) : List Nat :=
  let metaSp := v.flags.testBit 1
  let cps := if metaSp then cps.map (fun c => if c = 0x20 then 0x2581 else c) else cps
  if v.flags.testBit 2 && first && !cps.isEmpty then (if metaSp then 0x2581 else 0x20) :: cps else cps

/-- How many bytes of a run have been taken in when its first k characters after normalisation stand: with NFC, those of the
fewest characters that give them. -/
def bytesTaken (v : Vocab) (run : List (Nat × List Byte)) (norm : List Nat) (k : Nat) : Nat :=
  let bytes (m : Nat) : Nat := ((run.take m).map (fun c => c.2.length)).sum
  if v.flags.testBit 0 then
    bytes (((List.range run.length).find? (fun m => (nfcRun ((run.take m).map (·.1))).1.take k == norm.take k)).getD run.length)
  else bytes k

/-- Pre-tokens with the input that each takes in: `pos` characters precede it, `got` bytes have been taken in. The space that
PREFIX_SPACE adds takes no input. -/
def preTokenEvents (v : Vocab) (run : List (Nat × List Byte)) (norm : List Nat) (added : Nat) :
    List (List Nat) → Nat → Nat → List TextEvent
  | [], _, got =>
    let rest := (run.map (fun c => c.2.length)).sum - got
    if rest = 0 then [] else [.input rest]
  | p :: ps, pos, got =>
    let upto := if ps.isEmpty then (run.map (fun c => c.2.length)).sum else max got (bytesTaken v run norm (pos + p.length - added))
    [.input (upto - got), .emit (modelTokens v p)] ++ preTokenEvents v run norm added ps (pos + p.length) upto

/-- The events of one run of characters between invalid bytes: each pre-token's input, then its tokens; and the
normalisation breaks counted. -/
def runEvents (v : Vocab) (first : Bool) (run : List (Nat × List Byte)) : List TextEvent × Nat :=
  if run.isEmpty then ([], 0)
  else
    let n := if v.flags.testBit 0 then nfcRun (run.map (·.1)) else (run.map (·.1), 0)
    let form := spaceForm v first n.1
    (preTokenEvents v run n.1 (form.length - n.1.length) (presplit v.presplit (v.flags.testBit 3) form) 0 0, n.2)

/-- The events of a field (R259-R267): runs of characters, invalid bytes as byte tokens of their own. Answers the
events, the invalid bytes and the normalisation breaks. -/
def fieldEvents (v : Vocab) (strict : Bool) : List TextItem → List (Nat × List Byte) → Bool →
    List TextEvent × Nat × Nat
  | [], run, first =>
    let r := runEvents v first run
    (r.1, 0, r.2)
  | .char cp bs :: rest, run, first => fieldEvents v strict rest (run ++ [(cp, bs)]) first
  | .bad b :: rest, run, first =>
    let r := runEvents v first run
    if strict then (r.1 ++ [.strictFail], 1, r.2)
    else
      let t := fieldEvents v strict rest [] (first && run.isEmpty)
      (r.1 ++ [.input 1, .emit [v.byteBase + b.toNat]] ++ t.1, t.2.1 + 1, r.2 + t.2.2)

/-- Tokenises a field: its events in order, BOS first and EOS last where asked (R267). -/
def tokenise (v : Vocab) (spec : TextSpec) (bytes : List Byte) : List TextEvent × Nat × Nat :=
  let r := fieldEvents v spec.strict (scanField bytes) [] true
  let bos := if spec.addBos then [TextEvent.emit [v.bos]] else []
  let eos := if spec.addEos && !r.1.contains .strictFail then [TextEvent.emit [v.eos]] else []
  (bos ++ r.1 ++ eos, r.2)

/-- Where a slot's tokens go (R269): row, start, count placed, cut. -/
structure Placed where
  row : Nat
  start : Nat
  count : Nat
  cut : Bool
  deriving DecidableEq, Repr

/-- Packs token counts in slot order into rows of `t` tokens (R269). -/
def packRows (t rows : Nat) : List Nat → Nat → Nat → List Placed
  | [], _, _ => []
  | n :: ns, row, used =>
    let m := min n t
    let cut1 := decide (n > t)
    if m ≤ t - used then ⟨row, used, m, cut1⟩ :: packRows t rows ns row (used + m)
    else if row + 1 < rows then ⟨row + 1, 0, m, cut1⟩ :: packRows t rows ns (row + 1) m
    else ⟨row, used, t - used, true⟩ :: packRows t rows ns row t

/-- Does a stop string end at the end of these bytes? -/
def endsWith (text stop : List Byte) : Bool :=
  decide (stop.length ≤ text.length) && (text.drop (text.length - stop.length) == stop)

/-- The stop strings that end at a position of the text, the longest, the lowest index among equals (R275). -/
def stopAt (stops : List (List Byte)) (text : List Byte) (e : Nat) : Option (Nat × Nat) :=
  let here := (List.range stops.length).filter (fun i => endsWith (text.take e) (stops.getD i []))
  here.foldl (fun best i =>
    let n := (stops.getD i []).length
    match best with
    | none => some (n, i)
    | some (m, k) => if n > m then some (n, i) else some (m, k)) none

/-- The occurrence that ends earliest (R275): its end, its length and its table index. -/
def findStop (stops : List (List Byte)) (text : List Byte) : Option (Nat × Nat × Nat) :=
  ((List.range text.length).map (· + 1)).findSome?
    (fun e => (stopAt stops text e).map (fun r => (e, r.1, r.2)))

/-- The longest suffix of the text that is a proper prefix of some stop string (R276). -/
def heldSuffix (stops : List (List Byte)) (text : List Byte) : Nat :=
  let fits (n : Nat) : Bool :=
    stops.any (fun st => decide (n < st.length) && (st.take n == text.drop (text.length - n)))
  ((List.range (text.length + 1)).filter fits).foldl max 0

/-- The mask of a grammar state with the EOS bit set as R280 says. -/
def grammarMask (g : Grammar) (eos : Nat) (q : Nat) : List Byte :=
  match g.states[q]? with
  | none => []
  | some (m, acc, _) =>
    let bits := g.masks.getD m []
    if eos = 0xFFFFFFFF then bits
    else modAt bits (eos / 8) (fun b => setBit b (eos % 8) acc)

/-- What a token does to the grammar state (R280): the next state, or the status that ends the request. -/
def grammarStep (g : Grammar) (eos : Nat) (q t : Nat) : Except Status Nat :=
  let mask := grammarMask g eos q
  if !((mask.getD (t / 8) 0).getLsbD (t % 8)) then .error 0x0606
  else if t = eos then .ok q
  else match g.states[q]? with
    | none => .error 0x0607
    | some (_, _, tr) =>
      match tr.find? (fun x => x.1 == g.classes.getD t 0) with
      | some (_, n) => .ok n
      | none => .error 0x0607

/-- The bytes of a token (R274): a string, a byte, or nothing; U+2581 becomes a space with META_SPACE. -/
def tokenBytes (v : Vocab) (t : Nat) : List Byte :=
  match v.tokens[t]? with
  | none => []
  | some (str, kind) =>
    if kind = 2 then []
    else if kind = 1 then str
    else if v.flags.testBit 1 then
      (scanField str).flatMap (fun x => match x with
        | .char cp bs => if cp = 0x2581 then [0x20#8] else bs
        | .bad b => [b])
    else str

end Sys2Proof.Machine
end

