-- ==== Sys2Proof/Machine/Plates.lean ====
section
/-! DEFINITION. Plates: the container's checks, vocabulary and grammar images, LOAD_PLATE and UNLOAD_PLATE
(R251-R256, R278, R279, R334-R342). -/

namespace Sys2Proof.Machine

/-- Bytes that must be 0. -/
def zerosAt (b : List Byte) (off len : Nat) : Bool := (slice b off len).all (· == 0)

/-- Check 1 of R341: MAGIC, CONTAINER_VERSION, HEADER_CRC, LENGTH and reserved fields. -/
def plateHeadOk (b : List Byte) : Bool :=
  leField b 0 4 == 0x504C4154 && leField b 4 2 == 1 && leField b 0xFC 4 == crc32c (slice b 0 0xFC) &&
    leField b 0x20 8 == b.length && b.length % 256 == 0 && decide (b.length ≤ 2 ^ 32) &&
    decide (256 + 32 * leField b 0x12 2 + 128 ≤ b.length) && leField b 0x0F 1 == 0 &&
    leField b 0x14 4 % 2 ^ 32 / 8 == 0 && zerosAt b 0x38 (0xFC - 0x38)

/-- Check 2 of R341. -/
def State.plateTargetOk (s : State) (b : List Byte) : Bool :=
  let part := leField b 0x0D 2
  (part == 0 || part == s.fuses.part.toNat) && leField b 0x0C 1 == 0xA1 &&
    decide (leField b 0x10 2 ≤ ((List.range 48).filter s.regionActive).length)

/-- A trailer verifies under the installed owner key that a KEY_ID names (R339, R554). -/
def State.keyVerifies (s : State) (b : List Byte) (kid : Nat) : Bool :=
  match s.trustKept.keyPoint kid with
  | some q => trailerVerifies b kid q
  | none => false

/-- Check 3 of R341: KEY_ID names an installed owner key, the trailer is well formed, the signature verifies; Blank and Returned
accept no plate (R571). -/
def State.plateSigOk (s : State) (b : List Byte) : Bool := s.keyVerifies b (leField b 0x28 8)

/-- A section-table entry as read (R335). -/
structure SectEntry where
  type : Nat
  subtype : Nat
  flags : Nat
  count : Nat
  off : Nat
  len : Nat
  vaddr : Nat
  deriving DecidableEq, Repr

def sectEntry (b : List Byte) (i : Nat) : SectEntry :=
  let o := 0x100 + 32 * i
  { type := leField b o 1, subtype := leField b (o + 1) 1, flags := leField b (o + 2) 2, count := leField b (o + 4) 4,
    off := leField b (o + 8) 8, len := leField b (o + 0x10) 8, vaddr := leField b (o + 0x18) 8 }

def sectEntries (b : List Byte) : List SectEntry := (List.range (leField b 0x12 2)).map (sectEntry b)

/-- Bytes of an entry of a section of entries. -/
def entryBytes (type : Nat) : Nat := match type with | 4 => 96 | 5 => 32 | 6 => 8 | _ => 0

/-- One entry under R335. CODE is mapped, read-only. -/
def sectOk (total n kind : Nat) (e : SectEntry) : Bool :=
  let image := e.type == 2 && e.subtype != 0
  decide (1 ≤ e.type ∧ e.type ≤ 6) && decide (e.subtype ≤ (if e.type = 2 then 2 else 0)) && decide (e.flags ≤ 1) &&
    (if e.type ≥ 4 then e.len == e.count * entryBytes e.type else e.count == 0) &&
    e.off % 256 == 0 && decide (256 + 32 * n ≤ e.off) && decide (e.off + e.len + 128 ≤ total) &&
    (e.vaddr == 0 || (e.vaddr % 65536 == 0 && decide (argPage ≤ e.vaddr ∧ e.vaddr + e.len ≤ hostWindow))) &&
    (if image || decide (e.type ≥ 4) then e.vaddr == 0 && e.flags == 0 else true) &&
    (e.type != 1 || (e.vaddr != 0 && e.flags == 0)) &&
    (kind == 1 || e.type == 6 || e.type == 2)

/-- Ranges as (start, length) that do not overlap. -/
def disjoint : List (Nat × Nat) → Bool
  | [] => true
  | x :: xs => xs.all (fun y => decide (x.1 + x.2 ≤ y.1) || decide (y.1 + y.2 ≤ x.1)) && disjoint xs

def weightRef (d : List Byte) (i : Nat) : WeightRef :=
  let o := 96 * i
  { vaddr := leField d o 8, lba := leField d (o + 8) 8, length := leField d (o + 0x10) 8,
    nsid := leField d (o + 0x18) 4, tier := leField d (o + 0x1C) 1,
    hash := slice d (o + 0x20) 48 }

/-- A WEIGHT_REFS entry under R336. -/
def weightRefOk (d : List Byte) (i : Nat) : Bool :=
  let o := 96 * i
  let w := weightRef d i
  w.vaddr % 65536 == 0 && decide (argPage ≤ w.vaddr ∧ w.vaddr + w.length ≤ hostWindow) && (w.tier == 1 || w.tier == 2) &&
    zerosAt d (o + 0x1D) 3 && zerosAt d (o + 0x50) 16

def mapEntry (d : List Byte) (i : Nat) : MapEntry :=
  let o := 32 * i
  let f := leField d (o + 0x11) 1
  { vaddr := leField d o 8, length := leField d (o + 8) 8, tier := leField d (o + 0x10) 1, write := f.testBit 0,
    pinned := f.testBit 1, page2m := f.testBit 2, nsid := leField d (o + 0x14) 4, lba := leField d (o + 0x18) 8 }

/-- A MEMORY_MAP entry under R337. -/
def mapEntryOk (d : List Byte) (i : Nat) : Bool :=
  let o := 32 * i
  let m := mapEntry d i
  let page := if m.page2m then 2 ^ 21 else 65536
  m.vaddr % page == 0 && m.length % page == 0 && decide (argPage ≤ m.vaddr ∧ m.vaddr + m.length ≤ hostWindow) &&
    (m.tier == 1 || m.tier == 2 || m.tier == 4) && decide (leField d (o + 0x11) 1 < 8) && !(m.page2m && m.tier == 4) &&
    zerosAt d (o + 0x12) 2 && (if m.tier = 4 then m.lba % 16 == 0 else m.nsid == 0 && m.lba == 0)

/-- Power of two. -/
def isPow2 (n : Nat) : Bool := n != 0 && n == 2 ^ n.log2

/-- The entries of a section of one type, with their bytes. -/
def sectsOf (b : List Byte) (type : Nat) : List (List Byte × Nat) :=
  ((sectEntries b).filter (fun e => e.type == type)).map (fun e => (slice b e.off e.len, e.count))

/-- A graph a stream-graph plate may hold: CONVERT names a target of R222, and stage runs are listed plates (R338). -/
def convertTargets : List Nat := [1, 2, 3, 4, 5, 6, 0x10, 0x11, 0x12, 0x13, 0x14]

def graphPlateOk (g : Graph) (refs : List Nat) : Bool :=
  g.fields.all (fun f => f.ops.all (fun o => match o with
    | .convert fmt _ _ _ _ => convertTargets.contains fmt
    | _ => true)) &&
  g.stageRuns.all refs.contains && decide (bitOf g.gen.isSome + bitOf g.sieve.isSome ≤ g.stageRuns.length)

/-- Check 4 of R341. -/
def plateTableOk (b : List Byte) : Bool :=
  let kind := leField b 6 2
  let n := leField b 0x12 2
  let es := sectEntries b
  let fl := leField b 0x14 4
  let ranks := leField b 0x18 4
  let ws := (sectsOf b 4).flatMap (fun d => (List.range d.2).map (weightRef d.1))
  let ms := (sectsOf b 5).flatMap (fun d => (List.range d.2).map (mapEntry d.1))
  let round (l : Nat) : Nat := (l + 65535) / 65536 * 65536
  let spans := (argPage, 65536) :: ((es.filter (fun e => e.vaddr != 0)).map (fun e => (e.vaddr, round e.len))) ++
    ws.map (fun w => (w.vaddr, round w.length)) ++ ms.map (fun m => (m.vaddr, m.length))
  let refs := (sectsOf b 6).flatMap (fun d => (List.range d.2).map (fun i => leField d.1 (8 * i) 8))
  (kind == 1 || kind == 2) && decide (1 ≤ n ∧ n ≤ 64) && es.all (sectOk b.length n kind) &&
    disjoint (es.map (fun e => (e.off, e.len))) &&
    (sectsOf b 4).all (fun d => (List.range d.2).all (weightRefOk d.1)) &&
    (sectsOf b 5).all (fun d => (List.range d.2).all (mapEntryOk d.1)) && disjoint spans &&
    (if kind = 1 then (es.filter (fun e => e.type == 1)).length == 1 && decide (1 ≤ leField b 0x10 2 ∧ leField b 0x10 2 ≤ 48)
     else leField b 0x10 2 == 0 && (match Config.graphOf b with | some g => graphPlateOk g refs | none => false)) &&
    (if fl.testBit 0 then isPow2 ranks && decide (ranks ≤ 65536) else ranks == 0) &&
    (fl.testBit 1 || leField b 0x1C 4 == 0)

/-- A sample text is well-formed UTF-8. -/
def utf8Ok (b : List Byte) : Bool := (scanField b).all (fun i => match i with | .char _ _ => true | .bad _ => false)

/-- The strings and kinds of a vocabulary image. -/
def vocabTokens (d : List Byte) : List (List Byte × Nat) :=
  (List.range (leField d 8 4)).map (fun t =>
    let e := leField d 0x28 8 + 8 * t
    (slice d (leField d 0x30 8 + leField d e 4) (leField d (e + 4) 2), leField d (e + 6) 1))

def vocabMerges (d : List Byte) : List (Nat × Nat × Nat) :=
  (List.range (leField d 0xC 4)).map (fun i =>
    let o := leField d 0x38 8 + 12 * i
    (leField d o 4, leField d (o + 4) 4, leField d (o + 8) 4))

/-- A signed 32-bit field. -/
def sField (d : List Byte) (off : Nat) : Int :=
  let x := leField d off 4
  if x < 2 ^ 31 then x else (x : Int) - 2 ^ 32

/-- The header and layout of a vocabulary image (R251, R255). -/
def vocabHeadOk (d : List Byte) : Bool :=
  let model := leField d 6 1
  let v := leField d 8 4
  let m := leField d 0xC 4
  let len := leField d 0x48 8
  let tok (x : Nat) : Bool := decide (x < v)
  leField d 0 4 == 0x564F4342 && leField d 4 2 == 1 && leField d 0x7C 4 == crc32c (slice d 0 0x7C) &&
    decide (128 ≤ len ∧ len ≤ d.length) && leField d 0x78 4 == crc32c (slice d 0x80 (len - 0x80)) &&
    (model == 1 || model == 2) && decide (leField d 7 1 ≤ 2) && decide (257 ≤ v ∧ v ≤ 262144) &&
    (if model = 1 then decide (m ≤ v - 256) else m == 0) && decide (leField d 0x10 4 + 256 ≤ v) &&
    (leField d 0x14 4 == 0xFFFFFFFF || tok (leField d 0x14 4)) && (leField d 0x18 4 == 0xFFFFFFFF || tok (leField d 0x18 4)) &&
    tok (leField d 0x1C 4) && decide (leField d 0x20 4 < 16) && (model == 2 || leField d 0x24 4 == 0) &&
    (model == 1 || leField d 0x38 8 == 0) && (model == 2 || leField d 0x40 8 == 0) && zerosAt d 0x50 0x28 &&
    decide (leField d 0x28 8 + 8 * v ≤ len) && decide (leField d 0x38 8 + 12 * m ≤ len) &&
    (model == 1 || decide (leField d 0x40 8 + 4 * v ≤ len))

/-- The tables of a vocabulary image (R252, R253, R255). -/
def vocabTablesOk (d : List Byte) : Bool :=
  let len := leField d 0x48 8
  let v := leField d 8 4
  let bb := leField d 0x10 4
  let toks := vocabTokens d
  let ms := vocabMerges d
  let kind (t : Nat) : Nat := (toks.getD t ([], 3)).2
  let str (t : Nat) : List Byte := (toks.getD t ([], 3)).1
  let entryOk (t : Nat) : Bool :=
    let e := leField d 0x28 8 + 8 * t
    let l := leField d (e + 4) 2
    decide (kind t ≤ 2) && decide (l ≤ 256) && (kind t == 2 || decide (1 ≤ l)) && leField d (e + 7) 1 == 0 &&
      decide (leField d 0x30 8 + leField d e 4 + l ≤ len) &&
      ((kind t == 1) == decide (bb ≤ t ∧ t < bb + 256)) && (kind t != 1 || str t == [BitVec.ofNat 8 (t - bb)])
  let special (x : Nat) : Bool := x == 0xFFFFFFFF || kind x == 2
  let normal := (List.range v).filter (fun t => kind t == 0)
  let merged := ms.map (·.2.2)
  (List.range v).all entryOk && special (leField d 0x14 4) && special (leField d 0x18 4) && special (leField d 0x1C 4) &&
    ms.all (fun m => decide (kind m.1 ≤ 1) && decide (kind m.2.1 ≤ 1) && kind m.2.2 == 0 &&
      str m.2.2 == str m.1 ++ str m.2.1) &&
    (ms.map (fun m => (m.1, m.2.1))).eraseDups.length == ms.length &&
    (normal.map str).eraseDups.length == normal.length &&
    normal.all (fun t => utf8Ok (str t) || (leField d 6 1 == 1 && merged.contains t))

/-- KiB that a vocabulary takes with its lookup structures, at the most of R256. -/
def vocabKib (d : List Byte) : Nat := (leField d 0x48 8 + 48 * (leField d 8 4 + leField d 0xC 4) + 1023) / 1024

/-- The vocabulary an image describes. -/
def vocabOf (d : List Byte) (slot digest plate : Nat) : Vocab :=
  { slot := slot, digest := digest, plate := plate, model := leField d 6 1, presplit := leField d 7 1,
    byteBase := leField d 0x10 4, bos := leField d 0x14 4, eos := leField d 0x18 4, pad := leField d 0x1C 4,
    flags := leField d 0x20 4, unkScore := sField d 0x24, tokens := vocabTokens d, merges := vocabMerges d,
    scores := if leField d 6 1 = 2 then (List.range (leField d 8 4)).map (fun t => sField d (leField d 0x40 8 + 4 * t))
      else [],
    kib := vocabKib d }

/-- Bytes of one grammar mask (R278). -/
def maskBytes (v : Nat) : Nat := ((v + 7) / 8 + 63) / 64 * 64

/-- The grammar an image describes, for a vocabulary of v tokens. -/
def grammarOf (d : List Byte) (v digest plate : Nat) : Grammar :=
  let states := leField d 0x10 4
  let trans := leField d 0x1C 4
  let oS := 0x40 + 2 * v
  let oT := oS + 16 * states
  let oM := oT + 8 * trans
  let st (q : Nat) : Nat × Bool × List (Nat × Nat) :=
    let o := oS + 16 * q
    (leField d o 2, (leField d (o + 2) 2).testBit 0, (List.range (leField d (o + 8) 4)).map (fun i =>
      let t := oT + 8 * (leField d (o + 4) 4 + i)
      (leField d t 2, leField d (t + 4) 4)))
  { digest := digest, plate := plate, vocabDigest := leField d 8 8,
    classes := (List.range v).map (fun t => leField d (0x40 + 2 * t) 2),
    states := (List.range states).map st,
    masks := (List.range (leField d 0x18 4)).map (fun i => slice d (oM + i * maskBytes v) (maskBytes v)),
    bytes := leField d 0x20 8 }

/-- Strictly rising numbers. -/
def rising : List Nat → Bool
  | x :: y :: rest => decide (x < y) && rising (y :: rest)
  | _ => true

/-- The checks of R279 on a grammar image for a vocabulary of v tokens. -/
def grammarOk (d : List Byte) (v : Nat) : Bool :=
  let states := leField d 0x10 4
  let classes := leField d 0x14 4
  let masks := leField d 0x18 4
  let trans := leField d 0x1C 4
  let len := leField d 0x20 8
  let g := grammarOf d v 0 0
  let oS := 0x40 + 2 * v
  leField d 0 4 == 0x47524D52 && leField d 4 2 == 1 && leField d 6 2 == 0 && zerosAt d 0x28 0x10 &&
    leField d 0x3C 4 == crc32c (slice d 0 0x3C) && decide (0x40 ≤ len ∧ len ≤ d.length) &&
    leField d 0x38 4 == crc32c (slice d 0x40 (len - 0x40)) &&
    decide (1 ≤ states ∧ states ≤ 1048576 ∧ 1 ≤ classes ∧ classes ≤ 65536 ∧ 1 ≤ masks ∧ masks ≤ 4096) &&
    decide (oS + 16 * states + 8 * trans + masks * maskBytes v ≤ len) &&
    g.classes.all (fun c => decide (c < classes)) &&
    (List.range states).all (fun q =>
      let o := oS + 16 * q
      decide (leField d o 2 < masks) && decide (leField d (o + 2) 2 ≤ 1) && leField d (o + 12) 4 == 0 &&
        decide (leField d (o + 4) 4 + leField d (o + 8) 4 ≤ trans)) &&
    g.states.all (fun st => rising (st.2.2.map (·.1)) && st.2.2.all (fun t => decide (t.1 < classes) && decide (t.2 < states))) &&
    (List.range trans).all (fun i => leField d (oS + 16 * states + 8 * i + 2) 2 == 0)

/-- The image sections of a plate: subtype, bytes and section digest. -/
def imageSects (b : List Byte) : List (Nat × List Byte × Nat) :=
  let es := sectEntries b
  ((List.range es.length).filter (fun i => match es[i]? with
    | some e => e.type == 2 && e.subtype != 0
    | none => false)).map (fun i =>
      let e := sectEntry b i
      let d := slice b e.off e.len
      (e.subtype, d, digest8 d))

/-- Check 5 of R341 over the image sections in order: the text state with the images resident, or the refusal. -/
def Text.addImages (plate : Nat) : List (Nat × List Byte × Nat) → Text → Except Status Text
  | [], t => .ok t
  | (sub, d, dig) :: rest, t =>
    if sub = 1 then
      if !vocabHeadOk d || !vocabTablesOk d then .error 0x0601
      else if t.vocabs.length ≥ 16 ∨ (t.vocabs.foldl (fun a v => a + v.kib) 0) + vocabKib d > 2 ^ 20 then .error 0x0602
      else
        let slot := ((List.range 16).find? (fun i => !t.vocabs.any (fun v => v.slot == i))).getD 0
        { t with vocabs := t.vocabs ++ [vocabOf d slot dig plate] }.addImages plate rest
    else
      match t.vocabs.find? (fun v => v.digest == leField d 8 8) with
      | none => .error 0x0603
      | some v =>
        if !grammarOk d v.tokens.length then .error 0x0603
        else if t.grammars.length ≥ 64 ∨ (t.grammars.foldl (fun a g => a + g.bytes) 0) + leField d 0x20 8 > 2 ^ 32 then
          .error 0x060B
        else { t with grammars := t.grammars ++ [grammarOf d v.tokens.length dig plate] }.addImages plate rest

/-- A graph's text fields find BOS and EOS in their vocabularies (R267); a vocabulary that is not resident is a
matter of Stream Open (R70). -/
def Text.graphOk (t : Text) (g : Graph) : Bool :=
  g.fields.all (fun f => match f.text with
    | none => true
    | some x => match t.vocabs.find? (fun v => v.digest == x.vocab) with
      | none => true
      | some v => !(x.addBos && v.bos == 0xFFFFFFFF) && !(x.addEos && v.eos == 0xFFFFFFFF))

/-- A plate's digest (R340). -/
def plateDigest (b : List Byte) : Nat := digest8 (signedPart b)

/-- The resident form of a plate. -/
def plateOf (b : List Byte) : Plate :=
  let fl := leField b 0x14 4
  { digest := plateDigest b, kind := leField b 6 2, regions := leField b 0x10 2, slowFire := fl.testBit 0,
    sieve := fl.testBit 1, generation := fl.testBit 2, ranks := leField b 0x18 4, sieveCost := leField b 0x1C 4,
    length := b.length, stackMin := leField b 0x30 4, bulkMin := leField b 0x34 4,
    sections := (sectEntries b).map (fun e =>
      { kind := e.type, subtype := e.subtype, write := e.flags.testBit 0, vaddr := e.vaddr,
        data := slice b e.off e.len }),
    weights := (sectsOf b 4).flatMap (fun d => (List.range d.2).map (weightRef d.1)),
    maps := (sectsOf b 5).flatMap (fun d => (List.range d.2).map (mapEntry d.1)),
    refs := (sectsOf b 6).flatMap (fun d => (List.range d.2).map (fun i => leField d.1 (8 * i) 8)),
    graph := if leField b 6 2 = 2 then Config.graphOf b else none }

def State.plateAt (s : State) (digest : Nat) : Option Plate := s.mgr.plates.find? (fun p => p.digest == digest)

/-- LOAD_PLATE (R341): the first failing check decides the status, 0 when the plate is accepted. -/
def State.loadPlateCheck (s : State) (b : List Byte) : Status × State :=
  if !plateHeadOk b then (0x0901, s)
  else if !s.plateTargetOk b then (0x0902, s)
  else if !s.plateSigOk b then (0x0903, s)
  else if !plateTableOk b then (0x0901, s)
  else if (s.plateAt (plateDigest b)).isSome then (0, s)
  else
    let p := plateOf b
    match s.text.addImages p.digest (imageSects b) with
    | .error st => (st, s)
    | .ok t =>
      if !(match p.graph with | some g => t.graphOk g | none => true) then (0x0601, s)
      else if !p.refs.all (fun d => (s.plateAt d).isSome) then (0x0905, s)
      else if s.mgr.plates.length ≥ 256 ∨ (s.mgr.plates.foldl (fun a x => a + x.length) 0) + p.length > 2 ^ 35 then (0x0904, s)
      else (0, { s with text := t, mgr := { s.mgr with plates := s.mgr.plates ++ [p] } })

/-- A plate in a namespace is read like any other data of it: the status of a read that is refused or fails, or the bytes; the
header gives the length (R336, R481, R596). -/
def State.plateBytes (s : State) : PlateSource → Status × List Byte
  | .data b => (0, b)
  | .media nsid lba =>
    match s.mediaGate, s.nsInfo nsid with
    | some st, _ => (st, [])
    | none, none => (0x0302, [])
    | none, some n =>
      if lba ≥ n.cap * 4 then (0x0301, [])
      else if !s.nsReadable nsid (lba * 4096) 256 then (0x0201, [])
      else
        let head := s.nsBytes nsid (lba * 4096) 256
        let len := if leField head 0 4 = 0x504C4154 then min (leField head 0x20 8) (2 ^ 32) else 256
        if lba + (len + 4095) / 4096 > n.cap * 4 then (0x0301, [])
        else if !s.nsReadable nsid (lba * 4096) len then (0x0201, [])
        else (0, s.nsBytes nsid (lba * 4096) len)

def State.loadPlate (s : State) (p : ReqPath) (src : PlateSource) : State :=
  let d := s.plateBytes src
  if d.1 ≠ 0 then s.reply p d.1
  else
    let r := s.loadPlateCheck d.2
    r.2.reply p r.1

def execLoadPlate (p : ReqPath) (src : PlateSource) (s : State) : Host.Outcome State Fault Refusal :=
  .next (s.loadPlate p src)

/-- Something uses a resident plate (R342). -/
def State.plateInUse (s : State) (digest : Nat) : Bool :=
  s.mgr.runs.any (fun r => r.plate == digest && r.state != .free) ||
    s.mgr.plates.any (fun p => p.refs.contains digest) ||
    s.streamEng.ctxs.any (fun c => c.2.params.graph == digest ||
      (s.text.vocabs.any (fun v => v.plate == digest &&
        c.2.graph.fields.any (fun f => match f.text with | some x => x.vocab == v.digest | none => false)))) ||
    s.text.gens.any (fun g =>
      s.text.vocabs.any (fun v => v.slot == g.vocab && v.plate == digest) ||
      s.text.grammars.any (fun x => x.digest == g.grammar && x.plate == digest))

/-- UNLOAD_PLATE (R342). -/
def State.unloadPlate (s : State) (p : ReqPath) (digest : Nat) : State :=
  if (s.plateAt digest).isNone then s.reply p 0x0905
  else if s.plateInUse digest then s.reply p 0x0906
  else
    { s with
      mgr := { s.mgr with plates := s.mgr.plates.filter (fun x => x.digest != digest) },
      text := { s.text with vocabs := s.text.vocabs.filter (fun v => v.plate != digest),
                            grammars := s.text.grammars.filter (fun g => g.plate != digest) } }.reply p 0

def execUnloadPlate (p : ReqPath) (digest : Nat) (s : State) : Host.Outcome State Fault Refusal :=
  .next (s.unloadPlate p digest)

end Sys2Proof.Machine
end

