-- ==== Sys2Proof/Machine/Sync.lean ====
section
/-! DEFINITION. The commands on sync counters (R370-R387). -/

namespace Sys2Proof.Machine

/-- The SIGNALLER code of an issuer (R386), and the logical tile a fault names (0xFFFF outside the run). -/
def Run.signaller (r : Run) : SyncIssuer → Nat
  | .core t => sigTile ((r.physTile t).getD 0)
  | .dma t => sigDma ((r.physTile t).getD 0)
  | .engine e => sigEngine (2 * r.regions.getD (e / 2) 0 + e % 2)
  | .lane l => sigLane l
  | .stream c => sigStream c

def issuerTile : SyncIssuer → Nat
  | .core t => t
  | .dma t => t
  | _ => 0xFFFF

/-- An issuer that a run has: its tiles and engines, or a lane. -/
def Run.hasIssuer (r : Run) : SyncIssuer → Bool
  | .core t => (r.physTile t).isSome
  | .dma t => (r.physTile t).isSome
  | .engine e => decide (e < 2 * r.regions.length)
  | .lane l => decide (l < 64)
  | .stream c => decide (c < 512)

/-- The issuer exists, and a tile's sync port takes new operations: it is not being reset (R603). -/
def State.issuerReady (s : State) (r : Run) (i : SyncIssuer) : Bool :=
  r.hasIssuer i && (match i with
    | .core t => !s.tileUnitHeld ((r.physTile t).getD 0) 4
    | .dma t => !s.tileUnitHeld ((r.physTile t).getD 0) 4
    | _ => true)

/-- A BAD_COUNTER fault of a run (R373, R375, R383): the counter, if the number names one, is unchanged. -/
def State.badCounter (s : State) (r : Run) (by_ : SyncIssuer) (logical : Nat) : State :=
  let p := s.runCounter r logical
  let c := (p.map s.ctr).getD {}
  let s := s.trace 4 1 (r.signaller by_) r.slot 0 0x0B03 (p.getD 0 % 65536 + c.seq * 65536)
  (s.log 0x0B03 synBase (p.getD 0) c.signaller 0 logical).endRun r.slot 0x0B03 logical (issuerTile by_) 0 true

/-- The run of a slot when its cores run. -/
def State.running (s : State) (slot : Nat) : Option Run :=
  match s.runAt slot with
  | some r => if r.state = RunState.running then some r else none
  | none => none

/-- Counts a sync operation that a tile issued (R389). -/
def State.syncIssued (s : State) (r : Run) : SyncIssuer → State
  | .core t => s.tileEvent r t 0xD 1
  | _ => s

/-- SYNC_ADD (R375): raises the counter by n, from 1 to 65,535. -/
def State.syncAdd (s : State) (c : CtrName) (by_ : SyncIssuer) (n : Nat) : State :=
  if n = 0 ∨ n > 65535 then s
  else match c with
    | .run slot k =>
      match s.running slot with
      | none => s
      | some r =>
        if !s.issuerReady r by_ then s
        else
          let s := s.syncIssued r by_
          match s.runCounter r k with
          | none => s.badCounter r by_ k
          | some p => (s.counterAdd p n (r.signaller by_) 0 (issuerTile by_)).2
    | .stream ctx b =>
      match by_, s.resolve (.stream ctx b) with
      | .stream c', some p => if c' = ctx then (s.counterAdd p n (sigStream ctx) 0 0xFFFF).2 else s
      | _, _ => s

def execSyncAdd (c : CtrName) (issuer : SyncIssuer) (n : Nat) (s : State) : Host.Outcome State Fault Refusal :=
  .next (s.syncAdd c issuer n)

/-- SYNC_SUB (R375, R383): lowers the counter, or leaves 0 and raises SYNC_UNDERFLOW. -/
def State.syncSub (s : State) (slot tile k n : Nat) : State :=
  match s.running slot with
  | none => s
  | some r =>
    if n = 0 ∨ n > 65535 ∨ !s.issuerReady r (.core tile) then s
    else
      let s := s.syncIssued r (.core tile)
      match s.runCounter r k with
      | none => s.badCounter r (.core tile) k
      | some p =>
        let c := s.ctr p
        let who := r.signaller (.core tile)
        if c.barrier then s.badCounter r (.core tile) k
        else if c.value < n then
          let s := s.setCtr p (if c.value = 0 then c else c.step 0 who 0 s.now)
          s.syncFault (s.ownerOf p) p 0x0B02 tile k
        else s.setCtr p (c.step (c.value - n) who 0 s.now)

def execSyncSub (slot tile k n : Nat) (s : State) : Host.Outcome State Fault Refusal := .next (s.syncSub slot tile k n)

/-- Joins the waiters of a counter. -/
def State.addWaiter (s : State) (p : Nat) (w : Waiter) : State :=
  let c := s.ctr p
  s.setCtr p { c with waiters := c.waiters ++ [w] }

/-- SYNC_WAIT_GE (R375): a core or a lane waits until the value is at least v. -/
def State.syncWaitGe (s : State) (slot : Nat) (by_ : SyncIssuer) (k v : Nat) : State :=
  match s.running slot with
  | none => s
  | some r =>
    let may := match by_ with | .core _ => true | .lane _ => true | _ => false
    if !may || !s.issuerReady r by_ then s
    else
      let s := s.syncIssued r by_
      match s.runCounter r k with
      | none => s.badCounter r by_ k
      | some p =>
        if (s.ctr p).barrier then s.badCounter r by_ k
        else if (s.ctr p).value ≥ v then s
        else s.addWaiter p { who := r.signaller by_, tile := (issuerTile by_), what := .ge v }

def execSyncWaitGe (slot : Nat) (issuer : SyncIssuer) (k v : Nat) (s : State) : Host.Outcome State Fault Refusal :=
  .next (s.syncWaitGe slot issuer k v)

/-- SYNC_WAIT_SUB (R375): waits until the value is at least n, then subtracts n in the same step. -/
def State.syncWaitSub (s : State) (slot tile k n : Nat) : State :=
  match s.running slot with
  | none => s
  | some r =>
    if n = 0 ∨ n > 65535 ∨ !s.issuerReady r (.core tile) then s
    else
      let s := s.syncIssued r (.core tile)
      match s.runCounter r k with
      | none => s.badCounter r (.core tile) k
      | some p =>
        let c := s.ctr p
        if c.barrier then s.badCounter r (.core tile) k
        else if c.value ≥ n then s.setCtr p (c.step (c.value - n) (r.signaller (.core tile)) 0 s.now)
        else s.addWaiter p { who := r.signaller (.core tile), tile := tile, what := .sub n }

def execSyncWaitSub (slot tile k n : Nat) (s : State) : Host.Outcome State Fault Refusal :=
  .next (s.syncWaitSub slot tile k n)

/-- SYNC_ARRIVE (R375, R379): adds 1 to a barrier and waits for its release. A reissued arrival carries the generation
its sync-port state recorded: it is released at once when that has passed, and otherwise only waits again. -/
def State.syncArrive (s : State) (slot tile k : Nat) (reissued : Option Nat) : State :=
  match s.running slot with
  | none => s
  | some r =>
    if !s.issuerReady r (.core tile) then s
    else
      let s := s.syncIssued r (.core tile)
      match s.runCounter r k with
      | none => s.badCounter r (.core tile) k
      | some p =>
        let c := s.ctr p
        let who := r.signaller (.core tile)
        if !c.barrier then s.badCounter r (.core tile) k
        else match reissued with
          | some g =>
            if seqEarlier 16 g c.bgen then s
            else s.addWaiter p { who := who, tile := tile, what := .release c.bgen }
          | none =>
            let s := s.addWaiter p { who := who, tile := tile, what := .release c.bgen }
            (s.counterAdd p 1 who 0 tile).2

def execSyncArrive (slot tile k : Nat) (reissued : Option Nat) (s : State) : Host.Outcome State Fault Refusal :=
  .next (s.syncArrive slot tile k reissued)

/-- SYNC_READ (R375): returns the value and, for a barrier, its generation, to the code. -/
def State.syncRead (s : State) (slot tile k : Nat) : State :=
  match s.running slot with
  | none => s
  | some r =>
    if !s.issuerReady r (.core tile) then s
    else
      let s := s.syncIssued r (.core tile)
      match s.runCounter r k with
      | none => s.badCounter r (.core tile) k
      | some p =>
        let c := s.ctr p
        s.reply (.run slot) 0 0 (if c.barrier then [c.value, c.bgen] else [c.value])

def execSyncRead (slot tile k : Nat) (s : State) : Host.Outcome State Fault Refusal := .next (s.syncRead slot tile k)

/-- A shared counter that is free. -/
def State.ctrFree (s : State) (p : Nat) : Bool := decide (49152 ≤ p ∧ p ≤ 65535) && (s.ctr p).owner.isNone

/-- Shared counters allocated. -/
def State.ctrsUsed (s : State) : Nat := (s.sync.ctrs.filter (fun x => decide (x.1 ≥ 49152) && x.2.owner.isSome)).length

/-- Binds a free shared counter (R372): value 0, NORMAL mode, its generation raised. -/
def State.bindCounter (s : State) (p : Nat) (o : CounterOwner) (remote : Bool) : State :=
  s.setCtr p { gen := ((s.ctr p).gen + 1) % 256, remote := remote, owner := some o, changedAt := s.now }

/-- The run whose core, or the context for which the stream engine, binds a counter (R372, R375). -/
def State.allocOk (s : State) (tile : Nat) : CtrName → Bool
  | .run slot _ => match s.running slot with
    | some r => s.issuerReady r (.core tile)
    | none => false
  | .stream ctx _ => (s.ctxOf ctx).isSome

/-- A sync operation of a name's tile is counted (R389). -/
def State.nameIssued (s : State) (tile : Nat) : CtrName → State
  | .run slot _ => match s.running slot with
    | some r => s.syncIssued r (.core tile)
    | none => s
  | .stream _ _ => s

/-- The binding that a name gives (R372), as the owner of its counter, and as the name that resolves to it. -/
def bindingOf : CtrName → CounterOwner × CtrName × Nat
  | .run slot b => (.run slot b, .run slot (0xC000 + b), b)
  | .stream ctx b => (.stream ctx b, .stream ctx b, b)

/-- Where the answer to an allocation goes: to the code of a run; the stream engine has it at once. -/
def State.allocReply (s : State) (c : CtrName) (st : Status) (vals : List Nat) : State :=
  match c with
  | .run slot _ => s.reply (.run slot) st 0 vals
  | .stream _ _ => s

/-- SYNC_ALLOC (R372, R375, R399): binds the free shared counter that the device picks to binding b of the name's owner and
returns its remote handle, or NO_SYNC when none is free or b is bound. -/
def State.syncAlloc (s : State) (c : CtrName) (tile : Nat) (remote : Bool) (pick : Nat) : State :=
  if (bindingOf c).2.2 > 255 ∨ !s.allocOk tile c then s
  else if (s.resolve (bindingOf c).2.1).isSome || decide (s.ctrsUsed ≥ 16384) then
    (s.nameIssued tile c).allocReply c 0x0B04 []
  else if !s.ctrFree pick then s
  else
    let s := (s.nameIssued tile c).bindCounter pick (bindingOf c).1 remote
    s.allocReply c 0 [s.deviceId, pick, (s.ctr pick).gen]

def execSyncAlloc (c : CtrName) (tile : Nat) (remote : Bool) (pick : Nat) (s : State) : Host.Outcome State Fault Refusal :=
  .next (s.syncAlloc c tile remote pick)

/-- SYNC_FREE (R375): unbinds b and frees its counter; refused while it has a waiter or a generation context names it. -/
def State.syncFree (s : State) (slot tile b : Nat) : State :=
  match s.running slot with
  | none => s
  | some r =>
    if !s.issuerReady r (.core tile) then s
    else
      let s := s.syncIssued r (.core tile)
      match s.runCounter r (0xC000 + b) with
      | none => s.badCounter r (.core tile) (0xC000 + b)
      | some p =>
        let named := s.text.gens.any (fun g => g.owner == ReqPath.run slot && g.runCounter == 0xC000 + b)
        if !(s.ctr p).waiters.isEmpty || named then s.badCounter r (.core tile) (0xC000 + b)
        else s.freeCounter p

def execSyncFree (slot tile b : Nat) (s : State) : Host.Outcome State Fault Refusal := .next (s.syncFree slot tile b)

/-- Is a realignment pair's counter a shared counter of the same run (R375)? -/
def State.pairOk (s : State) (r : Run) (k : Nat) : Bool := decide (k ≥ 0xC000) && (s.runCounter r k).isSome

/-- SYNC_CONFIG (R375): sets a shared counter's mode, parties and realignment pairs. -/
def State.syncConfig (s : State) (slot tile k : Nat) (barrier : Bool) (parties : Nat) (pairs : List (Nat × Nat)) : State :=
  match s.running slot with
  | none => s
  | some r =>
    if parties = 0 ∨ parties > 65536 ∨ pairs.length > 8 ∨ !s.issuerReady r (.core tile) then s
    else
      let s := s.syncIssued r (.core tile)
      match s.runCounter r k with
      | none => s.badCounter r (.core tile) k
      | some p =>
        let c := s.ctr p
        if k < 0xC000 || !pairs.all (fun x => s.pairOk r x.1 && s.pairOk r x.2) || decide (c.value ≠ 0) ||
            !c.waiters.isEmpty then s.badCounter r (.core tile) k
        else
          let ph (x : Nat) : Nat := (s.runCounter r x).getD 0
          s.setCtr p { c with
            barrier := barrier, parties := if barrier then parties else 0,
            pairs := if barrier then pairs.map (fun x => (ph x.1, ph x.2)) else [] }

def execSyncConfig (slot tile k : Nat) (barrier : Bool) (parties : Nat) (pairs : List (Nat × Nat)) (s : State) :
    Host.Outcome State Fault Refusal := .next (s.syncConfig slot tile k barrier parties pairs)

/-- Writes m of a pair to TIL_SYNC_REALIGN of every tile of the owning run (R380). -/
def State.writeRealign (s : State) (o : Option CounterOwner) (i m : Nat) : State :=
  match o with
  | some (.run slot _) =>
    match s.runAt slot with
    | none => s
    | some r => (r.regions.flatMap (fun g => (List.range 32).map (g * 32 + ·))).foldl (fun s t =>
        let x := s.tile t
        s.setTile t { x with realign := modAt x.realign i (fun _ => m) }) s
  | _ => s

/-- Realigns pair i of a barrier (R380): m := min(P, C) is taken off both. -/
def State.realignPair (s : State) (o : Option CounterOwner) (i : Nat) (pc : Nat × Nat) : State :=
  let m := min (s.ctr pc.1).value (s.ctr pc.2).value
  let low (s : State) (n : Nat) : State :=
    let c := s.ctr n
    if m = 0 then s else s.setCtr n (c.step (c.value - m) 0x8000 0 s.now)
  (low (low s pc.1) pc.2).writeRealign o i m

def State.realignAll (s : State) (o : Option CounterOwner) (i : Nat) : List (Nat × Nat) → State
  | [] => s
  | p :: ps => (s.realignPair o i p).realignAll o (i + 1) ps

/-- BARRIER_RELEASE (R379, R380): the pairs are realigned, the value becomes 0, the generation rises, and every waiter
is released. -/
def State.barrierRelease (s : State) (p : Nat) : State :=
  if !s.sync.due.contains p then s
  else
    let c := s.ctr p
    let s := { s with sync := { s.sync with due := s.sync.due.filter (· != p) } }
    let s := s.realignAll c.owner 0 c.pairs
    let c := s.ctr p
    let g := (c.bgen + 1) % 65536
    let s := s.setCtr p { (c.step 0 0x8000 0 s.now) with
      bgen := g, waiters := c.waiters.filter (fun w => match w.what with | .release _ => false | _ => true) }
    s.trace 5 2 0x8000 (match c.owner with | some (.run slot _) => slot | _ => 0xFF) 0 g (p + c.pairs.length * 65536)

def execBarrierRelease (p : Nat) (s : State) : Host.Outcome State Fault Refusal := .next (s.barrierRelease p)

/-- SYN_DBG_SEL_WRITE (R385, R387, R400): latches the counter's state into the debug registers. -/
def State.synDbgSelWrite (s : State) (v : Word) : State :=
  let n := fld v 0 16
  let c := s.ctr n
  let o := s.ownerOf n
  let ow := match o with | some (.run slot _) => slot | some (.stream _ _) => 63 | none => 0
  let strm := match o with | some (.stream _ _) => true | _ => false
  let stalled := !c.waiters.isEmpty && decide ((s.now - c.changedAt) * s.power.tileMhz / 1000 ≥ 2 ^ 30)
  let w := packFields [(0, min c.waiters.length 65535), (16, bitOf c.barrier), (17, if c.barrier then c.pairs.length else 0),
    (21, bitOf c.remote), (22, bitOf o.isSome), (23, ow), (29, bitOf strm), (30, bitOf stalled)]
  let s := s.setReg (synBase + 0x10) (BitVec.ofNat 32 n)
  let s := s.setReg (synBase + 0x14) (BitVec.ofNat 32 c.value)
  let s := s.setReg (synBase + 0x18) w
  let s := s.setReg (synBase + 0x1C) (BitVec.ofNat 32 c.signaller)
  let s := s.setReg (synBase + 0x20) (BitVec.ofNat 32 c.seq)
  let s := s.setReg (synBase + 0x24) (packFields [(0, c.device), (24, c.gen)])
  s.setReg (synBase + 0x28) (packFields [(0, c.parties - 1), (16, c.bgen)])

def execSynDbgSelWrite (v : Word) (s : State) : Host.Outcome State Fault Refusal := .next (s.synDbgSelWrite v)

/-- The software signaller of a path (R386): 0 BAR0, 1 the sideband, 2 Gnoz management. -/
def busSig : BusPath → Nat
  | .sideband => 1
  | _ => 0

/-- SYN_SW_SIGNAL (R375, R384): a software ADD to a shared counter; to a free counter, or of 0, it is refused. -/
def State.synSwSignal (s : State) (p : BusPath) (v : Word) : State :=
  let n := fld v 0 16
  let a := fld v 16 16
  if a = 0 ∨ n < 49152 ∨ (s.ctr n).owner.isNone then s.log 0x0101 synBase 0x30 v.toNat
  else (s.counterAdd n a (sigSoftware (busSig p)) 0 0xFFFF).2

def execSynSwSignal (p : BusPath) (v : Word) (s : State) : Host.Outcome State Fault Refusal := .next (s.synSwSignal p v)

/-- The SYN registers that are computed (R400). -/
def viewSync (s : State) (off : Nat) : Option Word :=
  if off = synBase then some (packFields [(0, 1024), (16, 16384)])
  else if off = synBase + 4 then some (BitVec.ofNat 32 (16384 - s.ctrsUsed))
  else if off = synBase + 0x30 then some 0
  else none

def writeSync (s : State) (p : BusPath) (off : Nat) (v : Word) : Option State :=
  if off = synBase + 0x10 then some (s.synDbgSelWrite v)
  else if off = synBase + 0x30 then some (s.synSwSignal p v)
  else none

end Sys2Proof.Machine
end

