-- ==== Sys2Proof/Machine/Runs.lean ====
section
/-! DEFINITION. Runs: START's checks, placement, the scheduler, loading, ending, pre-emption and resume (R343-R366). -/

namespace Sys2Proof.Machine

/-- The lowest free run slot (R344 check 1). -/
def State.freeSlot (s : State) : Option Nat :=
  (List.range 64).find? (fun i => match s.runAt i with
    | some r => r.state == .free
    | none => true)

def maskRegions (m : Nat) : List Nat := (List.range 64).filter (fun r => m.testBit r)

/-- Fields of a run descriptor (R343). -/
def descMode (d : List Byte) : Nat := leField d 0x18 1
def descFlags (d : List Byte) : Nat := leField d 0x1A 2

/-- A PCIe link is up for a request's host window: the function's own link; other paths have none (R343, R602). -/
def State.hostLinkUp (s : State) : ReqPath → Bool
  | .yqi fn _ _ => if fn < 32 then s.yqi.link0.up else s.yqi.link1.up
  | _ => false

/-- Check 2 of R344 but for inactive regions. What needs the plate is asked only of a resident one. -/
def State.descOk (s : State) (p : ReqPath) (q : StartReq) : Bool :=
  let d := q.desc
  let mask := leField d 0x10 8
  let hl := leField d 0x50 8
  let count := leField d 0x3C 4
  d.length == 128 && decide (descMode d ≤ 1) && decide (leField d 0x19 1 ≤ 7) && decide (descFlags d < 4) &&
    decide (leField d 0x1C 2 ≤ 64) && leField d 0x1E 2 == 0 && decide (leField d 0x30 4 ≤ 65536) &&
    leField d 0x44 4 == 0 && zerosAt d 0x60 0x20 && leField d 0x48 8 % 65536 == 0 && hl % 65536 == 0 &&
    decide (hl ≤ 2 ^ 46) && (hl == 0 || s.hostLinkUp p) && decide (mask < 2 ^ 48) &&
    decide (1 ≤ count) && decide (leField d 0x40 4 < count) && (descMode d == 1 || count == 1) &&
    (match s.plateAt (leField d 0 8) with
     | some pl => (mask == 0 || (maskRegions mask).length == pl.regions) &&
        (descMode d == 0 || (pl.slowFire && pl.ranks % count == 0))
     | none => true)

/-- A table descriptor of R315. -/
def tableOf (t : List Byte) : EmbTable :=
  let f := leField t 0x1D 1
  { number := leField t 0 2, fmt := leField t 2 2, nsid := leField t 4 4, baseLba := leField t 8 8,
    rows := leField t 0x10 8, dim := leField t 0x18 2, stride := 64 * leField t 0x1A 2, optimiser := leField t 0x1C 1,
    srOnStore := f.testBit 0, indexSkip := f.testBit 1, sat := f.testBit 2, eps := leField t 0x20 4,
    hotMib := leField t 0x24 4, warmGib := leField t 0x28 4 }

/-- First and last byte + 1 of a table's range in its namespace. -/
def EmbTable.span (t : EmbTable) : Nat × Nat := (t.baseLba * 4096, t.rowAt (t.rows - 1) + t.stride)

/-- Check 4 of R344 for one table. -/
def State.tableOk (s : State) (b : List Byte) : Bool :=
  let t := tableOf b
  let bits := match elemKind t.fmt with | some k => k.bits | none => 0
  let scales := match elemKind t.fmt with | some k => if k.isMx then t.dim / 32 else 0 | none => 0
  let conflict (r : Run) : Bool := r.state != .free && r.tables.any (fun o => o.nsid == t.nsid &&
    (o.optimiser != 0 || t.optimiser != 0) && decide (o.span.1 < t.span.2) && decide (t.span.1 < o.span.2))
  b.length == 64 && decide (t.number ≤ 63) && (t.fmt == 0x10 || t.fmt == 0x12 || t.fmt == 0x20 || t.fmt == 0x21) &&
    decide (1 ≤ t.rows ∧ t.rows ≤ 2 ^ 40) && decide (32 ≤ t.dim ∧ t.dim ≤ 4096) && t.dim % 32 == 0 &&
    (decide (t.stride ≤ 4096) || t.stride % 4096 == 0) && decide (t.dim * bits / 8 + scales + 8 ≤ t.stride) &&
    decide (t.optimiser ≤ 2) && decide (leField b 0x1D 1 < 8) && leField b 0x1E 2 == 0 && zerosAt b 0x2C 0x14 &&
    (match s.nsSeen t.nsid with
     | some n => decide (t.span.2 ≤ n.cap * 16384) && (t.optimiser == 0 || !n.isSealed)
     | none => false) &&
    !s.mgr.runs.any conflict

/-- 64 KiB units of a length. -/
def units64 (l : Nat) : Nat := (l + 65535) / 65536

/-- A mapping that a run creates, before its tier is decided: sections, weight references, then memory-map entries
(R355). Sections lie in stack memory. -/
def Plate.wants (p : Plate) : List Mapping :=
  ((p.sections.filter (fun x => x.vaddr != 0)).map (fun x =>
    { vaddr := x.vaddr, length := x.data.length, tier := 1, write := x.write, exec := x.kind == 1, pinned := false,
      page2m := false, nsid := 0, lba := 0 })) ++
  (p.weights.map (fun w =>
    { vaddr := w.vaddr, length := w.length, tier := w.tier, write := false, exec := false, pinned := false,
      page2m := false, nsid := 0, lba := 0 })) ++
  (p.maps.map (fun m =>
    { vaddr := m.vaddr, length := m.length, tier := m.tier, write := m.write, exec := false, pinned := m.pinned,
      page2m := m.page2m, nsid := m.nsid, lba := m.lba }))

/-- Places mappings in order (R355), given the units left of each quota: the mappings with their tiers, the units used
of each tier, and the spills; none when a mapping does not fit. -/
def placeAll : List Mapping → Nat → Nat → Option (List Mapping × Nat × Nat × Nat)
  | [], _, _ => some ([], 0, 0, 0)
  | m :: ms, st, bu =>
    let u := units64 m.length
    if m.tier = 4 then
      (placeAll ms st bu).map (fun t => (m :: t.1, t.2.1, t.2.2.1, t.2.2.2))
    else if m.tier = 1 ∧ u ≤ st then
      (placeAll ms (st - u) bu).map (fun t => (m :: t.1, t.2.1 + u, t.2.2.1, t.2.2.2))
    else if m.tier = 1 ∧ m.pinned then none
    else if u ≤ bu then
      (placeAll ms st (bu - u)).map (fun t =>
        ({ m with tier := 2 } :: t.1, t.2.1, t.2.2.1 + u, t.2.2.2 + (if m.tier = 1 then 1 else 0)))
    else none

/-- 64 KiB units of the page-table reserve that the tables of a run take (R353). -/
def ptUnits (ms : List Mapping) : Nat :=
  let leafs := (ms.filter (fun m => !m.page2m)).flatMap (fun m =>
    (List.range ((m.vaddr + m.length + 2097151) / 2097152 - m.vaddr / 2097152)).map (m.vaddr / 2097152 + ·))
  let mids := ms.flatMap (fun m => (List.range ((m.vaddr + m.length + 2 ^ 34 - 1) / 2 ^ 34 - m.vaddr / 2 ^ 34)).map
    (m.vaddr / 2 ^ 34 + ·))
  2 + mids.eraseDups.length + (leafs.eraseDups.length * 256 + 65535) / 65536

def ptReserve : Nat := 16384

/-- Regions that a run can take now: those of its mask, or the lowest-numbered free ones (R345). -/
def State.pickRegions (s : State) (mask n : Nat) : Option (List Nat) :=
  let free := s.freeRegions
  if mask = 0 then (if n ≤ free.length then some (free.take n) else none)
  else if (maskRegions mask).all free.contains then some (maskRegions mask)
  else none

/-- The region count of a run's plate. -/
def State.runRegions (s : State) (r : Run) : Nat := ((s.plateAt r.plate).map (·.regions)).getD 1

/-- A run starts on its tiles: their event counters return to 0 (R388). -/
def State.clearEvents (s : State) (regs : List Nat) : State :=
  let tls := s.field.tiles.map (fun (x : Nat × TileState) =>
    if regs.contains (x.1 / 32) then (x.1, { x.2 with evtCnt := List.replicate 8 0 }) else x)
  { s with field := { s.field with tiles := tls.filter (fun (x : Nat × TileState) => x.2 != ({} : TileState)) } }

/-- Grants regions to a run (R345, R347): dozed ones begin to wake. -/
def State.grant (s : State) (slot : Nat) (regs : List Nat) (st : RunState) : State :=
  let wake := regs.filter (fun g => s.power.doze.getLsbD g)
  let s := s.updRun slot (fun r => { r with
    regions := regs, lastRegions := regs, started := s.mgr.nextOrder, resumeQueued := false })
  let s := { s with
    mgr := { s.mgr with nextOrder := s.mgr.nextOrder + 1 },
    power := { s.power with waking := wake.foldl (fun w g => setBit w g true) s.power.waking } }
  (s.clearEvents regs).runState slot st

/-- The waiting list in its order (R350). -/
def State.waitList (s : State) : List Run :=
  let w := s.mgr.runs.filter (fun r => r.state == .queued || (r.state == .saved && r.resumeQueued))
  (List.range 8).reverse.flatMap (fun p => (w.filter (fun r => r.priority == p)).mergeSort (fun a b => a.order ≤ b.order))

/-- Starts saving a run (R349, R364): its tiles stop. -/
def State.startPreempt (s : State) (slot : Nat) : State := s.runState slot .preempting

/-- Pre-emption for the head of the list (R350): RUNNING pre-emptible runs of lower priority, lowest priority first,
most recently started first, as many as the head needs beyond the regions already on their way; none when they
cannot free enough. A run saved by this rule returns to the list. -/
def State.schedulePreempt (s : State) : State :=
  match s.waitList with
  | [] => s
  | h :: _ =>
    let n := s.runRegions h
    let free := s.freeRegions ++ (s.mgr.runs.filter (fun r => r.state == .preempting || r.state == .ending)).flatMap (·.regions)
    let fits (l : List Nat) : Bool :=
      if h.regionMask = 0 then decide (n ≤ l.length) else (maskRegions h.regionMask).all l.contains
    let cands := (List.range 8).flatMap (fun p => (s.mgr.runs.filter (fun r =>
      r.state == .running && r.preemptible && r.priority == p && decide (r.priority < h.priority))).mergeSort
        (fun a b => b.started ≤ a.started))
    if fits free then s
    else
      let rec go : List Run → List Nat → List Nat → Option (List Nat)
        | cs, l, chosen =>
          match cs with
          | [] => if fits l then some chosen else none
          | c :: rest => if fits l then some chosen else go rest (l ++ c.regions) (chosen ++ [c.slot])
      match go cands free [] with
      | none => s
      | some chosen => chosen.foldl (fun s i => (s.updRun i (fun r => { r with resumeQueued := true })).startPreempt i) s

/-- The five checks of R344 that QUEUE does not lift, with the DETAIL of the fourth. -/
def State.startCheck (s : State) (p : ReqPath) (q : StartReq) : Status × Nat :=
  let d := q.desc
  let mask := leField d 0x10 8
  if s.fieldFenced || s.power.tripAt.isSome then (0x1002, 0)
  else if s.freeSlot.isNone then (0x0907, 0)
  else if !s.descOk p q then (0x0909, 0)
  else if !(maskRegions mask).all s.regionActive then (0x0103, 0)
  else match s.plateAt (leField d 0 8) with
    | none => (0x0905, 0)
    | some pl =>
      if pl.kind ≠ 1 then (0x0905, 0)
      else match q.tables.find? (fun t => !s.tableOk t) with
        | some t => (0x090A, leField t 0 2 + 1)
        | none =>
          let ts := q.tables.map tableOf
          let stack := if leField d 0x34 4 = 0 then pl.stackMin else leField d 0x34 4
          let bulk := if leField d 0x38 4 = 0 then pl.bulkMin else leField d 0x38 4
          let save := if (descFlags d).testBit 0 then 1 + 22 * pl.regions else 0
          let hot := (ts.foldl (fun a t => a + t.hotMib) 0) * 16
          let warm := (ts.foldl (fun a t => a + t.warmGib) 0) * 16384
          let fitsQ := decide (pl.stackMin ≤ stack ∧ pl.bulkMin ≤ bulk ∧ stack ≤ s.mgr.stackFree ∧
            bulk + save ≤ s.mgr.bulkFree ∧ hot + 1 ≤ stack * 32 ∧ warm ≤ bulk * 32)
          let placed := placeAll pl.wants (stack * 32 - hot - 1) (bulk * 32 - warm)
          let seals := pl.maps.all (fun m => !(m.tier == 4 && m.write) || match s.nsInfo m.nsid with
            | some n => !n.isSealed
            | none => false)
          if !fitsQ || placed.isNone || !seals || decide (s.mgr.ptUsed + ptUnits pl.wants > ptReserve) then (0x0A04, 0)
          else (0, 0)

/-- The run of an accepted START, in its slot, with its quotas and save area taken (R344, R345, R355). -/
def State.newRun (s : State) (p : ReqPath) (q : StartReq) (slot : Nat) (pl : Plate) : State :=
  let d := q.desc
  let ts := q.tables.map tableOf
  let stack := if leField d 0x34 4 = 0 then pl.stackMin else leField d 0x34 4
  let bulk := if leField d 0x38 4 = 0 then pl.bulkMin else leField d 0x38 4
  let save := if (descFlags d).testBit 0 then 1 + 22 * pl.regions else 0
  let hot := (ts.foldl (fun a t => a + t.hotMib) 0) * 16
  let warm := (ts.foldl (fun a t => a + t.warmGib) 0) * 16384
  let placed := (placeAll pl.wants (stack * 32 - hot - 1) (bulk * 32 - warm)).getD ([], 0, 0, 0)
  let arg : Mapping := { vaddr := argPage, length := 65536, tier := 1, write := false, exec := false, pinned := true,
                         page2m := false, nsid := 0, lba := 0 }
  let (k, s) := s.takeFree
  let r : Run := {
    slot := slot, path := p, plate := leField d 0 8, seed := leField d 8 8, regionMask := leField d 0x10 8,
    slow := descMode d == 1, priority := leField d 0x19 1, preemptible := (descFlags d).testBit 0,
    queue := (descFlags d).testBit 1, tag := leField d 0x58 8,
    fn := match p with | .yqi fn _ _ => fn | _ => 0,
    hostBase := leField d 0x48 8, hostLength := leField d 0x50 8,
    recAddr := q.recAddr, recVector := q.recVector, recHandle := q.recHandle,
    deviceCount := leField d 0x3C 4, deviceIndex := leField d 0x40 4, stackPages := stack, bulkPages := bulk,
    savePages := save, tables := ts, args := q.args.take (leField d 0x30 4), maps := arg :: placed.1,
    stackUsed := placed.2.1 + hot + 1, bulkUsed := placed.2.2.1 + warm, spills := placed.2.2.2, ptRoot := Config.freeNat k }
  { s with mgr := { s.mgr with
      runs := s.mgr.runs.filter (fun x => x.slot != slot) ++ [r],
      stackFree := s.mgr.stackFree - stack, bulkFree := s.mgr.bulkFree - (bulk + save),
      ptUsed := s.mgr.ptUsed + ptUnits pl.wants,
      lastStatus := s.mgr.lastStatus.filter (fun x => x.1 != slot) } }

/-- A run joins the waiting list (R350). -/
def State.joinList (s : State) (slot : Nat) : State :=
  let s := s.updRun slot (fun r => { r with order := s.mgr.nextOrder })
  { s with mgr := { s.mgr with nextOrder := s.mgr.nextOrder + 1 } }

/-- START (R344): the status, DETAIL and slot. -/
def State.startRun (s : State) (p : ReqPath) (q : StartReq) : Status × Nat × Nat × State :=
  let c := s.startCheck p q
  if c.1 ≠ 0 then (c.1, c.2, 0, s)
  else match s.freeSlot, s.plateAt (leField q.desc 0 8) with
    | some slot, some pl =>
      match s.pickRegions (leField q.desc 0x10 8) pl.regions with
      | some regs => (0, 0, slot, (s.newRun p q slot pl).grant slot regs .starting)
      | none =>
        if (descFlags q.desc).testBit 1 then
          let s := ((s.newRun p q slot pl).runState slot .queued).joinList slot
          (0, 0, slot, s.schedulePreempt)
        else (0x0908, 0, 0, s)
    | _, _ => (0x0907, 0, 0, s)

def State.start (s : State) (p : ReqPath) (q : StartReq) : State :=
  let r := s.startRun p q
  if r.1 = 0 then r.2.2.2.reply p 0 0 [r.2.2.1] else r.2.2.2.reply p r.1 r.2.1

def execStart (p : ReqPath) (r : StartReq) (s : State) : Host.Outcome State Fault Refusal := .next (s.start p r)

/-- A run in a slot that is not FREE. -/
def State.liveRun (s : State) (slot : Nat) : Option Run :=
  match s.runAt slot with
  | some r => if r.state = RunState.free then none else some r
  | none => none

/-- PREEMPT (R349). -/
def State.preempt (s : State) (p : ReqPath) (slot : Nat) : State :=
  match s.liveRun slot with
  | some r =>
    if (r.state = RunState.running ∨ r.state = RunState.held) ∧ r.preemptible then
      let s := s.updRun slot (fun r => { r with heldPending := r.state == .held, resumeQueued := false })
      (s.startPreempt slot).reply p 0
    else s.reply p 0x0911
  | none => s.reply p 0x0911

def execPreempt (p : ReqPath) (slot : Nat) (s : State) : Host.Outcome State Fault Refusal := .next (s.preempt p slot)

/-- The operations a held run retries: their fault status is cleared; one that waits for its page or rows asks for them
again (R361). -/
def State.retryHeld (s : State) (slot : Nat) : State :=
  let s := s.updRun slot (fun r => { r with
    susp := r.susp.map (fun x => { x with status := 0 }),
    filling := (r.filling ++ r.susp.filterMap (·.page)).eraseDups })
  s.retryAll slot

/-- RESUME (R349): a SAVED run is restored or queued, a HELD run goes on. -/
def State.resume (s : State) (p : ReqPath) (slot : Nat) : State :=
  match s.liveRun slot with
  | none => s.reply p 0x0911
  | some r =>
    if r.state = RunState.held then ((s.runState slot .running).reply p 0).retryHeld slot
    else if r.state = RunState.saved then
      match s.pickRegions r.regionMask (s.runRegions r) with
      | some regs => (s.grant slot regs .resuming).reply p 0
      | none =>
        if r.queue then
          let s := if r.resumeQueued then s else (s.updRun slot (fun r => { r with resumeQueued := true })).joinList slot
          (s.reply p 0).schedulePreempt
        else s.reply p 0x0908
    else s.reply p 0x0911

def execResume (p : ReqPath) (slot : Nat) (s : State) : Host.Outcome State Fault Refusal := .next (s.resume p slot)

/-- A job that a run's tile DMA submitted. -/
def JobOwner.ofRun (o : JobOwner) (slot : Nat) : Bool := match o with | .run sl _ _ => sl == slot | _ => false

def CmpSub.ofRun (x : CmpSub) (slot : Nat) : Bool := match x with | .run o _ _ => o.ofRun slot | .ring _ => false

/-- A run leaves its slot (R348 steps 3 to 5, R372): regions reset, frames, page tables and save area freed, shared
counters, keys and Gnoz queues of the run released, its generation contexts closed, its record delivered. -/
def State.freeRun (s : State) (slot : Nat) : State :=
  match s.runAt slot with
  | none => s
  | some r =>
    let s := r.regions.foldl (fun s g => s.zeroRegion g) s
    let at_ : Option Nat := if r.status = 0x090B ∧ r.detail ≠ 2 then r.physTile r.tile else none
    let tls := s.field.tiles.map (fun (x : Nat × TileState) =>
      if r.regions.contains (x.1 / 32) && some x.1 != at_ then (x.1, { x.2 with faulted := false }) else x)
    let s := { s with field := { s.field with tiles := tls.filter (fun (x : Nat × TileState) => x.2 != ({} : TileState)) } }
    let mine := (s.sync.ctrs.filter (fun x => match x.2.owner with
      | some (.run sl _) => sl == slot
      | _ => false)).map (·.1)
    let s := mine.foldl (fun s n => s.freeCounter n) s
    let qs := (s.gnoz.queues.filter (fun q => q.run == some slot)).map (·.q)
    let s := qs.foldl (fun s q => s.setReg (gnzQ q 0) 0) s
    let idle := r.regions.map (fun g => (g, s.now))
    let pl := ((s.plateAt r.plate).map (fun p => ptUnits p.wants)).getD 0
    let s := { s with
      gnoz := { s.gnoz with
        keys := s.gnoz.keys.map (fun (k : GnozKey) => if k.kind = KeyKind.run slot ∧ k.valid then { k with valid := false, gen := (k.gen + 1) % 256 } else k),
        queues := s.gnoz.queues.filter (fun q => q.run != some slot) },
      cmp := { s.cmp with
        jobs := s.cmp.jobs.filter (fun (j : CmpJob) => !j.owner.ofRun slot),
        queue := s.cmp.queue.filter (fun (j : CmpSub) => !j.ofRun slot) },
      text := { s.text with gens := s.text.gens.filter (fun g => g.owner != ReqPath.run slot) },
      power := { s.power with
        idleSince := s.power.idleSince.filter (fun (x : Nat × Nat) => !r.regions.contains x.1) ++ idle },
      mgr := { s.mgr with
        stackFree := s.mgr.stackFree + r.stackPages, bulkFree := s.mgr.bulkFree + r.bulkPages + r.savePages,
        ptUsed := s.mgr.ptUsed - pl } }
    let s := (s.runState slot .free).deliverRecord slot
    s.updRun slot (fun r => { r with
      regions := [], mem := [], pages := [], rows := [], hot := [], grads := [], maps := [], tables := [], susp := [],
      filling := [], save := none, stage := none, stackUsed := 0, bulkUsed := 0, ptRoot := 0, heldPending := false })

/-- STOP (R349). -/
def State.stop (s : State) (p : ReqPath) (slot : Nat) : State :=
  match s.liveRun slot with
  | none => s.reply p 0x0911
  | some r =>
    if r.state = RunState.ending then s.reply p 0x0911
    else if r.state = RunState.queued then
      ((s.updRun slot (fun r => { r with status := 0x090E })).freeRun slot).reply p 0
    else (s.endRun slot 0x090E).reply p 0

def execStop (p : ReqPath) (slot : Nat) (s : State) : Host.Outcome State Fault Refusal := .next (s.stop p slot)

/-- The argument page: the block, then zeros. -/
def argBytes (r : Run) : List Byte := slice r.args 0 65536

/-- STARTING's loading (R347): sections, the argument block and the weights are in place. -/
def State.loadMem (s : State) (r : Run) (pl : Plate) : Memory :=
  let m := memWrite [] argPage (argBytes r)
  let m := (pl.sections.filter (fun x => x.vaddr != 0)).foldl (fun m x => memWrite m x.vaddr x.data) m
  pl.weights.foldl (fun m w => memWrite m w.vaddr (s.nsBytes w.nsid (w.lba * 4096) w.length)) m

/-- The first weight reference whose loading fails, with the status (R347): its read fails every tier (`bad` names one that newly
does), or its bytes have another hash. -/
def State.weightsFault (s : State) (bad : Option Nat) : Nat → List WeightRef → Option Status
  | _, [] => none
  | i, w :: rest =>
    if bad = some i ∨ (s.nsInfo w.nsid).isNone ∨ !s.nsReadable w.nsid (w.lba * 4096) w.length then some 0x0A03
    else if sha384 (s.nsBytes w.nsid (w.lba * 4096) w.length) ≠ w.hash then some 0x0910
    else s.weightsFault bad (i + 1) rest

/-- RUN_LOADED (R347): every granted region is awake and the loading has ended. -/
def State.runLoaded (s : State) (slot : Nat) (bad : Option Nat) : State :=
  match s.runAt slot with
  | none => s
  | some r =>
    if r.state ≠ RunState.starting ∨ r.regions.any (fun g => s.power.doze.getLsbD g) then s
    else match s.plateAt r.plate with
      | none => s
      | some pl =>
        match s.weightsFault bad 0 pl.weights with
        | some st => s.endRun slot st
        | none =>
          let m := s.loadMem r pl
          let s := pl.weights.foldl (fun s w => s.countReconstructs w.nsid (w.lba * 4096) w.length) s
          (s.updRun slot (fun r => { r with mem := m })).runState slot .running

def execRunLoaded (slot : Nat) (bad : Option Nat) (s : State) : Host.Outcome State Fault Refusal :=
  .next (s.runLoaded slot bad)

/-- RUN_DEQUEUE (R350): the head of the list is served when it fits; otherwise runs are pre-empted for it. -/
def State.runDequeue (s : State) : State :=
  match s.waitList with
  | [] => s
  | h :: _ =>
    match s.pickRegions h.regionMask (s.runRegions h) with
    | some regs => s.grant h.slot regs (if h.state = RunState.queued then .starting else .resuming)
    | none => s.schedulePreempt

def execRunDequeue (s : State) : Host.Outcome State Fault Refusal := .next s.runDequeue

/-- PLATE_END (R346). -/
def State.plateEnd (s : State) (slot : Nat) : State :=
  match s.runAt slot with
  | some r => if r.state = RunState.running then s.endRun slot 0 else s
  | none => s

def execPlateEnd (slot : Nat) (s : State) : Host.Outcome State Fault Refusal := .next (s.plateEnd slot)

/-- RUN_CLEANUP_DONE (R348). -/
def State.runCleanupDone (s : State) (slot : Nat) : State :=
  match s.runAt slot with
  | none => s
  | some r =>
    if r.state ≠ RunState.ending then s
    else
      let dirty := (r.pages.filter (fun p => p.dirty && p.resident)).map (·.va)
      (dirty.foldl (fun s p => s.pageWriteBack r p) s).freeRun slot

def execRunCleanupDone (slot : Nat) (s : State) : Host.Outcome State Fault Refusal := .next (s.runCleanupDone slot)

/-- The save header (R365): 4 KiB with a CRC-32C at its end. -/
def saveHeader (r : Run) (partId seq : Nat) : List Byte :=
  let b := leBytes 4 0x53415645 ++ leBytes 2 1 ++ leBytes 2 r.regions.length ++ leBytes 8 r.plate ++ leBytes 4 partId ++
    leBytes 4 r.slot ++ leBytes 8 r.seed ++ leBytes 8 seq ++ leBytes 4 r.susp.length ++ leBytes 4 (bitOf r.heldPending)
  let b := b ++ List.replicate (0xFFC - b.length) 0
  b ++ leBytes 4 (crc32c b)

/-- A save header that RESUME takes: its MAGIC, PART and CRC hold (R365). -/
def saveHeaderOk (b : List Byte) (partId : Nat) : Bool :=
  leField b 0 4 == 0x53415645 && leField b 0x10 4 == partId && leField b 0xFFC 4 == crc32c (b.take 0xFFC)

/-- What the save area takes of a run (R365, R374). -/
def State.saveArea (s : State) (r : Run) : SaveArea :=
  let ctrs := r.regions.flatMap (fun g => (List.range 1024).map (fun i => (s.ctr (g * 1024 + i)).value))
  let tileNs := (List.range (32 * r.regions.length)).filterMap r.physTile
  let mineWaits := s.sync.ctrs.flatMap (fun x =>
    let mine := if x.1 < 49152 then r.regions.contains (x.1 / 1024)
      else match x.2.owner with | some (.run sl _) => sl == r.slot | _ => false
    if mine then (x.2.waiters.filter (fun w => decide (w.who / 4096 = 1))).map (fun w => (s.logicalOf x.1, w)) else [])
  let part (m : Memory) (base size : Nat) : Memory :=
    (m.filter (fun c => decide (base ≤ c.1 ∧ c.1 < base + size))).map (fun c => (c.1 - base, c.2))
  { header := saveHeader r s.fuses.partId s.evt.next, counters := ctrs, waits := mineWaits,
    regionStores := r.regions.map (fun g => part s.field.regionMem (g * 2 ^ 23) (2 ^ 23)),
    tileStores := tileNs.map (fun t => part s.field.tileMem (t * 2 ^ 20) (2 ^ 20)),
    tiles := tileNs.map s.tile }

/-- PREEMPT_SAVE_DONE (R364): compression and check jobs of the run's DMAs go back to be issued again (R362), the regions are reset and released, and the run is SAVED; a parity error while the save
reads region or tile stores of logical region i abandons it (R366). -/
def State.preemptSaveDone (s : State) (slot : Nat) (parity : Option Nat) : State :=
  match s.runAt slot with
  | none => s
  | some r =>
    let held := s.cmp.jobs.filter (fun j => j.owner.ofRun slot)
    if r.state ≠ RunState.preempting ∨ held.any (fun j => j.desc.op == 1) then s
    else match parity with
      | some i =>
        let s := s.endRun slot 0x0A06 (i + 1)
        (match r.regions[i]? with
         | some g => s.isolateRegion g 3
         | none => s)
      | none =>
        let area := s.saveArea r
        let (_, s) := s.issueSeq
        let keep (x : Nat × Counter) : Nat × Counter := match x.2.owner with
          | some (.run sl _) => if sl = slot then (x.1, { x.2 with waiters := x.2.waiters.filter (fun w => decide (w.who / 4096 ≠ 1)) })
              else x
          | _ => x
        let s := { s with
          cmp := { s.cmp with
            jobs := s.cmp.jobs.filter (fun (j : CmpJob) => !j.owner.ofRun slot),
            queue := held.map (fun (j : CmpJob) => CmpSub.run j.owner j.desc j.retried) ++ s.cmp.queue },
          sync := { s.sync with ctrs := s.sync.ctrs.map keep },
          power := { s.power with
            idleSince := s.power.idleSince.filter (fun (x : Nat × Nat) => !r.regions.contains x.1) ++
              r.regions.map (fun g => (g, s.now)) } }
        let s := r.regions.foldl (fun s g => s.zeroRegion g) s
        let s := s.updRun slot (fun r =>
          let n := satBump 32 r.preempts 1 (r.ovf.getLsbD 2)
          { r with
            save := some area, lastRegions := r.regions, regions := [], preempts := n.1, ovf := setBit r.ovf 2 n.2 })
        let s := (s.runState slot .saved).deliverRecord slot
        if r.resumeQueued then s.joinList slot else s

def execPreemptSaveDone (slot : Nat) (parity : Option Nat) (s : State) : Host.Outcome State Fault Refusal :=
  .next (s.preemptSaveDone slot parity)

/-- A memory placed at a base. -/
def shiftMem (m : Memory) (base : Nat) : Memory := m.map (fun c => (c.1 + base, c.2))

/-- Merges saved bytes into a store, byte by byte. -/
def mergeMem (into : Memory) (m : Memory) : Memory := m.foldl (fun a c => memSet a c.1 c.2) into

/-- Puts a save area back onto the granted regions (R364, R374): the tiles reissue their waits. -/
def State.restore (s : State) (r : Run) (a : SaveArea) : State :=
  let idx (l : List Nat) : List (Nat × Nat) := (List.range l.length).zip l
  let s := (idx r.regions).foldl (fun s x =>
    { s with field := { s.field with regionMem := mergeMem s.field.regionMem (shiftMem (a.regionStores.getD x.1 []) (x.2 * 2 ^ 23)) } }) s
  let tileNs := (List.range (32 * r.regions.length)).filterMap r.physTile
  let s := (idx tileNs).foldl (fun s x =>
    let s := { s with field := { s.field with tileMem := mergeMem s.field.tileMem (shiftMem (a.tileStores.getD x.1 []) (x.2 * 2 ^ 20)) } }
    let t := a.tiles.getD x.1 {}
    let u := s.tile x.2
    s.setTile x.2 { t with evtSel := u.evtSel, faulted := u.faulted, evtOvf := u.evtOvf, hiLatch := u.hiLatch }) s
  let s := (List.range a.counters.length).foldl (fun s c =>
    match s.runCounter r c with
    | some n => s.setCtr n { s.ctr n with value := a.counters.getD c 0 }
    | none => s) s
  a.waits.foldl (fun s w =>
    match s.runCounter r w.1 with
    | none => s
    | some n =>
      let c := s.ctr n
      let who := sigTile ((r.physTile w.2.tile).getD 0)
      let gone := match w.2.what with | .release g => c.bgen != g | _ => false
      if gone then s else (s.setCtr n { c with waiters := c.waiters ++ [{ w.2 with who := who }] }).wake n) s

/-- RESUME_RESTORE_DONE (R364-R366): a save whose header does not hold, or cannot be read, ends it with 0x0A0A; else the run is RUNNING, or HELD when a held fault was pending and comes again. -/
def State.resumeRestoreDone (s : State) (slot : Nat) (ok : Bool) : State :=
  match s.runAt slot with
  | none => s
  | some r =>
    if r.state ≠ RunState.resuming ∨ r.regions.any (fun g => s.power.doze.getLsbD g) then s
    else match r.save with
      | none => s
      | some a =>
        if !ok || !saveHeaderOk a.header s.fuses.partId then s.endRun slot 0x0A0A
        else
          let s := s.restore r a
          let s := s.updRun slot (fun r => { r with save := none, heldPending := false })
          (s.runState slot .running).retryHeld slot

def execResumeRestoreDone (slot : Nat) (ok : Bool) (s : State) : Host.Outcome State Fault Refusal :=
  .next (s.resumeRestoreDone slot ok)

/-- The gauges and run slots of the STK and BLK block (R368, R369). -/
def viewStk (s : State) (off : Nat) : Option Word :=
  if off < stkBase ∨ off ≥ stkBase + 0x11000 then none
  else
    let o := off - stkBase
    let mib := (s.mgr.plates.foldl (fun a p => a + p.length) 0 + 2 ^ 20 - 1) / 2 ^ 20
    if o = 0 then some (packFields [(0, 64), (8, 256)])
    else if o = 4 then some (packFields [(0, s.mgr.plates.length), (16, mib)])
    else if o = 8 then some (BitVec.ofNat 32 s.mgr.stackFree)
    else if o = 0xC then some (BitVec.ofNat 32 s.mgr.bulkFree)
    else if o = 0x10 then some (BitVec.ofNat 32 s.mgr.ptUsed)
    else if o < 0x10000 then none
    else match s.runAt ((o - 0x10000) / 64) with
      | none => some 0
      | some r =>
        let regs := regionBits r.regions
        some (match o % 64 / 4 with
          | 0 => packFields [(0, r.state.code), (4, bitOf r.slow), (5, r.priority), (8, bitOf r.preemptible),
              (9, bitOf (r.heldPending && r.state == .saved))]
          | 1 => packFields [(0, r.status.toNat), (16, r.detail)]
          | 2 => BitVec.ofNat 32 regs
          | 3 => BitVec.ofNat 32 (regs / 2 ^ 32)
          | 4 => BitVec.ofNat 32 r.plate
          | 5 => BitVec.ofNat 32 (r.plate / 2 ^ 32)
          | 6 => BitVec.ofNat 32 r.faultVaddr
          | 7 => BitVec.ofNat 32 (r.faultVaddr / 2 ^ 32)
          | 8 => BitVec.ofNat 32 r.stackUsed
          | 9 => BitVec.ofNat 32 (r.bulkUsed + r.residentPages)
          | 10 => BitVec.ofNat 32 r.fills
          | 11 => BitVec.ofNat 32 r.evictions
          | 12 => BitVec.ofNat 32 r.preempts
          | 13 => BitVec.ofNat 32 r.ovf.toNat
          | 14 => BitVec.ofNat 32 r.ptRoot
          | _ => BitVec.ofNat 32 (r.ptRoot / 2 ^ 32))

/-- STK_RUN_OVF is the block's one writable word. -/
def writeStk (s : State) (off : Nat) (v : Word) : Option State :=
  if stkBase + 0x10000 ≤ off ∧ off < stkBase + 0x11000 ∧ off % 64 = 0x34 then
    some (s.updRun ((off - stkBase - 0x10000) / 64) (fun r => { r with ovf := r.ovf &&& ~~~(v.setWidth 3) }))
  else if stkBase ≤ off ∧ off < stkBase + 0x11000 then some s
  else none

end Sys2Proof.Machine
end

