-- ==== Sys2Proof/Machine/Wedge.lean ====
section
/-! DEFINITION. The wedging unit: the keyed permutation of an epoch and the candidates of a slot (R58-R72). -/

namespace Sys2Proof.Machine

/-- One SipHash round on (v0, v1, v2, v3). -/
def sipRound (v : BitVec 64 × BitVec 64 × BitVec 64 × BitVec 64) : BitVec 64 × BitVec 64 × BitVec 64 × BitVec 64 :=
  let (v0, v1, v2, v3) := v
  let v0 := v0 + v1
  let v1 := v1.rotateLeft 13 ^^^ v0
  let v0 := v0.rotateLeft 32
  let v2 := v2 + v3
  let v3 := v3.rotateLeft 16 ^^^ v2
  let v0 := v0 + v3
  let v3 := v3.rotateLeft 21 ^^^ v0
  let v2 := v2 + v1
  let v1 := v1.rotateLeft 17 ^^^ v2
  let v2 := v2.rotateLeft 32
  (v0, v1, v2, v3)

/-- Takes in one 64-bit word with two rounds. -/
def sipWord (v : BitVec 64 × BitVec 64 × BitVec 64 × BitVec 64) (m : BitVec 64) :
    BitVec 64 × BitVec 64 × BitVec 64 × BitVec 64 :=
  let (v0, v1, v2, v3) := sipRound (sipRound (v.1, v.2.1, v.2.2.1, v.2.2.2 ^^^ m))
  (v0 ^^^ m, v1, v2, v3)

/-- SipHash-2-4 of the words of a message; the last holds its length in its top byte. -/
def sipWords (k0 k1 : BitVec 64) (ms : List (BitVec 64)) : BitVec 64 :=
  let v := ms.foldl sipWord
    (k0 ^^^ 0x736f6d6570736575#64, k1 ^^^ 0x646f72616e646f6d#64, k0 ^^^ 0x6c7967656e657261#64, k1 ^^^ 0x7465646279746573#64)
  let (v0, v1, v2, v3) := sipRound (sipRound (sipRound (sipRound (v.1, v.2.1, v.2.2.1 ^^^ 0xFF#64, v.2.2.2))))
  v0 ^^^ v1 ^^^ v2 ^^^ v3

/-- SipHash-2-4 of an 8-byte message. -/
def siphash8 (k0 k1 msg : BitVec 64) : BitVec 64 := sipWords k0 k1 [msg, 0x0800000000000000#64]

/-- The least even width w ≥ 2 with 2^w ≥ n (R58). -/
def wedgeWidth (n : Nat) : Nat := ((List.range 24).map (fun i => 2 * i + 2)).find? (fun w => decide (n ≤ 2 ^ w)) |>.getD 48

/-- What fixes the permutation of an epoch: seed, snapshot, epoch, sample count, and the diagnostic override (R59, R65). -/
structure WedgeKey where
  seed : Nat
  snap : Nat
  epoch : Nat
  n : Nat
  diag : Bool
  deriving DecidableEq, Repr

/-- The round function of domain d (R60, R65). -/
def WedgeKey.f (k : WedgeKey) (w d i v : Nat) : Nat :=
  let h := w / 2
  if k.diag then (v + i + 1 + 2 * d) % 2 ^ h
  else
    let k0 := BitVec.ofNat 64 (k.seed ^^^ k.snap % 2 ^ 64)
    let k1 := BitVec.ofNat 64 (k.snap / 2 ^ 64 ^^^ k.epoch * 2 ^ 32 ^^^ d)
    (siphash8 k0 k1 (BitVec.ofNat 64 (v ||| i * 2 ^ 48 ||| w * 2 ^ 56))).toNat % 2 ^ h

/-- Six Feistel rounds (R61). -/
def WedgeKey.rounds (k : WedgeKey) (w d : Nat) : Nat → Nat → Nat → Nat × Nat
  | 0, l, r => (l, r)
  | i + 1, l, r => k.rounds w d i r (l ^^^ k.f w d (5 - i) r)

def WedgeKey.feistel (k : WedgeKey) (w d x : Nat) : Nat :=
  let t := k.rounds w d 6 (x / 2 ^ (w / 2)) (x % 2 ^ (w / 2))
  t.1 * 2 ^ (w / 2) ||| t.2

/-- Cycle-walking (R61): at most 2^w - n + 1 evaluations (R62). -/
def WedgeKey.walk (k : WedgeKey) (w d : Nat) : Nat → Nat → Nat
  | 0, y => y
  | fuel + 1, y => if y < k.n then y else k.walk w d fuel (k.feistel w d y)

/-- permute() of domain d (R61). -/
def WedgeKey.permute (k : WedgeKey) (d p : Nat) : Nat :=
  let w := wedgeWidth k.n
  k.walk w d (2 ^ w - k.n + 1) (k.feistel w d p)

/-- The folio of candidate j of position p (R72). -/
def WedgeKey.candidate (k : WedgeKey) (p j : Nat) : Nat :=
  if j = 0 then k.permute 0 p else k.permute 1 (((p * 8 + j - 1) % 2 ^ 64) % k.n)

end Sys2Proof.Machine
end

