-- ==== Sys2Proof/Machine/StreamFns.lean ====
section
/-! DEFINITION. Streams: the parameter block, snapshot and record checks, the stages of a graph, charges, and the
layout of a forme (R50-R93, R200, R685). -/

namespace Sys2Proof.Machine

/-- The stream parameter block as read (R66). -/
def streamParams (b : List Byte) : StreamParams :=
  { streamId := leField b 0 2, flags := leField b 2 2, nsid := leField b 4 4, descLba := leField b 8 8,
    snapshotId := leField b 0x10 16, seed := leField b 0x20 8, firstEpoch := leField b 0x28 4,
    lastEpoch := leField b 0x2C 4, world := leField b 0x30 4, rank := leField b 0x34 4, slots := leField b 0x38 4,
    window := leField b 0x3C 4, budget := leField b 0x40 4, witnessNsid := leField b 0x44 4, graph := leField b 0x48 8,
    replayFrom := leField b 0x50 8, consumer := leField b 0x58 8 }

/-- The block of a set of parameters. -/
def StreamParams.bytes (p : StreamParams) : List Byte :=
  leBytes 2 p.streamId ++ leBytes 2 p.flags ++ leBytes 4 p.nsid ++ leBytes 8 p.descLba ++ leBytes 16 p.snapshotId ++
    leBytes 8 p.seed ++ leBytes 4 p.firstEpoch ++ leBytes 4 p.lastEpoch ++ leBytes 4 p.world ++ leBytes 4 p.rank ++
    leBytes 4 p.slots ++ leBytes 4 p.window ++ leBytes 4 p.budget ++ leBytes 4 p.witnessNsid ++ leBytes 8 p.graph ++
    leBytes 8 p.replayFrom ++ leBytes 8 p.consumer ++ leBytes 32 0

/-- Formes per epoch (R67). A live stream has no sample count; its one epoch does not end. -/
def StreamParams.formesOf (p : StreamParams) (n : Nat) : Nat :=
  if p.live then 2 ^ 48
  else if p.tailVoid then ((n + p.world - 1) / p.world + p.slots - 1) / p.slots
  else n / p.world / p.slots

/-- The snapshot descriptor's checks (R70 check 3); the reserved bytes of R52 are none of them. -/
def descriptorOk (d : List Byte) (snapId : Nat) : Bool :=
  leField d 0 4 == 0x534E4150 && leField d 4 2 == 1 && leField d 8 16 == snapId && snapId != 0 &&
    decide (1 ≤ leField d 0x18 8 ∧ leField d 0x18 8 ≤ 2 ^ 48) && decide (1 ≤ leField d 0x20 4 ∧ leField d 0x20 4 ≤ 16777216) &&
    leField d 0xFFC 4 == crc32c (d.take 0xFFC)

def roundUp (x m : Nat) : Nat := (x + m - 1) / m * m

/-- Bytes of an element of a text section (R268). -/
def textElem (kind : Nat) : Nat := match kind with | 3 => 2 | 5 => 1 | _ => 4

def sectLength (x : SectionSpec) (slots : Nat) : Nat :=
  if x.kind = 1 then x.stride * slots else x.rows * x.context * textElem x.kind

def formeHeader (slots : Nat) : Nat := roundUp (0x180 + 16 * slots) 4096

/-- Offsets of the sections, then the forme length (R91). -/
def sectOffsets (slots : Nat) : List SectionSpec → Nat → List Nat × Nat
  | [], o => ([], o)
  | x :: xs, o =>
    let t := sectOffsets slots xs (roundUp (o + sectLength x slots) 256)
    (o :: t.1, t.2)

def graphFormeLength (g : Graph) (slots : Nat) : Nat := (sectOffsets slots g.sections (formeHeader slots)).2

/-- A stage reads the parameter entry (R224). -/
def graphReads (g : Graph) : Stage → Bool
  | .record => false
  | .gen => false
  | .decode f => match g.fields[f]? with | some x => x.cls == .video && x.frameEntry | none => false
  | .op f k => match g.fields[f]? with
    | some x => (match x.ops[k]? with | some o => augReadsEntry o | none => false)
    | none => false
  | .sieve => match g.sieve with | some x => x.takesUser | none => false

/-- The stage at which a candidate makes its lookup (R224). -/
def graphLookup (g : Graph) : Option Nat := (graphStages g).findIdx? (graphReads g)

/-- The checks of R224 at the lookup. -/
def graphEntryOk (g : Graph) (e : List Byte) : Bool :=
  let ops := g.fields.flatMap (·.ops)
  let tone := ops.contains .tone
  let sat := ops.contains .saturate
  let frames := g.fields.any (fun f => f.cls == .video && f.frameEntry)
  let short := ops.any (fun o => match o with | .resize _ (.shortEntry _) => true | _ => false)
  let b := entryS16 e 0xC
  leField e 0xA 2 < 4 && (slice e 0x22 6).all (· == 0) && (slice e 0x30 16).all (· == 0) &&
    (!tone || (decide (-255 ≤ b ∧ b ≤ 255) && decide (leField e 0xE 2 ≤ 32768))) &&
    (!sat || decide (leField e 0x10 2 ≤ 32768)) &&
    (!frames || decide (1 ≤ leField e 0x12 2 ∧ leField e 0x12 2 ≤ 256)) &&
    (!short || decide (leField e 8 2 ≤ 16384))

/-- How a stage of a candidate ended: it passes with its new total, or fails with a cause and, for a decoder, its status. -/
inductive StageEnd where
  | pass (wu : Nat)
  | fail (c : SlotCause) (st : Status)
  deriving DecidableEq, Repr

/-- A charge (R80): the quantity over the unit, rounded up. -/
def charge (q unit : Nat) : Nat := (q + unit - 1) / unit

def StageEnd.add (budget n : Nat) : StageEnd → StageEnd
  | .pass wu => if wu + n > budget then .fail .budget 0 else .pass (wu + n)
  | x => x

/-- The cause of a decoder or lane status (R247, R261, R267). -/
def causeOf (st : Status) : SlotCause :=
  if st = 0x0503 ∨ st = 0x0605 then .limit else if st = 0x0507 then .param else .decode

/-- A payload after decompression (R168, R173): the bytes produced, and whether the stream ended rightly with
DECODED_LENGTH bytes. CODEC 0 is stored as it is. -/
def fieldPayload (codec decoded : Nat) (payload : List Byte) : List Byte × Bool :=
  if codec = 0 then (payload, true)
  else if codec ≤ 3 then
    let r := (Inflate.fresh codec payload (2 ^ 63) (some decoded)).decode false
    (r.2.output, match r.1 with | .done _ => true | _ => false)
  else
    let r := (Frames.fresh codec payload (2 ^ 63) (some decoded)).decode false
    (r.2.output, match r.1 with | .done _ => true | _ => false)

/-- What follows a field's last event (R81, R685): the rest of its decompression, and its error if it has one. `packed` is
none for CODEC 0, else whether decompression ended rightly; `done` are the bytes charged for so far. -/
def endDecode (budget : Nat) (packed : Option Bool) (total wu done : Nat) : StageEnd :=
  match packed with
  | none => .pass wu
  | some ok =>
    let n := charge total 1024 - charge done 1024
    if wu + n > budget then .fail .budget 0 else if ok then .pass (wu + n) else .fail .decompress 0

/-- A field's events in order (R81, R685): each after the decompression of the bytes it needs. A decompression error stands
before an event that only the end of the field brings. `aud` counts the audio samples so far. -/
def runDecode (budget : Nat) (packed : Option Bool) (total : Nat) : List (Nat × DecodeEvent) → Nat → Nat → Nat → StageEnd
  | [], wu, done, _ => endDecode budget packed total wu done
  | (p, e) :: es, wu, done, aud =>
    if packed = some false ∧ p > total then endDecode budget packed total wu done
    else
      let q := max done (min p total)
      let wu := wu + (if packed.isSome then charge q 1024 - charge done 1024 else 0)
      let go (n aud : Nat) : StageEnd := if wu + n > budget then .fail .budget 0 else runDecode budget packed total es (wu + n) q aud
      match e with
      | .fault st => if wu > budget then .fail .budget 0 else .fail (causeOf st) st
      | .jpegFrame n => go (charge n 64) aud
      | .pngPass n => go (charge n 256) aud
      | .picture n => go (charge n 256) aud
      | .audioSamples n => go (charge (aud + n) 1024 - charge aud 1024) (aud + n)

/-- A text field's events in order: decompression, input bytes and tokens charged one unit at a time; the model's tokens are
limited, and those below the limit are charged first (R267, R685). -/
def runText (budget : Nat) (packed : Option Bool) (total : Nat) (bos eos : Bool) :
    List TextEvent → Nat → Nat → Nat → List Nat → StageEnd × List Nat
  | [], wu, inp, _, ids => (endDecode budget packed total wu inp, ids)
  | e :: es, wu, inp, tok, ids =>
    let unpack (n : Nat) : Nat := if packed.isSome then charge n 1024 - charge inp 1024 else 0
    match e with
    | .input n =>
      let a := charge (inp + n) 64 - charge inp 64 + unpack (inp + n)
      if wu + a > budget then (.fail .budget 0, []) else runText budget packed total bos eos es (wu + a) (inp + n) tok ids
    | .emit xs =>
      let room := 16777216 + bitOf bos + (if es.isEmpty then bitOf eos else 0) - tok
      let a := charge (tok + min room xs.length) 64 - charge tok 64
      if wu + a > budget then (.fail .budget 0, [])
      else if xs.length > room then (.fail .limit 0x0605, [])
      else runText budget packed total bos eos es (wu + a) inp (tok + xs.length) (ids ++ xs)
    | .strictFail =>
      if wu + unpack (min total (inp + 1)) > budget then (.fail .budget 0, []) else (.fail .decode 0x0604, [])

/-- The events of a text whose decompression fails after these bytes: those that do not only the end of the text brings. -/
def openText (total : Nat) (ev : List TextEvent) : List TextEvent :=
  let taken := (ev.map (fun e => match e with | .input n => n | _ => 0)).sum
  if ev.contains .strictFail ∧ taken + 4 ≤ total then ev
  else (ev.reverse.dropWhile (fun e => match e with | .input _ => false | _ => true)).reverse

/-- What the decoder of a field's class makes of its bytes (R200, R205, R208, R210, R213); a live unit follows the NAL data
`before`, and a video decoder stops at picture `last`. -/
def fieldDecode (g : GraphField) (content : Nat) (before b : List Byte) (last : Option Nat) : FieldDecode :=
  match g.cls with
  | .jpeg => jpegField g b
  | .png => pngField g b
  | .audio => if content = 5 then flacField g b else wavField g b
  | .video => videoField g (content == 4) before b last
  | _ => { events := [], held := some (.bytes b) }

/-- The samples a decoded field gives, or a fault (R207, R209, R211, R214): of a video field the pictures that FIRST_FRAME
and FRAME_STEP select. -/
def decodedSamples (f : GraphField) (first step : Nat) : Decoded → Except Status (List Sample)
  | .jpeg w h ycc comps => .ok [jpegPixels w h ycc f.lumaOnly comps]
  | .png w h colour depth samples plte trns =>
    match pngPixels w h colour depth f.form plte trns samples with
    | some x => .ok [x]
    | none => .error 0x0501
  | .video w h d mono ps =>
    let sel := (List.range f.frameCount).map (fun i => ps[first + i * step]?)
    if sel.all Option.isSome then .ok [.yuv w h d mono (sel.filterMap id)] else .error 0x0507
  | .audio ch rate bits wb xs => .ok [.audio ch rate (xs.map (audio24 bits wb))]
  | .bytes b => .ok [.elements b]

/-- Units of a decoder class by RST_UNIT class 1 to 5 (R244). -/
def decUnits : Nat → Nat
  | 1 => 256
  | 2 => 32
  | 3 => 16
  | 4 => 16
  | _ => 64

/-- The units of a class that are out of service. -/
def Decode.oos (d : Decode) : Nat → List Nat
  | 1 => d.oosJpeg
  | 2 => d.oosPng
  | 3 => d.oosVideo
  | 4 => d.oosAudio
  | _ => d.oosAug

/-- The class of a field's decoder, from 1; none for text and raw fields. -/
def fieldUnits (f : GraphField) : Option Nat :=
  match f.cls with
  | .jpeg => some 1
  | .png => some 2
  | .video => some 3
  | .audio => some 4
  | _ => none

/-- The lowest unit of a class in service (R202, R603). -/
def State.unitUp (s : State) (cls : Nat) : Option Nat :=
  (List.range (decUnits cls)).find? (fun u => !(s.decode.oos cls).contains u && !s.unitHeld 3 cls u)

/-- The requester port of a unit of a class (R495). -/
def unitPort (cls unit : Nat) : Nat :=
  match cls with
  | 1 => 1 + unit / 32
  | 2 => 9
  | 5 => 11 + unit / 32
  | _ => 10

/-- Bytes of a sample in a buffer. -/
def Sample.size : Sample → Nat
  | .image w h c deep _ => w * h * c * (if deep then 2 else 1)
  | .yuv _ _ d _ ps => (ps.map List.length).sum * (if d > 8 then 2 else 1)
  | .audio _ _ xs => 4 * xs.length
  | .elements b => b.length
  | .tokens ids => 4 * ids.length

/-- CONTENT codes that a stage's field may have (R200); a tokenising stage takes text alone. -/
def contentFits (f : GraphField) (content : Nat) : Bool :=
  if f.text.isSome then content == 7
  else match f.cls with
  | .jpeg => content == 1
  | .png => content == 2
  | .video => content == 3 || content == 4
  | .audio => content == 5 || content == 6
  | .text => content == 7
  | .raw => content == 7 || content == 8

/-- The CONTENT of a record's field with a TAG. -/
def recordContent (r : List Byte) (tag : Nat) : Option Nat :=
  ((List.range (leField r 4 2)).find? (fun i => leField r (0x2E + 32 * i) 2 == tag)).map (fun i => leField r (0x2D + 32 * i) 1)

/-- Check 6 of R74. -/
def recordDescsOk (r : List Byte) (len : Nat) : Bool :=
  let n := leField r 4 2
  let d (i : Nat) : Nat := 32 + 32 * i
  let spans := (List.range n).map (fun i => (leField r (d i) 4, leField r (d i + 4) 4))
  decide (1 ≤ n ∧ n ≤ 16) && leField r 6 2 == 0 && leField r 0x18 8 == 0 &&
    (List.range n).all (fun i => leField r (d i + 0x10) 16 == 0 && leField r (d i) 4 % 64 == 0 &&
      decide (32 + 32 * n ≤ leField r (d i) 4) && decide (leField r (d i) 4 + leField r (d i + 4) 4 ≤ len) &&
      (leField r (d i + 0xC) 1 != 0 || leField r (d i + 8) 4 == leField r (d i + 4) 4)) &&
    disjoint spans

/-- Checks 2 to 7 of R74, then the field checks of R200: none passes. -/
def recordFault (g : Graph) (r : List Byte) (len folio : Nat) : Option SlotCause :=
  let n := leField r 4 2
  if leField r 0 4 ≠ 0x52454344 ∨ leField r 0x10 4 ≠ len ∨ leField r 8 8 ≠ folio then some .format
  else if leField r 0x14 4 ≠ crc32c (r.take 0x14 ++ [0, 0, 0, 0] ++ r.drop 0x18) then some .recordCrc
  else if !recordDescsOk r len then some .format
  else if !(List.range n).all (fun i => decide (leField r (0x2C + 32 * i) 1 ≤ 5) &&
      decide (1 ≤ leField r (0x2D + 32 * i) 1 ∧ leField r (0x2D + 32 * i) 1 ≤ 8)) then some .format
  else if !g.fields.all (fun f => match recordContent r f.tag with | some x => contentFits f x | none => false) then
    some .format
  else none

/-- What places forme n: its epoch, its index and the position of slot s (R68). -/
def StreamCtx.epochOf (c : StreamCtx) (n : Nat) : Nat := c.params.firstEpoch + n / max c.formes 1

def StreamCtx.posOf (c : StreamCtx) (g : Nat) : Nat :=
  let n := g / max c.params.slots 1
  c.params.rank + (n % max c.formes 1 * c.params.slots + g % max c.params.slots 1) * c.params.world

/-- The number of formes of the stream (R69). -/
def StreamCtx.total (c : StreamCtx) : Nat := (c.params.lastEpoch - c.params.firstEpoch + 1) * c.formes

def StreamCtx.wedge (c : StreamCtx) (epoch : Nat) : WedgeKey :=
  { seed := c.params.seed, snap := c.params.snapshotId, epoch := epoch, n := c.sampleCount, diag := c.diag }

def causeCode : SlotCause → Nat
  | .noFailure => 0 | .format => 1 | .recordCrc => 2 | .decompress => 3 | .decode => 4 | .limit => 5 | .budget => 6
  | .sieve => 7 | .param => 8 | .tail => 9

/-- A slot-table entry's bytes (R93). -/
def SlotEntry.bytes (e : SlotEntry) : List Byte :=
  leBytes 8 e.folio ++ leBytes 1 (bitOf e.substituted + 2 * bitOf e.isVoid + 4 * bitOf e.rejected + 8 * bitOf e.truncated +
    16 * bitOf e.tail) ++ leBytes 1 (e.depth + 16 * causeCode e.cause) ++ leBytes 2 0 ++ leBytes 4 e.value

/-- The tokens of a text group, slot by slot. -/
def slotTokens (sect : Nat) (o : List (Nat × List Sample)) : List Nat :=
  match o.find? (fun x => x.1 == sect) with
  | some (_, .tokens ids :: _) => ids
  | _ => []

/-- The rows of a text group (R269): per row, the tokens of its segments in order. -/
def groupRows (rows : Nat) (ps : List Placed) (toks : List (List Nat)) : List (List (List Nat)) :=
  (List.range rows).map (fun r => ((ps.zip toks).filter (fun x => x.1.row == r && x.1.count != 0)).map (fun x => x.2.take x.1.count))

/-- The bytes of one section of a text group (R268). -/
def textSection (kind t pad : Nat) (rows : List (List (List Nat))) : List Byte :=
  let w := textElem kind
  rows.flatMap (fun segs =>
    let body := (List.range segs.length).flatMap (fun i =>
      let sg := segs.getD i []
      (List.range sg.length).map (fun k => match kind with
        | 2 => sg.getD k 0
        | 3 => i + 1
        | 4 => k
        | _ => 1))
    (body ++ List.replicate (t - body.length) (if kind = 2 then pad else 0)).flatMap (leBytes w))

/-- The text groups of a graph: the section of a text field, its tag, T and rows. -/
def graphGroups (g : Graph) : List (Nat × SectionSpec × Nat) :=
  (g.fields.filter (fun f => f.text.isSome)).filterMap (fun f =>
    (g.sections[f.sect]?).map (fun x => (f.sect, x, (f.text.map (·.vocab)).getD 0)))

/-- The bytes of a per-slot section: each slot's output, cut or padded to STRIDE; a void owns zeros (R78, R93). -/
def slotSection (stride sect : Nat) (os : List (List (Nat × List Sample))) : List Byte :=
  os.flatMap (fun o => match o.find? (fun x => x.1 == sect) with
    | some (_, xs) => slice (xs.flatMap Sample.bytes) 0 stride
    | none => List.replicate stride 0)

/-- Output longer than its STRIDE is cut (R93). -/
def slotCut (g : Graph) (o : List (Nat × List Sample)) : Bool :=
  o.any (fun x => match g.sections[x.1]? with
    | some sp => sp.kind == 1 && decide ((x.2.flatMap Sample.bytes).length > sp.stride)
    | none => false)

/-- The bytes of forme n (R91-R93, R268-R270), from its slots' entries and outputs; `pads` gives each vocabulary's PAD. -/
def StreamCtx.formeBytes (c : StreamCtx) (pads : Nat → Nat) (n : Nat) (slots : List (SlotEntry × List (Nat × List Sample))) :
    List Byte :=
  let g := c.graph
  let b := c.params.slots
  let os := slots.map (·.2)
  let groups := (graphGroups g).map (fun x =>
    let toks := os.map (slotTokens x.1)
    (x.1, x.2.1, x.2.2, toks, packRows x.2.1.context x.2.1.rows (toks.map List.length) 0 0))
  let first := (groups.filter (fun x => x.2.1.kind == 2)).foldl (fun m x => match m with
    | none => some x
    | some y => if x.1 < y.1 then some x else some y) none
  let entries := (List.range b).map (fun i =>
    let e := (slots.getD i ({ folio := 0 }, [])).1
    let cut := groups.any (fun x => match x.2.2.2.2[i]? with | some p => p.cut | none => false)
    let v := match first with | some x => (match x.2.2.2.2[i]? with | some p => p.count | none => 0) | none => 0
    { e with truncated := cut || slotCut g (os.getD i []), value := v })
  let offs := sectOffsets b g.sections (formeHeader b)
  let idx := n % max c.formes 1
  let table := (List.range 8).flatMap (fun i => match g.sections[i]? with
    | some x => leBytes 8 (offs.1.getD i 0) ++ leBytes 8 (sectLength x b) ++ leBytes 4 (if x.kind = 1 then x.stride else 0) ++
        leBytes 2 x.format ++ leBytes 1 x.kind ++ leBytes 1 0 ++ leBytes 4 x.tag ++ leBytes 4 0
    | none => List.replicate 32 0)
  let head := leBytes 4 0x46524D45 ++ leBytes 2 1 ++ leBytes 2 g.sections.length ++ leBytes 4 (formeHeader b) ++
    leBytes 4 (bitOf c.params.tailVoid + 2 * bitOf c.diag + 4 * bitOf c.params.live) ++ leBytes 16 c.params.snapshotId ++
    leBytes 8 c.params.seed ++ leBytes 4 (c.epochOf n) ++ leBytes 2 c.params.streamId ++ leBytes 2 0 ++ leBytes 8 (n % 2 ^ 48) ++
    leBytes 4 c.params.rank ++ leBytes 4 c.params.world ++ leBytes 4 b ++ leBytes 4 c.params.budgetOf ++
    leBytes 8 c.params.graph ++ leBytes 8 offs.2 ++ leBytes 8 (c.params.rank + idx * b * c.params.world) ++
    leBytes 8 c.sampleCount ++ leBytes 4 idx ++ leBytes 2 (entries.filter (·.substituted)).length ++
    leBytes 2 (entries.filter (·.isVoid)).length ++ leBytes 12 0
  let rest := table ++ entries.flatMap SlotEntry.bytes
  let pad := List.replicate (formeHeader b - 0x180 - 16 * b) 0
  let crc := crc32c (head ++ leBytes 4 0 ++ rest ++ pad)
  let sections := (List.range g.sections.length).flatMap (fun i => match g.sections[i]? with
    | some x =>
      let body := if x.kind = 1 then slotSection x.stride i os
        else match groups.find? (fun y => y.2.1.tag == x.tag) with
          | some y => textSection x.kind y.2.1.context (pads y.2.2.1) (groupRows y.2.1.rows y.2.2.2.2 y.2.2.2.1)
          | none => []
      let len := sectLength x b
      slice body 0 (roundUp len 256)
    | none => [])
  head ++ leBytes 4 crc ++ rest ++ pad ++ sections

end Sys2Proof.Machine
end

