-- ==== Sys2Proof/Machine/Streams.lean ====
section
/-! DEFINITION. The commands of streams: opening and closing, parameters, candidates and their stages, credit, and the
hand-over of formes (R64, R70-R108, R224-R233). -/

namespace Sys2Proof.Machine

/-- What a Stream Open has found so far: its effective block, the snapshot, the graph and the replay's place. -/
structure OpenPlan where
  params : StreamParams
  sampleCount : Nat := 0
  sigCount : Nat := 0
  manifestLba : Nat := 0
  sigTableLba : Nat := 0
  paramLba : Nat := 0
  paramLength : Nat := 0
  graph : Graph := { fields := [], sections := [] }
  replayId : Option Nat := none
  replayStart : Nat := 0
  replayEnd : Nat := 0
  deriving DecidableEq, Repr

/-- The record at which a replay starts (R107). -/
def State.replayRecord (s : State) (p : StreamParams) : Option WRecord :=
  if p.replay then
    (s.witnessLog p.witnessNsid).1.find? (fun r => r.seq == p.replayFrom && r.type == 1 && r.crcOk)
  else none

/-- The block a replayed stream runs under (R107): the recorded one, but for the fields the opening block keeps. -/
def StreamParams.replaying (p was : StreamParams) : StreamParams :=
  { was with
    streamId := p.streamId, consumer := p.consumer, replayFrom := p.replayFrom, witnessNsid := p.witnessNsid,
    flags := was.flags % 2 + p.flags / 2 % 4 * 2 + was.flags / 8 * 8 }

/-- Check 3 of R70 for a snapshot: its descriptor, read and in order (R52). -/
def State.snapshotPlan (s : State) (p : StreamParams) (o : OpenPlan) : Option OpenPlan :=
  match s.nsSeen p.nsid with
  | none => none
  | some n =>
    if p.descLba ≥ n.cap * 4 || !s.nsReadable p.nsid (p.descLba * 4096) 4096 then none
    else
      let d := s.nsBytes p.nsid (p.descLba * 4096) 4096
      if descriptorOk d p.snapshotId then
        some { o with
          sampleCount := leField d 0x18 8, sigCount := leField d 0x20 4, manifestLba := leField d 0x28 8,
          sigTableLba := leField d 0x30 8, paramLba := leField d 0x38 8, paramLength := leField d 0x40 8 }
      else none

/-- An enabled ingest channel that no open stream is bound to (R240). -/
def State.channelFree (s : State) (c : Nat) : Bool :=
  decide (c < 64) && s.regFld (decBase + 0x10000 + c * 0x40) 0 1 == 1 &&
    !s.streamEng.ctxs.any (fun x => x.2.params.live && x.2.params.nsid == c)

/-- Check 5 of R70, with what R66, R419 and R480 add to it. `len` is the forme length, once the graph is known. -/
def State.shapeOk (s : State) (b : List Byte) (p : StreamParams) (n : Nat) (len : Option Nat) : Bool :=
  let f := p.formesOf n
  decide (p.flags < 16) && zerosAt b 0x60 0x20 && decide (1 ≤ p.world ∧ p.world ≤ 16777216) && decide (p.rank < p.world) &&
    decide (1 ≤ p.slots ∧ p.slots ≤ 16384) && decide (p.slots ≤ p.windowOf ∧ p.windowOf ≤ 65536) &&
    decide (p.firstEpoch ≤ p.lastEpoch) && decide (1 ≤ f) &&
    (p.live || decide ((p.lastEpoch - p.firstEpoch + 1) * f ≤ 2 ^ 48)) &&
    (p.witness || p.replay || p.witnessNsid == 0) && (p.replay || p.replayFrom == 0) &&
    (!p.live || (p.world == 1 && p.rank == 0 && p.snapshotId == 0)) &&
    (p.consumer == 0 || (s.handle p.consumer).isSome) &&
    (match len with
     | some l => if p.consumer = 0 then decide (l ≤ 2 ^ 32 - 1) else decide (l ≤ 16777216)
     | none => true)

/-- Check 6 of R70: the stream-graph plate, the plates it names, and its vocabularies are resident. -/
def State.graphOf (s : State) (digest : Nat) : Option Graph :=
  match s.plateAt digest with
  | none => none
  | some pl =>
    match pl.graph with
    | none => none
    | some g =>
      if pl.kind = 2 && pl.refs.all (fun d => (s.plateAt d).isSome) &&
        g.stageRuns.all (fun d => match s.plateAt d with | some q => q.kind == 1 | none => false) &&
        g.fields.all (fun f => match f.text with
          | some t => s.text.vocabs.any (fun v => v.digest == t.vocab)
          | none => true) then some g
      else none

/-- Bytes of a STREAM_OPEN witness record. -/
def openRecordLen : Nat := 160

/-- Check 7 of R70, in its order; none passes. A group stream's witness namespace must be the group's (R539). -/
def State.witnessCheck (s : State) (p : StreamParams) : Option Status :=
  if !p.witness && !p.replay then none
  else if p.witness && !p.live && s.memberNs p.nsid && !s.memberNs p.witnessNsid then some 0x0E0A
  else match s.nsSeen p.witnessNsid with
    | none => some 0x0302
    | some n =>
      let log := s.witnessLog p.witnessNsid
      let fresh := p.witness && !s.streamWitness p.witnessNsid
      if p.witness && n.isSealed then some 0x0303
      else if (fresh || (p.replay && (s.replayRecord p).isNone)) && log.2.2 then some 0x0408
      else
        let e := if fresh then log.2.1 else s.witnessEnd p.witnessNsid
        if p.witness && (s.media.health.worn || decide (e + openRecordLen > n.cap * 16384)) then some 0x040B
        else if p.replay && (s.replayRecord p).isNone then some 0x040C
        else none

/-- How far a replay reads (R107, R108): to the end of the log at open; past a block that cannot be read then, when nothing
appends to the log, to the end of the namespace, so that the records beyond it are read once it is repaired. -/
def State.replayLimit (s : State) (p : StreamParams) : Nat :=
  if p.witness || s.streamWitness p.witnessNsid then
    (if s.streamWitness p.witnessNsid then s.witnessEnd p.witnessNsid else (s.witnessLog p.witnessNsid).2.1)
  else
    let log := s.witnessLog p.witnessNsid
    if log.2.2 then ((s.nsSeen p.witnessNsid).map (·.cap)).getD 0 * 16384 else log.2.1

/-- Checks 1 to 7 of R70. -/
def State.openChecks (s : State) (b : List Byte) : Except Status OpenPlan :=
  let op := streamParams b
  let rcd := s.replayRecord op
  let p := match rcd with | some r => op.replaying (streamParams r.payload) | none => op
  let used : Nat := s.streamEng.ctxs.foldl (fun a x => a + x.2.params.windowOf) 0
  if s.trust.zeroised then .error 0x0F08
  else if (s.ctxByStream p.streamId).isSome then .error 0x0401
  else if decide (s.streamEng.ctxs.length ≥ 512) || decide (used + p.windowOf > 1048576) then .error 0x0407
  else match (if p.live then none else s.mediaGate) with
    | some st => .error st
    | none =>
    match (if !p.live && s.memberNs p.nsid then s.groupGate else none) with
    | some st => .error st
    | none =>
    let o : OpenPlan := { params := p }
    match (if p.live then (if s.channelFree p.nsid then some o else none) else s.snapshotPlan p o) with
    | none => .error 0x0403
    | some o =>
      if !p.live && !s.nsSealedDone p.nsid then .error 0x0404
      else
        let g := s.graphOf p.graph
        if !s.shapeOk b p o.sampleCount (g.map (fun g => graphFormeLength g p.slots)) then .error 0x0405
        else match g with
          | none => .error 0x0406
          | some g =>
            match s.witnessCheck p with
            | some st => .error st
            | none => .ok { o with
                graph := g, replayId := rcd.map (fun (r : WRecord) => leField r.payload 0 2),
                replayStart := (rcd.map (fun (r : WRecord) => r.off + r.len)).getD 0,
                replayEnd := if rcd.isSome then s.replayLimit p else 0 }

/-- The run descriptor of a stage run (R102, R343): DEVICE_COUNT 1, the stream's SEED, the plate's mode, QUEUE 0. -/
def State.stageDesc (s : State) (digest seed : Nat) : List Byte :=
  let slow := ((s.plateAt digest).map (·.slowFire)).getD false
  leBytes 8 digest ++ leBytes 8 seed ++ leBytes 8 0 ++ leBytes 1 (bitOf slow) ++ leBytes 1 0 ++ leBytes 2 0 ++ leBytes 4 0 ++
    leBytes 16 0 ++ leBytes 12 0 ++ leBytes 4 1 ++ leBytes 8 0 ++ leBytes 24 0 ++ leBytes 32 0

/-- Starts stage runs of a context in order; the first refusal stops it (R70 check 8, R686). -/
def State.startStages (s : State) (c seed : Nat) : List Nat → Status × List Nat × State
  | [] => (0, [], s)
  | d :: ds =>
    let r := s.startRun (.stream c) { desc := s.stageDesc d seed, args := [], tables := [] }
    if r.1 ≠ 0 then (r.1, [], s)
    else
      let s' := r.2.2.2.updRun r.2.2.1 (fun x => { x with stage := some c })
      let t := s'.startStages c seed ds
      (t.1, r.2.2.1 :: t.2.1, t.2.2)

/-- The lowest free stream context. -/
def State.freeCtx (s : State) : Nat :=
  ((List.range 512).find? (fun c => !s.streamEng.ctxs.any (fun x => x.1 == c))).getD 0

/-- The result of a Stream Open or Close: at once, or for a group stream once a quorum has stored the stream table
entry or its removal (R540). -/
def State.tableReply (s : State) (p : ReqPath) (group : Bool) (params : StreamParams) (ctx : Nat) (removal : Bool)
    (res : List Nat) : State :=
  if group then
    let e : GroupStream := {
      params := params, ctx := ctx, primary := s.group.self, partner := (s.partnerOf s.group.self).getD 127 }
    let s := { s with group := { s.group with
      tableWaits := s.group.tableWaits ++ [(p, e, removal, res, [s.group.self])] } }
    s.groupCast 7 [params.streamId, bitOf removal, ctx, e.primary, e.partner]
  else s.reply p 0 0 res

/-- The context of a stream that opens, with its stage runs. -/
def State.planCtx (s : State) (o : OpenPlan) (runs : List Nat) : StreamCtx := {
  isOpen := true, params := o.params, diag := s.regFld (wdgBase + 4) 0 1 == 1, sampleCount := o.sampleCount,
  sigCount := o.sigCount, manifestLba := o.manifestLba, sigTableLba := o.sigTableLba, paramLba := o.paramLba,
  paramLength := o.paramLength, graph := o.graph, formes := o.params.formesOf o.sampleCount, stageRuns := runs,
  replayId := o.replayId, replayStart := o.replayStart, replayEnd := o.replayEnd,
  formeLength := graphFormeLength o.graph o.params.slots }

/-- A context is taken, its counters at 0 (R99). -/
def State.takeCtx (s : State) (c : Nat) (x : StreamCtx) : State :=
  { s with streamEng := { s.streamEng with
      ctxs := s.streamEng.ctxs ++ [(c, x)], past := s.streamEng.past.filter (fun y => y.1 != c) } }

/-- STREAM_OPEN (R70): refused with no context created, or open at its first forme. -/
def State.streamOpen (s : State) (p : ReqPath) (b : List Byte) : State :=
  match s.openChecks b with
  | .error st => s.reply p st
  | .ok o =>
    let c := s.freeCtx
    let st := s.startStages c o.params.seed o.graph.stageRuns
    if st.1 ≠ 0 then s.reply p st.1
    else
      let x := s.planCtx o st.2.1
      let t := st.2.2
      let ns := o.params.witnessNsid
      let t := if o.params.witness && !t.streamWitness ns then t.setWitnessEnd ns (s.witnessLog ns).2.1 else t
      let w := if o.params.witness then t.witnessWrite ns 1 o.params.streamId 0 o.params.bytes else some t
      match w with
      | none => s.reply p 0x040B
      | some t =>
        let t := t.takeCtx c x
        t.tableReply p (t.groupCtx x) o.params c false [c]

def execStreamOpen (p : ReqPath) (block : List Byte) (s : State) : Host.Outcome State Fault Refusal :=
  .next (s.streamOpen p block)

/-- A request on a stream is refused: a status of class 0x04 shows in the context (R98). -/
def State.streamRefuse (s : State) (p : ReqPath) (c : Nat) (st : Status) : State :=
  (if st.toNat / 256 = 4 then s.updCtx c (fun x => { x with status := st }) else s).reply p st

/-- A place for the galley of forme n (R85, R494): a buffer of class GALLEY while no backpressure holds, else bulk memory. -/
def State.galleyPlace (s : State) (size : Nat) : Option (Nat × Nat) × State :=
  let home := homePool size
  if size > 2 ^ 23 || s.backpressure 0 0 home then (none, s)
  else match s.poolPick 0 home 0 with
    | none => (none, s.noGrant 0 size)
    | some q =>
      let i := s.leastBuf 0 q
      (some (q, i), s.poolGive 0 q i 0 0 0 home)

/-- The galley that a slot of forme n is written to. -/
def State.galleyTake (s : State) (c : Nat) (x : StreamCtx) (n : Nat) : State :=
  if x.galleys.any (fun y => y.n == n) then s
  else
    let r := s.galleyPlace x.formeLength
    r.2.updCtx c (fun x => { x with galleys := x.galleys ++ [{ n := n, place := r.1 }] })

/-- Galleys leave the staging store: those of the formes that `gone` holds of. -/
def State.galleysDrop (s : State) (c : Nat) (gone : Nat → Bool) : State :=
  match s.ctxOf c with
  | none => s
  | some x =>
    let s := s.updCtx c (fun x => { x with galleys := x.galleys.filter (fun (y : Galley) => !gone y.n) })
    (x.galleys.filter (fun (y : Galley) => gone y.n)).foldl (fun s y => match y.place with
      | some (q, i) => s.poolReturn { die := 0, pool := q, index := i, cls := 0, port := 0, unit := 0 }
      | none => s) s

/-- STREAM_CLOSE (R90, R686): the stage runs stop with 0x090E, waiting Forme Reads end with 0x0402, and the stream
closes once the formes handed to egress have completed. -/
def State.streamClose (s : State) (p : ReqPath) (id : Nat) : State :=
  match s.ctxByStream id with
  | none => s.reply p 0x0402
  | some (c, x) =>
    if x.closing.isSome then s.reply p 0x0402
    else
      let s := (s.galleysDrop c (fun _ => true)).updCtx c (fun x => { x with closing := some p, formeReads := [], slots := [] })
      let s := x.stageRuns.foldl (fun s slot => s.endRun slot 0x090E) s
      x.formeReads.foldl (fun s q => s.reply q 0x0402) s

def execStreamClose (p : ReqPath) (id : Nat) (s : State) : Host.Outcome State Fault Refusal := .next (s.streamClose p id)

/-- Frees a context (R90, R372); its witness log gets STREAM_CLOSE, whose KEY is the last forme handed to egress (R105), and
its counters stay readable until the context is opened again (R99). -/
def State.freeCtxOf (s : State) (c : Nat) (x : StreamCtx) : State :=
  let s := if x.params.witness then
      (s.witnessWrite x.params.witnessNsid 5 x.params.streamId (x.lastSent.getD (2 ^ 64 - 1)) []).getD s
    else s
  let mine := (s.sync.ctrs.filter (fun y => match y.2.owner with
    | some (.stream k _) => k == c
    | _ => false)).map (·.1)
  let s := mine.foldl (fun s n => s.freeCounter n) s
  { s with streamEng := { s.streamEng with
      ctxs := s.streamEng.ctxs.filter (fun y => y.1 != c), past := s.streamEng.past ++ [(c, x.ctr, x.ovf)] } }

/-- A forme handed to egress has not completed: its message is under way, and has not ended with a refusal (R90, R480). -/
def State.formeFlies (s : State) (c n : Nat) : Bool :=
  s.gnoz.out.any (fun m => (match m.owner with | .forme k i => k == c && i == n | _ => false) && !m.ended)

/-- STREAM_CLOSE_COMPLETE (R90). -/
def State.streamCloseComplete (s : State) (c : Nat) : State :=
  match s.ctxOf c with
  | none => s
  | some x =>
    match x.closing with
    | none => s
    | some p =>
      if x.inEgress.any (fun n => s.formeFlies c n) || x.held.any (fun h => h.path.isSome) then s
      else
        let g := s.groupCtx x
        (s.freeCtxOf c x).tableReply p g x.params c true [0]

def execStreamCloseComplete (c : Nat) (s : State) : Host.Outcome State Fault Refusal := .next (s.streamCloseComplete c)

/-- Records of a parameter push or file: EPOCH, FOLIO and the entry (R226). -/
def pushRecord (b : List Byte) : PushRecord := { epoch := leField b 0 4, folio := leField b 8 8, entry := slice b 0x10 64 }

/-- The CRC of a parameter record. -/
def recordCrcOk (b : List Byte) : Bool := leField b 4 4 == crc32c (b.take 4 ++ [0, 0, 0, 0] ++ b.drop 8)

def anyEpoch : Nat := 0xFFFFFFFF
def anyFolio : Nat := 0xFFFFFFFFFFFFFFFF

/-- Records of the push store in use on the device (R232, R244). -/
def State.pushesHeld (s : State) : Nat :=
  s.streamEng.ctxs.foldl (fun a x => if x.2.params.replay then a else a + x.2.pushes.length) 0

/-- Check 2 of R230. -/
def pushFormOk (b : List Byte) : Bool :=
  let n := leField b 8 4
  leField b 0 4 == 0x50555348 && leField b 4 2 == 1 && decide (n ≤ 65536) && decide (leField b 0xC 4 < 2) &&
    zerosAt b 0x14 8 && b.length == 32 + 80 * n &&
    leField b 0x1C 4 == crc32c (b.take 0x1C ++ [0, 0, 0, 0] ++ b.drop 0x20) &&
    (List.range n).all (fun i => recordCrcOk (slice b (32 + 80 * i) 80))

/-- No two records of a list share a key. -/
def keysDistinct : List PushRecord → Bool
  | [] => true
  | r :: rs => !rs.any (fun q => q.epoch == r.epoch && q.folio == r.folio) && keysDistinct rs

/-- Epoch e is complete (R231). -/
def StreamCtx.complete (c : StreamCtx) (e : Nat) : Bool :=
  c.params.replay || (match c.completeEpoch with | some m => decide (e ≤ m) | none => false)

/-- A record is admissible under R231. -/
def StreamCtx.admissible (c : StreamCtx) (r : PushRecord) : Bool :=
  let held (e f : Nat) : Bool := c.pushes.any (fun q => q.epoch == e && q.folio == f)
  if r.epoch = anyEpoch then !c.complete c.params.firstEpoch
  else if c.complete r.epoch then
    (match c.halted with | some (st, _) => st == 0x0409 | none => false) && r.folio != anyFolio &&
      !held r.epoch r.folio && !held anyEpoch r.folio
  else true

/-- An accepted push is stored (R230, R231, R233): each record is witnessed first; COMPLETE_EPOCH only rises. -/
def State.storePush (s : State) (p : ReqPath) (c : Nat) : List PushRecord → Option Nat → State
  | [], e =>
    (s.updCtx c (fun x => { x with
      completeEpoch := match e, x.completeEpoch with
        | some n, some m => some (max n m)
        | some n, none => some n
        | none, m => m })).reply p 0
  | r :: rs, e =>
    match s.witnessAppend c 2 r.folio (leBytes 4 r.epoch ++ leBytes 4 0 ++ r.entry) with
    | (false, s) => s.streamRefuse p c 0x040B
    | (true, s) => (s.updCtx c (fun x => { x with pushes := x.pushes ++ [r] })).storePush p c rs e

/-- The witness namespace of a stream has room for the records of a push, so that it is stored whole or not at all. -/
def State.pushRoom (s : State) (x : StreamCtx) (n : Nat) : Bool :=
  !x.params.witness || (match s.nsSeen x.params.witnessNsid with
    | some i => !s.media.health.worn && !s.mediaStopped && decide (s.witnessEnd x.params.witnessNsid + 128 * n ≤ i.cap * 16384)
    | none => false)

/-- STREAM_PARAMETERS (R230): the push is refused whole by the first failing check, or accepted whole; a group stream's
push waits for its mirror (R541). A replayed stream ignores it (R107). -/
def State.streamParameters (s : State) (p : ReqPath) (b : List Byte) : State :=
  match s.ctxByStream (leField b 6 2) with
  | none => s.reply p 0x0402
  | some (c, x) =>
    let n := leField b 8 4
    let rs := (List.range n).map (fun i => pushRecord (slice b (32 + 80 * i) 80))
    let e := if leField b 0xC 4 = 1 then some (leField b 0x10 4) else none
    if x.closing.isSome then s.reply p 0x0402
    else if !pushFormOk b || x.paramLba != 0 then s.streamRefuse p c 0x050D
    else if x.params.replay then s.reply p 0
    else if !keysDistinct rs || rs.any (fun r => x.pushes.any (fun q => q.epoch == r.epoch && q.folio == r.folio)) then
      s.streamRefuse p c 0x050B
    else if !rs.all x.admissible then s.streamRefuse p c 0x050A
    else if s.pushesHeld + n > 67108864 then s.streamRefuse p c 0x050C
    else if !s.pushRoom x n then (s.haltStream c 0x040B x.next).streamRefuse p c 0x040B
    else if s.groupCtx x && (s.partnerOf s.group.self).isSome then
      { s with group := { s.group with pushWaits := s.group.pushWaits ++ [(p, c, rs, e)] } }.groupSend 6
        ((s.partnerOf s.group.self).getD s.group.self) [x.params.streamId, n]
    else s.storePush p c rs e

def execStreamParameters (p : ReqPath) (push : List Byte) (s : State) : Host.Outcome State Fault Refusal :=
  .next (s.streamParameters p push)

/-- A live stream's decode goes on from what it was at slot g (R89, R239, R241). -/
def StreamCtx.rewind (x : StreamCtx) (g : Nat) (hist : List LiveHist) : StreamCtx :=
  match hist.find? (fun h => h.g == g) with
  | some h => { x with liveNal := h.nal, needRandom := h.needRandom, decodedUnits := h.decodedUnits, roiCentre := h.roiCentre }
  | none => x

/-- A stream goes on from forme m (R89): galleys at or above m are discarded. Ended stage runs start afresh; when one
cannot, the stream stays as it was, with that status (R686). -/
def State.resumeAt (s : State) (c : Nat) (x : StreamCtx) (m : Nat) : Status × State :=
  let t := s.startStages c x.params.seed (x.endedRuns.map (·.1))
  if t.1 ≠ 0 then (t.1, s)
  else (0, (t.2.2.galleysDrop c (fun _ => true)).updCtx c (fun x => { x with
    stageRuns := x.stageRuns ++ t.2.1, endedRuns := [], halted := none, next := m, done := x.done && m == x.next, slots := [],
    liveHist := x.liveHist.filter (fun (h : LiveHist) => decide (h.g < m * x.params.slots)) }.rewind (m * x.params.slots) x.liveHist))

/-- a is b or later (R17): not earlier, and not unordered. -/
def seqFrom (n a b : Nat) : Bool := a % 2 ^ n == b % 2 ^ n || seqEarlier n b a

/-- STREAM_RESUME (R89). -/
def State.streamResume (s : State) (p : ReqPath) (id m : Nat) : State :=
  match s.ctxByStream id with
  | none => s.reply p 0x0402
  | some (c, x) =>
    if x.closing.isSome then s.reply p 0x0402
    else if !(seqFrom 48 m x.ack && seqFrom 48 x.next m) then s.streamRefuse p c 0x040E
    else
      let r := s.resumeAt c x m
      if r.1 ≠ 0 then s.streamRefuse p c r.1 else r.2.reply p 0

def execStreamResume (p : ReqPath) (id m : Nat) (s : State) : Host.Outcome State Fault Refusal :=
  .next (s.streamResume p id m)

/-- A decoder fault on a candidate fills DEC_LAST_FAULT and is counted (R215, R244). -/
def State.decoderFault (s : State) (st : Status) (streamId folio tag content : Nat) : State :=
  let s := s.setReg (decBase + 0x10) (BitVec.ofNat 32 (st.toNat + streamId * 65536))
  let s := s.setReg (decBase + 0x14) (BitVec.ofNat 32 folio)
  let s := s.setReg (decBase + 0x18) (BitVec.ofNat 32 (folio / 2 ^ 32))
  let s := s.setReg (decBase + 0x1C) (BitVec.ofNat 32 (tag + content * 65536))
  let i := if st = 0x0503 then 5 else if st = 0x0507 then 6 else 4
  s.bump (decBase + 0x20 + 4 * i) (decBase + 0x3C) i

/-- A buffer of class DECODE for an output that a unit writes, held while it does: of the staging store when the pool grants
one, else in bulk memory (R201, R494). -/
def State.decodeBuffer (s : State) (port unit size : Nat) : State :=
  if size = 0 ∨ size > 2 ^ 23 ∨ s.backpressure 0 1 (homePool size) then s else (s.poolPass 0 1 port unit size).2

/-- What the work on a candidate shows outside its slot takes place. -/
def State.showEffect (s : State) (x : StreamCtx) (folio : Nat) : CandEffect → State
  | .fault st tag content => s.decoderFault st x.params.streamId folio tag content
  | .decoded cls => s.bump (decBase + 0x20 + 4 * cls) (decBase + 0x3C) cls
  | .text invalid breaks passed =>
    let s := s.vocabLookups.bumpBy (tokBase + 0x30) (tokBase + 0x3C) 4 invalid
    let s := s.bumpBy (tokBase + 0x34) (tokBase + 0x3C) 5 breaks
    if passed then s.bump (tokBase + 0x20) (tokBase + 0x3C) 0 else s
  | .reconstruct addr len => s.countReconstructs x.params.nsid addr len
  | .packed ok => s.jobCount (if ok then 0 else 0x0701)
  | .buffer port unit size => s.decodeBuffer port unit size

def State.updSlot (s : State) (c g : Nat) (f : Slot → Slot) : State :=
  s.updCtx c (fun x => { x with slots := x.slots.map (fun (y : Slot) => if y.g = g then f y else y) })

def State.updCand (s : State) (c g j : Nat) (f : Candidate → Candidate) : State :=
  s.updSlot c g (fun y => { y with cands := y.cands.map (fun (z : Candidate) => if z.j = j then f z else z) })

/-- The cause of candidate 0. -/
def Slot.cause0 (y : Slot) : SlotCause :=
  match y.cands.find? (fun (z : Candidate) => z.j == 0) with
  | some z => (match z.status with | .failed c => c | _ => .noFailure)
  | none => .noFailure

/-- The outcome of a slot once it is decided (R72, R77): the candidate it took, its entry and its outputs. -/
def Slot.verdict (y : Slot) (live : Bool) : Option (Nat × SlotEntry × List (Nat × List Sample)) :=
  let passed := y.cands.find? (fun (z : Candidate) => z.status == .passed && y.failedBelow z.j)
  let c0 := y.cause0
  match passed with
  | some z => some (z.j, {
      folio := z.folio, substituted := decide (z.j ≥ 1), rejected := decide (z.j ≥ 1) && c0 == .sieve, depth := z.j,
      cause := if z.j = 0 then .noFailure else c0 }, z.outputs)
  | none =>
    if live then
      (match y.cands with
       | [z] => (match z.status with
         | .failed k => some (0, { folio := z.folio, isVoid := true, rejected := k == .sieve, cause := k }, [])
         | _ => none)
       | _ => none)
    else if y.failedBelow 9 then
      some (8, { folio := 2 ^ 64 - 1, isVoid := true, rejected := c0 == .sieve, depth := 8, cause := c0 }, [])
    else none

/-- A slot with an outcome is written to its galley and counted (R77, R84, R99). -/
def State.resolveSlot (s : State) (c g : Nat) : State :=
  match s.ctxOf c with
  | none => s
  | some x =>
    match x.slotAt g with
    | none => s
    | some y =>
      if y.outcome.isSome then s
      else match y.verdict x.params.live with
        | none => s
        | some (j, e, out) =>
          let upTo := y.cands.filter (fun (z : Candidate) => decide (z.j ≤ j))
          let n (k : SlotCause) : Nat := (upTo.filter (fun (z : Candidate) => z.status == CandState.failed k)).length
          let s := s.updSlot c g (fun y => { y with outcome := some (e, out), cands := [] })
          s.updCtx c (fun x =>
            (((x.bump 0 (bitOf e.substituted)).bump 1 (bitOf e.isVoid)).bump 2 (n .sieve)).bump 3 (n .budget))

/-- The candidate of a slot, and where its work lies. -/
def State.candAt (s : State) (c g j : Nat) : Option (StreamCtx × Slot × Candidate) :=
  match s.ctxOf c with
  | none => none
  | some x =>
    match x.slotAt g with
    | none => none
    | some y =>
      if y.outcome.isSome then none
      else (y.cands.find? (fun (z : Candidate) => z.j == j && z.status == .working)).map (fun z => (x, y, z))

/-- Candidate j of slot g (R68, R72). -/
def StreamCtx.newCand (x : StreamCtx) (g j : Nat) : Candidate :=
  if x.params.live then { j := 0, folio := g }
  else { j := j, folio := (x.wedge (x.epochOf (g / max x.params.slots 1))).candidate (x.posOf g) j }

/-- The effects of a candidate's work: at once when it is the one that is tried now, else kept until it is (R73). -/
def State.candEffects (s : State) (c g j : Nat) (es : List CandEffect) : State :=
  match s.candAt c g j with
  | none => s
  | some (x, y, z) =>
    if y.failedBelow j then es.foldl (fun s e => s.showEffect x z.folio e) s
    else s.updCand c g j (fun z => { z with effects := z.effects ++ es })

/-- The effects kept of the candidates that are tried now, in their order. -/
def State.showKept (s : State) (c g : Nat) : State :=
  match s.ctxOf c with
  | none => s
  | some x =>
    match x.slotAt g with
    | none => s
    | some y =>
      let due := ((List.range 9).filter y.failedBelow).filterMap (fun j => y.cands.find? (fun (z : Candidate) => z.j == j))
      let s := due.foldl (fun s z => z.effects.foldl (fun s e => s.showEffect x z.folio e) s) s
      s.updSlot c g (fun y => { y with cands := y.cands.map (fun (z : Candidate) => if y.failedBelow z.j then { z with effects := [] } else z) })

/-- The candidate of a slot that is tried now needs a stage run that has ended: the stream halts at its forme (R686). -/
def State.haltEnded (s : State) (c g : Nat) : State :=
  match s.ctxOf c with
  | none => s
  | some x => match x.endedRuns.find? (fun e => (x.slotAt g).isSome && !x.slotLeft e.1 g) with
    | some (_, st) => s.haltStream c st (g / max x.params.slots 1)
    | none => s

/-- A candidate fails (R74): unless the sample is live, the next candidate of the slot is tried (R72). -/
def State.failCand (s : State) (c g j : Nat) (k : SlotCause) : State :=
  let s := s.updCand c g j (fun z => { z with status := .failed k })
  let s := match s.ctxOf c with
    | some x => (match x.slotAt g with
      | some y =>
        if x.params.live || decide (j ≥ 8) || y.cands.any (fun (z : Candidate) => z.j == j + 1) then s
        else s.updSlot c g (fun y => { y with cands := y.cands ++ [x.newCand g (j + 1)] })
      | none => s)
    | none => s
  ((s.showKept c g).resolveSlot c g).haltEnded c g

/-- A stream may work on slot g (R83): in its window, in its epochs, below the forme it is halted at. -/
def StreamCtx.mayStart (x : StreamCtx) (g : Nat) : Bool :=
  x.isOpen && x.closing.isNone && !x.done && decide (x.g0 ≤ g ∧ g < x.g0 + x.params.windowOf) &&
    (x.params.live || decide (g < x.total * x.params.slots)) &&
    (match x.halted with | some (_, n) => decide (g / max x.params.slots 1 < n) | none => true)

/-- The unit a live unit's bytes hold (R237). -/
def liveUnitOf (b : List Byte) : LiveUnit :=
  let f := leField b 5 1
  { channel := leField b 4 1, gap := f.testBit 0, byMarker := f.testBit 1, randomAccess := f.testBit 3,
    packets := leField b 6 2, timestamp := leField b 8 4, firstSeq := leField b 0xC 2, lastSeq := leField b 0xE 2,
    ssrc := leField b 0x14 4, nal := b.drop 0x20 }

def liveUnitBytes (u : LiveUnit) : List Byte :=
  leBytes 4 0x4C495645 ++ leBytes 1 u.channel ++
    leBytes 1 (bitOf u.gap + 2 * bitOf u.byMarker + 4 * bitOf (!u.byMarker) + 8 * bitOf u.randomAccess) ++
    leBytes 2 u.packets ++ leBytes 4 u.timestamp ++ leBytes 2 u.firstSeq ++ leBytes 2 u.lastSeq ++ leBytes 4 u.nal.length ++
    leBytes 4 u.ssrc ++ leBytes 8 0 ++ u.nal

/-- The records of a replayed stream (R107, R108): up to its STREAM_CLOSE or the next STREAM_OPEN of its ID, and whether
an unreadable block ends them. -/
def recordsUntil (id : Nat) : List WRecord → Bool → List WRecord × Bool
  | [], u => ([], u)
  | r :: rs, u =>
    if r.streamId ≠ id then recordsUntil id rs u
    else if r.type = 1 then ([], false)
    else if r.type = 5 then ([r], false)
    else
      let t := recordsUntil id rs u
      (r :: t.1, t.2)

def State.replayRecords (s : State) (x : StreamCtx) : List WRecord × Bool :=
  let t := s.witnessScan x.params.witnessNsid x.replayEnd x.replayStart (x.replayEnd / 32 + 1)
  recordsUntil (x.replayId.getD 0) t.1 t.2.2

/-- A live unit with its folio is there for the stream, or the stream halts (R108, R238). -/
def State.takeLive (s : State) (c : Nat) (x : StreamCtx) (g : Nat) : Option LiveUnit × State :=
  match x.live.find? (fun u => u.1 == g) with
  | some (_, u) => (some u, s)
  | none =>
    if !x.params.replay then (none, s)
    else
      let n := g / max x.params.slots 1
      let t := s.replayRecords x
      match t.1.find? (fun r => r.type == 3 && r.key == g) with
      | none => (none, s.haltStream c (if t.2 then 0x0408 else 0x040C) n)
      | some r =>
        if !r.crcOk then (none, s.haltStream c 0x040C n)
        else match s.witnessAppend c 3 g r.payload with
          | (false, s) => (none, s)
          | (true, s) =>
            let u := liveUnitOf r.payload
            (some u, s.updCtx c (fun x => { x with live := x.live ++ [(g, u)], nextFolio := g + 1 }))

/-- The centre that MOTION steers to from the last two decoded units (R241). -/
def StreamCtx.motion (x : StreamCtx) : Option (Nat × Nat) :=
  match x.graph.roi, x.decodedUnits with
  | some (.motion t), [q, p] => (motionCentre t p q).orElse (fun _ => x.roiCentre)
  | _, _ => x.roiCentre

/-- A slot enters the window, and the galley of its forme has a place (R84, R85). -/
def State.addSlot (s : State) (c : Nat) (x : StreamCtx) (y : Slot) : State :=
  (s.galleyTake c x (y.g / max x.params.slots 1)).updCtx c (fun x => { x with slots := x.slots ++ [y] })

/-- CANDIDATE_START (R72, R83): the slot enters the window with the candidate, or at once becomes a tail void (R67). A
live slot waits for its unit and is taken in folio order. -/
def State.candidateStart (s : State) (c g j : Nat) : State :=
  match s.ctxOf c with
  | none => s
  | some x =>
    if !x.mayStart g || decide (j > 8) || s.blockHeld 5 then s
    else if x.params.live then
      if (x.slotAt g).isSome || decide (j > 0) ||
        !(List.range (g - x.g0)).all (fun i => match x.slotAt (x.g0 + i) with | some y => y.outcome.isSome | none => false)
      then s
      else match s.takeLive c x g with
        | (none, s) => s
        | (some _, s) =>
          (s.updCtx c (fun x => { x with
            liveHist := x.liveHist ++ [{
              g := g, nal := x.liveNal, needRandom := x.needRandom, decodedUnits := x.decodedUnits, roiCentre := x.roiCentre }],
            roiCentre := x.motion })).addSlot c x { g := g, cands := [x.newCand g 0] }
    else if x.posOf g ≥ x.sampleCount then
      if (x.slotAt g).isSome then s
      else
        (s.addSlot c x {
          g := g, cands := [],
          outcome := some ({ folio := 2 ^ 64 - 1, isVoid := true, tail := true, cause := .tail }, []) }).updCtx c (fun x => x.bump 1 1)
    else match x.slotAt g with
      | none => s.addSlot c x { g := g, cands := [x.newCand g j] }
      | some y =>
        if y.outcome.isSome || y.cands.any (fun (z : Candidate) => z.j == j) then s
        else s.updSlot c g (fun y => { y with cands := y.cands ++ [x.newCand g j] })

def execCandidateStart (c g j : Nat) (s : State) : Host.Outcome State Fault Refusal := .next (s.candidateStart c g j)

/-- A candidate's stage passes with its new total; after the last stage the candidate has passed (R72). -/
def State.passStage (s : State) (c g j wu : Nat) (f : Candidate → Candidate) : State :=
  let n := match s.ctxOf c with | some x => (graphStages x.graph).length | none => 0
  let s := s.updCand c g j (fun z =>
    let z := f z
    { z with wu := wu, stage := z.stage + 1, status := if z.stage + 1 ≥ n then .passed else .working })
  s.resolveSlot c g

/-- The codec of a live stream as a CONTENT code. -/
def State.liveContent (s : State) (x : StreamCtx) : Nat := if s.regFld (decBase + 0x10000 + x.params.nsid * 0x40) 1 1 = 1 then 4 else 3

/-- A candidate fails with a decoder fault (R215). -/
def State.failDecode (s : State) (c g j : Nat) (st : Status) (tag content : Nat) (k : SlotCause) : State :=
  (s.candEffects c g j [.fault st tag content]).failCand c g j k

/-- The record stage (R74, R80, R200, R685): check 1, the media-read charge, checks 2 to 7, and the field checks. A record that
cannot be read halts the stream once the candidate is the one tried (R73, R82). A live unit has no record; a GAP fails it, and
so do units after a GAP until one with RANDOM_ACCESS (R239). -/
def State.stageRecord (s : State) (c g j : Nat) (x : StreamCtx) (y : Slot) (z : Candidate) : State :=
  if x.params.live then
    match x.live.find? (fun u => u.1 == g) with
    | none => s
    | some (_, u) =>
      if u.gap then (s.updCtx c (fun x => { x with needRandom := true })).failDecode c g j 0x0504 0 (s.liveContent x) .decode
      else if x.needRandom && !u.randomAccess then s.failDecode c g j 0x0506 0 (s.liveContent x) .decode
      else s.passStage c g j z.wu (fun z => { z with record := u.nal })
  else match s.recordPlace x z.folio with
    | .unreadable => if y.failedBelow j then s.haltStream c 0x0408 (g / max x.params.slots 1) else s
    | .bad => s.failCand c g j .format
    | .at addr len =>
      let wu := z.wu + charge len 4096
      if wu > x.params.budgetOf then s.failCand c g j .budget
      else
        let r := s.nsBytes x.params.nsid addr len
        let s := s.candEffects c g j [.reconstruct addr len]
        match recordFault x.graph r len z.folio with
        | some k => s.failCand c g j k
        | none => s.passStage c g j wu (fun z => { z with record := r })

/-- The field with a TAG in a candidate's record: CODEC, CONTENT, DECODED_LENGTH and stored payload; of a live unit its NAL
data. -/
def State.fieldOf (s : State) (x : StreamCtx) (z : Candidate) (tag : Nat) : Nat × Nat × Nat × List Byte :=
  let r := z.record
  if x.params.live then (0, s.liveContent x, r.length, r)
  else match (List.range (leField r 4 2)).find? (fun i => leField r (0x2E + 32 * i) 2 == tag) with
    | some i => (leField r (0x2C + 32 * i) 1, leField r (0x2D + 32 * i) 1, leField r (40 + 32 * i) 4,
        slice r (leField r (32 + 32 * i) 4) (leField r (36 + 32 * i) 4))
    | none => (0, 0, 0, [])

/-- A field's samples go to its first operation, or to its section when it has none. -/
def keepField (f : GraphField) (xs : List Sample) (z : Candidate) : Candidate :=
  if f.ops.isEmpty then { z with outputs := z.outputs ++ [(f.sect, xs)], cur := [] } else { z with cur := xs }

/-- A text field is tokenised (R248, R267): its bytes after decompression, in the order of R685. -/
def State.stageText (s : State) (c g j : Nat) (x : StreamCtx) (f : GraphField) (t : TextSpec) (bytes : List Byte) (packed : Option Bool)
    (wu : Nat) : State :=
  match s.text.vocabs.find? (fun v => v.digest == t.vocab) with
  | none => s
  | some v =>
    let ev := tokenise v t bytes
    let es := if packed = some false then openText bytes.length ev.1 else ev.1
    let r := runText x.params.budgetOf packed bytes.length t.addBos t.addEos es wu 0 0 []
    match r.1 with
    | .fail k _ => (s.candEffects c g j [.text ev.2.1 ev.2.2 false]).failCand c g j k
    | .pass wu => (s.candEffects c g j [.text ev.2.1 ev.2.2 true]).passStage c g j wu (keepField f [.tokens r.2])

/-- A unit of a live stream has decoded: its NAL data precede those of the next, and what the region of interest needs of it is
kept (R239, R241). -/
def State.liveDecoded (s : State) (c : Nat) (nal : List Byte) (d : Decoded) (random : Bool) : State :=
  match d with
  | .video w h _ _ (p :: _) =>
    s.updCtx c (fun x => { x with
      liveNal := x.liveNal ++ nal, needRandom := x.needRandom && !random,
      roiCentre := some (x.roiCentre.getD (w / 2, h / 2)),
      decodedUnits := (x.decodedUnits ++ [(w, h, cellMeans w h p)]).drop (x.decodedUnits.length - 1) })
  | _ => s

/-- The last picture that a video field outputs (R211), from FIRST_FRAME and FRAME_STEP. -/
def lastPicture (f : GraphField) (first step : Nat) : Option Nat :=
  if f.frameCount = 0 then none else some (first + (f.frameCount - 1) * step)

/-- What the decode of a field shows outside its slot: the buffer for its samples, and the count of its class. -/
def decodeEffects (f : GraphField) (unit : Nat) (xs : List Sample) : List CandEffect :=
  match fieldUnits f with
  | some k => [.buffer (unitPort k unit) unit ((xs.map Sample.size).sum), .decoded (k - 1)]
  | none => []

/-- A field is decoded (R81, R200-R215, R685): its events are charged in order, and its samples kept. -/
def State.stageField (s : State) (c g j : Nat) (x : StreamCtx) (z : Candidate) (f : GraphField) (content unit : Nat)
    (bytes : List Byte) (packed : Option Bool) : State :=
  let e := z.entry.getD []
  let first := if f.frameEntry then leField e 0x14 4 else f.firstFrame
  let step := if f.frameEntry then leField e 0x12 2 else f.frameStep
  let fd := fieldDecode f content x.liveNal bytes (lastPicture f first step)
  match runDecode x.params.budgetOf packed bytes.length fd.events z.wu 0 0, fd.held with
  | .fail k st, _ => if st = 0 then s.failCand c g j k else s.failDecode c g j st f.tag content k
  | .pass _, none => s
  | .pass wu, some d =>
    match decodedSamples f first step d with
    | .error st => s.failDecode c g j st f.tag content (causeOf st)
    | .ok xs =>
      let s := s.candEffects c g j (decodeEffects f unit xs)
      let random := match x.live.find? (fun u => u.1 == g) with | some (_, u) => u.randomAccess | none => false
      let s := if x.params.live then s.liveDecoded c bytes d random else s
      s.passStage c g j wu (fun z => { keepField f xs z with fieldAt := (f.tag, content) })

/-- The units a decode stage needs are in service: a decoder of the field's class, a text lane, and an engine for a compressed
field (R185, R202, R603); until then its work waits. -/
def State.decodeUp (s : State) (f : GraphField) (codec : Nat) : Option Nat :=
  if codec != 0 && (List.range 32).all (fun e => s.cmp.oos.getLsbD e || s.unitHeld 0 6 e) then none
  else if f.text.isSome then if (List.range 64).all (fun l => s.text.oos.getLsbD l || s.unitHeld 4 7 l) then none else some 0
  else match fieldUnits f with
    | some k => s.unitUp k
    | none => some 0

/-- The decode stage of a field (R81, R168, R175, R200-R215, R685): its payload is decompressed and decoded, or tokenised. -/
def State.stageDecode (s : State) (c g j : Nat) (x : StreamCtx) (z : Candidate) (f : GraphField) : State :=
  let (codec, content, decoded, payload) := s.fieldOf x z f.tag
  match s.decodeUp f codec with
  | none => s
  | some unit =>
    let p := fieldPayload codec decoded payload
    let packed := if codec = 0 then none else some p.2
    let s := if codec = 0 then s else s.candEffects c g j [.packed p.2]
    match f.text with
    | some t => s.stageText c g j x f t p.1 packed z.wu
    | none => s.stageField c g j x z f content unit p.1 packed

/-- An augment operation (R216-R224): a PARAM failure stands before its charge. It waits for an augment unit in service. -/
def State.stageOp (s : State) (c g j : Nat) (x : StreamCtx) (z : Candidate) (f : GraphField) (k : Nat) : State :=
  match f.ops[k]?, s.unitUp 5 with
  | some op, some unit =>
    let e := z.entry.getD (List.replicate 64 0)
    match augRun op e x.roiCentre z.cur with
    | none => s.failDecode c g j 0x0507 f.tag z.fieldAt.2 .param
    | some ys =>
      let n := z.cur.foldl (fun a y => a + augElems op e y) 0
      let wu := z.wu + charge n 256
      if wu > x.params.budgetOf then s.failCand c g j .budget
      else
        (s.candEffects c g j [.buffer (unitPort 5 unit) unit ((ys.map Sample.size).sum)]).passStage c g j wu (fun z =>
          if k + 1 ≥ f.ops.length then { z with outputs := z.outputs ++ [(f.sect, ys)], cur := [] } else { z with cur := ys })
  | _, _ => s

/-- What a program of a stage run sees of a candidate: its outputs by section, and USER of its entry. -/
def Candidate.shown (z : Candidate) : List (Nat × List Byte) := z.outputs.map (fun o => (o.1, o.2.flatMap (fun y => match y with
  | .tokens ids => ids.flatMap (leBytes 4)
  | y => y.bytes)))

def Candidate.user (z : Candidate) : Nat := leField (z.entry.getD []) 0x28 8

/-- The epoch of a candidate's slot; a live stream's is its first. -/
def StreamCtx.epochAt (x : StreamCtx) (g : Nat) : Nat := if x.params.live then x.params.firstEpoch else x.epochOf (g / max x.params.slots 1)

/-- The sieve stage (R80, R102, R685): its cost first, then the program's decision; a live unit's pair steers the next unit
(R241). -/
def State.stageSieve (s : State) (c g j : Nat) (x : StreamCtx) (z : Candidate) (cost plate : Nat) : State :=
  let wu := z.wu + cost
  if wu > x.params.budgetOf then s.failCand c g j .budget
  else
    let r := Config.sieve plate x.params.seed (x.epochAt g) z.folio z.shown z.user
    let at_ : Nat × Nat := (r.2.1 % 2 ^ 32, r.2.2 % 2 ^ 32)
    let s := if x.params.live && x.graph.roi == some .plate then s.updCtx c (fun x => { x with roiCentre := some at_ }) else s
    if r.1 then s.passStage c g j wu (fun z => { z with roi := some at_ }) else s.failCand c g j .sieve

/-- The generation stage (R102, R282): how its request ends, and the text it releases. -/
def State.stageGen (s : State) (c g j : Nat) (x : StreamCtx) (z : Candidate) (sect plate : Nat) : State :=
  let r := Config.generated plate x.params.seed (x.epochAt g) z.folio z.shown
  if r.1 = 0 then s.passStage c g j z.wu (fun z => { z with outputs := z.outputs ++ [(sect, [.elements r.2])] })
  else s.failCand c g j .decode

/-- The run of a stage of a stream runs (R686). -/
def State.stageUp (s : State) (x : StreamCtx) (plate : Nat) : Bool :=
  x.stageRuns.any (fun n => match s.runAt n with | some r => r.plate == plate && r.state == .running | none => false)

/-- STAGE_COMPLETE (R685): the stage under way of a candidate ends. A stage that reads the parameter entry waits for its
lookup; generation and the sieve need their own runs. -/
def State.stageComplete (s : State) (c g j stage : Nat) : State :=
  match s.candAt c g j with
  | none => s
  | some (x, y, z) =>
    let gr := x.candGraph z
    if stage ≠ z.stage ∨ (graphLookup gr = some z.stage ∧ z.entry.isNone) then s
    else match (graphStages gr)[z.stage]? with
      | some .record => s.stageRecord c g j x y z
      | some (.decode f) => (match gr.fields[f]? with
        | some gf => s.stageDecode c g j x z gf
        | none => s)
      | some (.op f k) => (match gr.fields[f]? with
        | some gf => s.stageOp c g j x z gf k
        | none => s)
      | some .gen => (match gr.gen, gr.stageRuns.head? with
        | some sect, some plate => if s.stageUp x plate then s.stageGen c g j x z sect plate else s
        | _, _ => s)
      | some .sieve => (match gr.sieve, gr.stageRuns.getLast? with
        | some v, some plate => if s.stageUp x plate then s.stageSieve c g j x z v.cost plate else s
        | _, _ => s)
      | none => s

def execStageComplete (c g j stage : Nat) (s : State) : Host.Outcome State Fault Refusal :=
  .next (s.stageComplete c g j stage)

/-- What a lookup meets. -/
inductive Lookup where
  | found (r : PushRecord)
  | missing
  | badFile
  | halt (st : Status)
  | waits
  deriving DecidableEq, Repr

/-- The first of the four keys that is present (R227). -/
def firstKey (e f : Nat) (have' : Nat → Nat → Option PushRecord) : Option PushRecord :=
  (((have' e f).orElse (fun _ => have' anyEpoch f)).orElse (fun _ => have' e anyFolio)).orElse (fun _ => have' anyEpoch anyFolio)

/-- Records sorted in strictly increasing order of (EPOCH, FOLIO) (R228). -/
def recordsSorted : List PushRecord → Bool
  | a :: b :: rs => (decide (a.epoch < b.epoch) || (a.epoch == b.epoch && decide (a.folio < b.folio))) && recordsSorted (b :: rs)
  | _ => true

/-- A lookup in the snapshot's parameter file (R227, R228). -/
def State.fileLookup (s : State) (x : StreamCtx) (e f : Nat) : Lookup :=
  let ns := x.params.nsid
  let a := x.paramLba * 4096
  if !s.nsReadable ns a (max x.paramLength 64) then .halt 0x0408
  else
    let h := s.nsBytes ns a 64
    let n := leField h 8 8
    if leField h 0 4 ≠ 0x5041524D ∨ leField h 4 2 ≠ 1 ∨ leField h 6 2 ≠ 80 ∨ leField h 0x10 16 ≠ x.params.snapshotId ∨
      zerosAt h 0x20 0x1C = false ∨ leField h 0x3C 4 ≠ crc32c (h.take 0x3C) ∨ x.paramLength ≠ 64 + 80 * n then .badFile
    else
      let raw := (List.range n).map (fun i => s.nsBytes ns (a + 64 + 80 * i) 80)
      if !recordsSorted (raw.map pushRecord) then .badFile
      else
        let at_ (e f : Nat) : Option PushRecord := (raw.find? (fun b => leField b 0 4 == e && leField b 8 8 == f)).map (fun b =>
          { pushRecord b with epoch := bitOf (recordCrcOk b) })
        match firstKey e f at_ with
        | none => .missing
        | some r => if r.epoch = 1 then .found r else .missing

/-- A lookup among the pushes, or among the records of a replayed stream (R227, R231, R233, R108). -/
def State.pushLookup (s : State) (x : StreamCtx) (e f : Nat) : Lookup :=
  if x.params.replay then
    let t := s.replayRecords x
    let ps := t.1.filter (fun r => r.type == 2)
    if t.2 then .halt 0x0408
    else if ps.any (fun r => !r.crcOk && (r.key == f || r.key == anyFolio)) then .halt 0x040C
    else
      let at_ (e f : Nat) : Option PushRecord :=
        (ps.find? (fun r => r.crcOk && r.key == f && leField r.payload 0 4 == e)).map (fun r =>
          { epoch := e, folio := f, entry := slice r.payload 8 64 })
      match firstKey e f at_ with
      | some r => .found r
      | none => .halt 0x040C
  else if !x.complete e then .waits
  else
    match firstKey e f (fun e f => x.pushes.find? (fun q => q.epoch == e && q.folio == f)) with
    | some r => .found r
    | none => .missing

/-- TAG and CONTENT of the field whose stage makes a candidate's lookup (R215, R224); a sieve's is the last field's. -/
def State.lookupField (s : State) (x : StreamCtx) (z : Candidate) : Nat × Nat :=
  let gr := x.candGraph z
  let of_ (f : Nat) : Nat × Nat := match gr.fields[f]? with
    | some gf => (gf.tag, (s.fieldOf x z gf.tag).2.1)
    | none => z.fieldAt
  match (graphStages gr)[z.stage]? with
  | some (.decode f) => of_ f
  | some (.op f _) => of_ f
  | _ => z.fieldAt

/-- PARAM_LOOKUP (R224, R227): at the start of the stage that reads the entry, once its epoch is complete, of a candidate that
is tried now (R73). -/
def State.paramLookup (s : State) (c g j : Nat) : State :=
  match s.candAt c g j with
  | none => s
  | some (x, y, z) =>
    if graphLookup (x.candGraph z) ≠ some z.stage ∨ z.entry.isSome ∨ !y.failedBelow j then s
    else
      let n := g / max x.params.slots 1
      let e := x.epochAt g
      match (if x.paramLba ≠ 0 then s.fileLookup x e z.folio else s.pushLookup x e z.folio) with
      | .waits => s
      | .missing => s.haltStream c 0x0409 n
      | .badFile => (s.log 0x0509 decBase x.params.streamId n).haltStream c 0x0409 n
      | .halt st => s.haltStream c st n
      | .found r =>
        let seen := x.pushes.any (fun q => q.epoch == r.epoch && q.folio == r.folio)
        let w := if x.params.replay && x.paramLba == 0 && !seen then
            s.witnessAppend c 2 r.folio (leBytes 4 r.epoch ++ leBytes 4 0 ++ r.entry)
          else (true, s)
        match w with
        | (false, s) => s
        | (true, s) =>
          let s := if x.params.replay && x.paramLba == 0 && !seen then s.updCtx c (fun x => { x with pushes := x.pushes ++ [r] }) else s
          let s := s.updCtx c (fun x => { x with paramChecked := true })
          if graphEntryOk x.graph r.entry then s.updCand c g j (fun z => { z with entry := some r.entry })
          else s.failDecode c g j 0x0507 (s.lookupField x z).1 (s.lookupField x z).2 .param

def execParamLookup (c g j : Nat) (s : State) : Host.Outcome State Fault Refusal := .next (s.paramLookup c g j)

/-- What A has passed is released: the records of its epochs (R232), and the units of its formes. -/
def StreamCtx.releasePassed (x : StreamCtx) : StreamCtx :=
  { x with
    live := x.live.filter (fun (u : Nat × LiveUnit) => decide (u.1 ≥ x.ack * x.params.slots)),
    liveHist := x.liveHist.filter (fun (h : LiveHist) => decide (h.g ≥ x.ack * x.params.slots)),
    pushes := x.pushes.filter (fun (r : PushRecord) =>
      decide (r.epoch = anyEpoch) || x.params.replay || !decide (r.epoch < x.epochOf x.ack)) }

/-- PAD of a vocabulary. -/
def State.padOf (s : State) (digest : Nat) : Nat := ((s.text.vocabs.find? (fun v => v.digest == digest)).map (·.pad)).getD 0

/-- Slots of forme n, in order, once all of them have an outcome. -/
def StreamCtx.formeSlots (x : StreamCtx) (n : Nat) : Option (List (SlotEntry × List (Nat × List Sample))) :=
  let ys := (List.range x.params.slots).filterMap (fun i =>
    (x.slotAt (n * x.params.slots + i)).bind (fun y => y.outcome))
  if ys.length = x.params.slots then some ys else none

/-- LIMIT of a stream (R86, R419): of credit messages, or A and the outstanding Forme Reads. -/
def StreamCtx.limitOf (x : StreamCtx) : Nat :=
  if x.params.consumer = 0 then (x.ack + x.formeReads.length + (x.held.filter (fun h => h.path.isSome)).length) % 2 ^ 48
  else x.limit

/-- Forme n may go to egress (R86, R96, R526, R542). -/
def State.formeGo (s : State) (x : StreamCtx) (n : Nat) : Bool :=
  x.closing.isNone && !x.done && seqEarlier 48 n x.limitOf && decide ((n + 2 ^ 48 - x.ack) % 2 ^ 48 < 64) &&
    (match x.halted with | some (_, m) => seqEarlier 48 n m | none => true) &&
    (!s.groupCtx x || (!s.group.holding && decide ((n + 2 ^ 48 - x.delivered) % 2 ^ 48 < 3)))

/-- The last forme has gone: STREAM_END, once (R69). Forme Reads that wait end with it. -/
def State.endStream (s : State) (c : Nat) : State :=
  match s.ctxOf c with
  | none => s
  | some x =>
    if !x.done then s
    else
      let s := s.updCtx c (fun x => { x with ended := true, formeReads := [] })
      let s := if x.ended then s
        else if x.params.consumer = 0 then s.emit (.streamEvent 0 x.params.streamId x.next 0x040D 0)
        else s.sendStreamEvent c x 0x040D x.next
      x.formeReads.foldl (fun s q => s.reply q 0x040D) s

/-- The status with which a Forme Read that has reached a stream's halted forme ends (R94). -/
def StreamCtx.haltedHere (x : StreamCtx) : Option Status :=
  match x.halted with
  | some (st, m) => if m = x.next then some st else none
  | none => none

/-- Forme Reads that wait at the forme a stream is halted at end with the halt's status (R94). -/
def State.haltReads (s : State) (c : Nat) (x : StreamCtx) (st : Status) : State :=
  let s := s.updCtx c (fun x => { x with formeReads := [] })
  x.formeReads.foldl (fun s q => s.reply q st) s

/-- The net die has a buffer of class FORME for what crosses of a forme, fragment by fragment; else the stream is held (R88,
R494). -/
def State.formeCrosses (s : State) (x : StreamCtx) (b : List Byte) : Bool :=
  x.params.consumer == 0 || s.poolHas 1 2 (max 1 (min b.length 8192))

/-- FORME_HANDOFF (R86, R419, R480): the next forme, complete and with credit, goes to egress. At the forme a stream is
halted at, waiting Forme Reads learn its status. -/
def State.formeHandoff (s : State) (c : Nat) : State :=
  match s.ctxOf c with
  | none => s
  | some x =>
    let n := x.next
    match x.haltedHere with
    | some st => s.haltReads c x st
    | none =>
    match x.formeSlots n with
    | none => s
    | some ys =>
      if !s.formeGo x n then s
      else
        let b := x.formeBytes s.padOf n ys
        if !s.formeCrosses x b then s
        else
        let s := s.trace 9 6 0 0 0 x.params.streamId n
        let s := s.emit (.forme x.params.streamId n b)
        let s := (s.galleysDrop c (fun k => decide (k ≤ n))).updCtx c (fun x => { x with
          next := (n + 1) % 2 ^ 48, lastSent := some n, done := !x.params.live && decide (n + 1 ≥ x.total), slots := x.slots.filter (fun (y : Slot) => decide (y.g ≥ (n + 1) * x.params.slots)) })
        let s := if x.params.consumer ≠ 0 then
            (s.updCtx c (fun x => { x with inEgress := x.inEgress ++ [n] })).sendMsg {
              kind := 9, device := x.params.consumer / 2 ^ 32 % 2 ^ 24, route := x.params.consumer % 65536,
              dstQueue := handleQueue x.params.consumer, srcQueue := 0xFFFF, msgId := 0, length := 0,
              immediate := x.params.streamId + n * 65536 } b (.forme c n)
          else match x.formeReads with
            | [] => s
            | q :: qs =>
              (s.updCtx c (fun x => { x with
                formeReads := qs, held := x.held ++ [{ n := n, path := some q, bytes := b }] })).replyData q 0 0 [n] b
        s.endStream c

def execFormeHandoff (c : Nat) (s : State) : Host.Outcome State Fault Refusal := .next (s.formeHandoff c)

/-- Two n-bit sequence values that are unordered (R17). -/
def seqUnordered (n a b : Nat) : Bool := a % 2 ^ n != b % 2 ^ n && !seqEarlier n a b && !seqEarlier n b a

/-- A CREDIT for a stream (R87): its status. A stale message is counted and discarded; one whose A or C is unordered with the
value held is no advance and is refused as inconsistent; a re-homed stream resumes at A (R543). -/
def State.credit (s : State) (id a l : Nat) : Status × State :=
  match s.ctxByStream id with
  | none => (0x0402, s)
  | some (c, x) =>
    let homing := s.group.rehoming.contains c
    if x.closing.isSome then (0x0402, s)
    else if !homing && (seqEarlier 48 a x.ack || seqEarlier 48 l x.limit) then (0, s.updCtx c (fun x => x.bump 4 1))
    else if (!homing && (seqUnordered 48 a x.ack || seqUnordered 48 l x.limit)) || seqEarlier 48 l a ||
        decide ((l + 2 ^ 48 - a) % 2 ^ 48 > 64) then
      (0x040A, s.updCtx c (fun x => { x with status := 0x040A }))
    else
      let s := s.updCtx c (fun x => ({ x with ack := a, limit := l }).releasePassed)
      if homing then
        let s := { s with group := { s.group with rehoming := s.group.rehoming.filter (· != c) } }
        let r := match s.ctxOf c with | some x => s.resumeAt c x a | none => (0, s)
        (0, r.2)
      else (0, s)

/-- WDG_SELFTEST_START (R64, R97): a self-test runs while SELFTEST_DONE reads 0. -/
def State.wdgDiagWrite (s : State) (v : Word) : State :=
  let s := s.plainWrite (wdgBase + 4) v
  if v.getLsbD 1 then
    { (s.setBits (wdgBase + 4) 2 2 0) with streamEng := { s.streamEng with selftestBusy := true } }
  else s

def execWdgSelftestStart (v : Word) (s : State) : Host.Outcome State Fault Refusal := .next (s.wdgDiagWrite v)

/-- WDG_SELFTEST_DONE (R64): every pipeline computes the two reference vectors; `ok` says whether the hardware of every
pipeline gave what SipHash-2-4 gives. -/
def State.wdgSelftestDone (s : State) (ok : Bool) : State :=
  if s.streamEng.selftestBusy then
    let k0 : BitVec 64 := 0x0706050403020100
    let k1 : BitVec 64 := 0x0F0E0D0C0B0A0908
    let v0 := sipWords k0 k1 [0]
    let v15 := sipWords k0 k1 [0x0706050403020100, 0x0F0E0D0C0B0A0908]
    let pass := ok && v0 == 0x726FDB47DD0E0E31 && v15 == 0xA129CA6149BE45E5
    { (s.setBits (wdgBase + 4) 2 2 (1 + 2 * bitOf pass)) with streamEng := { s.streamEng with selftestBusy := false } }
  else s

def execWdgSelftestDone (ok : Bool) (s : State) : Host.Outcome State Fault Refusal := .next (s.wdgSelftestDone ok)

/-- The counters and overflow bits of a context (R98, R99). -/
def counterWord (ctr : List Nat) (ovf : BitVec 5) (w : Nat) : Nat :=
  if w = 0x64 then ovf.toNat else if 0x50 ≤ w ∧ w ≤ 0x60 then ctr.getD ((w - 0x50) / 4) 0 else 0

/-- Words of a stream context (R98). -/
def StreamCtx.view (x : StreamCtx) (w : Nat) : Word :=
  let p := x.params
  let n := match w with
    | 0x00 => p.streamId + bitOf x.isOpen * 2 ^ 16 + bitOf x.halted.isSome * 2 ^ 17 + bitOf x.ended * 2 ^ 18 + p.flags % 16 * 2 ^ 19
    | 0x04 => x.status.toNat
    | 0x08 => p.seed
    | 0x0C => p.seed / 2 ^ 32
    | 0x10 => p.snapshotId
    | 0x14 => p.snapshotId / 2 ^ 32
    | 0x18 => p.snapshotId / 2 ^ 64
    | 0x1C => p.snapshotId / 2 ^ 96
    | 0x20 => x.epochOf x.next
    | 0x24 => p.world
    | 0x28 => p.rank
    | 0x2C => p.slots
    | 0x30 => p.windowOf
    | 0x34 => p.budgetOf
    | 0x38 => x.next
    | 0x3C => x.next / 2 ^ 32
    | 0x40 => x.ack
    | 0x44 => x.ack / 2 ^ 32
    | 0x48 => x.limitOf
    | 0x4C => x.limitOf / 2 ^ 32
    | 0x68 => p.graph
    | 0x6C => p.graph / 2 ^ 32
    | w => counterWord x.ctr x.ovf w
  BitVec.ofNat 32 n

/-- The WDG block (R97, R98). -/
def viewWdg (s : State) (off : Nat) : Option Word :=
  if off = wdgBase then some 0x200
  else if off = wdgBase + 8 then
    some (BitVec.ofNat 32 (s.streamEng.ctxs.foldl (fun a x => a + x.2.params.windowOf) 0))
  else if wdgBase + 0x10000 ≤ off ∧ off < wdgBase + 0x20000 then
    let d := off - (wdgBase + 0x10000)
    some (match s.ctxOf (d / 0x80) with
      | some x => x.view (d % 0x80)
      | none => match s.streamEng.past.find? (fun y => y.1 == d / 0x80) with
        | some y => BitVec.ofNat 32 (counterWord y.2.1 y.2.2 (d % 0x80))
        | none => 0)
  else none

/-- Overflow bits of a context are cleared by writing 1: of an open one, or of one freed (R98, R99). -/
def State.clearOvf (s : State) (c : Nat) (v : Word) : State :=
  let s := s.updCtx c (fun x => { x with ovf := x.ovf &&& ~~~(v.truncate 5) })
  { s with streamEng := { s.streamEng with
      past := s.streamEng.past.map (fun y => if y.1 == c then (y.1, y.2.1, y.2.2 &&& ~~~(v.truncate 5)) else y) } }

/-- WDG_DIAG and the overflow bits are the block's writable words. -/
def writeWdg (s : State) (off : Nat) (v : Word) : Option State :=
  if off = wdgBase + 4 then some (s.wdgDiagWrite v)
  else if wdgBase + 0x10000 ≤ off ∧ off < wdgBase + 0x20000 then
    let d := off - (wdgBase + 0x10000)
    if d % 0x80 = 0x64 then some (s.clearOvf (d / 0x80) v) else some s
  else none

end Sys2Proof.Machine
end

