-- ==== Sys2Proof/Machine/Ingest.lean ====
section
/-! DEFINITION. The commands of the decode block: unit faults and live ingest (R199-R202, R234-R246). -/

namespace Sys2Proof.Machine

/-- Sets the units of a class that are out of service. -/
def Decode.setOos (d : Decode) (cls : Nat) (l : List Nat) : Decode :=
  match cls with
  | 1 => { d with oosJpeg := l }
  | 2 => { d with oosPng := l }
  | 3 => { d with oosVideo := l }
  | 4 => { d with oosAudio := l }
  | _ => { d with oosAug := l }

/-- A hardware fault of a decoder or augment unit (R202): it goes out of service and is logged with its number. Its work
restarts from the field's first byte elsewhere, with the same charges, which changes no forme bit. -/
def State.unitFault (s : State) (cls unit : Nat) : State :=
  if decide (1 ≤ cls ∧ cls ≤ 5) && decide (unit < decUnits cls) && !(s.decode.oos cls).contains unit then
    { (s.log 0x0508 decBase unit cls) with decode := s.decode.setOos cls (s.decode.oos cls ++ [unit]) }
  else s

def execDecoderUnitFault (cls unit : Nat) (s : State) : Host.Outcome State Fault Refusal := .next (s.unitFault cls unit)

/-- DECODER_NO_PROGRESS (R202): 10 ms without progress while holding work is the same hardware fault. -/
def execDecoderNoProgress (cls unit : Nat) (s : State) : Host.Outcome State Fault Refusal := .next (s.unitFault cls unit)

/-- The registers of ingest channel c (R245). -/
def liveReg (c w : Nat) : Nat := decBase + 0x10000 + c * 0x40 + w

def State.liveBump (s : State) (c i n : Nat) : State := s.bumpBy (liveReg c (0x10 + 4 * i)) (liveReg c 0x2C) i n

def State.liveChan (s : State) (c : Nat) : LiveChannel := s.decode.channels.getD c {}

def State.setLiveChan (s : State) (c : Nat) (f : LiveChannel → LiveChannel) : State :=
  { s with decode := { s.decode with channels := modAt s.decode.channels c f } }

def State.liveEnabled (s : State) (c : Nat) : Bool := decide (c < 64) && s.regFld (liveReg c 0) 0 1 == 1

/-- The open live stream bound to a channel, which takes its units (R238, R240). A replayed one takes them from its
records (R107). -/
def State.boundStream (s : State) (c : Nat) : Option (Nat × StreamCtx) :=
  s.streamEng.ctxs.find? (fun x => x.2.params.live && x.2.params.nsid == c)

/-- Bytes of closed units that wait in a stream's channel buffer for its window. -/
def StreamCtx.liveWaiting (x : StreamCtx) : Nat :=
  ((x.live.filter (fun (u : Nat × LiveUnit) => decide (u.1 ≥ x.next * x.params.slots) && (x.slotAt u.1).isNone)).map
    (fun u => 32 + u.2.nal.length)).foldl (· + ·) 0

/-- A closed unit takes the next folio, or is dropped (R238); a witnessed stream records it first (R104). -/
def State.assignFolio (s : State) (c : Nat) (u : LiveUnit) : State :=
  match s.boundStream c with
  | none => s.liveBump c 5 1
  | some (k, x) =>
    let size := s.regFld (liveReg c 0) 16 13 * 2 ^ 20
    if x.params.replay || x.closing.isSome || decide (x.liveWaiting + 32 + u.nal.length > size) then s.liveBump c 5 1
    else match s.witnessAppend k 3 x.nextFolio (liveUnitBytes u) with
      | (false, s) => s.liveBump c 5 1
      | (true, s) =>
        (s.updCtx k (fun x => { x with live := x.live ++ [(x.nextFolio, u)], nextFolio := x.nextFolio + 1 })).liveBump c 3 1

/-- Distance of a sequence number from another (R236). -/
def seqDist (from' n : Nat) : Nat := (n + 65536 - from') % 65536

/-- The least of some sequence numbers, counted from a first one. -/
def seqLeast (from' : Nat) : List Nat → Option Nat
  | [] => none
  | n :: ns => match seqLeast from' ns with
    | none => some n
    | some m => if seqDist from' n < seqDist from' m then some n else some m

/-- The expected first sequence number of the oldest open unit (R236). -/
def LiveChannel.expected (l : LiveChannel) : Nat :=
  match l.lastClosed with
  | some (_, n) => (n + 1) % 65536
  | none => l.firstSeq.getD 0

/-- Packets of a unit in sequence order. -/
def OpenUnit.sorted (u : OpenUnit) (e : Nat) (last : Nat) : List (Nat × List Byte) :=
  (List.range (seqDist e last + 1)).filterMap (fun i => u.packets.find? (fun p => p.1 == (e + i) % 65536))

/-- Every sequence number from the expected first through the marker has arrived (R236 event a). -/
def OpenUnit.whole (u : OpenUnit) (e : Nat) : Bool :=
  match u.markerSeq with
  | none => false
  | some m => (u.sorted e m).length == seqDist e m + 1

/-- The last sequence number of a unit that a timeout closes: its marker's, or the one before the next unit's first. -/
def LiveChannel.lastSeq (l : LiveChannel) (u : OpenUnit) : Nat :=
  match u.markerSeq with
  | some m => m
  | none =>
    let later := (l.units.drop 1).flatMap (fun x => x.packets.map (·.1))
    match seqLeast l.expected later with
    | some n => (n + 65535) % 65536
    | none => l.expected

/-- The oldest open unit of a channel closes (R236, R237): its missing numbers are counted, and it carries GAP when
there are any. -/
def State.closeUnit (s : State) (c : Nat) (byMarker : Bool) : State :=
  let l := s.liveChan c
  match l.units with
  | [] => s
  | u :: rest =>
    let e := l.expected
    let last := if byMarker then u.markerSeq.getD e else l.lastSeq u
    let ps := u.sorted e last
    let lost := seqDist e last + 1 - ps.length
    let unit : LiveUnit := {
      channel := c, gap := decide (lost > 0), byMarker := byMarker, randomAccess := u.randomAccess,
      packets := u.packets.length, timestamp := u.timestamp, firstSeq := e, lastSeq := last, ssrc := l.ssrc.getD 0,
      nal := ps.flatMap (·.2) }
    let s := s.setLiveChan c (fun l => { l with units := rest, lastClosed := some (u.timestamp, last) })
    let s := s.liveBump c 1 lost
    let s := if lost > 0 then s.liveBump c 4 1 else s
    s.assignFolio c unit

/-- Units whose marker event holds close, oldest first. -/
def State.closeWhole (s : State) (c : Nat) : Nat → State
  | 0 => s
  | n + 1 =>
    let l := s.liveChan c
    match l.units with
    | u :: _ => if u.whole l.expected then (s.closeUnit c true).closeWhole c n else s
    | [] => s

/-- A unit list with a packet put in, in timestamp order (R17, R236). -/
def insertPacket (p : RtpPacket) : List OpenUnit → List OpenUnit
  | [] => [{ timestamp := p.timestamp, packets := [(p.seq, p.nal)], markerSeq := if p.marker then some p.seq else none,
             randomAccess := p.randomAccess, laterAt := none }]
  | u :: us =>
    if u.timestamp = p.timestamp then
      { u with
        packets := if u.packets.any (fun q => q.1 == p.seq) then u.packets else u.packets ++ [(p.seq, p.nal)],
        markerSeq := if p.marker then some p.seq else u.markerSeq, randomAccess := u.randomAccess || p.randomAccess } :: us
    else if seqEarlier 32 p.timestamp u.timestamp then
      { timestamp := p.timestamp, packets := [(p.seq, p.nal)], markerSeq := if p.marker then some p.seq else none,
        randomAccess := p.randomAccess, laterAt := none } :: u :: us
    else u :: insertPacket p us

/-- A later packet has arrived for the units before its timestamp (R236 event b). -/
def markLater (now ts : Nat) (us : List OpenUnit) : List OpenUnit :=
  us.map (fun (u : OpenUnit) =>
    if u.laterAt.isNone && seqEarlier 32 u.timestamp ts then { u with laterAt := some now } else u)

/-- The next NAL unit of an aggregation packet: a 16-bit length and its bytes, up to the payload's end (RFC 6184, RFC 7798). -/
def aggregated : Nat → List Byte → Option (List (List Byte))
  | _, [] => some []
  | 0, _ => none
  | f + 1, b =>
    let n := beInt b 0 2
    if b.length < 2 + n ∨ n = 0 then none else (aggregated f (b.drop (2 + n))).map (slice b 2 n :: ·)

/-- A NAL unit in Annex B form (R237). -/
def annexB (nal : List Byte) : List Byte := [0, 0, 0, 1] ++ nal

/-- The Annex B bytes that an H.264 payload adds to its unit, and whether a slice of an IDR picture is among them (R235, RFC
6184): single NAL units, STAP-A and FU-A. -/
def h264Payload (b : List Byte) : Option (List Byte × Bool) :=
  let ty (x : Byte) : Nat := x.toNat % 32
  match b with
  | [] => none
  | x :: r =>
    if 1 ≤ ty x ∧ ty x ≤ 23 then some (annexB b, ty x == 5)
    else if ty x = 24 then
      match aggregated r.length r with
      | none => none
      | some ns => if ns.isEmpty then none else some (ns.flatMap annexB, ns.any (fun n => ty (n.headD 0) == 5))
    else if ty x = 28 then
      match r with
      | [] => none
      | y :: d =>
        some (if y.getLsbD 7 then annexB (BitVec.ofNat 8 (x.toNat / 32 * 32 + ty y) :: d) else d, ty y == 5)
    else none

/-- The same for HEVC (RFC 7798): single NAL units, aggregation packets and fragmentation units; an IRAP picture has NAL unit
type 16 to 23. -/
def hevcPayload (b : List Byte) : Option (List Byte × Bool) :=
  let ty (x : Byte) : Nat := x.toNat / 2 % 64
  let irap (t : Nat) : Bool := decide (16 ≤ t ∧ t ≤ 23)
  match b with
  | x :: y :: r =>
    if ty x < 48 then some (annexB b, irap (ty x))
    else if ty x = 48 then
      match aggregated r.length r with
      | none => none
      | some ns => if ns.isEmpty then none else some (ns.flatMap annexB, ns.any (fun n => irap (ty (n.headD 0))))
    else if ty x = 49 then
      match r with
      | [] => none
      | z :: d =>
        let t := z.toNat % 64
        some (if z.getLsbD 7 then annexB (BitVec.ofNat 8 (x.toNat / 128 * 128 + 2 * t + x.toNat % 2) :: y :: d) else d, irap t)
    else none
  | _ => none

/-- An RTP packet read from its bytes (R235, RFC 3550): the padding is removed, the CSRC list and the header extension are
skipped, and the payload is depacketised by the channel's CODEC. -/
def rtpOf (hevc : Bool) (b : List Byte) : RtpPacket :=
  let b0 := leField b 0 1
  let fixed := 12 + 4 * (b0 % 16)
  let head := fixed + (if b0 / 16 % 2 = 1 then 4 + 4 * beInt b (fixed + 2) 2 else 0)
  let pad := if b0 / 32 % 2 = 1 then (b.getLastD 0).toNat else 0
  let payload := (b.drop head).take (b.length - head - pad)
  let nal := if hevc then hevcPayload payload else h264Payload payload
  { version := b0 / 64, payloadType := leField b 1 1 % 128, ssrc := beInt b 8 4, seq := beInt b 2 2, timestamp := beInt b 4 4,
    marker := leField b 1 1 / 128 == 1,
    supported := decide (12 ≤ b.length ∧ head + pad ≤ b.length) && nal.isSome && !(b0 / 32 % 2 == 1 && pad == 0),
    nal := (nal.map (·.1)).getD [], randomAccess := (nal.map (·.2)).getD false }

/-- RTP_PACKET (R235, R236, R445, R511, R624): a policed packet to a UDP port of an enabled channel is discarded and counted, or
joins its unit, or is dropped for want of a buffer of class LIVE (R494); one to a port of no channel is counted in RX_DROPPED. -/
def State.rtpPacket (s : State) (f : FrameInfo) (port : Nat) (b : List Byte) : State :=
  let s := s.wakeEvent .packet
  let chan := (List.range 64).find? (fun c => s.liveEnabled c && s.regFld (liveReg c 4) 0 16 == port)
  let pol := s.policeOther f (chan.map (fun c => 0x200 + 4 * c))
  let s := pol.2
  if !pol.1 then s
  else match chan with
  | none => s.gnzBump 12
  | some c =>
    let l := s.liveChan c
    let p := rtpOf (s.regFld (liveReg c 0) 1 1 == 1) b
    if p.version ≠ 2 ∨ p.payloadType ≠ s.regFld (liveReg c 0) 2 7 ∨ !p.supported ∨ (l.ssrc.isSome && l.ssrc != some p.ssrc) then
      s.liveBump c 6 1
    else
      let late := match l.lastClosed with
        | some (t, _) => t == p.timestamp || seqEarlier 32 p.timestamp t
        | none => false
      if late then s.liveBump c 2 1
      else if !s.poolHas 1 4 (max b.length 1) then s.noGrant 1 (max b.length 1)
      else
        let first := match l.firstSeq with
          | none => p.seq
          | some f => if seqEarlier 16 p.seq f then p.seq else f
        let s := s.liveBump c 0 1
        let s := s.setLiveChan c (fun l => { l with
          ssrc := some p.ssrc, firstSeq := some first, units := markLater s.now p.timestamp (insertPacket p l.units) })
        s.closeWhole c (l.units.length + 1)

def execRtpPacket (f : FrameInfo) (port : Nat) (b : List Byte) (s : State) : Host.Outcome State Fault Refusal :=
  .next (s.rtpPacket f port b)

/-- LIVE_UNIT_TIMEOUT (R236 event b): 20 ms after a later packet first arrived, the oldest open unit closes. -/
def State.liveTimeout (s : State) (c : Nat) : State :=
  let l := s.liveChan c
  match l.units with
  | [] => s
  | u :: _ =>
    if u.laterAt.isSome && s.liveEnabled c then (s.closeUnit c false).closeWhole c l.units.length else s

def execLiveUnitTimeout (c : Nat) (s : State) : Host.Outcome State Fault Refusal := .next (s.liveTimeout c)

/-- A write that sets ENABLE is in order (R246). -/
def State.liveCfgOk (s : State) (c : Nat) (v : Word) : Bool :=
  let port := s.regFld (liveReg c 4) 0 16
  port != 0 && port != s.regFld gnzCfg 0 16 && port != 319 && port != 320 &&
    !(List.range 64).any (fun k => k != c && s.liveEnabled k && s.regFld (liveReg k 4) 0 16 == port) &&
    decide (16 ≤ fld v 16 13 ∧ fld v 16 13 ≤ 4096)

/-- DEC_LIVE_CFG_WRITE (R246): while ENABLE = 1 only ENABLE takes a write; a refused write changes nothing. -/
def State.liveCfgWrite (s : State) (c : Nat) (v : Word) : State :=
  if c ≥ 64 then s
  else if s.liveEnabled c then
    if v.getLsbD 0 then s
    else (s.setBits (liveReg c 0) 0 1 0).setLiveChan c (fun l => { l with units := [] })
  else if v.getLsbD 0 then
    if s.liveCfgOk c v then (s.plainWrite (liveReg c 0) v).setLiveChan c (fun _ => {})
    else s.log 0x0101 decBase (liveReg c 0) v.toNat
  else s.plainWrite (liveReg c 0) v

def execDecLiveCfgWrite (c : Nat) (v : Word) (s : State) : Host.Outcome State Fault Refusal := .next (s.liveCfgWrite c v)

/-- A bit per unit of a list, from unit `lo`. -/
def unitBits (l : List Nat) (lo : Nat) : Nat := (List.range 32).foldl (fun a b => if l.contains (lo + b) then a + 2 ^ b else a) 0

/-- The DEC block's computed words (R244, R245). -/
def viewDec (s : State) (off : Nat) : Option Word :=
  let w (n : Nat) : Option Word := some (BitVec.ofNat 32 n)
  if off = decBase then w (256 + 32 * 2 ^ 9 + 16 * 2 ^ 15 + 16 * 2 ^ 20 + 64 * 2 ^ 25)
  else if decBase + 0x40 ≤ off ∧ off < decBase + 0x60 then w (unitBits s.decode.oosJpeg ((off - decBase - 0x40) / 4 * 32))
  else if off = decBase + 0x60 then w (unitBits s.decode.oosPng 0)
  else if off = decBase + 0x64 then w (unitBits s.decode.oosVideo 0 % 65536 + unitBits s.decode.oosAudio 0 % 65536 * 65536)
  else if off = decBase + 0x68 then w (unitBits s.decode.oosAug 0)
  else if off = decBase + 0x6C then w (unitBits s.decode.oosAug 32)
  else if off = decBase + 0x70 then w s.pushesHeld
  else if decBase + 0x10000 ≤ off ∧ off < decBase + 0x11000 then
    let c := (off - decBase - 0x10000) / 0x40
    let folio := ((s.boundStream c).map (fun x => x.2.nextFolio)).getD 0
    match (off - decBase) % 0x40 with
    | 0x08 => w ((s.liveChan c).ssrc.getD 0)
    | 0x0C => w (bitOf (s.liveChan c).ssrc.isSome + 2 * bitOf (s.boundStream c).isSome)
    | 0x30 => w folio
    | 0x34 => w (folio / 2 ^ 32)
    | _ => none
  else none

/-- DEC_LIVE_CFG has its own rule; UDP_PORT is discarded while ENABLE = 1 (R246). -/
def writeDec (s : State) (off : Nat) (v : Word) : Option State :=
  if decBase + 0x10000 ≤ off ∧ off < decBase + 0x11000 then
    let c := (off - decBase - 0x10000) / 0x40
    match (off - decBase) % 0x40 with
    | 0 => some (s.liveCfgWrite c v)
    | 4 => if s.liveEnabled c then some s else none
    | _ => none
  else none

end Sys2Proof.Machine
end

