-- ==== Sys2Proof/Machine/Compress.lean ====
section
/-! DEFINITION. DEFLATE, zlib and gzip as the compression engines write them (R180-R182). The bit layouts are those of RFC 1951. The
spec fixes neither which of several equally long matches is taken nor how runs of code lengths are coded: both are free values that
depend on the input alone. -/

namespace Sys2Proof.Machine

/-- A token of a block: a literal or a match. -/
inductive LzToken where
  | lit (x : Byte)
  | ref (len dist : Nat)
  deriving DecidableEq, Repr

/-- How many bytes two strings begin with in common, at most `n`. -/
def commonLen : Nat → List Byte → List Byte → Nat
  | n + 1, x :: a, y :: b => if x = y then commonLen n a b + 1 else 0
  | _, _, _ => 0

/-- The hash chain at a place: the nearest earlier places within the window that begin with the same three bytes. -/
def chainAt (depth : Nat) (d : List Byte) (i : Nat) : List Nat :=
  (((List.range (min i 32768)).map (fun k => i - 1 - k)).filter (fun j => commonLen 3 (d.drop j) (d.drop i) == 3)).take depth

/-- The longest match of the chain that ends by `stop`, as length and distance; length 0 is none. -/
def bestMatch (depth : Nat) (d : List Byte) (i stop : Nat) : Nat × Nat :=
  let found := (chainAt depth d i).map (fun j => (commonLen (min 258 (stop - i)) (d.drop j) (d.drop i), i - j))
  let long := found.foldl (fun a x => max a x.1) 0
  let best := found.filter (fun x => x.1 == long)
  if long < 3 then (0, 0) else best.getD (Config.matchPick d i % best.length) (0, 0)

/-- The tokens of a block: greedy, or lazy where a longer match at the next place makes a literal of this one (R180). -/
def lzTokens (depth : Nat) (lazy : Bool) (d : List Byte) (stop : Nat) : Nat → Nat → List LzToken
  | 0, _ => []
  | f + 1, i =>
    if stop ≤ i then []
    else
      let m := bestMatch depth d i stop
      if m.1 = 0 ∨ (lazy ∧ m.1 < (bestMatch depth d (i + 1) stop).1) then .lit (d.getD i 0) :: lzTokens depth lazy d stop f (i + 1)
      else .ref m.1 m.2 :: lzTokens depth lazy d stop f (i + m.1)

/-- n bits of a number, the least significant first. -/
def bitsLsb : Nat → Nat → List Bool
  | 0, _ => []
  | n + 1, v => (v % 2 == 1) :: bitsLsb n (v / 2)

/-- The greatest index below `n` whose base does not exceed a value. -/
def baseIndex (n v : Nat) (base : Nat → Nat) : Nat := ((List.range n).reverse.find? (fun i => decide (base i ≤ v))).getD 0

def lenIndex (len : Nat) : Nat := baseIndex 29 len (fun i => lenBase.getD i 0)

def distIndex (dist : Nat) : Nat := baseIndex 30 dist distBase

/-- The literal/length and distance symbols of a token, the first of them the end of the block when there is none. -/
def LzToken.lit? : LzToken → Nat
  | .lit x => x.toNat
  | .ref len _ => 257 + lenIndex len

def LzToken.dist? : LzToken → Option Nat
  | .lit _ => none
  | .ref _ d => some (distIndex d)

def countOf (n : Nat) (xs : List Nat) : List Nat := (List.range n).map (fun i => xs.count i)

/-- Neighbours joined in pairs. -/
def joinPairs : List (Nat × List Nat) → List (Nat × List Nat)
  | a :: b :: r => (a.1 + b.1, a.2 ++ b.2) :: joinPairs r
  | _ => []

/-- The list of each length limit, from the list of the limit before. -/
def packages (leaves : List (Nat × List Nat)) : Nat → List (Nat × List Nat)
  | 0 => leaves
  | n + 1 => orderBy (fun a b => decide (a.1 ≤ b.1)) (leaves ++ joinPairs (packages leaves n))

/-- Code lengths of a length-limited Huffman code from symbol counts, ties towards the lower symbol (R181): the package-merge
construction. A symbol that stands alone has a code of one bit. -/
def codeLens (limit : Nat) (counts : List Nat) : List Nat :=
  let leaves := orderBy (fun (a b : Nat × List Nat) => decide (a.1 ≤ b.1))
    ((counts.zipIdx.filter (fun x => x.1 != 0)).map (fun x => (x.1, [x.2])))
  if leaves.length ≤ 1 then counts.map (fun c => if c = 0 then 0 else 1)
  else
    let used := ((packages leaves (limit - 1)).take (2 * leaves.length - 2)).flatMap (·.2)
    countOf counts.length used

/-- The first code of a length. -/
def firstCode (lens : List Nat) : Nat → Nat
  | 0 => 0
  | l + 1 => 2 * (firstCode lens l + (if l = 0 then 0 else lens.count l))

/-- The code of a symbol, its most significant bit first. -/
def codeBits (lens : List Nat) (sym : Nat) : List Bool :=
  let l := lens.getD sym 0
  (bitsLsb l (firstCode lens l + (lens.take sym).count l)).reverse

/-- The bits of tokens under two codes, and the end of the block. -/
def tokenBits (lit dist : List Nat) (ts : List LzToken) : List Bool :=
  ts.flatMap (fun t => match t with
    | .lit x => codeBits lit x.toNat
    | .ref len d =>
      let i := lenIndex len
      let j := distIndex d
      codeBits lit (257 + i) ++ bitsLsb (lenExtra i) (len - lenBase.getD i 0) ++ codeBits dist j ++
        bitsLsb (distExtra j) (d - distBase j)) ++ codeBits lit 256

/-- Code-length symbols with their extra bits: what a run of equal lengths takes at once is free. -/
def lenSymbols (all : List Nat) : Nat → List Nat → Nat → List (Nat × List Bool)
  | 0, _, _ => []
  | f + 1, prev, k =>
    match all.drop k with
    | [] => []
    | x :: r =>
      let run := 1 + (r.takeWhile (· == x)).length
      let n := 1 + Config.runPick all k % run
      if x = 0 ∧ 11 ≤ n then (18, bitsLsb 7 (min n 138 - 11)) :: lenSymbols all f [0] (k + min n 138)
      else if x = 0 ∧ 3 ≤ n then (17, bitsLsb 3 (n - 3)) :: lenSymbols all f [0] (k + n)
      else if 3 ≤ n ∧ prev = [x] then (16, bitsLsb 2 (min n 6 - 3)) :: lenSymbols all f [x] (k + min n 6)
      else (x, []) :: lenSymbols all f [x] (k + 1)

/-- How many lengths there are without trailing zeros, at least `least`. -/
def lensUsed (least : Nat) (lens : List Nat) : Nat := max least (lens.length - (lens.reverse.takeWhile (· == 0)).length)

/-- A block's candidate (R180, R181): fixed codes, or dynamic ones with their description. -/
def blockBits (dynamic final : Bool) (ts : List LzToken) : List Bool :=
  if dynamic then
    let lit := codeLens 15 (countOf 286 (ts.map LzToken.lit? ++ [256]))
    let dist := codeLens 15 (countOf 30 (ts.filterMap LzToken.dist?))
    let hlit := lensUsed 257 lit
    let hdist := lensUsed 1 dist
    let seq := lit.take hlit ++ dist.take hdist
    let cls := lenSymbols seq (seq.length + 1) [] 0
    let cl := codeLens 7 (countOf 19 (cls.map (·.1)))
    let order := clOrder.map (fun i => cl.getD i 0)
    let hclen := lensUsed 4 order
    [final, false, true] ++ bitsLsb 5 (hlit - 257) ++ bitsLsb 5 (hdist - 1) ++ bitsLsb 4 (hclen - 4) ++
      (order.take hclen).flatMap (bitsLsb 3) ++ cls.flatMap (fun c => codeBits cl c.1 ++ c.2) ++ tokenBits lit dist ts
  else [final, true, false] ++ tokenBits fixedLit fixedDist ts

/-- A stored block after `at_` bits of the stream. -/
def storedBits (final : Bool) (at_ : Nat) (d : List Byte) : List Bool :=
  [final, false, false] ++ List.replicate ((8 - (at_ + 3) % 8) % 8) false ++ bitsLsb 16 d.length ++ bitsLsb 16 (65535 - d.length) ++
    bitsOfBytes d

/-- Blocks of a compression job's input (R180). -/
def compressBlocks (n : Nat) : Nat := max 1 ((n + 32767) / 32768)

/-- Block k of an input as it stands after `at_` bits (R180). -/
def deflateBlock (level : Nat) (d : List Byte) (k at_ : Nat) : List Bool :=
  let final := k + 1 == compressBlocks d.length
  let stop := min (32768 * (k + 1)) d.length
  let stored := storedBits final at_ (slice d (32768 * k) (stop - 32768 * k))
  if d.isEmpty then blockBits false true []
  else if level = 0 then stored
  else
    let cand := blockBits (2 ≤ level) final (lzTokens (2 ^ (level - 1)) (2 ≤ level) d stop 32769 (32768 * k))
    if stored.length < cand.length then stored else cand

/-- The first `n` blocks of an input. -/
def deflateBits (level : Nat) (d : List Byte) : Nat → List Bool
  | 0 => []
  | k + 1 => let b := deflateBits level d k; b ++ deflateBlock level d k b.length

/-- Bits as bytes, each byte's least significant bit first, the last one filled with zeros. -/
def bytesOfBits : Nat → List Bool → List Byte
  | 0, _ => []
  | f + 1, bs => if bs.isEmpty then [] else BitVec.ofNat 8 (leBits (bs.take 8)) :: bytesOfBits f (bs.drop 8)
where leBits : List Bool → Nat
  | [] => 0
  | b :: r => bitOf b + 2 * leBits r

/-- The header of a format and level (R182). -/
def compressHead (format level : Nat) : List Byte :=
  match format with
  | 2 => [0x78, if level ≤ 1 then 0x01 else if level ≤ 5 then 0x5E else if level = 6 then 0x9C else 0xDA]
  | 3 => [0x1F, 0x8B, 8, 0, 0, 0, 0, 0, if level = 1 then 4 else if level = 9 then 2 else 0, 255]
  | _ => []

/-- The trailer of a format (R182). -/
def compressTail (format : Nat) (d : List Byte) : List Byte :=
  match format with
  | 2 => (leBytes 4 (adler32 d)).reverse
  | 3 => leBytes 4 (crc32 d) ++ leBytes 4 d.length
  | _ => []

/-- The output of a compression job (R180-R182): it depends on the input, FORMAT and LEVEL alone. -/
def compress (format level : Nat) (d : List Byte) : List Byte :=
  let bits := deflateBits level d (compressBlocks d.length)
  compressHead format level ++ bytesOfBits (bits.length / 8 + 1) bits ++ compressTail format d

/-- What stands at OUT_ADDR when the first `k` blocks are proven (R184, R185): their whole bytes, after the header. -/
def compressProven (format level : Nat) (d : List Byte) (k : Nat) : List Byte :=
  let bits := deflateBits level d k
  if k = 0 then [] else compressHead format level ++ bytesOfBits (bits.length / 8) bits

end Sys2Proof.Machine
end

