-- ==== Sys2Proof/Machine/Jobs.lean ====
section
/-! DEFINITION. Job rings, compression engines and check units (R165-R198). -/

namespace Sys2Proof.Machine

/-- Ring q's registers. -/
def cmpRing (q word : Nat) : Nat := cmpBase + 0x100 + q * 0x20 + word

/-- Check context c of the media die (0) or net die (1). -/
def chkCtx (die c word : Nat) : Nat := cmpBase + 0x11000 + die * 0x10000 + c * 0x40 + word

/-- Reverses the low w bits of a number. -/
def reflect : Nat → Nat → Nat
  | 0, _ => 0
  | w + 1, x => x % 2 * 2 ^ w + reflect w (x / 2)

/-- The parameters of a check context (R186, R197). -/
structure ChkParams where
  width : Nat
  refin : Bool
  refout : Bool
  incoming : Bool
  big : Bool
  alive : Nat
  maxGap : Nat
  poly : Nat
  init : Nat
  xorout : Nat
  deriving DecidableEq, Repr

def State.chkParams (s : State) (die c : Nat) : ChkParams :=
  let w := s.reg (chkCtx die c 0)
  { width := fld w 0 7, refin := fld w 7 1 == 1, refout := fld w 8 1 == 1, incoming := fld w 9 1 == 1,
    big := fld w 10 1 == 1, alive := fld w 16 5, maxGap := fld w 24 8, poly := s.reg64 (chkCtx die c 8),
    init := s.reg64 (chkCtx die c 0x10), xorout := s.reg64 (chkCtx die c 0x18) }

/-- start() of R186. -/
def ChkParams.start (p : ChkParams) : Nat := p.init % 2 ^ p.width

def ChkParams.bitStep (p : ChkParams) : Nat → Nat → Nat
  | 0, r => r
  | n + 1, r =>
    p.bitStep n (if r / 2 ^ (p.width - 1) % 2 = 1 then (r * 2 ^^^ p.poly) % 2 ^ p.width else r * 2 % 2 ^ p.width)

/-- update() of R186 for one byte. -/
def ChkParams.update (p : ChkParams) (r : Nat) (b : Byte) : Nat :=
  let x := if p.refin then reflect 8 b.toNat else b.toNat
  p.bitStep 8 (r ^^^ x * 2 ^ (p.width - 8))

def ChkParams.run (p : ChkParams) (r : Nat) (bs : List Byte) : Nat := bs.foldl p.update r

/-- final() of R186, with the bits above WIDTH as 0 (R188). -/
def ChkParams.fin (p : ChkParams) (r : Nat) : Nat :=
  ((if p.refout then reflect p.width r else r) ^^^ p.xorout) % 2 ^ p.width

def ChkParams.bytes (p : ChkParams) (n v : Nat) : List Byte := if p.big then (leBytes n v).reverse else leBytes n v

def ChkParams.value (p : ChkParams) (b : List Byte) : Nat := leNat (if p.big then b.reverse else b)

def ChkParams.checkLen (p : ChkParams) : Nat := (p.width + 7) / 8

def ChkParams.aliveLen (p : ChkParams) : Nat := if p.alive = 0 then 0 else if p.alive ≤ 8 then 1 else 2

/-- A counter of a check context rises: 0 MSGS, 1 MISMATCHES, 2 REPEATS, 3 GAPS. -/
def State.chkBump (s : State) (die c i : Nat) : State := s.bump (chkCtx die c (0x2C + 4 * i)) (chkCtx die c 0x3C) i

def State.setRunning (s : State) (die c v : Nat) : State :=
  (s.setReg (chkCtx die c 0x20) (BitVec.ofNat 32 v)).setReg (chkCtx die c 0x24) (BitVec.ofNat 32 (v / 2 ^ 32))

def State.setAlive (s : State) (die c last : Nat) (synced : Bool) : State :=
  s.setReg (chkCtx die c 0x28) (packFields [(0, last), (16, bitOf synced)])

/-- The alive test of R190 on a received value: the status and the context after it. -/
def State.aliveTest (s : State) (die c v : Nat) : Status × State :=
  let p := s.chkParams die c
  let last := s.regFld (chkCtx die c 0x28) 0 16
  let synced := s.regFld (chkCtx die c 0x28) 16 1 = 1
  let d := (v + 2 ^ p.alive - last % 2 ^ p.alive) % 2 ^ p.alive
  if !synced then (0, s.setAlive die c v true)
  else if d = 1 then (0, s.setAlive die c v true)
  else if 2 ≤ d ∧ d ≤ p.maxGap + 1 ∧ d < 2 ^ (p.alive - 1) then (0, (s.setAlive die c v true).chkBump die c 3)
  else if d = 0 ∨ d ≥ 2 ^ (p.alive - 1) then (0x0802, s.chkBump die c 2)
  else (0x0803, s.chkBump die c 3)

/-- A check job on a context (R187-R191): its status, its output and the state after it. -/
def State.checkRun (s : State) (die c : Nat) (first last : Bool) (input : List Byte) : Status × List Byte × State :=
  let p := s.chkParams die c
  if s.regFld (chkCtx die c 4) 2 1 = 0 then (0x0805, [], s)
  else if last ∧ p.incoming ∧ input.length < p.checkLen + p.aliveLen then (0x0804, [], s)
  else
    let s := if first then s.setBits (chkCtx die c 0x28) 16 1 0 else s
    let r := if first then p.start else s.reg64 (chkCtx die c 0x20)
    if !last then (0, if p.incoming then [] else input, s.setRunning die c (p.run r input))
    else if !p.incoming then
      let next := (s.regFld (chkCtx die c 0x28) 0 16 + 1) % 2 ^ p.alive
      let field := if p.alive = 0 then [] else p.bytes p.aliveLen next
      let r := p.run (p.run r input) field
      let s := if p.alive = 0 then s else s.setBits (chkCtx die c 0x28) 0 16 next
      (0, input ++ field ++ p.bytes p.checkLen (p.fin r), (s.setRunning die c r).chkBump die c 0)
    else
      let n := input.length - p.checkLen
      let r := p.run r (input.take n)
      let s := (s.setRunning die c r).chkBump die c 0
      if p.fin r ≠ p.value (input.drop n) then (0x0801, [], s.chkBump die c 1)
      else if p.alive = 0 then (0, input.take n, s)
      else
        let m := n - p.aliveLen
        let t := s.aliveTest die c (p.value ((input.take n).drop m) % 2 ^ p.alive)
        (t.1, if t.1 = 0 then input.take m else [], t.2)

/-- Entries of a ring. -/
def State.ringEntries (s : State) (q : Nat) : Nat := 2 ^ s.regFld (cmpRing q 0x10) 0 5

def State.ringOn (s : State) (q : Nat) : Bool := decide (q < 16) && s.regFld (cmpRing q 0x10) 6 1 == 1

/-- Memory of a job's owner: its run's space, or the ring's memory, host memory of function 0 or bulk memory. -/
def State.jobRead (s : State) (o : JobOwner) (addr n : Nat) : List Byte :=
  match o with
  | .ring q =>
    if s.regFld (cmpRing q 0x10) 5 1 = 1 then s.bulkRead addr n else memRead s.hostMem (hostKey 0 addr) n
  | .run slot _ _ => match s.runAt slot with
    | some r => s.vRead r addr n
    | none => List.replicate n 0

def State.jobWrite (s : State) (o : JobOwner) (addr : Nat) (b : List Byte) : State :=
  if b.isEmpty then s
  else match o with
    | .ring q =>
      if s.regFld (cmpRing q 0x10) 5 1 = 1 then { s with bulkMem := memWrite s.bulkMem addr b }
      else { s with hostMem := memWrite s.hostMem (hostKey 0 addr) b }.emit (.hostWrite 0 addr b)
    | .run slot _ _ => (s.fillRange slot addr b.length true (b.length / 65536 + 2)).vWrite slot addr b

/-- Descriptors of a ring that wait (R171). -/
def State.ringAvail (s : State) (q : Nat) : Nat :=
  let n := s.ringEntries q
  (s.regFld (cmpRing q 0x14) 0 17 % n + n - s.cmp.started.getD q 0 % n) % n

/-- A job ends (R170, R171): its completion is written, HEAD passes it, the vector is raised; or the run's DMA has its
completion. -/
def State.jobComplete (s : State) (o : JobOwner) (d : JobDesc) (st : Status) (detail inBits out va vb block check : Nat) :
    State :=
  match o with
  | .ring q =>
    let cfg := cmpRing q 0x10
    let c := leBytes 2 st.toNat ++ leBytes 2 detail ++ leBytes 4 d.tag ++ leBytes 8 inBits ++ leBytes 8 out ++
      leBytes 8 va ++ leBytes 8 vb ++ leBytes 4 block ++ leBytes 4 check
    let head := s.regFld (cmpRing q 0x18) 0 17
    let s := s.jobWrite o (s.reg64 (cmpRing q 8) + 48 * (head % s.ringEntries q)) c
    let s := s.setReg (cmpRing q 0x18) (BitVec.ofNat 32 ((head + 1) % s.ringEntries q))
    let s := s.setReg (cmpRing q 0x1C) (BitVec.ofNat 32 st.toNat)
    if s.regFld cfg 19 1 = 1 then s.raiseVector 0 (s.regFld cfg 8 11) else s
  | .run slot tile desc =>
    let s := s.emit (.completion desc [st.toNat, detail, d.tag, inBits, out, va, vb, block, check])
    match s.runAt slot with
    | some r => match r.physTile tile with
      | some p => s.dmaMoved p desc
      | none => s
    | none => s

def State.setCmpQueue (s : State) (l : List CmpSub) : State := { s with cmp := { s.cmp with queue := l } }

/-- CMP_RING_DOORBELL (R171, R192): the descriptors up to the new TAIL are submitted. -/
def State.cmpDoorbell (s : State) (q : Nat) (v : Word) : State :=
  if q < 16 then
    let old := s.ringAvail q
    let s := s.plainWrite (cmpRing q 0x14) v
    s.setCmpQueue (s.cmp.queue ++ List.replicate (s.ringAvail q - old) (.ring q))
  else s

/-- A ring that is enabled submits what lies between HEAD and TAIL; one that is disabled has nothing submitted. -/
def State.ringResync (s : State) (q : Nat) : State :=
  s.setCmpQueue (s.cmp.queue.filter (· != .ring q) ++
    (if s.ringOn q then List.replicate (s.ringAvail q) (.ring q) else []))

def execCmpRingDoorbell (q : Nat) (v : Word) (s : State) : Host.Outcome State Fault Refusal := .next (s.cmpDoorbell q v)

/-- A job descriptor that R172 does not refuse. -/
def JobDesc.ok (d : JobDesc) : Bool :=
  decide (1 ≤ d.op ∧ d.op ≤ 3) && (d.op == 3 || decide (1 ≤ d.format ∧ d.format ≤ 5)) && d.flags / 32 % 8 == 0 &&
    decide (d.flags / 256 % 16 ≤ 9) && d.flags / 4096 == 0 && !(d.flags.testBit 1 && d.stateAddr == 0)

/-- The least capacity of a compression job (R183). -/
def JobDesc.needs (d : JobDesc) : Nat :=
  d.inLen + 5 * max 1 ((d.inLen + 32767) / 32768) + (match d.format with | 2 => 6 | 3 => 18 | _ => 0)

/-- A resume record that R179 accepts. -/
def State.resumeOk (s : State) (d : JobDesc) (b : List Byte) : Bool :=
  leField b 0 4 == 0x434D5052 && leField b 4 2 == 1 && leField b 6 1 == d.format &&
    leField b 0x68 4 == s.fuses.partId && leField b 0x1FC 4 == crc32c (b.take 0x1FC) &&
    (d.histAddr != 0 || leField b 0x10 8 == 0)

/-- Why a job ends before any work: status, DETAIL and VALUE_A, or none. -/
def State.jobRefusal (s : State) (o : JobOwner) (d : JobDesc) : Option (Status × Nat × Nat) :=
  if !d.ok then some (0x0101, 0, 0)
  else if d.op = 2 ∧ d.format ≥ 4 then some (0x0707, 3, d.format)
  else if d.op = 2 ∧ d.outCap < d.needs then some (0x0101, 0, 0)
  else if d.op = 1 ∧ d.flags.testBit 1 ∧ !s.resumeOk d (s.jobRead o d.stateAddr 512) then some (0x070C, 0, 0)
  else if d.op = 3 ∧ s.regFld (chkCtx 0 d.format 4) 2 1 = 0 then some (0x0805, 0, 0)
  else none

/-- Whether an engine can take a job: engines 0 to 31 compress and decompress, 32 to 47 are check units (R172, R185,
R192, R193, R603). -/
def State.engineTakes (s : State) (e : Nat) (d : JobDesc) : Bool :=
  !s.cmp.jobs.any (fun j => j.engine == e) &&
    (if d.op = 3 then decide (32 ≤ e ∧ e < 48) && s.regFld (chkCtx 0 d.format 4) 0 1 == 0 &&
        !s.cmp.jobs.any (fun j => j.desc.op == 3 && j.desc.format == d.format) && !s.unitHeld 1 8 (e - 32)
     else decide (e < 32) && !s.cmp.oos.getLsbD e && !s.unitHeld 0 6 e)

/-- A job that is refused or that an engine takes. -/
def State.jobTake (s : State) (e : Nat) (o : JobOwner) (d : JobDesc) (retried : Bool) : State :=
  match s.jobRefusal o d with
  | some (st, detail, va) => (s.jobCount st).jobComplete o d st detail 0 0 va 0 0 0
  | none => { s with cmp := { s.cmp with jobs := s.cmp.jobs ++ [{ engine := e, owner := o, desc := d, retried := retried }] } }

/-- The descriptor of a ring that is the k-th from the next one to start. -/
def State.ringDesc (s : State) (q k : Nat) : JobDesc :=
  jobDesc (s.jobRead (.ring q) (s.reg64 (cmpRing q 0) + 64 * ((s.cmp.started.getD q 0 + k) % s.ringEntries q)) 64)

/-- Of jobs submitted one after another, one names a check context; `seen` are the rings already passed (R192). -/
def State.namesContext (s : State) (c : Nat) : List Nat → List CmpSub → Bool
  | _, [] => false
  | seen, .run _ d _ :: r => (d.op == 3 && d.format == c) || s.namesContext c seen r
  | seen, .ring q :: r =>
    let d := s.ringDesc q (seen.count q)
    (d.op == 3 && d.format == c) || s.namesContext c (q :: seen) r

/-- A job can start on an engine, or is refused at once; on a check context, jobs submitted before it start first (R192). -/
def State.jobReady (s : State) (e : Nat) (o : JobOwner) (d : JobDesc) (before : List CmpSub) : Bool :=
  (s.jobRefusal o d).isSome || (s.engineTakes e d && !(d.op == 3 && s.namesContext d.format [] before))

/-- CMP_JOB_START (R171, R172, R192): engine e takes the next descriptor of ring q, or the oldest job of a run that waits. -/
def State.cmpJobStart (s : State) (e : Nat) (q : Option Nat) : State :=
  match q with
  | some q =>
    let d := s.ringDesc q 0
    if !s.ringOn q || s.ringAvail q == 0 || !s.jobReady e (.ring q) d (s.cmp.queue.takeWhile (· != .ring q)) then s
    else
      let i := s.cmp.started.getD q 0 % s.ringEntries q
      let s := { s with cmp := { s.cmp with
        started := modAt s.cmp.started q (fun _ => (i + 1) % s.ringEntries q),
        queue := s.cmp.queue.erase (.ring q) } }
      s.jobTake e (.ring q) d false
  | none =>
    let live (x : CmpSub) : Bool := match x with
      | .run (.run slot _ _) _ _ => (match s.runAt slot with | some r => r.state == .running | none => false)
      | _ => false
    match s.cmp.queue.find? live with
    | some (.run o d retried) =>
      if s.jobReady e o d (s.cmp.queue.takeWhile (fun x => !live x)) then
        (s.setCmpQueue (s.cmp.queue.erase (.run o d retried))).jobTake e o d retried
      else s
    | _ => s

def execCmpJobStart (e : Nat) (q : Option Nat) (s : State) : Host.Outcome State Fault Refusal := .next (s.cmpJobStart e q)

def State.dropJob (s : State) (j : CmpJob) : State := { s with cmp := { s.cmp with jobs := s.cmp.jobs.erase j } }

/-- A run's job meets a range of its space that does not answer (R360): the run ends. -/
def State.jobRange (s : State) (o : JobOwner) (write : Bool) (addr n : Nat) (go : State) : State :=
  match o with
  | .ring _ => go
  | .run slot tile _ => match s.runAt slot with
    | none => s
    | some r => match r.check write addr n with
      | .fault st va => s.endRun slot st 0 tile va
      | _ => go

/-- EXPECTED_LENGTH of a job; 0 is not checked (R169). -/
def JobDesc.expects (d : JobDesc) : Option Nat := if d.expected = 0 then none else some d.expected

/-- A run's job whose run is being pre-empted. -/
def State.jobPreempted (s : State) (j : CmpJob) : Bool :=
  match j.owner with
  | .run slot _ _ => (match s.runAt slot with | some r => r.state == .preempting | none => false)
  | .ring _ => false

/-- The output at which a job stops for lack of room, at most 2^40 - 1 bytes, or at a 4 KiB boundary n when its run is pre-empted
(R167, R176, R362). -/
def State.jobRoom (s : State) (j : CmpJob) (n : Nat) : Nat :=
  let cap := min j.desc.outCap (2 ^ 40 - 1)
  if s.jobPreempted j && n % 4096 == 0 then min n cap else cap

/-- The window of a job that goes on from a record (R177). -/
def recordWindow (r : List Byte) : Nat :=
  if leField r 6 1 ≤ 3 then 32768 else if leField r 6 1 = 5 then 65536 else leField r 0x70 8

/-- The history a resumed job reads: the last H bytes of the output so far (R166, R177). -/
def State.jobHistory (s : State) (j : CmpJob) (r : List Byte) : List Byte :=
  s.jobRead j.owner j.desc.histAddr (min (recordWindow r) (leField r 0x10 8))

/-- The completion and the record of a decompression (R173, R176): where it stands, its output, its block, where the block began, the
bits the input reached, and its record. -/
def stopOutcome (more : Bool) (why : InfStop) (pos endPos start : Nat) (output : List Byte) (block : Nat) (record : List Byte) :
    JobOutcome :=
  let base : JobOutcome := { status := 0, inBits := pos, output := output, block := block }
  match why with
  | .done rest => { base with inBits := endPos - rest.length }
  | .full => { base with status := 0x0709, record := record }
  | .short => if more then { base with status := 0x070B, record := record } else { base with status := 0x0706, valueA := endPos }
  | .err st detail va vb rest =>
    { base with
      status := st, detail := detail, inBits := endPos - rest.length, valueA := va,
      valueB := vb.getD (endPos - rest.length - start) }

/-- How a decompression of formats 1 to 3 ends. -/
def Inflate.outcome (more : Bool) (part : Nat) (r : InfStop × Inflate) : JobOutcome :=
  let z := r.2
  let at_ := z.pos z.bits
  stopOutcome more r.1 at_ z.endPos (if z.phase = 1 then at_ else z.start) z.output z.block (z.record part)

/-- How a decompression of formats 4 and 5 ends. -/
def Frames.outcome (more : Bool) (part : Nat) (r : InfStop × Frames) : JobOutcome :=
  let z := r.2
  stopOutcome more r.1 z.pos z.endPos (if z.phase = 1 then z.pos else z.start) z.output z.blockIndex (z.record part)

/-- How a decompression job ends; `stop` is where a pre-empted run's job stops (R173-R179, R362). -/
def State.decompressOutcome (s : State) (j : CmpJob) (stop : Nat) : JobOutcome :=
  let d := j.desc
  let more := d.flags.testBit 2
  let room := s.jobRoom j stop
  let input := s.jobRead j.owner d.inAddr d.inLen
  let old := s.jobRead j.owner d.stateAddr 512
  let part := s.fuses.partId
  if d.format ≤ 3 then
    let z : Inflate := if d.flags.testBit 1 then .resume old input room d.expects (s.jobHistory j old)
      else .fresh d.format input room d.expects
    Inflate.outcome more part (z.decode more)
  else
    let z : Frames := if d.flags.testBit 1 then .resume old input room d.expects (s.jobHistory j old)
      else .fresh d.format input room d.expects
    Frames.outcome more part (z.decode more)

/-- The rest of a pre-empted job, to be submitted again with RESUME = 1 (R177, R362). -/
def JobDesc.rest (d : JobDesc) (o : JobOutcome) (from_ : Nat) : JobDesc :=
  let took := o.inBits / 8 - from_
  { d with
    flags := if d.flags.testBit 1 then d.flags else d.flags + 2, inAddr := d.inAddr + took, inLen := d.inLen - took,
    outAddr := d.outAddr + o.output.length, outCap := d.outCap - o.output.length,
    histAddr := d.outAddr + o.output.length - min (recordWindow o.record) (leField o.record 0x10 8) }

/-- DECOMPRESS_JOB_END (R173-R178): the output, on a stop the resume record, then the completion. A run that is being
pre-empted stops its job; the rest is submitted again with RESUME (R362). -/
def State.decompressJobEnd (s : State) (e stop : Nat) : State :=
  match s.cmp.jobs.find? (fun j => j.engine == e && j.desc.op == 1) with
  | none => s
  | some j =>
    let d := j.desc
    let o := s.decompressOutcome j stop
    let go : State :=
      let from_ := if d.flags.testBit 1 then leField (s.jobRead j.owner d.stateAddr 512) 8 8 / 8 else 0
      let t := (s.dropJob j).jobWrite j.owner d.outAddr o.output
      let t := t.jobWrite j.owner d.stateAddr o.record
      if s.jobPreempted j && o.status == 0x0709 && decide (o.output.length < d.outCap) then
        t.setCmpQueue (t.cmp.queue ++ [.run j.owner (d.rest o from_) j.retried])
      else
        (t.jobCount o.status).jobComplete j.owner d o.status o.detail o.inBits o.output.length o.valueA o.valueB
          o.block (crc32c o.output)
    s.jobRange j.owner true d.outAddr o.output.length go

def execDecompressJobEnd (e stop : Nat) (s : State) : Host.Outcome State Fault Refusal :=
  .next (s.decompressJobEnd e stop)

/-- COMPRESS_JOB_END (R180-R185): the compressed output; or, with PROOF, a mismatch in block `bad`, which leaves only the proven blocks,
takes the engine out of service, and makes a run's job start once more. -/
def State.compressJobEnd (s : State) (e : Nat) (bad : Option Nat) : State :=
  match s.cmp.jobs.find? (fun j => j.engine == e && j.desc.op == 2) with
  | none => s
  | some j =>
    let d := j.desc
    let level := d.flags / 256 % 16
    let input := s.jobRead j.owner d.inAddr d.inLen
    let end_ (s : State) (st : Status) (out : List Byte) (block : Nat) : State :=
      s.jobRange j.owner true d.outAddr out.length
        (((s.jobWrite j.owner d.outAddr out).jobCount st).jobComplete j.owner d st 0 (8 * d.inLen) out.length out.length 0
          block (crc32c input))
    match bad with
    | none => (s.dropJob j |> fun s => end_ s 0 (compress d.format level input) (compressBlocks d.inLen - 1))
    | some k =>
      if !d.flags.testBit 0 || decide (k ≥ compressBlocks d.inLen) then s
      else
        let s := ((s.dropJob j).log 0x070A cmpBase e).bump (cmpBase + 0x18) (cmpBase + 0x1C) 2
        let s := { s with cmp := { s.cmp with oos := setBit s.cmp.oos e true } }
        match j.owner, j.retried with
        | .run _ _ _, false => (s.jobCount 0x070A).setCmpQueue (s.cmp.queue ++ [.run j.owner d true])
        | _, _ => end_ s 0x070A (compressProven d.format level input k) (k - 1)

def execCompressJobEnd (e : Nat) (bad : Option Nat) (s : State) : Host.Outcome State Fault Refusal :=
  .next (s.compressJobEnd e bad)

/-- CHECK_JOB_END (R187-R191). -/
def State.checkJobEnd (s : State) (e : Nat) : State :=
  match s.cmp.jobs.find? (fun j => j.engine == e && j.desc.op == 3) with
  | none => s
  | some j =>
    let d := j.desc
    let r := s.checkRun 0 d.format (d.flags.testBit 3) (d.flags.testBit 4) (s.jobRead j.owner d.inAddr d.inLen)
    if r.2.1.length > d.outCap then
      ((s.dropJob j).jobCount 0x0101).jobComplete j.owner d 0x0101 0 0 0 0 0 0 0
    else
      s.jobRange j.owner true d.outAddr r.2.1.length
        (((((r.2.2).dropJob j).jobWrite j.owner d.outAddr r.2.1).jobCount r.1).jobComplete j.owner d r.1 0
          (if r.1 = 0x0804 ∨ r.1 = 0x0805 then 0 else 8 * d.inLen) r.2.1.length 0 0 0 (crc32c r.2.1))

def execCheckJobEnd (e : Nat) (s : State) : Host.Outcome State Fault Refusal := .next (s.checkJobEnd e)

/-- No job holds a check context (R193). -/
def State.chkIdle (s : State) (die c : Nat) : Bool :=
  die != 0 || !s.cmp.jobs.any (fun j => j.desc.op == 3 && j.desc.format == c)

/-- CHK_CTX_HOLD (R193, R197): CHK_CTX_CTRL takes HOLD and VALID. -/
def State.chkHold (s : State) (die c : Nat) (v : Word) : State :=
  if die < 2 ∧ c < 256 then s.plainWrite (chkCtx die c 4) v else s

def execChkCtxHold (die c : Nat) (v : Word) (s : State) : Host.Outcome State Fault Refusal := .next (s.chkHold die c v)

/-- The presets of R194: width, polynomial, INIT, REFIN and REFOUT, XOROUT, and BIG_ENDIAN where the table names an order. -/
def chkPreset : Nat → Option (Nat × Nat × Nat × Bool × Nat × Option Bool)
  | 1 => some (8, 0x07, 0, false, 0, none)
  | 2 => some (16, 0x8005, 0, true, 0, some false)
  | 3 => some (16, 0x1021, 0xFFFF, false, 0, some true)
  | 4 => some (16, 0x1021, 0, true, 0, some false)
  | 5 => some (24, 0x864CFB, 0xB704CE, false, 0, some true)
  | 6 => some (32, 0x04C11DB7, 0xFFFFFFFF, true, 0xFFFFFFFF, some false)
  | 7 => some (32, 0x04C11DB7, 0xFFFFFFFF, false, 0xFFFFFFFF, some true)
  | 8 => some (32, 0x04C11DB7, 0xFFFFFFFF, false, 0, some true)
  | 9 => some (32, 0x1EDC6F41, 0xFFFFFFFF, true, 0xFFFFFFFF, some false)
  | 10 => some (64, 0x42F0E1EBA9EA3693, 0, false, 0, some true)
  | 11 => some (64, 0x42F0E1EBA9EA3693, 2 ^ 64 - 1, true, 2 ^ 64 - 1, some false)
  | _ => none

def State.setReg64 (s : State) (off v : Nat) : State :=
  (s.setReg off (BitVec.ofNat 32 v)).setReg (off + 4) (BitVec.ofNat 32 (v / 2 ^ 32))

/-- A write of CHK_CTX_CFG (R194, R198). -/
def State.chkCfgWrite (s : State) (die c : Nat) (v : Word) : State :=
  let w := fld v 0 7
  let a := fld v 16 5
  if w < 8 ∨ w > 64 ∨ (1 ≤ a ∧ a ≤ 3) ∨ a > 16 ∨ fld v 11 5 > 11 then s.log 0x0101 cmpBase (chkCtx die c 0) v.toNat
  else
    let s := s.plainWrite (chkCtx die c 0) v
    match chkPreset (fld v 11 5) with
    | none => s
    | some (width, poly, init, ref, xor, order) =>
      let s := s.setBits (chkCtx die c 0) 0 7 width
      let s := (s.setBits (chkCtx die c 0) 7 1 (bitOf ref)).setBits (chkCtx die c 0) 8 1 (bitOf ref)
      let s := match order with
        | some b => s.setBits (chkCtx die c 0) 10 1 (bitOf b)
        | none => s
      ((s.setReg64 (chkCtx die c 8) poly).setReg64 (chkCtx die c 0x10) init).setReg64 (chkCtx die c 0x18) xor

/-- CHK_CTX_WRITE (R193, R194, R198): word w of a context, at byte offset w. -/
def State.chkWrite (s : State) (die c w : Nat) (v : Word) : State :=
  if ¬(die < 2 ∧ c < 256 ∧ w % 4 = 0 ∧ w < 0x40) then s
  else if w = 4 then s.chkHold die c v
  else if w ≥ 0x2C then s.plainWrite (chkCtx die c w) v
  else if s.regFld (chkCtx die c 4) 0 1 = 0 ∨ !s.chkIdle die c then s.log 0x0806 cmpBase (chkCtx die c w)
  else if w = 0 then s.chkCfgWrite die c v
  else
    let s := s.plainWrite (chkCtx die c w) v
    if 8 ≤ w ∧ w < 0x20 then s.setBits (chkCtx die c 0) 11 5 0 else s

def execChkCtxWrite (die c w : Nat) (v : Word) (s : State) : Host.Outcome State Fault Refusal := .next (s.chkWrite die c w v)

/-- CMP and CHK words that are computed (R196, R197). -/
def viewCmp (s : State) (off : Nat) : Option Word :=
  if off = cmpBase then some (packFields [(0, 32), (8, 16)])
  else if off = cmpBase + 8 then some s.cmp.oos
  else if off = cmpBase + 0x10000 ∨ off = cmpBase + 0x20000 then some (packFields [(0, 16), (8, 256)])
  else
    let ctl (die : Nat) : Bool := decide (cmpBase + 0x11000 + die * 0x10000 ≤ off ∧ off < cmpBase + 0x15000 + die * 0x10000) &&
      off % 0x40 == 4
    let idle (die : Nat) : Word := s.reg off ||| packFields [(1, bitOf (s.chkIdle die ((off - cmpBase - 0x11000 - die * 0x10000) / 0x40)))]
    if ctl 0 then some (idle 0) else if ctl 1 then some (idle 1) else none

/-- A bus write of a CMP or CHK word: a ring's fields keep still while it is enabled (R196). -/
def writeCmp (s : State) (off : Nat) (v : Word) : Option State :=
  if off < cmpBase ∨ off ≥ decBase then none
  else
    let o := off - cmpBase
    if 0x100 ≤ o ∧ o < 0x300 then
      let q := (o - 0x100) / 0x20
      match (o - 0x100) % 0x20 with
      | 0x14 => some (s.cmpDoorbell q v)
      | 0x10 =>
        if s.ringOn q then some ((s.setBits off 6 1 (fld v 6 1)).ringResync q)
        else some ((s.plainWrite off v).ringResync q)
      | _ => if s.ringOn q then some s else some (s.plainWrite off v)
    else if 0x11000 ≤ o ∧ o < 0x15000 then some (s.chkWrite 0 ((o - 0x11000) / 0x40) (o % 0x40) v)
    else if 0x21000 ≤ o ∧ o < 0x25000 then some (s.chkWrite 1 ((o - 0x21000) / 0x40) (o % 0x40) v)
    else some (s.plainWrite off v)

end Sys2Proof.Machine
end

