-- ==== Sys2Proof/Machine/Media.lean ====
section
/-! DEFINITION. The commands of media and flash translation (R109-R164). -/

namespace Sys2Proof.Machine

/-- A media command is refused on its own path (R162). -/
def State.refuse (s : State) (p : ReqPath) (st : Status) (detail : Nat := 0) : State := s.reply p st detail

/-- The map units that `count` blocks from an LBA touch. -/
def unitsTouched (lba count : Nat) : List Nat :=
  (List.range ((lba + count + 3) / 4 - lba / 4)).map (· + lba / 4)

/-- The unit's new content: the written blocks over its current content (R125). -/
def mergeUnit (old data : List Byte) (u lba : Nat) : List Byte :=
  (List.range 4).flatMap (fun i =>
    let b := u * 4 + i
    if lba ≤ b ∧ b < lba + data.length / 4096 then slice data ((b - lba) * 4096) 4096
    else slice old (i * 4096) 4096)

/-- Does the command cover the whole unit? -/
def coversUnit (lba count u : Nat) : Bool := decide (lba ≤ u * 4 ∧ u * 4 + 4 ≤ lba + count)

/-- A block of a unit that a write keeps, because it lies outside what is written, cannot be read (R125). -/
def State.keptBad (s : State) (ns lba count u : Nat) : Bool :=
  match s.pmaOf ns u with
  | none => false
  | some p => (List.range 4).any (fun i =>
      !decide (lba ≤ u * 4 + i ∧ u * 4 + i < lba + count) && s.blockBad p i)

/-- Places units one after another. -/
def State.placeAll (s : State) (ns lba : Nat) (data : List Byte) : List Nat → List Nat → State
  | u :: us, p :: ps => (s.placeUnit ns u p (mergeUnit (s.unitBytes ns u) data u lba)).placeAll ns lba data us ps
  | _, _ => s

/-- A request that waits for some of these places waits for the MAP entries that now name them too (R126). -/
def State.waitsFor (s : State) (ps : List Nat) : State :=
  let upd (w : DurWait) : DurWait :=
    if w.units.any (fun x => ps.contains x) then { w with entries := max w.entries s.media.appended } else w
  { s with media := { s.media with waits := s.media.waits.map upd } }

/-- A write whose merges can be made ends (R119, R125, R130, R412): with 0x0201 and nothing stored when content that it keeps
cannot be read, else stored, journaled and acknowledged; with FUA only once it is programmed. -/
def State.endWrite (s : State) (p : ReqPath) (nsid lba : Nat) (w : PendingWrite) : State :=
  let count := w.data.length / 4096
  let us := unitsTouched lba count
  if us.any (fun u => s.keptBad nsid lba count u) then s.reply p 0x0201
  else
    let s := ((s.placeAll nsid lba w.data us w.pmas).healthBump 1 count).waitsFor w.pmas
    if w.fua then
      let d : DurWait := { path := p, kind := .flush, units := w.pmas, entries := s.media.appended }
      { s with media := { s.media with waits := s.media.waits ++ [d] } }.pushTail
    else s.reply p 0

/-- A read whose pages are all in ends: with its data, or with 0x0201 when a block of it failed every tier (R116, R119). A
stream's read halts the stream with 0x0408 (R82). A write that needed it goes on (R125). -/
def State.finishRead (s : State) (r : PendingRead) : State :=
  match r.write with
  | some w => s.endWrite r.path r.nsid r.lba w
  | none =>
    if s.nsReadable r.nsid (r.lba * 4096) (r.count * 4096) then
      let s := (s.healthBump 0 r.count).countReconstructs r.nsid (r.lba * 4096) (r.count * 4096)
      s.replyData r.path 0 0 [] (s.blocksBytes r.nsid r.lba r.count)
    else match r.path with
      | .stream c => s.streamUnreadable c
      | p => s.reply p 0x0201

/-- READ (R116, R124, R418): the range is checked, unmapped units read zeros without NAND, and the pages that hold
the other units are read; units still in the protected buffer need no page read. -/
def State.mediaRead (s : State) (p : ReqPath) (nsid lba count dataLen : Nat) : State :=
  if s.mediaStopped then s
  else match s.mediaGate with
    | some st => s.refuse p st
    | none =>
      match s.nsSeen nsid with
      | none => s.refuse p 0x0302
      | some ns =>
        match (if s.memberNs nsid then s.groupGate else none) with
        | some st => s.refuse p st
        | none =>
        if count = 0 ∨ count > 4096 ∨ dataLen ≠ count * 4096 then s.refuse p 0x0101
        else if lba + count > ns.cap * 4 then s.refuse p 0x0301
        else
          let pmas := ((unitsTouched lba count).filterMap (fun u => s.pmaSeen nsid u)).eraseDups
          let r : PendingRead := {
            path := p, nsid := nsid, lba := lba, count := count,
            waiting := pmas.filter (fun x => !s.media.buffered.contains x && !(s.memberNs nsid && !s.unitGood x)) }
          if r.waiting.isEmpty then s.finishRead r
          else { s with media := { s.media with reads := s.media.reads ++ [r] } }

def execRead (p : ReqPath) (nsid lba count dataLen : Nat) (s : State) : Host.Outcome State Fault Refusal :=
  .next (s.mediaRead p nsid lba count dataLen)

/-- A block joins the relocation queue (R118, R120, R135). -/
def State.queueRelocate (s : State) (block : Nat) : State :=
  if s.media.relocate.contains block then s
  else { s with media := { s.media with relocate := s.media.relocate ++ [block] } }

/-- Codewords of a unit failed every tier: they fail until they are rewritten, the failure is logged with namespace, LBA and PMA,
and counted (R119, R133). -/
def State.uncorrectable (s : State) (pma : Nat) (idx : List Nat) : State :=
  let s := { s with nand := { s.nand with badBlocks := addNew s.nand.badBlocks (idx.map (fun i => pma * 4 + i)) } }
  let s := s.healthBump 8 1
  match s.unitAt pma with
  | some (ns, u) => s.log 0x0201 medBase (u * 4 + idx.headD 0) pma 0 0 ns
  | none => s.log 0x0201 medBase 0 pma

/-- Band parity can rebuild the page (R116 tier 4): its block lies in an unverified band, and the parity of its row was not
lost. -/
def State.parityCovers (s : State) (pma : Nat) : Bool :=
  s.media.image.bands.any (fun b => b.state == .unverified && b.blocks.contains (s.blockOf pma) &&
    !b.lostRows.contains (pma - s.blockOf pma))

/-- A tier gives a codeword whose CRC-32C is the one its metadata hold; one that decodes with another CRC is not accepted
(R117). -/
def cwAccepted (crc : Nat) : CwTry → Bool
  | .miss => false
  | .decoded _ c => c == crc

/-- The page belongs to the member namespace of a stripe group (R116 tier 5). -/
def State.memberPage (s : State) (pma : Nat) : Bool := match s.unitAt pma with | some (ns, _) => s.memberNs ns | none => false

/-- The tier of R116 that completes a codeword of a page read, 0 when none does: each is tried when the ones before it have not
accepted it (R117). A lost target gives nothing itself (R135), one without read-level offsets has no tier 2 (R110), and under
another key no CRC matches. -/
def State.codewordTier (s : State) (pma : Nat) (r : NandResult) (i : Nat) : Nat :=
  let tries := r.codewords.getD i []
  let own := !s.media.lost.contains (pmaTarget pma) && s.keyOk pma && !s.nand.badBlocks.contains (pma * 4 + i)
  let ok (t : Nat) : Bool := own && cwAccepted (s.codewordCrc pma i) (tries.getD (t - 1) .miss)
  if ok 1 then 1
  else if ok 2 && !s.media.noTier2.contains (pmaTarget pma) then 2
  else if ok 3 then 3
  else if s.parityCovers pma && r.parityOk && s.keyOk pma && !s.nand.badBlocks.contains (pma * 4 + i) then 4
  else if s.memberPage pma && r.groupOk then 5
  else 0

def State.pageTiers (s : State) (pma : Nat) (r : NandResult) : List Nat := (List.range 4).map (s.codewordTier pma r)

/-- Codeword `i` decoded at tier 1 with a bit corrected (R116). -/
def cwCorrected (r : NandResult) (i : Nat) : Bool :=
  match (r.codewords.getD i []).headD .miss with
  | .decoded n _ => decide (n > 0)
  | .miss => false

/-- What a page read counts and records (R116-R119): codewords at the tier that accepted them, pages rebuilt from parity or from the
group, the block's relocation when a codeword needed tier 2 or higher, and the codewords that failed every tier. -/
def State.countPage (s : State) (pma : Nat) (r : NandResult) : State :=
  let ts := s.pageTiers pma r
  let first := ((List.range 4).filter (fun i => ts.getD i 0 == 1 && cwCorrected r i)).length
  let failed := (List.range 4).filter (fun i => ts.getD i 0 == 0)
  let s := ((s.healthBump 3 first).healthBump 4 (ts.count 2)).healthBump 5 (ts.count 3)
  let s := if ts.contains 4 then s.healthBump 6 1 else s
  let s := if ts.contains 5 then (s.healthBump 7 1).bump (grpBase + 0x30) (grpBase + 0x3C) 0 else s
  let s := if ts.any (fun t => decide (t ≥ 2)) then s.queueRelocate (s.blockOf pma) else s
  if failed.isEmpty then s else s.uncorrectable pma failed

/-- Every read that waited for the page goes on; those that wait for nothing more end. -/
def State.pageArrived (s : State) (pma : Nat) : State :=
  let rs := s.media.reads.map (fun r => { r with waiting := r.waiting.filter (· != pma) })
  let s := { s with media := { s.media with reads := rs.filter (fun r => !r.waiting.isEmpty) } }
  (rs.filter (fun r => r.waiting.isEmpty)).foldl (fun s r => s.finishRead r) s

/-- NAND_READ_COMPLETE (R115-R119): a page that reads wait for has been read. -/
def State.nandReadComplete (s : State) (pma : Nat) (r : NandResult) : State :=
  if s.media.reads.any (fun x => x.waiting.contains pma) then (s.countPage pma r).pageArrived pma else s

def execNandReadComplete (pma : Nat) (r : NandResult) (s : State) : Host.Outcome State Fault Refusal :=
  .next (s.nandReadComplete pma r)

/-- The pages that a patrol of a block reads: the first, the middle and the last of every plane (R120). -/
def State.patrolPages (s : State) (block : Nat) : List Nat :=
  let n := s.media.geometry.pagesPerBlock
  (List.range s.media.geometry.planes).flatMap (fun p => [block + p * n, block + p * n + n / 2, block + p * n + n - 1])

/-- PATROL_READ (R120): the patrol pages of a closed block have been read; a codeword at tier 2 or higher queues the block for
relocation, and one that fails every tier is recorded (R119). -/
def State.patrolRead (s : State) (block : Nat) (rs : List (Nat × NandResult)) : State :=
  let closed := s.media.image.bands.any (fun b => b.state != .opened && b.blocks.contains block)
  if closed && !s.mediaStopped && rs.map (·.1) == s.patrolPages block then
    rs.foldl (fun s x => if s.nand.badBlocks.any (fun b => b / 4 == x.1) then s else s.countPage x.1 x.2) s
  else s

def execPatrolRead (block : Nat) (rs : List (Nat × NandResult)) (s : State) : Host.Outcome State Fault Refusal :=
  .next (s.patrolRead block rs)

/-- Why a Write or Discard is refused: the namespace, the range, the seal, the worn state, a busy witness namespace
(R106, R127, R157, R158, R418). -/
def State.writeRefusal (s : State) (p : ReqPath) (nsid lba count : Nat) : Option Status :=
  match s.mediaGate with
  | some st => some st
  | none =>
    match s.nsInfo nsid with
    | none => some 0x0302
    | some ns =>
      if lba + count > ns.cap * 4 then some 0x0301
      else if ns.isSealed then some 0x0303
      else if s.media.health.worn then some 0x0307
      else if (match p with | .stream _ => false | _ => true) && s.streamWitness nsid then some 0x040F
      else none

/-- The places of the units that a write covers partly, and that must be read for it (R125). -/
def State.mergeReads (s : State) (ns lba count : Nat) : List Nat :=
  (((unitsTouched lba count).filter (fun u => !coversUnit lba count u)).filterMap (fun u => s.pmaOf ns u)).eraseDups.filter
    (fun p => !s.media.buffered.contains p)

/-- WRITE (R125, R129-R132, R157, R158): space is reserved for the whole command, a partly covered unit is merged with its content,
read as R116 says, and the command is acknowledged once its data and MAP entries are in the protected region. While a checkpoint
stalls admission, or the protected region has no room, nothing is admitted. A write to a group namespace is the group's (R533). -/
def State.mediaWrite (s : State) (p : ReqPath) (nsid lba : Nat) (data : List Byte) (pl : Placement) (fua : Bool := false) :
    State :=
  let count := data.length / 4096
  let us := unitsTouched lba count
  if s.mediaStopped || s.admissionHeld || !s.roomFor us.length || s.memberNs nsid then s
  else if count = 0 ∨ count > 4096 ∨ data.length % 4096 ≠ 0 then s.refuse p 0x0101
  else match s.writeRefusal p nsid lba count with
    | some st => s.refuse p st
    | none =>
      let s1 := s.openBands false pl.bands
      if s1.placesOk pl.pmas && pl.pmas.length == us.length then
        let w : PendingWrite := { data := data, pmas := pl.pmas, fua := fua }
        let wait := s1.mergeReads nsid lba count
        if wait.isEmpty then s1.endWrite p nsid lba w
        else
          let r : PendingRead := { path := p, nsid := nsid, lba := lba, count := count, waiting := wait, write := some w }
          { s1 with media := { s1.media with reads := s1.media.reads ++ [r] } }
      else s

def execWrite (p : ReqPath) (nsid lba : Nat) (data : List Byte) (fua : Bool) (pl : Placement) (s : State) :
    Host.Outcome State Fault Refusal := .next (s.mediaWrite p nsid lba data pl fua)

/-- Why a write or Discard of units of a group namespace is refused: the group's state, the namespace, the range, the seal,
the worn state, a busy witness namespace, a lost stripe (R526, R533, R546). -/
def State.groupWriteRefusal (s : State) (p : ReqPath) (nsid lba count : Nat) : Option Status :=
  match s.mediaGate with
  | some st => some st
  | none => match s.groupGate with
    | some st => some st
    | none => match s.nsSeen nsid with
      | none => some 0x0302
      | some ns =>
        if lba + count > ns.cap * 4 then some 0x0301
        else if ns.isSealed then some 0x0303
        else if s.media.health.worn then some 0x0307
        else if (match p with | .stream _ => false | _ => true) && s.streamWitness nsid then some 0x040F
        else if (unitsTouched lba count).any (fun u => s.stripeLost nsid (s.unitStripe u)) then some 0x0E07
        else none

/-- Group units become UNMAPPED one after another: where this position holds the share it is discarded, elsewhere it reads
zeros, and P and Q follow; none when this device has no place for them. -/
def State.groupDiscard (s : State) (ns u : Nat) : Nat → Option State
  | 0 => some s
  | n + 1 =>
    let st := s.unitStripe u
    let j := s.unitShare u
    let par := (s.newShares ns st [(j, List.replicate 16384 0)]).drop 1
    match s.putShares ns st par with
    | none => none
    | some s =>
      let s := if s.sharePos st j = s.group.self then s.journal (.discard ns (s.shareUnit st j) 1)
        else { s with group := { s.group with
          remoteShares := memZero s.group.remoteShares (shareKey ns st j) (shareKey ns st j + 16384) } }
      s.groupDiscard ns (u + 1) n

/-- DISCARD (R125, R155): every unit wholly covered becomes UNMAPPED and DISCARD is journaled; parts stay. A group
namespace's parity follows (R531). -/
def State.mediaDiscard (s : State) (p : ReqPath) (nsid lba count : Nat) : State :=
  let first := (lba + 3) / 4
  let n := (lba + count) / 4 - first
  if s.mediaStopped || s.admissionHeld then s
  else if count = 0 ∨ count > 16777216 then s.refuse p 0x0101
  else if s.memberNs nsid then
    match s.groupWriteRefusal p nsid lba count with
    | some st => s.refuse p st
    | none => if s.group.holding then s
      else match s.groupDiscard nsid first n with
        | some s => s.reply p 0
        | none => s
  else match s.writeRefusal p nsid lba count with
    | some st => s.refuse p st
    | none => (s.journalDiscard nsid first (n / 65535 + 1) n).reply p 0

def execDiscard (p : ReqPath) (nsid lba count : Nat) (s : State) : Host.Outcome State Fault Refusal :=
  .next (s.mediaDiscard p nsid lba count)

/-- FLUSH (R130, R136): waits for every write acknowledged before it; the journal tail is programmed. -/
def State.mediaFlush (s : State) (p : ReqPath) (nsid : Nat) : State :=
  if s.mediaStopped then s
  else match s.mediaGate with
    | some st => s.refuse p st
    | none =>
      if nsid ≠ 0xFFFFFFFF ∧ (s.nsInfo nsid).isNone then s.refuse p 0x0302
      else
        let w : DurWait := { path := p, kind := .flush, units := s.media.buffered, entries := s.media.appended }
        let s := { s with media := { s.media with waits := s.media.waits ++ [w] } }
        s.pushTail

def execFlush (p : ReqPath) (nsid : Nat) (s : State) : Host.Outcome State Fault Refusal :=
  .next (s.mediaFlush p nsid)

/-- FLUSH_COMPLETE (R130): each Flush whose writes and journal page have been programmed completes. -/
def State.flushComplete (s : State) : State := s.settle false

def execFlushComplete (s : State) : Host.Outcome State Fault Refusal := .next s.flushComplete

/-- PAGE_PROGRAM_DONE (R132, R133): pages of the write buffer have been transferred; a feature that waited for them
may complete. -/
def State.pageProgramDone (s : State) (pmas : List Nat) : State :=
  ((pmas.filter (fun p => s.media.buffered.contains p)).foldl (fun s p => s.pageProgrammed p) s).settle true

def execPageProgramDone (pmas : List Nat) (s : State) : Host.Outcome State Fault Refusal :=
  .next (s.pageProgramDone pmas)

/-- The units of a weak page must be rewritten elsewhere (R133): a codeword of it needed tier 3 or more and every one could be had,
or the page was never programmed, because its band was closed short. -/
def State.weakMoves (s : State) (w : WeakPage) : Bool :=
  (s.unitAt w.pma).isSome &&
  (s.media.buffered.contains w.pma ||
    (let ts := s.pageTiers w.pma w.result; ts.any (fun t => decide (t ≥ 3)) && !ts.contains 0))

/-- One weak page of a band's read-back (R133): it is rebuilt from parity where it needed tier 3, and moved, or what failed every
tier is settled where it is. -/
def State.settlePage (s : State) (w : WeakPage) : State :=
  let moves := s.weakMoves w
  let ts := s.pageTiers w.pma w.result
  let s := if s.media.buffered.contains w.pma then s
    else
      let rebuilt := ts.contains 3 && !ts.contains 4 && s.parityCovers w.pma && w.result.parityOk
      (if rebuilt then s.healthBump 6 1 else s).countPage w.pma w.result
  match s.unitAt w.pma with
  | some (ns, u) => if moves then s.moveUnit ns u w.dest else s
  | none => s

/-- What a read-back must give before its band is verified (R133): the pages named are the band's, every unit that only the write
buffer holds is among those that move, and the places they move to are free, in other bands, with room for them. -/
def State.verifyOk (s : State) (b : Band) (weak : List WeakPage) : Bool :=
  let mine (p : Nat) : Bool := b.blocks.contains (s.blockOf p)
  let dests := (weak.filter (fun w => s.weakMoves w)).map (·.dest)
  weak.all (fun w => mine w.pma) && (weak.map (·.pma)).eraseDups.length == weak.length &&
  (s.media.buffered.filter (fun p => mine p && (s.unitAt p).isSome)).all (fun p => weak.any (fun w => w.pma == p)) &&
  s.placesFree dests && dests.all (fun d => !mine d) && s.roomFor dests.length

/-- BAND_VERIFY_DONE (R133): every page of an unverified band has been read back; the weak ones are rewritten or settled,
BAND_VERIFIED is journaled, and a parity block all of whose bands are verified is erased and returned. -/
def State.bandVerifyDone (s : State) (id : Nat) (weak : List WeakPage) : State :=
  match s.media.image.bands.find? (fun b => b.id == id) with
  | none => s
  | some b =>
    if b.state != .unverified || s.mediaStopped || !s.verifyOk b weak then s
    else
      let s := weak.foldl (fun s w => s.settlePage w) s
      let s := { s with media := { s.media with
        buffered := s.media.buffered.filter (fun p => !b.blocks.contains (s.blockOf p)) } }
      let s := s.journal (.bandVerified id)
      let s := if s.media.image.bands.all (fun x => x.parity != b.parity || x.state == .verified) then
          let n := (s.nand.eraseCounts.find? (fun e => e.1 == b.parity)).elim 0 (·.2)
          { s with nand := { s.nand with
            freeBlocks := s.nand.freeBlocks ++ [b.parity], eraseCounts := natSet s.nand.eraseCounts b.parity (n + 1) } }
        else s
      (s.spareChanged.checkWornExit).settle true

def execBandVerifyDone (id : Nat) (weak : List WeakPage) (s : State) :
    Host.Outcome State Fault Refusal := .next (s.bandVerifyDone id weak)

/-- Moves the units of a list to a list of places. -/
def State.moveAll (s : State) : List (Nat × Nat) → List Nat → State
  | e :: es, p :: ps => (s.moveUnit (e.1 / 2 ^ 40) (e.1 % 2 ^ 40) p).moveAll es ps
  | _, _ => s

/-- A block is retired: journaled, counted, recorded, and out of use (R134). -/
def State.retireBlock (s : State) (block ctr : Nat) (st : Status) : State :=
  let s := s.journal (.blockRetire block)
  let s := { s with
    nand := { s.nand with
      retired := addNew s.nand.retired [block], freeBlocks := s.nand.freeBlocks.filter (· != block),
      eraseFirst := s.nand.eraseFirst.filter (· != block), lgBlocks := s.nand.lgBlocks.filter (· != block) },
    media := { s.media with
      relocate := s.media.relocate.filter (· != block), gc := s.media.gc.filter (fun j => j.src != block) } }
  (((s.healthBump ctr 1).healthBump 11 1).log st medBase 0 block).spareChanged

/-- PROGRAM_FAIL (R134): the page is rebuilt from its row's accumulator, the pages already in its block are read back, every unit
of the block that can be read is written to another band, the block is retired and 0x0202 recorded; the write that owns the data
sees no error. -/
def State.programFail (s : State) (pma : Nat) (dests : List Nat) : State :=
  let b := s.blockOf pma
  let us := (s.unitsIn b).filter (fun e => s.unitGood e.2)
  let ok := !s.nand.retired.contains b && us.length == dests.length && s.placesFree dests &&
    dests.all (fun d => ((s.bandOf (s.blockOf d)).map (·.id)) != ((s.bandOf b).map (·.id)))
  if ok then
    let s := s.moveAll us dests
    let s := { s with media := { s.media with buffered := s.media.buffered.filter (fun x => s.blockOf x != b) } }
    (s.retireBlock b 9 0x0202).settle true
  else s

def execProgramFail (pma : Nat) (dests : List Nat) (s : State) : Host.Outcome State Fault Refusal :=
  .next (s.programFail pma dests)

/-- ERASE_FAIL (R134): the block is retired and 0x0203 recorded; a garbage-collection job of it ends. -/
def State.eraseFail (s : State) (block : Nat) : State := s.retireBlock block 10 0x0203

def execEraseFail (block : Nat) (s : State) : Host.Outcome State Fault Refusal := .next (s.eraseFail block)

/-- TARGET_LOST (R113, R135): the target is marked lost, its open bands are closed short with the parity of their rows, its blocks
are queued for relocation ahead of every other, and with fewer than 32 targets left the media service is offline. -/
def State.targetLost (s : State) (c t : Nat) : State :=
  if !s.media.usable.contains (c, t) then s
  else
    let mine (b : Nat) : Bool := pmaTarget b == (c, t)
    let blocks := (s.media.image.bands.flatMap (·.blocks)).filter mine
    let close (b : Band) : Band :=
      if b.state == .opened && (b.blocks.any mine || mine b.parity) then
        { b with state := .unverified, rows := b.rows ++ b.accRows s.media.geometry }
      else b
    let s := { s with
      nand := { s.nand with
        freeBlocks := s.nand.freeBlocks.filter (fun b => !mine b), lgBlocks := s.nand.lgBlocks.filter (fun b => !mine b) },
      media := { s.media with
        usable := s.media.usable.filter (· != (c, t)), lost := s.media.lost ++ [(c, t)],
        excluded := s.media.excluded ++ [(c, t)],
        image := { s.media.image with bands := s.media.image.bands.map close },
        relocate := blocks ++ s.media.relocate.filter (fun b => !blocks.contains b) } }
    let s : State := (s.log 0x0206 medBase c t).spareChanged
    if s.media.usable.length < 32 then { s with media := { s.media with state := .noMedia } } else s

def execTargetLost (c t : Nat) (s : State) : Host.Outcome State Fault Refusal := .next (s.targetLost c t)

/-- JOURNAL_TAIL_TIMEOUT (R136): 10 ms after its first entry the tail is programmed. -/
def State.journalTailTimeout (s : State) : State :=
  if s.media.tail.isEmpty then s else (s.advance (s.media.tailSince + 10000000)).pushTail

def execJournalTailTimeout (s : State) : Host.Outcome State Fault Refusal := .next s.journalTailTimeout

/-- JOURNAL_PAGE_COMMIT (R126, R136): a program of the oldest journal page, which goes to two targets, has passed; once both have
passed the page is committed, and what waited for it completes. -/
def State.journalPageCommit (s : State) : State :=
  match s.media.programming with
  | [] => s
  | p :: ps =>
    if p.passed0 then
      let s := { s with
        nand := { s.nand with journal := s.nand.journal ++ [{ p with passed1 := true }] },
        media := { s.media with programming := ps, committed := s.media.committed + p.entries.length } }
      s.settle true
    else { s with media := { s.media with programming := { p with passed0 := true } :: ps } }

def execJournalPageCommit (s : State) : Host.Outcome State Fault Refusal := .next s.journalPageCommit

/-- CHECKPOINT_START (R139, R140): at the journal limit or the time limit, a checkpoint notes its start and the map segments changed
since the one before. -/
def State.checkpointStart (s : State) : State :=
  let gib := s.regFld mapBase 0 4
  let secs := s.regFld mapBase 16 10
  if s.media.ckpt.isSome || s.mediaStopped || !s.media.mapLoaded || s.media.sanitize.isSome then s
  else
    let s := if s.media.ckptBytes ≥ gib * 2 ^ 30 then s else s.advance (s.media.ckptStartedAt + secs * 1000000000)
    { s with media := { s.media with
      ckpt := some { image := s.media.image, start := s.media.nextJSeq, segments := s.media.changed },
      changed := [], ckptStartedAt := s.now, ckptBytes := 0 } }

def execCheckpointStart (s : State) : Host.Outcome State Fault Refusal := .next s.checkpointStart

/-- CHECKPOINT_DONE (R140, R141): each changed segment has been written to data bands, at the places given, and so has the directory
that names every segment's place; CHECKPOINT_DONE is journaled, an anchor record names the new checkpoint, older journal pages are
released, and a stall ends. A segment is 40,960 units long; its place stands for all of them. -/
def State.checkpointDone (s : State) (dir : Nat) (places : List Nat) : State :=
  match s.media.ckpt with
  | none => s
  | some k =>
    if s.mediaStopped || !s.media.mapLoaded || places.length != k.segments.length || !s.placesFree places then s
    else
      let s := (places.foldl (fun s p => s.programPage p) s).healthBump 2 (places.length * 40959)
      let segs := (k.segments.zip places).foldl (fun l x => natSet l x.1 x.2) s.media.segments
      let s := { s with media := { s.media with ckptSeq := s.media.ckptSeq + 1, dir := dir, segments := segs } }
      let s := s.journal (.checkpointDone s.media.ckptSeq dir)
      let s := (s.healthBump 15 1).writeAnchorWith false k.image k.start
      let keep := s.nand.journal.filter (fun p => decide (p.seq ≥ k.start))
      { s with
        nand := { s.nand with journal := keep },
        media := { s.media with ckpt := none, stalled := false,
                                journalBytes := (keep.length + s.media.programming.length) * 16384 } }

def execCheckpointDone (w : CkptWritten) (s : State) : Host.Outcome State Fault Refusal :=
  .next (s.checkpointDone w.dir w.places)

/-- CHECKPOINT_STALL (R141): 12 GiB of journal since the newest anchored checkpoint's start holds the admission of
writes, counted once. -/
def State.checkpointStall (s : State) : State :=
  if !s.media.stalled && decide (s.media.journalBytes ≥ 12 * 2 ^ 30) then
    { (s.healthBump 14 1) with media := { (s.healthBump 14 1).media with stalled := true } }
  else s

def execCheckpointStall (s : State) : Host.Outcome State Fault Refusal := .next s.checkpointStall

/-- The block garbage collection takes next: the relocation queue first, then the blocks of verified bands by valid
count and PMA; never one of an unverified or open band, one that holds a segment of the current checkpoint, nor one already being
collected (R146). A block with a unit that cannot be read is not taken by valid count, because it could not be released. -/
def State.gcNext (s : State) : Option Nat :=
  let busy := s.media.gc.map (·.src)
  let guarded := (s.media.image.bands.filter (fun b => b.state == .unverified)).flatMap (·.blocks) ++
    (s.media.segments.map (fun x => s.blockOf x.2))
  let cand := s.media.relocate.filter (fun b => !busy.contains b && !guarded.contains b)
  match cand with
  | b :: _ => some b
  | [] =>
    let bs := ((s.media.image.bands.filter (fun b => b.state == .verified)).flatMap (·.blocks)).filter
      (fun b => !busy.contains b && !guarded.contains b && (s.unitsIn b).all (fun e => s.unitGood e.2))
    let key (b : Nat) : Nat := (s.unitsIn b).length * 2 ^ 41 + b
    bs.foldl (fun best b => match best with
      | none => some b
      | some x => if key b < key x then some b else some x) none

/-- GC_BLOCK_START (R146, R147): the source's valid units that can be read are copied to a garbage-collection band. -/
def State.gcBlockStart (s : State) (pl : Placement) : State :=
  match s.gcNext with
  | none => s
  | some src =>
    let us := (s.unitsIn src).filter (fun e => s.unitGood e.2)
    let s1 := s.openBands true pl.bands
    let ok := !s.mediaStopped && s.media.sanitize.isNone && us.length == pl.pmas.length && s1.placesOk pl.pmas true &&
      decide (s.accumulators + us.length ≤ 512)
    if ok then
      let cs := us.zip pl.pmas
      let s := cs.foldl (fun s c => (s.storeUnit (c.1.1 / 2 ^ 40) (c.1.1 % 2 ^ 40) c.2 (s.unitAtPlace c.1.2)).programPage c.2) s1
      let job : GcJob := { src := src, copies := cs.map (fun c => (c.1.1 / 2 ^ 40, c.1.1 % 2 ^ 40, c.2)) }
      { s with media := { s.media with
        gc := s.media.gc ++ [job], relocate := s.media.relocate.filter (· != src) } }
    else s

def execGcBlockStart (pl : Placement) (s : State) : Host.Outcome State Fault Refusal := .next (s.gcBlockStart pl)

/-- One copied unit at the journal commit: GC_MOVE when the map still points to the source, else the copy is
abandoned (R147). -/
def State.gcCommitUnit (s : State) (src : Nat) (c : Nat × Nat × Nat) : State :=
  match s.pmaOf c.1 c.2.1 with
  | some p => if s.blockOf p = src then s.journal (.gcMove c.1 c.2.1 c.2.2) else s
  | none => s

/-- GC_VERIFY_DONE (R147): the copies were accepted at tier 1 or 2; GC_MOVE and BLOCK_RELEASE are journaled and the tail is
programmed. A source that still holds a mapped unit, one that could not be read, is not released. -/
def State.gcVerifyDone (s : State) (src : Nat) : State :=
  match s.media.gc.find? (fun j => j.src == src) with
  | none => s
  | some j =>
    if j.phase != .copying || s.mediaStopped then s
    else
      let s := j.copies.foldl (fun s c => s.gcCommitUnit src c) s
      if (s.unitsIn src).isEmpty then
        let s := s.journal (.blockRelease src)
        let n := s.media.appended
        let s := s.pushTail
        { s with media := { s.media with
          gc := s.media.gc.map (fun x => if x.src == src then { x with phase := .committing, needs := n } else x) } }
      else
        let s := s.pushTail
        { s with media := { s.media with gc := s.media.gc.filter (fun x => x.src != src) } }

def execGcVerifyDone (src : Nat) (s : State) : Host.Outcome State Fault Refusal := .next (s.gcVerifyDone src)

/-- GC_ERASE (R148, R149): only after its BLOCK_RELEASE is committed and no read in flight names the block, the source is
erased and freed. -/
def State.gcErase (s : State) (src : Nat) : State :=
  match s.media.gc.find? (fun j => j.src == src) with
  | none => s
  | some j =>
    let inFlight := s.media.reads.any (fun r => r.waiting.any (fun p => s.blockOf p == src))
    if j.phase != .committing || decide (s.media.committed < j.needs) || inFlight || s.mediaStopped then s
    else
      let lo := src * 16384
      let hi := (src + s.media.geometry.blockUnits) * 16384
      let n := (s.nand.eraseCounts.find? (fun e => e.1 == src)).elim 0 (·.2)
      let mine (p : Nat) : Bool := s.blockOf p == src
      { s with
        nand := { s.nand with
          store := memZero s.nand.store lo hi,
          info := s.nand.info.filter (fun x => !mine x.1),
          badBlocks := s.nand.badBlocks.filter (fun p => !mine (p / 4)),
          lgUnits := s.nand.lgUnits.filter (fun p => !mine p),
          freeBlocks := s.nand.freeBlocks ++ [src],
          eraseCounts := natSet s.nand.eraseCounts src (n + 1) },
        media := { s.media with
          image := { s.media.image with released := s.media.image.released.filter (· != src) },
          gc := s.media.gc.filter (fun x => x.src != src) } }

def execGcErase (src : Nat) (s : State) : Host.Outcome State Fault Refusal := .next (s.gcErase src)

/-- LAST_GASP (R150, R152): PWR_FAIL_N asserted beyond its 1 µs filter starts the sequencer; ignored in Off
(R658). -/
def State.lastGasp (s : State) (ns : Nat) : State :=
  if ns ≤ 1000 ∨ s.power.mainOff then s
  else ({ s with pins := { s.pins with pwrFailN := false } }).lastGaspStart

def execLastGasp (ns : Nat) (s : State) : Host.Outcome State Fault Refusal := .next (s.lastGasp ns)

/-- LAST_GASP_DONE (R152, R153): step 7 has completed; the media service stays stopped until RESET_N. -/
def State.lastGaspDoneEvent (s : State) (us : Nat) : State :=
  if s.media.lgActive then s.lastGaspFinish us else s

def execLastGaspDone (us : Nat) (s : State) : Host.Outcome State Fault Refusal := .next (s.lastGaspDoneEvent us)

/-- LAST_GASP_RESET_REQUEST (R582): after a completed last gasp, PWR_FAIL_N deasserted for 10 ms requests a reset. -/
def State.lastGaspResetRequest (s : State) : State :=
  if s.media.lgDone then
    let s := { s with
      pins := { s.pins with pwrFailN := true },
      backup := { s.backup with request := 4 } }
    (s.emit (.pin .resetReqN false)).emit (.pin .resetReqN true)
  else s

def execLastGaspResetRequest (s : State) : Host.Outcome State Fault Refusal := .next s.lastGaspResetRequest

/-- Why Sanitize is refused (R113, R128, R145, R418). -/
def State.sanitizeRefusal (s : State) (nsid action : Nat) : Option Status :=
  if s.trust.pending then some 0x0F03
  else if s.trust.zeroised then some 0x0F08
  else if s.media.sanitize.isSome then some 0x0309
  else if s.media.state == .noMedia then some 0x0207
  else if nsid != 0xFFFFFFFF then some 0x0101
  else if action != 3 && (s.media.state == .mapLost || s.media.state == .unformatted) then some 0x0308
  else none

/-- Sanitize starts (R128, R421, R556, R557): every key is replaced and every entry unmapped, an anchor record keeps what is to be
done over a reset, and the request completes with MED_STATE = SANITIZING; when no key block accepts a record it fails with
0x0F0A. -/
def State.sanitizeStart (s : State) (p : ReqPath) (nsid action : Nat) (keyOk : Bool) : State :=
  if s.mediaStopped then s
  else match s.sanitizeRefusal nsid action with
    | some st => s.refuse p st
    | none =>
      if !keyOk then (s.refuse p 0x0F0A).log 0x0F0A sagBase
      else
        let s := s.cryptoEraseAll
        let s := { s with media := { s.media with
          sanitize := some { action := action, layout := s.media.nextLayout }, state := .sanitizing, ckpt := none } }
        (s.writeAnchorWith false s.media.image s.media.nextJSeq).reply p 0

def execSanitizeCrypto (p : ReqPath) (nsid : Nat) (keyOk : Bool) (s : State) : Host.Outcome State Fault Refusal :=
  .next (s.sanitizeStart p nsid 1 keyOk)

/-- SANITIZE_BLOCK (R128): crypto-erase first; each target's blocks are erased as the target completes. -/
def State.sanitizeBlock (s : State) (p : ReqPath) (nsid : Nat) (keyOk : Bool) : State :=
  s.sanitizeStart p nsid 2 keyOk

def execSanitizeBlock (p : ReqPath) (nsid : Nat) (keyOk : Bool) (s : State) : Host.Outcome State Fault Refusal :=
  .next (s.sanitizeBlock p nsid keyOk)

/-- SANITIZE_FORMAT (R114, R128): as BLOCK, and the media layout is applied when the last target is done. -/
def State.sanitizeFormat (s : State) (p : ReqPath) (nsid : Nat) (keyOk : Bool) : State :=
  s.sanitizeStart p nsid 3 keyOk

def execSanitizeFormat (p : ReqPath) (nsid : Nat) (keyOk : Bool) (s : State) : Host.Outcome State Fault Refusal :=
  .next (s.sanitizeFormat p nsid keyOk)

/-- Every block of a target, named by its first unit. -/
def State.targetBlocks (s : State) (c t : Nat) : List Nat :=
  (List.range s.media.geometry.blocksPerPlane).map
    (fun b => c * 2 ^ 34 + t * 2 ^ 30 + b * s.media.geometry.blockUnits)

/-- The targets of the two anchor blocks and the two key blocks: the reference target, and the next usable one on another channel
(R142, R555). -/
def Media.anchorTargets (m : Media) : List (Nat × Nat) :=
  match m.usable with
  | [] => []
  | r :: rest => r :: ((rest.find? (fun t => t.1 != r.1)).map (fun t => [t])).getD []

/-- The blocks of a target that are no anchor or key block. -/
def State.openBlocks (s : State) (t : Nat × Nat) : List Nat :=
  if s.media.anchorTargets.contains t then (s.targetBlocks t.1 t.2).drop 2 else s.targetBlocks t.1 t.2

/-- The last-gasp blocks that FORMAT sets apart: the first two good blocks of a target of each channel, after blocks 0 and 1
(R152). -/
def State.formatLg (s : State) : List Nat :=
  s.media.channels.flatMap (fun c =>
    match s.media.usable.find? (fun t => t.1 == c) with
    | some t => (((s.targetBlocks t.1 t.2).drop 2).filter (fun b => !s.nand.retired.contains b)).take 2
    | none => [])

/-- The blocks of every usable target that hold user data: all but the anchor, key and last-gasp blocks, and the retired ones. -/
def State.formatFree (s : State) : List Nat :=
  let lg := s.formatLg
  (s.media.usable.flatMap (fun t => s.openBlocks t)).filter (fun b => !lg.contains b && !s.nand.retired.contains b)

/-- The target-major index of a target (R112). -/
def targetIndex (t : Nat × Nat) : Nat := t.2 * 64 + t.1

/-- The target that Sanitize completes next: the first usable one after the last it has completed (R128). -/
def State.sanitizeNext (s : State) (j : SanitizeJob) : Option (Nat × Nat) :=
  s.media.usable.find? (fun t => match j.last with | some x => decide (targetIndex t > x) | none => true)

/-- Every block of a target is erased (R128). -/
def State.eraseTarget (s : State) (t : Nat × Nat) : State :=
  let mine (p : Nat) : Bool := pmaTarget p == t
  let base := t.1 * 2 ^ 34 + t.2 * 2 ^ 30
  let n := (s.nand.targetErases.find? (fun e => e.1 == targetIndex t)).elim 0 (·.2)
  { s with nand := { s.nand with
    store := memZero s.nand.store (base * 16384) ((base + 2 ^ 30) * 16384),
    info := s.nand.info.filter (fun x => !mine x.1),
    badBlocks := s.nand.badBlocks.filter (fun p => !mine (p / 4)),
    lgUnits := s.nand.lgUnits.filter (fun p => !mine p),
    targetErases := natSet s.nand.targetErases (targetIndex t) (n + 1) } }

/-- Namespaces in ID order as long as their capacities fit U (R121). -/
def fitNamespaces (cap : Nat) : Nat → List NsInfo → List NsInfo
  | _, [] => []
  | used, x :: xs => if used + x.cap ≤ cap then x :: fitNamespaces cap (used + x.cap) xs else fitNamespaces cap used xs

/-- The end of Sanitize (R114, R121, R122, R128): BLOCK and FORMAT leave every block erased; FORMAT applies the layout, zeroes the
statistics of the health log, takes the factory bad blocks found, and keeps the namespaces that fit the new U. -/
def State.sanitizeEnd (s : State) (j : SanitizeJob) (factoryBad : Nat) : State :=
  let s := if j.action ≥ 2 then
      { s with
        groupRecord := none,
        nand := { s.nand with
          lgPages := [], lgUnits := [], journal := [], eraseFirst := [], bands := [], lgBlocks := s.formatLg,
          freeBlocks := s.formatFree },
        media := { s.media with
          image := { s.media.image with map := [], bands := [], released := [] },
          buffered := [], tail := [], programming := [], committed := s.media.appended, gc := [], gcBands := [], relocate := [],
          segments := [], changed := [], journalBytes := 0, ckptBytes := 0 } }
    else s
  let s := if j.action = 3 then
      let lay := j.layout.getD { s.media.layout with cell := max s.media.layout.cell 1 }
      let s := { s with
        nand := { s.nand with handover := none },
        media := { s.media with
          layout := lay, nextLayout := none, healthOvf := 0, mapLoaded := true,
          health := { targetsExcluded := s.media.health.targetsExcluded, factoryBad := factoryBad, worn := s.media.health.worn } } }
      let u := userCapOf s.dataUnits lay.opHalf
      { s with media := { s.media with
        userCap := u, image := { s.media.image with ns := fitNamespaces u 0 s.media.image.ns } } }
    else s
  let s := { s with media := { s.media with
    sanitize := none, state := if s.media.health.worn then .readOnlyWorn else .ready } }
  s.writeAnchorWith false s.media.image s.media.nextJSeq

/-- SANITIZE_TARGET_DONE (R128): BLOCK and FORMAT have erased the target, SANITIZE_PROGRESS is journaled with its target-major
index; after the last target Sanitize ends. -/
def State.sanitizeTargetDone (s : State) (factoryBad : Nat) : State :=
  match s.media.sanitize with
  | none => s
  | some j => if s.mediaStopped then s else match s.sanitizeNext j with
    | none => s.sanitizeEnd j factoryBad
    | some t =>
      let s := if j.action ≥ 2 then s.eraseTarget t else s
      let s := s.journal (.sanitizeProgress j.action (targetIndex t))
      let j := { j with last := some (targetIndex t) }
      let s := { s with media := { s.media with sanitize := some j } }
      if (s.sanitizeNext j).isNone then s.sanitizeEnd j factoryBad else s

def execSanitizeTargetDone (factoryBad : Nat) (s : State) : Host.Outcome State Fault Refusal :=
  .next (s.sanitizeTargetDone factoryBad)

/-- A namespace feature is refused before its own checks: a quoin bit, a pending transition, zeroised keys, Sanitize,
or the media's state (R126, R128, R145, R569). -/
def State.nsGate (s : State) (quoined : Bool) : Option Status :=
  if quoined && s.quoinSet 14 then some 0x0F01 else s.mediaGate

/-- A feature is admitted: its entry is journaled and the request waits for the page that holds it (R126). -/
def State.nsFeature (s : State) (p : ReqPath) (e : JEntry) (sealNs : Option Nat) : State :=
  let units := if sealNs.isSome then s.media.buffered ++ s.heldPlaces else []
  let s := s.journal e
  let w : DurWait := { path := p, kind := .nsFeature sealNs, units := units, entries := s.media.appended }
  { s with media := { s.media with waits := s.media.waits ++ [w] } }

/-- A namespace feature that names a group NSID is refused, unless the group itself asks for it (R529). -/
def State.groupRefusal (s : State) (p : ReqPath) (nsid : Nat) : Option (Status × Nat) :=
  if s.memberNs nsid && p != .register then some (0x0E09, 0) else none

/-- The first of two refusals. -/
def orRefuse (a b : Option (Status × Nat)) : Option (Status × Nat) := match a with | some x => some x | none => b

/-- Why a namespace is not created, with DETAIL (R126, R418, R421). -/
def State.nsCreateRefusal (s : State) (p : ReqPath) (nsid cap : Nat) (keyOk : Bool) : Option (Status × Nat) :=
  orRefuse ((s.nsGate true).map (·, 0)) <| orRefuse (s.groupRefusal p nsid) <|
    if nsid = 0 ∨ nsid > 256 then some (0x0101, 1)
    else if (s.nsInfo nsid).isSome then some (0x0101, 2)
    else if cap = 0 then some (0x0101, 3)
    else if s.media.image.ns.length ≥ 256 then some (0x0305, 0)
    else if s.media.image.ns.foldl (fun a x => a + x.cap) 0 + cap > s.media.userCap then some (0x0306, 0)
    else if !keyOk then some (0x0F0A, 0)
    else none

/-- A namespace with a new key and every entry UNMAPPED (R121, R126, R559). Its entries stand after the highest in use. -/
def State.nsMake (s : State) (p : ReqPath) (nsid cap : Nat) : State :=
  let base := s.media.image.ns.foldl (fun a x => max a (x.base + x.cap)) 0
  let k := s.trustKept.keyBlocks
  let n := k.seq + 1
  let k := if k.current1 then { k with block1 := some n, seq := n } else { k with block0 := some n, seq := n }
  (({ s with trustKept := { s.trustKept with keyBlocks := k } }).drawKey nsid).nsFeature p (.nsCreate nsid cap base) none

/-- A refused feature; a key that could not be made is also recorded (R557). -/
def State.nsRefuse (s : State) (p : ReqPath) (r : Status × Nat) : State :=
  let s := s.refuse p r.1 r.2
  if r.1 = 0x0F0A then s.log 0x0F0A sagBase else s

/-- NS_CREATE (R121, R126). -/
def State.nsCreate (s : State) (p : ReqPath) (nsid cap : Nat) (keyOk : Bool) : State :=
  if s.mediaStopped then s
  else match s.nsCreateRefusal p nsid cap keyOk with
    | some r => s.nsRefuse p r
    | none => s.nsMake p nsid cap

def execNsCreate (p : ReqPath) (nsid cap : Nat) (keyOk : Bool) (s : State) : Host.Outcome State Fault Refusal :=
  .next (s.nsCreate p nsid cap keyOk)

/-- Why a namespace is not deleted (R126): in use while an open stream reads a snapshot of it, or witnesses into it. -/
def State.nsDeleteRefusal (s : State) (p : ReqPath) (nsid : Nat) (keyOk : Bool) : Option (Status × Nat) :=
  orRefuse ((s.nsGate true).map (·, 0)) <| orRefuse (s.groupRefusal p nsid) <|
    match s.nsInfo nsid with
    | none => some (0x0302, 0)
    | some x =>
      if (x.isSealed && s.streamOpenOn nsid) || s.streamWitness nsid then some (0x0304, 0)
      else if !keyOk then some (0x0F0A, 0)
      else none

/-- The key is destroyed by a crypto-erase and every entry unmapped; in READ_ONLY_WORN the device looks whether it may leave it
(R126, R159, R556). -/
def State.nsRemove (s : State) (p : ReqPath) (nsid : Nat) : State :=
  let s := ((s.cryptoEraseRecord).dropKey nsid).nsFeature p (.nsDelete nsid) none
  ({ s with media := { s.media with wornDelete := s.media.health.worn } }).checkWornExit

/-- NS_DELETE (R126). -/
def State.nsDelete (s : State) (p : ReqPath) (nsid : Nat) (keyOk : Bool) : State :=
  if s.mediaStopped then s
  else match s.nsDeleteRefusal p nsid keyOk with
    | some r => s.nsRefuse p r
    | none => s.nsRemove p nsid

def execNsDelete (p : ReqPath) (nsid : Nat) (keyOk : Bool) (s : State) : Host.Outcome State Fault Refusal :=
  .next (s.nsDelete p nsid keyOk)

/-- Why a namespace is not sealed (R106, R126). -/
def State.nsSealRefusal (s : State) (p : ReqPath) (nsid : Nat) : Option (Status × Nat) :=
  orRefuse ((s.nsGate false).map (·, 0)) <| orRefuse (s.groupRefusal p nsid) <|
    if (s.nsInfo nsid).isNone then some (0x0302, 0)
    else if s.streamWitness nsid then some (0x0304, 0)
    else none

/-- NS_SEAL (R106, R126): later writes are refused from its admission on; it completes once the writes admitted
before it and its own entry are durable. -/
def State.nsSeal (s : State) (p : ReqPath) (nsid : Nat) : State :=
  if s.mediaStopped then s
  else match s.nsSealRefusal p nsid with
    | some r => s.nsRefuse p r
    | none => (s.nsFeature p (.nsSeal nsid) (some nsid)).pushTail

def execNsSeal (p : ReqPath) (nsid : Nat) (s : State) : Host.Outcome State Fault Refusal := .next (s.nsSeal p nsid)

/-- Why a namespace is not unsealed (R51, R126): while any stream is open on a snapshot in it. -/
def State.nsUnsealRefusal (s : State) (p : ReqPath) (nsid : Nat) : Option (Status × Nat) :=
  orRefuse ((s.nsGate true).map (·, 0)) <| orRefuse (s.groupRefusal p nsid) <|
    if (s.nsInfo nsid).isNone then some (0x0302, 0)
    else if s.streamOpenOn nsid then some (0x0304, 0)
    else none

/-- NS_UNSEAL (R51, R126). -/
def State.nsUnseal (s : State) (p : ReqPath) (nsid : Nat) : State :=
  if s.mediaStopped then s
  else match s.nsUnsealRefusal p nsid with
    | some r => s.nsRefuse p r
    | none => s.nsFeature p (.nsUnseal nsid) none

def execNsUnseal (p : ReqPath) (nsid : Nat) (s : State) : Host.Outcome State Fault Refusal :=
  .next (s.nsUnseal p nsid)

/-- MAP_CKPT_CONFIG_WRITE (R164): a value out of range changes neither field and records 0x0101. -/
def State.ckptConfigWrite (s : State) (v : Word) : State :=
  if s.quoinSet 4 then s.plainWrite mapBase v
  else if 1 ≤ fld v 0 4 ∧ fld v 0 4 ≤ 8 ∧ 60 ≤ fld v 16 10 ∧ fld v 16 10 ≤ 600 then s.plainWrite mapBase v
  else s.log 0x0101 mapBase mapBase

def execMapCkptConfigWrite (v : Word) (s : State) : Host.Outcome State Fault Refusal :=
  .next (s.ckptConfigWrite v)

/-- The TEMP_SECONDS bin of a temperature (R161). -/
def tempBin (t : Int) : Nat :=
  if t < 25 then 16 else if t < 40 then 17 else if t < 55 then 18 else if t < 70 then 19
  else if t < 80 then 20 else if t < 85 then 21 else if t < 90 then 22 else 23

/-- NAND_TEMPERATURE_SAMPLE (R161): each second the hottest target's temperature updates TEMP_NOW, TEMP_MAX,
TEMP_MIN, CRITICAL bit 3 and its TEMP_SECONDS bin. -/
def State.nandTemperature (s : State) (temps : List Int) : State :=
  match temps with
  | [] => s
  | t :: ts =>
    let hot := ts.foldl max t
    let first := (List.range 8).all (fun i => s.media.health.ctr.getD (16 + i) 0 == 0)
    let h := s.media.health
    let h := { h with
      tempNow := hot, hot := decide (hot > 85),
      tempMax := if first then hot else max h.tempMax hot,
      tempMin := if first then hot else min h.tempMin hot }
    ({ s with media := { s.media with health := h } }).healthBump (tempBin hot) 1

def execNandTemperatureSample (temps : List Int) (s : State) : Host.Outcome State Fault Refusal :=
  .next (s.nandTemperature temps)

/-- MED_NAND_PAD_WRITE (R666): ODT from 5 to 7 changes no field and records 0x0101. -/
def State.nandPadWrite (s : State) (v : Word) : State :=
  if s.quoinSet 4 then s.plainWrite (medBase + 0x14) v
  else if fld v 4 3 ≥ 5 then s.log 0x0101 medBase (medBase + 0x14)
  else s.plainWrite (medBase + 0x14) v

def execMedNandPadWrite (v : Word) (s : State) : Host.Outcome State Fault Refusal := .next (s.nandPadWrite v)

def MediaState.code : MediaState → Nat
  | .identifying => 0
  | .rebuilding => 1
  | .ready => 2
  | .readOnlyWorn => 3
  | .lastGasp => 4
  | .noMedia => 5
  | .mapLost => 6
  | .unformatted => 7
  | .sanitizing => 8

/-- The lowest channel rate, in 100 MT/s; 0 with no usable target (R163). -/
def Media.rate (m : Media) : Nat :=
  match m.rates.map (·.2) with
  | [] => 0
  | r :: rs => rs.foldl min r

/-- The MED and MAP words that show state held elsewhere (R163, R164). -/
def viewMedia (s : State) (off : Nat) : Option Word :=
  if off = medBase then
    some (packFields [(0, s.media.usable.length), (11, s.media.layout.cell % 4), (16, s.media.rate % 64)])
  else if off = medBase + 4 then some (BitVec.ofNat 32 (s.media.rawUnits / 65536))
  else if off = medBase + 8 then some (packFields [(0, s.media.state.code), (8, s.media.rebuildPct % 128)])
  else if off = medBase + 0xC then
    some (packFields [(0, bitOf s.media.lgActive), (1, bitOf s.media.lgDone), (2, bitOf s.media.lgLastIncomplete),
      (16, min s.media.lgUs 65535)])
  else if off = medBase + 0x10 then some (s.media.healthOvf.setWidth 32)
  else if medBase + 0x100 ≤ off ∧ off < medBase + 0x200 ∧ off % 4 = 0 then
    let c := (off - (medBase + 0x100)) / 4
    some (packFields ((List.range 16).map (fun t => (t, bitOf (s.media.excluded.contains (c, t))))))
  else if off = mapBase + 4 then
    some (packFields [(0, bitOf s.media.ckpt.isSome), (1, bitOf s.media.stalled)])
  else if off = mapBase + 8 then some (BitVec.ofNat 32 (min (s.media.journalBytes / 2 ^ 20) 12288))
  else none

/-- Bus writes to the MED and MAP words. -/
def writeMedia (s : State) (off : Nat) (v : Word) : Option State :=
  if off = medBase + 0xC then
    some (if v.getLsbD 2 then { s with media := { s.media with lgLastIncomplete := false } } else s)
  else if off = medBase + 0x10 then
    some { s with media := { s.media with healthOvf := s.media.healthOvf &&& ~~~(v.setWidth 24) } }
  else if off = medBase + 0x14 then some (s.nandPadWrite v)
  else if off = mapBase then some (s.ckptConfigWrite v)
  else none

end Sys2Proof.Machine
end

