-- ==== Sys2Proof/Machine/Yqi.lean ====
section
/-! DEFINITION. The queue pairs of the Yalim queue interface: doorbells, fetching, range locks, completions, freezing,
and function resets (R403-R424, R429-R442). -/

namespace Sys2Proof.Machine

def yqiOvf : Nat := yqiBase + 0x1C

def State.queueAt (s : State) (fn q : Nat) : Option Queue := s.yqi.queues.find? (fun x => x.fn == fn && x.qid == q)

def State.updQueue (s : State) (fn q : Nat) (f : Queue → Queue) : State :=
  { s with yqi := { s.yqi with queues := s.yqi.queues.map (fun (x : Queue) => if x.fn = fn ∧ x.qid = q then f x else x) } }

/-- Commands of a queue that a policer holds or that are parked, in the order they were fetched. -/
def State.waitingOf (s : State) (fn q : Nat) : List Cmd :=
  s.yqi.parked.filter (fun c => c.fn == fn && c.qid == q) ++
    (s.yqi.policed.filter (fun c => c.1.fn == fn && c.1.qid == q)).map (·.1)

def State.admittedOf (s : State) (fn q : Nat) : List Cmd := s.yqi.admitted.filter (fun c => c.fn == fn && c.qid == q)

/-- Entries of a ring between two indexes. -/
def ringDist (depth from' n : Nat) : Nat := (n + depth - from') % max depth 1

/-- A YQI record of the error log (R429). -/
def State.yqiLog (s : State) (st : Status) (detail : Nat) (q : Queue) (cid opcode nsid info0 : Nat) (froze : Bool) : State :=
  s.logEntry {
    seq := 0, status := st, detail := detail, fn := q.fn, sqId := q.qid, cid := cid,
    resumeHead := if froze then q.resumeHead else 0, opcode := opcode, froze := froze, admin := q.qid == 0,
    block := yqiBase / 2 ^ 16, nsid := nsid, info0 := info0 }

/-- A queue freezes (R430): commands fetched but not admitted are dropped, and RESUME_HEAD is the first of them, or the
SQ head. The admin queue never freezes (R431). -/
def State.freezeQueue (s : State) (fn q : Nat) : State :=
  match s.queueAt fn q with
  | none => s
  | some x =>
    if x.frozen || q == 0 then s
    else
      let head := ((s.waitingOf fn q).head?.map (fun (c : Cmd) => c.idx)).getD x.sqHead
      let s := s.bump (yqiBase + 0x14) yqiOvf 1
      let s := { s with yqi := { s.yqi with
        parked := s.yqi.parked.filter (fun c => !(c.fn == fn && c.qid == q)),
        policed := s.yqi.policed.filter (fun (c : Cmd × Nat × Nat) => !(c.1.fn == fn && c.1.qid == q)) } }
      s.updQueue fn q (fun x => { x with frozen := true, resumeHead := head })

/-- A doorbell value out of range (R411): it is discarded and recorded, and an I/O queue freezes with its SQ head as RESUME_HEAD. -/
def State.badDoorbell (s : State) (fn q : Nat) : State :=
  match s.queueAt fn q with
  | none => s
  | some x =>
    let froze := q != 0 && !x.frozen
    let s := s.freezeQueue fn q
    let s := if froze then s.updQueue fn q (fun y => { y with resumeHead := y.sqHead }) else s
    match s.queueAt fn q with
    | some x => s.yqiLog 0x0101 1 x 0 0 0 0 froze
    | none => s

/-- SQ_TAIL_DOORBELL (R410, R411). -/
def State.sqTail (s : State) (fn q v : Nat) : State :=
  match s.queueAt fn q with
  | none => s
  | some x => if v ≥ x.depth then s.badDoorbell fn q else s.updQueue fn q (fun x => { x with sqTail := v })

def execSqTailDoorbell (fn q v : Nat) (s : State) : Host.Outcome State Fault Refusal := .next (s.sqTail fn q v)

/-- CQ_HEAD_DOORBELL (R410, R411). -/
def State.cqHead (s : State) (fn q v : Nat) : State :=
  match s.queueAt fn q with
  | none => s
  | some x =>
    if v ≥ x.depth ∨ ringDist x.depth x.cqHead v > ringDist x.depth x.cqHead x.cqTail then s.badDoorbell fn q
    else s.updQueue fn q (fun x => { x with cqHead := v })

def execCqHeadDoorbell (fn q v : Nat) (s : State) : Host.Outcome State Fault Refusal := .next (s.cqHead fn q v)

/-- The function's link is up. -/
def State.linkOf (s : State) (fn : Nat) : PcieLink := if fn < 32 then s.yqi.link0 else s.yqi.link1

/-- AQ_ENABLE (R409, R442): a write of YQI_AQ_CFG with ENABLE = 1 while it reads 0. -/
def State.aqEnable (s : State) (fn : Nat) (v : Word) : State :=
  match s.fnAt fn with
  | none => s
  | some f =>
    if f.aqReady || !v.getLsbD 12 then s
    else if f.queues = 0 then s.setFn fn (fun f => { f with badConfig := false, aqCfg := v &&& 0x0FFF0FFF })
    else if fld v 0 12 = 0 ∨ f.aqSq % 4096 ≠ 0 ∨ f.aqCq % 4096 ≠ 0 then
      s.setFn fn (fun f => { f with badConfig := true, aqCfg := v &&& 0x0FFF0FFF })
    else
      let s := s.setFn fn (fun f => { f with badConfig := false, aqReady := true, aqCfg := v &&& 0x0FFF1FFF })
      { s with yqi := { s.yqi with queues := s.yqi.queues ++ [{
        fn := fn, qid := 0, depth := fld v 0 12 + 1, sqBase := f.aqSq, cqBase := f.aqCq, vector := fld v 16 11,
        irqEn := v.getLsbD 27 }] } }

def execAqEnable (fn : Nat) (v : Word) (s : State) : Host.Outcome State Fault Refusal := .next (s.aqEnable fn v)

/-- A Forme Read that ends without its CQ entry leaves its forme for the next read (R420). -/
def State.loseReads (s : State) (gone : ReqPath → Bool) : State :=
  s.setCtxs (s.streamEng.ctxs.map (fun x => (x.1, { x.2 with
    formeReads := x.2.formeReads.filter (fun (p : ReqPath) => !gone p),
    held := x.2.held.map (fun (h : HeldForme) => match h.path with
      | some p => if gone p then { h with path := none } else h
      | none => h) })))

/-- Range locks of a path are given back (R435). -/
def State.unlock (s : State) (p : ReqPath) : State :=
  { s with yqi := { s.yqi with locks := s.yqi.locks.filter (fun l => l.path != p) } }

/-- A path of a command of a queue. -/
def pathOfQueue (p : ReqPath) (fn q : Nat) : Bool := match p with | .yqi f k _ => f == fn && k == q | _ => false

/-- A queue pair is freed with what it still holds (R433). -/
def State.freeQueue (s : State) (fn q : Nat) : State :=
  let s := s.loseReads (fun p => pathOfQueue p fn q)
  { s with yqi := { s.yqi with
      queues := s.yqi.queues.filter (fun x => !(x.fn == fn && x.qid == q)),
      parked := s.yqi.parked.filter (fun c => !(c.fn == fn && c.qid == q)),
      policed := s.yqi.policed.filter (fun (c : Cmd × Nat × Nat) => !(c.1.fn == fn && c.1.qid == q)),
      admitted := s.yqi.admitted.filter (fun c => !(c.fn == fn && c.qid == q)),
      done := s.yqi.done.filter (fun d => !(d.fn == fn && d.qid == q)),
      locks := s.yqi.locks.filter (fun l => !pathOfQueue l.path fn q) } }

/-- A queue begins to be deleted (R433): it fetches no more, and commands not admitted are dropped. -/
def State.beginDelete (s : State) (fn q : Nat) (cid : Option Nat) : State :=
  let s := { s with yqi := { s.yqi with
    parked := s.yqi.parked.filter (fun c => !(c.fn == fn && c.qid == q)),
    policed := s.yqi.policed.filter (fun (c : Cmd × Nat × Nat) => !(c.1.fn == fn && c.1.qid == q)) } }
  let s := { s with yqi := { s.yqi with
    admitted := s.yqi.admitted.filter (fun (c : Cmd) => !(c.fn == fn && c.qid == q && q != 0 && c.entry.opcode == 0x14)) } }
  let s := s.updQueue fn q (fun x => { x with deleting := some cid })
  s.loseReads (fun p => pathOfQueue p fn q)

/-- A Function Level Reset (R438): queues deleted, admin queue disabled, features the function set itself back at
their reset values, vectors masked; runs that use its host window meet a host access fault from now on. -/
def State.flr (s : State) (fn : Nat) : State :=
  let qs := (s.yqi.queues.filter (fun x => x.fn == fn)).map (·.qid)
  let s := qs.foldl (fun s q => s.beginDelete fn q none) s
  let s := qs.foldl (fun s q => if (s.admittedOf fn q).isEmpty then s.freeQueue fn q else s) s
  let s := s.setFn fn (fun f => { f with
    burst := 8, coalesce := [], unmasked := [], msixPending := [], aqSq := 0, aqCq := 0, aqCfg := 0, aqReady := false,
    badConfig := false })
  s.setRuns (s.mgr.runs.map (fun (r : Run) => match r.path with
    | .yqi f _ _ => if f = fn then { r with hostGone := true } else r
    | _ => r))

/-- AQ_DISABLE (R442): a write of YQI_AQ_CFG with ENABLE = 0 deletes every queue of the function, as an FLR does. -/
def State.aqDisable (s : State) (fn : Nat) (v : Word) : State :=
  match s.fnAt fn with
  | none => s
  | some f =>
    if v.getLsbD 12 then s
    else if f.aqReady then s.flr fn
    else s.setFn fn (fun f => { f with aqCfg := v &&& 0x0FFF0FFF, badConfig := false })

def execAqDisable (fn : Nat) (v : Word) (s : State) : Host.Outcome State Fault Refusal := .next (s.aqDisable fn v)

/-- FUNCTION_LEVEL_RESET (R438). -/
def State.functionReset (s : State) (fn : Nat) : State := if (s.fnAt fn).isSome then s.flr fn else s

def execFunctionLevelReset (fn : Nat) (s : State) : Host.Outcome State Fault Refusal := .next (s.functionReset fn)

/-- PCIE_LINK_DOWN (R439): the functions of that link alone are reset. -/
def State.linkDown (s : State) (l : Nat) : State :=
  let fns := (s.yqi.fns.filter (fun f => f.g / 32 == l)).map (·.g)
  let s := fns.foldl (fun s g => s.flr g) s
  { s with yqi := if l = 0 then { s.yqi with link0 := {} } else if l = 1 then { s.yqi with link1 := {} } else s.yqi }

def execPcieLinkDown (l : Nat) (s : State) : Host.Outcome State Fault Refusal := .next (s.linkDown l)

/-- PCIE_LINK_UP (R440): the link's functions start with no queues. -/
def State.linkUp (s : State) (l : Nat) (flit : Bool) (speed width : Nat) : State :=
  let k : PcieLink := { up := true, flit := flit, speed := speed, width := width }
  { s with yqi := if l = 0 then { s.yqi with link0 := k } else if l = 1 then { s.yqi with link1 := k } else s.yqi }

def execPcieLinkUp (l : Nat) (flit : Bool) (speed width : Nat) (s : State) : Host.Outcome State Fault Refusal :=
  .next (s.linkUp l flit speed width)

/-- A submission entry in host memory (R412). -/
def sqEntry (b : List Byte) : SqEntry :=
  { opcode := leField b 0 1, flags := leField b 1 1, cid := leField b 2 2, nsid := leField b 4 4, arg0 := leField b 8 8,
    arg1 := leField b 0x10 8, dataAddr := leField b 0x18 8, dataLen := leField b 0x20 4, arg2 := leField b 0x24 4,
    arg3 := leField b 0x28 8, arg4 := leField b 0x30 8, reserved := leField b 0x38 8 }

def State.sqAt (s : State) (x : Queue) (i : Nat) : SqEntry :=
  sqEntry (memRead s.hostMem (hostKey x.fn (x.sqBase + 64 * i)) 64)

/-- The fields a command uses: NSID, ARG0, ARG1, DATA, ARG2, ARG3, ARG4 (R418, R424). -/
def cmdUses (admin : Bool) (op arg0 : Nat) : List Bool :=
  if admin then match op with
    | 1 => [true, true, false, true, false, false, false]
    | 2 => [false, true, true, true, false, false, false]
    | 3 => [false, true, true, true, false, false, false]
    | 4 => [false, true, true, true, true, false, false]
    | 5 => [false, true, false, true, false, false, false]
    | 7 => [false, true, false, false, false, true, true]
    | _ => [false, true, false, false, false, false, false]
  else match op with
    | 1 => [true, false, false, false, false, false, false]
    | 2 => [true, true, true, true, false, false, false]
    | 3 => [true, true, true, true, false, false, false]
    | 4 => [true, true, true, false, false, false, false]
    | 0x10 => [false, false, false, true, false, false, false]
    | 0x11 => [false, true, false, false, false, false, false]
    | 0x12 => [false, false, false, true, false, false, false]
    | 0x13 => [false, true, true, false, false, false, false]
    | 0x14 => [false, true, false, true, false, false, false]
    | 0x20 => (match arg0 with
      | 1 => [false, true, false, true, false, false, false]
      | 3 => [false, true, false, true, true, true, false]
      | _ => [false, true, true, false, false, false, false])
    | _ => [true, true, false, false, false, false, false]

/-- Fields that a command does not use are 0 (R412), and used ones lie in their bits (R418, R422). -/
def cmdFieldsOk (admin : Bool) (e : SqEntry) : Bool :=
  let u := cmdUses admin e.opcode e.arg0
  let z (i n : Nat) : Bool := u.getD i false || n == 0
  z 0 e.nsid && z 1 e.arg0 && z 2 e.arg1 && z 3 e.dataAddr && z 3 e.dataLen && z 4 e.arg2 && z 5 e.arg3 && z 6 e.arg4 &&
    e.reserved == 0 && decide (e.flags < 4) && (!e.flags.testBit 1 || (!admin && e.opcode == 2)) &&
    (u.getD 3 false || !e.flags.testBit 0) &&
    (if admin then
      (match e.opcode with
       | 1 => decide (e.arg0 < 256) && e.dataLen == 4096
       | 2 => decide (e.arg0 < 256) && e.arg1 % 64 == 0
       | 3 => decide (e.arg0 < 65536)
       | 4 => decide (e.arg0 < 65536)
       | 6 => decide (e.arg0 < 2)
       | 7 => decide (e.arg0 < 2 ^ 44)
       | 8 => decide (e.arg0 < 65536)
       | 9 => decide (e.arg0 < 2 ^ 17)
       | _ => true)
     else
      (match e.opcode with
       | 2 => decide (e.arg1 < 2 ^ 13) && e.dataLen == 4096 * e.arg1
       | 3 => decide (e.arg1 < 2 ^ 13) && e.dataLen == 4096 * e.arg1
       | 4 => decide (e.arg1 < 2 ^ 25)
       | 0x10 => e.dataLen == 128
       | 0x11 => decide (e.arg0 < 65536)
       | 0x13 => decide (e.arg0 < 65536) && decide (e.arg1 < 2 ^ 48)
       | 0x14 => decide (e.arg0 < 65536)
       | 0x20 => decide (1 ≤ e.arg0 ∧ e.arg0 ≤ 6) &&
          (match e.arg0 with
           | 1 => e.dataLen == 0
           | 3 => e.dataLen == 128 && e.arg3 % 64 == 0 && decide (e.arg2 < 2048)
           | 2 => true
           | _ => decide (e.arg1 < 64))
       | 0x30 => e.nsid == 0xFFFFFFFF && decide (1 ≤ e.arg0 ∧ e.arg0 ≤ 3)
       | _ => true))

/-- Opcodes of the tables (R418, R424). -/
def opcodeKnown (admin : Bool) (op : Nat) : Bool :=
  if admin then decide (1 ≤ op ∧ op ≤ 9)
  else [1, 2, 3, 4, 0x10, 0x11, 0x12, 0x13, 0x14, 0x20, 0x30].contains op

/-- Segments of a command's buffer: the list is taken until it reaches DATA_LENGTH (R413); none is a bad list. -/
def listSegs (m : Memory) (fn addr : Nat) : Nat → Nat → Option (List (Nat × Nat))
  | _, 0 => some []
  | 0, _ + 1 => none
  | n + 1, left =>
    let b := memRead m (hostKey fn addr) 16
    let len := leField b 8 4
    if len = 0 ∨ leField b 12 4 ≠ 0 then none
    else if len ≥ left then some [(leField b 0 8, left)]
    else (listSegs m fn (addr + 16) n (left - len)).map (fun t => (leField b 0 8, len) :: t)

def State.segsOf (s : State) (fn : Nat) (e : SqEntry) : Option (List (Nat × Nat)) :=
  if e.flags.testBit 0 then listSegs s.hostMem fn e.dataAddr 4096 e.dataLen else some [(e.dataAddr, e.dataLen)]

/-- A command reads host memory for its data, beside its entry. -/
def readsHost (admin : Bool) (e : SqEntry) : Bool :=
  e.flags.testBit 0 || (if admin then e.opcode == 5 || (e.opcode == 4 && e.dataLen != 0)
    else [2, 0x10, 0x12].contains e.opcode || (e.opcode == 0x20 && (e.arg0 == 1 || e.arg0 == 3)))

/-- DETAIL of 0x0A09 (R418). -/
def hostDetail : HostAccess → Nat
  | .ok => 0
  | .unsupportedRequest => 1
  | .completerAbort => 2
  | .timeout => 3
  | .poisoned => 4

/-- A function sees a namespace (R406). -/
def State.nsVisible (s : State) (fn nsid : Nat) : Bool :=
  fn % 32 == 0 || (match s.fnAt fn with
    | some f => decide (1 ≤ nsid ∧ nsid ≤ 256) && f.nsVis.getLsbD (nsid - 1)
    | none => false)

/-- A command refused before admission: its status and DETAIL; none when it goes on (R406, R407, R412, R413, R418, R573). -/
def State.cmdRefusal (s : State) (x : Queue) (e : SqEntry) (a : HostAccess) : Option (Status × Nat) :=
  let admin := x.qid == 0
  let vf := x.fn % 32 != 0
  if s.trust.pending then some (0x0F03, 0)
  else if !opcodeKnown admin e.opcode || (admin && vf && (e.opcode == 5 || e.opcode == 6)) then some (0x0102, 0)
  else if !cmdFieldsOk admin e then some (0x0101, 0)
  else if a ≠ .ok ∧ readsHost admin e then some (0x0A09, hostDetail a)
  else if (s.segsOf x.fn e).isNone then some (0x0101, 0)
  else if !admin && decide (1 ≤ e.opcode ∧ e.opcode ≤ 4) && !(e.opcode == 1 && e.nsid == 0xFFFFFFFF) && !s.nsVisible x.fn e.nsid then
    some (0x0302, 0)
  else none

/-- The range a command locks: namespace, first block, blocks, and exclusive or shared (R435). -/
def lockOf (c : Cmd) : Option RangeLock :=
  let p : ReqPath := .yqi c.fn c.qid c.entry.cid
  if c.qid = 0 then none
  else match c.entry.opcode with
    | 2 => some { path := p, nsid := c.entry.nsid, lba := c.entry.arg0, count := c.entry.arg1, excl := true }
    | 3 => some { path := p, nsid := c.entry.nsid, lba := c.entry.arg0, count := c.entry.arg1, excl := false }
    | 4 => some { path := p, nsid := c.entry.nsid, lba := c.entry.arg0, count := c.entry.arg1, excl := true }
    | _ => none

/-- Two locks conflict (R436). -/
def RangeLock.clash (a b : RangeLock) : Bool :=
  a.nsid == b.nsid && (a.excl || b.excl) && decide (a.lba < b.lba + b.count) && decide (b.lba < a.lba + a.count)

/-- A command conflicts with a held entry or an earlier parked command. -/
def State.lockBlocked (s : State) (l : RangeLock) (before : List Cmd) : Bool :=
  s.yqi.locks.any (fun k => k.clash l) || before.any (fun c => match lockOf c with | some k => k.clash l | none => false)

/-- The admission point takes no command of this namespace now (R436). -/
def State.nsFull (s : State) (nsid : Nat) : Bool :=
  decide ((s.yqi.locks.filter (fun l => l.nsid == nsid)).length ≥ 4096) ||
    decide ((s.yqi.parked.filter (fun c => match lockOf c with | some k => k.nsid == nsid | none => false)).length ≥ 1024)

/-- A command is admitted with its range-lock entry, or parked (R435, R436). -/
def State.takeIn (s : State) (c : Cmd) : State :=
  match lockOf c with
  | none => { s with yqi := { s.yqi with admitted := s.yqi.admitted ++ [c] } }
  | some l =>
    if s.lockBlocked l s.yqi.parked then { s with yqi := { s.yqi with parked := s.yqi.parked ++ [c] } }
    else { s with yqi := { s.yqi with admitted := s.yqi.admitted ++ [c], locks := s.yqi.locks ++ [l] } }

/-- The policers of a YQI Read or Write, from a stage on (R511, R514): it passes, or the policer and stage that hold it. -/
def State.policeCmd (s : State) (c : Cmd) (stage : Nat) : Option (Nat × Nat) × State :=
  let bits := 8 * c.entry.dataLen
  let one (s : State) (off : Nat) : Option Nat × State :=
    match s.polMap 0 off with
    | none => (none, s)
    | some n =>
      let r := s.police 0 n bits .green
      if r.2.polAct 0 n r.1 = .stop then (some n, r.2) else (none, r.2)
  let second (s : State) : Option (Nat × Nat) × State :=
    let r := one s (0x100 + 4 * (c.entry.nsid - 1))
    (r.1.map (fun n => (n, 1)), r.2)
  if stage = 0 then
    match one s (4 * c.fn) with
    | (some n, s) => (some (n, 0), s)
    | (none, s) => second s
  else second s

/-- A YQI Read or Write is policed (R511). -/
def isPoliced (c : Cmd) : Bool := c.qid != 0 && (c.entry.opcode == 2 || c.entry.opcode == 3)

/-- A fetched command goes through its checks, its policers and the range locks. -/
def State.arrive (s : State) (x : Queue) (c : Cmd) (a : HostAccess) : State :=
  match s.cmdRefusal x c.entry a with
  | some (st, d) =>
    { s with yqi := { s.yqi with admitted := s.yqi.admitted ++ [c] } }.reply (.yqi c.fn c.qid c.entry.cid) st d
  | none =>
    if isPoliced c then
      match s.policeCmd c 0 with
      | (some (n, st), s) => { s with yqi := { s.yqi with policed := s.yqi.policed ++ [(c, n, st)] } }
      | (none, s) => s.takeIn c
    else s.takeIn c

/-- While backpressure holds for class HOST no command that carries data is fetched (R494); data moves by 4 KiB blocks. -/
def State.hostHeld (s : State) (e : SqEntry) : Bool :=
  e.dataLen != 0 && s.backpressure 0 4 (homePool (min e.dataLen 4096))

/-- A queue may be fetched from (R152, R414, R416, R430, R436, R494, R514, R625, R626). -/
def State.mayFetch (s : State) (x : Queue) : Bool :=
  let busy := (s.waitingOf x.fn x.qid).length + (s.admittedOf x.fn x.qid).length
  s.power.state == .run && !s.clockDown 49 && !s.mediaStopped && !x.frozen && x.deleting.isNone && x.sqHead != x.sqTail &&
    decide (ringDist x.depth x.cqHead x.cqTail + busy < x.depth - 1) &&
    !s.yqi.policed.any (fun c => c.1.fn == x.fn && c.1.qid == x.qid) &&
    (match lockOf { fn := x.fn, qid := x.qid, idx := x.sqHead, entry := s.sqAt x x.sqHead } with
     | some l => !s.nsFull l.nsid
     | none => true) && !s.hostHeld (s.sqAt x x.sqHead)

/-- The queue of least (function, queue ID) of a list. -/
def leastQueue : List Queue → Option Queue
  | [] => none
  | q :: qs => match leastQueue qs with
    | none => some q
    | some m => if q.fn * 65536 + q.qid ≤ m.fn * 65536 + m.qid then some q else some m

/-- The arbiter's choice (R434): admin queues first; then I/O queues round robin, BURST commands from each in turn. -/
def State.arbiter (s : State) : Option Queue :=
  let ok := s.yqi.queues.filter (fun x => s.mayFetch x)
  match leastQueue (ok.filter (fun x => x.qid == 0)) with
  | some x => some x
  | none =>
    let io := ok.filter (fun x => x.qid != 0)
    match s.yqi.turn with
    | none => leastQueue io
    | some (f, q) =>
      let burst := ((s.fnAt f).map (fun (y : Fn) => y.burst)).getD 8
      match io.find? (fun x => x.fn == f && x.qid == q && decide (s.yqi.taken < burst)) with
      | some x => some x
      | none =>
        match leastQueue (io.filter (fun x => decide (x.fn * 65536 + x.qid > f * 65536 + q))) with
        | some x => some x
        | none => leastQueue io

/-- COMMAND_FETCH (R434-R436): the arbiter's queue gives one command, which is admitted, parked, held by a policer, or
refused. `a` says how the host-memory reads it needs ended. -/
def State.commandFetch (s : State) (a : HostAccess) : State :=
  match s.arbiter with
  | none => s
  | some x =>
    let c : Cmd := { fn := x.fn, qid := x.qid, idx := x.sqHead, entry := s.sqAt x x.sqHead }
    let s := s.updQueue x.fn x.qid (fun y => { y with sqHead := (y.sqHead + 1) % y.depth })
    let s := if x.qid = 0 then s
      else { s with yqi := { s.yqi with
        taken := if s.yqi.turn = some (x.fn, x.qid) then s.yqi.taken % 64 + 1 else 1, turn := some (x.fn, x.qid) } }
    s.arrive x c a

def execCommandFetch (a : HostAccess) (s : State) : Host.Outcome State Fault Refusal := .next (s.commandFetch a)

/-- The first parked command whose conflicts have cleared. -/
def State.firstClear (s : State) : List Cmd → List Cmd → Option Cmd
  | _, [] => none
  | before, c :: cs => match lockOf c with
    | some l => if s.lockBlocked l before then s.firstClear (before ++ [c]) cs else some c
    | none => some c

/-- PARKED_ADMIT (R436): in the order they were parked, as conflicts clear. -/
def State.parkedAdmit (s : State) : State :=
  match s.firstClear [] s.yqi.parked with
  | none => s
  | some c =>
    let locks := match lockOf c with | some l => s.yqi.locks ++ [l] | none => s.yqi.locks
    { s with yqi := { s.yqi with parked := s.yqi.parked.erase c, admitted := s.yqi.admitted ++ [c], locks := locks } }

def execParkedAdmit (s : State) : Host.Outcome State Fault Refusal := .next s.parkedAdmit

/-- A CQ entry counts toward its vector (R417). -/
def State.countEntry (s : State) (fn v : Nat) (froze : Bool) : State :=
  match s.fnAt fn with
  | none => s
  | some f =>
    let c := (f.coalesce.find? (fun c => c.vector == v)).getD { vector := v }
    let c := { c with count := c.count + 1, firstAt := if c.count = 0 then s.now else c.firstAt }
    let s := s.setFn fn (fun f => { f with coalesce := f.coalesce.filter (fun x => x.vector != v) ++ [c] })
    if froze || decide (c.count ≥ c.threshold) then s.raiseVector fn v else s

/-- Writes data to a command's buffer in host memory. -/
def State.putData (s : State) (fn : Nat) : List (Nat × Nat) → List Byte → State
  | [], _ => s
  | (a, n) :: ss, b =>
    if b.isEmpty then s
    else
      let d := b.take n
      ({ s with hostMem := memWrite s.hostMem (hostKey fn a) d }.emit (.hostWrite fn a d)).putData fn ss (b.drop n)

/-- A command's CQ entry (R414, R415): written after its data, with its phase; the queue freezes when an I/O command
that is not yet past a freeze fails (R430). -/
def State.writeCq (s : State) (d : CmdDone) (c : Cmd) : State :=
  match s.queueAt d.fn d.qid with
  | none => s
  | some x =>
    let froze := d.status ≠ 0 && d.qid != 0 && !x.frozen
    let s := if froze then s.freezeQueue d.fn d.qid else s
    match s.queueAt d.fn d.qid with
    | none => s
    | some x =>
      let r := d.result.headD 0 % 2 ^ 32
      let b := leBytes 4 r ++ leBytes 2 x.sqHead ++ leBytes 2 d.qid ++ leBytes 2 d.cid ++ leBytes 2 d.status.toNat ++
        leBytes 2 (bitOf x.phase + 2 * bitOf froze) ++ leBytes 2 d.detail
      let addr := x.cqBase + 16 * x.cqTail
      let s := { s with hostMem := memWrite s.hostMem (hostKey d.fn addr) b }
      let s := s.emit (.cqEntry d.fn d.qid d.cid d.status d.detail x.sqHead x.phase [r])
      let last := x.cqTail + 1 = x.depth
      let s := s.updQueue d.fn d.qid (fun y => { y with
        cqTail := (y.cqTail + 1) % y.depth, phase := if last then !y.phase else y.phase })
      let s := s.bump (yqiBase + 0x10) yqiOvf 0
      let s := if d.status ≠ 0 then
          s.yqiLog d.status d.detail x d.cid c.entry.opcode c.entry.nsid c.entry.arg0 froze
        else s
      if x.irqEn then s.countEntry d.fn x.vector froze else s

/-- A finished command leaves: its data goes to its buffer and its CQ entry is written, unless its queue is being
deleted (R415, R418, R433). Answers the status it ended with. -/
def State.finishCmd (s : State) (d : CmdDone) (c : Cmd) (a : HostAccess) : Status × State :=
  let p : ReqPath := .yqi d.fn d.qid d.cid
  let s := { s with yqi := { s.yqi with done := s.yqi.done.erase d, admitted := s.yqi.admitted.erase c } }
  let s := s.unlock p
  match s.queueAt d.fn d.qid with
  | none => (0x0A09, s)
  | some x =>
    if x.deleting.isSome then (0x0A09, s)
    else
      let out := d.status = 0 ∧ !d.data.isEmpty
      let d := if out ∧ a ≠ .ok then { d with status := 0x0A09, detail := hostDetail a, result := [0] } else d
      let s := if out ∧ a = .ok then s.putData d.fn ((s.segsOf d.fn c.entry).getD []) d.data else s
      (d.status, s.writeCq d c)

/-- A command whose result waits for its CQ entry. -/
def State.doneCmd (s : State) (fn q cid : Nat) : Option (CmdDone × Cmd) :=
  match s.yqi.done.find? (fun d => d.fn == fn && d.qid == q && d.cid == cid),
    s.yqi.admitted.find? (fun c => c.fn == fn && c.qid == q && c.entry.cid == cid) with
  | some d, some c => some (d, c)
  | _, _ => none

/-- The stream and forme that a Forme Read holds. -/
def State.heldBy (s : State) (p : ReqPath) : Option (Nat × HeldForme) :=
  s.streamEng.ctxs.findSome? (fun x => (x.2.held.find? (fun h => h.path == some p)).map (fun h => (x.1, h)))

/-- IO_COMMAND_COMPLETE (R430, R431): a command other than a Forme Read with its forme completes. -/
def State.commandComplete (s : State) (fn q cid : Nat) (a : HostAccess) : State :=
  match s.doneCmd fn q cid with
  | none => s
  | some (d, c) => if (s.heldBy (.yqi fn q cid)).isSome then s else (s.finishCmd d c a).2

def execIoCommandComplete (fn q cid : Nat) (a : HostAccess) (s : State) : Host.Outcome State Fault Refusal :=
  .next (s.commandComplete fn q cid a)

/-- FORME_READ (R419): refused, ended with STREAM_END or the halt's status, or it grants one forme; the forme of a read
that was lost goes to it at once (R420). -/
def State.formeRead (s : State) (p : ReqPath) (id len : Nat) : State :=
  match s.ctxByStream id with
  | none => s.reply p 0x0402
  | some (c, x) =>
    if x.closing.isSome then s.reply p 0x0402
    else if x.params.consumer ≠ 0 then s.reply p 0x0101 2
    else
      let out := x.formeReads.length + (x.held.filter (fun h => h.path.isSome)).length
      if len < x.formeLength then s.reply p 0x0101 1
      else if out ≥ 64 then s.streamRefuse p c 0x040A
      else match x.held.find? (fun h => h.path.isNone) with
        | some h =>
          (s.updCtx c (fun x => { x with held := x.held.map (fun (y : HeldForme) => if y.n = h.n then { y with path := some p } else y) })).replyData
            p 0 0 [h.n] h.bytes
        | none =>
          if x.done then s.reply p 0x040D
          else match x.haltedHere with
            | some st => s.reply p st
            | none => s.updCtx c (fun x => { x with formeReads := x.formeReads ++ [p] })

def execFormeRead (p : ReqPath) (id len : Nat) (s : State) : Host.Outcome State Fault Refusal :=
  .next (s.formeRead p id len)

/-- FORME_READ_COMPLETE (R419): the forme lies in the host buffer, its CQ entry is written, and A passes it. A write that
failed leaves the forme for the next read. -/
def State.formeReadComplete (s : State) (fn q cid : Nat) (a : HostAccess) : State :=
  let p : ReqPath := .yqi fn q cid
  match s.doneCmd fn q cid, s.heldBy p with
  | some (d, c), some (k, h) =>
    let r := s.finishCmd d c a
    if r.1 = 0 then
      r.2.updCtx k (fun x =>
        let held := x.held.filter (fun (y : HeldForme) => y.n != h.n)
        ({ x with held := held, ack := (held.head?.map (fun (y : HeldForme) => y.n)).getD x.next }).releasePassed)
    else r.2.updCtx k (fun x => { x with held := x.held.map (fun (y : HeldForme) => if y.n = h.n then { y with path := none } else y) })
  | _, _ => s

def execFormeReadComplete (fn q cid : Nat) (a : HostAccess) (s : State) : Host.Outcome State Fault Refusal :=
  .next (s.formeReadComplete fn q cid a)

/-- COALESCE_TIMEOUT (R417): TIME has passed since the first uncounted entry. -/
def State.coalesceTimeout (s : State) (fn v : Nat) : State :=
  match s.fnAt fn with
  | none => s
  | some f => match f.coalesce.find? (fun c => c.vector == v) with
    | some c => if c.time ≠ 0 ∧ c.count ≠ 0 then (s.advance (c.firstAt + c.time * 1000)).raiseVector fn v else s
    | none => s

def execCoalesceTimeout (fn v : Nat) (s : State) : Host.Outcome State Fault Refusal := .next (s.coalesceTimeout fn v)

/-- The function of a YQI request. -/
def pathFn : ReqPath → Nat
  | .yqi fn _ _ => fn
  | _ => 64

/-- QUEUE_CREATE (R408, R424, R433). -/
def State.queueCreate (s : State) (p : ReqPath) (q depth v : Nat) (irq : Bool) (sq cq : Nat) : State :=
  let fn := pathFn p
  match s.fnAt fn with
  | none => s.reply p 0x0101
  | some f =>
    if decide (q = 0 ∨ q ≥ f.queues) || (s.queueAt fn q).isSome || decide (depth < 2 ∨ depth > 65536) || decide (v ≥ f.vectors) ||
      decide (sq % 4096 ≠ 0) || decide (cq % 4096 ≠ 0) then s.reply p 0x0101
    else
      let x : Queue := { fn := fn, qid := q, depth := depth, sqBase := sq, cqBase := cq, vector := v, irqEn := irq }
      { s with yqi := { s.yqi with queues := s.yqi.queues ++ [x] } }.reply p 0

def execQueueCreate (p : ReqPath) (q depth v : Nat) (irq : Bool) (sq cq : Nat) (s : State) : Host.Outcome State Fault Refusal :=
  .next (s.queueCreate p q depth v irq sq cq)

/-- The CID of a YQI request. -/
def pathCid : ReqPath → Nat
  | .yqi _ _ cid => cid
  | _ => 0

/-- QUEUE_DELETE (R433): the pair stops fetching and completes once admitted commands have run. -/
def State.queueDelete (s : State) (p : ReqPath) (q : Nat) : State :=
  let fn := pathFn p
  match s.queueAt fn q with
  | none => s.reply p 0x0101
  | some x => if q = 0 ∨ x.deleting.isSome then s.reply p 0x0101 else s.beginDelete fn q (some (pathCid p))

def execQueueDelete (p : ReqPath) (q : Nat) (s : State) : Host.Outcome State Fault Refusal := .next (s.queueDelete p q)

/-- QUEUE_DELETE_DONE (R433): no admitted command is left; the pair is freed and the delete completes. -/
def State.queueDeleteDone (s : State) (fn q : Nat) : State :=
  match s.queueAt fn q with
  | none => s
  | some x =>
    match x.deleting with
    | none => s
    | some cid =>
      if !(s.admittedOf fn q).isEmpty then s
      else
        let s := s.freeQueue fn q
        match cid with
        | some k => s.reply (.yqi fn 0 k) 0
        | none => s

def execQueueDeleteDone (fn q : Nat) (s : State) : Host.Outcome State Fault Refusal := .next (s.queueDeleteDone fn q)

/-- Queue Restart (R432): ACTION 0 fetches again from RESUME_HEAD, ACTION 1 from the tail. -/
def State.queueRestart (s : State) (p : ReqPath) (q : Nat) (skip : Bool) : State :=
  let fn := pathFn p
  match s.queueAt fn q with
  | none => s.reply p 0x0101
  | some x =>
    if !x.frozen then s.reply p 0x0101
    else
      let h := if skip then x.sqTail else x.resumeHead
      (s.updQueue fn q (fun y => { y with frozen := false, sqHead := h, resumeHead := 0 })).reply p 0 0 [h]

def execQueueRestartResume (p : ReqPath) (q : Nat) (s : State) : Host.Outcome State Fault Refusal :=
  .next (s.queueRestart p q false)

def execQueueRestartSkip (p : ReqPath) (q : Nat) (s : State) : Host.Outcome State Fault Refusal :=
  .next (s.queueRestart p q true)

/-- The YQI block's computed words (R441). -/
def viewYqi (s : State) (off : Nat) : Option Word :=
  let link (k : PcieLink) : Nat :=
    bitOf k.up + 2 * bitOf k.flit + k.speed % 128 * 2 ^ 8 + k.width % 32 * 2 ^ 16
  let vfs (l : Nat) : Nat := ((s.fnAt (32 * l)).map (fun (f : Fn) => f.vfEnabled)).getD 0 * 2 ^ 21
  let held := s.yqi.fns.foldl (fun a (f : Fn) => a + f.queues) 0
  if off = yqiBase then some 0x08001000
  else if off = yqiBase + 4 then some (BitVec.ofNat 32 (link s.yqi.link0 + vfs 0))
  else if off = yqiBase + 8 then some (BitVec.ofNat 32 (link s.yqi.link1 + vfs 1))
  else if off = yqiBase + 0x18 then some (BitVec.ofNat 32 s.errlog.lost)
  else if off = yqiBase + 0x20 then some (BitVec.ofNat 32 (4096 - held))
  else none

/-- A read of page 0 of a function's BAR2 (R410, R442). -/
def State.bar2Read (s : State) (fn off : Nat) : Word :=
  match s.fnAt fn with
  | none => 0
  | some f => match off with
    | 0x100 => BitVec.ofNat 32 f.aqSq
    | 0x104 => BitVec.ofNat 32 (f.aqSq / 2 ^ 32)
    | 0x108 => BitVec.ofNat 32 f.aqCq
    | 0x10C => BitVec.ofNat 32 (f.aqCq / 2 ^ 32)
    | 0x110 => f.aqCfg
    | 0x114 => BitVec.ofNat 32 (bitOf f.aqReady + 2 * bitOf (f.queues == 0) + 4 * bitOf f.badConfig)
    | _ => 0

/-- A write of a function's BAR2: doorbells, and the admin-queue registers, which are write-discarded while ENABLE = 1
(R410, R442). -/
def State.bar2Write (s : State) (fn off : Nat) (v : Word) : State :=
  match s.fnAt fn with
  | none => s
  | some f =>
    let lo (x : Nat) : Nat := x / 2 ^ 32 * 2 ^ 32 + v.toNat
    let hi (x : Nat) : Nat := x % 2 ^ 32 + v.toNat * 2 ^ 32
    if off % 0x1000 = 0 then s.sqTail fn (off / 0x1000) v.toNat
    else if off % 0x1000 = 4 then s.cqHead fn (off / 0x1000) v.toNat
    else if off = 0x110 then (if v.getLsbD 12 then s.aqEnable fn v else s.aqDisable fn v)
    else if f.aqReady then s
    else match off with
      | 0x100 => s.setFn fn (fun f => { f with aqSq := lo f.aqSq })
      | 0x104 => s.setFn fn (fun f => { f with aqSq := hi f.aqSq })
      | 0x108 => s.setFn fn (fun f => { f with aqCq := lo f.aqCq })
      | 0x10C => s.setFn fn (fun f => { f with aqCq := hi f.aqCq })
      | _ => s

/-- A vector's mask bit changes: a pending message of a vector that is unmasked goes out (R417). -/
def State.setMsixMask (s : State) (fn vec : Nat) (masked : Bool) : State :=
  match s.fnAt fn with
  | none => s
  | some f =>
    if masked then s.setFn fn (fun f => { f with unmasked := f.unmasked.filter (· != vec) })
    else
      let s := s.setFn fn (fun f => { f with
        unmasked := if f.unmasked.contains vec then f.unmasked else f.unmasked ++ [vec],
        msixPending := f.msixPending.filter (· != vec) })
      if f.msixPending.contains vec then s.emit (.msix fn vec) else s

/-- VF Enable and NumVFs of a link (R403, R405): above 31 is not accepted. -/
def State.setVfEnable (s : State) (l n : Nat) : State :=
  if n > 31 ∨ l > 1 then s
  else
    let s := s.setFn (32 * l) (fun f => { f with vfEnabled := n })
    let missing := ((List.range n).map (fun i => 32 * l + i + 1)).filter (fun g => (s.fnAt g).isNone)
    { s with yqi := { s.yqi with fns := s.yqi.fns ++ missing.map (fun g => { g := g }) } }

end Sys2Proof.Machine
end

