-- ==== Sys2Proof/Machine/GnozRx.lean ====
section
/-! DEFINITION. The receiving side of the Gnoz transport: the checks of a packet, reassembly, and the application of each
message type (R443-R466, R473-R481). -/

namespace Sys2Proof.Machine

/-- Types that take a duplicate-table entry (R448). -/
def takesEntry (kind flags : Nat) : Bool :=
  match kind with
  | 1 => flags.testBit 0
  | 2 => true
  | 5 => true
  | 7 => true
  | 9 => true
  | 0xA => true
  | 0xB => true
  | _ => false

/-- The header's fields (R446). -/
def parseHdr (h : List Byte) : GnozHdr :=
  { kind := beField h 1 1, flags := beField h 2 2, device := beField h 4 4 % 2 ^ 24, route := beField h 0x10 2,
    dstQueue := beField h 0xC 2, srcQueue := beField h 0xE 2, msgId := beField h 0x18 6, length := beField h 0x20 4,
    rkey := beField h 0x24 4, remoteAddr := beField h 0x28 8, immediate := beField h 0x30 8 }

/-- FRAGMENT_COUNT that a length and a fragment shift give (R446). -/
def fragCount (length shift : Nat) : Nat := max 1 ((length + 2 ^ shift - 1) / 2 ^ shift)

/-- Check 1 of R447 and the types of R448. -/
def headerOk (h payload : List Byte) : Bool :=
  let kind := beField h 1 1
  let len := beField h 0x20 4
  let shift := beField h 0x16 1
  let frag := beField h 0x12 2
  let count := beField h 0x14 2
  h.length == 64 && beField h 0 1 == 1 && beField h 0x3C 4 == crc32c (slice h 0 0x3C) &&
    decide (1 ≤ kind ∧ kind ≤ 0xC) && decide (beField h 2 2 < 32) && decide (beField h 8 1 < 8) && beField h 0x17 1 == 0 &&
    beField h 0x1E 2 == 0 && beField h 0x26 1 == 0 && (shift == 10 || shift == 13) && decide (len ≤ 16777216) &&
    (if kind = 0xC then frag == 0 && count == 1 && payload.length == len
     else count == fragCount len shift && decide (frag < count) && payload.length == min (2 ^ shift) (len - frag * 2 ^ shift))

/-- The checks of R447 on a packet: none when it passes, else the counter of R487 that it is counted in. -/
def State.packetDrop (s : State) (p : GnozPacket) : Option Nat :=
  let h := p.header
  let flagSealed := (beField h 2 2).testBit 4
  let ts := beField h 0x18 2
  let d := (s.coarse + 65536 - ts) % 65536
  if !headerOk h p.payload then some 6
  else if beField h 8 4 % 2 ^ 24 ≠ s.deviceId then some 6
  else match s.route (beField h 0x10 2) with
    | none => some 6
    | some r =>
      if r.device ≠ beField h 4 4 % 2 ^ 24 then some 6
      else if flagSealed != r.flag 2 || (flagSealed && (!s.sealedOk || (s.openPacket r h p.payload p.tag).isNone)) then some 6
      else if !flagSealed && s.lc != .provisioned then some 11
      else if 500 < d ∧ d < 65486 then some 4
      else none

/-- The class, beside RX, whose buffers a message takes: INGEST for a WRITE to a namespace key, CONTROL for a request to the control
service or its reply (R494). -/
def State.rxClass (s : State) (h : GnozHdr) : Option Nat :=
  if h.kind = 7 ∨ h.kind = 8 then some 5
  else if h.kind = 1 then
    match s.keyAt h.rkey with
    | some k => match k.kind with | .nsRange _ => some 3 | _ => none
    | none => none
  else none

/-- A fragment that opens a message needs a buffer of class RX, and of the class of its kind (R494); without one it is dropped. -/
def State.rxBuffer (s : State) (h : GnozHdr) (port len : Nat) : Bool × State :=
  let size := max len 1
  if s.backpressure 1 0 (homePool size) then (false, s)
  else match s.rxClass h with
    | some c => if s.poolHas 1 c size then s.poolPass 1 0 (port / 8) 0 size else (false, s.noGrant 1 size)
    | none => s.poolPass 1 0 (port / 8) 0 size

/-- A complete message: entry types take a duplicate-table entry before they take effect (R456, R457). -/
def State.complete (s : State) (m : InMsg) : Bool × State :=
  if !takesEntry m.hdr.kind m.hdr.flags then
    (true, { s with gnoz := { s.gnoz with inbox := s.gnoz.inbox ++ [m] } })
  else if s.gnoz.dups.length ≥ 65536 then (false, (s.gnzBump 7).sendAck m 0x0C01)
  else
    (true, { s with gnoz := { s.gnoz with
      dups := s.gnoz.dups ++ [{ device := m.hdr.device, msgId := m.hdr.msgId }], inbox := s.gnoz.inbox ++ [m] } })

/-- The bitmap of a reassembly context (R454). -/
def Reassembly.bitmap (x : Reassembly) : List Byte :=
  (List.range ((x.count + 7) / 8)).map (fun i =>
    BitVec.ofNat 8 ((List.range 8).foldl (fun a b => if x.got.any (fun g => g.1 == 8 * i + b) then a + 2 ^ b else a) 0))

/-- The payload of a reassembled message. -/
def Reassembly.bytes (x : Reassembly) : List Byte :=
  (List.range x.count).flatMap (fun i => ((x.got.find? (fun g => g.1 == i)).map (·.2)).getD [])

/-- A fragment of a WRITE is key-checked and stored as it is placed (R460, R464, R465): its status. -/
def State.placeFragment (s : State) (h : GnozHdr) (off : Nat) (b : List Byte) : Status × State :=
  if h.kind ≠ 1 then (0, s)
  else
    let st := s.keyCheck true h.rkey h.remoteAddr h.length
    if st ≠ 0 then (st, s) else (0, s.keyStore h.rkey (h.remoteAddr + off) b)

/-- A fragment of a longer message enters its reassembly context (R460-R462). -/
def State.reassemble (s : State) (m : InMsg) (frag count shift : Nat) : State :=
  let probe := m.hdr.flags.testBit 1
  let mine (x : Reassembly) : Bool := x.hdr.device == m.hdr.device && x.hdr.msgId == m.hdr.msgId
  let old := s.gnoz.reasm.find? mine
  if (match old with | some x => x.count != count || x.hdr.length != m.hdr.length || x.shift != shift | none => false) then
    s.gnzBump 6
  else if old.isNone && decide (s.gnoz.reasm.length ≥ 4096) then
    let s := s.gnzBump 8
    if probe then s.sendAck m 0x0C01 else s
  else
    let x : Reassembly := old.getD { hdr := m.hdr, count := count, shift := shift, got := [] }
    let r := s.placeFragment m.hdr (frag * 2 ^ shift) m.payload
    let got := if x.got.any (fun g => g.1 == frag) then
        x.got.map (fun (g : Nat × List Byte) => if g.1 = frag then (frag, m.payload) else g)
      else x.got ++ [(frag, m.payload)]
    let x := { x with got := got, status := if x.status = 0 then r.1 else x.status }
    let rest := r.2.gnoz.reasm.filter (fun y => !mine y)
    let kept : State := { r.2 with gnoz := { r.2.gnoz with reasm := rest ++ [x] } }
    if x.got.length < count then (if probe then kept.sendAck m 0 0 x.bitmap else kept)
    else
      let whole : InMsg := { m with payload := x.bytes, status := x.status, placed := true }
      let gone : State := { r.2 with gnoz := { r.2.gnoz with reasm := rest } }
      let c := gone.complete whole
      if c.1 then c.2 else { c.2 with gnoz := { c.2.gnoz with reasm := rest ++ [x] } }

/-- GNOZ_FRAGMENT_RECEIVE (R443, R446-R448, R456-R462, R484, R485, R494, R511): a frame that carries a Gnoz packet is
policed, checked, matched against the duplicate table and placed; it wakes a device in Idle (R624). -/
def State.fragmentReceive (s : State) (p : GnozPacket) : State :=
  if s.netFenced || s.power.tripAt.isSome then s
  else
    let s := s.wakeEvent .packet
    let kind := beField p.header 1 1
    let second := if kind < 16 then some (0x100 + 4 * kind) else none
    let pol := s.policeFrame p.port (p.frameBytes + 20) p.dscp second
    let s := pol.2.2
    if !pol.1 || !s.gnozEnabled then s
    else match s.packetDrop p with
      | some c => s.gnzBump c
      | none =>
        let h := parseHdr p.header
        let m : InMsg := {
          hdr := h, attempt := beField p.header 4 1, sendTime := beField p.header 0x38 4, path := beField p.header 8 1,
          port := p.port, ce := p.ce || pol.2.1,
          payload := ((s.route h.route).bind (fun r => s.openPacket r p.header p.payload p.tag)).getD p.payload }
        match s.gnoz.dups.find? (fun d => d.device == h.device && d.msgId == h.msgId) with
        | some d =>
          let s := s.gnzBump 3
          match d.result with
          | some (st, r) => s.sendAck m st r
          | none => s
        | none =>
          let count := beField p.header 0x14 2
          let opens := count == 1 || !s.gnoz.reasm.any (fun x => x.hdr.device == h.device && x.hdr.msgId == h.msgId)
          let b := if opens then s.rxBuffer h p.port p.payload.length else (true, s)
          if !b.1 then b.2
          else if count = 1 then (b.2.complete m).2
          else b.2.reassemble m (beField p.header 0x12 2) count (beField p.header 0x16 1)

def execGnozFragmentReceive (p : GnozPacket) (s : State) : Host.Outcome State Fault Refusal := .next (s.fragmentReceive p)

/-- The sender's route permits something (R450). -/
def State.permits (s : State) (m : InMsg) (bit : Nat) : Bool :=
  match s.route m.hdr.route with | some r => r.flag bit | none => false

/-- Blocks of an ingest WRITE whose admission is not refused, up to the first refusal (R476): their number and the refusal's
status. -/
def State.ingestBlocks (s : State) (p : ReqPath) (ns lba : Nat) : Nat → Nat × Status
  | 0 => (0, 0)
  | n + 1 => match s.writeRefusal p ns lba 1 with
    | some st => (0, st)
    | none =>
      let r := s.ingestBlocks p ns (lba + 1) n
      (r.1 + 1, r.2)

/-- A WRITE to a namespace key (R476): its blocks are admitted as Writes, with the range locks of R435; while one is locked
the message waits. Blocks of a group namespace go through the group's writes. -/
def State.ingestWrite (s : State) (m : InMsg) (k : GnozKey) (ns : Nat) (pl : Placement) : State :=
  if !s.permits m 5 then s.writeEnd m 0x0C08
  else if m.hdr.remoteAddr % 4096 ≠ 0 ∨ m.hdr.length % 4096 ≠ 0 then s.writeEnd m 0x0C05
  else if m.hdr.length = 0 then s.writeEnd m 0
  else
    let p : ReqPath := .gnoz m.hdr.device m.hdr.msgId
    let lba := k.base + m.hdr.remoteAddr / 4096
    let l : RangeLock := { path := p, nsid := ns, lba := lba, count := m.hdr.length / 4096, excl := true }
    if s.lockBlocked l s.yqi.parked || s.memberNs ns then s
    else
      let b := s.ingestBlocks p ns lba (m.hdr.length / 4096)
      if b.2 = 0 then s.mediaWrite p ns lba m.payload pl
      else if b.1 = 0 then s.writeEnd m b.2
      else
        let t := s.mediaWrite .image ns lba (m.payload.take (4096 * b.1)) pl
        if t.media.appended = s.media.appended then s else t.writeEnd m b.2

/-- GNOZ_RX_WRITE (R458, R464, R470, R476): the payload is stored within its key; a sealed one notifies. -/
def State.rxWrite (s : State) (device msgId : Nat) (pl : Placement) : State :=
  match s.inMsg device msgId 1 with
  | none => s
  | some m =>
    let r := if m.placed then (m.status, s) else s.placeFragment m.hdr 0 m.payload
    if r.1 ≠ 0 then r.2.writeEnd m r.1
    else match s.keyAt m.hdr.rkey with
      | some k => match k.kind with
        | .nsRange ns => s.ingestWrite m k ns pl
        | _ => r.2.writeEnd m 0
      | none => r.2.writeEnd m 0

def execGnozRxWrite (device msgId : Nat) (pl : Placement) (s : State) : Host.Outcome State Fault Refusal :=
  .next (s.rxWrite device msgId pl)

/-- A message refused with NO_RECEIVE is retried (R474), so it leaves no duplicate-table entry. -/
def State.dropEntry (s : State) (m : InMsg) : State :=
  { s with gnoz := { s.gnoz with dups := s.gnoz.dups.filter (fun d => !(d.device == m.hdr.device && d.msgId == m.hdr.msgId)) } }

/-- A message goes into the next posted receive of its queue (R474, R475); it waits while the receive's check context is held
(R193). -/
def State.intoReceive (s : State) (m : InMsg) : State :=
  let q := m.hdr.dstQueue
  let held := match (s.gq q).recvs with
    | (_, w) :: _ => w.flags.testBit 2 && s.regFld (chkCtx 1 w.checkCtx 4) 0 1 == 1
    | [] => false
  if held then s
  else
  let s := s.dropIn m
  if !s.gqEnabled q then s.ackApplied m 0x0C02
  else match (s.gq q).recvs with
    | [] => (s.ackApplied m 0x0C06).dropEntry m
    | (idx, w) :: rest =>
      if w.length < m.payload.length then s.ackApplied m 0x0C07
      else
        let s := s.setGq { s.gq q with recvs := rest }
        let r : Status × List Byte × State :=
          if w.flags.testBit 2 then s.checkRun 1 w.checkCtx true true m.payload else (0, m.payload, s)
        let b := if r.1 = 0 then r.2.1 else m.payload
        let s := r.2.2.gqWrite q w.localAddr b
        let s := s.gqComplete q idx 7 r.1 0 m.hdr.immediate b.length m.hdr.device
        s.ackApplied m 0

/-- GNOZ_RX_SEND (R474). -/
def State.rxSend (s : State) (device msgId : Nat) : State :=
  match s.inMsg device msgId 2 with
  | none => s
  | some m => s.intoReceive m

def execGnozRxSend (device msgId : Nat) (s : State) : Host.Outcome State Fault Refusal := .next (s.rxSend device msgId)

/-- GNOZ_RX_FORME (R474, R480). -/
def State.rxForme (s : State) (device msgId : Nat) : State :=
  match s.inMsg device msgId 9 with
  | none => s
  | some m => s.intoReceive m

def execGnozRxForme (device msgId : Nat) (s : State) : Host.Outcome State Fault Refusal := .next (s.rxForme device msgId)

/-- GNOZ_RX_STREAM_EVENT (R474, R480). -/
def State.rxStreamEvent (s : State) (device msgId : Nat) : State :=
  match s.inMsg device msgId 0xA with
  | none => s
  | some m => s.intoReceive m

def execGnozRxStreamEvent (device msgId : Nat) (s : State) : Host.Outcome State Fault Refusal :=
  .next (s.rxStreamEvent device msgId)

/-- Why the data of a READ of a namespace range cannot be given (R118, R119, R128). -/
def State.nsReadRefusal (s : State) (k : GnozKey) (addr len : Nat) : Option Status :=
  match k.kind with
  | .nsRange ns =>
    match s.mediaGate with
    | some st => some st
    | none => if s.nsReadable ns (k.base * 4096 + addr) len then none else some 0x0201
  | _ => none

/-- A READ of a namespace range waits while a command that writes the range holds its lock (R435, R437). -/
def State.readWaits (s : State) (m : InMsg) (k : GnozKey) (len : Nat) : Bool :=
  match k.kind with
  | .nsRange ns =>
    let l : RangeLock := {
      path := .gnoz m.hdr.device m.hdr.msgId, nsid := ns, lba := k.base + m.hdr.remoteAddr / 4096,
      count := (m.hdr.remoteAddr % 4096 + len + 4095) / 4096, excl := false }
    s.lockBlocked l s.yqi.parked
  | _ => false

/-- GNOZ_RX_READ (R464, R477): answered with READ_DATA, or with an ACK that carries a refusal. -/
def State.rxRead (s : State) (device msgId : Nat) : State :=
  match s.inMsg device msgId 3 with
  | none => s
  | some m =>
    let len := m.hdr.immediate % 2 ^ 32
    let st := s.keyCheck false m.hdr.rkey m.hdr.remoteAddr len
    if st = 0 && ((s.keyAt m.hdr.rkey).map (fun k => s.readWaits m k len)).getD false then s
    else
    let s := s.dropIn m
    if st ≠ 0 then s.ackApplied m st
    else if len > 16777216 then s.ackApplied m 0x0C05
    else match (s.keyAt m.hdr.rkey).bind (fun k => s.nsReadRefusal k m.hdr.remoteAddr len) with
      | some st => s.ackApplied m st
      | none =>
        (s.gnzBump 1).sendMsg {
          kind := 4, device := m.hdr.device, route := m.hdr.route, dstQueue := m.hdr.srcQueue, srcQueue := m.hdr.dstQueue,
          msgId := 0, length := 0, immediate := m.hdr.msgId } (s.keyRead m.hdr.rkey m.hdr.remoteAddr len) .reply

def execGnozRxRead (device msgId : Nat) (s : State) : Host.Outcome State Fault Refusal := .next (s.rxRead device msgId)

/-- A message of this device ends: its fragments leave their paths, and it leaves the messages under way. -/
def State.endOut (s : State) (m : OutMsg) : State :=
  let s := m.flight.foldl (fun s (f : Nat × Nat) => s.subFlight m.hdr.route f.2 (m.fragLen f.1)) s
  { s with gnoz := { s.gnoz with out := s.gnoz.out.erase m } }

/-- Returned data, of a READ or of a CONTROL, is placed at REPLY_ADDR and completes its request (R477, R481); a copy that
matches nothing outstanding is dropped (R458). -/
def State.returned (s : State) (m : InMsg) (kind op : Nat) : State :=
  let s := s.dropIn m
  let id := m.hdr.immediate % 2 ^ 48
  match s.gnoz.out.find? (fun o => o.minted && o.hdr.kind == kind && o.hdr.msgId == id && o.hdr.device == m.hdr.device) with
  | none => s
  | some o =>
    match o.owner with
    | .wr q idx _ addr cap =>
      let s := s.endOut o
      let short := decide (cap < m.payload.length)
      let s := if short then s else s.gqWrite q addr m.payload
      (s.gqComplete q idx op (if short then 0x0C07 else 0) 0 0 m.payload.length m.hdr.device).ackApplied m 0
    | _ => s

/-- GNOZ_RX_READ_DATA (R477). -/
def State.rxReadData (s : State) (device msgId : Nat) : State :=
  match s.inMsg device msgId 4 with
  | none => s
  | some m => s.returned m 3 3

def execGnozRxReadData (device msgId : Nat) (s : State) : Host.Outcome State Fault Refusal :=
  .next (s.rxReadData device msgId)

/-- GNOZ_RX_REPLY (R481). -/
def State.rxReply (s : State) (device msgId : Nat) : State :=
  match s.inMsg device msgId 8 with
  | none => s
  | some m => s.returned m 7 5

def execGnozRxReply (device msgId : Nat) (s : State) : Host.Outcome State Fault Refusal := .next (s.rxReply device msgId)

/-- A remote ADD on a shared counter (R381-R383): its status. The counters lie on the field die (R44). -/
def State.remoteAdd (s : State) (device imm : Nat) : Status × State :=
  let p := imm % 65536
  let gen := imm / 2 ^ 16 % 256
  let n := imm / 2 ^ 24 % 65536
  let c := s.ctr p
  if s.fieldFenced then (0x1002, s)
  else if imm / 2 ^ 40 ≠ 0 ∨ n = 0 then (0x0B05, s)
  else if p < 49152 ∨ c.owner.isNone ∨ c.remote = false then (0x0B05, s)
  else if c.gen ≠ gen then (0x0B05, s.bump (synBase + 0x44) (synBase + 0x48) 1)
  else
    let r := s.counterAdd p n (sigRemote device) device 0xFFFF
    (r.1, r.2.bump (synBase + 0x40) (synBase + 0x48) 0)

/-- GNOZ_RX_SYNC_ADD (R478). -/
def State.rxSyncAdd (s : State) (device msgId : Nat) : State :=
  match s.inMsg device msgId 5 with
  | none => s
  | some m =>
    let s := s.dropIn m
    if !s.permits m 6 then s.ackApplied m 0x0C08
    else
      let r := s.remoteAdd device m.hdr.immediate
      r.2.ackApplied m r.1

def execGnozRxSyncAdd (device msgId : Nat) (s : State) : Host.Outcome State Fault Refusal := .next (s.rxSyncAdd device msgId)

/-- GNOZ_RX_ARM (R473): the armed requests with the tag are released, in posting order; RESULT is their number. -/
def State.rxArm (s : State) (device msgId : Nat) : State :=
  match s.inMsg device msgId 0xB with
  | none => s
  | some m =>
    let s := s.dropIn m
    let g := s.gq m.hdr.dstQueue
    let hit (x : Nat × WorkReq) : Bool := x.2.armTag == m.hdr.immediate % 65536
    let rel := g.armed.filter hit
    let s := if rel.isEmpty then s
      else s.setGq { g with armed := g.armed.filter (fun x => !hit x), released := g.released ++ rel }
    s.ackApplied m 0 rel.length

def execGnozRxArm (device msgId : Nat) (s : State) : Host.Outcome State Fault Refusal := .next (s.rxArm device msgId)

/-- GNOZ_RX_CREDIT (R86, R87, R479). -/
def State.rxCredit (s : State) (device msgId : Nat) : State :=
  match s.inMsg device msgId 6 with
  | none => s
  | some m =>
    let s := s.dropIn m
    let id := m.hdr.immediate % 65536
    if m.hdr.dstQueue ≠ 0xFFFF then s.ackApplied m 0x0C02
    else
      let foreign := match s.ctxByStream id with
        | some (_, x) => x.params.consumer / 2 ^ 32 % 2 ^ 24 != device
        | none => false
      if foreign then s.ackApplied m 0x0C08
      else
        let r := s.credit id (m.hdr.immediate / 65536) (m.hdr.remoteAddr % 2 ^ 48)
        r.2.ackApplied m r.1

def execGnozRxCredit (device msgId : Nat) (s : State) : Host.Outcome State Fault Refusal := .next (s.rxCredit device msgId)

/-- A CONTROL request is known and its body well formed (R481). -/
def controlOk (b : List Byte) : Bool :=
  let body := b.length - 16
  let arg := leField b 4 4
  decide (b.length ≥ 16) && leField b 2 2 == 0 &&
    (match leField b 0 2 with
     | 1 => body == 128 && arg == 0
     | 2 => body == 0 && decide (arg < 65536)
     | 3 => body == 0 && decide (arg < 65536) && decide (leField b 8 8 < 2 ^ 48)
     | 4 => arg == 0
     | 5 => decide (1 ≤ arg ∧ arg ≤ 6) && (match arg with
       | 1 => body == 4
       | 3 => decide (body ≥ 128)
       | _ => body == 0)
     | 6 => true
     | 7 => leField b 8 8 % 4096 == 0 && body % 4096 == 0
     | 8 => body == 0 && decide (arg < 2)
     | 9 => body == 4 && decide (arg < 256)
     | _ => false)

/-- GNOZ_RX_CONTROL (R481): the request is dispatched to the control service, whose effect is the command of its chapter with
this message as its path; or it is refused with 0x0C08 or 0x0C0A, or with 0x0F03 while a transition is pending (R573). -/
def State.rxControl (s : State) (device msgId : Nat) : State :=
  match s.inMsg device msgId 7 with
  | none => s
  | some m =>
    let s := s.dropIn m
    if m.hdr.dstQueue ≠ 0 then s.ackApplied m 0x0C02
    else if !s.permits m 4 then s.ackApplied m 0x0C08
    else if !controlOk m.payload then s.ackApplied m 0x0C0A
    else
      let c : ControlReq := { device := device, msgId := msgId, queue := m.hdr.srcQueue, route := m.hdr.route, path := m.path }
      let s := { s with gnoz := { s.gnoz with controls := s.gnoz.controls ++ [c] } }
      if s.trust.pending then s.controlReply c 0x0F03 0 0 [] else s

def execGnozRxControl (device msgId : Nat) (s : State) : Host.Outcome State Fault Refusal := .next (s.rxControl device msgId)

/-- FRAME_DISCARD (R443, R445): counted in RX_DROPPED. -/
def State.frameDiscard (s : State) (f : FrameInfo) (_cause : DiscardCause) : State :=
  let r := s.policeOther f none
  if r.1 then r.2.gnzBump 12 else r.2

def execFrameDiscard (f : FrameInfo) (cause : DiscardCause) (s : State) : Host.Outcome State Fault Refusal :=
  .next (s.frameDiscard f cause)

/-- DUP_ENTRY_EXPIRY (R456). -/
def State.dupExpiry (s : State) (device msgId : Nat) : State :=
  let d := s.ageTicks msgId
  if 500 < d ∧ d < 65486 then
    { s with gnoz := { s.gnoz with dups := s.gnoz.dups.filter (fun e => !(e.device == device && e.msgId == msgId)) } }
  else s

def execDupEntryExpiry (device msgId : Nat) (s : State) : Host.Outcome State Fault Refusal := .next (s.dupExpiry device msgId)

/-- REASSEMBLY_EXPIRY (R461): the context is freed and its message stays unapplied. -/
def State.reasmExpiry (s : State) (device msgId : Nat) : State :=
  let d := s.ageTicks msgId
  if 500 < d ∧ d < 65486 then
    { s with gnoz := { s.gnoz with reasm := s.gnoz.reasm.filter (fun x => !(x.hdr.device == device && x.hdr.msgId == msgId)) } }
  else s

def execReassemblyExpiry (device msgId : Nat) (s : State) : Host.Outcome State Fault Refusal :=
  .next (s.reasmExpiry device msgId)

end Sys2Proof.Machine
end

