-- ==== Sys2Proof/Machine/GnozTx.lean ====
section
/-! DEFINITION. The sending side of the Gnoz transport: work requests, acknowledgements, congestion, retransmission and
expiry (R449, R454, R455, R467-R482). -/

namespace Sys2Proof.Machine

/-- A work request as bytes (R468). -/
def parseWr (b : List Byte) : WorkReq :=
  { op := leField b 0 1, flags := leField b 1 1, waitQueue := leField b 2 2, waitCount := leField b 4 4,
    dest := leField b 8 8, localAddr := leField b 0x10 8, length := leField b 0x18 4, rkey := leField b 0x1C 4,
    remoteAddr := leField b 0x20 8, immediate := leField b 0x28 8, replyAddr := leField b 0x30 8,
    replyCap := leField b 0x38 4, armTag := leField b 0x3C 2, checkCtx := leField b 0x3E 1, reserved := leField b 0x3F 1 }

/-- GNZ_Q_DOORBELL (R467, R489): a write of GNZ_Q_TAIL, except of a run-owned queue by software. -/
def State.gqDoorbell (s : State) (q : Nat) (v : Word) : State :=
  if q < 4096 then s.setBits (gnzQ q 0x18) 0 17 (fld v 0 17) else s

def execGnzQDoorbell (q : Nat) (v : Word) (s : State) : Host.Outcome State Fault Refusal := .next (s.gqDoorbell q v)

/-- Requests between HEAD and TAIL. -/
def State.gqAvail (s : State) (q : Nat) : Nat := (s.regFld (gnzQ q 0x18) 0 17 + 2 ^ 17 - (s.gq q).head) % 2 ^ 17

/-- The request that a queue starts next: the first released one, or the one at HEAD; with its ring index and whether it
was armed before. -/
def State.gqNext (s : State) (q : Nat) : Option (Nat × WorkReq × Bool) :=
  if !s.gqEnabled q then none
  else match (s.gq q).released with
    | (i, w) :: _ => some (i, w, true)
    | [] =>
      if s.gqAvail q = 0 then none
      else
        let i := (s.gq q).head % s.gqEntries q
        some (i, parseWr (s.gqRead q (s.reg64 (gnzQ q 8) + 64 * i) 64), false)

/-- The queue's next request is taken. -/
def State.gqTake (s : State) (q : Nat) (wasArmed : Bool) : State :=
  let g := s.gq q
  s.setGq (if wasArmed then { g with released := g.released.drop 1, waiting := false }
    else { g with head := (g.head + 1) % 2 ^ 17, waiting := false })

/-- The owner of a queue: its run, or software. -/
def State.gqOwner (s : State) (q : Nat) : Option Nat := (s.gq q).run

/-- A request's fields are in range (R446, R468, R478). -/
def State.wrOk (s : State) (q : Nat) (w : WorkReq) : Bool :=
  decide (1 ≤ w.op ∧ w.op ≤ 7) && decide (w.flags < 8) && w.reserved == 0 && decide (w.length ≤ 16777216) &&
    (!w.flags.testBit 0 || w.op == 1) && (w.op != 7 || w.dest == 0) &&
    (w.waitQueue == 0xFFFF || (s.gqEnabled w.waitQueue && s.gqOwner w.waitQueue == s.gqOwner q)) &&
    (w.op != 4 || (decide (1 ≤ w.immediate / 2 ^ 24 % 65536) && decide (w.immediate < 2 ^ 40))) &&
    (w.op != 6 || decide (w.immediate < 65536)) && ((w.op != 1 && w.op != 3) || w.rkey / 256 % 256 == 0)

/-- The wait of a request is over (R472): WAIT_COUNT equals the completion count or is earlier. -/
def State.wrReady (s : State) (w : WorkReq) : Bool :=
  w.waitQueue == 0xFFFF ||
    (let c := (s.gq w.waitQueue).count
     w.waitCount == c || seqEarlier 32 w.waitCount c)

/-- A request's check waits while its context of the net die is held (R193, R475). -/
def State.wrHeld (s : State) (w : WorkReq) : Bool := w.flags.testBit 2 && s.regFld (chkCtx 1 w.checkCtx 4) 0 1 == 1

/-- A write of a group has failed: the first failure is kept (R471). -/
def State.groupFail (s : State) (q idx : Nat) : State :=
  let g := s.gq q
  s.setGq { g with groupFailed := some (g.groupFailed.getD idx) }

/-- A message for a work request (R446, R448). -/
def State.sendWr (s : State) (q idx : Nat) (w : WorkReq) (payload : List Byte) : State :=
  let kind := match w.op with | 1 => 1 | 2 => 2 | 3 => 3 | 4 => 5 | 5 => 7 | _ => 0xB
  s.sendMsg {
    kind := kind, flags := if w.op = 1 then w.flags % 2 else 0, device := w.dest / 2 ^ 32 % 2 ^ 24,
    route := w.dest % 65536, dstQueue := handleQueue w.dest, srcQueue := q, msgId := 0, length := 0,
    rkey := if w.op = 1 ∨ w.op = 3 then w.rkey else 0,
    remoteAddr := if w.op = 1 ∨ w.op = 3 then w.remoteAddr else 0,
    immediate := if w.op = 3 then w.length else w.immediate } payload (.wr q idx w.op w.replyAddr w.replyCap)

/-- The payload of a request, run through its check context when CHECK = 1 (R475): a status other than 0 when the check
refuses it. -/
def State.wrPayload (s : State) (q : Nat) (w : WorkReq) : Status × List Byte × State :=
  let b := s.gqRead q w.localAddr w.length
  let r : Status × List Byte × State :=
    if w.flags.testBit 2 then s.checkRun 1 w.checkCtx true true b else (0, b, s)
  if r.1 = 0 ∧ r.2.1.length > 16777216 then (0x0C09, [], r.2.2) else r

/-- Sends a request with its payload, or completes it with the status of its check. -/
def State.sendChecked (s : State) (q idx : Nat) (w : WorkReq) : State :=
  let r := s.wrPayload q w
  if r.1 ≠ 0 then r.2.2.gqComplete q idx w.op r.1 else r.2.2.sendWr q idx w r.2.1

/-- A request completes without being sent; a WRITE that is not sealed fails its group, a sealed one ends it. -/
def State.wrRefuse (s : State) (q idx : Nat) (w : WorkReq) (st : Status) : State :=
  let s := s.gqComplete q idx w.op st
  if w.op = 1 then
    if w.flags.testBit 0 then
      let g := s.gq q
      s.setGq { g with group := [], groupFailed := none }
    else s.groupFail q idx
  else s

/-- A WRITE of a group (R470, R471): a plain one is sent; a sealed one is sent when every earlier write of its group has
completed with status 0, waits for them, or fails with the group. -/
def State.sendWrite (s : State) (q idx : Nat) (w : WorkReq) : State :=
  let g := s.gq q
  if !w.flags.testBit 0 then
    let r := s.wrPayload q w
    if r.1 ≠ 0 then r.2.2.wrRefuse q idx w r.1
    else (r.2.2.setGq { g with group := g.group ++ [idx] }).sendWr q idx w r.2.1
  else
    let s := s.setGq { g with group := [], groupFailed := none }
    match g.groupFailed with
    | some f => s.gqComplete q idx 1 0x0C0C f
    | none =>
      if g.group.isEmpty then s.sendChecked q idx w
      else s.setGq { g with group := [], groupFailed := none, sealWaits := g.sealWaits ++ [(idx, w, g.group)] }

/-- A request that starts (R449, R468, R474, R475, R477). -/
def State.wrRun (s : State) (q idx : Nat) (w : WorkReq) : State :=
  if w.op = 7 then
    let g := s.gq q
    s.setGq { g with recvs := g.recvs ++ [(idx, w)] }
  else if (s.handle w.dest).isNone then s.wrRefuse q idx w 0x0C02
  else if w.op = 3 then
    if w.length > w.replyCap then s.wrRefuse q idx w 0x0C07 else s.sendWr q idx w []
  else if w.op = 4 ∨ w.op = 6 then s.sendWr q idx w []
  else if w.op = 1 then s.sendWrite q idx w
  else s.sendChecked q idx w

/-- The request that a queue starts next, when it is of one operation (R467-R473): a malformed one completes with 0x0C09, an
armed one is set aside, one whose wait is not over, or whose check context is held, holds its queue. A sealed write whose
group has ended while its context was held goes first. A request with an OP the table does not have is taken
by whichever row comes. On a fenced net die every request completes with 0x1002 (R44). -/
def State.wrStart (s : State) (q op : Nat) : State :=
  match (if op = 1 then (s.gq q).sealWaits.find? (fun x => x.2.2.isEmpty && !s.wrHeld x.2.1) else none) with
  | some x => (s.setGq { s.gq q with sealWaits := (s.gq q).sealWaits.erase x }).sendChecked q x.1 x.2.1
  | none =>
  match s.gqNext q with
  | none => s
  | some (idx, w, wasArmed) =>
    if (w.op ≠ op ∧ 1 ≤ w.op ∧ w.op ≤ 7) ∨ s.blockHeld 7 then s
    else if s.netFenced then (s.gqTake q wasArmed).wrRefuse q idx w 0x1002
    else if !s.wrOk q w then (s.gqTake q wasArmed).wrRefuse q idx w 0x0C09
    else if w.flags.testBit 1 && !wasArmed then
      let s := s.gqTake q false
      let g := s.gq q
      if g.armed.length ≥ 256 then s.wrRefuse q idx w 0x0C09 else s.setGq { g with armed := g.armed ++ [(idx, w)] }
    else if !s.wrReady w || s.wrHeld w then
      let g := s.gq q
      s.setGq { g with waiting := true }
    else (s.gqTake q wasArmed).wrRun q idx w

/-- WR_WRITE (R468, R470). -/
def execWrWrite (q : Nat) (s : State) : Host.Outcome State Fault Refusal := .next (s.wrStart q 1)

/-- WR_SEND (R468, R474). -/
def execWrSend (q : Nat) (s : State) : Host.Outcome State Fault Refusal := .next (s.wrStart q 2)

/-- WR_READ (R468, R477). -/
def execWrRead (q : Nat) (s : State) : Host.Outcome State Fault Refusal := .next (s.wrStart q 3)

/-- WR_SYNC_ADD (R468, R478). -/
def execWrSyncAdd (q : Nat) (s : State) : Host.Outcome State Fault Refusal := .next (s.wrStart q 4)

/-- WR_CONTROL (R468, R481). -/
def execWrControl (q : Nat) (s : State) : Host.Outcome State Fault Refusal := .next (s.wrStart q 5)

/-- WR_ARM (R468, R473). -/
def execWrArm (q : Nat) (s : State) : Host.Outcome State Fault Refusal := .next (s.wrStart q 6)

/-- WR_RECV (R468, R474). -/
def execWrRecv (q : Nat) (s : State) : Host.Outcome State Fault Refusal := .next (s.wrStart q 7)

/-- A write of a group has ended: a sealed write that waits for it is sent when it was the last, or fails (R470, R471). -/
def State.groupEnd (s : State) (q idx : Nat) (st : Status) : State :=
  let g := s.gq q
  let s := if g.group.contains idx then
      s.setGq { g with
        group := g.group.filter (· != idx), groupFailed := if st = 0 then g.groupFailed else some (g.groupFailed.getD idx) }
    else s
  let g := s.gq q
  let hit (x : Nat × WorkReq × List Nat) : Bool := x.2.2.contains idx
  match g.sealWaits.find? hit with
  | none => s
  | some x =>
    if st ≠ 0 then (s.setGq { g with sealWaits := g.sealWaits.erase x }).gqComplete q x.1 1 0x0C0C idx
    else
      let left := x.2.2.filter (· != idx)
      if left.isEmpty && !s.wrHeld x.2.1 then
        (s.setGq { g with sealWaits := g.sealWaits.erase x }).sendChecked q x.1 x.2.1
      else s.setGq { g with sealWaits := g.sealWaits.map (fun (y : Nat × WorkReq × List Nat) => if hit y then (y.1, y.2.1, left) else y) }

/-- A forme leaves egress (R90). -/
def State.formeDone (s : State) (ctx n : Nat) : State :=
  s.updCtx ctx (fun x => { x with inEgress := x.inEgress.filter (· != n) })

/-- The stream of a context is still open, for R480. -/
def State.ctxServed (s : State) (ctx : Nat) : Bool :=
  match s.ctxOf ctx with | some x => x.closing.isNone | none => false

/-- A message ends with a status: its request completes, or its forme leaves egress or waits to be sent again (R469,
R480). -/
def State.messageEnd (s : State) (m : OutMsg) (st : Status) (detail : Nat) (result : Nat) : State :=
  match m.owner with
  | .wr q idx op _ _ =>
    let s := s.endOut m
    let s := s.gqComplete q idx op st detail (if op = 6 then result else 0)
    (if op = 1 then s.groupEnd q idx st else s).pump
  | .forme ctx n =>
    if st = 0 ∨ !s.ctxServed ctx then ((s.endOut m).formeDone ctx n).pump
    else
      let s := s.endOut m
      { s with gnoz := { s.gnoz with out := s.gnoz.out ++ [{ m with flight := [], resend := [], ended := true }] } }.pump
  | .event ctx _ _ =>
    if st = 0 ∨ !s.ctxServed ctx then (s.endOut m).pump
    else
      let s := s.endOut m
      { s with gnoz := { s.gnoz with out := s.gnoz.out ++ [{ m with flight := [], resend := [], ended := true }] } }.pump
  | _ => (s.endOut m).pump

/-- Bytes of a message in flight on a path. -/
def OutMsg.flightOn (m : OutMsg) (path : Nat) : Nat :=
  (m.flight.filter (fun f => f.2 == path)).foldl (fun a f => a + m.fragLen f.1) 0

/-- The congestion window of one path after an ACK (R482). -/
def State.congest (s : State) (r : Route) (path : Nat) (ece : Bool) (rtt acked : Nat) : State :=
  let p := s.pathState r.index path
  let rtts := (p.rtts.filter (fun (x : Nat × Nat) => decide (s.now ≤ x.1 + 10000000000))) ++ [(s.now, rtt)]
  let base := rtts.foldl (fun a (x : Nat × Nat) => min a x.2) rtt
  let target := if r.targetDelay = 0 then 10000 else r.targetDelay
  let p := { p with rtts := rtts }
  if ece || decide (rtt > base + target) then
    let due := match p.cutAt with | some t => decide (s.now ≥ t + base) | none => true
    s.setPath (if due then { p with window := max 16384 (p.window - p.window / 8), cutAt := some s.now } else p)
  else s.setPath { p with window := min 16777216 (p.window + acked * 8192 / max p.window 1) }

/-- Retransmission (R455): another path, the next ATTEMPT, a doubled RTO, the window of the path at 16 KiB. A one-fragment
message goes again whole, a longer one as a probe. -/
def State.retransmit (s : State) (i : Nat) (m : OutMsg) : State :=
  let p := s.pathState m.hdr.route m.lastPath
  let s := s.setPath { p with window := 16384 }
  let s := m.flight.foldl (fun s (f : Nat × Nat) => s.subFlight m.hdr.route f.2 (m.fragLen f.1)) s
  (s.setOut i { m with
    attempt := m.attempt + 1, rto := min 25600000 (2 * m.rto), flight := [], resend := [m.frags - 1],
    probe := decide (m.frags > 1) }).pump

/-- A message gives up (R455, R474): the refusal that was retried, or 0x0C01. -/
def State.giveUp (s : State) (m : OutMsg) : State :=
  if m.refused ≠ 0 then s.messageEnd m m.refused 0 0 else s.messageEnd m 0x0C01 (if m.busy then 2 else 1) 0

/-- RTO_EXPIRY (R455): of the message at a place in the messages under way. -/
def State.rtoExpiry (s : State) (i : Nat) : State :=
  match s.gnoz.out[i]? with
  | none => s
  | some m =>
    if !m.minted || m.acked || m.ended || decide (m.nextFrag < m.frags) then s
    else
      let s := s.advance m.rtoAt
      if m.attempt ≥ 255 ∨ s.now ≥ m.bornAt + 400000000 then s.giveUp m else s.retransmit i m

def execRtoExpiry (i : Nat) (s : State) : Host.Outcome State Fault Refusal := .next (s.rtoExpiry i)

/-- MESSAGE_EXPIRY (R455): at 400 ms of age, or when ATTEMPT would exceed 255. -/
def State.messageExpiry (s : State) (i : Nat) : State :=
  match s.gnoz.out[i]? with
  | none => s
  | some m =>
    if m.acked || m.ended then s
    else if m.attempt < 255 then (s.advance (m.bornAt + 400000000)).giveUp m else s.giveUp m

def execMessageExpiry (i : Nat) (s : State) : Host.Outcome State Fault Refusal := .next (s.messageExpiry i)

/-- Fragments that a bitmap does not show received. -/
def missing (m : OutMsg) (bitmap : List Byte) : List Nat :=
  (List.range m.frags).filter (fun i => !(bitmap.getD (i / 8) 0).getLsbD (i % 8))

/-- GNOZ_RX_ACK (R454, R455, R457, R462, R464, R469, R482): the message it names completes, sends what is missing, or is
retried; an ACK that matches none is counted. -/
def State.rxAck (s : State) (device msgId : Nat) : State :=
  match s.inMsg device msgId 0xC with
  | none => s
  | some a =>
    let s := s.dropIn a
    let ece := a.hdr.flags.testBit 2
    let s := if ece then s.gnzBump 10 else s
    let id := a.hdr.immediate % 2 ^ 48
    let st : Status := BitVec.ofNat 16 (a.hdr.immediate / 2 ^ 48)
    match s.gnoz.out.findIdx? (fun o => o.minted && !o.ended && o.hdr.msgId == id && o.hdr.device == device) with
    | none => s.gnzBump 9
    | some i =>
      match s.gnoz.out[i]? with
      | none => s
      | some m =>
        let rtt := (s.gnozTime + 2 ^ 32 - a.hdr.remoteAddr % 2 ^ 32) % 2 ^ 32
        let s := match s.route m.hdr.route with
          | some r => ((m.flight.map (fun (f : Nat × Nat) => f.2)).eraseDups).foldl (fun (s : State) (p : Nat) => s.congest r p ece rtt (m.flightOn p)) s
          | none => s
        if a.hdr.flags.testBit 3 then
          let s := m.flight.foldl (fun s (f : Nat × Nat) => s.subFlight m.hdr.route f.2 (m.fragLen f.1)) s
          if m.attempt ≥ 255 then s.giveUp m
          else (s.setOut i { m with
            attempt := m.attempt + 1, flight := [], resend := missing m a.payload, probe := false, rtoAt := s.now + m.rto }).pump
        else if st = 0x0C01 then
          let m := { m with busy := true }
          let s := s.setOut i m
          if m.attempt ≥ 255 ∨ s.now ≥ m.bornAt + 400000000 then s.giveUp m else s.retransmit i m
        else if st = 0x0C06 ∧ m.hdr.kind = 2 then s.setOut i { m with refused := st, busy := false }
        else if st = 0 ∧ (m.hdr.kind = 3 ∨ m.hdr.kind = 7) then
          let s := m.flight.foldl (fun s (f : Nat × Nat) => s.subFlight m.hdr.route f.2 (m.fragLen f.1)) s
          (s.setOut i { m with flight := [], resend := [], acked := true }).pump
        else s.messageEnd m st (if st = 0x0C04 then (if m.attempt = 0 then 1 else 2) else 0) (a.hdr.remoteAddr / 2 ^ 32)

def execGnozRxAck (device msgId : Nat) (s : State) : Host.Outcome State Fault Refusal := .next (s.rxAck device msgId)

/-- FORME_RESEND (R480): every forme or event whose message ended with a nonzero status goes again as a new message, while
its stream is open. -/
def State.formeResend (s : State) : State :=
  let keep (m : OutMsg) : Bool := match m.owner with
    | .forme c _ => !m.ended || s.ctxServed c
    | .event c _ _ => !m.ended || s.ctxServed c
    | _ => true
  let again (m : OutMsg) : OutMsg :=
    if m.ended then { hdr := { m.hdr with msgId := 0 }, payload := m.payload, owner := m.owner, shift := m.shift, bornAt := s.now }
    else m
  { s with gnoz := { s.gnoz with out := (s.gnoz.out.filter keep).map again } }.pump

def execFormeResend (s : State) : Host.Outcome State Fault Refusal := .next s.formeResend

/-- GNOZ_HOLDOFF_END (R453): 600 ms after reset release or a GNZ block reset, packets may be sent. -/
def State.holdoffEnd (s : State) : State :=
  if s.ready then { s with gnoz := { s.gnoz with started := true } }.pump else s

def execGnozHoldoffEnd (s : State) : Host.Outcome State Fault Refusal := .next s.holdoffEnd

end Sys2Proof.Machine
end

