-- ==== Sys2Proof/Machine/GnozCfg.lean ====
section
/-! DEFINITION. Tables, keys, queues, clock and ports of the Gnoz transport (R443-R445, R450-R453, R463, R466, R467,
R487-R490). -/

namespace Sys2Proof.Machine

def gnzSel : Nat := gnzBase + 0x80

def State.tableEnd (s : State) (st : Nat) : State := { s with gnoz := { s.gnoz with tableStatus := st } }

/-- The entry that GNZ_TABLE_SEL names: whether it is a key, and its index (R488). -/
def State.tableSel (s : State) : Bool × Nat := (s.regFld gnzSel 16 1 == 1, s.regFld gnzSel 0 16)

/-- The key-table entry of an index, valid or not. -/
def State.keyEntry (s : State) (i : Nat) : Option GnozKey := s.gnoz.keys.find? (fun k => k.index == i)

def State.setKey (s : State) (k : GnozKey) : State :=
  { s with gnoz := { s.gnoz with keys := s.gnoz.keys.filter (fun x => x.index != k.index) ++ [k] } }

def bytesToWords : List Byte → List Word
  | a :: b :: c :: d :: rest => BitVec.ofNat 32 (leNat [a, b, c, d]) :: bytesToWords rest
  | _ => []

/-- A route entry as its 64 bytes (R450). -/
def routeBytes (r : Route) : List Byte :=
  slice (leBytes 4 r.device ++ leBytes 2 r.remoteSlot ++ leBytes 1 r.pathMask ++ leBytes 1 r.flags ++ leBytes 2 r.sportBase ++
    leBytes 2 r.dstPort ++ leBytes 4 r.keyId ++ slice r.address 0 16 ++ (List.range 8).flatMap (fun i => leBytes 1 (r.pathPort.getD i 0)) ++
    leBytes 4 r.targetDelay) 0 64

def parseRoute (i : Nat) (b : List Byte) : Route :=
  { index := i, device := leField b 0 4, remoteSlot := leField b 4 2, pathMask := leField b 6 1, flags := leField b 7 1,
    sportBase := leField b 8 2, dstPort := leField b 0xA 2, keyId := leField b 0xC 4, address := slice b 0x10 16,
    pathPort := (List.range 8).map (fun j => leField b (0x20 + j) 1), targetDelay := leField b 0x28 4 }

/-- A key entry as DATA holds it (R488). -/
def keyBytes (k : GnozKey) : List Byte :=
  let kind := match k.kind with | .bulk => 1 | .run _ => 2 | .nsRange _ => 3 | .member _ => 3
  let ns := match k.kind with | .nsRange n => n | .member n => n | _ => 0
  slice (leBytes 4 ((if k.valid then kind + 4 * bitOf k.write + 8 * bitOf k.read else 0) + k.notify * 65536) ++
    leBytes 8 k.base ++ leBytes 8 k.length ++ leBytes 4 ns ++ leBytes 4 k.gen) 0 64

/-- GNZ_TABLE_READ (R488). -/
def State.tableRead (s : State) : State :=
  let t := s.tableSel
  let b := if t.1 then (match s.keyEntry t.2 with | some k => keyBytes k | none => List.replicate 64 0)
    else (match s.gnoz.routes.find? (fun r => r.index == t.2) with | some r => routeBytes r | none => List.replicate 64 0)
  { s with gnoz := { s.gnoz with tableData := bytesToWords b, tableStatus := 0 } }

def execGnzTableRead (s : State) : Host.Outcome State Fault Refusal := .next s.tableRead

/-- The bytes that DATA holds. -/
def State.tableBytes (s : State) : List Byte := s.gnoz.tableData.flatMap (fun w => leBytes 4 w.toNat)

/-- A transport key is held in the saggar (R451, R566). -/
def State.pairHeld (s : State) (kid : Nat) : Bool := s.trustKept.pairs.any (fun p => p.keyId == kid) && !s.trust.zeroised

/-- A route write (R450, R451, R488, R569). -/
def State.routeWrite (s : State) (i : Nat) (b : List Byte) : State :=
  let r := parseRoute i b
  if s.quoinSet 8 then s.tableEnd 0x0F01
  else if decide (r.device ≥ 2 ^ 24) || r.flag 7 || r.pathMask == 0 || r.pathPort.any (fun p => decide (p ≥ 64)) ||
      leField b 0x2C 20 != 0 then s.tableEnd 0x0101
  else if (!r.flag 2 && s.lc != .provisioned) || (r.flag 2 && !s.pairHeld r.keyId) then
    (s.log 0x0C0D gnzBase i).tableEnd 0x0C0D
  else
    let old := (s.route i).filter (fun x => x.flag 2 && x.keyId != r.keyId)
    { s with gnoz := { s.gnoz with
      routes := (s.gnoz.routes.filter (fun (x : Route) => x.index != i)) ++ [r],
      prevKeys := match old with
        | some x => s.gnoz.prevKeys.filter (fun (y : Nat × Nat × Nat) => y.1 != i) ++ [(i, x.keyId, s.now)]
        | none => s.gnoz.prevKeys,
      paths := s.gnoz.paths.filter (fun (x : PathState) => x.route != i) } }.tableEnd 0

/-- A registration of a key index (R466): 0x0C0B less than 4 coarse ticks after the previous one, else its generation rises
and its range and rights are set. -/
def State.registerKey (s : State) (i : Nat) (kind : KeyKind) (base len : Nat) (write read : Bool) (notify : Nat) :
    Status × State :=
  let old := s.keyEntry i
  let soon := match old with | some k => decide ((s.coarse + 65536 - k.registeredAt) % 65536 < 4) | none => false
  if soon then (0x0C0B, s)
  else
    let gen := match old with | some k => (k.gen + 1) % 256 | none => 1
    (0, s.setKey {
      index := i, valid := true, kind := kind, base := base, length := len, write := write, read := read, notify := notify,
      gen := gen, registeredAt := s.coarse })

/-- A key index is held by a run. -/
def State.runKey (s : State) (i : Nat) : Option Nat :=
  match s.keyEntry i with
  | some k => if k.valid then (match k.kind with | .run slot => some slot | _ => none) else none
  | none => none

/-- A key write (R488): a registration under R466. -/
def State.keyWrite (s : State) (i : Nat) (b : List Byte) : State :=
  let w0 := leField b 0 4
  let base := leField b 4 8
  let len := leField b 0xC 8
  let ns := leField b 0x14 4
  let kind : Option KeyKind := if w0 % 4 = 1 then some .bulk else if w0 % 4 = 3 then some (.nsRange ns) else none
  let fits := if w0 % 4 = 1 then decide (base + len ≤ 2 ^ 41)
    else match s.nsSeen ns with
      | some x => decide (base + (len + 4095) / 4096 ≤ 4 * x.cap)
      | none => false
  match kind with
  | none => s.tableEnd 0x0101
  | some kd =>
    if (s.runKey i).isSome || !fits || decide (w0 / 16 % 4096 ≠ 0) || leField b 0x1C 36 != 0 then s.tableEnd 0x0101
    else
      let r := s.registerKey i kd base len (w0.testBit 2) (w0.testBit 3) (w0 / 65536)
      r.2.tableEnd r.1.toNat

/-- GNZ_TABLE_WRITE (R450, R451, R466, R488). -/
def State.tableWrite (s : State) : State :=
  let t := s.tableSel
  if t.1 then s.keyWrite t.2 s.tableBytes else s.routeWrite t.2 s.tableBytes

def execGnzTableWrite (s : State) : Host.Outcome State Fault Refusal := .next s.tableWrite

/-- GNZ_TABLE_INVALIDATE (R466, R488, R569). -/
def State.tableInvalidate (s : State) : State :=
  let t := s.tableSel
  if t.1 then
    if (s.runKey t.2).isSome then s.tableEnd 0x0101
    else match s.keyEntry t.2 with
      | some k => (if k.valid then s.setKey { k with valid := false, gen := (k.gen + 1) % 256 } else s).tableEnd 0
      | none => s.tableEnd 0
  else if s.quoinSet 8 then s.tableEnd 0x0F01
  else
    { s with gnoz := { s.gnoz with routes := s.gnoz.routes.map (fun (r : Route) =>
        if r.index = t.2 then { r with flags := r.flags / 2 * 2 } else r) } }.tableEnd 0

def execGnzTableInvalidate (s : State) : Host.Outcome State Fault Refusal := .next s.tableInvalidate

/-- A write of GNZ_TABLE_CMD (R488). -/
def State.tableCmd (s : State) (v : Word) : State :=
  match fld v 0 2 with
  | 1 => s.tableRead
  | 2 => s.tableWrite
  | 3 => s.tableInvalidate
  | _ => s.tableEnd 0x0101

/-- KEY_REGISTER (R463, R466): a run's control core registers a range of its own address space. An index that another owner
holds is as busy. -/
def State.keyRegister (s : State) (slot i base len : Nat) (write read : Bool) (notify : Nat) : State :=
  match s.running slot with
  | none => s
  | some _ =>
    if i > 65535 then s.reply (.run slot) 0x0C0B
    else
      let foreign : Bool := match s.keyEntry i with | some k => k.valid && k.kind != KeyKind.run slot | none => false
      if foreign then s.reply (.run slot) 0x0C0B
      else
        let r := s.registerKey i (.run slot) base len write read notify
        let gen := match r.2.keyEntry i with | some k => k.gen | none => 0
        r.2.reply (.run slot) r.1 0 [gen]

def execKeyRegister (slot i base len : Nat) (write read : Bool) (notify : Nat) (s : State) :
    Host.Outcome State Fault Refusal := .next (s.keyRegister slot i base len write read notify)

/-- GNZ_QUEUE_ALLOC (R467): the lowest free queue, at most 64 for a run; else 0x0C0E. -/
def State.queueAlloc (s : State) (slot k wr cq : Nat) : State :=
  match s.running slot with
  | none => s
  | some _ =>
    let mine := (s.gnoz.queues.filter (fun q => q.run == some slot)).length
    let free := (List.range 4096).find? (fun q => q != 0 && !s.gqEnabled q && (s.gq q).run.isNone)
    if decide (k < 4 ∨ k > 16) || decide (wr % 64 ≠ 0) || decide (cq % 64 ≠ 0) then s.reply (.run slot) 0x0101
    else if mine ≥ 64 then s.reply (.run slot) 0x0C0E
    else match free with
      | none => s.reply (.run slot) 0x0C0E
      | some q =>
        let s := s.setGq { q := q, run := some slot }
        let s := s.setReg (gnzQ q 0) (BitVec.ofNat 32 (k + 64))
        let s := (s.setReg64 (gnzQ q 8) wr).setReg64 (gnzQ q 0x10) cq
        (s.setReg (gnzQ q 0x18) 0).reply (.run slot) 0 0 [q]

def execGnzQueueAlloc (slot k wr cq : Nat) (s : State) : Host.Outcome State Fault Refusal :=
  .next (s.queueAlloc slot k wr cq)

/-- GNZ_CLOCK_WRITE (R452, R487): the HI write takes effect with the LO word written before; discarded while the servo is
locked. -/
def State.clockWrite (s : State) (v : Word) : State :=
  if s.gnoz.ptpLocked then s
  else
    let t : Nat := v.toNat * 2 ^ 32 + (s.reg (gnzBase + 0x18)).toNat
    let o : Int := (t : Int) - (s.now : Int)
    { s with gnoz := { s.gnoz with clockOffset := o, timeSet := true } }

def execGnzClockWrite (v : Word) (s : State) : Host.Outcome State Fault Refusal := .next (s.clockWrite v)

/-- PTP_MESSAGE (R443, R445, R452, R506): on the PTP port, while enabled, it goes to the slave servo, whose new offset and
lock are the external standard's; a delay request may follow through SP0. Elsewhere it is counted in RX_DROPPED. -/
def State.ptpMessage (s : State) (f : FrameInfo) (offset : Int) (locked : Bool) (delayReq : Option Nat) : State :=
  let r := s.policeOther f none
  if !r.1 then r.2
  else
    let s := r.2
    if s.regFld (gnzBase + 0x14) 0 1 = 0 ∨ s.regFld (gnzBase + 0x14) 1 6 ≠ f.port then s.gnzBump 12
    else
      let s := { s with gnoz := { s.gnoz with clockOffset := offset, ptpLocked := locked } }
      match delayReq with
      | some wire => s.enqueueSp0 f.port { wire := wire, gnoz := false, send := .ethFrame f.port 3 [] }
      | none => s

def execPtpMessage (f : FrameInfo) (offset : Int) (locked : Bool) (delayReq : Option Nat) (s : State) :
    Host.Outcome State Fault Refusal := .next (s.ptpMessage f offset locked delayReq)

/-- The mode of Ethernet port P, and whether it gives a logical port (R444, R487). -/
def State.ethMode (s : State) (p : Nat) : Nat := s.regFld (gnzBase + 0x10) (2 * p) 2

def State.portExists (s : State) (lp : Nat) : Bool :=
  decide (lp < 64) && (match s.ethMode (lp / 8) with
    | 0 => lp % 8 == 0
    | 1 => lp % 4 == 0
    | 2 => lp % 2 == 0
    | _ => true)

/-- SPEED of a logical port that is up (R490). -/
def State.portSpeed (s : State) (lp : Nat) : Nat := 4 - s.ethMode (lp / 8)

def State.portUp (s : State) (lp : Nat) : Bool := s.gnoz.portsUp.any (fun p => p.1 == lp)

/-- GNZ_ETH_MODE_WRITE (R444): each port whose mode changes retrains, so its logical ports go down. -/
def State.ethModeWrite (s : State) (v : Word) : State :=
  let old := s
  let s := s.setBits (gnzBase + 0x10) 0 16 (fld v 0 16)
  { s with gnoz := { s.gnoz with
    portsUp := s.gnoz.portsUp.filter (fun (p : Nat × Nat) => old.ethMode (p.1 / 8) == s.ethMode (p.1 / 8)) } }

def execGnzEthModeWrite (v : Word) (s : State) : Host.Outcome State Fault Refusal := .next (s.ethModeWrite v)

/-- ETH_PORT_LINK_CHANGE (R444, R490): a logical port that its Ethernet port's mode gives goes up or down. -/
def State.ethLinkChange (s : State) (lp : Nat) (up : Bool) : State :=
  if !s.portExists lp || s.netFenced then s
  else
    let rest := s.gnoz.portsUp.filter (fun (p : Nat × Nat) => p.1 != lp)
    { s with gnoz := { s.gnoz with portsUp := if up then rest ++ [(lp, s.portSpeed lp)] else rest } }.pump

def execEthPortLinkChange (lp : Nat) (up : Bool) (s : State) : Host.Outcome State Fault Refusal :=
  .next (s.ethLinkChange lp up)

/-- A logical port's registers (R490). -/
def gnzPort (lp w : Nat) : Nat := gnzBase + 0x8000 + lp * 0x40 + w

/-- A logical port's own addresses, in network order. -/
def State.portAddrs (s : State) (lp : Nat) : List (List Byte) :=
  [beBytes 4 (s.reg (gnzPort lp 0x10)).toNat,
   (List.range 4).flatMap (fun i => beBytes 4 (s.reg (gnzPort lp (0x14 + 4 * i))).toNat)]

/-- ARP_NEIGHBOUR_RX (R443, R506): a solicitation for the port's own address is answered through SP0. -/
def State.arpNeighbour (s : State) (f : FrameInfo) (addr : List Byte) : State :=
  let r := s.policeOther f none
  if !r.1 then r.2
  else if (r.2.portAddrs f.port).contains addr && addr.any (· != 0) then
    r.2.enqueueSp0 f.port { wire := if addr.length = 4 then 84 else 106, gnoz := false, send := .ethFrame f.port 1 addr }
  else r.2

def execArpNeighbourRx (f : FrameInfo) (addr : List Byte) (s : State) : Host.Outcome State Fault Refusal :=
  .next (s.arpNeighbour f addr)

/-- ICMP_ECHO_RX (R443, R506): an echo request is answered with its payload through SP0. -/
def State.icmpEcho (s : State) (f : FrameInfo) (payload : List Byte) : State :=
  let r := s.policeOther f none
  if !r.1 then r.2
  else r.2.enqueueSp0 f.port { wire := f.wire, gnoz := false, send := .ethFrame f.port 2 payload }

def execIcmpEchoRx (f : FrameInfo) (payload : List Byte) (s : State) : Host.Outcome State Fault Refusal :=
  .next (s.icmpEcho f payload)

/-- A UDP_PORT that GNZ_CFG may not have (R487). -/
def State.udpPortBad (s : State) (p : Nat) : Bool :=
  p == 0 || p == 319 || p == 320 || (List.range 64).any (fun c => s.liveEnabled c && s.regFld (liveReg c 4) 0 16 == p)

/-- GNZ_CFG_WRITE (R10, R487): GNZ_CFG, or GNZ_TIMING when `timing`; a forbidden value changes nothing and is recorded. -/
def State.gnzCfgWrite (s : State) (timing : Bool) (v : Word) : State :=
  if timing then
    if fld v 0 10 < 10 ∨ fld v 0 10 > 1000 then s.log 0x0101 gnzBase (gnzBase + 0xC) v.toNat
    else s.plainWrite (gnzBase + 0xC) v
  else if !s.quoinSet 6 && s.udpPortBad (fld v 0 16) then s.log 0x0101 gnzBase gnzCfg v.toNat
  else (s.plainWrite gnzCfg v).pump

def execGnzCfgWrite (timing : Bool) (v : Word) (s : State) : Host.Outcome State Fault Refusal :=
  .next (s.gnzCfgWrite timing v)

/-- The GNZ words that show state held elsewhere (R487-R490). -/
def viewGnz (s : State) (off : Nat) : Option Word :=
  let w (n : Nat) : Option Word := some (BitVec.ofNat 32 n)
  if off < gnzBase then none
  else
    let o := off - gnzBase
    if o = 0 then some (packFields [(0, 4096), (16, 4096)])
    else if o = 0x14 then w ((s.reg off).toNat % 128 + 128 * bitOf s.gnoz.ptpLocked)
    else if o = 0x18 then w s.gnozTime
    else if o = 0x1C then w (s.gnozTime / 2 ^ 32)
    else if o = 0x84 then some 0
    else if o = 0x88 then w s.gnoz.tableStatus
    else if 0xC0 ≤ o ∧ o < 0x100 then some (s.gnoz.tableData.getD ((o - 0xC0) / 4) 0)
    else if 0x8000 ≤ o ∧ o < 0x9000 ∧ o % 0x40 = 0x24 then
      let lp := (o - 0x8000) / 0x40
      some (if s.portUp lp then packFields [(0, 1), (1, s.portSpeed lp)] else 0)
    else if 0x10000 ≤ o ∧ o < 0x50000 then
      let q := (o - 0x10000) / 0x40
      let g := s.gq q
      match o % 0x40 with
      | 0x04 => some (match g.run with
          | some r => packFields [(0, 1), (1, r), (7, bitOf g.waiting), (8, g.armed.length)]
          | none => packFields [(7, bitOf g.waiting), (8, g.armed.length)])
      | 0x1C => w g.head
      | 0x20 => w g.count
      | 0x24 => w g.lastStatus
      | _ => none
    else none

/-- A write of a Gnoz queue's registers (R489). -/
def State.gqWriteReg (s : State) (q w : Nat) (v : Word) : State :=
  if (s.gq q).run.isSome then s
  else if w = 0x18 then s.gqDoorbell q v
  else if s.gqEnabled q then
    if w = 0 ∧ !v.getLsbD 6 then
      let s := s.setBits (gnzQ q 0) 6 1 0
      { s with gnoz := { s.gnoz with queues := s.gnoz.queues.filter (fun x => x.q != q) } }
    else s
  else
    let s := s.plainWrite (gnzQ q w) v
    if w = 0 then { s with gnoz := { s.gnoz with queues := s.gnoz.queues.filter (fun x => x.q != q) } } else s

/-- Bus writes of the GNZ block that are no plain register writes. -/
def writeGnz (s : State) (off : Nat) (v : Word) : Option State :=
  if off < gnzBase ∨ off ≥ gnzBase + 0x100000 then none
  else
    let o := off - gnzBase
    if o = 4 then some (s.gnzCfgWrite false v)
    else if o = 0xC then some (s.gnzCfgWrite true v)
    else if o = 0x10 then some (s.ethModeWrite v)
    else if o = 0x18 then some (if s.gnoz.ptpLocked then s else s.plainWrite off v)
    else if o = 0x1C then some (s.clockWrite v)
    else if o = 0x84 then some (s.tableCmd v)
    else if 0xC0 ≤ o ∧ o < 0x100 then
      some { s with gnoz := { s.gnoz with tableData := modAt s.gnoz.tableData ((o - 0xC0) / 4) (fun _ => v) } }
    else if 0x8000 ≤ o ∧ o < 0x9000 then
      some (if s.portExists ((o - 0x8000) / 0x40) then s.plainWrite off v else s)
    else if 0x10000 ≤ o ∧ o < 0x50000 then some (s.gqWriteReg ((o - 0x10000) / 0x40) (o % 0x40) v)
    else none

end Sys2Proof.Machine
end

