-- ==== Sys2Proof/Machine/Group.lean ====
section
/-! DEFINITION. The commands of stripe groups and spares (R521-R549). -/

namespace Sys2Proof.Machine

def State.setGroup (s : State) (g : Group) : State := { s with group := g }

/-- The device takes part in a group: ENABLE is set, it holds an entry, and its net die is in use (R44, R527, R548). -/
def State.groupOn (s : State) : Bool := s.regFld grpBase 0 1 == 1 && decide (s.group.self ≤ 64) && !s.netFenced

/-- The device takes part and has joined (R523). -/
def State.groupJoined (s : State) : Bool := s.groupOn && decide (s.group.state ≠ 0 ∧ s.group.state ≠ 5)

/-- The positions in some state. -/
def State.positionsIn (s : State) (st : Nat) : List Nat := (List.range s.groupG).filter (fun n => decide (s.entryState n = st))

/-- The own entry: the one that names this device, or 127 (R548). -/
def State.ownEntry (s : State) : Nat :=
  ((List.range 65).find? (fun n => decide (s.entryState n ≠ 0 ∧ s.entryDevice n = s.deviceId))).getD 127

/-- GRP_STATE.STATE of a device that has joined (R526, R527, R535). -/
def State.showGroup (s : State) : State :=
  let st := if s.group.self > 64 then 5
    else if s.group.state = 4 ∧ s.group.holding then 4
    else if !(s.positionsIn 3).isEmpty then 3
    else if !(s.positionsIn 2).isEmpty then 2
    else 1
  s.setGroup { s.group with state := st }

/-- The group table as it stands (R525). -/
def State.groupTable (s : State) : GroupRecord :=
  { gen := s.group.gen, groupId := (s.reg (grpBase + 4)).toNat, members := s.groupG,
    devices := (List.range 65).map s.entryDevice,
    routes := (List.range 65).map (fun n => s.regFld (grpBase + 0x104 + 8 * n) 0 16),
    states := s.group.states, spaces := s.group.namespaces }

/-- Sets an entry. -/
def State.setEntry (s : State) (n device route st : Nat) : State :=
  let s := s.setReg (grpBase + 0x100 + 8 * n) (BitVec.ofNat 32 (device % 2 ^ 24))
  let s := s.setReg (grpBase + 0x104 + 8 * n) (BitVec.ofNat 32 (route % 65536))
  s.setGroup { s.group with states := modAt s.group.states n (fun _ => st) }

/-- Every device writes the table to its group record (R525). -/
def State.keepTable (s : State) : State := { s with groupRecord := some s.groupTable }

/-- A message from an earlier generation (R522). -/
def State.groupStale (s : State) (gen : Nat) : Bool := seqEarlier 32 gen s.group.gen

/-- The route to an entry's device carries PERMIT_CONTROL (R522). -/
def State.entryPermits (s : State) (n : Nat) : Bool :=
  match s.route (s.regFld (grpBase + 0x104 + 8 * n) 0 16) with
  | some r => r.flag 4
  | none => false

/-- Why a group message is refused (R481, R522): its route lacks PERMIT_CONTROL, or it is from an earlier generation. -/
def State.groupBar (s : State) (n gen : Nat) : Option Nat :=
  if !s.entryPermits n then some 0x0C08 else if s.groupStale gen then some 0x0E03 else none

/-- A refused message has no other effect (R522). -/
def State.groupRefuse (s : State) (n st : Nat) : State := s.groupSend 9 n [st]

/-- The digest of a group's settings (R340, R523): over GROUP_ID and G, and the 65 entries as software writes them. -/
def State.groupDigest (s : State) : Nat :=
  digest8 (leBytes 4 (s.reg (grpBase + 4)).toNat ++ leBytes 4 s.groupG ++
    (List.range 65).flatMap (fun n => leBytes 4 (s.entryDevice n) ++ leBytes 4 (s.regFld (grpBase + 0x104 + 8 * n) 0 16)))

/-- Other devices heard from within 40 ms (R526). -/
def State.heardNow (s : State) : Nat :=
  (s.group.heard.filter (fun h => decide (h.1 ≠ s.group.self ∧ s.now < h.2 + 40000000))).length

/-- The steward (R525): the lowest-numbered ACTIVE position that q devices do not suspect. -/
def State.steward (s : State) : Option Nat :=
  (s.positionsIn 1).find? (fun n => decide ((s.group.suspects.filter (fun x => decide (x.2 = n))).length < s.quorum))

/-- A re-homed stream at its new primary (R543, R544): with the mirrored pushes and halt state, or, without a mirror, with
every epoch complete. It waits for the consumer's CREDIT, and its stage runs start afresh then. -/
def State.takeStream (s : State) (e : GroupStream) (m : Option Mirror) : State :=
  match s.openChecks e.params.bytes with
  | .error _ => s
  | .ok o =>
    let c := s.freeCtx
    let x := s.planCtx o []
    let x := { x with endedRuns := o.graph.stageRuns.map (fun d => (d, 0x090E)) }
    let x := match m with
      | some m => { x with
          pushes := m.pushes, completeEpoch := m.completeEpoch, halted := m.halted, ack := m.ack, limit := m.limit,
          next := m.ack }
      | none => { x with completeEpoch := some o.params.lastEpoch }
    let ns := o.params.witnessNsid
    let s := if o.params.witness && !s.streamWitness ns then s.setWitnessEnd ns (s.witnessLog ns).2.1 else s
    let s := s.takeCtx c x
    let s := s.setGroup { s.group with rehoming := s.group.rehoming ++ [c] }
    (s.bump (grpBase + 0x34) (grpBase + 0x3C) 1).sendStreamEvent c x 0x0E0C x.ack

def State.setStreamEntry (s : State) (e : GroupStream) : State :=
  s.setGroup { s.group with streams := s.group.streams.map (fun (y : GroupStream) =>
    if y.params.streamId = e.params.streamId then e else y) }

/-- What the failure of the device at position n does to one group stream (R541, R543): a new primary, or a new partner,
to which this device, as primary, sends a full mirror. -/
def State.rehome (s : State) (n : Nat) (e : GroupStream) : State :=
  if e.primary = n then
    let keeps := decide (e.partner ≠ n) && (s.entryState e.partner == 1 || s.entryState e.partner == 2)
    match (if keeps then some e.partner else s.partnerOf e.partner) with
    | none => s
    | some p =>
      let e' := { e with primary := p, partner := (s.partnerOf p).getD 127 }
      let s := s.setStreamEntry e'
      if p = s.group.self then
        let m := if keeps then s.group.mirrors.find? (fun (m : Mirror) => m.streamId == e.params.streamId) else none
        (s.takeStream e' m).groupSend 6 e'.partner [e.params.streamId]
      else s
  else if e.partner = n then
    let e' := { e with partner := (s.partnerOf e.primary).getD 127 }
    let s := s.setStreamEntry e'
    if e.primary = s.group.self then s.groupSend 6 e'.partner [e.params.streamId] else s
  else s

/-- From which stripe on a position's shares of namespace number i are out of reach: a FAILED position's all, a REBUILDING
one's beyond its progress. -/
def State.downFrom (s : State) (i x : Nat) : Option Nat :=
  if s.entryState x = 3 then some 0
  else if s.entryState x = 2 then
    match s.group.rebuilds.find? (fun (r : Rebuild) => decide (r.pos = x)) with
    | some r => if r.nsIndex > i then none else if r.nsIndex = i then some r.next else some 0
    | none => some 0
  else none

def insertSorted (x : Nat) : List Nat → List Nat
  | [] => [x]
  | y :: ys => if x ≤ y then x :: y :: ys else y :: insertSorted x ys

/-- Lost stripes of residue r of namespace number i (R546): those from the third of its positions' marks on. -/
def State.lostFrom (s : State) (i r : Nat) : Option Nat :=
  let marks := ((List.range s.groupW).map (fun j => s.sharePos r j)).filterMap (s.downFrom i)
  (marks.foldl (fun a x => insertSorted x a) [])[2]?

/-- Stripes lost by a commit join the namespaces' lists; 0x0E06 is recorded once, and GRP_LOST_MASK takes their bits
(R546). -/
def State.loseStripes (s : State) : State :=
  let upd (i : Nat) (g : GroupNs) : GroupNs × List Nat :=
    let new := (List.range s.groupG).filterMap (fun r => match s.lostFrom i r with
      | some m =>
        let from_ := m + (s.groupG + r - m % s.groupG) % s.groupG
        if from_ < g.stripes ∧ !(g.lost.any (fun l => decide (l.1 = r ∧ l.2 ≤ from_))) then some (r, from_) else none
      | none => none)
    ({ g with lost := g.lost ++ new }, new.map (·.1))
  let r := (List.range s.group.namespaces.length).zip s.group.namespaces |>.map (fun x => upd x.1 x.2)
  let bits := r.flatMap (·.2)
  if bits.isEmpty then s
  else
    let mask := bits.foldl (fun m b => setBit m (b % 64) true) s.group.lostMask
    (s.setGroup { s.group with namespaces := r.map (·.1), lostMask := mask }).log 0x0E06 grpBase

/-- The lowest FAILED position gets the spare, REBUILDING; entry 64 becomes EMPTY (R535). -/
def State.bringIn (s : State) (n : Nat) : State :=
  let d := s.entryDevice 64
  let r := s.regFld (grpBase + 0x104 + 8 * 64) 0 16
  let s := (s.setEntry n d r 2).setEntry 64 0 0 0
  let s := s.setGroup { s.group with rebuilds := s.group.rebuilds ++ [{ pos := n }] }
  s.setGroup { s.group with self := if s.group.self = 64 then n else s.group.self }

/-- The table's change at a commit (R525, R528, R535, R536, R538), with its error-log records. -/
def State.changeTable (s : State) (ch : GroupChange) : State :=
  match ch with
  | .failed n =>
    let s := s.log 0x0E04 grpBase n (s.entryDevice n)
    let s := s.setGroup { s.group with
      suspects := s.group.suspects.filter (fun x => decide (x.1 ≠ n ∧ x.2 ≠ n)),
      heard := s.group.heard.filter (fun x => decide (x.1 ≠ n)),
      rebuilds := s.group.rebuilds.filter (fun (r : Rebuild) => decide (r.pos ≠ n)),
      states := modAt s.group.states n (fun _ => 3) }
    if n = 64 then s
    else if s.entryState 64 = 1 then s.bringIn n
    else s.log 0x0E05 grpBase n
  | .spare d r =>
    let s := s.setEntry 64 d r 1
    let s := s.setGroup { s.group with spareStatus := 0 }
    match s.positionsIn 3 with
    | n :: _ => s.bringIn n
    | [] => s
  | .active n =>
    let s := s.setGroup { s.group with
      states := modAt s.group.states n (fun _ => 1),
      rebuilds := s.group.rebuilds.filter (fun (r : Rebuild) => decide (r.pos ≠ n)) }
    s.log 0x0E0D grpBase n

/-- A request of the writer's path has ended for one of its stripes (R533, R534): when none is left, the writer is answered. -/
def State.stripeEnded (s : State) (w : StripeWrite) (st : Status) : State :=
  let left := s.group.writes.filter (fun (y : StripeWrite) => y.write != w.write)
  let bad := w.failed || st != 0
  let s := s.setGroup { s.group with
    writes := left.map (fun (y : StripeWrite) => if y.path = w.path then { y with failed := y.failed || bad } else y) }
  let s := if st = 0x0E0B then s.bump (grpBase + 0x38) (grpBase + 0x3C) 2 else s
  if left.any (fun (y : StripeWrite) => y.path == w.path) then s else s.reply w.path (if bad then 0x0E0B else 0)

/-- A stripe write is committed (R533 step 3): its shares elsewhere are new, this device's own prepared share has its
decision, and a coordinator sends COMMIT. -/
def State.stripeCommitted (s : State) (w : StripeWrite) : State :=
  let far := w.shares.filter (fun x => decide (s.sharePos w.stripe x.1 ≠ s.group.self))
  let mem := far.foldl (fun m x => memWrite m (shareKey w.nsid w.stripe x.1) x.2) s.group.remoteShares
  let s := s.setGroup { s.group with
    remoteShares := mem,
    prepared := s.group.prepared.map (fun (p : Prepared) => if p.write = w.write then { p with decided := true } else p) }
  let s := if w.phase = .forwarded then s
    else far.foldl (fun s x => s.groupSend 5 (s.sharePos w.stripe x.1) [w.write]) s
  s.stripeEnded w 0

/-- The position of a stripe's Q. -/
def State.qHolder (s : State) (stripe : Nat) : Nat := s.sharePos stripe (s.groupW - 1)

def State.aliveAt (s : State) (n : Nat) : Bool := s.entryState n == 1 || s.entryState n == 2

/-- A coordinator's next step once nothing is awaited (R533): the decision is journaled and goes to the Q holder; when the Q
holder has it, or this device is it, the write is committed. -/
def State.advanceWrite (s : State) (w : StripeWrite) : State :=
  if !w.waiting.isEmpty then s
  else match w.phase with
    | .forwarded => s
    | .deciding => s.stripeCommitted w
    | .preparing =>
      let s := s.setGroup { s.group with decisions := s.group.decisions ++ [w.write] }
      let q := s.qHolder w.stripe
      if q = s.group.self ∨ !s.aliveAt q then s.stripeCommitted w
      else
        let w' := { w with phase := .deciding, waiting := [q] }
        (s.setGroup { s.group with writes := s.group.writes.map (fun (y : StripeWrite) =>
          if y.write = w.write then w' else y) }).groupSend 12 q [w.write]

/-- A position's acknowledgement of a stripe write, or its failure, is no longer awaited. -/
def State.writeHeard (s : State) (id n : Nat) (ph : Option StripePhase) : State :=
  match s.group.writes.find? (fun (w : StripeWrite) => w.write == id) with
  | none => s
  | some w =>
    if (match ph with | some p => w.phase != p | none => w.phase == .forwarded) || !w.waiting.contains n then s
    else
      let w' := { w with waiting := w.waiting.filter (· != n) }
      (s.setGroup { s.group with writes := s.group.writes.map (fun (y : StripeWrite) =>
        if y.write = id then w' else y) }).advanceWrite w'

/-- MEMBERSHIP_COMMIT (R525): the generation rises, the table changes and goes to the group record, and what follows for
stripes, writes and streams happens (R535, R538, R543, R546). -/
def State.commitGroup (s : State) (ch : GroupChange) : State :=
  let s := s.setGroup { s.group with gen := (s.group.gen + 1) % 2 ^ 32, proposal := none }
  let s := s.changeTable ch
  let s : State := match ch with
    | .failed n =>
      let s := s.loseStripes
      let s := s.group.writes.foldl (fun s (w : StripeWrite) => s.writeHeard w.write n none) s
      s.group.streams.foldl (fun s e => s.rehome n e) s
    | _ => s
  let s := s.keepTable
  if s.group.state = 0 ∨ s.group.state = 5 then s else s.showGroup

/-- A proposal of this device (R525, R528, R536). -/
def State.propose (s : State) (ch : GroupChange) : State :=
  let g := (s.group.gen + 1) % 2 ^ 32
  let t : Option GroupRecord := match ch with | .spare _ _ => some s.groupTable | _ => none
  let s := s.setGroup { s.group with proposal := some { gen := g, change := ch, acks := [s.group.self], table := t } }
  match ch with
  | .failed n => s.groupCast 2 [g, 0, n]
  | .spare d r => (s.groupCast 2 [g, 1, d, r]).emit (.groupMsg 2 d [g, 1, d, r])
  | .active n => s.groupCast 2 [g, 2, n]

/-- The steward proposes an entry's failure once q devices, itself included, report that they suspect it (R525). -/
def State.tryFail (s : State) (n : Nat) : State :=
  let reports := s.group.suspects.filter (fun x => decide (x.2 = n))
  if decide (reports.length ≥ s.quorum) && reports.contains (s.group.self, n) && s.steward == some s.group.self &&
      !s.group.holding && s.group.proposal.isNone then s.propose (.failed n)
  else s

/-- An acknowledgement of the proposal; with q of them it commits (R525). -/
def State.ackProposal (s : State) (g n : Nat) : State :=
  match s.group.proposal with
  | none => s
  | some p =>
    if p.gen ≠ g then s
    else
      let acks := if p.acks.contains n then p.acks else p.acks ++ [n]
      let s := s.setGroup { s.group with proposal := some { p with acks := acks } }
      if acks.length ≥ s.quorum then s.commitGroup p.change else s

/-- HEARTBEAT_SEND (R44, R525): to every other device of the group. -/
def State.heartbeatSend (s : State) : State := if s.groupOn then s.groupCast 0 [s.groupDigest] else s

def execHeartbeatSend (s : State) : Host.Outcome State Fault Refusal := .next s.heartbeatSend

/-- A namespace that the table names and this device does not hold yet is made (R528, R529). -/
def State.adoptSpace (s : State) (g : GroupNs) : State :=
  let s := if s.memberNs g.nsid then s
    else s.setGroup { s.group with namespaces := s.group.namespaces ++ [g] }
  if (s.nsInfo g.nsid).isSome then s
  else
    let s := s.nsMake .register g.nsid (g.stripes * s.groupW / s.groupG)
    if g.isSealed then s.nsFeature .register (.nsSeal g.nsid) none else s

/-- Takes a table (R525, R527, R528): its settings, generation and entries, and its namespaces. -/
def State.adoptTable (s : State) (t : GroupRecord) : State :=
  let s := (s.setBits grpBase 1 7 t.members).setReg (grpBase + 4) (BitVec.ofNat 32 t.groupId)
  let s := (List.range 65).foldl (fun s n => s.setEntry n (t.devices.getD n 0) (t.routes.getD n 0) (t.states.getD n 0)) s
  let s := s.setGroup { s.group with
    gen := t.gen, proposal := none,
    rebuilds := ((List.range t.members).filter (fun n => t.states.getD n 0 == 2)).map (fun n =>
      (s.group.rebuilds.find? (fun (r : Rebuild) => r.pos == n)).getD { pos := n }) }
  let s := s.setGroup { s.group with self := s.ownEntry }
  (t.spaces.foldl (fun s g => s.adoptSpace g) s).keepTable

/-- A later generation at the sender (R522, R525, R526): the stored proposal of that generation is committed, or the table
that came is taken; a device that holds no entry of it is expelled. -/
def State.catchUp (s : State) (gen : Nat) (t : Option GroupRecord) : State :=
  match s.group.proposal with
  | some p =>
    if p.gen = gen then s.commitGroup p.change
    else match t with | some t => (s.adoptTable t).showGroup | none => s
  | none => match t with | some t => (s.adoptTable t).showGroup | none => s

/-- A heartbeat's digest (R523): with that of a quorum this device joins; against that of a quorum it records 0x0E08 once
and stays DISABLED. -/
def State.noteDigest (s : State) (n : Nat) (same : Bool) : State :=
  let add (l : List Nat) : List Nat := if l.contains n then l else l ++ [n]
  let drop (l : List Nat) : List Nat := l.filter (· != n)
  let s := s.setGroup { s.group with
    digestSame := if same then add s.group.digestSame else drop s.group.digestSame,
    digestOther := if same then drop s.group.digestOther else add s.group.digestOther }
  if s.group.state ≠ 0 then s
  else if s.group.digestSame.length + 1 ≥ s.quorum then s.showGroup
  else if s.group.digestOther.length ≥ s.quorum ∧ !s.group.badLogged then
    (s.log 0x0E08 grpBase n).setGroup { (s.log 0x0E08 grpBase n).group with badLogged := true }
  else s

/-- A named spare that is not enabled yet: the proposal that adds it has been committed, so it takes the table and enables
itself (R528). -/
def State.spareEnables (s : State) (gen : Nat) : State :=
  match s.group.proposal with
  | some p =>
    match p.change, p.table with
    | .spare d r, some t =>
      if decide (d = s.deviceId ∧ p.gen = gen) && s.regFld grpBase 0 1 == 0 && s.groupRecord.isNone then
        let s := s.setBits grpBase 0 1 1
        let s := s.adoptTable { t with
          gen := gen, devices := modAt t.devices 64 (fun _ => d), routes := modAt t.routes 64 (fun _ => r),
          states := modAt t.states 64 (fun _ => 1) }
        let s := match s.positionsIn 3 with | n :: _ => s.bringIn n | [] => s
        (s.setGroup { s.group with self := s.ownEntry }).keepTable.showGroup
      else s
    | _, _ => s
  | none => s

/-- HEARTBEAT_RECEIVE (R522, R523, R525, R526): the sender is heard, its digest and generation are checked, and quorum may
return. -/
def State.heartbeatReceive (s : State) (n gen digest : Nat) (t : Option GroupRecord) : State :=
  if !s.groupOn then (if s.netFenced then s else s.spareEnables gen)
  else if n = s.group.self ∨ n > 64 then s
  else if s.groupBar n gen ≠ none then s.groupRefuse n ((s.groupBar n gen).getD 0)
  else
    let s := s.setGroup { s.group with
      heard := (s.group.heard.filter (fun h => decide (h.1 ≠ n))) ++ [(n, s.now)],
      suspects := s.group.suspects.filter (fun x => x != (s.group.self, n)) }
    let s := s.noteDigest n (digest == s.groupDigest)
    let s := if gen ≠ s.group.gen then s.catchUp gen t else s
    if s.group.holding && decide (s.heardNow + 1 ≥ s.quorum) then
      let s := s.setGroup { s.group with holding := false }
      if s.group.state = 4 ∧ gen = s.group.gen then s.showGroup else s
    else s

def execHeartbeatReceive (entry gen digest : Nat) (table : Option GroupRecord) (s : State) :
    Host.Outcome State Fault Refusal := .next (s.heartbeatReceive entry gen digest table)

/-- An entry is suspected by another or by this device. -/
def State.addSuspect (s : State) (by_ n : Nat) : State :=
  let s := if s.group.suspects.contains (by_, n) then s
    else s.setGroup { s.group with suspects := s.group.suspects ++ [(by_, n)] }
  s.tryFail n

/-- PEER_SUSPECT (R525): no heartbeat from an entry's device for 50 ms. -/
def State.peerSuspect (s : State) (n : Nat) : State :=
  if s.groupJoined && decide (n ≠ s.group.self) && s.aliveAt n then
    let s := s.advance (((s.group.heard.find? (fun h => h.1 == n)).map (·.2)).elim 0 (· + 50000000))
    (s.groupCast 1 [n]).addSuspect s.group.self n
  else s

def execPeerSuspect (entry : Nat) (s : State) : Host.Outcome State Fault Refusal := .next (s.peerSuspect entry)

/-- PROPOSAL_RX (R522, R525, R528): a proposal of the present generation is kept and acknowledged to every device; the
device named as spare answers only with ENABLE = 0 and an empty group record. -/
def State.proposalRx (s : State) (n gen : Nat) (ch : GroupChange) (t : Option GroupRecord) : State :=
  let p : Proposal := { gen := (gen + 1) % 2 ^ 32, change := ch, acks := [n], table := t }
  if s.netFenced then s
  else if s.regFld grpBase 0 1 = 0 then
    match ch with
    | .spare d _ => if decide (d = s.deviceId) && s.groupRecord.isNone then s.setGroup { s.group with proposal := some p } else s
    | _ => s
  else if !s.groupJoined then s
  else if s.groupBar n gen ≠ none then s.groupRefuse n ((s.groupBar n gen).getD 0)
  else if gen ≠ s.group.gen then s
  else
    let s := s.setGroup { s.group with proposal := some p }
    (s.groupCast 3 [p.gen]).ackProposal p.gen s.group.self

def execProposalRx (entry gen : Nat) (change : GroupChange) (table : Option GroupRecord) (s : State) :
    Host.Outcome State Fault Refusal := .next (s.proposalRx entry gen change table)

/-- A stream-table entry is stored, or removed (R540). -/
def State.storeStream (s : State) (e : GroupStream) (removal : Bool) : State :=
  let rest := s.group.streams.filter (fun (y : GroupStream) => y.params.streamId != e.params.streamId)
  let mirrors := if removal then s.group.mirrors.filter (fun (m : Mirror) => m.streamId != e.params.streamId) else s.group.mirrors
  s.setGroup { s.group with streams := if removal then rest else rest ++ [e], mirrors := mirrors }

/-- A device has stored a stream-table entry: with a quorum, the Stream Open or Close completes (R540). -/
def State.tableStored (s : State) (id n : Nat) : State :=
  match s.group.tableWaits.find? (fun w => w.2.1.params.streamId == id) with
  | none => s
  | some w =>
    let by_ := if w.2.2.2.2.contains n then w.2.2.2.2 else w.2.2.2.2 ++ [n]
    let rest := s.group.tableWaits.erase w
    if by_.length ≥ s.quorum then
      ((s.setGroup { s.group with tableWaits := rest }).storeStream w.2.1 w.2.2.1).reply w.1 0 0 w.2.2.2.1
    else s.setGroup { s.group with tableWaits := rest ++ [(w.1, w.2.1, w.2.2.1, w.2.2.2.1, by_)] }

/-- The partner has acknowledged a mirror: the stream's oldest push that waits is accepted (R541). -/
def State.mirrorStored (s : State) (id : Nat) : State :=
  match s.ctxByStream id with
  | none => s
  | some (c, _) =>
    match s.group.pushWaits.find? (fun w => w.2.1 == c) with
    | none => s
    | some w => (s.setGroup { s.group with pushWaits := s.group.pushWaits.erase w }).storePush w.1 c w.2.2.1 w.2.2.2

/-- An entry has applied a namespace request, or refused it; the request commits when every ACTIVE member has applied it
(R529). -/
def State.nsApplied (s : State) (nsid n : Nat) (st : Status) : State :=
  match s.group.nsRequest with
  | none => s
  | some r =>
    if r.nsid ≠ nsid then s
    else if st ≠ 0 then s.setGroup { s.group with nsStatus := st.toNat, nsRequest := none }
    else
      let acks := if r.acks.contains n then r.acks else r.acks ++ [n]
      let all := (List.range 65).all (fun x => s.entryState x != 1 || acks.contains x)
      if all then s.setGroup { s.group with nsStatus := 0, nsRequest := none }
      else s.setGroup { s.group with nsRequest := some { r with acks := acks } }

/-- A forwarded stripe write has ended at its coordinator (R533, R534). -/
def State.writeEnded (s : State) (id : Nat) (st : Status) : State :=
  match s.group.writes.find? (fun (w : StripeWrite) => w.write == id && w.phase == .forwarded) with
  | none => s
  | some w => if st = 0 then s.stripeCommitted w else s.stripeEnded w 0x0E0B

/-- VOTE_RX (R522, R525, R529, R533, R540, R541). -/
def State.voteRx (s : State) (n gen : Nat) (v : GroupVote) : State :=
  if !s.groupJoined then s
  else if s.groupBar n gen ≠ none then s.groupRefuse n ((s.groupBar n gen).getD 0)
  else match v with
    | .suspect x => s.addSuspect n x
    | .ack g => s.ackProposal g n
    | .tableStored id => s.tableStored id n
    | .mirrorStored id => s.mirrorStored id
    | .prepared w => s.writeHeard w n (some .preparing)
    | .decided w => s.writeHeard w n (some .deciding)
    | .nsApplied nsid st => s.nsApplied nsid n st
    | .writeEnded w st => s.writeEnded w st

def execVoteRx (entry gen : Nat) (vote : GroupVote) (s : State) : Host.Outcome State Fault Refusal :=
  .next (s.voteRx entry gen vote)

/-- QUORUM_HOLD (R526): fewer than q - 1 other devices heard for 40 ms. -/
def State.quorumHold (s : State) : State :=
  let ts := ((((s.group.heard.filter (fun h => decide (h.1 ≠ s.group.self))).map (·.2)).foldl (fun a x => insertSorted x a) []).reverse)
  let s := if s.groupJoined && decide (s.heardNow + 1 ≥ s.quorum) then s.advance (ts.getD (s.quorum - 2) 0 + 40000000) else s
  if s.groupJoined && decide (s.heardNow + 1 < s.quorum) then s.setGroup { s.group with holding := true } else s

def execQuorumHold (s : State) : Host.Outcome State Fault Refusal := .next s.quorumHold

/-- QUORUM_LOST (R526): 500 ms without quorum. -/
def State.quorumLost (s : State) : State :=
  if s.groupJoined && s.group.holding then s.setGroup { s.group with state := 4 } else s

def execQuorumLost (s : State) : Host.Outcome State Fault Refusal := .next s.quorumLost

/-- A valid route to a device. -/
def State.routeTo (s : State) (device : Nat) : Option Route := s.gnoz.routes.find? (fun r => r.flag 0 && decide (r.device = device))

/-- GRP_SPARE_ADD (R528): `ready` says whether the device answers with ENABLE = 0 and an empty group record, and every
other member has a valid route to it. -/
def State.spareAdd (s : State) (device : Nat) (ready : Bool) : State :=
  match s.groupGate with
  | some st => s.setGroup { s.group with spareStatus := st.toNat }
  | none =>
    match s.routeTo device with
    | none => s.setGroup { s.group with spareStatus := 0x0E08 }
    | some r =>
      if s.entryState 64 ≠ 0 ∨ !ready then s.setGroup { s.group with spareStatus := 0x0E08 }
      else s.propose (.spare device r.index)

def execGrpSpareAdd (device : Nat) (ready : Bool) (s : State) : Host.Outcome State Fault Refusal :=
  .next (s.spareAdd device ready)

/-- A group namespace request applied at this member (R126, R529): its status. -/
def State.nsApply (s : State) (action nsid stripes : Nat) (keyOk : Bool) : Status × State :=
  let flag (b : Bool) : State → State := fun s => s.setGroup { s.group with
    namespaces := s.group.namespaces.map (fun (g : GroupNs) => if g.nsid = nsid then { g with isSealed := b } else g) }
  match s.groupGate with
  | some st => (st, s)
  | none =>
    if action ≠ 1 ∧ !s.memberNs nsid then
      (if action ≠ 3 ∧ s.quoinSet 14 then (0x0F01, s) else (0x0302, s))
    else match action with
    | 1 =>
      if s.quoinSet 14 then (0x0F01, s)
      else if stripes = 0 ∨ stripes % s.groupG ≠ 0 then (0x0101, s)
      else match s.nsCreateRefusal .register nsid (stripes * s.groupW / s.groupG) keyOk with
        | some r => (r.1, s)
        | none =>
          let cap := stripes * s.groupW / s.groupG
          let s := s.nsMake .register nsid cap
          let s := s.setGroup { s.group with namespaces := s.group.namespaces ++ [{ nsid := nsid, stripes := stripes }] }
          (0, (s.registerKey (65536 - nsid) (.member nsid) 0 (cap * 16384) false true 0).2)
    | 2 => match s.nsDeleteRefusal .register nsid keyOk with
      | some r => (r.1, s)
      | none =>
        let s := s.nsRemove .register nsid
        let s := s.setGroup { s.group with
          namespaces := s.group.namespaces.filter (fun (g : GroupNs) => g.nsid != nsid),
          remoteShares := memZero s.group.remoteShares (nsid * 2 ^ 64) ((nsid + 1) * 2 ^ 64) }
        (0, match s.keyEntry (65536 - nsid) with
          | some k => (match k.kind with
            | .member _ => s.setKey { k with valid := false, gen := (k.gen + 1) % 256 }
            | _ => s)
          | none => s)
    | 3 => match s.nsSealRefusal .register nsid with
      | some r => (r.1, s)
      | none => (0, flag true (s.nsFeature .register (.nsSeal nsid) (some nsid)).pushTail)
    | _ => match s.nsUnsealRefusal .register nsid with
      | some r => (r.1, s)
      | none => (0, flag false (s.nsFeature .register (.nsUnseal nsid) none))

/-- A group namespace request (R529): one that software writes here reaches every member; one of another member is applied
and answered. -/
def State.nsCtrl (s : State) (action nsid : Nat) (origin : Option Nat) (stripes : Nat) (keyOk : Bool) : State :=
  match origin with
  | some n =>
    let r := s.nsApply action nsid stripes keyOk
    r.2.groupSend 3 n [nsid, r.1.toNat]
  | none =>
    let r := s.nsApply action nsid (s.reg64 (grpBase + 0x44)) keyOk
    if r.1 ≠ 0 then r.2.setGroup { r.2.group with nsStatus := r.1.toNat }
    else
      let s := r.2.setGroup { r.2.group with nsRequest := some { action := action, nsid := nsid, acks := [] } }
      (s.groupCast 11 [action, nsid, s.reg64 (grpBase + 0x44)]).nsApplied nsid s.group.self 0

/-- GROUP_NS_CREATE (R529): `stripes` is what another member's request names; software's own is in GRP_NS_STRIPES. -/
def State.groupNsCreate (s : State) (nsid : Nat) (origin : Option Nat) (stripes : Nat) (keyOk : Bool) : State :=
  s.nsCtrl 1 nsid origin stripes keyOk

def execGroupNsCreate (nsid : Nat) (origin : Option Nat) (stripes : Nat) (keyOk : Bool) (s : State) :
    Host.Outcome State Fault Refusal := .next (s.groupNsCreate nsid origin stripes keyOk)

/-- GROUP_NS_DELETE (R529). -/
def State.groupNsDelete (s : State) (nsid : Nat) (origin : Option Nat) (keyOk : Bool) : State := s.nsCtrl 2 nsid origin 0 keyOk

def execGroupNsDelete (nsid : Nat) (origin : Option Nat) (keyOk : Bool) (s : State) : Host.Outcome State Fault Refusal :=
  .next (s.groupNsDelete nsid origin keyOk)

/-- GROUP_NS_SEAL (R529). -/
def State.groupNsSeal (s : State) (nsid : Nat) (origin : Option Nat) : State := s.nsCtrl 3 nsid origin 0 true

def execGroupNsSeal (nsid : Nat) (origin : Option Nat) (s : State) : Host.Outcome State Fault Refusal :=
  .next (s.groupNsSeal nsid origin)

/-- GROUP_NS_UNSEAL (R529). -/
def State.groupNsUnseal (s : State) (nsid : Nat) (origin : Option Nat) : State := s.nsCtrl 4 nsid origin 0 true

def execGroupNsUnseal (nsid : Nat) (origin : Option Nat) (s : State) : Host.Outcome State Fault Refusal :=
  .next (s.groupNsUnseal nsid origin)

/-- A stripe is under its lock: a write of it has not ended, or its prepared share here is not released (R533). -/
def State.stripeLocked (s : State) (ns stripe : Nat) : Bool :=
  s.group.writes.any (fun (w : StripeWrite) => w.nsid == ns && w.stripe == stripe) ||
  s.group.prepared.any (fun (p : Prepared) => p.nsid == ns && p.stripe == stripe)

/-- The coordinator of a stripe (R533): the position that holds P; while that has failed, the Q holder, else the lowest
share's position that is alive. -/
def State.coordinator (s : State) (stripe : Nat) : Nat :=
  let w := s.groupW
  (([w - 2, w - 1] ++ List.range (w - 2)).map (s.sharePos stripe)).find? s.aliveAt |>.getD (s.sharePos stripe (w - 2))

/-- Starts the write of one stripe (R533): forwarded, or, at its coordinator, prepared at every position that gets a new
share. -/
def State.startStripe (s : State) (p : ReqPath) (ns stripe : Nat) (new : List (Nat × List Byte)) : State :=
  let id := s.group.self * 2 ^ 32 + s.group.nextWrite
  let s := s.setGroup { s.group with nextWrite := s.group.nextWrite + 1 }
  let shares := s.newShares ns stripe new
  let c := s.coordinator stripe
  let w : StripeWrite := {
    write := id, path := p, nsid := ns, stripe := stripe, shares := shares, phase := .forwarded, waiting := [c] }
  if c ≠ s.group.self then (s.setGroup { s.group with writes := s.group.writes ++ [w] }).groupSend 8 c [id, ns, stripe]
  else
    let own := shares.filter (fun x => decide (s.sharePos stripe x.1 = s.group.self))
    let far := ((shares.map (fun x => s.sharePos stripe x.1)).filter (fun n => n != s.group.self && s.aliveAt n)).eraseDups
    let w := { w with phase := .preparing, waiting := far }
    let s := s.setGroup { s.group with
      writes := s.group.writes ++ [w],
      prepared := s.group.prepared ++ own.map (fun x =>
        { write := id, coord := s.group.self, nsid := ns, stripe := stripe, share := x.1, data := x.2 }) }
    (far.foldl (fun s n => s.groupSend 4 n [id, ns, stripe]) s).advanceWrite w

/-- GROUP_WRITE (R125, R157, R526, R533, R546): every stripe the write touches is written under its lock; one that merges with a
unit no tier can read ends with 0x0201. While the device is
without quorum, a stripe is locked, or space for its share of each stripe cannot be reserved, the write is not admitted. -/
def State.groupWrite (s : State) (p : ReqPath) (nsid lba : Nat) (data : List Byte) : State :=
  let count := data.length / 4096
  let us := unitsTouched lba count
  let stripes := (us.map s.unitStripe).eraseDups
  if !s.memberNs nsid || s.mediaStopped || s.admissionHeld then s
  else if count = 0 ∨ count > 4096 ∨ data.length % 4096 ≠ 0 then s.refuse p 0x0101
  else match s.groupWriteRefusal p nsid lba count with
    | some st => s.refuse p st
    | none =>
      if s.group.holding || stripes.any (s.stripeLocked nsid) || !s.roomFor stripes.length || !s.spaceFor stripes.length then s
      else if us.any (fun u => !coversUnit lba count u && !s.nsReadable nsid (u * 16384) 16384) then s.refuse p 0x0201
      else
        let s0 := s
        stripes.foldl (fun s st =>
          let mine := us.filter (fun u => s0.unitStripe u == st)
          s.startStripe p nsid st (mine.map (fun u => (s0.unitShare u, mergeUnit (s0.unitSeen nsid u) data u lba)))) s

def execGroupWrite (p : ReqPath) (nsid lba : Nat) (data : List Byte) (s : State) : Host.Outcome State Fault Refusal :=
  .next (s.groupWrite p nsid lba data)

/-- STRIPE_PREPARE (R157, R522, R533): a share of this position, for which space is reserved, is held in the protected write buffer
and acknowledged. -/
def State.stripePrepare (s : State) (n gen write ns stripe share : Nat) (data : List Byte) : State :=
  if !s.groupJoined || s.mediaStopped then s
  else if s.groupBar n gen ≠ none then s.groupRefuse n ((s.groupBar n gen).getD 0)
  else if !s.memberNs ns || decide (s.sharePos stripe share ≠ s.group.self) || decide (data.length ≠ 16384) ||
      !s.roomFor 1 || !s.spaceFor 1 then s
  else
    let p : Prepared := { write := write, coord := n, nsid := ns, stripe := stripe, share := share, data := data }
    (s.setGroup { s.group with prepared := s.group.prepared ++ [p] }).groupSend 3 n [write]

def execStripePrepare (entry gen write ns stripe share : Nat) (data : List Byte) (s : State) :
    Host.Outcome State Fault Refusal := .next (s.stripePrepare entry gen write ns stripe share data)

/-- A prepared share is journaled as MAP and released (R533 step 4); the state is unchanged when its place is not free. -/
def State.applyPrepared (s : State) (p : Prepared) (pl : Placement) : State :=
  let s1 := s.openBands false pl.bands
  if s1.placesOk pl.pmas && pl.pmas.length == 1 then
    let s := s1.placeUnit p.nsid (s.shareUnit p.stripe p.share) (pl.pmas.headD 0) p.data
    s.setGroup { s.group with prepared := s.group.prepared.erase p }
  else s

/-- STRIPE_COMMIT (R533): the Q holder journals the decision and tells the coordinator; the prepared share is applied. -/
def State.stripeCommit (s : State) (write : Nat) (pl : Placement) : State :=
  match s.group.prepared.find? (fun (p : Prepared) => p.write == write) with
  | none => s
  | some p =>
    let s := if decide (p.share + 1 = s.groupW) && !s.group.decisions.contains write then
        (s.setGroup { s.group with decisions := s.group.decisions ++ [write] }).groupSend 3 p.coord [write]
      else s
    if p.coord = s.group.self ∧ !p.decided then s else s.applyPrepared p pl

def execStripeCommit (write : Nat) (pl : Placement) (s : State) : Host.Outcome State Fault Refusal :=
  .next (s.stripeCommit write pl)

/-- PREPARE_RESOLVE (R534): the outcome is COMMIT when this device, or any it asks, knows the decision; else the share is
discarded and a writer of this member is answered 0x0E0B. -/
def State.prepareResolve (s : State) (write : Nat) (commit : Bool) (pl : Placement) : State :=
  let known := s.group.decisions.contains write ||
    s.group.prepared.any (fun (p : Prepared) => p.write == write && p.decided)
  let s := s.groupCast 13 [write]
  let w := s.group.writes.find? (fun (w : StripeWrite) => w.write == write)
  if commit || known then
    let s := match w with | some w => s.stripeCommitted w | none => s
    match s.group.prepared.find? (fun (p : Prepared) => p.write == write) with
    | some p => s.applyPrepared p pl
    | none => s
  else
    let s := s.setGroup { s.group with prepared := s.group.prepared.filter (fun (p : Prepared) => p.write != write) }
    match w with
    | some w => s.stripeEnded w 0x0E0B
    | none => s

def execPrepareResolve (write : Nat) (commit : Bool) (pl : Placement) (s : State) : Host.Outcome State Fault Refusal :=
  .next (s.prepareResolve write commit pl)

/-- Share j of a stripe of width w, from the shares that survive (R531, R537). -/
def rebuildShare (w j : Nat) (shares : List (Nat × List Byte)) : Option (List Byte) :=
  let data := shares.filter (fun x => decide (x.1 < w - 2))
  let lost := (List.range (w - 2)).filter (fun k => !data.any (fun x => x.1 == k))
  let share (k : Nat) : Option (List Byte) := (shares.find? (fun x => x.1 == k)).map (·.2)
  let get (k : Nat) : Option (List Byte) := match share k with
    | some b => some b
    | none => recoverShare 16384 data (share (w - 2)) (share (w - 1)) lost k
  if j < w - 2 then get j
  else
    let d := (List.range (w - 2)).filterMap get
    if d.length ≠ w - 2 then none
    else if j = w - 2 then some (parityP 16384 d)
    else some (parityQ 16384 ((List.range (w - 2)).zip d))

def Rebuild.step (r : Rebuild) (stripes : Nat) : Rebuild :=
  if r.next + 1 < stripes then { r with next := r.next + 1 } else { r with nsIndex := r.nsIndex + 1, next := 0 }

def State.setRebuild (s : State) (r : Rebuild) : State :=
  s.setGroup { s.group with rebuilds := s.group.rebuilds.map (fun (x : Rebuild) => if x.pos = r.pos then r else x) }

/-- REBUILD_STRIPE (R536, R537): the next stripe of a bring-in, under its lock. `shares` are its surviving shares, none when
no surviving share of it is mapped; on the spare, its own share of the stripe is decoded and written. -/
def State.rebuildStripe (s : State) (pos : Nat) (shares : List (Nat × List Byte)) (pl : Placement) : State :=
  match s.group.rebuilds.find? (fun (r : Rebuild) => r.pos == pos) with
  | none => s
  | some r =>
    match s.group.namespaces[r.nsIndex]? with
    | none => s
    | some g =>
      let w := s.groupW
      let j := (pos + s.groupG - r.next % s.groupG) % s.groupG
      let done := s.setRebuild (r.step g.stripes)
      if s.stripeLocked g.nsid r.next then s
      else if s.group.self ≠ pos ∨ j ≥ w ∨ shares.isEmpty ∨ s.stripeLost g.nsid r.next then done
      else match rebuildShare w j (shares.filter (fun x => decide (x.1 ≠ j))) with
        | none => done
        | some b =>
          let s1 := s.openBands false pl.bands
          if s1.placesOk pl.pmas && pl.pmas.length == 1 then
            let s := s1.placeUnit g.nsid (s.shareUnit r.next j) (pl.pmas.headD 0) b
            let mem := shares.foldl (fun m x => memWrite m (shareKey g.nsid r.next x.1) x.2) s.group.remoteShares
            (s.setGroup { s.group with remoteShares := mem }).setRebuild (r.step g.stripes)
          else s

def execRebuildStripe (pos : Nat) (shares : List (Nat × List Byte)) (pl : Placement) (s : State) :
    Host.Outcome State Fault Refusal := .next (s.rebuildStripe pos shares pl)

/-- REBUILD_COMPLETE (R536 step 5): the last stripe is done, and the commit makes the position ACTIVE. -/
def State.rebuildComplete (s : State) (pos : Nat) : State :=
  match s.group.rebuilds.find? (fun (r : Rebuild) => r.pos == pos) with
  | none => s
  | some r => if r.nsIndex ≥ s.group.namespaces.length then s.commitGroup (.active pos) else s

def execRebuildComplete (pos : Nat) (s : State) : Host.Outcome State Fault Refusal := .next (s.rebuildComplete pos)

/-- MIRROR_UPDATE (R522, R541): the mirror of a stream is stored at its partner and acknowledged. -/
def State.mirrorUpdate (s : State) (n gen : Nat) (m : Mirror) : State :=
  if !s.groupJoined then s
  else if s.groupBar n gen ≠ none then s.groupRefuse n ((s.groupBar n gen).getD 0)
  else
    let rest := s.group.mirrors.filter (fun (x : Mirror) => x.streamId != m.streamId)
    (s.setGroup { s.group with mirrors := rest ++ [m] }).groupSend 3 n [m.streamId]

def execMirrorUpdate (entry gen : Nat) (m : Mirror) (s : State) : Host.Outcome State Fault Refusal :=
  .next (s.mirrorUpdate entry gen m)

/-- STREAM_TABLE_UPDATE (R522, R540): an entry of the group stream table, or its removal, is stored and acknowledged. -/
def State.streamTableUpdate (s : State) (n gen : Nat) (block : List Byte) (ctx primary partner : Nat) (removal : Bool) :
    State :=
  if !s.groupJoined then s
  else if s.groupBar n gen ≠ none then s.groupRefuse n ((s.groupBar n gen).getD 0)
  else
    let e : GroupStream := { params := streamParams block, ctx := ctx, primary := primary, partner := partner }
    (s.storeStream e removal).groupSend 3 n [e.params.streamId]

def execStreamTableUpdate (entry gen : Nat) (block : List Byte) (ctx primary partner : Nat) (removal : Bool) (s : State) :
    Host.Outcome State Fault Refusal := .next (s.streamTableUpdate entry gen block ctx primary partner removal)

/-- REHOME_EVENT_RESEND (R543): every 10 ms until the consumer's CREDIT. -/
def State.rehomeResend (s : State) (c : Nat) : State :=
  match s.ctxOf c with
  | some x => if s.group.rehoming.contains c then s.sendStreamEvent c x 0x0E0C x.ack else s
  | none => s

def execRehomeEventResend (ctx : Nat) (s : State) : Host.Outcome State Fault Refusal := .next (s.rehomeResend ctx)

/-- The position table is G distinct device IDs with valid routes (R548). -/
def State.positionsOk (s : State) (g : Nat) : Bool :=
  let ds := (List.range g).map s.entryDevice
  ds.eraseDups.length == g && (List.range g).all (fun n =>
    match s.route (s.regFld (grpBase + 0x104 + 8 * n) 0 16) with
    | some r => decide (r.device = s.entryDevice n)
    | none => false)

/-- GRP_CFG_WRITE (R523, R548): ENABLE rises when MEMBERS and the position table allow it; while it is set MEMBERS stays;
clearing it ends the device's part in the group. -/
def State.grpCfgWrite (s : State) (v : Word) : State :=
  let on := s.regFld grpBase 0 1 == 1
  let m := fld v 1 7
  if on && v.getLsbD 0 then s
  else if on then
    let g := s.group
    (s.setBits grpBase 0 1 0).setGroup {
      gen := g.gen, namespaces := g.namespaces, prepared := g.prepared, decisions := g.decisions,
      remoteShares := g.remoteShares, nextWrite := g.nextWrite }
  else if v.getLsbD 0 then
    if decide (8 ≤ m ∧ m ≤ 64) && s.positionsOk m then
      let s := s.setReg grpBase (BitVec.ofNat 32 (1 + 2 * m))
      let sts := (List.range 65).map (fun n =>
        if n < m then 1 else if n = 64 ∧ s.entryDevice 64 ≠ 0 then 1 else 0)
      let s := s.setGroup { s.group with states := sts, proposal := none }
      s.setGroup { s.group with self := s.ownEntry }
    else s.log 0x0E08 grpBase
  else s.setReg grpBase (BitVec.ofNat 32 (2 * m))

def execGrpCfgWrite (v : Word) (s : State) : Host.Outcome State Fault Refusal := .next (s.grpCfgWrite v)

/-- At reset, a device with a valid group record rejoins with the table in it (R527). -/
def State.groupRejoin (s : State) : State :=
  match s.groupRecord with
  | none => s
  | some t => (s.setBits grpBase 0 1 1).adoptTable { t with spaces := [] }

/-- Stripes of all group namespaces, and those a bring-in has passed. -/
def State.rebuildPct (s : State) (r : Rebuild) : Nat :=
  let total := s.group.namespaces.foldl (fun a g => a + g.stripes) 0
  let past := (s.group.namespaces.take r.nsIndex).foldl (fun a g => a + g.stripes) 0 + r.next
  if total = 0 then 100 else past * 100 / total

/-- The GRP words that show state held elsewhere (R548, R549). -/
def viewGrp (s : State) (off : Nat) : Option Word :=
  let g := s.group
  if off = grpBase then
    some (s.reg grpBase ||| BitVec.ofNat 32 (if s.regFld grpBase 0 1 = 1 then s.groupW * 256 else 0))
  else if off = grpBase + 0xC then some (BitVec.ofNat 32 (min g.self 127))
  else if off = grpBase + 0x10 then some (BitVec.ofNat 32 g.gen)
  else if off = grpBase + 0x14 then
    let r := g.rebuilds.head?
    some (packFields [(0, g.state), (8, (s.positionsIn 3).length), (16, (r.map (fun (x : Rebuild) => x.pos)).getD 127),
      (23, (r.map s.rebuildPct).getD 0)])
  else if off = grpBase + 0x18 then some (g.lostMask.extractLsb' 0 32)
  else if off = grpBase + 0x1C then some (g.lostMask.extractLsb' 32 32)
  else if off = grpBase + 0x24 then some (BitVec.ofNat 32 g.spareStatus)
  else if off = grpBase + 0x4C then some (BitVec.ofNat 32 g.nsStatus)
  else if grpBase + 0x100 ≤ off ∧ off < grpBase + 0x100 + 65 * 8 ∧ off % 8 = 4 then
    some (s.reg off ||| BitVec.ofNat 32 (s.entryState ((off - grpBase - 0x100) / 8) * 65536))
  else none

/-- Bus writes to the GRP words (R548, R549). A write to GRP_SPARE_ADD or GRP_NS_CTRL takes what the other devices, and the
making of a key, answer as a free value. -/
def writeGrp (s : State) (off : Nat) (v : Word) : Option State :=
  let on := s.regFld grpBase 0 1 == 1
  if off = grpBase then some (s.grpCfgWrite v)
  else if off = grpBase + 4 ∨ off = grpBase + 8 then (if on then some s else none)
  else if off = grpBase + 0x20 then
    let f := s.takeFree
    some (f.2.spareAdd (fld v 0 24) (Config.freeBit f.1))
  else if off = grpBase + 0x40 then
    let f := s.takeFree
    if 1 ≤ fld v 9 3 ∧ fld v 9 3 ≤ 4 then some (f.2.nsCtrl (fld v 9 3) (fld v 0 9) none 0 (Config.freeBit f.1))
    else some (s.setGroup { s.group with nsStatus := 0x0101 })
  else if grpBase + 0x100 ≤ off ∧ off < grpBase + 0x100 + 65 * 8 then (if on then some s else none)
  else none

end Sys2Proof.Machine
end

