-- ==== Sys2Proof/Machine/Observe.lean ====
section
/-! DEFINITION. The commands of event counters, range markers and the trace (R388-R396, R401, R402), and the soft
resets and faults of tiles, regions and routers (R32-R36, R333). -/

namespace Sys2Proof.Machine

/-- An access to the window of a tile: one in an inactive region has no tile, changes nothing and records 0x0103 (R7). -/
def State.tileAccess (s : State) (t off : Nat) (f : State → State) : State :=
  if s.regionActive (t / 32) then f s else s.log 0x0103 tilBase (tilBase + t * 0x8000 + off)

/-- TIL_EVT_CLEAR (R388): the 8 counts become 0; the overflow bits are kept. -/
def State.tilEvtClear (s : State) (t : Nat) : State :=
  s.tileAccess t 0x100 (fun s => s.setTile t { s.tile t with evtCnt := List.replicate 8 0 })

def execTilEvtClear (t : Nat) (s : State) : Host.Outcome State Fault Refusal := .next (s.tilEvtClear t)

/-- TIL_EVT_SEL_WRITE (R389): sets the event; a code above 0x10 is refused. -/
def State.tilEvtSelWrite (s : State) (t n : Nat) (v : Word) : State :=
  let code := fld v 0 8
  if n ≥ 8 then s
  else s.tileAccess t (0x110 + 4 * n) (fun s =>
    if code > 0x10 then s.log 0x0101 tilBase (tilBase + t * 0x8000 + 0x110 + 4 * n) code
    else
      let x := s.tile t
      s.setTile t { x with evtSel := modAt x.evtSel n (fun _ => code) })

def execTilEvtSelWrite (t n : Nat) (v : Word) (s : State) : Host.Outcome State Fault Refusal :=
  .next (s.tilEvtSelWrite t n v)

/-- TIL_EVT_CNT_LO_READ (R7, R390): a 32-bit read of LO returns it and latches HI; of a tile that is not there it returns 0. -/
def State.tilEvtCntLoRead (s : State) (p : BusPath) (t n : Nat) : State :=
  let off := tilBase + t * 0x8000 + 0x140 + 8 * n
  let v := if s.regionActive (t / 32) then (s.tile t).evtCnt.getD n 0 else 0
  (s.tileAccess t (0x140 + 8 * n) (fun s => s.setTile t { s.tile t with hiLatch := some (n, v / 2 ^ 32) })).emit
    (.readData p off [BitVec.ofNat 32 v])

def execTilEvtCntLoRead (p : BusPath) (t n : Nat) (s : State) : Host.Outcome State Fault Refusal :=
  .next (s.tilEvtCntLoRead p t n)

/-- A source of markers: a tile of a run, or software through a path (R391). -/
def State.markDepth (s : State) (src : MarkSource) : Option (Nat × Nat × Nat) :=
  match src with
  | .tile slot t =>
    match s.runAt slot with
    | some r => match r.physTile t with
      | some p => if r.state = RunState.running then some ((s.tile p).depth, sigTile p, slot) else none
      | none => none
    | none => none
  | .software p => some (s.obs.depth, sigSoftware (match p with | .sideband => 1 | _ => 0), 0xFF)

def State.setDepth (s : State) (src : MarkSource) (d : Nat) : State :=
  match src with
  | .tile slot t =>
    match s.runAt slot with
    | some r => match r.physTile t with
      | some p => s.setTile p { s.tile p with depth := d }
      | none => s
    | none => s
  | .software _ => { s with obs := { s.obs with depth := d } }

/-- MARK_BEGIN (R391, R393): the depth rises to at most 16 and the marker is traced. -/
def State.markBegin (s : State) (src : MarkSource) (id user : Nat) : State :=
  match s.markDepth src with
  | none => s
  | some (d, sig, run) =>
    let full := decide (d ≥ 16)
    let d' := if full then 16 else d + 1
    (s.setDepth src d').trace 1 0 sig run (if full then 1 else 0) d' (id + user * 2 ^ 32)

def execMarkBegin (src : MarkSource) (id user : Nat) (s : State) : Host.Outcome State Fault Refusal :=
  .next (s.markBegin src id user)

/-- MARK_END (R391, R393): the depth falls, an END at depth 0 is UNMATCHED; traced. -/
def State.markEnd (s : State) (src : MarkSource) (id user : Nat) : State :=
  match s.markDepth src with
  | none => s
  | some (d, sig, run) =>
    (s.setDepth src (d - 1)).trace 2 0 sig run (if d = 0 then 2 else 0) (d - 1) (id + user * 2 ^ 32)

def execMarkEnd (src : MarkSource) (id user : Nat) (s : State) : Host.Outcome State Fault Refusal :=
  .next (s.markEnd src id user)

/-- MARK_INSTANT (R391, R393): traced with the depth as it is. -/
def State.markInstant (s : State) (src : MarkSource) (id user : Nat) : State :=
  match s.markDepth src with
  | none => s
  | some (d, sig, run) => s.trace 3 0 sig run 0 d (id + user * 2 ^ 32)

def execMarkInstant (src : MarkSource) (id user : Nat) (s : State) : Host.Outcome State Fault Refusal :=
  .next (s.markInstant src id user)

/-- The trace area is freed (R396). -/
def State.traceFree (s : State) : State :=
  { s with
    mgr := { s.mgr with bulkFree := s.mgr.bulkFree + s.obs.pages },
    obs := { s.obs with pages := 0, mem := [], active := false, base := 0 } }

/-- A write of OBS_TRACE_CFG (R396, R402): the range of SIZE_LOG2 first; while ENABLE = 1 only ENABLE and SOURCES
change; ENABLE = 1 reserves the area, whose place in bulk memory is the device's choice; RELEASE frees it. -/
def State.obsCfgWrite (s : State) (v : Word) : State :=
  let on := s.regFld regObsCfg 0 1 = 1
  let size := fld v 8 6
  if size < 26 ∨ size > 36 then s.log 0x0101 obsBase obsBase v.toNat
  else if on then
    let s := s.setReg regObsCfg (setFld (setFld (s.reg regObsCfg) 16 7 (fld v 16 7)) 0 1 (fld v 0 1))
    if fld v 0 1 = 0 then { s with obs := { s.obs with active := false } } else s
  else
    let rel := fld v 2 1 = 1
    let freed := if rel || fld v 0 1 = 1 then s.traceFree else s
    let cfg := packFields [(0, fld v 0 1), (1, fld v 1 1), (8, size), (16, fld v 16 7)]
    if fld v 0 1 = 0 then freed.setReg regObsCfg cfg
    else
      let n := 2 ^ (size - 21)
      if freed.mgr.bulkFree < n then s.log 0x0B06 obsBase
      else
        let (k, s) := freed.takeFree
        { s with
          mgr := { s.mgr with bulkFree := s.mgr.bulkFree - n },
          obs := { s.obs with
            active := true, full := false, wrapped := false, wr := 0, pages := n,
            base := Config.freeNat k % 2 ^ 20 * 2 ^ 21 } }.setReg regObsCfg cfg

/-- TRACE_ENABLE (R396): a write with ENABLE = 1. -/
def State.traceEnable (s : State) (v : Word) : State := s.obsCfgWrite (setFld v 0 1 1)

def execTraceEnable (v : Word) (s : State) : Host.Outcome State Fault Refusal := .next (s.traceEnable v)

/-- TRACE_DISABLE (R396): a write with ENABLE = 0 and RELEASE = 0; the area stays. -/
def State.traceDisable (s : State) (v : Word) : State := s.obsCfgWrite (setFld (setFld v 0 1 0) 2 1 0)

def execTraceDisable (v : Word) (s : State) : Host.Outcome State Fault Refusal := .next (s.traceDisable v)

/-- TRACE_RELEASE (R396): a write of RELEASE with ENABLE as it is. -/
def State.traceRelease (s : State) (v : Word) : State :=
  s.obsCfgWrite (setFld (setFld v 2 1 1) 0 1 (s.regFld regObsCfg 0 1))

def execTraceRelease (v : Word) (s : State) : Host.Outcome State Fault Refusal := .next (s.traceRelease v)

/-- The run that holds a physical tile ends with a status (R32). -/
def State.endTileRun (s : State) (t : Nat) (st : Status) (detail : Nat) : State :=
  match s.runOfRegion (t / 32) with
  | none => s
  | some r => s.endRun r.slot st detail (r.regions.idxOf (t / 32) * 32 + t % 32)

/-- TILE_FAULT (R32): the run that holds the tile ends on all of its regions with 0x090B; DETAIL 1 parity, 3 no
progress. The tile shows FAULTED. -/
def State.tileFault (s : State) (t : Nat) (noProgress : Bool) : State :=
  match s.runOfRegion (t / 32) with
  | none => s
  | some _ => (s.setTile t { s.tile t with faulted := true }).endTileRun t 0x090B (if noProgress then 3 else 1)

def execTileFault (t : Nat) (noProgress : Bool) (s : State) : Host.Outcome State Fault Refusal :=
  .next (s.tileFault t noProgress)

/-- REGION_FAULT (R34): the region is isolated and its run ends with 0x090C; DETAIL 1 PLL, 2 power island, 3 region
store. A region reset under way ends with the region isolated again. -/
def State.regionFault (s : State) (g : Nat) (c : RegionFaultCause) : State :=
  if !s.regionActive g then s
  else
    let d := match c with | .pll => 1 | .island => 2 | .store => 3
    let s := if s.rst.region = some g then { s with rst := { s.rst with regionFault := some d } } else s
    let s := if (s.runOfRegion g).isNone then s.log 0x090C stkBase g 0 0 d else s
    s.isolateRegion g d

def execRegionFault (g : Nat) (c : RegionFaultCause) (s : State) : Host.Outcome State Fault Refusal :=
  .next (s.regionFault g c)

/-- The mesh position of a tile (R46): column from west to east, row from south to north. -/
def meshCol (n : Nat) : Nat := 4 * (n / 32 % 8) + n % 32 % 4

def meshRow (n : Nat) : Nat := 8 * (n / 32 / 8) + n % 32 / 4

/-- The reticle field of a tile (R46). -/
def reticleField (n : Nat) : Nat := 2 * (n / 32 / 8 / 3) + n / 32 % 8 / 4

/-- The tile at a mesh position. -/
def tileAt (col row : Nat) : Nat := (8 * (row / 8) + col / 4) * 32 + 4 * (row % 8) + col % 4

/-- The numbers from a to b, whichever is less. -/
def between (a b : Nat) : List Nat := (List.range (max a b - min a b + 1)).map (· + min a b)

/-- The routers that a flow crosses in dimension-ordered routing (R36): along its row first and then its column, or the other way
round. -/
def xyRoute (src dst : Nat) : List Nat :=
  (between (meshCol src) (meshCol dst)).map (fun c => tileAt c (meshRow src)) ++
  (between (meshRow src) (meshRow dst)).map (fun r => tileAt (meshCol dst) r)

def yxRoute (src dst : Nat) : List Nat :=
  (between (meshRow src) (meshRow dst)).map (fun r => tileAt (meshCol src) r) ++
  (between (meshCol src) (meshCol dst)).map (fun c => tileAt c (meshRow dst))

/-- A route avoids every faulted router. -/
def State.routeClear (s : State) (route : List Nat) : Bool := route.all (fun t => !s.mgr.routers.contains t)

/-- A flow of a run that crosses a faulted router moves to YX routing; with no such route its run ends (R32, R36). -/
def State.moveFlow (s : State) (f : Nat × Nat × Nat) : State :=
  match s.runAt f.1 with
  | none => s
  | some r =>
    if !(r.regions.contains (f.2.1 / 32) || r.regions.contains (f.2.2 / 32)) || s.routeClear (xyRoute f.2.1 f.2.2) then s
    else if s.routeClear (yxRoute f.2.1 f.2.2) then
      { s with mgr := { s.mgr with yxFlows := s.mgr.yxFlows.filter (· != f.2) ++ [f.2] } }
    else s.endRun f.1 0x090C 4

/-- ROUTER_PARITY_FAULT (R36): the region is isolated, the flows that cross the router move to YX routing, runs without a route end
with 0x090C DETAIL 4, and the fault is recorded. `flows` are the flows of the runs on the mesh: slot, source and destination. -/
def State.routerFault (s : State) (t : Nat) (flows : List (Nat × Nat × Nat)) : State :=
  let g := t / 32
  if !s.regionActive g then s
  else
    let s := { s with mgr := { s.mgr with
      routers := if s.mgr.routers.contains t then s.mgr.routers else s.mgr.routers ++ [t] } }
    let s := s.log 0x090C stkBase g t 0 4
    flows.foldl (fun s f => s.moveFlow f) (s.isolateRegion g 4)

def execRouterParityFault (t : Nat) (flows : List (Nat × Nat × Nat)) (s : State) : Host.Outcome State Fault Refusal :=
  .next (s.routerFault t flows)

/-- A soft reset of a unit of a tile (R333): on a tile that a run holds, the run ends with 0x090B DETAIL 2 and the
reset is recorded with 0x0105. -/
def State.tileUnitReset (s : State) (t : Nat) : State :=
  match s.runOfRegion (t / 32) with
  | none => s
  | some _ => (s.log 0x0105 tilBase t).endTileRun t 0x090B 2

/-- What the reset of a tile's unit clears (R332, R333); the bit is that of TIL_UNIT_RESET. -/
def State.tileUnitClear (s : State) (t : Nat) : Nat → State
  | 0 => s.setTile t { s.tile t with acc0 := [], acc1 := [], accNext1 := false }
  | 2 => s.setTile t { s.tile t with dma := [] }
  | 4 =>
    let clear (x : Nat × Counter) : Nat × Counter :=
      (x.1, { x.2 with waiters := x.2.waiters.filter (fun w => w.who != sigTile t) })
    { s with sync := { s.sync with ctrs := s.sync.ctrs.map clear } }
  | 5 => s.setTile t { s.tile t with evtCnt := List.replicate 8 0, evtOvf := 0, depth := 0 }
  | 6 => { s with field := { s.field with tileMem := memZero s.field.tileMem (t * 2 ^ 20) ((t + 1) * 2 ^ 20) } }
  | _ => s

/-- A unit of a tile is idle: its DMA has no descriptor queued, its sync port no wait; the others end what they do within one
command. -/
def State.tileUnitIdle (s : State) (t : Nat) : Nat → Bool
  | 2 => (s.tile t).dma.isEmpty
  | 4 => s.sync.ctrs.all (fun x => x.2.waiters.all (fun w => w.who != sigTile t))
  | _ => true

/-- Steps 4 and 5 of R603 for a unit of a tile: it is cleared, its bit reads 0, and the run that holds the tile ends (R333). -/
def State.tileUnitEnd (s : State) (t bit : Nat) : State :=
  let s := { s with rst := { s.rst with tiles := s.rst.tiles.filter (fun x => !(x.1 == t && x.2.1 == bit)) } }
  (s.tileUnitClear t bit).tileUnitReset t

/-- A write of 1 to a bit of TIL_UNIT_RESET (R30, R332, R603): the unit is asked to go idle. One that is idle is reset; else its bit
reads 1 and it takes no new work until it is idle or the timeout comes. -/
def State.tileUnitStart (s : State) (t bit : Nat) : State :=
  s.tileAccess t 8 (fun s =>
    if s.tileUnitHeld t bit then s
    else if s.tileUnitIdle t bit then s.tileUnitEnd t bit
    else { s with rst := { s.rst with tiles := s.rst.tiles ++ [(t, bit, s.now)] } })

/-- TIL_RESET_MAC (R28, R30, R332, R603). The MAC array: its accumulators are cleared. -/
def State.tilResetMac (s : State) (t : Nat) : State := s.tileUnitStart t 0

def execTilResetMac (t : Nat) (s : State) : Host.Outcome State Fault Refusal := .next (s.tilResetMac t)

/-- TIL_RESET_VEC (R28, R30, R332). The vector unit: its registers are private and hold nothing this state names. -/
def State.tilResetVec (s : State) (t : Nat) : State := s.tileUnitStart t 1

def execTilResetVec (t : Nat) (s : State) : Host.Outcome State Fault Refusal := .next (s.tilResetVec t)

/-- TIL_RESET_DMA (R28, R30, R332). The tile DMA: its descriptor queue is cleared. -/
def State.tilResetDma (s : State) (t : Nat) : State := s.tileUnitStart t 2

def execTilResetDma (t : Nat) (s : State) : Host.Outcome State Fault Refusal := .next (s.tilResetDma t)

/-- TIL_RESET_CORE (R28, R30, R332). The control core: its state is private to the plate. -/
def State.tilResetCore (s : State) (t : Nat) : State := s.tileUnitStart t 3

def execTilResetCore (t : Nat) (s : State) : Host.Outcome State Fault Refusal := .next (s.tilResetCore t)

/-- TIL_RESET_SYNC (R30, R333). The sync port: its pending waits and queued operations are cleared; counter values are
kept. -/
def State.tilResetSync (s : State) (t : Nat) : State := s.tileUnitStart t 4

def execTilResetSync (t : Nat) (s : State) : Host.Outcome State Fault Refusal := .next (s.tilResetSync t)

/-- TIL_RESET_OBS (R30, R333). The observation unit: event counters, overflow bits and marker depth become 0 and a
WATCH is abandoned; the selectors are kept. -/
def State.tilResetObs (s : State) (t : Nat) : State := s.tileUnitStart t 5

def execTilResetObs (t : Nat) (s : State) : Host.Outcome State Fault Refusal := .next (s.tilResetObs t)

/-- TIL_RESET_STORE (R30, R333). The tile store becomes zeros. -/
def State.tilResetStore (s : State) (t : Nat) : State := s.tileUnitStart t 6

def execTilResetStore (t : Nat) (s : State) : Host.Outcome State Fault Refusal := .next (s.tilResetStore t)

/-- TIL_RESET_ROUTER (R30, R333). The router drains and its state is cleared; transit flows are held and resume, so no
flit is lost. A parity fault of the router stays recorded until its region is reset. -/
def State.tilResetRouter (s : State) (t : Nat) : State := s.tileUnitStart t 7

def execTilResetRouter (t : Nat) (s : State) : Host.Outcome State Fault Refusal := .next (s.tilResetRouter t)

/-- The OBS registers that are computed (R402). -/
def viewObserve (s : State) (off : Nat) : Option Word :=
  let w (n : Nat) : Option Word := some (BitVec.ofNat 32 n)
  if off = obsBase + 0x08 then w s.obs.base
  else if off = obsBase + 0x0C then w (s.obs.base / 2 ^ 32)
  else if off = obsBase + 0x10 then w s.obs.wr
  else if off = obsBase + 0x14 then w (s.obs.wr / 2 ^ 32)
  else if off = obsBase + 0x18 then some (packFields [(0, bitOf s.obs.active), (1, bitOf s.obs.full), (2, bitOf s.obs.wrapped)])
  else if off = obsBase + 0x20 then w s.timebase
  else if off = obsBase + 0x24 then w (s.timebase / 2 ^ 32)
  else if off = obsBase + 0x30 then some 0
  else none

/-- A write of OBS_MARK issues the marker of OBS_MARK_ID and OBS_MARK_USER (R402). -/
def writeObserve (s : State) (p : BusPath) (off : Nat) (v : Word) : Option State :=
  if off = obsBase then some (s.obsCfgWrite v)
  else if off = obsBase + 0x30 then
    let id := (s.reg (obsBase + 0x28)).toNat
    let user := (s.reg (obsBase + 0x2C)).toNat
    match fld v 0 2 with
    | 1 => some (s.markBegin (.software p) id user)
    | 2 => some (s.markEnd (.software p) id user)
    | 3 => some (s.markInstant (.software p) id user)
    | _ => some s
  else none

/-- The registers of a tile window (R332, R401). -/
def viewTile (s : State) (t off : Nat) : Word :=
  let x := s.tile t
  let w (n : Nat) : Word := BitVec.ofNat 32 n
  let r := t / 32
  if off = 0 then packFields [(0, t), (11, r), (17, t % 32), (22, reticleField t)]
  else if off = 4 then
    match s.runOfRegion r with
    | some run => packFields [(0, 1), (1, bitOf run.slow), (2, bitOf x.faulted),
        (3, bitOf (run.state != RunState.running)), (4, run.slot)]
    | none => packFields [(2, bitOf x.faulted), (3, 1)]
  else if off = 8 then packFields ((List.range 8).map (fun b => (b, bitOf (s.tileUnitHeld t b))))
  else if off = 0x104 then w x.evtOvf.toNat
  else if off = 0x108 then w x.depth
  else if 0x110 ≤ off ∧ off < 0x130 then w (x.evtSel.getD ((off - 0x110) / 4) 0)
  else if 0x140 ≤ off ∧ off < 0x180 then
    let n := (off - 0x140) / 8
    if off % 8 = 0 then w (x.evtCnt.getD n 0)
    else match x.hiLatch with
      | some (k, v) => if k = n then w v else w (x.evtCnt.getD n 0 / 2 ^ 32)
      | none => w (x.evtCnt.getD n 0 / 2 ^ 32)
  else if 0x180 ≤ off ∧ off < 0x1A0 then w (x.realign.getD ((off - 0x180) / 4) 0)
  else if t % 32 = 0 ∧ 0x6000 ≤ off ∧ off < 0x6010 then w ((s.regionSt r).ctr.getD ((off - 0x6000) / 4) 0)
  else if t % 32 = 0 ∧ off = 0x6010 then w (s.regionSt r).ovf.toNat
  else 0

/-- The unit resets of TIL_UNIT_RESET, bit by bit (R332). -/
def State.tileResetBits (s : State) (t : Nat) (v : Word) : State :=
  let on (i : Nat) (f : State → State) (s : State) : State := if v.getLsbD i then f s else s
  on 7 (fun s => s.tilResetRouter t) (on 6 (fun s => s.tilResetStore t) (on 5 (fun s => s.tilResetObs t)
    (on 4 (fun s => s.tilResetSync t) (on 3 (fun s => s.tilResetCore t) (on 2 (fun s => s.tilResetDma t)
      (on 1 (fun s => s.tilResetVec t) (on 0 (fun s => s.tilResetMac t) s)))))))

/-- A write into a tile window (R332, R401). -/
def State.writeTile (s : State) (t off : Nat) (v : Word) : State :=
  if off = 8 then s.tileResetBits t v
  else if off = 0x100 then (if v.getLsbD 0 then s.tilEvtClear t else s)
  else if off = 0x104 then s.setTile t { s.tile t with evtOvf := (s.tile t).evtOvf &&& ~~~(v.truncate 8) }
  else if 0x110 ≤ off ∧ off < 0x130 then s.tilEvtSelWrite t ((off - 0x110) / 4) v
  else if t % 32 = 0 ∧ off = 0x6010 then
    s.setRegionSt (t / 32) { s.regionSt (t / 32) with ovf := (s.regionSt (t / 32)).ovf &&& ~~~(v.truncate 4) }
  else s

end Sys2Proof.Machine
end

