-- ==== Sys2Proof/Machine/Pools.lean ====
section
/-! DEFINITION. Buffer operations, shadow configuration, ticks of the policers, and the egress scheduler (R491-R520). -/

namespace Sys2Proof.Machine

/-- The buffer index that the pool gives: the one it picks when that one is free, else the least free one. -/
def State.bufIndex (s : State) (die q idx : Nat) : Nat :=
  let used (i : Nat) : Bool := s.pools.bufs.any (fun b => b.die == die && b.pool == q && b.index == i)
  if idx < s.poolCount die q ∧ !used idx then idx else s.leastBuf die q

/-- BUFFER_REQUEST (R494-R499): granted from the first pool that passes, joins the wait list, or is counted. -/
def State.bufferRequest (s : State) (die port unit cls size idx : Nat) : State :=
  if die > 1 ∨ cls > 7 ∨ size = 0 ∨ size > 2 ^ 23 then s
  else
    let home := homePool size
    match s.poolPick die home cls with
    | some q => s.poolGive die q (s.bufIndex die q idx) cls port unit home
    | none =>
      if classWaits die cls then
        let w : BufWait := { die := die, port := port, unit := unit, cls := cls, home := home }
        { s with pools := { s.pools with waits := s.pools.waits ++ [w] } }.bump (poolReg die home 0x28) (poolReg die home 0x34) 2
      else s.noGrant die size

def execBufferRequest (die port unit cls size idx : Nat) (s : State) : Host.Outcome State Fault Refusal :=
  .next (s.bufferRequest die port unit cls size idx)

/-- The granted buffer that a handle names (R501). -/
def State.bufAt (s : State) (h : Nat) : Option Buffer :=
  if h / 2 ^ 29 ≠ 0 then none
  else s.pools.bufs.find? (fun b => b.die == h / 2 ^ 28 % 2 && b.pool == h / 2 ^ 24 % 16 && b.index == h % 2 ^ 24)

def State.setBuf (s : State) (h : Nat) (f : Buffer → Buffer) : State :=
  { s with pools := { s.pools with bufs := s.pools.bufs.map (fun (b : Buffer) =>
      if b.die = h / 2 ^ 28 % 2 ∧ b.pool = h / 2 ^ 24 % 16 ∧ b.index = h % 2 ^ 24 then f b else b) } }

/-- A buffer operation is refused (R503): the buffer is unchanged, the refusal is recorded and counted. -/
def State.bufRefuse (s : State) (st : Status) (h port unit : Nat) : State :=
  let d := h / 2 ^ 28 % 2
  (s.bump (poolBase + d * 0x10000 + 0x10) (poolBase + d * 0x10000 + 0x14) 0).log st poolBase h (port + unit * 256)

/-- BUFFER_FREE (R502, R503). -/
def State.bufferFree (s : State) (h port unit : Nat) : State :=
  match s.bufAt h with
  | none => s.bufRefuse 0x0D04 h port unit
  | some b =>
    if b.port ≠ port ∨ b.unit ≠ unit then s.bufRefuse 0x0D01 h port unit
    else if b.holders.isEmpty then s.poolReturn b
    else s.setBuf h (fun b => { b with freePending := true })

def execBufferFree (h port unit : Nat) (s : State) : Host.Outcome State Fault Refusal := .next (s.bufferFree h port unit)

/-- The holders of a buffer with one reference less: the dropping unit's own, when it holds one. -/
def dropHolder (l : List (Nat × Nat)) (x : Nat × Nat) : List (Nat × Nat) := if l.contains x then l.erase x else l.drop 1

/-- BUFFER_DROP (R502, R503). -/
def State.bufferDrop (s : State) (h port unit : Nat) : State :=
  match s.bufAt h with
  | none => s.bufRefuse 0x0D04 h port unit
  | some b =>
    if b.holders.isEmpty then s.bufRefuse 0x0D03 h port unit
    else
      let left := dropHolder b.holders (port, unit)
      if left.isEmpty && b.freePending then s.poolReturn b else s.setBuf h (fun b => { b with holders := left })

def execBufferDrop (h port unit : Nat) (s : State) : Host.Outcome State Fault Refusal := .next (s.bufferDrop h port unit)

/-- BUFFER_SHARE (R502, R503): REFS rises by the number of new holders, 1 to 255. -/
def State.bufferShare (s : State) (h port unit : Nat) (new : List (Nat × Nat)) : State :=
  match s.bufAt h with
  | none => s.bufRefuse 0x0D04 h port unit
  | some b =>
    if b.holders.length + new.length > 255 then s.bufRefuse 0x0D02 h port unit
    else s.setBuf h (fun b => { b with holders := b.holders ++ new })

def execBufferShare (h port unit : Nat) (new : List (Nat × Nat)) (s : State) : Host.Outcome State Fault Refusal :=
  .next (s.bufferShare h port unit new)

/-- BUFFER_HANDOVER (R502, R503). -/
def State.bufferHandover (s : State) (h port unit newPort newUnit : Nat) : State :=
  match s.bufAt h with
  | none => s.bufRefuse 0x0D04 h port unit
  | some b =>
    if b.port ≠ port ∨ b.unit ≠ unit then s.bufRefuse 0x0D01 h port unit
    else s.setBuf h (fun b => { b with port := newPort, unit := newUnit })

def execBufferHandover (h port unit newPort newUnit : Nat) (s : State) : Host.Outcome State Fault Refusal :=
  .next (s.bufferHandover h port unit newPort newUnit)

/-- A configuration word of the POOL or EGS block (R516). -/
def isShadow (off : Nat) : Bool :=
  (decide (poolBase ≤ off ∧ off < poolBase + 0x100000) || decide (egsBase ≤ off ∧ off < egsBase + 0x100000)) &&
    (match findRow off with | some r => r.rw != 0 | none => false)

/-- A policer's configuration words are in range together (R519). -/
def policerOk (die : Nat) (cfg cir pir : Word) : Bool :=
  let en := fld cfg 0 1 == 1
  let two := fld cfg 1 1 == 1
  (!en || (decide (1 ≤ cir.toNat ∧ cir.toNat ≤ 800000) && (!two || decide (1 ≤ pir.toNat ∧ pir.toNat ≤ 800000)))) &&
    (!two || decide (cir.toNat ≤ pir.toNat)) && (fld cfg 2 1 == 0 || die == 1) && decide (fld cfg 3 2 < 3)

/-- A configuration value is in range (R517-R520). -/
def State.shadowOk (s : State) (off : Nat) (v : Word) : Bool :=
  if poolBase + 0x20000 ≤ off ∧ off < poolBase + 0x40000 then
    let o := off - (poolBase + 0x20000)
    let die := o / 0x10000
    let n := o % 0x10000 / 0x40
    let w (k : Nat) : Word := if o % 0x40 = k then v else s.reg (polReg die n k)
    let m (x : Word) : Word := BitVec.ofNat 32 (x.toNat % 2 ^ 20)
    policerOk die (w 0) (m (w 4)) (m (w 8))
  else if egsBase + 0x20000 ≤ off ∧ off < egsBase + 0x25000 then fld v 14 1 == 0 || fld v 12 2 != 0
  else if egsBase + 0x10000 ≤ off ∧ off < egsBase + 0x20000 then
    match off % 0x10 with
    | 0 => decide (1 ≤ fld v 0 11 ∧ fld v 0 11 ≤ 1024)
    | 4 => decide (fld v 0 20 ≤ 800000)
    | _ => decide (16 ≤ fld v 16 16)
  else if egsBase + 0x1000 ≤ off ∧ off < egsBase + 0x2000 ∧ off % 0x40 ≥ 0x10 then decide (fld v 0 20 ≤ 800000)
  else true

/-- CONFIG_SHADOW_WRITE (R516, R517): the value enters the shadow copy, or is refused. -/
def State.shadowWrite (s : State) (off : Nat) (v : Word) : State :=
  if !isShadow off then s
  else if !s.shadowOk off v then s.log 0x0101 (if off < egsBase then poolBase else egsBase) off v.toNat
  else
    let old := s.reg off
    let s := s.plainWrite off v
    if s.shadow.inForce.any (fun p => p.1 == off) then s
    else { s with shadow := { s.shadow with inForce := s.shadow.inForce ++ [(off, old)] } }

def execConfigShadowWrite (off : Nat) (v : Word) (s : State) : Host.Outcome State Fault Refusal :=
  .next (s.shadowWrite off v)

/-- A word of a die's pool layout. -/
def isLayout (die off : Nat) : Bool := decide (poolReg die 0 0 ≤ off ∧ off < poolReg die 16 0)

/-- The layout that the shadow copy holds for a die satisfies R492. -/
def State.layoutOk (s : State) (die : Nat) : Bool :=
  let count (i : Nat) : Nat := s.regFld (poolReg die i 0) 0 24
  let res (i k : Nat) : Nat := s.regFld (poolReg die i (0x10 + 4 * (k / 2))) (k % 2 * 16) 16
  decide ((List.range 16).foldl (fun a i => a + count i * poolSize i) 0 ≤ poolArea die) &&
    (List.range 16).all (fun i =>
      decide ((List.range 8).foldl (fun a k => a + res i k) 0 ≤ count i) &&
        decide (s.regFld (poolReg die i 8) 0 16 < s.regFld (poolReg die i 8) 16 16))

/-- A layout that breaks R492 is not applied (R493). -/
def State.checkLayout (s : State) (die : Nat) : State :=
  let mine := s.shadow.inForce.filter (fun (p : Nat × Word) => isLayout die p.1)
  if mine.isEmpty || s.layoutOk die then s
  else
    let s := mine.foldl (fun s (p : Nat × Word) => s.setReg p.1 p.2) s
    s.log 0x0D05 poolBase die

/-- CONFIG_TICK (R493, R512, R516): every pending field is applied together; a newly enabled policer starts full. -/
def State.configTick (s : State) : State :=
  let old := s
  let s := (s.checkLayout 0).checkLayout 1
  let s := { s with shadow := { s.shadow with inForce := [] } }
  let s := { s with shadow := { s.shadow with policers := s.shadow.policers.filter (fun (p : Policer) =>
    old.cfgFld (polReg p.die p.n 0) 0 1 == 1 && s.regFld (polReg p.die p.n 0) 0 1 == 1) } }
  (List.range 2).foldl (fun s d => (List.range 16).foldl (fun s i => s.poolWarn d i) s) s

def execConfigTick (s : State) : Host.Outcome State Fault Refusal := .next s.configTick

/-- One policer's clamp and refill (R512, R515). -/
def State.refillOne (s : State) (p : Policer) : Policer :=
  let c := s.cfg (polReg p.die p.n 0)
  if fld c 0 1 = 0 then p
  else
    let r := refill (fld c 1 1 == 1) (s.cfgFld (polReg p.die p.n 4) 0 20) (s.cfgFld (polReg p.die p.n 8) 0 20)
      (8 * s.cfgFld (polReg p.die p.n 0xC) 0 24) (8 * s.cfgFld (polReg p.die p.n 0x10) 0 24) p.tc p.te
    { p with tc := r.1, te := r.2 }

/-- A held command is metered again, by the policer that holds it (R514); past it, it goes on. -/
def State.remeter (s : State) (x : Cmd × Nat × Nat) : State :=
  let r := s.police 0 x.2.1 (8 * x.1.entry.dataLen) .green
  let s := r.2
  if s.polAct 0 x.2.1 r.1 = .stop then s
  else
    let s := { s with yqi := { s.yqi with policed := s.yqi.policed.erase x } }
    if x.2.2 = 0 then
      match s.policeCmd x.1 1 with
      | (some (n, st), s) => { s with yqi := { s.yqi with policed := s.yqi.policed ++ [(x.1, n, st)] } }
      | (none, s) => s.takeIn x.1
    else s.takeIn x.1

/-- POLICER_TICK (R512, R514, R515). -/
def State.policerTick (s : State) : State :=
  let s := { s with shadow := { s.shadow with policers := s.shadow.policers.map s.refillOne } }
  s.yqi.policed.foldl (fun s x => s.remeter x) s

def execPolicerTick (s : State) : Host.Outcome State Fault Refusal := .next s.policerTick

/-- EGRESS_SELECT (R505, R507-R510): a free port that is up sends the next frame; fragments that waited for room follow. -/
def State.egressSelect (s : State) (port : Nat) : State :=
  if !s.portUp port || s.netFenced || s.power.tripAt.isSome || s.clockDown 50 then s
  else match s.nextQueue port with
    | none => s
    | some i => (s.sendHead i).pump

def execEgressSelect (port : Nat) (s : State) : Host.Outcome State Fault Refusal := .next (s.egressSelect port)

/-- CALENDAR_SLOT (R509): the earliest slot that holds a queue begins; queues placed in the slot that has begun become eligible, or are placed again. -/
def State.calendarTick (s : State) : State :=
  let slots := s.egress.insts.filterMap (fun (i : QueueInst) => i.slot)
  let s := match slots with
    | [] => s
    | k :: ks => s.advance (ks.foldl min k * 64)
  let one (i : QueueInst) : QueueInst := match i.slot with
    | some k => if k ≤ s.now / 64 then { i with slot := calendarSlot s.now i.eligAt } else i
    | none => i
  { s with egress := { s.egress with insts := s.egress.insts.map one } }

def execCalendarSlot (s : State) : Host.Outcome State Fault Refusal := .next s.calendarTick

/-- The POOL and EGS words that show state held elsewhere (R518, R520). -/
def viewNet (s : State) (off : Nat) : Option Word :=
  let w (n : Nat) : Option Word := some (BitVec.ofNat 32 n)
  if poolBase ≤ off ∧ off < poolBase + 0x20000 then
    let die := (off - poolBase) / 0x10000
    let o := (off - poolBase) % 0x10000
    if o = 0 then some (packFields [(0, 16), (16, poolArea die / 2 ^ 20)])
    else if 0x100 ≤ o ∧ o < 0x500 then
      let i := (o - 0x100) / 0x40
      if o % 0x40 = 4 then w (s.poolFree die i)
      else if o % 0x40 = 0xC then
        some (packFields [(0, bitOf (s.pools.warn.contains (die, i))), (1, bitOf (decide (s.poolGranted die i > s.poolCount die i)))])
      else none
    else none
  else if off = egsBase then some (packFields [(0, 4096), (16, 4)])
  else if egsBase + 0x1000 ≤ off ∧ off < egsBase + 0x2000 then
    let p := (off - egsBase - 0x1000) / 0x40
    match off % 0x40 with
    | 4 => w (s.vtime p)
    | 8 => w (s.vtime p / 2 ^ 32)
    | 0xC => w (s.portBacklog p / 1024)
    | _ => none
  else none

/-- Bus writes of the POOL and EGS blocks: configuration goes to the shadow copy. -/
def writeNet (s : State) (off : Nat) (v : Word) : Option State := if isShadow off then some (s.shadowWrite off v) else none

end Sys2Proof.Machine
end

