-- ==== Sys2Proof/Machine/TextGen.lean ====
section
/-! DEFINITION. The commands of the text block: lane faults and generation (R248-R250, R271-R285). -/

namespace Sys2Proof.Machine

def State.genAt (s : State) (lane idx : Nat) : Option GenCtx := s.text.gens.find? (fun g => g.lane == lane && g.idx == idx)

def State.setGens (s : State) (l : List GenCtx) : State := { s with text := { s.text with gens := l } }

def State.vocabOf (s : State) (slot : Nat) : Option Vocab := s.text.vocabs.find? (fun v => v.slot == slot)

def State.grammarOf (s : State) (digest : Nat) : Option Grammar := s.text.grammars.find? (fun g => g.digest == digest)

/-- Bytes written to a run's space by an agent outside its tiles. -/
def State.agentWrite (s : State) (slot addr : Nat) (b : List Byte) : State :=
  (s.fillRange slot addr b.length true (b.length / 65536 + 2)).vWrite slot addr b

def GenCtx.slotOf (g : GenCtx) : Nat := match g.owner with | .run slot => slot | _ => 64

/-- EF BF BD (R274). -/
def replacement : List Byte := [0xEF, 0xBF, 0xBD]

/-- The text of scanned items: invalid bytes replaced (R274). -/
def itemText : TextItem → List Byte
  | .char _ b => b
  | .bad _ => replacement

/-- Whole characters of a text that fit in `n` bytes (R277). -/
def wholeChars (n : Nat) (text : List Byte) : List Byte :=
  let items := scanField text
  (items.foldl (fun (a : List Byte × Bool) i =>
    if a.2 && decide (a.1.length + (itemText i).length ≤ n) then (a.1 ++ itemText i, true) else (a.1, false)) ([], true)).1

/-- Text leaves a context for its output buffer. -/
def State.genRelease (s : State) (g : GenCtx) (text : List Byte) : GenCtx × State :=
  let t := wholeChars (g.outCap - g.released) text
  let t := if text.length ≤ g.outCap - g.released then text else t
  ({ g with released := g.released + t.length }, s.agentWrite g.slotOf (g.outAddr + g.released) t)

/-- The mailbox after a step (R273): at +0x10 1 CONTINUE or 2 END, at +0x14 the end reason; then the lane signals the
run's counter. -/
def State.genSignal (s : State) (g : GenCtx) (code reason : Nat) : State :=
  let s := s.agentWrite g.slotOf (g.mailboxAddr + 0x10) (leBytes 4 code ++ leBytes 4 reason)
  match s.runAt g.slotOf with
  | some r => (match s.runCounter r g.runCounter with
    | some n => (s.counterAdd n 1 (sigLane g.lane) s.deviceId 0xFFFF).2
    | none => s)
  | none => s

/-- A request ends (R282): its completion is written after the output buffer, the context closes, and it is counted. -/
def State.genEnd (s : State) (g : GenCtx) (st : Status) (reason stop : Nat) : State :=
  let acc := match s.grammarOf g.grammar with
    | some gr => (match gr.states[g.state]? with | some (_, a, _) => a | none => false)
    | none => false
  let (q, s) := s.issueSeq
  let b := leBytes 2 st.toNat ++ leBytes 1 reason ++ leBytes 1 (bitOf acc + 2 * stop) ++ leBytes 4 g.tokens ++
    leBytes 4 g.released ++ leBytes 4 (if g.grammar = 0 then 0 else g.state) ++ leBytes 8 g.request ++ leBytes 8 q
  let s := s.agentWrite g.slotOf (g.outAddr + g.outCap) b
  let s := s.setGens (s.text.gens.filter (fun x => !(x.lane == g.lane && x.idx == g.idx)))
  let s := s.bump (tokBase + 0x24) (tokBase + 0x3C) 1
  let s := if st = 0x0606 ∨ st = 0x0607 then s.bump (tokBase + 0x38) (tokBase + 0x3C) 6 else s
  s.genSignal g 2 reason

/-- A hardware fault of a lane (R250): out of service, logged, and its generation contexts end with 0x060A. A field on
it restarts elsewhere, which changes no forme bit. -/
def State.laneFault (s : State) (lane : Nat) : State :=
  if decide (lane < 64) && !s.text.oos.getLsbD lane then
    let s := { (s.log 0x060A tokBase lane) with text := { s.text with oos := setBit s.text.oos lane true } }
    (s.text.gens.filter (fun g => g.lane == lane)).foldl (fun s g => s.genEnd g 0x060A 0 0) s
  else s

def execLaneFault (lane : Nat) (s : State) : Host.Outcome State Fault Refusal := .next (s.laneFault lane)

/-- LANE_NO_PROGRESS (R250): 10 ms without progress while holding work is the same fault. -/
def execLaneNoProgress (lane : Nat) (s : State) : Host.Outcome State Fault Refusal := .next (s.laneFault lane)

/-- The stop table of a request. -/
def stopTable (b : List Byte) : List (List Byte) :=
  (List.range (leField b 0x20 2)).map (fun i => slice b (0x44 + 68 * i) (leField b (0x40 + 68 * i) 4))

def genPrompt (b : List Byte) : List Byte := slice b (0x40 + 68 * leField b 0x20 2) (leField b 0x24 4)

/-- Prompt token IDs of a PROMPT_IS_TOKENS request. -/
def promptIds (b : List Byte) : List Nat :=
  (List.range ((genPrompt b).length / 4)).map (fun i => leField (genPrompt b) (4 * i) 4)

/-- The checks of R272. -/
def State.genOk (s : State) (b : List Byte) : Bool :=
  let fl := leField b 7 1
  let stops := leField b 0x20 2
  let len := leField b 0x24 4
  let vo := s.vocabOf (leField b 6 1)
  leField b 0 4 == 0x47454E52 && leField b 4 2 == 1 && decide (leField b 6 1 < 16) && decide (fl < 8) &&
    decide (1 ≤ leField b 0x18 4 ∧ leField b 0x18 4 ≤ 65536) && decide (64 ≤ leField b 0x1C 4 ∧ leField b 0x1C 4 ≤ 2 ^ 24) &&
    decide (stops ≤ 16) && leField b 0x22 2 == 0 && decide (len ≤ 2 ^ 24) && zerosAt b 0x28 0x18 &&
    b.length == 0x40 + 68 * stops + len &&
    (List.range stops).all (fun i =>
      let n := leField b (0x40 + 68 * i) 4
      decide (1 ≤ n ∧ n ≤ 64) && zerosAt b (0x44 + 68 * i + n) (64 - n)) &&
    (match vo with
     | none => false
     | some v =>
      (leField b 0x10 8 == 0 || (match s.grammarOf (leField b 0x10 8) with
        | some g => g.vocabDigest == v.digest
        | none => false)) &&
      (!fl.testBit 2 || (len % 4 == 0 && (promptIds b).all (fun t => decide (t < v.tokens.length)))))

/-- A lane in service with a free context, and the context (R272). -/
def State.freeGen (s : State) : Option (Nat × Nat) :=
  ((List.range 64).filter (fun l => !s.text.oos.getLsbD l && !s.unitHeld 4 7 l)).findSome? (fun l =>
    ((List.range 16).find? (fun i => (s.genAt l i).isNone)).map (fun i => (l, i)))

/-- The request a stage run's stream takes (R107, R108): the given one, or a replayed stream's record of that number. -/
def State.genInput (s : State) (c : Nat) (x : StreamCtx) (plate : Nat) (b : List Byte) : Option (List Byte) × State :=
  if !x.params.replay then (some b, s)
  else
    let t := s.replayRecords x
    match t.1.find? (fun r => r.type == 4 && r.key == leField b 8 8) with
    | some r => if r.crcOk then (some r.payload, s) else (none, s.haltStream c 0x040C (x.firstUnfinished plate))
    | none => (none, s.haltStream c (if t.2 then 0x0408 else 0x040C) (x.firstUnfinished plate))

/-- An admitted request's context (R271, R273): its prompt is tokenised, and the mask of state 0 is written (R280). -/
def State.genStart (s : State) (p : ReqPath) (b : List Byte) (a : GenBuffers) (lane idx : Nat) (v : Vocab) : State :=
  let fl := leField b 7 1
  let spec : TextSpec := { vocab := v.digest, strict := false, addBos := fl.testBit 1, addEos := false }
  let tk := tokenise v spec (genPrompt b)
  let text := (tk.1.flatMap (fun e => match e with | .emit ids => ids | _ => []))
  let ids := if fl.testBit 2 then (if fl.testBit 1 then [v.bos] else []) ++ promptIds b else text
  let s := if fl.testBit 2 then s
    else (s.vocabLookups.bumpBy (tokBase + 0x30) (tokBase + 0x3C) 4 tk.2.1).bumpBy (tokBase + 0x34) (tokBase + 0x3C) 5 tk.2.2
  let g : GenCtx := {
    lane := lane, idx := idx, owner := p, vocab := v.slot, request := leField b 8 8, grammar := leField b 0x10 8,
    maxTokens := leField b 0x18 4, outCap := leField b 0x1C 4, includeStop := fl.testBit 0, addBos := fl.testBit 1,
    stops := stopTable b, prompt := ids, outAddr := a.outAddr, mailboxAddr := a.mailbox, maskAddr := a.mask,
    runCounter := a.counter }
  let s := s.setGens (s.text.gens ++ [g])
  let s := match s.grammarOf g.grammar with
    | some gr => s.agentWrite g.slotOf g.maskAddr (grammarMask gr v.eos 0)
    | none => s
  s.replyData p 0 0 [lane * 16 + idx] (ids.flatMap (leBytes 4))

/-- GEN_OPEN (R272): refused on the opener's path, or a context on a lane. A stage run's request is witnessed first. -/
def State.genOpen (s : State) (p : ReqPath) (b : List Byte) (a : GenBuffers) : State :=
  let slot := match p with | .run k => k | _ => 64
  match s.runAt slot with
  | none => s
  | some r =>
    if r.state ≠ RunState.running then s
    else
      let src : Option (List Byte) × State := match r.stage.bind (fun c => (s.ctxOf c).map (fun x => (c, x))) with
        | some (c, x) => s.genInput c x r.plate b
        | none => (some b, s)
      match src with
      | (none, s) => s
      | (some b, s) =>
        if !s.genOk b then s.reply p 0x0608
        else match s.freeGen, s.vocabOf (leField b 6 1) with
          | some (l, i), some v =>
            let w := match r.stage with
              | some c => s.witnessAppend c 4 (leField b 8 8) b
              | none => (true, s)
            (match w with
             | (false, s) => s.reply p 0x040B
             | (true, s) => s.genStart p b a l i v)
          | _, _ => s.reply p 0x0609

def execGenOpen (p : ReqPath) (req : List Byte) (b : GenBuffers) (s : State) : Host.Outcome State Fault Refusal :=
  .next (s.genOpen p req b)

/-- The first U+0020 of the output is dropped with PREFIX_SPACE when no other well-formed character precedes it (R274).
Answers the items kept, and whether a well-formed character has been met. -/
def dropSpace (on : Bool) : List TextItem → Bool → List TextItem × Bool
  | [], seen => ([], seen)
  | .bad b :: is, seen =>
    let t := dropSpace on is seen
    (.bad b :: t.1, t.2)
  | .char cp b :: is, seen =>
    let t := dropSpace on is true
    (if on && !seen && cp == 0x20 then t.1 else .char cp b :: t.1, t.2)

/-- A token's bytes enter the text (R274). -/
def GenCtx.take (g : GenCtx) (v : Vocab) (token : Nat) : GenCtx :=
  let bs := g.carry ++ tokenBytes v token
  let r := scanPart (bs.length + 1) bs
  let d := dropSpace (v.flags.testBit 2) r.1 g.seenChar
  { g with carry := r.2, held := g.held ++ d.1.flatMap itemText, seenChar := d.2 }

/-- The text part of a step (R275-R277): a stop string ends the request; otherwise text is released, and the request
goes on or ends. -/
def State.genText (s : State) (g : GenCtx) (v : Vocab) (token : Nat) : State :=
  let g := g.take v token
  match findStop g.stops g.held with
  | some (e, n, i) =>
    let r := s.genRelease g (g.held.take (if g.includeStop then e else e - n))
    r.2.genEnd r.1 0 2 i
  | none =>
    let keep := heldSuffix g.stops g.held
    let out := g.held.take (g.held.length - keep)
    let all := g.held ++ g.carry.flatMap (fun _ => replacement)
    if token = v.eos ∧ v.eos ≠ 0xFFFFFFFF then
      let r := s.genRelease g all
      r.2.genEnd r.1 0 1 0
    else if g.released + out.length > g.outCap then
      let r := s.genRelease g out
      r.2.genEnd r.1 0 3 0
    else if g.tokens ≥ g.maxTokens then
      let r := s.genRelease g all
      r.2.genEnd r.1 0 (if g.released + all.length > g.outCap then 3 else 4) 0
    else
      let r := s.genRelease g out
      let g := { r.1 with held := g.held.drop (g.held.length - keep) }
      let s := r.2.setGens (r.2.text.gens.map (fun (x : GenCtx) => if x.lane = g.lane ∧ x.idx = g.idx then g else x))
      let s := match s.grammarOf g.grammar with
        | some gr => s.agentWrite g.slotOf g.maskAddr (grammarMask gr v.eos g.state)
        | none => s
      s.genSignal g 1 0

/-- GEN_STEP (R273, R280): the grammar is checked and its state advances; a violation ends the request. -/
def State.genStep (s : State) (lane idx token : Nat) : State :=
  match s.genAt lane idx with
  | none => s
  | some g =>
    match s.vocabOf g.vocab with
    | none => s
    | some v =>
      let g := { g with tokens := g.tokens + 1 }
      match s.grammarOf g.grammar with
      | none => s.vocabLookups.genText g v token
      | some gr =>
        match grammarStep gr v.eos g.state token with
        | .error st => s.vocabLookups.genEnd g st 0 0
        | .ok q => s.vocabLookups.genText { g with state := q } v token

def execGenStep (lane idx token : Nat) (s : State) : Host.Outcome State Fault Refusal := .next (s.genStep lane idx token)

/-- A vocabulary is used by an open stream or a generation context (R285). -/
def State.vocabInUse (s : State) (v : Vocab) : Bool :=
  s.text.gens.any (fun g => g.vocab == v.slot) ||
    s.streamEng.ctxs.any (fun x => x.2.graph.fields.any (fun f => match f.text with | some t => t.vocab == v.digest | none => false))

/-- The TOK block's computed words (R284, R285). -/
def viewTok (s : State) (off : Nat) : Option Word :=
  let w (n : Nat) : Option Word := some (BitVec.ofNat 32 n)
  if off = tokBase then w (64 + 16 * 2 ^ 8 + 64 * 2 ^ 16 + 16 * 2 ^ 24)
  else if off = tokBase + 8 then w s.text.oos.toNat
  else if off = tokBase + 0xC then w (s.text.oos.toNat / 2 ^ 32)
  else if off = tokBase + 0x10 then w s.text.gens.length
  else if off = tokBase + 0x40 then
    w (s.text.grammars.length + ((s.text.grammars.foldl (fun a g => a + g.bytes) 0) + 2 ^ 20 - 1) / 2 ^ 20 * 2 ^ 7)
  else if tokBase + 0x1000 ≤ off ∧ off < tokBase + 0x1100 then
    match s.vocabOf ((off - tokBase - 0x1000) / 0x10) with
    | none => w 0
    | some v =>
      (match off % 0x10 with
       | 0 => w (1 + 2 * bitOf (s.vocabInUse v) + 4 * v.model)
       | 4 => w v.tokens.length
       | 8 => w v.kib
       | _ => w 0)
  else none

end Sys2Proof.Machine
end

