-- ==== Sys2Proof/Machine/YqiAdmin.lean ====
section
/-! DEFINITION. The admin commands of the queue interface: Identify, log pages, features, and the configuration image's
download and commit (R405, R406, R417, R424-R429, R593-R597). -/

namespace Sys2Proof.Machine

/-- A request of a virtual function (R404). -/
def isVf (p : ReqPath) : Bool := match p with | .yqi fn _ _ => fn % 32 != 0 | _ => false

/-- The function of a request, when it has one of the device's. -/
def State.fnOf (s : State) (p : ReqPath) : Option Fn := s.fnAt (pathFn p)

/-- Identify CNS 0 (R425). -/
def State.identifyDevice (s : State) (p : ReqPath) : List Byte :=
  let f := (s.fnOf p).getD { g := pathFn p }
  let k := s.linkOf f.g
  let m := s.fuses.regionMask.toNat
  leBytes 4 (s.fuses.stepping.toNat + s.fuses.part.toNat * 256 + s.fuses.lid.toNat * 2 ^ 24) ++
    leBytes 2 (m / 2 ^ 32) ++ leBytes 2 0 ++ leBytes 4 m ++ leBytes 4 s.deviceId ++ leBytes 8 (4 * s.media.userCap) ++
    leBytes 2 s.media.image.ns.length ++ leBytes 1 s.media.state.code ++ leBytes 1 f.g ++ leBytes 2 f.queues ++
    leBytes 2 f.vectors ++ leBytes 2 (k.speed % 256 + k.width % 256 * 256) ++ leBytes 2 (bitOf k.flit)

/-- Identify CNS 1 (R425). -/
def State.identifyNs (s : State) (x : NsInfo) : List Byte :=
  leBytes 8 (4 * x.cap) ++
    leBytes 4 (bitOf x.isSealed + 2 * bitOf s.media.health.worn + 4 * bitOf (s.streamWitness x.id))

/-- Identify CNS 2 (R425). The spec gives no offsets: QUEUES at 0, VECTORS at 2, the bitmap at 0x10 (log entry 60). -/
def identifyFn (f : Fn) : List Byte :=
  leBytes 2 f.queues ++ leBytes 2 f.vectors ++ leBytes 12 0 ++ leBytes 32 f.nsVis.toNat

/-- IDENTIFY (R424, R425). -/
def State.identify (s : State) (p : ReqPath) (cns nsid : Nat) : State :=
  match cns with
  | 0 => s.replyData p 0 0 [0] (slice (s.identifyDevice p) 0 4096)
  | 1 => match s.nsSeen nsid with
    | some x => if s.nsVisible (pathFn p) nsid then s.replyData p 0 0 [0] (slice (s.identifyNs x) 0 4096)
      else s.reply p 0x0302
    | none => s.reply p 0x0302
  | 2 => s.replyData p 0 0 [0] (slice (identifyFn ((s.fnOf p).getD { g := pathFn p })) 0 4096)
  | _ => s.reply p 0x0101

def execIdentify (p : ReqPath) (cns nsid : Nat) (s : State) : Host.Outcome State Fault Refusal :=
  .next (s.identify p cns nsid)

/-- An error-log entry as bytes (R429). -/
def logBytes (e : LogEntry) : List Byte :=
  leBytes 8 e.seq ++ leBytes 2 e.status.toNat ++ leBytes 2 e.detail ++ leBytes 2 e.fn ++ leBytes 2 e.sqId ++ leBytes 2 e.cid ++
    leBytes 2 e.resumeHead ++ leBytes 1 e.opcode ++ leBytes 1 (bitOf e.froze + 2 * bitOf e.admin) ++ leBytes 2 e.block ++
    leBytes 4 e.nsid ++ leBytes 4 0 ++ leBytes 8 e.info0 ++ leBytes 8 e.info1 ++ leBytes 8 e.info2 ++ leBytes 8 0

/-- The header of log page 0x01 (R429). -/
def ErrorLog.header (l : ErrorLog) : List Byte :=
  leBytes 4 0x45524C47 ++ leBytes 2 1 ++ leBytes 2 0 ++ leBytes 8 l.next ++ leBytes 4 l.entries.length ++ leBytes 4 l.lost ++
    leBytes 8 ((l.entries.head?.map (fun (e : LogEntry) => e.seq)).getD 0) ++
    leBytes 8 ((l.entries.getLast?.map (fun (e : LogEntry) => e.seq)).getD 0) ++ leBytes 24 0

/-- Slot j of the ring: entry k lies in slot k mod 4,096; an unwritten slot, and to a virtual function another's, reads as
zeros (R429). -/
def ErrorLog.slot (l : ErrorLog) (vf : Option Nat) (j : Nat) : List Byte :=
  let first := (l.next - l.entries.length) % 4096
  match l.entries[(j + 4096 - first) % 4096]? with
  | some e => if (match vf with | some fn => e.fn == fn | none => true) then logBytes e else leBytes 64 0
  | none => leBytes 64 0

/-- `len` bytes of log page 0x01 from an offset that is a multiple of 64. -/
def ErrorLog.page (l : ErrorLog) (vf : Option Nat) (off len : Nat) : List Byte :=
  ((List.range ((len + 63) / 64)).flatMap (fun i =>
    let j := off / 64 + i
    if j = 0 then l.header else l.slot vf (j - 1))).take len

/-- Percent of P − U still spare (R161). -/
def State.spareLeft (s : State) : Nat :=
  let whole := (s.dataUnits : Int) - (s.media.userCap : Int)
  if whole ≤ 0 ∨ s.spareUnits ≤ 0 then 0 else (min 100 (s.spareUnits * 100 / whole)).toNat

/-- The media health log (R161). -/
def State.healthBytes (s : State) : List Byte :=
  let h := s.media.health
  let c (i : Nat) : Nat := h.ctr.getD i 0
  let temp (t : Int) : List Byte := leBytes 2 (t % 65536).toNat
  let crit := bitOf h.spareLow + 2 * bitOf h.worn + 4 * bitOf h.lgIncomplete + 8 * bitOf h.hot + 16 * bitOf h.olderAnchor
  slice (leBytes 1 crit ++ leBytes 1 s.spareLeft ++ leBytes 1 s.wearUsed ++ leBytes 1 0 ++
    leBytes 4 h.targetsExcluded ++ (List.range 9).flatMap (fun i => leBytes 8 (c i)) ++
    leBytes 4 (c 9) ++ leBytes 4 (c 10) ++ leBytes 4 (c 11) ++ leBytes 4 h.factoryBad ++ leBytes 4 (c 12) ++ leBytes 4 (c 13) ++
    leBytes 4 (c 14) ++ leBytes 4 0 ++ leBytes 8 (c 15) ++ temp h.tempNow ++ temp h.tempMax ++ temp h.tempMin ++ leBytes 2 0 ++
    (List.range 8).flatMap (fun i => leBytes 4 (c (16 + i))) ++ leBytes 8 h.evt) 0 512

/-- Log page 0x04 (R426): version, state and signer key ID of both copies and the active copy. The layout is the model's
(log entry 60): per copy 16 bytes, u16 VERSION, u16 status, u32 0, u64 KEY_ID; then u8 active copy, u8 LOADED. -/
def State.configPage (s : State) : List Byte :=
  let one (b : List Byte) (st : Status) : List Byte :=
    slice b 4 2 ++ leBytes 2 st.toNat ++ leBytes 4 0 ++ slice b 0x18 8
  slice (one s.flash.copyA s.boot.statusA ++ one s.flash.copyB s.boot.statusB ++ leBytes 1 (bitOf s.boot.activeB) ++
    leBytes 1 (bitOf s.boot.loaded)) 0 64

/-- Log page 0x05 (R426): the action, the last completed target as its target-major index, the usable targets. The layout is the model's
(log entry 60): u32 each; with no target completed the second reads 0xFFFF_FFFF. -/
def State.sanitizePage (s : State) : List Byte :=
  let j := s.media.sanitize.getD { action := 0 }
  slice (leBytes 4 j.action ++ leBytes 4 (j.last.getD 0xFFFFFFFF) ++
    leBytes 4 s.media.usable.length) 0 64

/-- Bytes of a page from an offset, at most to its end. -/
def pagePart (b : List Byte) (off len : Nat) : List Byte := (b.drop off).take len

/-- GET_LOG (R426, R429, R161): RESULT is the bytes returned. Reading page 0x02 clears CRITICAL bit 2. -/
def State.getLog (s : State) (p : ReqPath) (page off len : Nat) : State :=
  let give (s : State) (b : List Byte) : State := s.replyData p 0 0 [b.length] b
  if off % 64 ≠ 0 then s.reply p 0x0101
  else if isVf p && decide (page ≠ 1 ∧ page ≠ 2) then s.reply p 0x0101
  else match page with
    | 1 =>
      let size := 64 + 64 * 4096
      give s (s.errlog.page (if isVf p then some (pathFn p) else none) off (min len (size - off)))
    | 2 =>
      give { s with media := { s.media with health := { s.media.health with lgIncomplete := false } } }
        (pagePart s.healthBytes off len)
    | 3 => give s (memRead s.obs.mem off (min len (s.obs.pages * 2 ^ 21 - off)))
    | 4 => give s (pagePart s.configPage off len)
    | 5 => give s (pagePart s.sanitizePage off len)
    | _ => s.reply p 0x0101

def execGetLog (p : ReqPath) (page off len : Nat) (s : State) : Host.Outcome State Fault Refusal :=
  .next (s.getLog p page off len)

/-- The VF that a physical function's selector names (R404). -/
def vfOf (p : ReqPath) (sel : Nat) : Nat := pathFn p / 32 * 32 + sel

/-- The coalescing record of a vector (R417). -/
def Fn.coal (f : Fn) (v : Nat) : Coalesce := (f.coalesce.find? (fun c => c.vector == v)).getD { vector := v }

/-- GET_FEATURE (R424, R427). The value encodings are the model's where the spec gives none (log entry 60); the value of
NAMESPACE is free. -/
def State.getFeature (s : State) (p : ReqPath) (id sel : Nat) : State :=
  let f := (s.fnOf p).getD { g := pathFn p }
  if isVf p && decide (3 ≤ id ∧ id ≤ 6) then s.reply p 0x0102
  else match id with
    | 1 => s.reply p 0 0 [f.burst]
    | 2 =>
      if sel ≥ f.vectors then s.reply p 0x0101
      else s.reply p 0 0 [(f.coal sel).threshold + (f.coal sel).time * 2 ^ 16]
    | 3 =>
      if sel = 0 ∨ sel > 31 then s.reply p 0x0101
      else
        let v := (s.fnAt (vfOf p sel)).getD { g := vfOf p sel }
        s.reply p 0 0 [v.queues + v.vectors * 2 ^ 16]
    | 4 =>
      let (k, s) := s.takeFree
      s.reply p 0 0 [(Config.freeWord k).toNat]
    | 5 =>
      if sel = 0 ∨ sel > 31 then s.reply p 0x0101
      else s.replyData p 0 0 [0] (leBytes 32 ((s.fnAt (vfOf p sel)).getD { g := vfOf p sel }).nsVis.toNat)
    | 6 =>
      let l := s.media.nextLayout.getD s.media.layout
      s.reply p 0 0 [l.cell + l.opHalf * 2 ^ 16]
    | _ => s.reply p 0x0101

def execGetFeature (p : ReqPath) (id sel : Nat) (s : State) : Host.Outcome State Fault Refusal :=
  .next (s.getFeature p id sel)

/-- SET_ARBITRATION (R427): BURST, 1 to 64. -/
def State.setArbitration (s : State) (p : ReqPath) (burst : Nat) : State :=
  if burst = 0 ∨ burst > 64 then s.reply p 0x0101
  else (s.setFn (pathFn p) (fun f => { f with burst := burst })).reply p 0 0 [0]

def execSetArbitration (p : ReqPath) (burst : Nat) (s : State) : Host.Outcome State Fault Refusal :=
  .next (s.setArbitration p burst)

/-- SET_COALESCING (R417): THRESHOLD 1 to 256, TIME 0 to 255 µs. -/
def State.setCoalescing (s : State) (p : ReqPath) (v threshold time : Nat) : State :=
  let f := (s.fnOf p).getD { g := pathFn p }
  if decide (v ≥ f.vectors) || decide (threshold = 0 ∨ threshold > 256) || decide (time > 255) then s.reply p 0x0101
  else
    let c := { f.coal v with threshold := threshold, time := time }
    (s.setFn (pathFn p) (fun f => { f with coalesce := f.coalesce.filter (fun x => x.vector != v) ++ [c] })).reply p 0 0 [0]

def execSetCoalescing (p : ReqPath) (v threshold time : Nat) (s : State) : Host.Outcome State Fault Refusal :=
  .next (s.setCoalescing p v threshold time)

/-- A function record exists; one not listed holds nothing. -/
def State.ensureFn (s : State) (g : Nat) : State :=
  if (s.fnAt g).isSome then s else { s with yqi := { s.yqi with fns := s.yqi.fns ++ [{ g := g }] } }

/-- SET_VF_RESOURCES (R405): pairs and vectors move between the physical function's own holding and the VF's, only while
VF Enable is 0. -/
def State.setVfResources (s : State) (p : ReqPath) (vf queues vectors : Nat) : State :=
  match s.fnOf p with
  | none => s.reply p 0x0101
  | some f =>
    if isVf p then s.reply p 0x0102
    else if decide (vf = 0 ∨ vf > 31) || f.vfEnabled != 0 then s.reply p 0x0101
    else
      let g := vfOf p vf
      let v := (s.fnAt g).getD { g := g }
      let q := f.queues + v.queues
      let n := f.vectors + v.vectors
      if queues > q ∨ vectors > n then s.reply p 0x0101
      else
        let s := s.ensureFn g
        let s := s.setFn g (fun x => { x with queues := queues, vectors := vectors })
        (s.setFn f.g (fun x => { x with queues := q - queues, vectors := n - vectors })).reply p 0 0 [0]

def execSetVfResources (p : ReqPath) (vf queues vectors : Nat) (s : State) : Host.Outcome State Fault Refusal :=
  .next (s.setVfResources p vf queues vectors)

/-- SET_NS_VISIBILITY (R406). -/
def State.setNsVisibility (s : State) (p : ReqPath) (vf : Nat) (map : BitVec 256) : State :=
  if isVf p then s.reply p 0x0102
  else if vf = 0 ∨ vf > 31 then s.reply p 0x0101
  else ((s.ensureFn (vfOf p vf)).setFn (vfOf p vf) (fun x => { x with nsVis := map })).reply p 0 0 [0]

def execSetNsVisibility (p : ReqPath) (vf : Nat) (map : BitVec 256) (s : State) : Host.Outcome State Fault Refusal :=
  .next (s.setNsVisibility p vf map)

/-- SET_MEDIA_LAYOUT (R114, R122, R569): the cell mode and over-provisioning that the next FORMAT applies. -/
def State.setMediaLayout (s : State) (p : ReqPath) (cell opHalf : Nat) : State :=
  if isVf p then s.reply p 0x0102
  else if s.quoinSet 15 then s.reply p 0x0F01
  else if decide (cell = 0 ∨ cell > 2) || decide (opHalf < 14 ∨ opHalf > 100) then s.reply p 0x0101
  else { s with media := { s.media with nextLayout := some { cell := cell, opHalf := opHalf } } }.reply p 0 0 [0]

def execSetMediaLayout (p : ReqPath) (cell opHalf : Nat) (s : State) : Host.Outcome State Fault Refusal :=
  .next (s.setMediaLayout p cell opHalf)

/-- FIRMWARE_DOWNLOAD (R428): a chunk enters the 256 MiB staging buffer. -/
def State.firmwareDownload (s : State) (p : ReqPath) (off : Nat) (chunk : List Byte) : State :=
  if off % 4096 ≠ 0 ∨ chunk.length % 4096 ≠ 0 ∨ off + chunk.length > 2 ^ 28 then s.reply p 0x0101
  else { s with yqi := { s.yqi with staging := memWrite s.yqi.staging off chunk } }.reply p 0 0 [0]

def execFirmwareDownload (p : ReqPath) (off : Nat) (chunk : List Byte) (s : State) : Host.Outcome State Fault Refusal :=
  .next (s.firmwareDownload p off chunk)

/-- Bytes of the flash in use, and of a copy area (R592, R593). -/
def BootFlash.copyArea (f : BootFlash) : Nat := (min f.sizeMiB 256) * 2 ^ 20 / 2 - 2 ^ 17

/-- The current selector record: the valid one with the later SEQ, and whether it lies in sector 1 (R594). -/
def BootFlash.selector (f : BootFlash) : Option (Selector × Bool) :=
  match f.sector0, f.sector1 with
  | some a, some b => if seqEarlier 32 a.seq b.seq then some (b, true) else some (a, false)
  | some a, none => some (a, false)
  | none, some b => some (b, true)
  | none, none => none

/-- The preferred copy is B (R594). -/
def BootFlash.prefersB (f : BootFlash) : Bool := match f.selector with | some (x, _) => x.preferB | none => false

/-- Check 1 of R597. -/
def configHeadOk (b : List Byte) (area : Nat) : Bool :=
  leField b 0 4 == 0x43464749 && leField b 4 2 == 1 && leField b 0xFC 4 == crc32c (slice b 0 0xFC) &&
    leField b 0x10 8 % 256 == 0 && decide (leField b 0x10 8 ≤ area) && decide (leField b 0x10 8 ≥ 0x180) &&
    leField b 0x20 (0xFC - 0x20) == 0

/-- Check 2 of R597: TARGET as in R334. -/
def State.configTargetOk (s : State) (b : List Byte) : Bool :=
  let part := leField b 9 2
  (part == 0 || part == s.fuses.part.toNat) && leField b 8 1 == 0xA1 && leField b 0xB 1 == 0

/-- KEY_ID names a key chained to the root key (R554). -/
def State.chainedKey (s : State) (kid : Nat) : Bool :=
  s.trustKept.keys.any (fun k => match k with | some x => x.keyId == kid | none => false)

/-- The section table: type, zero field, length and offset of each (R595). -/
structure ConfigSect where
  type : Nat
  zero : Nat
  len : Nat
  off : Nat
  deriving DecidableEq, Repr

def configSects (b : List Byte) : List ConfigSect :=
  (List.range (leField b 6 2)).map (fun i =>
    let o := 0x100 + 16 * i
    { type := leField b o 2, zero := leField b (o + 2) 2, len := leField b (o + 4) 4, off := leField b (o + 8) 8 })

/-- The entries of a RUNS section, with their offsets; none when one is not whole (R596). -/
def runEntries (b : List Byte) : Nat → Nat → Option (List (List Byte))
  | _, 0 => some []
  | 0, _ + 1 => none
  | n + 1, left =>
    let o := b.length - left
    let len := leField b (o + 8) 4
    if len % 16 ≠ 0 ∨ len < 16 ∨ len > left ∨ leField b (o + 12) 4 ≠ 0 then none
    else (runEntries b n (left - len)).map (fun t => slice b o len :: t)

/-- The entries of a section, each with its own bytes; none when their sizes are not whole (R596). -/
def sectParts (type : Nat) (b : List Byte) : Option (List (List Byte)) :=
  let fixed (n : Nat) : Option (List (List Byte)) :=
    if b.length % n = 0 then some ((List.range (b.length / n)).map (fun i => slice b (n * i) n)) else none
  match type with
  | 1 | 2 | 4 => fixed 16
  | 3 => if leField b 0x20 8 = b.length then some [b] else none
  | 5 => fixed 128
  | 6 => runEntries b b.length b.length
  | 7 => fixed 72
  | 8 => if b.length = 8 then some [b] else none
  | _ => none

/-- Check 5 of R597. -/
def configSectsOk (b : List Byte) : Bool :=
  let n := leField b 6 2
  let e := configSects b
  decide (1 ≤ n ∧ n ≤ 256) &&
    e.all (fun x => decide (1 ≤ x.type ∧ x.type ≤ 8) && x.zero == 0 && x.off % 256 == 0 &&
      decide (0x100 + 16 * n ≤ x.off) && decide (x.off + x.len + 128 ≤ b.length) &&
      (sectParts x.type (slice b x.off x.len)).isSome) &&
    disjoint (e.map (fun x => (x.off, x.len))) &&
    (e.dropLast).all (fun x => x.type != 8)

/-- R597: the first failing check decides the status and DETAIL; status 0 when all pass. -/
def State.configCheck (s : State) (b : List Byte) : Status × Nat :=
  if !configHeadOk b s.flash.copyArea || decide (leField b 0x10 8 > b.length) then (0x1004, 1)
  else
    let b := b.take (leField b 0x10 8)
    if !s.configTargetOk b then (0x1004, 2)
    else if !s.chainedKey (leField b 0x18 8) then (0x0F06, 0)
    else if !s.keyVerifies b (leField b 0x18 8) then (0x0F02, 0)
    else if !configSectsOk b then (0x1004, 3)
    else (0, 0)

/-- Bytes of the staging buffer that hold the image: its LENGTH, at most the buffer. -/
def State.stagedImage (s : State) : List Byte :=
  let head := memRead s.yqi.staging 0 256
  memRead s.yqi.staging 0 (if configHeadOk head s.flash.copyArea then min (leField head 0x10 8) (2 ^ 28) else 256)

/-- The copy that a commit writes is B: the one that is not active, or not preferred when none was loaded (R428). -/
def State.inactiveB (s : State) : Bool := if s.boot.loaded then !s.boot.activeB else !s.flash.prefersB

/-- XSPI_FAST follows XSPI_SLEW at an access of the boot flash (R665). -/
def State.flashAccess (s : State) : State := s.setBits regAonPadCfg 4 1 (bitOf (decide (s.regFld regAonPadCfg 0 2 ≥ 2)))

/-- FIRMWARE_COMMIT (R428, R594, R597, R599): RESULT is the copy written. After a write that failed the copy is as it
was (R428) or invalid (R610): the rules differ, and which it is, is free. `flashOk`: the flash took the image, block for block. -/
def State.firmwareCommit (s : State) (p : ReqPath) (activate flashOk : Bool) : State :=
  if s.quoinSet 13 then s.reply p 0x0F01
  else
    let b := s.stagedImage
    let r := s.configCheck b
    if r.1 ≠ 0 then s.reply p r.1 r.2
    else if !flashOk then
      let k := s.takeFree
      let left (old : List Byte) : List Byte := if Config.freeBit k.1 then old else []
      let f := if s.inactiveB then { s.flash with copyB := left s.flash.copyB } else { s.flash with copyA := left s.flash.copyA }
      let s : State := { k.2.flashAccess with flash := f }
      s.reply p 0x1008
    else
      let s := s.flashAccess
      let toB := s.inactiveB
      let f := if toB then { s.flash with copyB := b } else { s.flash with copyA := b }
      let seq := match f.selector with | some (x, _) => (x.seq + 1) % 2 ^ 32 | none => 1
      let sel : Selector := { seq := seq, preferB := toB }
      let in1 := match f.selector with | some (_, one) => !one | none => false
      let f := if !activate then f else if in1 then { f with sector1 := some sel } else { f with sector0 := some sel }
      let k := if toB then { s.backup with attemptsB := 0 } else { s.backup with attemptsA := 0 }
      let t : State := { s with flash := f, backup := k, boot := { s.boot with preferB := f.prefersB } }
      t.reply p 0 0 [bitOf toB]

def execFirmwareCommit (p : ReqPath) (activate flashOk : Bool) (s : State) :
    Host.Outcome State Fault Refusal := .next (s.firmwareCommit p activate flashOk)

end Sys2Proof.Machine
end

