-- ==== Sys2Proof/Machine/Busy.lean ====
section
/-! DEFINITION. What the always-on domain, the saggar and the resets ask of the other blocks: work that keeps the part
from Idle, region ownership, what a fenced die stops, routes and keys (R43, R44, R566, R567, R575, R622). -/

namespace Sys2Proof.Machine

/-- The run that holds a region (R33). -/
def State.regionOwner (s : State) (r : Nat) : Option Nat := (s.runOfRegion r).map (fun (x : Run) => x.slot)

/-- A Gnoz queue holds requests that have not completed. -/
def State.gqBusy (s : State) (q : Nat) : Bool :=
  decide (s.gqAvail q ≠ 0) || !(s.gq q).released.isEmpty || !(s.gq q).group.isEmpty || !(s.gq q).sealWaits.isEmpty

/-- A job ring, Gnoz queue or YQI queue holds work that has not completed (R622 cause 5). -/
def State.queuesBusy (s : State) : Bool :=
  !s.cmp.jobs.isEmpty || (List.range 16).any (fun q => s.ringOn q && decide (s.ringAvail q ≠ 0)) ||
  !s.gnoz.out.isEmpty || (s.gnoz.queues.map (fun (x : GnozQueue) => x.q)).any (fun q => s.gqEnabled q && s.gqBusy q) ||
  !s.yqi.admitted.isEmpty || !s.yqi.parked.isEmpty || !s.yqi.policed.isEmpty || !s.yqi.done.isEmpty ||
  s.yqi.queues.any (fun (x : Queue) => !x.frozen && decide (x.sqHead ≠ x.sqTail))

/-- The first cause that refuses Idle, in the order of R622; Off leaves cause 4 out (R626). -/
def State.idleBlocker (s : State) (withGroup : Bool) : Option Nat :=
  if s.mgr.runs.any (fun r => r.state != .free) then some 1
  else if !s.streamEng.ctxs.isEmpty || !s.text.gens.isEmpty then some 2
  else if s.media.sanitize.isSome then some 3
  else if withGroup && s.regFld grpBase 0 1 == 1 then some 4
  else if s.queuesBusy then some 5
  else none

/-- The end of a region's isolation (R34, R615): its FAULTED marks are cleared with it. -/
def State.deisolateRegion (s : State) (r : Nat) : State :=
  let clr (x : Nat × TileState) : Nat × TileState := if x.1 / 32 = r then (x.1, { x.2 with faulted := false }) else x
  { s with
    mgr := { s.mgr with
      isolated := s.mgr.isolated.filter (· != r), routers := s.mgr.routers.filter (fun t => t / 32 != r),
      yxFlows := s.mgr.yxFlows.filter (fun f => (xyRoute f.1 f.2).any (fun t => t / 32 != r && s.mgr.routers.contains t)) },
    field := { s.field with tiles := (s.field.tiles.map clr).filter (fun x => x.2 != {}) } }

/-- The field die has been fenced: every run, saved and queued ones included, ends with 0x090F (R44, R365). -/
def State.fieldDieLost (s : State) : State :=
  (s.mgr.runs.map (fun (r : Run) => r.slot)).foldl (fun s k => s.endRun k 0x090F) s

/-- Digests of the resident plates in ascending order (R567). -/
def State.plateDigests (s : State) : List Nat :=
  (s.mgr.plates.map (fun (p : Plate) => p.digest)).foldl (fun a x => insertSorted x a) []

/-- A route with SEALED = 0 exists (R450, R567). -/
def State.openRouteExists (s : State) : Bool := s.gnoz.routes.any (fun r => r.flag 0 && !r.flag 2)

/-- A valid route names a pair key (R566). -/
def State.routeNamesKey (s : State) (kid : Nat) : Bool :=
  s.gnoz.routes.any (fun r => r.flag 0 && r.flag 2 && decide (r.keyId = kid))

/-- The unwrapped namespace keys leave the media cipher engine (R575). The window keys, pair keys, AK and TK are derived
ones, which the state does not spell out. -/
def State.clearUnwrappedKeys (s : State) : State := { s with media := { s.media with engineKeys := [] } }

end Sys2Proof.Machine
end

