-- ==== Sys2Proof/Machine/Power.lean ====
section
/-! DEFINITION. Die links, clocks, power states, the limiter, temperature and the watchdog (R38-R45, R616-R647). -/

namespace Sys2Proof.Machine

/-- The kiln sitter requests a package reset: it latches the reason, then drives RESET_REQ_N low for 100 µs (R582). -/
def State.requestReset (s : State) (reason : Nat) : State :=
  let s := { s with backup := { s.backup with request := reason } }
  (s.emit (.pin .resetReqN false)).emit (.pin .resetReqN true)

def Links.get (l : Links) : DieLink → LinkState
  | .fm => l.fm
  | .fn => l.fn
  | .mn => l.mn

def Links.set (l : Links) : DieLink → LinkState → Links
  | .fm, x => { l with fm := x }
  | .fn, x => { l with fn := x }
  | .mn, x => { l with mn := x }

/-- FLIT_ERROR (R40): link-level retry corrects the flit, and a link that retry cannot recover retrains; register accesses that
cross it wait in its replay buffer. A failed link stays failed (R41). -/
def State.flitError (s : State) (l : DieLink) (recovered : Bool) : State :=
  let x := s.links.get l
  if recovered || x.state != 0 then s
  else { s with links := s.links.set l { x with state := 1 } }

def execFlitError (l : DieLink) (recovered : Bool) (s : State) : Host.Outcome State Fault Refusal :=
  .next (s.flitError l recovered)

/-- What a retrain's end makes of a link (R41, R45): the count saturates at 255; three failed retrains in a row, or
more than 16 retrains within 1 s, mark it failed; after a failed retrain that does not yet fail the link, it retrains
again. -/
def LinkState.retrained (x : LinkState) (now : Nat) (ok : Bool) : LinkState :=
  let c := satBump 8 x.count 1 x.ovf
  let recent := (x.recent.filter (fun t => decide (now < t + 1000000000))) ++ [now]
  let failRun := if ok then 0 else x.failRun + 1
  let failed := decide (failRun ≥ 3) || decide (recent.length > 16)
  { state := if failed then 2 else if ok then 0 else 1,
    count := c.1, ovf := c.2, failRun := failRun, recent := recent }

/-- PLL_UNLOCK (R618): a PLL other than a region PLL stops its clock and its domain holds all work; 0x1014 is
recorded with the PLL's number (`State.clockDown`) in INFO0. -/
def State.pllUnlock (s : State) (pll : Nat) : State :=
  if s.power.pllDown.any (fun p => p.1 == pll) then s
  else
    let s := { s with power := { s.power with pllDown := s.power.pllDown ++ [(pll, 0)] } }
    s.log 0x1014 pwrBase pll

def execPllUnlock (pll : Nat) (s : State) : Host.Outcome State Fault Refusal := .next (s.pllUnlock pll)

/-- PLL_RELOCK (R618): on success the die links of its die retrain and its domain resumes, realigned at the next
tick (R640); after 16 failed relocks the PLL stays stopped. `die` is 0 media, 1 net, 2 field. -/
def State.pllRelock (s : State) (pll : Nat) (ok : Bool) (die : Nat) : State :=
  match s.power.pllDown.find? (fun p => p.1 == pll) with
  | none => s
  | some (_, fails) =>
    if fails ≥ 16 then s
    else if ok then
      let rest := s.power.pllDown.filter (fun p => p.1 != pll)
      let retrain (x : LinkState) : LinkState := if x.state == 0 then { x with state := 1 } else x
      let lk := s.links
      let lk := if die == 0 || die == 2 then { lk with fm := retrain lk.fm } else lk
      let lk := if die == 1 || die == 2 then { lk with fn := retrain lk.fn } else lk
      let lk := if die == 0 || die == 1 then { lk with mn := retrain lk.mn } else lk
      { s with power := { s.power with pllDown := rest, alignPending := true }, links := lk }
    else
      { s with power := { s.power with
          pllDown := s.power.pllDown.map (fun p => if p.1 == pll then (p.1, p.2 + 1) else p) } }

def execPllRelock (pll : Nat) (ok : Bool) (die : Nat) (s : State) : Host.Outcome State Fault Refusal :=
  .next (s.pllRelock pll ok die)

/-- REFCLK_LOSS (R619): the backup domain notes the loss; no reset takes effect while the reference is absent. -/
def State.refclkLoss (s : State) : State :=
  { s with backup := { s.backup with refLost := true, refPending := true }, boot := { s.boot with refclkOk := false } }

def execRefclkLoss (s : State) : Host.Outcome State Fault Refusal := .next s.refclkLoss

/-- When the region will have held no run for PWR_DOZE_DELAY (R621). -/
def State.dozeAt (s : State) (r : Nat) : Nat :=
  ((s.power.idleSince.find? (fun p => p.1 == r)).map (·.2)).getD 0 + (s.reg regPwrDozeDelay).toNat * 1000

/-- REGION_DOZE (R621): the island is gated and the PLL stopped; store and counter contents are lost. -/
def State.regionDoze (s : State) (r : Nat) : State :=
  if s.regionActive r && (s.regionOwner r).isNone && !s.power.doze.getLsbD r then
    let s := (s.advance (s.dozeAt r)).zeroRegion r
    { s with power := { s.power with doze := setBit s.power.doze r true,
                                     pllLock := setBit s.power.pllLock r false } }
  else s

def execRegionDoze (r : Nat) (s : State) : Host.Outcome State Fault Refusal := .next (s.regionDoze r)

/-- REGION_WAKE_DONE (R621): PLL locked, crossings released, stores zeroed, the region available. -/
def State.regionWakeDone (s : State) (r : Nat) : State :=
  if s.power.waking.getLsbD r then
    let s := s.zeroRegion r
    { s with power := { s.power with doze := setBit s.power.doze r false,
                                     pllLock := setBit s.power.pllLock r true,
                                     waking := setBit s.power.waking r false } }
  else s

def execRegionWakeDone (r : Nat) (s : State) : Host.Outcome State Fault Refusal := .next (s.regionWakeDone r)

/-- A power-state request is refused with 0x1015: nothing changes but LAST_REFUSAL (R622). -/
def State.powerRefused (s : State) (detail : Nat) : State :=
  let s := { s with power := { s.power with lastRefusal := detail } }
  s.reply .register 0x1015 detail

/-- IDLE_REQUEST (R622, R623): refused by the first cause that holds, and otherwise entry begins. -/
def State.idleRequest (s : State) : State :=
  if s.power.state != .run then s
  else match s.idleBlocker true with
    | some d => s.powerRefused d
    | none => { s with power := { s.power with state := .enteringIdle } }

def execIdleRequest (s : State) : Host.Outcome State Fault Refusal := .next s.idleRequest

/-- IDLE_ENTERED (R620, R623): every region is in Doze and the device is in Idle. -/
def State.idleEntered (s : State) : State :=
  if s.power.state != .enteringIdle then s
  else
    let s := (List.range 48).foldl (fun s r => s.zeroRegion r) s
    { s with power := { s.power with state := .idle, doze := BitVec.allOnes 48, pllLock := 0 } }

def execIdleEntered (s : State) : Host.Outcome State Fault Refusal := .next s.idleEntered

/-- OFF_REQUEST (R626, R647): the key is required, the refusals of R622 but for cause 4 apply, and then admission
closes and a flush of every namespace begins. -/
def State.offRequest (s : State) (key : Nat) : State :=
  if key != 0x4F46 then s.log 0x0101 pwrBase (pwrBase + 4)
  else if s.power.offPending then s
  else match s.idleBlocker false with
    | some d => s.powerRefused d
    | none => { s with power := { s.power with offPending := true } }

def execOffRequest (key : Nat) (s : State) : Host.Outcome State Fault Refusal := .next (s.offRequest key)

/-- OFF_FLUSH_DONE (R626): the flush has completed, an anchor record with FLUSHED is written (R142), and
MAIN_PWR_EN falls. -/
def State.offFlushDone (s : State) : State :=
  if s.power.offPending && !s.power.mainOff then
    let s := (s.flushAllMedia).writeAnchor true
    let s := { s with power := { s.power with mainOff := true }, pins := { s.pins with mainPwrEn := false } }
    s.emit (.pin .mainPwrEn false)
  else s

def execOffFlushDone (s : State) : Host.Outcome State Fault Refusal := .next s.offFlushDone

def execWakeEvent (c : WakeCause) (s : State) : Host.Outcome State Fault Refusal := .next (s.wakeEvent c)

/-- WAKE_COMPLETE (R625): the device is in Run, held requests proceed, and crossings are realigned. -/
def State.wakeComplete (s : State) : State :=
  if s.power.state == .waking then
    { s with power := { s.power with state := .run, alignPending := true } }
  else s

def execWakeComplete (s : State) : Host.Outcome State Fault Refusal := .next s.wakeComplete

/-- ALIGNMENT_TICK (R640): the 6-bit counter wraps; the crossings that wait are released on this tick. -/
def State.alignmentTick (s : State) : State :=
  { s with power := { s.power with alignPending := false, alignTicks := s.power.alignTicks + 1 } }

def execAlignmentTick (s : State) : Host.Outcome State Fault Refusal := .next s.alignmentTick

/-- The watchdog's period in ns. -/
def State.wdtPeriod (s : State) : Nat := s.regFld regAonWdtCfg 16 16 * 1000000

/-- WDT_KICK (R628, R629): in mode 1 the key restarts the count; a kick clears WARNED. Other values do nothing. -/
def State.wdtKick (s : State) (key : Word) : State :=
  if key = 0x4B49434B then
    let s := { s with power := { s.power with wdtWarned := false } }
    if s.regFld regAonWdtCfg 0 2 == 1 then
      { s with power := { s.power with wdtDeadline := some (s.now + s.wdtPeriod) } }
    else s
  else s

def execWdtKick (key : Word) (s : State) : Host.Outcome State Fault Refusal := .next (s.wdtKick key)

/-- WDT_PROBE (R628): in mode 2, each quarter period, the count restarts when every die that is not fenced
answered. -/
def State.wdtProbe (s : State) (field media net : Bool) : State :=
  if s.regFld regAonWdtCfg 0 2 == 2 then
    let s := s.advance s.power.wdtProbeAt
    let all := (field || s.fieldFenced) && media && (net || s.netFenced)
    { s with power := { s.power with
        wdtProbeAt := s.now + s.wdtPeriod / 4,
        wdtDeadline := if all then some (s.now + s.wdtPeriod) else s.power.wdtDeadline } }
  else s

def execWdtProbe (field media net : Bool) (s : State) : Host.Outcome State Fault Refusal :=
  .next (s.wdtProbe field media net)

/-- WDT_EXPIRY (R629): the first expiry sets WARNED, records 0x1010 and starts a new period; an expiry with WARNED
still set requests a reset with reason WATCHDOG. -/
def State.wdtExpiry (s : State) : State :=
  match s.power.wdtDeadline with
  | none => s
  | some t =>
    let s := s.advance t
    if s.power.wdtWarned then
      { (s.requestReset 1) with power := { s.power with wdtDeadline := some (s.now + s.wdtPeriod) } }
    else
      let s := { s with power := { s.power with wdtWarned := true, wdtDeadline := some (s.now + s.wdtPeriod) } }
      s.log 0x1010 aonBase

def execWdtExpiry (s : State) : Host.Outcome State Fault Refusal := .next s.wdtExpiry

/-- AON_WDT_CFG_WRITE (R628, R630): a period out of range, or MODE 3, changes nothing and records 0x0101; a locked
write is discarded (R10); otherwise the fields are set and a nonzero MODE starts the count from this write. -/
def State.wdtCfgWrite (s : State) (v : Word) : State :=
  let mode := fld v 0 2
  let period := fld v 16 16
  if s.quoinSet 0 then s.plainWrite regAonWdtCfg v
  else if period < 10 || mode == 3 then s.log 0x0101 aonBase regAonWdtCfg
  else
    let s := s.plainWrite regAonWdtCfg v
    { s with power := { s.power with
        wdtDeadline := if mode == 0 then none else some (s.now + period * 1000000),
        wdtProbeAt := s.now + period * 250000 } }

def execAonWdtCfgWrite (v : Word) (s : State) : Host.Outcome State Fault Refusal := .next (s.wdtCfgWrite v)

/-- The tile clock in force is the lowest of the limiter's, the throttle's and the cap (R632, R635); each change
counts in PWR_DVFS_EVENTS and realigns the crossings at the next tick (R633, R640). -/
def State.applyTileClock (s : State) : State :=
  let f := min (min s.power.limMhz s.power.thermMhz) (s.regFld regClkTile 16 11)
  if f = s.power.tileMhz then s
  else
    let s := s.bump regPwrDvfsEvents regPwrOvf 2
    { s with power := { s.power with tileMhz := f, alignPending := true } }

/-- A cut of the limiter: 800 MHz at once, counted, and recorded at most once per second (R632). -/
def State.limiterCut (s : State) : State :=
  if s.power.limMhz = 800 then s
  else
    let s := s.bump regPwrLimitEvents regPwrOvf 0
    let s := if secondPassed s.now s.power.limitLoggedAt then
        let s := s.log 0x1013 pwrBase s.power.totalW
        { s with power := { s.power with limitLoggedAt := some s.now } }
      else s
    { s with power := { s.power with limMhz := 800, limTicks := 0 } }

/-- POWER_SAMPLE (R631-R633): the four rules, in their order, at one sample of 10 µs. -/
def State.powerSample (s : State) (total tiles : Nat) : State :=
  let sustained := s.regFld regPwrLimit 0 12
  let burst := s.regFld regPwrLimit 16 12
  let above := if total > sustained then s.power.overSamples + 1 else 0
  let s := { s with power := { s.power with totalW := total, tilesW := tiles, overSamples := above,
                                            limTicks := s.power.limTicks + 1 } }
  let s :=
    if total ≥ burst then s.limiterCut
    else if above ≥ 1000 then s.limiterCut
    else if s.power.limMhz < 1600 && s.power.limTicks ≥ 100 then
      let f := s.power.tileMhz
      let s := { s with power := { s.power with limTicks := 0 } }
      if total * f + tiles * 50 ≤ sustained * f then
        { s with power := { s.power with limMhz := min (s.power.limMhz + 50) 1600 } }
      else s
    else s
  s.applyTileClock

def execPowerSample (total tiles : Nat) (s : State) : Host.Outcome State Fault Refusal :=
  .next (s.powerSample total tiles)

/-- The hottest sensor and its number; the lowest number among equals. -/
def hottestOf : Nat → List Nat → Nat × Nat → Nat × Nat
  | _, [], best => best
  | i, t :: ts, best => hottestOf (i + 1) ts (if t > best.1 then (t, i) else best)

/-- THERMAL_SAMPLE (R634, R635): 62 temperatures in degrees. At 100 or more the throttle's clock goes to 800 MHz at
once; at 95 or more it falls 50 MHz each ms; with every sensor at 92 or less it rises 50 MHz each ms. Entry of the
throttle counts in PWR_THERM_EVENTS, records 0x1011 at most once per second, and wakes a device in Idle (R624). -/
def State.thermalSample (s : State) (temps : List Nat) : State :=
  let h := hottestOf 0 temps (0, 0)
  let wasOn := s.power.throttle
  let ticks := s.power.thermTicks + 1
  let due := ticks ≥ 10
  let dbl := (List.range 6).foldl
    (fun (v : BitVec 6) i => setBit v i (decide (temps.getD (56 + i) 0 ≥ 95))) 0
  let s := { s with power := { s.power with hottest := h.1, sensor := h.2, hbmDouble := dbl, thermTicks := ticks } }
  let s :=
    if h.1 ≥ 95 then
      let s := if wasOn then s else
        let s := s.bump regPwrThermEvents regPwrOvf 1
        if secondPassed s.now s.power.thermLoggedAt then
          let s := s.log 0x1011 pwrBase h.1 h.2
          { s with power := { s.power with thermLoggedAt := some s.now } }
        else s
      let s := if wasOn then s else s.wakeEvent .thermal
      let s := { s with power := { s.power with throttle := true } }
      if h.1 ≥ 100 then { s with power := { s.power with thermMhz := 800, thermTicks := 0 } }
      else if due || !wasOn then
        { s with power := { s.power with thermMhz := max (s.power.thermMhz - 50) 800, thermTicks := 0 } }
      else s
    else if h.1 ≤ 92 && wasOn && due then
      let f := min (s.power.thermMhz + 50) 1600
      { s with power := { s.power with thermMhz := f, thermTicks := 0, throttle := f != 1600 } }
    else s
  s.applyTileClock

def execThermalSample (temps : List Nat) (s : State) : Host.Outcome State Fault Refusal :=
  .next (s.thermalSample temps)

/-- THERMAL_TRIP (R29, R636): THERMTRIP_N falls, the field and net dies are clamped and held in reset, so that every run ends and
what the two dies held is gone, the last-gasp sequencer starts, and the backup domain latches the diode. -/
def State.thermalTrip (s : State) (diode : Nat) : State :=
  if s.power.tripAt.isSome then s
  else
    let s := s.fieldDieLost
    let s := { s with
      backup := { s.backup with tripped := true, tripDiode := diode % 16, tripPending := true },
      power := { s.power with tripAt := some s.now },
      pins := { s.pins with thermtripN := false },
      field := {}, sync := {}, egress := {}, gnoz := { s.gnoz with started := false } }
    let s := s.emit (.pin .thermtripN false)
    s.lastGaspStart

def execThermalTrip (diode : Nat) (s : State) : Host.Outcome State Fault Refusal := .next (s.thermalTrip diode)

/-- TRIP_POWER_OFF (R636 step 4): when last gasp is done, or 30 ms after the trip, MAIN_PWR_EN falls. -/
def State.tripPowerOff (s : State) : State :=
  match s.power.tripAt with
  | none => s
  | some t =>
    let s := if s.lastGaspDone then s else s.advance (t + 30000000)
    if s.power.mainOff then s else
    let s := { s with power := { s.power with mainOff := true }, pins := { s.pins with mainPwrEn := false } }
    s.emit (.pin .mainPwrEn false)

def execTripPowerOff (s : State) : Host.Outcome State Fault Refusal := .next s.tripPowerOff

/-- PWR_CONFIG_WRITE (R646, R647): a limit, cap or delay out of range changes no field and records 0x0101; a locked
write is discarded (R10). -/
def State.pwrConfigWrite (s : State) (off : Nat) (v : Word) : State :=
  if off = regPwrDozeDelay then
    let d := fld v 0 20
    if 10 ≤ d ∧ d ≤ 1000000 then s.plainWrite off v else s.log 0x0101 pwrBase off
  else if s.quoinSet 3 then s.plainWrite off v
  else if off = regPwrLimit then
    let sus := fld v 0 12
    let bst := fld v 16 12
    if 1000 ≤ sus ∧ sus ≤ 2800 ∧ sus ≤ bst ∧ bst ≤ 3100 then s.plainWrite off v else s.log 0x0101 pwrBase off
  else if off = regClkTile then
    let cap := fld v 16 11
    if 800 ≤ cap ∧ cap ≤ 1600 ∧ cap % 50 = 0 then
      (s.plainWrite off v).applyTileClock
    else s.log 0x0101 pwrBase off
  else s

def execPwrConfigWrite (off : Nat) (v : Word) (s : State) : Host.Outcome State Fault Refusal :=
  .next (s.pwrConfigWrite off v)

/-- Trim load has completed: the words that it loads from the fuses show them; before, and in trim fault, they read 0 (R5,
R590). -/
def BootPhase.trimmed : BootPhase → Bool
  | .reset | .flush | .trim | .trimFault => false
  | .clocks | .links | .training | .wipe | .rebuild | .apply | .ready => true

/-- A word that trim load loads. -/
def State.fuseWord (s : State) (v : Word) : Word := if s.boot.phase.trimmed then v else 0

/-- The AON and CLK/PWR words that show state held elsewhere (R5, R45, R611, R645, R646). -/
def viewPower (s : State) (off : Nat) : Option Word :=
  if off = aonBase + 0x08 then some (s.fuseWord (BitVec.ofNat 32 s.fuses.partId))
  else if off = aonBase + 0x10 then some (s.fuseWord (s.fuses.regionMask.setWidth 32))
  else if off = aonBase + 0x14 then some (s.fuseWord ((s.fuses.regionMask >>> 32).setWidth 32))
  else if off = aonBase + 0x18 then
    some (packFields [(0, s.links.fm.state), (2, s.links.fn.state), (4, s.links.mn.state),
      (6, bitOf s.fieldFenced), (7, bitOf s.netFenced)])
  else if off = aonBase + 0x1C then
    some (packFields [(0, s.links.fm.count), (8, s.links.fn.count), (16, s.links.mn.count),
      (24, bitOf s.links.fm.ovf), (25, bitOf s.links.fn.ovf), (26, bitOf s.links.mn.ovf)])
  else if off = aonBase + 0x20 then some (BitVec.ofNat 32 s.backup.resetCount)
  else if off = aonBase + 0x24 then
    some (packFields [(0, bitOf s.backup.causePowerOn), (1, bitOf s.backup.causePin), (4, s.backup.request % 8),
      (7, bitOf s.backup.lost)])
  else if off = aonBase + 0x28 then
    some (packFields [(0, match s.boot.phase with
        | .reset => 0 | .flush => 1 | .trim => 2 | .clocks => 3 | .links => 4 | .training => 5 | .wipe => 6
        | .rebuild => 7 | .apply => 8 | .ready => 9 | .trimFault => 15),
      (4, s.boot.trimTries % 4), (8, s.boot.wipePct % 128), (16, s.boot.status.toNat)])
  else if off = aonBase + 0x38 then
    some (packFields [(0, match s.power.wdtDeadline with
        | none => 0 | some t => min ((t - s.now) / 1000000) 65535), (16, bitOf s.power.wdtWarned)])
  else if off = aonBase + 0x40 then
    some (packFields [(0, s.power.hottest % 256), (8, s.power.sensor % 64), (14, bitOf s.power.throttle),
      (15, bitOf (s.power.thermMhz == 800))])
  else if off = aonBase + 0x44 then
    some (packFields [(0, bitOf s.backup.tripped), (1, s.backup.tripDiode % 16)])
  else if off = aonBase + 0x48 then
    some (packFields [(0, bitOf s.backup.refLost), (1, bitOf s.backup.osc)])
  else if off = pwrBase + 0x00 then
    some (packFields [(0, match s.power.state with | .run => 0 | .enteringIdle => 1 | .idle => 2 | .waking => 3),
      (2, bitOf s.power.offPending), (16, s.power.lastRefusal % 256)])
  else if off = pwrBase + 0x08 then some (s.power.doze.setWidth 32)
  else if off = pwrBase + 0x0C then some ((s.power.doze >>> 32).setWidth 32)
  else if off = pwrBase + 0x24 then
    some (packFields [(0, s.power.totalW % 4096), (16, s.power.tilesW % 4096)])
  else if off = pwrBase + 0x30 then some (setFld (s.reg regClkTile) 0 11 s.power.tileMhz)
  else if off = pwrBase + 0x38 then some (s.power.pllLock.setWidth 32)
  else if off = pwrBase + 0x3C then some ((s.power.pllLock >>> 32).setWidth 32)
  else none

/-- Bus writes to those words: the W1C fields of AON, and the AON fields a write reaches (R8). -/
def writePower (s : State) (off : Nat) (v : Word) : Option State :=
  if off = aonBase + 0x1C then
    let clr (x : LinkState) (b : Nat) : LinkState := if v.getLsbD b then { x with ovf := false } else x
    some { s with links := { s.links with fm := clr s.links.fm 24, fn := clr s.links.fn 25,
                                          mn := clr s.links.mn 26 } }
  else if off = aonBase + 0x24 then
    some (if v.getLsbD 7 then { s with backup := { s.backup with lost := false } } else s)
  else if off = regAonWdtCfg then some (s.wdtCfgWrite v)
  else if off = aonBase + 0x34 then some (s.wdtKick v)
  else if off = aonBase + 0x38 then
    some (if v.getLsbD 16 then { s with power := { s.power with wdtWarned := false } } else s)
  else if off = aonBase + 0x44 then
    some (if v.getLsbD 0 then { s with backup := { s.backup with tripped := false } } else s)
  else if off = aonBase + 0x48 then
    some (if v.getLsbD 0 then { s with backup := { s.backup with refLost := false } } else s)
  else if off = regPwrDozeDelay ∨ off = regPwrLimit ∨ off = regClkTile then some (s.pwrConfigWrite off v)
  else none

end Sys2Proof.Machine
end

