-- ==== Sys2Proof/Machine/BlockClear.lean ====
section
/-! DEFINITION. What the end of a soft reset clears in each block and unit (R504, R603, R604). -/

namespace Sys2Proof.Machine

/-- The buffer classes of a block: die and class (R494). -/
def blockClasses : Nat → List (Nat × Nat)
  | 0 => [(0, 3)]
  | 1 => [(0, 3)]
  | 2 => [(1, 6)]
  | 3 => [(0, 1)]
  | 4 => [(0, 2)]
  | 5 => [(0, 0)]
  | 6 => [(1, 1), (1, 2)]
  | 7 => [(1, 0), (1, 3), (1, 5), (1, 7)]
  | _ => []

/-- UNIT_POOL_CLEANUP (R504): a forced reset drops the references that the unit, or every unit of the block, held, and
frees the buffers it owned. A unit holds buffers through the requester ports of its block's classes. -/
def State.poolCleanup (s : State) (b : Nat) (unit : Option Nat) : State :=
  let cs := blockClasses b
  let mine (x : Buffer) : Bool := cs.contains (x.die, x.cls) && (match unit with | some u => x.unit == u | none => true)
  let ports := (s.pools.bufs.filter (fun x => cs.contains (x.die, x.cls))).map (fun x => (x.die, x.port))
  let drop (x : Buffer) : Buffer :=
    { x with holders := x.holders.filter (fun (h : Nat × Nat) =>
        !(ports.contains (x.die, h.1) && (match unit with | some u => h.2 == u | none => true))) }
  let mark (x : Buffer) : Buffer := if mine x then { drop x with freePending := true } else drop x
  let s := { s with pools := { s.pools with bufs := s.pools.bufs.map mark } }
  (s.pools.bufs.filter (fun x => x.freePending && x.holders.isEmpty)).foldl (fun s x => s.poolReturn x) s

/-- Jobs cut off by a reset end with 0x0105 (R604). -/
def State.cutJobs (s : State) (which : CmpJob → Bool) : State :=
  (s.cmp.jobs.filter which).foldl (fun s j => ((s.dropJob j).jobCount 0x0105).jobComplete j.owner j.desc 0x0105 0 0 0 0 0 0 0) s

/-- Generation contexts end with 0x0105 (R604). -/
def State.cutGens (s : State) (which : GenCtx → Bool) : State :=
  (s.text.gens.filter which).foldl (fun s g => s.genEnd g 0x0105 0 0) s

/-- The transport's block reset (R604): outstanding messages complete with 0x0105, the duplicate and reassembly tables are
cleared, and nothing is sent for 600 ms. Routes and keys stay. -/
def State.gnozCleared (s : State) : State :=
  let s := { s with gnoz := { s.gnoz with started := false, dups := [], reasm := [], inbox := [] } }
  (s.gnoz.out.filter (fun m => !m.ended)).foldl (fun s m => s.messageEnd m 0x0105 0 0) s

/-- A block that can be quiesced is idle: it holds no job (R603). -/
def State.blockIdle (s : State) : Nat → Bool
  | 0 => !s.cmp.jobs.any (fun j => j.desc.op != 3)
  | 1 => !s.cmp.jobs.any (fun j => j.desc.op == 3)
  | _ => true

/-- A unit of R604 is idle: it holds no job, and no generation context. -/
def State.unitIdle (s : State) (cls idx : Nat) : Bool :=
  match cls with
  | 6 => !s.cmp.jobs.any (fun j => j.engine == idx)
  | 7 => !s.text.gens.any (fun g => g.lane == idx)
  | 8 => !s.cmp.jobs.any (fun j => j.engine == 32 + idx)
  | _ => true

/-- Steps 3 and 4 of R603 for a block, with the effects of R604. -/
def State.blockCleared (s : State) (b : Nat) (forced : Bool) : State :=
  let s := match b with
    | 0 =>
      let s := if forced then s.cutJobs (fun j => j.desc.op != 3) else s
      let s := (List.range 16).foldl (fun s q => s.setBits (cmpRing q 0x10) 6 1 0) s
      { s with cmp := { s.cmp with
        oos := 0, started := List.replicate 16 0,
        queue := s.cmp.queue.filter (fun (x : CmpSub) => match x with | .ring _ => false | .run _ _ _ => true) } }
    | 1 => if forced then s.cutJobs (fun j => j.desc.op == 3) else s
    | 3 =>
      let s := (List.range 64).foldl (fun s c => s.setBits (liveReg c 0) 0 1 0) s
      { s with decode := {} }
    | 4 =>
      let s := s.cutGens (fun _ => true)
      { s with text := { s.text with oos := 0 } }
    | 5 => s.streamEng.ctxs.foldl (fun s x => s.haltStream x.1 0x0105 x.2.next) s
    | 6 => { s with egress := {} }
    | 7 => s.gnozCleared
    | 8 => { (s.setBits regObsCfg 0 1 0) with obs := { s.obs with active := false } }
    | _ => s
  if forced then s.poolCleanup b none else s

/-- Steps 3 and 4 of R603 for a unit: class and index of R604. A gather engine's reset ends the run that holds its region
(R333, R604). -/
def State.unitCleared (s : State) (cls idx : Nat) (forced : Bool) : State :=
  let s := match cls with
    | 6 =>
      let s := if forced then s.cutJobs (fun j => j.engine == idx) else s
      { s with cmp := { s.cmp with oos := setBit s.cmp.oos idx false } }
    | 7 =>
      let s := if forced then s.cutGens (fun g => g.lane == idx) else s
      { s with text := { s.text with oos := setBit s.text.oos idx false } }
    | 8 => if forced then s.cutJobs (fun j => j.engine == 32 + idx) else s
    | 9 => s
    | 10 => s.tileUnitReset (idx / 2 * 32)
    | _ => { s with decode := s.decode.setOos cls ((s.decode.oos cls).filter (· != idx)) }
  let b := match cls with | 6 => 0 | 7 => 4 | 8 => 1 | 9 => 2 | 10 => 9 | _ => 3
  if forced then s.poolCleanup b (some idx) else s

end Sys2Proof.Machine
end

