-- ==== Sys2Proof/Machine/SoftReset.lean ====
section
/-! DEFINITION. Soft resets of units, blocks and regions, and the RST and BOOT registers (R603-R606, R612-R615). -/

namespace Sys2Proof.Machine

/-- The block and the number of units of each unit class of R604. -/
def unitClass : Nat → Option (Nat × Nat)
  | 1 => some (3, 256)
  | 2 => some (3, 32)
  | 3 => some (3, 16)
  | 4 => some (3, 16)
  | 5 => some (3, 64)
  | 6 => some (0, 32)
  | 7 => some (4, 64)
  | 8 => some (1, 16)
  | 9 => some (2, 16)
  | 10 => some (9, 96)
  | _ => none

/-- RST_REQUEST_WRITE (R582, R613): the key requests a package reset with reason SOFTWARE; nothing else does. -/
def State.rstRequestWrite (s : State) (key : Word) : State :=
  if key = 0x52455345 then s.requestReset 3 else s

def execRstRequestWrite (key : Word) (s : State) : Host.Outcome State Fault Refusal := .next (s.rstRequestWrite key)

/-- BLOCK_SOFT_RESET (R603, R604): each bit written 1 starts the reset of its block; the bit reads 1 until the
reset ends. -/
def State.blockSoftReset (s : State) (bits : Word) : State :=
  let start := (List.range 9).filter (fun b => bits.getLsbD b && !s.blockHeld b)
  { s with rst := { s.rst with blocks := s.rst.blocks ++ start.map (fun b => (b, s.now)) } }

def execBlockSoftReset (bits : Word) (s : State) : Host.Outcome State Fault Refusal := .next (s.blockSoftReset bits)

/-- UNIT_SOFT_RESET (R606, R613): GO while BUSY, or a class or index out of range, discards the write and records
0x0101. -/
def State.unitSoftReset (s : State) (cls index : Nat) : State :=
  let bad := s.rst.unit.isSome || (match unitClass cls with
    | none => true
    | some (_, n) => decide (index ≥ n))
  if bad then s.log 0x0101 rstBase regRstUnit
  else
    let s := s.setReg regRstUnit (packFields [(0, cls), (8, index)])
    { s with rst := { s.rst with unit := some { cls := cls, index := index, startedAt := s.now },
                                 unitForced := false } }

def execUnitSoftReset (cls index : Nat) (s : State) : Host.Outcome State Fault Refusal :=
  .next (s.unitSoftReset cls index)

/-- A block's reset ends (R603 steps 4 and 5); a unit request of that block completes with it (R606). -/
def State.blockResetEnd (s : State) (b : Nat) (forced : Bool) : State :=
  let s := s.blockCleared b forced
  let unit := match s.rst.unit with
    | none => none
    | some u => if (unitClass u.cls).map (·.1) = some b then none else some u
  { s with rst := { s.rst with blocks := s.rst.blocks.filter (fun p => p.1 != b),
                               forced := setBit s.rst.forced b forced, unit := unit } }

/-- The unit's reset ends. -/
def State.unitResetEnd (s : State) (u : UnitReset) (forced : Bool) : State :=
  let s := s.unitCleared u.cls u.index forced
  { s with rst := { s.rst with unit := none, unitForced := forced } }

/-- SOFT_RESET_QUIESCED (R603): the unit went idle before the timeout; its state is cleared and it takes work. -/
def State.softResetQuiesced (s : State) : ResetTarget → State
  | .block b => if s.blockHeld b && s.blockIdle b then s.blockResetEnd b false else s
  | .unit => match s.rst.unit with
    | none => s
    | some u =>
      if s.blockHeld (((unitClass u.cls).map (·.1)).getD 99) || !s.unitIdle u.cls u.index then s else s.unitResetEnd u false
  | .tileUnit t bit => if s.tileUnitHeld t bit && s.tileUnitIdle t bit then s.tileUnitEnd t bit else s

def execSoftResetQuiesced (t : ResetTarget) (s : State) : Host.Outcome State Fault Refusal :=
  .next (s.softResetQuiesced t)

/-- The quiesce timeout of a block, in ns (R613). -/
def State.quiesceTimeout (s : State) (b : Nat) : Nat := s.regFld (regRstTimeout b) 0 17 * 1000

/-- QUIESCE_TIMEOUT (R603): the reset is forced, held work ends with 0x0105, FORCED is set and 0x1009 is recorded
with the block in INFO0 and the unit in INFO1. -/
def State.quiesceTimeoutEvent (s : State) : ResetTarget → State
  | .block b =>
    match s.rst.blocks.find? (fun p => p.1 == b) with
    | none => s
    | some (_, t) =>
      ((s.advance (t + s.quiesceTimeout b)).blockResetEnd b true).log 0x1009 rstBase b
  | .unit =>
    match s.rst.unit with
    | none => s
    | some u =>
      let b := ((unitClass u.cls).map (·.1)).getD 9
      if s.blockHeld b then s
      else ((s.advance (u.startedAt + s.quiesceTimeout b)).unitResetEnd u true).log 0x1009 rstBase b (u.cls * 256 + u.index)
  | .tileUnit t bit =>
    match s.rst.tiles.find? (fun x => x.1 == t && x.2.1 == bit) with
    | none => s
    | some x => ((s.advance (x.2.2 + s.quiesceTimeout 9)).tileUnitEnd t bit).log 0x1009 rstBase 9 (t * 8 + bit)

def execQuiesceTimeout (t : ResetTarget) (s : State) : Host.Outcome State Fault Refusal :=
  .next (s.quiesceTimeoutEvent t)

/-- A region-reset request is refused: STATUS shows it and the log carries it (R615). -/
def State.regionResetRefused (s : State) (st : Status) (r : Nat) : State :=
  ({ s with rst := { s.rst with regionStatus := st } }).log st rstBase r

/-- REGION_RESET (R37, R615): GO starts a region reset, or is refused. -/
def State.regionReset (s : State) (r : Nat) : State :=
  if s.rst.region.isSome || decide (r ≥ 48) then s.regionResetRefused 0x0101 r
  else if !s.regionActive r then s.regionResetRefused 0x0103 r
  else if (s.regionOwner r).isSome then s.regionResetRefused 0x0101 r
  else
    let s := s.setReg regRstRegion (packFields [(0, r)])
    { s with rst := { s.rst with region := some r, regionFault := none } }

def execRegionReset (r : Nat) (s : State) : Host.Outcome State Fault Refusal := .next (s.regionReset r)

/-- REGION_RESET_DONE (R615): the region is zeroed and its isolation and FAULTED marks cleared, or, when it faults
again, it stays isolated with STATUS 0x090C. -/
def State.regionResetDone (s : State) (fault : Option Nat) : State :=
  match s.rst.region with
  | none => s
  | some r =>
    match fault.orElse (fun _ => s.rst.regionFault) with
    | some d =>
      let s := s.isolateRegion r d
      ({ s with rst := { s.rst with region := none, regionFault := none, regionStatus := 0x090C } }).log 0x090C rstBase r 0 0 d
    | none =>
      let s := (s.zeroRegion r).deisolateRegion r
      { s with rst := { s.rst with region := none, regionStatus := 0 },
               power := { s.power with doze := setBit s.power.doze r false,
                                       pllLock := setBit s.power.pllLock r true,
                                       waking := setBit s.power.waking r false,
                                       idleSince := (s.power.idleSince.filter (fun p => p.1 != r)) ++ [(r, s.now)] } }

def execRegionResetDone (fault : Option Nat) (s : State) : Host.Outcome State Fault Refusal :=
  .next (s.regionResetDone fault)

/-- BOOT_COPY_CLEAR (R599): each 1 clears the attempt count of its copy. -/
def State.bootCopyClear (s : State) (a b : Bool) : State :=
  { s with backup := { s.backup with attemptsA := if a then 0 else s.backup.attemptsA,
                                     attemptsB := if b then 0 else s.backup.attemptsB } }

def execBootCopyClear (a b : Bool) (s : State) : Host.Outcome State Fault Refusal := .next (s.bootCopyClear a b)

/-- RST_TIMEOUT_WRITE (R614): a value outside 10 to 100,000 changes nothing and records 0x0101. -/
def State.rstTimeoutWrite (s : State) (b : Nat) (v : Word) : State :=
  if b ≥ 10 then s
  else if s.quoinSet 2 then s.plainWrite (regRstTimeout b) v
  else if 10 ≤ fld v 0 17 ∧ fld v 0 17 ≤ 100000 then s.plainWrite (regRstTimeout b) v
  else s.log 0x0101 rstBase (regRstTimeout b)

def execRstTimeoutWrite (b : Nat) (v : Word) (s : State) : Host.Outcome State Fault Refusal :=
  .next (s.rstTimeoutWrite b v)

/-- The BOOT and RST words that show state held elsewhere (R612, R613, R615). -/
def viewReset (s : State) (off : Nat) : Option Word :=
  if off = bootBase + 0x00 then
    some (packFields [(0, s.backup.attemptsA % 4), (2, s.backup.attemptsB % 4), (4, bitOf s.boot.preferB),
      (5, bitOf s.boot.loaded), (6, bitOf s.boot.activeB)])
  else if off = bootBase + 0x04 then
    some (packFields [(0, s.boot.statusA.toNat), (16, s.boot.statusB.toNat)])
  else if off = bootBase + 0x08 then some (BitVec.ofNat 32 s.boot.cfgSeq)
  else if off = bootBase + 0x0C then some (BitVec.ofNat 32 s.boot.applyFails)
  else if off = bootBase + 0x10 then some (packFields [(0, bitOf s.boot.applyFailsOvf)])
  else if off = bootBase + 0x14 then some (BitVec.ofNat 32 s.boot.xspiMiB)
  else if off = rstBase + 0x04 then
    some (packFields ((List.range 9).map (fun b => (b, bitOf (s.blockHeld b)))))
  else if off = rstBase + 0x08 then some (s.rst.forced.setWidth 32)
  else if off = rstBase + 0x14 then
    some (packFields [(0, bitOf s.rst.unit.isSome), (1, bitOf s.rst.unitForced)])
  else if off = rstBase + 0x1C then
    some (packFields [(0, bitOf s.rst.region.isSome), (16, s.rst.regionStatus.toNat)])
  else none

/-- Bus writes to the BOOT and RST words. -/
def writeReset (s : State) (off : Nat) (v : Word) : Option State :=
  if off = bootBase then some (s.bootCopyClear (v.getLsbD 8) (v.getLsbD 9))
  else if off = bootBase + 0x10 then
    some (if v.getLsbD 0 then { s with boot := { s.boot with applyFailsOvf := false } } else s)
  else if off = rstBase then some (s.rstRequestWrite v)
  else if off = rstBase + 0x04 then some (s.blockSoftReset v)
  else if off = rstBase + 0x08 then
    some { s with rst := { s.rst with forced := s.rst.forced &&& ~~~(v.setWidth 9) } }
  else if off = regRstUnit then
    some (if v.getLsbD 31 then s.unitSoftReset (fld v 0 4) (fld v 8 8) else s.plainWrite off v)
  else if off = regRstRegion then
    some (if v.getLsbD 31 then s.regionReset (fld v 0 6) else s.plainWrite off v)
  else if regRstTimeout 0 ≤ off ∧ off < regRstTimeout 10 ∧ off % 4 = 0 then
    some (s.rstTimeoutWrite ((off - regRstTimeout 0) / 4) v)
  else none

end Sys2Proof.Machine
end

