-- ==== Sys2Proof/Machine/Trust.lean ====
section
/-! DEFINITION. The saggar: mailboxes, signed requests, life cycle, attestation, zeroisation and quoin bits
(R550-R579). -/

namespace Sys2Proof.Machine

def Trust.mbox (t : Trust) (m : Nat) : Mailbox := if m = 0 then t.mbox0 else t.mbox1

def Trust.setMbox (t : Trust) (m : Nat) (x : Mailbox) : Trust :=
  if m = 0 then { t with mbox0 := x } else { t with mbox1 := x }

def State.mbox (s : State) (m : Nat) : Mailbox := s.trust.mbox m

def State.setMbox (s : State) (m : Nat) (x : Mailbox) : State := { s with trust := s.trust.setMbox m x }

/-- The mailbox draws a new nonce (R565). -/
def State.newNonce (s : State) (m : Nat) : State :=
  let (k, s) := s.takeFree
  s.setMbox m { s.mbox m with nonce := Config.nonce k }

/-- A request ends: STATUS, DONE and the response, which stands at the start of the buffer (R562). -/
def State.mboxEnd (s : State) (m : Nat) (st : Status) (resp : List Byte := []) : State :=
  let x := s.mbox m
  s.setMbox m { x with busy := false, done := true, status := st, rlen := resp.length,
                       buf := resp ++ x.buf.drop resp.length }

/-- The opcodes of R563. -/
def mboxOpcodes : List Nat := [0x01, 0x02, 0x03, 0x10, 0x11, 0x12, 0x13, 0x14, 0x15, 0x20]

/-- A GO (R562): refused with 0x0F0C while BUSY; an opcode no command has ends with 0x0102; otherwise the request is
under way. -/
def State.mboxCmdWrite (s : State) (m : Nat) (v : Word) : State :=
  let x := s.mbox m
  if v.getLsbD 31 then
    if x.busy then s.setMbox m { x with status := 0x0F0C }
    else
      let s := s.setMbox m { x with opcode := fld v 0 8, length := fld v 16 13, busy := true, done := false,
                                    status := 0, rlen := 0 }
      if mboxOpcodes.contains (fld v 0 8) then s else s.mboxEnd m 0x0102
  else if x.busy then s
  else s.setMbox m { x with opcode := fld v 0 8, length := fld v 16 13 }

/-- Is this request the one under way in mailbox m? -/
def State.mboxServes (s : State) (m opcode : Nat) : Bool :=
  decide (m < 2) && (s.mbox m).busy && (s.mbox m).opcode == opcode

/-- GET_NONCE (R563). -/
def State.getNonce (s : State) (m : Nat) : State :=
  if s.mboxServes m 0x01 then
    if (s.mbox m).length != 0 then s.mboxEnd m 0x0F0D
    else s.mboxEnd m 0 (leBytes 48 (s.mbox m).nonce.toNat)
  else s

def execGetNonce (m : Nat) (s : State) : Host.Outcome State Fault Refusal := .next (s.getNonce m)

/-- GET_IDENTITY (R553, R563): the IK point, then the factory certificate. -/
def State.getIdentity (s : State) (m : Nat) : State :=
  if s.mboxServes m 0x02 then
    if (s.mbox m).length != 0 then s.mboxEnd m 0x0F0D
    else s.mboxEnd m 0 (publicPoint s.trustKept.ik ++ s.trustKept.cert)
  else s

def execGetIdentity (m : Nat) (s : State) : Host.Outcome State Fault Refusal := .next (s.getIdentity m)

def LcState.code : LcState → Nat
  | .blank => 0
  | .provisioned => 1
  | .deployed => 2
  | .returned => 3

def LcState.ofCode : Nat → Option LcState
  | 0 => some .blank
  | 1 => some .provisioned
  | 2 => some .deployed
  | 3 => some .returned
  | _ => none

/-- CONFIG_HASH as the report and AK's derivation take it: 0 when no image is loaded (R567). -/
def State.configHashBytes (s : State) : List Byte := s.boot.configHash.getD (List.replicate 48 0)

/-- The attestation key of this reset (R552). -/
def State.attestKey (s : State) : Nat := s.trustKept.ak s.lc.code s.configHashBytes

/-- The report of R567 before its trailer; `k` is the random number of IK's signature over AK. -/
def State.attestBody (s : State) (seq k : Nat) (nonce : List Byte) : List Byte :=
  let plates := s.plateDigests
  let ak := publicPoint s.attestKey
  let owner := leBytes 1 s.trustKept.ownerEpoch
  let state := leBytes 1 s.lc.code
  leBytes 4 0x41545452 ++ leBytes 2 1 ++ state ++ owner ++ leBytes 4 s.fuses.partId ++ leBytes 4 (s.deviceId % 2 ^ 24) ++
  leBytes 16 s.trustKept.uid.toNat ++ nonce ++ leBytes 8 seq ++ leBytes 4 s.backup.resetCount ++ leBytes 4 plates.length ++
  leBytes 8 s.trust.quoin.toNat ++
  leBytes 4 (bitOf (s.boot.loaded && s.boot.activeB) + 2 * bitOf s.trust.debugUsed + 4 * bitOf s.openRouteExists +
    8 * bitOf s.gnozTimeValid) ++
  leBytes 4 0 ++ s.trustKept.romHash ++ s.configHashBytes ++
  (match s.trustKept.keys.getD 0 none with | some x => sha384 x.point | none => List.replicate 48 0) ++
  ak ++ List.replicate 7 0 ++
  ecdsaSign s.trustKept.ik k (ak ++ s.trustKept.romHash ++ s.configHashBytes ++ owner ++ state) ++
  publicPoint s.trustKept.tk ++ List.replicate 23 0 ++ plates.flatMap (leBytes 8)

/-- ATTEST (R567, R568): refused with 0x0F08 after a zeroisation and with 0x0F03 in Blank. Its two signatures take the numbers
that the saggar draws for them. -/
def State.attest (s : State) (m : Nat) (draws : SignDraws) : State :=
  if s.mboxServes m 0x03 then
    if s.trust.zeroised then s.mboxEnd m 0x0F08
    else if s.lc == .blank || s.trust.pending then s.mboxEnd m 0x0F03
    else if (s.mbox m).length != 48 then s.mboxEnd m 0x0F0D
    else
      let (n, s) := s.issueSeq
      let body := s.attestBody n (signK draws.ak) (slice (s.mbox m).buf 0 48)
      let ak := s.attestKey
      s.mboxEnd m 0 (body ++ makeTrailer ak (signK draws.report) (digest8 (publicPoint ak)) body)
  else s

def execAttest (m : Nat) (draws : SignDraws) (s : State) : Host.Outcome State Fault Refusal := .next (s.attest m draws)

/-- The body length each signed command has (R563). -/
def sagBodyLen (opcode : Nat) (body : List Byte) : Nat :=
  match opcode with
  | 0x10 => if leField body 1 1 = 1 then 101 else 4
  | 0x11 => 101
  | 0x12 => 1
  | 0x13 => 109
  | 0x14 => 4
  | _ => 1

/-- Body fields in their range and reserved fields 0 (R563, R565 check 1). -/
def sagBodyOk (opcode : Nat) (body : List Byte) : Bool :=
  match opcode with
  | 0x10 => leField body 2 2 == 0 && decide (leField body 0 1 ≤ 3) && decide (leField body 1 1 ≤ 3)
  | 0x11 => leField body 1 3 == 0 && decide (1 ≤ leField body 0 1 ∧ leField body 0 1 ≤ 15)
  | 0x12 => decide (1 ≤ leField body 0 1 ∧ leField body 0 1 ≤ 15)
  | 0x13 => decide (1 ≤ leField body 0 4 ∧ leField body 0 4 ≤ 4095) && leField body 10 2 == 0 &&
      decide (leField body 4 4 < 2 ^ 24)
  | 0x14 => decide (1 ≤ leField body 0 4 ∧ leField body 0 4 ≤ 4095)
  | 0x15 => decide (1 ≤ leField body 0 1 ∧ leField body 0 1 ≤ 3)
  | _ => true

/-- The point that a command's body carries (R563). -/
def sagPoint (opcode : Nat) (body : List Byte) : Option (List Byte) :=
  match opcode with
  | 0x10 => if leField body 1 1 = 1 then some (slice body 4 97) else none
  | 0x11 => some (slice body 4 97)
  | 0x13 => some (slice body 12 97)
  | _ => none

/-- A point, when KEY_ID names it (R554). -/
def namedBy (kid : Nat) (q : List Byte) : Option (List Byte) := if digest8 q = kid then some q else none

/-- The point of the key that a command requires, when KEY_ID names it (R563, R572). -/
def State.sagKey (s : State) (opcode kid : Nat) (body : List Byte) : Option (List Byte) :=
  let root := (s.trustKept.keys.getD 0 none).bind (fun x => if x.keyId = kid then some x.point else none)
  match opcode with
  | 0x10 => if leField body 1 1 = 1 ∧ (s.lc == .blank || s.lc == .returned) then namedBy kid (slice body 4 97) else root
  | 0x11 | 0x12 => root
  | 0x15 => if s.lc == .returned then namedBy kid s.trustKept.factoryKey else s.trustKept.keyPoint kid
  | _ => s.trustKept.keyPoint kid

/-- The transitions of R572. -/
def lcAllowed : LcState → LcState → Bool
  | .blank, .provisioned => true
  | .provisioned, .deployed => true
  | .deployed, .provisioned => true
  | .provisioned, .returned => true
  | .deployed, .returned => true
  | .returned, .provisioned => true
  | _, _ => false

/-- The command is permitted in the current state (R565 check 5). -/
def State.sagStateOk (s : State) (opcode : Nat) (body : List Byte) : Bool :=
  !s.trust.pending &&
  match opcode with
  | 0x10 => leField body 0 1 == s.lc.code &&
      (match LcState.ofCode (leField body 1 1) with | some t => lcAllowed s.lc t | none => false)
  | 0x14 => !s.routeNamesKey (leField body 0 4)
  | 0x15 => if leField body 0 1 = 3 then s.lc == .returned else true
  | _ => true

/-- The quoin bit that covers a command (R569). -/
def sagQuoin : Nat → Option Nat
  | 0x10 => some 11
  | 0x11 => some 9
  | 0x12 => some 9
  | 0x13 => some 10
  | 0x14 => some 10
  | 0x15 => some 12
  | _ => none

/-- Check 8 of R565: room in the slots, the pairings, the fuses and OTP. -/
def State.sagRoom (s : State) (opcode : Nat) (body : List Byte) : Status :=
  match opcode with
  | 0x10 => if (leField body 1 1 = 1 ∧ s.trustKept.ownerEpoch ≥ 15) ∨ s.trustKept.lcSlots.length ≥ 64 then 0x0F07 else 0
  | 0x11 => if (s.trustKept.keys.getD (leField body 0 1) none).isSome then 0x0F05 else 0
  | 0x13 => if s.trustKept.pairs.any (fun p => p.keyId == leField body 0 4) then 0x0F05 else 0
  | _ => 0

/-- The checks of R565 in their order; 0 when all pass. -/
def State.sagCheck (s : State) (m opcode : Nat) : Status :=
  let x := s.mbox m
  let b := x.buf
  let bl := leField b 0x48 4
  let body := slice b 80 bl
  let whole := slice b 0 (208 + bl)
  let kid := leField b (80 + bl + 8) 8
  if leField b 0 4 ≠ 0x53524551 ∨ leField b 4 2 ≠ 1 ∨ leField b 6 1 ≠ opcode ∨ leField b 7 1 ≠ 0 ∨
      leField b 0x4C 4 ≠ 0 ∨ bl ≠ sagBodyLen opcode body ∨ x.length ≠ 208 + bl ∨ !sagBodyOk opcode body then 0x0F0D
  else if leField b 8 16 ≠ s.trustKept.uid.toNat ∨ leField b 0x18 48 ≠ x.nonce.toNat then 0x0F04
  else match s.sagKey opcode kid body with
    | none => 0x0F06
    | some q =>
      if !trailerVerifies whole kid q then 0x0F02
      else if !s.sagStateOk opcode body then 0x0F03
      else if (match sagQuoin opcode with | some q => s.quoinSet q | none => false) then 0x0F01
      else if (match sagPoint opcode body with | some q => (pointOf q).isNone | none => false) then 0x0F0B
      else s.sagRoom opcode body

/-- The body of the signed request in mailbox m. -/
def State.sagBody (s : State) (m : Nat) : List Byte :=
  slice (s.mbox m).buf 80 (leField (s.mbox m).buf 0x48 4)

/-- A refused signed request changes no key, slot, state or quoin bit; the mailbox draws a new nonce, a covering
quoin bit is recorded (R565, R570). -/
def State.sagRefuse (s : State) (m : Nat) (st : Status) : State := (s.newNonce m).mboxEnd m st

/-- A signed request that passed its checks, run by `f`; a key record that neither block accepts (`keyOk` false) fails it with
0x0F0A and leaves the previous record current (R557). -/
def State.signed (s : State) (m opcode : Nat) (keyOk : Bool) (f : List Byte → State → State) : State :=
  if s.mboxServes m opcode then
    let st := s.sagCheck m opcode
    if st ≠ 0 then s.sagRefuse m st
    else if !keyOk then (s.sagRefuse m 0x0F0A).log 0x0F0A sagBase
    else ((f (s.sagBody m) s).newNonce m).mboxEnd m 0
  else s

/-- A new key record is appended to the current key block (R555). -/
def State.keyRecordAppend (s : State) : State :=
  let k := s.trustKept.keyBlocks
  let n := k.seq + 1
  let k := if k.current1 then { k with block1 := some n, seq := n } else { k with block0 := some n, seq := n }
  { s with trustKept := { s.trustKept with keyBlocks := k } }

/-- INSTALL_KEY (R563): the key enters its free slot and the key record. -/
def State.installKey (s : State) (m : Nat) (keyOk : Bool) : State :=
  s.signed m 0x11 keyOk (fun body s =>
    let slot := leField body 0 1
    let key : OwnerKey := { keyId := digest8 (slice body 4 97), point := slice body 4 97 }
    State.keyRecordAppend { s with trustKept := { s.trustKept with
      keys := modAt s.trustKept.keys slot (fun _ => some key) } })

def execInstallKey (m : Nat) (keyOk : Bool) (s : State) : Host.Outcome State Fault Refusal :=
  .next (s.installKey m keyOk)

/-- REMOVE_KEY (R563): the slot is emptied. -/
def State.removeKey (s : State) (m : Nat) (keyOk : Bool) : State :=
  s.signed m 0x12 keyOk (fun body s =>
    State.keyRecordAppend { s with trustKept := { s.trustKept with
      keys := modAt s.trustKept.keys (leField body 0 1) (fun _ => none) } })

def execRemoveKey (m : Nat) (keyOk : Bool) (s : State) : Host.Outcome State Fault Refusal :=
  .next (s.removeKey m keyOk)

/-- PAIR (R566): the pair key with the peer is held under KEY_ID. -/
def State.pair (s : State) (m : Nat) (keyOk : Bool) : State :=
  s.signed m 0x13 keyOk (fun body s =>
    let p : PairKey := { keyId := leField body 0 4, peer := leField body 4 4, rotation := leField body 8 2,
                         peerPoint := slice body 12 97 }
    State.keyRecordAppend { s with trustKept := { s.trustKept with pairs := s.trustKept.pairs ++ [p] } })

def execPair (m : Nat) (keyOk : Bool) (s : State) : Host.Outcome State Fault Refusal := .next (s.pair m keyOk)

/-- UNPAIR (R566): refused with 0x0F03 while a valid route names the key. -/
def State.unpair (s : State) (m : Nat) (keyOk : Bool) : State :=
  s.signed m 0x14 keyOk (fun body s =>
    State.keyRecordAppend { s with trustKept := { s.trustKept with
      pairs := s.trustKept.pairs.filter (fun p => p.keyId != leField body 0 4) } })

def execUnpair (m : Nat) (keyOk : Bool) (s : State) : Host.Outcome State Fault Refusal := .next (s.unpair m keyOk)

/-- Zeroisation (R575, R576): every unwrapped key is cleared; the key record stays. -/
def State.zeroiseKeys (s : State) : State :=
  { s.clearUnwrappedKeys with trust := { s.clearUnwrappedKeys.trust with zeroised := true } }

/-- DEBUG_UNLOCK (R577): opens the level that the request in the mailbox gives, until reset; in Deployed it zeroises first. -/
def State.debugUnlock (s : State) (m level : Nat) : State :=
  if leField (s.sagBody m) 0 1 = level then
    s.signed m 0x15 true (fun _ s =>
      let s := if s.lc == .deployed then s.zeroiseKeys else s
      { s with trust := { s.trust with debug := max s.trust.debug level, debugUsed := true } })
  else s

def execDebugUnlock (m level : Nat) (s : State) : Host.Outcome State Fault Refusal :=
  .next (s.debugUnlock m level)

/-- LC_TRANSITION (R572-R574): admission closes, the crypto-erase and the media handover the row requires are made,
OTP and fuses are written, keys are zeroised and a reset is requested. A crypto-erase whose record no key block
accepts fails the request with 0x0F0A (R557). -/
def State.lcTransition (s : State) (m : Nat) (keyOk : Bool) : State :=
  let dest := LcState.ofCode (leField (s.sagBody m) 1 1)
  let erases := dest != some .deployed
  s.signed m 0x10 (keyOk || !erases) (fun body s =>
    let old := s.lc
    let new := (LcState.ofCode (leField body 1 1)).getD old
    let s := { s with trust := { s.trust with pending := true } }
    let s := if erases then s.cryptoEraseAll else s
    let raises := new == .provisioned && (old == .blank || old == .returned)
    let s := if raises then s.mediaHandover else s
    let root : OwnerKey := { keyId := digest8 (slice body 4 97), point := slice body 4 97 }
    let k := s.trustKept
    let k := { k with lcSlots := k.lcSlots ++ [new] }
    let k := if raises then
        { k with ownerEpoch := k.ownerEpoch + 1, keys := some root :: List.replicate 15 none, pairs := [] }
      else if new == .returned then { k with keys := List.replicate 16 none, pairs := [] } else k
    (({ s with trustKept := k }).zeroiseKeys).requestReset 2)

def execLcTransition (m : Nat) (keyOk : Bool) (s : State) : Host.Outcome State Fault Refusal :=
  .next (s.lcTransition m keyOk)

/-- Where a ZEROISE came from (R575). -/
def State.zeroiseCmd (s : State) (viaMbox : Option Nat) (key : Word) : State :=
  match viaMbox with
  | none => if key = 0x5A45524F then s.zeroiseKeys else s
  | some m =>
    if s.mboxServes m 0x20 then
      if (s.mbox m).length != 0 then s.mboxEnd m 0x0F0D else (s.zeroiseKeys).mboxEnd m 0
    else s

def execZeroise (viaMbox : Option Nat) (key : Word) (s : State) : Host.Outcome State Fault Refusal :=
  .next (s.zeroiseCmd viaMbox key)

/-- QUOIN_SET (R569): each 1 written to SAG_QUOIN_SET0 (`hi` false) or SET1 sets its bit; nothing but a reset
clears one. -/
def State.quoinSetWrite (s : State) (hi : Bool) (v : Word) : State :=
  let m : BitVec 64 := if hi then v.setWidth 64 <<< 32 else v.setWidth 64
  { s with trust := { s.trust with quoin := s.trust.quoin ||| m } }

def execQuoinSet (hi : Bool) (v : Word) (s : State) : Host.Outcome State Fault Refusal :=
  .next (s.quoinSetWrite hi v)

/-- TIME_FLOOR_UPDATE (R561): while Gnoz time is valid it is written to SAG_TIME_FLOOR; while it is not, 0x0F09 is
recorded once per reset. -/
def State.timeFloorUpdate (s : State) : State :=
  if s.gnozTimeValid then { s with backup := { s.backup with timeFloorMs := s.gnozTimeMs } }
  else if s.trust.timeInvalidLogged then s
  else { (s.log 0x0F09 sagBase) with trust := { s.trust with timeInvalidLogged := true } }

def execTimeFloorUpdate (s : State) : Host.Outcome State Fault Refusal := .next s.timeFloorUpdate

/-- Is a JTAG access open (R577)? -/
def State.jtagOpen (s : State) : JtagAccess → Bool
  | .idcodeBypass => true
  | .extest => s.lc != .deployed || decide (s.trust.debug ≥ 2)
  | .registerAccess _ _ => s.lc == .blank || s.lc == .returned || decide (s.trust.debug ≥ 1)
  | .scan => s.lc == .blank || (s.lc == .returned && decide (s.trust.debug ≥ 3))
  | .saggarInternals => false

/-- The SAG words that show state held elsewhere (R579, R682). -/
def viewSag (s : State) (p : BusPath) (off : Nat) : Option Word :=
  let mb (m : Nat) (x : Nat) : Word :=
    let b := s.mbox m
    if x = 0 then packFields [(0, b.opcode), (16, b.length)]
    else if x = 4 then packFields [(0, bitOf b.busy), (1, bitOf b.done), (16, b.status.toNat)]
    else if x = 8 then BitVec.ofNat 32 b.rlen
    else 0
  let mine (m : Nat) : Bool := if m = 0 then p == .pcie0 || p == .pcie1 else p == .sideband || p == .jtag
  if off < sagBase ∨ off ≥ sagBase + 0x10000 then none
  else
    let o := off - sagBase
    if o = 0 then some (s.trust.quoin.setWidth 32)
    else if o = 4 then some ((s.trust.quoin >>> 32).setWidth 32)
    else if o = 8 then
      some (packFields [(0, s.lc.code), (4, s.trustKept.ownerEpoch % 16),
        (8, (64 - s.trustKept.lcSlots.length) % 64), (16, bitOf s.trust.pending), (17, bitOf s.trust.zeroised),
        (18, s.trust.debug % 4), (20, bitOf s.gnozTimeValid)])
    else if o = 0x18 then some (BitVec.ofNat 32 s.backup.timeFloorMs)
    else if o = 0x1C then some (BitVec.ofNat 32 (s.backup.timeFloorMs / 2 ^ 32))
    else if o ≥ 0x100 ∧ o < 0x140 then
      let m := (o - 0x100) / 0x20
      some (if mine m then mb m ((o - 0x100) % 0x20) else 0)
    else if o ≥ 0x1000 ∧ o < 0x3000 then
      let m := (o - 0x1000) / 0x1000
      some (if mine m then BitVec.ofNat 32 (leField (s.mbox m).buf ((o - 0x1000) % 0x1000) 4) else 0)
    else none

/-- A list of 4,096 bytes with four replaced. -/
def bufSet (b : List Byte) (off : Nat) (v : Word) : List Byte :=
  slice b 0 off ++ leBytes 4 v.toNat ++ slice b (off + 4) (4096 - (off + 4))

/-- Bus writes to those words. -/
def writeSag (s : State) (p : BusPath) (off : Nat) (v : Word) : Option State :=
  let mine (m : Nat) : Bool := if m = 0 then p == .pcie0 || p == .pcie1 else p == .sideband || p == .jtag
  if off < sagBase ∨ off ≥ sagBase + 0x10000 then none
  else
    let o := off - sagBase
    if o = 0 then some (s.quoinSetWrite false v)
    else if o = 4 then some (s.quoinSetWrite true v)
    else if o = 0x14 then some (s.zeroiseCmd none v)
    else if o ≥ 0x100 ∧ o < 0x140 then
      let m := (o - 0x100) / 0x20
      some (if mine m && (o - 0x100) % 0x20 == 0 then s.mboxCmdWrite m v else s)
    else if o ≥ 0x1000 ∧ o < 0x3000 then
      let m := (o - 0x1000) / 0x1000
      some (if mine m && !(s.mbox m).busy then
        s.setMbox m { s.mbox m with buf := bufSet (s.mbox m).buf ((o - 0x1000) % 0x1000) v } else s)
    else none

end Sys2Proof.Machine
end

