-- ==== Sys2Proof/Machine/Bus.lean ====
section
/-! DEFINITION. Register access: what answers at a BAR0 offset, and how the words of every block are read and written
(R7-R12, R570, R587, R624, R674-R682). -/

namespace Sys2Proof.Machine

/-- Unassigned ranges of BAR0 (R675). -/
def offUnassigned (off : Nat) : Bool :=
  (decide (0x50000 ≤ off) && decide (off < 0x100000)) || (decide (0xF00000 ≤ off) && decide (off < 0x1000000))

/-- The blocks that answer before READY: AON, BOOT, RST, CLK/PWR, SAG and MED (R587). -/
def offEarly (off : Nat) : Bool := decide (off < 0x50000) || (decide (medBase ≤ off) && decide (off < mapBase))

/-- Ranges that the field die serves (R675). -/
def offField (off : Nat) : Bool := (decide (synBase ≤ off) && decide (off < obsBase)) || decide (tilBase ≤ off)

/-- Ranges that the net die serves (R675). -/
def offNet (off : Nat) : Bool :=
  (decide (egsBase ≤ off) && decide (off < grpBase)) ||
  (decide (cmpBase + 0x20000 ≤ off) && decide (off < cmpBase + 0x30000)) ||
  (decide (poolBase + 0x10000 ≤ off) && decide (off < poolBase + 0x20000)) ||
  (decide (poolBase + 0x30000 ≤ off) && decide (off < poolBase + 0x40000)) ||
  (decide (poolBase + 0x41000 ≤ off) && decide (off < poolBase + 0x42000))

/-- The tile whose window holds an offset (R47). -/
def offTile (off : Nat) : Nat := (off - tilBase) / 0x8000

/-- Who answers an access. -/
inductive Served where
  /-- The block of the offset. -/
  | block
  /-- Before READY, outside the blocks of R587: reads give 0, writes are discarded, nothing is recorded. -/
  | quiet
  /-- The domain is held in reset or unpowered, so no one answers (R584, R590, R655). -/
  | silent
  | unassigned
  /-- A fenced die: true the field die, false the net die (R677). -/
  | fenced (field : Bool)
  /-- The window of a tile in an inactive region (R7). -/
  | inactiveTile
  /-- A die whose link retrains: the access waits in the replay buffer (R40). -/
  | held
  /-- No BAR0 offset. -/
  | beyond
  deriving DecidableEq, Repr

/-- Every domain but the always-on one is in reset or has lost its rails: reset held (R584), trim fault (R590), Off
(R655). -/
def State.mainHeld (s : State) : Bool := s.boot.resetHeld || s.boot.phase == .trimFault || s.power.mainOff

/-- The die link that a register access from PCIe, on the media die, crosses (R38). -/
def offLink (off : Nat) : Option DieLink :=
  if offField off then some .fm else if offNet off then some .mn else none

/-- The access crosses a link that retrains (R40). -/
def State.linkRetrains (s : State) (p : BusPath) (off : Nat) : Bool :=
  (p == .pcie0 || p == .pcie1) && (match offLink off with
    | some l => (s.links.get l).state == 1
    | none => false)

/-- The field and net dies are clamped by a thermal trip (R636). -/
def State.clamped (s : State) (off : Nat) : Bool := s.power.tripAt.isSome && (offField off || offNet off)

/-- What answers an access from a path at an offset. The image writes in step 10, when no other path is served (R678). -/
def State.served (s : State) (p : BusPath) (off : Nat) : Served :=
  if off ≥ 0x4000000 then .beyond
  else if !s.ready && p != .image && !offEarly off then .quiet
  else if (s.mainHeld && decide (off ≥ sagBase)) || s.clamped off then .silent
  else if offUnassigned off then .unassigned
  else if offField off && s.fieldFenced then .fenced true
  else if offNet off && s.netFenced then .fenced false
  else if decide (tilBase ≤ off) && !s.regionActive (offTile off / 32) then .inactiveTile
  else if s.linkRetrains p off then .held
  else .block

/-- 0x1002 is recorded once per die per reset (R677). -/
def State.fencedAccess (s : State) (field : Bool) : State :=
  let done := if field then s.links.fieldLogged else s.links.netLogged
  if done then s
  else
    let s := s.log 0x1002 aonBase
    if field then { s with links := { s.links with fieldLogged := true } }
    else { s with links := { s.links with netLogged := true } }

/-- 0x0101 with the offset, at most once per second (R676). -/
def State.unassignedAccess (s : State) (off : Nat) : State :=
  if secondPassed s.now s.rst.unassignedAt then
    let s := s.log 0x0101 0 off
    { s with rst := { s.rst with unassignedAt := some s.now } }
  else s

/-- The word a block shows at an offset: a computed word, or the stored one. -/
def State.blockWord (s : State) (p : BusPath) (off : Nat) : Word :=
  let v : Option Word :=
    if off < bootBase then viewPower s off
    else if off < pwrBase then viewReset s off
    else if off < sagBase then viewPower s off
    else if off < yqiBase then viewSag s p off
    else if off < medBase then viewYqi s off
    else if off < cmpBase then viewMedia s off
    else if off < decBase then viewCmp s off
    else if off < tokBase then viewDec s off
    else if off < wdgBase then viewTok s off
    else if off < poolBase then viewWdg s off
    else if off < gnzBase then viewNet s off
    else if off < grpBase then viewGnz s off
    else if off < synBase then viewGrp s off
    else if off < obsBase then viewSync s off
    else if off < stkBase then viewObserve s off
    else if off < tilBase then viewStk s off
    else some (viewTile s (offTile off) ((off - tilBase) % 0x8000))
  v.getD (s.reg off)

/-- PWR_CTRL (R624, R646, R647). -/
def State.pwrCtrlWrite (s : State) (p : BusPath) (v : Word) : State :=
  match fld v 0 2 with
  | 0 => if p = .sideband then s.wakeEvent .sidebandTarget else s
  | 1 => s.idleRequest
  | 2 => s.offRequest (fld v 16 16)
  | _ => s.log 0x0101 pwrBase (pwrBase + 4)

/-- A write that the block of the offset takes. -/
def State.blockWrite (s : State) (p : BusPath) (off : Nat) (v : Word) : State :=
  let r : Option State :=
    if off = pwrBase + 4 then some (s.pwrCtrlWrite p v)
    else if off < bootBase then writePower s off v
    else if off < pwrBase then writeReset s off v
    else if off < sagBase then writePower s off v
    else if off < yqiBase then writeSag s p off v
    else if off < medBase then none
    else if off < cmpBase then writeMedia s off v
    else if off < decBase then writeCmp s off v
    else if off < tokBase then writeDec s off v
    else if off < wdgBase then none
    else if off < poolBase then writeWdg s off v
    else if off < gnzBase then writeNet s off v
    else if off < grpBase then writeGnz s off v
    else if off < synBase then writeGrp s off v
    else if off < obsBase then writeSync s p off v
    else if off < stkBase then writeObserve s p off v
    else if off < tilBase then writeStk s off v
    else some (s.writeTile (offTile off) ((off - tilBase) % 0x8000) v)
  r.getD (s.plainWrite off v)

/-- A BAR0 access wakes the device from Idle (R624); the sideband does not. -/
def State.busWake (s : State) (p : BusPath) : State :=
  if (p == .pcie0 || p == .pcie1) && decide (s.power.state ≠ .run) then s.wakeEvent .bar0Access else s

/-- An access waits for its link, behind those before it (R40). -/
def State.holdAccess (s : State) (p : BusPath) (off : Nat) (write : Option Word) (bytes : Nat) : State :=
  { s with links := { s.links with held := s.links.held ++ [(p, off, write, bytes)] } }

/-- A 32-bit write from a path (R10, R678). While reset is held only sideband reads are served (R584). -/
def State.busWrite (s : State) (p : BusPath) (off : Nat) (v : Word) : State :=
  let s := s.busWake p
  if s.boot.resetHeld then s
  else match s.served p off with
    | .block => s.blockWrite p off v
    | .unassigned => s.unassignedAccess off
    | .fenced f => s.fencedAccess f
    | .inactiveTile => s.log 0x0103 tilBase off
    | .held => s.holdAccess p off (some v) 4
    | .quiet | .silent | .beyond => s

/-- The read of the HI word of an event counter uses up the latch of R390. -/
def State.useLatch (s : State) (off : Nat) : State :=
  let o := (off - tilBase) % 0x8000
  if decide (tilBase ≤ off) && decide (0x140 ≤ o) && decide (o < 0x180) then
    let t := offTile off
    if o % 8 = 0 then s.setTile t { s.tile t with hiLatch := some ((o - 0x140) / 8, (s.tile t).evtCnt.getD ((o - 0x140) / 8) 0 / 2 ^ 32) }
    else s.setTile t { s.tile t with hiLatch := none }
  else s

/-- A 32-bit read from a path: the word, or none where nothing answers. -/
def State.busRead (s : State) (p : BusPath) (off : Nat) : Option Word × State :=
  let s := s.busWake p
  match s.served p off with
  | .block => (some (s.blockWord p off), s.useLatch off)
  | .quiet => (some 0, s)
  | .unassigned => (some 0, s.unassignedAccess off)
  | .fenced f => (some 0xFFFFFFFF, s.fencedAccess f)
  | .inactiveTile => (some 0, s.log 0x0103 tilBase off)
  | .silent => (none, s)
  | .held => (none, s.holdAccess p off none 4)
  | .beyond => (none, s)

/-- A 32-bit or 64-bit read (R11): the words go out on its path; a 64-bit one reads two consecutive registers, the lower address
first. -/
def State.wideRead (s : State) (p : BusPath) (off bytes : Nat) : State :=
  if (s.busWake p).served p off = .held then (s.busWake p).holdAccess p off none bytes
  else match s.busRead p off with
  | (none, s) => s
  | (some w, s) =>
    if bytes = 8 then
      match s.busRead p (off + 4) with
      | (some h, s) => s.emit (.readData p off [w, h])
      | (none, s) => s
    else s.emit (.readData p off [w])

/-- One access: a write, or a read whose word goes out on its path. -/
def State.busAccess (s : State) (p : BusPath) (off : Nat) (write : Option Word) : State :=
  match write with
  | some v => s.busWrite p off v
  | none => s.wideRead p off 4

/-- REGISTER_WRITE (R8-R11): a write of one word, or of two with `hi`, of a register. A 64-bit access writes the lower word
first. -/
def State.registerWrite (s : State) (t : RegTarget) (v : Word) (hi : Option Word) : State :=
  match t with
  | .bar0 p off =>
    if p = .image ∨ off % 4 ≠ 0 ∨ (hi.isSome ∧ off % 8 ≠ 0) then s
    else
      let s := s.busWrite p off v
      match hi with
      | some h => s.busWrite p (off + 4) h
      | none => s
  | .bar2 fn off =>
    if s.mainHeld || decide (off % 4 ≠ 0) then s
    else
      let s := if s.power.state = .run then s else s.wakeEvent .doorbell
      let s := s.bar2Write fn off v
      match hi with
      | some h => s.bar2Write fn (off + 4) h
      | none => s
  | .msixMask fn vec => if s.mainHeld then s else s.setMsixMask fn vec (v.getLsbD 0)
  | .vfEnable l => if s.mainHeld then s else s.setVfEnable l v.toNat

def execRegisterWrite (t : RegTarget) (v : Word) (hi : Option Word) (s : State) : Host.Outcome State Fault Refusal :=
  .next (s.registerWrite t v hi)

/-- BAR0 takes naturally aligned 32-bit and 64-bit accesses (R11). -/
def accessOk (off bytes : Nat) : Bool := (bytes == 4 || bytes == 8) && decide (off % bytes = 0)

/-- BAD_ACCESS (R5, R11, R12): an access of another size or alignment completes with Unsupported Request and is recorded; before
READY nothing is recorded outside the blocks of R587. An access of a size and alignment that BAR0 takes is not bad: it reads the
one or two words at its offset. -/
def State.badAccess (s : State) (p : BusPath) (off bytes : Nat) : State :=
  if s.mainHeld || p == .sideband || p == .image || decide (off ≥ 0x4000000) then s
  else if accessOk off bytes then s.wideRead p off bytes
  else
    let s := (s.busWake p).emit (.unsupportedRequest p)
    if s.ready || offEarly off then s.log 0x0106 (off / 2 ^ 16 * 2 ^ 16) off else s

def execBadAccess (p : BusPath) (off bytes : Nat) (s : State) : Host.Outcome State Fault Refusal :=
  .next (s.badAccess p off bytes)

/-- INACTIVE_TILE_ACCESS (R7): any other access is none of this command's. -/
def State.inactiveTileAccess (s : State) (p : BusPath) (off : Nat) (write : Option Word) : State :=
  if (s.busWake p).served p off = .inactiveTile then s.busAccess p off write else s

def execInactiveTileAccess (p : BusPath) (off : Nat) (write : Option Word) (s : State) : Host.Outcome State Fault Refusal :=
  .next (s.inactiveTileAccess p off write)

/-- UNASSIGNED_ACCESS (R676). -/
def State.unassignedRangeAccess (s : State) (p : BusPath) (off : Nat) (write : Option Word) : State :=
  if (s.busWake p).served p off = .unassigned then s.busAccess p off write else s

def execUnassignedAccess (p : BusPath) (off : Nat) (write : Option Word) (s : State) : Host.Outcome State Fault Refusal :=
  .next (s.unassignedRangeAccess p off write)

/-- FENCED_DIE_ACCESS (R677). -/
def State.fencedDieAccess (s : State) (p : BusPath) (off : Nat) (write : Option Word) : State :=
  match (s.busWake p).served p off with
  | .fenced _ => s.busAccess p off write
  | _ => s

def execFencedDieAccess (p : BusPath) (off : Nat) (write : Option Word) (s : State) : Host.Outcome State Fault Refusal :=
  .next (s.fencedDieAccess p off write)

/-- EVENT_SEQ_CEILING_RAISE (R684): once the numbers issued have come within 2^32 of the ceiling, it rises by 2^36. -/
def State.ceilingRaise (s : State) : State :=
  if s.evt.near then { s with evt := s.evt.raise } else s

def execEventSeqCeilingRaise (s : State) : Host.Outcome State Fault Refusal := .next s.ceilingRaise

/-- SMB_ALERT_N is low (R669). -/
def State.alertLow (s : State) : Bool := s.power.wdtWarned || s.power.throttle || (s.mbox 1).done

/-- SMB_SET_OFFSET (R667, R668): a bad PEC discards the write. -/
def State.smbSetOffset (s : State) (off : Word) (pecOk : Bool) : State :=
  if pecOk then { s with sideband := { s.sideband with offset := off.toNat } } else s

def execSmbSetOffset (off : Word) (pecOk : Bool) (s : State) : Host.Outcome State Fault Refusal :=
  .next (s.smbSetOffset off pecOk)

/-- The status byte that the offset alone decides (R668): 2 above 0x0FF_FFFF, 3 unaligned. -/
def smbRange (off : Nat) : Nat := if off > 0xFFFFFF then 2 else if off % 4 ≠ 0 then 3 else 0

/-- Always-on registers answer in every state (R609, R668). -/
def smbAlways (off : Nat) : Bool := decide (off < sagBase)

/-- SMB_READ (R668): status, then value; the offset then advances by 4. `answered` says whether a block outside the
always-on domain answered within 1 ms. -/
def State.smbRead (s : State) (answered : Bool) : State :=
  let off := s.sideband.offset
  let fin (s : State) (st : Nat) (v : Word) : State :=
    { (s.emit (.smbus [st, v.toNat])) with
      sideband := { s.sideband with offset := (off + 4) % 2 ^ 32 } }
  if smbRange off ≠ 0 then fin s (smbRange off) 0xFFFFFFFF
  else if !(answered || smbAlways off) then fin s 1 0xFFFFFFFF
  else match s.busRead .sideband off with
    | (some w, s) => fin s 0 w
    | (none, s) => fin s 1 0xFFFFFFFF

def execSmbRead (answered : Bool) (s : State) : Host.Outcome State Fault Refusal := .next (s.smbRead answered)

/-- SMB_WRITE (R667, R668): a bad PEC discards the write; an offset out of reach or unaligned, or a block that does not
answer, changes nothing. -/
def State.smbWrite (s : State) (off v : Word) (pecOk answered : Bool) : State :=
  if pecOk && smbRange off.toNat == 0 && (answered || smbAlways off.toNat) then s.busWrite .sideband off.toNat v else s

def execSmbWrite (off v : Word) (pecOk answered : Bool) (s : State) : Host.Outcome State Fault Refusal :=
  .next (s.smbWrite off v pecOk answered)

/-- SMB_ALERT_RESPONSE (R669): the device's address once for an assertion of SMB_ALERT_N. -/
def State.alertResponse (s : State) : State :=
  if s.alertLow then
    if s.sideband.alertAnswered then s
    else { (s.emit (.smbus [0x58 + s.pins.smbAddr % 4])) with sideband := { s.sideband with alertAnswered := true } }
  else { s with sideband := { s.sideband with alertAnswered := false } }

def execSmbAlertResponse (s : State) : Host.Outcome State Fault Refusal := .next s.alertResponse

/-- JTAG_TAP_ACCESS (R577, R667): a closed access shifts out ones. An open register access reaches BAR0. -/
def State.jtagAccess (s : State) (a : JtagAccess) : State :=
  if s.jtagOpen a then
    match a with
    | .registerAccess off (some v) => s.busWrite .jtag off v
    | .registerAccess off none => s.wideRead .jtag off 4
    | .scan => s.emit (.tdo false)
    | _ => s.emit (.tdo false)
  else s.emit (.tdo true)

def execJtagTapAccess (a : JtagAccess) (s : State) : Host.Outcome State Fault Refusal := .next (s.jtagAccess a)

end Sys2Proof.Machine
end

