-- ==== Sys2Proof/Machine/Boot.lean ====
section
/-! DEFINITION. Package reset, power loss, and the reset sequence up to READY (R580-R602, R607, R608, R657). -/

namespace Sys2Proof.Machine

/-- The places of the write buffer whose units a last-gasp sequence programmed. -/
def gaspPlaces (ps : List LgPage) : List Nat := ps.filterMap (fun p => match p with | .data src _ => some src | _ => none)

/-- Units whose data is not on the media are gone (R154): no entry that names one of their places takes effect. -/
def MediaKept.dropPlaces (k : MediaKept) (gone : List Nat) : MediaKept :=
  let keepE (e : JEntry) : Bool := match e with
    | .map _ _ 1 p => !gone.contains p
    | .gcMove _ _ p => !gone.contains p
    | _ => true
  let img (i : MediaImage) : MediaImage := { i with map := i.map.filter (fun x => !gone.contains x.2) }
  let anc (a : Option Anchor) : Option Anchor := a.map (fun (x : Anchor) => { x with image := img x.image })
  { k with
    store := gone.foldl (fun m p => memZero m (p * 16384) ((p + 1) * 16384)) k.store,
    info := k.info.filter (fun x => !gone.contains x.1),
    journal := k.journal.map (fun (g : JPage) => { g with entries := g.entries.filter keepE }),
    lgPages := k.lgPages.map (fun p => match p with | .entries es => .entries (es.filter keepE) | x => x),
    anchor0 := anc k.anchor0, anchor1 := anc k.anchor1 }

/-- What was only in the protected region is lost (R154, R657). A journal page of which one copy passed is on the media
(R143). -/
def State.loseVolatile (s : State) : State :=
  let saved := gaspPlaces s.nand.lgPages
  let k := { s.nand with journal := s.nand.journal ++ s.media.programming.filter (fun (p : JPage) => p.passed0 || p.passed1) }
  { s with nand := k.dropPlaces (s.media.buffered.filter (fun p => !saved.contains p)) }

/-- What the NAND holds of its bands, whatever the journal says. -/
def State.notePages (s : State) : State :=
  if s.media.mapLoaded then { s with nand := { s.nand with bands := s.media.image.bands } } else s

/-- What a package reset keeps (R583); every other field returns to its reset value. The queue, the outputs, the clock and
the free-value counter are the model's own, and host memory is the board's. -/
def State.kept (s : State) : State := {
  pending := s.pending, freeCtr := s.freeCtr, out := s.out, now := s.now, fuseArray := s.fuseArray, fuses := s.fuses,
  evt := { s.evt with pendingAnchor := 0 },
  backup := s.backup, flash := s.flash, trustKept := s.trustKept,
  boot := { refclkOk := s.boot.refclkOk, porHeld := s.boot.porHeld },
  pins := { pwrFailN := s.pins.pwrFailN, smbAddr := s.pins.smbAddr },
  nand := s.nand,
  group := { namespaces := s.group.namespaces, prepared := s.group.prepared, decisions := s.group.decisions,
             remoteShares := s.group.remoteShares, nextWrite := s.group.nextWrite },
  groupRecord := s.groupRecord, hostMem := s.hostMem }

/-- Step 1 of R584: the reset is counted and its source latched; MAIN_PWR_EN is high again (R607, R655). -/
def State.resetAccepted (s : State) (powerOn : Bool) : State :=
  let was := s.pins.mainPwrEn
  let s := s.kept
  let s := { s with
    boot := { s.boot with fromPowerOn := powerOn },
    backup := { s.backup with resetCount := min (s.backup.resetCount + 1) (2 ^ 32 - 1),
                              causePowerOn := powerOn, causePin := !powerOn } }
  if was then s else s.emit (.pin .mainPwrEn true)

/-- POWER_ON (R581, R607): power-on reset is released once VDD_AON and the reference are good; step 2 is skipped, and what
was not flushed is gone. SMB_ADDR is read here (R661). -/
def State.powerOn (s : State) (smbAddr : Nat) : State :=
  let s := s.notePages.loseVolatile
  let s := s.resetAccepted true
  { s with boot := { s.boot with porHeld := false, refclkOk := true }, pins := { s.pins with smbAddr := smbAddr % 4, pwrFailN := true } }

def execPowerOn (smbAddr : Nat) (s : State) : Host.Outcome State Fault Refusal := .next (s.powerOn smbAddr)

/-- Step 2 of R584: the flush runs unless it has already completed; one that does not end in 30 ms is left, with the pages that it has
programmed (R154, R609). -/
def State.resetFlush (s : State) (done : Bool) (pages : Nat) : State :=
  if s.media.lgDone then s.notePages
  else if done then (s.lastGaspFinish 0).notePages
  else (s.gaspProgram pages).notePages.loseVolatile

/-- RESET_N_ASSERT (R580, R581, R584): an assertion of 10 µs or more is accepted, one below 1 µs is not, and between the two
either may happen. Nothing is accepted without the reference. -/
def State.resetN (s : State) (ns : Nat) (refclk flushed : Bool) (pages : Nat) : State :=
  if s.boot.porHeld || s.boot.resetHeld || !refclk || decide (ns < 1000) then s
  else
    let f := s.takeFree
    let accepted := decide (ns ≥ 10000) || Config.freeBit f.1
    let s := if ns ≥ 10000 then s else f.2
    if accepted then
      let lg := s.media.lgDone
      let s := (s.resetFlush flushed pages).resetAccepted false
      { s with boot := { s.boot with refclkOk := true, phase := if lg then .reset else .flush } }
    else s

def execResetNAssert (ns : Nat) (refclk : Bool) (flush : GaspEnd) (s : State) : Host.Outcome State Fault Refusal :=
  .next (s.resetN ns refclk flush.done flush.pages)

/-- POWER_LOSS (R154, R583, R607, R657): a sequence under way ends in time, or is cut off after some of its pages; everything
volatile is lost; without VBAT the backup domain is lost too. -/
def State.powerLoss (s : State) (vbat gaspDone : Bool) (pages : Nat) : State :=
  let s := if s.media.lgActive then (if gaspDone then s.lastGaspFinish 0 else s.gaspProgram pages) else s
  let s := (s.notePages.loseVolatile).kept
  let s := if vbat then s
    else { s with backup := { lost := true, osc := s.backup.osc }, evt := { s.evt with backup := none } }
  { s with boot := { s.boot with porHeld := true }, pins := { s.pins with mainPwrEn := false } }

def execPowerLoss (vbat : Bool) (gasp : GaspEnd) (s : State) : Host.Outcome State Fault Refusal :=
  .next (s.powerLoss vbat gasp.done gasp.pages)

/-- Steps 5 to 7 of R584: die links, memories and what of them is free for runs (R41, R43, R123, R353, R588). -/
def State.bootLinks (s : State) (i : BootInputs) : State :=
  let st (ok : Bool) : LinkState := { state := if ok then 0 else 2 }
  let s := { s with links := { s.links with fm := st i.fm, fn := st i.fn, mn := st i.mn },
                    power := { s.power with alignPending := true } }
  let s := if i.fm then s else s.log 0x1001 aonBase 0
  let s := if i.fn then s else s.log 0x1001 aonBase 1
  if i.mn then s else s.log 0x1001 aonBase 2

/-- GiB of bulk memory that trained. -/
def bulkGibOf (i : BootInputs) : Nat :=
  ((List.range 8).filter (fun c => !i.badChannels.contains c)).foldl (fun a c => a + i.dimms.getD c 0) 0

/-- GiB of the map region for a raw capacity in units (R123). -/
def mapGib (units : Nat) : Nat := (units * 5 + 2 ^ 30 - 1) / 2 ^ 30

/-- The raw capacity in use, in units: that of the usable targets, or the largest whole TiB whose map region leaves 64 GiB of
bulk memory (R123). -/
def rawInUse (found bulk : Nat) : Nat :=
  if mapGib found + 64 ≤ bulk then found
  else ((List.range 1025).filter (fun t => decide (t * 2 ^ 26 ≤ found ∧ mapGib (t * 2 ^ 26) + 64 ≤ bulk))).foldl
    (fun a t => max a (t * 2 ^ 26)) 0

def State.bootTraining (s : State) (i : BootInputs) : State :=
  let s := i.badChannels.foldl (fun s c => s.log 0x1007 aonBase c) s
  let s := i.badStacks.foldl (fun s c => s.log 0x1007 aonBase c) s
  let nStk := ((List.range 6).filter (fun k => !i.badStacks.contains k)).length
  { s with mgr := { s.mgr with stackFree := (nStk * 48 - 1) * 512 } }

/-- Why a target fails identification or training, as R112 numbers it; 0 when it passes. -/
def targetReason (t : FoundTarget) : Nat :=
  if t.target ≥ 16 then 10
  else if !t.responds then 1
  else if !t.paramOk then 2
  else if t.ezNand then 6
  else if !t.interfaceOk then 3
  else if t.geometry.pageBytes ≠ 16384 ∨ t.geometry.spareBytes < 2048 then 4
  else if !((t.geometry.cell == .tlc || t.geometry.cell == .qlc) && t.slcMode) then 5
  else if !t.trains then 7
  else 0

/-- Units of raw capacity of one target. -/
def NandGeometry.units (g : NandGeometry) : Nat := g.blocksPerPlane * g.blockUnits

/-- The reason of each target in target-major order, behind the reference geometry, once known, and the units in use so far
(R112): a geometry other than the reference target's is 8, and what lies beyond 2^36 units, which is 1 PiB, is 9. -/
def identifyTargets : Option NandGeometry → Nat → List FoundTarget → List (FoundTarget × Nat)
  | _, _, [] => []
  | g, used, t :: ts =>
    if targetReason t ≠ 0 then (t, targetReason t) :: identifyTargets g used ts
    else
      let ref := g.getD t.geometry
      if t.geometry ≠ ref then (t, 8) :: identifyTargets (some ref) used ts
      else if used + ref.units > 2 ^ 36 then (t, 9) :: identifyTargets (some ref) used ts
      else (t, 0) :: identifyTargets (some ref) (used + ref.units) ts

/-- The highest of the rates of R111 that every one of a channel's usable targets supports. -/
def channelRate (ts : List FoundTarget) : Nat :=
  ([8, 12, 16, 24, 32, 36].filter (fun r => ts.all (fun t => t.rates.contains r))).foldl max 0

/-- NAND identification (R109-R113): the usable targets in target-major order with the rate of each channel, a record for each
excluded one, and the map region at the top of bulk memory (R123). -/
def State.bootNand (s : State) (i : BootInputs) : State :=
  let ts := orderBy (fun (a b : FoundTarget) => decide (a.target * 64 + a.channel ≤ b.target * 64 + b.channel)) (i.targets.filter (fun t => decide (t.channel < 64)))
  let found := identifyTargets none 0 ts
  let bad := found.filter (fun x => x.2 ≠ 0)
  let good := (found.filter (fun x => x.2 = 0)).map (·.1)
  let g := ((good.head?).map (·.geometry)).getD {}
  let use := good.map (fun t => (t.channel, t.target))
  let s := bad.foldl (fun s x => s.log 0x0204 medBase x.1.channel x.1.target x.2) s
  let raw := rawInUse (use.length * g.units) (bulkGibOf i)
  let region := if use.length < 32 then 0 else mapGib raw
  { s with
    media := { s.media with
      usable := use, excluded := bad.map (fun x => (x.1.channel, x.1.target)), geometry := g,
      noTier2 := (good.filter (fun t => !t.readLevel)).map (fun t => (t.channel, t.target)),
      rates := ((use.map (·.1)).eraseDups).map (fun c => (c, channelRate (good.filter (fun t => t.channel == c)))),
      rawUnits := raw, mapStart := (bulkGibOf i - region) * 2 ^ 30,
      health := { s.media.health with targetsExcluded := bad.length } },
    mgr := { s.mgr with bulkFree := (bulkGibOf i - region) * 512 } }

/-- The anchor records that are valid when they are read at reset (R142, R143). -/
def MediaKept.readAnchors (k : MediaKept) (i : BootInputs) : MediaKept :=
  { k with anchor0 := if i.anchor0Ok then k.anchor0 else none, anchor1 := if i.anchor1Ok then k.anchor1 else none }

/-- Step 9's numbering (R587, R684): numbers resume at the larger ceiling, the ceiling rises, and the held records enter. -/
def State.resumeNumbers (s : State) (i : BootInputs) : State :=
  let anc := match (s.nand.readAnchors i).current with
    | some a => some a.ceiling
    | none => s.nand.handover.map (·.ceiling)
  let top := max (s.evt.backup.getD 0) (anc.getD 0)
  let e : EventSeq := { s.evt with next := max 1 top, anchor := anc }
  State.releaseHeldLog { s with evt := e.raise, boot := { s.boot with phase := .rebuild } }

/-- A band after a rebuild: the pages and rows that its blocks hold. A row whose accumulator no last-gasp page saved has lost its
parity, and a band closed before stays closed (R132, R133, R152). -/
def Band.resume (g : NandGeometry) (held : List Band) (saved : List (Nat × Nat)) (b : Band) : Band :=
  match held.find? (fun x => x.id == b.id) with
  | none => b
  | some h =>
    let b := { b with programmed := h.programmed, rows := h.rows, lostRows := h.lostRows }
    let b := { b with lostRows := addNew b.lostRows ((b.accRows g).filter (fun r => !saved.contains (b.id, r))) }
    if b.state = .opened ∧ h.state ≠ .opened then { b with state := .unverified } else b

/-- The journal as far as it can be read (R143): from a page on in JOURNAL_SEQ order, up to the first of which neither copy passes
its CRC. -/
def readJournal (pages : List JPage) (bad : List (Nat × Nat)) : Nat → Nat → List JPage
  | 0, _ => []
  | n + 1, q =>
    match pages.find? (fun p => p.seq == q && !(bad.contains (q, 0) && bad.contains (q, 1))) with
    | some p => p :: readJournal pages bad n (q + 1)
    | none => []

/-- The last SANITIZE_PROGRESS entry of a list. -/
def lastProgress (es : List JEntry) : Option (Nat × Nat) :=
  es.foldl (fun a e => match e with | .sanitizeProgress x t => some (x, t) | _ => a) none

/-- Splits a list of entries into pages of at most 1,020 (R137). -/
def chunk1020 : Nat → List JEntry → List (List JEntry)
  | 0, _ => []
  | _, [] => []
  | n + 1, es => es.take 1020 :: chunk1020 n (es.drop 1020)

/-- Fresh last-gasp blocks: the first two free blocks of each channel (R154). -/
def State.freshLg (s : State) : List Nat :=
  s.media.channels.flatMap (fun c => (s.nand.freeBlocks.filter (fun b => (pmaTarget b).1 == c)).take 2)

/-- Recovery of the last-gasp pages (R154): units stay where the sequence programmed them, mapped there, until garbage collection
moves them, and fresh last-gasp blocks take the place of those used. -/
def State.recoverGasp (s : State) (ps : List LgPage) : State :=
  let units := ps.filterMap (fun p => match p with | .data src dst => some (src, dst) | _ => none)
  if units.isEmpty then s
  else
    let copy (k : MediaKept) (x : Nat × Nat) : MediaKept :=
      let k := { k with store := memWrite k.store (x.2 * 16384) (memRead k.store (x.1 * 16384) 16384) }
      match k.info.find? (fun y => y.1 == x.1) with
      | some y => { k with info := infoSet k.info x.2 y.2 }
      | none => k
    let k := units.foldl copy s.nand
    let used := ((units.map (fun x => s.blockOf x.2)).eraseDups)
    let fresh := s.freshLg
    { s with
      nand := { k with
        lgUnits := k.lgUnits ++ units.map (·.2), lgBlocks := k.lgBlocks.filter (fun b => !used.contains b) ++ fresh,
        freeBlocks := k.freeBlocks.filter (fun b => !fresh.contains b) },
      media := { s.media with relocate := addNew s.media.relocate used } }

/-- The map entries that name a place of the write buffer now name the one where the unit is: as GC_MOVE entries. -/
def gaspMoves (img : MediaImage) (ps : List LgPage) : List JEntry :=
  ps.flatMap (fun p => match p with
    | .data src dst => (img.map.filter (fun e => e.2 == src)).map (fun e => JEntry.gcMove (e.1 / 2 ^ 40) (e.1 % 2 ^ 40) dst)
    | _ => [])

/-- The rebuild from an anchor (R142, R143, R154, R159): checkpoint, journal, last-gasp pages; blocks that were released, or opened
in a band of which no entry is left, are erased before reuse (R149); then an anchor with FLUSHED clear. What the last-gasp pages
gave becomes journal pages of its own. -/
def State.rebuildFrom (s : State) (a : Anchor) (older : Bool) (i : BootInputs) : State :=
  let good := s.nand.lgPages.take i.gaspGood
  let k := s.nand.dropPlaces (gaspPlaces (s.nand.lgPages.drop i.gaspGood))
  let a := k.current.getD a
  let pages := readJournal k.journal i.journalBad k.journal.length a.startSeq
  let lg := good.flatMap (fun p => match p with | .entries es => es | _ => [])
  let img := (pages.flatMap (fun (p : JPage) => p.entries) ++ lg).foldl (applyJ k.bands) a.image
  let moves := gaspMoves img good
  let es := pages.flatMap (fun (p : JPage) => p.entries) ++ lg ++ moves
  let img := moves.foldl (applyJ k.bands) img
  let saved := good.filterMap (fun p => match p with | .parity b r => some (b, r) | _ => none)
  let lostBands := k.bands.filter (fun b => img.bands.all (fun x => x.id != b.id))
  let img := { img with bands := img.bands.map (fun (b : Band) => b.resume s.media.geometry k.bands saved) }
  let erase := ((img.released ++ lostBands.flatMap (fun b => b.blocks ++ [b.parity])).filter
    (fun b => !k.freeBlocks.contains b && !k.retired.contains b)).eraseDups
  let next := a.startSeq + pages.length
  let h := { a.health with olderAnchor := older, targetsExcluded := s.media.health.targetsExcluded }
  let (n, s) := s.issueSeq
  let extra : List JPage := ((chunk1020 (lg.length + moves.length) (lg ++ moves)).zipIdx).map (fun x =>
    { seq := next + x.2, evt := n, ckpt := a.ckptSeq, entries := x.1, passed0 := true, passed1 := true })
  let job := a.sanitize.map (fun j => match lastProgress es with
    | some (act, t) => if act = j.action then { j with last := some t } else j
    | none => j)
  let bytes := (pages.length + extra.length) * 16384
  let s := { s with
    nand := { k with journal := pages ++ extra, lgPages := [], bands := img.bands },
    media := { s.media with
      image := img, layout := a.layout, userCap := a.userCap, health := h, rebuildPct := 100, ckptSeq := a.ckptSeq,
      nextJSeq := next + extra.length, journalBytes := bytes, ckptBytes := bytes, ckptStartedAt := s.now, mapLoaded := true,
      dir := a.dir, segments := a.segments, changed := (es.flatMap (fun (e : JEntry) => e.segments img)).eraseDups, sanitize := job,
      gc := erase.map (fun b => { src := b, copies := [], phase := .committing, needs := 0 }),
      state := if job.isSome then .sanitizing else if h.worn then .readOnlyWorn else .ready } }
  let s := s.recoverGasp good
  let s := if a.flushed then s
    else
      let s := (s.log 0x0205 medBase).healthBump 13 1
      { s with media := { s.media with lgLastIncomplete := true, health := { s.media.health with lgIncomplete := true } } }
  s.spareChanged.writeAnchor false

/-- The rebuild on a handover record (R574): nothing is mapped, every data block is erased before reuse, and the first anchor
under the new key is written. -/
def State.rebuildHandover (s : State) (h : Handover) : State :=
  let s := { s with nand := { s.nand with retired := h.retired } }
  let s := { s with
    nand := { s.nand with
      handover := none, store := [], info := [], badBlocks := [], bands := [], lgBlocks := s.formatLg,
      eraseFirst := s.formatFree, freeBlocks := s.formatFree },
    media := { s.media with
      layout := h.layout, userCap := h.userCap, rebuildPct := 100, mapLoaded := true,
      health := { h.health with targetsExcluded := s.media.health.targetsExcluded }, ckptStartedAt := s.now,
      state := if h.health.worn then .readOnlyWorn else .ready } }
  (s.writeAnchorWith false {} 0).spareChanged

/-- Step 9 for the media (R113, R143, R144, R145, R574). A rebuild that the next reset cuts off shows REBUILDING and how far it
came. -/
def State.bootRebuild (s : State) (i : BootInputs) : State :=
  let cur := (s.nand.readAnchors i).current
  let blank := s.nand.current.isNone && s.nand.store.isEmpty && s.nand.handover.isNone
  if s.media.usable.length < 32 then { s with media := { s.media with state := .noMedia } }
  else if i.reach = .rebuild then
    { s with media := { s.media with state := .rebuilding, rebuildPct := min i.rebuildPct 100 } }
  else match cur with
    | some a =>
      if i.ckptOk then
        State.rebuildFrom { s with nand := s.nand.readAnchors i } a (decide (s.nand.current.map (·.seq) ≠ some a.seq)) i
      else { (s.log 0x0308 medBase) with media := { (s.log 0x0308 medBase).media with state := .mapLost } }
    | none => match s.nand.handover with
      | some h => s.rebuildHandover h
      | none =>
        if blank then { s with media := { s.media with state := .unformatted } }
        else { (s.log 0x0308 medBase) with media := { (s.log 0x0308 medBase).media with state := .mapLost } }

/-- One copy of R598 in step 8: none when it is passed over or fails a check. -/
def State.tryCopy (s : State) (b : Bool) (i : BootInputs) : Bool × State :=
  let r := if b then i.copyB else i.copyA
  let tries := if b then s.backup.attemptsB else s.backup.attemptsA
  let bytes := if b then s.flash.copyB else s.flash.copyA
  let fail (s : State) (st : Status) (d : Nat) : Bool × State :=
    let s := s.log st bootBase 0 0 0 d
    (false, { s with boot := if b then { s.boot with statusB := st } else { s.boot with statusA := st } })
  if tries ≥ 3 then fail s 0x1004 4
  else
    let k := s.backup
    let s := { s with backup := if b then { k with attemptsB := tries + 1 } else { k with attemptsA := tries + 1 } }
    if !(i.flashOk && decide (s.flash.sizeMiB ≥ 16) && r.readOk) then fail s 0x1004 5
    else
      let c := s.configCheck bytes
      if c.1 ≠ 0 then fail s c.1 c.2 else (true, s)

/-- The first copy of a list that passes step 8, and those left after it. -/
def State.pickCopy (s : State) (i : BootInputs) : List Bool → Option (Bool × List Bool) × State
  | [] => (none, s)
  | b :: rest =>
    let r := s.tryCopy b i
    if r.1 then (some (b, rest), r.2) else r.2.pickCopy i rest

/-- Step 10 reads the copy again into bulk memory (R598): one that differs is given up, and the next is taken. -/
def State.rereadCopy (s : State) (i : BootInputs) : Nat → Option (Bool × List Bool) → Option Bool × State
  | 0, _ => (none, s)
  | _, none => (none, s)
  | n + 1, some (b, rest) =>
    if (if b then i.copyB else i.copyA).sameAgain then (some b, s)
    else
      let s := s.log 0x1004 bootBase 0 0 0 5
      let s := { s with boot := if b then { s.boot with statusB := 0x1004 } else { s.boot with statusA := 0x1004 } }
      let r := s.pickCopy i rest
      r.2.rereadCopy i n r.1

/-- The status that the last reply on the image's path since `before` carries. -/
def imageStatus (before after : State) : Status :=
  (after.out.drop before.out.length).foldl (fun a e => match e with | .reply .image st _ _ _ => st | _ => a) 0

/-- Offsets that R602 refuses: the RST and BOOT blocks, saggar mailbox registers, SAG_ZEROISE and the tile windows. -/
def imageRefuses (off : Nat) : Bool :=
  (decide (bootBase ≤ off) && decide (off < pwrBase)) || off == sagBase + 0x14 ||
  (decide (sagBase + 0x100 ≤ off) && decide (off < sagBase + 0x140)) ||
  (decide (sagBase + 0x1000 ≤ off) && decide (off < sagBase + 0x3000)) || decide (tilBase ≤ off)

/-- A REGISTERS entry (R596, R602): the status that refuses it, 0 when it is applied. -/
def State.applyRegister (s : State) (b : List Byte) : Status × State :=
  let off := leField b 0 4
  let mask := leField b 8 4
  if off % 4 ≠ 0 ∨ leField b 12 4 ≠ 0 ∨ imageRefuses off then (0x0101, s)
  else if decide (grpBase ≤ off) && decide (off < synBase) && s.groupRecord.isSome then (0, s)
  else match s.served .image off with
    | .block =>
      let m := BitVec.ofNat 32 mask
      let v := (s.blockWord .image off &&& ~~~m) ||| (BitVec.ofNat 32 (leField b 4 4) &&& m)
      let t := s.blockWrite .image off v
      let st := if t.errlog.next > s.errlog.next then ((t.errlog.entries.getLast?).map (fun (e : LogEntry) => e.status)).getD 0 else 0
      (st, t)
    | .fenced f => (0x1002, s.fencedAccess f)
    | _ => (0x0101, s.unassignedAccess off)

/-- A NAMESPACES entry (R602): an absent namespace is created, an unsealed one sealed when SEAL = 1. -/
def State.applyNamespace (s : State) (b : List Byte) (keyOk : Bool) : Status × State :=
  let nsid := leField b 0 4
  let flags := leField b 4 4
  let cap := leField b 8 8
  let sealIt (s : State) : Status × State :=
    if flags = 1 then
      match s.nsInfo nsid with
      | some x => if x.isSealed then (0, s) else match s.nsSealRefusal .image nsid with
        | some r => (r.1, s)
        | none => (0, s.nsSeal .image nsid)
      | none => (0, s)
    else (0, s)
  if flags > 1 then (0x0101, s)
  else match s.nsInfo nsid with
    | some x => if x.cap = cap then sealIt s else (0x0101, s)
    | none => match s.nsCreateRefusal .image nsid cap keyOk with
      | some r => (r.1, if r.1 = 0x0F0A then s.log 0x0F0A sagBase else s)
      | none => sealIt (s.nsMake .image nsid cap)

/-- A RUNS entry as a START request (R596): tables and arguments lie at offsets from the descriptor. -/
def runEntry (b : List Byte) : StartReq :=
  let d := b.drop 16
  { desc := slice d 0 128,
    tables := (List.range (leField d 0x1C 2)).map (fun i => slice d (leField d 0x20 8 + 64 * i) 64),
    args := slice d (leField d 0x28 8) (min (leField d 0x30 4) 65536), recHandle := leField b 0 8 }

/-- An ARMED entry (R473, R596): the request is set aside in its queue. -/
def State.applyArmed (s : State) (b : List Byte) : Status × State :=
  let q := leField b 0 2
  let w := parseWr (slice b 8 64)
  if q ≥ 4096 ∨ leField b 2 2 ≠ 0 ∨ leField b 4 4 ≠ 0 ∨ !s.gqEnabled q ∨ !w.flags.testBit 1 then (0x0101, s)
  else if !s.wrOk q w || decide ((s.gq q).armed.length ≥ 256) then (0x0C09, s)
  else
    let f := s.takeFree
    let g := f.2.gq q
    (0, f.2.setGq { g with armed := g.armed ++ [(Config.freeNat f.1 % f.2.gqEntries q, w)] })

/-- One entry of section `sec` (R602). -/
def State.applyEntry (s : State) (i : BootInputs) (type sec n : Nat) (b : List Byte) : Status × State :=
  let viaReply (t : State) : Status × State := (imageStatus s t, t)
  match type with
  | 1 => s.applyRegister b
  | 2 => s.applyNamespace b (!i.keyFails.contains (sec, n))
  | 3 => viaReply (s.loadPlate .image (.data b))
  | 4 => if leField b 4 4 ≠ 0 then (0x0101, s) else viaReply (s.loadPlate .image (.media (leField b 0 4) (leField b 8 8)))
  | 5 => viaReply (s.streamOpen .image b)
  | 6 => if leField (b.drop 16) 0x50 8 ≠ 0 then (0x0909, s) else viaReply (s.start .image (runEntry b))
  | 7 => s.applyArmed b
  | _ => (0, (s.quoinSetWrite false (BitVec.ofNat 32 (leField b 0 4))).quoinSetWrite true (BitVec.ofNat 32 (leField b 4 4)))

/-- An entry that is refused is skipped, recorded and counted (R602). -/
def State.applyCounted (s : State) (i : BootInputs) (x : Nat × Nat × Nat × List Byte) : State :=
  let r := s.applyEntry i x.1 x.2.1 x.2.2.1 x.2.2.2
  if r.1 = 0 then r.2
  else
    let s := r.2.log 0x1006 bootBase x.2.2.1 r.1.toNat 0 x.2.1
    let c := satBump 32 s.boot.applyFails 1 s.boot.applyFailsOvf
    { s with boot := { s.boot with applyFails := c.1, applyFailsOvf := c.2 } }

/-- Every entry of an image in section-table order: type, section, entry, bytes (R601). -/
def imageEntries (b : List Byte) : List (Nat × Nat × Nat × List Byte) :=
  let sects := configSects b
  (List.range sects.length).flatMap (fun k =>
    match sects[k]? with
    | none => []
    | some x =>
      let ps := (sectParts x.type (slice b x.off x.len)).getD []
      (List.range ps.length).map (fun n => (x.type, k, n, ps.getD n [])))

/-- Step 10 (R527, R598-R602): the group rejoins, and the copy is applied; when its entries are all applied, its attempt count
is 0 again. -/
def State.bootApply (s : State) (i : BootInputs) (pick : Option (Bool × List Bool)) : State :=
  let s := s.groupRejoin
  let r := s.rereadCopy i 2 pick
  match r.1 with
  | none => r.2.log 0x1005 bootBase
  | some b =>
    let s := r.2
    let bytes := if b then s.flash.copyB else s.flash.copyA
    let es := imageEntries bytes
    let cut := i.reach = .apply
    let s := (if cut then es.take i.applied else es).foldl (fun s x => s.applyCounted i x) s
    if cut then s
    else
      let k := s.backup
      { s with
        backup := if b then { k with attemptsB := 0 } else { k with attemptsA := 0 },
        boot := { s.boot with loaded := true, activeB := b, cfgSeq := leField bytes 0xC 4,
                              configHash := some (sha384 (signedPart (bytes.take (leField bytes 0x10 8)))) } }

/-- The numbers of the phases in their order. -/
def BootPhase.rank : BootPhase → Nat
  | .reset => 0 | .flush => 1 | .trim => 2 | .clocks => 3 | .links => 4 | .training => 5 | .wipe => 6 | .rebuild => 7
  | .apply => 8 | .ready => 9 | .trimFault => 10

/-- One step of the sequence, unless the next reset cuts it off before. -/
def State.bootStep (s : State) (i : BootInputs) (p : BootPhase) (f : State → State) : State :=
  if p.rank ≤ i.reach.rank then f { s with boot := { s.boot with phase := p } } else s

/-- What the backup domain still has to report goes into the records that are held (R619, R636). -/
def State.reportPending (s : State) : State :=
  let s := if s.backup.tripPending then s.log 0x1012 aonBase else s
  let s := if s.backup.refPending then s.log 0x1016 aonBase else s
  { s with backup := { s.backup with tripPending := false, refPending := false } }

/-- Step 8: the memories are zeros, the saggar reads its key record and draws the mailbox nonces, the media are identified,
and a copy is chosen, in Provisioned and Deployed only (R555, R559, R565, R586, R598). -/
def State.bootWipe (s : State) (i : BootInputs) : Option (Bool × List Bool) × State :=
  let s := s.bootNand i
  let s := (s.newNonce 0).newNonce 1
  let loads := s.lc == .provisioned || s.lc == .deployed
  let flash := i.flashOk && decide (s.flash.sizeMiB ≥ 16)
  let s := { s with media := { s.media with engineKeys := s.trustKept.nsKeys },
                    boot := { s.boot with wipePct := 100, xspiMiB := if flash then min s.flash.sizeMiB 256 else 0,
                                          preferB := flash && s.flash.prefersB } }
  if loads then s.pickCopy i [s.flash.prefersB, !s.flash.prefersB] else (none, s)

/-- The fused MAC addresses enter the registers of the logical ports (R490). -/
def State.loadMacs (s : State) : Nat → List (BitVec 48) → State
  | _, [] => s
  | p, m :: rest => ((s.setReg (gnzPort p 0) (m.setWidth 32)).setReg (gnzPort p 4) ((m >>> 32).setWidth 32)).loadMacs (p + 1) rest

/-- Trim load takes part, stepping, lid, active regions and MAC addresses from the fuses (R5, R490, R590). What they hold is settled once, at manufacture:
the part's first trim load shows it to the model. -/
def State.loadFuses (s : State) (i : BootInputs) : State :=
  let f := s.fuseArray.getD (if i.fuses.wf then i.fuses else {})
  ({ s with fuseArray := some f, fuses := f }).loadMacs 0 (f.macs.take 64)

/-- RESET_RELEASE (R584-R602): the sequence from the release of RESET_N up to READY, trim fault, or the step in which the next
reset comes. -/
def State.resetRelease (s : State) (i : BootInputs) : State :=
  if !s.boot.resetHeld || s.boot.porHeld then s
  else
    let s := { s with boot := { s.boot with resetHeld := false, phase := .trim,
                                            trimTries := if i.trim = 0 ∨ i.trim > 3 then 3 else i.trim } }
    if i.trim = 0 ∨ i.trim > 3 then
      ({ s with boot := { s.boot with phase := .trimFault, status := 0x1003 },
                pins := { s.pins with trimFaultN := false } }).emit (.pin .trimFaultN false)
    else
      let s := s.loadFuses i
      let s := s.bootStep i .clocks (fun s => s.reportPending)
      let s := s.bootStep i .links (fun s => s.bootLinks i)
      let s := s.bootStep i .training (fun s => s.bootTraining i)
      let w := if BootPhase.wipe.rank ≤ i.reach.rank then
          State.bootWipe { s with boot := { s.boot with phase := .wipe } } i
        else (none, s)
      let s := w.2.bootStep i .rebuild (fun s => (s.resumeNumbers i).bootRebuild i)
      let s := s.bootStep i .apply (fun s =>
        if s.lc == .provisioned || s.lc == .deployed then s.bootApply i w.1 else s.groupRejoin)
      s.bootStep i .ready id

def execResetRelease (i : BootInputs) (s : State) : Host.Outcome State Fault Refusal := .next (s.resetRelease i)

end Sys2Proof.Machine
end

