-- ==== Sys2Proof/Machine/Fences.lean ====
section
/-! DEFINITION. What the end of a die link's retrain brings: accesses that waited go on, and a die that has lost its second
path stops (R40-R44). -/

namespace Sys2Proof.Machine

/-- Requests of a Gnoz queue that have not completed, with their ring index: those set aside, released, waiting for a seal or for
data. -/
def GnozQueue.held (g : GnozQueue) : List (Nat × WorkReq) :=
  g.armed ++ g.released ++ g.recvs ++ g.sealWaits.map (fun x => (x.1, x.2.1))

/-- Every request that a queue holds, posted ones included, completes with a status (R44). -/
def State.failQueue (s : State) (q : Nat) (st : Status) : State :=
  let g := s.gq q
  let posted := (List.range (if s.gqEnabled q then s.gqAvail q else 0)).map (fun k =>
    let i := (g.head + k) % s.gqEntries q
    (i, parseWr (s.gqRead q (s.reg64 (gnzQ q 8) + 64 * i) 64)))
  let all := g.held ++ posted
  let s := s.setGq { g with
    armed := [], released := [], recvs := [], sealWaits := [], waiting := false, head := (g.head + posted.length) % 2 ^ 17 }
  all.foldl (fun s x => s.gqComplete q x.1 x.2.op st) s

/-- The net die has been fenced (R44): its frames and its transport stop, and every work request posted or outstanding completes
with 0x1002. -/
def State.netDieLost (s : State) : State :=
  let s := { s with egress := {}, gnoz := { s.gnoz with started := false } }
  let mine (m : OutMsg) : Bool := match m.owner with | .wr _ _ _ _ _ => !m.ended | _ => false
  let s := (s.gnoz.out.filter mine).foldl (fun s m => s.messageEnd m 0x1002 0 0) s
  (s.gnoz.queues.map (fun (g : GnozQueue) => g.q)).foldl (fun s q => s.failQueue q 0x1002) s

/-- The accesses that waited for a link go on, in their order (R40, R42). -/
def State.replayHeld (s : State) (l : DieLink) : State :=
  let mine (x : BusPath × Nat × Option Word × Nat) : Bool := offLink x.2.1 == some l
  let go := s.links.held.filter mine
  let s := { s with links := { s.links with held := s.links.held.filter (fun x => !mine x) } }
  go.foldl (fun s x => match x.2.2.1 with
    | some v => s.busWrite x.1 x.2.1 v
    | none => s.wideRead x.1 x.2.1 x.2.2.2) s

/-- LINK_RETRAIN_DONE (R41): the retrain is counted and the link judged. A failure records 0x1001 with the link's
number in INFO0; a die that loses its second path is fenced until a package reset (R43), and what R44 says stops
stops. Accesses that waited for the link go on once it no longer retrains (R40, R42). -/
def State.linkRetrainDone (s : State) (l : DieLink) (ok : Bool) : State :=
  let x := s.links.get l
  if x.state != 1 && x.state != 3 then s
  else
    let fieldWas := s.fieldFenced
    let netWas := s.netFenced
    let y := x.retrained s.now ok
    let s := { s with links := s.links.set l y }
    let s := if y.state == 2 then
        s.log 0x1001 aonBase (match l with | .fm => 0 | .fn => 1 | .mn => 2) else s
    let s := if s.fieldFenced && !fieldWas then s.fieldDieLost else s
    let s := if s.netFenced && !netWas then s.netDieLost else s
    if y.state = 1 then s else s.replayHeld l

def execLinkRetrainDone (l : DieLink) (ok : Bool) (s : State) : Host.Outcome State Fault Refusal :=
  .next (s.linkRetrainDone l ok)

end Sys2Proof.Machine
end

