-- ==== Sys2Proof/Machine/Dispatch.lean ====
section
/-! DEFINITION. The dispatcher: one arm for each command of the table, in the table's order, each a single
call of that command's meaning. -/

namespace Sys2Proof.Machine

def exec (i : Instr) (s : State) : Host.Outcome State Fault Refusal :=
  match i with
  | .registerWrite t v hi => Sys2Proof.Machine.execRegisterWrite t v hi s
  | .badAccess p off bytes => Sys2Proof.Machine.execBadAccess p off bytes s
  | .inactiveTileAccess p off write => Sys2Proof.Machine.execInactiveTileAccess p off write s
  | .unassignedAccess p off write => Sys2Proof.Machine.execUnassignedAccess p off write s
  | .fencedDieAccess p off write => Sys2Proof.Machine.execFencedDieAccess p off write s
  | .eventSeqCeilingRaise => Sys2Proof.Machine.execEventSeqCeilingRaise s
  | .tileFault t noProgress => Sys2Proof.Machine.execTileFault t noProgress s
  | .regionFault g c => Sys2Proof.Machine.execRegionFault g c s
  | .routerParityFault t flows => Sys2Proof.Machine.execRouterParityFault t flows s
  | .flitError l recovered => Sys2Proof.Machine.execFlitError l recovered s
  | .linkRetrainDone l ok => Sys2Proof.Machine.execLinkRetrainDone l ok s
  | .streamOpen p block => Sys2Proof.Machine.execStreamOpen p block s
  | .streamClose p id => Sys2Proof.Machine.execStreamClose p id s
  | .streamCloseComplete c => Sys2Proof.Machine.execStreamCloseComplete c s
  | .streamParameters p push => Sys2Proof.Machine.execStreamParameters p push s
  | .streamResume p id m => Sys2Proof.Machine.execStreamResume p id m s
  | .gnozRxCredit device msgId => Sys2Proof.Machine.execGnozRxCredit device msgId s
  | .formeRead p id len => Sys2Proof.Machine.execFormeRead p id len s
  | .formeReadComplete fn q cid a => Sys2Proof.Machine.execFormeReadComplete fn q cid a s
  | .candidateStart c g j => Sys2Proof.Machine.execCandidateStart c g j s
  | .stageComplete c g j stage => Sys2Proof.Machine.execStageComplete c g j stage s
  | .paramLookup c g j => Sys2Proof.Machine.execParamLookup c g j s
  | .formeHandoff c => Sys2Proof.Machine.execFormeHandoff c s
  | .wdgSelftestStart v => Sys2Proof.Machine.execWdgSelftestStart v s
  | .wdgSelftestDone ok => Sys2Proof.Machine.execWdgSelftestDone ok s
  | .read p nsid lba count dataLen => Sys2Proof.Machine.execRead p nsid lba count dataLen s
  | .nandReadComplete pma r => Sys2Proof.Machine.execNandReadComplete pma r s
  | .patrolRead block rs => Sys2Proof.Machine.execPatrolRead block rs s
  | .write p nsid lba data fua pl => Sys2Proof.Machine.execWrite p nsid lba data fua pl s
  | .discard p nsid lba count => Sys2Proof.Machine.execDiscard p nsid lba count s
  | .flush p nsid => Sys2Proof.Machine.execFlush p nsid s
  | .flushComplete => Sys2Proof.Machine.execFlushComplete s
  | .pageProgramDone pmas => Sys2Proof.Machine.execPageProgramDone pmas s
  | .bandVerifyDone id weak => Sys2Proof.Machine.execBandVerifyDone id weak s
  | .programFail pma dests => Sys2Proof.Machine.execProgramFail pma dests s
  | .eraseFail block => Sys2Proof.Machine.execEraseFail block s
  | .targetLost c t => Sys2Proof.Machine.execTargetLost c t s
  | .journalTailTimeout => Sys2Proof.Machine.execJournalTailTimeout s
  | .journalPageCommit => Sys2Proof.Machine.execJournalPageCommit s
  | .checkpointStart => Sys2Proof.Machine.execCheckpointStart s
  | .checkpointDone w => Sys2Proof.Machine.execCheckpointDone w s
  | .checkpointStall => Sys2Proof.Machine.execCheckpointStall s
  | .gcBlockStart pl => Sys2Proof.Machine.execGcBlockStart pl s
  | .gcVerifyDone src => Sys2Proof.Machine.execGcVerifyDone src s
  | .gcErase src => Sys2Proof.Machine.execGcErase src s
  | .lastGasp ns => Sys2Proof.Machine.execLastGasp ns s
  | .lastGaspDone us => Sys2Proof.Machine.execLastGaspDone us s
  | .lastGaspResetRequest => Sys2Proof.Machine.execLastGaspResetRequest s
  | .sanitizeCrypto p nsid keyOk => Sys2Proof.Machine.execSanitizeCrypto p nsid keyOk s
  | .sanitizeBlock p nsid keyOk => Sys2Proof.Machine.execSanitizeBlock p nsid keyOk s
  | .sanitizeFormat p nsid keyOk => Sys2Proof.Machine.execSanitizeFormat p nsid keyOk s
  | .sanitizeTargetDone factoryBad => Sys2Proof.Machine.execSanitizeTargetDone factoryBad s
  | .nsCreate p nsid cap keyOk => Sys2Proof.Machine.execNsCreate p nsid cap keyOk s
  | .nsDelete p nsid keyOk => Sys2Proof.Machine.execNsDelete p nsid keyOk s
  | .nsSeal p nsid => Sys2Proof.Machine.execNsSeal p nsid s
  | .nsUnseal p nsid => Sys2Proof.Machine.execNsUnseal p nsid s
  | .mapCkptConfigWrite v => Sys2Proof.Machine.execMapCkptConfigWrite v s
  | .cmpRingDoorbell q v => Sys2Proof.Machine.execCmpRingDoorbell q v s
  | .cmpJobStart e q => Sys2Proof.Machine.execCmpJobStart e q s
  | .decompressJobEnd e stop => Sys2Proof.Machine.execDecompressJobEnd e stop s
  | .compressJobEnd e bad => Sys2Proof.Machine.execCompressJobEnd e bad s
  | .checkJobEnd e => Sys2Proof.Machine.execCheckJobEnd e s
  | .chkCtxHold die c v => Sys2Proof.Machine.execChkCtxHold die c v s
  | .chkCtxWrite die c w v => Sys2Proof.Machine.execChkCtxWrite die c w v s
  | .decoderUnitFault cls unit => Sys2Proof.Machine.execDecoderUnitFault cls unit s
  | .decoderNoProgress cls unit => Sys2Proof.Machine.execDecoderNoProgress cls unit s
  | .rtpPacket f port b => Sys2Proof.Machine.execRtpPacket f port b s
  | .liveUnitTimeout c => Sys2Proof.Machine.execLiveUnitTimeout c s
  | .decLiveCfgWrite c v => Sys2Proof.Machine.execDecLiveCfgWrite c v s
  | .laneFault lane => Sys2Proof.Machine.execLaneFault lane s
  | .laneNoProgress lane => Sys2Proof.Machine.execLaneNoProgress lane s
  | .genOpen p req b => Sys2Proof.Machine.execGenOpen p req b s
  | .genStep lane idx token => Sys2Proof.Machine.execGenStep lane idx token s
  | .tilResetMac t => Sys2Proof.Machine.execTilResetMac t s
  | .tilResetVec t => Sys2Proof.Machine.execTilResetVec t s
  | .tilResetDma t => Sys2Proof.Machine.execTilResetDma t s
  | .tilResetCore t => Sys2Proof.Machine.execTilResetCore t s
  | .tilResetSync t => Sys2Proof.Machine.execTilResetSync t s
  | .tilResetObs t => Sys2Proof.Machine.execTilResetObs t s
  | .tilResetStore t => Sys2Proof.Machine.execTilResetStore t s
  | .tilResetRouter t => Sys2Proof.Machine.execTilResetRouter t s
  | .matrixOp slot tile o => Sys2Proof.Machine.execMatrixOp slot tile o s
  | .sparseMatrixOp slot tile o metaAt => Sys2Proof.Machine.execSparseMatrixOp slot tile o metaAt s
  | .vectorOp slot tile o => Sys2Proof.Machine.execVectorOp slot tile o s
  | .vectorReduce slot tile o => Sys2Proof.Machine.execVectorReduce slot tile o s
  | .specialFunction slot tile o => Sys2Proof.Machine.execSpecialFunction slot tile o s
  | .quantise slot tile o => Sys2Proof.Machine.execQuantise slot tile o s
  | .route slot tile o => Sys2Proof.Machine.execRoute slot tile o s
  | .combine slot tile o => Sys2Proof.Machine.execCombine slot tile o s
  | .embGather slot e o => Sys2Proof.Machine.execEmbGather slot e o s
  | .embRowReadDone slot table row ok => Sys2Proof.Machine.execEmbRowReadDone slot table row ok s
  | .embGrad slot e cs => Sys2Proof.Machine.execEmbGrad slot e cs s
  | .embApply slot e o => Sys2Proof.Machine.execEmbApply slot e o s
  | .embFlush slot => Sys2Proof.Machine.execEmbFlush slot s
  | .embFlushDone slot => Sys2Proof.Machine.execEmbFlushDone slot s
  | .loadPlate p src => Sys2Proof.Machine.execLoadPlate p src s
  | .unloadPlate p digest => Sys2Proof.Machine.execUnloadPlate p digest s
  | .start p r => Sys2Proof.Machine.execStart p r s
  | .preempt p slot => Sys2Proof.Machine.execPreempt p slot s
  | .resume p slot => Sys2Proof.Machine.execResume p slot s
  | .stop p slot => Sys2Proof.Machine.execStop p slot s
  | .runLoaded slot bad => Sys2Proof.Machine.execRunLoaded slot bad s
  | .runDequeue => Sys2Proof.Machine.execRunDequeue s
  | .plateEnd slot => Sys2Proof.Machine.execPlateEnd slot s
  | .runCleanupDone slot => Sys2Proof.Machine.execRunCleanupDone slot s
  | .dmaCopy slot tile desc => Sys2Proof.Machine.execDmaCopy slot tile desc s
  | .dmaFill slot tile desc => Sys2Proof.Machine.execDmaFill slot tile desc s
  | .dmaEngine slot tile desc => Sys2Proof.Machine.execDmaEngine slot tile desc s
  | .dmaDescriptorDone slot tile => Sys2Proof.Machine.execDmaDescriptorDone slot tile s
  | .fillDone slot page ok => Sys2Proof.Machine.execFillDone slot page ok s
  | .preemptSaveDone slot parity => Sys2Proof.Machine.execPreemptSaveDone slot parity s
  | .resumeRestoreDone slot ok => Sys2Proof.Machine.execResumeRestoreDone slot ok s
  | .syncAdd c issuer n => Sys2Proof.Machine.execSyncAdd c issuer n s
  | .syncSub slot tile k n => Sys2Proof.Machine.execSyncSub slot tile k n s
  | .syncWaitGe slot issuer k v => Sys2Proof.Machine.execSyncWaitGe slot issuer k v s
  | .syncWaitSub slot tile k n => Sys2Proof.Machine.execSyncWaitSub slot tile k n s
  | .syncArrive slot tile k reissued => Sys2Proof.Machine.execSyncArrive slot tile k reissued s
  | .syncRead slot tile k => Sys2Proof.Machine.execSyncRead slot tile k s
  | .syncAlloc c tile remote pick => Sys2Proof.Machine.execSyncAlloc c tile remote pick s
  | .syncFree slot tile b => Sys2Proof.Machine.execSyncFree slot tile b s
  | .syncConfig slot tile k barrier parties pairs => Sys2Proof.Machine.execSyncConfig slot tile k barrier parties pairs s
  | .barrierRelease p => Sys2Proof.Machine.execBarrierRelease p s
  | .synDbgSelWrite v => Sys2Proof.Machine.execSynDbgSelWrite v s
  | .synSwSignal p v => Sys2Proof.Machine.execSynSwSignal p v s
  | .tilEvtClear t => Sys2Proof.Machine.execTilEvtClear t s
  | .tilEvtSelWrite t n v => Sys2Proof.Machine.execTilEvtSelWrite t n v s
  | .tilEvtCntLoRead p t n => Sys2Proof.Machine.execTilEvtCntLoRead p t n s
  | .markBegin src id user => Sys2Proof.Machine.execMarkBegin src id user s
  | .markEnd src id user => Sys2Proof.Machine.execMarkEnd src id user s
  | .markInstant src id user => Sys2Proof.Machine.execMarkInstant src id user s
  | .traceEnable v => Sys2Proof.Machine.execTraceEnable v s
  | .traceDisable v => Sys2Proof.Machine.execTraceDisable v s
  | .traceRelease v => Sys2Proof.Machine.execTraceRelease v s
  | .watch slot tile o => Sys2Proof.Machine.execWatch slot tile o s
  | .sqTailDoorbell fn q v => Sys2Proof.Machine.execSqTailDoorbell fn q v s
  | .cqHeadDoorbell fn q v => Sys2Proof.Machine.execCqHeadDoorbell fn q v s
  | .aqEnable fn v => Sys2Proof.Machine.execAqEnable fn v s
  | .aqDisable fn v => Sys2Proof.Machine.execAqDisable fn v s
  | .commandFetch a => Sys2Proof.Machine.execCommandFetch a s
  | .parkedAdmit => Sys2Proof.Machine.execParkedAdmit s
  | .ioCommandComplete fn q cid a => Sys2Proof.Machine.execIoCommandComplete fn q cid a s
  | .identify p cns nsid => Sys2Proof.Machine.execIdentify p cns nsid s
  | .getLog p page off len => Sys2Proof.Machine.execGetLog p page off len s
  | .getFeature p id sel => Sys2Proof.Machine.execGetFeature p id sel s
  | .setArbitration p burst => Sys2Proof.Machine.execSetArbitration p burst s
  | .setCoalescing p v threshold time => Sys2Proof.Machine.execSetCoalescing p v threshold time s
  | .setVfResources p vf queues vectors => Sys2Proof.Machine.execSetVfResources p vf queues vectors s
  | .setNsVisibility p vf map => Sys2Proof.Machine.execSetNsVisibility p vf map s
  | .setMediaLayout p cell opHalf => Sys2Proof.Machine.execSetMediaLayout p cell opHalf s
  | .firmwareDownload p off chunk => Sys2Proof.Machine.execFirmwareDownload p off chunk s
  | .firmwareCommit p activate flashOk => Sys2Proof.Machine.execFirmwareCommit p activate flashOk s
  | .queueCreate p q depth v irq sq cq => Sys2Proof.Machine.execQueueCreate p q depth v irq sq cq s
  | .queueDelete p q => Sys2Proof.Machine.execQueueDelete p q s
  | .queueDeleteDone fn q => Sys2Proof.Machine.execQueueDeleteDone fn q s
  | .queueRestartResume p q => Sys2Proof.Machine.execQueueRestartResume p q s
  | .queueRestartSkip p q => Sys2Proof.Machine.execQueueRestartSkip p q s
  | .coalesceTimeout fn v => Sys2Proof.Machine.execCoalesceTimeout fn v s
  | .functionLevelReset fn => Sys2Proof.Machine.execFunctionLevelReset fn s
  | .pcieLinkDown l => Sys2Proof.Machine.execPcieLinkDown l s
  | .pcieLinkUp l flit speed width => Sys2Proof.Machine.execPcieLinkUp l flit speed width s
  | .gnozFragmentReceive p => Sys2Proof.Machine.execGnozFragmentReceive p s
  | .gnozRxWrite device msgId pl => Sys2Proof.Machine.execGnozRxWrite device msgId pl s
  | .gnozRxSend device msgId => Sys2Proof.Machine.execGnozRxSend device msgId s
  | .gnozRxRead device msgId => Sys2Proof.Machine.execGnozRxRead device msgId s
  | .gnozRxReadData device msgId => Sys2Proof.Machine.execGnozRxReadData device msgId s
  | .gnozRxSyncAdd device msgId => Sys2Proof.Machine.execGnozRxSyncAdd device msgId s
  | .gnozRxReply device msgId => Sys2Proof.Machine.execGnozRxReply device msgId s
  | .gnozRxForme device msgId => Sys2Proof.Machine.execGnozRxForme device msgId s
  | .gnozRxStreamEvent device msgId => Sys2Proof.Machine.execGnozRxStreamEvent device msgId s
  | .gnozRxArm device msgId => Sys2Proof.Machine.execGnozRxArm device msgId s
  | .gnozRxAck device msgId => Sys2Proof.Machine.execGnozRxAck device msgId s
  | .gnzQDoorbell q v => Sys2Proof.Machine.execGnzQDoorbell q v s
  | .wrWrite q => Sys2Proof.Machine.execWrWrite q s
  | .wrSend q => Sys2Proof.Machine.execWrSend q s
  | .wrRead q => Sys2Proof.Machine.execWrRead q s
  | .wrSyncAdd q => Sys2Proof.Machine.execWrSyncAdd q s
  | .wrControl q => Sys2Proof.Machine.execWrControl q s
  | .wrArm q => Sys2Proof.Machine.execWrArm q s
  | .wrRecv q => Sys2Proof.Machine.execWrRecv q s
  | .rtoExpiry idx => Sys2Proof.Machine.execRtoExpiry idx s
  | .messageExpiry idx => Sys2Proof.Machine.execMessageExpiry idx s
  | .dupEntryExpiry device msgId => Sys2Proof.Machine.execDupEntryExpiry device msgId s
  | .reassemblyExpiry device msgId => Sys2Proof.Machine.execReassemblyExpiry device msgId s
  | .gnzTableRead => Sys2Proof.Machine.execGnzTableRead s
  | .gnzTableWrite => Sys2Proof.Machine.execGnzTableWrite s
  | .gnzTableInvalidate => Sys2Proof.Machine.execGnzTableInvalidate s
  | .keyRegister slot k base len write read notify => Sys2Proof.Machine.execKeyRegister slot k base len write read notify s
  | .gnzQueueAlloc slot k wr cq => Sys2Proof.Machine.execGnzQueueAlloc slot k wr cq s
  | .gnzClockWrite v => Sys2Proof.Machine.execGnzClockWrite v s
  | .ptpMessage f offset locked delayReq => Sys2Proof.Machine.execPtpMessage f offset locked delayReq s
  | .gnzEthModeWrite v => Sys2Proof.Machine.execGnzEthModeWrite v s
  | .ethPortLinkChange lp up => Sys2Proof.Machine.execEthPortLinkChange lp up s
  | .arpNeighbourRx f addr => Sys2Proof.Machine.execArpNeighbourRx f addr s
  | .icmpEchoRx f payload => Sys2Proof.Machine.execIcmpEchoRx f payload s
  | .gnozHoldoffEnd => Sys2Proof.Machine.execGnozHoldoffEnd s
  | .formeResend => Sys2Proof.Machine.execFormeResend s
  | .gnzCfgWrite timing v => Sys2Proof.Machine.execGnzCfgWrite timing v s
  | .bufferRequest die port unit cls size idx => Sys2Proof.Machine.execBufferRequest die port unit cls size idx s
  | .bufferFree h port unit => Sys2Proof.Machine.execBufferFree h port unit s
  | .bufferDrop h port unit => Sys2Proof.Machine.execBufferDrop h port unit s
  | .bufferShare h port unit new => Sys2Proof.Machine.execBufferShare h port unit new s
  | .bufferHandover h port unit newPort newUnit => Sys2Proof.Machine.execBufferHandover h port unit newPort newUnit s
  | .configShadowWrite off v => Sys2Proof.Machine.execConfigShadowWrite off v s
  | .configTick => Sys2Proof.Machine.execConfigTick s
  | .policerTick => Sys2Proof.Machine.execPolicerTick s
  | .egressSelect port => Sys2Proof.Machine.execEgressSelect port s
  | .calendarSlot => Sys2Proof.Machine.execCalendarSlot s
  | .heartbeatSend => Sys2Proof.Machine.execHeartbeatSend s
  | .heartbeatReceive entry gen digest table => Sys2Proof.Machine.execHeartbeatReceive entry gen digest table s
  | .peerSuspect entry => Sys2Proof.Machine.execPeerSuspect entry s
  | .proposalRx entry gen change table => Sys2Proof.Machine.execProposalRx entry gen change table s
  | .voteRx entry gen vote => Sys2Proof.Machine.execVoteRx entry gen vote s
  | .quorumHold => Sys2Proof.Machine.execQuorumHold s
  | .quorumLost => Sys2Proof.Machine.execQuorumLost s
  | .grpSpareAdd device ready => Sys2Proof.Machine.execGrpSpareAdd device ready s
  | .groupNsCreate nsid origin stripes keyOk => Sys2Proof.Machine.execGroupNsCreate nsid origin stripes keyOk s
  | .groupNsDelete nsid origin keyOk => Sys2Proof.Machine.execGroupNsDelete nsid origin keyOk s
  | .groupNsSeal nsid origin => Sys2Proof.Machine.execGroupNsSeal nsid origin s
  | .groupNsUnseal nsid origin => Sys2Proof.Machine.execGroupNsUnseal nsid origin s
  | .groupWrite p nsid lba data => Sys2Proof.Machine.execGroupWrite p nsid lba data s
  | .stripePrepare entry gen write ns stripe share data => Sys2Proof.Machine.execStripePrepare entry gen write ns stripe share data s
  | .stripeCommit write pl => Sys2Proof.Machine.execStripeCommit write pl s
  | .prepareResolve write commit pl => Sys2Proof.Machine.execPrepareResolve write commit pl s
  | .rebuildStripe pos shares pl => Sys2Proof.Machine.execRebuildStripe pos shares pl s
  | .rebuildComplete pos => Sys2Proof.Machine.execRebuildComplete pos s
  | .mirrorUpdate entry gen m => Sys2Proof.Machine.execMirrorUpdate entry gen m s
  | .streamTableUpdate entry gen block ctx primary partner removal => Sys2Proof.Machine.execStreamTableUpdate entry gen block ctx primary partner removal s
  | .rehomeEventResend ctx => Sys2Proof.Machine.execRehomeEventResend ctx s
  | .grpCfgWrite v => Sys2Proof.Machine.execGrpCfgWrite v s
  | .getNonce m => Sys2Proof.Machine.execGetNonce m s
  | .getIdentity m => Sys2Proof.Machine.execGetIdentity m s
  | .attest m draws => Sys2Proof.Machine.execAttest m draws s
  | .lcTransition m keyOk => Sys2Proof.Machine.execLcTransition m keyOk s
  | .installKey m keyOk => Sys2Proof.Machine.execInstallKey m keyOk s
  | .removeKey m keyOk => Sys2Proof.Machine.execRemoveKey m keyOk s
  | .pair m keyOk => Sys2Proof.Machine.execPair m keyOk s
  | .unpair m keyOk => Sys2Proof.Machine.execUnpair m keyOk s
  | .debugUnlock m level => Sys2Proof.Machine.execDebugUnlock m level s
  | .zeroise viaMbox key => Sys2Proof.Machine.execZeroise viaMbox key s
  | .quoinSet hi v => Sys2Proof.Machine.execQuoinSet hi v s
  | .timeFloorUpdate => Sys2Proof.Machine.execTimeFloorUpdate s
  | .jtagTapAccess a => Sys2Proof.Machine.execJtagTapAccess a s
  | .powerOn smbAddr => Sys2Proof.Machine.execPowerOn smbAddr s
  | .resetNAssert ns refclk flush => Sys2Proof.Machine.execResetNAssert ns refclk flush s
  | .resetRelease b => Sys2Proof.Machine.execResetRelease b s
  | .rstRequestWrite key => Sys2Proof.Machine.execRstRequestWrite key s
  | .blockSoftReset bits => Sys2Proof.Machine.execBlockSoftReset bits s
  | .unitSoftReset cls index => Sys2Proof.Machine.execUnitSoftReset cls index s
  | .softResetQuiesced t => Sys2Proof.Machine.execSoftResetQuiesced t s
  | .quiesceTimeout t => Sys2Proof.Machine.execQuiesceTimeout t s
  | .regionReset r => Sys2Proof.Machine.execRegionReset r s
  | .regionResetDone fault => Sys2Proof.Machine.execRegionResetDone fault s
  | .bootCopyClear a b => Sys2Proof.Machine.execBootCopyClear a b s
  | .rstTimeoutWrite b v => Sys2Proof.Machine.execRstTimeoutWrite b v s
  | .pllUnlock pll => Sys2Proof.Machine.execPllUnlock pll s
  | .pllRelock pll ok die => Sys2Proof.Machine.execPllRelock pll ok die s
  | .refclkLoss => Sys2Proof.Machine.execRefclkLoss s
  | .regionDoze r => Sys2Proof.Machine.execRegionDoze r s
  | .regionWakeDone r => Sys2Proof.Machine.execRegionWakeDone r s
  | .idleRequest => Sys2Proof.Machine.execIdleRequest s
  | .idleEntered => Sys2Proof.Machine.execIdleEntered s
  | .offRequest key => Sys2Proof.Machine.execOffRequest key s
  | .offFlushDone => Sys2Proof.Machine.execOffFlushDone s
  | .wakeEvent c => Sys2Proof.Machine.execWakeEvent c s
  | .wakeComplete => Sys2Proof.Machine.execWakeComplete s
  | .alignmentTick => Sys2Proof.Machine.execAlignmentTick s
  | .wdtKick key => Sys2Proof.Machine.execWdtKick key s
  | .wdtProbe field media net => Sys2Proof.Machine.execWdtProbe field media net s
  | .wdtExpiry => Sys2Proof.Machine.execWdtExpiry s
  | .aonWdtCfgWrite v => Sys2Proof.Machine.execAonWdtCfgWrite v s
  | .powerSample total tiles => Sys2Proof.Machine.execPowerSample total tiles s
  | .thermalSample temps => Sys2Proof.Machine.execThermalSample temps s
  | .thermalTrip diode => Sys2Proof.Machine.execThermalTrip diode s
  | .tripPowerOff => Sys2Proof.Machine.execTripPowerOff s
  | .pwrConfigWrite off v => Sys2Proof.Machine.execPwrConfigWrite off v s
  | .smbSetOffset off pecOk => Sys2Proof.Machine.execSmbSetOffset off pecOk s
  | .smbRead answered => Sys2Proof.Machine.execSmbRead answered s
  | .smbWrite off v pecOk answered => Sys2Proof.Machine.execSmbWrite off v pecOk answered s
  | .smbAlertResponse => Sys2Proof.Machine.execSmbAlertResponse s
  | .medNandPadWrite v => Sys2Proof.Machine.execMedNandPadWrite v s
  | .gnozRxControl device msgId => Sys2Proof.Machine.execGnozRxControl device msgId s
  | .powerLoss vbat gasp => Sys2Proof.Machine.execPowerLoss vbat gasp s
  | .frameDiscard f cause => Sys2Proof.Machine.execFrameDiscard f cause s
  | .nandTemperatureSample temps => Sys2Proof.Machine.execNandTemperatureSample temps s

end Sys2Proof.Machine
end

