-- ==== Sys2Proof/Safety.lean ====
section
/-! DEFINITION. What counts as a safe run, and the invariants that statements name. -/

namespace Sys2Proof.Machine

/-- The step at a state neither faults nor refuses. -/
def StepSafe (s : State) : Prop := ∃ t, step s = .next t

/-- `t` is reached from `s` by steps that answer next states. -/
inductive Reaches : State → State → Prop where
  | refl (s : State) : Reaches s s
  | next {s t u : State} (h : Reaches s t) (e : step t = .next u) : Reaches s u

/-- A command runs to a next state of which `P` holds. -/
def Completes (c : Instr) (s : State) (P : State → Prop) : Prop := ∃ t, exec c s = .next t ∧ P t

/-- The register file in its canonical form from an offset on: offsets strictly rising, no word at its reset value. -/
def regsWfFrom : Nat → List (Nat × Word) → Bool
  | _, [] => true
  | lo, (k, v) :: rest => decide (lo ≤ k) && (v != resetWord k) && regsWfFrom (k + 1) rest

/-- The register file is in its canonical form. -/
def State.regsWf (s : State) : Bool := regsWfFrom 0 s.regs

/-- The register file and every memory are in their canonical form: equal contents are equal data. -/
def State.storesWf (s : State) : Bool :=
  s.regsWf && Memory.wf s.bulkMem && Memory.wf s.hostMem && Memory.wf s.nand.store && Memory.wf s.field.tileMem &&
    Memory.wf s.field.regionMem && Memory.wf s.yqi.staging && Memory.wf s.obs.mem && Memory.wf s.group.remoteShares &&
    s.mgr.runs.all (fun r => Memory.wf r.mem)

/-- The error log took one entry more, the newest, with this status and INFO0. -/
def Recorded (s t : State) (st : Status) (info0 : Nat) : Prop :=
  t.errlog.next = s.errlog.next + 1 ∧ ∃ e, t.errlog.entries.getLast? = some e ∧ e.status = st ∧ e.info0 = info0

/-- Every quoin bit that is set in one state is set in the other. -/
def QuoinKept (s t : State) : Prop := s.trust.quoin &&& t.trust.quoin = s.trust.quoin

/-- Commands that are a package reset or a loss of power: only these clear volatile state as a whole (R583). -/
def isReset : Instr → Bool
  | .powerOn _ => true
  | .resetNAssert _ _ _ => true
  | .powerLoss _ _ => true
  | _ => false

end Sys2Proof.Machine
end

