-- ==== Sys2Proof/WellFormed.lean ====
section
/-! DEFINITION. Which commands are well formed: every number fits the field that carries it (R3, R47, R66, R113, R121, R331,
R343, R404, R446, R467, R521). A meaning does not rely on it: each is defined on every operand. -/

namespace Sys2Proof

/-- A request's origin names a function, a queue, a device, a mailbox, a run slot or a context that exists. -/
def wfPath : ReqPath → Bool
  | .yqi fn qid cid => decide (fn < 64) && decide (qid < 2048) && decide (cid < 65536)
  | .gnoz device msgId => decide (device < 2 ^ 24) && decide (msgId < 2 ^ 48)
  | .image => true
  | .register => true
  | .mailbox m => decide (m < 2)
  | .run slot => decide (slot < 64)
  | .stream ctx => decide (ctx < 512)

/-- The target of a register access lies in its window and is aligned (R11, R674). -/
def wfTarget : RegTarget → Bool
  | .bar0 _ off => decide (off < 2 ^ 26) && off % 4 == 0
  | .bar2 fn off => decide (fn < 64) && decide (off < 2 ^ 23) && off % 4 == 0
  | .msixMask fn _ => decide (fn < 64)
  | .vfEnable link => decide (link < 2)

/-- A page read gives four codewords, each with what at most three tiers gave (R115, R116). -/
def wfNand (r : NandResult) : Bool := r.codewords.length == 4 && r.codewords.all (fun c => decide (c.length ≤ 3))

/-- The fuses are those of a part that exists, and every populated target has a channel and a place of its own (R2-R6, R109). -/
def wfBoot (i : BootInputs) : Bool :=
  i.fuses.wf && i.targets.all (fun t => decide (t.channel < 64)) &&
    (i.targets.map (fun t => (t.channel, t.target))).eraseDups.length == i.targets.length

/-- The unit that a soft reset concerns exists (R332, R604). -/
def wfReset : ResetTarget → Bool
  | .block b => decide (b < 9)
  | .unit => true
  | .tileUnit t bit => decide (t < 1536) && decide (bit < 8)

/-- A counter's name has a run slot or a context that exists (R343, R373). -/
def wfCtr : CtrName → Bool
  | .run slot c => decide (slot < 64) && decide (c < 65536)
  | .stream ctx b => decide (ctx < 512) && decide (b < 256)

/-- Every operand fits its field. -/
def wfInstr : Instr → Bool
  | .registerWrite t _ _ => wfTarget t
  | .badAccess _ off _ => decide (off < 2 ^ 26)
  | .inactiveTileAccess _ off _ => decide (off < 2 ^ 26)
  | .unassignedAccess _ off _ => decide (off < 2 ^ 26)
  | .fencedDieAccess _ off _ => decide (off < 2 ^ 26)
  | .eventSeqCeilingRaise => true
  | .tileFault t _ => decide (t < 1536)
  | .regionFault g _ => decide (g < 48)
  | .routerParityFault t _ => decide (t < 1536)
  | .flitError _ _ => true
  | .linkRetrainDone _ _ => true
  | .streamOpen p _ => wfPath p
  | .streamClose p id => wfPath p && decide (id < 2 ^ 16)
  | .streamCloseComplete c => decide (c < 512)
  | .streamParameters p _ => wfPath p
  | .streamResume p id m => wfPath p && decide (id < 2 ^ 16) && decide (m < 2 ^ 48)
  | .gnozRxCredit device msgId => decide (device < 2 ^ 24) && decide (msgId < 2 ^ 48)
  | .formeRead p id _ => wfPath p && decide (id < 2 ^ 16)
  | .formeReadComplete fn _ cid _ => decide (fn < 64) && decide (cid < 2 ^ 16)
  | .candidateStart c _ _ => decide (c < 512)
  | .stageComplete c _ _ _ => decide (c < 512)
  | .paramLookup c _ _ => decide (c < 512)
  | .formeHandoff c => decide (c < 512)
  | .wdgSelftestStart _ => true
  | .wdgSelftestDone _ => true
  | .read p nsid lba _ _ => wfPath p && decide (nsid < 2 ^ 32) && decide (lba < 2 ^ 64)
  | .nandReadComplete pma r => decide (pma < 2 ^ 40) && wfNand r
  | .patrolRead block _ => decide (block < 2 ^ 40)
  | .write p nsid lba _ _ _ => wfPath p && decide (nsid < 2 ^ 32) && decide (lba < 2 ^ 64)
  | .discard p nsid lba _ => wfPath p && decide (nsid < 2 ^ 32) && decide (lba < 2 ^ 64)
  | .flush p nsid => wfPath p && decide (nsid < 2 ^ 32)
  | .flushComplete => true
  | .pageProgramDone _ => true
  | .bandVerifyDone _ _ => true
  | .programFail pma _ => decide (pma < 2 ^ 40)
  | .eraseFail block => decide (block < 2 ^ 40)
  | .targetLost c t => decide (c < 64) && decide (t < 16)
  | .journalTailTimeout => true
  | .journalPageCommit => true
  | .checkpointStart => true
  | .checkpointDone _ => true
  | .checkpointStall => true
  | .gcBlockStart _ => true
  | .gcVerifyDone src => decide (src < 2 ^ 40)
  | .gcErase src => decide (src < 2 ^ 40)
  | .lastGasp _ => true
  | .lastGaspDone _ => true
  | .lastGaspResetRequest => true
  | .sanitizeCrypto p nsid _ => wfPath p && decide (nsid < 2 ^ 32)
  | .sanitizeBlock p nsid _ => wfPath p && decide (nsid < 2 ^ 32)
  | .sanitizeFormat p nsid _ => wfPath p && decide (nsid < 2 ^ 32)
  | .sanitizeTargetDone _ => true
  | .nsCreate p nsid _ _ => wfPath p && decide (nsid < 2 ^ 32)
  | .nsDelete p nsid _ => wfPath p && decide (nsid < 2 ^ 32)
  | .nsSeal p nsid => wfPath p && decide (nsid < 2 ^ 32)
  | .nsUnseal p nsid => wfPath p && decide (nsid < 2 ^ 32)
  | .mapCkptConfigWrite _ => true
  | .cmpRingDoorbell q _ => decide (q < 16)
  | .cmpJobStart _ _ => true
  | .decompressJobEnd _ _ => true
  | .compressJobEnd _ _ => true
  | .checkJobEnd _ => true
  | .chkCtxHold die c _ => decide (die < 2) && decide (c < 256)
  | .chkCtxWrite die c w _ => decide (die < 2) && decide (c < 256) && decide (w < 64)
  | .decoderUnitFault _ _ => true
  | .decoderNoProgress _ _ => true
  | .rtpPacket _ port _ => decide (port < 2 ^ 16)
  | .liveUnitTimeout c => decide (c < 64)
  | .decLiveCfgWrite c _ => decide (c < 64)
  | .laneFault lane => decide (lane < 64)
  | .laneNoProgress lane => decide (lane < 64)
  | .genOpen p _ _ => wfPath p
  | .genStep lane _ _ => decide (lane < 64)
  | .tilResetMac t => decide (t < 1536)
  | .tilResetVec t => decide (t < 1536)
  | .tilResetDma t => decide (t < 1536)
  | .tilResetCore t => decide (t < 1536)
  | .tilResetSync t => decide (t < 1536)
  | .tilResetObs t => decide (t < 1536)
  | .tilResetStore t => decide (t < 1536)
  | .tilResetRouter t => decide (t < 1536)
  | .matrixOp slot tile _ => decide (slot < 64) && decide (tile < 1536)
  | .sparseMatrixOp slot tile _ _ => decide (slot < 64) && decide (tile < 1536)
  | .vectorOp slot tile _ => decide (slot < 64) && decide (tile < 1536)
  | .vectorReduce slot tile _ => decide (slot < 64) && decide (tile < 1536)
  | .specialFunction slot tile _ => decide (slot < 64) && decide (tile < 1536)
  | .quantise slot tile _ => decide (slot < 64) && decide (tile < 1536)
  | .route slot tile _ => decide (slot < 64) && decide (tile < 1536)
  | .combine slot tile _ => decide (slot < 64) && decide (tile < 1536)
  | .embGather slot _ _ => decide (slot < 64)
  | .embRowReadDone slot _ _ _ => decide (slot < 64)
  | .embGrad slot _ _ => decide (slot < 64)
  | .embApply slot _ _ => decide (slot < 64)
  | .embFlush slot => decide (slot < 64)
  | .embFlushDone slot => decide (slot < 64)
  | .loadPlate p _ => wfPath p
  | .unloadPlate p digest => wfPath p && decide (digest < 2 ^ 64)
  | .start p _ => wfPath p
  | .preempt p slot => wfPath p && decide (slot < 64)
  | .resume p slot => wfPath p && decide (slot < 64)
  | .stop p slot => wfPath p && decide (slot < 64)
  | .runLoaded slot _ => decide (slot < 64)
  | .runDequeue => true
  | .plateEnd slot => decide (slot < 64)
  | .runCleanupDone slot => decide (slot < 64)
  | .dmaCopy slot tile _ => decide (slot < 64) && decide (tile < 1536)
  | .dmaFill slot tile _ => decide (slot < 64) && decide (tile < 1536)
  | .dmaEngine slot tile _ => decide (slot < 64) && decide (tile < 1536)
  | .dmaDescriptorDone slot tile => decide (slot < 64) && decide (tile < 1536)
  | .fillDone slot _ _ => decide (slot < 64)
  | .preemptSaveDone slot _ => decide (slot < 64)
  | .resumeRestoreDone slot _ => decide (slot < 64)
  | .syncAdd c _ _ => wfCtr c
  | .syncSub slot tile k _ => decide (slot < 64) && decide (tile < 1536) && decide (k < 2 ^ 16)
  | .syncWaitGe slot _ k _ => decide (slot < 64) && decide (k < 2 ^ 16)
  | .syncWaitSub slot tile k _ => decide (slot < 64) && decide (tile < 1536) && decide (k < 2 ^ 16)
  | .syncArrive slot tile k _ => decide (slot < 64) && decide (tile < 1536) && decide (k < 2 ^ 16)
  | .syncRead slot tile k => decide (slot < 64) && decide (tile < 1536) && decide (k < 2 ^ 16)
  | .syncAlloc c tile _ _ => wfCtr c && decide (tile < 1536)
  | .syncFree slot tile _ => decide (slot < 64) && decide (tile < 1536)
  | .syncConfig slot tile k _ _ _ => decide (slot < 64) && decide (tile < 1536) && decide (k < 2 ^ 16)
  | .barrierRelease _ => true
  | .synDbgSelWrite _ => true
  | .synSwSignal _ _ => true
  | .tilEvtClear t => decide (t < 1536)
  | .tilEvtSelWrite t n _ => decide (t < 1536) && decide (n < 8)
  | .tilEvtCntLoRead _ t n => decide (t < 1536) && decide (n < 8)
  | .markBegin _ id _ => decide (id < 2 ^ 32)
  | .markEnd _ id _ => decide (id < 2 ^ 32)
  | .markInstant _ id _ => decide (id < 2 ^ 32)
  | .traceEnable _ => true
  | .traceDisable _ => true
  | .traceRelease _ => true
  | .watch slot tile _ => decide (slot < 64) && decide (tile < 1536)
  | .sqTailDoorbell fn q v => decide (fn < 64) && decide (q < 2048) && decide (v < 2 ^ 32)
  | .cqHeadDoorbell fn q v => decide (fn < 64) && decide (q < 2048) && decide (v < 2 ^ 32)
  | .aqEnable fn _ => decide (fn < 64)
  | .aqDisable fn _ => decide (fn < 64)
  | .commandFetch _ => true
  | .parkedAdmit => true
  | .ioCommandComplete fn _ cid _ => decide (fn < 64) && decide (cid < 2 ^ 16)
  | .identify p _ nsid => wfPath p && decide (nsid < 2 ^ 32)
  | .getLog p _ _ _ => wfPath p
  | .getFeature p _ _ => wfPath p
  | .setArbitration p _ => wfPath p
  | .setCoalescing p _ _ _ => wfPath p
  | .setVfResources p _ _ _ => wfPath p
  | .setNsVisibility p _ _ => wfPath p
  | .setMediaLayout p _ _ => wfPath p
  | .firmwareDownload p _ _ => wfPath p
  | .firmwareCommit p _ _ => wfPath p
  | .queueCreate p _ _ _ _ _ _ => wfPath p
  | .queueDelete p _ => wfPath p
  | .queueDeleteDone fn _ => decide (fn < 64)
  | .queueRestartResume p _ => wfPath p
  | .queueRestartSkip p _ => wfPath p
  | .coalesceTimeout fn _ => decide (fn < 64)
  | .functionLevelReset fn => decide (fn < 64)
  | .pcieLinkDown l => decide (l < 2)
  | .pcieLinkUp l _ _ _ => decide (l < 2)
  | .gnozFragmentReceive _ => true
  | .gnozRxWrite device msgId _ => decide (device < 2 ^ 24) && decide (msgId < 2 ^ 48)
  | .gnozRxSend device msgId => decide (device < 2 ^ 24) && decide (msgId < 2 ^ 48)
  | .gnozRxRead device msgId => decide (device < 2 ^ 24) && decide (msgId < 2 ^ 48)
  | .gnozRxReadData device msgId => decide (device < 2 ^ 24) && decide (msgId < 2 ^ 48)
  | .gnozRxSyncAdd device msgId => decide (device < 2 ^ 24) && decide (msgId < 2 ^ 48)
  | .gnozRxReply device msgId => decide (device < 2 ^ 24) && decide (msgId < 2 ^ 48)
  | .gnozRxForme device msgId => decide (device < 2 ^ 24) && decide (msgId < 2 ^ 48)
  | .gnozRxStreamEvent device msgId => decide (device < 2 ^ 24) && decide (msgId < 2 ^ 48)
  | .gnozRxArm device msgId => decide (device < 2 ^ 24) && decide (msgId < 2 ^ 48)
  | .gnozRxAck device msgId => decide (device < 2 ^ 24) && decide (msgId < 2 ^ 48)
  | .gnzQDoorbell q _ => decide (q < 4096)
  | .wrWrite q => decide (q < 4096)
  | .wrSend q => decide (q < 4096)
  | .wrRead q => decide (q < 4096)
  | .wrSyncAdd q => decide (q < 4096)
  | .wrControl q => decide (q < 4096)
  | .wrArm q => decide (q < 4096)
  | .wrRecv q => decide (q < 4096)
  | .rtoExpiry _ => true
  | .messageExpiry _ => true
  | .dupEntryExpiry device msgId => decide (device < 2 ^ 24) && decide (msgId < 2 ^ 48)
  | .reassemblyExpiry device msgId => decide (device < 2 ^ 24) && decide (msgId < 2 ^ 48)
  | .gnzTableRead => true
  | .gnzTableWrite => true
  | .gnzTableInvalidate => true
  | .keyRegister slot _ _ _ _ _ _ => decide (slot < 64)
  | .gnzQueueAlloc slot _ _ _ => decide (slot < 64)
  | .gnzClockWrite _ => true
  | .ptpMessage _ _ _ _ => true
  | .gnzEthModeWrite _ => true
  | .ethPortLinkChange lp _ => decide (lp < 64)
  | .arpNeighbourRx _ _ => true
  | .icmpEchoRx _ _ => true
  | .gnozHoldoffEnd => true
  | .formeResend => true
  | .gnzCfgWrite _ _ => true
  | .bufferRequest die port _ _ _ _ => decide (die < 2) && decide (port < 2 ^ 16)
  | .bufferFree _ port _ => decide (port < 2 ^ 16)
  | .bufferDrop _ port _ => decide (port < 2 ^ 16)
  | .bufferShare _ port _ _ => decide (port < 2 ^ 16)
  | .bufferHandover _ port _ _ _ => decide (port < 2 ^ 16)
  | .configShadowWrite off _ => decide (off < 2 ^ 26)
  | .configTick => true
  | .policerTick => true
  | .egressSelect port => decide (port < 64)
  | .calendarSlot => true
  | .heartbeatSend => true
  | .heartbeatReceive entry gen digest _ => decide (entry < 65) && decide (gen < 2 ^ 32) && decide (digest < 2 ^ 64)
  | .peerSuspect entry => decide (entry < 65)
  | .proposalRx entry gen _ _ => decide (entry < 65) && decide (gen < 2 ^ 32)
  | .voteRx entry gen _ => decide (entry < 65) && decide (gen < 2 ^ 32)
  | .quorumHold => true
  | .quorumLost => true
  | .grpSpareAdd device _ => decide (device < 2 ^ 24)
  | .groupNsCreate nsid _ _ _ => decide (nsid < 2 ^ 32)
  | .groupNsDelete nsid _ _ => decide (nsid < 2 ^ 32)
  | .groupNsSeal nsid _ => decide (nsid < 2 ^ 32)
  | .groupNsUnseal nsid _ => decide (nsid < 2 ^ 32)
  | .groupWrite p nsid lba _ => wfPath p && decide (nsid < 2 ^ 32) && decide (lba < 2 ^ 64)
  | .stripePrepare entry gen _ _ _ _ _ => decide (entry < 65) && decide (gen < 2 ^ 32)
  | .stripeCommit _ _ => true
  | .prepareResolve _ _ _ => true
  | .rebuildStripe pos _ _ => decide (pos < 64)
  | .rebuildComplete pos => decide (pos < 64)
  | .mirrorUpdate entry gen _ => decide (entry < 65) && decide (gen < 2 ^ 32)
  | .streamTableUpdate entry gen _ _ _ _ _ => decide (entry < 65) && decide (gen < 2 ^ 32)
  | .rehomeEventResend ctx => decide (ctx < 512)
  | .grpCfgWrite _ => true
  | .getNonce m => decide (m < 2)
  | .getIdentity m => decide (m < 2)
  | .attest m _ => decide (m < 2)
  | .lcTransition m _ => decide (m < 2)
  | .installKey m _ => decide (m < 2)
  | .removeKey m _ => decide (m < 2)
  | .pair m _ => decide (m < 2)
  | .unpair m _ => decide (m < 2)
  | .debugUnlock m _ => decide (m < 2)
  | .zeroise _ _ => true
  | .quoinSet _ _ => true
  | .timeFloorUpdate => true
  | .jtagTapAccess _ => true
  | .powerOn smbAddr => decide (smbAddr < 4)
  | .resetNAssert _ _ _ => true
  | .resetRelease b => wfBoot b
  | .rstRequestWrite _ => true
  | .blockSoftReset _ => true
  | .unitSoftReset cls index => decide (cls < 16) && decide (index < 256)
  | .softResetQuiesced t => wfReset t
  | .quiesceTimeout t => wfReset t
  | .regionReset r => decide (r < 64)
  | .regionResetDone _ => true
  | .bootCopyClear _ _ => true
  | .rstTimeoutWrite b _ => decide (b < 10)
  | .pllUnlock _ => true
  | .pllRelock _ _ die => decide (die < 3)
  | .refclkLoss => true
  | .regionDoze r => decide (r < 48)
  | .regionWakeDone r => decide (r < 48)
  | .idleRequest => true
  | .idleEntered => true
  | .offRequest _ => true
  | .offFlushDone => true
  | .wakeEvent _ => true
  | .wakeComplete => true
  | .alignmentTick => true
  | .wdtKick _ => true
  | .wdtProbe _ _ _ => true
  | .wdtExpiry => true
  | .aonWdtCfgWrite _ => true
  | .powerSample _ _ => true
  | .thermalSample _ => true
  | .thermalTrip diode => decide (diode < 12)
  | .tripPowerOff => true
  | .pwrConfigWrite off _ => decide (off < 2 ^ 26)
  | .smbSetOffset _ _ => true
  | .smbRead _ => true
  | .smbWrite _ _ _ _ => true
  | .smbAlertResponse => true
  | .medNandPadWrite _ => true
  | .gnozRxControl device msgId => decide (device < 2 ^ 24) && decide (msgId < 2 ^ 48)
  | .powerLoss _ _ => true
  | .frameDiscard _ _ => true
  | .nandTemperatureSample _ => true

end Sys2Proof
end

