-- ==== Sys2Proof/Certificates/Slice0/Obligations.lean ====
section
/-! DEFINITION. The statements for the provers. -/

open Sys2Proof Sys2Proof.Machine

/-- A step runs the front command on the state with the queue's rest. For every command, state and rest of the queue, the
step of the state with that command in front is the command's meaning on the state with the rest. On an empty queue
the step lets one microsecond pass and changes nothing else (the model's choice, assumption 2). (assumption 1,
assumption 2) -/
def Obligations.StepRunsTheFrontCommand : Prop :=
  (∀ (c : Instr) (rest : List Instr) (s : State),
    step { s with pending := c :: rest } = exec c { s with pending := rest }) ∧
  (∀ s : State, s.pending = [] → step s = .next { s with now := s.now + 1000 })

/-- Every command answers a next state. No command of the table ends in a fault or a refusal, whatever its operands and
the state: the spec gives each an outcome. (assumption 3) -/
def Obligations.NoCommandFaultsOrIsRefused : Prop :=
  ∀ (c : Instr) (s : State), ∃ t, exec c s = .next t

/-- What the reset state holds. At reset no command waits, no quoin bit is set, the log is empty, every register reads its
reset value, the registers and memories are in their canonical form, and reset is held. (R8, R583, R586) -/
def Obligations.ResetStateIsCanonical : Prop :=
  State.reset.pending = [] ∧ State.reset.trust.quoin = 0 ∧ State.reset.errlog.entries = [] ∧
  (∀ off, State.reset.reg off = resetWord off) ∧ State.reset.storesWf = true ∧ State.reset.boot.resetHeld = true

/-- A set quoin bit stays set through every step that is no reset or loss of power. For every state and step: unless the
front command is a package reset or a loss of power, every quoin bit that was set is still set in the next state. The
rule's clause on what covers a locked setting is not stated here. (R569) -/
def Obligations.QuoinBitsOnlyClearAtReset : Prop :=
  ∀ s t : State, step s = .next t → (∀ c rest, s.pending = c :: rest → isReset c = false) → QuoinKept s t

/-- Every step keeps the register file and every memory in canonical form. For every state whose register file and
memories are in canonical form (addresses strictly rising, nothing listed that an unlisted address reads as), every
next state's are too: registers, bulk memory, host memory, NAND store, tile and region stores, staging buffer, trace
area, the shares of a group, and each run's memory. That an unlisted byte reads 0 is the model's (assumption 5). (R8,
R586, assumption 5) -/
def Obligations.StoresStayCanonical : Prop :=
  ∀ s t : State, s.storesWf = true → step s = .next t → t.storesWf = true

/-- A register word reads as it was set, and no other word changes. In a canonical register file, setting a word makes it
read as set, leaves every other word, and keeps the file canonical. (R8, R9, R10) -/
def Obligations.RegisterFileReadsAsWritten : Prop :=
  ∀ (s : State) (off : Nat) (v : Word), s.regsWf = true →
    (s.setReg off v).reg off = v ∧ (∀ o, o ≠ off → (s.setReg off v).reg o = s.reg o) ∧
    (s.setReg off v).regsWf = true

/-- Bytes read as they were last written, and bytes outside a write do not change. In a canonical memory, a written byte
string reads back whole, every byte outside it keeps its value, and zeroing a range makes exactly that range read 0.
(R586, assumption 5) -/
def Obligations.MemoryReadsAsWritten : Prop :=
  ∀ (m : Memory) (addr : Nat) (bs : List Byte), Memory.wf m = true →
    memRead (memWrite m addr bs) addr bs.length = bs ∧
    (∀ a, (a < addr ∨ addr + bs.length ≤ a) → memGet (memWrite m addr bs) a = memGet m a) ∧
    (∀ lo hi a, memGet (memZero m lo hi) a = if lo ≤ a ∧ a < hi then 0 else memGet m a)

/-- A register write sets the unlocked fields of a word. A write from READY on to a word of the register index in the
queue-interface block sets the word to what the access codes of R8 make of it when no quoin bit covers it; when its
quoin bit is set and a locked field would change, the locked fields keep their value and the write is recorded and
counted as State.quoinDenied says. A 64-bit write is the write of the lower word and then of the upper one. The bits
are spelled out: a read-write bit takes the written bit, a write-1-to-clear bit is cleared by a 1, a write-1-to-set
bit is set by a 1, a locked bit and every other bit keep. (R8, R9, R10, R11, R570) -/
def Obligations.RegisterWriteSetsUnlockedFields : Prop :=
  -- REGISTER_WRITE, a plain word, not locked
  (∀ (s : State) (p : BusPath) (off : Nat) (v : Word) (r : RegRow),
    s.ready = true →
    s.mainHeld = false →
    s.power.state = .run →
    p ≠ .image →
    off % 4 = 0 →
    yqiBase ≤ off →
    off < medBase →
    findRow off = some r →
    r.rwq = 0 ∨ s.quoinSet r.quoin = false →
    exec (.registerWrite (.bar0 p off) v none) s = .next (s.setReg off (r.write false (s.reg off) v))) ∧
  -- REGISTER_WRITE, a locked field that would change
  (∀ (s : State) (off : Nat) (v : Word) (r : RegRow),
    findRow off = some r →
    r.rwq ≠ 0 →
    s.quoinSet r.quoin = true →
    r.lockedDiffers (s.reg off) v = true →
    s.plainWrite off v = (s.quoinDenied off r.quoin).setReg off (r.write true (s.reg off) v)) ∧
  -- REGISTER_WRITE, the access codes bit by bit
  (∀ (r : RegRow) (locked : Bool) (old new : Word) (i : Nat),
    i < 32 →
    (r.write locked old new).getLsbD i =
      ((((if r.rw.testBit i || (!locked && r.rwq.testBit i) then new.getLsbD i else old.getLsbD i) &&
        !(new.getLsbD i && r.w1c.testBit i))) || (new.getLsbD i && r.w1s.testBit i))) ∧
  -- REGISTER_WRITE, 64 bits
  (∀ (s : State) (p : BusPath) (off : Nat) (v h : Word),
    p ≠ .image →
    off % 8 = 0 →
    exec (.registerWrite (.bar0 p off) v (some h)) s = .next ((s.busWrite p off v).busWrite p (off + 4) h))

/-- Accesses that no register answers: their record, the data returned, and nothing else. From READY on, in the state Run,
with the main domains up: a misaligned or wrongly sized access on a PCIe path completes with Unsupported Request and
records 0x0106 with the offset in INFO0 (that INFO0 holds the offset is the model's choice, assumption 14); a write
into the window of a tile in an inactive region is discarded and 0x0103 recorded, a read returns 0; an access to an
unassigned range records 0x0101 with the offset, at most once per second; an access that a fenced die serves reads as
all ones and records 0x1002 once per die. No other state changes: the discard, the data returned and the record are
the whole effect the rules give these commands. An access of 8 aligned bytes is not bad: it returns two consecutive
words, lower address first. (R7, R11, R12, R676, R677) -/
def Obligations.AccessesThatReachNoRegister : Prop :=
  -- BAD_ACCESS
  (∀ (s : State) (off bytes : Nat),
    s.ready = true →
    s.mainHeld = false →
    s.power.state = .run →
    accessOk off bytes = false →
    off < 0x4000000 →
    exec (.badAccess .pcie0 off bytes) s =
      .next ((s.emit (.unsupportedRequest .pcie0)).log 0x0106 (off / 2 ^ 16 * 2 ^ 16) off)) ∧
  -- BAD_ACCESS of a size and alignment that BAR0 takes: the read of two consecutive words (R11)
  (∀ (s : State) (off : Nat),
    s.mainHeld = false →
    s.power.state = .run →
    off % 8 = 0 →
    off < 0x50000 →
    exec (.badAccess .pcie0 off 8) s =
      .next (s.emit (.readData .pcie0 off [s.blockWord .pcie0 off, s.blockWord .pcie0 (off + 4)]))) ∧
  -- INACTIVE_TILE_ACCESS
  (∀ (s : State) (p : BusPath) (off : Nat) (v : Word),
    s.ready = true →
    s.mainHeld = false →
    s.power.state = .run →
    tilBase ≤ off →
    off < 0x4000000 →
    s.fieldFenced = false →
    s.regionActive (offTile off / 32) = false →
    s.power.tripAt = none →
    exec (.inactiveTileAccess p off (some v)) s = .next (s.log 0x0103 tilBase off) ∧
      exec (.inactiveTileAccess p off none) s = .next ((s.log 0x0103 tilBase off).emit (.readData p off [0]))) ∧
  -- UNASSIGNED_ACCESS
  (∀ (s : State) (p : BusPath) (off : Nat) (v : Word),
    s.ready = true →
    s.mainHeld = false →
    s.power.state = .run →
    (0x50000 ≤ off ∧ off < 0x100000) ∨ (0xF00000 ≤ off ∧ off < 0x1000000) →
    s.rst.unassignedAt = none →
    exec (.unassignedAccess p off (some v)) s =
        .next { (s.log 0x0101 0 off) with rst := { s.rst with unassignedAt := some s.now } } ∧
      exec (.unassignedAccess p off none) s =
        .next (State.emit { (s.log 0x0101 0 off) with rst := { s.rst with unassignedAt := some s.now } } (.readData p off [0]))) ∧
  -- UNASSIGNED_ACCESS, less than a second after the last record
  (∀ (s : State) (p : BusPath) (off t : Nat) (v : Word),
    s.ready = true →
    s.mainHeld = false →
    s.power.state = .run →
    (0x50000 ≤ off ∧ off < 0x100000) ∨ (0xF00000 ≤ off ∧ off < 0x1000000) →
    s.rst.unassignedAt = some t →
    s.now < t + 1000000000 →
    exec (.unassignedAccess p off (some v)) s = .next s) ∧
  -- FENCED_DIE_ACCESS, field die, its first record
  (∀ (s : State) (p : BusPath) (off : Nat) (v : Word),
    s.ready = true →
    s.mainHeld = false →
    s.power.state = .run →
    tilBase ≤ off →
    off < 0x4000000 →
    s.fieldFenced = true →
    s.links.fieldLogged = false →
    s.power.tripAt = none →
    exec (.fencedDieAccess p off (some v)) s =
        .next { (s.log 0x1002 aonBase) with links := { s.links with fieldLogged := true } } ∧
      exec (.fencedDieAccess p off none) s =
        .next (State.emit { (s.log 0x1002 aonBase) with links := { s.links with fieldLogged := true } }
          (.readData p off [0xFFFFFFFF]))) ∧
  -- FENCED_DIE_ACCESS, net die, recorded before
  (∀ (s : State) (p : BusPath) (off : Nat) (v : Word),
    s.ready = true →
    s.mainHeld = false →
    s.power.state = .run →
    egsBase ≤ off →
    off < grpBase →
    s.netFenced = true →
    s.links.netLogged = true →
    s.power.tripAt = none →
    exec (.fencedDieAccess p off (some v)) s = .next s ∧
      exec (.fencedDieAccess p off none) s = .next (s.emit (.readData p off [0xFFFFFFFF])))

/-- The sideband commands, the alert response, JTAG and the event-number ceiling. The offset write sets the sideband's
offset unless its check byte is bad; a read answers status and value and the offset advances by 4; a read out of reach
or unaligned answers 2 or 3 with all ones; a write reaches the register; the alert response gives the address once;
closed JTAG accesses shift out ones and change nothing, an open register access reaches BAR0. The ceiling rises by
2^36 when fewer than 2^32 numbers are left (what an open TDO carries is not spelled out, assumption 16). (R15, R577,
R667, R668, R669, R684) -/
def Obligations.SidebandAndDebugAccess : Prop :=
  -- SMB_SET_OFFSET
  (∀ (s : State) (off : Word),
    exec (.smbSetOffset off true) s = .next { s with sideband := { s.sideband with offset := off.toNat } } ∧
      exec (.smbSetOffset off false) s = .next s) ∧
  -- SMB_READ, out of reach or unaligned
  (∀ (s : State) (answered : Bool),
    s.sideband.offset > 0xFFFFFF ∨ s.sideband.offset % 4 ≠ 0 →
    exec (.smbRead answered) s =
      .next { (s.emit (.smbus [if s.sideband.offset > 0xFFFFFF then 2 else 3, 0xFFFFFFFF])) with
        sideband := { s.sideband with offset := (s.sideband.offset + 4) % 2 ^ 32 } }) ∧
  -- SMB_READ of a block that answers
  (∀ (s : State) (w : Word) (t : State),
    smbRange s.sideband.offset = 0 →
    s.busRead .sideband s.sideband.offset = (some w, t) →
    exec (.smbRead true) s =
      .next { (t.emit (.smbus [0, w.toNat])) with
        sideband := { t.sideband with offset := (s.sideband.offset + 4) % 2 ^ 32 } }) ∧
  -- SMB_READ, no answer within 1 ms
  (∀ (s : State),
    smbRange s.sideband.offset = 0 →
    sagBase ≤ s.sideband.offset →
    exec (.smbRead false) s =
      .next { (s.emit (.smbus [1, 0xFFFFFFFF])) with
        sideband := { s.sideband with offset := (s.sideband.offset + 4) % 2 ^ 32 } }) ∧
  -- SMB_WRITE
  (∀ (s : State) (off v : Word),
    off.toNat ≤ 0xFFFFFF →
    off.toNat % 4 = 0 →
    exec (.smbWrite off v true true) s = .next (s.busWrite .sideband off.toNat v) ∧
      exec (.smbWrite off v false true) s = .next s) ∧
  -- SMB_WRITE out of reach or unaligned
  (∀ (s : State) (off v : Word) (pecOk answered : Bool),
    off.toNat > 0xFFFFFF ∨ off.toNat % 4 ≠ 0 →
    exec (.smbWrite off v pecOk answered) s = .next s) ∧
  -- SMB_ALERT_RESPONSE
  (∀ (s : State),
    s.power.wdtWarned = true ∨ s.power.throttle = true ∨ s.trust.mbox1.done = true →
    exec .smbAlertResponse s =
      .next (if s.sideband.alertAnswered then s
        else { (s.emit (.smbus [0x58 + s.pins.smbAddr % 4])) with sideband := { s.sideband with alertAnswered := true } })) ∧
  -- JTAG_TAP_ACCESS, closed
  (∀ (s : State) (a : JtagAccess),
    s.jtagOpen a = false →
    exec (.jtagTapAccess a) s = .next (s.emit (.tdo true))) ∧
  -- JTAG_TAP_ACCESS, an open register write
  (∀ (s : State) (off : Nat) (v : Word),
    s.lc = .blank ∨ s.lc = .returned ∨ s.trust.debug ≥ 1 →
    exec (.jtagTapAccess (.registerAccess off (some v))) s = .next (s.busWrite .jtag off v)) ∧
  -- JTAG_TAP_ACCESS: what is open in each state of the life cycle (R577)
  (∀ (s : State),
    s.jtagOpen .idcodeBypass = true ∧ s.jtagOpen .saggarInternals = false ∧
      (s.lc = .deployed → s.trust.debug = 0 → s.jtagOpen .extest = false ∧ s.jtagOpen .scan = false ∧
        ∀ off w, s.jtagOpen (.registerAccess off w) = false) ∧
      (s.lc = .provisioned → s.jtagOpen .extest = true ∧ s.jtagOpen .scan = false)) ∧
  -- EVENT_SEQ_CEILING_RAISE
  (∀ (s : State) (c : Nat),
    s.evt.backup = some c →
    c ≤ s.evt.next + 2 ^ 32 →
    s.evt.anchor.getD 0 ≤ c →
    exec .eventSeqCeilingRaise s =
      .next { s with evt := { s.evt with backup := some (c + 2 ^ 36), pendingAnchor := c + 2 ^ 36 } }) ∧
  -- EVENT_SEQ_CEILING_RAISE, 2^32 numbers or more left
  (∀ (s : State),
    s.evt.next + 2 ^ 32 < s.evt.backup.getD 0 →
    exec .eventSeqCeilingRaise s = .next s)

/-- The mailbox commands without a signature answer in their mailbox. A request under way in a mailbox ends with DONE, its
status and its response. GET_NONCE returns the mailbox's 48-byte nonce and GET_IDENTITY the IK point and the factory
certificate; ATTEST outside Blank, before zeroisation, takes one event number and returns the report for the 48-byte
verifier nonce; ATTEST after a zeroisation ends with 0x0F08 and in Blank with 0x0F03; ZEROISE from a mailbox, or the
key written to SAG_ZEROISE, clears the unwrapped keys and leaves the key record. Ends of requests are spelled out by
the first clause. (R553, R562, R563, R567, R568, R575, R576) -/
def Obligations.UnsignedMailboxCommands : Prop :=
  -- the end of a request
  (∀ (s : State) (m : Nat) (st : Status) (resp : List Byte),
    m < 2 →
    let x := (s.mboxEnd m st resp).mbox m
    x.busy = false ∧ x.done = true ∧ x.status = st ∧ x.rlen = resp.length ∧ x.buf = resp ++ (s.mbox m).buf.drop resp.length ∧ x.nonce = (s.mbox m).nonce ∧
      (s.mboxEnd m st resp).mbox (1 - m) = s.mbox (1 - m) ∧
      s.mboxEnd m st resp = { s with trust := (s.mboxEnd m st resp).trust }) ∧
  -- GET_NONCE
  (∀ (s : State) (m : Nat),
    s.mboxServes m 0x01 = true →
    (s.mbox m).length = 0 →
    exec (.getNonce m) s = .next (s.mboxEnd m 0 (leBytes 48 (s.mbox m).nonce.toNat))) ∧
  -- GET_IDENTITY
  (∀ (s : State) (m : Nat),
    s.mboxServes m 0x02 = true →
    (s.mbox m).length = 0 →
    exec (.getIdentity m) s = .next (s.mboxEnd m 0 (publicPoint s.trustKept.ik ++ s.trustKept.cert))) ∧
  -- ATTEST
  (∀ (s : State) (m : Nat) (draws : SignDraws),
    s.mboxServes m 0x03 = true →
    (s.mbox m).length = 48 →
    s.trust.zeroised = false →
    s.trust.pending = false →
    s.lc ≠ .blank →
    let v := s.issueSeq.2
    let body := v.attestBody s.issueSeq.1 (signK draws.ak) (slice (v.mbox m).buf 0 48)
    exec (.attest m draws) s = .next (v.mboxEnd m 0
      (body ++ makeTrailer v.attestKey (signK draws.report) (digest8 (publicPoint v.attestKey)) body))) ∧
  -- ATTEST, after a zeroisation or in Blank
  (∀ (s : State) (m : Nat) (draws : SignDraws),
    s.mboxServes m 0x03 = true →
    (s.trust.zeroised = true → exec (.attest m draws) s = .next (s.mboxEnd m 0x0F08)) ∧
      (s.trust.zeroised = false → s.lc = .blank → exec (.attest m draws) s = .next (s.mboxEnd m 0x0F03))) ∧
  -- ZEROISE through SAG_ZEROISE
  (∀ (s : State),
    exec (.zeroise none 0x5A45524F) s =
        .next { s with media := { s.media with engineKeys := [] }, trust := { s.trust with zeroised := true } } ∧
      ∀ key : Word, key ≠ 0x5A45524F → exec (.zeroise none key) s = .next s) ∧
  -- ZEROISE from a mailbox
  (∀ (s : State) (m : Nat) (key : Word),
    s.mboxServes m 0x20 = true →
    (s.mbox m).length = 0 →
    exec (.zeroise (some m) key) s =
      .next (State.mboxEnd { s with media := { s.media with engineKeys := [] }, trust := { s.trust with zeroised := true } } m 0))

/-- A signed request that passes its checks takes its effect, and its mailbox draws a new nonce. When every check of R565
passes and, where the command writes the key record, a key block accepts it: INSTALL_KEY puts the key into its slot,
REMOVE_KEY empties the slot, PAIR adds the pair key and UNPAIR removes it, each with a new key record; DEBUG_UNLOCK
opens its level until reset and zeroises first in Deployed; LC_TRANSITION writes the next state slot, sets PENDING,
zeroises and requests a reset with reason LIFE_CYCLE; from Blank or Returned to Provisioned it also raises the owner
epoch, installs the new root key alone, and hands the media over. The mailbox then draws a new nonce and ends with
status 0. (R555, R563, R565, R566, R571, R572, R573, R575, R577) -/
def Obligations.SignedRequestsTakeEffect : Prop :=
  -- INSTALL_KEY
  (∀ (s : State) (m : Nat),
    s.mboxServes m 0x11 = true →
    s.sagCheck m 0x11 = 0 →
    exec (.installKey m true) s = .next ((State.newNonce (State.keyRecordAppend { s with trustKept := { s.trustKept with
        keys := modAt s.trustKept.keys (leField (s.sagBody m) 0 1)
          (fun _ => some { keyId := digest8 (slice (s.sagBody m) 4 97), point := slice (s.sagBody m) 4 97 }) } }) m).mboxEnd m 0)) ∧
  -- REMOVE_KEY
  (∀ (s : State) (m : Nat),
    s.mboxServes m 0x12 = true →
    s.sagCheck m 0x12 = 0 →
    exec (.removeKey m true) s = .next ((State.newNonce (State.keyRecordAppend { s with trustKept := { s.trustKept with
        keys := modAt s.trustKept.keys (leField (s.sagBody m) 0 1) (fun _ => none) } }) m).mboxEnd m 0)) ∧
  -- PAIR
  (∀ (s : State) (m : Nat),
    s.mboxServes m 0x13 = true →
    s.sagCheck m 0x13 = 0 →
    let b := s.sagBody m
    exec (.pair m true) s = .next ((State.newNonce (State.keyRecordAppend { s with trustKept := { s.trustKept with
        pairs := s.trustKept.pairs ++ [{ keyId := leField b 0 4, peer := leField b 4 4, rotation := leField b 8 2,
                                         peerPoint := slice b 12 97 }] } }) m).mboxEnd m 0)) ∧
  -- UNPAIR
  (∀ (s : State) (m : Nat),
    s.mboxServes m 0x14 = true →
    s.sagCheck m 0x14 = 0 →
    exec (.unpair m true) s = .next ((State.newNonce (State.keyRecordAppend { s with trustKept := { s.trustKept with
        pairs := s.trustKept.pairs.filter (fun p => p.keyId != leField (s.sagBody m) 0 4) } }) m).mboxEnd m 0)) ∧
  -- DEBUG_UNLOCK, outside Deployed
  (∀ (s : State) (m : Nat),
    s.mboxServes m 0x15 = true →
    s.sagCheck m 0x15 = 0 →
    s.lc ≠ .deployed →
    exec (.debugUnlock m (leField (s.sagBody m) 0 1)) s = .next ((State.newNonce { s with trust := { s.trust with
        debug := max s.trust.debug (leField (s.sagBody m) 0 1), debugUsed := true } } m).mboxEnd m 0)) ∧
  -- DEBUG_UNLOCK in Deployed zeroises first
  (∀ (s : State) (m : Nat),
    s.mboxServes m 0x15 = true →
    s.sagCheck m 0x15 = 0 →
    s.lc = .deployed →
    exec (.debugUnlock m (leField (s.sagBody m) 0 1)) s = .next ((State.newNonce { s with
        media := { s.media with engineKeys := [] },
        trust := { s.trust with zeroised := true,
                                debug := max s.trust.debug (leField (s.sagBody m) 0 1), debugUsed := true } } m).mboxEnd m 0)) ∧
  -- LC_TRANSITION from Blank or Returned to Provisioned (R572, R574)
  (∀ (s : State) (m : Nat),
    s.mboxServes m 0x10 = true →
    s.sagCheck m 0x10 = 0 →
    leField (s.sagBody m) 1 1 = 1 →
    s.lc = .blank ∨ s.lc = .returned →
    Completes (.lcTransition m true) s fun t =>
      t.trustKept.lcSlots = s.trustKept.lcSlots ++ [.provisioned] ∧ t.trustKept.ownerEpoch = s.trustKept.ownerEpoch + 1 ∧
      t.trustKept.keys = some { keyId := digest8 (slice (s.sagBody m) 4 97), point := slice (s.sagBody m) 4 97 } ::
        List.replicate 15 none ∧
      t.trustKept.pairs = [] ∧ t.trust.pending = true ∧ t.trust.zeroised = true ∧ t.media.engineKeys = [] ∧
      t.nand.anchor0 = none ∧ t.nand.anchor1 = none ∧ t.nand.journal = [] ∧ t.nand.handover.isSome = true ∧
      t.backup = { s.backup with request := 2 } ∧ t.trust.quoin = s.trust.quoin ∧
      t.out = s.out ++ [.pin .resetReqN false, .pin .resetReqN true]) ∧
  -- LC_TRANSITION to Deployed
  (∀ (s : State) (m : Nat) (ok : Bool),
    s.mboxServes m 0x10 = true →
    s.sagCheck m 0x10 = 0 →
    leField (s.sagBody m) 1 1 = 2 →
    Completes (.lcTransition m ok) s fun t =>
      t.trustKept = { s.trustKept with lcSlots := s.trustKept.lcSlots ++ [.deployed] } ∧ t.lc = .deployed ∧
      t.trust.pending = true ∧ t.trust.zeroised = true ∧ t.backup = { s.backup with request := 2 } ∧
      t.media = { s.media with engineKeys := [] } ∧ t.trust.quoin = s.trust.quoin ∧
      t.out = s.out ++ [.pin .resetReqN false, .pin .resetReqN true] ∧
      t = { s with trustKept := t.trustKept, trust := t.trust, backup := t.backup, media := t.media, out := t.out,
                   freeCtr := s.freeCtr + 1 })

/-- A signed request that fails a check changes no key, slot, state or quoin bit. For each signed command: a request that
fails a check of R565 only draws a new nonce and ends with that status; a key record that no block accepts fails the
command with 0x0F0A. The order of the checks decides the status: a request not formed as R564 lays it out, then a
wrong UID or nonce, then a KEY_ID that does not name the required key, then a trailer that does not verify under it.
(R557, R564, R565, R570, R571, R572) -/
def Obligations.SignedRequestsRefused : Prop :=
  -- every signed command, a check that fails
  (∀ (s : State) (m : Nat) (ok : Bool),
    (s.mboxServes m 0x10 = true → s.sagCheck m 0x10 ≠ 0 → exec (.lcTransition m ok) s = .next (s.sagRefuse m (s.sagCheck m 0x10))) ∧
    (s.mboxServes m 0x11 = true → s.sagCheck m 0x11 ≠ 0 → exec (.installKey m ok) s = .next (s.sagRefuse m (s.sagCheck m 0x11))) ∧
    (s.mboxServes m 0x12 = true → s.sagCheck m 0x12 ≠ 0 → exec (.removeKey m ok) s = .next (s.sagRefuse m (s.sagCheck m 0x12))) ∧
    (s.mboxServes m 0x13 = true → s.sagCheck m 0x13 ≠ 0 → exec (.pair m ok) s = .next (s.sagRefuse m (s.sagCheck m 0x13))) ∧
    (s.mboxServes m 0x14 = true → s.sagCheck m 0x14 ≠ 0 → exec (.unpair m ok) s = .next (s.sagRefuse m (s.sagCheck m 0x14))) ∧
    (s.mboxServes m 0x15 = true → s.sagCheck m 0x15 ≠ 0 → exec (.debugUnlock m (leField (s.sagBody m) 0 1)) s = .next (s.sagRefuse m (s.sagCheck m 0x15)))) ∧
  -- what a refusal leaves
  (∀ (s : State) (m : Nat) (st : Status),
    m < 2 →
    let t := s.sagRefuse m st
    (t.mbox m).done = true ∧ (t.mbox m).status = st ∧ t.trust.quoin = s.trust.quoin ∧
      (t.mbox m).nonce = Config.nonce s.freeCtr ∧ t = { s with trust := t.trust, freeCtr := s.freeCtr + 1 }) ∧
  -- the order of the first four checks; a trailer that does not verify under the required key always fails one
  (∀ (s : State) (m op : Nat),
    let b := (s.mbox m).buf
    let bl := leField b 0x48 4
    let body := slice b 80 bl
    let kid := leField b (80 + bl + 8) 8
    let formed := leField b 0 4 = 0x53524551 ∧ leField b 4 2 = 1 ∧ leField b 6 1 = op ∧ leField b 7 1 = 0 ∧
      leField b 0x4C 4 = 0 ∧ bl = sagBodyLen op body ∧ (s.mbox m).length = 208 + bl ∧ sagBodyOk op body = true
    let fresh := leField b 8 16 = s.trustKept.uid.toNat ∧ leField b 0x18 48 = (s.mbox m).nonce.toNat
    (¬ formed → s.sagCheck m op = 0x0F0D) ∧ (formed → ¬ fresh → s.sagCheck m op = 0x0F04) ∧
    (formed → fresh → s.sagKey op kid body = none → s.sagCheck m op = 0x0F06) ∧
    (formed → fresh → ∀ q, s.sagKey op kid body = some q → trailerVerifies (slice b 0 (208 + bl)) kid q = false →
      s.sagCheck m op = 0x0F02)) ∧
  -- a key record that no block accepts
  (∀ (s : State) (m : Nat),
    s.mboxServes m 0x11 = true →
    s.sagCheck m 0x11 = 0 →
    exec (.installKey m false) s = .next ((s.sagRefuse m 0x0F0A).log 0x0F0A sagBase))

/-- Quoin bits are set by ones, and the time floor follows valid Gnoz time. A write of SAG_QUOIN_SET0 or SET1 sets each
bit written 1 and changes nothing else. While Gnoz time is valid its milliseconds are stored in the floor; while it is
not, 0x0F09 is recorded once per reset and the floor keeps. (R561, R569) -/
def Obligations.QuoinBitsAndTimeFloor : Prop :=
  -- QUOIN_SET
  (∀ (s : State) (hi : Bool) (v : Word),
    Completes (.quoinSet hi v) s fun t =>
      t = { s with trust := { s.trust with quoin := t.trust.quoin } } ∧
      ∀ i, i < 64 → t.trust.quoin.getLsbD i =
        (s.trust.quoin.getLsbD i || (if hi then decide (32 ≤ i) && v.getLsbD (i - 32) else v.getLsbD i))) ∧
  -- TIME_FLOOR_UPDATE, valid time
  (∀ (s : State),
    s.gnozTimeValid = true →
    exec .timeFloorUpdate s = .next { s with backup := { s.backup with timeFloorMs := s.gnozTimeMs } }) ∧
  -- TIME_FLOOR_UPDATE, time not valid
  (∀ (s : State),
    s.gnozTimeValid = false →
    exec .timeFloorUpdate s = .next (if s.trust.timeInvalidLogged then s
      else { (s.log 0x0F09 sagBase) with trust := { s.trust with timeInvalidLogged := true } }))

/-- Die links retrain, fail and are counted; a PLL that loses lock stops and relocks. A flit that retry recovers changes
nothing; otherwise the link that is up retrains. Register accesses wait for a link that retrains and go on at its end.
The end of a retrain is counted, saturating at 255 with its sticky overflow bit; three failures in a row or more than
16 retrains within 1 s fail the link, which is recorded with 0x1001 and the link's number (INFO0 is the model's
choice, assumption 18). A PLL that loses lock is recorded with 0x1014 and its number; a successful relock retrains the
die links of its die and realigns its crossings at the next tick. A lost reference is noted in the backup domain.
(R16, R40, R41, R43, R45, R617, R618, R619, R640) -/
def Obligations.DieLinksAndClocks : Prop :=
  -- FLIT_ERROR
  (∀ (s : State) (l : DieLink),
    exec (.flitError l true) s = .next s ∧
    ((s.links.get l).state = 0 →
      exec (.flitError l false) s = .next { s with links := s.links.set l { s.links.get l with state := 1 } })) ∧
  -- what a retrain's end makes of a link
  (∀ (x : LinkState) (now : Nat) (ok : Bool),
    let y := x.retrained now ok
    y.count = min (x.count + 1) 255 ∧ (x.count + 1 ≥ 255 → y.ovf = true) ∧ (x.ovf = true → y.ovf = true) ∧
      y.failRun = (if ok then 0 else x.failRun + 1) ∧
      y.recent = x.recent.filter (fun t => decide (now < t + 1000000000)) ++ [now] ∧
      y.state = (if y.failRun ≥ 3 ∨ y.recent.length > 16 then 2 else if ok then 0 else 1)) ∧
  -- LINK_RETRAIN_DONE, the link comes up or retrains again
  (∀ (s : State) (l : DieLink) (ok : Bool),
    (s.links.get l).state = 1 ∨ (s.links.get l).state = 3 →
    ((s.links.get l).retrained s.now ok).state ≠ 2 →
    s.fieldFenced = false →
    s.netFenced = false →
    let y := (s.links.get l).retrained s.now ok
    let u := { s with links := s.links.set l y }
    exec (.linkRetrainDone l ok) s = .next (if y.state = 1 then u else u.replayHeld l)) ∧
  -- LINK_RETRAIN_DONE, the link fails and no die is lost by it
  (∀ (s : State) (l : DieLink) (ok : Bool),
    (s.links.get l).state = 1 ∨ (s.links.get l).state = 3 →
    ((s.links.get l).retrained s.now ok).state = 2 →
    State.fieldFenced { s with links := s.links.set l { state := 2 } } = s.fieldFenced →
    State.netFenced { s with links := s.links.set l { state := 2 } } = s.netFenced →
    exec (.linkRetrainDone l ok) s =
      .next (State.replayHeld (State.log { s with links := s.links.set l ((s.links.get l).retrained s.now ok) } 0x1001 aonBase
        (match l with | .fm => 0 | .fn => 1 | .mn => 2)) l)) ∧
  -- the accesses that waited for a link: none, or one write
  (∀ (s : State) (l : DieLink),
    ((∀ x ∈ s.links.held, offLink x.2.1 ≠ some l) → s.replayHeld l = s) ∧
    (∀ p off v, offLink off = some l → s.links.held = [(p, off, some v, 4)] →
      s.replayHeld l = State.busWrite { s with links := { s.links with held := [] } } p off v)) ∧
  -- PLL_UNLOCK
  (∀ (s : State) (pll : Nat),
    s.power.pllDown.any (fun p => p.1 == pll) = false →
    exec (.pllUnlock pll) s =
      .next (State.log { s with power := { s.power with pllDown := s.power.pllDown ++ [(pll, 0)] } } 0x1014 pwrBase pll)) ∧
  -- PLL_RELOCK, locked again: the links of its die retrain
  (∀ (s : State) (pll die n : Nat),
    s.power.pllDown.find? (fun p => p.1 == pll) = some (pll, n) →
    n < 16 →
    let re := fun (x : LinkState) => if x.state = 0 then { x with state := 1 } else x
    exec (.pllRelock pll true die) s =
      .next { s with
        power := { s.power with pllDown := s.power.pllDown.filter (fun p => p.1 != pll), alignPending := true },
        links := { s.links with fm := if die = 0 ∨ die = 2 then re s.links.fm else s.links.fm,
                                fn := if die = 1 ∨ die = 2 then re s.links.fn else s.links.fn,
                                mn := if die = 0 ∨ die = 1 then re s.links.mn else s.links.mn } }) ∧
  -- PLL_RELOCK that fails is counted
  (∀ (s : State) (pll die n : Nat),
    s.power.pllDown.find? (fun p => p.1 == pll) = some (pll, n) →
    exec (.pllRelock pll false die) s = .next (if n ≥ 16 then s else { s with power := { s.power with
        pllDown := s.power.pllDown.map (fun p => if p.1 == pll then (p.1, p.2 + 1) else p) } })) ∧
  -- REFCLK_LOSS
  (∀ (s : State),
    Completes .refclkLoss s fun t => t.backup.refLost = true ∧ t.boot.refclkOk = false ∧
      t = { s with backup := { s.backup with refLost := true, refPending := true }, boot := { s.boot with refclkOk := false } }) ∧
  -- ALIGNMENT_TICK
  (∀ (s : State),
    exec .alignmentTick s = .next { s with power := { s.power with
      alignPending := false, alignTicks := s.power.alignTicks + 1 } })

/-- Idle, Off, wakes, and the Doze of a region. A request for Idle in Run is refused with 0x1015 and the first cause that
holds, which LAST_REFUSAL shows, and otherwise entry begins; entry ends with every region in Doze. A wake during entry
ends it and is shown as DETAIL 6. Off needs its key and is refused by the causes but the group's; when its flush is
done an anchor with FLUSHED is written and MAIN_PWR_EN falls. An active region without a run dozes, and a waking one
becomes available; its stores are zero either way. (R622, R623, R624, R625, R626, R621, R142, R655) -/
def Obligations.PowerStatesChange : Prop :=
  -- IDLE_REQUEST, refused
  (∀ (s : State) (d : Nat),
    s.power.state = .run →
    s.idleBlocker true = some d →
    exec .idleRequest s = .next (State.emit { s with power := { s.power with lastRefusal := d } } (.reply .register 0x1015 d [] []))) ∧
  -- IDLE_REQUEST, granted
  (∀ (s : State),
    s.power.state = .run →
    s.idleBlocker true = none →
    exec .idleRequest s = .next { s with power := { s.power with state := .enteringIdle } }) ∧
  -- the causes, in their order
  (∀ (s : State),
    (s.mgr.runs.any (fun r => r.state != .free) = true → s.idleBlocker true = some 1) ∧
    (s.mgr.runs.any (fun r => r.state != .free) = false → s.streamEng.ctxs ≠ [] → s.idleBlocker true = some 2) ∧
    (s.mgr.runs = [] → s.streamEng.ctxs = [] → s.text.gens = [] → s.media.sanitize = none →
      s.regFld grpBase 0 1 = 1 → s.idleBlocker true = some 4 ∧ s.idleBlocker false ≠ some 4)) ∧
  -- IDLE_ENTERED
  (∀ (s : State),
    s.power.state = .enteringIdle →
    let u := (List.range 48).foldl (fun s r => s.zeroRegion r) s
    exec .idleEntered s = .next { u with power := { u.power with state := .idle, doze := BitVec.allOnes 48, pllLock := 0 } }) ∧
  -- OFF_REQUEST, wrong key, refused and granted
  (∀ (s : State) (key : Nat),
    (key ≠ 0x4F46 → exec (.offRequest key) s = .next (s.log 0x0101 pwrBase (pwrBase + 4))) ∧
    (∀ d, s.power.offPending = false → s.idleBlocker false = some d →
      exec (.offRequest 0x4F46) s = .next (State.emit { s with power := { s.power with lastRefusal := d } } (.reply .register 0x1015 d [] []))) ∧
    (s.power.offPending = false → s.idleBlocker false = none →
      exec (.offRequest 0x4F46) s = .next { s with power := { s.power with offPending := true } })) ∧
  -- OFF_FLUSH_DONE
  (∀ (s : State),
    s.power.offPending = true →
    s.power.mainOff = false →
    let u := s.flushAllMedia.writeAnchor true
    exec .offFlushDone s = .next (State.emit { u with power := { u.power with mainOff := true }, pins := { u.pins with mainPwrEn := false } }
      (.pin .mainPwrEn false))) ∧
  -- WAKE_EVENT in Idle and during entry
  (∀ (s : State) (c : WakeCause),
    c ≠ .watchdogProbe ∨ s.regFld regAonWdtCfg 0 2 ≠ 0 →
    (s.power.state = .idle → exec (.wakeEvent c) s = .next { s with power := { s.power with state := .waking } }) ∧
    (s.power.state = .enteringIdle →
      exec (.wakeEvent c) s = .next { s with power := { s.power with state := .waking, lastRefusal := 6 } })) ∧
  -- WAKE_COMPLETE
  (∀ (s : State),
    s.power.state = .waking →
    exec .wakeComplete s = .next { s with power := { s.power with state := .run, alignPending := true } }) ∧
  -- REGION_DOZE
  (∀ (s : State) (r : Nat),
    s.regionActive r = true →
    s.regionOwner r = none →
    s.power.doze.getLsbD r = false →
    let u := (s.advance (s.dozeAt r)).zeroRegion r
    exec (.regionDoze r) s = .next { u with power := { u.power with
      doze := setBit u.power.doze r true, pllLock := setBit u.power.pllLock r false } }) ∧
  -- REGION_WAKE_DONE
  (∀ (s : State) (r : Nat),
    s.power.waking.getLsbD r = true →
    let u := s.zeroRegion r
    exec (.regionWakeDone r) s = .next { u with power := { u.power with
      doze := setBit u.power.doze r false, pllLock := setBit u.power.pllLock r true, waking := setBit u.power.waking r false } })

/-- The watchdog warns once, then requests a reset, and a kick clears the warning. At an expiry without WARNED the
watchdog sets WARNED, records 0x1010 in the error log and starts a new period of PERIOD_MS; at an expiry with WARNED
it requests a reset with reason WATCHDOG over RESET_REQ_N; a write of the key clears WARNED in every mode. (R629) -/
def Obligations.WatchdogExpires : Prop :=
  -- WDT_EXPIRY, the first
  (∀ (s : State) (d : Nat),
    s.power.wdtDeadline = some d →
    s.power.wdtWarned = false →
    exec .wdtExpiry s = .next (State.log { s with now := max s.now d, power := { s.power with
        wdtWarned := true, wdtDeadline := some (max s.now d + s.regFld regAonWdtCfg 16 16 * 1000000) } } 0x1010 aonBase)) ∧
  -- WDT_EXPIRY with WARNED set
  (∀ (s : State) (d : Nat),
    s.power.wdtDeadline = some d →
    s.power.wdtWarned = true →
    Completes .wdtExpiry s fun t => t.backup = { s.backup with request := 1 } ∧
      t.out = s.out ++ [.pin .resetReqN false, .pin .resetReqN true] ∧ t.errlog = s.errlog ∧ t.regs = s.regs) ∧
  -- WDT_KICK clears WARNED
  (∀ (s : State),
    Completes (.wdtKick 0x4B49434B) s fun t => t.power.wdtWarned = false)

/-- The watchdog's configuration, kicks and probes. A write of the configuration outside its range changes nothing and
records 0x0101 (that a MODE of 3 is out of range too is the model's reading, assumption 20); otherwise a nonzero MODE
starts the count of PERIOD_MS from the write and MODE 0 disarms. In mode 1 a kick restarts the count, and another
value does nothing. In mode 2 a quarter in which every die that is not fenced answered restarts the count. (R10, R628,
R630) -/
def Obligations.WatchdogIsSetAndFed : Prop :=
  -- AON_WDT_CFG_WRITE
  (∀ (s : State) (v : Word),
    s.quoinSet 0 = false →
    exec (.aonWdtCfgWrite v) s = .next (
      if fld v 16 16 < 10 ∨ fld v 0 2 = 3 then s.log 0x0101 aonBase regAonWdtCfg
      else
        let u := s.plainWrite regAonWdtCfg v
        { u with power := { u.power with
            wdtDeadline := if fld v 0 2 = 0 then none else some (u.now + fld v 16 16 * 1000000),
            wdtProbeAt := u.now + fld v 16 16 * 250000 } })) ∧
  -- WDT_KICK in mode 1, and of another value
  (∀ (s : State),
    (s.regFld regAonWdtCfg 0 2 = 1 → exec (.wdtKick 0x4B49434B) s = .next { s with power := { s.power with
        wdtWarned := false, wdtDeadline := some (s.now + s.regFld regAonWdtCfg 16 16 * 1000000) } }) ∧
    (∀ k : Word, k ≠ 0x4B49434B → exec (.wdtKick k) s = .next s)) ∧
  -- WDT_PROBE in mode 2
  (∀ (s : State) (field media net : Bool),
    s.regFld regAonWdtCfg 0 2 = 2 →
    let now := max s.now s.power.wdtProbeAt
    let period := s.regFld regAonWdtCfg 16 16 * 1000000
    exec (.wdtProbe field media net) s = .next { s with
      now := now, power := { s.power with
        wdtProbeAt := now + period / 4,
        wdtDeadline := if (field || s.fieldFenced) && media && (net || s.netFenced) then some (now + period)
          else s.power.wdtDeadline } })

/-- The limiter, the throttle and the thermal trip act on the tile clock and the pins. A sample of at least BURST, or a
thousand samples of 10 microseconds in a row above SUSTAINED, cuts the limiter's clock to 800 MHz; each cut is counted
and recorded at most once per second; the clock in force is the lowest of the limiter's, the throttle's and the cap,
and a change counts and realigns crossings. A reading of 100 degrees puts the throttle at 800 MHz at once. A trip
drives THERMTRIP_N low, ends every run and clamps the field and net dies, latches the diode and starts last gasp;
MAIN_PWR_EN falls when that is done. Limits out of range change nothing and record 0x0101. (R16, R631, R632, R633,
R634, R635, R636, R640, R646, R647) -/
def Obligations.PowerAndThermalLimits : Prop :=
  -- POWER_SAMPLE of at least BURST
  (∀ (s : State) (total tiles : Nat),
    total ≥ s.regFld regPwrLimit 16 12 →
    let above := if total > s.regFld regPwrLimit 0 12 then s.power.overSamples + 1 else 0
    exec (.powerSample total tiles) s = .next (State.applyTileClock (State.limiterCut { s with power := { s.power with
      totalW := total, tilesW := tiles, overSamples := above, limTicks := s.power.limTicks + 1 } }))) ∧
  -- POWER_SAMPLE, 10 ms above SUSTAINED
  (∀ (s : State) (total tiles : Nat),
    total < s.regFld regPwrLimit 16 12 →
    total > s.regFld regPwrLimit 0 12 →
    s.power.overSamples ≥ 999 →
    exec (.powerSample total tiles) s = .next (State.applyTileClock (State.limiterCut { s with power := { s.power with
      totalW := total, tilesW := tiles, overSamples := s.power.overSamples + 1, limTicks := s.power.limTicks + 1 } }))) ∧
  -- POWER_SAMPLE that permits a rise after a cut
  (∀ (s : State) (total tiles : Nat),
    total < s.regFld regPwrLimit 16 12 →
    total ≤ s.regFld regPwrLimit 0 12 →
    s.power.limMhz < 1600 →
    s.power.limTicks ≥ 99 →
    total * s.power.tileMhz + tiles * 50 ≤ s.regFld regPwrLimit 0 12 * s.power.tileMhz →
    exec (.powerSample total tiles) s = .next (State.applyTileClock { s with power := { s.power with
      totalW := total, tilesW := tiles, overSamples := 0, limTicks := 0, limMhz := min (s.power.limMhz + 50) 1600 } })) ∧
  -- a cut of the limiter
  (∀ (s : State),
    s.power.limMhz ≠ 800 →
    s.power.limitLoggedAt = none →
    s.limiterCut =
      (let u := (s.bump regPwrLimitEvents regPwrOvf 0).log 0x1013 pwrBase s.power.totalW
       { u with power := { s.power with limitLoggedAt := some s.now, limMhz := 800, limTicks := 0 } })) ∧
  -- the clock in force
  (∀ (s : State),
    let f := min (min s.power.limMhz s.power.thermMhz) (s.regFld regClkTile 16 11)
    s.applyTileClock = (if f = s.power.tileMhz then s else
      { (s.bump regPwrDvfsEvents regPwrOvf 2) with power := { s.power with tileMhz := f, alignPending := true } })) ∧
  -- THERMAL_SAMPLE of 100 degrees or more, while throttled
  (∀ (s : State) (temps : List Nat),
    (hottestOf 0 temps (0, 0)).1 ≥ 100 →
    s.power.throttle = true →
    exec (.thermalSample temps) s = .next (State.applyTileClock { s with power := { s.power with
      hottest := (hottestOf 0 temps (0, 0)).1, sensor := (hottestOf 0 temps (0, 0)).2, thermTicks := 0, thermMhz := 800,
      hbmDouble := (List.range 6).foldl (fun (v : BitVec 6) i => setBit v i (decide (temps.getD (56 + i) 0 ≥ 95))) 0 } })) ∧
  -- THERMAL_SAMPLE that enters the throttle below 100 degrees
  (∀ (s : State) (temps : List Nat),
    (hottestOf 0 temps (0, 0)).1 ≥ 95 →
    (hottestOf 0 temps (0, 0)).1 < 100 →
    s.power.throttle = false →
    s.power.thermLoggedAt = none →
    s.power.state = .run →
    let h := hottestOf 0 temps (0, 0)
    let u := (s.bump regPwrThermEvents regPwrOvf 1).log 0x1011 pwrBase h.1 h.2
    exec (.thermalSample temps) s = .next (State.applyTileClock { u with power := { s.power with
      hottest := h.1, sensor := h.2, throttle := true, thermLoggedAt := some s.now, thermTicks := 0,
      thermMhz := max (s.power.thermMhz - 50) 800,
      hbmDouble := (List.range 6).foldl (fun (v : BitVec 6) i => setBit v i (decide (temps.getD (56 + i) 0 ≥ 95))) 0 } })) ∧
  -- THERMAL_TRIP
  (∀ (s : State) (diode : Nat),
    s.power.tripAt = none →
    let u := s.fieldDieLost
    exec (.thermalTrip diode) s = .next (State.lastGaspStart (State.emit { u with
      backup := { u.backup with tripped := true, tripDiode := diode % 16, tripPending := true },
      power := { u.power with tripAt := some u.now }, pins := { u.pins with thermtripN := false },
      field := {}, sync := {}, egress := {}, gnoz := { u.gnoz with started := false } } (.pin .thermtripN false)))) ∧
  -- THERMAL_TRIP, no run active and the sequencer not run yet
  (∀ (s : State) (diode : Nat),
    s.power.tripAt = none →
    s.power.state = .run →
    s.mgr.runs = [] →
    s.media.lgActive = false →
    s.media.lgDone = false →
    diode < 12 →
    exec (.thermalTrip diode) s = .next (State.emit { s with
      backup := { s.backup with tripped := true, tripDiode := diode, tripPending := true },
      power := { s.power with tripAt := some s.now }, pins := { s.pins with thermtripN := false },
      field := {}, sync := {}, egress := {}, gnoz := { s.gnoz with started := false },
      media := { s.media with lgActive := true } } (.pin .thermtripN false))) ∧
  -- TRIP_POWER_OFF
  (∀ (s : State) (t0 : Nat),
    s.power.tripAt = some t0 →
    s.power.mainOff = false →
    exec .tripPowerOff s = .next (State.emit { s with
      now := if s.media.lgDone then s.now else max s.now (t0 + 30000000),
      power := { s.power with mainOff := true }, pins := { s.pins with mainPwrEn := false } } (.pin .mainPwrEn false))) ∧
  -- PWR_CONFIG_WRITE, Doze delay and power limits
  (∀ (s : State) (v : Word),
    (10 ≤ fld v 0 20 → fld v 0 20 ≤ 1000000 → exec (.pwrConfigWrite regPwrDozeDelay v) s = .next (s.plainWrite regPwrDozeDelay v)) ∧
    (fld v 0 20 < 10 ∨ 1000000 < fld v 0 20 → exec (.pwrConfigWrite regPwrDozeDelay v) s = .next (s.log 0x0101 pwrBase regPwrDozeDelay)) ∧
    (s.quoinSet 3 = false → 1000 ≤ fld v 0 12 → fld v 0 12 ≤ 2800 → fld v 0 12 ≤ fld v 16 12 → fld v 16 12 ≤ 3100 →
      exec (.pwrConfigWrite regPwrLimit v) s = .next (s.plainWrite regPwrLimit v)) ∧
    (s.quoinSet 3 = false → (fld v 0 12 < 1000 ∨ 2800 < fld v 0 12 ∨ fld v 16 12 < fld v 0 12 ∨ 3100 < fld v 16 12) →
      exec (.pwrConfigWrite regPwrLimit v) s = .next (s.log 0x0101 pwrBase regPwrLimit))) ∧
  -- PWR_CONFIG_WRITE, clock cap
  (∀ (s : State) (v : Word),
    s.quoinSet 3 = false →
    (800 ≤ fld v 16 11 ∧ fld v 16 11 ≤ 1600 ∧ fld v 16 11 % 50 = 0 →
      exec (.pwrConfigWrite regClkTile v) s = .next (s.plainWrite regClkTile v).applyTileClock) ∧
    (¬ (800 ≤ fld v 16 11 ∧ fld v 16 11 ≤ 1600 ∧ fld v 16 11 % 50 = 0) →
      exec (.pwrConfigWrite regClkTile v) s = .next (s.log 0x0101 pwrBase regClkTile)))

/-- Power-on, RESET_N, power loss: what a package reset keeps and counts. A RESET_N of 10 microseconds or more with the
reference running is accepted: the reset counter rises by one (saturating), the cause is the pin, and every volatile
register, queue, stream, run, quoin bit and log entry is at its reset value while fuses, boot flash, OTP and key
record stay. Below 1 microsecond, without the reference, or while reset is held, nothing happens. Power-on counts and
has its own cause. Loss of power without VBAT loses the backup domain. What the model keeps for itself (its clock,
outputs, queue and free-value counter) is its own (assumption 24). (R580, R581, R583, R584, R607, R655, R657) -/
def Obligations.PackageResetIsAccepted : Prop :=
  -- RESET_N_ASSERT, accepted
  (∀ (s : State) (ns pages : Nat) (flushed : Bool),
    ns ≥ 10000 →
    s.boot.resetHeld = false →
    s.boot.porHeld = false →
    Completes (.resetNAssert ns true ⟨flushed, pages⟩) s fun t =>
      t.backup.resetCount = min (s.backup.resetCount + 1) (2 ^ 32 - 1) ∧ t.backup.causePin = true ∧
      t.backup.causePowerOn = false ∧ t.boot.resetHeld = true ∧ t.regs = [] ∧ t.trust = {} ∧ t.errlog = {} ∧
      t.power = {} ∧ t.mgr = {} ∧ t.streamEng = {} ∧ t.yqi = {} ∧ t.gnoz = {} ∧ t.media = {} ∧ t.bulkMem = [] ∧ t.field = {} ∧
      t.fuses = s.fuses ∧ t.flash = s.flash ∧ t.trustKept = s.trustKept ∧ t.groupRecord = s.groupRecord ∧
      t.pins.mainPwrEn = true) ∧
  -- RESET_N_ASSERT, not accepted
  (∀ (s : State) (ns pages : Nat) (refclk flushed : Bool),
    ns < 1000 ∨ refclk = false ∨ s.boot.resetHeld = true ∨ s.boot.porHeld = true →
    exec (.resetNAssert ns refclk ⟨flushed, pages⟩) s = .next s) ∧
  -- POWER_ON
  (∀ (s : State) (smbAddr : Nat),
    Completes (.powerOn smbAddr) s fun t =>
      t.backup.resetCount = min (s.backup.resetCount + 1) (2 ^ 32 - 1) ∧ t.backup.causePowerOn = true ∧
      t.backup.causePin = false ∧ t.boot.resetHeld = true ∧ t.boot.porHeld = false ∧ t.pins.smbAddr = smbAddr % 4 ∧
      t.regs = [] ∧ t.trust = {} ∧ t.fuses = s.fuses ∧ t.trustKept = s.trustKept ∧ t.flash = s.flash) ∧
  -- POWER_LOSS
  (∀ (s : State) (vbat gaspDone : Bool) (pages : Nat),
    s.media.lgActive = false →
    Completes (.powerLoss vbat ⟨gaspDone, pages⟩) s fun t =>
      t.boot.porHeld = true ∧ t.pins.mainPwrEn = false ∧ t.regs = [] ∧ t.trust = {} ∧ t.trustKept = s.trustKept ∧
      (vbat = true → t.backup = s.backup) ∧
      (vbat = false → t.backup.lost = true ∧ t.backup.resetCount = 0 ∧ t.backup.request = 0 ∧ t.backup.timeFloorMs = 0 ∧
        t.backup.attemptsA = 0 ∧ t.backup.tripped = false ∧ t.backup.refLost = false ∧ t.evt.backup = none))

/-- The release of RESET_N runs the reset sequence to READY, to trim fault, or to the step in which the next reset comes.
With reset held and released, a trim that loads within three tries, and no reset in between, the sequence ends at
READY; three failed loads end in trim fault with TRIM_FAULT_N low and status 0x1003; a reset that cuts the sequence
off leaves it in the phase of its step. Numbering resumes at the larger stored ceiling, which rises by 2^36. Without a
held reset, or before power is good, a release does nothing. (R584, R587, R590, R608, R619, R636, R684) -/
def Obligations.ResetSequenceReachesReady : Prop :=
  -- RESET_RELEASE to READY
  (∀ (s : State) (b : BootInputs),
    s.boot.resetHeld = true →
    s.boot.porHeld = false →
    b.trim = 1 ∨ b.trim = 2 ∨ b.trim = 3 →
    b.reach = .ready →
    Completes (.resetRelease b) s fun t => t.ready = true) ∧
  -- RESET_RELEASE, trim fault
  (∀ (s : State) (b : BootInputs),
    s.boot.resetHeld = true →
    s.boot.porHeld = false →
    b.trim = 0 →
    exec (.resetRelease b) s = .next (State.emit { s with
      boot := { s.boot with resetHeld := false, phase := .trimFault, trimTries := 3, status := 0x1003 },
      pins := { s.pins with trimFaultN := false } } (.pin .trimFaultN false))) ∧
  -- RESET_RELEASE cut off in step 4
  (∀ (s : State) (b : BootInputs),
    s.boot.resetHeld = true →
    s.boot.porHeld = false →
    b.trim = 1 →
    b.reach = .trim →
    exec (.resetRelease b) s = .next
      (State.loadFuses { s with boot := { s.boot with resetHeld := false, phase := .trim, trimTries := 1 } } b)) ∧
  -- RESET_RELEASE with nothing held
  (∀ (s : State) (b : BootInputs),
    s.boot.resetHeld = false ∨ s.boot.porHeld = true →
    exec (.resetRelease b) s = .next s) ∧
  -- what trim load takes from the fuses (R5, R590)
  (∀ (s : State) (b : BootInputs),
    b.fuses.wf = true →
    let f := s.fuseArray.getD b.fuses
    (s.loadFuses b).fuses = f ∧ (s.loadFuses b).fuseArray = some f ∧
      (f.macs = [] → s.loadFuses b = { s with fuses := f, fuseArray := some f })) ∧
  -- the numbering of step 9
  (∀ (s : State) (b : BootInputs),
    s.errlog.held = [] →
    let anc := match (s.nand.readAnchors b).current with
      | some a => some a.ceiling
      | none => s.nand.handover.map (fun (h : Handover) => h.ceiling)
    let t := s.resumeNumbers b
    t.evt.next = max 1 (max (s.evt.backup.getD 0) (anc.getD 0)) ∧
      t.evt.backup = some (max (s.evt.backup.getD 0) (anc.getD 0) + 2 ^ 36) ∧ t.evt.pendingAnchor = t.evt.backup.getD 0 ∧
      t.errlog.held = [] ∧ t.errlog.entries = s.errlog.entries) ∧
  -- what steps 5 and 6 leave of the die links
  (∀ (s : State) (b : BootInputs),
    let t := s.bootLinks b
    t.links.fm.state = (if b.fm then 0 else 2) ∧ t.links.fn.state = (if b.fn then 0 else 2) ∧
      t.links.mn.state = (if b.mn then 0 else 2) ∧ t.power.alignPending = true ∧
      t = { s with links := t.links, power := { s.power with alignPending := true }, errlog := t.errlog, evt := t.evt, regs := t.regs, nand := t.nand })

/-- A soft reset starts, ends when its unit is quiet, or is forced at its timeout. Each bit written 1 of a block that is
not being reset starts its reset, and the bits of busy blocks do nothing; the reset ends when the block or unit is
idle, or at its timeout, then with FORCED and a record 0x1009 with the block in INFO0 and the unit in INFO1. A unit
request with a class or index out of range, or while one is under way, is discarded and recorded with 0x0101. A unit
whose block is being reset waits for the block. (R603, R604, R606, R613) -/
def Obligations.SoftResetsOfBlocksAndUnits : Prop :=
  -- BLOCK_SOFT_RESET
  (∀ (s : State) (bits : Word),
    exec (.blockSoftReset bits) s = .next { s with rst := { s.rst with blocks := s.rst.blocks ++
      ((List.range 9).filter (fun b => bits.getLsbD b && !s.rst.blocks.any (fun p => p.1 == b))).map (fun b => (b, s.now)) } }) ∧
  -- UNIT_SOFT_RESET, started
  (∀ (s : State) (cls index block n : Nat),
    s.rst.unit = none →
    unitClass cls = some (block, n) →
    index < n →
    exec (.unitSoftReset cls index) s = .next
      { (s.setReg regRstUnit (packFields [(0, cls), (8, index)])) with rst := { s.rst with
          unit := some { cls := cls, index := index, startedAt := s.now }, unitForced := false } }) ∧
  -- UNIT_SOFT_RESET, discarded
  (∀ (s : State) (cls index : Nat),
    s.rst.unit ≠ none ∨ cls = 0 ∨ cls > 10 →
    exec (.unitSoftReset cls index) s = .next (s.log 0x0101 rstBase regRstUnit)) ∧
  -- SOFT_RESET_QUIESCED, a block
  (∀ (s : State) (b : Nat),
    s.rst.blocks.any (fun p => p.1 == b) = true →
    s.blockIdle b = true →
    let u := s.blockCleared b false
    Completes (.softResetQuiesced (.block b)) s fun t =>
      t.rst.blocks = u.rst.blocks.filter (fun p => p.1 != b) ∧ t.rst.forced = setBit u.rst.forced b false ∧
      t = { u with rst := t.rst }) ∧
  -- SOFT_RESET_QUIESCED, a unit
  (∀ (s : State) (u : UnitReset) (block n : Nat),
    s.rst.unit = some u →
    unitClass u.cls = some (block, n) →
    s.rst.blocks.any (fun p => p.1 == block) = false →
    s.unitIdle u.cls u.index = true →
    let x := s.unitCleared u.cls u.index false
    exec (.softResetQuiesced .unit) s = .next { x with rst := { x.rst with unit := none, unitForced := false } }) ∧
  -- SOFT_RESET_QUIESCED, a tile unit
  (∀ (s : State) (tile bit : Nat),
    s.tileUnitHeld tile bit = true →
    s.tileUnitIdle tile bit = true →
    exec (.softResetQuiesced (.tileUnit tile bit)) s = .next (s.tileUnitEnd tile bit)) ∧
  -- SOFT_RESET_QUIESCED before the unit is idle
  (∀ (s : State),
    (∀ b, s.blockIdle b = false → exec (.softResetQuiesced (.block b)) s = .next s) ∧
      (∀ t b, s.tileUnitIdle t b = false → exec (.softResetQuiesced (.tileUnit t b)) s = .next s) ∧
      (∀ u, s.rst.unit = some u → s.unitIdle u.cls u.index = false → exec (.softResetQuiesced .unit) s = .next s)) ∧
  -- QUIESCE_TIMEOUT, a block
  (∀ (s : State) (b t0 : Nat),
    s.rst.blocks.find? (fun p => p.1 == b) = some (b, t0) →
    exec (.quiesceTimeout (.block b)) s = .next
      (((s.advance (t0 + s.regFld (regRstTimeout b) 0 17 * 1000)).blockResetEnd b true).log 0x1009 rstBase b)) ∧
  -- QUIESCE_TIMEOUT, a unit
  (∀ (s : State) (u : UnitReset) (block n : Nat),
    s.rst.unit = some u →
    unitClass u.cls = some (block, n) →
    s.rst.blocks.any (fun p => p.1 == block) = false →
    exec (.quiesceTimeout .unit) s = .next
      (((s.advance (u.startedAt + s.regFld (regRstTimeout block) 0 17 * 1000)).unitResetEnd u true).log 0x1009 rstBase block
        (u.cls * 256 + u.index))) ∧
  -- QUIESCE_TIMEOUT, a tile unit
  (∀ (s : State) (tile bit t0 : Nat),
    s.rst.tiles.find? (fun x => x.1 == tile && x.2.1 == bit) = some (tile, bit, t0) →
    exec (.quiesceTimeout (.tileUnit tile bit)) s = .next
      (((s.advance (t0 + s.regFld (regRstTimeout 9) 0 17 * 1000)).tileUnitEnd tile bit).log 0x1009 rstBase 9 (tile * 8 + bit)))

/-- A region reset, its refusals, and the reset and boot registers. The key written to RST_REQUEST requests a reset with
reason SOFTWARE and another value does nothing. A region reset of an active region without a run starts; one that
holds a run, or while another is under way, is refused with 0x0101 and an inactive one with 0x0103, shown in STATUS
and recorded. Its end zeroes the region and clears its isolation, or, when the region faults again, leaves it isolated
with STATUS 0x090C. Attempt counts are cleared by ones. A timeout outside 10 to 100,000 changes nothing and records
0x0101. (R37, R582, R599, R607, R613, R614, R615) -/
def Obligations.RegionResetAndResetRegisters : Prop :=
  -- RST_REQUEST_WRITE
  (∀ (s : State) (key : Word),
    exec (.rstRequestWrite 0x52455345) s = .next (State.emit (State.emit
        { s with backup := { s.backup with request := 3 } } (.pin .resetReqN false)) (.pin .resetReqN true)) ∧
    (key ≠ 0x52455345 → exec (.rstRequestWrite key) s = .next s)) ∧
  -- REGION_RESET, started
  (∀ (s : State) (r : Nat),
    s.rst.region = none →
    s.regionActive r = true →
    s.regionOwner r = none →
    exec (.regionReset r) s = .next
      { (s.setReg regRstRegion (packFields [(0, r)])) with rst := { s.rst with region := some r, regionFault := none } }) ∧
  -- REGION_RESET, refused
  (∀ (s : State) (r : Nat),
    let no := fun (st : Status) => Host.Outcome.next (φ := Fault) (ρ := Refusal)
        (State.log { s with rst := { s.rst with regionStatus := st } } st rstBase r)
    (s.rst.region ≠ none ∨ r ≥ 48 → exec (.regionReset r) s = no 0x0101) ∧
    (s.rst.region = none → r < 48 → s.regionActive r = false → exec (.regionReset r) s = no 0x0103) ∧
    (s.rst.region = none → s.regionActive r = true → s.regionOwner r ≠ none → exec (.regionReset r) s = no 0x0101)) ∧
  -- REGION_RESET_DONE, completed
  (∀ (s : State) (r : Nat),
    s.rst.region = some r →
    s.rst.regionFault = none →
    let u := (s.zeroRegion r).deisolateRegion r
    Completes (.regionResetDone none) s fun t =>
      t.rst = { u.rst with region := none, regionStatus := 0 } ∧ t.power.doze = setBit u.power.doze r false ∧
      t.power.pllLock = setBit u.power.pllLock r true ∧ t.mgr.isolated = s.mgr.isolated.filter (· != r) ∧
      t = { u with rst := t.rst, power := t.power }) ∧
  -- REGION_RESET_DONE, faulted again
  (∀ (s : State) (r d : Nat),
    s.rst.region = some r →
    let u := s.isolateRegion r d
    exec (.regionResetDone (some d)) s = .next
      (State.log { u with rst := { u.rst with region := none, regionFault := none, regionStatus := 0x090C } } 0x090C rstBase r 0 0 d)) ∧
  -- BOOT_COPY_CLEAR
  (∀ (s : State) (a b : Bool),
    exec (.bootCopyClear a b) s = .next { s with backup := { s.backup with
      attemptsA := if a then 0 else s.backup.attemptsA, attemptsB := if b then 0 else s.backup.attemptsB } }) ∧
  -- RST_TIMEOUT_WRITE
  (∀ (s : State) (b : Nat) (v : Word),
    b < 10 →
    s.quoinSet 2 = false →
    exec (.rstTimeoutWrite b v) s = .next (if 10 ≤ fld v 0 17 ∧ fld v 0 17 ≤ 100000
      then s.plainWrite (regRstTimeout b) v else s.log 0x0101 rstBase (regRstTimeout b)))

/-- Reads of a namespace, page reads through the correction tiers, and the patrol. A read whose pages all lie in the
protected buffer or are unmapped answers at once with the data, unmapped units as zeros; otherwise it waits for
exactly its pages. A completed page read counts its codewords at tiers 1 to 3; at tier 2 or higher its block is queued
for relocation; when every tier fails the unit stays bad until rewritten, is logged with 0x0201 (which INFO words
carry LBA and PMA is the model's layout, assumption 30) and counted, and its read fails. The patrol queues a closed
block with a codeword at tier 2 or higher. (R115, R116, R118, R119, R120, R124, R161, R418) -/
def Obligations.MediaReadsAndCorrection : Prop :=
  -- READ that needs no page
  (∀ (s : State) (p : ReqPath) (nsid lba count : Nat) (ns : NsInfo),
    s.mediaStopped = false →
    s.mediaGate = none →
    s.memberNs nsid = false →
    s.nsInfo nsid = some ns →
    1 ≤ count ∧ count ≤ 4096 →
    lba + count ≤ ns.cap * 4 →
    (∀ u ∈ unitsTouched lba count, ∀ x, s.pmaOf nsid u = some x → x ∈ s.media.buffered) →
    s.nsReadable nsid (lba * 4096) (count * 4096) = true →
    exec (.read p nsid lba count (count * 4096)) s =
      .next ((s.healthBump 0 count).replyData p 0 0 [] ((s.healthBump 0 count).blocksBytes nsid lba count))) ∧
  -- READ that waits for its pages
  (∀ (s : State) (p : ReqPath) (nsid lba count : Nat) (ns : NsInfo),
    s.mediaStopped = false →
    s.mediaGate = none →
    s.memberNs nsid = false →
    s.nsInfo nsid = some ns →
    1 ≤ count ∧ count ≤ 4096 →
    lba + count ≤ ns.cap * 4 →
    ((unitsTouched lba count).filterMap (fun u => s.pmaOf nsid u)).eraseDups.filter (fun x => !s.media.buffered.contains x) ≠ [] →
    exec (.read p nsid lba count (count * 4096)) s = .next { s with media := { s.media with reads := s.media.reads ++
      [{ path := p, nsid := nsid, lba := lba, count := count, waiting :=
        ((unitsTouched lba count).filterMap (fun u => s.pmaOf nsid u)).eraseDups.filter (fun x => !s.media.buffered.contains x) }] } }) ∧
  -- READ, refused
  (∀ (s : State) (p : ReqPath) (nsid lba count len : Nat),
    s.mediaStopped = false →
    (∀ st, s.mediaGate = some st → exec (.read p nsid lba count len) s = .next (s.reply p st)) ∧
    (s.mediaGate = none → s.nsInfo nsid = none → exec (.read p nsid lba count len) s = .next (s.reply p 0x0302))) ∧
  -- which tier completes a codeword (R110, R116, R117, R135)
  (∀ (s : State) (pma i : Nat) (r : NandResult),
    s.media.lost.contains (pmaTarget pma) = false →
    s.keyOk pma = true →
    s.nand.badBlocks.contains (pma * 4 + i) = false →
    let tier := fun t => (r.codewords.getD i []).getD (t - 1) .miss
    let ok := fun t => cwAccepted (s.codewordCrc pma i) (tier t)
    (ok 1 = true → s.codewordTier pma r i = 1) ∧
    (ok 1 = false → ok 2 = true → s.media.noTier2.contains (pmaTarget pma) = false → s.codewordTier pma r i = 2) ∧
    (ok 1 = false → ok 2 = false → ok 3 = true → s.codewordTier pma r i = 3) ∧
    (ok 1 = false → ok 2 = false → ok 3 = false → s.parityCovers pma = true → r.parityOk = true → s.codewordTier pma r i = 4) ∧
    (ok 1 = false → ok 2 = false → ok 3 = false → s.parityCovers pma = false → s.memberPage pma = false → s.codewordTier pma r i = 0)) ∧
  -- what a page read counts and records
  (∀ (s : State) (pma : Nat) (r : NandResult),
    let ts := s.pageTiers pma r
    let first := ((List.range 4).filter (fun i => ts.getD i 0 == 1 && cwCorrected r i)).length
    let u := ((s.healthBump 3 first).healthBump 4 (ts.count 2)).healthBump 5 (ts.count 3)
    (ts = [1, 1, 1, 1] → s.countPage pma r = u) ∧
    ((∀ t ∈ ts, t = 1 ∨ t = 2 ∨ t = 3) → ts ≠ [1, 1, 1, 1] → s.countPage pma r = u.queueRelocate (u.blockOf pma)) ∧
    (ts = [0, 0, 0, 0] → s.countPage pma r = u.uncorrectable pma [0, 1, 2, 3])) ∧
  -- NAND_READ_COMPLETE
  (∀ (s : State) (pma : Nat) (r : NandResult),
    s.media.reads.any (fun x => x.waiting.contains pma) = true →
    exec (.nandReadComplete pma r) s = .next ((s.countPage pma r).pageArrived pma)) ∧
  -- the read that waited for only this page
  (∀ (s : State) (pma : Nat) (x : PendingRead),
    s.media.reads = [x] →
    x.waiting = [pma] →
    let u := { s with media := { s.media with reads := [] } }
    s.pageArrived pma = u.finishRead { x with waiting := [] } ∧
    (∀ p nsid lba count, x = { path := p, nsid := nsid, lba := lba, count := count, waiting := [pma] } → (∀ c, p ≠ .stream c) →
      s.nsReadable nsid (lba * 4096) (count * 4096) = false → s.pageArrived pma = u.reply p 0x0201)) ∧
  -- codewords that failed every tier
  (∀ (s : State) (pma : Nat) (idx : List Nat),
    (∀ i ∈ idx, (s.uncorrectable pma idx).nand.badBlocks.contains (pma * 4 + i) = true) ∧
    (∀ ns u, s.unitAt pma = some (ns, u) → s.uncorrectable pma idx =
      (State.healthBump { s with nand := { s.nand with badBlocks := addNew s.nand.badBlocks (idx.map (fun i => pma * 4 + i)) } } 8 1).log
        0x0201 medBase (u * 4 + idx.headD 0) pma 0 0 ns)) ∧
  -- PATROL_READ of a closed block
  (∀ (s : State) (block : Nat) (rs : List (Nat × NandResult)),
    s.media.image.bands.any (fun x => x.state != .opened && x.blocks.contains block) = true →
    s.mediaStopped = false →
    rs.map (·.1) = s.patrolPages block →
    exec (.patrolRead block rs) s = .next
      (rs.foldl (fun s x => if s.nand.badBlocks.any (fun b => b / 4 == x.1) then s else s.countPage x.1 x.2) s) ∧
    s.patrolPages block = (List.range s.media.geometry.planes).flatMap (fun p =>
      let n := s.media.geometry.pagesPerBlock
      [block + p * n, block + p * n + n / 2, block + p * n + n - 1])) ∧
  -- a block that joins the relocation queue
  (∀ (s : State) (block : Nat),
    (s.queueRelocate block).media.relocate.contains block = true)

/-- Writes, Discards, Flushes, and the pages they wait for. A Write of whole blocks whose places are free is acknowledged
once every unit's merged data and its MAP entry are in the protected region, counts its blocks, and may bring the
spare-space warning and the worn state. A Discard journals the units it wholly covers as UNMAPPED. A Flush waits for
every unit and entry before it and programs the journal tail; it completes when they are durable. A programmed page
leaves the buffer. A sealed namespace, a range beyond the capacity and a worn part refuse a Write in that order.
(R125, R127, R130, R132, R136, R155, R157, R161) -/
def Obligations.MediaWritesAndFlush : Prop :=
  -- WRITE
  (∀ (s : State) (p : ReqPath) (nsid lba : Nat) (data : List Byte) (pl : Placement),
    s.mediaStopped = false →
    s.admissionHeld = false →
    s.memberNs nsid = false →
    s.roomFor (unitsTouched lba (data.length / 4096)).length = true →
    data.length % 4096 = 0 ∧ 4096 ≤ data.length ∧ data.length ≤ 16777216 →
    s.writeRefusal p nsid lba (data.length / 4096) = none →
    (s.openBands false pl.bands).placesOk pl.pmas = true →
    pl.pmas.length = (unitsTouched lba (data.length / 4096)).length →
    (s.openBands false pl.bands).mergeReads nsid lba (data.length / 4096) = [] →
    (∀ u ∈ unitsTouched lba (data.length / 4096), (s.openBands false pl.bands).keptBad nsid lba (data.length / 4096) u = false) →
    let us := unitsTouched lba (data.length / 4096)
    let u := ((((s.openBands false pl.bands).placeAll nsid lba data us pl.pmas).healthBump 1 (data.length / 4096)).waitsFor pl.pmas)
    exec (.write p nsid lba data false pl) s = .next (u.reply p 0) ∧
    exec (.write p nsid lba data true pl) s = .next (State.pushTail { u with media := { u.media with waits := u.media.waits ++
      [{ path := p, kind := .flush, units := pl.pmas, entries := u.media.appended }] } })) ∧
  -- WRITE whose merges wait for page reads (R125)
  (∀ (s : State) (p : ReqPath) (nsid lba : Nat) (data : List Byte) (pl : Placement) (fua : Bool),
    s.mediaStopped = false →
    s.admissionHeld = false →
    s.memberNs nsid = false →
    s.roomFor (unitsTouched lba (data.length / 4096)).length = true →
    data.length % 4096 = 0 ∧ 4096 ≤ data.length ∧ data.length ≤ 16777216 →
    s.writeRefusal p nsid lba (data.length / 4096) = none →
    (s.openBands false pl.bands).placesOk pl.pmas = true →
    pl.pmas.length = (unitsTouched lba (data.length / 4096)).length →
    (s.openBands false pl.bands).mergeReads nsid lba (data.length / 4096) ≠ [] →
    let u := s.openBands false pl.bands
    exec (.write p nsid lba data fua pl) s = .next { u with media := { u.media with reads := u.media.reads ++
      [{ path := p, nsid := nsid, lba := lba, count := data.length / 4096, waiting := u.mergeReads nsid lba (data.length / 4096),
         write := some { data := data, pmas := pl.pmas, fua := fua } }] } }) ∧
  -- WRITE, why it is refused
  (∀ (s : State) (p : ReqPath) (nsid lba count : Nat) (ns : NsInfo),
    s.mediaGate = none →
    s.nsInfo nsid = some ns →
    (lba + count > ns.cap * 4 → s.writeRefusal p nsid lba count = some 0x0301) ∧
    (lba + count ≤ ns.cap * 4 → ns.isSealed = true → s.writeRefusal p nsid lba count = some 0x0303) ∧
    (lba + count ≤ ns.cap * 4 → ns.isSealed = false → s.media.health.worn = true → s.writeRefusal p nsid lba count = some 0x0307)) ∧
  -- DISCARD
  (∀ (s : State) (p : ReqPath) (nsid lba count : Nat),
    (s.mediaStopped || s.admissionHeld || s.memberNs nsid) = false →
    1 ≤ count ∧ count ≤ 16777216 →
    s.writeRefusal p nsid lba count = none →
    let first := (lba + 3) / 4
    let n := (lba + count) / 4 - first
    exec (.discard p nsid lba count) s = .next ((s.journalDiscard nsid first (n / 65535 + 1) n).reply p 0)) ∧
  -- what a discarded run of at most 65,535 units leaves
  (∀ (s : State) (ns u n v : Nat),
    1 ≤ n ∧ n ≤ 65535 →
    u ≤ v ∧ v < u + n →
    u + n ≤ 2 ^ 40 →
    (s.journalDiscard ns u (n / 65535 + 1) n).pmaOf ns v = none) ∧
  -- FLUSH
  (∀ (s : State) (p : ReqPath) (nsid : Nat),
    s.mediaStopped = false →
    s.mediaGate = none →
    nsid = 0xFFFFFFFF ∨ (s.nsInfo nsid).isSome = true →
    exec (.flush p nsid) s = .next (State.pushTail { s with media := { s.media with waits := s.media.waits ++
      [{ path := p, kind := .flush, units := s.media.buffered, entries := s.media.appended }] } })) ∧
  -- FLUSH_COMPLETE, one Flush whose condition holds
  (∀ (s : State) (w : DurWait),
    s.media.waits = [w] →
    w.kind = .flush →
    s.durable w = true →
    exec .flushComplete s = .next (State.reply { s with media := { s.media with waits := [] } } w.path 0)) ∧
  -- FLUSH_COMPLETE, nothing durable
  (∀ (s : State) (w : DurWait),
    s.media.waits = [w] →
    s.durable w = false →
    exec .flushComplete s = .next s) ∧
  -- PAGE_PROGRAM_DONE of one page
  (∀ (s : State) (pma : Nat) (b : Band),
    s.media.buffered.contains pma = true →
    s.media.image.bands = [b] →
    b.state = .opened ∧ b.blocks.contains (s.blockOf pma) = true ∧ b.programmed.contains pma = false →
    s.accumulators < 512 →
    exec (.pageProgramDone [pma]) s = .next ((s.pageProgrammed pma).settle true) ∧
    s.pageProgrammed pma = State.healthBump { s with media := { s.media with
      image := { s.media.image with bands := [b.program s.media.geometry pma] },
      buffered := s.media.buffered.filter (· != pma) } } 2 1)

/-- A unit reads as it was last written, and no other unit changes. On canonical media contents, placing a unit maps it to
its new place, where it reads back as the written 16 KiB; every unit of every namespace that maps to another place
reads as before, and its mapping stays. (R124, R125, R130) -/
def Obligations.WrittenUnitReadsBack : Prop :=
  ∀ (s : State) (ns u pma : Nat) (data : List Byte), Memory.wf s.nand.store = true → data.length = 16384 →
    u < 2 ^ 40 →
    (s.placeUnit ns u pma data).pmaOf ns u = some pma ∧ (s.placeUnit ns u pma data).unitBytes ns u = data ∧
    (∀ ns' u', mapKey ns' u' ≠ mapKey ns u → s.pmaOf ns' u' ≠ some pma →
      (s.placeUnit ns u pma data).pmaOf ns' u' = s.pmaOf ns' u' ∧
      (s.placeUnit ns u pma data).unitBytes ns' u' = s.unitBytes ns' u')

/-- A band's read-back, failed programs and erases, and a lost target. When every weak page of an unverified band is
settled or moved BAND_VERIFIED is journaled, and a parity block whose bands are all verified is freed. A failed
program moves every unit of its block elsewhere, retires the block and records 0x0202; a failed erase retires it with
0x0203; both are counted (the INFO words are the model's layout, assumption 30). A lost target leaves the usable ones,
its open bands are closed short and its blocks are queued for relocation ahead of every other. (R131, R133, R134,
R135, R157, R158, R161) -/
def Obligations.BandsBlocksAndTargets : Prop :=
  -- BAND_VERIFY_DONE
  (∀ (s : State) (id : Nat) (b : Band) (weak : List WeakPage),
    s.media.image.bands.find? (fun x => x.id == id) = some b →
    b.state = .unverified →
    s.mediaStopped = false →
    s.verifyOk b weak = true →
    let x := weak.foldl (fun s w => s.settlePage w) s
    let u := State.journal { x with media := { x.media with
      buffered := x.media.buffered.filter (fun p => !b.blocks.contains (x.blockOf p)) } } (.bandVerified id)
    let free := fun (v : State) => { v with nand := { v.nand with
      freeBlocks := v.nand.freeBlocks ++ [b.parity],
      eraseCounts := natSet v.nand.eraseCounts b.parity ((v.nand.eraseCounts.find? (fun e => e.1 == b.parity)).elim 0 (·.2) + 1) } }
    exec (.bandVerifyDone id weak) s = .next (State.settle (State.checkWornExit (State.spareChanged
      (if u.media.image.bands.all (fun x => x.parity != b.parity || x.state == .verified) then free u else u))) true)) ∧
  -- a weak page of a band's read-back
  (∀ (s : State) (w : WeakPage) (ns u : Nat),
    s.unitAt w.pma = some (ns, u) →
    let ts := s.pageTiers w.pma w.result
    (s.media.buffered.contains w.pma = true → s.settlePage w = s.moveUnit ns u w.dest) ∧
    (s.media.buffered.contains w.pma = false → ts.any (fun t => decide (t ≥ 3)) = true → ts.contains 0 = false → ts.contains 3 = false →
      s.settlePage w = (s.countPage w.pma w.result).moveUnit ns u w.dest) ∧
    (s.media.buffered.contains w.pma = false → ts.contains 0 = true → ts.contains 3 = false →
      s.settlePage w = s.countPage w.pma w.result)) ∧
  -- PROGRAM_FAIL
  (∀ (s : State) (pma : Nat) (dests : List Nat),
    s.nand.retired.contains (s.blockOf pma) = false →
    s.placesFree dests = true →
    ((s.unitsIn (s.blockOf pma)).filter (fun e => s.unitGood e.2)).length = dests.length →
    (∀ d ∈ dests, (s.bandOf (s.blockOf d)).map (·.id) ≠ (s.bandOf (s.blockOf pma)).map (·.id)) →
    let b := s.blockOf pma
    let u := s.moveAll ((s.unitsIn b).filter (fun e => s.unitGood e.2)) dests
    exec (.programFail pma dests) s = .next ((State.retireBlock
      { u with media := { u.media with buffered := u.media.buffered.filter (fun x => u.blockOf x != b) } } b 9 0x0202).settle true)) ∧
  -- ERASE_FAIL
  (∀ (s : State) (block : Nat),
    let u := s.retireBlock block 10 0x0203
    exec (.eraseFail block) s = .next u ∧ u.nand.retired.contains block = true ∧ u.nand.freeBlocks.contains block = false ∧
      (∀ j ∈ u.media.gc, j.src ≠ block) ∧ block ∉ u.media.relocate) ∧
  -- TARGET_LOST
  (∀ (s : State) (c t : Nat),
    s.media.usable.contains (c, t) = true →
    ∃ u : State, exec (.targetLost c t) s = .next (
        let v := (u.log 0x0206 medBase c t).spareChanged
        if v.media.usable.length < 32 then { v with media := { v.media with state := .noMedia } } else v) ∧
      u.media.usable = s.media.usable.filter (· != (c, t)) ∧ u.media.lost = s.media.lost ++ [(c, t)] ∧
      u.media.excluded = s.media.excluded ++ [(c, t)] ∧ u.media.image.map = s.media.image.map ∧
      (∀ b ∈ u.media.image.bands, b.state = .opened → (b.blocks ++ [b.parity]).any (fun x => pmaTarget x == (c, t)) = false) ∧
      (∀ b ∈ (s.media.image.bands.flatMap (·.blocks)), pmaTarget b = (c, t) → b ∈ u.media.relocate) ∧
      (∀ b ∈ u.nand.freeBlocks ++ u.nand.lgBlocks, pmaTarget b ≠ (c, t)) ∧
      u = { s with media := u.media, nand := { s.nand with freeBlocks := u.nand.freeBlocks, lgBlocks := u.nand.lgBlocks } })

/-- The journal's pages and the checkpoints. The tail is programmed 10 ms after its first entry; its pages take the next
journal sequence numbers and an event number each; a committed page joins the journal and may complete the features
that waited for it. A checkpoint notes the map and journal position at its start, at the journal limit or the time
limit; at its end it is journaled, an anchor record names it, older pages are released and a stall ends. At 12 GiB of
journal a stall holds the admission of writes and is counted once. An entry whose fields fit reads back from its 16
bytes, and a page of 1 to 1,020 such entries from its 16 KiB (how SANITIZE_PROGRESS packs LMU: log 101). (R126, R136,
R137, R138, R139, R140, R141, R142) -/
def Obligations.JournalAndCheckpoints : Prop :=
  -- JOURNAL_TAIL_TIMEOUT
  (∀ (s : State) (e : JEntry) (es : List JEntry),
    s.media.tail = e :: es →
    exec .journalTailTimeout s = .next (State.pushTail { s with now := max s.now (s.media.tailSince + 10000000) })) ∧
  -- the programming of the tail
  (∀ (s : State),
    s.media.tail ≠ [] →
    let places := s.media.journalPlaces s.media.nextJSeq
    s.pushTail = { s with media := { s.media with
      tail := [], nextJSeq := s.media.nextJSeq + 1, journalBytes := s.media.journalBytes + 16384,
      ckptBytes := s.media.ckptBytes + 16384,
      programming := s.media.programming ++
        [{ seq := s.media.nextJSeq, evt := s.media.tailEvt, ckpt := s.media.ckptSeq, entries := s.media.tail,
           place0 := places.1, place1 := places.2 }] } }) ∧
  -- a journaled entry
  (∀ (s : State) (e : JEntry),
    s.media.tail.length < 1019 →
    (s.media.tail ≠ [] → s.journal e = { s with media := { s.media with
      image := applyJ s.nand.bands s.media.image e, tail := s.media.tail ++ [e], appended := s.media.appended + 1,
      changed := addNew s.media.changed (e.segments s.media.image) } }) ∧
    (s.media.tail = [] → let u := s.issueSeq.2
      s.journal e = { u with media := { u.media with
        image := applyJ u.nand.bands u.media.image e, tail := [e], appended := u.media.appended + 1,
        changed := addNew u.media.changed (e.segments u.media.image), tailEvt := s.issueSeq.1, tailSince := u.now } })) ∧
  -- JOURNAL_PAGE_COMMIT, the other copy has passed
  (∀ (s : State) (pg : JPage) (rest : List JPage),
    s.media.programming = pg :: rest →
    pg.passed0 = true →
    exec .journalPageCommit s = .next (State.settle { s with
      nand := { s.nand with journal := s.nand.journal ++ [{ pg with passed1 := true }] },
      media := { s.media with programming := rest, committed := s.media.committed + pg.entries.length } } true)) ∧
  -- JOURNAL_PAGE_COMMIT, the first copy passes
  (∀ (s : State) (pg : JPage) (rest : List JPage),
    s.media.programming = pg :: rest →
    pg.passed0 = false →
    exec .journalPageCommit s = .next { s with media := { s.media with
      programming := { pg with passed0 := true } :: rest } }) ∧
  -- a journal entry reads back
  (∀ (e : JEntry),
    e.fits = true →
    parseEntry e.bytes = some e) ∧
  -- a journal page reads back
  (∀ (seq evt ckpt : Nat) (es : List JEntry),
    seq < 2 ^ 64 →
    evt < 2 ^ 64 →
    ckpt < 2 ^ 64 →
    1 ≤ es.length →
    es.length ≤ 1020 →
    es.all JEntry.fits = true →
    parsePage (JPage.bytes { seq := seq, evt := evt, ckpt := ckpt, entries := es }) =
      some { seq := seq, evt := evt, ckpt := ckpt, entries := es }) ∧
  -- CHECKPOINT_START at the journal limit
  (∀ (s : State),
    s.media.ckpt = none →
    s.mediaStopped = false →
    s.media.mapLoaded = true →
    s.media.sanitize = none →
    s.media.ckptBytes ≥ s.regFld mapBase 0 4 * 2 ^ 30 →
    exec .checkpointStart s = .next { s with media := { s.media with
      ckpt := some { image := s.media.image, start := s.media.nextJSeq, segments := s.media.changed }, changed := [], ckptStartedAt := s.now, ckptBytes := 0 } }) ∧
  -- CHECKPOINT_START at the time limit
  (∀ (s : State),
    s.media.ckpt = none →
    s.mediaStopped = false →
    s.media.mapLoaded = true →
    s.media.sanitize = none →
    s.media.ckptBytes < s.regFld mapBase 0 4 * 2 ^ 30 →
    let t := max s.now (s.media.ckptStartedAt + s.regFld mapBase 16 10 * 1000000000)
    exec .checkpointStart s = .next { s with now := t, media := { s.media with
      ckpt := some { image := s.media.image, start := s.media.nextJSeq, segments := s.media.changed }, changed := [], ckptStartedAt := t, ckptBytes := 0 } }) ∧
  -- CHECKPOINT_DONE
  (∀ (s : State) (dir : Nat) (places : List Nat) (k : Checkpoint),
    s.media.ckpt = some k →
    s.mediaStopped = false →
    s.media.mapLoaded = true →
    places.length = k.segments.length →
    s.placesFree places = true →
    let x := (places.foldl (fun s p => s.programPage p) s).healthBump 2 (places.length * 40959)
    let a := State.journal { x with media := { x.media with
      ckptSeq := x.media.ckptSeq + 1, dir := dir,
      segments := (k.segments.zip places).foldl (fun l x => natSet l x.1 x.2) x.media.segments } }
      (.checkpointDone (x.media.ckptSeq + 1) dir)
    let b := (a.healthBump 15 1).writeAnchorWith false k.image k.start
    Completes (.checkpointDone ⟨dir, places⟩) s fun t =>
      t.nand.journal = b.nand.journal.filter (fun p => decide (p.seq ≥ k.start)) ∧ t.media.ckpt = none ∧ t.media.stalled = false ∧
      t.media.image = b.media.image ∧ t.nand.anchor0 = b.nand.anchor0 ∧ t.nand.anchor1 = b.nand.anchor1 ∧
      t.media.journalBytes = (t.nand.journal.length + b.media.programming.length) * 16384 ∧
      t = { b with nand := t.nand, media := t.media }) ∧
  -- the anchor record
  (∀ (s : State) (flushed : Bool) (img : MediaImage) (start : Nat) (a b : Anchor),
    s.nand.anchor0 = some a →
    s.nand.anchor1 = some b →
    ∃ x : Anchor, (x.seq = max a.seq b.seq + 1 ∧ x.flushed = flushed ∧ x.image = img ∧ x.startSeq = start ∧
        x.ckptSeq = s.media.ckptSeq ∧ x.layout = s.media.layout ∧ x.health = s.media.health ∧
        x.ceiling = max s.evt.ceiling s.evt.pendingAnchor ∧ x.geometry = s.media.geometry ∧ x.dir = s.media.dir ∧
        x.segments = s.media.segments ∧ x.lgBlocks = s.nand.lgBlocks ∧ x.sanitize = s.media.sanitize) ∧
      (s.writeAnchorWith flushed img start).nand.current = some x ∧
      (s.writeAnchorWith flushed img start).evt = { s.evt with anchor := some x.ceiling }) ∧
  -- CHECKPOINT_STALL
  (∀ (s : State),
    s.media.stalled = false →
    s.media.journalBytes ≥ 12 * 2 ^ 30 →
    let u := s.healthBump 14 1
    exec .checkpointStall s = .next { u with media := { u.media with stalled := true } } ∧
    ∀ (p : ReqPath) (nsid lba : Nat) (d : List Byte) (pl : Placement) (f : Bool),
      exec (.write p nsid lba d f pl) { u with media := { u.media with stalled := true } } =
        .next { u with media := { u.media with stalled := true } })

/-- A block is collected, and the last-gasp sequence. Garbage collection takes the relocation queue first and never a
block of an open or unverified band; it copies each valid unit, journals a GC_MOVE only for a unit whose map still
points to the source, then BLOCK_RELEASE, and erases the source only when that is committed and no read is in flight.
PWR_FAIL_N beyond its filter starts last gasp, ignored in Off; its end leaves nothing in the protected region and an
anchor with FLUSHED; once it is done a deasserted PWR_FAIL_N requests a reset with reason LAST_GASP. (R146, R147,
R148, R150, R152, R153, R582, R658) -/
def Obligations.GarbageCollectionAndLastGasp : Prop :=
  -- GC_BLOCK_START, the relocation queue first
  (∀ (s : State) (b : Nat),
    s.media.relocate = [b] →
    s.media.gc = [] →
    (s.media.image.bands.filter (fun x => x.state == .unverified)) = [] →
    s.media.segments = [] →
    s.unitsIn b = [] →
    s.mediaStopped = false →
    s.media.sanitize = none →
    s.accumulators ≤ 512 →
    exec (.gcBlockStart { pmas := [], bands := [] }) s = .next { s with media := { s.media with
      gc := [{ src := b, copies := [] }], relocate := [] } }) ∧
  -- GC_BLOCK_START, the units it copies
  (∀ (s : State) (src : Nat) (pl : Placement),
    s.gcNext = some src →
    s.mediaStopped = false →
    s.media.sanitize = none →
    ((s.unitsIn src).filter (fun e => s.unitGood e.2)).length = pl.pmas.length →
    (s.openBands true pl.bands).placesOk pl.pmas true = true →
    s.accumulators + pl.pmas.length ≤ 512 →
    let cs := ((s.unitsIn src).filter (fun e => s.unitGood e.2)).zip pl.pmas
    let u := cs.foldl (fun s c => (s.storeUnit (c.1.1 / 2 ^ 40) (c.1.1 % 2 ^ 40) c.2 (s.unitAtPlace c.1.2)).programPage c.2)
      (s.openBands true pl.bands)
    exec (.gcBlockStart pl) s = .next { u with media := { u.media with
      gc := u.media.gc ++ [{ src := src, copies := cs.map (fun c => (c.1.1 / 2 ^ 40, c.1.1 % 2 ^ 40, c.2)) }],
      relocate := u.media.relocate.filter (· != src) } }) ∧
  -- what garbage collection takes next
  (∀ (s : State) (b : Nat),
    s.gcNext = some b →
    (∀ x ∈ s.media.image.bands, x.state = .unverified → b ∉ x.blocks) ∧ (∀ j ∈ s.media.gc, j.src ≠ b) ∧
    (b ∈ s.media.relocate ∨ ∃ x ∈ s.media.image.bands, x.state = .verified ∧ b ∈ x.blocks)) ∧
  -- GC_VERIFY_DONE
  (∀ (s : State) (src : Nat) (j : GcJob),
    s.media.gc.find? (fun x => x.src == src) = some j →
    j.phase = .copying →
    s.mediaStopped = false →
    let u := j.copies.foldl (fun s c => s.gcCommitUnit src c) s
    let a := u.journal (.blockRelease src)
    let b := a.pushTail
    (u.unitsIn src = [] → exec (.gcVerifyDone src) s = .next { b with media := { b.media with
      gc := b.media.gc.map (fun x => if x.src == src then { x with phase := .committing, needs := a.media.appended } else x) } }) ∧
    (u.unitsIn src ≠ [] → exec (.gcVerifyDone src) s = .next { u.pushTail with media := { u.pushTail.media with
      gc := u.pushTail.media.gc.filter (fun x => x.src != src) } })) ∧
  -- a copied unit at the commit
  (∀ (s : State) (src ns u p p' : Nat),
    s.pmaOf ns u = some p' →
    s.gcCommitUnit src (ns, u, p) = (if s.blockOf p' = src then s.journal (.gcMove ns u p) else s)) ∧
  -- GC_ERASE
  (∀ (s : State) (src : Nat) (j : GcJob),
    s.media.gc.find? (fun x => x.src == src) = some j →
    j.phase = .committing →
    j.needs ≤ s.media.committed →
    s.media.reads.any (fun r => r.waiting.any (fun p => s.blockOf p == src)) = false →
    s.mediaStopped = false →
    Completes (.gcErase src) s fun t =>
      t.nand.freeBlocks = s.nand.freeBlocks ++ [src] ∧ t.media.gc = s.media.gc.filter (fun x => x.src != src) ∧
      t.nand.store = memZero s.nand.store (src * 16384) ((src + s.media.geometry.blockUnits) * 16384) ∧
      t.media.image = { s.media.image with released := s.media.image.released.filter (· != src) } ∧ t = { s with nand := t.nand, media := t.media }) ∧
  -- GC_ERASE before its release is committed
  (∀ (s : State) (src : Nat) (j : GcJob),
    s.media.gc.find? (fun x => x.src == src) = some j →
    s.media.committed < j.needs →
    exec (.gcErase src) s = .next s) ∧
  -- LAST_GASP
  (∀ (s : State) (ns : Nat),
    (ns > 1000 → s.power.mainOff = false → s.media.lgActive = false → s.media.lgDone = false → s.power.state = .run →
      exec (.lastGasp ns) s = .next { s with pins := { s.pins with pwrFailN := false }, media := { s.media with lgActive := true } }) ∧
    (ns ≤ 1000 ∨ s.power.mainOff = true → exec (.lastGasp ns) s = .next s)) ∧
  -- LAST_GASP_DONE
  (∀ (s : State) (us : Nat),
    s.media.lgActive = true →
    Completes (.lastGaspDone us) s fun t =>
      t.media.lgActive = false ∧ t.media.lgDone = true ∧ t.media.lgUs = us ∧ t.media.buffered = [] ∧ t.media.tail = [] ∧
      t.media.programming = [] ∧ t.media.state = .lastGasp ∧ t.media.image = s.media.image ∧
      t.nand.journal = s.nand.journal ++ s.media.programming ∧ t.nand.lgPages = s.nand.lgPages ++ s.lgSequence ∧
      t.nand.store = s.nand.store) ∧
  -- what the sequence programs
  (∀ (s : State),
    s.lgSequence = s.media.buffered.zipIdx.map (fun x => LgPage.data x.1 (s.lgPlace x.2)) ++
      s.media.image.bands.flatMap (fun b => (b.accRows s.media.geometry).map (fun r => LgPage.parity b.id r)) ++
      (if s.media.tail = [] then [] else [LgPage.entries s.media.tail])) ∧
  -- LAST_GASP_RESET_REQUEST
  (∀ (s : State),
    s.media.lgDone = true →
    exec .lastGaspResetRequest s = .next (State.emit (State.emit { s with
      pins := { s.pins with pwrFailN := true }, backup := { s.backup with request := 4 } } (.pin .resetReqN false)) (.pin .resetReqN true)))

/-- Sanitize replaces every key, unmaps everything, and ends target by target. An accepted Sanitize of any of its three
actions first makes a crypto-erase of every namespace, then shows SANITIZING and answers its request; a namespace
operand other than 0xFFFFFFFF, or a Sanitize under way, refuses it; a key record that no block accepts fails it with
0x0F0A. Each target's end is journaled; after the last one the media are in use again, with nothing mapped and every
block free after BLOCK or FORMAT. (R114, R122, R128, R421, R556, R557) -/
def Obligations.SanitizeErasesEverything : Prop :=
  -- SANITIZE_CRYPTO, SANITIZE_BLOCK and SANITIZE_FORMAT
  (∀ (s : State) (p : ReqPath),
    s.mediaStopped = false →
    s.sanitizeRefusal 0xFFFFFFFF 1 = none →
    let u := s.cryptoEraseAll
    let v := fun (a : Nat) => { u with media := { u.media with
      sanitize := some { action := a, layout := u.media.nextLayout }, state := .sanitizing, ckpt := none } }
    let go := fun (a : Nat) => Host.Outcome.next (φ := Fault) (ρ := Refusal)
      (((v a).writeAnchorWith false u.media.image u.media.nextJSeq).reply p 0)
    exec (.sanitizeCrypto p 0xFFFFFFFF true) s = go 1 ∧ exec (.sanitizeBlock p 0xFFFFFFFF true) s = go 2 ∧
      exec (.sanitizeFormat p 0xFFFFFFFF true) s = go 3) ∧
  -- SANITIZE refused, and failed for want of a key record
  (∀ (s : State) (p : ReqPath) (nsid : Nat) (st : Status),
    s.mediaStopped = false →
    (s.sanitizeRefusal nsid 1 = some st → ∀ k, exec (.sanitizeCrypto p nsid k) s = .next (s.reply p st)) ∧
    (s.sanitizeRefusal nsid 1 = none → exec (.sanitizeCrypto p nsid false) s = .next ((s.reply p 0x0F0A).log 0x0F0A sagBase)) ∧
    (s.media.sanitize ≠ none → s.trust.pending = false → s.trust.zeroised = false →
      s.sanitizeRefusal nsid 1 = some 0x0309)) ∧
  -- SANITIZE_TARGET_DONE, more targets to come
  (∀ (s : State) (j : SanitizeJob) (c : Nat × Nat) (f : Nat),
    s.media.sanitize = some j →
    s.mediaStopped = false →
    s.sanitizeNext j = some c →
    (s.sanitizeNext { j with last := some (targetIndex c) }).isSome = true →
    let u := (if j.action ≥ 2 then s.eraseTarget c else s).journal (.sanitizeProgress j.action (targetIndex c))
    exec (.sanitizeTargetDone f) s = .next { u with media := { u.media with
      sanitize := some { j with last := some (targetIndex c) } } }) ∧
  -- SANITIZE_TARGET_DONE, the last target
  (∀ (s : State) (j : SanitizeJob) (c : Nat × Nat) (f : Nat),
    s.media.sanitize = some j →
    s.mediaStopped = false →
    s.sanitizeNext j = some c →
    s.sanitizeNext { j with last := some (targetIndex c) } = none →
    Completes (.sanitizeTargetDone f) s fun t => t.media.sanitize = none ∧
      t.media.state = (if s.media.health.worn then .readOnlyWorn else .ready) ∧
      (j.action ≥ 2 → t.media.image.map = [] ∧ t.media.image.bands = [] ∧ t.media.buffered = [] ∧ t.nand.journal = [] ∧
        t.nand.bands = [] ∧ t.groupRecord = none) ∧
      (j.action = 3 → t.media.health.factoryBad = f ∧ t.media.healthOvf = 0 ∧ t.media.health.ctr = List.replicate 24 0 ∧
        t.nand.handover = none ∧ t.media.nextLayout = none ∧
        t.media.layout = j.layout.getD { s.media.layout with cell := max s.media.layout.cell 1 })) ∧
  -- a target's erasure
  (∀ (s : State) (c : Nat × Nat) (a : Nat),
    (c.1 * 2 ^ 34 + c.2 * 2 ^ 30) * 16384 ≤ a →
    a < (c.1 * 2 ^ 34 + c.2 * 2 ^ 30 + 2 ^ 30) * 16384 →
    memGet (s.eraseTarget c).nand.store a = 0 ∧ (s.eraseTarget c).media = s.media)

/-- Namespaces are made, deleted, sealed and unsealed, and the media registers. When nothing refuses it, a Create gives a
new key and journals the namespace at the first free map entry, a Delete destroys its key and unmaps it, a Seal
refuses later writes from its admission on and waits for the writes before it, an Unseal lifts it; each completes when
its journal page is committed. The refusals stand in the order of the spec. A checkpoint configuration or NAND
termination out of range changes nothing and records 0x0101; a temperature sample updates the present, highest and
lowest temperature and its bin. (R51, R106, R121, R126, R161, R164, R529, R557, R569, R666) -/
def Obligations.NamespaceFeaturesAndMediaRegisters : Prop :=
  -- NS_CREATE
  (∀ (s : State) (p : ReqPath) (nsid cap : Nat),
    s.nsCreateRefusal p nsid cap true = none →
    s.mediaStopped = false →
    Completes (.nsCreate p nsid cap true) s fun t =>
      t.media.waits = s.media.waits ++ [{ path := p, kind := .nsFeature none, units := [], entries := s.media.appended + 1 }] ∧
      t.media.image.ns = insertNs s.media.image.ns
        { id := nsid, cap := cap, base := s.media.image.ns.foldl (fun a x => max a (x.base + x.cap)) 0 } ∧
      t.media.image.map = s.media.image.map ∧
      t.trustKept.keyBlocks.seq = s.trustKept.keyBlocks.seq + 1 ∧ t.trustKept.nsKeys = (s.drawKey nsid).trustKept.nsKeys) ∧
  -- NS_CREATE, its refusals in order
  (∀ (s : State) (nsid cap : Nat) (k : Bool),
    s.nsGate true = none →
    s.memberNs nsid = false →
    s.mediaStopped = false →
    (nsid = 0 ∨ nsid > 256 → s.nsCreateRefusal .image nsid cap k = some (0x0101, 1)) ∧
    (1 ≤ nsid ∧ nsid ≤ 256 → (s.nsInfo nsid).isSome = true → s.nsCreateRefusal .image nsid cap k = some (0x0101, 2)) ∧
    (1 ≤ nsid ∧ nsid ≤ 256 → (s.nsInfo nsid).isSome = false → cap = 0 → s.nsCreateRefusal .image nsid cap k = some (0x0101, 3)) ∧
    (∀ st d, s.nsCreateRefusal .image nsid cap k = some (st, d) → st ≠ 0x0F0A →
      exec (.nsCreate .image nsid cap k) s = .next (s.reply .image st d))) ∧
  -- NS_DELETE
  (∀ (s : State) (p : ReqPath) (nsid : Nat),
    s.nsDeleteRefusal p nsid true = none →
    s.mediaStopped = false →
    let u := ((s.cryptoEraseRecord).dropKey nsid).nsFeature p (.nsDelete nsid) none
    exec (.nsDelete p nsid true) s = .next
      (State.checkWornExit { u with media := { u.media with wornDelete := u.media.health.worn } }) ∧
    (∀ x ∈ u.media.image.ns, x.id ≠ nsid)) ∧
  -- NS_DELETE of a namespace in use
  (∀ (s : State) (nsid : Nat) (x : NsInfo) (k : Bool),
    s.nsGate true = none →
    s.memberNs nsid = false →
    s.nsInfo nsid = some x →
    s.streamWitness nsid = true →
    s.mediaStopped = false →
    exec (.nsDelete .image nsid k) s = .next (s.reply .image 0x0304) ∧ exec (.nsSeal .image nsid) s = .next (s.reply .image 0x0304)) ∧
  -- NS_SEAL
  (∀ (s : State) (p : ReqPath) (nsid : Nat),
    s.nsSealRefusal p nsid = none →
    s.mediaStopped = false →
    exec (.nsSeal p nsid) s = .next ((s.nsFeature p (.nsSeal nsid) (some nsid)).pushTail) ∧
    (applyJ s.nand.bands s.media.image (.nsSeal nsid)).ns = s.media.image.ns.map (fun x => if x.id == nsid then { x with isSealed := true } else x)) ∧
  -- NS_UNSEAL
  (∀ (s : State) (p : ReqPath) (nsid : Nat),
    s.nsUnsealRefusal p nsid = none →
    s.mediaStopped = false →
    exec (.nsUnseal p nsid) s = .next (s.nsFeature p (.nsUnseal nsid) none) ∧
    (applyJ s.nand.bands s.media.image (.nsUnseal nsid)).ns = s.media.image.ns.map (fun x => if x.id == nsid then { x with isSealed := false } else x)) ∧
  -- MAP_CKPT_CONFIG_WRITE
  (∀ (s : State) (v : Word),
    s.quoinSet 4 = false →
    exec (.mapCkptConfigWrite v) s = .next (if 1 ≤ fld v 0 4 ∧ fld v 0 4 ≤ 8 ∧ 60 ≤ fld v 16 10 ∧ fld v 16 10 ≤ 600
      then s.plainWrite mapBase v else s.log 0x0101 mapBase mapBase)) ∧
  -- MED_NAND_PAD_WRITE
  (∀ (s : State) (v : Word),
    s.quoinSet 4 = false →
    exec (.medNandPadWrite v) s = .next (if fld v 4 3 ≤ 4 then s.plainWrite (medBase + 0x14) v
      else s.log 0x0101 medBase (medBase + 0x14))) ∧
  -- NAND_TEMPERATURE_SAMPLE
  (∀ (s : State) (t : Int) (ts : List Int),
    let hot := ts.foldl max t
    Completes (.nandTemperatureSample (t :: ts)) s fun r =>
      r.media.health.tempNow = hot ∧ (r.media.health.hot = true ↔ hot > 85) ∧ r.media.health.tempMax ≥ hot ∧ r.media.health.tempMin ≤ hot ∧
      r.media.image = s.media.image ∧ r.media.state = s.media.state ∧ r = { s with media := r.media } ∧
      r.media.health.ctr = modAt s.media.health.ctr (tempBin hot)
        (fun _ => min (s.media.health.ctr.getD (tempBin hot) 0 + 1) (2 ^ (if tempBin hot ≥ 16 then 32 else 64) - 1)))

/-- Adding to and subtracting from sync counters, waiting, reading, allocating, freeing and configuring them. An ADD of 1
to 65,535 raises the counter's value and records the signaller and the count of changes; one that would pass 2^32 - 1
leaves that limit and raises SYNC_OVERFLOW against the owner; a SUB lowers it, or leaves 0 and raises SYNC_UNDERFLOW.
A software signal adds in the same way and is refused for 0, a region counter or a free counter. Every other counter
stays. WAIT_GE goes on at once when the value is at least v and waits otherwise; WAIT_SUB also subtracts n in the same
step; READ returns the value, and for a barrier its generation; ALLOC binds a free shared counter with value 0 in
NORMAL mode under a raised generation and returns its handle, or NO_SYNC when the binding is taken; FREE unbinds it;
CONFIG sets mode, parties and pairs. A counter number the run does not own, or the wrong mode, is BAD_COUNTER. Writing
SYN_DBG_SEL latches the counter's state and does not disturb it. (R372, R373, R375, R377, R383, R385, R386, R400) -/
def Obligations.CountersAreOperated : Prop :=
  -- SYNC_ADD by an issuer of the run
  (∀ (s : State) (slot k n p : Nat) (i : SyncIssuer) (r : Run),
    s.running slot = some r →
    s.issuerReady r i = true →
    s.runCounter r k = some p →
    1 ≤ n ∧ n ≤ 65535 →
    exec (.syncAdd (.run slot k) i n) s = .next ((match i with | .core t => s.tileEvent r t 0xD 1 | _ => s).counterAdd p n
      (r.signaller i) 0 (match i with | .core t => t | .dma t => t | _ => 0xFFFF)).2) ∧
  -- SYNC_ADD by the stream engine on its own counter
  (∀ (s : State) (c b n p : Nat),
    s.resolve (.stream c b) = some p →
    1 ≤ n ∧ n ≤ 65535 →
    exec (.syncAdd (.stream c b) (.stream c) n) s = .next (s.counterAdd p n (0x5000 + c) 0 0xFFFF).2) ∧
  -- what an ADD does to a counter nobody waits for
  (∀ (s : State) (p n who d t q : Nat),
    (s.ctr p).value + n ≤ 2 ^ 32 - 1 →
    (s.ctr p).waiters = [] →
    (s.ctr p).barrier = false →
    q ≠ p →
    let u := (s.counterAdd p n who d t).2
    (s.counterAdd p n who d t).1 = 0 ∧ (u.ctr p).value = (s.ctr p).value + n ∧ (u.ctr p).signaller = who ∧
      (u.ctr p).device = (if who / 4096 = 6 then d else (s.ctr p).device) ∧ (u.ctr p).seq = ((s.ctr p).seq + 1) % 2 ^ 32 ∧ (u.ctr p).gen = (s.ctr p).gen ∧
      u.ctr q = s.ctr q ∧ u.mgr = s.mgr ∧ u.errlog = s.errlog) ∧
  -- an ADD that would pass 2^32 - 1
  (∀ (s : State) (p n who d t : Nat),
    2 ^ 32 - 1 < (s.ctr p).value + n →
    (s.ctr p).value < 2 ^ 32 - 1 →
    let u := s.setCtr p ((s.ctr p).step (2 ^ 32 - 1) who d s.now)
    (s.counterAdd p n who d t).1 = 0x0B01 ∧ (u.ctr p).value = 2 ^ 32 - 1 ∧
      (s.counterAdd p n who d t).2 = u.syncFault (u.ownerOf p) p 0x0B01 t (u.logicalOf p)) ∧
  -- SYNC_SUB
  (∀ (s : State) (slot k t n p : Nat) (r : Run),
    s.running slot = some r →
    s.issuerReady r (.core t) = true →
    s.runCounter r k = some p →
    (s.ctr p).barrier = false →
    1 ≤ n ∧ n ≤ 65535 →
    n ≤ (s.ctr p).value →
    let c := (s.ctr p).step ((s.ctr p).value - n) (r.signaller (.core t)) 0 s.now
    exec (.syncSub slot t k n) s = .next ((s.tileEvent r t 0xD 1).setCtr p c) ∧
    c.value = (s.ctr p).value - n ∧ c.seq = ((s.ctr p).seq + 1) % 2 ^ 32 ∧ c.signaller = r.signaller (.core t) ∧
    c.changedAt = s.now ∧ c.waiters = (s.ctr p).waiters ∧ c.owner = (s.ctr p).owner ∧ c.gen = (s.ctr p).gen) ∧
  -- SYNC_SUB below 0
  (∀ (s : State) (slot k t n p : Nat) (r : Run),
    s.running slot = some r →
    s.issuerReady r (.core t) = true →
    s.runCounter r k = some p →
    (s.ctr p).barrier = false →
    1 ≤ n ∧ n ≤ 65535 →
    (s.ctr p).value < n →
    Completes (.syncSub slot t k n) s (fun u => ∃ v : State, (v.ctr p).value = 0 ∧ u = v.syncFault (v.ownerOf p) p 0x0B02 t k)) ∧
  -- SYN_SW_SIGNAL
  (∀ (s : State) (b : BusPath) (v : Word),
    let n := fld v 0 16
    let a := fld v 16 16
    (1 ≤ a ∧ 49152 ≤ n ∧ (s.ctr n).owner.isSome = true →
      exec (.synSwSignal b v) s = .next (s.counterAdd n a (0x7000 + busSig b) 0 0xFFFF).2) ∧
    (a = 0 ∨ n < 49152 ∨ (s.ctr n).owner = none →
      exec (.synSwSignal b v) s = .next (s.log 0x0101 synBase 0x30 v.toNat))) ∧
  -- SYNC_WAIT_GE by a tile core
  (∀ (s : State) (slot k v t p : Nat) (r : Run),
    s.running slot = some r →
    s.issuerReady r (.core t) = true →
    s.runCounter r k = some p →
    (s.ctr p).barrier = false →
    (v ≤ (s.ctr p).value → exec (.syncWaitGe slot (.core t) k v) s = .next (s.tileEvent r t 0xD 1)) ∧
    ((s.ctr p).value < v → exec (.syncWaitGe slot (.core t) k v) s =
      .next ((s.tileEvent r t 0xD 1).setCtr p { s.ctr p with
        waiters := (s.ctr p).waiters ++ [{ who := r.signaller (.core t), tile := t, what := .ge v }] }))) ∧
  -- SYNC_WAIT_GE by a lane
  (∀ (s : State) (slot k v l p : Nat) (r : Run),
    s.running slot = some r →
    l < 64 →
    s.runCounter r k = some p →
    (s.ctr p).barrier = false →
    (v ≤ (s.ctr p).value → exec (.syncWaitGe slot (.lane l) k v) s = .next s) ∧
    ((s.ctr p).value < v → exec (.syncWaitGe slot (.lane l) k v) s =
      .next (s.setCtr p { s.ctr p with
        waiters := (s.ctr p).waiters ++ [{ who := 0x4000 + l, tile := 0xFFFF, what := .ge v }] }))) ∧
  -- SYNC_WAIT_SUB
  (∀ (s : State) (slot k n t p : Nat) (r : Run),
    s.running slot = some r →
    s.issuerReady r (.core t) = true →
    s.runCounter r k = some p →
    (s.ctr p).barrier = false →
    1 ≤ n ∧ n ≤ 65535 →
    let u := s.tileEvent r t 0xD 1
    (n ≤ (s.ctr p).value → exec (.syncWaitSub slot t k n) s =
      .next (u.setCtr p ((s.ctr p).step ((s.ctr p).value - n) (r.signaller (.core t)) 0 s.now))) ∧
    ((s.ctr p).value < n → exec (.syncWaitSub slot t k n) s = .next (u.setCtr p { s.ctr p with
      waiters := (s.ctr p).waiters ++ [{ who := r.signaller (.core t), tile := t, what := .sub n }] }))) ∧
  -- SYNC_READ
  (∀ (s : State) (slot k t p : Nat) (r : Run),
    s.running slot = some r →
    s.issuerReady r (.core t) = true →
    s.runCounter r k = some p →
    exec (.syncRead slot t k) s = .next ((s.tileEvent r t 0xD 1).emit (.reply (.run slot) 0 0
      (if (s.ctr p).barrier then [(s.ctr p).value, (s.ctr p).bgen] else [(s.ctr p).value]) []))) ∧
  -- SYNC_ALLOC by a run's core
  (∀ (s : State) (slot b t pick : Nat) (remote : Bool) (r : Run),
    s.running slot = some r →
    s.issuerReady r (.core t) = true →
    b ≤ 255 →
    s.runCounter r (0xC000 + b) = none →
    s.ctrsUsed < 16384 →
    s.ctrFree pick = true →
    let c : Counter := { gen := ((s.ctr pick).gen + 1) % 256, remote := remote, owner := some (.run slot b), changedAt := s.now }
    exec (.syncAlloc (.run slot b) t remote pick) s =
      .next (((s.tileEvent r t 0xD 1).setCtr pick c).emit (.reply (.run slot) 0 0 [s.deviceId, pick, c.gen] [])) ∧
    c.value = 0 ∧ c.barrier = false) ∧
  -- SYNC_ALLOC by the stream engine for a context
  (∀ (s : State) (ctx b t pick : Nat) (remote : Bool),
    (s.ctxOf ctx).isSome = true →
    b ≤ 255 →
    s.resolve (.stream ctx b) = none →
    s.ctrsUsed < 16384 →
    s.ctrFree pick = true →
    exec (.syncAlloc (.stream ctx b) t remote pick) s = .next (s.setCtr pick
      { gen := ((s.ctr pick).gen + 1) % 256, remote := remote, owner := some (.stream ctx b), changedAt := s.now })) ∧
  -- SYNC_ALLOC of a bound binding, and with no counter free
  (∀ (s : State) (slot b t pick : Nat) (remote : Bool) (r : Run),
    s.running slot = some r →
    s.issuerReady r (.core t) = true →
    b ≤ 255 →
    (s.runCounter r (0xC000 + b)).isSome = true ∨ 16384 ≤ s.ctrsUsed →
    exec (.syncAlloc (.run slot b) t remote pick) s = .next ((s.tileEvent r t 0xD 1).emit (.reply (.run slot) 0x0B04 0 [] []))) ∧
  -- SYNC_FREE
  (∀ (s : State) (slot t b p : Nat) (r : Run),
    s.running slot = some r →
    s.issuerReady r (.core t) = true →
    s.runCounter r (0xC000 + b) = some p →
    (s.ctr p).waiters = [] →
    s.text.gens.any (fun g => g.owner == ReqPath.run slot && g.runCounter == 0xC000 + b) = false →
    let u := s.tileEvent r t 0xD 1
    exec (.syncFree slot t b) s = .next
      (State.setCtr { u with sync := { u.sync with due := u.sync.due.filter (· != p) } } p { gen := (s.ctr p).gen })) ∧
  -- SYNC_CONFIG to a barrier
  (∀ (s : State) (slot t k p parties : Nat) (pairs : List (Nat × Nat)) (r : Run),
    s.running slot = some r →
    1 ≤ parties ∧ parties ≤ 65536 ∧ pairs.length ≤ 8 →
    s.runCounter r k = some p →
    0xC000 ≤ k →
    pairs.all (fun x => s.pairOk r x.1 && s.pairOk r x.2) = true →
    (s.ctr p).value = 0 ∧ (s.ctr p).waiters = [] →
    s.issuerReady r (.core t) = true →
    exec (.syncConfig slot t k true parties pairs) s = .next ((s.tileEvent r t 0xD 1).setCtr p { s.ctr p with
      barrier := true, parties := parties,
      pairs := pairs.map (fun x => ((s.runCounter r x.1).getD 0, (s.runCounter r x.2).getD 0)) })) ∧
  -- a counter the run does not own, or the wrong mode
  (∀ (s : State) (slot t k n : Nat) (r : Run),
    s.running slot = some r →
    s.issuerReady r (.core t) = true →
    (s.runCounter r k = none ∨ ∃ p, s.runCounter r k = some p ∧ (s.ctr p).barrier = true) →
    1 ≤ n ∧ n ≤ 65535 →
    exec (.syncSub slot t k n) s = .next ((s.tileEvent r t 0xD 1).badCounter r (.core t) k) ∧
    exec (.syncWaitSub slot t k n) s = .next ((s.tileEvent r t 0xD 1).badCounter r (.core t) k)) ∧
  -- what BAD_COUNTER does: the run ends
  (∀ (s : State) (r : Run) (by_ : SyncIssuer) (k p : Nat),
    s.runCounter r k = some p →
    s.badCounter r by_ k = (State.log (s.trace 4 1 (r.signaller by_) r.slot 0 0x0B03 (p % 65536 + (s.ctr p).seq * 65536))
      0x0B03 synBase p (s.ctr p).signaller 0 k).endRun r.slot 0x0B03 k (issuerTile by_) 0 true) ∧
  -- SYN_DBG_SEL_WRITE
  (∀ (s : State) (v : Word),
    s.regsWf = true →
    let n := fld v 0 16
    Completes (.synDbgSelWrite v) s (fun u =>
      u.reg (synBase + 0x10) = BitVec.ofNat 32 n ∧ u.reg (synBase + 0x14) = BitVec.ofNat 32 (s.ctr n).value ∧
      u.reg (synBase + 0x1C) = BitVec.ofNat 32 (s.ctr n).signaller ∧ u.reg (synBase + 0x20) = BitVec.ofNat 32 (s.ctr n).seq ∧
      u.sync = s.sync ∧ u.mgr = s.mgr ∧ u.field = s.field ∧ u.out = s.out))

/-- Arriving at a barrier, and its release with realignment. ARRIVE adds 1 and waits for the release; the arrival that
reaches the parties makes the release due; a reissued arrival whose generation has passed goes on at once. The release
lowers each configured pair by m, the lesser of its two counts, sets the value to 0, raises the 16-bit generation and
frees every waiter. (R372, R374, R375, R379, R380) -/
def Obligations.BarriersRelease : Prop :=
  -- SYNC_ARRIVE
  (∀ (s : State) (slot t k p : Nat) (r : Run),
    s.running slot = some r →
    s.issuerReady r (.core t) = true →
    s.runCounter r k = some p →
    (s.ctr p).barrier = true →
    let u := s.tileEvent r t 0xD 1
    exec (.syncArrive slot t k none) s = .next ((u.setCtr p { s.ctr p with
      waiters := (s.ctr p).waiters ++ [{ who := r.signaller (.core t), tile := t, what := .release (s.ctr p).bgen }] }).counterAdd
        p 1 (r.signaller (.core t)) 0 t).2) ∧
  -- SYNC_ARRIVE, reissued
  (∀ (s : State) (slot t k p g : Nat) (r : Run),
    s.running slot = some r →
    s.issuerReady r (.core t) = true →
    s.runCounter r k = some p →
    (s.ctr p).barrier = true →
    seqEarlier 16 g (s.ctr p).bgen = true →
    exec (.syncArrive slot t k (some g)) s = .next (s.tileEvent r t 0xD 1)) ∧
  -- the arrival that completes a barrier makes its release due
  (∀ (s : State) (p : Nat),
    (s.ctr p).barrier = true →
    (s.ctr p).parties ≤ (s.ctr p).value →
    (s.barrierDue p).sync.due.contains p = true ∧ (s.barrierDue p).sync.ctrs = s.sync.ctrs) ∧
  -- BARRIER_RELEASE with no pair
  (∀ (s : State) (p q : Nat),
    s.sync.due.contains p = true →
    (s.ctr p).pairs = [] →
    q ≠ p →
    Completes (.barrierRelease p) s (fun u => (u.ctr p).value = 0 ∧ (u.ctr p).bgen = ((s.ctr p).bgen + 1) % 65536 ∧
      (u.ctr p).parties = (s.ctr p).parties ∧ (∀ w ∈ (u.ctr p).waiters, ∀ g, w.what ≠ .release g) ∧
      u.sync.due.contains p = false ∧ u.ctr q = s.ctr q ∧ u.mgr = s.mgr ∧ u.field = s.field)) ∧
  -- what a pair's realignment leaves
  (∀ (s : State) (i a b : Nat),
    a ≠ b →
    let m := min (s.ctr a).value (s.ctr b).value
    ((s.realignPair none i (a, b)).ctr a).value = (s.ctr a).value - m ∧
      ((s.realignPair none i (a, b)).ctr b).value = (s.ctr b).value - m)

/-- After a rise no waiter that could go on still waits. Examining the waiters in the order their waits arrived, each
satisfied WAIT_SUB subtracting before the next is examined: the value never rises, every waiter left in place is one
that was there, in the same order, and none that is left is satisfied by the value it leaves. (R375, R377) -/
def Obligations.WaitersAreServedInOrder : Prop :=
  ∀ (now : Nat) (ws : List Waiter) (c : Counter), let t := wakeWaiters now ws c
    t.2.value ≤ c.value ∧ t.1.Sublist ws ∧ t.2.barrier = c.barrier ∧ t.2.owner = c.owner ∧
    ∀ w ∈ t.1, match w.what with
      | .ge v => t.2.value < v
      | .sub n => t.2.value < n
      | .release _ => True

/-- Tile event counters, range markers, the trace area and its records. CLEAR zeroes the 8 counts and keeps overflow bits
and selectors; a selector takes an event code up to 0x10 and a greater code is refused; a 32-bit read of LO returns it
and latches HI. BEGIN raises the depth to at most 16 and is traced, with DEPTH_OVERFLOW at 16; END lowers it and is
traced, with UNMATCHED at 0; INSTANT is traced at the depth as it is. A tile's state is what was last set and the
other tiles keep theirs. Enabling the trace reserves its area from free bulk pages, or records TRACE_NO_MEMORY with
ENABLE left at 0 when too few are free; disabling stops it and keeps the area; releasing frees it. While it is on, a
write changes ENABLE and SOURCES only. A size outside the range is refused. A record of a type that is off changes
nothing; with the trace stopped it is counted as lost; else it goes to the write index with the next event number.
Where the area lies is the device's choice. (R388, R389, R390, R391, R392, R393, R394, R395, R396, R401, R402) -/
def Obligations.ObservationCountersMarkersAndTrace : Prop :=
  -- TIL_EVT_CLEAR
  (∀ (s : State) (t : Nat),
    s.regionActive (t / 32) = true →
    exec (.tilEvtClear t) s = .next (s.setTile t { s.tile t with evtCnt := [0, 0, 0, 0, 0, 0, 0, 0] })) ∧
  -- the tile windows of a region that is not there
  (∀ (s : State) (b : BusPath) (t n : Nat) (v : Word),
    s.regionActive (t / 32) = false →
    n < 8 →
    let at_ := fun off => s.log 0x0103 tilBase (tilBase + t * 0x8000 + off)
    exec (.tilEvtClear t) s = .next (at_ 0x100) ∧ exec (.tilEvtSelWrite t n v) s = .next (at_ (0x110 + 4 * n)) ∧
    exec (.tilEvtCntLoRead b t n) s = .next ((at_ (0x140 + 8 * n)).emit (.readData b (tilBase + t * 0x8000 + 0x140 + 8 * n) [0])) ∧
    exec (.tilResetMac t) s = .next (at_ 8) ∧ exec (.tilResetVec t) s = .next (at_ 8) ∧ exec (.tilResetDma t) s = .next (at_ 8) ∧
    exec (.tilResetCore t) s = .next (at_ 8) ∧ exec (.tilResetSync t) s = .next (at_ 8) ∧ exec (.tilResetObs t) s = .next (at_ 8) ∧
    exec (.tilResetStore t) s = .next (at_ 8) ∧ exec (.tilResetRouter t) s = .next (at_ 8)) ∧
  -- what setting a tile's state changes
  (∀ (s : State) (t u : Nat) (x : TileState),
    u ≠ t →
    (s.setTile t x).tile t = x ∧ (s.setTile t x).tile u = s.tile u ∧ (s.setTile t x).field.tileMem = s.field.tileMem ∧
    (s.setTile t x).mgr = s.mgr ∧ (s.setTile t x).sync = s.sync) ∧
  -- TIL_EVT_SEL_WRITE
  (∀ (s : State) (t n : Nat) (v : Word),
    n < 8 →
    s.regionActive (t / 32) = true →
    (fld v 0 8 ≤ 0x10 → exec (.tilEvtSelWrite t n v) s =
      .next (s.setTile t { s.tile t with evtSel := modAt (s.tile t).evtSel n (fun _ => fld v 0 8) })) ∧
    (0x10 < fld v 0 8 → exec (.tilEvtSelWrite t n v) s =
      .next (s.log 0x0101 tilBase (tilBase + t * 0x8000 + 0x110 + 4 * n) (fld v 0 8)))) ∧
  -- TIL_EVT_CNT_LO_READ
  (∀ (s : State) (b : BusPath) (t n : Nat),
    s.regionActive (t / 32) = true →
    let v := (s.tile t).evtCnt.getD n 0
    exec (.tilEvtCntLoRead b t n) s = .next ((s.setTile t { s.tile t with hiLatch := some (n, v / 2 ^ 32) }).emit
      (.readData b (tilBase + t * 0x8000 + 0x140 + 8 * n) [BitVec.ofNat 32 v]))) ∧
  -- MARK_BEGIN, MARK_END and MARK_INSTANT of a tile
  (∀ (s : State) (slot t id user p : Nat) (r : Run),
    s.runAt slot = some r →
    r.state = .running →
    r.physTile t = some p →
    let d := (s.tile p).depth
    exec (.markBegin (.tile slot t) id user) s = .next ((s.setTile p { s.tile p with depth := if d ≥ 16 then 16 else d + 1 }).trace
        1 0 (0x1000 + p) slot (if d ≥ 16 then 1 else 0) (if d ≥ 16 then 16 else d + 1) (id + user * 2 ^ 32)) ∧
      exec (.markEnd (.tile slot t) id user) s = .next ((s.setTile p { s.tile p with depth := d - 1 }).trace
        2 0 (0x1000 + p) slot (if d = 0 then 2 else 0) (d - 1) (id + user * 2 ^ 32)) ∧
      exec (.markInstant (.tile slot t) id user) s = .next (s.trace 3 0 (0x1000 + p) slot 0 d (id + user * 2 ^ 32))) ∧
  -- MARK_BEGIN, MARK_END and MARK_INSTANT of software
  (∀ (s : State) (b : BusPath) (id user : Nat),
    let d := s.obs.depth
    let src := 0x7000 + (match b with | .sideband => 1 | _ => 0)
    exec (.markBegin (.software b) id user) s = .next (State.trace { s with obs := { s.obs with depth := if d ≥ 16 then 16 else d + 1 } }
        1 0 src 0xFF (if d ≥ 16 then 1 else 0) (if d ≥ 16 then 16 else d + 1) (id + user * 2 ^ 32)) ∧
      exec (.markEnd (.software b) id user) s = .next (State.trace { s with obs := { s.obs with depth := d - 1 } }
        2 0 src 0xFF (if d = 0 then 2 else 0) (d - 1) (id + user * 2 ^ 32)) ∧
      exec (.markInstant (.software b) id user) s = .next (s.trace 3 0 src 0xFF 0 d (id + user * 2 ^ 32))) ∧
  -- TRACE_ENABLE with room
  (∀ (s : State) (v : Word),
    s.regsWf = true →
    s.regFld obsBase 0 1 = 0 →
    26 ≤ fld v 8 6 ∧ fld v 8 6 ≤ 36 →
    2 ^ (fld v 8 6 - 21) ≤ s.mgr.bulkFree + s.obs.pages →
    Completes (.traceEnable v) s (fun u => u.obs.active = true ∧ u.obs.full = false ∧ u.obs.wrapped = false ∧ u.obs.wr = 0 ∧
      u.obs.pages = 2 ^ (fld v 8 6 - 21) ∧
      u.mgr = { s.mgr with bulkFree := s.mgr.bulkFree + s.obs.pages - 2 ^ (fld v 8 6 - 21) } ∧
      u.reg obsBase = packFields [(0, 1), (1, fld v 1 1), (8, fld v 8 6), (16, fld v 16 7)] ∧
      u.errlog = s.errlog ∧ u.out = s.out ∧ u.field = s.field ∧ u.sync = s.sync)) ∧
  -- TRACE_ENABLE without room
  (∀ (s : State) (v : Word),
    s.regFld obsBase 0 1 = 0 →
    26 ≤ fld v 8 6 ∧ fld v 8 6 ≤ 36 →
    s.mgr.bulkFree + s.obs.pages < 2 ^ (fld v 8 6 - 21) →
    exec (.traceEnable v) s = .next (s.log 0x0B06 obsBase)) ∧
  -- TRACE_DISABLE
  (∀ (s : State) (v : Word),
    s.regsWf = true →
    s.regFld obsBase 0 1 = 1 →
    26 ≤ fld v 8 6 ∧ fld v 8 6 ≤ 36 →
    Completes (.traceDisable v) s (fun u => u.obs = { s.obs with active := false } ∧ u.mgr = s.mgr ∧
      u.reg obsBase = setFld (setFld (s.reg obsBase) 16 7 (fld v 16 7)) 0 1 0 ∧ u.errlog = s.errlog ∧ u.out = s.out)) ∧
  -- TRACE_RELEASE
  (∀ (s : State) (v : Word),
    s.regFld obsBase 0 1 = 0 →
    26 ≤ fld v 8 6 ∧ fld v 8 6 ≤ 36 →
    Completes (.traceRelease v) s (fun u => u.mgr = { s.mgr with bulkFree := s.mgr.bulkFree + s.obs.pages } ∧
      u.obs = { s.obs with pages := 0, mem := [], active := false, base := 0 } ∧ u.errlog = s.errlog)) ∧
  -- a size outside the range
  (∀ (s : State) (v : Word),
    fld v 8 6 < 26 ∨ 36 < fld v 8 6 →
    exec (.traceEnable v) s = .next (s.log 0x0101 obsBase obsBase (setFld v 0 1 1).toNat)) ∧
  -- a record of an enabled type while the trace runs
  (∀ (s : State) (ty bit src run fl a0 a1 : Nat),
    s.regFld obsBase (16 + bit) 1 = 1 →
    s.obs.pages ≠ 0 →
    s.obs.active = true →
    s.obs.lostSince = 0 →
    s.trace ty bit src run fl a0 a1 =
      s.issueSeq.2.traceWrite (s.issueSeq.2.traceBytes s.issueSeq.1 ty src run fl a0 a1))

/-- Soft resets of a tile's units, and what a run's end leaves. Each unit's reset clears the state that unit holds:
accumulators, the DMA queue, the sync port's waits (counter values are kept), event counters, overflow bits and marker
depth (selectors are kept), the tile store; vector registers, core and router hold nothing this state names. On a tile
that a run holds, the reset is recorded with 0x0105 and the run ends with 0x090B, DETAIL 2, at its logical tile. A run
that ends this way is ENDING with that status, keeps its regions, and has no operation left. (R32, R333, R360, R371) -/
def Obligations.TileUnitResets : Prop :=
  -- the eight TIL_RESET_* commands on idle units
  (∀ (s : State) (t : Nat),
    s.regionActive (t / 32) = true →
    (∀ x ∈ s.rst.tiles, x.1 ≠ t) →
    (s.tile t).dma = [] →
    s.sync.ctrs.all (fun x => x.2.waiters.all (fun w => w.who != 0x1000 + t)) = true →
    exec (.tilResetMac t) s = .next ((s.setTile t { s.tile t with acc0 := [], acc1 := [], accNext1 := false }).tileUnitReset t) ∧
    exec (.tilResetDma t) s = .next ((s.setTile t { s.tile t with dma := [] }).tileUnitReset t) ∧
    exec (.tilResetObs t) s = .next ((s.setTile t { s.tile t with
      evtCnt := [0, 0, 0, 0, 0, 0, 0, 0], evtOvf := 0, depth := 0 }).tileUnitReset t) ∧
    exec (.tilResetVec t) s = .next (s.tileUnitReset t) ∧ exec (.tilResetCore t) s = .next (s.tileUnitReset t) ∧
    exec (.tilResetRouter t) s = .next (s.tileUnitReset t) ∧
    exec (.tilResetSync t) s = .next (State.tileUnitReset { s with sync := { s.sync with ctrs := s.sync.ctrs.map (fun x =>
      (x.1, { x.2 with waiters := x.2.waiters.filter (fun w => w.who != 0x1000 + t) })) } } t) ∧
    exec (.tilResetStore t) s = .next (State.tileUnitReset { s with field := { s.field with
        tileMem := memZero s.field.tileMem (t * 2 ^ 20) ((t + 1) * 2 ^ 20) } } t)) ∧
  -- TIL_RESET_DMA and TIL_RESET_SYNC of a unit at work
  (∀ (s : State) (t : Nat),
    s.regionActive (t / 32) = true →
    (∀ x ∈ s.rst.tiles, x.1 ≠ t) →
    ((s.tile t).dma ≠ [] → exec (.tilResetDma t) s = .next { s with rst := { s.rst with tiles := s.rst.tiles ++ [(t, 2, s.now)] } }) ∧
    (s.sync.ctrs.all (fun x => x.2.waiters.all (fun w => w.who != 0x1000 + t)) = false →
      exec (.tilResetSync t) s = .next { s with rst := { s.rst with tiles := s.rst.tiles ++ [(t, 4, s.now)] } })) ∧
  -- the reset of a unit ends
  (∀ (s : State) (t b a : Nat),
    s.tileUnitEnd t b = ((State.tileUnitClear { s with rst := { s.rst with
      tiles := s.rst.tiles.filter (fun x => !(x.1 == t && x.2.1 == b)) } } t b).tileUnitReset t) ∧
    memGet (memZero s.field.tileMem (t * 2 ^ 20) ((t + 1) * 2 ^ 20)) a =
        (if t * 2 ^ 20 ≤ a ∧ a < (t + 1) * 2 ^ 20 then 0 else memGet s.field.tileMem a)) ∧
  -- a reset on a tile that no run holds, and on one that a run holds
  (∀ (s : State) (t : Nat),
    (s.runOfRegion (t / 32) = none → s.tileUnitReset t = s) ∧
    (∀ r, s.runOfRegion (t / 32) = some r → s.tileUnitReset t =
      (s.log 0x0105 tilBase t).endRun r.slot 0x090B 2 (r.regions.idxOf (t / 32) * 32 + t % 32))) ∧
  -- what a run becomes that ends
  (∀ (s : State) (slot d t va : Nat) (st : Status) (r : Run) (k : Nat),
    s.runAt slot = some r →
    r.state ≠ .free ∧ r.state ≠ .ending →
    r.stage = none →
    k ≠ slot →
    let u := s.endRun slot st d t va
    u.runAt slot = some { r with
        state := .ending, status := st, detail := d, tile := t, faultVaddr := va, susp := [], filling := [], flush := none,
        resumeQueued := false, order := 0 } ∧
      u.runAt k = s.runAt k ∧ u.field = s.field ∧ u.sync = s.sync)

/-- Faults of tiles, regions and routers. A tile fault ends the run that holds the tile with 0x090B, DETAIL 1 for parity
and 3 for no progress, and the tile shows FAULTED; on a tile no run holds nothing changes. A region fault isolates the
region and ends its run with 0x090C, DETAIL 1 PLL, 2 island, 3 store; a PLL fault also clears its lock bit. A router's
parity fault records the router, isolates its region with DETAIL 4, is logged, and ends the runs without a route.
(R32, R34, R36, R360) -/
def Obligations.TileRegionAndRouterFaults : Prop :=
  -- TILE_FAULT
  (∀ (s : State) (t : Nat) (np : Bool) (r : Run),
    s.runOfRegion (t / 32) = some r →
    exec (.tileFault t np) s = .next ((s.setTile t { s.tile t with faulted := true }).endRun r.slot 0x090B (if np then 3 else 1)
      (r.regions.idxOf (t / 32) * 32 + t % 32))) ∧
  -- TILE_FAULT with no run
  (∀ (s : State) (t : Nat) (np : Bool),
    s.runOfRegion (t / 32) = none →
    exec (.tileFault t np) s = .next s) ∧
  -- REGION_FAULT of a region that a run holds
  (∀ (s : State) (g : Nat) (r : Run),
    s.regionActive g = true →
    s.runOfRegion g = some r →
    s.rst.region ≠ some g →
    exec (.regionFault g .pll) s = .next (s.isolateRegion g 1) ∧
      exec (.regionFault g .island) s = .next (s.isolateRegion g 2) ∧ exec (.regionFault g .store) s = .next (s.isolateRegion g 3)) ∧
  -- REGION_FAULT of an active region without a run
  (∀ (s : State) (g : Nat),
    s.regionActive g = true →
    s.runOfRegion g = none →
    s.rst.region ≠ some g →
    exec (.regionFault g .island) s = .next ((s.log 0x090C stkBase g 0 0 2).isolateRegion g 2)) ∧
  -- REGION_FAULT of a region that is being reset
  (∀ (s : State) (g : Nat),
    s.regionActive g = true →
    s.runOfRegion g = none →
    s.rst.region = some g →
    exec (.regionFault g .store) s = .next ((State.log { s with rst := { s.rst with regionFault := some 3 } } 0x090C stkBase g 0 0 3).isolateRegion g 3)) ∧
  -- what isolating a region does
  (∀ (s : State) (g d : Nat),
    let u : State := { s with mgr := { s.mgr with
      isolated := if s.mgr.isolated.contains g then s.mgr.isolated else s.mgr.isolated ++ [g] } }
    let off := fun (x : State) =>
      let y := x.zeroRegion g
      { y with power := { y.power with
        doze := setBit y.power.doze g true, pllLock := setBit y.power.pllLock g false, waking := setBit y.power.waking g false } }
    (s.runOfRegion g = none → s.isolateRegion g d = off u) ∧
    (∀ r, s.runOfRegion g = some r → s.isolateRegion g d = off (u.endRun r.slot 0x090C d)) ∧
    u.mgr.isolated.contains g = true) ∧
  -- ROUTER_PARITY_FAULT
  (∀ (s : State) (t : Nat) (flows : List (Nat × Nat × Nat)),
    s.regionActive (t / 32) = true →
    let u : State := { s with mgr := { s.mgr with
      routers := if s.mgr.routers.contains t then s.mgr.routers else s.mgr.routers ++ [t] } }
    exec (.routerParityFault t flows) s = .next (flows.foldl (fun x f => x.moveFlow f)
      ((u.log 0x090C stkBase (t / 32) t 0 4).isolateRegion (t / 32) 4))) ∧
  -- a flow after a router's fault
  (∀ (s : State) (f : Nat × Nat × Nat) (r : Run),
    s.runAt f.1 = some r →
    r.regions.contains (f.2.1 / 32) = true →
    (s.routeClear (xyRoute f.2.1 f.2.2) = true → s.moveFlow f = s) ∧
    (s.routeClear (xyRoute f.2.1 f.2.2) = false → s.routeClear (yxRoute f.2.1 f.2.2) = true →
      (s.moveFlow f).mgr.yxFlows.contains f.2 = true ∧ (s.moveFlow f).runAt f.1 = some r) ∧
    (s.routeClear (xyRoute f.2.1 f.2.2) = false → s.routeClear (yxRoute f.2.1 f.2.2) = false →
      s.moveFlow f = s.endRun f.1 0x090C 4)) ∧
  -- the two routes between two tiles, and where a tile lies
  (∀ (a b : Nat),
    a < 1536 →
    b < 1536 →
    a ∈ xyRoute a b ∧ b ∈ xyRoute a b ∧ a ∈ yxRoute a b ∧ b ∈ yxRoute a b ∧ tileAt (meshCol a) (meshRow a) = a ∧
    meshCol a < 32 ∧ meshRow a < 48)

/-- Dense and 2:4 sparse matrix operations on one output tile. With operands in order, a dense operation stores the output
tile of A × B + C_in in the output format, drains the accumulators, and counts the chunk steps done and skipped; a
sparse one leaves the positions its metadata does not name out of the products. An unknown format or pairing, an MX
row not of whole blocks, and an invalid metadata nibble end the run with 0x090D. An access that faults ends the run; a
page not resident suspends the operation. (R286, R290, R300, R301, R303, R304, R308, R309, R310) -/
def Obligations.MatrixOperationsOnTiles : Prop :=
  -- MATRIX_OP
  (∀ (s : State) (slot t : Nat) (o : MatrixOp) (r : Run) (ka kb ko : ElemKind),
    s.tileReady slot t = some r →
    matShape o = true →
    matFault o = none →
    elemKind o.fmtA = some ka ∧ elemKind o.fmtB = some kb ∧ elemKind o.fmtOut = some ko →
    r.firstBad (matSpans o ka kb ko) = .ok →
    let ta := s.tensorAt r ka o.a (o.m * o.k)
    let tb := s.tensorAt r kb o.b (o.n * o.k)
    let chunks := (o.k + 31) / 32
    let skipped := chunkSkips ((List.range o.m).map (matRow ka ta o.k)) ((List.range o.n).map (matRow kb tb o.k)) chunks
    exec (.matrixOp slot t o) s = .next (State.touchSpans (s.matStore r t { o with meta24 := none } ko
      (matValues { o with meta24 := none } ka kb ta tb (s.matCin r o)) (chunks - skipped) skipped) r.slot (matSpans o ka kb ko))) ∧
  -- MATRIX_OP of formats that do not pair
  (∀ (s : State) (slot t d : Nat) (o : MatrixOp) (r : Run),
    s.tileReady slot t = some r →
    matShape o = true →
    matFault o = some d →
    exec (.matrixOp slot t o) s = .next (s.endRun r.slot 0x090D d (if t < 0x8000 then t else 0xFFFF))) ∧
  -- when formats do not pair, or a row is not of whole MX blocks
  (∀ (o : MatrixOp),
    (matrixPair o.fmtA o.fmtB = false → matFault o = some 3) ∧
    (∀ ka kb ko, arith o.fmtA = some ka → arith o.fmtB = some kb → arith o.fmtOut = some ko →
      matrixPair o.fmtA o.fmtB = true → ko.isMx = false → o.c = none →
      (matFault o = some 4 ↔ ((ka.isMx = true ∨ kb.isMx = true) ∧ o.k % 32 ≠ 0))) ∧
    (∀ va f, o.c = some (va, f) → arith f = none → matCinFault o = some 3)) ∧
  -- SPARSE_MATRIX_OP
  (∀ (s : State) (slot t md : Nat) (o : MatrixOp) (r : Run) (ka kb ko : ElemKind),
    s.tileReady slot t = some r →
    matShape o = true →
    matFault o = none →
    elemKind o.fmtA = some ka ∧ elemKind o.fmtB = some kb ∧ elemKind o.fmtOut = some ko →
    o.k % 4 = 0 →
    r.firstBad (sparseSpans o md ka kb ko) = .ok →
    let bb := s.vRead r o.b (if kb.isMx then scaleOffset kb (o.n * (o.k / 2)) + o.n * (o.k / 32) else elemBytes kb (o.n * (o.k / 2)))
    let mm := s.vRead r md ((o.n * (o.k / 4) + 1) / 2)
    let rows := (List.range o.n).map (sparseRowOf kb bb mm o.n o.k)
    let ta := s.tensorAt r ka o.a (o.m * o.k)
    let cin := s.matCin r o
    let chunks := (o.k + 31) / 32
    let skipped := sparseSkips ((List.range o.m).map (matRow ka ta o.k)) (rows.filterMap id) chunks
    (rows.any Option.isNone = true →
      exec (.sparseMatrixOp slot t o md) s =
        .next ((s.endRun r.slot 0x090D 1 (if t < 0x8000 then t else 0xFFFF)).touchSpans r.slot (sparseSpans o md ka kb ko))) ∧
    (rows.any Option.isNone = false →
      exec (.sparseMatrixOp slot t o md) s = .next (State.touchSpans (s.matStore r t { o with meta24 := some md } ko
        ((List.range (o.m * o.n)).map (fun x => match rows.getD (x % o.n) none with
          | some (b, sb) => sparseElement o.fmtA (cin.getD x Machine.Num.zero) (matRow ka ta o.k (x / o.n)) b sb chunks
          | none => Machine.Num.zero)) (chunks - skipped) skipped) r.slot (sparseSpans o md ka kb ko)))) ∧
  -- the ranges that an operation accesses, marked when it runs
  (∀ (s : State) (r : Run) (src : Nat) (op : TileOp) (sp : List Span) (go : State),
    r.firstBad sp = .ok →
    s.access r src op sp go = go.touchSpans r.slot sp ∧
    (∀ k, k ≠ r.slot → (go.touchSpans r.slot sp).runAt k = go.runAt k) ∧ (go.touchSpans r.slot sp).field = go.field ∧
    (go.touchSpans r.slot sp).sync = go.sync ∧ (go.touchSpans r.slot sp).hostMem = go.hostMem) ∧
  -- an access that cannot be made
  (∀ (s : State) (r : Run) (src : Nat) (op : TileOp) (sp : List Span) (go : State),
    (∀ st va, r.firstBad sp = .fault st va →
      s.access r src op sp go = s.endRun r.slot st 0 (if src < 0x8000 then src else 0xFFFF) va) ∧
    (∀ p, r.firstBad sp = .fill p → s.access r src op sp go = s.suspendFill r.slot src op p) ∧
    (∀ va, r.firstBad sp = .hostFail va →
      s.access r src op sp go = s.holdRun r.slot 0x0A09 { source := src, op := op, vaddr := va }))

/-- Integer accumulation wraps modulo 2^32 in any order. The output element of an S8 operation lies in the range of S32,
is congruent to C_in plus the sum of the products modulo 2^32, and is the same for every order of the products. (R303,
R305) -/
def Obligations.IntegerProductsDoNotDependOnOrder : Prop :=
  ∀ (c : Int) (l l' : List (Machine.Num × Machine.Num)),
    (l.Perm l' → matElementS8 c (l.map (·.1)) (l.map (·.2)) = matElementS8 c (l'.map (·.1)) (l'.map (·.2))) ∧
    -(2 : Int) ^ 31 ≤ matElementS8 c (l.map (·.1)) (l.map (·.2)) ∧
    matElementS8 c (l.map (·.1)) (l.map (·.2)) < (2 : Int) ^ 31 ∧
    (matElementS8 c (l.map (·.1)) (l.map (·.2)) - (c + (l.map (fun x => rneInt (x.1.mul x.2))).sum)) % (2 : Int) ^ 32 = 0

/-- Converting a value that a format holds gives its code back. For FP32, FP16, BF16, E4M3, E5M2 and the MX element
formats, every code that is neither NaN nor infinity converts, in either rounding mode and with SAT 0 or 1, to itself,
sign of zero and subnormals included; NaN converts to the canonical NaN. (R292, R295, R296) -/
def Obligations.FloatCodesConvertToThemselves : Prop :=
  ∀ f ∈ [fmtFp32, fmtFp16, fmtBf16, fmtE4m3, fmtE5m2, fmtE3m2, fmtE2m3, fmtE2m1],
    ∀ (c : Nat) (mode : RoundMode) (sat : Bool), c < 2 ^ (1 + f.expBits + f.man) →
      (f.decode c).isNan = false → (f.decode c).isInf = false →
      f.convert mode sat (f.decode c) = c ∧ f.convert mode sat .nan = f.nanBits

/-- Elementwise operations, reductions, special functions, conversion, routing and watch. With operands in order each
stores its result at its output address and counts its events: elementwise results in FP32 with one rounding, or in
integers; the reduction of 64 lanes and a binary tree; the special functions; the conversion with the rounding the
operation names; the routing tables; the weighted combination in rank order; the watch record, with a WATCH trace
record. The score shown for an absent choice is a free value. An unknown format ends the run with 0x090D, DETAIL 3.
(R290, R296, R299, R305, R306, R307, R311, R312, R313, R397, R398) -/
def Obligations.VectorUnitOperations : Prop :=
  -- VECTOR_OP on FP32
  (∀ (s : State) (slot t : Nat) (o : VectorOp) (r : Run),
    s.tileReady slot t = some r →
    o.fmtX = 0x10 ∧ o.fmtY = 0x10 ∧ o.fmtZ = 0x10 ∧ o.fmtOut = 0x10 →
    r.firstBad (vecSpans o (.float fmtFp32) (.float fmtFp32) (.float fmtFp32) (.float fmtFp32)) = .ok →
    let xs := (s.tensorAt r (.float fmtFp32) o.x o.n).vals
    let ys := (s.tensorAt r (.float fmtFp32) o.y o.n).vals
    let zs := if o.kind == VecKind.fma then (s.tensorAt r (.float fmtFp32) o.z o.n).vals else []
    let vs := (List.range o.n).map (fun i =>
      vecFloat o.kind (rne32 (xs.getD i Machine.Num.zero)) (rne32 (ys.getD i Machine.Num.zero)) (rne32 (zs.getD i Machine.Num.zero)))
    exec (.vectorOp slot t o) s = .next ((s.putTensor r t (.float fmtFp32) (r.rounding o.rnd) o.sat o.idxBase o.out vs).touchSpans r.slot
      (vecSpans o (.float fmtFp32) (.float fmtFp32) (.float fmtFp32) (.float fmtFp32)))) ∧
  -- storing an output tensor
  (∀ (s : State) (r : Run) (t : Nat) (k : ElemKind) (rnd : Rounding) (sat : Bool) (base va : Nat) (vs : List Machine.Num),
    let b := writeTensor k rnd sat base vs
    s.putTensor r t k rnd sat base va vs = ((s.tileEvent r t 5 1).tileEvent r t 0x10
      ((readTensor k b vs.length).vals.filter Machine.Num.isNan).length).vWrite r.slot va b) ∧
  -- VECTOR_OP of any formats
  (∀ (s : State) (slot t : Nat) (o : VectorOp) (r : Run) (kx ky kz ko : ElemKind),
    s.tileReady slot t = some r →
    arith o.fmtX = some kx ∧ arith o.fmtY = some ky ∧ arith (if o.kind == VecKind.fma then o.fmtZ else o.fmtX) = some kz ∧
      arith o.fmtOut = some ko →
    [kx, ky, kz, ko].all (fun k => mxDimOk k o.n) = true →
    r.firstBad (vecSpans o kx ky kz ko) = .ok →
    Completes (.vectorOp slot t o) s (fun u => ∃ vs : List Machine.Num, vs.length = o.n ∧
      u = (s.putTensor r t ko (r.rounding o.rnd) o.sat o.idxBase o.out vs).touchSpans r.slot (vecSpans o kx ky kz ko) ∧
      ∀ i < o.n, ∀ b sg b' sg' b'' sg'', kx = .int b sg → ky = .int b' sg' → kz = .int b'' sg'' →
        vs.getD i Machine.Num.zero = .ofInt (vecInt o.kind sg o.sat
          (rneInt ((s.tensorAt r kx o.x o.n).vals.getD i Machine.Num.zero)) (rneInt ((s.tensorAt r ky o.y o.n).vals.getD i Machine.Num.zero))
          (rneInt ((if o.kind == VecKind.fma then (s.tensorAt r kz o.z o.n).vals else []).getD i Machine.Num.zero))))) ∧
  -- VECTOR_REDUCE
  (∀ (s : State) (slot t : Nat) (o : ReduceOp) (r : Run) (k : ElemKind),
    s.tileReady slot t = some r →
    arith o.fmt = some k →
    mxDimOk k o.n = true →
    r.firstBad [(false, o.src, tensorBytes k o.n), (true, o.out, 4)] = .ok →
    let v := reduceValue o k (s.tensorAt r k o.src o.n).vals
    exec (.vectorReduce slot t o) s = .next (State.touchSpans (((s.tileEvent r t 5 1).tileEvent r t 0x10 (bitOf v.isNan)).vWrite r.slot o.out
      (leBytes 4 (match k with | .int _ _ => ((rneInt v) % (2 : Int) ^ 32).toNat | _ => f32 v))) r.slot
      [(false, o.src, tensorBytes k o.n), (true, o.out, 4)])) ∧
  -- SPECIAL_FUNCTION
  (∀ (s : State) (slot t : Nat) (o : SpecialOp) (r : Run),
    s.tileReady slot t = some r →
    r.firstBad (specialSpans o) = .ok →
    let xs := (s.tensorAt r (.float fmtFp32) o.src o.n).vals
    let ys := if o.fn == SpecialFn.div then (s.tensorAt r (.float fmtFp32) o.src2 o.n).vals else []
    let vs := (List.range o.n).map (fun i => specialFn o.fn (xs.getD i Machine.Num.zero) (ys.getD i Machine.Num.zero))
    exec (.specialFunction slot t o) s = .next (((s.tileEvent r t 6 o.n).putTensor r t (.float fmtFp32) .rne false 0 o.out vs).touchSpans
      r.slot (specialSpans o))) ∧
  -- QUANTISE
  (∀ (s : State) (slot t : Nat) (o : QuantOp) (r : Run) (ki ko : ElemKind),
    s.tileReady slot t = some r →
    arith o.fmtIn = some ki ∧ arith o.fmtOut = some ko →
    mxDimOk ki o.inner = true ∧ mxDimOk ko o.inner = true ∧ mxDimOk ki o.n = true ∧ mxDimOk ko o.n = true →
    r.firstBad [(false, o.src, tensorBytes ki o.n), (true, o.out, tensorBytes ko o.n)] = .ok →
    exec (.quantise slot t o) s = .next ((s.putTensor r t ko (r.rounding o.rnd) o.sat o.idxBase o.out
      (s.tensorAt r ki o.src o.n).vals).touchSpans r.slot [(false, o.src, tensorBytes ki o.n), (true, o.out, tensorBytes ko o.n)])) ∧
  -- an unknown format
  (∀ (s : State) (slot t : Nat) (o : QuantOp) (r : Run),
    s.tileReady slot t = some r →
    arith o.fmtIn = none ∨ arith o.fmtOut = none →
    exec (.quantise slot t o) s = .next (s.endRun r.slot 0x090D 3 (if t < 0x8000 then t else 0xFFFF))) ∧
  -- ROUTE
  (∀ (s : State) (slot t : Nat) (o : RouteOp) (r : Run),
    s.tileReady slot t = some r →
    1 ≤ o.e ∧ o.e ≤ 256 ∧ 1 ≤ o.k ∧ o.k ≤ min 8 o.e ∧ 1 ≤ o.c ∧ o.c ≤ 65536 →
    r.firstBad (routeSpans o) = .ok →
    Completes (.route slot t o) s (fun u => ∃ score p, p = placeRows o.c ((List.range o.n).map (fun i => rowChoices o.k (f32val o.tau.toNat)
        ((((s.tensorAt r (.float fmtFp32) o.g (o.n * o.e)).vals).drop (i * o.e)).take o.e))) 0 (List.replicate o.e []) ∧
      u = State.touchSpans ((((List.range o.e).foldl (fun x e => x.vWrite r.slot (o.rows + 4 * o.c * e) ((p.2.1.getD e []).flatMap (leBytes 4)))
        ((s.takeFree.2.tileEvent r t 5 1).vWrite r.slot o.counts (p.2.1.flatMap (fun l => leBytes 4 l.length)))).vWrite r.slot o.choices
          (p.1.flatMap (fun cs => (List.range o.k).flatMap (fun i => choiceBytes score cs[i]?)))).vWrite r.slot o.dropped
            (leBytes 4 p.2.2)) r.slot (routeSpans o))) ∧
  -- COMBINE
  (∀ (s : State) (slot t : Nat) (o : CombineOp) (r : Run),
    s.tileReady slot t = some r →
    r.firstBad (s.combineSpans r o) = .ok →
    Completes (.combine slot t o) s (fun u => ∃ vs : List Machine.Num, vs.length = o.n * o.d ∧
      (∀ x < o.n * o.d, vs.getD x Machine.Num.zero = combineElem
        ((readChoices (s.vRead r o.choices (12 * o.n * o.k)) o.k (x / o.d)).map (fun c =>
          ((match o.w with
            | some w => f32val (leNat (s.vRead r (w + 4 * (x / o.d * o.k + c.1)) 4))
            | none => c.2.2.2),
           f32val (leNat (s.vRead r (o.y + 4 * ((c.2.1 * o.c + c.2.2.1) * o.d + x % o.d)) 4)))))) ∧
      u = (s.putTensor r t (.float fmtFp32) .rne false 0 o.out vs).touchSpans r.slot (s.combineSpans r o))) ∧
  -- WATCH
  (∀ (s : State) (slot t : Nat) (o : WatchOp) (r : Run) (k : ElemKind),
    s.tileReady slot t = some r →
    arith o.fmt = some k →
    mxDimOk k o.n = true →
    r.firstBad [(false, o.src, tensorBytes k o.n), (true, o.out, 64)] = .ok →
    let b := s.vRead r o.src (tensorBytes k o.n)
    let w := watchRecord o.id o.fmt (readTensor k b o.n).vals (watchCodes k b o.n)
    exec (.watch slot t o) s = .next ((((s.tileEvent r t 0xF o.n).vWrite r.slot o.out w.1).trace 8 5
      (0x1000 + (r.physTile t).getD 0) r.slot 0 (o.id % 65536) w.2).touchSpans r.slot [(false, o.src, tensorBytes k o.n), (true, o.out, 64)]))

/-- Gathers, gradients, updates and write-back of embedding rows. A gather whose rows are all cached writes its pooled
rows and counts them; missing rows suspend it until each has been read. A row read that fails holds the run with
0x0A03. An index beyond the table ends the run with 0x090D, DETAIL 2, unless the table skips indices. Gradients are
collected per run; an apply updates the rows with gradients and consumes the table's. A flush notes the rows dirty at
its issue and, when they are acknowledged, leaves them clean and answers. (R317, R318, R319, R320, R321, R322, R324,
R356) -/
def Obligations.EmbeddingTables : Prop :=
  -- EMB_GATHER with an index beyond the table, no skipping
  (∀ (s : State) (slot e : Nat) (o : GatherOp) (r : Run) (t : EmbTable) (ko : ElemKind),
    s.engineReady slot e = some r →
    r.table o.table = some t →
    arith o.fmtOut = some ko →
    t.indexSkip = false →
    (s.gatherIndices r o).any (fun i => decide (i ≥ t.rows)) = true →
    r.firstBad (gatherSpans o t ko ((s.gatherOffsets r o).getLastD 0)) = .ok →
    exec (.embGather slot e o) s = .next ((s.endRun r.slot 0x090D 2 0xFFFF).touchSpans r.slot
      (gatherSpans o t ko ((s.gatherOffsets r o).getLastD 0)))) ∧
  -- EMB_GATHER whose rows are not all cached
  (∀ (s : State) (slot e : Nat) (o : GatherOp) (r : Run) (t : EmbTable) (ko : ElemKind),
    s.engineReady slot e = some r →
    r.table o.table = some t →
    arith o.fmtOut = some ko →
    ko.isMx = false →
    (s.gatherIndices r o).all (fun i => decide (i < t.rows)) = true →
    (s.gatherIndices r o).any (fun i => (r.cachedRow o.table i).isNone) = true →
    r.firstBad (gatherSpans o t ko ((s.gatherOffsets r o).getLastD 0)) = .ok →
    Completes (.embGather slot e o) s (fun u => ∃ rows : List (Nat × Nat), rows ≠ [] ∧
      (∀ x ∈ rows, x.1 = o.table ∧ x.2 < t.rows ∧ r.cachedRow o.table x.2 = none) ∧
      u = State.touchSpans ((s.suspendRows r.slot (0x8000 + e) (.gather o) rows).regionBump (r.engineRegion (0x8000 + e)) 1 rows.length)
        r.slot (gatherSpans o t ko ((s.gatherOffsets r o).getLastD 0)))) ∧
  -- EMB_GATHER of one SUM bag over one cached row
  (∀ (s : State) (slot e i : Nat) (o : GatherOp) (r : Run) (t : EmbTable) (x : CachedRow),
    s.engineReady slot e = some r →
    r.table o.table = some t →
    o.fmtOut = 0x10 ∧ o.mode = .sum ∧ o.weights = none ∧ o.bags = 1 →
    leNat (s.vRead r o.offsets 4) = 0 ∧ leNat (s.vRead r (o.offsets + 4) 4) = 1 ∧ leNat (s.vRead r o.indices 8) = i →
    i < t.rows ∧ r.cachedRow o.table i = some x →
    r.firstBad [(false, o.offsets, 8), (false, o.indices, 8), (true, o.out, 4 * t.dim)] = .ok →
    exec (.embGather slot e o) s = .next ((((((s.regionBump (r.engineRegion (0x8000 + e)) 0 ((t.stride + 255) / 256)).regionBump
      (r.engineRegion (0x8000 + e)) 2 0).rowInsert r.slot x)).vWrite r.slot o.out (writeTensor (.float fmtFp32) .rne o.sat 0
        ((List.range t.dim).map (fun d => rne32 (Machine.Num.zero.add ((t.values x.bytes).getD d Machine.Num.zero)))))).touchSpans r.slot
      [(false, o.offsets, 8), (false, o.indices, 8), (true, o.out, 4 * t.dim)])) ∧
  -- EMB_ROW_READ_DONE
  (∀ (s : State) (slot table row : Nat) (r : Run) (x : Susp) (t : EmbTable),
    s.runAt slot = some r →
    r.susp.find? (fun x => x.rows.contains (table, row)) = some x →
    r.table table = some t →
    exec (.embRowReadDone slot table row false) s = .next (s.holdRun slot 0x0A03 { x with vaddr := row }) ∧
    (s.nsReadable t.nsid (t.rowAt row) t.stride = true → exec (.embRowReadDone slot table row true) s = .next
      ((((s.countReconstructs t.nsid (t.rowAt row) t.stride).rowInsert slot
        { table := table, row := row, bytes := s.nsBytes t.nsid (t.rowAt row) t.stride, dirty := false }).updRun slot
          (fun r => { r with susp := r.susp.map (fun y => { y with rows := y.rows.filter (· != (table, row)) }) })).retryReady slot))) ∧
  -- EMB_GRAD
  (∀ (s : State) (slot e : Nat) (cs : List GradContribution) (r : Run),
    s.engineReady slot e = some r →
    (∀ c ∈ cs, ∃ t, r.table c.table = some t ∧ c.grad.length = t.dim) →
    exec (.embGrad slot e cs) s = .next (s.updRun slot (fun r => { r with grads := r.grads ++ cs }))) ∧
  -- EMB_APPLY, every row with a gradient cached
  (∀ (s : State) (slot e : Nat) (o : ApplyOp) (r : Run) (t : EmbTable),
    s.engineReady slot e = some r →
    r.table o.table = some t →
    t.optimiser ≠ 0 →
    (∀ c ∈ r.grads, c.table = o.table → c.row < t.rows ∧ (r.cachedRow o.table c.row).isSome = true) →
    exec (.embApply slot e o) s = .next (((((r.grads.filter (fun c => c.table == o.table)).map (·.row)).eraseDups.filter
        (fun x => decide (x < t.rows))).foldl (fun x row => x.applyRow r (r.engineRegion (0x8000 + e)) t o row) s).updRun r.slot
      (fun r => { r with grads := r.grads.filter (fun c => c.table != o.table) }))) ∧
  -- what an apply does to a row whose STEP equals the step
  (∀ (s : State) (r : Run) (g row : Nat) (t : EmbTable) (o : ApplyOp) (x : CachedRow),
    r.cachedRow t.number row = some x →
    leField x.bytes (t.stride - 4) 4 = o.step % 2 ^ 32 →
    s.applyRow r g t o row = s.regionBump g 3 1) ∧
  -- EMB_FLUSH
  (∀ (s : State) (slot : Nat) (r : Run),
    s.runAt slot = some r →
    r.state = .running ∧ r.flush = none →
    exec (.embFlush slot) s = .next (s.updRun slot (fun r => { r with
      flush := some ((r.rows.filter (·.dirty)).map (fun x => (x.table, x.row))) }))) ∧
  -- EMB_FLUSH_DONE
  (∀ (s : State) (slot : Nat) (r : Run) (rows : List (Nat × Nat)),
    s.runAt slot = some r →
    r.flush = some rows →
    exec (.embFlushDone slot) s = .next ((((r.rows.filter (fun x => x.dirty && rows.contains (x.table, x.row))).foldl
      (fun s x => s.rowWriteBack r x) s).updRun slot (fun r => { r with
        rows := r.rows.map (fun x => if x.dirty && rows.contains (x.table, x.row) then { x with dirty := false } else x),
        flush := none })).emit (.reply (.run slot) 0 0 [] [])))

/-- Loading a plate and unloading it. A load reads the plate from the command or from a namespace and answers with the
status of the first failing check; a refused load makes nothing resident. A plate whose digest is resident already is
accepted without a second copy; another accepted one becomes resident, its images with it. An unload is refused while
a run, a graph, a stream or a generation uses the plate, or when it is not resident, and then changes nothing;
otherwise the plate and its images leave. (R340, R341, R342) -/
def Obligations.PlatesLoadAndUnload : Prop :=
  -- the bytes of a plate
  (∀ (s : State) (nsid lba : Nat) (n : NsInfo),
    s.mediaGate = none →
    s.nsInfo nsid = some n →
    (∀ b : List Byte, s.plateBytes (.data b) = (0, b)) ∧
    (n.cap * 4 ≤ lba → s.plateBytes (.media nsid lba) = (0x0301, [])) ∧
    (lba < n.cap * 4 → s.nsReadable nsid (lba * 4096) 256 = false → s.plateBytes (.media nsid lba) = (0x0201, [])) ∧
    (lba < n.cap * 4 → s.nsReadable nsid (lba * 4096) 256 = true → ∀ len, len ≤ 2 ^ 32 →
      leField (s.nsBytes nsid (lba * 4096) 256) 0 4 = 0x504C4154 → leField (s.nsBytes nsid (lba * 4096) 256) 0x20 8 = len →
      ((lba + (len + 4095) / 4096 > n.cap * 4 → s.plateBytes (.media nsid lba) = (0x0301, [])) ∧
       (lba + (len + 4095) / 4096 ≤ n.cap * 4 → s.nsReadable nsid (lba * 4096) len = false → s.plateBytes (.media nsid lba) = (0x0201, [])) ∧
       (lba + (len + 4095) / 4096 ≤ n.cap * 4 → s.nsReadable nsid (lba * 4096) len = true →
         s.plateBytes (.media nsid lba) = (0, s.nsBytes nsid (lba * 4096) len))))) ∧
  -- LOAD_PLATE of a plate that cannot be read
  (∀ (s : State) (p : ReqPath) (src : PlateSource),
    (s.plateBytes src).1 ≠ 0 →
    exec (.loadPlate p src) s = .next (s.reply p (s.plateBytes src).1)) ∧
  -- LOAD_PLATE, the first checks
  (∀ (s : State) (p : ReqPath) (src : PlateSource) (b : List Byte),
    s.plateBytes src = (0, b) →
    (plateHeadOk b = false → exec (.loadPlate p src) s = .next (s.reply p 0x0901)) ∧
    (plateHeadOk b = true → s.plateTargetOk b = false → exec (.loadPlate p src) s = .next (s.reply p 0x0902)) ∧
    (plateHeadOk b = true → s.plateTargetOk b = true → s.plateSigOk b = false →
      exec (.loadPlate p src) s = .next (s.reply p 0x0903)) ∧
    (plateHeadOk b = true → s.plateTargetOk b = true → s.plateSigOk b = true → plateTableOk b = false →
      exec (.loadPlate p src) s = .next (s.reply p 0x0901))) ∧
  -- LOAD_PLATE past check 4
  (∀ (s : State) (p : ReqPath) (src : PlateSource) (b : List Byte),
    s.plateBytes src = (0, b) →
    plateHeadOk b = true →
    s.plateTargetOk b = true →
    s.plateSigOk b = true →
    plateTableOk b = true →
    ((s.plateAt (plateDigest b)).isSome = true → exec (.loadPlate p src) s = .next (s.reply p 0)) ∧
    ((s.plateAt (plateDigest b)).isSome = false → ∀ st, s.text.addImages (plateDigest b) (imageSects b) = .error st →
      exec (.loadPlate p src) s = .next (s.reply p st)) ∧
    ((s.plateAt (plateDigest b)).isSome = false → ∀ t, s.text.addImages (plateDigest b) (imageSects b) = .ok t →
      (match (plateOf b).graph with | some g => t.graphOk g | none => true) = false →
      exec (.loadPlate p src) s = .next (s.reply p 0x0601)) ∧
    ((s.plateAt (plateDigest b)).isSome = false → ∀ t, s.text.addImages (plateDigest b) (imageSects b) = .ok t →
      (match (plateOf b).graph with | some g => t.graphOk g | none => true) = true →
      (((plateOf b).refs.all (fun d => (s.plateAt d).isSome) = false → exec (.loadPlate p src) s = .next (s.reply p 0x0905)) ∧
       ((plateOf b).refs.all (fun d => (s.plateAt d).isSome) = true →
        (256 ≤ s.mgr.plates.length ∨ 2 ^ 35 < (s.mgr.plates.foldl (fun a x => a + x.length) 0) + b.length →
          exec (.loadPlate p src) s = .next (s.reply p 0x0904)) ∧
        (s.mgr.plates.length < 256 ∧ (s.mgr.plates.foldl (fun a x => a + x.length) 0) + b.length ≤ 2 ^ 35 →
          exec (.loadPlate p src) s = .next (State.reply { s with
            text := t, mgr := { s.mgr with plates := s.mgr.plates ++ [plateOf b] } } p 0)))))) ∧
  -- UNLOAD_PLATE
  (∀ (s : State) (p : ReqPath) (d : Nat),
    ((s.plateAt d).isNone = true → exec (.unloadPlate p d) s = .next (s.reply p 0x0905)) ∧
    ((s.plateAt d).isNone = false → s.plateInUse d = true → exec (.unloadPlate p d) s = .next (s.reply p 0x0906)) ∧
    ((s.plateAt d).isNone = false → s.plateInUse d = false → exec (.unloadPlate p d) s = .next (State.reply { s with
      mgr := { s.mgr with plates := s.mgr.plates.filter (fun x => x.digest != d) },
      text := { s.text with vocabs := s.text.vocabs.filter (fun v => v.plate != d),
                            grammars := s.text.grammars.filter (fun g => g.plate != d) } } p 0)) ∧
    ((∃ r ∈ s.mgr.runs, r.plate = d ∧ r.state ≠ .free) → s.plateInUse d = true))

/-- START's checks, the slot it takes, and queueing. A START is refused by the first failing check and then changes no
state but the answer. An accepted one takes the lowest free slot, its quotas and save area, and goes to STARTING on
the regions of its mask or the lowest-numbered free ones; with too few regions it is refused with 0x0908, or with
QUEUE = 1 waits in the list. A START with the field die fenced is refused with 0x1002. (R343, R344, R345, R346, R350) -/
def Obligations.StartsAreCheckedInOrder : Prop :=
  -- START refused
  (∀ (s : State) (p : ReqPath) (q : StartReq),
    (s.startCheck p q).1 ≠ 0 →
    exec (.start p q) s = .next (s.reply p (s.startCheck p q).1 (s.startCheck p q).2)) ∧
  -- the order of the checks
  (∀ (s : State) (p : ReqPath) (q : StartReq),
    s.fieldFenced = false →
    s.power.tripAt = none →
    (s.freeSlot = none → (s.startCheck p q).1 = 0x0907) ∧
    (s.freeSlot.isSome = true → s.descOk p q = false → (s.startCheck p q).1 = 0x0909) ∧
    (s.freeSlot.isSome = true → s.descOk p q = true → (maskRegions (leField q.desc 0x10 8)).all s.regionActive = false →
      (s.startCheck p q).1 = 0x0103) ∧
    (s.freeSlot.isSome = true → s.descOk p q = true → (maskRegions (leField q.desc 0x10 8)).all s.regionActive = true →
      s.plateAt (leField q.desc 0 8) = none → (s.startCheck p q).1 = 0x0905)) ∧
  -- START accepted
  (∀ (s : State) (p : ReqPath) (q : StartReq) (slot : Nat) (pl : Plate),
    s.startCheck p q = (0, 0) →
    s.freeSlot = some slot →
    s.plateAt (leField q.desc 0 8) = some pl →
    (∀ regs, s.pickRegions (leField q.desc 0x10 8) pl.regions = some regs →
      exec (.start p q) s = .next (((s.newRun p q slot pl).grant slot regs .starting).reply p 0 0 [slot])) ∧
    (s.pickRegions (leField q.desc 0x10 8) pl.regions = none → (descFlags q.desc).testBit 1 = true →
      exec (.start p q) s = .next (((((s.newRun p q slot pl).runState slot .queued).joinList slot).schedulePreempt).reply p 0 0 [slot])) ∧
    (s.pickRegions (leField q.desc 0x10 8) pl.regions = none → (descFlags q.desc).testBit 1 = false →
      exec (.start p q) s = .next (s.reply p 0x0908))) ∧
  -- the run that a START makes
  (∀ (s : State) (p : ReqPath) (q : StartReq) (slot k : Nat) (pl : Plate) (regs : List Nat),
    k ≠ slot →
    let u := (s.newRun p q slot pl).grant slot regs .starting
    (∃ r, u.runAt slot = some r ∧ r.state = .starting ∧ r.regions = regs ∧ r.path = p ∧ r.plate = leField q.desc 0 8 ∧
        r.seed = leField q.desc 8 8 ∧ r.priority = leField q.desc 0x19 1 ∧ r.tag = leField q.desc 0x58 8 ∧
        r.preemptible = (descFlags q.desc).testBit 0 ∧ u.mgr.stackFree = s.mgr.stackFree - r.stackPages ∧
        u.mgr.bulkFree = s.mgr.bulkFree - (r.bulkPages + r.savePages)) ∧
      u.runAt k = s.runAt k ∧ u.mgr.plates = s.mgr.plates)

/-- Loading, ending and leaving the slot, and the waiting list. When its regions are awake and its loading has ended, a
STARTING run is RUNNING with its memory in place, or ends with 0x0A03 or 0x0910. A plate end leaves a RUNNING run
ENDING with status 0. STOP ends a run with 0x090E, takes a QUEUED one straight to FREE, and is refused in FREE and
ENDING. The cleanup writes dirty pages back and frees the slot. The head of the waiting list is served when it fits,
and otherwise runs are pre-empted for it. (R346, R347, R348, R349, R350, R351) -/
def Obligations.RunsLoadEndAndLeave : Prop :=
  -- RUN_LOADED
  (∀ (s : State) (slot : Nat) (bad : Option Nat) (r : Run) (pl : Plate),
    s.runAt slot = some r →
    r.state = .starting →
    r.regions.any (fun g => s.power.doze.getLsbD g) = false →
    s.plateAt r.plate = some pl →
    (s.weightsFault bad 0 pl.weights = none → exec (.runLoaded slot bad) s = .next (((pl.weights.foldl (fun s w => s.countReconstructs w.nsid (w.lba * 4096) w.length) s).updRun
        slot (fun x => { x with mem := s.loadMem r pl })).runState slot .running)) ∧
    (∀ st, s.weightsFault bad 0 pl.weights = some st → exec (.runLoaded slot bad) s = .next (s.endRun slot st)) ∧
    (pl.weights = [] → s.weightsFault bad 0 pl.weights = none) ∧
    (∀ w rest, pl.weights = w :: rest →
      ((bad = some 0 ∨ s.nsInfo w.nsid = none ∨ s.nsReadable w.nsid (w.lba * 4096) w.length = false → s.weightsFault bad 0 pl.weights = some 0x0A03) ∧
       (bad ≠ some 0 ∧ (s.nsInfo w.nsid).isSome = true ∧ s.nsReadable w.nsid (w.lba * 4096) w.length = true →
         (sha384 (s.nsBytes w.nsid (w.lba * 4096) w.length) ≠ w.hash → s.weightsFault bad 0 pl.weights = some 0x0910) ∧
         (sha384 (s.nsBytes w.nsid (w.lba * 4096) w.length) = w.hash →
           s.weightsFault bad 0 pl.weights = s.weightsFault bad 1 rest))))) ∧
  -- PLATE_END
  (∀ (s : State) (slot : Nat) (r : Run),
    s.runAt slot = some r →
    r.state = .running →
    exec (.plateEnd slot) s = .next (s.endRun slot 0)) ∧
  -- STOP
  (∀ (s : State) (p : ReqPath) (slot : Nat) (r : Run),
    s.runAt slot = some r →
    (r.state = .free ∨ r.state = .ending → exec (.stop p slot) s = .next (s.reply p 0x0911)) ∧
    (r.state = .queued → exec (.stop p slot) s =
      .next (((s.updRun slot (fun r => { r with status := 0x090E })).freeRun slot).reply p 0)) ∧
    (r.state ≠ .free ∧ r.state ≠ .ending ∧ r.state ≠ .queued → exec (.stop p slot) s = .next ((s.endRun slot 0x090E).reply p 0))) ∧
  -- RUN_CLEANUP_DONE
  (∀ (s : State) (slot : Nat) (r : Run),
    s.runAt slot = some r →
    r.state = .ending →
    exec (.runCleanupDone slot) s = .next ((((r.pages.filter (fun p => p.dirty && p.resident)).map (·.va)).foldl
      (fun s p => s.pageWriteBack r p) s).freeRun slot)) ∧
  -- RUN_DEQUEUE
  (∀ (s : State) (h : Run) (rest : List Run),
    s.waitList = h :: rest →
    (∀ regs, s.pickRegions h.regionMask (s.runRegions h) = some regs →
      exec .runDequeue s = .next (s.grant h.slot regs (if h.state = .queued then .starting else .resuming))) ∧
    (s.pickRegions h.regionMask (s.runRegions h) = none → exec .runDequeue s = .next s.schedulePreempt))

/-- Pre-emption, the save area, and resuming. PREEMPT starts the save of a pre-emptible RUNNING or HELD run and is refused
otherwise. When the save has ended the regions are reset and released, the save area holds stores, counters, waits and
tile state, and the run is SAVED with its record delivered; a parity error meanwhile ends it with 0x0A06 and isolates
that region. RESUME grants regions to a SAVED run, refuses or queues it when too few are free, and lets a HELD run
retry. A restored run is RUNNING again; a save area that does not hold ends it with 0x0A0A. (R349, R361, R362, R364,
R365, R366, R374) -/
def Obligations.RunsAreSavedAndRestored : Prop :=
  -- PREEMPT
  (∀ (s : State) (p : ReqPath) (slot : Nat) (r : Run),
    s.runAt slot = some r →
    ((r.state = .running ∨ r.state = .held) ∧ r.preemptible = true → exec (.preempt p slot) s = .next
      (((s.updRun slot (fun r => { r with heldPending := r.state == .held, resumeQueued := false })).runState slot .preempting).reply p 0)) ∧
    ((r.state ≠ .running ∧ r.state ≠ .held) ∨ r.preemptible = false → exec (.preempt p slot) s = .next (s.reply p 0x0911))) ∧
  -- RESUME
  (∀ (s : State) (p : ReqPath) (slot : Nat) (r : Run),
    s.runAt slot = some r →
    (r.state = .held → exec (.resume p slot) s = .next (((s.runState slot .running).reply p 0).retryHeld slot)) ∧
    (r.state = .saved → ∀ regs, s.pickRegions r.regionMask (s.runRegions r) = some regs →
      exec (.resume p slot) s = .next ((s.grant slot regs .resuming).reply p 0)) ∧
    (r.state = .saved → s.pickRegions r.regionMask (s.runRegions r) = none → r.queue = false →
      exec (.resume p slot) s = .next (s.reply p 0x0908)) ∧
    (r.state = .saved → s.pickRegions r.regionMask (s.runRegions r) = none → r.queue = true → r.resumeQueued = false →
      exec (.resume p slot) s = .next
        (((((s.updRun slot (fun r => { r with resumeQueued := true })).joinList slot).reply p 0).schedulePreempt))) ∧
    (r.state = .saved → s.pickRegions r.regionMask (s.runRegions r) = none → r.queue = true → r.resumeQueued = true →
      exec (.resume p slot) s = .next (s.reply p 0).schedulePreempt) ∧
    (r.state ≠ .held ∧ r.state ≠ .saved → exec (.resume p slot) s = .next (s.reply p 0x0911))) ∧
  -- PREEMPT_SAVE_DONE after a parity error in logical region i
  (∀ (s : State) (slot i : Nat) (r : Run),
    s.runAt slot = some r →
    r.state = .preempting →
    (s.cmp.jobs.filter (fun j => j.owner.ofRun slot)).any (fun j => j.desc.op == 1) = false →
    exec (.preemptSaveDone slot (some i)) s = .next (match r.regions[i]? with
      | some g => (s.endRun slot 0x0A06 (i + 1)).isolateRegion g 3
      | none => s.endRun slot 0x0A06 (i + 1))) ∧
  -- PREEMPT_SAVE_DONE
  (∀ (s : State) (slot : Nat) (r : Run),
    s.runAt slot = some r →
    r.state = .preempting →
    (s.cmp.jobs.filter (fun j => j.owner.ofRun slot)).any (fun j => j.desc.op == 1) = false →
    r.resumeQueued = false →
    Completes (.preemptSaveDone slot none) s (fun u => ∃ v : State, u = v.deliverRecord slot ∧
      ∃ x, v.runAt slot = some x ∧ x.state = .saved ∧ x.regions = [] ∧ x.lastRegions = r.regions ∧ x.save = some (s.saveArea r) ∧
        x.mem = r.mem ∧ x.pages = r.pages ∧ x.stackPages = r.stackPages)) ∧
  -- RESUME_RESTORE_DONE
  (∀ (s : State) (slot : Nat) (ok : Bool) (r : Run) (a : SaveArea),
    s.runAt slot = some r →
    r.state = .resuming →
    r.regions.any (fun g => s.power.doze.getLsbD g) = false →
    r.save = some a →
    (ok = true ∧ saveHeaderOk a.header s.fuses.partId = true → exec (.resumeRestoreDone slot ok) s = .next
      ((((s.restore r a).updRun slot (fun r => { r with save := none, heldPending := false })).runState slot .running).retryHeld slot)) ∧
    (ok = false ∨ saveHeaderOk a.header s.fuses.partId = false →
      exec (.resumeRestoreDone slot ok) s = .next (s.endRun slot 0x0A0A)) ∧
    (∀ b id, saveHeaderOk b id = true ↔ leField b 0 4 = 0x53415645 ∧ leField b 0x10 4 = id ∧ leField b 0xFFC 4 = crc32c (b.take 0xFFC)))

/-- DMA descriptors, their completion, and page fills. A tile DMA queues the descriptor and carries it out from its first
byte; an invalid descriptor ends the run with 0x0A05 at the tile; an ENGINE descriptor submits its job, and one with a
decompress job without STATE_ADDR ends the run. The oldest descriptor whose work is done leaves the queue, signalling
its counter when it asks for it. A filled page becomes resident and its operations are retried; one that no tier can
read holds the run with 0x0A03, and with no frame and no victim with 0x0A04. (R354, R356, R357, R358, R359, R360,
R362) -/
def Obligations.TileDmaAndPageFills : Prop :=
  -- DMA_COPY and DMA_FILL
  (∀ (s : State) (slot t desc p : Nat) (r : Run),
    s.runAt slot = some r →
    r.physTile t = some p →
    r.state = .running →
    r.suspended (0x4000 + t) = false →
    s.tileUnitHeld p 2 = false →
    r.check false desc 64 = .ok →
    (dmaDesc (s.vRead r desc 64)).ok = true →
    let d := dmaDesc (s.vRead r desc 64)
    let j : DmaJob := { desc := desc, isLast := d.flags.testBit 0, signal := d.flags.testBit 1, sync := d.sync, done := false }
    let u := s.setTile p { s.tile p with dma := (s.tile p).dma ++ [j] }
    (d.op = 1 → exec (.dmaCopy slot t desc) s = .next (u.dmaGo r t desc 0 0 0)) ∧
      (d.op = 2 → exec (.dmaFill slot t desc) s = .next (u.dmaGo r t desc 0 0 0)) ∧
      (d.op = 3 → exec (.dmaEngine slot t desc) s = .next (u.dmaGo r t desc 0 0 0))) ∧
  -- a descriptor that is invalid
  (∀ (s : State) (slot t desc p : Nat) (r : Run),
    s.runAt slot = some r →
    r.physTile t = some p →
    r.state = .running →
    r.suspended (0x4000 + t) = false →
    s.tileUnitHeld p 2 = false →
    r.check false desc 64 = .ok →
    (dmaDesc (s.vRead r desc 64)).ok = false →
    Completes (.dmaCopy slot t desc) s (fun u => ∃ x, u = (s.setTile p x).endRun r.slot 0x0A05 0 t desc)) ∧
  -- what an ENGINE descriptor submits
  (∀ (s : State) (r : Run) (t desc : Nat) (d : DmaDesc),
    r.check false d.src 64 = .ok →
    let j := jobDesc (s.vRead r d.src 64)
    (j.op = 1 ∧ j.stateAddr = 0 → s.dmaEngine r t desc d = s.endRun r.slot 0x0A05 0 t desc) ∧
    (¬(j.op = 1 ∧ j.stateAddr = 0) → s.dmaEngine r t desc d =
      { s with cmp := { s.cmp with queue := s.cmp.queue ++ [.run (.run r.slot t desc) j false] } })) ∧
  -- what moving one unit of a COPY does
  (∀ (s : State) (slot t desc n p : Nat) (d : DmaDesc) (r : Run),
    s.runAt slot = some r →
    r.physTile t = some p →
    d.op = 1 ∧ 1 ≤ d.count0 ∧ d.count0 ≤ 4096 ∧ d.count1 = 1 ∧ d.count2 = 1 →
    (r.check false (vaOf (dmaRow d.src d.srcStride1 d.srcStride2 0 0)) d.count0).then
      (r.check true (vaOf (dmaRow d.dst d.dstStride1 d.dstStride2 0 0)) d.count0) = .ok →
    let src := vaOf (dmaRow d.src d.srcStride1 d.srcStride2 0 0)
    let dst := vaOf (dmaRow d.dst d.dstStride1 d.dstStride2 0 0)
    ∃ v : State, s.dmaUnits slot t desc d 0 0 0 (n + 2) = v.dmaUnits slot t desc d 1 0 0 (n + 1) ∧
      v.field.tileMem = ((s.vWrite slot dst (s.vRead r src d.count0)).field.tileMem) ∧
      v.field.regionMem = ((s.vWrite slot dst (s.vRead r src d.count0)).field.regionMem) ∧
      v.hostMem = ((s.vWrite slot dst (s.vRead r src d.count0)).hostMem) ∧
      v.mgr = ((s.vWrite slot dst (s.vRead r src d.count0)).touchSpans slot [(false, src, d.count0)]).mgr) ∧
  -- DMA_DESCRIPTOR_DONE
  (∀ (s : State) (slot t p : Nat) (r : Run) (j : DmaJob) (rest : List DmaJob),
    s.runAt slot = some r →
    r.physTile t = some p →
    (s.tile p).dma = j :: rest →
    j.done = true →
    r.state = .running →
    let u := s.setTile p { s.tile p with dma := rest }
    (j.signal = false → exec (.dmaDescriptorDone slot t) s = .next u) ∧
    (j.signal = true → ∀ n, s.runCounter r j.sync = some n →
      exec (.dmaDescriptorDone slot t) s = .next (u.counterAdd n 1 (0x2000 + p) 0 t).2) ∧
    (j.signal = true → s.runCounter r j.sync = none →
      exec (.dmaDescriptorDone slot t) s = .next (u.endRun slot 0x0B03 j.sync t))) ∧
  -- FILL_DONE
  (∀ (s : State) (slot page : Nat) (r : Run) (m : Mapping),
    s.runAt slot = some r →
    r.filling.contains page = true →
    r.state = .running →
    r.mapping page = some m →
    s.nsReadable m.nsid (m.lba * 4096 + (page - m.vaddr)) 65536 = true →
    r.residentPages < r.frameRoom →
    Completes (.fillDone slot page true) s (fun u => ∃ v : State, u = v.retryAll slot ∧
      v = (s.placePage slot page).updRun slot (fun r => { r with
        fills := (satBump 32 r.fills 1 (r.ovf.getLsbD 0)).1, ovf := setBit r.ovf 0 (satBump 32 r.fills 1 (r.ovf.getLsbD 0)).2,
        susp := r.susp.map (fun x => if x.page == some page then { x with page := none } else x) })) ∧
    exec (.fillDone slot page false) s = .next (s.fillFails r page 0x0A03)) ∧
  -- FILL_DONE with no frame and no page that can leave
  (∀ (s : State) (slot page : Nat) (r : Run) (m : Mapping),
    s.runAt slot = some r →
    r.filling.contains page = true →
    r.state = .running →
    r.mapping page = some m →
    s.nsReadable m.nsid (m.lba * 4096 + (page - m.vaddr)) 65536 = true →
    r.frameRoom ≤ r.residentPages ∧ r.victim = none →
    exec (.fillDone slot page true) s = .next (s.fillFails r page 0x0A04))

/-- Job rings, and the start and end of compression jobs. A doorbell writes the ring's TAIL and submits the descriptors up
to it. An engine takes the next descriptor of a ring that has one, or the job is completed at once with the status of
its refusal. A decompression job that ends writes its output and, for a stop, its resume record, and is completed and
counted; the input, the history and the record alone decide how, never beyond OUT_CAPACITY (conventions of the stops
by log 86 and 87). A compression job that ends writes the output that its input, format and level give, and is
completed; a proof mismatch is recorded with the engine's number, counted, and takes the engine out of service: a
run's job is submitted once more, a ring's is completed with the proven blocks. (R170, R171, R172, R173, R175, R176,
R180, R182, R183, R184, R185, R196) -/
def Obligations.CompressionJobsRunAndEnd : Prop :=
  -- CMP_RING_DOORBELL
  (∀ (s : State) (q : Nat) (v : Word),
    q < 16 →
    let u := s.plainWrite (cmpRing q 0x14) v
    exec (.cmpRingDoorbell q v) s = .next (u.setCmpQueue (u.cmp.queue ++ List.replicate (u.ringAvail q - s.ringAvail q) (.ring q)))) ∧
  -- CMP_JOB_START from a ring
  (∀ (s : State) (e q : Nat),
    s.ringOn q = true →
    s.ringAvail q ≠ 0 →
    let d := s.ringDesc q 0
    let u : State := { s with cmp := { s.cmp with
      started := modAt s.cmp.started q (fun _ => (s.cmp.started.getD q 0 % s.ringEntries q + 1) % s.ringEntries q),
      queue := s.cmp.queue.erase (.ring q) } }
    (s.jobRefusal (.ring q) d = none → s.engineTakes e d = true →
      (d.op ≠ 3 ∨ s.namesContext d.format [] (s.cmp.queue.takeWhile (· != .ring q)) = false) →
      exec (.cmpJobStart e (some q)) s = .next { u with cmp := { u.cmp with
        jobs := u.cmp.jobs ++ [{ engine := e, owner := .ring q, desc := d }] } }) ∧
    (∀ st det va, s.jobRefusal (.ring q) d = some (st, det, va) →
      exec (.cmpJobStart e (some q)) s = .next ((u.jobCount st).jobComplete (.ring q) d st det 0 0 va 0 0 0)) ∧
    (s.jobRefusal (.ring q) d = none → s.engineTakes e d = false → exec (.cmpJobStart e (some q)) s = .next s) ∧
    (s.jobRefusal (.ring q) d = none → d.op = 3 → s.namesContext d.format [] (s.cmp.queue.takeWhile (· != .ring q)) = true →
      exec (.cmpJobStart e (some q)) s = .next s)) ∧
  -- CMP_JOB_START of a run's waiting job
  (∀ (s : State) (e slot t desc : Nat) (d : JobDesc) (b : Bool) (r : Run) (rest : List CmpSub),
    s.cmp.queue = .run (.run slot t desc) d b :: rest →
    s.runAt slot = some r →
    r.state = .running →
    s.jobRefusal (.run slot t desc) d = none →
    s.engineTakes e d = true →
    State.jobRefusal (s.setCmpQueue rest) (.run slot t desc) d = none →
    exec (.cmpJobStart e none) s = .next { s with cmp := { s.cmp with
      queue := rest, jobs := s.cmp.jobs ++ [{ engine := e, owner := .run slot t desc, desc := d, retried := b }] } }) ∧
  -- DECOMPRESS_JOB_END of a ring's job
  (∀ (s : State) (e stop q : Nat) (j : CmpJob),
    s.cmp.jobs.find? (fun j => j.engine == e && j.desc.op == 1) = some j →
    j.owner = .ring q →
    let x := s.decompressOutcome j stop
    exec (.decompressJobEnd e stop) s = .next (((((s.dropJob j).jobWrite (.ring q) j.desc.outAddr x.output).jobWrite (.ring q)
      j.desc.stateAddr x.record).jobCount x.status).jobComplete (.ring q) j.desc x.status x.detail x.inBits x.output.length
        x.valueA x.valueB x.block (crc32c x.output))) ∧
  -- how a ring's job ends: by its input, and on RESUME its record and history, alone
  (∀ (s : State) (q stop : Nat) (j : CmpJob),
    j.owner = .ring q →
    let d := j.desc
    let more := d.flags.testBit 2
    let room := min d.outCap (2 ^ 40 - 1)
    let input := s.jobRead (.ring q) d.inAddr d.inLen
    let old := s.jobRead (.ring q) d.stateAddr 512
    (d.format ≤ 3 → d.flags.testBit 1 = false → s.decompressOutcome j stop =
      Inflate.outcome more s.fuses.partId ((Inflate.fresh d.format input room d.expects).decode more)) ∧
    (d.format ≤ 3 → d.flags.testBit 1 = true → s.decompressOutcome j stop =
      Inflate.outcome more s.fuses.partId ((Inflate.resume old input room d.expects
        (s.jobRead (.ring q) d.histAddr (min (recordWindow old) (leField old 0x10 8)))).decode more)) ∧
    (3 < d.format → d.flags.testBit 1 = false → s.decompressOutcome j stop =
      Frames.outcome more s.fuses.partId ((Frames.fresh d.format input room d.expects).decode more)) ∧
    (3 < d.format → d.flags.testBit 1 = true → s.decompressOutcome j stop =
      Frames.outcome more s.fuses.partId ((Frames.resume old input room d.expects
        (s.jobRead (.ring q) d.histAddr (min (recordWindow old) (leField old 0x10 8)))).decode more))) ∧
  -- a first job of format 1, 2 or 3: never beyond its room, full only with a record of 512 bytes, short by MORE
  (∀ (format room : Nat) (input : List Byte) (expects : Option Nat) (more : Bool) (part : Nat),
    let r := (Inflate.fresh format input room expects).decode more
    let x := Inflate.outcome more part r
    x.output.length ≤ room ∧
      (r.1 = .full → x.status = 0x0709 ∧ x.record.length = 512) ∧
      (r.1 = .short → more = true → x.status = 0x070B ∧ x.record.length = 512) ∧
      (r.1 = .short → more = false → x.status = 0x0706)) ∧
  -- COMPRESS_JOB_END of a ring's job
  (∀ (s : State) (e q : Nat) (j : CmpJob),
    s.cmp.jobs.find? (fun j => j.engine == e && j.desc.op == 2) = some j →
    j.owner = .ring q →
    let input := s.jobRead (.ring q) j.desc.inAddr j.desc.inLen
    let out := compress j.desc.format (j.desc.flags / 256 % 16) input
    exec (.compressJobEnd e none) s = .next ((((s.dropJob j).jobWrite (.ring q) j.desc.outAddr out).jobCount 0).jobComplete
      (.ring q) j.desc 0 0 (8 * j.desc.inLen) out.length out.length 0 (compressBlocks j.desc.inLen - 1) (crc32c input))) ∧
  -- a proof mismatch in block k
  (∀ (s : State) (e k : Nat) (j : CmpJob),
    s.cmp.jobs.find? (fun j => j.engine == e && j.desc.op == 2) = some j →
    j.desc.flags.testBit 0 = true ∧ k < compressBlocks j.desc.inLen →
    let u := ((s.dropJob j).log 0x070A cmpBase e).bump (cmpBase + 0x18) (cmpBase + 0x1C) 2
    let v : State := { u with cmp := { u.cmp with oos := setBit u.cmp.oos e true } }
    (∀ q, j.owner = .ring q →
      let input := s.jobRead (.ring q) j.desc.inAddr j.desc.inLen
      let out := compressProven j.desc.format (j.desc.flags / 256 % 16) input k
      exec (.compressJobEnd e (some k)) s = .next (((v.jobWrite (.ring q) j.desc.outAddr out).jobCount 0x070A).jobComplete
        (.ring q) j.desc 0x070A 0 (8 * j.desc.inLen) out.length out.length 0 (k - 1) (crc32c input))) ∧
    (∀ slot t desc, j.owner = .run slot t desc → j.retried = false →
      exec (.compressJobEnd e (some k)) s = .next ((v.jobCount 0x070A).setCmpQueue (v.cmp.queue ++ [.run j.owner j.desc true])))) ∧
  -- a job without PROOF has no mismatch
  (∀ (s : State) (e k : Nat) (j : CmpJob),
    s.cmp.jobs.find? (fun j => j.engine == e && j.desc.op == 2) = some j →
    j.desc.flags.testBit 0 = false →
    exec (.compressJobEnd e (some k)) s = .next s) ∧
  -- what a ring's completion does
  (∀ (s : State) (q : Nat) (d : JobDesc) (st : Status) (det ib ob va vb bl ck : Nat),
    s.regsWf = true →
    s.regFld (cmpRing q 0x10) 5 1 = 1 ∧ s.regFld (cmpRing q 0x10) 19 1 = 0 →
    let head := s.regFld (cmpRing q 0x18) 0 17
    let u := s.jobComplete (.ring q) d st det ib ob va vb bl ck
    u.bulkMem = memWrite s.bulkMem (s.reg64 (cmpRing q 8) + 48 * (head % s.ringEntries q)) (leBytes 2 st.toNat ++ leBytes 2 det ++
        leBytes 4 d.tag ++ leBytes 8 ib ++ leBytes 8 ob ++ leBytes 8 va ++ leBytes 8 vb ++ leBytes 4 bl ++ leBytes 4 ck) ∧
      u.reg (cmpRing q 0x18) = BitVec.ofNat 32 ((head + 1) % s.ringEntries q) ∧
      u.reg (cmpRing q 0x1C) = BitVec.ofNat 32 st.toNat ∧ u.out = s.out ∧ u.hostMem = s.hostMem)

/-- Check jobs and the writing of check contexts. A check job runs on its context over its input, and its status, output
and counts go to its owner. A context that is not VALID refuses the job. HOLD and VALID can be written at any time;
the other words only while the context is held and idle, else the write is recorded with 0x0806 and discarded. A CFG
write outside its ranges is recorded with 0x0101. (R187, R188, R189, R190, R191, R193, R194, R198) -/
def Obligations.CheckJobsAndContexts : Prop :=
  -- CHECK_JOB_END of a ring's job
  (∀ (s : State) (e q : Nat) (j : CmpJob),
    s.cmp.jobs.find? (fun j => j.engine == e && j.desc.op == 3) = some j →
    j.owner = .ring q →
    (s.checkRun 0 j.desc.format (j.desc.flags.testBit 3) (j.desc.flags.testBit 4)
      (s.jobRead (.ring q) j.desc.inAddr j.desc.inLen)).2.1.length ≤ j.desc.outCap →
    let r := s.checkRun 0 j.desc.format (j.desc.flags.testBit 3) (j.desc.flags.testBit 4)
      (s.jobRead (.ring q) j.desc.inAddr j.desc.inLen)
    exec (.checkJobEnd e) s = .next ((((r.2.2.dropJob j).jobWrite (.ring q) j.desc.outAddr r.2.1).jobCount r.1).jobComplete
      (.ring q) j.desc r.1 0 (if r.1 = 0x0804 ∨ r.1 = 0x0805 then 0 else 8 * j.desc.inLen) r.2.1.length 0 0 0 (crc32c r.2.1))) ∧
  -- a job on a context that is not VALID, and a LAST job shorter than its trailer
  (∀ (s : State) (die c : Nat) (first last : Bool) (input : List Byte),
    (s.regFld (chkCtx die c 4) 2 1 = 0 → s.checkRun die c first last input = (0x0805, [], s)) ∧
    (s.regFld (chkCtx die c 4) 2 1 ≠ 0 → (s.chkParams die c).incoming = true →
      input.length < (s.chkParams die c).checkLen + (s.chkParams die c).aliveLen →
      s.checkRun die c first true input = (0x0804, [], s))) ∧
  -- the alive test
  (∀ (s : State) (die c v : Nat),
    s.regFld (chkCtx die c 0x28) 16 1 = 1 →
    let p := s.chkParams die c
    let d := (v + 2 ^ p.alive - s.regFld (chkCtx die c 0x28) 0 16 % 2 ^ p.alive) % 2 ^ p.alive
    (d = 1 → s.aliveTest die c v = (0, s.setAlive die c v true)) ∧
    (d = 0 → s.aliveTest die c v = (0x0802, s.chkBump die c 2)) ∧
    (2 ≤ d ∧ d ≤ p.maxGap + 1 ∧ d < 2 ^ (p.alive - 1) → s.aliveTest die c v = (0, (s.setAlive die c v true).chkBump die c 3)) ∧
    (p.maxGap + 1 < d ∧ d < 2 ^ (p.alive - 1) ∧ 2 ≤ d → s.aliveTest die c v = (0x0803, s.chkBump die c 3))) ∧
  -- CHK_CTX_HOLD
  (∀ (s : State) (die c : Nat) (v : Word),
    die < 2 ∧ c < 256 →
    exec (.chkCtxHold die c v) s = .next (s.plainWrite (chkCtx die c 4) v)) ∧
  -- CHK_CTX_WRITE
  (∀ (s : State) (die c w : Nat) (v : Word),
    die < 2 ∧ c < 256 ∧ w % 4 = 0 ∧ w < 0x2C ∧ w ≠ 4 →
    (s.regFld (chkCtx die c 4) 0 1 = 0 ∨ s.chkIdle die c = false →
      exec (.chkCtxWrite die c w v) s = .next (s.log 0x0806 cmpBase (chkCtx die c w))) ∧
    (s.regFld (chkCtx die c 4) 0 1 ≠ 0 → s.chkIdle die c = true →
      (w = 0 → exec (.chkCtxWrite die c w v) s = .next (s.chkCfgWrite die c v)) ∧
      (8 ≤ w ∧ w < 0x20 → exec (.chkCtxWrite die c w v) s = .next ((s.plainWrite (chkCtx die c w) v).setBits (chkCtx die c 0) 11 5 0)) ∧
      (0x20 ≤ w → exec (.chkCtxWrite die c w v) s = .next (s.plainWrite (chkCtx die c w) v)))) ∧
  -- a CFG write outside its ranges
  (∀ (s : State) (die c : Nat) (v : Word),
    fld v 0 7 < 8 ∨ 64 < fld v 0 7 ∨ (1 ≤ fld v 16 5 ∧ fld v 16 5 ≤ 3) ∨ 16 < fld v 16 5 ∨ 11 < fld v 11 5 →
    s.chkCfgWrite die c v = s.log 0x0101 cmpBase (chkCtx die c 0) v.toNat)

/-- What an outgoing context appends, an incoming context with the same parameters accepts and strips. For every width
from 8 to 64, every polynomial, start and end value, reflection, byte order and alive width, a message of one FIRST
and LAST job leaves an outgoing context with status 0, and the same parameters in an incoming context accept the
result with status 0 and deliver exactly the original message. (R186, R187, R188, R189, R190) -/
def Obligations.CheckedMessagesAreAccepted : Prop :=
  ∀ (s t : State) (die c die' c' : Nat) (p : ChkParams) (input : List Byte), s.regsWf = true → t.regsWf = true →
    s.regFld (chkCtx die c 4) 2 1 = 1 → t.regFld (chkCtx die' c' 4) 2 1 = 1 →
    s.chkParams die c = { p with incoming := false } → t.chkParams die' c' = { p with incoming := true } →
    8 ≤ p.width ∧ p.width ≤ 64 → (p.alive = 0 ∨ (4 ≤ p.alive ∧ p.alive ≤ 16)) →
    (s.checkRun die c true true input).1 = 0 ∧
    (t.checkRun die' c' true true (s.checkRun die c true true input).2.1).1 = 0 ∧
    (t.checkRun die' c' true true (s.checkRun die c true true input).2.1).2.1 = input

/-- Opening a stream, pushing its parameters, resuming and closing it. A Stream Open is refused by the first failing
check, with no state changed but the answer; the early checks are given one by one. When every check passes and its
stage runs start, the lowest free context opens and is named in the result. Close stops the stage runs, ends waiting
Forme Reads with NO_STREAM and marks the context; once no forme is in flight the context is freed. Resume inside its
range goes on from the given forme, outside it is refused with BAD_RESUME. A push is refused whole with the status of
its first failing check, or stored whole; an unknown or closing stream answers NO_STREAM. (R70, R89, R90, R102, R230,
R231, R419) -/
def Obligations.StreamsOpenParameteriseAndClose : Prop :=
  -- STREAM_OPEN refused
  (∀ (s : State) (p : ReqPath) (b : List Byte) (st : Status),
    s.openChecks b = .error st →
    exec (.streamOpen p b) s = .next (s.reply p st)) ∧
  -- the first checks, in order
  (∀ (s : State) (b : List Byte),
    s.trust.zeroised = false →
    ((s.ctxByStream (leField b 0 2)).isSome = true → s.openChecks b = .error 0x0401) ∧
    ((s.ctxByStream (leField b 0 2)).isSome = false → 512 ≤ s.streamEng.ctxs.length → s.openChecks b = .error 0x0407) ∧
    ((s.ctxByStream (leField b 0 2)).isSome = false → s.replayRecord (streamParams b) = none → s.streamEng.ctxs.length < 512 →
      (s.streamEng.ctxs.foldl (fun a x => a + x.2.params.windowOf) 0) + (streamParams b).windowOf ≤ 1048576 →
      (streamParams b).live = false → ∀ st, s.mediaGate = some st → s.openChecks b = .error st) ∧
    ((s.ctxByStream (leField b 0 2)).isSome = false → s.replayRecord (streamParams b) = none → s.streamEng.ctxs.length < 512 →
      (s.streamEng.ctxs.foldl (fun a x => a + x.2.params.windowOf) 0) + (streamParams b).windowOf ≤ 1048576 →
      (streamParams b).live = false → s.mediaGate = none → s.memberNs (streamParams b).nsid = false →
      ∀ o, s.snapshotPlan (streamParams b) { params := streamParams b } = o →
      (o = none → s.openChecks b = .error 0x0403) ∧
      (o.isSome = true → s.nsSealedDone (streamParams b).nsid = false → s.openChecks b = .error 0x0404))) ∧
  -- the checks all pass
  (∀ (s : State) (b : List Byte) (p : StreamParams) (g : Graph) (o : OpenPlan),
    s.trust.zeroised = false ∧ p = streamParams b ∧ s.ctxByStream p.streamId = none ∧ p.replay = false →
    s.streamEng.ctxs.length < 512 ∧ (s.streamEng.ctxs.foldl (fun a x => a + x.2.params.windowOf) 0) + p.windowOf ≤ 1048576 →
    (p.live = true ∧ s.channelFree p.nsid = true ∧ o = { params := p }) ∨
      (p.live = false ∧ s.mediaGate = none ∧ (s.memberNs p.nsid = false ∨ s.groupGate = none) ∧
        s.snapshotPlan p { params := p } = some o ∧ s.nsSealedDone p.nsid = true) →
    s.graphOf p.graph = some g →
    s.shapeOk b p o.sampleCount (some (graphFormeLength g p.slots)) = true →
    s.witnessCheck p = none →
    s.openChecks b = .ok { o with graph := g, replayId := none, replayStart := 0, replayEnd := 0 }) ∧
  -- STREAM_OPEN accepted
  (∀ (s t : State) (p : ReqPath) (b : List Byte) (o : OpenPlan) (runs : List Nat),
    s.openChecks b = .ok o →
    s.startStages s.freeCtx o.params.seed o.graph.stageRuns = (0, runs, t) →
    o.params.witness = false →
    t.groupCtx (s.planCtx o runs) = false →
    exec (.streamOpen p b) s = .next ((t.takeCtx s.freeCtx (s.planCtx o runs)).reply p 0 0 [s.freeCtx])) ∧
  -- a Stream Open whose stage run does not start
  (∀ (s : State) (p : ReqPath) (b : List Byte) (o : OpenPlan),
    s.openChecks b = .ok o →
    (s.startStages s.freeCtx o.params.seed o.graph.stageRuns).1 ≠ 0 →
    exec (.streamOpen p b) s = .next (s.reply p (s.startStages s.freeCtx o.params.seed o.graph.stageRuns).1)) ∧
  -- STREAM_CLOSE
  (∀ (s : State) (p : ReqPath) (id c : Nat) (x : StreamCtx),
    s.ctxByStream id = some (c, x) →
    x.closing = none →
    exec (.streamClose p id) s = .next (x.formeReads.foldl (fun u q => u.reply q 0x0402)
      (x.stageRuns.foldl (fun u slot => u.endRun slot 0x090E)
        ((s.galleysDrop c (fun _ => true)).updCtx c (fun y => { y with closing := some p, formeReads := [], slots := [] }))))) ∧
  -- requests on a stream that is not open or is closing
  (∀ (s : State) (p : ReqPath) (id m len : Nat) (b : List Byte),
    ((∀ c x, s.ctxByStream id = some (c, x) → x.closing.isSome = true)) →
    leField b 6 2 = id →
    exec (.streamClose p id) s = .next (s.reply p 0x0402) ∧ exec (.streamResume p id m) s = .next (s.reply p 0x0402) ∧
    exec (.streamParameters p b) s = .next (s.reply p 0x0402) ∧ exec (.formeRead p id len) s = .next (s.reply p 0x0402)) ∧
  -- STREAM_CLOSE_COMPLETE
  (∀ (s : State) (p : ReqPath) (c : Nat) (x : StreamCtx),
    s.ctxOf c = some x →
    x.closing = some p →
    ((x.inEgress.any (fun n => s.formeFlies c n) || x.held.any (fun h => h.path.isSome)) = true →
      exec (.streamCloseComplete c) s = .next s) ∧
    ((x.inEgress.any (fun n => s.formeFlies c n) || x.held.any (fun h => h.path.isSome)) = false → s.groupCtx x = false →
      exec (.streamCloseComplete c) s = .next ((s.freeCtxOf c x).reply p 0 0 [0])) ∧
    (s.freeCtxOf c x).ctxOf c = none) ∧
  -- STREAM_RESUME
  (∀ (s : State) (p : ReqPath) (id m c : Nat) (x : StreamCtx),
    s.ctxByStream id = some (c, x) →
    x.closing = none →
    (seqFrom 48 m x.ack = false ∨ seqFrom 48 x.next m = false → exec (.streamResume p id m) s = .next (s.streamRefuse p c 0x040E)) ∧
    (seqFrom 48 m x.ack = true → seqFrom 48 x.next m = true → x.endedRuns = [] →
      exec (.streamResume p id m) s = .next (((s.galleysDrop c (fun _ => true)).updCtx c (fun y => { y with
        stageRuns := y.stageRuns ++ [], endedRuns := [], halted := none, next := m, done := y.done && m == y.next, slots := [],
        liveHist := y.liveHist.filter (fun (h : LiveHist) => decide (h.g < m * y.params.slots)) }.rewind (m * y.params.slots) y.liveHist)).reply p 0)) ∧
    (∀ a b, seqFrom 48 a b = true ↔ a % 2 ^ 48 = b % 2 ^ 48 ∨ seqEarlier 48 b a = true)) ∧
  -- STREAM_PARAMETERS, refused by the first failing check or stored
  (∀ (s : State) (p : ReqPath) (b : List Byte) (c : Nat) (x : StreamCtx) (rs : List PushRecord),
    s.ctxByStream (leField b 6 2) = some (c, x) →
    x.closing = none →
    x.params.replay = false →
    s.groupCtx x = false →
    rs = (List.range (leField b 8 4)).map (fun i => pushRecord (slice b (32 + 80 * i) 80)) →
    (pushFormOk b = false ∨ x.paramLba ≠ 0 → exec (.streamParameters p b) s = .next (s.streamRefuse p c 0x050D)) ∧
    (pushFormOk b = true → x.paramLba = 0 →
      (keysDistinct rs = false ∨ rs.any (fun r => x.pushes.any (fun q => q.epoch == r.epoch && q.folio == r.folio)) = true →
        exec (.streamParameters p b) s = .next (s.streamRefuse p c 0x050B)) ∧
      (keysDistinct rs = true → rs.any (fun r => x.pushes.any (fun q => q.epoch == r.epoch && q.folio == r.folio)) = false →
        (rs.all x.admissible = false → exec (.streamParameters p b) s = .next (s.streamRefuse p c 0x050A)) ∧
        (rs.all x.admissible = true →
          (67108864 < s.pushesHeld + leField b 8 4 → exec (.streamParameters p b) s = .next (s.streamRefuse p c 0x050C)) ∧
          (s.pushesHeld + leField b 8 4 ≤ 67108864 → s.pushRoom x (leField b 8 4) = true →
            exec (.streamParameters p b) s = .next (s.storePush p c rs (if leField b 0xC 4 = 1 then some (leField b 0x10 4) else none))))))) ∧
  -- one record stored, in a stream with no witness
  (∀ (s : State) (p : ReqPath) (c : Nat) (x : StreamCtx) (r : PushRecord),
    s.ctxOf c = some x →
    x.params.witness = false →
    s.storePush p c [r] none = ((s.updCtx c (fun x => { x with pushes := x.pushes ++ [r] })).updCtx c (fun x => x)).reply p 0)

/-- Candidates, their stages and lookups, the hand-over of formes, credit, and the self-test. A candidate starts inside
the window; a slot past the samples is a tail void at once. A stage passes with its charge, or fails the candidate,
which brings the next candidate; a decode stage decompresses and decodes its field's payload (layouts and fault points
by log 86 to 90). A lookup finds the first of four keys, or the stream halts with 0x0409. A complete forme with credit
goes to egress, and to the oldest Forme Read where the consumer is 0; a Forme Read that must wait is queued, and its
completion advances ACK. A credit message is stale and counted, refused with 0x040A, or applied. The self-test clears
SELFTEST_DONE and its end sets it with the result. (R67, R72, R74, R80, R86, R87, R97, R224, R227, R419, R480, R685) -/
def Obligations.CandidatesBecomeFormes : Prop :=
  -- CANDIDATE_START
  (∀ (s : State) (c g j : Nat) (x : StreamCtx),
    s.ctxOf c = some x →
    x.mayStart g = true →
    x.params.live = false →
    x.slotAt g = none →
    j ≤ 8 ∧ s.blockHeld 5 = false →
    (x.posOf g < x.sampleCount → exec (.candidateStart c g j) s = .next (s.addSlot c x { g := g, cands := [x.newCand g j] })) ∧
    (x.sampleCount ≤ x.posOf g → exec (.candidateStart c g j) s = .next ((s.addSlot c x {
      g := g, cands := [], outcome := some ({ folio := 2 ^ 64 - 1, isVoid := true, tail := true, cause := .tail }, []) }).updCtx c
        (fun x => x.bump 1 1))) ∧
    (∀ y, s.addSlot c x y = (s.galleyTake c x (y.g / max x.params.slots 1)).updCtx c (fun x => { x with slots := x.slots ++ [y] }))) ∧
  -- outside the window nothing starts
  (∀ (s : State) (c g j : Nat) (x : StreamCtx),
    s.ctxOf c = some x →
    x.mayStart g = false →
    exec (.candidateStart c g j) s = .next s ∧
    (x.mayStart g = true → x.g0 ≤ g ∧ g < x.g0 + x.params.windowOf ∧ x.isOpen = true)) ∧
  -- STAGE_COMPLETE, the record stage of a snapshot stream
  (∀ (s : State) (c g j : Nat) (x : StreamCtx) (y : Slot) (z : Candidate),
    s.candAt c g j = some (x, y, z) →
    x.params.live = false →
    z.stage = 0 →
    exec (.stageComplete c g j z.stage) s = .next (
      match s.recordPlace x z.folio with
      | .unreadable => if y.failedBelow j then s.haltStream c 0x0408 (g / max x.params.slots 1) else s
      | .bad => s.failCand c g j .format
      | .at a len =>
        if x.params.budgetOf < z.wu + charge len 4096 then s.failCand c g j .budget
        else
          let u := s.candEffects c g j [.reconstruct a len]
          match recordFault x.graph (s.nsBytes x.params.nsid a len) len z.folio with
          | some k => u.failCand c g j k
          | none => u.passStage c g j (z.wu + charge len 4096) (fun z => { z with record := s.nsBytes x.params.nsid a len }))) ∧
  -- STAGE_COMPLETE of a stage that is not under way
  (∀ (s : State) (c g j stage : Nat) (x : StreamCtx) (y : Slot) (z : Candidate),
    s.candAt c g j = some (x, y, z) →
    stage ≠ z.stage →
    exec (.stageComplete c g j stage) s = .next s) ∧
  -- STAGE_COMPLETE, the decode stage of a field of a snapshot stream
  (∀ (s : State) (c g j i unit : Nat) (f : GraphField) (x : StreamCtx) (y : Slot) (z : Candidate),
    s.candAt c g j = some (x, y, z) →
    graphLookup (x.candGraph z) ≠ some z.stage ∨ z.entry.isSome = true →
    (graphStages (x.candGraph z))[z.stage]? = some (.decode i) →
    (x.candGraph z).fields[i]? = some f →
    f.text = none ∧ x.params.live = false →
    s.decodeUp f (s.fieldOf x z f.tag).1 = some unit →
    let d := s.fieldOf x z f.tag
    let p := fieldPayload d.1 d.2.2.1 d.2.2.2
    let packed := if d.1 = 0 then none else some p.2
    let u := if d.1 = 0 then s else s.candEffects c g j [.packed p.2]
    let first := if f.frameEntry then leField (z.entry.getD []) 0x14 4 else f.firstFrame
    let step := if f.frameEntry then leField (z.entry.getD []) 0x12 2 else f.frameStep
    let fd := fieldDecode f d.2.1 x.liveNal p.1 (lastPicture f first step)
    (∀ k st, runDecode x.params.budgetOf packed p.1.length fd.events z.wu 0 0 = .fail k st →
      exec (.stageComplete c g j z.stage) s = .next (if st = 0 then u.failCand c g j k else u.failDecode c g j st f.tag d.2.1 k)) ∧
    (∀ wu h, runDecode x.params.budgetOf packed p.1.length fd.events z.wu 0 0 = .pass wu → fd.held = some h →
      (∀ st, decodedSamples f first step h = .error st →
        exec (.stageComplete c g j z.stage) s = .next (u.failDecode c g j st f.tag d.2.1 (causeOf st))) ∧
      (∀ xs, decodedSamples f first step h = .ok xs →
        exec (.stageComplete c g j z.stage) s = .next ((u.candEffects c g j (decodeEffects f unit xs)).passStage c g j wu
          (fun z => { keepField f xs z with fieldAt := (f.tag, d.2.1) }))))) ∧
  -- STAGE_COMPLETE, an operation
  (∀ (s : State) (c g j i k unit : Nat) (f : GraphField) (op : AugOp) (x : StreamCtx) (y : Slot) (z : Candidate),
    s.candAt c g j = some (x, y, z) →
    graphLookup (x.candGraph z) ≠ some z.stage ∨ z.entry.isSome = true →
    (graphStages (x.candGraph z))[z.stage]? = some (.op i k) →
    (x.candGraph z).fields[i]? = some f →
    f.ops[k]? = some op ∧ s.unitUp 5 = some unit →
    let e := z.entry.getD (List.replicate 64 0)
    let wu := z.wu + charge (z.cur.foldl (fun a y => a + augElems op e y) 0) 256
    (augRun op e x.roiCentre z.cur = none →
      exec (.stageComplete c g j z.stage) s = .next (s.failDecode c g j 0x0507 f.tag z.fieldAt.2 .param)) ∧
    (∀ ys, augRun op e x.roiCentre z.cur = some ys →
      (x.params.budgetOf < wu → exec (.stageComplete c g j z.stage) s = .next (s.failCand c g j .budget)) ∧
      (wu ≤ x.params.budgetOf → exec (.stageComplete c g j z.stage) s = .next
        ((s.candEffects c g j [.buffer (unitPort 5 unit) unit ((ys.map Sample.size).sum)]).passStage c g j wu (fun z =>
          if k + 1 ≥ f.ops.length then { z with outputs := z.outputs ++ [(f.sect, ys)], cur := [] } else { z with cur := ys }))))) ∧
  -- STAGE_COMPLETE, the sieve
  (∀ (s : State) (c g j cost plate : Nat) (takes : Bool) (x : StreamCtx) (y : Slot) (z : Candidate),
    s.candAt c g j = some (x, y, z) →
    graphLookup (x.candGraph z) ≠ some z.stage ∨ z.entry.isSome = true →
    (graphStages (x.candGraph z))[z.stage]? = some .sieve →
    (x.candGraph z).sieve = some { cost := cost, takesUser := takes } →
    (x.candGraph z).stageRuns.getLast? = some plate ∧ s.stageUp x plate = true →
    x.params.live = false →
    let r := Config.sieve plate x.params.seed (x.epochAt g) z.folio z.shown z.user
    exec (.stageComplete c g j z.stage) s = .next (
      if x.params.budgetOf < z.wu + cost then s.failCand c g j .budget
      else if r.1 then s.passStage c g j (z.wu + cost) (fun z => { z with roi := some (r.2.1 % 2 ^ 32, r.2.2 % 2 ^ 32) })
      else s.failCand c g j .sieve)) ∧
  -- STAGE_COMPLETE, the generation
  (∀ (s : State) (c g j sect plate : Nat) (x : StreamCtx) (y : Slot) (z : Candidate),
    s.candAt c g j = some (x, y, z) →
    graphLookup (x.candGraph z) ≠ some z.stage ∨ z.entry.isSome = true →
    (graphStages (x.candGraph z))[z.stage]? = some .gen →
    (x.candGraph z).gen = some sect →
    (x.candGraph z).stageRuns.head? = some plate ∧ s.stageUp x plate = true →
    let r := Config.generated plate x.params.seed (x.epochAt g) z.folio z.shown
    exec (.stageComplete c g j z.stage) s = .next (
      if r.1 = 0 then s.passStage c g j z.wu (fun z => { z with outputs := z.outputs ++ [(sect, [.elements r.2])] })
      else s.failCand c g j .decode)) ∧
  -- a stage that passes, and a candidate that fails
  (∀ (s : State) (c g j wu : Nat) (k : SlotCause),
    (∀ x, s.ctxOf c = some x → s.passStage c g j wu (fun z => z) = (s.updCand c g j (fun z => { z with
      wu := wu, stage := z.stage + 1, status := if z.stage + 1 ≥ (graphStages x.graph).length then .passed else .working })).resolveSlot c g) ∧
    (∀ x y, (s.updCand c g j (fun z => { z with status := .failed k })).ctxOf c = some x → x.slotAt g = some y → x.params.live = false →
      j < 8 → y.cands.any (fun (z : Candidate) => z.j == j + 1) = false →
      s.failCand c g j k = ((((s.updCand c g j (fun z => { z with status := .failed k })).updSlot c g
        (fun y => { y with cands := y.cands ++ [x.newCand g (j + 1)] })).showKept c g).resolveSlot c g).haltEnded c g)) ∧
  -- PARAM_LOOKUP in the push store
  (∀ (s : State) (c g j : Nat) (x : StreamCtx) (y : Slot) (z : Candidate) (r : PushRecord),
    s.candAt c g j = some (x, y, z) →
    graphLookup (x.candGraph z) = some z.stage →
    z.entry = none ∧ y.failedBelow j = true →
    x.paramLba = 0 →
    x.params.replay = false →
    x.complete (x.epochAt g) = true →
    let k := firstKey (x.epochAt g) z.folio (fun e f => x.pushes.find? (fun q => q.epoch == e && q.folio == f))
    let u := s.updCtx c (fun x => { x with paramChecked := true })
    (k = none → exec (.paramLookup c g j) s = .next (s.haltStream c 0x0409 (g / max x.params.slots 1))) ∧
    (k = some r → graphEntryOk x.graph r.entry = true →
      exec (.paramLookup c g j) s = .next (u.updCand c g j (fun z => { z with entry := some r.entry }))) ∧
    (k = some r → graphEntryOk x.graph r.entry = false → exec (.paramLookup c g j) s =
      .next (u.failDecode c g j 0x0507 (u.lookupField x z).1 (u.lookupField x z).2 .param))) ∧
  -- FORME_HANDOFF to the oldest Forme Read
  (∀ (s : State) (c : Nat) (x : StreamCtx) (ys : List (SlotEntry × List (Nat × List Sample))) (q : ReqPath) (qs : List ReqPath),
    s.ctxOf c = some x →
    x.haltedHere = none →
    x.formeSlots x.next = some ys →
    s.formeGo x x.next = true ∧ s.formeCrosses x (x.formeBytes s.padOf x.next ys) = true →
    x.params.consumer = 0 →
    x.formeReads = q :: qs →
    exec (.formeHandoff c) s = .next (State.endStream (
      let b := x.formeBytes s.padOf x.next ys
      let u := (((s.trace 9 6 0 0 0 x.params.streamId x.next).emit (.forme x.params.streamId x.next b)).galleysDrop c
        (fun k => decide (k ≤ x.next))).updCtx c (fun y => { y with
        next := (x.next + 1) % 2 ^ 48, lastSent := some x.next, done := !y.params.live && decide (x.next + 1 ≥ y.total), slots := y.slots.filter (fun (z : Slot) => decide (z.g ≥ (x.next + 1) * y.params.slots)) })
      (u.updCtx c (fun y => { y with formeReads := qs, held := y.held ++ [{ n := x.next, path := some q, bytes := b }] })).replyData
        q 0 0 [x.next] b) c)) ∧
  -- FORME_HANDOFF to a consumer on the fabric
  (∀ (s : State) (c : Nat) (x : StreamCtx) (ys : List (SlotEntry × List (Nat × List Sample))),
    s.ctxOf c = some x →
    x.haltedHere = none →
    x.formeSlots x.next = some ys →
    s.formeGo x x.next = true ∧ s.formeCrosses x (x.formeBytes s.padOf x.next ys) = true →
    x.params.consumer ≠ 0 →
    let b := x.formeBytes s.padOf x.next ys
    let u := (((s.trace 9 6 0 0 0 x.params.streamId x.next).emit (.forme x.params.streamId x.next b)).galleysDrop c
      (fun k => decide (k ≤ x.next))).updCtx c (fun y => { y with
      next := (x.next + 1) % 2 ^ 48, lastSent := some x.next, done := !y.params.live && decide (x.next + 1 ≥ y.total), slots := y.slots.filter (fun (z : Slot) => decide (z.g ≥ (x.next + 1) * y.params.slots)) })
    exec (.formeHandoff c) s = .next (((u.updCtx c (fun x' => { x' with inEgress := x'.inEgress ++ [x.next] })).sendMsg {
      kind := 9, device := x.params.consumer / 2 ^ 32 % 2 ^ 24, route := x.params.consumer % 65536,
      dstQueue := handleQueue x.params.consumer, srcQueue := 0xFFFF, msgId := 0, length := 0,
      immediate := x.params.streamId + x.next * 65536 } b (.forme c x.next)).endStream c)) ∧
  -- a forme without credit, or not complete, stays
  (∀ (s : State) (c : Nat) (x : StreamCtx),
    s.ctxOf c = some x →
    x.haltedHere = none →
    x.formeSlots x.next = none ∨ s.formeGo x x.next = false →
    exec (.formeHandoff c) s = .next s ∧
    (s.formeGo x x.next = true → seqEarlier 48 x.next x.limitOf = true ∧ (x.next + 2 ^ 48 - x.ack) % 2 ^ 48 < 64)) ∧
  -- FORME_READ
  (∀ (s : State) (p : ReqPath) (id len c : Nat) (x : StreamCtx),
    s.ctxByStream id = some (c, x) →
    x.closing = none →
    let out := x.formeReads.length + (x.held.filter (fun h => h.path.isSome)).length
    (x.params.consumer ≠ 0 → exec (.formeRead p id len) s = .next (s.reply p 0x0101 2)) ∧
    (x.params.consumer = 0 → len < x.formeLength → exec (.formeRead p id len) s = .next (s.reply p 0x0101 1)) ∧
    (x.params.consumer = 0 → x.formeLength ≤ len → 64 ≤ out → exec (.formeRead p id len) s = .next (s.streamRefuse p c 0x040A)) ∧
    (x.params.consumer = 0 → x.formeLength ≤ len → out < 64 → x.held.find? (fun h => h.path.isNone) = none →
      (x.done = true → exec (.formeRead p id len) s = .next (s.reply p 0x040D)) ∧
      (x.done = false → ∀ st, x.haltedHere = some st → exec (.formeRead p id len) s = .next (s.reply p st)) ∧
      (x.done = false → x.haltedHere = none →
        exec (.formeRead p id len) s = .next (s.updCtx c (fun x => { x with formeReads := x.formeReads ++ [p] }))))) ∧
  -- FORME_READ_COMPLETE
  (∀ (s : State) (fn q cid k : Nat) (a : HostAccess) (d : CmdDone) (cmd : Cmd) (h : HeldForme),
    s.doneCmd fn q cid = some (d, cmd) →
    s.heldBy (.yqi fn q cid) = some (k, h) →
    ((s.finishCmd d cmd a).1 = 0 → exec (.formeReadComplete fn q cid a) s = .next ((s.finishCmd d cmd a).2.updCtx k (fun x =>
      ({ x with
          held := x.held.filter (fun (y : HeldForme) => y.n != h.n)
          ack := ((x.held.filter (fun (y : HeldForme) => y.n != h.n)).head?.map (fun (y : HeldForme) => y.n)).getD x.next }).releasePassed))) ∧
    ((s.finishCmd d cmd a).1 ≠ 0 → exec (.formeReadComplete fn q cid a) s = .next ((s.finishCmd d cmd a).2.updCtx k (fun x => { x with
      held := x.held.map (fun (y : HeldForme) => if y.n = h.n then { y with path := none } else y) })))) ∧
  -- a credit message
  (∀ (s : State) (id a l c : Nat) (x : StreamCtx),
    s.ctxByStream id = some (c, x) →
    x.closing = none →
    s.group.rehoming.contains c = false →
    (seqEarlier 48 a x.ack = true ∨ seqEarlier 48 l x.limit = true → s.credit id a l = (0, s.updCtx c (fun x => x.bump 4 1))) ∧
    (seqEarlier 48 a x.ack = false → seqEarlier 48 l x.limit = false →
      (seqUnordered 48 a x.ack = true ∨ seqUnordered 48 l x.limit = true ∨ seqEarlier 48 l a = true ∨ 64 < (l + 2 ^ 48 - a) % 2 ^ 48 →
        s.credit id a l = (0x040A, s.updCtx c (fun x => { x with status := 0x040A }))) ∧
      (seqUnordered 48 a x.ack = false → seqUnordered 48 l x.limit = false → seqEarlier 48 l a = false → (l + 2 ^ 48 - a) % 2 ^ 48 ≤ 64 →
        s.credit id a l = (0, s.updCtx c (fun x => ({ x with ack := a, limit := l }).releasePassed))))) ∧
  -- GNOZ_RX_CREDIT
  (∀ (s : State) (device msgId : Nat) (m : InMsg),
    s.inMsg device msgId 6 = some m →
    let u := s.dropIn m
    let r := u.credit (m.hdr.immediate % 65536) (m.hdr.immediate / 65536) (m.hdr.remoteAddr % 2 ^ 48)
    (m.hdr.dstQueue ≠ 0xFFFF → exec (.gnozRxCredit device msgId) s = .next (u.ackApplied m 0x0C02)) ∧
    (m.hdr.dstQueue = 0xFFFF → u.ctxByStream (m.hdr.immediate % 65536) = none →
      exec (.gnozRxCredit device msgId) s = .next (r.2.ackApplied m r.1)) ∧
    (m.hdr.dstQueue = 0xFFFF → ∀ c x, u.ctxByStream (m.hdr.immediate % 65536) = some (c, x) →
      (x.params.consumer / 2 ^ 32 % 2 ^ 24 ≠ device → exec (.gnozRxCredit device msgId) s = .next (u.ackApplied m 0x0C08)) ∧
      (x.params.consumer / 2 ^ 32 % 2 ^ 24 = device → exec (.gnozRxCredit device msgId) s = .next (r.2.ackApplied m r.1)))) ∧
  -- GNOZ_RX_CREDIT that advances A or LIMIT
  (∀ (s : State) (device msgId c : Nat) (m : InMsg) (x : StreamCtx),
    s.inMsg device msgId 6 = some m ∧ m.hdr.dstQueue = 0xFFFF →
    (s.dropIn m).ctxByStream (m.hdr.immediate % 65536) = some (c, x) →
    x.closing = none ∧ (s.dropIn m).group.rehoming.contains c = false ∧ x.params.consumer / 2 ^ 32 % 2 ^ 24 = device →
    seqFrom 48 (m.hdr.immediate / 65536) x.ack = true ∧ seqFrom 48 (m.hdr.remoteAddr % 2 ^ 48) x.limit = true →
    seqEarlier 48 (m.hdr.remoteAddr % 2 ^ 48) (m.hdr.immediate / 65536) = false ∧
      (m.hdr.remoteAddr % 2 ^ 48 + 2 ^ 48 - m.hdr.immediate / 65536) % 2 ^ 48 ≤ 64 →
    exec (.gnozRxCredit device msgId) s = .next (((s.dropIn m).updCtx c (fun x =>
      ({ x with ack := m.hdr.immediate / 65536, limit := m.hdr.remoteAddr % 2 ^ 48 }).releasePassed)).ackApplied m 0)) ∧
  -- WDG_SELFTEST_START and WDG_SELFTEST_DONE
  (∀ (s : State) (v : Word) (ok : Bool),
    (v.getLsbD 1 = false → exec (.wdgSelftestStart v) s = .next (s.plainWrite 0x700004 v)) ∧
    (v.getLsbD 1 = true → exec (.wdgSelftestStart v) s = .next ({ ((s.plainWrite 0x700004 v).setBits 0x700004 2 2 0) with
      streamEng := { s.streamEng with selftestBusy := true } })) ∧
    (s.streamEng.selftestBusy = false → exec (.wdgSelftestDone ok) s = .next s) ∧
    (s.streamEng.selftestBusy = true → exec (.wdgSelftestDone ok) s = .next ({ (s.setBits 0x700004 2 2 (if ok then 3 else 1)) with
      streamEng := { s.streamEng with selftestBusy := false } })))

/-- Unit and lane faults, live ingest, and generation. A faulty decoder unit, or one without progress for 10 ms, goes out
of service and is logged with its number and class; a faulty lane likewise, and its generation requests end with
0x060A. A packet wakes the part; to a channel it is refused and counted, late and counted, dropped for want of a
buffer, or joins its unit (its layout and malformed packets by log 86 and 91); units whose marker and packets are all
there close. A timeout closes the oldest unit. ENABLE of a channel is set only when the port and buffer size are in
order, and cleared with the open units. A generation request is refused with 0x0608 or 0x0609 or takes the lowest free
context of the lowest lane; a step counts its lookups as free numbers of hits and misses (log 47), ends the request on
a grammar violation, a stop string, EOS, a full buffer or its token limit, and otherwise goes on. (R202, R235, R236,
R238, R246, R250, R271, R272, R274, R276, R280, R282) -/
def Obligations.DecodersIngestAndGeneration : Prop :=
  -- DECODER_UNIT_FAULT and DECODER_NO_PROGRESS
  (∀ (s : State) (cls unit : Nat),
    1 ≤ cls ∧ cls ≤ 5 →
    unit < decUnits cls →
    ((s.decode.oos cls).contains unit = false →
      exec (.decoderUnitFault cls unit) s = .next { (s.log 0x0508 0x500000 unit cls) with
        decode := s.decode.setOos cls (s.decode.oos cls ++ [unit]) } ∧
      exec (.decoderNoProgress cls unit) s = .next { (s.log 0x0508 0x500000 unit cls) with
        decode := s.decode.setOos cls (s.decode.oos cls ++ [unit]) }) ∧
    ((s.decode.oos cls).contains unit = true →
      exec (.decoderUnitFault cls unit) s = .next s ∧ exec (.decoderNoProgress cls unit) s = .next s)) ∧
  -- LANE_FAULT and LANE_NO_PROGRESS
  (∀ (s : State) (lane : Nat),
    lane < 64 →
    (s.text.oos.getLsbD lane = false → ∀ t, t = (s.text.gens.filter (fun g => g.lane == lane)).foldl (fun s g => s.genEnd g 0x060A 0 0)
        { (s.log 0x060A 0x600000 lane) with text := { s.text with oos := setBit s.text.oos lane true } } →
      exec (.laneFault lane) s = .next t ∧ exec (.laneNoProgress lane) s = .next t) ∧
    (s.text.oos.getLsbD lane = true → exec (.laneFault lane) s = .next s ∧ exec (.laneNoProgress lane) s = .next s)) ∧
  -- RTP_PACKET
  (∀ (s w u : State) (f : FrameInfo) (port c : Nat) (b : List Byte),
    w = s.wakeEvent .packet →
    (List.range 64).find? (fun c => w.liveEnabled c && w.regFld (liveReg c 4) 0 16 == port) = some c →
    w.policeOther f (some (0x200 + 4 * c)) = (true, u) →
    let l := u.liveChan c
    let p := rtpOf (u.regFld (liveReg c 0) 1 1 == 1) b
    let bad := p.version ≠ 2 ∨ p.payloadType ≠ u.regFld (liveReg c 0) 2 7 ∨ p.supported = false ∨ (l.ssrc.isSome && l.ssrc != some p.ssrc) = true
    let late := (match l.lastClosed with | some (t, _) => t == p.timestamp || seqEarlier 32 p.timestamp t | none => false) = true
    let room := u.poolHas 1 4 (max b.length 1)
    (bad → exec (.rtpPacket f port b) s = .next (u.liveBump c 6 1)) ∧
    (¬bad → late → exec (.rtpPacket f port b) s = .next (u.liveBump c 2 1)) ∧
    (¬bad → ¬late → room = false → exec (.rtpPacket f port b) s = .next (u.noGrant 1 (max b.length 1))) ∧
    (¬bad → ¬late → room = true → exec (.rtpPacket f port b) s = .next (((u.liveBump c 0 1).setLiveChan c (fun l => { l with
      ssrc := some p.ssrc,
      firstSeq := some (match (u.liveChan c).firstSeq with | none => p.seq | some f => if seqEarlier 16 p.seq f then p.seq else f),
      units := markLater u.now p.timestamp (insertPacket p l.units) })).closeWhole c (l.units.length + 1)))) ∧
  -- RTP_PACKET to no channel, or dropped by its policer
  (∀ (s w u : State) (f : FrameInfo) (port : Nat) (b : List Byte),
    w = s.wakeEvent .packet →
    (List.range 64).find? (fun c => w.liveEnabled c && w.regFld (liveReg c 4) 0 16 == port) = none →
    (w.policeOther f none = (true, u) → exec (.rtpPacket f port b) s = .next (u.gnzBump 12)) ∧
    (w.policeOther f none = (false, u) → exec (.rtpPacket f port b) s = .next u)) ∧
  -- LIVE_UNIT_TIMEOUT
  (∀ (s : State) (c : Nat) (u : OpenUnit) (us : List OpenUnit),
    (s.liveChan c).units = u :: us →
    (u.laterAt.isSome = true → s.liveEnabled c = true →
      exec (.liveUnitTimeout c) s = .next ((s.closeUnit c false).closeWhole c (us.length + 1))) ∧
    (u.laterAt.isSome = false ∨ s.liveEnabled c = false → exec (.liveUnitTimeout c) s = .next s)) ∧
  -- a closed unit takes the next folio, or is dropped
  (∀ (s : State) (c k : Nat) (u : LiveUnit) (x : StreamCtx),
    s.boundStream c = some (k, x) →
    x.params.replay = false →
    x.closing = none →
    x.params.witness = false →
    s.ctxOf k = some x →
    let size := s.regFld (liveReg c 0) 16 13 * 2 ^ 20
    (size < x.liveWaiting + 32 + u.nal.length → s.assignFolio c u = s.liveBump c 5 1) ∧
    (x.liveWaiting + 32 + u.nal.length ≤ size → s.assignFolio c u = (s.updCtx k (fun x => { x with
      live := x.live ++ [(x.nextFolio, u)], nextFolio := x.nextFolio + 1 })).liveBump c 3 1)) ∧
  -- DEC_LIVE_CFG_WRITE
  (∀ (s : State) (c : Nat) (v : Word),
    c < 64 →
    (s.liveEnabled c = true → v.getLsbD 0 = true → exec (.decLiveCfgWrite c v) s = .next s) ∧
    (s.liveEnabled c = true → v.getLsbD 0 = false → exec (.decLiveCfgWrite c v) s =
      .next ((s.setBits (liveReg c 0) 0 1 0).setLiveChan c (fun l => { l with units := [] }))) ∧
    (s.liveEnabled c = false → v.getLsbD 0 = false → exec (.decLiveCfgWrite c v) s = .next (s.plainWrite (liveReg c 0) v)) ∧
    (s.liveEnabled c = false → v.getLsbD 0 = true → s.liveCfgOk c v = true → exec (.decLiveCfgWrite c v) s =
      .next ((s.plainWrite (liveReg c 0) v).setLiveChan c (fun _ => {}))) ∧
    (s.liveEnabled c = false → v.getLsbD 0 = true → s.liveCfgOk c v = false → exec (.decLiveCfgWrite c v) s =
      .next (s.log 0x0101 0x500000 (liveReg c 0) v.toNat)) ∧
    (s.liveCfgOk c v = true → s.regFld (liveReg c 4) 0 16 ≠ 0 ∧ s.regFld (liveReg c 4) 0 16 ≠ 319 ∧ s.regFld (liveReg c 4) 0 16 ≠ 320 ∧
      16 ≤ fld v 16 13 ∧ fld v 16 13 ≤ 4096)) ∧
  -- GEN_OPEN of a run without a stream
  (∀ (s : State) (k l i : Nat) (b : List Byte) (a : GenBuffers) (r : Run) (v : Vocab),
    s.runAt k = some r →
    r.state = .running →
    r.stage = none →
    s.freeGen = some (l, i) →
    s.vocabOf (leField b 6 1) = some v →
    (s.genOk b = false → exec (.genOpen (.run k) b a) s = .next (s.reply (.run k) 0x0608)) ∧
    (s.genOk b = true → exec (.genOpen (.run k) b a) s = .next (s.genStart (.run k) b a l i v)) ∧
    (∃ g, (s.genStart (.run k) b a l i v).text.gens = s.text.gens ++ [g] ∧ g.lane = l ∧ g.idx = i ∧ g.owner = .run k ∧
      g.request = leField b 8 8 ∧ g.grammar = leField b 0x10 8 ∧ g.maxTokens = leField b 0x18 4 ∧ g.outCap = leField b 0x1C 4 ∧
      g.tokens = 0 ∧ g.released = 0 ∧ g.outAddr = a.outAddr)) ∧
  -- GEN_OPEN with no context free, or outside a running run
  (∀ (s : State) (k : Nat) (b : List Byte) (a : GenBuffers) (r : Run),
    s.runAt k = some r →
    s.freeGen = none →
    s.genOk b = true →
    r.stage = none →
    (r.state = .running → exec (.genOpen (.run k) b a) s = .next (s.reply (.run k) 0x0609)) ∧
    (r.state ≠ .running → exec (.genOpen (.run k) b a) s = .next s)) ∧
  -- GEN_STEP
  (∀ (s : State) (lane idx token : Nat) (g : GenCtx) (v : Vocab),
    s.genAt lane idx = some g →
    s.vocabOf g.vocab = some v →
    (s.grammarOf g.grammar = none → exec (.genStep lane idx token) s = .next (s.vocabLookups.genText { g with tokens := g.tokens + 1 } v token)) ∧
    (∀ gr st, s.grammarOf g.grammar = some gr → grammarStep gr v.eos g.state token = .error st →
      exec (.genStep lane idx token) s = .next (s.vocabLookups.genEnd { g with tokens := g.tokens + 1 } st 0 0)) ∧
    (∀ gr q, s.grammarOf g.grammar = some gr → grammarStep gr v.eos g.state token = .ok q →
      exec (.genStep lane idx token) s = .next (s.vocabLookups.genText { g with tokens := g.tokens + 1, state := q } v token))) ∧
  -- how the text of a step ends a request
  (∀ (s : State) (g : GenCtx) (v : Vocab) (token : Nat),
    let t := g.take v token
    let keep := heldSuffix t.stops t.held
    let out := t.held.take (t.held.length - keep)
    let all := t.held ++ t.carry.flatMap (fun _ => replacement)
    (∀ e n i, findStop t.stops t.held = some (e, n, i) → s.genText g v token =
      (let r := s.genRelease t (t.held.take (if t.includeStop then e else e - n)); r.2.genEnd r.1 0 2 i)) ∧
    (findStop t.stops t.held = none →
      (token = v.eos → v.eos ≠ 0xFFFFFFFF → s.genText g v token = (let r := s.genRelease t all; r.2.genEnd r.1 0 1 0)) ∧
      (token ≠ v.eos ∨ v.eos = 0xFFFFFFFF →
        (t.outCap < t.released + out.length → s.genText g v token = (let r := s.genRelease t out; r.2.genEnd r.1 0 3 0)) ∧
        (t.released + out.length ≤ t.outCap → t.maxTokens ≤ t.tokens → s.genText g v token =
          (let r := s.genRelease t all; r.2.genEnd r.1 0 (if t.released + all.length > t.outCap then 3 else 4) 0)))))

/-- A frozen queue restarts from RESUME_HEAD or from its tail; no other queue restarts. A Queue Restart of a frozen queue
ends the freeze and completes with status 0: ACTION 0 makes RESUME_HEAD the head, so that the device fetches again
from there, and ACTION 1 makes the current tail the head, which discards the entries between. Another queue is
untouched. For a queue that is not frozen, or that does not exist, it is refused with 0x0101 and changes nothing else.
Steps 1 to 3 of the rule are the software's. (R432) -/
def Obligations.QueueRestartsAfterFreeze : Prop :=
  -- QUEUE_RESTART_RESUME and QUEUE_RESTART_SKIP of a frozen queue
  (∀ (s : State) (fn q cid : Nat) (x : Queue),
    s.queueAt fn q = some x →
    x.frozen = true →
    (∃ u, exec (.queueRestartResume (.yqi fn 0 cid) q) s = .next (u.reply (.yqi fn 0 cid) 0 0 [x.resumeHead]) ∧
      u = s.updQueue fn q (fun y => { y with frozen := false, sqHead := x.resumeHead, resumeHead := 0 }) ∧
      ∃ y, u.queueAt fn q = some y ∧ y.frozen = false ∧ y.sqHead = x.resumeHead ∧ y.sqTail = x.sqTail ∧ y.cqTail = x.cqTail) ∧
    (∃ u, exec (.queueRestartSkip (.yqi fn 0 cid) q) s = .next (u.reply (.yqi fn 0 cid) 0 0 [x.sqTail]) ∧
      u = s.updQueue fn q (fun y => { y with frozen := false, sqHead := x.sqTail, resumeHead := 0 }) ∧
      ∃ y, u.queueAt fn q = some y ∧ y.frozen = false ∧ y.sqHead = x.sqTail ∧ y.sqTail = x.sqTail ∧ y.cqTail = x.cqTail)) ∧
  -- a queue that is not frozen, or does not exist
  (∀ (s : State) (fn q cid : Nat),
    ((∀ x, s.queueAt fn q = some x → x.frozen = false)) →
    exec (.queueRestartResume (.yqi fn 0 cid) q) s = .next (s.reply (.yqi fn 0 cid) 0x0101) ∧
    exec (.queueRestartSkip (.yqi fn 0 cid) q) s = .next (s.reply (.yqi fn 0 cid) 0x0101))

/-- Doorbells, fetching, range locks, completion, freezing, and the queues' life. A doorbell in range is taken; one out of
range is recorded, and freezes an I/O queue. The arbiter's queue gives one command, which is refused, held by a
policer, parked behind a conflicting range, or admitted with its lock; a parked one is admitted when its conflicts
clear. A completed command loses its lock and gets its CQ entry; a failed I/O command freezes its queue. Queues are
created in range, deleted once their admitted commands have run; the admin queue is enabled with a legal depth and
aligned bases; disabling it, a function reset and a link loss delete every queue of the functions concerned and no
other's. (R408, R409, R411, R415, R417, R430, R433, R434, R435, R436, R438, R442) -/
def Obligations.QueuesFetchAndComplete : Prop :=
  -- SQ_TAIL_DOORBELL and CQ_HEAD_DOORBELL
  (∀ (s : State) (fn q v : Nat) (x : Queue),
    s.queueAt fn q = some x →
    (v < x.depth → exec (.sqTailDoorbell fn q v) s = .next (s.updQueue fn q (fun x => { x with sqTail := v }))) ∧
    (x.depth ≤ v → exec (.sqTailDoorbell fn q v) s = .next (s.badDoorbell fn q)) ∧
    (v < x.depth → ringDist x.depth x.cqHead v ≤ ringDist x.depth x.cqHead x.cqTail →
      exec (.cqHeadDoorbell fn q v) s = .next (s.updQueue fn q (fun x => { x with cqHead := v }))) ∧
    (x.depth ≤ v ∨ ringDist x.depth x.cqHead x.cqTail < ringDist x.depth x.cqHead v →
      exec (.cqHeadDoorbell fn q v) s = .next (s.badDoorbell fn q))) ∧
  -- a doorbell to a queue that does not exist
  (∀ (s : State) (fn q v : Nat),
    s.queueAt fn q = none →
    exec (.sqTailDoorbell fn q v) s = .next s ∧ exec (.cqHeadDoorbell fn q v) s = .next s) ∧
  -- what a freeze leaves
  (∀ (s : State) (fn q : Nat) (x : Queue),
    s.queueAt fn q = some x →
    x.frozen = false →
    q ≠ 0 →
    let u := s.freezeQueue fn q
    u.yqi.parked = s.yqi.parked.filter (fun c => !(c.fn == fn && c.qid == q)) ∧ u.yqi.admitted = s.yqi.admitted ∧
    u.yqi.queues = s.yqi.queues.map (fun (y : Queue) => if y.fn = fn ∧ y.qid = q then { y with
      frozen := true, resumeHead := ((s.waitingOf fn q).head?.map (fun (c : Cmd) => c.idx)).getD x.sqHead } else y)) ∧
  -- COMMAND_FETCH
  (∀ (s : State) (a : HostAccess) (x : Queue),
    s.arbiter = some x →
    x.qid ≠ 0 →
    let c : Cmd := { fn := x.fn, qid := x.qid, idx := x.sqHead, entry := s.sqAt x x.sqHead }
    let t := s.updQueue x.fn x.qid (fun y => { y with sqHead := (y.sqHead + 1) % y.depth })
    exec (.commandFetch a) s = .next (State.arrive { t with yqi := { t.yqi with
      taken := (if s.yqi.turn = some (x.fn, x.qid) then s.yqi.taken % 64 + 1 else 1), turn := some (x.fn, x.qid) } } x c a)) ∧
  -- COMMAND_FETCH with nothing to fetch
  (∀ (s : State) (a : HostAccess),
    s.arbiter = none →
    exec (.commandFetch a) s = .next s) ∧
  -- what becomes of a fetched command
  (∀ (s : State) (x : Queue) (c : Cmd) (a : HostAccess),
    (∀ st d, s.cmdRefusal x c.entry a = some (st, d) →
      s.arrive x c a = State.reply { s with yqi := { s.yqi with admitted := s.yqi.admitted ++ [c] } } (.yqi c.fn c.qid c.entry.cid) st d) ∧
    (s.cmdRefusal x c.entry a = none → isPoliced c = false → s.arrive x c a = s.takeIn c) ∧
    (lockOf c = none → s.takeIn c = { s with yqi := { s.yqi with admitted := s.yqi.admitted ++ [c] } }) ∧
    (∀ l, lockOf c = some l → s.lockBlocked l s.yqi.parked = true →
      s.takeIn c = { s with yqi := { s.yqi with parked := s.yqi.parked ++ [c] } }) ∧
    (∀ l, lockOf c = some l → s.lockBlocked l s.yqi.parked = false →
      s.takeIn c = { s with yqi := { s.yqi with admitted := s.yqi.admitted ++ [c], locks := s.yqi.locks ++ [l] } })) ∧
  -- PARKED_ADMIT
  (∀ (s : State),
    (s.firstClear [] s.yqi.parked = none → exec .parkedAdmit s = .next s) ∧
    (∀ c, s.firstClear [] s.yqi.parked = some c → exec .parkedAdmit s = .next { s with yqi := { s.yqi with
      parked := s.yqi.parked.erase c, admitted := s.yqi.admitted ++ [c],
      locks := (match lockOf c with | some l => s.yqi.locks ++ [l] | none => s.yqi.locks) } }) ∧
    (s.yqi.parked = [] → s.firstClear [] s.yqi.parked = none)) ∧
  -- IO_COMMAND_COMPLETE
  (∀ (s : State) (fn q cid : Nat) (a : HostAccess) (d : CmdDone) (c : Cmd),
    s.doneCmd fn q cid = some (d, c) →
    s.heldBy (.yqi fn q cid) = none →
    exec (.ioCommandComplete fn q cid a) s = .next (s.finishCmd d c a).2 ∧
    (∀ x, s.queueAt d.fn d.qid = some x → x.deleting = none → d.data = [] → s.finishCmd d c a = (d.status, State.writeCq (State.unlock
      { s with yqi := { s.yqi with done := s.yqi.done.erase d, admitted := s.yqi.admitted.erase c } } (.yqi d.fn d.qid d.cid)) d c))) ∧
  -- the CQ entry of a failed I/O command freezes its queue
  (∀ (s : State) (d : CmdDone) (c : Cmd) (x : Queue),
    s.queueAt d.fn d.qid = some x →
    d.status ≠ 0 →
    d.qid ≠ 0 →
    x.frozen = false →
    x.irqEn = false →
    ∃ y, (s.writeCq d c).queueAt d.fn d.qid = some y ∧ y.frozen = true ∧ y.cqTail = (x.cqTail + 1) % x.depth ∧
      y.sqTail = x.sqTail ∧ y.resumeHead = ((s.waitingOf d.fn d.qid).head?.map (fun (c : Cmd) => c.idx)).getD x.sqHead) ∧
  -- COALESCE_TIMEOUT
  (∀ (s : State) (fn v : Nat) (f : Fn) (c : Coalesce),
    s.fnAt fn = some f →
    f.coalesce.find? (fun c => c.vector == v) = some c →
    (c.time ≠ 0 → c.count ≠ 0 → exec (.coalesceTimeout fn v) s = .next ((s.advance (c.firstAt + c.time * 1000)).raiseVector fn v)) ∧
    (c.time = 0 ∨ c.count = 0 → exec (.coalesceTimeout fn v) s = .next s) ∧
    (f.unmasked.contains v = true → (s.raiseVector fn v).out = s.out ++ [.msix fn v])) ∧
  -- QUEUE_CREATE
  (∀ (s : State) (fn cid q depth v sq cq : Nat) (irq : Bool) (f : Fn),
    s.fnAt fn = some f →
    (1 ≤ q → q < f.queues → s.queueAt fn q = none → 2 ≤ depth → depth ≤ 65536 → v < f.vectors → sq % 4096 = 0 → cq % 4096 = 0 →
      exec (.queueCreate (.yqi fn 0 cid) q depth v irq sq cq) s = .next (State.reply { s with yqi := { s.yqi with
        queues := s.yqi.queues ++ [{ fn := fn, qid := q, depth := depth, sqBase := sq, cqBase := cq, vector := v, irqEn := irq }] } }
          (.yqi fn 0 cid) 0)) ∧
    (q = 0 ∨ f.queues ≤ q ∨ (s.queueAt fn q).isSome = true ∨ depth < 2 ∨ 65536 < depth ∨ f.vectors ≤ v ∨ sq % 4096 ≠ 0 ∨ cq % 4096 ≠ 0 →
      exec (.queueCreate (.yqi fn 0 cid) q depth v irq sq cq) s = .next (s.reply (.yqi fn 0 cid) 0x0101))) ∧
  -- QUEUE_DELETE
  (∀ (s : State) (fn cid q : Nat),
    (∀ x, s.queueAt fn q = some x → q ≠ 0 → x.deleting = none →
      exec (.queueDelete (.yqi fn 0 cid) q) s = .next (s.beginDelete fn q (some cid))) ∧
    ((∀ x, s.queueAt fn q = some x → q = 0 ∨ x.deleting.isSome = true) →
      exec (.queueDelete (.yqi fn 0 cid) q) s = .next (s.reply (.yqi fn 0 cid) 0x0101)) ∧
    (s.beginDelete fn q (some cid)).yqi.parked = s.yqi.parked.filter (fun c => !(c.fn == fn && c.qid == q)) ∧
    (s.beginDelete fn q (some cid)).yqi.queues = s.yqi.queues.map (fun (y : Queue) => if y.fn = fn ∧ y.qid = q then { y with
      deleting := some (some cid) } else y)) ∧
  -- QUEUE_DELETE_DONE
  (∀ (s : State) (fn q : Nat) (x : Queue) (cid : Option Nat),
    s.queueAt fn q = some x →
    x.deleting = some cid →
    ((s.admittedOf fn q).isEmpty = false → exec (.queueDeleteDone fn q) s = .next s) ∧
    (∀ k, (s.admittedOf fn q).isEmpty = true → cid = some k →
      exec (.queueDeleteDone fn q) s = .next ((s.freeQueue fn q).reply (.yqi fn 0 k) 0)) ∧
    ((s.admittedOf fn q).isEmpty = true → cid = none → exec (.queueDeleteDone fn q) s = .next (s.freeQueue fn q)) ∧
    (s.freeQueue fn q).yqi.queues = s.yqi.queues.filter (fun x => !(x.fn == fn && x.qid == q)) ∧
    (s.freeQueue fn q).yqi.locks = s.yqi.locks.filter (fun l => !pathOfQueue l.path fn q)) ∧
  -- AQ_ENABLE and AQ_DISABLE
  (∀ (s : State) (fn : Nat) (v : Word) (f : Fn),
    s.fnAt fn = some f →
    (f.aqReady = false → v.getLsbD 12 = true → f.queues ≠ 0 → fld v 0 12 ≠ 0 → f.aqSq % 4096 = 0 → f.aqCq % 4096 = 0 →
      exec (.aqEnable fn v) s = .next (let u := s.setFn fn (fun f => { f with badConfig := false, aqReady := true, aqCfg := v &&& 0x0FFF1FFF });
        { u with yqi := { u.yqi with queues := u.yqi.queues ++ [
          { fn := fn, qid := 0, depth := fld v 0 12 + 1, sqBase := f.aqSq, cqBase := f.aqCq, vector := fld v 16 11,
            irqEn := v.getLsbD 27 }] } })) ∧
    (f.aqReady = false → v.getLsbD 12 = true → f.queues ≠ 0 → (fld v 0 12 = 0 ∨ f.aqSq % 4096 ≠ 0 ∨ f.aqCq % 4096 ≠ 0) →
      exec (.aqEnable fn v) s = .next (s.setFn fn (fun f => { f with badConfig := true, aqCfg := v &&& 0x0FFF0FFF }))) ∧
    (f.aqReady = true → exec (.aqEnable fn v) s = .next s) ∧
    (f.aqReady = true → v.getLsbD 12 = false → exec (.aqDisable fn v) s = .next (s.flr fn)) ∧
    (f.aqReady = false → v.getLsbD 12 = false →
      exec (.aqDisable fn v) s = .next (s.setFn fn (fun f => { f with aqCfg := v &&& 0x0FFF0FFF, badConfig := false })))) ∧
  -- FUNCTION_LEVEL_RESET
  (∀ (s : State) (fn : Nat),
    ((s.fnAt fn).isSome = true → exec (.functionLevelReset fn) s = .next (s.flr fn)) ∧
    ((s.fnAt fn).isSome = false → exec (.functionLevelReset fn) s = .next s) ∧
    (∀ f, (s.flr fn).fnAt fn = some f → f.aqReady = false ∧ f.burst = 8 ∧ f.unmasked = [] ∧ f.coalesce = []) ∧
    (∀ x ∈ (s.flr fn).yqi.queues, x.fn = fn → x.deleting.isSome = true)) ∧
  -- PCIE_LINK_DOWN and PCIE_LINK_UP
  (∀ (s : State) (l speed width : Nat) (flit : Bool),
    l < 2 →
    Completes (.pcieLinkDown l) s (fun t => (if l = 0 then t.yqi.link0 else t.yqi.link1) = {} ∧
      (if l = 0 then t.yqi.link1 else t.yqi.link0) = (if l = 0 then s.yqi.link1 else s.yqi.link0)) ∧
    exec (.pcieLinkDown l) s = .next (let u := ((s.yqi.fns.filter (fun f => f.g / 32 == l)).map (·.g)).foldl (fun s g => s.flr g) s;
      { u with yqi := (if l = 0 then { u.yqi with link0 := {} } else { u.yqi with link1 := {} }) }) ∧
    exec (.pcieLinkUp l flit speed width) s = .next { s with yqi := (if l = 0
      then { s.yqi with link0 := { up := true, flit := flit, speed := speed, width := width } }
      else { s.yqi with link1 := { up := true, flit := flit, speed := speed, width := width } }) }) ∧
  -- ADMIN commands never freeze their queue
  (∀ (s : State) (fn : Nat),
    (s.freezeQueue fn 0) = s)

/-- Identify, log pages, features, and the configuration image. Identify gives the device, a visible namespace, or the
function, and refuses another CNS. Get Log gives a page's bytes from a 64-byte offset, and reading the health page
clears its last-gasp bit. The features hold their ranges, belong to the physical function where the spec says so, and
change only what they name. A chunk enters the staging buffer at a 4 KiB offset; a commit is refused by quoin 13 or
the first failing check, or writes the inactive copy and its attempts, and with ACTIVATE the selector record. (R114,
R405, R406, R417, R424, R425, R426, R427, R428, R429, R569, R597) -/
def Obligations.AdminCommands : Prop :=
  -- IDENTIFY
  (∀ (s : State) (p : ReqPath) (nsid cns : Nat),
    exec (.identify p 0 nsid) s = .next (s.replyData p 0 0 [0] (slice (s.identifyDevice p) 0 4096)) ∧
    exec (.identify p 2 nsid) s = .next (s.replyData p 0 0 [0] (slice (identifyFn ((s.fnOf p).getD { g := pathFn p })) 0 4096)) ∧
    (∀ x, s.nsSeen nsid = some x → s.nsVisible (pathFn p) nsid = true →
      exec (.identify p 1 nsid) s = .next (s.replyData p 0 0 [0] (slice (s.identifyNs x) 0 4096))) ∧
    ((s.nsSeen nsid = none ∨ s.nsVisible (pathFn p) nsid = false) → exec (.identify p 1 nsid) s = .next (s.reply p 0x0302)) ∧
    (2 < cns → exec (.identify p cns nsid) s = .next (s.reply p 0x0101))) ∧
  -- GET_LOG
  (∀ (s : State) (p : ReqPath) (page off len : Nat),
    off % 64 = 0 →
    isVf p = false →
    exec (.getLog p 1 off len) s = .next (let b := s.errlog.page none off (min len (64 + 64 * 4096 - off)); s.replyData p 0 0 [b.length] b) ∧
    exec (.getLog p 2 off len) s = .next (let b := (s.healthBytes.drop off).take len;
      State.replyData { s with media := { s.media with health := { s.media.health with lgIncomplete := false } } } p 0 0 [b.length] b) ∧
    exec (.getLog p 3 off len) s = .next (let b := memRead s.obs.mem off (min len (s.obs.pages * 2 ^ 21 - off)); s.replyData p 0 0 [b.length] b) ∧
    exec (.getLog p 4 off len) s = .next (let b := (s.configPage.drop off).take len; s.replyData p 0 0 [b.length] b) ∧
    exec (.getLog p 5 off len) s = .next (let b := (s.sanitizePage.drop off).take len; s.replyData p 0 0 [b.length] b) ∧
    (5 < page → exec (.getLog p page off len) s = .next (s.reply p 0x0101))) ∧
  -- GET_LOG at another offset, or of a page a virtual function may not read
  (∀ (s : State) (p : ReqPath) (page off len : Nat),
    off % 64 ≠ 0 ∨ (isVf p = true ∧ page ≠ 1 ∧ page ≠ 2) →
    exec (.getLog p page off len) s = .next (s.reply p 0x0101)) ∧
  -- GET_FEATURE
  (∀ (s : State) (p : ReqPath) (sel : Nat) (f : Fn),
    s.fnOf p = some f →
    isVf p = false →
    exec (.getFeature p 1 sel) s = .next (s.reply p 0 0 [f.burst]) ∧
    (sel < f.vectors → exec (.getFeature p 2 sel) s = .next (s.reply p 0 0 [(f.coal sel).threshold + (f.coal sel).time * 2 ^ 16])) ∧
    (1 ≤ sel → sel ≤ 31 → ∀ v, s.fnAt (vfOf p sel) = some v →
      exec (.getFeature p 3 sel) s = .next (s.reply p 0 0 [v.queues + v.vectors * 2 ^ 16]) ∧
      exec (.getFeature p 5 sel) s = .next (s.replyData p 0 0 [0] (leBytes 32 v.nsVis.toNat))) ∧
    (∀ c o, s.media.nextLayout.getD s.media.layout = { cell := c, opHalf := o } →
      exec (.getFeature p 6 sel) s = .next (s.reply p 0 0 [c + o * 2 ^ 16]))) ∧
  -- SET_ARBITRATION
  (∀ (s : State) (p : ReqPath) (b : Nat),
    (1 ≤ b ∧ b ≤ 64 → exec (.setArbitration p b) s = .next ((s.setFn (pathFn p) (fun f => { f with burst := b })).reply p 0 0 [0])) ∧
    (b = 0 ∨ 64 < b → exec (.setArbitration p b) s = .next (s.reply p 0x0101))) ∧
  -- SET_COALESCING
  (∀ (s : State) (p : ReqPath) (v th t : Nat) (f : Fn),
    s.fnOf p = some f →
    (v < f.vectors → 1 ≤ th ∧ th ≤ 256 → t ≤ 255 → exec (.setCoalescing p v th t) s = .next ((s.setFn (pathFn p) (fun g => { g with
      coalesce := g.coalesce.filter (fun x => x.vector != v) ++ [{ f.coal v with threshold := th, time := t }] })).reply p 0 0 [0])) ∧
    (f.vectors ≤ v ∨ th = 0 ∨ 256 < th ∨ 255 < t → exec (.setCoalescing p v th t) s = .next (s.reply p 0x0101))) ∧
  -- SET_VF_RESOURCES
  (∀ (s : State) (p : ReqPath) (vf q n : Nat) (f : Fn),
    s.fnOf p = some f →
    isVf p = false →
    let v := (s.fnAt (vfOf p vf)).getD { g := vfOf p vf }
    (1 ≤ vf → vf ≤ 31 → f.vfEnabled = 0 → q ≤ f.queues + v.queues → n ≤ f.vectors + v.vectors →
      exec (.setVfResources p vf q n) s = .next ((((s.ensureFn (vfOf p vf)).setFn (vfOf p vf) (fun x => { x with queues := q, vectors := n })).setFn f.g
        (fun x => { x with queues := f.queues + v.queues - q, vectors := f.vectors + v.vectors - n })).reply p 0 0 [0])) ∧
    (vf = 0 ∨ 31 < vf ∨ f.vfEnabled ≠ 0 ∨ f.queues + v.queues < q ∨ f.vectors + v.vectors < n →
      exec (.setVfResources p vf q n) s = .next (s.reply p 0x0101))) ∧
  -- SET_NS_VISIBILITY
  (∀ (s : State) (p : ReqPath) (vf : Nat) (map : BitVec 256),
    isVf p = false →
    (1 ≤ vf ∧ vf ≤ 31 → exec (.setNsVisibility p vf map) s =
      .next (((s.ensureFn (vfOf p vf)).setFn (vfOf p vf) (fun x => { x with nsVis := map })).reply p 0 0 [0])) ∧
    (vf = 0 ∨ 31 < vf → exec (.setNsVisibility p vf map) s = .next (s.reply p 0x0101))) ∧
  -- features of the physical function, from a virtual one
  (∀ (s : State) (p : ReqPath) (vf q n c o : Nat) (map : BitVec 256) (f : Fn),
    isVf p = true →
    s.fnOf p = some f →
    exec (.setVfResources p vf q n) s = .next (s.reply p 0x0102) ∧ exec (.setNsVisibility p vf map) s = .next (s.reply p 0x0102) ∧
    exec (.setMediaLayout p c o) s = .next (s.reply p 0x0102)) ∧
  -- SET_MEDIA_LAYOUT
  (∀ (s : State) (p : ReqPath) (c o : Nat),
    isVf p = false →
    (s.quoinSet 15 = true → exec (.setMediaLayout p c o) s = .next (s.reply p 0x0F01)) ∧
    (s.quoinSet 15 = false → 1 ≤ c ∧ c ≤ 2 → 14 ≤ o ∧ o ≤ 100 → exec (.setMediaLayout p c o) s =
      .next (State.reply { s with media := { s.media with nextLayout := some { cell := c, opHalf := o } } } p 0 0 [0])) ∧
    (s.quoinSet 15 = false → c = 0 ∨ 2 < c ∨ o < 14 ∨ 100 < o → exec (.setMediaLayout p c o) s = .next (s.reply p 0x0101))) ∧
  -- FIRMWARE_DOWNLOAD
  (∀ (s : State) (p : ReqPath) (off : Nat) (b : List Byte),
    (off % 4096 = 0 → b.length % 4096 = 0 → off + b.length ≤ 2 ^ 28 → exec (.firmwareDownload p off b) s =
      .next (State.reply { s with yqi := { s.yqi with staging := memWrite s.yqi.staging off b } } p 0 0 [0])) ∧
    (off % 4096 ≠ 0 ∨ b.length % 4096 ≠ 0 ∨ 2 ^ 28 < off + b.length → exec (.firmwareDownload p off b) s = .next (s.reply p 0x0101))) ∧
  -- FIRMWARE_COMMIT, refused
  (∀ (s : State) (p : ReqPath) (act ok : Bool),
    (s.quoinSet 13 = true → exec (.firmwareCommit p act ok) s = .next (s.reply p 0x0F01)) ∧
    (s.quoinSet 13 = false → (s.configCheck s.stagedImage).1 ≠ 0 → exec (.firmwareCommit p act ok) s =
      .next (s.reply p (s.configCheck s.stagedImage).1 (s.configCheck s.stagedImage).2))) ∧
  -- the checks of an image, in order
  (∀ (s : State) (b c : List Byte),
    c = b.take (leField b 0x10 8) →
    (configHeadOk b s.flash.copyArea = false ∨ b.length < leField b 0x10 8 → s.configCheck b = (0x1004, 1)) ∧
    (configHeadOk b s.flash.copyArea = true → leField b 0x10 8 ≤ b.length →
      (s.configTargetOk c = false → s.configCheck b = (0x1004, 2)) ∧
      (s.configTargetOk c = true →
        (s.chainedKey (leField c 0x18 8) = false → s.configCheck b = (0x0F06, 0)) ∧
        (s.chainedKey (leField c 0x18 8) = true →
          (s.keyVerifies c (leField c 0x18 8) = false → s.configCheck b = (0x0F02, 0)) ∧
          (s.keyVerifies c (leField c 0x18 8) = true →
            (configSectsOk c = false → s.configCheck b = (0x1004, 3)) ∧
            (configSectsOk c = true → s.configCheck b = (0, 0))))))) ∧
  -- FIRMWARE_COMMIT, accepted
  (∀ (s : State) (p : ReqPath) (act : Bool),
    s.quoinSet 13 = false →
    (s.configCheck s.stagedImage).1 = 0 →
    ∃ t : State, exec (.firmwareCommit p act true) s = .next (t.reply p 0 0 [bitOf s.inactiveB]) ∧
      (s.inactiveB = true → t.flash.copyB = s.stagedImage ∧ t.flash.copyA = s.flash.copyA ∧ t.backup.attemptsB = 0 ∧
        t.backup.attemptsA = s.backup.attemptsA) ∧
      (s.inactiveB = false → t.flash.copyA = s.stagedImage ∧ t.flash.copyB = s.flash.copyB ∧ t.backup.attemptsA = 0 ∧
        t.backup.attemptsB = s.backup.attemptsB) ∧
      (act = false → t.flash.sector0 = s.flash.sector0 ∧ t.flash.sector1 = s.flash.sector1) ∧
      (act = true →
        (s.flash.selector = none → t.flash.sector0 = some { seq := 1, preferB := s.inactiveB } ∧ t.flash.sector1 = s.flash.sector1) ∧
        (∀ x, s.flash.selector = some (x, true) →
          t.flash.sector0 = some { seq := (x.seq + 1) % 2 ^ 32, preferB := s.inactiveB } ∧ t.flash.sector1 = s.flash.sector1) ∧
        (∀ x, s.flash.selector = some (x, false) →
          t.flash.sector1 = some { seq := (x.seq + 1) % 2 ^ 32, preferB := s.inactiveB } ∧ t.flash.sector0 = s.flash.sector0)) ∧
      t.yqi.staging = s.yqi.staging)

/-- Packets, the duplicate table, and the application of each message type. A packet wakes the part; a frame that its
policer stops, or that comes while Gnoz is off, is dropped. A packet that fails a check is counted and dropped; one
with a duplicate entry is answered with its result and has no other effect; else a message enters the inbox, with an
entry where its type takes one, or a reassembly context. A WRITE is checked against its key and stored; SEND, FORME
and STREAM_EVENT go to the next posted receive, or are refused with 0x0C02, 0x0C06 or 0x0C07; a READ is answered with
data or a status; returned data completes its request or matches nothing and is dropped; SYNC_ADD needs the permit and
adds; ARM releases the requests of its tag; CONTROL is refused or handed to the service. An ACK completes its message,
or is counted when it matches none. Entries expire. (R443, R447, R456, R457, R461, R464, R473, R474, R476, R477, R478,
R481) -/
def Obligations.GnozMessagesAreReceived : Prop :=
  -- GNOZ_FRAGMENT_RECEIVE, packets that are dropped
  (∀ (s w u : State) (p : GnozPacket) (ce : Bool),
    s.netFenced = false →
    s.power.tripAt = none →
    w = s.wakeEvent .packet →
    let second := if beField p.header 1 1 < 16 then some (0x100 + 4 * beField p.header 1 1) else none
    (w.policeFrame p.port (p.frameBytes + 20) p.dscp second = (false, ce, u) → exec (.gnozFragmentReceive p) s = .next u) ∧
    (w.policeFrame p.port (p.frameBytes + 20) p.dscp second = (true, ce, u) →
      (u.gnozEnabled = false → exec (.gnozFragmentReceive p) s = .next u) ∧
      (u.gnozEnabled = true → ∀ c, u.packetDrop p = some c → exec (.gnozFragmentReceive p) s = .next (u.gnzBump c)))) ∧
  -- GNOZ_FRAGMENT_RECEIVE, behind a fence or after a thermal trip
  (∀ (s : State) (p : GnozPacket),
    s.netFenced = true ∨ s.power.tripAt.isSome = true →
    exec (.gnozFragmentReceive p) s = .next s) ∧
  -- GNOZ_FRAGMENT_RECEIVE, a duplicate
  (∀ (s w u : State) (p : GnozPacket) (ce : Bool) (d : DupEntry),
    s.netFenced = false →
    s.power.tripAt = none →
    w = s.wakeEvent .packet →
    w.policeFrame p.port (p.frameBytes + 20) p.dscp (if beField p.header 1 1 < 16 then some (0x100 + 4 * beField p.header 1 1) else none) = (true, ce, u) →
    u.gnozEnabled = true →
    u.packetDrop p = none →
    u.gnoz.dups.find? (fun d => d.device == (parseHdr p.header).device && d.msgId == (parseHdr p.header).msgId) = some d →
    let m : InMsg := {
      hdr := parseHdr p.header, attempt := beField p.header 4 1, sendTime := beField p.header 0x38 4, path := beField p.header 8 1,
      port := p.port, ce := p.ce || ce,
      payload := ((u.route (parseHdr p.header).route).bind (fun r => u.openPacket r p.header p.payload p.tag)).getD p.payload }
    (d.result = none → exec (.gnozFragmentReceive p) s = .next (u.gnzBump 3)) ∧
    (∀ st r, d.result = some (st, r) → exec (.gnozFragmentReceive p) s = .next ((u.gnzBump 3).sendAck m st r))) ∧
  -- GNOZ_FRAGMENT_RECEIVE, a message of one fragment, and a fragment of a longer one
  (∀ (s w u v : State) (p : GnozPacket) (ce : Bool),
    s.netFenced = false →
    s.power.tripAt = none →
    w = s.wakeEvent .packet →
    w.policeFrame p.port (p.frameBytes + 20) p.dscp (if beField p.header 1 1 < 16 then some (0x100 + 4 * beField p.header 1 1) else none) = (true, ce, u) →
    u.gnozEnabled = true →
    u.packetDrop p = none →
    u.gnoz.dups.find? (fun d => d.device == (parseHdr p.header).device && d.msgId == (parseHdr p.header).msgId) = none →
    let m : InMsg := {
      hdr := parseHdr p.header, attempt := beField p.header 4 1, sendTime := beField p.header 0x38 4, path := beField p.header 8 1,
      port := p.port, ce := p.ce || ce,
      payload := ((u.route (parseHdr p.header).route).bind (fun r => u.openPacket r p.header p.payload p.tag)).getD p.payload }
    let count := beField p.header 0x14 2
    let isOpen := u.gnoz.reasm.any (fun x => x.hdr.device == (parseHdr p.header).device && x.hdr.msgId == (parseHdr p.header).msgId)
    let part (x : State) : State := x.reassemble m (beField p.header 0x12 2) count (beField p.header 0x16 1)
    (count = 1 ∨ isOpen = false → u.rxBuffer (parseHdr p.header) p.port p.payload.length = (false, v) →
      exec (.gnozFragmentReceive p) s = .next v) ∧
    (count = 1 → u.rxBuffer (parseHdr p.header) p.port p.payload.length = (true, v) →
      exec (.gnozFragmentReceive p) s = .next (v.complete m).2) ∧
    (count ≠ 1 → isOpen = false → u.rxBuffer (parseHdr p.header) p.port p.payload.length = (true, v) →
      exec (.gnozFragmentReceive p) s = .next (part v)) ∧
    (count ≠ 1 → isOpen = true → exec (.gnozFragmentReceive p) s = .next (part u))) ∧
  -- a complete message takes its duplicate-table entry first
  (∀ (s : State) (m : InMsg),
    (takesEntry m.hdr.kind m.hdr.flags = false → s.complete m = (true, { s with gnoz := { s.gnoz with inbox := s.gnoz.inbox ++ [m] } })) ∧
    (takesEntry m.hdr.kind m.hdr.flags = true →
      (65536 ≤ s.gnoz.dups.length → s.complete m = (false, (s.gnzBump 7).sendAck m 0x0C01)) ∧
      (s.gnoz.dups.length < 65536 → s.complete m = (true, { s with gnoz := { s.gnoz with
        dups := s.gnoz.dups ++ [{ device := m.hdr.device, msgId := m.hdr.msgId }], inbox := s.gnoz.inbox ++ [m] } })))) ∧
  -- GNOZ_RX_WRITE to a key that names no namespace range
  (∀ (s : State) (device msgId : Nat) (pl : Placement) (m : InMsg),
    s.inMsg device msgId 1 = some m →
    m.placed = false →
    m.hdr.kind = 1 →
    let st := s.keyCheck true m.hdr.rkey m.hdr.remoteAddr m.hdr.length
    (st ≠ 0 → exec (.gnozRxWrite device msgId pl) s = .next (s.writeEnd m st)) ∧
    (st = 0 → ∀ k, s.keyAt m.hdr.rkey = some k → k.kind = .bulk → s.keyStore m.hdr.rkey m.hdr.remoteAddr m.payload =
        { s with bulkMem := memWrite s.bulkMem (k.base + m.hdr.remoteAddr) m.payload } ∧
      exec (.gnozRxWrite device msgId pl) s = .next ((s.keyStore m.hdr.rkey m.hdr.remoteAddr m.payload).writeEnd m 0))) ∧
  -- GNOZ_RX_WRITE, whole fragments placed, and a message that is not there
  (∀ (s : State) (device msgId : Nat) (pl : Placement),
    (s.inMsg device msgId 1 = none → exec (.gnozRxWrite device msgId pl) s = .next s) ∧
    (∀ m, s.inMsg device msgId 1 = some m → m.placed = true → m.status ≠ 0 →
      exec (.gnozRxWrite device msgId pl) s = .next (s.writeEnd m m.status)) ∧
    (∀ m k ns, s.inMsg device msgId 1 = some m → m.placed = true → m.status = 0 → s.keyAt m.hdr.rkey = some k → k.kind = .nsRange ns →
      exec (.gnozRxWrite device msgId pl) s = .next (s.ingestWrite m k ns pl)) ∧
    (∀ m k ns, s.permits m 5 = false → s.ingestWrite m k ns pl = s.writeEnd m 0x0C08)) ∧
  -- GNOZ_RX_SEND, GNOZ_RX_FORME and GNOZ_RX_STREAM_EVENT
  (∀ (s : State) (device msgId : Nat) (m : InMsg),
    (s.inMsg device msgId 2 = some m → exec (.gnozRxSend device msgId) s = .next (s.intoReceive m)) ∧
    (s.inMsg device msgId 9 = some m → exec (.gnozRxForme device msgId) s = .next (s.intoReceive m)) ∧
    (s.inMsg device msgId 0xA = some m → exec (.gnozRxStreamEvent device msgId) s = .next (s.intoReceive m))) ∧
  -- into the next posted receive
  (∀ (s : State) (m : InMsg),
    let u := s.dropIn m
    (s.gqEnabled m.hdr.dstQueue = false → (s.gq m.hdr.dstQueue).recvs = [] → s.intoReceive m = u.ackApplied m 0x0C02) ∧
    (s.gqEnabled m.hdr.dstQueue = true → (s.gq m.hdr.dstQueue).recvs = [] → s.intoReceive m = (u.ackApplied m 0x0C06).dropEntry m) ∧
    (∀ i w rest, (s.gq m.hdr.dstQueue).recvs = (i, w) :: rest →
      let held := w.flags.testBit 2 && s.regFld (chkCtx 1 w.checkCtx 4) 0 1 == 1
      (held = true → s.intoReceive m = s) ∧
      (held = false → s.gqEnabled m.hdr.dstQueue = false → s.intoReceive m = u.ackApplied m 0x0C02) ∧
      (held = false → s.gqEnabled m.hdr.dstQueue = true → w.length < m.payload.length → s.intoReceive m = u.ackApplied m 0x0C07) ∧
      (s.gqEnabled m.hdr.dstQueue = true → m.payload.length ≤ w.length → w.flags.testBit 2 = false → s.intoReceive m =
        ((((u.setGq { u.gq m.hdr.dstQueue with recvs := rest }).gqWrite m.hdr.dstQueue w.localAddr m.payload).gqComplete
          m.hdr.dstQueue i 7 0 0 m.hdr.immediate m.payload.length m.hdr.device).ackApplied m 0)))) ∧
  -- GNOZ_RX_READ
  (∀ (s : State) (device msgId : Nat) (m : InMsg) (k : GnozKey),
    s.inMsg device msgId 3 = some m →
    s.keyAt m.hdr.rkey = some k →
    k.kind = .bulk →
    let u := s.dropIn m
    let st := s.keyCheck false m.hdr.rkey m.hdr.remoteAddr (m.hdr.immediate % 2 ^ 32)
    (st ≠ 0 → exec (.gnozRxRead device msgId) s = .next (u.ackApplied m st)) ∧
    (st = 0 → 16777216 < m.hdr.immediate % 2 ^ 32 → exec (.gnozRxRead device msgId) s = .next (u.ackApplied m 0x0C05)) ∧
    (st = 0 → m.hdr.immediate % 2 ^ 32 ≤ 16777216 → exec (.gnozRxRead device msgId) s = .next ((u.gnzBump 1).sendMsg {
      kind := 4, device := m.hdr.device, route := m.hdr.route, dstQueue := m.hdr.srcQueue, srcQueue := m.hdr.dstQueue,
      msgId := 0, length := 0, immediate := m.hdr.msgId }
        (s.bulkRead (k.base + m.hdr.remoteAddr) (m.hdr.immediate % 2 ^ 32)) .reply))) ∧
  -- GNOZ_RX_READ_DATA and GNOZ_RX_REPLY
  (∀ (s : State) (device msgId : Nat) (m : InMsg),
    (s.inMsg device msgId 4 = some m → exec (.gnozRxReadData device msgId) s = .next (s.returned m 3 3)) ∧
    (s.inMsg device msgId 8 = some m → exec (.gnozRxReply device msgId) s = .next (s.returned m 7 5)) ∧
    (∀ kind op, s.gnoz.out.find? (fun o => o.minted && o.hdr.kind == kind && o.hdr.msgId == m.hdr.immediate % 2 ^ 48 &&
        o.hdr.device == m.hdr.device) = none → s.returned m kind op = s.dropIn m) ∧
    (∀ kind op o q i x addr cap, s.gnoz.out.find? (fun o => o.minted && o.hdr.kind == kind && o.hdr.msgId == m.hdr.immediate % 2 ^ 48 &&
        o.hdr.device == m.hdr.device) = some o → o.owner = .wr q i x addr cap → m.payload.length ≤ cap →
      s.returned m kind op = (((((s.dropIn m).endOut o).gqWrite q addr m.payload).gqComplete q i op 0 0 0 m.payload.length
        m.hdr.device).ackApplied m 0))) ∧
  -- GNOZ_RX_SYNC_ADD
  (∀ (s : State) (device msgId : Nat) (m : InMsg),
    s.inMsg device msgId 5 = some m →
    let u := s.dropIn m
    let p := m.hdr.immediate % 65536
    (s.permits m 6 = false → exec (.gnozRxSyncAdd device msgId) s = .next (u.ackApplied m 0x0C08)) ∧
    (s.permits m 6 = true → exec (.gnozRxSyncAdd device msgId) s =
      .next ((u.remoteAdd device m.hdr.immediate).2.ackApplied m (u.remoteAdd device m.hdr.immediate).1)) ∧
    (s.fieldFenced = true → s.remoteAdd device m.hdr.immediate = (0x1002, s)) ∧
    (s.fieldFenced = false → p < 49152 → s.remoteAdd device m.hdr.immediate = (0x0B05, s)) ∧
    (s.fieldFenced = false → m.hdr.immediate / 2 ^ 40 = 0 → 49152 ≤ p → m.hdr.immediate / 2 ^ 24 % 65536 ≠ 0 → (s.ctr p).owner.isSome = true → (s.ctr p).remote = true →
      (s.ctr p).gen = m.hdr.immediate / 2 ^ 16 % 256 → s.remoteAdd device m.hdr.immediate =
        (let r := s.counterAdd p (m.hdr.immediate / 2 ^ 24 % 65536) (sigRemote device) device 0xFFFF
         (r.1, r.2.bump (synBase + 0x40) (synBase + 0x48) 0)))) ∧
  -- GNOZ_RX_ARM
  (∀ (s : State) (device msgId : Nat) (m : InMsg),
    s.inMsg device msgId 0xB = some m →
    let u := s.dropIn m
    let g := u.gq m.hdr.dstQueue
    let rel := g.armed.filter (fun x => x.2.armTag == m.hdr.immediate % 65536)
    (rel = [] → exec (.gnozRxArm device msgId) s = .next (u.ackApplied m 0 0)) ∧
    (rel ≠ [] → exec (.gnozRxArm device msgId) s = .next ((u.setGq { g with
      armed := g.armed.filter (fun x => !(x.2.armTag == m.hdr.immediate % 65536)), released := g.released ++ rel }).ackApplied m 0 rel.length))) ∧
  -- GNOZ_RX_CONTROL
  (∀ (s : State) (device msgId : Nat) (m : InMsg),
    s.inMsg device msgId 7 = some m →
    let u := s.dropIn m
    (m.hdr.dstQueue ≠ 0 → exec (.gnozRxControl device msgId) s = .next (u.ackApplied m 0x0C02)) ∧
    (m.hdr.dstQueue = 0 → s.permits m 4 = false → exec (.gnozRxControl device msgId) s = .next (u.ackApplied m 0x0C08)) ∧
    (m.hdr.dstQueue = 0 → s.permits m 4 = true → controlOk m.payload = false →
      exec (.gnozRxControl device msgId) s = .next (u.ackApplied m 0x0C0A)) ∧
    (m.hdr.dstQueue = 0 → s.permits m 4 = true → controlOk m.payload = true →
      let c : ControlReq := { device := device, msgId := msgId, queue := m.hdr.srcQueue, route := m.hdr.route, path := m.path }
      let t : State := { u with gnoz := { u.gnoz with controls := u.gnoz.controls ++ [c] } }
      (s.trust.pending = false → exec (.gnozRxControl device msgId) s = .next t) ∧
      (s.trust.pending = true → exec (.gnozRxControl device msgId) s = .next (t.controlReply c 0x0F03 0 0 [])))) ∧
  -- GNOZ_RX_ACK that matches no message
  (∀ (s : State) (device msgId : Nat) (a : InMsg),
    s.inMsg device msgId 0xC = some a →
    s.gnoz.out = [] →
    (a.hdr.flags.testBit 2 = false → exec (.gnozRxAck device msgId) s = .next ((s.dropIn a).gnzBump 9)) ∧
    (a.hdr.flags.testBit 2 = true → exec (.gnozRxAck device msgId) s = .next (((s.dropIn a).gnzBump 10).gnzBump 9))) ∧
  -- GNOZ_RX_ACK that completes a message, or refuses it
  (∀ (s : State) (device msgId i : Nat) (a : InMsg) (m : OutMsg),
    s.inMsg device msgId 0xC = some a →
    s.gnoz.out.findIdx? (fun o => o.minted && !o.ended && o.hdr.msgId == a.hdr.immediate % 2 ^ 48 && o.hdr.device == device) = some i →
    s.gnoz.out[i]? = some m →
    a.hdr.flags.testBit 2 = false →
    a.hdr.flags.testBit 3 = false →
    m.flight = [] →
    let u := s.dropIn a
    let st : Status := BitVec.ofNat 16 (a.hdr.immediate / 2 ^ 48)
    (st ≠ 0x0C01 → (st ≠ 0x0C06 ∨ m.hdr.kind ≠ 2) → (st ≠ 0 ∨ (m.hdr.kind ≠ 3 ∧ m.hdr.kind ≠ 7)) →
      exec (.gnozRxAck device msgId) s = .next (u.messageEnd m st (if st = 0x0C04 then (if m.attempt = 0 then 1 else 2) else 0)
        (a.hdr.remoteAddr / 2 ^ 32))) ∧
    (st = 0x0C06 → m.hdr.kind = 2 → exec (.gnozRxAck device msgId) s = .next (u.setOut i { m with refused := st, busy := false })) ∧
    (st = 0x0C01 → m.attempt < 255 → s.now < m.bornAt + 400000000 →
      exec (.gnozRxAck device msgId) s = .next ((u.setOut i { m with busy := true }).retransmit i { m with busy := true }))) ∧
  -- DUP_ENTRY_EXPIRY and REASSEMBLY_EXPIRY
  (∀ (s : State) (device msgId : Nat),
    let d := s.ageTicks msgId
    (500 < d ∧ d < 65486 → exec (.dupEntryExpiry device msgId) s = .next { s with gnoz := { s.gnoz with
        dups := s.gnoz.dups.filter (fun e => !(e.device == device && e.msgId == msgId)) } } ∧
      exec (.reassemblyExpiry device msgId) s = .next { s with gnoz := { s.gnoz with
        reasm := s.gnoz.reasm.filter (fun x => !(x.hdr.device == device && x.hdr.msgId == msgId)) } }) ∧
    (d ≤ 500 ∨ 65486 ≤ d → exec (.dupEntryExpiry device msgId) s = .next s ∧ exec (.reassemblyExpiry device msgId) s = .next s)) ∧
  -- FRAME_DISCARD
  (∀ (s u : State) (f : FrameInfo) (c : DiscardCause),
    (s.policeOther f none = (true, u) → exec (.frameDiscard f c) s = .next (u.gnzBump 12)) ∧
    (s.policeOther f none = (false, u) → exec (.frameDiscard f c) s = .next u))

/-- Work requests, retransmission and expiry, and the transport's tables, queues, clock and ports. The next request of a
queue with the command's operation is malformed (0x0C09), ended with 0x1002 behind a fence, set aside when armed, held
by its wait or its check context, or started; a WRITE, SEND, READ, SYNC_ADD, CONTROL or ARM with a valid destination
goes out as a message of its type, a RECV is posted. An RTO expiry sends again with a raised ATTEMPT and a doubled
RTO, or gives up with 0x0C01; a message of 400 ms gives up; an ended forme is sent again. Table commands read, write
or invalidate what the selector names, with the status of the first failing check; a run registers keys and takes
queues. Clock, ports and configuration take legal writes and refuse the others. Frames to the port itself are
answered. (R444, R450, R452, R453, R455, R466, R467, R468, R470, R480, R487, R488) -/
def Obligations.GnozSendsAndIsConfigured : Prop :=
  -- GNZ_Q_DOORBELL
  (∀ (s : State) (q : Nat) (v : Word),
    s.regsWf = true →
    q < 4096 →
    Completes (.gnzQDoorbell q v) s fun t => fld (t.reg (0xA10018 + q * 0x40)) 0 17 = fld v 0 17 ∧
      (∀ o, o ≠ 0xA10018 + q * 0x40 → t.reg o = s.reg o) ∧ t.gnoz = s.gnoz) ∧
  -- the work requests: each command takes the next request of its operation
  (∀ (s : State) (q i : Nat) (w : WorkReq) (armed : Bool),
    s.gqNext q = some (i, w, armed) →
    s.blockHeld 7 = false →
    (s.gq q).sealWaits.find? (fun x => x.2.2.isEmpty && !s.wrHeld x.2.1) = none →
    let goes := s.netFenced = false ∧ s.wrOk q w = true ∧ (w.flags.testBit 1 = false ∨ armed = true) ∧ s.wrReady w = true ∧ s.wrHeld w = false
    (∀ op, w.op ≠ op → 1 ≤ w.op → w.op ≤ 7 → s.wrStart q op = s) ∧
    (s.netFenced = true → s.wrStart q w.op = (s.gqTake q armed).wrRefuse q i w 0x1002) ∧
    (s.netFenced = false → s.wrOk q w = false → s.wrStart q w.op = (s.gqTake q armed).wrRefuse q i w 0x0C09) ∧
    (s.netFenced = false → s.wrOk q w = true → w.flags.testBit 1 = true → armed = false →
      s.wrStart q w.op = let u := s.gqTake q false
        if (u.gq q).armed.length ≥ 256 then u.wrRefuse q i w 0x0C09 else u.setGq { u.gq q with armed := (u.gq q).armed ++ [(i, w)] }) ∧
    (s.netFenced = false → s.wrOk q w = true → w.flags.testBit 1 = false ∨ armed = true → s.wrReady w = false ∨ s.wrHeld w = true →
      s.wrStart q w.op = s.setGq { s.gq q with waiting := true }) ∧
    (goes → w.op = 1 → exec (.wrWrite q) s = .next ((s.gqTake q armed).wrRun q i w)) ∧
    (goes → w.op = 2 → exec (.wrSend q) s = .next ((s.gqTake q armed).wrRun q i w)) ∧
    (goes → w.op = 3 → exec (.wrRead q) s = .next ((s.gqTake q armed).wrRun q i w)) ∧
    (goes → w.op = 4 → exec (.wrSyncAdd q) s = .next ((s.gqTake q armed).wrRun q i w)) ∧
    (goes → w.op = 5 → exec (.wrControl q) s = .next ((s.gqTake q armed).wrRun q i w)) ∧
    (goes → w.op = 6 → exec (.wrArm q) s = .next ((s.gqTake q armed).wrRun q i w)) ∧
    (goes → w.op = 7 → exec (.wrRecv q) s = .next ((s.gqTake q armed).wrRun q i w))) ∧
  -- a sealed write whose group has ended while its check context was held goes first
  (∀ (s : State) (q : Nat) (x : Nat × WorkReq × List Nat),
    (s.gq q).sealWaits.find? (fun x => x.2.2.isEmpty && !s.wrHeld x.2.1) = some x →
    exec (.wrWrite q) s = .next ((s.setGq { s.gq q with sealWaits := (s.gq q).sealWaits.erase x }).sendChecked q x.1 x.2.1)) ∧
  -- what a request does when it starts
  (∀ (s : State) (q i : Nat) (w : WorkReq),
    (w.op = 7 → s.wrRun q i w = s.setGq { s.gq q with recvs := (s.gq q).recvs ++ [(i, w)] }) ∧
    (w.op ≠ 7 → (s.handle w.dest).isNone = true → s.wrRun q i w = s.wrRefuse q i w 0x0C02) ∧
    ((s.handle w.dest).isSome = true →
      (w.op = 3 → w.replyCap < w.length → s.wrRun q i w = s.wrRefuse q i w 0x0C07) ∧
      (w.op = 3 → w.length ≤ w.replyCap → s.wrRun q i w = s.sendWr q i w []) ∧
      (w.op = 4 ∨ w.op = 6 → s.wrRun q i w = s.sendWr q i w []) ∧
      (w.op = 2 ∨ w.op = 5 → w.flags.testBit 2 = false → (s.gqRead q w.localAddr w.length).length ≤ 16777216 →
        s.wrRun q i w = s.sendWr q i w (s.gqRead q w.localAddr w.length)) ∧
      (w.op = 1 → w.flags.testBit 0 = false → w.flags.testBit 2 = false → (s.gqRead q w.localAddr w.length).length ≤ 16777216 →
        s.wrRun q i w = (s.setGq { s.gq q with group := (s.gq q).group ++ [i] }).sendWr q i w (s.gqRead q w.localAddr w.length)))) ∧
  -- RTO_EXPIRY and MESSAGE_EXPIRY
  (∀ (s : State) (i : Nat) (m : OutMsg),
    s.gnoz.out[i]? = some m →
    let u := s.advance m.rtoAt
    ((m.minted = false ∨ m.acked = true ∨ m.ended = true ∨ m.nextFrag < m.frags) → exec (.rtoExpiry i) s = .next s) ∧
    (m.minted = true → m.acked = false → m.ended = false → m.frags ≤ m.nextFrag →
      (m.attempt < 255 → u.now < m.bornAt + 400000000 → exec (.rtoExpiry i) s = .next (u.retransmit i m)) ∧
      (255 ≤ m.attempt ∨ m.bornAt + 400000000 ≤ u.now → exec (.rtoExpiry i) s = .next (u.giveUp m))) ∧
    (m.acked = true ∨ m.ended = true → exec (.messageExpiry i) s = .next s) ∧
    (m.acked = false → m.ended = false → 255 ≤ m.attempt → exec (.messageExpiry i) s = .next (s.giveUp m)) ∧
    (m.acked = false → m.ended = false → m.attempt < 255 →
      exec (.messageExpiry i) s = .next ((s.advance (m.bornAt + 400000000)).giveUp m)) ∧
    (m.refused = 0 → s.giveUp m = s.messageEnd m 0x0C01 (if m.busy then 2 else 1) 0) ∧
    (m.refused ≠ 0 → s.giveUp m = s.messageEnd m m.refused 0 0)) ∧
  -- what a retransmission changes in its message, while nothing is sent
  (∀ (s : State) (i : Nat) (m : OutMsg),
    s.gnoz.out[i]? = some m →
    s.gnozSends = false →
    m.flight = [] →
    (s.retransmit i m).gnoz.out[i]? = some { m with
      attempt := m.attempt + 1, rto := min 25600000 (2 * m.rto), flight := [], resend := [m.frags - 1], probe := decide (m.frags > 1) } ∧
    ((s.retransmit i m).pathState m.hdr.route m.lastPath).window = 16384) ∧
  -- FORME_RESEND, while nothing is sent
  (∀ (s : State) (c n : Nat) (m : OutMsg),
    s.gnozSends = false →
    m ∈ s.gnoz.out →
    m.owner = .forme c n →
    m.ended = true →
    s.ctxServed c = true →
    Completes .formeResend s fun t => t.regs = s.regs ∧
      { hdr := { m.hdr with msgId := 0 }, payload := m.payload, owner := m.owner, shift := m.shift, bornAt := s.now } ∈ t.gnoz.out) ∧
  -- GNOZ_HOLDOFF_END
  (∀ (s : State),
    (s.ready = true → exec .gnozHoldoffEnd s = .next (State.pump { s with gnoz := { s.gnoz with started := true } })) ∧
    (s.ready = false → exec .gnozHoldoffEnd s = .next s)) ∧
  -- GNZ_TABLE_READ
  (∀ (s : State),
    Completes .gnzTableRead s fun t => t.gnoz.tableStatus = 0 ∧ t.regs = s.regs ∧ t.gnoz.routes = s.gnoz.routes ∧
      t.gnoz.keys = s.gnoz.keys ∧ t.gnoz.tableData = bytesToWords (if s.tableSel.1
        then (match s.keyEntry s.tableSel.2 with | some k => keyBytes k | none => List.replicate 64 0)
        else (match s.gnoz.routes.find? (fun r => r.index == s.tableSel.2) with | some r => routeBytes r | none => List.replicate 64 0))) ∧
  -- GNZ_TABLE_WRITE and GNZ_TABLE_INVALIDATE of a route
  (∀ (s : State) (i : Nat),
    s.tableSel = (false, i) →
    let b := s.tableBytes
    let r := parseRoute i b
    let bad := 2 ^ 24 ≤ r.device ∨ r.flag 7 = true ∨ r.pathMask = 0 ∨ r.pathPort.any (fun p => decide (p ≥ 64)) = true ∨ leField b 0x2C 20 ≠ 0
    let noKey := (r.flag 2 = false ∧ s.lc ≠ .provisioned) ∨ (r.flag 2 = true ∧ s.pairHeld r.keyId = false)
    (s.quoinSet 8 = true → exec .gnzTableWrite s = .next (s.tableEnd 0x0F01) ∧ exec .gnzTableInvalidate s = .next (s.tableEnd 0x0F01)) ∧
    (s.quoinSet 8 = false → bad → exec .gnzTableWrite s = .next (s.tableEnd 0x0101)) ∧
    (s.quoinSet 8 = false → ¬bad → noKey → exec .gnzTableWrite s = .next ((s.log 0x0C0D 0xA00000 i).tableEnd 0x0C0D)) ∧
    (s.quoinSet 8 = false → ¬bad → ¬noKey → exec .gnzTableWrite s = .next (State.tableEnd { s with gnoz := { s.gnoz with
      routes := (s.gnoz.routes.filter (fun (x : Route) => x.index != i)) ++ [r],
      prevKeys := match (s.route i).filter (fun x => x.flag 2 && x.keyId != r.keyId) with
        | some x => s.gnoz.prevKeys.filter (fun (y : Nat × Nat × Nat) => y.1 != i) ++ [(i, x.keyId, s.now)]
        | none => s.gnoz.prevKeys,
      paths := s.gnoz.paths.filter (fun (x : PathState) => x.route != i) } } 0)) ∧
    (s.quoinSet 8 = false → exec .gnzTableInvalidate s = .next (State.tableEnd { s with gnoz := { s.gnoz with
      routes := s.gnoz.routes.map (fun (r : Route) => if r.index = i then { r with flags := r.flags / 2 * 2 } else r) } } 0))) ∧
  -- GNZ_TABLE_INVALIDATE of a key, and a registration
  (∀ (s : State) (i base len notify : Nat) (w r : Bool) (kind : KeyKind),
    s.tableSel = (true, i) →
    s.runKey i = none →
    (∀ k, s.keyEntry i = some k → k.valid = true →
      exec .gnzTableInvalidate s = .next ((s.setKey { k with valid := false, gen := (k.gen + 1) % 256 }).tableEnd 0)) ∧
    (∀ k, s.keyEntry i = some k → k.valid = false → exec .gnzTableInvalidate s = .next (s.tableEnd 0)) ∧
    (s.keyEntry i = none → exec .gnzTableInvalidate s = .next (s.tableEnd 0)) ∧
    (∀ k, s.keyEntry i = some k → (s.coarse + 65536 - k.registeredAt) % 65536 < 4 → s.registerKey i kind base len w r notify = (0x0C0B, s)) ∧
    (∀ k, s.keyEntry i = some k → 4 ≤ (s.coarse + 65536 - k.registeredAt) % 65536 → s.registerKey i kind base len w r notify =
      (0, s.setKey
        { index := i, valid := true, kind := kind, base := base, length := len, write := w, read := r, notify := notify,
          gen := (k.gen + 1) % 256, registeredAt := s.coarse })) ∧
    (let b := s.tableBytes
    let w0 := leField b 0 4
    let other := w0 / 16 % 4096 ≠ 0 ∨ leField b 0x1C 36 ≠ 0
    let done (kd : KeyKind) : Host.Outcome State Fault Refusal :=
      let x := s.registerKey i kd (leField b 4 8) (leField b 0xC 8) (w0.testBit 2) (w0.testBit 3) (w0 / 65536)
      .next (x.2.tableEnd x.1.toNat)
    (w0 % 4 = 0 ∨ w0 % 4 = 2 ∨ other → exec .gnzTableWrite s = .next (s.tableEnd 0x0101)) ∧
    (w0 % 4 = 1 → ¬other → leField b 4 8 + leField b 0xC 8 ≤ 2 ^ 41 → exec .gnzTableWrite s = done .bulk) ∧
    (w0 % 4 = 1 → 2 ^ 41 < leField b 4 8 + leField b 0xC 8 → exec .gnzTableWrite s = .next (s.tableEnd 0x0101)) ∧
    (∀ x, w0 % 4 = 3 → ¬other → s.nsSeen (leField b 0x14 4) = some x → leField b 4 8 + (leField b 0xC 8 + 4095) / 4096 ≤ 4 * x.cap →
      exec .gnzTableWrite s = done (.nsRange (leField b 0x14 4))) ∧
    (w0 % 4 = 3 → s.nsSeen (leField b 0x14 4) = none → exec .gnzTableWrite s = .next (s.tableEnd 0x0101)))) ∧
  -- KEY_REGISTER
  (∀ (s : State) (k i base len notify : Nat) (w r : Bool) (x : Run),
    s.running k = some x →
    i ≤ 65535 →
    (∀ y, s.keyEntry i = some y → y.valid = true → y.kind ≠ .run k →
      exec (.keyRegister k i base len w r notify) s = .next (s.reply (.run k) 0x0C0B)) ∧
    (s.keyEntry i = none → exec (.keyRegister k i base len w r notify) s = .next (State.reply (s.setKey
        { index := i, valid := true, kind := .run k, base := base, length := len, write := w, read := r, notify := notify,
          gen := 1, registeredAt := s.coarse }) (.run k) 0 0 [1]))) ∧
  -- GNZ_QUEUE_ALLOC
  (∀ (s : State) (k n wr cq : Nat) (x : Run),
    s.running k = some x →
    4 ≤ n ∧ n ≤ 16 →
    wr % 64 = 0 ∧ cq % 64 = 0 →
    let free := (List.range 4096).find? (fun q => q != 0 && !s.gqEnabled q && (s.gq q).run.isNone)
    (64 ≤ (s.gnoz.queues.filter (fun q => q.run == some k)).length → exec (.gnzQueueAlloc k n wr cq) s = .next (s.reply (.run k) 0x0C0E)) ∧
    ((s.gnoz.queues.filter (fun q => q.run == some k)).length < 64 →
      (free = none → exec (.gnzQueueAlloc k n wr cq) s = .next (s.reply (.run k) 0x0C0E)) ∧
      (∀ q, free = some q → ∃ t, exec (.gnzQueueAlloc k n wr cq) s = .next (State.reply t (.run k) 0 0 [q]) ∧
        (t.gq q).run = some k ∧ (t.gq q).head = 0 ∧ t.mgr = s.mgr))) ∧
  -- GNZ_CLOCK_WRITE
  (∀ (s : State) (v : Word),
    (s.gnoz.ptpLocked = true → exec (.gnzClockWrite v) s = .next s) ∧
    (s.gnoz.ptpLocked = false → Completes (.gnzClockWrite v) s fun t => t.gnoz.timeSet = true ∧
      t.gnozTime = v.toNat * 2 ^ 32 + (s.reg 0xA00018).toNat ∧ t.now = s.now ∧ t.regs = s.regs)) ∧
  -- PTP_MESSAGE
  (∀ (s u : State) (f : FrameInfo) (offset : Int) (locked : Bool),
    s.policeOther f none = (true, u) →
    ((u.regFld 0xA00014 0 1 = 0 ∨ u.regFld 0xA00014 1 6 ≠ f.port) → ∀ d, exec (.ptpMessage f offset locked d) s = .next (u.gnzBump 12)) ∧
    (u.regFld 0xA00014 0 1 ≠ 0 → u.regFld 0xA00014 1 6 = f.port → exec (.ptpMessage f offset locked none) s =
      .next { u with gnoz := { u.gnoz with clockOffset := offset, ptpLocked := locked } })) ∧
  -- ARP_NEIGHBOUR_RX and ICMP_ECHO_RX
  (∀ (s u : State) (f : FrameInfo) (addr payload : List Byte),
    s.policeOther f none = (true, u) →
    ((u.portAddrs f.port).contains addr = true → addr.any (· != 0) = true → exec (.arpNeighbourRx f addr) s =
      .next (u.enqueueSp0 f.port { wire := if addr.length = 4 then 84 else 106, gnoz := false, send := .ethFrame f.port 1 addr })) ∧
    ((u.portAddrs f.port).contains addr = false → exec (.arpNeighbourRx f addr) s = .next u) ∧
    exec (.icmpEchoRx f payload) s = .next (u.enqueueSp0 f.port { wire := f.wire, gnoz := false, send := .ethFrame f.port 2 payload })) ∧
  -- GNZ_ETH_MODE_WRITE and ETH_PORT_LINK_CHANGE
  (∀ (s : State) (v : Word) (lp : Nat) (up : Bool),
    s.regsWf = true →
    Completes (.gnzEthModeWrite v) s (fun t => fld (t.reg 0xA00010) 0 16 = fld v 0 16 ∧ (∀ o, o ≠ 0xA00010 → t.reg o = s.reg o) ∧
      t.gnoz.portsUp = s.gnoz.portsUp.filter (fun (p : Nat × Nat) => s.ethMode (p.1 / 8) == t.ethMode (p.1 / 8))) ∧
    ((s.portExists lp = false ∨ s.netFenced = true) → exec (.ethPortLinkChange lp up) s = .next s) ∧
    (s.portExists lp = true → s.netFenced = false → exec (.ethPortLinkChange lp up) s = .next (State.pump { s with gnoz := { s.gnoz with
      portsUp := (if up then s.gnoz.portsUp.filter (fun (p : Nat × Nat) => p.1 != lp) ++ [(lp, s.portSpeed lp)]
        else s.gnoz.portsUp.filter (fun (p : Nat × Nat) => p.1 != lp)) } }))) ∧
  -- GNZ_CFG_WRITE
  (∀ (s : State) (v : Word),
    ((fld v 0 10 < 10 ∨ 1000 < fld v 0 10) → exec (.gnzCfgWrite true v) s = .next (s.log 0x0101 0xA00000 0xA0000C v.toNat)) ∧
    (10 ≤ fld v 0 10 → fld v 0 10 ≤ 1000 → exec (.gnzCfgWrite true v) s = .next (s.plainWrite 0xA0000C v)) ∧
    (s.quoinSet 6 = false → s.udpPortBad (fld v 0 16) = true → exec (.gnzCfgWrite false v) s = .next (s.log 0x0101 0xA00000 0xA00004 v.toNat)) ∧
    (s.quoinSet 6 = true ∨ s.udpPortBad (fld v 0 16) = false → exec (.gnzCfgWrite false v) s = .next (s.plainWrite 0xA00004 v).pump) ∧
    (s.udpPortBad 0 = true ∧ s.udpPortBad 319 = true ∧ s.udpPortBad 320 = true))

/-- Buffer allocation and operations, shadow configuration, policer ticks, and the egress scheduler. A request for a
buffer gets one of the first pool, from its home pool up, that passes the test; else it joins the wait list or is
counted, by its class. FREE, DROP, SHARE and HANDOVER change the buffer as the table says or are refused with its
status and change no buffer; a buffer given back goes to the oldest waiting request it can serve. A legal
configuration write leaves every value in force as it is until the tick, which applies all of them; an illegal one
changes no configuration. A policer tick clamps and refills each enabled policer. A port that is up sends the head
frame of the strict queue of least number that can send, else of a weighted one. Whatever a command does not name is
unchanged. (R496, R497, R499, R502, R503, R505, R507, R509, R512, R514, R515, R516) -/
def Obligations.PoolsPolicersAndEgress : Prop :=
  -- BUFFER_REQUEST
  (∀ (s : State) (die port unit cls size idx : Nat),
    die ≤ 1 ∧ cls ≤ 7 →
    1 ≤ size ∧ size ≤ 2 ^ 23 →
    let home := homePool size
    home ≤ 15 ∧ size ≤ 256 * 2 ^ home ∧ (∀ i, i < home → 256 * 2 ^ i < size) ∧
    (∀ q, home ≤ q → q ≤ 15 → s.poolGrants die q cls = true → (∀ p, home ≤ p → p < q → s.poolGrants die p cls = false) →
      Completes (.bufferRequest die port unit cls size idx) s fun t => t.pools.waits = s.pools.waits ∧ t.pools.bufs = s.pools.bufs ++
        [{ die := die, pool := q, index := s.bufIndex die q idx, cls := cls, port := port, unit := unit }]) ∧
    ((∀ q, home ≤ q → q ≤ 15 → s.poolGrants die q cls = false) →
      Completes (.bufferRequest die port unit cls size idx) s fun t => t.pools = { s.pools with
        waits := s.pools.waits ++ (if classWaits die cls then [{ die := die, port := port, unit := unit, cls := cls, home := home }] else []) } ∧
        ∃ r, t = { s with pools := t.pools, regs := r })) ∧
  -- the test of a pool
  (∀ (s : State) (die q c : Nat),
    s.poolGrants die q c = true ↔ 0 < s.poolFree die q ∧
      (s.poolUsed die q c < s.poolReserve die q c ∨ s.poolOwed die q c < s.poolFree die q)) ∧
  -- BUFFER_FREE, BUFFER_DROP, BUFFER_SHARE and BUFFER_HANDOVER of a granted buffer
  (∀ (s : State) (h port unit : Nat) (b : Buffer) (new : List (Nat × Nat)) (p u : Nat),
    s.bufAt h = some b →
    (b.port ≠ port ∨ b.unit ≠ unit → exec (.bufferFree h port unit) s = .next (s.bufRefuse 0x0D01 h port unit) ∧
      exec (.bufferHandover h port unit p u) s = .next (s.bufRefuse 0x0D01 h port unit)) ∧
    (b.port = port → b.unit = unit → exec (.bufferHandover h port unit p u) s = .next (s.setBuf h fun b => { b with port := p, unit := u })) ∧
    (b.port = port → b.unit = unit → b.holders = [] → exec (.bufferFree h port unit) s = .next (s.poolReturn b)) ∧
    (b.port = port → b.unit = unit → b.holders ≠ [] →
      exec (.bufferFree h port unit) s = .next (s.setBuf h fun b => { b with freePending := true })) ∧
    (b.holders = [] → exec (.bufferDrop h port unit) s = .next (s.bufRefuse 0x0D03 h port unit)) ∧
    (b.holders = [(port, unit)] → b.freePending = true → exec (.bufferDrop h port unit) s = .next (s.poolReturn b)) ∧
    (2 ≤ b.holders.length ∨ b.holders.length = 1 ∧ b.freePending = false →
      exec (.bufferDrop h port unit) s = .next (s.setBuf h fun x => { x with holders := dropHolder b.holders (port, unit) }) ∧
      (dropHolder b.holders (port, unit)).length + 1 = b.holders.length) ∧
    (b.holders.length + new.length ≤ 255 →
      exec (.bufferShare h port unit new) s = .next (s.setBuf h fun b => { b with holders := b.holders ++ new })) ∧
    (255 < b.holders.length + new.length → exec (.bufferShare h port unit new) s = .next (s.bufRefuse 0x0D02 h port unit))) ∧
  -- a handle of no buffer; a refusal changes no buffer
  (∀ (s : State) (h port unit : Nat) (new : List (Nat × Nat)) (p u : Nat),
    s.bufAt h = none →
    exec (.bufferFree h port unit) s = .next (s.bufRefuse 0x0D04 h port unit) ∧
    exec (.bufferHandover h port unit p u) s = .next (s.bufRefuse 0x0D04 h port unit) ∧
    exec (.bufferDrop h port unit) s = .next (s.bufRefuse 0x0D04 h port unit) ∧
    exec (.bufferShare h port unit new) s = .next (s.bufRefuse 0x0D04 h port unit) ∧
    (∀ st, (s.bufRefuse st h port unit).pools = s.pools)) ∧
  -- a buffer given back
  (∀ (s : State) (b : Buffer),
    let rest := s.pools.bufs.filter (fun x => !(x.die == b.die && x.pool == b.pool && x.index == b.index))
    let u := State.poolWarn { s with pools := { s.pools with bufs := rest } } b.die b.pool
    u.pools.bufs = rest ∧ (s.pools.waits = [] → s.poolReturn b = u) ∧
    (∀ w l, s.pools.waits = w :: l → w.die = b.die → w.home ≤ b.pool → u.poolGrants b.die b.pool w.cls = true →
      s.poolReturn b = State.poolGive { u with pools := { u.pools with waits := l } } b.die b.pool b.index w.cls w.port w.unit w.home)) ∧
  -- CONFIG_SHADOW_WRITE
  (∀ (s : State) (o : Nat) (v : Word),
    isShadow o = true →
    (s.shadowOk o v = true → Completes (.configShadowWrite o v) s fun t =>
      (∀ x, poolBase ≤ x → x < egsBase + 0x100000 → t.cfg x = s.cfg x) ∧
      (∀ x, poolBase ≤ x → x < egsBase + 0x100000 → x ≠ o → t.reg x = s.reg x) ∧
      t.regs = (s.plainWrite o v).regs ∧ t.pools = s.pools ∧ t.egress = s.egress ∧ t.shadow.policers = s.shadow.policers) ∧
    (s.shadowOk o v = false → exec (.configShadowWrite o v) s = .next (s.log 0x0101 (if o < egsBase then poolBase else egsBase) o v.toNat))) ∧
  -- CONFIG_TICK
  (∀ (s : State),
    let u := (s.checkLayout 0).checkLayout 1
    Completes .configTick s (fun t => t.shadow.inForce = [] ∧ (∀ x, t.cfg x = t.reg x) ∧ (∀ x, isShadow x = true → t.cfg x = u.reg x) ∧
      t.pools.bufs = s.pools.bufs ∧ t.pools.waits = s.pools.waits ∧ t.egress = s.egress ∧
      t.shadow.policers = s.shadow.policers.filter (fun (p : Policer) =>
        s.cfgFld (polReg p.die p.n 0) 0 1 == 1 && u.regFld (polReg p.die p.n 0) 0 1 == 1)) ∧
    (∀ d, s.layoutOk d = true → s.checkLayout d = s) ∧
    (∀ d, s.layoutOk d = false → (∃ p ∈ s.shadow.inForce, isLayout d p.1 = true) → s.checkLayout d =
      ((s.shadow.inForce.filter (fun (p : Nat × Word) => isLayout d p.1)).foldl (fun s (p : Nat × Word) => s.setReg p.1 p.2) s).log 0x0D05 poolBase d)) ∧
  -- POLICER_TICK
  (∀ (s : State),
    s.yqi.policed = [] →
    exec .policerTick s = .next { s with shadow := { s.shadow with policers := s.shadow.policers.map s.refillOne } }) ∧
  -- the refill, and the colours
  (∀ (s : State) (p : Policer) (two : Bool) (cir pir cbs ebs tc te b : Nat) (c : Colour),
    (s.cfgFld (polReg p.die p.n 0) 0 1 = 0 → s.refillOne p = p) ∧
    (tc ≤ cbs → te ≤ ebs →
      refill true cir pir cbs ebs tc te = (min cbs (tc + cir), min ebs (te + pir)) ∧
      (tc + cir ≤ cbs → refill false cir pir cbs ebs tc te = (tc + cir, te)) ∧
      (cbs < tc + cir → refill false cir pir cbs ebs tc te = (cbs, min ebs (te + (tc + cir - cbs))))) ∧
    ((refill two cir pir cbs ebs tc te).1 ≤ cbs ∧ (refill two cir pir cbs ebs tc te).2 ≤ ebs) ∧
    (b ≤ tc → meter false tc te b .green = (.green, tc - b, te)) ∧
    (tc < b → b ≤ te → meter false tc te b .green = (.yellow, tc, te - b)) ∧
    (b ≤ te → meter false tc te b .yellow = (.yellow, tc, te - b)) ∧
    (tc < b → te < b → meter false tc te b c = (.red, tc, te)) ∧
    (te < b → meter true tc te b c = (.red, tc, te)) ∧
    (b ≤ te → tc < b → meter true tc te b .green = (.yellow, tc, te - b)) ∧
    (b ≤ te → meter true tc te b .yellow = (.yellow, tc, te - b)) ∧
    (b ≤ te → b ≤ tc → meter true tc te b .green = (.green, tc - b, te - b)) ∧
    meter two tc te b .red = (.red, tc, te)) ∧
  -- EGRESS_SELECT
  (∀ (s : State) (port : Nat) (i : QueueInst) (f : Frame) (l : List Frame),
    s.portUp port = true ∧ s.netFenced = false ∧ s.power.tripAt = none ∧ s.clockDown 50 = false →
    s.nextQueue port = some i →
    i.frames = f :: l →
    exec (.egressSelect port) s = .next (s.sendHead i).pump ∧
    ((s.sendHead i).inst i.port i.sel).frames = l ∧
    (∃ q ce, (s.sendHead i).out = s.out ++ [f.send, .frameOut i.port q f.wire ce]) ∧
    (s.sendHead i).mgr = s.mgr ∧ (s.sendHead i).gnoz = s.gnoz ∧ (s.sendHead i).pools = s.pools ∧
    i.port = port ∧ i.slot = none ∧ i ∈ s.egress.insts ∧
    (∀ j ∈ s.egress.insts, j.port = port → j.frames ≠ [] → j.slot = none → ∀ n, n < 4 → j.sel = .strict n →
      ∃ m, i.sel = .strict m ∧ m ≤ n)) ∧
  -- EGRESS_SELECT of a port that does not send
  (∀ (s : State) (port : Nat),
    (s.portUp port = false ∨ s.netFenced = true ∨ s.power.tripAt.isSome = true ∨ s.clockDown 50 = true ∨ s.nextQueue port = none →
      exec (.egressSelect port) s = .next s)) ∧
  -- CALENDAR_SLOT
  (∀ (s : State),
    ((∀ i ∈ s.egress.insts, i.slot = none) → exec .calendarSlot s = .next s) ∧
    (∀ k ks, s.egress.insts.filterMap (fun (i : QueueInst) => i.slot) = k :: ks →
      Completes .calendarSlot s fun t => t.now = max s.now (ks.foldl min k * 64) ∧
        t = { s with now := t.now, egress := { s.egress with insts := t.egress.insts } } ∧
        t.egress.insts = s.egress.insts.map (fun (i : QueueInst) => match i.slot with
          | some k => if k ≤ t.now / 64 then { i with slot := calendarSlot t.now i.eligAt } else i
          | none => i)))

/-- Heartbeats, membership, quorum, spares, group namespaces, stripe writes, bring-ins and mirrors of a stripe group. A
message whose route lacks PERMIT_CONTROL, or of an earlier generation, is refused and changes nothing else. A
heartbeat refreshes its sender; a silent peer is suspected, and the suspicion goes to every device; a proposal is kept
and acknowledged, and commits at a quorum, which raises the generation. Without quorum for 40 ms group writes are
held; after 500 ms the state is NO_QUORUM. A spare is proposed or refused with 0x0E08. A namespace request is applied
here and sent to every member, or its status shown. A write of a group namespace goes to its stripe's coordinator,
which prepares it; a share is held, committed, or discarded and its writer answered 0x0E0B. A bring-in goes on stripe
by stripe and ends in a commit. Mirrors and stream-table entries are stored and acknowledged. GRP_CFG enables,
disables or is refused. (R522, R523, R525, R526, R528, R529, R533, R534, R536, R537, R541, R548) -/
def Obligations.StripeGroupsWork : Prop :=
  -- HEARTBEAT_SEND
  (∀ (s : State),
    (s.groupOn = true → exec .heartbeatSend s = .next (s.groupCast 0 [s.groupDigest])) ∧ (s.groupOn = false → exec .heartbeatSend s = .next s) ∧
    (∀ k b, (s.groupCast k b).out = s.out ++ s.others.map (fun n => .groupMsg k (s.entryDevice n) ([(s.reg 0xB00004).toNat, s.group.gen] ++ b)) ∧
      s.groupCast k b = { s with out := (s.groupCast k b).out })) ∧
  -- messages that are refused
  (∀ (s : State) (n gen dg r : Nat) (ch : GroupChange) (v : GroupVote) (m : Mirror) (t : Option GroupRecord) (w ns st sh : Nat) (data block : List Byte) (c p q : Nat) (rm : Bool),
    s.groupJoined = true →
    s.groupBar n gen = some r →
    n ≠ s.group.self ∧ n ≤ 64 →
    s.mediaStopped = false →
    (s.entryPermits n = false → r = 0x0C08) ∧ (s.entryPermits n = true → r = 0x0E03 ∧ s.groupStale gen = true) ∧
    exec (.heartbeatReceive n gen dg t) s = .next (s.groupRefuse n r) ∧ exec (.proposalRx n gen ch t) s = .next (s.groupRefuse n r) ∧
    exec (.voteRx n gen v) s = .next (s.groupRefuse n r) ∧ exec (.stripePrepare n gen w ns st sh data) s = .next (s.groupRefuse n r) ∧
    exec (.mirrorUpdate n gen m) s = .next (s.groupRefuse n r) ∧
    exec (.streamTableUpdate n gen block c p q rm) s = .next (s.groupRefuse n r) ∧
    s.groupRefuse n r = { s with out := s.out ++ [.groupMsg 9 (s.entryDevice n) [(s.reg 0xB00004).toNat, s.group.gen, r]] }) ∧
  -- HEARTBEAT_RECEIVE
  (∀ (s : State) (n : Nat),
    s.groupJoined = true →
    n ≠ s.group.self ∧ n ≤ 64 →
    s.entryPermits n = true ∧ s.group.gen < 2 ^ 32 →
    s.group.holding = false →
    Completes (.heartbeatReceive n s.group.gen s.groupDigest none) s fun t => t = { s with group := t.group } ∧
      (n, s.now) ∈ t.group.heard ∧ (∀ x ∈ t.group.heard, x.1 = n → x.2 = s.now) ∧ (∀ m, m ≠ n → ∀ x, (m, x) ∈ s.group.heard → (m, x) ∈ t.group.heard) ∧
      (s.group.self, n) ∉ t.group.suspects ∧ n ∈ t.group.digestSame ∧ n ∉ t.group.digestOther ∧ t.group.gen = s.group.gen ∧
      t.group.states = s.group.states ∧ t.group.state = s.group.state) ∧
  -- PEER_SUSPECT
  (∀ (s : State) (n : Nat),
    s.groupJoined = true →
    n ≠ s.group.self ∧ (s.entryState n = 1 ∨ s.entryState n = 2) →
    let u := (s.advance (((s.group.heard.find? (fun h => h.1 == n)).map (·.2)).elim 0 (· + 50000000))).groupCast 1 [n]
    exec (.peerSuspect n) s = .next (u.addSuspect s.group.self n) ∧
    ((s.group.suspects.filter (fun x => decide (x.2 = n))).length + 1 < s.quorum → (s.group.self, n) ∉ s.group.suspects →
      u.addSuspect s.group.self n = u.setGroup { s.group with suspects := s.group.suspects ++ [(s.group.self, n)] })) ∧
  -- PROPOSAL_RX
  (∀ (s : State) (n : Nat) (ch : GroupChange),
    s.groupJoined = true →
    s.entryPermits n = true ∧ s.group.gen < 2 ^ 32 →
    n ≠ s.group.self →
    3 ≤ s.quorum →
    Completes (.proposalRx n s.group.gen ch none) s fun t =>
      t = { s with group := { s.group with proposal := t.group.proposal }, out := t.out } ∧
      t.group.proposal = some { gen := (s.group.gen + 1) % 2 ^ 32, change := ch, acks := [n, s.group.self], table := none } ∧
      t.out = (s.groupCast 3 [(s.group.gen + 1) % 2 ^ 32]).out) ∧
  -- VOTE_RX: what each vote does, and the commit
  (∀ (s : State) (n : Nat) (p : Proposal),
    s.groupJoined = true →
    s.entryPermits n = true ∧ s.group.gen < 2 ^ 32 →
    s.group.proposal = some p →
    n ∉ p.acks →
    (p.acks.length + 1 < s.quorum → exec (.voteRx n s.group.gen (.ack p.gen)) s = .next (s.setGroup { s.group with
      proposal := some { p with acks := p.acks ++ [n] } })) ∧
    (s.quorum ≤ p.acks.length + 1 → exec (.voteRx n s.group.gen (.ack p.gen)) s = .next (State.commitGroup (s.setGroup { s.group with
      proposal := some { p with acks := p.acks ++ [n] } }) p.change)) ∧
    (∀ g, g ≠ p.gen → exec (.voteRx n s.group.gen (.ack g)) s = .next s) ∧
    (∀ x, exec (.voteRx n s.group.gen (.suspect x)) s = .next (s.addSuspect n x)) ∧
    (∀ x, (s.commitGroup (.active x)).group.gen = (s.group.gen + 1) % 2 ^ 32 ∧ (s.commitGroup (.active x)).group.proposal = none ∧
      (s.commitGroup (.active x)).group.states = modAt s.group.states x (fun _ => 1) ∧
      (∀ r ∈ (s.commitGroup (.active x)).group.rebuilds, r.pos ≠ x))) ∧
  -- QUORUM_HOLD and QUORUM_LOST
  (∀ (s : State),
    s.groupJoined = true →
    (s.heardNow + 1 < s.quorum → exec .quorumHold s = .next (s.setGroup { s.group with holding := true })) ∧
    (s.group.holding = true → exec .quorumLost s = .next (s.setGroup { s.group with state := 4 })) ∧
    (s.group.holding = false → exec .quorumLost s = .next s)) ∧
  -- GRP_SPARE_ADD
  (∀ (s : State) (d : Nat) (ready : Bool),
    (s.group.state = 0 ∨ s.group.state = 5 → exec (.grpSpareAdd d ready) s = .next (s.setGroup { s.group with spareStatus := 0x0E01 })) ∧
    (s.group.state = 4 → exec (.grpSpareAdd d ready) s = .next (s.setGroup { s.group with spareStatus := 0x0E02 })) ∧
    (s.group.state ≠ 0 → s.group.state ≠ 4 → s.group.state ≠ 5 →
      (s.entryState 64 ≠ 0 ∨ ready = false ∨ s.routeTo d = none →
        exec (.grpSpareAdd d ready) s = .next (s.setGroup { s.group with spareStatus := 0x0E08 })) ∧
      (∀ r, s.routeTo d = some r → s.entryState 64 = 0 → ready = true → exec (.grpSpareAdd d ready) s = .next (s.propose (.spare d r.index)) ∧
        (s.propose (.spare d r.index)).group = { s.group with proposal := (s.propose (.spare d r.index)).group.proposal } ∧
        (s.propose (.spare d r.index)).group.proposal = some
          { gen := (s.group.gen + 1) % 2 ^ 32, change := .spare d r.index, acks := [s.group.self], table := some s.groupTable }))) ∧
  -- GROUP_NS_CREATE, GROUP_NS_DELETE, GROUP_NS_SEAL and GROUP_NS_UNSEAL
  (∀ (s : State) (ns n st : Nat) (ok : Bool),
    let asked (a : Nat) (r : Status × State) := State.nsApplied (State.groupCast (r.2.setGroup { r.2.group with
      nsRequest := some { action := a, nsid := ns, acks := [] } }) 11 [a, ns, r.2.reg64 0xB00044]) ns r.2.group.self 0
    let shown (r : Status × State) := r.2.setGroup { r.2.group with nsStatus := r.1.toNat }
    let k := s.reg64 0xB00044
    ((s.nsApply 1 ns k ok).1 ≠ 0 → exec (.groupNsCreate ns none st ok) s = .next (shown (s.nsApply 1 ns k ok))) ∧
    ((s.nsApply 1 ns k ok).1 = 0 → exec (.groupNsCreate ns none st ok) s = .next (asked 1 (s.nsApply 1 ns k ok))) ∧
    ((s.nsApply 2 ns k ok).1 ≠ 0 → exec (.groupNsDelete ns none ok) s = .next (shown (s.nsApply 2 ns k ok))) ∧
    ((s.nsApply 2 ns k ok).1 = 0 → exec (.groupNsDelete ns none ok) s = .next (asked 2 (s.nsApply 2 ns k ok))) ∧
    ((s.nsApply 3 ns k true).1 ≠ 0 → exec (.groupNsSeal ns none) s = .next (shown (s.nsApply 3 ns k true))) ∧
    ((s.nsApply 3 ns k true).1 = 0 → exec (.groupNsSeal ns none) s = .next (asked 3 (s.nsApply 3 ns k true))) ∧
    ((s.nsApply 4 ns k true).1 ≠ 0 → exec (.groupNsUnseal ns none) s = .next (shown (s.nsApply 4 ns k true))) ∧
    ((s.nsApply 4 ns k true).1 = 0 → exec (.groupNsUnseal ns none) s = .next (asked 4 (s.nsApply 4 ns k true))) ∧
    exec (.groupNsCreate ns (some n) st ok) s = .next (State.groupSend (s.nsApply 1 ns st ok).2 3 n [ns, (s.nsApply 1 ns st ok).1.toNat]) ∧
    exec (.groupNsDelete ns (some n) ok) s = .next (State.groupSend (s.nsApply 2 ns 0 ok).2 3 n [ns, (s.nsApply 2 ns 0 ok).1.toNat]) ∧
    exec (.groupNsSeal ns (some n)) s = .next (State.groupSend (s.nsApply 3 ns 0 true).2 3 n [ns, (s.nsApply 3 ns 0 true).1.toNat]) ∧
    exec (.groupNsUnseal ns (some n)) s = .next (State.groupSend (s.nsApply 4 ns 0 true).2 3 n [ns, (s.nsApply 4 ns 0 true).1.toNat])) ∧
  -- what a member does with a namespace request
  (∀ (s : State) (ns k : Nat) (ok : Bool),
    (∀ a st, s.groupGate = some st → s.nsApply a ns k ok = (st, s)) ∧
    (s.groupGate = none → s.quoinSet 14 = true → s.nsApply 1 ns k ok = (0x0F01, s)) ∧
    (s.groupGate = none → s.quoinSet 14 = false → k = 0 ∨ k % s.groupG ≠ 0 → s.nsApply 1 ns k ok = (0x0101, s)) ∧
    (s.groupGate = none → s.memberNs ns = false → s.nsApply 3 ns k ok = (0x0302, s) ∧
      (s.quoinSet 14 = false → s.nsApply 2 ns k ok = (0x0302, s) ∧ s.nsApply 4 ns k ok = (0x0302, s))) ∧
    (s.groupGate = none → s.quoinSet 14 = false → k ≠ 0 → k % s.groupG = 0 → s.nsCreateRefusal .register ns (k * s.groupW / s.groupG) ok = none →
      (s.nsApply 1 ns k ok).1 = 0 ∧ { nsid := ns, stripes := k } ∈ (s.nsApply 1 ns k ok).2.group.namespaces) ∧
    (s.groupGate = none → s.memberNs ns = true → s.nsDeleteRefusal .register ns ok = none →
      (s.nsApply 2 ns k ok).1 = 0 ∧ (s.nsApply 2 ns k ok).2.memberNs ns = false) ∧
    (s.groupGate = none → s.memberNs ns = true → s.nsSealRefusal .register ns = none → (s.nsApply 3 ns k ok).1 = 0 ∧
      ∀ g ∈ (s.nsApply 3 ns k ok).2.group.namespaces, g.nsid = ns → g.isSealed = true) ∧
    (s.groupGate = none → s.memberNs ns = true → s.nsUnsealRefusal .register ns = none → (s.nsApply 4 ns k ok).1 = 0 ∧
      ∀ g ∈ (s.nsApply 4 ns k ok).2.group.namespaces, g.nsid = ns → g.isSealed = false)) ∧
  -- GROUP_WRITE
  (∀ (s : State) (p : ReqPath) (ns lba : Nat) (data : List Byte),
    s.memberNs ns = true ∧ s.mediaStopped = false ∧ s.admissionHeld = false →
    data.length % 4096 = 0 ∧ 0 < data.length ∧ data.length ≤ 16777216 →
    let us := unitsTouched lba (data.length / 4096)
    let stripes := (us.map s.unitStripe).eraseDups
    let held := s.group.holding = true ∨ (∃ x ∈ stripes, s.stripeLocked ns x = true) ∨ s.roomFor stripes.length = false ∨
      s.spaceFor stripes.length = false
    let bad := ∃ u ∈ us, coversUnit lba (data.length / 4096) u = false ∧ s.nsReadable ns (u * 16384) 16384 = false
    (∀ st, s.groupWriteRefusal p ns lba (data.length / 4096) = some st → exec (.groupWrite p ns lba data) s = .next (s.refuse p st)) ∧
    (s.groupWriteRefusal p ns lba (data.length / 4096) = none →
      (held → exec (.groupWrite p ns lba data) s = .next s) ∧
      (¬held → bad → exec (.groupWrite p ns lba data) s = .next (s.refuse p 0x0201)) ∧
      (¬held → ¬bad → ∀ x, stripes = [x] →
        exec (.groupWrite p ns lba data) s = .next (s.startStripe p ns x ((us.filter (fun u => s.unitStripe u == x)).map (fun u =>
          (s.unitShare u, mergeUnit (s.unitSeen ns u) data u lba))))))) ∧
  -- the write of a stripe: at its coordinator, or forwarded to it
  (∀ (s : State) (p : ReqPath) (ns x : Nat) (new : List (Nat × List Byte)),
    let id := s.group.self * 2 ^ 32 + s.group.nextWrite
    let c := s.coordinator x
    (s.aliveAt (s.sharePos x (s.groupW - 2)) = true → c = s.sharePos x (s.groupW - 2)) ∧
    (c ≠ s.group.self → s.startStripe p ns x new = { s with
      group := { s.group with nextWrite := s.group.nextWrite + 1, writes := s.group.writes ++
        [{ write := id, path := p, nsid := ns, stripe := x, shares := s.newShares ns x new, phase := .forwarded, waiting := [c] }] },
      out := s.out ++ [.groupMsg 8 (s.entryDevice c) [(s.reg 0xB00004).toNat, s.group.gen, id, ns, x]] })) ∧
  -- STRIPE_PREPARE
  (∀ (s : State) (n w ns st sh : Nat) (data : List Byte),
    s.groupJoined = true ∧ s.mediaStopped = false →
    s.entryPermits n = true ∧ s.group.gen < 2 ^ 32 →
    s.memberNs ns = true ∧ s.sharePos st sh = s.group.self ∧ data.length = 16384 →
    s.roomFor 1 = true ∧ s.spaceFor 1 = true →
    exec (.stripePrepare n s.group.gen w ns st sh data) s = .next (State.groupSend (s.setGroup { s.group with
      prepared := s.group.prepared ++ [{ write := w, coord := n, nsid := ns, stripe := st, share := sh, data := data }] }) 3 n [w])) ∧
  -- STRIPE_COMMIT
  (∀ (s : State) (w : Nat) (pl : Placement) (p : Prepared),
    s.group.prepared.find? (fun (p : Prepared) => p.write == w) = some p →
    let u := (s.setGroup { s.group with decisions := s.group.decisions ++ [w] }).groupSend 3 p.coord [w]
    (p.share + 1 ≠ s.groupW ∨ s.group.decisions.contains w = true →
      (p.coord ≠ s.group.self ∨ p.decided = true → exec (.stripeCommit w pl) s = .next (s.applyPrepared p pl)) ∧
      (p.coord = s.group.self → p.decided = false → exec (.stripeCommit w pl) s = .next s)) ∧
    (p.share + 1 = s.groupW → s.group.decisions.contains w = false → p.coord ≠ s.group.self →
      exec (.stripeCommit w pl) s = .next (u.applyPrepared p pl)) ∧
    ((s.openBands false pl.bands).placesOk pl.pmas = true → pl.pmas.length = 1 → s.applyPrepared p pl =
      State.setGroup ((s.openBands false pl.bands).placeUnit p.nsid (s.shareUnit p.stripe p.share) (pl.pmas.headD 0) p.data)
        { s.group with prepared := s.group.prepared.erase p })) ∧
  -- PREPARE_RESOLVE
  (∀ (s : State) (w : Nat) (pl : Placement),
    let u := s.groupCast 13 [w]
    let known := s.group.decisions.contains w || s.group.prepared.any (fun (p : Prepared) => p.write == w && p.decided)
    let dropped := u.setGroup { u.group with prepared := u.group.prepared.filter (fun (p : Prepared) => p.write != w) }
    (known = false → s.group.writes.find? (fun (x : StripeWrite) => x.write == w) = none → exec (.prepareResolve w false pl) s = .next dropped) ∧
    (known = false → ∀ x, s.group.writes.find? (fun (x : StripeWrite) => x.write == w) = some x →
      exec (.prepareResolve w false pl) s = .next (dropped.stripeEnded x 0x0E0B)) ∧
    (∀ b, b = true ∨ known = true → s.group.writes.find? (fun (x : StripeWrite) => x.write == w) = none →
      (∀ p, s.group.prepared.find? (fun (p : Prepared) => p.write == w) = some p →
        exec (.prepareResolve w b pl) s = .next (u.applyPrepared p pl)) ∧
      (s.group.prepared.find? (fun (p : Prepared) => p.write == w) = none → exec (.prepareResolve w b pl) s = .next u))) ∧
  -- the end of a stripe write
  (∀ (s : State) (x : StripeWrite),
    s.group.writes = [x] →
    (x.failed = false → s.stripeEnded x 0 = (s.setGroup { s.group with writes := [] }).reply x.path 0) ∧
    s.stripeEnded x 0x0E0B = (State.bump (s.setGroup { s.group with writes := [] }) 0xB00038 0xB0003C 2).reply x.path 0x0E0B) ∧
  -- REBUILD_STRIPE of another device's bring-in, and REBUILD_COMPLETE
  (∀ (s : State) (pos : Nat) (sh : List (Nat × List Byte)) (pl : Placement) (r : Rebuild),
    s.group.rebuilds.find? (fun (r : Rebuild) => r.pos == pos) = some r →
    (∀ g, s.group.namespaces[r.nsIndex]? = some g →
      (s.stripeLocked g.nsid r.next = true → exec (.rebuildStripe pos sh pl) s = .next s) ∧
      (s.stripeLocked g.nsid r.next = false → s.group.self ≠ pos → exec (.rebuildStripe pos sh pl) s = .next (s.setRebuild
        (if r.next + 1 < g.stripes then { r with next := r.next + 1 } else { r with nsIndex := r.nsIndex + 1, next := 0 })))) ∧
    (s.group.namespaces.length ≤ r.nsIndex → exec (.rebuildStripe pos sh pl) s = .next s ∧
      exec (.rebuildComplete pos) s = .next (s.commitGroup (.active pos))) ∧
    (r.nsIndex < s.group.namespaces.length → exec (.rebuildComplete pos) s = .next s)) ∧
  -- REBUILD_STRIPE on the spare
  (∀ (s : State) (pos : Nat) (sh : List (Nat × List Byte)) (pl : Placement) (r : Rebuild) (g : GroupNs) (b : List Byte),
    s.group.rebuilds.find? (fun (r : Rebuild) => r.pos == pos) = some r →
    s.group.namespaces[r.nsIndex]? = some g →
    s.group.self = pos ∧ s.stripeLocked g.nsid r.next = false ∧ s.stripeLost g.nsid r.next = false ∧ sh ≠ [] →
    (let j := (pos + s.groupG - r.next % s.groupG) % s.groupG
    j < s.groupW ∧ rebuildShare s.groupW j (sh.filter (fun x => decide (x.1 ≠ j))) = some b) →
    (s.openBands false pl.bands).placesOk pl.pmas = true ∧ pl.pmas.length = 1 →
    let j := (pos + s.groupG - r.next % s.groupG) % s.groupG
    Completes (.rebuildStripe pos sh pl) s fun t => t.group = { s.group with
        remoteShares := sh.foldl (fun m x => memWrite m (shareKey g.nsid r.next x.1) x.2) s.group.remoteShares,
        rebuilds := s.group.rebuilds.map (fun (x : Rebuild) => if x.pos = r.pos then r.step g.stripes else x) } ∧
      t.media = ((s.openBands false pl.bands).placeUnit g.nsid (s.shareUnit r.next j) (pl.pmas.headD 0) b).media) ∧
  -- MIRROR_UPDATE and STREAM_TABLE_UPDATE
  (∀ (s : State) (n : Nat) (m : Mirror) (block : List Byte) (c p q : Nat),
    s.groupJoined = true →
    s.entryPermits n = true ∧ s.group.gen < 2 ^ 32 →
    let e : GroupStream := { params := streamParams block, ctx := c, primary := p, partner := q }
    let rest := s.group.streams.filter (fun (y : GroupStream) => y.params.streamId != e.params.streamId)
    exec (.mirrorUpdate n s.group.gen m) s = .next (State.groupSend (s.setGroup { s.group with
      mirrors := s.group.mirrors.filter (fun (x : Mirror) => x.streamId != m.streamId) ++ [m] }) 3 n [m.streamId]) ∧
    exec (.streamTableUpdate n s.group.gen block c p q false) s = .next (State.groupSend (s.setGroup { s.group with
      streams := rest ++ [e] }) 3 n [e.params.streamId]) ∧
    exec (.streamTableUpdate n s.group.gen block c p q true) s = .next (State.groupSend (s.setGroup { s.group with
      streams := rest, mirrors := s.group.mirrors.filter (fun (m : Mirror) => m.streamId != e.params.streamId) }) 3 n [e.params.streamId])) ∧
  -- REHOME_EVENT_RESEND
  (∀ (s : State) (c : Nat) (x : StreamCtx),
    s.ctxOf c = some x →
    (s.group.rehoming.contains c = true → exec (.rehomeEventResend c) s = .next (s.sendStreamEvent c x 0x0E0C x.ack)) ∧
    (s.group.rehoming.contains c = false → exec (.rehomeEventResend c) s = .next s)) ∧
  -- GRP_CFG_WRITE
  (∀ (s : State) (v : Word),
    let on := s.regFld 0xB00000 0 1
    let m := fld v 1 7
    (on = 1 → v.getLsbD 0 = true → exec (.grpCfgWrite v) s = .next s) ∧
    (on = 1 → v.getLsbD 0 = false → Completes (.grpCfgWrite v) s fun t => t = { s with regs := t.regs, group := t.group } ∧
      t.regs = (s.setBits 0xB00000 0 1 0).regs ∧ t.group.self = 127 ∧ t.group.state = 0 ∧ t.group.proposal = none ∧ t.group.streams = [] ∧
      t.group.gen = s.group.gen ∧ t.group.namespaces = s.group.namespaces) ∧
    (on ≠ 1 → v.getLsbD 0 = true → (m < 8 ∨ 64 < m ∨ s.positionsOk m = false) → exec (.grpCfgWrite v) s = .next (s.log 0x0E08 0xB00000)) ∧
    (on ≠ 1 → v.getLsbD 0 = true → 8 ≤ m → m ≤ 64 → s.positionsOk m = true → Completes (.grpCfgWrite v) s fun t =>
      t = { s with regs := t.regs, group := t.group } ∧ t.regs = (s.setReg 0xB00000 (BitVec.ofNat 32 (1 + 2 * m))).regs ∧
      (∀ n, n < m → t.entryState n = 1) ∧ (∀ n, m ≤ n → n < 64 → t.entryState n = 0) ∧ t.group.state = s.group.state ∧
      t.group.self = t.ownEntry) ∧
    (on ≠ 1 → v.getLsbD 0 = false → exec (.grpCfgWrite v) s = .next (s.setReg 0xB00000 (BitVec.ofNat 32 (2 * m)))))
end

