-- ==== Sys2Proof/Laws/Inflate.lean ====
section
/-! SUPPORT. What a decompression of formats 1 to 3 keeps: its room, and the length of its record. -/

namespace Sys2Proof.Machine

/-- A match writes as many bytes as it has. -/
theorem Inflate.copy_made (z : Inflate) (d n : Nat) : (z.copy d n).made = z.made + n ∧ (z.copy d n).room = z.room := by
  induction n generalizing z with
  | zero => exact ⟨rfl, rfl⟩
  | succ n ih =>
    obtain ⟨a, b⟩ := ih (z.put (z.all.getD (d - 1) 0))
    exact ⟨by rw [Inflate.copy, a]; show z.made + 1 + n = _; omega, by rw [Inflate.copy, b]; rfl⟩

/-- A match stays within the room. -/
theorem Inflate.match_made (z : Inflate) (d n : Nat) (h : z.made ≤ z.room) :
    (z.match_ d n).made ≤ (z.match_ d n).room ∧ (z.match_ d n).room = z.room := by
  obtain ⟨a, b⟩ := z.copy_made d (min n (z.room - z.made))
  show (z.copy d _).made ≤ (z.copy d _).room ∧ (z.copy d _).room = z.room
  rw [a, b]; omega

/-- What a step keeps: the output never grows beyond its room. -/
theorem Inflate.step_room (z z' : Inflate) (more : Bool) (h : z.step more = .ok z') (k : z.made ≤ z.room) :
    z'.made ≤ z'.room ∧ z'.room = z.room := by
  have same : ∀ (x : Inflate), x.made = z.made → x.room = z.room → x.made ≤ x.room ∧ x.room = z.room := by
    intro x a b; omega
  unfold Inflate.step at h
  unfold Inflate.symbol at h
  simp only [bind, Except.bind] at h
  repeat' (split at h)
  all_goals cases h
  all_goals first
    | exact same _ rfl rfl
    | exact z.match_made _ _ k
    | (exact ⟨by show z.made + 1 ≤ z.room; omega, rfl⟩)

/-- A decompression stays within the room. -/
theorem Inflate.run_room (more : Bool) (n : Nat) (z : Inflate) (k : z.made ≤ z.room) :
    (z.run more n).2.made ≤ z.room := by
  induction n generalizing z with
  | zero => exact k
  | succ n ih =>
    rw [Inflate.run]
    split
    · exact k
    · next z' h =>
      obtain ⟨a, b⟩ := z.step_room z' more h k
      rw [← b]; exact ih z' a

/-- A resume record is 512 bytes (R178). -/
theorem Inflate.record_length (z : Inflate) (part : Nat) : (z.record part).length = 512 := by
  have lb : ∀ n x, (leBytes n x).length = n := by
    intro n; induction n with
    | zero => intro x; rfl
    | succ n ih => intro x; simp [leBytes, ih]
  have ln : ∀ l : List Nat, (lensBytes l).length = (l.length + 1) / 2 := by
    intro l; fun_induction lensBytes l <;> simp_all <;> omega
  unfold Inflate.record
  simp only [List.length_append, lb, List.length_replicate]
  split <;> simp only [ln, List.length_append, List.length_map, List.length_range, List.length_replicate]

/-- The output of a decompression fits its room. -/
theorem Inflate.output_room (z : Inflate) (more : Bool) (k : z.made ≤ z.room) :
    (z.decode more).2.output.length ≤ z.room := by
  have h := Inflate.run_room more z.fuel z k
  show (((z.run more z.fuel).2.all.take (z.run more z.fuel).2.made).reverse).length ≤ z.room
  simp; omega

end Sys2Proof.Machine
end

