-- ==== Sys2Proof/Laws/Journal.lean ====
section
/-! SUPPORT. Fields of structures laid out byte by byte, and the lengths of journal entries. -/

namespace Sys2Proof.Machine

theorem leBytes_length (n x : Nat) : (leBytes n x).length = n := by
  induction n generalizing x with
  | zero => rfl
  | succ n ih => simp [leBytes, ih]

/-- n bytes of a number hold it modulo 256^n. -/
theorem leNat_leBytes (n x : Nat) : leNat (leBytes n x) = x % 256 ^ n := by
  induction n generalizing x with
  | zero => simp [leNat, leBytes, Nat.mod_one]
  | succ n ih => simp [leNat, leBytes, ih, Nat.pow_succ, Nat.mul_comm (256 ^ n) 256, Nat.mod_mul]

/-- A field that stands between other bytes reads as what was laid out. -/
theorem leField_mid (a c : List Byte) (n x : Nat) : leField (a ++ leBytes n x ++ c) a.length n = x % 256 ^ n := by
  simp [leField, slice, leNat_leBytes, leBytes_length]

/-- A part of a byte string that stands between others. -/
theorem slice_mid (a b c : List Byte) (n m : Nat) (hn : n = a.length) (hm : m = b.length) : slice (a ++ b ++ c) n m = b := by
  subst hn hm; simp [slice]

theorem JEntry.bytes_length (e : JEntry) : e.bytes.length = 16 := by simp [JEntry.bytes, leBytes_length]

theorem entries_length (es : List JEntry) : (es.flatMap JEntry.bytes).length = 16 * es.length := by
  induction es with
  | nil => rfl
  | cons e es ih => simp [ih, JEntry.bytes_length]; omega

end Sys2Proof.Machine
end

