-- ==== Sys2Proof/Laws/State.lean ====
section
/-! SUPPORT. One lemma per field and basic update: which field an update sets, and that it leaves the others. -/

namespace Sys2Proof.Machine

@[simp] theorem State.emit_pending (s : State) (e : Emit) : (s.emit e).pending = s.pending := rfl
@[simp] theorem State.emit_freeCtr (s : State) (e : Emit) : (s.emit e).freeCtr = s.freeCtr := rfl
@[simp] theorem State.emit_now (s : State) (e : Emit) : (s.emit e).now = s.now := rfl
@[simp] theorem State.emit_regs (s : State) (e : Emit) : (s.emit e).regs = s.regs := rfl
@[simp] theorem State.emit_fuseArray (s : State) (e : Emit) : (s.emit e).fuseArray = s.fuseArray := rfl
@[simp] theorem State.emit_fuses (s : State) (e : Emit) : (s.emit e).fuses = s.fuses := rfl
@[simp] theorem State.emit_evt (s : State) (e : Emit) : (s.emit e).evt = s.evt := rfl
@[simp] theorem State.emit_errlog (s : State) (e : Emit) : (s.emit e).errlog = s.errlog := rfl
@[simp] theorem State.emit_backup (s : State) (e : Emit) : (s.emit e).backup = s.backup := rfl
@[simp] theorem State.emit_flash (s : State) (e : Emit) : (s.emit e).flash = s.flash := rfl
@[simp] theorem State.emit_boot (s : State) (e : Emit) : (s.emit e).boot = s.boot := rfl
@[simp] theorem State.emit_trustKept (s : State) (e : Emit) : (s.emit e).trustKept = s.trustKept := rfl
@[simp] theorem State.emit_trust (s : State) (e : Emit) : (s.emit e).trust = s.trust := rfl
@[simp] theorem State.emit_power (s : State) (e : Emit) : (s.emit e).power = s.power := rfl
@[simp] theorem State.emit_rst (s : State) (e : Emit) : (s.emit e).rst = s.rst := rfl
@[simp] theorem State.emit_links (s : State) (e : Emit) : (s.emit e).links = s.links := rfl
@[simp] theorem State.emit_pins (s : State) (e : Emit) : (s.emit e).pins = s.pins := rfl
@[simp] theorem State.emit_sideband (s : State) (e : Emit) : (s.emit e).sideband = s.sideband := rfl
@[simp] theorem State.emit_nand (s : State) (e : Emit) : (s.emit e).nand = s.nand := rfl
@[simp] theorem State.emit_media (s : State) (e : Emit) : (s.emit e).media = s.media := rfl
@[simp] theorem State.emit_streamEng (s : State) (e : Emit) : (s.emit e).streamEng = s.streamEng := rfl
@[simp] theorem State.emit_decode (s : State) (e : Emit) : (s.emit e).decode = s.decode := rfl
@[simp] theorem State.emit_text (s : State) (e : Emit) : (s.emit e).text = s.text := rfl
@[simp] theorem State.emit_mgr (s : State) (e : Emit) : (s.emit e).mgr = s.mgr := rfl
@[simp] theorem State.emit_field (s : State) (e : Emit) : (s.emit e).field = s.field := rfl
@[simp] theorem State.emit_sync (s : State) (e : Emit) : (s.emit e).sync = s.sync := rfl
@[simp] theorem State.emit_obs (s : State) (e : Emit) : (s.emit e).obs = s.obs := rfl
@[simp] theorem State.emit_cmp (s : State) (e : Emit) : (s.emit e).cmp = s.cmp := rfl
@[simp] theorem State.emit_yqi (s : State) (e : Emit) : (s.emit e).yqi = s.yqi := rfl
@[simp] theorem State.emit_gnoz (s : State) (e : Emit) : (s.emit e).gnoz = s.gnoz := rfl
@[simp] theorem State.emit_pools (s : State) (e : Emit) : (s.emit e).pools = s.pools := rfl
@[simp] theorem State.emit_egress (s : State) (e : Emit) : (s.emit e).egress = s.egress := rfl
@[simp] theorem State.emit_shadow (s : State) (e : Emit) : (s.emit e).shadow = s.shadow := rfl
@[simp] theorem State.emit_group (s : State) (e : Emit) : (s.emit e).group = s.group := rfl
@[simp] theorem State.emit_groupRecord (s : State) (e : Emit) : (s.emit e).groupRecord = s.groupRecord := rfl
@[simp] theorem State.emit_bulkMem (s : State) (e : Emit) : (s.emit e).bulkMem = s.bulkMem := rfl
@[simp] theorem State.emit_hostMem (s : State) (e : Emit) : (s.emit e).hostMem = s.hostMem := rfl

@[simp] theorem State.advance_pending (s : State) (n : Nat) : (s.advance n).pending = s.pending := rfl
@[simp] theorem State.advance_freeCtr (s : State) (n : Nat) : (s.advance n).freeCtr = s.freeCtr := rfl
@[simp] theorem State.advance_out (s : State) (n : Nat) : (s.advance n).out = s.out := rfl
@[simp] theorem State.advance_regs (s : State) (n : Nat) : (s.advance n).regs = s.regs := rfl
@[simp] theorem State.advance_fuseArray (s : State) (n : Nat) : (s.advance n).fuseArray = s.fuseArray := rfl
@[simp] theorem State.advance_fuses (s : State) (n : Nat) : (s.advance n).fuses = s.fuses := rfl
@[simp] theorem State.advance_evt (s : State) (n : Nat) : (s.advance n).evt = s.evt := rfl
@[simp] theorem State.advance_errlog (s : State) (n : Nat) : (s.advance n).errlog = s.errlog := rfl
@[simp] theorem State.advance_backup (s : State) (n : Nat) : (s.advance n).backup = s.backup := rfl
@[simp] theorem State.advance_flash (s : State) (n : Nat) : (s.advance n).flash = s.flash := rfl
@[simp] theorem State.advance_boot (s : State) (n : Nat) : (s.advance n).boot = s.boot := rfl
@[simp] theorem State.advance_trustKept (s : State) (n : Nat) : (s.advance n).trustKept = s.trustKept := rfl
@[simp] theorem State.advance_trust (s : State) (n : Nat) : (s.advance n).trust = s.trust := rfl
@[simp] theorem State.advance_power (s : State) (n : Nat) : (s.advance n).power = s.power := rfl
@[simp] theorem State.advance_rst (s : State) (n : Nat) : (s.advance n).rst = s.rst := rfl
@[simp] theorem State.advance_links (s : State) (n : Nat) : (s.advance n).links = s.links := rfl
@[simp] theorem State.advance_pins (s : State) (n : Nat) : (s.advance n).pins = s.pins := rfl
@[simp] theorem State.advance_sideband (s : State) (n : Nat) : (s.advance n).sideband = s.sideband := rfl
@[simp] theorem State.advance_nand (s : State) (n : Nat) : (s.advance n).nand = s.nand := rfl
@[simp] theorem State.advance_media (s : State) (n : Nat) : (s.advance n).media = s.media := rfl
@[simp] theorem State.advance_streamEng (s : State) (n : Nat) : (s.advance n).streamEng = s.streamEng := rfl
@[simp] theorem State.advance_decode (s : State) (n : Nat) : (s.advance n).decode = s.decode := rfl
@[simp] theorem State.advance_text (s : State) (n : Nat) : (s.advance n).text = s.text := rfl
@[simp] theorem State.advance_mgr (s : State) (n : Nat) : (s.advance n).mgr = s.mgr := rfl
@[simp] theorem State.advance_field (s : State) (n : Nat) : (s.advance n).field = s.field := rfl
@[simp] theorem State.advance_sync (s : State) (n : Nat) : (s.advance n).sync = s.sync := rfl
@[simp] theorem State.advance_obs (s : State) (n : Nat) : (s.advance n).obs = s.obs := rfl
@[simp] theorem State.advance_cmp (s : State) (n : Nat) : (s.advance n).cmp = s.cmp := rfl
@[simp] theorem State.advance_yqi (s : State) (n : Nat) : (s.advance n).yqi = s.yqi := rfl
@[simp] theorem State.advance_gnoz (s : State) (n : Nat) : (s.advance n).gnoz = s.gnoz := rfl
@[simp] theorem State.advance_pools (s : State) (n : Nat) : (s.advance n).pools = s.pools := rfl
@[simp] theorem State.advance_egress (s : State) (n : Nat) : (s.advance n).egress = s.egress := rfl
@[simp] theorem State.advance_shadow (s : State) (n : Nat) : (s.advance n).shadow = s.shadow := rfl
@[simp] theorem State.advance_group (s : State) (n : Nat) : (s.advance n).group = s.group := rfl
@[simp] theorem State.advance_groupRecord (s : State) (n : Nat) : (s.advance n).groupRecord = s.groupRecord := rfl
@[simp] theorem State.advance_bulkMem (s : State) (n : Nat) : (s.advance n).bulkMem = s.bulkMem := rfl
@[simp] theorem State.advance_hostMem (s : State) (n : Nat) : (s.advance n).hostMem = s.hostMem := rfl

@[simp] theorem State.setReg_pending (s : State) (off : Nat) (v : Word) : (s.setReg off v).pending = s.pending := rfl
@[simp] theorem State.setReg_freeCtr (s : State) (off : Nat) (v : Word) : (s.setReg off v).freeCtr = s.freeCtr := rfl
@[simp] theorem State.setReg_out (s : State) (off : Nat) (v : Word) : (s.setReg off v).out = s.out := rfl
@[simp] theorem State.setReg_now (s : State) (off : Nat) (v : Word) : (s.setReg off v).now = s.now := rfl
@[simp] theorem State.setReg_fuseArray (s : State) (off : Nat) (v : Word) : (s.setReg off v).fuseArray = s.fuseArray := rfl
@[simp] theorem State.setReg_fuses (s : State) (off : Nat) (v : Word) : (s.setReg off v).fuses = s.fuses := rfl
@[simp] theorem State.setReg_evt (s : State) (off : Nat) (v : Word) : (s.setReg off v).evt = s.evt := rfl
@[simp] theorem State.setReg_errlog (s : State) (off : Nat) (v : Word) : (s.setReg off v).errlog = s.errlog := rfl
@[simp] theorem State.setReg_backup (s : State) (off : Nat) (v : Word) : (s.setReg off v).backup = s.backup := rfl
@[simp] theorem State.setReg_flash (s : State) (off : Nat) (v : Word) : (s.setReg off v).flash = s.flash := rfl
@[simp] theorem State.setReg_boot (s : State) (off : Nat) (v : Word) : (s.setReg off v).boot = s.boot := rfl
@[simp] theorem State.setReg_trustKept (s : State) (off : Nat) (v : Word) : (s.setReg off v).trustKept = s.trustKept := rfl
@[simp] theorem State.setReg_trust (s : State) (off : Nat) (v : Word) : (s.setReg off v).trust = s.trust := rfl
@[simp] theorem State.setReg_power (s : State) (off : Nat) (v : Word) : (s.setReg off v).power = s.power := rfl
@[simp] theorem State.setReg_rst (s : State) (off : Nat) (v : Word) : (s.setReg off v).rst = s.rst := rfl
@[simp] theorem State.setReg_links (s : State) (off : Nat) (v : Word) : (s.setReg off v).links = s.links := rfl
@[simp] theorem State.setReg_pins (s : State) (off : Nat) (v : Word) : (s.setReg off v).pins = s.pins := rfl
@[simp] theorem State.setReg_sideband (s : State) (off : Nat) (v : Word) : (s.setReg off v).sideband = s.sideband := rfl
@[simp] theorem State.setReg_nand (s : State) (off : Nat) (v : Word) : (s.setReg off v).nand = s.nand := rfl
@[simp] theorem State.setReg_media (s : State) (off : Nat) (v : Word) : (s.setReg off v).media = s.media := rfl
@[simp] theorem State.setReg_streamEng (s : State) (off : Nat) (v : Word) : (s.setReg off v).streamEng = s.streamEng := rfl
@[simp] theorem State.setReg_decode (s : State) (off : Nat) (v : Word) : (s.setReg off v).decode = s.decode := rfl
@[simp] theorem State.setReg_text (s : State) (off : Nat) (v : Word) : (s.setReg off v).text = s.text := rfl
@[simp] theorem State.setReg_mgr (s : State) (off : Nat) (v : Word) : (s.setReg off v).mgr = s.mgr := rfl
@[simp] theorem State.setReg_field (s : State) (off : Nat) (v : Word) : (s.setReg off v).field = s.field := rfl
@[simp] theorem State.setReg_sync (s : State) (off : Nat) (v : Word) : (s.setReg off v).sync = s.sync := rfl
@[simp] theorem State.setReg_obs (s : State) (off : Nat) (v : Word) : (s.setReg off v).obs = s.obs := rfl
@[simp] theorem State.setReg_cmp (s : State) (off : Nat) (v : Word) : (s.setReg off v).cmp = s.cmp := rfl
@[simp] theorem State.setReg_yqi (s : State) (off : Nat) (v : Word) : (s.setReg off v).yqi = s.yqi := rfl
@[simp] theorem State.setReg_gnoz (s : State) (off : Nat) (v : Word) : (s.setReg off v).gnoz = s.gnoz := rfl
@[simp] theorem State.setReg_pools (s : State) (off : Nat) (v : Word) : (s.setReg off v).pools = s.pools := rfl
@[simp] theorem State.setReg_egress (s : State) (off : Nat) (v : Word) : (s.setReg off v).egress = s.egress := rfl
@[simp] theorem State.setReg_shadow (s : State) (off : Nat) (v : Word) : (s.setReg off v).shadow = s.shadow := rfl
@[simp] theorem State.setReg_group (s : State) (off : Nat) (v : Word) : (s.setReg off v).group = s.group := rfl
@[simp] theorem State.setReg_groupRecord (s : State) (off : Nat) (v : Word) : (s.setReg off v).groupRecord = s.groupRecord := rfl
@[simp] theorem State.setReg_bulkMem (s : State) (off : Nat) (v : Word) : (s.setReg off v).bulkMem = s.bulkMem := rfl
@[simp] theorem State.setReg_hostMem (s : State) (off : Nat) (v : Word) : (s.setReg off v).hostMem = s.hostMem := rfl

@[simp] theorem State.setMedia_pending (s : State) (m : Media) : (s.setMedia m).pending = s.pending := rfl
@[simp] theorem State.setMedia_freeCtr (s : State) (m : Media) : (s.setMedia m).freeCtr = s.freeCtr := rfl
@[simp] theorem State.setMedia_out (s : State) (m : Media) : (s.setMedia m).out = s.out := rfl
@[simp] theorem State.setMedia_now (s : State) (m : Media) : (s.setMedia m).now = s.now := rfl
@[simp] theorem State.setMedia_regs (s : State) (m : Media) : (s.setMedia m).regs = s.regs := rfl
@[simp] theorem State.setMedia_fuseArray (s : State) (m : Media) : (s.setMedia m).fuseArray = s.fuseArray := rfl
@[simp] theorem State.setMedia_fuses (s : State) (m : Media) : (s.setMedia m).fuses = s.fuses := rfl
@[simp] theorem State.setMedia_evt (s : State) (m : Media) : (s.setMedia m).evt = s.evt := rfl
@[simp] theorem State.setMedia_errlog (s : State) (m : Media) : (s.setMedia m).errlog = s.errlog := rfl
@[simp] theorem State.setMedia_backup (s : State) (m : Media) : (s.setMedia m).backup = s.backup := rfl
@[simp] theorem State.setMedia_flash (s : State) (m : Media) : (s.setMedia m).flash = s.flash := rfl
@[simp] theorem State.setMedia_boot (s : State) (m : Media) : (s.setMedia m).boot = s.boot := rfl
@[simp] theorem State.setMedia_trustKept (s : State) (m : Media) : (s.setMedia m).trustKept = s.trustKept := rfl
@[simp] theorem State.setMedia_trust (s : State) (m : Media) : (s.setMedia m).trust = s.trust := rfl
@[simp] theorem State.setMedia_power (s : State) (m : Media) : (s.setMedia m).power = s.power := rfl
@[simp] theorem State.setMedia_rst (s : State) (m : Media) : (s.setMedia m).rst = s.rst := rfl
@[simp] theorem State.setMedia_links (s : State) (m : Media) : (s.setMedia m).links = s.links := rfl
@[simp] theorem State.setMedia_pins (s : State) (m : Media) : (s.setMedia m).pins = s.pins := rfl
@[simp] theorem State.setMedia_sideband (s : State) (m : Media) : (s.setMedia m).sideband = s.sideband := rfl
@[simp] theorem State.setMedia_nand (s : State) (m : Media) : (s.setMedia m).nand = s.nand := rfl
@[simp] theorem State.setMedia_streamEng (s : State) (m : Media) : (s.setMedia m).streamEng = s.streamEng := rfl
@[simp] theorem State.setMedia_decode (s : State) (m : Media) : (s.setMedia m).decode = s.decode := rfl
@[simp] theorem State.setMedia_text (s : State) (m : Media) : (s.setMedia m).text = s.text := rfl
@[simp] theorem State.setMedia_mgr (s : State) (m : Media) : (s.setMedia m).mgr = s.mgr := rfl
@[simp] theorem State.setMedia_field (s : State) (m : Media) : (s.setMedia m).field = s.field := rfl
@[simp] theorem State.setMedia_sync (s : State) (m : Media) : (s.setMedia m).sync = s.sync := rfl
@[simp] theorem State.setMedia_obs (s : State) (m : Media) : (s.setMedia m).obs = s.obs := rfl
@[simp] theorem State.setMedia_cmp (s : State) (m : Media) : (s.setMedia m).cmp = s.cmp := rfl
@[simp] theorem State.setMedia_yqi (s : State) (m : Media) : (s.setMedia m).yqi = s.yqi := rfl
@[simp] theorem State.setMedia_gnoz (s : State) (m : Media) : (s.setMedia m).gnoz = s.gnoz := rfl
@[simp] theorem State.setMedia_pools (s : State) (m : Media) : (s.setMedia m).pools = s.pools := rfl
@[simp] theorem State.setMedia_egress (s : State) (m : Media) : (s.setMedia m).egress = s.egress := rfl
@[simp] theorem State.setMedia_shadow (s : State) (m : Media) : (s.setMedia m).shadow = s.shadow := rfl
@[simp] theorem State.setMedia_group (s : State) (m : Media) : (s.setMedia m).group = s.group := rfl
@[simp] theorem State.setMedia_groupRecord (s : State) (m : Media) : (s.setMedia m).groupRecord = s.groupRecord := rfl
@[simp] theorem State.setMedia_bulkMem (s : State) (m : Media) : (s.setMedia m).bulkMem = s.bulkMem := rfl
@[simp] theorem State.setMedia_hostMem (s : State) (m : Media) : (s.setMedia m).hostMem = s.hostMem := rfl

@[simp] theorem State.setBits_pending (s : State) (off lo len x : Nat) : (s.setBits off lo len x).pending = s.pending := rfl
@[simp] theorem State.setBits_freeCtr (s : State) (off lo len x : Nat) : (s.setBits off lo len x).freeCtr = s.freeCtr := rfl
@[simp] theorem State.setBits_out (s : State) (off lo len x : Nat) : (s.setBits off lo len x).out = s.out := rfl
@[simp] theorem State.setBits_now (s : State) (off lo len x : Nat) : (s.setBits off lo len x).now = s.now := rfl
@[simp] theorem State.setBits_fuseArray (s : State) (off lo len x : Nat) : (s.setBits off lo len x).fuseArray = s.fuseArray := rfl
@[simp] theorem State.setBits_fuses (s : State) (off lo len x : Nat) : (s.setBits off lo len x).fuses = s.fuses := rfl
@[simp] theorem State.setBits_evt (s : State) (off lo len x : Nat) : (s.setBits off lo len x).evt = s.evt := rfl
@[simp] theorem State.setBits_errlog (s : State) (off lo len x : Nat) : (s.setBits off lo len x).errlog = s.errlog := rfl
@[simp] theorem State.setBits_backup (s : State) (off lo len x : Nat) : (s.setBits off lo len x).backup = s.backup := rfl
@[simp] theorem State.setBits_flash (s : State) (off lo len x : Nat) : (s.setBits off lo len x).flash = s.flash := rfl
@[simp] theorem State.setBits_boot (s : State) (off lo len x : Nat) : (s.setBits off lo len x).boot = s.boot := rfl
@[simp] theorem State.setBits_trustKept (s : State) (off lo len x : Nat) : (s.setBits off lo len x).trustKept = s.trustKept := rfl
@[simp] theorem State.setBits_trust (s : State) (off lo len x : Nat) : (s.setBits off lo len x).trust = s.trust := rfl
@[simp] theorem State.setBits_power (s : State) (off lo len x : Nat) : (s.setBits off lo len x).power = s.power := rfl
@[simp] theorem State.setBits_rst (s : State) (off lo len x : Nat) : (s.setBits off lo len x).rst = s.rst := rfl
@[simp] theorem State.setBits_links (s : State) (off lo len x : Nat) : (s.setBits off lo len x).links = s.links := rfl
@[simp] theorem State.setBits_pins (s : State) (off lo len x : Nat) : (s.setBits off lo len x).pins = s.pins := rfl
@[simp] theorem State.setBits_sideband (s : State) (off lo len x : Nat) : (s.setBits off lo len x).sideband = s.sideband := rfl
@[simp] theorem State.setBits_nand (s : State) (off lo len x : Nat) : (s.setBits off lo len x).nand = s.nand := rfl
@[simp] theorem State.setBits_media (s : State) (off lo len x : Nat) : (s.setBits off lo len x).media = s.media := rfl
@[simp] theorem State.setBits_streamEng (s : State) (off lo len x : Nat) : (s.setBits off lo len x).streamEng = s.streamEng := rfl
@[simp] theorem State.setBits_decode (s : State) (off lo len x : Nat) : (s.setBits off lo len x).decode = s.decode := rfl
@[simp] theorem State.setBits_text (s : State) (off lo len x : Nat) : (s.setBits off lo len x).text = s.text := rfl
@[simp] theorem State.setBits_mgr (s : State) (off lo len x : Nat) : (s.setBits off lo len x).mgr = s.mgr := rfl
@[simp] theorem State.setBits_field (s : State) (off lo len x : Nat) : (s.setBits off lo len x).field = s.field := rfl
@[simp] theorem State.setBits_sync (s : State) (off lo len x : Nat) : (s.setBits off lo len x).sync = s.sync := rfl
@[simp] theorem State.setBits_obs (s : State) (off lo len x : Nat) : (s.setBits off lo len x).obs = s.obs := rfl
@[simp] theorem State.setBits_cmp (s : State) (off lo len x : Nat) : (s.setBits off lo len x).cmp = s.cmp := rfl
@[simp] theorem State.setBits_yqi (s : State) (off lo len x : Nat) : (s.setBits off lo len x).yqi = s.yqi := rfl
@[simp] theorem State.setBits_gnoz (s : State) (off lo len x : Nat) : (s.setBits off lo len x).gnoz = s.gnoz := rfl
@[simp] theorem State.setBits_pools (s : State) (off lo len x : Nat) : (s.setBits off lo len x).pools = s.pools := rfl
@[simp] theorem State.setBits_egress (s : State) (off lo len x : Nat) : (s.setBits off lo len x).egress = s.egress := rfl
@[simp] theorem State.setBits_shadow (s : State) (off lo len x : Nat) : (s.setBits off lo len x).shadow = s.shadow := rfl
@[simp] theorem State.setBits_group (s : State) (off lo len x : Nat) : (s.setBits off lo len x).group = s.group := rfl
@[simp] theorem State.setBits_groupRecord (s : State) (off lo len x : Nat) : (s.setBits off lo len x).groupRecord = s.groupRecord := rfl
@[simp] theorem State.setBits_bulkMem (s : State) (off lo len x : Nat) : (s.setBits off lo len x).bulkMem = s.bulkMem := rfl
@[simp] theorem State.setBits_hostMem (s : State) (off lo len x : Nat) : (s.setBits off lo len x).hostMem = s.hostMem := rfl

@[simp] theorem State.setMbox_pending (s : State) (m : Nat) (x : Mailbox) : (s.setMbox m x).pending = s.pending := rfl
@[simp] theorem State.setMbox_freeCtr (s : State) (m : Nat) (x : Mailbox) : (s.setMbox m x).freeCtr = s.freeCtr := rfl
@[simp] theorem State.setMbox_out (s : State) (m : Nat) (x : Mailbox) : (s.setMbox m x).out = s.out := rfl
@[simp] theorem State.setMbox_now (s : State) (m : Nat) (x : Mailbox) : (s.setMbox m x).now = s.now := rfl
@[simp] theorem State.setMbox_regs (s : State) (m : Nat) (x : Mailbox) : (s.setMbox m x).regs = s.regs := rfl
@[simp] theorem State.setMbox_fuseArray (s : State) (m : Nat) (x : Mailbox) : (s.setMbox m x).fuseArray = s.fuseArray := rfl
@[simp] theorem State.setMbox_fuses (s : State) (m : Nat) (x : Mailbox) : (s.setMbox m x).fuses = s.fuses := rfl
@[simp] theorem State.setMbox_evt (s : State) (m : Nat) (x : Mailbox) : (s.setMbox m x).evt = s.evt := rfl
@[simp] theorem State.setMbox_errlog (s : State) (m : Nat) (x : Mailbox) : (s.setMbox m x).errlog = s.errlog := rfl
@[simp] theorem State.setMbox_backup (s : State) (m : Nat) (x : Mailbox) : (s.setMbox m x).backup = s.backup := rfl
@[simp] theorem State.setMbox_flash (s : State) (m : Nat) (x : Mailbox) : (s.setMbox m x).flash = s.flash := rfl
@[simp] theorem State.setMbox_boot (s : State) (m : Nat) (x : Mailbox) : (s.setMbox m x).boot = s.boot := rfl
@[simp] theorem State.setMbox_trustKept (s : State) (m : Nat) (x : Mailbox) : (s.setMbox m x).trustKept = s.trustKept := rfl
@[simp] theorem State.setMbox_power (s : State) (m : Nat) (x : Mailbox) : (s.setMbox m x).power = s.power := rfl
@[simp] theorem State.setMbox_rst (s : State) (m : Nat) (x : Mailbox) : (s.setMbox m x).rst = s.rst := rfl
@[simp] theorem State.setMbox_links (s : State) (m : Nat) (x : Mailbox) : (s.setMbox m x).links = s.links := rfl
@[simp] theorem State.setMbox_pins (s : State) (m : Nat) (x : Mailbox) : (s.setMbox m x).pins = s.pins := rfl
@[simp] theorem State.setMbox_sideband (s : State) (m : Nat) (x : Mailbox) : (s.setMbox m x).sideband = s.sideband := rfl
@[simp] theorem State.setMbox_nand (s : State) (m : Nat) (x : Mailbox) : (s.setMbox m x).nand = s.nand := rfl
@[simp] theorem State.setMbox_media (s : State) (m : Nat) (x : Mailbox) : (s.setMbox m x).media = s.media := rfl
@[simp] theorem State.setMbox_streamEng (s : State) (m : Nat) (x : Mailbox) : (s.setMbox m x).streamEng = s.streamEng := rfl
@[simp] theorem State.setMbox_decode (s : State) (m : Nat) (x : Mailbox) : (s.setMbox m x).decode = s.decode := rfl
@[simp] theorem State.setMbox_text (s : State) (m : Nat) (x : Mailbox) : (s.setMbox m x).text = s.text := rfl
@[simp] theorem State.setMbox_mgr (s : State) (m : Nat) (x : Mailbox) : (s.setMbox m x).mgr = s.mgr := rfl
@[simp] theorem State.setMbox_field (s : State) (m : Nat) (x : Mailbox) : (s.setMbox m x).field = s.field := rfl
@[simp] theorem State.setMbox_sync (s : State) (m : Nat) (x : Mailbox) : (s.setMbox m x).sync = s.sync := rfl
@[simp] theorem State.setMbox_obs (s : State) (m : Nat) (x : Mailbox) : (s.setMbox m x).obs = s.obs := rfl
@[simp] theorem State.setMbox_cmp (s : State) (m : Nat) (x : Mailbox) : (s.setMbox m x).cmp = s.cmp := rfl
@[simp] theorem State.setMbox_yqi (s : State) (m : Nat) (x : Mailbox) : (s.setMbox m x).yqi = s.yqi := rfl
@[simp] theorem State.setMbox_gnoz (s : State) (m : Nat) (x : Mailbox) : (s.setMbox m x).gnoz = s.gnoz := rfl
@[simp] theorem State.setMbox_pools (s : State) (m : Nat) (x : Mailbox) : (s.setMbox m x).pools = s.pools := rfl
@[simp] theorem State.setMbox_egress (s : State) (m : Nat) (x : Mailbox) : (s.setMbox m x).egress = s.egress := rfl
@[simp] theorem State.setMbox_shadow (s : State) (m : Nat) (x : Mailbox) : (s.setMbox m x).shadow = s.shadow := rfl
@[simp] theorem State.setMbox_group (s : State) (m : Nat) (x : Mailbox) : (s.setMbox m x).group = s.group := rfl
@[simp] theorem State.setMbox_groupRecord (s : State) (m : Nat) (x : Mailbox) : (s.setMbox m x).groupRecord = s.groupRecord := rfl
@[simp] theorem State.setMbox_bulkMem (s : State) (m : Nat) (x : Mailbox) : (s.setMbox m x).bulkMem = s.bulkMem := rfl
@[simp] theorem State.setMbox_hostMem (s : State) (m : Nat) (x : Mailbox) : (s.setMbox m x).hostMem = s.hostMem := rfl

@[simp] theorem State.setTile_pending (s : State) (t : Nat) (x : TileState) : (s.setTile t x).pending = s.pending := rfl
@[simp] theorem State.setTile_freeCtr (s : State) (t : Nat) (x : TileState) : (s.setTile t x).freeCtr = s.freeCtr := rfl
@[simp] theorem State.setTile_out (s : State) (t : Nat) (x : TileState) : (s.setTile t x).out = s.out := rfl
@[simp] theorem State.setTile_now (s : State) (t : Nat) (x : TileState) : (s.setTile t x).now = s.now := rfl
@[simp] theorem State.setTile_regs (s : State) (t : Nat) (x : TileState) : (s.setTile t x).regs = s.regs := rfl
@[simp] theorem State.setTile_fuseArray (s : State) (t : Nat) (x : TileState) : (s.setTile t x).fuseArray = s.fuseArray := rfl
@[simp] theorem State.setTile_fuses (s : State) (t : Nat) (x : TileState) : (s.setTile t x).fuses = s.fuses := rfl
@[simp] theorem State.setTile_evt (s : State) (t : Nat) (x : TileState) : (s.setTile t x).evt = s.evt := rfl
@[simp] theorem State.setTile_errlog (s : State) (t : Nat) (x : TileState) : (s.setTile t x).errlog = s.errlog := rfl
@[simp] theorem State.setTile_backup (s : State) (t : Nat) (x : TileState) : (s.setTile t x).backup = s.backup := rfl
@[simp] theorem State.setTile_flash (s : State) (t : Nat) (x : TileState) : (s.setTile t x).flash = s.flash := rfl
@[simp] theorem State.setTile_boot (s : State) (t : Nat) (x : TileState) : (s.setTile t x).boot = s.boot := rfl
@[simp] theorem State.setTile_trustKept (s : State) (t : Nat) (x : TileState) : (s.setTile t x).trustKept = s.trustKept := rfl
@[simp] theorem State.setTile_trust (s : State) (t : Nat) (x : TileState) : (s.setTile t x).trust = s.trust := rfl
@[simp] theorem State.setTile_power (s : State) (t : Nat) (x : TileState) : (s.setTile t x).power = s.power := rfl
@[simp] theorem State.setTile_rst (s : State) (t : Nat) (x : TileState) : (s.setTile t x).rst = s.rst := rfl
@[simp] theorem State.setTile_links (s : State) (t : Nat) (x : TileState) : (s.setTile t x).links = s.links := rfl
@[simp] theorem State.setTile_pins (s : State) (t : Nat) (x : TileState) : (s.setTile t x).pins = s.pins := rfl
@[simp] theorem State.setTile_sideband (s : State) (t : Nat) (x : TileState) : (s.setTile t x).sideband = s.sideband := rfl
@[simp] theorem State.setTile_nand (s : State) (t : Nat) (x : TileState) : (s.setTile t x).nand = s.nand := rfl
@[simp] theorem State.setTile_media (s : State) (t : Nat) (x : TileState) : (s.setTile t x).media = s.media := rfl
@[simp] theorem State.setTile_streamEng (s : State) (t : Nat) (x : TileState) : (s.setTile t x).streamEng = s.streamEng := rfl
@[simp] theorem State.setTile_decode (s : State) (t : Nat) (x : TileState) : (s.setTile t x).decode = s.decode := rfl
@[simp] theorem State.setTile_text (s : State) (t : Nat) (x : TileState) : (s.setTile t x).text = s.text := rfl
@[simp] theorem State.setTile_mgr (s : State) (t : Nat) (x : TileState) : (s.setTile t x).mgr = s.mgr := rfl
@[simp] theorem State.setTile_sync (s : State) (t : Nat) (x : TileState) : (s.setTile t x).sync = s.sync := rfl
@[simp] theorem State.setTile_obs (s : State) (t : Nat) (x : TileState) : (s.setTile t x).obs = s.obs := rfl
@[simp] theorem State.setTile_cmp (s : State) (t : Nat) (x : TileState) : (s.setTile t x).cmp = s.cmp := rfl
@[simp] theorem State.setTile_yqi (s : State) (t : Nat) (x : TileState) : (s.setTile t x).yqi = s.yqi := rfl
@[simp] theorem State.setTile_gnoz (s : State) (t : Nat) (x : TileState) : (s.setTile t x).gnoz = s.gnoz := rfl
@[simp] theorem State.setTile_pools (s : State) (t : Nat) (x : TileState) : (s.setTile t x).pools = s.pools := rfl
@[simp] theorem State.setTile_egress (s : State) (t : Nat) (x : TileState) : (s.setTile t x).egress = s.egress := rfl
@[simp] theorem State.setTile_shadow (s : State) (t : Nat) (x : TileState) : (s.setTile t x).shadow = s.shadow := rfl
@[simp] theorem State.setTile_group (s : State) (t : Nat) (x : TileState) : (s.setTile t x).group = s.group := rfl
@[simp] theorem State.setTile_groupRecord (s : State) (t : Nat) (x : TileState) : (s.setTile t x).groupRecord = s.groupRecord := rfl
@[simp] theorem State.setTile_bulkMem (s : State) (t : Nat) (x : TileState) : (s.setTile t x).bulkMem = s.bulkMem := rfl
@[simp] theorem State.setTile_hostMem (s : State) (t : Nat) (x : TileState) : (s.setTile t x).hostMem = s.hostMem := rfl

@[simp] theorem State.setCtr_pending (s : State) (n : Nat) (c : Counter) : (s.setCtr n c).pending = s.pending := rfl
@[simp] theorem State.setCtr_freeCtr (s : State) (n : Nat) (c : Counter) : (s.setCtr n c).freeCtr = s.freeCtr := rfl
@[simp] theorem State.setCtr_out (s : State) (n : Nat) (c : Counter) : (s.setCtr n c).out = s.out := rfl
@[simp] theorem State.setCtr_now (s : State) (n : Nat) (c : Counter) : (s.setCtr n c).now = s.now := rfl
@[simp] theorem State.setCtr_regs (s : State) (n : Nat) (c : Counter) : (s.setCtr n c).regs = s.regs := rfl
@[simp] theorem State.setCtr_fuseArray (s : State) (n : Nat) (c : Counter) : (s.setCtr n c).fuseArray = s.fuseArray := rfl
@[simp] theorem State.setCtr_fuses (s : State) (n : Nat) (c : Counter) : (s.setCtr n c).fuses = s.fuses := rfl
@[simp] theorem State.setCtr_evt (s : State) (n : Nat) (c : Counter) : (s.setCtr n c).evt = s.evt := rfl
@[simp] theorem State.setCtr_errlog (s : State) (n : Nat) (c : Counter) : (s.setCtr n c).errlog = s.errlog := rfl
@[simp] theorem State.setCtr_backup (s : State) (n : Nat) (c : Counter) : (s.setCtr n c).backup = s.backup := rfl
@[simp] theorem State.setCtr_flash (s : State) (n : Nat) (c : Counter) : (s.setCtr n c).flash = s.flash := rfl
@[simp] theorem State.setCtr_boot (s : State) (n : Nat) (c : Counter) : (s.setCtr n c).boot = s.boot := rfl
@[simp] theorem State.setCtr_trustKept (s : State) (n : Nat) (c : Counter) : (s.setCtr n c).trustKept = s.trustKept := rfl
@[simp] theorem State.setCtr_trust (s : State) (n : Nat) (c : Counter) : (s.setCtr n c).trust = s.trust := rfl
@[simp] theorem State.setCtr_power (s : State) (n : Nat) (c : Counter) : (s.setCtr n c).power = s.power := rfl
@[simp] theorem State.setCtr_rst (s : State) (n : Nat) (c : Counter) : (s.setCtr n c).rst = s.rst := rfl
@[simp] theorem State.setCtr_links (s : State) (n : Nat) (c : Counter) : (s.setCtr n c).links = s.links := rfl
@[simp] theorem State.setCtr_pins (s : State) (n : Nat) (c : Counter) : (s.setCtr n c).pins = s.pins := rfl
@[simp] theorem State.setCtr_sideband (s : State) (n : Nat) (c : Counter) : (s.setCtr n c).sideband = s.sideband := rfl
@[simp] theorem State.setCtr_nand (s : State) (n : Nat) (c : Counter) : (s.setCtr n c).nand = s.nand := rfl
@[simp] theorem State.setCtr_media (s : State) (n : Nat) (c : Counter) : (s.setCtr n c).media = s.media := rfl
@[simp] theorem State.setCtr_streamEng (s : State) (n : Nat) (c : Counter) : (s.setCtr n c).streamEng = s.streamEng := rfl
@[simp] theorem State.setCtr_decode (s : State) (n : Nat) (c : Counter) : (s.setCtr n c).decode = s.decode := rfl
@[simp] theorem State.setCtr_text (s : State) (n : Nat) (c : Counter) : (s.setCtr n c).text = s.text := rfl
@[simp] theorem State.setCtr_mgr (s : State) (n : Nat) (c : Counter) : (s.setCtr n c).mgr = s.mgr := rfl
@[simp] theorem State.setCtr_field (s : State) (n : Nat) (c : Counter) : (s.setCtr n c).field = s.field := rfl
@[simp] theorem State.setCtr_obs (s : State) (n : Nat) (c : Counter) : (s.setCtr n c).obs = s.obs := rfl
@[simp] theorem State.setCtr_cmp (s : State) (n : Nat) (c : Counter) : (s.setCtr n c).cmp = s.cmp := rfl
@[simp] theorem State.setCtr_yqi (s : State) (n : Nat) (c : Counter) : (s.setCtr n c).yqi = s.yqi := rfl
@[simp] theorem State.setCtr_gnoz (s : State) (n : Nat) (c : Counter) : (s.setCtr n c).gnoz = s.gnoz := rfl
@[simp] theorem State.setCtr_pools (s : State) (n : Nat) (c : Counter) : (s.setCtr n c).pools = s.pools := rfl
@[simp] theorem State.setCtr_egress (s : State) (n : Nat) (c : Counter) : (s.setCtr n c).egress = s.egress := rfl
@[simp] theorem State.setCtr_shadow (s : State) (n : Nat) (c : Counter) : (s.setCtr n c).shadow = s.shadow := rfl
@[simp] theorem State.setCtr_group (s : State) (n : Nat) (c : Counter) : (s.setCtr n c).group = s.group := rfl
@[simp] theorem State.setCtr_groupRecord (s : State) (n : Nat) (c : Counter) : (s.setCtr n c).groupRecord = s.groupRecord := rfl
@[simp] theorem State.setCtr_bulkMem (s : State) (n : Nat) (c : Counter) : (s.setCtr n c).bulkMem = s.bulkMem := rfl
@[simp] theorem State.setCtr_hostMem (s : State) (n : Nat) (c : Counter) : (s.setCtr n c).hostMem = s.hostMem := rfl

@[simp] theorem State.setGq_pending (s : State) (g : GnozQueue) : (s.setGq g).pending = s.pending := rfl
@[simp] theorem State.setGq_freeCtr (s : State) (g : GnozQueue) : (s.setGq g).freeCtr = s.freeCtr := rfl
@[simp] theorem State.setGq_out (s : State) (g : GnozQueue) : (s.setGq g).out = s.out := rfl
@[simp] theorem State.setGq_now (s : State) (g : GnozQueue) : (s.setGq g).now = s.now := rfl
@[simp] theorem State.setGq_regs (s : State) (g : GnozQueue) : (s.setGq g).regs = s.regs := rfl
@[simp] theorem State.setGq_fuseArray (s : State) (g : GnozQueue) : (s.setGq g).fuseArray = s.fuseArray := rfl
@[simp] theorem State.setGq_fuses (s : State) (g : GnozQueue) : (s.setGq g).fuses = s.fuses := rfl
@[simp] theorem State.setGq_evt (s : State) (g : GnozQueue) : (s.setGq g).evt = s.evt := rfl
@[simp] theorem State.setGq_errlog (s : State) (g : GnozQueue) : (s.setGq g).errlog = s.errlog := rfl
@[simp] theorem State.setGq_backup (s : State) (g : GnozQueue) : (s.setGq g).backup = s.backup := rfl
@[simp] theorem State.setGq_flash (s : State) (g : GnozQueue) : (s.setGq g).flash = s.flash := rfl
@[simp] theorem State.setGq_boot (s : State) (g : GnozQueue) : (s.setGq g).boot = s.boot := rfl
@[simp] theorem State.setGq_trustKept (s : State) (g : GnozQueue) : (s.setGq g).trustKept = s.trustKept := rfl
@[simp] theorem State.setGq_trust (s : State) (g : GnozQueue) : (s.setGq g).trust = s.trust := rfl
@[simp] theorem State.setGq_power (s : State) (g : GnozQueue) : (s.setGq g).power = s.power := rfl
@[simp] theorem State.setGq_rst (s : State) (g : GnozQueue) : (s.setGq g).rst = s.rst := rfl
@[simp] theorem State.setGq_links (s : State) (g : GnozQueue) : (s.setGq g).links = s.links := rfl
@[simp] theorem State.setGq_pins (s : State) (g : GnozQueue) : (s.setGq g).pins = s.pins := rfl
@[simp] theorem State.setGq_sideband (s : State) (g : GnozQueue) : (s.setGq g).sideband = s.sideband := rfl
@[simp] theorem State.setGq_nand (s : State) (g : GnozQueue) : (s.setGq g).nand = s.nand := rfl
@[simp] theorem State.setGq_media (s : State) (g : GnozQueue) : (s.setGq g).media = s.media := rfl
@[simp] theorem State.setGq_streamEng (s : State) (g : GnozQueue) : (s.setGq g).streamEng = s.streamEng := rfl
@[simp] theorem State.setGq_decode (s : State) (g : GnozQueue) : (s.setGq g).decode = s.decode := rfl
@[simp] theorem State.setGq_text (s : State) (g : GnozQueue) : (s.setGq g).text = s.text := rfl
@[simp] theorem State.setGq_mgr (s : State) (g : GnozQueue) : (s.setGq g).mgr = s.mgr := rfl
@[simp] theorem State.setGq_field (s : State) (g : GnozQueue) : (s.setGq g).field = s.field := rfl
@[simp] theorem State.setGq_sync (s : State) (g : GnozQueue) : (s.setGq g).sync = s.sync := rfl
@[simp] theorem State.setGq_obs (s : State) (g : GnozQueue) : (s.setGq g).obs = s.obs := rfl
@[simp] theorem State.setGq_cmp (s : State) (g : GnozQueue) : (s.setGq g).cmp = s.cmp := rfl
@[simp] theorem State.setGq_yqi (s : State) (g : GnozQueue) : (s.setGq g).yqi = s.yqi := rfl
@[simp] theorem State.setGq_pools (s : State) (g : GnozQueue) : (s.setGq g).pools = s.pools := rfl
@[simp] theorem State.setGq_egress (s : State) (g : GnozQueue) : (s.setGq g).egress = s.egress := rfl
@[simp] theorem State.setGq_shadow (s : State) (g : GnozQueue) : (s.setGq g).shadow = s.shadow := rfl
@[simp] theorem State.setGq_group (s : State) (g : GnozQueue) : (s.setGq g).group = s.group := rfl
@[simp] theorem State.setGq_groupRecord (s : State) (g : GnozQueue) : (s.setGq g).groupRecord = s.groupRecord := rfl
@[simp] theorem State.setGq_bulkMem (s : State) (g : GnozQueue) : (s.setGq g).bulkMem = s.bulkMem := rfl
@[simp] theorem State.setGq_hostMem (s : State) (g : GnozQueue) : (s.setGq g).hostMem = s.hostMem := rfl

@[simp] theorem State.setGroup_pending (s : State) (g : Group) : (s.setGroup g).pending = s.pending := rfl
@[simp] theorem State.setGroup_freeCtr (s : State) (g : Group) : (s.setGroup g).freeCtr = s.freeCtr := rfl
@[simp] theorem State.setGroup_out (s : State) (g : Group) : (s.setGroup g).out = s.out := rfl
@[simp] theorem State.setGroup_now (s : State) (g : Group) : (s.setGroup g).now = s.now := rfl
@[simp] theorem State.setGroup_regs (s : State) (g : Group) : (s.setGroup g).regs = s.regs := rfl
@[simp] theorem State.setGroup_fuseArray (s : State) (g : Group) : (s.setGroup g).fuseArray = s.fuseArray := rfl
@[simp] theorem State.setGroup_fuses (s : State) (g : Group) : (s.setGroup g).fuses = s.fuses := rfl
@[simp] theorem State.setGroup_evt (s : State) (g : Group) : (s.setGroup g).evt = s.evt := rfl
@[simp] theorem State.setGroup_errlog (s : State) (g : Group) : (s.setGroup g).errlog = s.errlog := rfl
@[simp] theorem State.setGroup_backup (s : State) (g : Group) : (s.setGroup g).backup = s.backup := rfl
@[simp] theorem State.setGroup_flash (s : State) (g : Group) : (s.setGroup g).flash = s.flash := rfl
@[simp] theorem State.setGroup_boot (s : State) (g : Group) : (s.setGroup g).boot = s.boot := rfl
@[simp] theorem State.setGroup_trustKept (s : State) (g : Group) : (s.setGroup g).trustKept = s.trustKept := rfl
@[simp] theorem State.setGroup_trust (s : State) (g : Group) : (s.setGroup g).trust = s.trust := rfl
@[simp] theorem State.setGroup_power (s : State) (g : Group) : (s.setGroup g).power = s.power := rfl
@[simp] theorem State.setGroup_rst (s : State) (g : Group) : (s.setGroup g).rst = s.rst := rfl
@[simp] theorem State.setGroup_links (s : State) (g : Group) : (s.setGroup g).links = s.links := rfl
@[simp] theorem State.setGroup_pins (s : State) (g : Group) : (s.setGroup g).pins = s.pins := rfl
@[simp] theorem State.setGroup_sideband (s : State) (g : Group) : (s.setGroup g).sideband = s.sideband := rfl
@[simp] theorem State.setGroup_nand (s : State) (g : Group) : (s.setGroup g).nand = s.nand := rfl
@[simp] theorem State.setGroup_media (s : State) (g : Group) : (s.setGroup g).media = s.media := rfl
@[simp] theorem State.setGroup_streamEng (s : State) (g : Group) : (s.setGroup g).streamEng = s.streamEng := rfl
@[simp] theorem State.setGroup_decode (s : State) (g : Group) : (s.setGroup g).decode = s.decode := rfl
@[simp] theorem State.setGroup_text (s : State) (g : Group) : (s.setGroup g).text = s.text := rfl
@[simp] theorem State.setGroup_mgr (s : State) (g : Group) : (s.setGroup g).mgr = s.mgr := rfl
@[simp] theorem State.setGroup_field (s : State) (g : Group) : (s.setGroup g).field = s.field := rfl
@[simp] theorem State.setGroup_sync (s : State) (g : Group) : (s.setGroup g).sync = s.sync := rfl
@[simp] theorem State.setGroup_obs (s : State) (g : Group) : (s.setGroup g).obs = s.obs := rfl
@[simp] theorem State.setGroup_cmp (s : State) (g : Group) : (s.setGroup g).cmp = s.cmp := rfl
@[simp] theorem State.setGroup_yqi (s : State) (g : Group) : (s.setGroup g).yqi = s.yqi := rfl
@[simp] theorem State.setGroup_gnoz (s : State) (g : Group) : (s.setGroup g).gnoz = s.gnoz := rfl
@[simp] theorem State.setGroup_pools (s : State) (g : Group) : (s.setGroup g).pools = s.pools := rfl
@[simp] theorem State.setGroup_egress (s : State) (g : Group) : (s.setGroup g).egress = s.egress := rfl
@[simp] theorem State.setGroup_shadow (s : State) (g : Group) : (s.setGroup g).shadow = s.shadow := rfl
@[simp] theorem State.setGroup_groupRecord (s : State) (g : Group) : (s.setGroup g).groupRecord = s.groupRecord := rfl
@[simp] theorem State.setGroup_bulkMem (s : State) (g : Group) : (s.setGroup g).bulkMem = s.bulkMem := rfl
@[simp] theorem State.setGroup_hostMem (s : State) (g : Group) : (s.setGroup g).hostMem = s.hostMem := rfl

@[simp] theorem State.setCtxs_pending (s : State) (l : List (Nat × StreamCtx)) : (s.setCtxs l).pending = s.pending := rfl
@[simp] theorem State.setCtxs_freeCtr (s : State) (l : List (Nat × StreamCtx)) : (s.setCtxs l).freeCtr = s.freeCtr := rfl
@[simp] theorem State.setCtxs_out (s : State) (l : List (Nat × StreamCtx)) : (s.setCtxs l).out = s.out := rfl
@[simp] theorem State.setCtxs_now (s : State) (l : List (Nat × StreamCtx)) : (s.setCtxs l).now = s.now := rfl
@[simp] theorem State.setCtxs_regs (s : State) (l : List (Nat × StreamCtx)) : (s.setCtxs l).regs = s.regs := rfl
@[simp] theorem State.setCtxs_fuseArray (s : State) (l : List (Nat × StreamCtx)) : (s.setCtxs l).fuseArray = s.fuseArray := rfl
@[simp] theorem State.setCtxs_fuses (s : State) (l : List (Nat × StreamCtx)) : (s.setCtxs l).fuses = s.fuses := rfl
@[simp] theorem State.setCtxs_evt (s : State) (l : List (Nat × StreamCtx)) : (s.setCtxs l).evt = s.evt := rfl
@[simp] theorem State.setCtxs_errlog (s : State) (l : List (Nat × StreamCtx)) : (s.setCtxs l).errlog = s.errlog := rfl
@[simp] theorem State.setCtxs_backup (s : State) (l : List (Nat × StreamCtx)) : (s.setCtxs l).backup = s.backup := rfl
@[simp] theorem State.setCtxs_flash (s : State) (l : List (Nat × StreamCtx)) : (s.setCtxs l).flash = s.flash := rfl
@[simp] theorem State.setCtxs_boot (s : State) (l : List (Nat × StreamCtx)) : (s.setCtxs l).boot = s.boot := rfl
@[simp] theorem State.setCtxs_trustKept (s : State) (l : List (Nat × StreamCtx)) : (s.setCtxs l).trustKept = s.trustKept := rfl
@[simp] theorem State.setCtxs_trust (s : State) (l : List (Nat × StreamCtx)) : (s.setCtxs l).trust = s.trust := rfl
@[simp] theorem State.setCtxs_power (s : State) (l : List (Nat × StreamCtx)) : (s.setCtxs l).power = s.power := rfl
@[simp] theorem State.setCtxs_rst (s : State) (l : List (Nat × StreamCtx)) : (s.setCtxs l).rst = s.rst := rfl
@[simp] theorem State.setCtxs_links (s : State) (l : List (Nat × StreamCtx)) : (s.setCtxs l).links = s.links := rfl
@[simp] theorem State.setCtxs_pins (s : State) (l : List (Nat × StreamCtx)) : (s.setCtxs l).pins = s.pins := rfl
@[simp] theorem State.setCtxs_sideband (s : State) (l : List (Nat × StreamCtx)) : (s.setCtxs l).sideband = s.sideband := rfl
@[simp] theorem State.setCtxs_nand (s : State) (l : List (Nat × StreamCtx)) : (s.setCtxs l).nand = s.nand := rfl
@[simp] theorem State.setCtxs_media (s : State) (l : List (Nat × StreamCtx)) : (s.setCtxs l).media = s.media := rfl
@[simp] theorem State.setCtxs_decode (s : State) (l : List (Nat × StreamCtx)) : (s.setCtxs l).decode = s.decode := rfl
@[simp] theorem State.setCtxs_text (s : State) (l : List (Nat × StreamCtx)) : (s.setCtxs l).text = s.text := rfl
@[simp] theorem State.setCtxs_mgr (s : State) (l : List (Nat × StreamCtx)) : (s.setCtxs l).mgr = s.mgr := rfl
@[simp] theorem State.setCtxs_field (s : State) (l : List (Nat × StreamCtx)) : (s.setCtxs l).field = s.field := rfl
@[simp] theorem State.setCtxs_sync (s : State) (l : List (Nat × StreamCtx)) : (s.setCtxs l).sync = s.sync := rfl
@[simp] theorem State.setCtxs_obs (s : State) (l : List (Nat × StreamCtx)) : (s.setCtxs l).obs = s.obs := rfl
@[simp] theorem State.setCtxs_cmp (s : State) (l : List (Nat × StreamCtx)) : (s.setCtxs l).cmp = s.cmp := rfl
@[simp] theorem State.setCtxs_yqi (s : State) (l : List (Nat × StreamCtx)) : (s.setCtxs l).yqi = s.yqi := rfl
@[simp] theorem State.setCtxs_gnoz (s : State) (l : List (Nat × StreamCtx)) : (s.setCtxs l).gnoz = s.gnoz := rfl
@[simp] theorem State.setCtxs_pools (s : State) (l : List (Nat × StreamCtx)) : (s.setCtxs l).pools = s.pools := rfl
@[simp] theorem State.setCtxs_egress (s : State) (l : List (Nat × StreamCtx)) : (s.setCtxs l).egress = s.egress := rfl
@[simp] theorem State.setCtxs_shadow (s : State) (l : List (Nat × StreamCtx)) : (s.setCtxs l).shadow = s.shadow := rfl
@[simp] theorem State.setCtxs_group (s : State) (l : List (Nat × StreamCtx)) : (s.setCtxs l).group = s.group := rfl
@[simp] theorem State.setCtxs_groupRecord (s : State) (l : List (Nat × StreamCtx)) : (s.setCtxs l).groupRecord = s.groupRecord := rfl
@[simp] theorem State.setCtxs_bulkMem (s : State) (l : List (Nat × StreamCtx)) : (s.setCtxs l).bulkMem = s.bulkMem := rfl
@[simp] theorem State.setCtxs_hostMem (s : State) (l : List (Nat × StreamCtx)) : (s.setCtxs l).hostMem = s.hostMem := rfl

@[simp] theorem State.takeFree_pending (s : State) : s.takeFree.2.pending = s.pending := rfl
@[simp] theorem State.takeFree_out (s : State) : s.takeFree.2.out = s.out := rfl
@[simp] theorem State.takeFree_now (s : State) : s.takeFree.2.now = s.now := rfl
@[simp] theorem State.takeFree_regs (s : State) : s.takeFree.2.regs = s.regs := rfl
@[simp] theorem State.takeFree_fuseArray (s : State) : s.takeFree.2.fuseArray = s.fuseArray := rfl
@[simp] theorem State.takeFree_fuses (s : State) : s.takeFree.2.fuses = s.fuses := rfl
@[simp] theorem State.takeFree_evt (s : State) : s.takeFree.2.evt = s.evt := rfl
@[simp] theorem State.takeFree_errlog (s : State) : s.takeFree.2.errlog = s.errlog := rfl
@[simp] theorem State.takeFree_backup (s : State) : s.takeFree.2.backup = s.backup := rfl
@[simp] theorem State.takeFree_flash (s : State) : s.takeFree.2.flash = s.flash := rfl
@[simp] theorem State.takeFree_boot (s : State) : s.takeFree.2.boot = s.boot := rfl
@[simp] theorem State.takeFree_trustKept (s : State) : s.takeFree.2.trustKept = s.trustKept := rfl
@[simp] theorem State.takeFree_trust (s : State) : s.takeFree.2.trust = s.trust := rfl
@[simp] theorem State.takeFree_power (s : State) : s.takeFree.2.power = s.power := rfl
@[simp] theorem State.takeFree_rst (s : State) : s.takeFree.2.rst = s.rst := rfl
@[simp] theorem State.takeFree_links (s : State) : s.takeFree.2.links = s.links := rfl
@[simp] theorem State.takeFree_pins (s : State) : s.takeFree.2.pins = s.pins := rfl
@[simp] theorem State.takeFree_sideband (s : State) : s.takeFree.2.sideband = s.sideband := rfl
@[simp] theorem State.takeFree_nand (s : State) : s.takeFree.2.nand = s.nand := rfl
@[simp] theorem State.takeFree_media (s : State) : s.takeFree.2.media = s.media := rfl
@[simp] theorem State.takeFree_streamEng (s : State) : s.takeFree.2.streamEng = s.streamEng := rfl
@[simp] theorem State.takeFree_decode (s : State) : s.takeFree.2.decode = s.decode := rfl
@[simp] theorem State.takeFree_text (s : State) : s.takeFree.2.text = s.text := rfl
@[simp] theorem State.takeFree_mgr (s : State) : s.takeFree.2.mgr = s.mgr := rfl
@[simp] theorem State.takeFree_field (s : State) : s.takeFree.2.field = s.field := rfl
@[simp] theorem State.takeFree_sync (s : State) : s.takeFree.2.sync = s.sync := rfl
@[simp] theorem State.takeFree_obs (s : State) : s.takeFree.2.obs = s.obs := rfl
@[simp] theorem State.takeFree_cmp (s : State) : s.takeFree.2.cmp = s.cmp := rfl
@[simp] theorem State.takeFree_yqi (s : State) : s.takeFree.2.yqi = s.yqi := rfl
@[simp] theorem State.takeFree_gnoz (s : State) : s.takeFree.2.gnoz = s.gnoz := rfl
@[simp] theorem State.takeFree_pools (s : State) : s.takeFree.2.pools = s.pools := rfl
@[simp] theorem State.takeFree_egress (s : State) : s.takeFree.2.egress = s.egress := rfl
@[simp] theorem State.takeFree_shadow (s : State) : s.takeFree.2.shadow = s.shadow := rfl
@[simp] theorem State.takeFree_group (s : State) : s.takeFree.2.group = s.group := rfl
@[simp] theorem State.takeFree_groupRecord (s : State) : s.takeFree.2.groupRecord = s.groupRecord := rfl
@[simp] theorem State.takeFree_bulkMem (s : State) : s.takeFree.2.bulkMem = s.bulkMem := rfl
@[simp] theorem State.takeFree_hostMem (s : State) : s.takeFree.2.hostMem = s.hostMem := rfl

@[simp] theorem State.takeFree_value (s : State) : s.takeFree.1 = s.freeCtr := rfl

@[simp] theorem State.takeFree_freeCtr (s : State) : s.takeFree.2.freeCtr = s.freeCtr + 1 := rfl

@[simp] theorem State.emit_out (s : State) (e : Emit) : (s.emit e).out = s.out ++ [e] := rfl

@[simp] theorem State.advance_now (s : State) (n : Nat) : (s.advance n).now = max s.now n := rfl

@[simp] theorem State.setMedia_media (s : State) (m : Media) : (s.setMedia m).media = m := rfl

@[simp] theorem State.setGroup_group (s : State) (g : Group) : (s.setGroup g).group = g := rfl

@[simp] theorem State.setCtxs_ctxs (s : State) (l : List (Nat × StreamCtx)) : (s.setCtxs l).streamEng.ctxs = l := rfl

end Sys2Proof.Machine
end

