-- ==== Sys2Proof/Laws/Ops.lean ====
section
/-! SUPPORT. One lemma per shared operation: what it changes, and that it leaves the rest. -/

namespace Sys2Proof.Machine

/-- An anchor record changes one anchor and the ceiling the anchors hold. -/
theorem State.writeAnchorWith_frame (s : State) (f : Bool) (i : MediaImage) (q : Nat) :
    ∃ a0 a1 c, s.writeAnchorWith f i q = { s with
      nand := { s.nand with anchor0 := a0, anchor1 := a1 }, evt := { s.evt with anchor := some c } } := by
  unfold State.writeAnchorWith
  simp only
  generalize (max _ _ + 1) = n
  by_cases h : n % 2 = 1
  · exact ⟨_, _, _, by rw [if_pos h]⟩
  · exact ⟨_, _, _, by rw [if_neg h]⟩

/-- As an anchor record, when the media can write one. -/
theorem State.writeAnchor_frame (s : State) (f : Bool) :
    ∃ a0 a1 c, s.writeAnchor f = { s with
      nand := { s.nand with anchor0 := a0, anchor1 := a1 }, evt := { s.evt with anchor := c } } := by
  unfold State.writeAnchor
  split
  · split
    · obtain ⟨a0, a1, c, h⟩ := s.writeAnchorWith_frame f ‹Anchor›.image ‹Anchor›.startSeq
      exact ⟨a0, a1, some c, h⟩
    · exact ⟨s.nand.anchor0, s.nand.anchor1, s.evt.anchor, rfl⟩
  · exact ⟨s.nand.anchor0, s.nand.anchor1, s.evt.anchor, rfl⟩

/-- Issuing a number changes the event numbers, and perhaps an anchor record. -/
theorem State.issueSeq_frame (s : State) : ∃ ev a0 a1, s.issueSeq.2 =
    { s with evt := ev, nand := { s.nand with anchor0 := a0, anchor1 := a1 } } := by
  have w : ∀ (u : State) (c : Bool), ∃ ev a0 a1, (if c then u else u.writeAnchor false) =
      { u with evt := ev, nand := { u.nand with anchor0 := a0, anchor1 := a1 } } := by
    intro u c
    cases c
    · obtain ⟨a0, a1, c, h⟩ := u.writeAnchor_frame false
      exact ⟨_, a0, a1, h⟩
    · exact ⟨u.evt, u.nand.anchor0, u.nand.anchor1, rfl⟩
  unfold State.issueSeq
  cases s.evt.near
  · obtain ⟨ev, a0, a1, h⟩ := w s s.evt.covered
    simp only [Bool.false_eq_true, if_false, h]
    exact ⟨_, a0, a1, rfl⟩
  · obtain ⟨ev, a0, a1, h⟩ := w { s with evt := s.evt.raise } s.evt.raise.covered
    simp only [if_true, h]
    exact ⟨_, a0, a1, rfl⟩

/-- A log entry changes the event numbers, the log, the overflow bit of the log's own counter, and perhaps an anchor record. -/
theorem State.logEntry_frame (s : State) (e : LogEntry) :
    ∃ ev el rg a0 a1, s.logEntry e =
      { s with evt := ev, errlog := el, regs := rg, nand := { s.nand with anchor0 := a0, anchor1 := a1 } } := by
  unfold State.logEntry
  split
  · split
    · exact ⟨_, _, _, s.nand.anchor0, s.nand.anchor1, rfl⟩
    · exact ⟨_, _, _, s.nand.anchor0, s.nand.anchor1, rfl⟩
  · obtain ⟨ev, a0, a1, h⟩ := s.issueSeq_frame
    simp only [h]
    split <;> exact ⟨_, _, _, a0, a1, rfl⟩

/-- What an anchor record makes of the event numbers and the anchors, from what it reads of the state. -/
def anchorParts (ev : EventSeq) (nd : MediaKept) (m : Media) : EventSeq × MediaKept :=
  let t := State.writeAnchor { evt := ev, nand := nd, media := m } false
  (t.evt, t.nand)

theorem State.writeAnchor_parts (s : State) : s.writeAnchor false =
    { s with evt := (anchorParts s.evt s.nand s.media).1, nand := (anchorParts s.evt s.nand s.media).2 } := by
  unfold anchorParts State.writeAnchor
  simp only
  cases s.nand.current with
  | none => rfl
  | some a =>
    simp only
    cases s.media.mapLoaded
    · rfl
    · simp only [if_true, State.writeAnchorWith]

/-- What the issue of a number makes of the event numbers and the anchors. -/
def seqParts (ev : EventSeq) (nd : MediaKept) (m : Media) : EventSeq × MediaKept :=
  let e1 := if ev.near then ev.raise else ev
  let p := if e1.covered then (e1, nd) else anchorParts e1 nd m
  p

theorem State.issueSeq_parts (s : State) : s.issueSeq =
    ((seqParts s.evt s.nand s.media).1.next, { s with
      evt := { (seqParts s.evt s.nand s.media).1 with next := (seqParts s.evt s.nand s.media).1.next + 1 },
      nand := (seqParts s.evt s.nand s.media).2 }) := by
  unfold seqParts State.issueSeq
  cases s.evt.near
  · simp only [Bool.false_eq_true, if_false]
    cases s.evt.covered
    · simp only [Bool.false_eq_true, if_false, State.writeAnchor_parts]
    · simp only [if_true]
  · simp only [if_true]
    cases s.evt.raise.covered
    · simp only [Bool.false_eq_true, if_false, State.writeAnchor_parts]
    · simp only [if_true]

/-- What a record makes of the event numbers, the log, the registers and the anchors, from what it reads of the state. -/
def logParts (ph : BootPhase) (ev : EventSeq) (el : ErrorLog) (rg : List (Nat × Word)) (nd : MediaKept) (m : Media)
    (e : LogEntry) : EventSeq × ErrorLog × List (Nat × Word) × MediaKept :=
  let t := State.logEntry { boot := { phase := ph }, evt := ev, errlog := el, regs := rg, nand := nd, media := m } e
  (t.evt, t.errlog, t.regs, t.nand)

/-- A record is a function of the boot phase, the event numbers, the log, the registers, the anchors and the media. -/
theorem State.logEntry_parts (s : State) (e : LogEntry) :
    s.logEntry e = { s with
      evt := (logParts s.boot.phase s.evt s.errlog s.regs s.nand s.media e).1,
      errlog := (logParts s.boot.phase s.evt s.errlog s.regs s.nand s.media e).2.1,
      regs := (logParts s.boot.phase s.evt s.errlog s.regs s.nand s.media e).2.2.1,
      nand := (logParts s.boot.phase s.evt s.errlog s.regs s.nand s.media e).2.2.2 } := by
  unfold logParts State.logEntry
  cases h1 : s.boot.phase.beforeRebuild
  · simp only [Bool.false_eq_true, if_false, State.issueSeq_parts]
    generalize seqParts s.evt s.nand s.media = p
    by_cases h3 : (s.errlog.push { e with seq := p.1.next }).lost = 2 ^ 32 - 1
    · simp only [h3, if_true]; rfl
    · simp only [h3, if_false]
  · simp only [if_true]
    by_cases h2 : s.errlog.held.length < 64
    · simp only [h2, if_true]
    · simp only [h2, if_false]
/-- What a counter's rise makes of the registers. -/
def bumpParts (rg : List (Nat × Word)) (off ovfOff ovfBit n : Nat) : List (Nat × Word) :=
  (State.bumpBy { regs := rg } off ovfOff ovfBit n).regs

/-- A counter's rise is a function of the registers. -/
theorem State.bumpBy_parts (s : State) (off ovfOff ovfBit n : Nat) :
    s.bumpBy off ovfOff ovfBit n = { s with regs := bumpParts s.regs off ovfOff ovfBit n } := by
  unfold bumpParts State.bumpBy
  simp only [State.setBits, State.setReg, State.reg]
  by_cases h : min ((assocGet (resetWord off) off s.regs).toNat + n) (2 ^ 32 - 1) = 2 ^ 32 - 1
  · simp only [h, if_true]
  · simp only [h, if_false]

@[simp] theorem State.logEntry_pending (s : State) (e : LogEntry) : (s.logEntry e).pending = s.pending := by
  obtain ⟨_, _, _, _, _, h⟩ := s.logEntry_frame e; rw [h]
@[simp] theorem State.logEntry_freeCtr (s : State) (e : LogEntry) : (s.logEntry e).freeCtr = s.freeCtr := by
  obtain ⟨_, _, _, _, _, h⟩ := s.logEntry_frame e; rw [h]
@[simp] theorem State.logEntry_out (s : State) (e : LogEntry) : (s.logEntry e).out = s.out := by
  obtain ⟨_, _, _, _, _, h⟩ := s.logEntry_frame e; rw [h]
@[simp] theorem State.logEntry_now (s : State) (e : LogEntry) : (s.logEntry e).now = s.now := by
  obtain ⟨_, _, _, _, _, h⟩ := s.logEntry_frame e; rw [h]
@[simp] theorem State.logEntry_fuses (s : State) (e : LogEntry) : (s.logEntry e).fuses = s.fuses := by
  obtain ⟨_, _, _, _, _, h⟩ := s.logEntry_frame e; rw [h]
@[simp] theorem State.logEntry_fuseArray (s : State) (e : LogEntry) : (s.logEntry e).fuseArray = s.fuseArray := by
  obtain ⟨_, _, _, _, _, h⟩ := s.logEntry_frame e; rw [h]
@[simp] theorem State.logEntry_backup (s : State) (e : LogEntry) : (s.logEntry e).backup = s.backup := by
  obtain ⟨_, _, _, _, _, h⟩ := s.logEntry_frame e; rw [h]
@[simp] theorem State.logEntry_flash (s : State) (e : LogEntry) : (s.logEntry e).flash = s.flash := by
  obtain ⟨_, _, _, _, _, h⟩ := s.logEntry_frame e; rw [h]
@[simp] theorem State.logEntry_boot (s : State) (e : LogEntry) : (s.logEntry e).boot = s.boot := by
  obtain ⟨_, _, _, _, _, h⟩ := s.logEntry_frame e; rw [h]
@[simp] theorem State.logEntry_trustKept (s : State) (e : LogEntry) : (s.logEntry e).trustKept = s.trustKept := by
  obtain ⟨_, _, _, _, _, h⟩ := s.logEntry_frame e; rw [h]
@[simp] theorem State.logEntry_trust (s : State) (e : LogEntry) : (s.logEntry e).trust = s.trust := by
  obtain ⟨_, _, _, _, _, h⟩ := s.logEntry_frame e; rw [h]
@[simp] theorem State.logEntry_power (s : State) (e : LogEntry) : (s.logEntry e).power = s.power := by
  obtain ⟨_, _, _, _, _, h⟩ := s.logEntry_frame e; rw [h]
@[simp] theorem State.logEntry_rst (s : State) (e : LogEntry) : (s.logEntry e).rst = s.rst := by
  obtain ⟨_, _, _, _, _, h⟩ := s.logEntry_frame e; rw [h]
@[simp] theorem State.logEntry_links (s : State) (e : LogEntry) : (s.logEntry e).links = s.links := by
  obtain ⟨_, _, _, _, _, h⟩ := s.logEntry_frame e; rw [h]
@[simp] theorem State.logEntry_pins (s : State) (e : LogEntry) : (s.logEntry e).pins = s.pins := by
  obtain ⟨_, _, _, _, _, h⟩ := s.logEntry_frame e; rw [h]
@[simp] theorem State.logEntry_sideband (s : State) (e : LogEntry) : (s.logEntry e).sideband = s.sideband := by
  obtain ⟨_, _, _, _, _, h⟩ := s.logEntry_frame e; rw [h]
@[simp] theorem State.logEntry_media (s : State) (e : LogEntry) : (s.logEntry e).media = s.media := by
  obtain ⟨_, _, _, _, _, h⟩ := s.logEntry_frame e; rw [h]
@[simp] theorem State.logEntry_streamEng (s : State) (e : LogEntry) : (s.logEntry e).streamEng = s.streamEng := by
  obtain ⟨_, _, _, _, _, h⟩ := s.logEntry_frame e; rw [h]
@[simp] theorem State.logEntry_decode (s : State) (e : LogEntry) : (s.logEntry e).decode = s.decode := by
  obtain ⟨_, _, _, _, _, h⟩ := s.logEntry_frame e; rw [h]
@[simp] theorem State.logEntry_text (s : State) (e : LogEntry) : (s.logEntry e).text = s.text := by
  obtain ⟨_, _, _, _, _, h⟩ := s.logEntry_frame e; rw [h]
@[simp] theorem State.logEntry_mgr (s : State) (e : LogEntry) : (s.logEntry e).mgr = s.mgr := by
  obtain ⟨_, _, _, _, _, h⟩ := s.logEntry_frame e; rw [h]
@[simp] theorem State.logEntry_field (s : State) (e : LogEntry) : (s.logEntry e).field = s.field := by
  obtain ⟨_, _, _, _, _, h⟩ := s.logEntry_frame e; rw [h]
@[simp] theorem State.logEntry_sync (s : State) (e : LogEntry) : (s.logEntry e).sync = s.sync := by
  obtain ⟨_, _, _, _, _, h⟩ := s.logEntry_frame e; rw [h]
@[simp] theorem State.logEntry_obs (s : State) (e : LogEntry) : (s.logEntry e).obs = s.obs := by
  obtain ⟨_, _, _, _, _, h⟩ := s.logEntry_frame e; rw [h]
@[simp] theorem State.logEntry_cmp (s : State) (e : LogEntry) : (s.logEntry e).cmp = s.cmp := by
  obtain ⟨_, _, _, _, _, h⟩ := s.logEntry_frame e; rw [h]
@[simp] theorem State.logEntry_yqi (s : State) (e : LogEntry) : (s.logEntry e).yqi = s.yqi := by
  obtain ⟨_, _, _, _, _, h⟩ := s.logEntry_frame e; rw [h]
@[simp] theorem State.logEntry_gnoz (s : State) (e : LogEntry) : (s.logEntry e).gnoz = s.gnoz := by
  obtain ⟨_, _, _, _, _, h⟩ := s.logEntry_frame e; rw [h]
@[simp] theorem State.logEntry_pools (s : State) (e : LogEntry) : (s.logEntry e).pools = s.pools := by
  obtain ⟨_, _, _, _, _, h⟩ := s.logEntry_frame e; rw [h]
@[simp] theorem State.logEntry_egress (s : State) (e : LogEntry) : (s.logEntry e).egress = s.egress := by
  obtain ⟨_, _, _, _, _, h⟩ := s.logEntry_frame e; rw [h]
@[simp] theorem State.logEntry_shadow (s : State) (e : LogEntry) : (s.logEntry e).shadow = s.shadow := by
  obtain ⟨_, _, _, _, _, h⟩ := s.logEntry_frame e; rw [h]
@[simp] theorem State.logEntry_group (s : State) (e : LogEntry) : (s.logEntry e).group = s.group := by
  obtain ⟨_, _, _, _, _, h⟩ := s.logEntry_frame e; rw [h]
@[simp] theorem State.logEntry_groupRecord (s : State) (e : LogEntry) : (s.logEntry e).groupRecord = s.groupRecord := by
  obtain ⟨_, _, _, _, _, h⟩ := s.logEntry_frame e; rw [h]
@[simp] theorem State.logEntry_bulkMem (s : State) (e : LogEntry) : (s.logEntry e).bulkMem = s.bulkMem := by
  obtain ⟨_, _, _, _, _, h⟩ := s.logEntry_frame e; rw [h]
@[simp] theorem State.logEntry_hostMem (s : State) (e : LogEntry) : (s.logEntry e).hostMem = s.hostMem := by
  obtain ⟨_, _, _, _, _, h⟩ := s.logEntry_frame e; rw [h]

@[simp] theorem State.log_pending (s : State) (st : Status) (b i0 i1 i2 d n : Nat) : (s.log st b i0 i1 i2 d n).pending = s.pending := by
  simp [State.log]
@[simp] theorem State.log_freeCtr (s : State) (st : Status) (b i0 i1 i2 d n : Nat) : (s.log st b i0 i1 i2 d n).freeCtr = s.freeCtr := by
  simp [State.log]
@[simp] theorem State.log_out (s : State) (st : Status) (b i0 i1 i2 d n : Nat) : (s.log st b i0 i1 i2 d n).out = s.out := by
  simp [State.log]
@[simp] theorem State.log_now (s : State) (st : Status) (b i0 i1 i2 d n : Nat) : (s.log st b i0 i1 i2 d n).now = s.now := by
  simp [State.log]
@[simp] theorem State.log_fuses (s : State) (st : Status) (b i0 i1 i2 d n : Nat) : (s.log st b i0 i1 i2 d n).fuses = s.fuses := by
  simp [State.log]
@[simp] theorem State.log_fuseArray (s : State) (st : Status) (b i0 i1 i2 d n : Nat) : (s.log st b i0 i1 i2 d n).fuseArray = s.fuseArray := by
  simp [State.log]
@[simp] theorem State.log_backup (s : State) (st : Status) (b i0 i1 i2 d n : Nat) : (s.log st b i0 i1 i2 d n).backup = s.backup := by
  simp [State.log]
@[simp] theorem State.log_flash (s : State) (st : Status) (b i0 i1 i2 d n : Nat) : (s.log st b i0 i1 i2 d n).flash = s.flash := by
  simp [State.log]
@[simp] theorem State.log_boot (s : State) (st : Status) (b i0 i1 i2 d n : Nat) : (s.log st b i0 i1 i2 d n).boot = s.boot := by
  simp [State.log]
@[simp] theorem State.log_trustKept (s : State) (st : Status) (b i0 i1 i2 d n : Nat) : (s.log st b i0 i1 i2 d n).trustKept = s.trustKept := by
  simp [State.log]
@[simp] theorem State.log_trust (s : State) (st : Status) (b i0 i1 i2 d n : Nat) : (s.log st b i0 i1 i2 d n).trust = s.trust := by
  simp [State.log]
@[simp] theorem State.log_power (s : State) (st : Status) (b i0 i1 i2 d n : Nat) : (s.log st b i0 i1 i2 d n).power = s.power := by
  simp [State.log]
@[simp] theorem State.log_rst (s : State) (st : Status) (b i0 i1 i2 d n : Nat) : (s.log st b i0 i1 i2 d n).rst = s.rst := by
  simp [State.log]
@[simp] theorem State.log_links (s : State) (st : Status) (b i0 i1 i2 d n : Nat) : (s.log st b i0 i1 i2 d n).links = s.links := by
  simp [State.log]
@[simp] theorem State.log_pins (s : State) (st : Status) (b i0 i1 i2 d n : Nat) : (s.log st b i0 i1 i2 d n).pins = s.pins := by
  simp [State.log]
@[simp] theorem State.log_sideband (s : State) (st : Status) (b i0 i1 i2 d n : Nat) : (s.log st b i0 i1 i2 d n).sideband = s.sideband := by
  simp [State.log]
@[simp] theorem State.log_media (s : State) (st : Status) (b i0 i1 i2 d n : Nat) : (s.log st b i0 i1 i2 d n).media = s.media := by
  simp [State.log]
@[simp] theorem State.log_streamEng (s : State) (st : Status) (b i0 i1 i2 d n : Nat) : (s.log st b i0 i1 i2 d n).streamEng = s.streamEng := by
  simp [State.log]
@[simp] theorem State.log_decode (s : State) (st : Status) (b i0 i1 i2 d n : Nat) : (s.log st b i0 i1 i2 d n).decode = s.decode := by
  simp [State.log]
@[simp] theorem State.log_text (s : State) (st : Status) (b i0 i1 i2 d n : Nat) : (s.log st b i0 i1 i2 d n).text = s.text := by
  simp [State.log]
@[simp] theorem State.log_mgr (s : State) (st : Status) (b i0 i1 i2 d n : Nat) : (s.log st b i0 i1 i2 d n).mgr = s.mgr := by
  simp [State.log]
@[simp] theorem State.log_field (s : State) (st : Status) (b i0 i1 i2 d n : Nat) : (s.log st b i0 i1 i2 d n).field = s.field := by
  simp [State.log]
@[simp] theorem State.log_sync (s : State) (st : Status) (b i0 i1 i2 d n : Nat) : (s.log st b i0 i1 i2 d n).sync = s.sync := by
  simp [State.log]
@[simp] theorem State.log_obs (s : State) (st : Status) (b i0 i1 i2 d n : Nat) : (s.log st b i0 i1 i2 d n).obs = s.obs := by
  simp [State.log]
@[simp] theorem State.log_cmp (s : State) (st : Status) (b i0 i1 i2 d n : Nat) : (s.log st b i0 i1 i2 d n).cmp = s.cmp := by
  simp [State.log]
@[simp] theorem State.log_yqi (s : State) (st : Status) (b i0 i1 i2 d n : Nat) : (s.log st b i0 i1 i2 d n).yqi = s.yqi := by
  simp [State.log]
@[simp] theorem State.log_gnoz (s : State) (st : Status) (b i0 i1 i2 d n : Nat) : (s.log st b i0 i1 i2 d n).gnoz = s.gnoz := by
  simp [State.log]
@[simp] theorem State.log_pools (s : State) (st : Status) (b i0 i1 i2 d n : Nat) : (s.log st b i0 i1 i2 d n).pools = s.pools := by
  simp [State.log]
@[simp] theorem State.log_egress (s : State) (st : Status) (b i0 i1 i2 d n : Nat) : (s.log st b i0 i1 i2 d n).egress = s.egress := by
  simp [State.log]
@[simp] theorem State.log_shadow (s : State) (st : Status) (b i0 i1 i2 d n : Nat) : (s.log st b i0 i1 i2 d n).shadow = s.shadow := by
  simp [State.log]
@[simp] theorem State.log_group (s : State) (st : Status) (b i0 i1 i2 d n : Nat) : (s.log st b i0 i1 i2 d n).group = s.group := by
  simp [State.log]
@[simp] theorem State.log_groupRecord (s : State) (st : Status) (b i0 i1 i2 d n : Nat) : (s.log st b i0 i1 i2 d n).groupRecord = s.groupRecord := by
  simp [State.log]
@[simp] theorem State.log_bulkMem (s : State) (st : Status) (b i0 i1 i2 d n : Nat) : (s.log st b i0 i1 i2 d n).bulkMem = s.bulkMem := by
  simp [State.log]
@[simp] theorem State.log_hostMem (s : State) (st : Status) (b i0 i1 i2 d n : Nat) : (s.log st b i0 i1 i2 d n).hostMem = s.hostMem := by
  simp [State.log]

/-- A record of the log changes what an entry does. -/
theorem State.log_record_frame (s : State) (st : Status) (b i0 i1 i2 d n : Nat) :
    ∃ ev el rg a0 a1, s.log st b i0 i1 i2 d n =
      { s with evt := ev, errlog := el, regs := rg, nand := { s.nand with anchor0 := a0, anchor1 := a1 } } := by
  unfold State.log
  exact s.logEntry_frame _

@[simp] theorem State.logEntry_nand_store (s : State) (e : LogEntry) : (s.logEntry e).nand.store = s.nand.store := by
  obtain ⟨_, _, _, _, _, h⟩ := s.logEntry_frame e; rw [h]
@[simp] theorem State.logEntry_nand_info (s : State) (e : LogEntry) : (s.logEntry e).nand.info = s.nand.info := by
  obtain ⟨_, _, _, _, _, h⟩ := s.logEntry_frame e; rw [h]
@[simp] theorem State.logEntry_nand_handover (s : State) (e : LogEntry) : (s.logEntry e).nand.handover = s.nand.handover := by
  obtain ⟨_, _, _, _, _, h⟩ := s.logEntry_frame e; rw [h]
@[simp] theorem State.logEntry_nand_journal (s : State) (e : LogEntry) : (s.logEntry e).nand.journal = s.nand.journal := by
  obtain ⟨_, _, _, _, _, h⟩ := s.logEntry_frame e; rw [h]
@[simp] theorem State.logEntry_nand_lgBlocks (s : State) (e : LogEntry) : (s.logEntry e).nand.lgBlocks = s.nand.lgBlocks := by
  obtain ⟨_, _, _, _, _, h⟩ := s.logEntry_frame e; rw [h]
@[simp] theorem State.logEntry_nand_lgPages (s : State) (e : LogEntry) : (s.logEntry e).nand.lgPages = s.nand.lgPages := by
  obtain ⟨_, _, _, _, _, h⟩ := s.logEntry_frame e; rw [h]
@[simp] theorem State.logEntry_nand_lgUnits (s : State) (e : LogEntry) : (s.logEntry e).nand.lgUnits = s.nand.lgUnits := by
  obtain ⟨_, _, _, _, _, h⟩ := s.logEntry_frame e; rw [h]
@[simp] theorem State.logEntry_nand_badBlocks (s : State) (e : LogEntry) : (s.logEntry e).nand.badBlocks = s.nand.badBlocks := by
  obtain ⟨_, _, _, _, _, h⟩ := s.logEntry_frame e; rw [h]
@[simp] theorem State.logEntry_nand_bands (s : State) (e : LogEntry) : (s.logEntry e).nand.bands = s.nand.bands := by
  obtain ⟨_, _, _, _, _, h⟩ := s.logEntry_frame e; rw [h]
@[simp] theorem State.logEntry_nand_retired (s : State) (e : LogEntry) : (s.logEntry e).nand.retired = s.nand.retired := by
  obtain ⟨_, _, _, _, _, h⟩ := s.logEntry_frame e; rw [h]
@[simp] theorem State.logEntry_nand_freeBlocks (s : State) (e : LogEntry) : (s.logEntry e).nand.freeBlocks = s.nand.freeBlocks := by
  obtain ⟨_, _, _, _, _, h⟩ := s.logEntry_frame e; rw [h]
@[simp] theorem State.logEntry_nand_eraseFirst (s : State) (e : LogEntry) : (s.logEntry e).nand.eraseFirst = s.nand.eraseFirst := by
  obtain ⟨_, _, _, _, _, h⟩ := s.logEntry_frame e; rw [h]
@[simp] theorem State.logEntry_nand_eraseCounts (s : State) (e : LogEntry) : (s.logEntry e).nand.eraseCounts = s.nand.eraseCounts := by
  obtain ⟨_, _, _, _, _, h⟩ := s.logEntry_frame e; rw [h]
@[simp] theorem State.logEntry_nand_targetErases (s : State) (e : LogEntry) : (s.logEntry e).nand.targetErases = s.nand.targetErases := by
  obtain ⟨_, _, _, _, _, h⟩ := s.logEntry_frame e; rw [h]
@[simp] theorem State.log_nand_store (s : State) (st : Status) (b i0 i1 i2 d n : Nat) :
    (s.log st b i0 i1 i2 d n).nand.store = s.nand.store := by
  simp [State.log]
@[simp] theorem State.log_nand_info (s : State) (st : Status) (b i0 i1 i2 d n : Nat) :
    (s.log st b i0 i1 i2 d n).nand.info = s.nand.info := by
  simp [State.log]
@[simp] theorem State.log_nand_handover (s : State) (st : Status) (b i0 i1 i2 d n : Nat) :
    (s.log st b i0 i1 i2 d n).nand.handover = s.nand.handover := by
  simp [State.log]
@[simp] theorem State.log_nand_journal (s : State) (st : Status) (b i0 i1 i2 d n : Nat) :
    (s.log st b i0 i1 i2 d n).nand.journal = s.nand.journal := by
  simp [State.log]
@[simp] theorem State.log_nand_lgBlocks (s : State) (st : Status) (b i0 i1 i2 d n : Nat) :
    (s.log st b i0 i1 i2 d n).nand.lgBlocks = s.nand.lgBlocks := by
  simp [State.log]
@[simp] theorem State.log_nand_lgPages (s : State) (st : Status) (b i0 i1 i2 d n : Nat) :
    (s.log st b i0 i1 i2 d n).nand.lgPages = s.nand.lgPages := by
  simp [State.log]
@[simp] theorem State.log_nand_lgUnits (s : State) (st : Status) (b i0 i1 i2 d n : Nat) :
    (s.log st b i0 i1 i2 d n).nand.lgUnits = s.nand.lgUnits := by
  simp [State.log]
@[simp] theorem State.log_nand_badBlocks (s : State) (st : Status) (b i0 i1 i2 d n : Nat) :
    (s.log st b i0 i1 i2 d n).nand.badBlocks = s.nand.badBlocks := by
  simp [State.log]
@[simp] theorem State.log_nand_bands (s : State) (st : Status) (b i0 i1 i2 d n : Nat) :
    (s.log st b i0 i1 i2 d n).nand.bands = s.nand.bands := by
  simp [State.log]
@[simp] theorem State.log_nand_retired (s : State) (st : Status) (b i0 i1 i2 d n : Nat) :
    (s.log st b i0 i1 i2 d n).nand.retired = s.nand.retired := by
  simp [State.log]
@[simp] theorem State.log_nand_freeBlocks (s : State) (st : Status) (b i0 i1 i2 d n : Nat) :
    (s.log st b i0 i1 i2 d n).nand.freeBlocks = s.nand.freeBlocks := by
  simp [State.log]
@[simp] theorem State.log_nand_eraseFirst (s : State) (st : Status) (b i0 i1 i2 d n : Nat) :
    (s.log st b i0 i1 i2 d n).nand.eraseFirst = s.nand.eraseFirst := by
  simp [State.log]
@[simp] theorem State.log_nand_eraseCounts (s : State) (st : Status) (b i0 i1 i2 d n : Nat) :
    (s.log st b i0 i1 i2 d n).nand.eraseCounts = s.nand.eraseCounts := by
  simp [State.log]
@[simp] theorem State.log_nand_targetErases (s : State) (st : Status) (b i0 i1 i2 d n : Nat) :
    (s.log st b i0 i1 i2 d n).nand.targetErases = s.nand.targetErases := by
  simp [State.log]

/-- A counter's rise changes register words only. -/
theorem State.bumpBy_frame (s : State) (off ovfOff ovfBit n : Nat) :
    ∃ rg, s.bumpBy off ovfOff ovfBit n = { s with regs := rg } := by
  simp only [State.bumpBy, State.setBits, State.setReg]
  split
  · exact ⟨_, rfl⟩
  · exact ⟨_, rfl⟩

@[simp] theorem State.bumpBy_pending (s : State) (a b c n : Nat) : (s.bumpBy a b c n).pending = s.pending := by
  obtain ⟨_, h⟩ := s.bumpBy_frame a b c n; rw [h]
@[simp] theorem State.bumpBy_freeCtr (s : State) (a b c n : Nat) : (s.bumpBy a b c n).freeCtr = s.freeCtr := by
  obtain ⟨_, h⟩ := s.bumpBy_frame a b c n; rw [h]
@[simp] theorem State.bumpBy_out (s : State) (a b c n : Nat) : (s.bumpBy a b c n).out = s.out := by
  obtain ⟨_, h⟩ := s.bumpBy_frame a b c n; rw [h]
@[simp] theorem State.bumpBy_now (s : State) (a b c n : Nat) : (s.bumpBy a b c n).now = s.now := by
  obtain ⟨_, h⟩ := s.bumpBy_frame a b c n; rw [h]
@[simp] theorem State.bumpBy_fuses (s : State) (a b c n : Nat) : (s.bumpBy a b c n).fuses = s.fuses := by
  obtain ⟨_, h⟩ := s.bumpBy_frame a b c n; rw [h]
@[simp] theorem State.bumpBy_fuseArray (s : State) (a b c n : Nat) : (s.bumpBy a b c n).fuseArray = s.fuseArray := by
  obtain ⟨_, h⟩ := s.bumpBy_frame a b c n; rw [h]
@[simp] theorem State.bumpBy_evt (s : State) (a b c n : Nat) : (s.bumpBy a b c n).evt = s.evt := by
  obtain ⟨_, h⟩ := s.bumpBy_frame a b c n; rw [h]
@[simp] theorem State.bumpBy_errlog (s : State) (a b c n : Nat) : (s.bumpBy a b c n).errlog = s.errlog := by
  obtain ⟨_, h⟩ := s.bumpBy_frame a b c n; rw [h]
@[simp] theorem State.bumpBy_backup (s : State) (a b c n : Nat) : (s.bumpBy a b c n).backup = s.backup := by
  obtain ⟨_, h⟩ := s.bumpBy_frame a b c n; rw [h]
@[simp] theorem State.bumpBy_flash (s : State) (a b c n : Nat) : (s.bumpBy a b c n).flash = s.flash := by
  obtain ⟨_, h⟩ := s.bumpBy_frame a b c n; rw [h]
@[simp] theorem State.bumpBy_boot (s : State) (a b c n : Nat) : (s.bumpBy a b c n).boot = s.boot := by
  obtain ⟨_, h⟩ := s.bumpBy_frame a b c n; rw [h]
@[simp] theorem State.bumpBy_trustKept (s : State) (a b c n : Nat) : (s.bumpBy a b c n).trustKept = s.trustKept := by
  obtain ⟨_, h⟩ := s.bumpBy_frame a b c n; rw [h]
@[simp] theorem State.bumpBy_trust (s : State) (a b c n : Nat) : (s.bumpBy a b c n).trust = s.trust := by
  obtain ⟨_, h⟩ := s.bumpBy_frame a b c n; rw [h]
@[simp] theorem State.bumpBy_power (s : State) (a b c n : Nat) : (s.bumpBy a b c n).power = s.power := by
  obtain ⟨_, h⟩ := s.bumpBy_frame a b c n; rw [h]
@[simp] theorem State.bumpBy_rst (s : State) (a b c n : Nat) : (s.bumpBy a b c n).rst = s.rst := by
  obtain ⟨_, h⟩ := s.bumpBy_frame a b c n; rw [h]
@[simp] theorem State.bumpBy_links (s : State) (a b c n : Nat) : (s.bumpBy a b c n).links = s.links := by
  obtain ⟨_, h⟩ := s.bumpBy_frame a b c n; rw [h]
@[simp] theorem State.bumpBy_pins (s : State) (a b c n : Nat) : (s.bumpBy a b c n).pins = s.pins := by
  obtain ⟨_, h⟩ := s.bumpBy_frame a b c n; rw [h]
@[simp] theorem State.bumpBy_sideband (s : State) (a b c n : Nat) : (s.bumpBy a b c n).sideband = s.sideband := by
  obtain ⟨_, h⟩ := s.bumpBy_frame a b c n; rw [h]
@[simp] theorem State.bumpBy_nand (s : State) (a b c n : Nat) : (s.bumpBy a b c n).nand = s.nand := by
  obtain ⟨_, h⟩ := s.bumpBy_frame a b c n; rw [h]
@[simp] theorem State.bumpBy_media (s : State) (a b c n : Nat) : (s.bumpBy a b c n).media = s.media := by
  obtain ⟨_, h⟩ := s.bumpBy_frame a b c n; rw [h]
@[simp] theorem State.bumpBy_streamEng (s : State) (a b c n : Nat) : (s.bumpBy a b c n).streamEng = s.streamEng := by
  obtain ⟨_, h⟩ := s.bumpBy_frame a b c n; rw [h]
@[simp] theorem State.bumpBy_decode (s : State) (a b c n : Nat) : (s.bumpBy a b c n).decode = s.decode := by
  obtain ⟨_, h⟩ := s.bumpBy_frame a b c n; rw [h]
@[simp] theorem State.bumpBy_text (s : State) (a b c n : Nat) : (s.bumpBy a b c n).text = s.text := by
  obtain ⟨_, h⟩ := s.bumpBy_frame a b c n; rw [h]
@[simp] theorem State.bumpBy_mgr (s : State) (a b c n : Nat) : (s.bumpBy a b c n).mgr = s.mgr := by
  obtain ⟨_, h⟩ := s.bumpBy_frame a b c n; rw [h]
@[simp] theorem State.bumpBy_field (s : State) (a b c n : Nat) : (s.bumpBy a b c n).field = s.field := by
  obtain ⟨_, h⟩ := s.bumpBy_frame a b c n; rw [h]
@[simp] theorem State.bumpBy_sync (s : State) (a b c n : Nat) : (s.bumpBy a b c n).sync = s.sync := by
  obtain ⟨_, h⟩ := s.bumpBy_frame a b c n; rw [h]
@[simp] theorem State.bumpBy_obs (s : State) (a b c n : Nat) : (s.bumpBy a b c n).obs = s.obs := by
  obtain ⟨_, h⟩ := s.bumpBy_frame a b c n; rw [h]
@[simp] theorem State.bumpBy_cmp (s : State) (a b c n : Nat) : (s.bumpBy a b c n).cmp = s.cmp := by
  obtain ⟨_, h⟩ := s.bumpBy_frame a b c n; rw [h]
@[simp] theorem State.bumpBy_yqi (s : State) (a b c n : Nat) : (s.bumpBy a b c n).yqi = s.yqi := by
  obtain ⟨_, h⟩ := s.bumpBy_frame a b c n; rw [h]
@[simp] theorem State.bumpBy_gnoz (s : State) (a b c n : Nat) : (s.bumpBy a b c n).gnoz = s.gnoz := by
  obtain ⟨_, h⟩ := s.bumpBy_frame a b c n; rw [h]
@[simp] theorem State.bumpBy_pools (s : State) (a b c n : Nat) : (s.bumpBy a b c n).pools = s.pools := by
  obtain ⟨_, h⟩ := s.bumpBy_frame a b c n; rw [h]
@[simp] theorem State.bumpBy_egress (s : State) (a b c n : Nat) : (s.bumpBy a b c n).egress = s.egress := by
  obtain ⟨_, h⟩ := s.bumpBy_frame a b c n; rw [h]
@[simp] theorem State.bumpBy_shadow (s : State) (a b c n : Nat) : (s.bumpBy a b c n).shadow = s.shadow := by
  obtain ⟨_, h⟩ := s.bumpBy_frame a b c n; rw [h]
@[simp] theorem State.bumpBy_group (s : State) (a b c n : Nat) : (s.bumpBy a b c n).group = s.group := by
  obtain ⟨_, h⟩ := s.bumpBy_frame a b c n; rw [h]
@[simp] theorem State.bumpBy_groupRecord (s : State) (a b c n : Nat) : (s.bumpBy a b c n).groupRecord = s.groupRecord := by
  obtain ⟨_, h⟩ := s.bumpBy_frame a b c n; rw [h]
@[simp] theorem State.bumpBy_bulkMem (s : State) (a b c n : Nat) : (s.bumpBy a b c n).bulkMem = s.bulkMem := by
  obtain ⟨_, h⟩ := s.bumpBy_frame a b c n; rw [h]
@[simp] theorem State.bumpBy_hostMem (s : State) (a b c n : Nat) : (s.bumpBy a b c n).hostMem = s.hostMem := by
  obtain ⟨_, h⟩ := s.bumpBy_frame a b c n; rw [h]

@[simp] theorem State.bump_pending (s : State) (a b c : Nat) : (s.bump a b c).pending = s.pending := by
  simp [State.bump]
@[simp] theorem State.bump_freeCtr (s : State) (a b c : Nat) : (s.bump a b c).freeCtr = s.freeCtr := by
  simp [State.bump]
@[simp] theorem State.bump_out (s : State) (a b c : Nat) : (s.bump a b c).out = s.out := by
  simp [State.bump]
@[simp] theorem State.bump_now (s : State) (a b c : Nat) : (s.bump a b c).now = s.now := by
  simp [State.bump]
@[simp] theorem State.bump_fuses (s : State) (a b c : Nat) : (s.bump a b c).fuses = s.fuses := by
  simp [State.bump]
@[simp] theorem State.bump_fuseArray (s : State) (a b c : Nat) : (s.bump a b c).fuseArray = s.fuseArray := by
  simp [State.bump]
@[simp] theorem State.bump_evt (s : State) (a b c : Nat) : (s.bump a b c).evt = s.evt := by
  simp [State.bump]
@[simp] theorem State.bump_errlog (s : State) (a b c : Nat) : (s.bump a b c).errlog = s.errlog := by
  simp [State.bump]
@[simp] theorem State.bump_backup (s : State) (a b c : Nat) : (s.bump a b c).backup = s.backup := by
  simp [State.bump]
@[simp] theorem State.bump_flash (s : State) (a b c : Nat) : (s.bump a b c).flash = s.flash := by
  simp [State.bump]
@[simp] theorem State.bump_boot (s : State) (a b c : Nat) : (s.bump a b c).boot = s.boot := by
  simp [State.bump]
@[simp] theorem State.bump_trustKept (s : State) (a b c : Nat) : (s.bump a b c).trustKept = s.trustKept := by
  simp [State.bump]
@[simp] theorem State.bump_trust (s : State) (a b c : Nat) : (s.bump a b c).trust = s.trust := by
  simp [State.bump]
@[simp] theorem State.bump_power (s : State) (a b c : Nat) : (s.bump a b c).power = s.power := by
  simp [State.bump]
@[simp] theorem State.bump_rst (s : State) (a b c : Nat) : (s.bump a b c).rst = s.rst := by
  simp [State.bump]
@[simp] theorem State.bump_links (s : State) (a b c : Nat) : (s.bump a b c).links = s.links := by
  simp [State.bump]
@[simp] theorem State.bump_pins (s : State) (a b c : Nat) : (s.bump a b c).pins = s.pins := by
  simp [State.bump]
@[simp] theorem State.bump_sideband (s : State) (a b c : Nat) : (s.bump a b c).sideband = s.sideband := by
  simp [State.bump]
@[simp] theorem State.bump_nand (s : State) (a b c : Nat) : (s.bump a b c).nand = s.nand := by
  simp [State.bump]
@[simp] theorem State.bump_media (s : State) (a b c : Nat) : (s.bump a b c).media = s.media := by
  simp [State.bump]
@[simp] theorem State.bump_streamEng (s : State) (a b c : Nat) : (s.bump a b c).streamEng = s.streamEng := by
  simp [State.bump]
@[simp] theorem State.bump_decode (s : State) (a b c : Nat) : (s.bump a b c).decode = s.decode := by
  simp [State.bump]
@[simp] theorem State.bump_text (s : State) (a b c : Nat) : (s.bump a b c).text = s.text := by
  simp [State.bump]
@[simp] theorem State.bump_mgr (s : State) (a b c : Nat) : (s.bump a b c).mgr = s.mgr := by
  simp [State.bump]
@[simp] theorem State.bump_field (s : State) (a b c : Nat) : (s.bump a b c).field = s.field := by
  simp [State.bump]
@[simp] theorem State.bump_sync (s : State) (a b c : Nat) : (s.bump a b c).sync = s.sync := by
  simp [State.bump]
@[simp] theorem State.bump_obs (s : State) (a b c : Nat) : (s.bump a b c).obs = s.obs := by
  simp [State.bump]
@[simp] theorem State.bump_cmp (s : State) (a b c : Nat) : (s.bump a b c).cmp = s.cmp := by
  simp [State.bump]
@[simp] theorem State.bump_yqi (s : State) (a b c : Nat) : (s.bump a b c).yqi = s.yqi := by
  simp [State.bump]
@[simp] theorem State.bump_gnoz (s : State) (a b c : Nat) : (s.bump a b c).gnoz = s.gnoz := by
  simp [State.bump]
@[simp] theorem State.bump_pools (s : State) (a b c : Nat) : (s.bump a b c).pools = s.pools := by
  simp [State.bump]
@[simp] theorem State.bump_egress (s : State) (a b c : Nat) : (s.bump a b c).egress = s.egress := by
  simp [State.bump]
@[simp] theorem State.bump_shadow (s : State) (a b c : Nat) : (s.bump a b c).shadow = s.shadow := by
  simp [State.bump]
@[simp] theorem State.bump_group (s : State) (a b c : Nat) : (s.bump a b c).group = s.group := by
  simp [State.bump]
@[simp] theorem State.bump_groupRecord (s : State) (a b c : Nat) : (s.bump a b c).groupRecord = s.groupRecord := by
  simp [State.bump]
@[simp] theorem State.bump_bulkMem (s : State) (a b c : Nat) : (s.bump a b c).bulkMem = s.bulkMem := by
  simp [State.bump]
@[simp] theorem State.bump_hostMem (s : State) (a b c : Nat) : (s.bump a b c).hostMem = s.hostMem := by
  simp [State.bump]

@[simp] theorem State.vocabLookups_pending (s : State) : (s.vocabLookups).pending = s.pending := by
  simp [State.vocabLookups]
@[simp] theorem State.vocabLookups_out (s : State) : (s.vocabLookups).out = s.out := by
  simp [State.vocabLookups]
@[simp] theorem State.vocabLookups_now (s : State) : (s.vocabLookups).now = s.now := by
  simp [State.vocabLookups]
@[simp] theorem State.vocabLookups_fuses (s : State) : (s.vocabLookups).fuses = s.fuses := by
  simp [State.vocabLookups]
@[simp] theorem State.vocabLookups_fuseArray (s : State) : (s.vocabLookups).fuseArray = s.fuseArray := by
  simp [State.vocabLookups]
@[simp] theorem State.vocabLookups_evt (s : State) : (s.vocabLookups).evt = s.evt := by
  simp [State.vocabLookups]
@[simp] theorem State.vocabLookups_errlog (s : State) : (s.vocabLookups).errlog = s.errlog := by
  simp [State.vocabLookups]
@[simp] theorem State.vocabLookups_backup (s : State) : (s.vocabLookups).backup = s.backup := by
  simp [State.vocabLookups]
@[simp] theorem State.vocabLookups_flash (s : State) : (s.vocabLookups).flash = s.flash := by
  simp [State.vocabLookups]
@[simp] theorem State.vocabLookups_boot (s : State) : (s.vocabLookups).boot = s.boot := by
  simp [State.vocabLookups]
@[simp] theorem State.vocabLookups_trustKept (s : State) : (s.vocabLookups).trustKept = s.trustKept := by
  simp [State.vocabLookups]
@[simp] theorem State.vocabLookups_trust (s : State) : (s.vocabLookups).trust = s.trust := by
  simp [State.vocabLookups]
@[simp] theorem State.vocabLookups_power (s : State) : (s.vocabLookups).power = s.power := by
  simp [State.vocabLookups]
@[simp] theorem State.vocabLookups_rst (s : State) : (s.vocabLookups).rst = s.rst := by
  simp [State.vocabLookups]
@[simp] theorem State.vocabLookups_links (s : State) : (s.vocabLookups).links = s.links := by
  simp [State.vocabLookups]
@[simp] theorem State.vocabLookups_pins (s : State) : (s.vocabLookups).pins = s.pins := by
  simp [State.vocabLookups]
@[simp] theorem State.vocabLookups_sideband (s : State) : (s.vocabLookups).sideband = s.sideband := by
  simp [State.vocabLookups]
@[simp] theorem State.vocabLookups_nand (s : State) : (s.vocabLookups).nand = s.nand := by
  simp [State.vocabLookups]
@[simp] theorem State.vocabLookups_media (s : State) : (s.vocabLookups).media = s.media := by
  simp [State.vocabLookups]
@[simp] theorem State.vocabLookups_streamEng (s : State) : (s.vocabLookups).streamEng = s.streamEng := by
  simp [State.vocabLookups]
@[simp] theorem State.vocabLookups_decode (s : State) : (s.vocabLookups).decode = s.decode := by
  simp [State.vocabLookups]
@[simp] theorem State.vocabLookups_text (s : State) : (s.vocabLookups).text = s.text := by
  simp [State.vocabLookups]
@[simp] theorem State.vocabLookups_mgr (s : State) : (s.vocabLookups).mgr = s.mgr := by
  simp [State.vocabLookups]
@[simp] theorem State.vocabLookups_field (s : State) : (s.vocabLookups).field = s.field := by
  simp [State.vocabLookups]
@[simp] theorem State.vocabLookups_sync (s : State) : (s.vocabLookups).sync = s.sync := by
  simp [State.vocabLookups]
@[simp] theorem State.vocabLookups_obs (s : State) : (s.vocabLookups).obs = s.obs := by
  simp [State.vocabLookups]
@[simp] theorem State.vocabLookups_cmp (s : State) : (s.vocabLookups).cmp = s.cmp := by
  simp [State.vocabLookups]
@[simp] theorem State.vocabLookups_yqi (s : State) : (s.vocabLookups).yqi = s.yqi := by
  simp [State.vocabLookups]
@[simp] theorem State.vocabLookups_gnoz (s : State) : (s.vocabLookups).gnoz = s.gnoz := by
  simp [State.vocabLookups]
@[simp] theorem State.vocabLookups_pools (s : State) : (s.vocabLookups).pools = s.pools := by
  simp [State.vocabLookups]
@[simp] theorem State.vocabLookups_egress (s : State) : (s.vocabLookups).egress = s.egress := by
  simp [State.vocabLookups]
@[simp] theorem State.vocabLookups_shadow (s : State) : (s.vocabLookups).shadow = s.shadow := by
  simp [State.vocabLookups]
@[simp] theorem State.vocabLookups_group (s : State) : (s.vocabLookups).group = s.group := by
  simp [State.vocabLookups]
@[simp] theorem State.vocabLookups_groupRecord (s : State) : (s.vocabLookups).groupRecord = s.groupRecord := by
  simp [State.vocabLookups]
@[simp] theorem State.vocabLookups_bulkMem (s : State) : (s.vocabLookups).bulkMem = s.bulkMem := by
  simp [State.vocabLookups]
@[simp] theorem State.vocabLookups_hostMem (s : State) : (s.vocabLookups).hostMem = s.hostMem := by
  simp [State.vocabLookups]

@[simp] theorem State.quoinDenied_pending (s : State) (off bit : Nat) : (s.quoinDenied off bit).pending = s.pending := by
  simp only [State.quoinDenied]; split <;> simp
@[simp] theorem State.quoinDenied_freeCtr (s : State) (off bit : Nat) : (s.quoinDenied off bit).freeCtr = s.freeCtr := by
  simp only [State.quoinDenied]; split <;> simp
@[simp] theorem State.quoinDenied_out (s : State) (off bit : Nat) : (s.quoinDenied off bit).out = s.out := by
  simp only [State.quoinDenied]; split <;> simp
@[simp] theorem State.quoinDenied_now (s : State) (off bit : Nat) : (s.quoinDenied off bit).now = s.now := by
  simp only [State.quoinDenied]; split <;> simp
@[simp] theorem State.quoinDenied_fuses (s : State) (off bit : Nat) : (s.quoinDenied off bit).fuses = s.fuses := by
  simp only [State.quoinDenied]; split <;> simp
@[simp] theorem State.quoinDenied_fuseArray (s : State) (off bit : Nat) : (s.quoinDenied off bit).fuseArray = s.fuseArray := by
  simp only [State.quoinDenied]; split <;> simp
@[simp] theorem State.quoinDenied_backup (s : State) (off bit : Nat) : (s.quoinDenied off bit).backup = s.backup := by
  simp only [State.quoinDenied]; split <;> simp
@[simp] theorem State.quoinDenied_flash (s : State) (off bit : Nat) : (s.quoinDenied off bit).flash = s.flash := by
  simp only [State.quoinDenied]; split <;> simp
@[simp] theorem State.quoinDenied_boot (s : State) (off bit : Nat) : (s.quoinDenied off bit).boot = s.boot := by
  simp only [State.quoinDenied]; split <;> simp
@[simp] theorem State.quoinDenied_trustKept (s : State) (off bit : Nat) : (s.quoinDenied off bit).trustKept = s.trustKept := by
  simp only [State.quoinDenied]; split <;> simp
@[simp] theorem State.quoinDenied_power (s : State) (off bit : Nat) : (s.quoinDenied off bit).power = s.power := by
  simp only [State.quoinDenied]; split <;> simp
@[simp] theorem State.quoinDenied_rst (s : State) (off bit : Nat) : (s.quoinDenied off bit).rst = s.rst := by
  simp only [State.quoinDenied]; split <;> simp
@[simp] theorem State.quoinDenied_links (s : State) (off bit : Nat) : (s.quoinDenied off bit).links = s.links := by
  simp only [State.quoinDenied]; split <;> simp
@[simp] theorem State.quoinDenied_pins (s : State) (off bit : Nat) : (s.quoinDenied off bit).pins = s.pins := by
  simp only [State.quoinDenied]; split <;> simp
@[simp] theorem State.quoinDenied_sideband (s : State) (off bit : Nat) : (s.quoinDenied off bit).sideband = s.sideband := by
  simp only [State.quoinDenied]; split <;> simp
@[simp] theorem State.quoinDenied_media (s : State) (off bit : Nat) : (s.quoinDenied off bit).media = s.media := by
  simp only [State.quoinDenied]; split <;> simp
@[simp] theorem State.quoinDenied_streamEng (s : State) (off bit : Nat) : (s.quoinDenied off bit).streamEng = s.streamEng := by
  simp only [State.quoinDenied]; split <;> simp
@[simp] theorem State.quoinDenied_decode (s : State) (off bit : Nat) : (s.quoinDenied off bit).decode = s.decode := by
  simp only [State.quoinDenied]; split <;> simp
@[simp] theorem State.quoinDenied_text (s : State) (off bit : Nat) : (s.quoinDenied off bit).text = s.text := by
  simp only [State.quoinDenied]; split <;> simp
@[simp] theorem State.quoinDenied_mgr (s : State) (off bit : Nat) : (s.quoinDenied off bit).mgr = s.mgr := by
  simp only [State.quoinDenied]; split <;> simp
@[simp] theorem State.quoinDenied_field (s : State) (off bit : Nat) : (s.quoinDenied off bit).field = s.field := by
  simp only [State.quoinDenied]; split <;> simp
@[simp] theorem State.quoinDenied_sync (s : State) (off bit : Nat) : (s.quoinDenied off bit).sync = s.sync := by
  simp only [State.quoinDenied]; split <;> simp
@[simp] theorem State.quoinDenied_obs (s : State) (off bit : Nat) : (s.quoinDenied off bit).obs = s.obs := by
  simp only [State.quoinDenied]; split <;> simp
@[simp] theorem State.quoinDenied_cmp (s : State) (off bit : Nat) : (s.quoinDenied off bit).cmp = s.cmp := by
  simp only [State.quoinDenied]; split <;> simp
@[simp] theorem State.quoinDenied_yqi (s : State) (off bit : Nat) : (s.quoinDenied off bit).yqi = s.yqi := by
  simp only [State.quoinDenied]; split <;> simp
@[simp] theorem State.quoinDenied_gnoz (s : State) (off bit : Nat) : (s.quoinDenied off bit).gnoz = s.gnoz := by
  simp only [State.quoinDenied]; split <;> simp
@[simp] theorem State.quoinDenied_pools (s : State) (off bit : Nat) : (s.quoinDenied off bit).pools = s.pools := by
  simp only [State.quoinDenied]; split <;> simp
@[simp] theorem State.quoinDenied_egress (s : State) (off bit : Nat) : (s.quoinDenied off bit).egress = s.egress := by
  simp only [State.quoinDenied]; split <;> simp
@[simp] theorem State.quoinDenied_shadow (s : State) (off bit : Nat) : (s.quoinDenied off bit).shadow = s.shadow := by
  simp only [State.quoinDenied]; split <;> simp
@[simp] theorem State.quoinDenied_group (s : State) (off bit : Nat) : (s.quoinDenied off bit).group = s.group := by
  simp only [State.quoinDenied]; split <;> simp
@[simp] theorem State.quoinDenied_groupRecord (s : State) (off bit : Nat) : (s.quoinDenied off bit).groupRecord = s.groupRecord := by
  simp only [State.quoinDenied]; split <;> simp
@[simp] theorem State.quoinDenied_bulkMem (s : State) (off bit : Nat) : (s.quoinDenied off bit).bulkMem = s.bulkMem := by
  simp only [State.quoinDenied]; split <;> simp
@[simp] theorem State.quoinDenied_hostMem (s : State) (off bit : Nat) : (s.quoinDenied off bit).hostMem = s.hostMem := by
  simp only [State.quoinDenied]; split <;> simp

@[simp] theorem State.plainWrite_pending (s : State) (off : Nat) (v : Word) : (s.plainWrite off v).pending = s.pending := by
  simp only [State.plainWrite]; split
  · rfl
  · split <;> simp
@[simp] theorem State.plainWrite_freeCtr (s : State) (off : Nat) (v : Word) : (s.plainWrite off v).freeCtr = s.freeCtr := by
  simp only [State.plainWrite]; split
  · rfl
  · split <;> simp
@[simp] theorem State.plainWrite_out (s : State) (off : Nat) (v : Word) : (s.plainWrite off v).out = s.out := by
  simp only [State.plainWrite]; split
  · rfl
  · split <;> simp
@[simp] theorem State.plainWrite_now (s : State) (off : Nat) (v : Word) : (s.plainWrite off v).now = s.now := by
  simp only [State.plainWrite]; split
  · rfl
  · split <;> simp
@[simp] theorem State.plainWrite_fuses (s : State) (off : Nat) (v : Word) : (s.plainWrite off v).fuses = s.fuses := by
  simp only [State.plainWrite]; split
  · rfl
  · split <;> simp
@[simp] theorem State.plainWrite_fuseArray (s : State) (off : Nat) (v : Word) : (s.plainWrite off v).fuseArray = s.fuseArray := by
  simp only [State.plainWrite]; split
  · rfl
  · split <;> simp
@[simp] theorem State.plainWrite_backup (s : State) (off : Nat) (v : Word) : (s.plainWrite off v).backup = s.backup := by
  simp only [State.plainWrite]; split
  · rfl
  · split <;> simp
@[simp] theorem State.plainWrite_flash (s : State) (off : Nat) (v : Word) : (s.plainWrite off v).flash = s.flash := by
  simp only [State.plainWrite]; split
  · rfl
  · split <;> simp
@[simp] theorem State.plainWrite_boot (s : State) (off : Nat) (v : Word) : (s.plainWrite off v).boot = s.boot := by
  simp only [State.plainWrite]; split
  · rfl
  · split <;> simp
@[simp] theorem State.plainWrite_trustKept (s : State) (off : Nat) (v : Word) : (s.plainWrite off v).trustKept = s.trustKept := by
  simp only [State.plainWrite]; split
  · rfl
  · split <;> simp
@[simp] theorem State.plainWrite_power (s : State) (off : Nat) (v : Word) : (s.plainWrite off v).power = s.power := by
  simp only [State.plainWrite]; split
  · rfl
  · split <;> simp
@[simp] theorem State.plainWrite_rst (s : State) (off : Nat) (v : Word) : (s.plainWrite off v).rst = s.rst := by
  simp only [State.plainWrite]; split
  · rfl
  · split <;> simp
@[simp] theorem State.plainWrite_links (s : State) (off : Nat) (v : Word) : (s.plainWrite off v).links = s.links := by
  simp only [State.plainWrite]; split
  · rfl
  · split <;> simp
@[simp] theorem State.plainWrite_pins (s : State) (off : Nat) (v : Word) : (s.plainWrite off v).pins = s.pins := by
  simp only [State.plainWrite]; split
  · rfl
  · split <;> simp
@[simp] theorem State.plainWrite_sideband (s : State) (off : Nat) (v : Word) : (s.plainWrite off v).sideband = s.sideband := by
  simp only [State.plainWrite]; split
  · rfl
  · split <;> simp
@[simp] theorem State.plainWrite_media (s : State) (off : Nat) (v : Word) : (s.plainWrite off v).media = s.media := by
  simp only [State.plainWrite]; split
  · rfl
  · split <;> simp
@[simp] theorem State.plainWrite_streamEng (s : State) (off : Nat) (v : Word) : (s.plainWrite off v).streamEng = s.streamEng := by
  simp only [State.plainWrite]; split
  · rfl
  · split <;> simp
@[simp] theorem State.plainWrite_decode (s : State) (off : Nat) (v : Word) : (s.plainWrite off v).decode = s.decode := by
  simp only [State.plainWrite]; split
  · rfl
  · split <;> simp
@[simp] theorem State.plainWrite_text (s : State) (off : Nat) (v : Word) : (s.plainWrite off v).text = s.text := by
  simp only [State.plainWrite]; split
  · rfl
  · split <;> simp
@[simp] theorem State.plainWrite_mgr (s : State) (off : Nat) (v : Word) : (s.plainWrite off v).mgr = s.mgr := by
  simp only [State.plainWrite]; split
  · rfl
  · split <;> simp
@[simp] theorem State.plainWrite_field (s : State) (off : Nat) (v : Word) : (s.plainWrite off v).field = s.field := by
  simp only [State.plainWrite]; split
  · rfl
  · split <;> simp
@[simp] theorem State.plainWrite_sync (s : State) (off : Nat) (v : Word) : (s.plainWrite off v).sync = s.sync := by
  simp only [State.plainWrite]; split
  · rfl
  · split <;> simp
@[simp] theorem State.plainWrite_obs (s : State) (off : Nat) (v : Word) : (s.plainWrite off v).obs = s.obs := by
  simp only [State.plainWrite]; split
  · rfl
  · split <;> simp
@[simp] theorem State.plainWrite_cmp (s : State) (off : Nat) (v : Word) : (s.plainWrite off v).cmp = s.cmp := by
  simp only [State.plainWrite]; split
  · rfl
  · split <;> simp
@[simp] theorem State.plainWrite_yqi (s : State) (off : Nat) (v : Word) : (s.plainWrite off v).yqi = s.yqi := by
  simp only [State.plainWrite]; split
  · rfl
  · split <;> simp
@[simp] theorem State.plainWrite_gnoz (s : State) (off : Nat) (v : Word) : (s.plainWrite off v).gnoz = s.gnoz := by
  simp only [State.plainWrite]; split
  · rfl
  · split <;> simp
@[simp] theorem State.plainWrite_pools (s : State) (off : Nat) (v : Word) : (s.plainWrite off v).pools = s.pools := by
  simp only [State.plainWrite]; split
  · rfl
  · split <;> simp
@[simp] theorem State.plainWrite_egress (s : State) (off : Nat) (v : Word) : (s.plainWrite off v).egress = s.egress := by
  simp only [State.plainWrite]; split
  · rfl
  · split <;> simp
@[simp] theorem State.plainWrite_shadow (s : State) (off : Nat) (v : Word) : (s.plainWrite off v).shadow = s.shadow := by
  simp only [State.plainWrite]; split
  · rfl
  · split <;> simp
@[simp] theorem State.plainWrite_group (s : State) (off : Nat) (v : Word) : (s.plainWrite off v).group = s.group := by
  simp only [State.plainWrite]; split
  · rfl
  · split <;> simp
@[simp] theorem State.plainWrite_groupRecord (s : State) (off : Nat) (v : Word) : (s.plainWrite off v).groupRecord = s.groupRecord := by
  simp only [State.plainWrite]; split
  · rfl
  · split <;> simp
@[simp] theorem State.plainWrite_bulkMem (s : State) (off : Nat) (v : Word) : (s.plainWrite off v).bulkMem = s.bulkMem := by
  simp only [State.plainWrite]; split
  · rfl
  · split <;> simp
@[simp] theorem State.plainWrite_hostMem (s : State) (off : Nat) (v : Word) : (s.plainWrite off v).hostMem = s.hostMem := by
  simp only [State.plainWrite]; split
  · rfl
  · split <;> simp

@[simp] theorem State.requestReset_pending (s : State) (n : Nat) : (s.requestReset n).pending = s.pending := by
  simp [State.requestReset]
@[simp] theorem State.requestReset_freeCtr (s : State) (n : Nat) : (s.requestReset n).freeCtr = s.freeCtr := by
  simp [State.requestReset]
@[simp] theorem State.requestReset_now (s : State) (n : Nat) : (s.requestReset n).now = s.now := by
  simp [State.requestReset]
@[simp] theorem State.requestReset_regs (s : State) (n : Nat) : (s.requestReset n).regs = s.regs := by
  simp [State.requestReset]
@[simp] theorem State.requestReset_fuses (s : State) (n : Nat) : (s.requestReset n).fuses = s.fuses := by
  simp [State.requestReset]
@[simp] theorem State.requestReset_fuseArray (s : State) (n : Nat) : (s.requestReset n).fuseArray = s.fuseArray := by
  simp [State.requestReset]
@[simp] theorem State.requestReset_evt (s : State) (n : Nat) : (s.requestReset n).evt = s.evt := by
  simp [State.requestReset]
@[simp] theorem State.requestReset_errlog (s : State) (n : Nat) : (s.requestReset n).errlog = s.errlog := by
  simp [State.requestReset]
@[simp] theorem State.requestReset_flash (s : State) (n : Nat) : (s.requestReset n).flash = s.flash := by
  simp [State.requestReset]
@[simp] theorem State.requestReset_boot (s : State) (n : Nat) : (s.requestReset n).boot = s.boot := by
  simp [State.requestReset]
@[simp] theorem State.requestReset_trustKept (s : State) (n : Nat) : (s.requestReset n).trustKept = s.trustKept := by
  simp [State.requestReset]
@[simp] theorem State.requestReset_trust (s : State) (n : Nat) : (s.requestReset n).trust = s.trust := by
  simp [State.requestReset]
@[simp] theorem State.requestReset_power (s : State) (n : Nat) : (s.requestReset n).power = s.power := by
  simp [State.requestReset]
@[simp] theorem State.requestReset_rst (s : State) (n : Nat) : (s.requestReset n).rst = s.rst := by
  simp [State.requestReset]
@[simp] theorem State.requestReset_links (s : State) (n : Nat) : (s.requestReset n).links = s.links := by
  simp [State.requestReset]
@[simp] theorem State.requestReset_pins (s : State) (n : Nat) : (s.requestReset n).pins = s.pins := by
  simp [State.requestReset]
@[simp] theorem State.requestReset_sideband (s : State) (n : Nat) : (s.requestReset n).sideband = s.sideband := by
  simp [State.requestReset]
@[simp] theorem State.requestReset_nand (s : State) (n : Nat) : (s.requestReset n).nand = s.nand := by
  simp [State.requestReset]
@[simp] theorem State.requestReset_media (s : State) (n : Nat) : (s.requestReset n).media = s.media := by
  simp [State.requestReset]
@[simp] theorem State.requestReset_streamEng (s : State) (n : Nat) : (s.requestReset n).streamEng = s.streamEng := by
  simp [State.requestReset]
@[simp] theorem State.requestReset_decode (s : State) (n : Nat) : (s.requestReset n).decode = s.decode := by
  simp [State.requestReset]
@[simp] theorem State.requestReset_text (s : State) (n : Nat) : (s.requestReset n).text = s.text := by
  simp [State.requestReset]
@[simp] theorem State.requestReset_mgr (s : State) (n : Nat) : (s.requestReset n).mgr = s.mgr := by
  simp [State.requestReset]
@[simp] theorem State.requestReset_field (s : State) (n : Nat) : (s.requestReset n).field = s.field := by
  simp [State.requestReset]
@[simp] theorem State.requestReset_sync (s : State) (n : Nat) : (s.requestReset n).sync = s.sync := by
  simp [State.requestReset]
@[simp] theorem State.requestReset_obs (s : State) (n : Nat) : (s.requestReset n).obs = s.obs := by
  simp [State.requestReset]
@[simp] theorem State.requestReset_cmp (s : State) (n : Nat) : (s.requestReset n).cmp = s.cmp := by
  simp [State.requestReset]
@[simp] theorem State.requestReset_yqi (s : State) (n : Nat) : (s.requestReset n).yqi = s.yqi := by
  simp [State.requestReset]
@[simp] theorem State.requestReset_gnoz (s : State) (n : Nat) : (s.requestReset n).gnoz = s.gnoz := by
  simp [State.requestReset]
@[simp] theorem State.requestReset_pools (s : State) (n : Nat) : (s.requestReset n).pools = s.pools := by
  simp [State.requestReset]
@[simp] theorem State.requestReset_egress (s : State) (n : Nat) : (s.requestReset n).egress = s.egress := by
  simp [State.requestReset]
@[simp] theorem State.requestReset_shadow (s : State) (n : Nat) : (s.requestReset n).shadow = s.shadow := by
  simp [State.requestReset]
@[simp] theorem State.requestReset_group (s : State) (n : Nat) : (s.requestReset n).group = s.group := by
  simp [State.requestReset]
@[simp] theorem State.requestReset_groupRecord (s : State) (n : Nat) : (s.requestReset n).groupRecord = s.groupRecord := by
  simp [State.requestReset]
@[simp] theorem State.requestReset_bulkMem (s : State) (n : Nat) : (s.requestReset n).bulkMem = s.bulkMem := by
  simp [State.requestReset]
@[simp] theorem State.requestReset_hostMem (s : State) (n : Nat) : (s.requestReset n).hostMem = s.hostMem := by
  simp [State.requestReset]

/-- A result on this path goes out and changes nothing else. -/
@[simp] theorem State.reply_register (s : State)  (st : Status) (d : Nat) (r : List Nat) :
    s.reply .register st d r = s.emit (.reply .register st d r []) := rfl
/-- A result on this path goes out and changes nothing else. -/
@[simp] theorem State.reply_image (s : State)  (st : Status) (d : Nat) (r : List Nat) :
    s.reply .image st d r = s.emit (.reply .image st d r []) := rfl
/-- A result on this path goes out and changes nothing else. -/
@[simp] theorem State.reply_mailbox (s : State) (m : Nat) (st : Status) (d : Nat) (r : List Nat) :
    s.reply (.mailbox m) st d r = s.emit (.reply (.mailbox m) st d r []) := rfl
/-- A result on this path goes out and changes nothing else. -/
@[simp] theorem State.reply_run (s : State) (k : Nat) (st : Status) (d : Nat) (r : List Nat) :
    s.reply (.run k) st d r = s.emit (.reply (.run k) st d r []) := rfl
/-- A result on this path goes out and changes nothing else. -/
@[simp] theorem State.reply_stream (s : State) (k : Nat) (st : Status) (d : Nat) (r : List Nat) :
    s.reply (.stream k) st d r = s.emit (.reply (.stream k) st d r []) := rfl
/-- The result of a YQI command goes out, the command waits for its CQ entry, and a write gives back its range lock. -/
theorem State.reply_yqi (s : State) (fn qid cid : Nat) (st : Status) (d : Nat) (r : List Nat) :
    s.reply (.yqi fn qid cid) st d r =
      { (s.emit (.reply (.yqi fn qid cid) st d r [])) with
        yqi := { s.yqi with
          done := s.yqi.done ++ [{ fn := fn, qid := qid, cid := cid, status := st, detail := d, result := r, data := [] }],
          locks := s.yqi.locks.filter (fun l => !(l.path == .yqi fn qid cid && l.excl)) } } := rfl

/-- From step 9 on, a record enters the log as its newest entry. -/
theorem State.log_newest (s : State) (st : Status) (b i0 i1 i2 d n : Nat) (h : s.boot.phase.beforeRebuild = false) :
    ∃ e, (s.log st b i0 i1 i2 d n).errlog.entries.getLast? = some e ∧ e.status = st ∧ e.block = b / 2 ^ 16 ∧
      e.info0 = i0 ∧ e.info1 = i1 ∧ e.info2 = i2 ∧ e.detail = d ∧ e.nsid = n := by
  have push_last : ∀ (l : ErrorLog) (e : LogEntry), (l.push e).entries.getLast? = some e := by
    intro l e
    unfold ErrorLog.push
    simp only
    split
    · rename_i hl
      have hne : l.entries ≠ [] := by intro he; simp [he] at hl
      cases hl' : l.entries with
      | nil => exact absurd hl' hne
      | cons a rest => simp
    · simp
  refine ⟨{ seq := s.issueSeq.1, status := st,
            block := b / 2 ^ 16, info0 := i0, info1 := i1, info2 := i2, detail := d, nsid := n }, ?_, rfl, rfl, rfl, rfl,
          rfl, rfl, rfl⟩
  simp only [State.log, State.logEntry, h, Bool.false_eq_true, if_false]
  split <;> exact push_last _ _

end Sys2Proof.Machine
end

