-- ==== Sys2Proof/Laws/Media.lean ====
section
/-! SUPPORT. One lemma per shared operation of the media: what it changes, and that it leaves the rest. -/

namespace Sys2Proof.Machine

/-- Programming the tail empties it and changes the pages being programmed and the journal's counts. -/
theorem State.pushTail_frame (s : State) : ∃ tl pr nj jb cb, s.pushTail =
    { s with media := { s.media with
        tail := tl, programming := pr, nextJSeq := nj, journalBytes := jb, ckptBytes := cb } } := by
  unfold State.pushTail
  dsimp only
  split
  · exact ⟨_, _, _, _, _, rfl⟩
  · exact ⟨_, _, _, _, _, rfl⟩

/-- A tail that has been programmed is empty. -/
theorem State.pushTail_tail (s : State) : s.pushTail.media.tail = [] := by
  unfold State.pushTail
  dsimp only
  split
  · exact List.isEmpty_iff.mp ‹_›
  · rfl

/-- The first entry of a tail gives it its number and time. -/
theorem State.openTail_frame (s : State) : ∃ te ts ev a0 a1, s.openTail =
    { s with evt := ev, nand := { s.nand with anchor0 := a0, anchor1 := a1 },
             media := { s.media with tailEvt := te, tailSince := ts } } := by
  unfold State.openTail
  split
  · obtain ⟨ev, a0, a1, h⟩ := s.issueSeq_frame
    simp only [h]
    exact ⟨_, _, ev, a0, a1, rfl⟩
  · exact ⟨_, _, _, s.nand.anchor0, s.nand.anchor1, rfl⟩

/-- A journaled entry takes effect on the image, is counted, and joins the tail, which may be programmed. -/
theorem State.journal_frame (s : State) (e : JEntry) : ∃ tl te ts ch pr nj jb cb ev a0 a1, s.journal e =
    { s with evt := ev, nand := { s.nand with anchor0 := a0, anchor1 := a1 },
             media := { s.media with
        image := applyJ s.nand.bands s.media.image e, appended := s.media.appended + 1, tail := tl, tailEvt := te,
        tailSince := ts, changed := ch, programming := pr, nextJSeq := nj, journalBytes := jb, ckptBytes := cb } } := by
  obtain ⟨te, ts, ev, a0, a1, h⟩ := s.openTail_frame
  unfold State.journal
  simp only [h]
  split
  · obtain ⟨tl, pr, nj, jb, cb, h2⟩ := State.pushTail_frame { s with
      evt := ev, nand := { s.nand with anchor0 := a0, anchor1 := a1 },
      media := { s.media with
        image := applyJ s.nand.bands s.media.image e, appended := s.media.appended + 1, tail := s.media.tail ++ [e],
        tailEvt := te, tailSince := ts, changed := addNew s.media.changed (e.segments s.media.image) } }
    exact ⟨tl, te, ts, _, pr, nj, jb, cb, ev, a0, a1, h2⟩
  · exact ⟨_, te, ts, _, _, _, _, _, ev, a0, a1, rfl⟩

theorem ite_holds {α : Type} {P : α → Prop} {c : Prop} [Decidable c] {a b : α} (ha : P a) (hb : P b) :
    P (if c then a else b) := by
  split <;> assumption

/-- A health counter's rise changes the health log and its overflow bits. -/
theorem State.healthBump_frame (s : State) (i n : Nat) : ∃ h o, s.healthBump i n =
    { s with media := { s.media with health := h, healthOvf := o } } := ⟨_, _, rfl⟩

/-- Journal entries change the media, the store's records and the event numbers. -/
theorem State.journal_keeps (s : State) (e : JEntry) : ∃ md nd ev, s.journal e = { s with media := md, nand := nd, evt := ev } := by
  obtain ⟨tl, te, ts, ch, pr, nj, jb, cb, ev, a0, a1, h⟩ := s.journal_frame e
  exact ⟨_, _, _, h⟩

/-- Discards of a range, entry by entry, change the same. -/
theorem State.journalDiscard_keeps (ns : Nat) : ∀ (fuel n : Nat) (s : State) (lmu : Nat), ∃ md nd ev,
    s.journalDiscard ns lmu fuel n = { s with media := md, nand := nd, evt := ev } := by
  intro fuel
  induction fuel with
  | zero => intro n s lmu; exact ⟨s.media, s.nand, s.evt, rfl⟩
  | succ f ih =>
    intro n s lmu
    cases n with
    | zero => exact ⟨s.media, s.nand, s.evt, rfl⟩
    | succ n =>
      obtain ⟨md, nd, ev, h⟩ := s.journal_keeps (.discard ns lmu (min (n + 1) 65535))
      obtain ⟨md', nd', ev', h'⟩ := ih (n + 1 - min (n + 1) 65535) (s.journal (.discard ns lmu (min (n + 1) 65535)))
        (lmu + min (n + 1) 65535)
      exact ⟨md', nd', ev', by unfold State.journalDiscard; rw [h', h]⟩

/-- A crypto-erase of every namespace changes the key record, the namespaces' keys, the media, its store and the counts. -/
theorem State.cryptoEraseAll_keeps (s : State) : ∃ kb nk md nd ev fc, s.cryptoEraseAll =
    { s with trustKept := { s.trustKept with keyBlocks := kb, nsKeys := nk }, media := md, nand := nd, evt := ev,
             freeCtr := fc } := by
  have hk : ∀ (l : List NsInfo) (s : State), ∃ nk md fc, l.foldl (fun s x => s.drawKey x.id) s =
      { s with trustKept := { s.trustKept with nsKeys := nk }, media := md, freeCtr := fc } := by
    intro l
    induction l with
    | nil => intro s; exact ⟨s.trustKept.nsKeys, s.media, s.freeCtr, rfl⟩
    | cons x l ih =>
      intro s
      obtain ⟨nk, md, fc, h⟩ := ih (s.drawKey x.id)
      exact ⟨nk, md, fc, h⟩
  have hd : ∀ (l : List NsInfo) (s : State), ∃ md nd ev,
      l.foldl (fun s x => s.journalDiscard x.id 0 (x.cap / 65535 + 1) x.cap) s = { s with media := md, nand := nd, evt := ev } := by
    intro l
    induction l with
    | nil => intro s; exact ⟨s.media, s.nand, s.evt, rfl⟩
    | cons x l ih =>
      intro s
      obtain ⟨md, nd, ev, h⟩ := State.journalDiscard_keeps x.id (x.cap / 65535 + 1) x.cap s 0
      obtain ⟨md', nd', ev', h'⟩ := ih (s.journalDiscard x.id 0 (x.cap / 65535 + 1) x.cap)
      exact ⟨md', nd', ev', by rw [List.foldl_cons, h', h]⟩
  unfold State.cryptoEraseAll
  obtain ⟨nk, md, fc, h⟩ := hk s.media.image.ns s.cryptoEraseRecord
  obtain ⟨md', nd', ev', h'⟩ := hd (s.media.image.ns.foldl (fun s x => s.drawKey x.id) s.cryptoEraseRecord).media.image.ns
    (s.media.image.ns.foldl (fun s x => s.drawKey x.id) s.cryptoEraseRecord)
  simp only at h' ⊢
  refine ⟨s.cryptoEraseRecord.trustKept.keyBlocks, nk, md', nd', ev', fc, ?_⟩
  rw [h', h]
  rfl

/-- The spare-space warning and the worn state change the log, the anchors, the health log and the media's state. -/
theorem State.checkSpare_frame (s : State) : ∃ ev el rg a0 a1 he, s.checkSpare =
    { s with evt := ev, errlog := el, regs := rg, nand := { s.nand with anchor0 := a0, anchor1 := a1 },
             media := { s.media with health := he } } := by
  unfold State.checkSpare
  simp only
  split
  · obtain ⟨ev, el, rg, a0, a1, h⟩ := s.log_record_frame 0x0000 medBase 0 0 0 0 0
    exact ⟨ev, el, rg, a0, a1, _, by rw [h]⟩
  · exact ⟨s.evt, s.errlog, s.regs, s.nand.anchor0, s.nand.anchor1, _, rfl⟩

theorem State.checkWorn_frame (s : State) : ∃ ev el rg a0 a1 he wd st, s.checkWorn =
    { s with evt := ev, errlog := el, regs := rg, nand := { s.nand with anchor0 := a0, anchor1 := a1 },
             media := { s.media with health := he, wornDelete := wd, state := st } } := by
  unfold State.checkWorn
  simp only
  split
  · exact ⟨s.evt, s.errlog, s.regs, s.nand.anchor0, s.nand.anchor1, s.media.health, s.media.wornDelete, s.media.state, rfl⟩
  · split
    · obtain ⟨ev, el, rg, a0, a1, h⟩ := s.log_record_frame 0x0307 medBase 0 0 0 0 0
      rw [h]
      dsimp only
      generalize hx : (State.mk _ _ _ _ _ _ _ _ _ _ _ _ _ _ _ _ _ _ _ _ _ _ _ _ _ _ _ _ _ _ _ _ _ _ _ _ _ _) = x
      obtain ⟨b0, b1, c, h2⟩ := x.writeAnchor_frame false
      rw [h2, ← hx]
      exact ⟨_, _, _, _, _, _, _, _, rfl⟩
    · exact ⟨s.evt, s.errlog, s.regs, s.nand.anchor0, s.nand.anchor1, s.media.health, s.media.wornDelete, s.media.state, rfl⟩

theorem State.spareChanged_frame (s : State) : ∃ ev el rg a0 a1 he wd st, s.spareChanged =
    { s with evt := ev, errlog := el, regs := rg, nand := { s.nand with anchor0 := a0, anchor1 := a1 },
             media := { s.media with health := he, wornDelete := wd, state := st } } := by
  obtain ⟨ev, el, rg, a0, a1, he, h⟩ := s.checkSpare_frame
  obtain ⟨ev', el', rg', a0', a1', he', wd, st, h'⟩ := s.checkSpare.checkWorn_frame
  unfold State.spareChanged
  rw [h', h]
  exact ⟨ev', el', rg', a0', a1', he', wd, st, rfl⟩

@[simp] theorem State.spareChanged_image (s : State) : s.spareChanged.media.image = s.media.image := by
  obtain ⟨_, _, _, _, _, _, _, _, h⟩ := s.spareChanged_frame
  rw [h]

@[simp] theorem State.journal_image (s : State) (e : JEntry) :
    (s.journal e).media.image = applyJ s.nand.bands s.media.image e := by
  obtain ⟨_, _, _, _, _, _, _, _, _, _, _, h⟩ := s.journal_frame e
  rw [h]

/-- A retired block is out of every list of blocks the device uses, and is journaled. -/
theorem State.retireBlock_parts (s : State) (block ctr : Nat) (st : Status) :
    (s.retireBlock block ctr st).nand.retired = addNew s.nand.retired [block] ∧
    (s.retireBlock block ctr st).nand.freeBlocks = s.nand.freeBlocks.filter (· != block) ∧
    (s.retireBlock block ctr st).media.gc = s.media.gc.filter (fun j => j.src != block) ∧
    (s.retireBlock block ctr st).media.relocate = s.media.relocate.filter (· != block) ∧
    (s.retireBlock block ctr st).media.appended = s.media.appended + 1 := by
  obtain ⟨_, _, _, _, _, _, _, _, _, _, _, h⟩ := s.journal_frame (.blockRetire block)
  have hs : ∀ x : State, x.spareChanged.nand.retired = x.nand.retired ∧ x.spareChanged.nand.freeBlocks = x.nand.freeBlocks ∧
      x.spareChanged.media.gc = x.media.gc ∧ x.spareChanged.media.relocate = x.media.relocate ∧
      x.spareChanged.media.appended = x.media.appended := by
    intro x
    obtain ⟨_, _, _, _, _, _, _, _, h⟩ := x.spareChanged_frame
    rw [h]
    exact ⟨rfl, rfl, rfl, rfl, rfl⟩
  have ht : ∀ x : State, ∀ n m, ((((x.healthBump ctr 1).healthBump 11 1).log st medBase n m).spareChanged).nand.retired =
      x.nand.retired ∧
      ((((x.healthBump ctr 1).healthBump 11 1).log st medBase n m).spareChanged).nand.freeBlocks = x.nand.freeBlocks ∧
      ((((x.healthBump ctr 1).healthBump 11 1).log st medBase n m).spareChanged).media.gc = x.media.gc ∧
      ((((x.healthBump ctr 1).healthBump 11 1).log st medBase n m).spareChanged).media.relocate = x.media.relocate ∧
      ((((x.healthBump ctr 1).healthBump 11 1).log st medBase n m).spareChanged).media.appended = x.media.appended := by
    intro x n m
    obtain ⟨h1, h2, h3, h4, h5⟩ := hs (((x.healthBump ctr 1).healthBump 11 1).log st medBase n m)
    refine ⟨h1.trans ?_, h2.trans ?_, h3.trans ?_, h4.trans ?_, h5.trans ?_⟩
    · rw [State.log_nand_retired]; rfl
    · rw [State.log_nand_freeBlocks]; rfl
    · rw [State.log_media]; rfl
    · rw [State.log_media]; rfl
    · rw [State.log_media]; rfl
  unfold State.retireBlock
  generalize s.journal (.blockRetire block) = j at h
  subst h
  exact ht _ _ _

/-- What the end of Sanitize leaves (R114, R128). -/
theorem State.sanitizeEnd_parts (s : State) (j : SanitizeJob) (f : Nat) :
    (s.sanitizeEnd j f).media.sanitize = none ∧
    (s.sanitizeEnd j f).media.state = (if s.media.health.worn then .readOnlyWorn else .ready) ∧
    (j.action ≥ 2 → (s.sanitizeEnd j f).media.image.map = [] ∧ (s.sanitizeEnd j f).media.image.bands = [] ∧
      (s.sanitizeEnd j f).media.buffered = [] ∧ (s.sanitizeEnd j f).nand.journal = [] ∧
      (s.sanitizeEnd j f).nand.bands = [] ∧ (s.sanitizeEnd j f).groupRecord = none) ∧
    (j.action = 3 → (s.sanitizeEnd j f).media.health.factoryBad = f ∧ (s.sanitizeEnd j f).media.healthOvf = 0 ∧
      (s.sanitizeEnd j f).media.health.ctr = List.replicate 24 0 ∧ (s.sanitizeEnd j f).nand.handover = none ∧
      (s.sanitizeEnd j f).media.nextLayout = none ∧
      (s.sanitizeEnd j f).media.layout = j.layout.getD { s.media.layout with cell := max s.media.layout.cell 1 }) := by
  have ha : ∀ x : State, ∃ a0 a1 ev, x.writeAnchorWith false x.media.image x.media.nextJSeq =
      { x with nand := { x.nand with anchor0 := a0, anchor1 := a1 }, evt := ev } :=
    fun x => (x.writeAnchorWith_frame false x.media.image x.media.nextJSeq).elim fun _ h => h.elim fun _ h => h.elim fun _ h => ⟨_, _, _, h⟩
  unfold State.sanitizeEnd
  by_cases h2 : j.action ≥ 2 <;> by_cases h3 : j.action = 3
  · simp only [if_pos h2, if_pos h3]
    obtain ⟨a0, a1, ev, h⟩ := ha _
    rw [h]
    exact ⟨rfl, rfl, fun _ => ⟨rfl, rfl, rfl, rfl, rfl, rfl⟩, fun _ => ⟨rfl, rfl, rfl, rfl, rfl, rfl⟩⟩
  · simp only [if_pos h2, if_neg h3]
    obtain ⟨a0, a1, ev, h⟩ := ha _
    rw [h]
    exact ⟨rfl, rfl, fun _ => ⟨rfl, rfl, rfl, rfl, rfl, rfl⟩, fun hc => absurd hc h3⟩
  · omega
  · simp only [if_neg h2, if_neg h3]
    obtain ⟨a0, a1, ev, h⟩ := ha _
    rw [h]
    exact ⟨rfl, rfl, fun hc => absurd hc h2, fun hc => absurd hc h3⟩

/-- A read of bulk memory rests on bulk memory and the media's map alone. -/
theorem State.bulkRead_congr {s t : State} (hm : t.media = s.media) (hb : t.bulkMem = s.bulkMem) (a n : Nat) :
    t.bulkRead a n = s.bulkRead a n := by
  induction n generalizing a with
  | zero => rfl
  | succ n ih => simp [State.bulkRead, ih, State.bulkByte, State.mapEntry, State.pmaOf, hm, hb]

/-- While no map is loaded a read of bulk memory gives its own bytes. -/
theorem State.bulkRead_unloaded {s : State} (h : s.media.mapLoaded = false) (a n : Nat) :
    s.bulkRead a n = memRead s.bulkMem a n := by
  induction n generalizing a with
  | zero => rfl
  | succ n ih => simp [State.bulkRead, memRead, ih, State.bulkByte, h]

end Sys2Proof.Machine
end

