-- ==== Sys2Proof/Laws/Memory.lean ====
section
/-! SUPPORT. The sparse memory: every operation keeps the canonical form, and a byte reads as it was last written. -/

namespace Sys2Proof.Machine

theorem memWfFrom_mono {m : Memory} {lo lo' : Nat} (h : lo' ≤ lo) (w : memWfFrom lo m = true) :
    memWfFrom lo' m = true := by
  cases m with
  | nil => rfl
  | cons c rest =>
    obtain ⟨a, b⟩ := c
    simp [memWfFrom] at w ⊢
    exact ⟨⟨by omega, w.1.2⟩, w.2⟩

theorem memSet_wfFrom (m : Memory) (lo k : Nat) (v : Byte) (h : lo ≤ k) (w : memWfFrom lo m = true) :
    memWfFrom lo (memSet m k v) = true := by
  induction m generalizing lo with
  | nil =>
    simp only [memSet]
    split
    · rfl
    · rename_i hv
      simp only [memWfFrom, Bool.and_eq_true, decide_eq_true_eq, bne_iff_ne]
      exact ⟨⟨h, hv⟩, trivial⟩
  | cons c rest ih =>
    obtain ⟨a, b⟩ := c
    simp only [memWfFrom, Bool.and_eq_true, decide_eq_true_eq, bne_iff_ne] at w
    obtain ⟨⟨hlo, hb⟩, hr⟩ := w
    simp only [memSet]
    split
    · rename_i hk
      split
      · simp only [memWfFrom, Bool.and_eq_true, decide_eq_true_eq, bne_iff_ne]
        exact ⟨⟨hlo, hb⟩, hr⟩
      · simp only [memWfFrom, Bool.and_eq_true, decide_eq_true_eq, bne_iff_ne]
        exact ⟨⟨h, by assumption⟩, ⟨by omega, hb⟩, hr⟩
    · rename_i hk
      split
      · rename_i he
        split
        · exact memWfFrom_mono (by omega) hr
        · simp only [memWfFrom, Bool.and_eq_true, decide_eq_true_eq, bne_iff_ne]
          exact ⟨⟨h, by assumption⟩, by rw [he]; exact hr⟩
      · rename_i he
        simp only [memWfFrom, Bool.and_eq_true, decide_eq_true_eq, bne_iff_ne]
        exact ⟨⟨hlo, hb⟩, ih (a + 1) (by omega) hr⟩

/-- A byte write keeps the canonical form. -/
theorem memSet_wf {m : Memory} (k : Nat) (v : Byte) (w : Memory.wf m = true) : Memory.wf (memSet m k v) = true :=
  memSet_wfFrom m 0 k v (Nat.zero_le k) w

/-- A write of a byte string keeps the canonical form. -/
theorem memWrite_wf (bs : List Byte) : ∀ {m : Memory} (k : Nat), Memory.wf m = true → Memory.wf (memWrite m k bs) = true := by
  induction bs with
  | nil => intro m k w; exact w
  | cons b bs ih => intro m k w; exact ih (k + 1) (memSet_wf k b w)

theorem memFilter_wfFrom (p : Host.Cell → Bool) (m : Memory) (lo : Nat) (w : memWfFrom lo m = true) :
    memWfFrom lo (m.filter p) = true := by
  induction m generalizing lo with
  | nil => rfl
  | cons c rest ih =>
    obtain ⟨a, b⟩ := c
    simp only [memWfFrom, Bool.and_eq_true, decide_eq_true_eq, bne_iff_ne] at w
    obtain ⟨⟨hlo, hb⟩, hr⟩ := w
    simp only [List.filter]
    split
    · simp only [memWfFrom, Bool.and_eq_true, decide_eq_true_eq, bne_iff_ne]
      exact ⟨⟨hlo, hb⟩, ih (a + 1) hr⟩
    · exact memWfFrom_mono (by omega) (ih (a + 1) hr)

/-- A zeroed range reads 0, and every other byte as before. -/
theorem memGet_memZero (m : Memory) (lo hi k : Nat) :
    memGet (memZero m lo hi) k = if lo ≤ k ∧ k < hi then 0 else memGet m k := by
  induction m with
  | nil => simp [memZero, memGet]
  | cons c rest ih =>
    have hz : memZero (c :: rest) lo hi =
        if (decide (c.1 < lo) || decide (hi ≤ c.1)) = true then c :: memZero rest lo hi else memZero rest lo hi := by
      simp [memZero, List.filter_cons]
    rw [hz]
    obtain ⟨a, b⟩ := c
    by_cases ha : (decide (a < lo) || decide (hi ≤ a)) = true
    · rw [if_pos ha]
      simp only [Bool.or_eq_true, decide_eq_true_eq] at ha
      simp only [memGet]
      split
      · rw [if_neg (by omega)]
      · exact ih
    · rw [if_neg ha, ih]
      simp only [Bool.or_eq_true, decide_eq_true_eq, not_or, Nat.not_lt, Nat.not_le] at ha
      simp only [memGet]
      split
      · rfl
      · rw [if_neg (by omega)]

/-- Zeroing a range keeps the canonical form. -/
theorem memZero_wf {m : Memory} (lo hi : Nat) (w : Memory.wf m = true) : Memory.wf (memZero m lo hi) = true :=
  memFilter_wfFrom _ m 0 w

/-- Nothing below `lo` is listed in a memory whose addresses start at `lo`. -/
theorem memGet_below {m : Memory} {lo k : Nat} (w : memWfFrom lo m = true) (h : k < lo) : memGet m k = 0 := by
  induction m generalizing lo with
  | nil => rfl
  | cons c rest ih =>
    obtain ⟨a, b⟩ := c
    simp only [memWfFrom, Bool.and_eq_true, decide_eq_true_eq, bne_iff_ne] at w
    have : ¬ k = a := by omega
    simp only [memGet, this, if_false]
    exact ih w.2 (by omega)

/-- Every memory of the reset state is in the canonical form. -/
theorem reset_memories_wf : Memory.wf State.reset.bulkMem = true ∧ Memory.wf State.reset.hostMem = true ∧
    Memory.wf State.reset.nand.store = true ∧ Memory.wf State.reset.field.tileMem = true ∧
    Memory.wf State.reset.field.regionMem = true ∧ Memory.wf State.reset.yqi.staging = true := by
  decide

end Sys2Proof.Machine
end

