-- ==== Sys2Proof/Laws/Net.lean ====
section
/-! SUPPORT. One lemma per shared operation of the pools, the policers, egress, the Gnoz transport, group messages and
replies: what it can change, and that it leaves the rest. -/

namespace Sys2Proof.Machine

/-- What stands in a list with one position updated. -/
theorem modAt_getElem? {α : Type} (l : List α) (i j : Nat) (f : α → α) :
    (modAt l i f)[j]? = if j = i then l[j]?.map f else l[j]? := by
  induction l generalizing i j with
  | nil => cases i <;> simp [modAt]
  | cons x t ih =>
    cases i with
    | zero => cases j <;> simp [modAt]
    | succ i => cases j with
      | zero => simp [modAt]
      | succ j => simp [modAt, ih]

theorem State.bump_frame (s : State) (off ovf b : Nat) : ∃ rg, s.bump off ovf b = { s with regs := rg } :=
  s.bumpBy_frame off ovf b 1

theorem State.log_frame (s : State) (st : Status) (b i0 i1 i2 d n : Nat) : ∃ ev el rg nd,
    s.log st b i0 i1 i2 d n = { s with evt := ev, errlog := el, regs := rg, nand := nd } := by
  obtain ⟨ev, el, rg, a0, a1, h⟩ := s.logEntry_frame
    { seq := 0, status := st, block := b / 2 ^ 16, info0 := i0, info1 := i1, info2 := i2, detail := d, nsid := n }
  exact ⟨ev, el, rg, _, h⟩

theorem State.bump_regs (s : State) (off ovf b : Nat) : s.bump off ovf b = { s with regs := (s.bump off ovf b).regs } := by
  obtain ⟨_, h⟩ := s.bump_frame off ovf b
  rw [h]

theorem State.gnzBump_regs (s : State) (i : Nat) : s.gnzBump i = { s with regs := (s.gnzBump i).regs } := s.bump_regs _ _ _

theorem State.gnzBump_frame (s : State) (i : Nat) : ∃ rg, s.gnzBump i = { s with regs := rg } := s.bump_frame _ _ _

/-- A plain write sets registers; a locked one also records and counts the attempt. -/
theorem State.plainWrite_frame (s : State) (off : Nat) (v : Word) : ∃ rg d ev el nd, s.plainWrite off v =
    { s with regs := rg, trust := { s.trust with deniedAt := d }, evt := ev, errlog := el, nand := nd } := by
  have hq : ∀ b, ∃ rg d ev el nd, s.quoinDenied off b =
      { s with regs := rg, trust := { s.trust with deniedAt := d }, evt := ev, errlog := el, nand := nd } := by
    intro b
    obtain ⟨rg, h⟩ := s.bump_frame regSagQuoinDenied regSagOvf 0
    simp only [State.quoinDenied, h]
    split
    · obtain ⟨_, _, _, _, h2⟩ := State.log_frame { s with regs := rg } 0x0F01 sagBase off b 0 0 0
      rw [h2]; exact ⟨_, _, _, _, _, rfl⟩
    · exact ⟨_, _, _, _, _, rfl⟩
  unfold State.plainWrite
  split
  · exact ⟨_, _, _, _, _, rfl⟩
  · dsimp only
    split
    · rename_i r _ _
      obtain ⟨_, _, _, _, _, h⟩ := hq r.quoin
      rw [h]; exact ⟨_, _, _, _, _, rfl⟩
    · exact ⟨_, _, _, _, _, rfl⟩

/-- A pool's WARN state changes the pool's warnings, its counters, and may be recorded. -/
theorem State.poolWarn_frame (s : State) (d i : Nat) : ∃ w rg ev el nd, s.poolWarn d i =
    { s with pools := { s.pools with warn := w }, regs := rg, evt := ev, errlog := el, nand := nd } := by
  unfold State.poolWarn
  dsimp only
  split
  · obtain ⟨rg, h⟩ := State.bump_frame { s with pools := { s.pools with warn := s.pools.warn ++ [(d, i)] } }
      (poolReg d i 0x30) (poolReg d i 0x34) 4
    rw [h]
    obtain ⟨_, _, _, _, h2⟩ := State.log_frame
      { s with pools := { s.pools with warn := s.pools.warn ++ [(d, i)] }, regs := rg } 0 poolBase i 0 0 0 0
    rw [h2]; exact ⟨_, _, _, _, _, rfl⟩
  · split <;> exact ⟨_, _, _, _, _, rfl⟩

/-- A grant adds one buffer, counted. -/
theorem State.poolGive_frame (s : State) (die q index c port unit home : Nat) : ∃ w rg ev el nd,
    s.poolGive die q index c port unit home = { s with
      pools := { s.pools with
        bufs := s.pools.bufs ++ [{ die := die, pool := q, index := index, cls := c, port := port, unit := unit }], warn := w },
      regs := rg, evt := ev, errlog := el, nand := nd } := by
  unfold State.poolGive
  dsimp only
  obtain ⟨r1, h1⟩ := State.bump_frame { s with pools := { s.pools with
    bufs := s.pools.bufs ++ [{ die := die, pool := q, index := index, cls := c, port := port, unit := unit }] } }
    (poolReg die q 0x20) (poolReg die q 0x34) 0
  rw [h1]
  split
  · obtain ⟨r2, h2⟩ := State.bump_frame { s with regs := r1, pools := { s.pools with
      bufs := s.pools.bufs ++ [{ die := die, pool := q, index := index, cls := c, port := port, unit := unit }] } }
      (poolReg die q 0x24) (poolReg die q 0x34) 1
    rw [h2]
    obtain ⟨_, _, _, _, _, h⟩ := State.poolWarn_frame { s with regs := r2, pools := { s.pools with
      bufs := s.pools.bufs ++ [{ die := die, pool := q, index := index, cls := c, port := port, unit := unit }] } } die q
    rw [h]; exact ⟨_, _, _, _, _, rfl⟩
  · obtain ⟨_, _, _, _, _, h⟩ := State.poolWarn_frame { s with regs := r1, pools := { s.pools with
      bufs := s.pools.bufs ++ [{ die := die, pool := q, index := index, cls := c, port := port, unit := unit }] } } die q
    rw [h]; exact ⟨_, _, _, _, _, rfl⟩

/-- A returned buffer changes the pools and their counters. -/
theorem State.poolReturn_frame (s : State) (b : Buffer) : ∃ po rg ev el nd,
    s.poolReturn b = { s with pools := po, regs := rg, evt := ev, errlog := el, nand := nd } := by
  unfold State.poolReturn
  dsimp only
  obtain ⟨w, rg, ev, el, nd, h⟩ := State.poolWarn_frame { s with pools := { s.pools with
    bufs := s.pools.bufs.filter (fun x => !(x.die == b.die && x.pool == b.pool && x.index == b.index)) } } b.die b.pool
  rw [h]
  dsimp only
  split
  · exact ⟨_, _, _, _, _, rfl⟩
  · rename_i x _
    obtain ⟨_, _, _, _, _, h2⟩ := State.poolGive_frame { s with
      pools := {
        bufs := s.pools.bufs.filter (fun x => !(x.die == b.die && x.pool == b.pool && x.index == b.index)),
        waits := s.pools.waits.erase x, warn := w },
      regs := rg, evt := ev, errlog := el, nand := nd } b.die b.pool b.index x.cls x.port x.unit x.home
    rw [h2]; exact ⟨_, _, _, _, _, rfl⟩

/-- A meter decision changes the policer's buckets and counters. -/
theorem State.police_frame (s : State) (die n bits : Nat) (pc : Colour) : ∃ ps rg,
    (s.police die n bits pc).2 = { s with shadow := { s.shadow with policers := ps }, regs := rg } := by
  unfold State.police
  dsimp only
  split
  · exact ⟨_, _, rfl⟩
  · exact ⟨_, _, State.bump_regs _ _ _ _⟩

theorem State.enqueue_frame (s : State) (port : Nat) (q : QueueSel) (f : Frame) : ∃ l,
    s.enqueue port q f = { s with egress := { s.egress with insts := l } } := ⟨_, rfl⟩

/-- A frame for SP0 enters it, or is dropped and counted. -/
theorem State.enqueueSp0_frame (s : State) (port : Nat) (f : Frame) : ∃ l rg,
    s.enqueueSp0 port f = { s with egress := { s.egress with insts := l }, regs := rg } := by
  unfold State.enqueueSp0
  split
  · exact ⟨_, _, State.bump_regs _ _ _ _⟩
  · split
    · exact ⟨_, _, rfl⟩
    · exact ⟨_, _, State.bump_regs _ _ _ _⟩

/-- The head frame of a queue leaves it: its instance, the port's virtual time and a counter change, and two outputs follow. -/
theorem State.sendHead_frame (s : State) (i : QueueInst) (f : Frame) (l : List Frame) (h : i.frames = f :: l) :
    ∃ (i' : QueueInst) (vt : List (Nat × Nat)) (rg : List (Nat × Word)) (q : Nat) (ce : Bool),
      i'.port = i.port ∧ i'.sel = i.sel ∧ i'.frames = l ∧ s.sendHead i = { s with
        egress := { s.egress with
          insts := s.egress.insts.filter (fun x => !(x.port == i.port && x.sel == i.sel)) ++ [i'], vtime := vt },
        regs := rg, out := s.out ++ [f.send, .frameOut i.port q f.wire ce] } := by
  have fin : ∀ (z : State) (c : Bool) a b k, ∃ rg, (if c = true then z.bump a b k else z) = { z with regs := rg } := by
    intro z c a b k
    cases c
    · exact ⟨z.regs, rfl⟩
    · exact z.bump_frame a b k
  have mk : ∀ (i' : QueueInst) (y w : State) (n : Nat) (c : Bool), i'.port = i.port → i'.sel = i.sel → i'.frames = l →
      (h4 : y = s.setInst i' ∨ ∃ v, y = { s.setInst i' with egress := { (s.setInst i').egress with vtime := v } }) →
      (h5 : ∃ rg, w = { y with regs := rg }) →
      ∃ (i' : QueueInst) (vt : List (Nat × Nat)) (rg : List (Nat × Word)) (q : Nat) (ce : Bool),
        i'.port = i.port ∧ i'.sel = i.sel ∧ i'.frames = l ∧
        (w.emit f.send).emit (.frameOut i.port n f.wire c) = { s with
          egress := { s.egress with
            insts := s.egress.insts.filter (fun x => !(x.port == i.port && x.sel == i.sel)) ++ [i'], vtime := vt },
          regs := rg, out := s.out ++ [f.send, .frameOut i.port q f.wire ce] } := by
    intro i' y w n c a b k d e
    obtain ⟨rg, rfl⟩ := e
    rcases d with rfl | ⟨v, rfl⟩
    · exact ⟨i', s.egress.vtime, rg, n, c, a, b, k, by simp [State.emit, State.setInst, a, b]⟩
    · exact ⟨i', v, rg, n, c, a, b, k, by simp [State.emit, State.setInst, a, b]⟩
  unfold State.sendHead
  rw [h]
  dsimp only
  obtain ⟨port, sel, frames, headTag, lastTag, eligAt, slot⟩ := i
  dsimp only at mk ⊢
  cases sel with
  | strict n =>
    dsimp only
    apply mk (h4 := Or.inl rfl) (h5 := fin _ _ _ _ _) <;> rfl
  | weighted n =>
    dsimp only
    apply mk (h4 := Or.inr ⟨_, rfl⟩) (h5 := fin _ _ _ _ _) <;> rfl

/-- Sending what one message can send changes the transport, egress, and their counters. -/
theorem State.pumpStep_frame (s : State) (i : Nat) : ∃ g e rg,
    (s.pumpStep i).2 = { s with gnoz := g, egress := e, regs := rg } := by
  unfold State.pumpStep
  split
  · exact ⟨_, _, _, rfl⟩
  · split
    · dsimp only
      split
      · exact ⟨_, _, _, rfl⟩
      · split
        · exact ⟨_, _, _, rfl⟩
        · split
          · exact ⟨_, _, _, rfl⟩
          split
          · split
            · exact ⟨_, _, _, rfl⟩
            · exact ⟨_, _, _, State.bump_regs _ _ _ _⟩
          · have hm : ∀ (b : Bool) (x : Nat), ∃ g rg,
                (if b = true then (x, s) else s.mintId).2 = { s with gnoz := g, regs := rg } := by
              intro b x
              cases b
              · exact ⟨_, _, State.gnzBump_regs _ _⟩
              · exact ⟨_, _, rfl⟩
            rw [(hm _ _).choose_spec.choose_spec]
            split
            · exact ⟨_, _, _, by rw [State.gnzBump_regs]; rfl⟩
            · exact ⟨_, _, _, rfl⟩
    · exact ⟨_, _, _, rfl⟩

theorem State.pumpMsg_frame (i n : Nat) : ∀ s : State, ∃ g e rg, s.pumpMsg i n = { s with gnoz := g, egress := e, regs := rg } := by
  induction n with
  | zero => intro s; exact ⟨_, _, _, rfl⟩
  | succ n ih =>
    intro s
    obtain ⟨g, e, rg, h⟩ := s.pumpStep_frame i
    unfold State.pumpMsg
    split
    · rename_i u hu
      rw [hu] at h
      dsimp only at h
      obtain ⟨_, _, _, h2⟩ := ih u
      rw [h2, h]; exact ⟨_, _, _, rfl⟩
    · rename_i u hu
      rw [hu] at h
      exact ⟨_, _, _, h⟩

/-- Sending what every message can send changes the transport, egress, and their counters. -/
theorem State.pump_frame (s : State) : ∃ g e rg, s.pump = { s with gnoz := g, egress := e, regs := rg } := by
  have : ∀ (l : List Nat) (u : State), ∃ g e rg, l.foldl (fun s i =>
      match s.gnoz.out[i]? with
      | some m => s.pumpMsg i (m.frags + m.resend.length)
      | none => s) u = { u with gnoz := g, egress := e, regs := rg } := by
    intro l
    induction l with
    | nil => intro u; exact ⟨_, _, _, rfl⟩
    | cons i l ih =>
      intro u
      rw [List.foldl_cons]
      split
      · rename_i m _
        obtain ⟨g, e, rg, h⟩ := u.pumpMsg_frame i (m.frags + m.resend.length)
        obtain ⟨_, _, _, h2⟩ := ih { u with gnoz := g, egress := e, regs := rg }
        rw [h, h2]; exact ⟨_, _, _, rfl⟩
      · exact ih u
  unfold State.pump
  split
  · exact this _ s
  · exact ⟨_, _, _, rfl⟩

theorem State.pump_eq (s : State) :
    s.pump = { s with gnoz := s.pump.gnoz, egress := s.pump.egress, regs := s.pump.regs } := by
  obtain ⟨_, _, _, h⟩ := s.pump_frame
  rw [h]

theorem State.sendMsg_frame (s : State) (h : GnozHdr) (p : List Byte) (o : MsgOwner) : ∃ g e rg,
    s.sendMsg h p o = { s with gnoz := g, egress := e, regs := rg } := ⟨_, _, _, State.pump_eq _⟩

/-- A message to every other device of the group is recorded once for each of them, and nothing else changes. -/
theorem State.groupCast_eq (s : State) (k : Nat) (b : List Nat) : s.groupCast k b = { s with
    out := s.out ++ s.others.map (fun n =>
      .groupMsg k (s.entryDevice n) ([(s.reg (grpBase + 4)).toNat, s.group.gen] ++ b)) } := by
  have : ∀ (l : List Nat) (u : State), (∀ n ∈ l, n ≠ u.group.self) → l.foldl (fun s n => s.groupSend k n b) u =
      { u with out := u.out ++ l.map (fun n =>
        .groupMsg k (u.entryDevice n) ([(u.reg (grpBase + 4)).toNat, u.group.gen] ++ b)) } := by
    intro l
    induction l with
    | nil => intro u _; simp
    | cons n l ih =>
      intro u hu
      simp only [List.foldl_cons, List.map_cons]
      have e : u.groupSend k n b = { u with out := u.out ++
          [.groupMsg k (u.entryDevice n) ([(u.reg (grpBase + 4)).toNat, u.group.gen] ++ b)] } := by
        unfold State.groupSend; rw [if_neg (hu n (by simp))]; rfl
      rw [e]
      refine (ih { u with out := u.out ++
        [.groupMsg k (u.entryDevice n) ([(u.reg (grpBase + 4)).toNat, u.group.gen] ++ b)] }
        (fun m hm => hu m (by simp [hm]))).trans ?_
      simp [State.entryDevice, State.regFld, State.reg]
  exact this s.others s (by intro n hn; have := (List.mem_filter.mp hn).2; simp at this; exact this.2)

end Sys2Proof.Machine
end

