-- ==== Sys2Proof/Laws/PerInstr.lean ====
section
/-! SUPPORT. Statements made for each command as syntax: this package has none, for a block has no encodings. -/

namespace Sys2Proof.Laws

/-- A command whose operands carry a request's origin is well formed only with a well-formed origin. -/
theorem read_wf_path (p : ReqPath) (nsid lba count len : Nat) (h : wfInstr (.read p nsid lba count len) = true) :
    wfPath p = true := by
  simp [wfInstr] at h
  exact h.1.1

end Sys2Proof.Laws
end

