-- ==== Sys2Proof/Laws/Queues.lean ====
section
/-! SUPPORT. What the operations on queue pairs leave of them (R430-R442). -/

namespace Sys2Proof.Machine

/-- A change of a queue shows in the queue. -/
theorem State.queueAt_updQueue (s : State) (fn q : Nat) (x : Queue) (f : Queue → Queue) (h : s.queueAt fn q = some x)
    (hf : ∀ z, (f z).fn = z.fn ∧ (f z).qid = z.qid) : (s.updQueue fn q f).queueAt fn q = some (f x) := by
  unfold State.updQueue State.queueAt at *
  simp only
  revert h
  induction s.yqi.queues with
  | nil => intro h; simp at h
  | cons a t ih =>
    intro h
    rw [List.map_cons, List.find?_cons]
    rw [List.find?_cons] at h
    have hz := hf a
    by_cases c : a.fn = fn ∧ a.qid = q
    · have ca : (a.fn == fn && a.qid == q) = true := by simp [c.1, c.2]
      rw [ca] at h
      simp only [Option.some.injEq] at h
      subst h
      rw [if_pos c]
      simp [hz.1, hz.2, c.1, c.2]
    · have ca : (a.fn == fn && a.qid == q) = false := by
        rw [← Bool.not_eq_true]
        intro e
        simp only [Bool.and_eq_true, beq_iff_eq] at e
        exact c e
      rw [ca] at h
      rw [if_neg c, ca]
      exact ih h

/-- A queue is the same where the queues are. -/
theorem State.queueAt_congr (s t : State) (fn q : Nat) (h : t.yqi = s.yqi) : t.queueAt fn q = s.queueAt fn q := by
  unfold State.queueAt; rw [h]

/-- A queue that begins to be deleted is marked; the others stay. -/
theorem State.beginDelete_queues (s : State) (fn q : Nat) (cid : Option Nat) :
    (s.beginDelete fn q cid).yqi.queues =
      s.yqi.queues.map (fun (x : Queue) => if x.fn = fn ∧ x.qid = q then { x with deleting := some cid } else x) := rfl

/-- Of queues that begin to be deleted one after another, each is marked. -/
theorem State.beginDelete_all (fn : Nat) (l : List Nat) : ∀ s : State, (∀ x ∈ s.yqi.queues, x.fn = fn → x.qid ∈ l ∨ x.deleting.isSome = true) →
    ∀ x ∈ (l.foldl (fun s q => s.beginDelete fn q none) s).yqi.queues, x.fn = fn → x.deleting.isSome = true := by
  induction l with
  | nil =>
    intro s h x hx e
    rcases h x hx e with a | a
    · cases a
    · exact a
  | cons q t ih =>
    intro s h x hx e
    rw [List.foldl_cons] at hx
    refine ih (s.beginDelete fn q none) ?_ x hx e
    intro y hy ey
    rw [State.beginDelete_queues, List.mem_map] at hy
    obtain ⟨z, hz, rfl⟩ := hy
    by_cases c : z.fn = fn ∧ z.qid = q
    · right; rw [if_pos c]; rfl
    · rw [if_neg c] at ey ⊢
      rcases h z hz ey with a | a
      · rw [List.mem_cons] at a
        rcases a with a | a
        · exact absurd ⟨ey, a⟩ c
        · exact .inl a
      · exact .inr a

/-- Queues that are freed leave; no other queue changes. -/
theorem State.freeQueues_sub (fn : Nat) (l : List Nat) : ∀ s : State,
    ∀ x ∈ (l.foldl (fun s q => if (s.admittedOf fn q).isEmpty then s.freeQueue fn q else s) s).yqi.queues, x ∈ s.yqi.queues := by
  induction l with
  | nil => intro s x h; exact h
  | cons q t ih =>
    intro s x h
    rw [List.foldl_cons] at h
    have := ih _ x h
    split at this
    · exact (List.mem_filter.mp this).1
    · exact this

/-- After a reset of its function no queue of it is left but those that are being deleted (R438). -/
theorem State.flr_queues (s : State) (fn : Nat) : ∀ x ∈ (s.flr fn).yqi.queues, x.fn = fn → x.deleting.isSome = true := by
  intro x h e
  have h1 := State.freeQueues_sub fn _ _ x h
  refine State.beginDelete_all fn _ s ?_ x h1 e
  intro y hy ey
  left
  exact List.mem_map.mpr ⟨y, List.mem_filter.mpr ⟨hy, by simp [ey]⟩, rfl⟩

/-- After a reset of its function its features are at their reset values (R438). -/
theorem State.flr_fn (s : State) (fn : Nat) (f : Fn) (h : (s.flr fn).fnAt fn = some f) :
    f.aqReady = false ∧ f.burst = 8 ∧ f.unmasked = [] ∧ f.coalesce = [] := by
  unfold State.flr State.fnAt at h
  have hm := List.mem_of_find?_eq_some h
  have hg := List.find?_some h
  simp only [State.setRuns, State.setFn, List.mem_map] at hm
  obtain ⟨z, _, rfl⟩ := hm
  split
  · exact ⟨rfl, rfl, rfl, rfl⟩
  · rename_i c
    rw [if_neg c] at hg
    simp only [beq_iff_eq] at hg
    exact absurd hg c

/-- A reset of a function leaves the links. -/
theorem State.flr_links (s : State) (fn : Nat) : (s.flr fn).yqi.link0 = s.yqi.link0 ∧ (s.flr fn).yqi.link1 = s.yqi.link1 := by
  have a : ∀ (l : List Nat) (s : State), ((l.foldl (fun s q => s.beginDelete fn q none) s).yqi.link0 = s.yqi.link0) ∧
      ((l.foldl (fun s q => s.beginDelete fn q none) s).yqi.link1 = s.yqi.link1) := by
    intro l
    induction l with
    | nil => intro s; exact ⟨rfl, rfl⟩
    | cons q t ih => intro s; rw [List.foldl_cons]; exact ⟨(ih _).1, (ih _).2⟩
  have b : ∀ (l : List Nat) (s : State),
      ((l.foldl (fun s q => if (s.admittedOf fn q).isEmpty then s.freeQueue fn q else s) s).yqi.link0 = s.yqi.link0) ∧
      ((l.foldl (fun s q => if (s.admittedOf fn q).isEmpty then s.freeQueue fn q else s) s).yqi.link1 = s.yqi.link1) := by
    intro l
    induction l with
    | nil => intro s; exact ⟨rfl, rfl⟩
    | cons q t ih =>
      intro s
      rw [List.foldl_cons]
      obtain ⟨i, j⟩ := ih (if (s.admittedOf fn q).isEmpty then s.freeQueue fn q else s)
      rw [i, j]
      split
      · exact ⟨rfl, rfl⟩
      · exact ⟨rfl, rfl⟩
  unfold State.flr
  simp only [State.setRuns, State.setFn]
  exact ⟨(b _ _).1.trans (a _ _).1, (b _ _).2.trans (a _ _).2⟩

end Sys2Proof.Machine
end

