-- ==== Sys2Proof/Laws/Regs.lean ====
section
/-! SUPPORT. The read of a register after a write of it, and of another; what the shared operations leave of the registers. -/

namespace Sys2Proof.Machine

theorem aget_aset_ne (d e v : Word) (k j : Nat) (l : List (Nat × Word)) (h : j ≠ k) : assocGet e j (assocSet d k v l) = assocGet e j l := by
  induction l with
  | nil => simp only [assocSet]; split <;> simp [assocGet, h]
  | cons a t ih =>
    obtain ⟨k', v'⟩ := a
    simp only [assocSet]
    split
    · split <;> simp [assocGet, h]
    · split
      · rename_i h1; subst h1; split <;> simp [assocGet, h]
      · simp [assocGet, ih]
theorem aget_below (d : Word) (k : Nat) : ∀ (l : List (Nat × Word)) (lo : Nat), regsWfFrom lo l = true → k < lo → assocGet d k l = d := by
  intro l
  induction l with
  | nil => intro lo _ _; rfl
  | cons a t ih =>
    obtain ⟨k', v'⟩ := a
    intro lo h hk
    simp only [regsWfFrom, Bool.and_eq_true, decide_eq_true_eq] at h
    simp only [assocGet]
    rw [if_neg (by omega)]
    exact ih _ h.2 (by omega)
theorem aget_aset (v : Word) (k : Nat) : ∀ (l : List (Nat × Word)) (lo : Nat), regsWfFrom lo l = true → assocGet (resetWord k) k (assocSet (resetWord k) k v l) = v := by
  intro l
  induction l with
  | nil => intro lo _; simp only [assocSet]; split <;> simp_all [assocGet]
  | cons a t ih =>
    obtain ⟨k', v'⟩ := a
    intro lo h
    simp only [regsWfFrom, Bool.and_eq_true, decide_eq_true_eq] at h
    simp only [assocSet]
    split
    · split
      · rename_i h1 h2; simp only [assocGet]; rw [if_neg (by omega), aget_below _ _ _ _ h.2 (by omega), h2]
      · simp [assocGet]
    · split
      · rename_i h1; subst h1
        split
        · rename_i h2; rw [aget_below _ _ _ _ h.2 (by omega), h2]
        · simp [assocGet]
      · rename_i h1; simp only [assocGet]; rw [if_neg h1]; exact ih _ h.2
theorem aset_wf (v : Word) (k : Nat) : ∀ (l : List (Nat × Word)) (lo : Nat), lo ≤ k → regsWfFrom lo l = true → regsWfFrom lo (assocSet (resetWord k) k v l) = true := by
  intro l
  induction l with
  | nil => intro lo h _; simp only [assocSet]; split <;> simp_all [regsWfFrom]
  | cons a t ih =>
    obtain ⟨k', v'⟩ := a
    intro lo hk h
    have h0 := h
    simp only [regsWfFrom, Bool.and_eq_true, decide_eq_true_eq] at h
    simp only [assocSet]
    split
    · split
      · exact h0
      · rename_i h1 h2
        simp only [regsWfFrom, Bool.and_eq_true, decide_eq_true_eq, bne_iff_ne]
        exact ⟨⟨hk, h2⟩, ⟨by omega, by simpa using h.1.2⟩, h.2⟩
    · split
      · rename_i h1; subst h1
        split
        · have : ∀ (l : List (Nat × Word)) a b, b ≤ a → regsWfFrom a l = true → regsWfFrom b l = true := by
            intro l a b hab hl
            cases l with
            | nil => rfl
            | cons x y => simp only [regsWfFrom, Bool.and_eq_true, decide_eq_true_eq] at hl ⊢; exact ⟨⟨by omega, hl.1.2⟩, hl.2⟩
          exact this _ _ _ (by omega) h.2
        · rename_i h2
          simp only [regsWfFrom, Bool.and_eq_true, decide_eq_true_eq, bne_iff_ne]
          exact ⟨⟨hk, h2⟩, h.2⟩
      · simp only [regsWfFrom, Bool.and_eq_true, decide_eq_true_eq]
        exact ⟨h.1, ih _ (by omega) h.2⟩

/-- A register reads as it was last set. -/
theorem State.reg_setReg (s : State) (k : Nat) (v : Word) (h : s.regsWf = true) : (s.setReg k v).reg k = v :=
  aget_aset v k _ 0 h

/-- Setting a register leaves every other one. -/
theorem State.reg_setReg_ne (s : State) (k j : Nat) (v : Word) (h : j ≠ k) : (s.setReg k v).reg j = s.reg j :=
  aget_aset_ne _ _ v k j _ h

/-- Setting a register keeps the canonical form. -/
theorem State.setReg_regsWf (s : State) (k : Nat) (v : Word) (h : s.regsWf = true) : (s.setReg k v).regsWf = true :=
  aset_wf v k _ 0 (by omega) h

/-- A counter's rise sets its word and the word of its overflow bit. -/
theorem State.reg_bumpBy_ne (s : State) (off o b n x : Nat) (h : x ≠ off) (h2 : x ≠ o) :
    (s.bumpBy off o b n).reg x = s.reg x := by
  simp only [State.bumpBy]
  split
  · rw [State.setBits, State.reg_setReg_ne _ _ _ _ h2, State.reg_setReg_ne _ _ _ _ h]
  · rw [State.reg_setReg_ne _ _ _ _ h]

/-- A record may set the lost-records bit of YQI_STAT, and no other word. -/
theorem State.reg_log_ne (s : State) (st : Status) (b i0 i1 i2 d n x : Nat) (h : x ≠ yqiBase + 0x1C) :
    (s.log st b i0 i1 i2 d n).reg x = s.reg x := by
  unfold State.log State.logEntry
  split
  · split <;> rfl
  · rename_i hb
    obtain ⟨ev, a0, a1, e⟩ := s.issueSeq_frame
    simp only [e]
    split
    · rw [State.setBits, State.reg_setReg_ne _ _ _ _ h]; rfl
    · rfl

/-- A plain write sets its word; a denied one counts and records the attempt. -/
theorem State.reg_plainWrite_ne (s : State) (off : Nat) (v : Word) (x : Nat) (h : x ≠ off) (h1 : x ≠ yqiBase + 0x1C)
    (h2 : x ≠ regSagQuoinDenied) (h3 : x ≠ regSagOvf) : (s.plainWrite off v).reg x = s.reg x := by
  have hd : ∀ b, (s.quoinDenied off b).reg x = s.reg x := by
    intro b
    simp only [State.quoinDenied]
    split
    · show State.reg (State.log _ _ _ _ _ _ _ _) x = _
      rw [State.reg_log_ne _ _ _ _ _ _ _ _ _ h1]; exact s.reg_bumpBy_ne _ _ _ _ _ h2 h3
    · exact s.reg_bumpBy_ne _ _ _ _ _ h2 h3
  unfold State.plainWrite
  split
  · rfl
  · simp only
    rw [State.reg_setReg_ne _ _ _ _ h]
    split
    · exact hd _
    · rfl

end Sys2Proof.Machine
end

