-- ==== Sys2Proof/Laws/Runs.lean ====
section
/-! SUPPORT. One lemma per shared operation of runs, sync counters and the trace: what it changes, and that it leaves the
rest. -/

namespace Sys2Proof.Machine

/-- One record written takes a number and changes the trace. -/
theorem State.traceOne_frame (s : State) (f : Nat → State → List Byte) : ∃ ob ev nd,
    (s.issueSeq.2).traceWrite (f s.issueSeq.1 s.issueSeq.2) = { s with obs := ob, evt := ev, nand := nd } := by
  obtain ⟨ev, a0, a1, h⟩ := s.issueSeq_frame
  rw [h]
  exact ⟨_, _, _, rfl⟩

/-- A trace record changes the trace, the event numbers, perhaps an anchor record, and the lost-record counter. -/
theorem State.trace_frame (s : State) (ty bit src run fl a0 a1 : Nat) : ∃ ob ev rg nd,
    s.trace ty bit src run fl a0 a1 = { s with obs := ob, evt := ev, regs := rg, nand := nd } := by
  unfold State.trace
  split
  · exact ⟨_, _, _, _, rfl⟩
  · split
    · obtain ⟨rg, h⟩ := s.bumpBy_frame (obsBase + 0x1C) (obsBase + 0x34) 0 1
      simp only [State.bump, h]
      exact ⟨_, _, _, _, rfl⟩
    · split
      · obtain ⟨ob, ev, nd, h⟩ := s.traceOne_frame (fun q u => u.traceBytes q ty src run fl a0 a1)
        exact ⟨ob, ev, s.regs, nd, h⟩
      · obtain ⟨ev, x0, x1, h⟩ := s.issueSeq_frame
        simp only [h]
        refine ⟨_, _, s.regs, _, (State.traceOne_frame _ (fun q u => u.traceBytes q ty src run fl a0 a1)).choose_spec.choose_spec.choose_spec⟩

@[simp] theorem State.trace_mgr (s : State) (a b c d e f g : Nat) : (s.trace a b c d e f g).mgr = s.mgr := by
  obtain ⟨_, _, _, _, h⟩ := s.trace_frame a b c d e f g; rw [h]
@[simp] theorem State.trace_field (s : State) (a b c d e f g : Nat) : (s.trace a b c d e f g).field = s.field := by
  obtain ⟨_, _, _, _, h⟩ := s.trace_frame a b c d e f g; rw [h]
@[simp] theorem State.trace_sync (s : State) (a b c d e f g : Nat) : (s.trace a b c d e f g).sync = s.sync := by
  obtain ⟨_, _, _, _, h⟩ := s.trace_frame a b c d e f g; rw [h]
@[simp] theorem State.trace_streamEng (s : State) (a b c d e f g : Nat) :
    (s.trace a b c d e f g).streamEng = s.streamEng := by
  obtain ⟨_, _, _, _, h⟩ := s.trace_frame a b c d e f g; rw [h]

@[simp] theorem State.trace_ctr (s : State) (a b c d e f g p : Nat) : (s.trace a b c d e f g).ctr p = s.ctr p := by
  obtain ⟨_, _, _, _, h⟩ := s.trace_frame a b c d e f g; rw [h]; rfl

/-- Counting an event changes the field's state only. -/
theorem State.tileEvent_frame (s : State) (r : Run) (t c n : Nat) : ∃ f, s.tileEvent r t c n = { s with field := f } := by
  unfold State.tileEvent
  split
  · exact ⟨_, rfl⟩
  · split
    · exact ⟨_, rfl⟩
    · exact ⟨_, rfl⟩

@[simp] theorem State.tileEvent_sync (s : State) (r : Run) (t c n : Nat) : (s.tileEvent r t c n).sync = s.sync := by
  obtain ⟨_, h⟩ := s.tileEvent_frame r t c n; rw [h]
@[simp] theorem State.tileEvent_mgr (s : State) (r : Run) (t c n : Nat) : (s.tileEvent r t c n).mgr = s.mgr := by
  obtain ⟨_, h⟩ := s.tileEvent_frame r t c n; rw [h]
@[simp] theorem State.tileEvent_now (s : State) (r : Run) (t c n : Nat) : (s.tileEvent r t c n).now = s.now := by
  obtain ⟨_, h⟩ := s.tileEvent_frame r t c n; rw [h]
@[simp] theorem State.tileEvent_ctr (s : State) (r : Run) (t c n p : Nat) : (s.tileEvent r t c n).ctr p = s.ctr p := by
  obtain ⟨_, h⟩ := s.tileEvent_frame r t c n; rw [h]; rfl
@[simp] theorem State.tileEvent_runCounter (s : State) (r q : Run) (t c n k : Nat) :
    (s.tileEvent r t c n).runCounter q k = s.runCounter q k := by
  obtain ⟨_, h⟩ := s.tileEvent_frame r t c n; rw [h]; rfl

theorem find_filter_ne {α : Type} (l : List (Nat × α)) (a b : Nat) (h : a ≠ b) :
    (l.filter (fun x => x.1 != b)).find? (fun x => x.1 == a) = l.find? (fun x => x.1 == a) := by
  induction l with
  | nil => rfl
  | cons y t ih =>
    rw [List.filter_cons]
    by_cases hy : y.1 = a
    · have hb : y.1 ≠ b := fun e => h (hy ▸ e)
      rw [if_pos (by simp [hb]), List.find?_cons_of_pos (by simp [hy]), List.find?_cons_of_pos (by simp [hy])]
    · rw [List.find?_cons_of_neg (by simp [hy])]
      split
      · rw [List.find?_cons_of_neg (by simp [hy])]; exact ih
      · exact ih

theorem find_filter_self {α : Type} (l : List (Nat × α)) (a : Nat) :
    (l.filter (fun x => x.1 != a)).find? (fun x => x.1 == a) = none := by
  rw [List.find?_eq_none]
  intro x hx
  have := (List.mem_filter.mp hx).2
  simpa using this

/-- A counter holds what was last set, and setting it leaves every other counter. -/
theorem State.ctr_setCtr (s : State) (n : Nat) (c : Counter) : (s.setCtr n c).ctr n = c := by
  unfold State.ctr State.setCtr
  by_cases h : c = {}
  · simp only [h, if_true, find_filter_self, Option.map_none, Option.getD_none]
  · simp only [h, if_false, List.find?_append, find_filter_self, Option.none_or, List.find?_cons, beq_self_eq_true,
      Option.map_some, Option.getD_some]

theorem State.ctr_setCtr_ne (s : State) (n m : Nat) (c : Counter) (h : m ≠ n) : (s.setCtr n c).ctr m = s.ctr m := by
  unfold State.ctr State.setCtr
  by_cases h' : c = {}
  · simp only [h', if_true, find_filter_ne _ _ _ h]
  · have hb : (n == m) = false := by simp [Ne.symm h]
    simp only [h', if_false, List.find?_append, find_filter_ne _ _ _ h, List.find?_cons, hb, List.find?_nil,
      Option.or_none]

/-- A tile's state is what was last set, and setting it leaves every other tile. -/
theorem State.tile_setTile (s : State) (n : Nat) (c : TileState) : (s.setTile n c).tile n = c := by
  unfold State.tile State.setTile
  by_cases h : c = {}
  · simp only [h, if_true, find_filter_self, Option.map_none, Option.getD_none]
  · simp only [h, if_false, List.find?_append, find_filter_self, Option.none_or, List.find?_cons, beq_self_eq_true,
      Option.map_some, Option.getD_some]

theorem State.tile_setTile_ne (s : State) (n m : Nat) (c : TileState) (h : m ≠ n) :
    (s.setTile n c).tile m = s.tile m := by
  unfold State.tile State.setTile
  by_cases h' : c = {}
  · simp only [h', if_true, find_filter_ne _ _ _ h]
  · have hb : (n == m) = false := by simp [Ne.symm h]
    simp only [h', if_false, List.find?_append, find_filter_ne _ _ _ h, List.find?_cons, hb, List.find?_nil,
      Option.or_none]

/-- Setting a counter changes the sync counters only. -/
@[simp] theorem State.setCtr_due (s : State) (n : Nat) (c : Counter) : (s.setCtr n c).sync.due = s.sync.due := rfl

/-- The run in a slot after a change of it that keeps its slot. -/
theorem State.runAt_updRun (s : State) (slot : Nat) (f : Run → Run) (hf : ∀ r, (f r).slot = r.slot) :
    (s.updRun slot f).runAt slot = (s.runAt slot).map f := by
  unfold State.runAt State.updRun State.setRuns
  simp only
  induction s.mgr.runs with
  | nil => rfl
  | cons r t ih =>
    rw [List.map_cons, List.find?_cons, List.find?_cons]
    by_cases h : r.slot = slot
    · have h1 : (r.slot == slot) = true := by simp [h]
      simp only [h1, if_true, hf, Option.map_some]
    · have h1 : (r.slot == slot) = false := by simp [h]
      simp only [h1, Bool.false_eq_true, if_false]
      exact ih

/-- The runs in the other slots stay. -/
theorem State.runAt_updRun_ne (s : State) (slot k : Nat) (f : Run → Run) (hf : ∀ r, (f r).slot = r.slot)
    (hk : k ≠ slot) : (s.updRun slot f).runAt k = s.runAt k := by
  unfold State.runAt State.updRun State.setRuns
  simp only
  induction s.mgr.runs with
  | nil => rfl
  | cons r t ih =>
    rw [List.map_cons, List.find?_cons, List.find?_cons]
    by_cases h : r.slot = slot
    · have h1 : (r.slot == slot) = true := by simp [h]
      have h2 : (r.slot == k) = false := by simp [h]; exact Ne.symm hk
      simp only [h1, if_true, hf, h2]
      exact ih
    · have h1 : (r.slot == slot) = false := by simp [h]
      simp only [h1, Bool.false_eq_true, if_false]
      split
      · rfl
      · exact ih

@[simp] theorem State.trace_runAt (s : State) (a b c d e f g k : Nat) : (s.trace a b c d e f g).runAt k = s.runAt k := by
  obtain ⟨_, _, _, _, h⟩ := s.trace_frame a b c d e f g; rw [h]; rfl
@[simp] theorem State.log_runAt (s : State) (st : Status) (b i0 i1 i2 d n k : Nat) :
    (s.log st b i0 i1 i2 d n).runAt k = s.runAt k := by
  unfold State.runAt; rw [State.log_mgr]

/-- Entering a state changes the run in that slot only. -/
theorem State.runAt_runState (s : State) (slot : Nat) (st : RunState) :
    (s.runState slot st).runAt slot = (s.runAt slot).map (fun r => { r with state := st }) := by
  have h := s.runAt_updRun slot (fun r => { r with state := st }) (fun _ => rfl)
  simp only [State.runState]
  split
  · rw [State.trace_runAt]; exact h
  · exact h

theorem State.runAt_runState_ne (s : State) (slot k : Nat) (st : RunState) (hk : k ≠ slot) :
    (s.runState slot st).runAt k = s.runAt k := by
  have h := s.runAt_updRun_ne slot k (fun r => { r with state := st }) (fun _ => rfl) hk
  simp only [State.runState]
  split
  · rw [State.trace_runAt]; exact h
  · exact h

/-- A namespace's bytes do not depend on the field die. -/
theorem State.blocksBytes_field (s : State) (f : Field) (ns n : Nat) : ∀ lba,
    { s with field := f }.blocksBytes ns lba n = s.blocksBytes ns lba n := by
  induction n with
  | zero => intro lba; rfl
  | succ n ih =>
    intro lba
    have h : { s with field := f }.unitSeen ns (lba / 4) = s.unitSeen ns (lba / 4) := rfl
    rw [State.blocksBytes, State.blocksBytes, ih, h]

/-- What a run reads does not depend on the state of the tiles' units. -/
theorem State.vRead_setTile (s : State) (r : Run) (p : Nat) (x : TileState) (n : Nat) : ∀ va,
    (s.setTile p x).vRead r va n = s.vRead r va n := by
  induction n with
  | zero => intro va; rfl
  | succ n ih =>
    intro va
    have hb : (s.setTile p x).vByte r va = s.vByte r va := by
      unfold State.vByte
      cases r.place va with
      | paged =>
        simp only [State.nsBytes]
        unfold State.setTile
        simp only [State.blocksBytes_field]
      | _ => rfl
    rw [State.vRead, State.vRead, ih, hb]

end Sys2Proof.Machine
end

