-- ==== Sys2Proof/Tests/Slice0.lean ====
section
/-! SUPPORT. Checks of the model: ill-formed operands are refused, the hypotheses of the statements can be met, and
single commands do what the spec says on small states. -/

open Sys2Proof Sys2Proof.Machine

set_option linter.unusedVariables false
set_option maxRecDepth 20000
set_option Elab.async false

namespace Sys2Proof.Tests

/-- What holds of the next state of an outcome. -/
def after (o : Host.Outcome State Fault Refusal) (p : State → Bool) : Bool :=
  match o with
  | .next t => p t
  | .fault _ => false
  | .refused _ => false

/-- A part at READY in the state Run. -/
def ready : State := { State.reset with boot := { phase := .ready, resetHeld := false } }

/-- An owner's root key, whose private scalar is 2, and a second key. -/
def rootPoint : List Byte := publicPoint 2
def rootId : Nat := digest8 rootPoint
def otherPoint : List Byte := publicPoint 3

/-- Bytes with the root key's trailer of R339 after them. -/
def signedBy (b : List Byte) : List Byte := b ++ makeTrailer 2 3 rootId b

/-- A signed request as R564 lays it out, with nonce and UID 0. -/
def signedReq (op : Nat) (body : List Byte) : List Byte :=
  signedBy (leBytes 4 0x53524551 ++ leBytes 2 1 ++ leBytes 1 op ++ [0] ++ leBytes 16 0 ++ leBytes 48 0 ++
    leBytes 4 body.length ++ leBytes 4 0 ++ body)

/-- A part that holds the root key. -/
def owned : TrustKept :=
  { lcSlots := [.blank, .provisioned], keys := some { keyId := rootId, point := rootPoint } :: List.replicate 15 none,
    ownerEpoch := 1 }

/-- A Provisioned part with its root key and a signed request under way in mailbox 0. -/
def asked (op : Nat) (body : List Byte) : State :=
  { ready with
    trustKept := owned,
    trust := { mbox0 := { opcode := op, length := 208 + body.length, busy := true, buf := signedReq op body } } }

/-- Media in use: two small blocks, an open band over the first, and namespace 1 of four units. -/
def formatted : State :=
  { ready with
    media := { geometry := { planes := 1, pagesPerBlock := 8, blocksPerPlane := 8 }, state := .ready, mapLoaded := true,
               engineKeys := [(1, 1)],
               usable := [(0, 0)], userCap := 100, rawUnits := 100,
               image := { ns := [{ id := 1, cap := 4, base := 0 }], bands := [{ id := 5, blocks := [16], parity := 24 }] } },
    nand := { anchor0 := some { seq := 1, flushed := false, layout := {}, userCap := 100, ckptSeq := 0, startSeq := 0,
                                image := {}, health := {}, ceiling := 0 } } }

/-- A stream of four slots on namespace 1, or live, with its flags and number. -/
def params (flags id : Nat) : StreamParams :=
  { streamId := id, flags := flags, nsid := 1, descLba := 0, snapshotId := 0, seed := 0, firstEpoch := 0, lastEpoch := 0,
    world := 1, rank := 0, slots := 4, window := 0, budget := 0, witnessNsid := 1, graph := 0, replayFrom := 0, consumer := 1 }

/-- An open stream's context. -/
def ctx (flags id : Nat) : StreamCtx :=
  { isOpen := true, params := params flags id, graph := { fields := [], sections := [] }, formes := 8 }

/-- A running run in slot 0 that holds region 0. -/
def aRun : Run :=
  { slot := 0, state := .running, path := .image, plate := 1, seed := 0, regionMask := 0, slow := false, priority := 1,
    preemptible := true, queue := false, tag := 0, fn := 0, hostBase := 0, hostLength := 0, deviceCount := 1,
    deviceIndex := 0, stackPages := 1, bulkPages := 1, regions := [0], started := 1 }

/-- A part on which that run runs; counter 5 of region 0 is physical counter 5, and binding 0 is shared counter 49152,
a barrier of two parties. -/
def running : State :=
  { ready with power := { doze := 0 }, mgr := { runs := [aRun], stackFree := 100, bulkFree := 100 },
               sync := { ctrs := [(5, { value := 3 }), (49152, { barrier := true, parties := 2, owner := some (.run 0 0) }),
                                  (49153, { gen := 1, owner := some (.run 0 1) })] } }

/-- A table of 100 rows of two FP32 elements. -/
def aTable : EmbTable :=
  { number := 3, fmt := 0x10, nsid := 1, baseLba := 0, rows := 100, dim := 2, stride := 16, optimiser := 1,
    srOnStore := false, indexSkip := false, sat := false, eps := 0, hotMib := 1, warmGib := 1 }

/-- Its row 2, cached, with STEP 0. -/
def aRow : CachedRow := { table := 3, row := 2, bytes := List.replicate 16 0, dirty := false }

/-- A resident program plate on one region. -/
def aPlate : Plate :=
  { digest := 1, kind := 1, regions := 1, slowFire := false, sieve := false, generation := false, ranks := 0,
    sieveCost := 0, length := 4096, stackMin := 1, bulkMin := 1, sections := [], weights := [], maps := [], refs := [],
    graph := none }

/-- A part on which a START can be accepted, and such a START: plate 1, priority 3, one device. -/
def startState : State := { ready with mgr := { plates := [aPlate], stackFree := 10, bulkFree := 40 } }

def startReq : StartReq :=
  { desc := leBytes 8 1 ++ leBytes 8 0 ++ leBytes 8 0 ++ [0, 3] ++ List.replicate 0x22 0 ++ leBytes 4 1 ++
      List.replicate 0x40 0, args := [], tables := [] }

/-- A well-formed program plate of one CODE section under the root key, and a part that holds that key. -/
def plateHead : List Byte :=
  leBytes 4 0x504C4154 ++ leBytes 2 1 ++ leBytes 2 1 ++ leBytes 4 0 ++ [0xA1] ++ leBytes 3 0 ++ leBytes 2 1 ++ leBytes 2 1 ++
  leBytes 12 0 ++ leBytes 8 768 ++ leBytes 8 rootId ++ leBytes 4 1 ++ leBytes 4 1 ++ List.replicate 0xC4 0

def plateImg : List Byte :=
  signedBy (plateHead ++ leBytes 4 (crc32c plateHead) ++
    [1] ++ leBytes 7 0 ++ leBytes 8 512 ++ leBytes 8 128 ++ leBytes 8 0x100010000 ++ List.replicate 224 0 ++
    List.replicate 128 0)

def plateState : State := { ready with trustKept := owned }

/-- Ring 2 of 16 entries in bulk memory, enabled, with one descriptor, a raw DEFLATE decompression. -/
def ringState : State :=
  { ready with regs := [(0x400150, 0x00000064), (0x400154, 1)],
               bulkMem := [(0, 1), (1, 1), (0x10, 8), (0x18, 64), (0x20, 64)] }


/-- A live stream's block on channel 0, and parts on which it opens: with a graph of no stages, or of one stage run that
finds no memory. -/
def liveBlock : List Byte :=
  StreamParams.bytes { params 8 2 with nsid := 0, witnessNsid := 0, graph := 7, consumer := 0 }

def graphPlate (g : Graph) : Plate := { aPlate with digest := 7, kind := 2, graph := some g }

def liveOpen : State :=
  { ready with regs := [(0x510000, 1)], mgr := { plates := [graphPlate { fields := [], sections := [] }] } }

def stageOpen : State :=
  { ready with regs := [(0x510000, 1)],
               mgr := { plates := [aPlate, graphPlate { fields := [], sections := [], stageRuns := [1] }] } }

/-- Stream 9 in context 3 with this context, on a part at READY. -/
def withCtx (x : StreamCtx) : State := { ready with streamEng := { ctxs := [(3, x)] } }

def stageCand : Candidate := { j := 0, folio := 0 }
def stageCtx : StreamCtx := { ctx 0 9 with sampleCount := 32, slots := [{ g := 0, cands := [stageCand] }] }
def decField : GraphField := { tag := 1, cls := .raw, form := { channels := 1, deep := false } }
def decCand : Candidate := { j := 0, folio := 0, stage := 1 }
def decCtx : StreamCtx := { ctx 0 9 with
  sampleCount := 32, graph := { fields := [decField], sections := [] }, slots := [{ g := 0, cands := [decCand] }] }

/-- A candidate before its sieve, and one before a TONE operation, at which it looks up its parameters. -/
def sieveCand : Candidate := { j := 0, folio := 0, stage := 1 }
def sieveCtx : StreamCtx :=
  { ctx 0 9 with sampleCount := 32, slots := [{ g := 0, cands := [sieveCand] }],
                 stageRuns := [0],
                 graph := { fields := [], sections := [], sieve := some { cost := 5, takesUser := false }, stageRuns := [1] } }
def genCtx : StreamCtx :=
  { sieveCtx with graph := { fields := [], sections := [], gen := some 2, stageRuns := [1] } }

/-- A candidate before a TONE operation that has its parameters. -/
def opCand : Candidate := { j := 0, folio := 0, stage := 2, entry := some (List.replicate 64 0) }
def opField : GraphField := { tag := 1, cls := .raw, form := { channels := 3, deep := false }, ops := [.tone] }
def opCtx : StreamCtx :=
  { ctx 0 9 with sampleCount := 32, slots := [{ g := 0, cands := [opCand] }],
                 graph := { fields := [opField], sections := [] } }
def lookCand : Candidate := { j := 0, folio := 0, stage := 2 }
def lookRec : PushRecord := { epoch := 0, folio := 0, entry := List.replicate 64 0 }
def lookCtx : StreamCtx :=
  { ctx 0 9 with sampleCount := 32, slots := [{ g := 0, cands := [lookCand] }], completeEpoch := some 0, pushes := [lookRec],
                 graph := { fields := [{ tag := 1, cls := .raw, form := { channels := 3, deep := false }, ops := [.tone] }],
                            sections := [] } }

/-- A stream whose first forme is complete, with one Forme Read that waits, or with credit on the fabric. -/
def fabCtx : StreamCtx :=
  { ctx 0 9 with sampleCount := 32, limit := 8,
                 slots := (List.range 4).map (fun g => { g := g, cands := [], outcome := some ({ folio := 1 }, []) }) }
def handCtx : StreamCtx :=
  { fabCtx with params := { params 0 9 with consumer := 0 }, formeReads := [.yqi 0 1 5], formeLength := 8192 }

/-- A Forme Read of queue 1 of function 0 that holds forme 0, whose result waits for its CQ entry. -/
def heldCmd : Cmd := { fn := 0, qid := 1, idx := 0, entry := {
  opcode := 0, flags := 0, cid := 5, nsid := 0, arg0 := 0, arg1 := 0, dataAddr := 0, dataLen := 8192, arg2 := 0, arg3 := 0,
  arg4 := 0, reserved := 0 } }
def heldDone : CmdDone := { fn := 0, qid := 1, cid := 5, status := 0, detail := 0, result := [0] }
def heldState : State :=
  { withCtx { handCtx with formeReads := [], held := [{ n := 0, path := some (.yqi 0 1 5), bytes := [] }] } with
    yqi := { admitted := [heldCmd], done := [heldDone] } }

/-- A CREDIT for stream 9 from device 0. -/
def creditMsg : InMsg :=
  { hdr := { kind := 6, device := 0, route := 0, dstQueue := 0xFFFF, srcQueue := 0xFFFF, msgId := 4, length := 0, immediate := 9,
             remoteAddr := 16 },
    attempt := 0, sendTime := 0, path := 0, port := 0, ce := false, payload := [] }

/-- Ingest channel 0 enabled on UDP port 5000 for payload type 96, a packet of it, and its frame. -/
def liveState : State := { ready with regs := [(0x510000, 0x00100181), (0x510004, 5000)] }
def liveFrame : FrameInfo := { port := 0, wire := 100, dscp := 0 }
def livePacket : List Byte := [0x80, 0xE0, 0, 1, 0, 0, 0, 90, 0, 0, 0, 7, 0x65]

/-- A channel with one open unit, for which a later packet has come. -/
def openUnit : OpenUnit := { timestamp := 90, packets := [(1, [0x65])], markerSeq := none, randomAccess := true, laterAt := some 0 }
def openState : State :=
  { liveState with decode := { channels := { ssrc := some 7, units := [openUnit], firstSeq := some 1 } :: List.replicate 63 {} } }

/-- A vocabulary in slot 0, a request for 8 tokens into 64 bytes, and an open generation context of run 0. -/
def aVocab : Vocab :=
  { slot := 0, digest := 1, plate := 1, model := 1, presplit := 0, byteBase := 0, bos := 0xFFFFFFFF, eos := 0xFFFFFFFF,
    pad := 0, flags := 0, unkScore := 0, tokens := [([0x61], 0)], merges := [], scores := [], kib := 1 }
def genReq : List Byte :=
  leBytes 4 0x47454E52 ++ leBytes 2 1 ++ [0, 0] ++ leBytes 8 77 ++ leBytes 8 0 ++ leBytes 4 8 ++ leBytes 4 64 ++ List.replicate 32 0
def aGen : GenCtx :=
  { lane := 1, idx := 2, owner := .run 0, vocab := 0, request := 77, grammar := 0, maxTokens := 8, outCap := 64,
    includeStop := false, addBos := false, stops := [], prompt := [], outAddr := 0, mailboxAddr := 0, maskAddr := 0, runCounter := 0 }
def genState : State := { running with text := { vocabs := [aVocab], gens := [aGen] } }

/-- I/O queue 1 of function 0, with one entry that is not fetched, a function with a coalesced vector, and a frozen queue. -/
def ioQueue : Queue := { fn := 0, qid := 1, depth := 16, sqBase := 4096, cqBase := 8192, vector := 3, irqEn := false, sqTail := 1 }
def yqiState : State := { ready with yqi := { queues := [ioQueue] } }
def aFn : Fn :=
  { g := 0, queues := 16, vectors := 8, unmasked := [3], coalesce := [{ vector := 3, threshold := 8, time := 20, count := 1 }] }
def yqiFrozen : State :=
  { ready with yqi := { queues := [{ ioQueue with frozen := true, resumeHead := 2 }] } }

/-- A configuration image of one QUOIN section of no bits under the root key, staged on a part that holds that key. -/
def configHead : List Byte :=
  leBytes 4 0x43464749 ++ leBytes 2 1 ++ leBytes 2 1 ++ [0xA1, 0, 0, 0] ++ leBytes 4 0 ++ leBytes 8 768 ++ leBytes 8 rootId ++
  List.replicate 0xDC 0
def configImg : List Byte :=
  signedBy (configHead ++ leBytes 4 (crc32c configHead) ++ leBytes 2 8 ++ leBytes 2 0 ++ leBytes 4 8 ++ leBytes 8 512 ++
    List.replicate 240 0 ++ leBytes 8 0 ++ List.replicate 120 0)
def commitState : State := { plateState with yqi := { staging := memWrite [] 0 configImg } }

/-- A Provisioned part with Gnoz enabled and a route 2 to device 5; a SEND packet of four bytes from it to queue 0, and
messages of it. -/
def aRoute : Route :=
  { index := 2, device := 5, remoteSlot := 2, pathMask := 1, flags := 0x71, sportBase := 0, dstPort := 4791, keyId := 0,
    address := List.replicate 16 0, pathPort := List.replicate 8 0, targetDelay := 0 }
def aKey : GnozKey :=
  { index := 1, valid := true, kind := .bulk, base := 64, length := 4096, write := true, read := true, notify := 0, gen := 7,
    registeredAt := 0 }
def gnozState : State :=
  { ready with trustKept := { lcSlots := [.blank, .provisioned] }, regs := [(0xA00004, 0x000112B7)],
               gnoz := { routes := [aRoute], keys := [aKey], started := true } }
def aPacket : GnozPacket :=
  { port := 0, header := gnozHeader 5 { aRoute with device := 0 }
      { kind := 2, device := 0, route := 2, dstQueue := 0, srcQueue := 0, msgId := 3, length := 4 } 0 { attempt := 0, path := 0, time := 0 },
    payload := [1, 2, 3, 4], tag := [], ce := false, dscp := 0, frameBytes := 110 }
def dupState : State :=
  { gnozState with gnoz := { gnozState.gnoz with dups := [{ device := 5, msgId := 3, result := some (0, 0) }] } }
def writeMsg : InMsg :=
  { hdr := { kind := 1, device := 5, route := 2, dstQueue := 0, srcQueue := 0, msgId := 3, length := 4, rkey := 0x10007 },
    attempt := 0, sendTime := 0, path := 0, port := 0, ce := false, payload := [1, 2, 3, 4] }
def writeState : State := { gnozState with gnoz := { gnozState.gnoz with inbox := [writeMsg] } }
def readMsg : InMsg :=
  { writeMsg with hdr := { writeMsg.hdr with kind := 3, length := 0, immediate := 16 }, payload := [] }
def readState : State := { gnozState with gnoz := { gnozState.gnoz with inbox := [readMsg] } }
def ackMsg : InMsg :=
  { writeMsg with hdr := { writeMsg.hdr with kind := 0xC, length := 0, rkey := 0, immediate := 9 }, payload := [] }
def anOut : OutMsg :=
  { hdr := { kind := 1, device := 5, route := 2, dstQueue := 0, srcQueue := 0, msgId := 9, length := 4 }, payload := [1, 2, 3, 4],
    owner := .wr 0 0 1 0 0, minted := true, nextFrag := 1 }

/-- A work request to device 5, and a part whose queue 1 has it next; key 1 selected; a forme whose message ended. -/
def aWr (op : Nat) : WorkReq :=
  { op := op, flags := 0, waitQueue := 0xFFFF, waitCount := 0, dest := 5 * 2 ^ 32 + 2, localAddr := 4096, length := 4, rkey := 0,
    remoteAddr := 0, immediate := 0, replyAddr := 0, replyCap := 0, armTag := 0, checkCtx := 0, reserved := 0 }
def wrState (op : Nat) : State :=
  { gnozState with regs := [(0xA00004, 0x000112B7), (0xA10040, 0x44)],
                   gnoz := { gnozState.gnoz with queues := [{ q := 1, released := [(0, aWr op)] }] } }
def keyState : State :=
  { gnozState with regs := [(0xA00004, 0x000112B7), (0xA00080, 0x00010001)] }
def endedOut : OutMsg := { anOut with owner := .forme 3 0, ended := true }

/-- A group of eight that this device has joined at position 0, all ACTIVE, with group namespace 1 of eight stripes. -/
def aGroup : Group :=
  { self := 0, gen := 3, state := 1, states := List.replicate 8 1 ++ List.replicate 57 0,
    namespaces := [{ nsid := 1, stripes := 8 }] }
def grpState : State :=
  { formatted with regs := [(0xB00000, 0x11)], group := aGroup,
                   gnoz := { routes := [{ aRoute with index := 0 }] }, media := { formatted.media with
      image := { ns := [{ id := 1, cap := 8, base := 0 }], bands := [{ id := 5, blocks := [16], parity := 24 }] } } }
def grpRoomy : State :=
  { grpState with media := { grpState.media with
      geometry := { planes := 4, pagesPerBlock := 1024, blocksPerPlane := 4000 }, rawUnits := 16384000 } }
def aWrite : StripeWrite :=
  { write := 9, path := .yqi 0 1 5, nsid := 1, stripe := 0, shares := [], phase := .forwarded, waiting := [6] }
def aPrep : Prepared := { write := 9, coord := 6, nsid := 1, stripe := 0, share := 0, data := List.replicate 16384 0 }

/-- Port 0 is up with one frame of strict queue 0. -/
def egFrame : Frame := { wire := 84, gnoz := false, send := .ethFrame 0 1 [] }
def egQueueInst : QueueInst := { port := 0, sel := .strict 0, frames := [egFrame] }
def egState : State := { ready with gnoz := { portsUp := [(0, 4)] }, egress := { insts := [egQueueInst] } }

/-- The hypotheses of RegisterWriteSetsUnlockedFields are met, clause by clause. -/
theorem test_meets_RegisterWriteSetsUnlockedFields :
  -- REGISTER_WRITE, a plain word, not locked
  (∃ (s : State) (p : BusPath) (off : Nat) (v : Word) (r : RegRow),
    (s.ready = true) ∧
    (s.mainHeld = false) ∧
    (s.power.state = .run) ∧
    (p ≠ .image) ∧
    (off % 4 = 0) ∧
    (yqiBase ≤ off) ∧
    (off < medBase) ∧
    (findRow off = some r) ∧
    (r.rwq = 0 ∨ s.quoinSet r.quoin = false)) ∧
  -- REGISTER_WRITE, a locked field that would change
  (∃ (s : State) (off : Nat) (v : Word) (r : RegRow),
    (findRow off = some r) ∧
    (r.rwq ≠ 0) ∧
    (s.quoinSet r.quoin = true) ∧
    (r.lockedDiffers (s.reg off) v = true)) ∧
  -- REGISTER_WRITE, the access codes bit by bit
  (∃ (r : RegRow) (locked : Bool) (old new : Word) (i : Nat),
    (i < 32)) ∧
  -- REGISTER_WRITE, 64 bits
  (∃ (s : State) (p : BusPath) (off : Nat) (v h : Word),
    (p ≠ .image) ∧
    (off % 8 = 0)) :=
  ⟨⟨ready, .pcie0, yqiBase + 0x1C, 4, { base := yqiBase + 0x1C, w1c := 7 }, by decide +kernel⟩,
   ⟨{ ready with trust := { quoin := 1 } }, regAonWdtCfg, 1, { base := 48, reset := 65536000, rwq := 4294901763 }, by decide +kernel⟩,
   ⟨{ base := 0, rw := 1 }, false, 0, 1, 0, by decide +kernel⟩,
   ⟨ready, .pcie0, 0, 0, 0, by decide +kernel⟩⟩

/-- The hypotheses of AccessesThatReachNoRegister are met, clause by clause. -/
theorem test_meets_AccessesThatReachNoRegister :
  -- BAD_ACCESS
  (∃ (s : State) (off bytes : Nat),
    (s.ready = true) ∧
    (s.mainHeld = false) ∧
    (s.power.state = .run) ∧
    (accessOk off bytes = false) ∧
    (off < 0x4000000)) ∧
  -- BAD_ACCESS of a size and alignment that BAR0 takes: the read of two consecutive words (R11)
  (∃ (s : State) (off : Nat),
    (s.mainHeld = false) ∧
    (s.power.state = .run) ∧
    (off % 8 = 0) ∧
    (off < 0x50000)) ∧
  -- INACTIVE_TILE_ACCESS
  (∃ (s : State) (p : BusPath) (off : Nat) (v : Word),
    (s.ready = true) ∧
    (s.mainHeld = false) ∧
    (s.power.state = .run) ∧
    (tilBase ≤ off) ∧
    (off < 0x4000000) ∧
    (s.fieldFenced = false) ∧
    (s.regionActive (offTile off / 32) = false) ∧
    (s.power.tripAt = none)) ∧
  -- UNASSIGNED_ACCESS
  (∃ (s : State) (p : BusPath) (off : Nat) (v : Word),
    (s.ready = true) ∧
    (s.mainHeld = false) ∧
    (s.power.state = .run) ∧
    ((0x50000 ≤ off ∧ off < 0x100000) ∨ (0xF00000 ≤ off ∧ off < 0x1000000)) ∧
    (s.rst.unassignedAt = none)) ∧
  -- UNASSIGNED_ACCESS, less than a second after the last record
  (∃ (s : State) (p : BusPath) (off t : Nat) (v : Word),
    (s.ready = true) ∧
    (s.mainHeld = false) ∧
    (s.power.state = .run) ∧
    ((0x50000 ≤ off ∧ off < 0x100000) ∨ (0xF00000 ≤ off ∧ off < 0x1000000)) ∧
    (s.rst.unassignedAt = some t) ∧
    (s.now < t + 1000000000)) ∧
  -- FENCED_DIE_ACCESS, field die, its first record
  (∃ (s : State) (p : BusPath) (off : Nat) (v : Word),
    (s.ready = true) ∧
    (s.mainHeld = false) ∧
    (s.power.state = .run) ∧
    (tilBase ≤ off) ∧
    (off < 0x4000000) ∧
    (s.fieldFenced = true) ∧
    (s.links.fieldLogged = false) ∧
    (s.power.tripAt = none)) ∧
  -- FENCED_DIE_ACCESS, net die, recorded before
  (∃ (s : State) (p : BusPath) (off : Nat) (v : Word),
    (s.ready = true) ∧
    (s.mainHeld = false) ∧
    (s.power.state = .run) ∧
    (egsBase ≤ off) ∧
    (off < grpBase) ∧
    (s.netFenced = true) ∧
    (s.links.netLogged = true) ∧
    (s.power.tripAt = none)) :=
  ⟨⟨ready, 2, 4, by decide +kernel⟩,
   ⟨ready, 0, by decide +kernel⟩,
   ⟨{ ready with fuses := { regionMask := 0 } }, .pcie0, tilBase, 1, by decide +kernel⟩,
   ⟨ready, .pcie0, 0x50000, 1, by decide +kernel⟩,
   ⟨{ ready with rst := { unassignedAt := some 5 }, now := 6 }, .pcie1, 0xFFFFFC, 5, 1, by decide +kernel⟩,
   ⟨{ ready with links := { fm := { state := 2 }, fn := { state := 2 } } }, .sideband, tilBase, 1, by decide +kernel⟩,
   ⟨{ ready with links := { mn := { state := 2 }, fn := { state := 2 }, netLogged := true } }, .pcie0, egsBase, 1, by decide +kernel⟩⟩

/-- The hypotheses of SidebandAndDebugAccess are met, clause by clause. -/
theorem test_meets_SidebandAndDebugAccess :
  -- SMB_READ, out of reach or unaligned
  (∃ (s : State) (answered : Bool),
    (s.sideband.offset > 0xFFFFFF ∨ s.sideband.offset % 4 ≠ 0)) ∧
  -- SMB_READ of a block that answers
  (∃ (s : State) (w : Word) (t : State),
    (smbRange s.sideband.offset = 0) ∧
    (s.busRead .sideband s.sideband.offset = (some w, t))) ∧
  -- SMB_READ, no answer within 1 ms
  (∃ (s : State),
    (smbRange s.sideband.offset = 0) ∧
    (sagBase ≤ s.sideband.offset)) ∧
  -- SMB_WRITE
  (∃ (s : State) (off v : Word),
    (off.toNat ≤ 0xFFFFFF) ∧
    (off.toNat % 4 = 0)) ∧
  -- SMB_WRITE out of reach or unaligned
  (∃ (s : State) (off v : Word) (pecOk answered : Bool),
    (off.toNat > 0xFFFFFF ∨ off.toNat % 4 ≠ 0)) ∧
  -- SMB_ALERT_RESPONSE
  (∃ (s : State),
    (s.power.wdtWarned = true ∨ s.power.throttle = true ∨ s.trust.mbox1.done = true)) ∧
  -- JTAG_TAP_ACCESS, closed
  (∃ (s : State) (a : JtagAccess),
    (s.jtagOpen a = false)) ∧
  -- JTAG_TAP_ACCESS, an open register write
  (∃ (s : State) (off : Nat) (v : Word),
    (s.lc = .blank ∨ s.lc = .returned ∨ s.trust.debug ≥ 1)) ∧
  -- EVENT_SEQ_CEILING_RAISE
  (∃ (s : State) (c : Nat),
    (s.evt.backup = some c) ∧
    (c ≤ s.evt.next + 2 ^ 32) ∧
    (s.evt.anchor.getD 0 ≤ c)) ∧
  -- EVENT_SEQ_CEILING_RAISE, 2^32 numbers or more left
  (∃ (s : State),
    (s.evt.next + 2 ^ 32 < s.evt.backup.getD 0)) :=
  ⟨⟨{ ready with sideband := { offset := 2 } }, true, by decide +kernel⟩,
   ⟨{ ready with sideband := { offset := 0x30 } }, 65536000, { ready with sideband := { offset := 0x30 } }, by decide +kernel⟩,
   ⟨{ ready with sideband := { offset := sagBase } }, by decide +kernel⟩,
   ⟨ready, 0x30, 0, by decide +kernel⟩,
   ⟨ready, 0x31, 0, true, true, by decide +kernel⟩,
   ⟨{ ready with power := { throttle := true } }, by decide +kernel⟩,
   ⟨{ ready with trustKept := { lcSlots := [.blank, .provisioned, .deployed] } }, .extest, by decide +kernel⟩,
   ⟨ready, 0x30, 0, by decide +kernel⟩,
   ⟨{ ready with evt := { backup := some 100, anchor := some 50 } }, 100, by decide +kernel⟩,
   ⟨{ ready with evt := { backup := some (2 ^ 36) } }, by decide +kernel⟩⟩

/-- The hypotheses of UnsignedMailboxCommands are met, clause by clause. -/
theorem test_meets_UnsignedMailboxCommands :
  -- the end of a request
  (∃ (s : State) (m : Nat) (st : Status) (resp : List Byte),
    (m < 2)) ∧
  -- GET_NONCE
  (∃ (s : State) (m : Nat),
    (s.mboxServes m 0x01 = true) ∧
    ((s.mbox m).length = 0)) ∧
  -- GET_IDENTITY
  (∃ (s : State) (m : Nat),
    (s.mboxServes m 0x02 = true) ∧
    ((s.mbox m).length = 0)) ∧
  -- ATTEST
  (∃ (s : State) (m : Nat) (draws : SignDraws),
    (s.mboxServes m 0x03 = true) ∧
    ((s.mbox m).length = 48) ∧
    (s.trust.zeroised = false) ∧
    (s.trust.pending = false) ∧
    (s.lc ≠ .blank)) ∧
  -- ATTEST, after a zeroisation or in Blank
  (∃ (s : State) (m : Nat) (draws : SignDraws),
    (s.mboxServes m 0x03 = true)) ∧
  -- ZEROISE from a mailbox
  (∃ (s : State) (m : Nat) (key : Word),
    (s.mboxServes m 0x20 = true) ∧
    ((s.mbox m).length = 0)) :=
  ⟨⟨ready, 1, 0, [1], by decide +kernel⟩,
   ⟨{ ready with trust := { mbox1 := { opcode := 1, busy := true } } }, 1, by decide +kernel⟩,
   ⟨{ ready with trust := { mbox0 := { opcode := 2, busy := true } } }, 0, by decide +kernel⟩,
   ⟨{ ready with trustKept := owned, trust := { mbox0 := { opcode := 3, length := 48, busy := true } } }, 0, ⟨1, 2⟩, by decide +kernel⟩,
   ⟨{ ready with trust := { mbox0 := { opcode := 3, length := 48, busy := true } } }, 0, ⟨1, 2⟩, by decide +kernel⟩,
   ⟨{ ready with trust := { mbox0 := { opcode := 0x20, busy := true } } }, 0, 0, by decide +kernel⟩⟩

/-- The hypotheses of SignedRequestsTakeEffect are met, clause by clause. -/
theorem test_meets_SignedRequestsTakeEffect :
  -- INSTALL_KEY
  (∃ (s : State) (m : Nat),
    (s.mboxServes m 0x11 = true) ∧
    (s.sagCheck m 0x11 = 0)) ∧
  -- REMOVE_KEY
  (∃ (s : State) (m : Nat),
    (s.mboxServes m 0x12 = true) ∧
    (s.sagCheck m 0x12 = 0)) ∧
  -- PAIR
  (∃ (s : State) (m : Nat),
    (s.mboxServes m 0x13 = true) ∧
    (s.sagCheck m 0x13 = 0)) ∧
  -- UNPAIR
  (∃ (s : State) (m : Nat),
    (s.mboxServes m 0x14 = true) ∧
    (s.sagCheck m 0x14 = 0)) ∧
  -- DEBUG_UNLOCK, outside Deployed
  (∃ (s : State) (m : Nat),
    (s.mboxServes m 0x15 = true) ∧
    (s.sagCheck m 0x15 = 0) ∧
    (s.lc ≠ .deployed)) ∧
  -- DEBUG_UNLOCK in Deployed zeroises first
  (∃ (s : State) (m : Nat),
    (s.mboxServes m 0x15 = true) ∧
    (s.sagCheck m 0x15 = 0) ∧
    (s.lc = .deployed)) ∧
  -- LC_TRANSITION from Blank or Returned to Provisioned (R572, R574)
  (∃ (s : State) (m : Nat),
    (s.mboxServes m 0x10 = true) ∧
    (s.sagCheck m 0x10 = 0) ∧
    (leField (s.sagBody m) 1 1 = 1) ∧
    (s.lc = .blank ∨ s.lc = .returned)) ∧
  -- LC_TRANSITION to Deployed
  (∃ (s : State) (m : Nat) (ok : Bool),
    (s.mboxServes m 0x10 = true) ∧
    (s.sagCheck m 0x10 = 0) ∧
    (leField (s.sagBody m) 1 1 = 2)) :=
  ⟨⟨asked 0x11 ([1, 0, 0, 0] ++ otherPoint), 0, by decide +kernel⟩,
   ⟨asked 0x12 [15], 0, by decide +kernel⟩,
   ⟨asked 0x13 (leBytes 4 4095 ++ leBytes 4 5 ++ leBytes 4 0 ++ otherPoint), 0, by decide +kernel⟩,
   ⟨asked 0x14 (leBytes 4 1), 0, by decide +kernel⟩,
   ⟨asked 0x15 [1], 0, by decide +kernel⟩,
   ⟨{ asked 0x15 [2] with trustKept := { owned with lcSlots := [.blank, .provisioned, .deployed] } }, 0, by decide +kernel⟩,
   ⟨{ asked 0x10 ([0, 1, 0, 0] ++ rootPoint) with trustKept := {} }, 0, by decide +kernel⟩,
   ⟨asked 0x10 [1, 2, 0, 0], 0, true, by decide +kernel⟩⟩

/-- The hypotheses of SignedRequestsRefused are met, clause by clause. -/
theorem test_meets_SignedRequestsRefused :
  -- what a refusal leaves
  (∃ (s : State) (m : Nat) (st : Status),
    (m < 2)) ∧
  -- a key record that no block accepts
  (∃ (s : State) (m : Nat),
    (s.mboxServes m 0x11 = true) ∧
    (s.sagCheck m 0x11 = 0)) :=
  ⟨⟨ready, 0, 0x0F02, by decide +kernel⟩,
   ⟨asked 0x11 ([1, 0, 0, 0] ++ otherPoint), 0, by decide +kernel⟩⟩

/-- The hypotheses of QuoinBitsAndTimeFloor are met, clause by clause. -/
theorem test_meets_QuoinBitsAndTimeFloor :
  -- TIME_FLOOR_UPDATE, valid time
  (∃ (s : State),
    (s.gnozTimeValid = true)) ∧
  -- TIME_FLOOR_UPDATE, time not valid
  (∃ (s : State),
    (s.gnozTimeValid = false)) :=
  ⟨⟨{ ready with gnoz := { timeSet := true }, now := 5000000000 }, by decide +kernel⟩,
   ⟨ready, by decide +kernel⟩⟩

/-- The hypotheses of DieLinksAndClocks are met, clause by clause. -/
theorem test_meets_DieLinksAndClocks :
  -- LINK_RETRAIN_DONE, the link comes up or retrains again
  (∃ (s : State) (l : DieLink) (ok : Bool),
    ((s.links.get l).state = 1 ∨ (s.links.get l).state = 3) ∧
    (((s.links.get l).retrained s.now ok).state ≠ 2) ∧
    (s.fieldFenced = false) ∧
    (s.netFenced = false)) ∧
  -- LINK_RETRAIN_DONE, the link fails and no die is lost by it
  (∃ (s : State) (l : DieLink) (ok : Bool),
    ((s.links.get l).state = 1 ∨ (s.links.get l).state = 3) ∧
    (((s.links.get l).retrained s.now ok).state = 2) ∧
    (State.fieldFenced { s with links := s.links.set l { state := 2 } } = s.fieldFenced) ∧
    (State.netFenced { s with links := s.links.set l { state := 2 } } = s.netFenced)) ∧
  -- PLL_UNLOCK
  (∃ (s : State) (pll : Nat),
    (s.power.pllDown.any (fun p => p.1 == pll) = false)) ∧
  -- PLL_RELOCK, locked again: the links of its die retrain
  (∃ (s : State) (pll die n : Nat),
    (s.power.pllDown.find? (fun p => p.1 == pll) = some (pll, n)) ∧
    (n < 16)) ∧
  -- PLL_RELOCK that fails is counted
  (∃ (s : State) (pll die n : Nat),
    (s.power.pllDown.find? (fun p => p.1 == pll) = some (pll, n))) :=
  ⟨⟨ready, .fm, true, by decide +kernel⟩,
   ⟨{ ready with links := { fm := { state := 1, failRun := 2 } } }, .fm, false, by decide +kernel⟩,
   ⟨ready, 7, by decide +kernel⟩,
   ⟨{ ready with power := { pllDown := [(3, 15)] } }, 3, 2, 15, by decide +kernel⟩,
   ⟨{ ready with power := { pllDown := [(3, 15)] } }, 3, 2, 15, by decide +kernel⟩⟩

/-- The hypotheses of PowerStatesChange are met, clause by clause. -/
theorem test_meets_PowerStatesChange :
  -- IDLE_REQUEST, refused
  (∃ (s : State) (d : Nat),
    (s.power.state = .run) ∧
    (s.idleBlocker true = some d)) ∧
  -- IDLE_REQUEST, granted
  (∃ (s : State),
    (s.power.state = .run) ∧
    (s.idleBlocker true = none)) ∧
  -- IDLE_ENTERED
  (∃ (s : State),
    (s.power.state = .enteringIdle)) ∧
  -- OFF_FLUSH_DONE
  (∃ (s : State),
    (s.power.offPending = true) ∧
    (s.power.mainOff = false)) ∧
  -- WAKE_EVENT in Idle and during entry
  (∃ (s : State) (c : WakeCause),
    (c ≠ .watchdogProbe ∨ s.regFld regAonWdtCfg 0 2 ≠ 0)) ∧
  -- WAKE_COMPLETE
  (∃ (s : State),
    (s.power.state = .waking)) ∧
  -- REGION_DOZE
  (∃ (s : State) (r : Nat),
    (s.regionActive r = true) ∧
    (s.regionOwner r = none) ∧
    (s.power.doze.getLsbD r = false)) ∧
  -- REGION_WAKE_DONE
  (∃ (s : State) (r : Nat),
    (s.power.waking.getLsbD r = true)) :=
  ⟨⟨{ ready with media := { sanitize := some { action := 1 } } }, 3, by decide +kernel⟩,
   ⟨ready, by decide +kernel⟩,
   ⟨{ ready with power := { state := .enteringIdle } }, by decide +kernel⟩,
   ⟨{ ready with power := { offPending := true } }, by decide +kernel⟩,
   ⟨{ ready with power := { state := .idle } }, .pwrFail, by decide +kernel⟩,
   ⟨{ ready with power := { state := .waking } }, by decide +kernel⟩,
   ⟨{ ready with power := { doze := 0 } }, 47, by decide +kernel⟩,
   ⟨{ ready with power := { waking := 1 } }, 0, by decide +kernel⟩⟩

/-- The hypotheses of WatchdogExpires are met, clause by clause. -/
theorem test_meets_WatchdogExpires :
  -- WDT_EXPIRY, the first
  (∃ (s : State) (d : Nat),
    (s.power.wdtDeadline = some d) ∧
    (s.power.wdtWarned = false)) ∧
  -- WDT_EXPIRY with WARNED set
  (∃ (s : State) (d : Nat),
    (s.power.wdtDeadline = some d) ∧
    (s.power.wdtWarned = true)) :=
  ⟨⟨{ ready with power := { wdtDeadline := some 5 } }, 5, by decide +kernel⟩,
   ⟨{ ready with power := { wdtDeadline := some 5, wdtWarned := true } }, 5, by decide +kernel⟩⟩

/-- The hypotheses of WatchdogIsSetAndFed are met, clause by clause. -/
theorem test_meets_WatchdogIsSetAndFed :
  -- AON_WDT_CFG_WRITE
  (∃ (s : State) (v : Word),
    (s.quoinSet 0 = false)) ∧
  -- WDT_PROBE in mode 2
  (∃ (s : State) (field media net : Bool),
    (s.regFld regAonWdtCfg 0 2 = 2)) :=
  ⟨⟨ready, 0x000A0001, by decide +kernel⟩,
   ⟨{ ready with regs := [(48, 65536002)] }, true, true, true, by decide +kernel⟩⟩

/-- The hypotheses of PowerAndThermalLimits are met, clause by clause. -/
theorem test_meets_PowerAndThermalLimits :
  -- POWER_SAMPLE of at least BURST
  (∃ (s : State) (total tiles : Nat),
    (total ≥ s.regFld regPwrLimit 16 12)) ∧
  -- POWER_SAMPLE, 10 ms above SUSTAINED
  (∃ (s : State) (total tiles : Nat),
    (total < s.regFld regPwrLimit 16 12) ∧
    (total > s.regFld regPwrLimit 0 12) ∧
    (s.power.overSamples ≥ 999)) ∧
  -- POWER_SAMPLE that permits a rise after a cut
  (∃ (s : State) (total tiles : Nat),
    (total < s.regFld regPwrLimit 16 12) ∧
    (total ≤ s.regFld regPwrLimit 0 12) ∧
    (s.power.limMhz < 1600) ∧
    (s.power.limTicks ≥ 99) ∧
    (total * s.power.tileMhz + tiles * 50 ≤ s.regFld regPwrLimit 0 12 * s.power.tileMhz)) ∧
  -- a cut of the limiter
  (∃ (s : State),
    (s.power.limMhz ≠ 800) ∧
    (s.power.limitLoggedAt = none)) ∧
  -- THERMAL_SAMPLE of 100 degrees or more, while throttled
  (∃ (s : State) (temps : List Nat),
    ((hottestOf 0 temps (0, 0)).1 ≥ 100) ∧
    (s.power.throttle = true)) ∧
  -- THERMAL_SAMPLE that enters the throttle below 100 degrees
  (∃ (s : State) (temps : List Nat),
    ((hottestOf 0 temps (0, 0)).1 ≥ 95) ∧
    ((hottestOf 0 temps (0, 0)).1 < 100) ∧
    (s.power.throttle = false) ∧
    (s.power.thermLoggedAt = none) ∧
    (s.power.state = .run)) ∧
  -- THERMAL_TRIP
  (∃ (s : State) (diode : Nat),
    (s.power.tripAt = none)) ∧
  -- THERMAL_TRIP, no run active and the sequencer not run yet
  (∃ (s : State) (diode : Nat),
    (s.power.tripAt = none) ∧
    (s.power.state = .run) ∧
    (s.mgr.runs = []) ∧
    (s.media.lgActive = false) ∧
    (s.media.lgDone = false) ∧
    (diode < 12)) ∧
  -- TRIP_POWER_OFF
  (∃ (s : State) (t0 : Nat),
    (s.power.tripAt = some t0) ∧
    (s.power.mainOff = false)) ∧
  -- PWR_CONFIG_WRITE, clock cap
  (∃ (s : State) (v : Word),
    (s.quoinSet 3 = false)) :=
  ⟨⟨ready, 3100, 2000, by decide +kernel⟩,
   ⟨{ ready with power := { overSamples := 999 } }, 3020, 2149, by decide +kernel⟩,
   ⟨{ ready with power := { limMhz := 1350, tileMhz := 1350, limTicks := 99 } }, 2684, 1813, by decide +kernel⟩,
   ⟨ready, by decide +kernel⟩,
   ⟨{ ready with power := { throttle := true } }, [100, 20], by decide +kernel⟩,
   ⟨ready, [96], by decide +kernel⟩,
   ⟨ready, 11, by decide +kernel⟩,
   ⟨ready, 11, by decide +kernel⟩,
   ⟨{ ready with power := { tripAt := some 0 } }, 0, by decide +kernel⟩,
   ⟨ready, 0x03200000, by decide +kernel⟩⟩

/-- The hypotheses of PackageResetIsAccepted are met, clause by clause. -/
theorem test_meets_PackageResetIsAccepted :
  -- RESET_N_ASSERT, accepted
  (∃ (s : State) (ns pages : Nat) (flushed : Bool),
    (ns ≥ 10000) ∧
    (s.boot.resetHeld = false) ∧
    (s.boot.porHeld = false)) ∧
  -- RESET_N_ASSERT, not accepted
  (∃ (s : State) (ns pages : Nat) (refclk flushed : Bool),
    (ns < 1000 ∨ refclk = false ∨ s.boot.resetHeld = true ∨ s.boot.porHeld = true)) ∧
  -- POWER_LOSS
  (∃ (s : State) (vbat gaspDone : Bool) (pages : Nat),
    (s.media.lgActive = false)) :=
  ⟨⟨ready, 10000, 0, true, by decide +kernel⟩,
   ⟨ready, 999, 0, true, true, by decide +kernel⟩,
   ⟨ready, false, true, 0, by decide +kernel⟩⟩

/-- The hypotheses of ResetSequenceReachesReady are met, clause by clause. -/
theorem test_meets_ResetSequenceReachesReady :
  -- RESET_RELEASE to READY
  (∃ (s : State) (b : BootInputs),
    (s.boot.resetHeld = true) ∧
    (s.boot.porHeld = false) ∧
    (b.trim = 1 ∨ b.trim = 2 ∨ b.trim = 3) ∧
    (b.reach = .ready)) ∧
  -- RESET_RELEASE, trim fault
  (∃ (s : State) (b : BootInputs),
    (s.boot.resetHeld = true) ∧
    (s.boot.porHeld = false) ∧
    (b.trim = 0)) ∧
  -- RESET_RELEASE cut off in step 4
  (∃ (s : State) (b : BootInputs),
    (s.boot.resetHeld = true) ∧
    (s.boot.porHeld = false) ∧
    (b.trim = 1) ∧
    (b.reach = .trim)) ∧
  -- RESET_RELEASE with nothing held
  (∃ (s : State) (b : BootInputs),
    (s.boot.resetHeld = false ∨ s.boot.porHeld = true)) ∧
  -- what trim load takes from the fuses (R5, R590)
  (∃ (s : State) (b : BootInputs),
    (b.fuses.wf = true)) ∧
  -- the numbering of step 9
  (∃ (s : State) (b : BootInputs),
    (s.errlog.held = [])) :=
  ⟨⟨State.reset, {}, by decide +kernel⟩,
   ⟨State.reset, { trim := 0 }, by decide +kernel⟩,
   ⟨State.reset, { reach := .trim }, by decide +kernel⟩,
   ⟨ready, {}, by decide +kernel⟩,
   ⟨State.reset, {}, by decide +kernel⟩,
   ⟨ready, {}, by decide +kernel⟩⟩

/-- The hypotheses of SoftResetsOfBlocksAndUnits are met, clause by clause. -/
theorem test_meets_SoftResetsOfBlocksAndUnits :
  -- UNIT_SOFT_RESET, started
  (∃ (s : State) (cls index block n : Nat),
    (s.rst.unit = none) ∧
    (unitClass cls = some (block, n)) ∧
    (index < n)) ∧
  -- UNIT_SOFT_RESET, discarded
  (∃ (s : State) (cls index : Nat),
    (s.rst.unit ≠ none ∨ cls = 0 ∨ cls > 10)) ∧
  -- SOFT_RESET_QUIESCED, a block
  (∃ (s : State) (b : Nat),
    (s.rst.blocks.any (fun p => p.1 == b) = true) ∧
    (s.blockIdle b = true)) ∧
  -- SOFT_RESET_QUIESCED, a unit
  (∃ (s : State) (u : UnitReset) (block n : Nat),
    (s.rst.unit = some u) ∧
    (unitClass u.cls = some (block, n)) ∧
    (s.rst.blocks.any (fun p => p.1 == block) = false) ∧
    (s.unitIdle u.cls u.index = true)) ∧
  -- SOFT_RESET_QUIESCED, a tile unit
  (∃ (s : State) (tile bit : Nat),
    (s.tileUnitHeld tile bit = true) ∧
    (s.tileUnitIdle tile bit = true)) ∧
  -- QUIESCE_TIMEOUT, a block
  (∃ (s : State) (b t0 : Nat),
    (s.rst.blocks.find? (fun p => p.1 == b) = some (b, t0))) ∧
  -- QUIESCE_TIMEOUT, a unit
  (∃ (s : State) (u : UnitReset) (block n : Nat),
    (s.rst.unit = some u) ∧
    (unitClass u.cls = some (block, n)) ∧
    (s.rst.blocks.any (fun p => p.1 == block) = false)) ∧
  -- QUIESCE_TIMEOUT, a tile unit
  (∃ (s : State) (tile bit t0 : Nat),
    (s.rst.tiles.find? (fun x => x.1 == tile && x.2.1 == bit) = some (tile, bit, t0))) :=
  ⟨⟨ready, 6, 31, 0, 32, by decide +kernel⟩,
   ⟨ready, 0, 0, by decide +kernel⟩,
   ⟨{ ready with rst := { blocks := [(3, 0)] } }, 3, by decide +kernel⟩,
   ⟨{ ready with rst := { unit := some { cls := 7, index := 1, startedAt := 0 } } }, { cls := 7, index := 1, startedAt := 0 }, 4, 64, by decide +kernel⟩,
   ⟨{ ready with rst := { tiles := [(5, 2, 0)] } }, 5, 2, by decide +kernel⟩,
   ⟨{ ready with rst := { blocks := [(4, 0)] } }, 4, 0, by decide +kernel⟩,
   ⟨{ ready with rst := { unit := some { cls := 6, index := 1, startedAt := 0 } } }, { cls := 6, index := 1, startedAt := 0 }, 0, 32, by decide +kernel⟩,
   ⟨{ ready with rst := { tiles := [(5, 2, 0)] } }, 5, 2, 0, by decide +kernel⟩⟩

/-- The hypotheses of RegionResetAndResetRegisters are met, clause by clause. -/
theorem test_meets_RegionResetAndResetRegisters :
  -- REGION_RESET, started
  (∃ (s : State) (r : Nat),
    (s.rst.region = none) ∧
    (s.regionActive r = true) ∧
    (s.regionOwner r = none)) ∧
  -- REGION_RESET_DONE, completed
  (∃ (s : State) (r : Nat),
    (s.rst.region = some r) ∧
    (s.rst.regionFault = none)) ∧
  -- REGION_RESET_DONE, faulted again
  (∃ (s : State) (r d : Nat),
    (s.rst.region = some r)) ∧
  -- RST_TIMEOUT_WRITE
  (∃ (s : State) (b : Nat) (v : Word),
    (b < 10) ∧
    (s.quoinSet 2 = false)) :=
  ⟨⟨ready, 47, by decide +kernel⟩,
   ⟨{ ready with rst := { region := some 3 } }, 3, by decide +kernel⟩,
   ⟨{ ready with rst := { region := some 3 } }, 3, 1, by decide +kernel⟩,
   ⟨ready, 9, 10, by decide +kernel⟩⟩

/-- The hypotheses of MediaReadsAndCorrection are met, clause by clause. -/
theorem test_meets_MediaReadsAndCorrection :
  -- READ that needs no page
  (∃ (s : State) (p : ReqPath) (nsid lba count : Nat) (ns : NsInfo),
    (s.mediaStopped = false) ∧
    (s.mediaGate = none) ∧
    (s.memberNs nsid = false) ∧
    (s.nsInfo nsid = some ns) ∧
    (1 ≤ count ∧ count ≤ 4096) ∧
    (lba + count ≤ ns.cap * 4) ∧
    (∀ u ∈ unitsTouched lba count, ∀ x, s.pmaOf nsid u = some x → x ∈ s.media.buffered) ∧
    (s.nsReadable nsid (lba * 4096) (count * 4096) = true)) ∧
  -- READ that waits for its pages
  (∃ (s : State) (p : ReqPath) (nsid lba count : Nat) (ns : NsInfo),
    (s.mediaStopped = false) ∧
    (s.mediaGate = none) ∧
    (s.memberNs nsid = false) ∧
    (s.nsInfo nsid = some ns) ∧
    (1 ≤ count ∧ count ≤ 4096) ∧
    (lba + count ≤ ns.cap * 4) ∧
    (((unitsTouched lba count).filterMap (fun u => s.pmaOf nsid u)).eraseDups.filter (fun x => !s.media.buffered.contains x) ≠ [])) ∧
  -- READ, refused
  (∃ (s : State) (p : ReqPath) (nsid lba count len : Nat),
    (s.mediaStopped = false)) ∧
  -- which tier completes a codeword (R110, R116, R117, R135)
  (∃ (s : State) (pma i : Nat) (r : NandResult),
    (s.media.lost.contains (pmaTarget pma) = false) ∧
    (s.keyOk pma = true) ∧
    (s.nand.badBlocks.contains (pma * 4 + i) = false)) ∧
  -- NAND_READ_COMPLETE
  (∃ (s : State) (pma : Nat) (r : NandResult),
    (s.media.reads.any (fun x => x.waiting.contains pma) = true)) ∧
  -- the read that waited for only this page
  (∃ (s : State) (pma : Nat) (x : PendingRead),
    (s.media.reads = [x]) ∧
    (x.waiting = [pma])) ∧
  -- PATROL_READ of a closed block
  (∃ (s : State) (block : Nat) (rs : List (Nat × NandResult)),
    (s.media.image.bands.any (fun x => x.state != .opened && x.blocks.contains block) = true) ∧
    (s.mediaStopped = false) ∧
    (rs.map (·.1) = s.patrolPages block)) :=
  ⟨⟨formatted, .register, 1, 0, 4, { id := 1, cap := 4, base := 0 }, by decide +kernel, by decide +kernel, by decide +kernel, by decide +kernel, by decide +kernel, by decide +kernel, by intro u _ x h; exact absurd h (by simp [State.pmaOf, formatted, natGet]), by decide +kernel⟩,
   ⟨{ formatted with media := { formatted.media with image := { ns := [{ id := 1, cap := 4, base := 0 }], map := [(2 ^ 40, 16)] } } }, .register, 1, 0, 1, { id := 1, cap := 4, base := 0 }, by decide +kernel⟩,
   ⟨ready, .register, 1, 0, 1, 4096, by decide +kernel⟩,
   ⟨formatted, 16, 0, ⟨[[.decoded 1 0]], true, true⟩, by decide +kernel⟩,
   ⟨{ formatted with media := { formatted.media with reads := [{ path := .register, nsid := 1, lba := 0, count := 1, waiting := [16] }] } }, 16, ⟨[], true, true⟩, by decide +kernel⟩,
   ⟨{ formatted with media := { formatted.media with reads := [{ path := .register, nsid := 1, lba := 0, count := 1, waiting := [16] }] } }, 16, { path := .register, nsid := 1, lba := 0, count := 1, waiting := [16] }, by decide +kernel⟩,
   ⟨{ formatted with media := { formatted.media with image := { bands := [{ id := 5, blocks := [16], parity := 24, state := .verified }] } } }, 16, [(16, ⟨[], true, true⟩), (20, ⟨[], true, true⟩), (23, ⟨[], true, true⟩)], by decide +kernel⟩⟩

/-- The hypotheses of MediaWritesAndFlush are met, clause by clause. -/
theorem test_meets_MediaWritesAndFlush :
  -- WRITE
  (∃ (s : State) (p : ReqPath) (nsid lba : Nat) (data : List Byte) (pl : Placement),
    (s.mediaStopped = false) ∧
    (s.admissionHeld = false) ∧
    (s.memberNs nsid = false) ∧
    (s.roomFor (unitsTouched lba (data.length / 4096)).length = true) ∧
    (data.length % 4096 = 0 ∧ 4096 ≤ data.length ∧ data.length ≤ 16777216) ∧
    (s.writeRefusal p nsid lba (data.length / 4096) = none) ∧
    ((s.openBands false pl.bands).placesOk pl.pmas = true) ∧
    (pl.pmas.length = (unitsTouched lba (data.length / 4096)).length) ∧
    ((s.openBands false pl.bands).mergeReads nsid lba (data.length / 4096) = []) ∧
    (∀ u ∈ unitsTouched lba (data.length / 4096), (s.openBands false pl.bands).keptBad nsid lba (data.length / 4096) u = false)) ∧
  -- WRITE whose merges wait for page reads (R125)
  (∃ (s : State) (p : ReqPath) (nsid lba : Nat) (data : List Byte) (pl : Placement) (fua : Bool),
    (s.mediaStopped = false) ∧
    (s.admissionHeld = false) ∧
    (s.memberNs nsid = false) ∧
    (s.roomFor (unitsTouched lba (data.length / 4096)).length = true) ∧
    (data.length % 4096 = 0 ∧ 4096 ≤ data.length ∧ data.length ≤ 16777216) ∧
    (s.writeRefusal p nsid lba (data.length / 4096) = none) ∧
    ((s.openBands false pl.bands).placesOk pl.pmas = true) ∧
    (pl.pmas.length = (unitsTouched lba (data.length / 4096)).length) ∧
    ((s.openBands false pl.bands).mergeReads nsid lba (data.length / 4096) ≠ [])) ∧
  -- WRITE, why it is refused
  (∃ (s : State) (p : ReqPath) (nsid lba count : Nat) (ns : NsInfo),
    (s.mediaGate = none) ∧
    (s.nsInfo nsid = some ns)) ∧
  -- DISCARD
  (∃ (s : State) (p : ReqPath) (nsid lba count : Nat),
    ((s.mediaStopped || s.admissionHeld || s.memberNs nsid) = false) ∧
    (1 ≤ count ∧ count ≤ 16777216) ∧
    (s.writeRefusal p nsid lba count = none)) ∧
  -- what a discarded run of at most 65,535 units leaves
  (∃ (s : State) (ns u n v : Nat),
    (1 ≤ n ∧ n ≤ 65535) ∧
    (u ≤ v ∧ v < u + n) ∧
    (u + n ≤ 2 ^ 40)) ∧
  -- FLUSH
  (∃ (s : State) (p : ReqPath) (nsid : Nat),
    (s.mediaStopped = false) ∧
    (s.mediaGate = none) ∧
    (nsid = 0xFFFFFFFF ∨ (s.nsInfo nsid).isSome = true)) ∧
  -- FLUSH_COMPLETE, one Flush whose condition holds
  (∃ (s : State) (w : DurWait),
    (s.media.waits = [w]) ∧
    (w.kind = .flush) ∧
    (s.durable w = true)) ∧
  -- FLUSH_COMPLETE, nothing durable
  (∃ (s : State) (w : DurWait),
    (s.media.waits = [w]) ∧
    (s.durable w = false)) ∧
  -- PAGE_PROGRAM_DONE of one page
  (∃ (s : State) (pma : Nat) (b : Band),
    (s.media.buffered.contains pma = true) ∧
    (s.media.image.bands = [b]) ∧
    (b.state = .opened ∧ b.blocks.contains (s.blockOf pma) = true ∧ b.programmed.contains pma = false) ∧
    (s.accumulators < 512)) :=
  ⟨⟨formatted, .register, 1, 1, List.replicate 4096 7, { pmas := [17], bands := [] }, by decide +kernel⟩,
   ⟨{ formatted with media := { formatted.media with image := { formatted.media.image with map := [(mapKey 1 0, 16)] } } }, .register, 1, 1, List.replicate 4096 7, { pmas := [17], bands := [] }, false, by decide +kernel⟩,
   ⟨formatted, .register, 1, 0, 1, { id := 1, cap := 4, base := 0 }, by decide +kernel⟩,
   ⟨formatted, .register, 1, 1, 12, by decide +kernel⟩,
   ⟨formatted, 1, 0, 4, 3, by decide +kernel⟩,
   ⟨formatted, .register, 1, by decide +kernel⟩,
   ⟨{ formatted with media := { formatted.media with waits := [{ path := .register, kind := .flush, units := [16], entries := 0 }] } }, { path := .register, kind := .flush, units := [16], entries := 0 }, by decide +kernel⟩,
   ⟨{ formatted with media := { formatted.media with buffered := [16], waits := [{ path := .register, kind := .flush, units := [16], entries := 0 }] } }, { path := .register, kind := .flush, units := [16], entries := 0 }, by decide +kernel⟩,
   ⟨{ formatted with media := { formatted.media with buffered := [16] } }, 16, { id := 5, blocks := [16], parity := 24 }, by decide +kernel⟩⟩

/-- The hypotheses of BandsBlocksAndTargets are met, clause by clause. -/
theorem test_meets_BandsBlocksAndTargets :
  -- BAND_VERIFY_DONE
  (∃ (s : State) (id : Nat) (b : Band) (weak : List WeakPage),
    (s.media.image.bands.find? (fun x => x.id == id) = some b) ∧
    (b.state = .unverified) ∧
    (s.mediaStopped = false) ∧
    (s.verifyOk b weak = true)) ∧
  -- a weak page of a band's read-back
  (∃ (s : State) (w : WeakPage) (ns u : Nat),
    (s.unitAt w.pma = some (ns, u))) ∧
  -- PROGRAM_FAIL
  (∃ (s : State) (pma : Nat) (dests : List Nat),
    (s.nand.retired.contains (s.blockOf pma) = false) ∧
    (s.placesFree dests = true) ∧
    (((s.unitsIn (s.blockOf pma)).filter (fun e => s.unitGood e.2)).length = dests.length) ∧
    (∀ d ∈ dests, (s.bandOf (s.blockOf d)).map (·.id) ≠ (s.bandOf (s.blockOf pma)).map (·.id))) ∧
  -- TARGET_LOST
  (∃ (s : State) (c t : Nat),
    (s.media.usable.contains (c, t) = true)) :=
  ⟨⟨{ formatted with media := { formatted.media with image := { bands := [{ id := 5, blocks := [16], parity := 24, state := .unverified }] } } }, 5, { id := 5, blocks := [16], parity := 24, state := .unverified }, [], by decide +kernel⟩,
   ⟨{ formatted with media := { formatted.media with image := { formatted.media.image with map := [(mapKey 1 0, 16)] } } }, { pma := 16, result := ⟨[], true, true⟩, dest := 17 }, 1, 0, by decide +kernel⟩,
   ⟨formatted, 9, [], by decide +kernel⟩,
   ⟨formatted, 0, 0, by decide +kernel⟩⟩

/-- The hypotheses of JournalAndCheckpoints are met, clause by clause. -/
theorem test_meets_JournalAndCheckpoints :
  -- JOURNAL_TAIL_TIMEOUT
  (∃ (s : State) (e : JEntry) (es : List JEntry),
    (s.media.tail = e :: es)) ∧
  -- the programming of the tail
  (∃ (s : State),
    (s.media.tail ≠ [])) ∧
  -- a journaled entry
  (∃ (s : State) (e : JEntry),
    (s.media.tail.length < 1019)) ∧
  -- JOURNAL_PAGE_COMMIT, the other copy has passed
  (∃ (s : State) (pg : JPage) (rest : List JPage),
    (s.media.programming = pg :: rest) ∧
    (pg.passed0 = true)) ∧
  -- JOURNAL_PAGE_COMMIT, the first copy passes
  (∃ (s : State) (pg : JPage) (rest : List JPage),
    (s.media.programming = pg :: rest) ∧
    (pg.passed0 = false)) ∧
  -- a journal entry reads back
  (∃ (e : JEntry),
    (e.fits = true)) ∧
  -- a journal page reads back
  (∃ (seq evt ckpt : Nat) (es : List JEntry),
    (seq < 2 ^ 64) ∧
    (evt < 2 ^ 64) ∧
    (ckpt < 2 ^ 64) ∧
    (1 ≤ es.length) ∧
    (es.length ≤ 1020) ∧
    (es.all JEntry.fits = true)) ∧
  -- CHECKPOINT_START at the journal limit
  (∃ (s : State),
    (s.media.ckpt = none) ∧
    (s.mediaStopped = false) ∧
    (s.media.mapLoaded = true) ∧
    (s.media.sanitize = none) ∧
    (s.media.ckptBytes ≥ s.regFld mapBase 0 4 * 2 ^ 30)) ∧
  -- CHECKPOINT_START at the time limit
  (∃ (s : State),
    (s.media.ckpt = none) ∧
    (s.mediaStopped = false) ∧
    (s.media.mapLoaded = true) ∧
    (s.media.sanitize = none) ∧
    (s.media.ckptBytes < s.regFld mapBase 0 4 * 2 ^ 30)) ∧
  -- CHECKPOINT_DONE
  (∃ (s : State) (dir : Nat) (places : List Nat) (k : Checkpoint),
    (s.media.ckpt = some k) ∧
    (s.mediaStopped = false) ∧
    (s.media.mapLoaded = true) ∧
    (places.length = k.segments.length) ∧
    (s.placesFree places = true)) ∧
  -- the anchor record
  (∃ (s : State) (flushed : Bool) (img : MediaImage) (start : Nat) (a b : Anchor),
    (s.nand.anchor0 = some a) ∧
    (s.nand.anchor1 = some b)) ∧
  -- CHECKPOINT_STALL
  (∃ (s : State),
    (s.media.stalled = false) ∧
    (s.media.journalBytes ≥ 12 * 2 ^ 30)) :=
  ⟨⟨{ formatted with media := { formatted.media with tail := [.nsSeal 1] } }, .nsSeal 1, [], by decide +kernel⟩,
   ⟨{ formatted with media := { formatted.media with tail := [.nsSeal 1] } }, by decide +kernel⟩,
   ⟨formatted, .nsSeal 1, by decide +kernel⟩,
   ⟨{ formatted with media := { formatted.media with programming := [{ seq := 0, evt := 1, ckpt := 0, entries := [], passed0 := true }] } }, { seq := 0, evt := 1, ckpt := 0, entries := [], passed0 := true }, [], by decide +kernel⟩,
   ⟨{ formatted with media := { formatted.media with programming := [{ seq := 0, evt := 1, ckpt := 0, entries := [] }] } }, { seq := 0, evt := 1, ckpt := 0, entries := [] }, [], by decide +kernel⟩,
   ⟨JEntry.map 256 (2 ^ 40 - 1) 65535 (2 ^ 40 - 1), by decide +kernel⟩,
   ⟨2 ^ 64 - 1, 1, 0, [.nsSeal 1], by decide +kernel⟩,
   ⟨{ formatted with media := { formatted.media with ckptBytes := 2 ^ 34 } }, by decide +kernel⟩,
   ⟨formatted, by decide +kernel⟩,
   ⟨{ formatted with media := { formatted.media with ckpt := some { image := {}, start := 0, segments := [] } } }, 9, [], { image := {}, start := 0, segments := [] }, by decide +kernel⟩,
   ⟨{ formatted with nand := { formatted.nand with anchor1 := formatted.nand.anchor0 } }, true, {}, 0, { seq := 1, flushed := false, layout := {}, userCap := 100, ckptSeq := 0, startSeq := 0, image := {}, health := {}, ceiling := 0 }, { seq := 1, flushed := false, layout := {}, userCap := 100, ckptSeq := 0, startSeq := 0, image := {}, health := {}, ceiling := 0 }, by decide +kernel⟩,
   ⟨{ formatted with media := { formatted.media with journalBytes := 12 * 2 ^ 30 } }, by decide +kernel⟩⟩

/-- The hypotheses of GarbageCollectionAndLastGasp are met, clause by clause. -/
theorem test_meets_GarbageCollectionAndLastGasp :
  -- GC_BLOCK_START, the relocation queue first
  (∃ (s : State) (b : Nat),
    (s.media.relocate = [b]) ∧
    (s.media.gc = []) ∧
    ((s.media.image.bands.filter (fun x => x.state == .unverified)) = []) ∧
    (s.media.segments = []) ∧
    (s.unitsIn b = []) ∧
    (s.mediaStopped = false) ∧
    (s.media.sanitize = none) ∧
    (s.accumulators ≤ 512)) ∧
  -- GC_BLOCK_START, the units it copies
  (∃ (s : State) (src : Nat) (pl : Placement),
    (s.gcNext = some src) ∧
    (s.mediaStopped = false) ∧
    (s.media.sanitize = none) ∧
    (((s.unitsIn src).filter (fun e => s.unitGood e.2)).length = pl.pmas.length) ∧
    ((s.openBands true pl.bands).placesOk pl.pmas true = true) ∧
    (s.accumulators + pl.pmas.length ≤ 512)) ∧
  -- what garbage collection takes next
  (∃ (s : State) (b : Nat),
    (s.gcNext = some b)) ∧
  -- GC_VERIFY_DONE
  (∃ (s : State) (src : Nat) (j : GcJob),
    (s.media.gc.find? (fun x => x.src == src) = some j) ∧
    (j.phase = .copying) ∧
    (s.mediaStopped = false)) ∧
  -- a copied unit at the commit
  (∃ (s : State) (src ns u p p' : Nat),
    (s.pmaOf ns u = some p')) ∧
  -- GC_ERASE
  (∃ (s : State) (src : Nat) (j : GcJob),
    (s.media.gc.find? (fun x => x.src == src) = some j) ∧
    (j.phase = .committing) ∧
    (j.needs ≤ s.media.committed) ∧
    (s.media.reads.any (fun r => r.waiting.any (fun p => s.blockOf p == src)) = false) ∧
    (s.mediaStopped = false)) ∧
  -- GC_ERASE before its release is committed
  (∃ (s : State) (src : Nat) (j : GcJob),
    (s.media.gc.find? (fun x => x.src == src) = some j) ∧
    (s.media.committed < j.needs)) ∧
  -- LAST_GASP_DONE
  (∃ (s : State) (us : Nat),
    (s.media.lgActive = true)) ∧
  -- LAST_GASP_RESET_REQUEST
  (∃ (s : State),
    (s.media.lgDone = true)) :=
  ⟨⟨{ formatted with media := { formatted.media with relocate := [8] } }, 8, by decide +kernel⟩,
   ⟨{ formatted with media := { formatted.media with relocate := [8] } }, 8, { pmas := [], bands := [] }, by decide +kernel⟩,
   ⟨{ formatted with media := { formatted.media with relocate := [8] } }, 8, by decide +kernel⟩,
   ⟨{ formatted with media := { formatted.media with gc := [{ src := 8, copies := [] }] } }, 8, { src := 8, copies := [] }, by decide +kernel⟩,
   ⟨{ formatted with media := { formatted.media with image := { map := [(mapKey 1 0, 16)] } } }, 16, 1, 0, 17, 16, by decide +kernel⟩,
   ⟨{ formatted with media := { formatted.media with gc := [{ src := 8, copies := [], phase := .committing }] } }, 8, { src := 8, copies := [], phase := .committing }, by decide +kernel⟩,
   ⟨{ formatted with media := { formatted.media with gc := [{ src := 8, copies := [], phase := .committing, needs := 1 }] } }, 8, { src := 8, copies := [], phase := .committing, needs := 1 }, by decide +kernel⟩,
   ⟨{ formatted with media := { formatted.media with lgActive := true, buffered := [16] } }, 900, by decide +kernel⟩,
   ⟨{ formatted with media := { formatted.media with lgDone := true } }, by decide +kernel⟩⟩

/-- The hypotheses of SanitizeErasesEverything are met, clause by clause. -/
theorem test_meets_SanitizeErasesEverything :
  -- SANITIZE_CRYPTO, SANITIZE_BLOCK and SANITIZE_FORMAT
  (∃ (s : State) (p : ReqPath),
    (s.mediaStopped = false) ∧
    (s.sanitizeRefusal 0xFFFFFFFF 1 = none)) ∧
  -- SANITIZE refused, and failed for want of a key record
  (∃ (s : State) (p : ReqPath) (nsid : Nat) (st : Status),
    (s.mediaStopped = false)) ∧
  -- SANITIZE_TARGET_DONE, more targets to come
  (∃ (s : State) (j : SanitizeJob) (c : Nat × Nat) (f : Nat),
    (s.media.sanitize = some j) ∧
    (s.mediaStopped = false) ∧
    (s.sanitizeNext j = some c) ∧
    ((s.sanitizeNext { j with last := some (targetIndex c) }).isSome = true)) ∧
  -- SANITIZE_TARGET_DONE, the last target
  (∃ (s : State) (j : SanitizeJob) (c : Nat × Nat) (f : Nat),
    (s.media.sanitize = some j) ∧
    (s.mediaStopped = false) ∧
    (s.sanitizeNext j = some c) ∧
    (s.sanitizeNext { j with last := some (targetIndex c) } = none)) ∧
  -- a target's erasure
  (∃ (s : State) (c : Nat × Nat) (a : Nat),
    ((c.1 * 2 ^ 34 + c.2 * 2 ^ 30) * 16384 ≤ a) ∧
    (a < (c.1 * 2 ^ 34 + c.2 * 2 ^ 30 + 2 ^ 30) * 16384)) :=
  ⟨⟨formatted, .register, by decide +kernel⟩,
   ⟨formatted, .register, 1, 0x0101, by decide +kernel⟩,
   ⟨{ formatted with media := { formatted.media with usable := [(0, 0), (1, 0)], sanitize := some { action := 2 } } }, { action := 2 }, (0, 0), 0, by decide +kernel⟩,
   ⟨{ formatted with media := { formatted.media with sanitize := some { action := 3 } } }, { action := 3 }, (0, 0), 4, by decide +kernel⟩,
   ⟨formatted, (0, 0), 5, by decide +kernel⟩⟩

/-- The hypotheses of NamespaceFeaturesAndMediaRegisters are met, clause by clause. -/
theorem test_meets_NamespaceFeaturesAndMediaRegisters :
  -- NS_CREATE
  (∃ (s : State) (p : ReqPath) (nsid cap : Nat),
    (s.nsCreateRefusal p nsid cap true = none) ∧
    (s.mediaStopped = false)) ∧
  -- NS_CREATE, its refusals in order
  (∃ (s : State) (nsid cap : Nat) (k : Bool),
    (s.nsGate true = none) ∧
    (s.memberNs nsid = false) ∧
    (s.mediaStopped = false)) ∧
  -- NS_DELETE
  (∃ (s : State) (p : ReqPath) (nsid : Nat),
    (s.nsDeleteRefusal p nsid true = none) ∧
    (s.mediaStopped = false)) ∧
  -- NS_DELETE of a namespace in use
  (∃ (s : State) (nsid : Nat) (x : NsInfo) (k : Bool),
    (s.nsGate true = none) ∧
    (s.memberNs nsid = false) ∧
    (s.nsInfo nsid = some x) ∧
    (s.streamWitness nsid = true) ∧
    (s.mediaStopped = false)) ∧
  -- NS_SEAL
  (∃ (s : State) (p : ReqPath) (nsid : Nat),
    (s.nsSealRefusal p nsid = none) ∧
    (s.mediaStopped = false)) ∧
  -- NS_UNSEAL
  (∃ (s : State) (p : ReqPath) (nsid : Nat),
    (s.nsUnsealRefusal p nsid = none) ∧
    (s.mediaStopped = false)) ∧
  -- MAP_CKPT_CONFIG_WRITE
  (∃ (s : State) (v : Word),
    (s.quoinSet 4 = false)) ∧
  -- MED_NAND_PAD_WRITE
  (∃ (s : State) (v : Word),
    (s.quoinSet 4 = false)) :=
  ⟨⟨formatted, .register, 2, 8, by decide +kernel⟩,
   ⟨formatted, 0, 0, true, by decide +kernel⟩,
   ⟨formatted, .register, 1, by decide +kernel⟩,
   ⟨{ formatted with streamEng := { ctxs := [(0, ctx 2 9)] } }, 1, { id := 1, cap := 4, base := 0 }, true, by decide +kernel⟩,
   ⟨formatted, .register, 1, by decide +kernel⟩,
   ⟨formatted, .register, 1, by decide +kernel⟩,
   ⟨formatted, 0x003C0001, by decide +kernel⟩,
   ⟨formatted, 0x00000050, by decide +kernel⟩⟩

/-- The hypotheses of CountersAreOperated are met, clause by clause. -/
theorem test_meets_CountersAreOperated :
  -- SYNC_ADD by an issuer of the run
  (∃ (s : State) (slot k n p : Nat) (i : SyncIssuer) (r : Run),
    (s.running slot = some r) ∧
    (s.issuerReady r i = true) ∧
    (s.runCounter r k = some p) ∧
    (1 ≤ n ∧ n ≤ 65535)) ∧
  -- SYNC_ADD by the stream engine on its own counter
  (∃ (s : State) (c b n p : Nat),
    (s.resolve (.stream c b) = some p) ∧
    (1 ≤ n ∧ n ≤ 65535)) ∧
  -- what an ADD does to a counter nobody waits for
  (∃ (s : State) (p n who d t q : Nat),
    ((s.ctr p).value + n ≤ 2 ^ 32 - 1) ∧
    ((s.ctr p).waiters = []) ∧
    ((s.ctr p).barrier = false) ∧
    (q ≠ p)) ∧
  -- an ADD that would pass 2^32 - 1
  (∃ (s : State) (p n who d t : Nat),
    (2 ^ 32 - 1 < (s.ctr p).value + n) ∧
    ((s.ctr p).value < 2 ^ 32 - 1)) ∧
  -- SYNC_SUB
  (∃ (s : State) (slot k t n p : Nat) (r : Run),
    (s.running slot = some r) ∧
    (s.issuerReady r (.core t) = true) ∧
    (s.runCounter r k = some p) ∧
    ((s.ctr p).barrier = false) ∧
    (1 ≤ n ∧ n ≤ 65535) ∧
    (n ≤ (s.ctr p).value)) ∧
  -- SYNC_SUB below 0
  (∃ (s : State) (slot k t n p : Nat) (r : Run),
    (s.running slot = some r) ∧
    (s.issuerReady r (.core t) = true) ∧
    (s.runCounter r k = some p) ∧
    ((s.ctr p).barrier = false) ∧
    (1 ≤ n ∧ n ≤ 65535) ∧
    ((s.ctr p).value < n)) ∧
  -- SYNC_WAIT_GE by a tile core
  (∃ (s : State) (slot k v t p : Nat) (r : Run),
    (s.running slot = some r) ∧
    (s.issuerReady r (.core t) = true) ∧
    (s.runCounter r k = some p) ∧
    ((s.ctr p).barrier = false)) ∧
  -- SYNC_WAIT_GE by a lane
  (∃ (s : State) (slot k v l p : Nat) (r : Run),
    (s.running slot = some r) ∧
    (l < 64) ∧
    (s.runCounter r k = some p) ∧
    ((s.ctr p).barrier = false)) ∧
  -- SYNC_WAIT_SUB
  (∃ (s : State) (slot k n t p : Nat) (r : Run),
    (s.running slot = some r) ∧
    (s.issuerReady r (.core t) = true) ∧
    (s.runCounter r k = some p) ∧
    ((s.ctr p).barrier = false) ∧
    (1 ≤ n ∧ n ≤ 65535)) ∧
  -- SYNC_READ
  (∃ (s : State) (slot k t p : Nat) (r : Run),
    (s.running slot = some r) ∧
    (s.issuerReady r (.core t) = true) ∧
    (s.runCounter r k = some p)) ∧
  -- SYNC_ALLOC by a run's core
  (∃ (s : State) (slot b t pick : Nat) (remote : Bool) (r : Run),
    (s.running slot = some r) ∧
    (s.issuerReady r (.core t) = true) ∧
    (b ≤ 255) ∧
    (s.runCounter r (0xC000 + b) = none) ∧
    (s.ctrsUsed < 16384) ∧
    (s.ctrFree pick = true)) ∧
  -- SYNC_ALLOC by the stream engine for a context
  (∃ (s : State) (ctx b t pick : Nat) (remote : Bool),
    ((s.ctxOf ctx).isSome = true) ∧
    (b ≤ 255) ∧
    (s.resolve (.stream ctx b) = none) ∧
    (s.ctrsUsed < 16384) ∧
    (s.ctrFree pick = true)) ∧
  -- SYNC_ALLOC of a bound binding, and with no counter free
  (∃ (s : State) (slot b t pick : Nat) (remote : Bool) (r : Run),
    (s.running slot = some r) ∧
    (s.issuerReady r (.core t) = true) ∧
    (b ≤ 255) ∧
    ((s.runCounter r (0xC000 + b)).isSome = true ∨ 16384 ≤ s.ctrsUsed)) ∧
  -- SYNC_FREE
  (∃ (s : State) (slot t b p : Nat) (r : Run),
    (s.running slot = some r) ∧
    (s.issuerReady r (.core t) = true) ∧
    (s.runCounter r (0xC000 + b) = some p) ∧
    ((s.ctr p).waiters = []) ∧
    (s.text.gens.any (fun g => g.owner == ReqPath.run slot && g.runCounter == 0xC000 + b) = false)) ∧
  -- SYNC_CONFIG to a barrier
  (∃ (s : State) (slot t k p parties : Nat) (pairs : List (Nat × Nat)) (r : Run),
    (s.running slot = some r) ∧
    (1 ≤ parties ∧ parties ≤ 65536 ∧ pairs.length ≤ 8) ∧
    (s.runCounter r k = some p) ∧
    (0xC000 ≤ k) ∧
    (pairs.all (fun x => s.pairOk r x.1 && s.pairOk r x.2) = true) ∧
    ((s.ctr p).value = 0 ∧ (s.ctr p).waiters = []) ∧
    (s.issuerReady r (.core t) = true)) ∧
  -- a counter the run does not own, or the wrong mode
  (∃ (s : State) (slot t k n : Nat) (r : Run),
    (s.running slot = some r) ∧
    (s.issuerReady r (.core t) = true) ∧
    (s.runCounter r k = none ∨ ∃ p, s.runCounter r k = some p ∧ (s.ctr p).barrier = true) ∧
    (1 ≤ n ∧ n ≤ 65535)) ∧
  -- what BAD_COUNTER does: the run ends
  (∃ (s : State) (r : Run) (by_ : SyncIssuer) (k p : Nat),
    (s.runCounter r k = some p)) ∧
  -- SYN_DBG_SEL_WRITE
  (∃ (s : State) (v : Word),
    (s.regsWf = true)) :=
  ⟨⟨running, 0, 5, 2, 5, .core 0, aRun, by decide +kernel⟩,
   ⟨{ ready with sync := { ctrs := [(49160, { owner := some (.stream 2 1) })] } }, 2, 1, 4, 49160, by decide +kernel⟩,
   ⟨running, 5, 4, 0x1000, 0, 0, 6, by decide +kernel⟩,
   ⟨{ ready with sync := { ctrs := [(5, { value := 2 ^ 32 - 2 })] } }, 5, 3, 0, 0, 0, by decide +kernel⟩,
   ⟨running, 0, 5, 0, 2, 5, aRun, by decide +kernel⟩,
   ⟨running, 0, 5, 0, 9, 5, aRun, by decide +kernel⟩,
   ⟨running, 0, 5, 9, 0, 5, aRun, by decide +kernel⟩,
   ⟨running, 0, 5, 9, 63, 5, aRun, by decide +kernel⟩,
   ⟨running, 0, 5, 2, 0, 5, aRun, by decide +kernel⟩,
   ⟨running, 0, 0xC000, 0, 49152, aRun, by decide +kernel⟩,
   ⟨running, 0, 2, 0, 49200, true, aRun, by decide +kernel⟩,
   ⟨{ ready with streamEng := { ctxs := [(2, ctx 2 9)] } }, 2, 7, 0, 49200, false, by decide +kernel⟩,
   ⟨running, 0, 0, 0, 49200, true, aRun, by decide +kernel⟩,
   ⟨running, 0, 0, 1, 49153, aRun, by decide +kernel⟩,
   ⟨running, 0, 0, 0xC001, 49153, 4, [(0xC000, 0xC001)], aRun, by decide +kernel⟩,
   ⟨running, 0, 0, 0xC000, 1, aRun, by decide +kernel, by decide +kernel, .inr ⟨49152, by decide +kernel, by decide +kernel⟩, by decide +kernel⟩,
   ⟨running, aRun, .core 0, 0xC000, 49152, by decide +kernel⟩,
   ⟨running, 49152, by decide +kernel⟩⟩

/-- The hypotheses of BarriersRelease are met, clause by clause. -/
theorem test_meets_BarriersRelease :
  -- SYNC_ARRIVE
  (∃ (s : State) (slot t k p : Nat) (r : Run),
    (s.running slot = some r) ∧
    (s.issuerReady r (.core t) = true) ∧
    (s.runCounter r k = some p) ∧
    ((s.ctr p).barrier = true)) ∧
  -- SYNC_ARRIVE, reissued
  (∃ (s : State) (slot t k p g : Nat) (r : Run),
    (s.running slot = some r) ∧
    (s.issuerReady r (.core t) = true) ∧
    (s.runCounter r k = some p) ∧
    ((s.ctr p).barrier = true) ∧
    (seqEarlier 16 g (s.ctr p).bgen = true)) ∧
  -- the arrival that completes a barrier makes its release due
  (∃ (s : State) (p : Nat),
    ((s.ctr p).barrier = true) ∧
    ((s.ctr p).parties ≤ (s.ctr p).value)) ∧
  -- BARRIER_RELEASE with no pair
  (∃ (s : State) (p q : Nat),
    (s.sync.due.contains p = true) ∧
    ((s.ctr p).pairs = []) ∧
    (q ≠ p)) ∧
  -- what a pair's realignment leaves
  (∃ (s : State) (i a b : Nat),
    (a ≠ b)) :=
  ⟨⟨running, 0, 0, 0xC000, 49152, aRun, by decide +kernel⟩,
   ⟨{ running with sync := { ctrs := [(49152, { barrier := true, parties := 2, bgen := 3, owner := some (.run 0 0) })] } }, 0, 0, 0xC000, 49152, 2, aRun, by decide +kernel⟩,
   ⟨{ running with sync := { ctrs := [(49152, { value := 2, barrier := true, parties := 2, owner := some (.run 0 0) })] } }, 49152, by decide +kernel⟩,
   ⟨{ running with sync := { due := [49152], ctrs := [(49152, { value := 2, barrier := true, parties := 2, owner := some (.run 0 0) })] } }, 49152, 5, by decide +kernel⟩,
   ⟨running, 0, 5, 6, by decide +kernel⟩⟩

/-- The hypotheses of ObservationCountersMarkersAndTrace are met, clause by clause. -/
theorem test_meets_ObservationCountersMarkersAndTrace :
  -- TIL_EVT_CLEAR
  (∃ (s : State) (t : Nat),
    (s.regionActive (t / 32) = true)) ∧
  -- the tile windows of a region that is not there
  (∃ (s : State) (b : BusPath) (t n : Nat) (v : Word),
    (s.regionActive (t / 32) = false) ∧
    (n < 8)) ∧
  -- what setting a tile's state changes
  (∃ (s : State) (t u : Nat) (x : TileState),
    (u ≠ t)) ∧
  -- TIL_EVT_SEL_WRITE
  (∃ (s : State) (t n : Nat) (v : Word),
    (n < 8) ∧
    (s.regionActive (t / 32) = true)) ∧
  -- TIL_EVT_CNT_LO_READ
  (∃ (s : State) (b : BusPath) (t n : Nat),
    (s.regionActive (t / 32) = true)) ∧
  -- MARK_BEGIN, MARK_END and MARK_INSTANT of a tile
  (∃ (s : State) (slot t id user p : Nat) (r : Run),
    (s.runAt slot = some r) ∧
    (r.state = .running) ∧
    (r.physTile t = some p)) ∧
  -- TRACE_ENABLE with room
  (∃ (s : State) (v : Word),
    (s.regsWf = true) ∧
    (s.regFld obsBase 0 1 = 0) ∧
    (26 ≤ fld v 8 6 ∧ fld v 8 6 ≤ 36) ∧
    (2 ^ (fld v 8 6 - 21) ≤ s.mgr.bulkFree + s.obs.pages)) ∧
  -- TRACE_ENABLE without room
  (∃ (s : State) (v : Word),
    (s.regFld obsBase 0 1 = 0) ∧
    (26 ≤ fld v 8 6 ∧ fld v 8 6 ≤ 36) ∧
    (s.mgr.bulkFree + s.obs.pages < 2 ^ (fld v 8 6 - 21))) ∧
  -- TRACE_DISABLE
  (∃ (s : State) (v : Word),
    (s.regsWf = true) ∧
    (s.regFld obsBase 0 1 = 1) ∧
    (26 ≤ fld v 8 6 ∧ fld v 8 6 ≤ 36)) ∧
  -- TRACE_RELEASE
  (∃ (s : State) (v : Word),
    (s.regFld obsBase 0 1 = 0) ∧
    (26 ≤ fld v 8 6 ∧ fld v 8 6 ≤ 36)) ∧
  -- a size outside the range
  (∃ (s : State) (v : Word),
    (fld v 8 6 < 26 ∨ 36 < fld v 8 6)) ∧
  -- a record of an enabled type while the trace runs
  (∃ (s : State) (ty bit src run fl a0 a1 : Nat),
    (s.regFld obsBase (16 + bit) 1 = 1) ∧
    (s.obs.pages ≠ 0) ∧
    (s.obs.active = true) ∧
    (s.obs.lostSince = 0)) :=
  ⟨⟨running, 0, by decide +kernel⟩,
   ⟨{ running with fuses := { part := 0x0500, regionMask := 0xFFFFFFFFFF } }, .image, 1280, 0, 3, by decide +kernel⟩,
   ⟨running, 0, 1, { depth := 2 }, by decide +kernel⟩,
   ⟨running, 0, 7, 3, by decide +kernel⟩,
   ⟨running, .image, 0, 7, by decide +kernel⟩,
   ⟨running, 0, 3, 7, 8, 3, aRun, by decide +kernel⟩,
   ⟨running, 0x00011A01, by decide +kernel⟩,
   ⟨running, 0x00012401, by decide +kernel⟩,
   ⟨{ running with regs := [(0xD00000, 0x00011A01)] }, 0x00011A00, by decide +kernel⟩,
   ⟨running, 0x00011A00, by decide +kernel⟩,
   ⟨running, 0x00002501, by decide +kernel⟩,
   ⟨{ running with regs := [(0xD00000, 0x00011A01)], obs := { active := true, pages := 32 } }, 1, 0, 0, 0, 0, 0, 0, by decide +kernel⟩⟩

/-- The hypotheses of TileUnitResets are met, clause by clause. -/
theorem test_meets_TileUnitResets :
  -- the eight TIL_RESET_* commands on idle units
  (∃ (s : State) (t : Nat),
    (s.regionActive (t / 32) = true) ∧
    (∀ x ∈ s.rst.tiles, x.1 ≠ t) ∧
    ((s.tile t).dma = []) ∧
    (s.sync.ctrs.all (fun x => x.2.waiters.all (fun w => w.who != 0x1000 + t)) = true)) ∧
  -- TIL_RESET_DMA and TIL_RESET_SYNC of a unit at work
  (∃ (s : State) (t : Nat),
    (s.regionActive (t / 32) = true) ∧
    (∀ x ∈ s.rst.tiles, x.1 ≠ t)) ∧
  -- what a run becomes that ends
  (∃ (s : State) (slot d t va : Nat) (st : Status) (r : Run) (k : Nat),
    (s.runAt slot = some r) ∧
    (r.state ≠ .free ∧ r.state ≠ .ending) ∧
    (r.stage = none) ∧
    (k ≠ slot)) :=
  ⟨⟨running, 0, by decide +kernel⟩,
   ⟨running, 0, by decide +kernel⟩,
   ⟨running, 0, 2, 3, 0, 0x090B, aRun, 1, by decide +kernel⟩⟩

/-- The hypotheses of TileRegionAndRouterFaults are met, clause by clause. -/
theorem test_meets_TileRegionAndRouterFaults :
  -- TILE_FAULT
  (∃ (s : State) (t : Nat) (np : Bool) (r : Run),
    (s.runOfRegion (t / 32) = some r)) ∧
  -- TILE_FAULT with no run
  (∃ (s : State) (t : Nat) (np : Bool),
    (s.runOfRegion (t / 32) = none)) ∧
  -- REGION_FAULT of a region that a run holds
  (∃ (s : State) (g : Nat) (r : Run),
    (s.regionActive g = true) ∧
    (s.runOfRegion g = some r) ∧
    (s.rst.region ≠ some g)) ∧
  -- REGION_FAULT of an active region without a run
  (∃ (s : State) (g : Nat),
    (s.regionActive g = true) ∧
    (s.runOfRegion g = none) ∧
    (s.rst.region ≠ some g)) ∧
  -- REGION_FAULT of a region that is being reset
  (∃ (s : State) (g : Nat),
    (s.regionActive g = true) ∧
    (s.runOfRegion g = none) ∧
    (s.rst.region = some g)) ∧
  -- ROUTER_PARITY_FAULT
  (∃ (s : State) (t : Nat) (flows : List (Nat × Nat × Nat)),
    (s.regionActive (t / 32) = true)) ∧
  -- a flow after a router's fault
  (∃ (s : State) (f : Nat × Nat × Nat) (r : Run),
    (s.runAt f.1 = some r) ∧
    (r.regions.contains (f.2.1 / 32) = true)) ∧
  -- the two routes between two tiles, and where a tile lies
  (∃ (a b : Nat),
    (a < 1536) ∧
    (b < 1536)) :=
  ⟨⟨running, 5, false, aRun, by decide +kernel⟩,
   ⟨running, 64, true, by decide +kernel⟩,
   ⟨running, 0, aRun, by decide +kernel⟩,
   ⟨running, 3, by decide +kernel⟩,
   ⟨{ running with rst := { region := some 3 } }, 3, by decide +kernel⟩,
   ⟨running, 5, [(0, 0, 9)], by decide +kernel⟩,
   ⟨running, (0, 0, 9), aRun, by decide +kernel⟩,
   ⟨0, 1535, by decide +kernel⟩⟩

/-- The hypotheses of MatrixOperationsOnTiles are met, clause by clause. -/
theorem test_meets_MatrixOperationsOnTiles :
  -- MATRIX_OP
  (∃ (s : State) (slot t : Nat) (o : MatrixOp) (r : Run) (ka kb ko : ElemKind),
    (s.tileReady slot t = some r) ∧
    (matShape o = true) ∧
    (matFault o = none) ∧
    (elemKind o.fmtA = some ka ∧ elemKind o.fmtB = some kb ∧ elemKind o.fmtOut = some ko) ∧
    (r.firstBad (matSpans o ka kb ko) = .ok)) ∧
  -- MATRIX_OP of formats that do not pair
  (∃ (s : State) (slot t d : Nat) (o : MatrixOp) (r : Run),
    (s.tileReady slot t = some r) ∧
    (matShape o = true) ∧
    (matFault o = some d)) ∧
  -- SPARSE_MATRIX_OP
  (∃ (s : State) (slot t md : Nat) (o : MatrixOp) (r : Run) (ka kb ko : ElemKind),
    (s.tileReady slot t = some r) ∧
    (matShape o = true) ∧
    (matFault o = none) ∧
    (elemKind o.fmtA = some ka ∧ elemKind o.fmtB = some kb ∧ elemKind o.fmtOut = some ko) ∧
    (o.k % 4 = 0) ∧
    (r.firstBad (sparseSpans o md ka kb ko) = .ok)) ∧
  -- the ranges that an operation accesses, marked when it runs
  (∃ (s : State) (r : Run) (src : Nat) (op : TileOp) (sp : List Span) (go : State),
    (r.firstBad sp = .ok)) :=
  ⟨⟨running, 0, 3, { m := 2, n := 2, k := 32, fmtA := 0x02, fmtB := 0x02, a := 0, b := 256, c := none, out := 512, fmtOut := 0x06, sat := false, rnd := .rne, idxBase := 0, idxStride := 2, meta24 := none }, aRun, .int 8 true, .int 8 true, .int 32 true, by decide +kernel⟩,
   ⟨running, 0, 3, 3, { m := 2, n := 2, k := 32, fmtA := 0x02, fmtB := 0x10, a := 0, b := 256, c := none, out := 512, fmtOut := 0x06, sat := false, rnd := .rne, idxBase := 0, idxStride := 2, meta24 := none }, aRun, by decide +kernel⟩,
   ⟨running, 0, 3, 1024, { m := 1, n := 1, k := 4, fmtA := 0x02, fmtB := 0x02, a := 0, b := 256, c := none, out := 512, fmtOut := 0x06, sat := false, rnd := .rne, idxBase := 0, idxStride := 1, meta24 := none }, aRun, .int 8 true, .int 8 true, .int 32 true, by decide +kernel⟩,
   ⟨running, aRun, 0, .watch { id := 7, fmt := 0x10, src := 0, n := 3, out := 1024 }, [(false, 0, 12), (true, 1024, 64)], running, by decide +kernel⟩⟩

/-- The hypotheses of VectorUnitOperations are met, clause by clause. -/
theorem test_meets_VectorUnitOperations :
  -- VECTOR_OP on FP32
  (∃ (s : State) (slot t : Nat) (o : VectorOp) (r : Run),
    (s.tileReady slot t = some r) ∧
    (o.fmtX = 0x10 ∧ o.fmtY = 0x10 ∧ o.fmtZ = 0x10 ∧ o.fmtOut = 0x10) ∧
    (r.firstBad (vecSpans o (.float fmtFp32) (.float fmtFp32) (.float fmtFp32) (.float fmtFp32)) = .ok)) ∧
  -- VECTOR_OP of any formats
  (∃ (s : State) (slot t : Nat) (o : VectorOp) (r : Run) (kx ky kz ko : ElemKind),
    (s.tileReady slot t = some r) ∧
    (arith o.fmtX = some kx ∧ arith o.fmtY = some ky ∧ arith (if o.kind == VecKind.fma then o.fmtZ else o.fmtX) = some kz ∧
      arith o.fmtOut = some ko) ∧
    ([kx, ky, kz, ko].all (fun k => mxDimOk k o.n) = true) ∧
    (r.firstBad (vecSpans o kx ky kz ko) = .ok)) ∧
  -- VECTOR_REDUCE
  (∃ (s : State) (slot t : Nat) (o : ReduceOp) (r : Run) (k : ElemKind),
    (s.tileReady slot t = some r) ∧
    (arith o.fmt = some k) ∧
    (mxDimOk k o.n = true) ∧
    (r.firstBad [(false, o.src, tensorBytes k o.n), (true, o.out, 4)] = .ok)) ∧
  -- SPECIAL_FUNCTION
  (∃ (s : State) (slot t : Nat) (o : SpecialOp) (r : Run),
    (s.tileReady slot t = some r) ∧
    (r.firstBad (specialSpans o) = .ok)) ∧
  -- QUANTISE
  (∃ (s : State) (slot t : Nat) (o : QuantOp) (r : Run) (ki ko : ElemKind),
    (s.tileReady slot t = some r) ∧
    (arith o.fmtIn = some ki ∧ arith o.fmtOut = some ko) ∧
    (mxDimOk ki o.inner = true ∧ mxDimOk ko o.inner = true ∧ mxDimOk ki o.n = true ∧ mxDimOk ko o.n = true) ∧
    (r.firstBad [(false, o.src, tensorBytes ki o.n), (true, o.out, tensorBytes ko o.n)] = .ok)) ∧
  -- an unknown format
  (∃ (s : State) (slot t : Nat) (o : QuantOp) (r : Run),
    (s.tileReady slot t = some r) ∧
    (arith o.fmtIn = none ∨ arith o.fmtOut = none)) ∧
  -- ROUTE
  (∃ (s : State) (slot t : Nat) (o : RouteOp) (r : Run),
    (s.tileReady slot t = some r) ∧
    (1 ≤ o.e ∧ o.e ≤ 256 ∧ 1 ≤ o.k ∧ o.k ≤ min 8 o.e ∧ 1 ≤ o.c ∧ o.c ≤ 65536) ∧
    (r.firstBad (routeSpans o) = .ok)) ∧
  -- COMBINE
  (∃ (s : State) (slot t : Nat) (o : CombineOp) (r : Run),
    (s.tileReady slot t = some r) ∧
    (r.firstBad (s.combineSpans r o) = .ok)) ∧
  -- WATCH
  (∃ (s : State) (slot t : Nat) (o : WatchOp) (r : Run) (k : ElemKind),
    (s.tileReady slot t = some r) ∧
    (arith o.fmt = some k) ∧
    (mxDimOk k o.n = true) ∧
    (r.firstBad [(false, o.src, tensorBytes k o.n), (true, o.out, 64)] = .ok)) :=
  ⟨⟨running, 0, 3, { kind := .fma, fmtX := 0x10, x := 0, fmtY := 0x10, y := 256, fmtZ := 0x10, z := 512, n := 3, fmtOut := 0x10, out := 1024, sat := false, rnd := .rne, idxBase := 0 }, aRun, by decide +kernel⟩,
   ⟨running, 0, 3, { kind := .add, fmtX := 0x06, x := 0, fmtY := 0x06, y := 256, fmtZ := 0x10, z := 512, n := 3, fmtOut := 0x06, out := 1024, sat := true, rnd := .rne, idxBase := 0 }, aRun, .int 32 true, .int 32 true, .int 32 true, .int 32 true, by decide +kernel⟩,
   ⟨running, 0, 3, { kind := .sum, fmt := 0x10, src := 0, n := 3, out := 1024, canonical := false }, aRun, .float fmtFp32, by decide +kernel⟩,
   ⟨running, 0, 3, { fn := .div, src := 0, src2 := 64, n := 3, out := 1024 }, aRun, by decide +kernel⟩,
   ⟨running, 0, 3, { fmtIn := 0x10, src := 0, n := 32, inner := 32, fmtOut := 0x20, out := 1024, sat := true, rnd := .sr 5, idxBase := 0 }, aRun, .float fmtFp32, .mx fmtE4m3 8, by decide +kernel⟩,
   ⟨running, 0, 3, { fmtIn := 0x99, src := 0, n := 32, inner := 32, fmtOut := 0x20, out := 1024, sat := true, rnd := .sr 5, idxBase := 0 }, aRun, by decide +kernel⟩,
   ⟨running, 0, 3, { g := 0, n := 2, e := 4, k := 2, c := 1, tau := 0, counts := 256, rows := 512, choices := 1024, dropped := 2048 }, aRun, by decide +kernel⟩,
   ⟨running, 0, 3, { choices := 0, n := 2, k := 2, c := 1, d := 4, y := 512, w := none, out := 2048 }, aRun, by decide +kernel⟩,
   ⟨running, 0, 3, { id := 7, fmt := 0x10, src := 0, n := 3, out := 1024 }, aRun, .float fmtFp32, by decide +kernel⟩⟩

/-- The hypotheses of EmbeddingTables are met, clause by clause. -/
theorem test_meets_EmbeddingTables :
  -- EMB_GATHER with an index beyond the table, no skipping
  (∃ (s : State) (slot e : Nat) (o : GatherOp) (r : Run) (t : EmbTable) (ko : ElemKind),
    (s.engineReady slot e = some r) ∧
    (r.table o.table = some t) ∧
    (arith o.fmtOut = some ko) ∧
    (t.indexSkip = false) ∧
    ((s.gatherIndices r o).any (fun i => decide (i ≥ t.rows)) = true) ∧
    (r.firstBad (gatherSpans o t ko ((s.gatherOffsets r o).getLastD 0)) = .ok)) ∧
  -- EMB_GATHER whose rows are not all cached
  (∃ (s : State) (slot e : Nat) (o : GatherOp) (r : Run) (t : EmbTable) (ko : ElemKind),
    (s.engineReady slot e = some r) ∧
    (r.table o.table = some t) ∧
    (arith o.fmtOut = some ko) ∧
    (ko.isMx = false) ∧
    ((s.gatherIndices r o).all (fun i => decide (i < t.rows)) = true) ∧
    ((s.gatherIndices r o).any (fun i => (r.cachedRow o.table i).isNone) = true) ∧
    (r.firstBad (gatherSpans o t ko ((s.gatherOffsets r o).getLastD 0)) = .ok)) ∧
  -- EMB_GATHER of one SUM bag over one cached row
  (∃ (s : State) (slot e i : Nat) (o : GatherOp) (r : Run) (t : EmbTable) (x : CachedRow),
    (s.engineReady slot e = some r) ∧
    (r.table o.table = some t) ∧
    (o.fmtOut = 0x10 ∧ o.mode = .sum ∧ o.weights = none ∧ o.bags = 1) ∧
    (leNat (s.vRead r o.offsets 4) = 0 ∧ leNat (s.vRead r (o.offsets + 4) 4) = 1 ∧ leNat (s.vRead r o.indices 8) = i) ∧
    (i < t.rows ∧ r.cachedRow o.table i = some x) ∧
    (r.firstBad [(false, o.offsets, 8), (false, o.indices, 8), (true, o.out, 4 * t.dim)] = .ok)) ∧
  -- EMB_ROW_READ_DONE
  (∃ (s : State) (slot table row : Nat) (r : Run) (x : Susp) (t : EmbTable),
    (s.runAt slot = some r) ∧
    (r.susp.find? (fun x => x.rows.contains (table, row)) = some x) ∧
    (r.table table = some t)) ∧
  -- EMB_GRAD
  (∃ (s : State) (slot e : Nat) (cs : List GradContribution) (r : Run),
    (s.engineReady slot e = some r) ∧
    (∀ c ∈ cs, ∃ t, r.table c.table = some t ∧ c.grad.length = t.dim)) ∧
  -- EMB_APPLY, every row with a gradient cached
  (∃ (s : State) (slot e : Nat) (o : ApplyOp) (r : Run) (t : EmbTable),
    (s.engineReady slot e = some r) ∧
    (r.table o.table = some t) ∧
    (t.optimiser ≠ 0) ∧
    (∀ c ∈ r.grads, c.table = o.table → c.row < t.rows ∧ (r.cachedRow o.table c.row).isSome = true)) ∧
  -- what an apply does to a row whose STEP equals the step
  (∃ (s : State) (r : Run) (g row : Nat) (t : EmbTable) (o : ApplyOp) (x : CachedRow),
    (r.cachedRow t.number row = some x) ∧
    (leField x.bytes (t.stride - 4) 4 = o.step % 2 ^ 32)) ∧
  -- EMB_FLUSH
  (∃ (s : State) (slot : Nat) (r : Run),
    (s.runAt slot = some r) ∧
    (r.state = .running ∧ r.flush = none)) ∧
  -- EMB_FLUSH_DONE
  (∃ (s : State) (slot : Nat) (r : Run) (rows : List (Nat × Nat)),
    (s.runAt slot = some r) ∧
    (r.flush = some rows)) :=
  ⟨⟨{ running with field := { tileMem := [(4, 1), (16, 200)] }, mgr := { runs := [{ aRun with tables := [aTable] }] } }, 0, 1, { table := 3, bags := 1, offsets := 0, indices := 16, weights := none, mode := .sum, fmtOut := 0x10, out := 512, sat := false }, { aRun with tables := [aTable] }, aTable, .float fmtFp32, by decide +kernel⟩,
   ⟨{ running with field := { tileMem := [(4, 1), (16, 2)] }, mgr := { runs := [{ aRun with tables := [aTable] }] } }, 0, 1, { table := 3, bags := 1, offsets := 0, indices := 16, weights := none, mode := .sum, fmtOut := 0x10, out := 512, sat := false }, { aRun with tables := [aTable] }, aTable, .float fmtFp32, by decide +kernel⟩,
   ⟨{ running with field := { tileMem := [(4, 1), (16, 2)] }, mgr := { runs := [{ aRun with tables := [aTable], rows := [aRow] }] } }, 0, 1, 2, { table := 3, bags := 1, offsets := 0, indices := 16, weights := none, mode := .sum, fmtOut := 0x10, out := 512, sat := false }, { aRun with tables := [aTable], rows := [aRow] }, aTable, aRow, by decide +kernel⟩,
   ⟨{ running with mgr := { runs := [{ aRun with tables := [aTable], susp := [{ source := 0x8001, op := .apply { table := 3, step := 1, lr := 0 }, rows := [(3, 2)] }] }] } }, 0, 3, 2, { aRun with tables := [aTable], susp := [{ source := 0x8001, op := .apply { table := 3, step := 1, lr := 0 }, rows := [(3, 2)] }] }, { source := 0x8001, op := .apply { table := 3, step := 1, lr := 0 }, rows := [(3, 2)] }, aTable, by decide +kernel⟩,
   ⟨{ running with mgr := { runs := [{ aRun with tables := [aTable] }] } }, 0, 1, [{ table := 3, row := 2, grad := [0, 0], folio := 0, position := 0 }], { aRun with tables := [aTable] }, by decide +kernel, by intro c hc; rw [List.mem_singleton.mp hc]; exact ⟨aTable, by decide +kernel, by decide +kernel⟩⟩,
   ⟨{ running with mgr := { runs := [{ aRun with tables := [aTable], rows := [aRow], grads := [{ table := 3, row := 2, grad := [0, 0], folio := 0, position := 0 }] }] } }, 0, 1, { table := 3, step := 4, lr := 0 }, { aRun with tables := [aTable], rows := [aRow], grads := [{ table := 3, row := 2, grad := [0, 0], folio := 0, position := 0 }] }, aTable, by decide +kernel, by decide +kernel, by decide +kernel, by intro c hc _; rw [List.mem_singleton.mp hc]; decide +kernel⟩,
   ⟨running, { aRun with tables := [aTable], rows := [aRow] }, 0, 2, aTable, { table := 3, step := 0, lr := 0 }, aRow, by decide +kernel⟩,
   ⟨running, 0, aRun, by decide +kernel⟩,
   ⟨{ running with mgr := { runs := [{ aRun with flush := some [] }] } }, 0, { aRun with flush := some [] }, [], by decide +kernel⟩⟩

/-- The hypotheses of PlatesLoadAndUnload are met, clause by clause. -/
theorem test_meets_PlatesLoadAndUnload :
  -- the bytes of a plate
  (∃ (s : State) (nsid lba : Nat) (n : NsInfo),
    (s.mediaGate = none) ∧
    (s.nsInfo nsid = some n)) ∧
  -- LOAD_PLATE of a plate that cannot be read
  (∃ (s : State) (p : ReqPath) (src : PlateSource),
    ((s.plateBytes src).1 ≠ 0)) ∧
  -- LOAD_PLATE, the first checks
  (∃ (s : State) (p : ReqPath) (src : PlateSource) (b : List Byte),
    (s.plateBytes src = (0, b))) ∧
  -- LOAD_PLATE past check 4
  (∃ (s : State) (p : ReqPath) (src : PlateSource) (b : List Byte),
    (s.plateBytes src = (0, b)) ∧
    (plateHeadOk b = true) ∧
    (s.plateTargetOk b = true) ∧
    (s.plateSigOk b = true) ∧
    (plateTableOk b = true)) :=
  ⟨⟨formatted, 1, 0, formatted.media.image.ns.headD { id := 1, cap := 4, base := 0 }, by decide +kernel⟩,
   ⟨running, .image, .media 9 0, by decide +kernel⟩,
   ⟨plateState, .image, .data plateImg, plateImg, by decide +kernel⟩,
   ⟨plateState, .image, .data plateImg, plateImg, by decide +kernel⟩⟩

/-- The hypotheses of StartsAreCheckedInOrder are met, clause by clause. -/
theorem test_meets_StartsAreCheckedInOrder :
  -- START refused
  (∃ (s : State) (p : ReqPath) (q : StartReq),
    ((s.startCheck p q).1 ≠ 0)) ∧
  -- the order of the checks
  (∃ (s : State) (p : ReqPath) (q : StartReq),
    (s.fieldFenced = false) ∧
    (s.power.tripAt = none)) ∧
  -- START accepted
  (∃ (s : State) (p : ReqPath) (q : StartReq) (slot : Nat) (pl : Plate),
    (s.startCheck p q = (0, 0)) ∧
    (s.freeSlot = some slot) ∧
    (s.plateAt (leField q.desc 0 8) = some pl)) ∧
  -- the run that a START makes
  (∃ (s : State) (p : ReqPath) (q : StartReq) (slot k : Nat) (pl : Plate) (regs : List Nat),
    (k ≠ slot)) :=
  ⟨⟨running, .image, { desc := [], args := [], tables := [] }, by decide +kernel⟩,
   ⟨running, .image, { desc := [], args := [], tables := [] }, by decide +kernel⟩,
   ⟨startState, .image, startReq, 0, aPlate, by decide +kernel⟩,
   ⟨startState, .image, startReq, 0, 1, aPlate, [0], by decide +kernel⟩⟩

/-- The hypotheses of RunsLoadEndAndLeave are met, clause by clause. -/
theorem test_meets_RunsLoadEndAndLeave :
  -- RUN_LOADED
  (∃ (s : State) (slot : Nat) (bad : Option Nat) (r : Run) (pl : Plate),
    (s.runAt slot = some r) ∧
    (r.state = .starting) ∧
    (r.regions.any (fun g => s.power.doze.getLsbD g) = false) ∧
    (s.plateAt r.plate = some pl)) ∧
  -- PLATE_END
  (∃ (s : State) (slot : Nat) (r : Run),
    (s.runAt slot = some r) ∧
    (r.state = .running)) ∧
  -- STOP
  (∃ (s : State) (p : ReqPath) (slot : Nat) (r : Run),
    (s.runAt slot = some r)) ∧
  -- RUN_CLEANUP_DONE
  (∃ (s : State) (slot : Nat) (r : Run),
    (s.runAt slot = some r) ∧
    (r.state = .ending)) ∧
  -- RUN_DEQUEUE
  (∃ (s : State) (h : Run) (rest : List Run),
    (s.waitList = h :: rest)) :=
  ⟨⟨{ running with mgr := { runs := [{ aRun with state := .starting }], plates := [aPlate] } }, 0, none, { aRun with state := .starting }, aPlate, by decide +kernel⟩,
   ⟨running, 0, aRun, by decide +kernel⟩,
   ⟨running, .image, 0, aRun, by decide +kernel⟩,
   ⟨{ running with mgr := { runs := [{ aRun with state := .ending }] } }, 0, { aRun with state := .ending }, by decide +kernel⟩,
   ⟨{ running with mgr := { runs := [{ aRun with state := .queued, regions := [] }] } }, { aRun with state := .queued, regions := [] }, [], by decide +kernel⟩⟩

/-- The hypotheses of RunsAreSavedAndRestored are met, clause by clause. -/
theorem test_meets_RunsAreSavedAndRestored :
  -- PREEMPT
  (∃ (s : State) (p : ReqPath) (slot : Nat) (r : Run),
    (s.runAt slot = some r)) ∧
  -- RESUME
  (∃ (s : State) (p : ReqPath) (slot : Nat) (r : Run),
    (s.runAt slot = some r)) ∧
  -- PREEMPT_SAVE_DONE after a parity error in logical region i
  (∃ (s : State) (slot i : Nat) (r : Run),
    (s.runAt slot = some r) ∧
    (r.state = .preempting) ∧
    ((s.cmp.jobs.filter (fun j => j.owner.ofRun slot)).any (fun j => j.desc.op == 1) = false)) ∧
  -- PREEMPT_SAVE_DONE
  (∃ (s : State) (slot : Nat) (r : Run),
    (s.runAt slot = some r) ∧
    (r.state = .preempting) ∧
    ((s.cmp.jobs.filter (fun j => j.owner.ofRun slot)).any (fun j => j.desc.op == 1) = false) ∧
    (r.resumeQueued = false)) ∧
  -- RESUME_RESTORE_DONE
  (∃ (s : State) (slot : Nat) (ok : Bool) (r : Run) (a : SaveArea),
    (s.runAt slot = some r) ∧
    (r.state = .resuming) ∧
    (r.regions.any (fun g => s.power.doze.getLsbD g) = false) ∧
    (r.save = some a)) :=
  ⟨⟨running, .image, 0, aRun, by decide +kernel⟩,
   ⟨{ running with mgr := { runs := [{ aRun with state := .saved }] } }, .image, 0, { aRun with state := .saved }, by decide +kernel⟩,
   ⟨{ running with mgr := { runs := [{ aRun with state := .preempting }] } }, 0, 0, { aRun with state := .preempting }, by decide +kernel⟩,
   ⟨{ running with mgr := { runs := [{ aRun with state := .preempting }] } }, 0, { aRun with state := .preempting }, by decide +kernel⟩,
   ⟨{ running with mgr := { runs := [{ aRun with state := .resuming, save := some { header := [], counters := [], waits := [], regionStores := [], tileStores := [], tiles := [] } }] } }, 0, true, { aRun with state := .resuming, save := some { header := [], counters := [], waits := [], regionStores := [], tileStores := [], tiles := [] } }, { header := [], counters := [], waits := [], regionStores := [], tileStores := [], tiles := [] }, by decide +kernel⟩⟩

/-- The hypotheses of TileDmaAndPageFills are met, clause by clause. -/
theorem test_meets_TileDmaAndPageFills :
  -- DMA_COPY and DMA_FILL
  (∃ (s : State) (slot t desc p : Nat) (r : Run),
    (s.runAt slot = some r) ∧
    (r.physTile t = some p) ∧
    (r.state = .running) ∧
    (r.suspended (0x4000 + t) = false) ∧
    (s.tileUnitHeld p 2 = false) ∧
    (r.check false desc 64 = .ok) ∧
    ((dmaDesc (s.vRead r desc 64)).ok = true)) ∧
  -- a descriptor that is invalid
  (∃ (s : State) (slot t desc p : Nat) (r : Run),
    (s.runAt slot = some r) ∧
    (r.physTile t = some p) ∧
    (r.state = .running) ∧
    (r.suspended (0x4000 + t) = false) ∧
    (s.tileUnitHeld p 2 = false) ∧
    (r.check false desc 64 = .ok) ∧
    ((dmaDesc (s.vRead r desc 64)).ok = false)) ∧
  -- what an ENGINE descriptor submits
  (∃ (s : State) (r : Run) (t desc : Nat) (d : DmaDesc),
    (r.check false d.src 64 = .ok)) ∧
  -- what moving one unit of a COPY does
  (∃ (s : State) (slot t desc n p : Nat) (d : DmaDesc) (r : Run),
    (s.runAt slot = some r) ∧
    (r.physTile t = some p) ∧
    (d.op = 1 ∧ 1 ≤ d.count0 ∧ d.count0 ≤ 4096 ∧ d.count1 = 1 ∧ d.count2 = 1) ∧
    ((r.check false (vaOf (dmaRow d.src d.srcStride1 d.srcStride2 0 0)) d.count0).then
      (r.check true (vaOf (dmaRow d.dst d.dstStride1 d.dstStride2 0 0)) d.count0) = .ok)) ∧
  -- DMA_DESCRIPTOR_DONE
  (∃ (s : State) (slot t p : Nat) (r : Run) (j : DmaJob) (rest : List DmaJob),
    (s.runAt slot = some r) ∧
    (r.physTile t = some p) ∧
    ((s.tile p).dma = j :: rest) ∧
    (j.done = true) ∧
    (r.state = .running)) ∧
  -- FILL_DONE
  (∃ (s : State) (slot page : Nat) (r : Run) (m : Mapping),
    (s.runAt slot = some r) ∧
    (r.filling.contains page = true) ∧
    (r.state = .running) ∧
    (r.mapping page = some m) ∧
    (s.nsReadable m.nsid (m.lba * 4096 + (page - m.vaddr)) 65536 = true) ∧
    (r.residentPages < r.frameRoom)) ∧
  -- FILL_DONE with no frame and no page that can leave
  (∃ (s : State) (slot page : Nat) (r : Run) (m : Mapping),
    (s.runAt slot = some r) ∧
    (r.filling.contains page = true) ∧
    (r.state = .running) ∧
    (r.mapping page = some m) ∧
    (s.nsReadable m.nsid (m.lba * 4096 + (page - m.vaddr)) 65536 = true) ∧
    (r.frameRoom ≤ r.residentPages ∧ r.victim = none)) :=
  ⟨⟨{ running with field := { tileMem := [(64, 1), (68, 8), (80, 128), (88, 1), (92, 1)] } }, 0, 0, 64, 0, aRun, by decide +kernel⟩,
   ⟨running, 0, 0, 64, 0, aRun, by decide +kernel⟩,
   ⟨running, aRun, 0, 64, dmaDesc [], by decide +kernel⟩,
   ⟨running, 0, 0, 64, 3, 0, { op := 1, flags := 0, sync := 0, count0 := 8, src := 0, dst := 128, count1 := 1, count2 := 1, srcStride1 := 0, srcStride2 := 0, dstStride1 := 0, dstStride2 := 0 }, aRun, by decide +kernel⟩,
   ⟨{ running with field := { tiles := [(0, { dma := [{ desc := 64, isLast := true, signal := true, sync := 5, done := true }] })] } }, 0, 0, 0, aRun, { desc := 64, isLast := true, signal := true, sync := 5, done := true }, [], by decide +kernel⟩,
   ⟨{ formatted with mgr := { runs := [{ aRun with filling := [0x100010000], maps := [{ vaddr := 0x100010000, length := 65536, tier := 4, write := false, exec := false, pinned := false, page2m := false, nsid := 1, lba := 0 }] }] } }, 0, 0x100010000, { aRun with filling := [0x100010000], maps := [{ vaddr := 0x100010000, length := 65536, tier := 4, write := false, exec := false, pinned := false, page2m := false, nsid := 1, lba := 0 }] }, { vaddr := 0x100010000, length := 65536, tier := 4, write := false, exec := false, pinned := false, page2m := false, nsid := 1, lba := 0 }, by decide +kernel⟩,
   ⟨{ formatted with mgr := { runs := [{ aRun with bulkPages := 0, filling := [0x100010000], maps := [{ vaddr := 0x100010000, length := 65536, tier := 4, write := false, exec := false, pinned := false, page2m := false, nsid := 1, lba := 0 }] }] } }, 0, 0x100010000, { aRun with bulkPages := 0, filling := [0x100010000], maps := [{ vaddr := 0x100010000, length := 65536, tier := 4, write := false, exec := false, pinned := false, page2m := false, nsid := 1, lba := 0 }] }, { vaddr := 0x100010000, length := 65536, tier := 4, write := false, exec := false, pinned := false, page2m := false, nsid := 1, lba := 0 }, by decide +kernel⟩⟩

/-- The hypotheses of CompressionJobsRunAndEnd are met, clause by clause. -/
theorem test_meets_CompressionJobsRunAndEnd :
  -- CMP_RING_DOORBELL
  (∃ (s : State) (q : Nat) (v : Word),
    (q < 16)) ∧
  -- CMP_JOB_START from a ring
  (∃ (s : State) (e q : Nat),
    (s.ringOn q = true) ∧
    (s.ringAvail q ≠ 0)) ∧
  -- CMP_JOB_START of a run's waiting job
  (∃ (s : State) (e slot t desc : Nat) (d : JobDesc) (b : Bool) (r : Run) (rest : List CmpSub),
    (s.cmp.queue = .run (.run slot t desc) d b :: rest) ∧
    (s.runAt slot = some r) ∧
    (r.state = .running) ∧
    (s.jobRefusal (.run slot t desc) d = none) ∧
    (s.engineTakes e d = true) ∧
    (State.jobRefusal (s.setCmpQueue rest) (.run slot t desc) d = none)) ∧
  -- DECOMPRESS_JOB_END of a ring's job
  (∃ (s : State) (e stop q : Nat) (j : CmpJob),
    (s.cmp.jobs.find? (fun j => j.engine == e && j.desc.op == 1) = some j) ∧
    (j.owner = .ring q)) ∧
  -- how a ring's job ends: by its input, and on RESUME its record and history, alone
  (∃ (s : State) (q stop : Nat) (j : CmpJob),
    (j.owner = .ring q)) ∧
  -- COMPRESS_JOB_END of a ring's job
  (∃ (s : State) (e q : Nat) (j : CmpJob),
    (s.cmp.jobs.find? (fun j => j.engine == e && j.desc.op == 2) = some j) ∧
    (j.owner = .ring q)) ∧
  -- a proof mismatch in block k
  (∃ (s : State) (e k : Nat) (j : CmpJob),
    (s.cmp.jobs.find? (fun j => j.engine == e && j.desc.op == 2) = some j) ∧
    (j.desc.flags.testBit 0 = true ∧ k < compressBlocks j.desc.inLen)) ∧
  -- a job without PROOF has no mismatch
  (∃ (s : State) (e k : Nat) (j : CmpJob),
    (s.cmp.jobs.find? (fun j => j.engine == e && j.desc.op == 2) = some j) ∧
    (j.desc.flags.testBit 0 = false)) ∧
  -- what a ring's completion does
  (∃ (s : State) (q : Nat) (d : JobDesc) (st : Status) (det ib ob va vb bl ck : Nat),
    (s.regsWf = true) ∧
    (s.regFld (cmpRing q 0x10) 5 1 = 1 ∧ s.regFld (cmpRing q 0x10) 19 1 = 0)) :=
  ⟨⟨ready, 15, 3, by decide +kernel⟩,
   ⟨ringState, 1, 2, by decide +kernel⟩,
   ⟨{ running with cmp := { queue := [.run (.run 0 0 64) { op := 1, format := 1, flags := 0, tag := 0, inAddr := 0, inLen := 8, outAddr := 64, outCap := 64, expected := 0, stateAddr := 128, histAddr := 0 } false] } }, 1, 0, 0, 64, { op := 1, format := 1, flags := 0, tag := 0, inAddr := 0, inLen := 8, outAddr := 64, outCap := 64, expected := 0, stateAddr := 128, histAddr := 0 }, false, aRun, [], by decide +kernel⟩,
   ⟨{ ready with hostMem := [(0, 1), (1, 2), (3, 0xFD), (4, 0xFF), (5, 7), (6, 9)], cmp := { jobs := [{ engine := 1, owner := .ring 2, desc := { op := 1, format := 1, flags := 0, tag := 0, inAddr := 0, inLen := 13, outAddr := 64, outCap := 64, expected := 0, stateAddr := 128, histAddr := 0 } }] } }, 1, 0, 2, { engine := 1, owner := .ring 2, desc := { op := 1, format := 1, flags := 0, tag := 0, inAddr := 0, inLen := 13, outAddr := 64, outCap := 64, expected := 0, stateAddr := 128, histAddr := 0 } }, by decide +kernel⟩,
   ⟨{ ready with hostMem := [(0, 1), (1, 2), (3, 0xFD), (4, 0xFF), (5, 7), (6, 9)], cmp := { jobs := [{ engine := 1, owner := .ring 2, desc := { op := 1, format := 1, flags := 0, tag := 0, inAddr := 0, inLen := 13, outAddr := 64, outCap := 64, expected := 0, stateAddr := 128, histAddr := 0 } }] } }, 2, 0, { engine := 1, owner := .ring 2, desc := { op := 1, format := 1, flags := 0, tag := 0, inAddr := 0, inLen := 13, outAddr := 64, outCap := 64, expected := 0, stateAddr := 128, histAddr := 0 } }, by decide +kernel⟩,
   ⟨{ ready with cmp := { jobs := [{ engine := 1, owner := .ring 2, desc := { op := 2, format := 1, flags := 1, tag := 0, inAddr := 0, inLen := 8, outAddr := 64, outCap := 64, expected := 0, stateAddr := 128, histAddr := 0 } }] } }, 1, 2, { engine := 1, owner := .ring 2, desc := { op := 2, format := 1, flags := 1, tag := 0, inAddr := 0, inLen := 8, outAddr := 64, outCap := 64, expected := 0, stateAddr := 128, histAddr := 0 } }, by decide +kernel⟩,
   ⟨{ ready with cmp := { jobs := [{ engine := 1, owner := .ring 2, desc := { op := 2, format := 1, flags := 1, tag := 0, inAddr := 0, inLen := 8, outAddr := 64, outCap := 64, expected := 0, stateAddr := 128, histAddr := 0 } }] } }, 1, 0, { engine := 1, owner := .ring 2, desc := { op := 2, format := 1, flags := 1, tag := 0, inAddr := 0, inLen := 8, outAddr := 64, outCap := 64, expected := 0, stateAddr := 128, histAddr := 0 } }, by decide +kernel⟩,
   ⟨{ ready with cmp := { jobs := [{ engine := 1, owner := .ring 2, desc := { op := 2, format := 1, flags := 0, tag := 0, inAddr := 0, inLen := 8, outAddr := 64, outCap := 64, expected := 0, stateAddr := 128, histAddr := 0 } }] } }, 1, 0, { engine := 1, owner := .ring 2, desc := { op := 2, format := 1, flags := 0, tag := 0, inAddr := 0, inLen := 8, outAddr := 64, outCap := 64, expected := 0, stateAddr := 128, histAddr := 0 } }, by decide +kernel⟩,
   ⟨{ ready with regs := [(0x400150, 0x00000060)] }, 2, jobDesc [], 0, 0, 0, 0, 0, 0, 0, 0, by decide +kernel⟩⟩

/-- The hypotheses of CheckJobsAndContexts are met, clause by clause. -/
theorem test_meets_CheckJobsAndContexts :
  -- CHECK_JOB_END of a ring's job
  (∃ (s : State) (e q : Nat) (j : CmpJob),
    (s.cmp.jobs.find? (fun j => j.engine == e && j.desc.op == 3) = some j) ∧
    (j.owner = .ring q) ∧
    ((s.checkRun 0 j.desc.format (j.desc.flags.testBit 3) (j.desc.flags.testBit 4)
      (s.jobRead (.ring q) j.desc.inAddr j.desc.inLen)).2.1.length ≤ j.desc.outCap)) ∧
  -- the alive test
  (∃ (s : State) (die c v : Nat),
    (s.regFld (chkCtx die c 0x28) 16 1 = 1)) ∧
  -- CHK_CTX_HOLD
  (∃ (s : State) (die c : Nat) (v : Word),
    (die < 2 ∧ c < 256)) ∧
  -- CHK_CTX_WRITE
  (∃ (s : State) (die c w : Nat) (v : Word),
    (die < 2 ∧ c < 256 ∧ w % 4 = 0 ∧ w < 0x2C ∧ w ≠ 4)) ∧
  -- a CFG write outside its ranges
  (∃ (s : State) (die c : Nat) (v : Word),
    (fld v 0 7 < 8 ∨ 64 < fld v 0 7 ∨ (1 ≤ fld v 16 5 ∧ fld v 16 5 ≤ 3) ∨ 16 < fld v 16 5 ∨ 11 < fld v 11 5)) :=
  ⟨⟨{ ready with cmp := { jobs := [{ engine := 33, owner := .ring 2, desc := { op := 3, format := 1, flags := 24, tag := 0, inAddr := 0, inLen := 8, outAddr := 64, outCap := 64, expected := 0, stateAddr := 128, histAddr := 0 } }] } }, 33, 2, { engine := 33, owner := .ring 2, desc := { op := 3, format := 1, flags := 24, tag := 0, inAddr := 0, inLen := 8, outAddr := 64, outCap := 64, expected := 0, stateAddr := 128, histAddr := 0 } }, by decide +kernel⟩,
   ⟨{ ready with regs := [(0x411068, 0x00010004), (0x411040, 0x02080020)] }, 0, 1, 5, by decide +kernel⟩,
   ⟨ready, 1, 255, 1, by decide +kernel⟩,
   ⟨ready, 1, 255, 0x28, 1, by decide +kernel⟩,
   ⟨ready, 0, 0, 7, by decide +kernel⟩⟩

/-- The hypotheses of StreamsOpenParameteriseAndClose are met, clause by clause. -/
theorem test_meets_StreamsOpenParameteriseAndClose :
  -- STREAM_OPEN refused
  (∃ (s : State) (p : ReqPath) (b : List Byte) (st : Status),
    (s.openChecks b = .error st)) ∧
  -- the first checks, in order
  (∃ (s : State) (b : List Byte),
    (s.trust.zeroised = false)) ∧
  -- the checks all pass
  (∃ (s : State) (b : List Byte) (p : StreamParams) (g : Graph) (o : OpenPlan),
    (s.trust.zeroised = false ∧ p = streamParams b ∧ s.ctxByStream p.streamId = none ∧ p.replay = false) ∧
    (s.streamEng.ctxs.length < 512 ∧ (s.streamEng.ctxs.foldl (fun a x => a + x.2.params.windowOf) 0) + p.windowOf ≤ 1048576) ∧
    ((p.live = true ∧ s.channelFree p.nsid = true ∧ o = { params := p }) ∨
      (p.live = false ∧ s.mediaGate = none ∧ (s.memberNs p.nsid = false ∨ s.groupGate = none) ∧
        s.snapshotPlan p { params := p } = some o ∧ s.nsSealedDone p.nsid = true)) ∧
    (s.graphOf p.graph = some g) ∧
    (s.shapeOk b p o.sampleCount (some (graphFormeLength g p.slots)) = true) ∧
    (s.witnessCheck p = none)) ∧
  -- STREAM_OPEN accepted
  (∃ (s t : State) (p : ReqPath) (b : List Byte) (o : OpenPlan) (runs : List Nat),
    (s.openChecks b = .ok o) ∧
    (s.startStages s.freeCtx o.params.seed o.graph.stageRuns = (0, runs, t)) ∧
    (o.params.witness = false) ∧
    (t.groupCtx (s.planCtx o runs) = false)) ∧
  -- a Stream Open whose stage run does not start
  (∃ (s : State) (p : ReqPath) (b : List Byte) (o : OpenPlan),
    (s.openChecks b = .ok o) ∧
    ((s.startStages s.freeCtx o.params.seed o.graph.stageRuns).1 ≠ 0)) ∧
  -- STREAM_CLOSE
  (∃ (s : State) (p : ReqPath) (id c : Nat) (x : StreamCtx),
    (s.ctxByStream id = some (c, x)) ∧
    (x.closing = none)) ∧
  -- requests on a stream that is not open or is closing
  (∃ (s : State) (p : ReqPath) (id m len : Nat) (b : List Byte),
    ((∀ c x, s.ctxByStream id = some (c, x) → x.closing.isSome = true)) ∧
    (leField b 6 2 = id)) ∧
  -- STREAM_CLOSE_COMPLETE
  (∃ (s : State) (p : ReqPath) (c : Nat) (x : StreamCtx),
    (s.ctxOf c = some x) ∧
    (x.closing = some p)) ∧
  -- STREAM_RESUME
  (∃ (s : State) (p : ReqPath) (id m c : Nat) (x : StreamCtx),
    (s.ctxByStream id = some (c, x)) ∧
    (x.closing = none)) ∧
  -- STREAM_PARAMETERS, refused by the first failing check or stored
  (∃ (s : State) (p : ReqPath) (b : List Byte) (c : Nat) (x : StreamCtx) (rs : List PushRecord),
    (s.ctxByStream (leField b 6 2) = some (c, x)) ∧
    (x.closing = none) ∧
    (x.params.replay = false) ∧
    (s.groupCtx x = false) ∧
    (rs = (List.range (leField b 8 4)).map (fun i => pushRecord (slice b (32 + 80 * i) 80)))) ∧
  -- one record stored, in a stream with no witness
  (∃ (s : State) (p : ReqPath) (c : Nat) (x : StreamCtx) (r : PushRecord),
    (s.ctxOf c = some x) ∧
    (x.params.witness = false)) :=
  ⟨⟨ready, .image, [], 0x0403, (by rfl)⟩,
   ⟨ready, [], by decide +kernel⟩,
   ⟨liveOpen, liveBlock, streamParams liveBlock, { fields := [], sections := [] }, { params := streamParams liveBlock }, by decide +kernel⟩,
   ⟨liveOpen, liveOpen, .image, liveBlock, (match liveOpen.openChecks liveBlock with | .ok o => o | .error _ => { params := params 8 2 }), [], (by rfl), (by rfl), (by rfl), (by rfl)⟩,
   ⟨stageOpen, .image, liveBlock, (match stageOpen.openChecks liveBlock with | .ok o => o | .error _ => { params := params 8 2 }), (by rfl), (by decide +kernel)⟩,
   ⟨{ ready with streamEng := { ctxs := [(3, ctx 0 9)] } }, .image, 9, 3, ctx 0 9, by decide +kernel⟩,
   ⟨ready, .image, 9, 0, 0, leBytes 6 0 ++ leBytes 2 9, (by intro c x h; have e : ready.ctxByStream 9 = none := (by decide +kernel); rw [e] at h; cases h), (by decide +kernel)⟩,
   ⟨{ ready with streamEng := { ctxs := [(3, { ctx 0 9 with closing := some .image })] } }, .image, 3, { ctx 0 9 with closing := some .image }, by decide +kernel⟩,
   ⟨{ ready with streamEng := { ctxs := [(3, ctx 0 9)] } }, .image, 9, 0, 3, ctx 0 9, by decide +kernel⟩,
   ⟨{ ready with streamEng := { ctxs := [(3, ctx 0 9)] } }, .image, leBytes 6 0 ++ leBytes 2 9, 3, ctx 0 9, [], by decide +kernel⟩,
   ⟨{ ready with streamEng := { ctxs := [(3, ctx 0 9)] } }, .image, 3, ctx 0 9, { epoch := 0, folio := 4, entry := [] }, by decide +kernel⟩⟩

/-- The hypotheses of CandidatesBecomeFormes are met, clause by clause. -/
theorem test_meets_CandidatesBecomeFormes :
  -- CANDIDATE_START
  (∃ (s : State) (c g j : Nat) (x : StreamCtx),
    (s.ctxOf c = some x) ∧
    (x.mayStart g = true) ∧
    (x.params.live = false) ∧
    (x.slotAt g = none) ∧
    (j ≤ 8 ∧ s.blockHeld 5 = false)) ∧
  -- outside the window nothing starts
  (∃ (s : State) (c g j : Nat) (x : StreamCtx),
    (s.ctxOf c = some x) ∧
    (x.mayStart g = false)) ∧
  -- STAGE_COMPLETE, the record stage of a snapshot stream
  (∃ (s : State) (c g j : Nat) (x : StreamCtx) (y : Slot) (z : Candidate),
    (s.candAt c g j = some (x, y, z)) ∧
    (x.params.live = false) ∧
    (z.stage = 0)) ∧
  -- STAGE_COMPLETE of a stage that is not under way
  (∃ (s : State) (c g j stage : Nat) (x : StreamCtx) (y : Slot) (z : Candidate),
    (s.candAt c g j = some (x, y, z)) ∧
    (stage ≠ z.stage)) ∧
  -- STAGE_COMPLETE, the decode stage of a field of a snapshot stream
  (∃ (s : State) (c g j i unit : Nat) (f : GraphField) (x : StreamCtx) (y : Slot) (z : Candidate),
    (s.candAt c g j = some (x, y, z)) ∧
    (graphLookup (x.candGraph z) ≠ some z.stage ∨ z.entry.isSome = true) ∧
    ((graphStages (x.candGraph z))[z.stage]? = some (.decode i)) ∧
    ((x.candGraph z).fields[i]? = some f) ∧
    (f.text = none ∧ x.params.live = false) ∧
    (s.decodeUp f (s.fieldOf x z f.tag).1 = some unit)) ∧
  -- STAGE_COMPLETE, an operation
  (∃ (s : State) (c g j i k unit : Nat) (f : GraphField) (op : AugOp) (x : StreamCtx) (y : Slot) (z : Candidate),
    (s.candAt c g j = some (x, y, z)) ∧
    (graphLookup (x.candGraph z) ≠ some z.stage ∨ z.entry.isSome = true) ∧
    ((graphStages (x.candGraph z))[z.stage]? = some (.op i k)) ∧
    ((x.candGraph z).fields[i]? = some f) ∧
    (f.ops[k]? = some op ∧ s.unitUp 5 = some unit)) ∧
  -- STAGE_COMPLETE, the sieve
  (∃ (s : State) (c g j cost plate : Nat) (takes : Bool) (x : StreamCtx) (y : Slot) (z : Candidate),
    (s.candAt c g j = some (x, y, z)) ∧
    (graphLookup (x.candGraph z) ≠ some z.stage ∨ z.entry.isSome = true) ∧
    ((graphStages (x.candGraph z))[z.stage]? = some .sieve) ∧
    ((x.candGraph z).sieve = some { cost := cost, takesUser := takes }) ∧
    ((x.candGraph z).stageRuns.getLast? = some plate ∧ s.stageUp x plate = true) ∧
    (x.params.live = false)) ∧
  -- STAGE_COMPLETE, the generation
  (∃ (s : State) (c g j sect plate : Nat) (x : StreamCtx) (y : Slot) (z : Candidate),
    (s.candAt c g j = some (x, y, z)) ∧
    (graphLookup (x.candGraph z) ≠ some z.stage ∨ z.entry.isSome = true) ∧
    ((graphStages (x.candGraph z))[z.stage]? = some .gen) ∧
    ((x.candGraph z).gen = some sect) ∧
    ((x.candGraph z).stageRuns.head? = some plate ∧ s.stageUp x plate = true)) ∧
  -- PARAM_LOOKUP in the push store
  (∃ (s : State) (c g j : Nat) (x : StreamCtx) (y : Slot) (z : Candidate) (r : PushRecord),
    (s.candAt c g j = some (x, y, z)) ∧
    (graphLookup (x.candGraph z) = some z.stage) ∧
    (z.entry = none ∧ y.failedBelow j = true) ∧
    (x.paramLba = 0) ∧
    (x.params.replay = false) ∧
    (x.complete (x.epochAt g) = true)) ∧
  -- FORME_HANDOFF to the oldest Forme Read
  (∃ (s : State) (c : Nat) (x : StreamCtx) (ys : List (SlotEntry × List (Nat × List Sample))) (q : ReqPath) (qs : List ReqPath),
    (s.ctxOf c = some x) ∧
    (x.haltedHere = none) ∧
    (x.formeSlots x.next = some ys) ∧
    (s.formeGo x x.next = true ∧ s.formeCrosses x (x.formeBytes s.padOf x.next ys) = true) ∧
    (x.params.consumer = 0) ∧
    (x.formeReads = q :: qs)) ∧
  -- FORME_HANDOFF to a consumer on the fabric
  (∃ (s : State) (c : Nat) (x : StreamCtx) (ys : List (SlotEntry × List (Nat × List Sample))),
    (s.ctxOf c = some x) ∧
    (x.haltedHere = none) ∧
    (x.formeSlots x.next = some ys) ∧
    (s.formeGo x x.next = true ∧ s.formeCrosses x (x.formeBytes s.padOf x.next ys) = true) ∧
    (x.params.consumer ≠ 0)) ∧
  -- a forme without credit, or not complete, stays
  (∃ (s : State) (c : Nat) (x : StreamCtx),
    (s.ctxOf c = some x) ∧
    (x.haltedHere = none) ∧
    (x.formeSlots x.next = none ∨ s.formeGo x x.next = false)) ∧
  -- FORME_READ
  (∃ (s : State) (p : ReqPath) (id len c : Nat) (x : StreamCtx),
    (s.ctxByStream id = some (c, x)) ∧
    (x.closing = none)) ∧
  -- FORME_READ_COMPLETE
  (∃ (s : State) (fn q cid k : Nat) (a : HostAccess) (d : CmdDone) (cmd : Cmd) (h : HeldForme),
    (s.doneCmd fn q cid = some (d, cmd)) ∧
    (s.heldBy (.yqi fn q cid) = some (k, h))) ∧
  -- a credit message
  (∃ (s : State) (id a l c : Nat) (x : StreamCtx),
    (s.ctxByStream id = some (c, x)) ∧
    (x.closing = none) ∧
    (s.group.rehoming.contains c = false)) ∧
  -- GNOZ_RX_CREDIT
  (∃ (s : State) (device msgId : Nat) (m : InMsg),
    (s.inMsg device msgId 6 = some m)) ∧
  -- GNOZ_RX_CREDIT that advances A or LIMIT
  (∃ (s : State) (device msgId c : Nat) (m : InMsg) (x : StreamCtx),
    (s.inMsg device msgId 6 = some m ∧ m.hdr.dstQueue = 0xFFFF) ∧
    ((s.dropIn m).ctxByStream (m.hdr.immediate % 65536) = some (c, x)) ∧
    (x.closing = none ∧ (s.dropIn m).group.rehoming.contains c = false ∧ x.params.consumer / 2 ^ 32 % 2 ^ 24 = device) ∧
    (seqFrom 48 (m.hdr.immediate / 65536) x.ack = true ∧ seqFrom 48 (m.hdr.remoteAddr % 2 ^ 48) x.limit = true) ∧
    (seqEarlier 48 (m.hdr.remoteAddr % 2 ^ 48) (m.hdr.immediate / 65536) = false ∧
      (m.hdr.remoteAddr % 2 ^ 48 + 2 ^ 48 - m.hdr.immediate / 65536) % 2 ^ 48 ≤ 64)) :=
  ⟨⟨{ ready with streamEng := { ctxs := [(3, { ctx 0 9 with sampleCount := 32 })] } }, 3, 1, 0, { ctx 0 9 with sampleCount := 32 }, by decide +kernel⟩,
   ⟨{ ready with streamEng := { ctxs := [(3, ctx 0 9)] } }, 3, 9999, 0, ctx 0 9, by decide +kernel⟩,
   ⟨withCtx stageCtx, 3, 0, 0, stageCtx, { g := 0, cands := [stageCand] }, stageCand, by decide +kernel⟩,
   ⟨withCtx stageCtx, 3, 0, 0, 1, stageCtx, { g := 0, cands := [stageCand] }, stageCand, by decide +kernel⟩,
   ⟨withCtx decCtx, 3, 0, 0, 0, 0, decField, decCtx, { g := 0, cands := [decCand] }, decCand, by decide +kernel⟩,
   ⟨withCtx opCtx, 3, 0, 0, 0, 0, 0, opField, .tone, opCtx, { g := 0, cands := [opCand] }, opCand, by decide +kernel⟩,
   ⟨{ running with streamEng := { ctxs := [(3, sieveCtx)] } }, 3, 0, 0, 5, 1, false, sieveCtx, { g := 0, cands := [sieveCand] }, sieveCand, by decide +kernel⟩,
   ⟨{ running with streamEng := { ctxs := [(3, genCtx)] } }, 3, 0, 0, 2, 1, genCtx, { g := 0, cands := [sieveCand] }, sieveCand, by decide +kernel⟩,
   ⟨withCtx lookCtx, 3, 0, 0, lookCtx, { g := 0, cands := [lookCand] }, lookCand, lookRec, by decide +kernel⟩,
   ⟨withCtx handCtx, 3, handCtx, List.replicate 4 ({ folio := 1 }, []), .yqi 0 1 5, [], by decide +kernel⟩,
   ⟨withCtx fabCtx, 3, fabCtx, List.replicate 4 ({ folio := 1 }, []), by decide +kernel⟩,
   ⟨withCtx (ctx 0 9), 3, ctx 0 9, by decide +kernel⟩,
   ⟨withCtx handCtx, .yqi 0 1 6, 9, 8192, 3, handCtx, by decide +kernel⟩,
   ⟨heldState, 0, 1, 5, 3, .ok, heldDone, heldCmd, { n := 0, path := some (.yqi 0 1 5), bytes := [] }, by decide +kernel⟩,
   ⟨{ ready with streamEng := { ctxs := [(3, ctx 0 9)] } }, 9, 0, 8, 3, ctx 0 9, by decide +kernel⟩,
   ⟨{ withCtx fabCtx with gnoz := { inbox := [creditMsg] } }, 0, 4, creditMsg, by decide +kernel⟩,
   ⟨{ withCtx fabCtx with gnoz := { inbox := [creditMsg] } }, 0, 4, 3, creditMsg, fabCtx, by decide +kernel⟩⟩

/-- The hypotheses of DecodersIngestAndGeneration are met, clause by clause. -/
theorem test_meets_DecodersIngestAndGeneration :
  -- DECODER_UNIT_FAULT and DECODER_NO_PROGRESS
  (∃ (s : State) (cls unit : Nat),
    (1 ≤ cls ∧ cls ≤ 5) ∧
    (unit < decUnits cls)) ∧
  -- LANE_FAULT and LANE_NO_PROGRESS
  (∃ (s : State) (lane : Nat),
    (lane < 64)) ∧
  -- RTP_PACKET
  (∃ (s w u : State) (f : FrameInfo) (port c : Nat) (b : List Byte),
    (w = s.wakeEvent .packet) ∧
    ((List.range 64).find? (fun c => w.liveEnabled c && w.regFld (liveReg c 4) 0 16 == port) = some c) ∧
    (w.policeOther f (some (0x200 + 4 * c)) = (true, u))) ∧
  -- RTP_PACKET to no channel, or dropped by its policer
  (∃ (s w u : State) (f : FrameInfo) (port : Nat) (b : List Byte),
    (w = s.wakeEvent .packet) ∧
    ((List.range 64).find? (fun c => w.liveEnabled c && w.regFld (liveReg c 4) 0 16 == port) = none)) ∧
  -- LIVE_UNIT_TIMEOUT
  (∃ (s : State) (c : Nat) (u : OpenUnit) (us : List OpenUnit),
    ((s.liveChan c).units = u :: us)) ∧
  -- a closed unit takes the next folio, or is dropped
  (∃ (s : State) (c k : Nat) (u : LiveUnit) (x : StreamCtx),
    (s.boundStream c = some (k, x)) ∧
    (x.params.replay = false) ∧
    (x.closing = none) ∧
    (x.params.witness = false) ∧
    (s.ctxOf k = some x)) ∧
  -- DEC_LIVE_CFG_WRITE
  (∃ (s : State) (c : Nat) (v : Word),
    (c < 64)) ∧
  -- GEN_OPEN of a run without a stream
  (∃ (s : State) (k l i : Nat) (b : List Byte) (a : GenBuffers) (r : Run) (v : Vocab),
    (s.runAt k = some r) ∧
    (r.state = .running) ∧
    (r.stage = none) ∧
    (s.freeGen = some (l, i)) ∧
    (s.vocabOf (leField b 6 1) = some v)) ∧
  -- GEN_OPEN with no context free, or outside a running run
  (∃ (s : State) (k : Nat) (b : List Byte) (a : GenBuffers) (r : Run),
    (s.runAt k = some r) ∧
    (s.freeGen = none) ∧
    (s.genOk b = true) ∧
    (r.stage = none)) ∧
  -- GEN_STEP
  (∃ (s : State) (lane idx token : Nat) (g : GenCtx) (v : Vocab),
    (s.genAt lane idx = some g) ∧
    (s.vocabOf g.vocab = some v)) :=
  ⟨⟨ready, 2, 31, by decide +kernel⟩,
   ⟨ready, 63, by decide +kernel⟩,
   ⟨liveState, liveState.wakeEvent .packet, ((liveState.wakeEvent .packet).policeOther liveFrame (some 0x200)).2, liveFrame, 5000, 0, livePacket, by decide +kernel⟩,
   ⟨ready, ready.wakeEvent .packet, ready, liveFrame, 5000, livePacket, by decide +kernel⟩,
   ⟨openState, 0, openUnit, [], by decide +kernel⟩,
   ⟨{ ready with streamEng := { ctxs := [(3, { ctx 8 9 with params := { params 8 9 with nsid := 5 } })] } }, 5, 3, liveUnitOf [], { ctx 8 9 with params := { params 8 9 with nsid := 5 } }, by decide +kernel⟩,
   ⟨ready, 63, 1, by decide +kernel⟩,
   ⟨genState, 0, 0, 0, genReq, { outAddr := 0, mailbox := 0, mask := 0, counter := 0 }, aRun, aVocab, by decide +kernel⟩,
   ⟨{ genState with text := { genState.text with oos := BitVec.allOnes 64 } }, 0, genReq, { outAddr := 0, mailbox := 0, mask := 0, counter := 0 }, aRun, by decide +kernel⟩,
   ⟨genState, 1, 2, 5, aGen, aVocab, by decide +kernel⟩⟩

/-- The hypotheses of QueueRestartsAfterFreeze are met, clause by clause. -/
theorem test_meets_QueueRestartsAfterFreeze :
  -- QUEUE_RESTART_RESUME and QUEUE_RESTART_SKIP of a frozen queue
  (∃ (s : State) (fn q cid : Nat) (x : Queue),
    (s.queueAt fn q = some x) ∧
    (x.frozen = true)) ∧
  -- a queue that is not frozen, or does not exist
  (∃ (s : State) (fn q cid : Nat),
    ((∀ x, s.queueAt fn q = some x → x.frozen = false))) :=
  ⟨⟨yqiFrozen, 0, 1, 5, { ioQueue with frozen := true, resumeHead := 2 }, by decide +kernel⟩,
   ⟨ready, 0, 1, 5, (by intro x h; have e : ready.queueAt 0 1 = none := (by decide +kernel); rw [e] at h; cases h)⟩⟩

/-- The hypotheses of QueuesFetchAndComplete are met, clause by clause. -/
theorem test_meets_QueuesFetchAndComplete :
  -- SQ_TAIL_DOORBELL and CQ_HEAD_DOORBELL
  (∃ (s : State) (fn q v : Nat) (x : Queue),
    (s.queueAt fn q = some x)) ∧
  -- a doorbell to a queue that does not exist
  (∃ (s : State) (fn q v : Nat),
    (s.queueAt fn q = none)) ∧
  -- what a freeze leaves
  (∃ (s : State) (fn q : Nat) (x : Queue),
    (s.queueAt fn q = some x) ∧
    (x.frozen = false) ∧
    (q ≠ 0)) ∧
  -- COMMAND_FETCH
  (∃ (s : State) (a : HostAccess) (x : Queue),
    (s.arbiter = some x) ∧
    (x.qid ≠ 0)) ∧
  -- COMMAND_FETCH with nothing to fetch
  (∃ (s : State) (a : HostAccess),
    (s.arbiter = none)) ∧
  -- IO_COMMAND_COMPLETE
  (∃ (s : State) (fn q cid : Nat) (a : HostAccess) (d : CmdDone) (c : Cmd),
    (s.doneCmd fn q cid = some (d, c)) ∧
    (s.heldBy (.yqi fn q cid) = none)) ∧
  -- the CQ entry of a failed I/O command freezes its queue
  (∃ (s : State) (d : CmdDone) (c : Cmd) (x : Queue),
    (s.queueAt d.fn d.qid = some x) ∧
    (d.status ≠ 0) ∧
    (d.qid ≠ 0) ∧
    (x.frozen = false) ∧
    (x.irqEn = false)) ∧
  -- COALESCE_TIMEOUT
  (∃ (s : State) (fn v : Nat) (f : Fn) (c : Coalesce),
    (s.fnAt fn = some f) ∧
    (f.coalesce.find? (fun c => c.vector == v) = some c)) ∧
  -- QUEUE_CREATE
  (∃ (s : State) (fn cid q depth v sq cq : Nat) (irq : Bool) (f : Fn),
    (s.fnAt fn = some f)) ∧
  -- QUEUE_DELETE_DONE
  (∃ (s : State) (fn q : Nat) (x : Queue) (cid : Option Nat),
    (s.queueAt fn q = some x) ∧
    (x.deleting = some cid)) ∧
  -- AQ_ENABLE and AQ_DISABLE
  (∃ (s : State) (fn : Nat) (v : Word) (f : Fn),
    (s.fnAt fn = some f)) ∧
  -- PCIE_LINK_DOWN and PCIE_LINK_UP
  (∃ (s : State) (l speed width : Nat) (flit : Bool),
    (l < 2)) :=
  ⟨⟨yqiState, 0, 1, 15, ioQueue, by decide +kernel⟩,
   ⟨ready, 0, 1, 15, by decide +kernel⟩,
   ⟨yqiState, 0, 1, ioQueue, by decide +kernel⟩,
   ⟨yqiState, .ok, ioQueue, by decide +kernel⟩,
   ⟨ready, .ok, by decide +kernel⟩,
   ⟨{ yqiState with yqi := { yqiState.yqi with admitted := [heldCmd], done := [heldDone] } }, 0, 1, 5, .ok, heldDone, heldCmd, by decide +kernel⟩,
   ⟨yqiState, { heldDone with status := 0x0201 }, heldCmd, ioQueue, by decide +kernel⟩,
   ⟨{ yqiState with yqi := { yqiState.yqi with fns := [aFn] } }, 0, 3, aFn, { vector := 3, threshold := 8, time := 20, count := 1 }, by decide +kernel⟩,
   ⟨ready, 0, 5, 2047, 65536, 1023, 4096, 8192, true, { g := 0, queues := 2048, vectors := 1024 }, by decide +kernel⟩,
   ⟨{ yqiState with yqi := { yqiState.yqi with queues := [{ ioQueue with deleting := some (some 7) }] } }, 0, 1, { ioQueue with deleting := some (some 7) }, some 7, by decide +kernel⟩,
   ⟨ready, 0, 0x1001, { g := 0, queues := 2048, vectors := 1024 }, by decide +kernel⟩,
   ⟨ready, 1, 64, 16, true, by decide +kernel⟩⟩

/-- The hypotheses of AdminCommands are met, clause by clause. -/
theorem test_meets_AdminCommands :
  -- GET_LOG
  (∃ (s : State) (p : ReqPath) (page off len : Nat),
    (off % 64 = 0) ∧
    (isVf p = false)) ∧
  -- GET_LOG at another offset, or of a page a virtual function may not read
  (∃ (s : State) (p : ReqPath) (page off len : Nat),
    (off % 64 ≠ 0 ∨ (isVf p = true ∧ page ≠ 1 ∧ page ≠ 2))) ∧
  -- GET_FEATURE
  (∃ (s : State) (p : ReqPath) (sel : Nat) (f : Fn),
    (s.fnOf p = some f) ∧
    (isVf p = false)) ∧
  -- SET_COALESCING
  (∃ (s : State) (p : ReqPath) (v th t : Nat) (f : Fn),
    (s.fnOf p = some f)) ∧
  -- SET_VF_RESOURCES
  (∃ (s : State) (p : ReqPath) (vf q n : Nat) (f : Fn),
    (s.fnOf p = some f) ∧
    (isVf p = false)) ∧
  -- SET_NS_VISIBILITY
  (∃ (s : State) (p : ReqPath) (vf : Nat) (map : BitVec 256),
    (isVf p = false)) ∧
  -- features of the physical function, from a virtual one
  (∃ (s : State) (p : ReqPath) (vf q n c o : Nat) (map : BitVec 256) (f : Fn),
    (isVf p = true) ∧
    (s.fnOf p = some f)) ∧
  -- SET_MEDIA_LAYOUT
  (∃ (s : State) (p : ReqPath) (c o : Nat),
    (isVf p = false)) ∧
  -- the checks of an image, in order
  (∃ (s : State) (b c : List Byte),
    (c = b.take (leField b 0x10 8))) ∧
  -- FIRMWARE_COMMIT, accepted
  (∃ (s : State) (p : ReqPath) (act : Bool),
    (s.quoinSet 13 = false) ∧
    ((s.configCheck s.stagedImage).1 = 0)) :=
  ⟨⟨ready, .image, 4, 64, 512, by decide +kernel⟩,
   ⟨ready, .image, 1, 32, 64, by decide +kernel⟩,
   ⟨ready, .yqi 0 0 5, 3, { g := 0, queues := 2048, vectors := 1024 }, by decide +kernel⟩,
   ⟨ready, .yqi 0 0 5, 1023, 256, 255, { g := 0, queues := 2048, vectors := 1024 }, by decide +kernel⟩,
   ⟨ready, .yqi 0 0 5, 31, 64, 32, { g := 0, queues := 2048, vectors := 1024 }, by decide +kernel⟩,
   ⟨ready, .yqi 0 0 5, 1, 2, by decide +kernel⟩,
   ⟨{ ready with yqi := { fns := [{ g := 1 }] } }, .yqi 1 0 5, 1, 1, 1, 1, 14, 0, { g := 1 }, by decide +kernel⟩,
   ⟨ready, .image, 2, 100, by decide +kernel⟩,
   ⟨commitState, configImg, configImg, by decide +kernel⟩,
   ⟨commitState, .image, true, by decide +kernel⟩⟩

/-- The hypotheses of GnozMessagesAreReceived are met, clause by clause. -/
theorem test_meets_GnozMessagesAreReceived :
  -- GNOZ_FRAGMENT_RECEIVE, packets that are dropped
  (∃ (s w u : State) (p : GnozPacket) (ce : Bool),
    (s.netFenced = false) ∧
    (s.power.tripAt = none) ∧
    (w = s.wakeEvent .packet)) ∧
  -- GNOZ_FRAGMENT_RECEIVE, behind a fence or after a thermal trip
  (∃ (s : State) (p : GnozPacket),
    (s.netFenced = true ∨ s.power.tripAt.isSome = true)) ∧
  -- GNOZ_FRAGMENT_RECEIVE, a duplicate
  (∃ (s w u : State) (p : GnozPacket) (ce : Bool) (d : DupEntry),
    (s.netFenced = false) ∧
    (s.power.tripAt = none) ∧
    (w = s.wakeEvent .packet) ∧
    (w.policeFrame p.port (p.frameBytes + 20) p.dscp (if beField p.header 1 1 < 16 then some (0x100 + 4 * beField p.header 1 1) else none) = (true, ce, u)) ∧
    (u.gnozEnabled = true) ∧
    (u.packetDrop p = none) ∧
    (u.gnoz.dups.find? (fun d => d.device == (parseHdr p.header).device && d.msgId == (parseHdr p.header).msgId) = some d)) ∧
  -- GNOZ_FRAGMENT_RECEIVE, a message of one fragment, and a fragment of a longer one
  (∃ (s w u v : State) (p : GnozPacket) (ce : Bool),
    (s.netFenced = false) ∧
    (s.power.tripAt = none) ∧
    (w = s.wakeEvent .packet) ∧
    (w.policeFrame p.port (p.frameBytes + 20) p.dscp (if beField p.header 1 1 < 16 then some (0x100 + 4 * beField p.header 1 1) else none) = (true, ce, u)) ∧
    (u.gnozEnabled = true) ∧
    (u.packetDrop p = none) ∧
    (u.gnoz.dups.find? (fun d => d.device == (parseHdr p.header).device && d.msgId == (parseHdr p.header).msgId) = none)) ∧
  -- GNOZ_RX_WRITE to a key that names no namespace range
  (∃ (s : State) (device msgId : Nat) (pl : Placement) (m : InMsg),
    (s.inMsg device msgId 1 = some m) ∧
    (m.placed = false) ∧
    (m.hdr.kind = 1)) ∧
  -- GNOZ_RX_READ
  (∃ (s : State) (device msgId : Nat) (m : InMsg) (k : GnozKey),
    (s.inMsg device msgId 3 = some m) ∧
    (s.keyAt m.hdr.rkey = some k) ∧
    (k.kind = .bulk)) ∧
  -- GNOZ_RX_SYNC_ADD
  (∃ (s : State) (device msgId : Nat) (m : InMsg),
    (s.inMsg device msgId 5 = some m)) ∧
  -- GNOZ_RX_ARM
  (∃ (s : State) (device msgId : Nat) (m : InMsg),
    (s.inMsg device msgId 0xB = some m)) ∧
  -- GNOZ_RX_CONTROL
  (∃ (s : State) (device msgId : Nat) (m : InMsg),
    (s.inMsg device msgId 7 = some m)) ∧
  -- GNOZ_RX_ACK that matches no message
  (∃ (s : State) (device msgId : Nat) (a : InMsg),
    (s.inMsg device msgId 0xC = some a) ∧
    (s.gnoz.out = [])) ∧
  -- GNOZ_RX_ACK that completes a message, or refuses it
  (∃ (s : State) (device msgId i : Nat) (a : InMsg) (m : OutMsg),
    (s.inMsg device msgId 0xC = some a) ∧
    (s.gnoz.out.findIdx? (fun o => o.minted && !o.ended && o.hdr.msgId == a.hdr.immediate % 2 ^ 48 && o.hdr.device == device) = some i) ∧
    (s.gnoz.out[i]? = some m) ∧
    (a.hdr.flags.testBit 2 = false) ∧
    (a.hdr.flags.testBit 3 = false) ∧
    (m.flight = [])) :=
  ⟨⟨ready, ready.wakeEvent .packet, ready, aPacket, false, by decide +kernel⟩,
   ⟨{ ready with power := { ready.power with tripAt := some 0 } }, aPacket, by decide +kernel⟩,
   ⟨dupState, dupState.wakeEvent .packet, ((dupState.wakeEvent .packet).policeFrame 0 (aPacket.frameBytes + 20) 0 (some 0x108)).2.2, aPacket, false, { device := 5, msgId := 3, result := some (0, 0) }, by decide +kernel⟩,
   ⟨gnozState, gnozState.wakeEvent .packet, ((gnozState.wakeEvent .packet).policeFrame 0 (aPacket.frameBytes + 20) 0 (some 0x108)).2.2, ready, aPacket, false, by decide +kernel⟩,
   ⟨writeState, 5, 3, { pmas := [], bands := [] }, writeMsg, by decide +kernel⟩,
   ⟨readState, 5, 3, readMsg, aKey, by decide +kernel⟩,
   ⟨{ gnozState with gnoz := { gnozState.gnoz with inbox := [{ writeMsg with hdr := { writeMsg.hdr with kind := 5 } }] } }, 5, 3, { writeMsg with hdr := { writeMsg.hdr with kind := 5 } }, by decide +kernel⟩,
   ⟨{ gnozState with gnoz := { gnozState.gnoz with inbox := [{ writeMsg with hdr := { writeMsg.hdr with kind := 0xB } }] } }, 5, 3, { writeMsg with hdr := { writeMsg.hdr with kind := 0xB } }, by decide +kernel⟩,
   ⟨{ gnozState with gnoz := { gnozState.gnoz with inbox := [{ writeMsg with hdr := { writeMsg.hdr with kind := 7 } }] } }, 5, 3, { writeMsg with hdr := { writeMsg.hdr with kind := 7 } }, by decide +kernel⟩,
   ⟨{ gnozState with gnoz := { gnozState.gnoz with inbox := [ackMsg] } }, 5, 3, ackMsg, by decide +kernel⟩,
   ⟨{ gnozState with gnoz := { gnozState.gnoz with inbox := [ackMsg], out := [anOut] } }, 5, 3, 0, ackMsg, anOut, by decide +kernel⟩⟩

/-- The hypotheses of GnozSendsAndIsConfigured are met, clause by clause. -/
theorem test_meets_GnozSendsAndIsConfigured :
  -- GNZ_Q_DOORBELL
  (∃ (s : State) (q : Nat) (v : Word),
    (s.regsWf = true) ∧
    (q < 4096)) ∧
  -- the work requests: each command takes the next request of its operation
  (∃ (s : State) (q i : Nat) (w : WorkReq) (armed : Bool),
    (s.gqNext q = some (i, w, armed)) ∧
    (s.blockHeld 7 = false) ∧
    ((s.gq q).sealWaits.find? (fun x => x.2.2.isEmpty && !s.wrHeld x.2.1) = none)) ∧
  -- a sealed write whose group has ended while its check context was held goes first
  (∃ (s : State) (q : Nat) (x : Nat × WorkReq × List Nat),
    ((s.gq q).sealWaits.find? (fun x => x.2.2.isEmpty && !s.wrHeld x.2.1) = some x)) ∧
  -- RTO_EXPIRY and MESSAGE_EXPIRY
  (∃ (s : State) (i : Nat) (m : OutMsg),
    (s.gnoz.out[i]? = some m)) ∧
  -- what a retransmission changes in its message, while nothing is sent
  (∃ (s : State) (i : Nat) (m : OutMsg),
    (s.gnoz.out[i]? = some m) ∧
    (s.gnozSends = false) ∧
    (m.flight = [])) ∧
  -- FORME_RESEND, while nothing is sent
  (∃ (s : State) (c n : Nat) (m : OutMsg),
    (s.gnozSends = false) ∧
    (m ∈ s.gnoz.out) ∧
    (m.owner = .forme c n) ∧
    (m.ended = true) ∧
    (s.ctxServed c = true)) ∧
  -- GNZ_TABLE_WRITE and GNZ_TABLE_INVALIDATE of a route
  (∃ (s : State) (i : Nat),
    (s.tableSel = (false, i))) ∧
  -- GNZ_TABLE_INVALIDATE of a key, and a registration
  (∃ (s : State) (i base len notify : Nat) (w r : Bool) (kind : KeyKind),
    (s.tableSel = (true, i)) ∧
    (s.runKey i = none)) ∧
  -- KEY_REGISTER
  (∃ (s : State) (k i base len notify : Nat) (w r : Bool) (x : Run),
    (s.running k = some x) ∧
    (i ≤ 65535)) ∧
  -- GNZ_QUEUE_ALLOC
  (∃ (s : State) (k n wr cq : Nat) (x : Run),
    (s.running k = some x) ∧
    (4 ≤ n ∧ n ≤ 16) ∧
    (wr % 64 = 0 ∧ cq % 64 = 0)) ∧
  -- PTP_MESSAGE
  (∃ (s u : State) (f : FrameInfo) (offset : Int) (locked : Bool),
    (s.policeOther f none = (true, u))) ∧
  -- ARP_NEIGHBOUR_RX and ICMP_ECHO_RX
  (∃ (s u : State) (f : FrameInfo) (addr payload : List Byte),
    (s.policeOther f none = (true, u))) ∧
  -- GNZ_ETH_MODE_WRITE and ETH_PORT_LINK_CHANGE
  (∃ (s : State) (v : Word) (lp : Nat) (up : Bool),
    (s.regsWf = true)) :=
  ⟨⟨ready, 4095, 5, by decide +kernel⟩,
   ⟨wrState 2, 1, 0, aWr 2, true, by decide +kernel⟩,
   ⟨{ wrState 1 with gnoz := { (wrState 1).gnoz with queues := [{ q := 1, sealWaits := [(0, aWr 1, [])] }] } }, 1, (0, aWr 1, []), by decide +kernel⟩,
   ⟨{ gnozState with gnoz := { gnozState.gnoz with out := [anOut] } }, 0, anOut, by decide +kernel⟩,
   ⟨{ ready with gnoz := { out := [anOut] } }, 0, anOut, by decide +kernel⟩,
   ⟨{ withCtx fabCtx with gnoz := { out := [endedOut] } }, 3, 0, endedOut, by decide +kernel⟩,
   ⟨gnozState, 0, by decide +kernel⟩,
   ⟨keyState, 1, 64, 64, 0, true, true, .bulk, by decide +kernel⟩,
   ⟨{ running with gnoz := { keys := [{ aKey with registeredAt := 100 }] } }, 0, 2, 0, 64, 0, true, false, aRun, by decide +kernel⟩,
   ⟨running, 0, 4, 64, 128, aRun, by decide +kernel⟩,
   ⟨ready, (ready.policeOther liveFrame none).2, liveFrame, 5, true, by decide +kernel⟩,
   ⟨ready, (ready.policeOther liveFrame none).2, liveFrame, [1, 2, 3, 4], [], by decide +kernel⟩,
   ⟨ready, 3, 0, true, by decide +kernel⟩⟩

/-- The hypotheses of PoolsPolicersAndEgress are met, clause by clause. -/
theorem test_meets_PoolsPolicersAndEgress :
  -- BUFFER_REQUEST
  (∃ (s : State) (die port unit cls size idx : Nat),
    (die ≤ 1 ∧ cls ≤ 7) ∧
    (1 ≤ size ∧ size ≤ 2 ^ 23)) ∧
  -- BUFFER_FREE, BUFFER_DROP, BUFFER_SHARE and BUFFER_HANDOVER of a granted buffer
  (∃ (s : State) (h port unit : Nat) (b : Buffer) (new : List (Nat × Nat)) (p u : Nat),
    (s.bufAt h = some b)) ∧
  -- a handle of no buffer; a refusal changes no buffer
  (∃ (s : State) (h port unit : Nat) (new : List (Nat × Nat)) (p u : Nat),
    (s.bufAt h = none)) ∧
  -- CONFIG_SHADOW_WRITE
  (∃ (s : State) (o : Nat) (v : Word),
    (isShadow o = true)) ∧
  -- POLICER_TICK
  (∃ (s : State),
    (s.yqi.policed = [])) ∧
  -- EGRESS_SELECT
  (∃ (s : State) (port : Nat) (i : QueueInst) (f : Frame) (l : List Frame),
    (s.portUp port = true ∧ s.netFenced = false ∧ s.power.tripAt = none ∧ s.clockDown 50 = false) ∧
    (s.nextQueue port = some i) ∧
    (i.frames = f :: l)) :=
  ⟨⟨ready, 1, 2, 3, 4, 256, 5, by decide +kernel⟩,
   ⟨{ ready with pools := { bufs := [{ die := 1, pool := 2, index := 5, cls := 4, port := 2, unit := 3 }] } }, 0x12000005, 2, 3, { die := 1, pool := 2, index := 5, cls := 4, port := 2, unit := 3 }, [(8, 1)], 8, 0, by decide +kernel⟩,
   ⟨ready, 0x12000005, 2, 3, [(8, 1)], 8, 0, by decide +kernel⟩,
   ⟨ready, 0x800100, 5, by decide +kernel⟩,
   ⟨{ ready with shadow := { policers := [{ die := 0, n := 1, tc := 5, te := 6 }] } }, by decide +kernel⟩,
   ⟨egState, 0, egQueueInst, egFrame, [], by decide +kernel⟩⟩

/-- The hypotheses of StripeGroupsWork are met, clause by clause. -/
theorem test_meets_StripeGroupsWork :
  -- messages that are refused
  (∃ (s : State) (n gen dg r : Nat) (ch : GroupChange) (v : GroupVote) (m : Mirror) (t : Option GroupRecord) (w ns st sh : Nat) (data block : List Byte) (c p q : Nat) (rm : Bool),
    (s.groupJoined = true) ∧
    (s.groupBar n gen = some r) ∧
    (n ≠ s.group.self ∧ n ≤ 64) ∧
    (s.mediaStopped = false)) ∧
  -- HEARTBEAT_RECEIVE
  (∃ (s : State) (n : Nat),
    (s.groupJoined = true) ∧
    (n ≠ s.group.self ∧ n ≤ 64) ∧
    (s.entryPermits n = true ∧ s.group.gen < 2 ^ 32) ∧
    (s.group.holding = false)) ∧
  -- PEER_SUSPECT
  (∃ (s : State) (n : Nat),
    (s.groupJoined = true) ∧
    (n ≠ s.group.self ∧ (s.entryState n = 1 ∨ s.entryState n = 2))) ∧
  -- PROPOSAL_RX
  (∃ (s : State) (n : Nat) (ch : GroupChange),
    (s.groupJoined = true) ∧
    (s.entryPermits n = true ∧ s.group.gen < 2 ^ 32) ∧
    (n ≠ s.group.self) ∧
    (3 ≤ s.quorum)) ∧
  -- VOTE_RX: what each vote does, and the commit
  (∃ (s : State) (n : Nat) (p : Proposal),
    (s.groupJoined = true) ∧
    (s.entryPermits n = true ∧ s.group.gen < 2 ^ 32) ∧
    (s.group.proposal = some p) ∧
    (n ∉ p.acks)) ∧
  -- QUORUM_HOLD and QUORUM_LOST
  (∃ (s : State),
    (s.groupJoined = true)) ∧
  -- GROUP_WRITE
  (∃ (s : State) (p : ReqPath) (ns lba : Nat) (data : List Byte),
    (s.memberNs ns = true ∧ s.mediaStopped = false ∧ s.admissionHeld = false) ∧
    (data.length % 4096 = 0 ∧ 0 < data.length ∧ data.length ≤ 16777216)) ∧
  -- STRIPE_PREPARE
  (∃ (s : State) (n w ns st sh : Nat) (data : List Byte),
    (s.groupJoined = true ∧ s.mediaStopped = false) ∧
    (s.entryPermits n = true ∧ s.group.gen < 2 ^ 32) ∧
    (s.memberNs ns = true ∧ s.sharePos st sh = s.group.self ∧ data.length = 16384) ∧
    (s.roomFor 1 = true ∧ s.spaceFor 1 = true)) ∧
  -- STRIPE_COMMIT
  (∃ (s : State) (w : Nat) (pl : Placement) (p : Prepared),
    (s.group.prepared.find? (fun (p : Prepared) => p.write == w) = some p)) ∧
  -- the end of a stripe write
  (∃ (s : State) (x : StripeWrite),
    (s.group.writes = [x])) ∧
  -- REBUILD_STRIPE of another device's bring-in, and REBUILD_COMPLETE
  (∃ (s : State) (pos : Nat) (sh : List (Nat × List Byte)) (pl : Placement) (r : Rebuild),
    (s.group.rebuilds.find? (fun (r : Rebuild) => r.pos == pos) = some r)) ∧
  -- REBUILD_STRIPE on the spare
  (∃ (s : State) (pos : Nat) (sh : List (Nat × List Byte)) (pl : Placement) (r : Rebuild) (g : GroupNs) (b : List Byte),
    (s.group.rebuilds.find? (fun (r : Rebuild) => r.pos == pos) = some r) ∧
    (s.group.namespaces[r.nsIndex]? = some g) ∧
    (s.group.self = pos ∧ s.stripeLocked g.nsid r.next = false ∧ s.stripeLost g.nsid r.next = false ∧ sh ≠ []) ∧
    (let j := (pos + s.groupG - r.next % s.groupG) % s.groupG
    j < s.groupW ∧ rebuildShare s.groupW j (sh.filter (fun x => decide (x.1 ≠ j))) = some b) ∧
    ((s.openBands false pl.bands).placesOk pl.pmas = true ∧ pl.pmas.length = 1)) ∧
  -- MIRROR_UPDATE and STREAM_TABLE_UPDATE
  (∃ (s : State) (n : Nat) (m : Mirror) (block : List Byte) (c p q : Nat),
    (s.groupJoined = true) ∧
    (s.entryPermits n = true ∧ s.group.gen < 2 ^ 32)) ∧
  -- REHOME_EVENT_RESEND
  (∃ (s : State) (c : Nat) (x : StreamCtx),
    (s.ctxOf c = some x)) :=
  ⟨⟨grpState, 3, 2, 5, 0x0E03, .failed 4, .ack 3, { streamId := 9, pushes := [], completeEpoch := none, halted := none, ack := 0, limit := 0 }, none, 9, 1, 0, 0, [], [], 0, 0, 1, false, by decide +kernel⟩,
   ⟨grpState, 3, by decide +kernel⟩,
   ⟨grpState, 3, by decide +kernel⟩,
   ⟨grpState, 3, .failed 4, by decide +kernel⟩,
   ⟨{ grpState with group := { aGroup with proposal := some { gen := 4, change := .failed 4, acks := [3, 0], table := none } } }, 1, { gen := 4, change := .failed 4, acks := [3, 0], table := none }, by decide +kernel⟩,
   ⟨grpState, by decide +kernel⟩,
   ⟨grpState, .yqi 0 1 5, 1, 0, List.replicate 4096 0, by decide +kernel⟩,
   ⟨grpRoomy, 3, 9, 1, 0, 0, List.replicate 16384 0, by decide +kernel⟩,
   ⟨{ grpState with group := { aGroup with prepared := [aPrep] } }, 9, { pmas := [17], bands := [] }, aPrep, by decide +kernel⟩,
   ⟨{ grpState with group := { aGroup with writes := [aWrite] } }, aWrite, by decide +kernel⟩,
   ⟨{ grpState with group := { aGroup with rebuilds := [{ pos := 4 }] } }, 4, [], { pmas := [], bands := [] }, { pos := 4 }, by decide +kernel⟩,
   ⟨{ grpState with group := { aGroup with rebuilds := [{ pos := 0 }] } }, 0, (List.range 7).map (fun k => (k + 1, [])), { pmas := [17], bands := [] }, { pos := 0 }, { nsid := 1, stripes := 8 }, [], by decide +kernel⟩,
   ⟨grpState, 3, { streamId := 9, pushes := [], completeEpoch := none, halted := none, ack := 0, limit := 0 }, [], 0, 0, 1, by decide +kernel⟩,
   ⟨{ withCtx fabCtx with group := { rehoming := [3] } }, 3, fabCtx, by decide +kernel⟩⟩


/-! Ill-formed operands: for every check of a command's operands, a term that breaks it is refused. -/

theorem test_ill_formed_paths : ([.yqi 64 0 0, .yqi 0 2048 0, .yqi 0 0 65536, .gnoz (2 ^ 24) 0, .gnoz 0 (2 ^ 48), .mailbox 2, .run 64,
    .stream 512] : List ReqPath).all (fun p => !wfPath p) = true := by decide

theorem test_ill_formed_targets : ([.bar0 .pcie0 (2 ^ 26), .bar0 .pcie0 2, .bar2 64 0, .bar2 0 (2 ^ 23), .bar2 0 6, .msixMask 64 0,
    .vfEnable 2] : List RegTarget).all (fun t => !wfTarget t) = true := by decide

theorem test_ill_formed_counters : ([.run 64 0, .run 0 65536, .stream 512 0, .stream 0 256] : List CtrName).all (fun c => !wfCtr c) = true := by
  decide

theorem test_ill_formed_resets : ([.block 9, .tileUnit 1536 0, .tileUnit 0 8] : List ResetTarget).all (fun t => !wfReset t) = true := by
  decide

theorem test_ill_formed_parts : ([{ fuses := { part := 0x0500 } }, { fuses := { regionMask := 0x0FFFFFFFFFFF } },
    { targets := [{ channel := 64, target := 0 }] },
    { targets := [{ channel := 1, target := 2 }, { channel := 1, target := 2 }] }] : List BootInputs).all (fun b => !wfBoot b) = true := by
  decide +kernel

theorem test_ill_formed_page : ([{ codewords := [], parityOk := true, groupOk := true },
    { codewords := [[], [], [], [.miss, .miss, .miss, .miss]], parityOk := true, groupOk := true }] : List NandResult).all
    (fun r => !wfNand r) = true := by decide

theorem test_ill_formed_register (v : Word) (h : Option Word) : wfInstr (.registerWrite (.vfEnable 2) v h) = false := rfl

theorem test_ill_formed_1 :
    (∀ x0 x1, wfInstr (.badAccess x0 (2 ^ 26) x1) = false) ∧
    (∀ x0 x1, wfInstr (.inactiveTileAccess x0 (2 ^ 26) x1) = false) ∧
    (∀ x0 x1, wfInstr (.unassignedAccess x0 (2 ^ 26) x1) = false) ∧
    (∀ x0 x1, wfInstr (.fencedDieAccess x0 (2 ^ 26) x1) = false) ∧
    (∀ x0, wfInstr (.tileFault 1536 x0) = false) ∧
    (∀ x0, wfInstr (.regionFault 48 x0) = false) ∧
    (∀ x0, wfInstr (.routerParityFault 1536 x0) = false) ∧
    (∀ x0, wfInstr (.streamOpen (.run 64) x0) = false) ∧
    wfInstr (.streamClose (.run 64) 0) = false ∧
    wfInstr (.streamClose .image (2 ^ 16)) = false ∧
    wfInstr (.streamCloseComplete 512) = false ∧
    (∀ x0, wfInstr (.streamParameters (.run 64) x0) = false) ∧
    wfInstr (.streamResume (.run 64) 0 0) = false ∧
    wfInstr (.streamResume .image (2 ^ 16) 0) = false ∧
    wfInstr (.streamResume .image 0 (2 ^ 48)) = false ∧
    wfInstr (.gnozRxCredit (2 ^ 24) 0) = false ∧
    wfInstr (.gnozRxCredit 0 (2 ^ 48)) = false ∧
    (∀ x0, wfInstr (.formeRead (.run 64) 0 x0) = false) ∧
    (∀ x0, wfInstr (.formeRead .image (2 ^ 16) x0) = false) ∧
    (∀ x0 x1, wfInstr (.formeReadComplete 64 x0 0 x1) = false) ∧
    (∀ x0 x1, wfInstr (.formeReadComplete 0 x0 (2 ^ 16) x1) = false) ∧
    (∀ x0 x1, wfInstr (.candidateStart 512 x0 x1) = false) ∧
    (∀ x0 x1 x2, wfInstr (.stageComplete 512 x0 x1 x2) = false) ∧
    (∀ x0 x1, wfInstr (.paramLookup 512 x0 x1) = false) ∧
    wfInstr (.formeHandoff 512) = false ∧
    (∀ x0 x1, wfInstr (.read (.run 64) 0 0 x0 x1) = false) ∧
    (∀ x0 x1, wfInstr (.read .image (2 ^ 32) 0 x0 x1) = false) ∧
    (∀ x0 x1, wfInstr (.read .image 0 (2 ^ 64) x0 x1) = false) ∧
    wfInstr (.nandReadComplete (2 ^ 40) { codewords := [[], [], [], []], parityOk := true, groupOk := true }) = false ∧
    wfInstr (.nandReadComplete 0 { codewords := [], parityOk := true, groupOk := true }) = false ∧
    (∀ x0, wfInstr (.patrolRead (2 ^ 40) x0) = false) ∧
    (∀ x0 x1 x2, wfInstr (.write (.run 64) 0 0 x0 x1 x2) = false) ∧
    (∀ x0 x1 x2, wfInstr (.write .image (2 ^ 32) 0 x0 x1 x2) = false) ∧
    (∀ x0 x1 x2, wfInstr (.write .image 0 (2 ^ 64) x0 x1 x2) = false) ∧
    (∀ x0, wfInstr (.discard (.run 64) 0 0 x0) = false) ∧
    (∀ x0, wfInstr (.discard .image (2 ^ 32) 0 x0) = false) ∧
    (∀ x0, wfInstr (.discard .image 0 (2 ^ 64) x0) = false) ∧
    wfInstr (.flush (.run 64) 0) = false ∧
    wfInstr (.flush .image (2 ^ 32)) = false ∧
    (∀ x0, wfInstr (.programFail (2 ^ 40) x0) = false) :=
  ⟨fun _ _ => rfl, fun _ _ => rfl, fun _ _ => rfl, fun _ _ => rfl, fun _ => rfl, fun _ => rfl, fun _ => rfl,
    fun _ => rfl, rfl, rfl, rfl, fun _ => rfl, rfl, rfl, rfl, rfl, rfl, fun _ => rfl, fun _ => rfl,
    fun _ _ => rfl, fun _ _ => rfl, fun _ _ => rfl, fun _ _ _ => rfl, fun _ _ => rfl, rfl, fun _ _ => rfl,
    fun _ _ => rfl, fun _ _ => rfl, rfl, rfl, fun _ => rfl, fun _ _ _ => rfl, fun _ _ _ => rfl,
    fun _ _ _ => rfl, fun _ => rfl, fun _ => rfl, fun _ => rfl, rfl, rfl, fun _ => rfl⟩

theorem test_ill_formed_2 :
    wfInstr (.eraseFail (2 ^ 40)) = false ∧
    wfInstr (.targetLost 64 0) = false ∧
    wfInstr (.targetLost 0 16) = false ∧
    wfInstr (.gcVerifyDone (2 ^ 40)) = false ∧
    wfInstr (.gcErase (2 ^ 40)) = false ∧
    (∀ x0, wfInstr (.sanitizeCrypto (.run 64) 0 x0) = false) ∧
    (∀ x0, wfInstr (.sanitizeCrypto .image (2 ^ 32) x0) = false) ∧
    (∀ x0, wfInstr (.sanitizeBlock (.run 64) 0 x0) = false) ∧
    (∀ x0, wfInstr (.sanitizeBlock .image (2 ^ 32) x0) = false) ∧
    (∀ x0, wfInstr (.sanitizeFormat (.run 64) 0 x0) = false) ∧
    (∀ x0, wfInstr (.sanitizeFormat .image (2 ^ 32) x0) = false) ∧
    (∀ x0 x1, wfInstr (.nsCreate (.run 64) 0 x0 x1) = false) ∧
    (∀ x0 x1, wfInstr (.nsCreate .image (2 ^ 32) x0 x1) = false) ∧
    (∀ x0, wfInstr (.nsDelete (.run 64) 0 x0) = false) ∧
    (∀ x0, wfInstr (.nsDelete .image (2 ^ 32) x0) = false) ∧
    wfInstr (.nsSeal (.run 64) 0) = false ∧
    wfInstr (.nsSeal .image (2 ^ 32)) = false ∧
    wfInstr (.nsUnseal (.run 64) 0) = false ∧
    wfInstr (.nsUnseal .image (2 ^ 32)) = false ∧
    (∀ x0, wfInstr (.cmpRingDoorbell 16 x0) = false) ∧
    (∀ x0, wfInstr (.chkCtxHold 2 0 x0) = false) ∧
    (∀ x0, wfInstr (.chkCtxHold 0 256 x0) = false) ∧
    (∀ x0, wfInstr (.chkCtxWrite 2 0 0 x0) = false) ∧
    (∀ x0, wfInstr (.chkCtxWrite 0 256 0 x0) = false) ∧
    (∀ x0, wfInstr (.chkCtxWrite 0 0 64 x0) = false) ∧
    (∀ x0 x1, wfInstr (.rtpPacket x0 (2 ^ 16) x1) = false) ∧
    wfInstr (.liveUnitTimeout 64) = false ∧
    (∀ x0, wfInstr (.decLiveCfgWrite 64 x0) = false) ∧
    wfInstr (.laneFault 64) = false ∧
    wfInstr (.laneNoProgress 64) = false ∧
    (∀ x0 x1, wfInstr (.genOpen (.run 64) x0 x1) = false) ∧
    (∀ x0 x1, wfInstr (.genStep 64 x0 x1) = false) ∧
    wfInstr (.tilResetMac 1536) = false ∧
    wfInstr (.tilResetVec 1536) = false ∧
    wfInstr (.tilResetDma 1536) = false ∧
    wfInstr (.tilResetCore 1536) = false ∧
    wfInstr (.tilResetSync 1536) = false ∧
    wfInstr (.tilResetObs 1536) = false ∧
    wfInstr (.tilResetStore 1536) = false ∧
    wfInstr (.tilResetRouter 1536) = false :=
  ⟨rfl, rfl, rfl, rfl, rfl, fun _ => rfl, fun _ => rfl, fun _ => rfl, fun _ => rfl, fun _ => rfl, fun _ => rfl,
    fun _ _ => rfl, fun _ _ => rfl, fun _ => rfl, fun _ => rfl, rfl, rfl, rfl, rfl, fun _ => rfl, fun _ => rfl,
    fun _ => rfl, fun _ => rfl, fun _ => rfl, fun _ => rfl, fun _ _ => rfl, rfl, fun _ => rfl, rfl, rfl,
    fun _ _ => rfl, fun _ _ => rfl, rfl, rfl, rfl, rfl, rfl, rfl, rfl, rfl⟩

theorem test_ill_formed_3 :
    (∀ x0, wfInstr (.matrixOp 64 0 x0) = false) ∧
    (∀ x0, wfInstr (.matrixOp 0 1536 x0) = false) ∧
    (∀ x0 x1, wfInstr (.sparseMatrixOp 64 0 x0 x1) = false) ∧
    (∀ x0 x1, wfInstr (.sparseMatrixOp 0 1536 x0 x1) = false) ∧
    (∀ x0, wfInstr (.vectorOp 64 0 x0) = false) ∧
    (∀ x0, wfInstr (.vectorOp 0 1536 x0) = false) ∧
    (∀ x0, wfInstr (.vectorReduce 64 0 x0) = false) ∧
    (∀ x0, wfInstr (.vectorReduce 0 1536 x0) = false) ∧
    (∀ x0, wfInstr (.specialFunction 64 0 x0) = false) ∧
    (∀ x0, wfInstr (.specialFunction 0 1536 x0) = false) ∧
    (∀ x0, wfInstr (.quantise 64 0 x0) = false) ∧
    (∀ x0, wfInstr (.quantise 0 1536 x0) = false) ∧
    (∀ x0, wfInstr (.route 64 0 x0) = false) ∧
    (∀ x0, wfInstr (.route 0 1536 x0) = false) ∧
    (∀ x0, wfInstr (.combine 64 0 x0) = false) ∧
    (∀ x0, wfInstr (.combine 0 1536 x0) = false) ∧
    (∀ x0 x1, wfInstr (.embGather 64 x0 x1) = false) ∧
    (∀ x0 x1 x2, wfInstr (.embRowReadDone 64 x0 x1 x2) = false) ∧
    (∀ x0 x1, wfInstr (.embGrad 64 x0 x1) = false) ∧
    (∀ x0 x1, wfInstr (.embApply 64 x0 x1) = false) ∧
    wfInstr (.embFlush 64) = false ∧
    wfInstr (.embFlushDone 64) = false ∧
    (∀ x0, wfInstr (.loadPlate (.run 64) x0) = false) ∧
    wfInstr (.unloadPlate (.run 64) 0) = false ∧
    wfInstr (.unloadPlate .image (2 ^ 64)) = false ∧
    (∀ x0, wfInstr (.start (.run 64) x0) = false) ∧
    wfInstr (.preempt (.run 64) 0) = false ∧
    wfInstr (.preempt .image 64) = false ∧
    wfInstr (.resume (.run 64) 0) = false ∧
    wfInstr (.resume .image 64) = false ∧
    wfInstr (.stop (.run 64) 0) = false ∧
    wfInstr (.stop .image 64) = false ∧
    (∀ x0, wfInstr (.runLoaded 64 x0) = false) ∧
    wfInstr (.plateEnd 64) = false ∧
    wfInstr (.runCleanupDone 64) = false ∧
    (∀ x0, wfInstr (.dmaCopy 64 0 x0) = false) ∧
    (∀ x0, wfInstr (.dmaCopy 0 1536 x0) = false) ∧
    (∀ x0, wfInstr (.dmaFill 64 0 x0) = false) ∧
    (∀ x0, wfInstr (.dmaFill 0 1536 x0) = false) ∧
    (∀ x0, wfInstr (.dmaEngine 64 0 x0) = false) :=
  ⟨fun _ => rfl, fun _ => rfl, fun _ _ => rfl, fun _ _ => rfl, fun _ => rfl, fun _ => rfl, fun _ => rfl,
    fun _ => rfl, fun _ => rfl, fun _ => rfl, fun _ => rfl, fun _ => rfl, fun _ => rfl, fun _ => rfl,
    fun _ => rfl, fun _ => rfl, fun _ _ => rfl, fun _ _ _ => rfl, fun _ _ => rfl, fun _ _ => rfl, rfl, rfl,
    fun _ => rfl, rfl, rfl, fun _ => rfl, rfl, rfl, rfl, rfl, rfl, rfl, fun _ => rfl, rfl, rfl, fun _ => rfl,
    fun _ => rfl, fun _ => rfl, fun _ => rfl, fun _ => rfl⟩

theorem test_ill_formed_4 :
    (∀ x0, wfInstr (.dmaEngine 0 1536 x0) = false) ∧
    wfInstr (.dmaDescriptorDone 64 0) = false ∧
    wfInstr (.dmaDescriptorDone 0 1536) = false ∧
    (∀ x0 x1, wfInstr (.fillDone 64 x0 x1) = false) ∧
    (∀ x0, wfInstr (.preemptSaveDone 64 x0) = false) ∧
    (∀ x0, wfInstr (.resumeRestoreDone 64 x0) = false) ∧
    (∀ x0 x1, wfInstr (.syncAdd (.run 64 0) x0 x1) = false) ∧
    (∀ x0, wfInstr (.syncSub 64 0 0 x0) = false) ∧
    (∀ x0, wfInstr (.syncSub 0 1536 0 x0) = false) ∧
    (∀ x0, wfInstr (.syncSub 0 0 (2 ^ 16) x0) = false) ∧
    (∀ x0 x1, wfInstr (.syncWaitGe 64 x0 0 x1) = false) ∧
    (∀ x0 x1, wfInstr (.syncWaitGe 0 x0 (2 ^ 16) x1) = false) ∧
    (∀ x0, wfInstr (.syncWaitSub 64 0 0 x0) = false) ∧
    (∀ x0, wfInstr (.syncWaitSub 0 1536 0 x0) = false) ∧
    (∀ x0, wfInstr (.syncWaitSub 0 0 (2 ^ 16) x0) = false) ∧
    (∀ x0, wfInstr (.syncArrive 64 0 0 x0) = false) ∧
    (∀ x0, wfInstr (.syncArrive 0 1536 0 x0) = false) ∧
    (∀ x0, wfInstr (.syncArrive 0 0 (2 ^ 16) x0) = false) ∧
    wfInstr (.syncRead 64 0 0) = false ∧
    wfInstr (.syncRead 0 1536 0) = false ∧
    wfInstr (.syncRead 0 0 (2 ^ 16)) = false ∧
    (∀ x0 x1, wfInstr (.syncAlloc (.run 64 0) 0 x0 x1) = false) ∧
    (∀ x0 x1, wfInstr (.syncAlloc (.run 0 0) 1536 x0 x1) = false) ∧
    (∀ x0, wfInstr (.syncFree 64 0 x0) = false) ∧
    (∀ x0, wfInstr (.syncFree 0 1536 x0) = false) ∧
    (∀ x0 x1 x2, wfInstr (.syncConfig 64 0 0 x0 x1 x2) = false) ∧
    (∀ x0 x1 x2, wfInstr (.syncConfig 0 1536 0 x0 x1 x2) = false) ∧
    (∀ x0 x1 x2, wfInstr (.syncConfig 0 0 (2 ^ 16) x0 x1 x2) = false) ∧
    wfInstr (.tilEvtClear 1536) = false ∧
    (∀ x0, wfInstr (.tilEvtSelWrite 1536 0 x0) = false) ∧
    (∀ x0, wfInstr (.tilEvtSelWrite 0 8 x0) = false) ∧
    (∀ x0, wfInstr (.tilEvtCntLoRead x0 1536 0) = false) ∧
    (∀ x0, wfInstr (.tilEvtCntLoRead x0 0 8) = false) ∧
    (∀ x0 x1, wfInstr (.markBegin x0 (2 ^ 32) x1) = false) ∧
    (∀ x0 x1, wfInstr (.markEnd x0 (2 ^ 32) x1) = false) ∧
    (∀ x0 x1, wfInstr (.markInstant x0 (2 ^ 32) x1) = false) ∧
    (∀ x0, wfInstr (.watch 64 0 x0) = false) ∧
    (∀ x0, wfInstr (.watch 0 1536 x0) = false) ∧
    wfInstr (.sqTailDoorbell 64 0 0) = false ∧
    wfInstr (.sqTailDoorbell 0 2048 0) = false :=
  ⟨fun _ => rfl, rfl, rfl, fun _ _ => rfl, fun _ => rfl, fun _ => rfl, fun _ _ => rfl, fun _ => rfl,
    fun _ => rfl, fun _ => rfl, fun _ _ => rfl, fun _ _ => rfl, fun _ => rfl, fun _ => rfl, fun _ => rfl,
    fun _ => rfl, fun _ => rfl, fun _ => rfl, rfl, rfl, rfl, fun _ _ => rfl, fun _ _ => rfl, fun _ => rfl,
    fun _ => rfl, fun _ _ _ => rfl, fun _ _ _ => rfl, fun _ _ _ => rfl, rfl, fun _ => rfl, fun _ => rfl,
    fun _ => rfl, fun _ => rfl, fun _ _ => rfl, fun _ _ => rfl, fun _ _ => rfl, fun _ => rfl, fun _ => rfl,
    rfl, rfl⟩

theorem test_ill_formed_5 :
    wfInstr (.sqTailDoorbell 0 0 (2 ^ 32)) = false ∧
    wfInstr (.cqHeadDoorbell 64 0 0) = false ∧
    wfInstr (.cqHeadDoorbell 0 2048 0) = false ∧
    wfInstr (.cqHeadDoorbell 0 0 (2 ^ 32)) = false ∧
    (∀ x0, wfInstr (.aqEnable 64 x0) = false) ∧
    (∀ x0, wfInstr (.aqDisable 64 x0) = false) ∧
    (∀ x0 x1, wfInstr (.ioCommandComplete 64 x0 0 x1) = false) ∧
    (∀ x0 x1, wfInstr (.ioCommandComplete 0 x0 (2 ^ 16) x1) = false) ∧
    (∀ x0, wfInstr (.identify (.run 64) x0 0) = false) ∧
    (∀ x0, wfInstr (.identify .image x0 (2 ^ 32)) = false) ∧
    (∀ x0 x1 x2, wfInstr (.getLog (.run 64) x0 x1 x2) = false) ∧
    (∀ x0 x1, wfInstr (.getFeature (.run 64) x0 x1) = false) ∧
    (∀ x0, wfInstr (.setArbitration (.run 64) x0) = false) ∧
    (∀ x0 x1 x2, wfInstr (.setCoalescing (.run 64) x0 x1 x2) = false) ∧
    (∀ x0 x1 x2, wfInstr (.setVfResources (.run 64) x0 x1 x2) = false) ∧
    (∀ x0 x1, wfInstr (.setNsVisibility (.run 64) x0 x1) = false) ∧
    (∀ x0 x1, wfInstr (.setMediaLayout (.run 64) x0 x1) = false) ∧
    (∀ x0 x1, wfInstr (.firmwareDownload (.run 64) x0 x1) = false) ∧
    (∀ x0 x1, wfInstr (.firmwareCommit (.run 64) x0 x1) = false) ∧
    (∀ x0 x1 x2 x3 x4 x5, wfInstr (.queueCreate (.run 64) x0 x1 x2 x3 x4 x5) = false) ∧
    (∀ x0, wfInstr (.queueDelete (.run 64) x0) = false) ∧
    (∀ x0, wfInstr (.queueDeleteDone 64 x0) = false) ∧
    (∀ x0, wfInstr (.queueRestartResume (.run 64) x0) = false) ∧
    (∀ x0, wfInstr (.queueRestartSkip (.run 64) x0) = false) ∧
    (∀ x0, wfInstr (.coalesceTimeout 64 x0) = false) ∧
    wfInstr (.functionLevelReset 64) = false ∧
    wfInstr (.pcieLinkDown 2) = false ∧
    (∀ x0 x1 x2, wfInstr (.pcieLinkUp 2 x0 x1 x2) = false) ∧
    (∀ x0, wfInstr (.gnozRxWrite (2 ^ 24) 0 x0) = false) ∧
    (∀ x0, wfInstr (.gnozRxWrite 0 (2 ^ 48) x0) = false) ∧
    wfInstr (.gnozRxSend (2 ^ 24) 0) = false ∧
    wfInstr (.gnozRxSend 0 (2 ^ 48)) = false ∧
    wfInstr (.gnozRxRead (2 ^ 24) 0) = false ∧
    wfInstr (.gnozRxRead 0 (2 ^ 48)) = false ∧
    wfInstr (.gnozRxReadData (2 ^ 24) 0) = false ∧
    wfInstr (.gnozRxReadData 0 (2 ^ 48)) = false ∧
    wfInstr (.gnozRxSyncAdd (2 ^ 24) 0) = false ∧
    wfInstr (.gnozRxSyncAdd 0 (2 ^ 48)) = false ∧
    wfInstr (.gnozRxReply (2 ^ 24) 0) = false ∧
    wfInstr (.gnozRxReply 0 (2 ^ 48)) = false :=
  ⟨rfl, rfl, rfl, rfl, fun _ => rfl, fun _ => rfl, fun _ _ => rfl, fun _ _ => rfl, fun _ => rfl, fun _ => rfl,
    fun _ _ _ => rfl, fun _ _ => rfl, fun _ => rfl, fun _ _ _ => rfl, fun _ _ _ => rfl, fun _ _ => rfl,
    fun _ _ => rfl, fun _ _ => rfl, fun _ _ => rfl, fun _ _ _ _ _ _ => rfl, fun _ => rfl, fun _ => rfl,
    fun _ => rfl, fun _ => rfl, fun _ => rfl, rfl, rfl, fun _ _ _ => rfl, fun _ => rfl, fun _ => rfl, rfl, rfl,
    rfl, rfl, rfl, rfl, rfl, rfl, rfl, rfl⟩

theorem test_ill_formed_6 :
    wfInstr (.gnozRxForme (2 ^ 24) 0) = false ∧
    wfInstr (.gnozRxForme 0 (2 ^ 48)) = false ∧
    wfInstr (.gnozRxStreamEvent (2 ^ 24) 0) = false ∧
    wfInstr (.gnozRxStreamEvent 0 (2 ^ 48)) = false ∧
    wfInstr (.gnozRxArm (2 ^ 24) 0) = false ∧
    wfInstr (.gnozRxArm 0 (2 ^ 48)) = false ∧
    wfInstr (.gnozRxAck (2 ^ 24) 0) = false ∧
    wfInstr (.gnozRxAck 0 (2 ^ 48)) = false ∧
    (∀ x0, wfInstr (.gnzQDoorbell 4096 x0) = false) ∧
    wfInstr (.wrWrite 4096) = false ∧
    wfInstr (.wrSend 4096) = false ∧
    wfInstr (.wrRead 4096) = false ∧
    wfInstr (.wrSyncAdd 4096) = false ∧
    wfInstr (.wrControl 4096) = false ∧
    wfInstr (.wrArm 4096) = false ∧
    wfInstr (.wrRecv 4096) = false ∧
    wfInstr (.dupEntryExpiry (2 ^ 24) 0) = false ∧
    wfInstr (.dupEntryExpiry 0 (2 ^ 48)) = false ∧
    wfInstr (.reassemblyExpiry (2 ^ 24) 0) = false ∧
    wfInstr (.reassemblyExpiry 0 (2 ^ 48)) = false ∧
    (∀ x0 x1 x2 x3 x4 x5, wfInstr (.keyRegister 64 x0 x1 x2 x3 x4 x5) = false) ∧
    (∀ x0 x1 x2, wfInstr (.gnzQueueAlloc 64 x0 x1 x2) = false) ∧
    (∀ x0, wfInstr (.ethPortLinkChange 64 x0) = false) ∧
    (∀ x0 x1 x2 x3, wfInstr (.bufferRequest 2 0 x0 x1 x2 x3) = false) ∧
    (∀ x0 x1 x2 x3, wfInstr (.bufferRequest 0 (2 ^ 16) x0 x1 x2 x3) = false) ∧
    (∀ x0 x1, wfInstr (.bufferFree x0 (2 ^ 16) x1) = false) ∧
    (∀ x0 x1, wfInstr (.bufferDrop x0 (2 ^ 16) x1) = false) ∧
    (∀ x0 x1 x2, wfInstr (.bufferShare x0 (2 ^ 16) x1 x2) = false) ∧
    (∀ x0 x1 x2 x3, wfInstr (.bufferHandover x0 (2 ^ 16) x1 x2 x3) = false) ∧
    (∀ x0, wfInstr (.configShadowWrite (2 ^ 26) x0) = false) ∧
    wfInstr (.egressSelect 64) = false ∧
    (∀ x0, wfInstr (.heartbeatReceive 65 0 0 x0) = false) ∧
    (∀ x0, wfInstr (.heartbeatReceive 0 (2 ^ 32) 0 x0) = false) ∧
    (∀ x0, wfInstr (.heartbeatReceive 0 0 (2 ^ 64) x0) = false) ∧
    wfInstr (.peerSuspect 65) = false ∧
    (∀ x0 x1, wfInstr (.proposalRx 65 0 x0 x1) = false) ∧
    (∀ x0 x1, wfInstr (.proposalRx 0 (2 ^ 32) x0 x1) = false) ∧
    (∀ x0, wfInstr (.voteRx 65 0 x0) = false) ∧
    (∀ x0, wfInstr (.voteRx 0 (2 ^ 32) x0) = false) ∧
    (∀ x0, wfInstr (.grpSpareAdd (2 ^ 24) x0) = false) :=
  ⟨rfl, rfl, rfl, rfl, rfl, rfl, rfl, rfl, fun _ => rfl, rfl, rfl, rfl, rfl, rfl, rfl, rfl, rfl, rfl, rfl, rfl,
    fun _ _ _ _ _ _ => rfl, fun _ _ _ => rfl, fun _ => rfl, fun _ _ _ _ => rfl, fun _ _ _ _ => rfl,
    fun _ _ => rfl, fun _ _ => rfl, fun _ _ _ => rfl, fun _ _ _ _ => rfl, fun _ => rfl, rfl, fun _ => rfl,
    fun _ => rfl, fun _ => rfl, rfl, fun _ _ => rfl, fun _ _ => rfl, fun _ => rfl, fun _ => rfl, fun _ => rfl⟩

theorem test_ill_formed_7 :
    (∀ x0 x1 x2, wfInstr (.groupNsCreate (2 ^ 32) x0 x1 x2) = false) ∧
    (∀ x0 x1, wfInstr (.groupNsDelete (2 ^ 32) x0 x1) = false) ∧
    (∀ x0, wfInstr (.groupNsSeal (2 ^ 32) x0) = false) ∧
    (∀ x0, wfInstr (.groupNsUnseal (2 ^ 32) x0) = false) ∧
    (∀ x0, wfInstr (.groupWrite (.run 64) 0 0 x0) = false) ∧
    (∀ x0, wfInstr (.groupWrite .image (2 ^ 32) 0 x0) = false) ∧
    (∀ x0, wfInstr (.groupWrite .image 0 (2 ^ 64) x0) = false) ∧
    (∀ x0 x1 x2 x3 x4, wfInstr (.stripePrepare 65 0 x0 x1 x2 x3 x4) = false) ∧
    (∀ x0 x1 x2 x3 x4, wfInstr (.stripePrepare 0 (2 ^ 32) x0 x1 x2 x3 x4) = false) ∧
    (∀ x0 x1, wfInstr (.rebuildStripe 64 x0 x1) = false) ∧
    wfInstr (.rebuildComplete 64) = false ∧
    (∀ x0, wfInstr (.mirrorUpdate 65 0 x0) = false) ∧
    (∀ x0, wfInstr (.mirrorUpdate 0 (2 ^ 32) x0) = false) ∧
    (∀ x0 x1 x2 x3 x4, wfInstr (.streamTableUpdate 65 0 x0 x1 x2 x3 x4) = false) ∧
    (∀ x0 x1 x2 x3 x4, wfInstr (.streamTableUpdate 0 (2 ^ 32) x0 x1 x2 x3 x4) = false) ∧
    wfInstr (.rehomeEventResend 512) = false ∧
    wfInstr (.getNonce 2) = false ∧
    wfInstr (.getIdentity 2) = false ∧
    (∀ x0, wfInstr (.attest 2 x0) = false) ∧
    (∀ x0, wfInstr (.lcTransition 2 x0) = false) ∧
    (∀ x0, wfInstr (.installKey 2 x0) = false) ∧
    (∀ x0, wfInstr (.removeKey 2 x0) = false) ∧
    (∀ x0, wfInstr (.pair 2 x0) = false) ∧
    (∀ x0, wfInstr (.unpair 2 x0) = false) ∧
    (∀ x0, wfInstr (.debugUnlock 2 x0) = false) ∧
    wfInstr (.powerOn 4) = false ∧
    wfInstr (.resetRelease { fuses := { part := 0x0500 } }) = false ∧
    wfInstr (.unitSoftReset 16 0) = false ∧
    wfInstr (.unitSoftReset 0 256) = false ∧
    wfInstr (.softResetQuiesced (.tileUnit 1536 0)) = false ∧
    wfInstr (.quiesceTimeout (.tileUnit 1536 0)) = false ∧
    wfInstr (.regionReset 64) = false ∧
    (∀ x0, wfInstr (.rstTimeoutWrite 10 x0) = false) ∧
    (∀ x0 x1, wfInstr (.pllRelock x0 x1 3) = false) ∧
    wfInstr (.regionDoze 48) = false ∧
    wfInstr (.regionWakeDone 48) = false ∧
    wfInstr (.thermalTrip 12) = false ∧
    (∀ x0, wfInstr (.pwrConfigWrite (2 ^ 26) x0) = false) ∧
    wfInstr (.gnozRxControl (2 ^ 24) 0) = false ∧
    wfInstr (.gnozRxControl 0 (2 ^ 48)) = false :=
  ⟨fun _ _ _ => rfl, fun _ _ => rfl, fun _ => rfl, fun _ => rfl, fun _ => rfl, fun _ => rfl, fun _ => rfl,
    fun _ _ _ _ _ => rfl, fun _ _ _ _ _ => rfl, fun _ _ => rfl, rfl, fun _ => rfl, fun _ => rfl,
    fun _ _ _ _ _ => rfl, fun _ _ _ _ _ => rfl, rfl, rfl, rfl, fun _ => rfl, fun _ => rfl, fun _ => rfl,
    fun _ => rfl, fun _ => rfl, fun _ => rfl, fun _ => rfl, rfl, rfl, rfl, rfl, rfl, rfl, rfl, fun _ => rfl,
    fun _ _ => rfl, rfl, rfl, rfl, fun _ => rfl, rfl, rfl⟩

/-- The hypotheses of the statements without clauses are met. -/
theorem test_meets_StepRunsTheFrontCommand : ∃ s : State, s.pending = [] := ⟨ready, rfl⟩

theorem test_meets_QuoinBitsOnlyClearAtReset : ∃ s t : State, step s = .next t ∧
    (∀ c rest, s.pending = c :: rest → isReset c = false) ∧ s.trust.quoin ≠ 0 ∧ s.pending ≠ [] := by
  refine ⟨{ ready with pending := [.quoinSet true 3], trust := { quoin := 1 } }, _, rfl, ?_, by decide, by decide⟩
  rintro c rest h
  obtain ⟨rfl, -⟩ := List.cons.inj h
  rfl

theorem test_meets_StoresStayCanonical : ∃ s t : State, s.storesWf = true ∧ step s = .next t ∧ s.regs ≠ [] ∧ s.bulkMem ≠ [] :=
  ⟨{ ready with pending := [.quoinSet true 3], regs := [(grpBase + 4, 7)], bulkMem := [(9, 1)] }, _, by decide +kernel, rfl,
    by decide, by decide⟩

theorem test_meets_RegisterFileReadsAsWritten : ∃ s : State, s.regsWf = true ∧ s.regs ≠ [] :=
  ⟨{ ready with regs := [(grpBase + 4, 7)] }, by decide +kernel, by decide⟩

theorem test_meets_MemoryReadsAsWritten : ∃ m : Memory, Memory.wf m = true ∧ m ≠ [] := ⟨[(3, 1), (9, 2)], by decide, by decide⟩

theorem test_meets_WrittenUnitReadsBack : ∃ (s : State) (ns' u' : Nat) (data : List Byte), Memory.wf s.nand.store = true ∧
    data.length = 16384 ∧ mapKey ns' u' ≠ mapKey 1 0 ∧ s.pmaOf ns' u' ≠ some 5 ∧ (s.pmaOf ns' u').isSome = true :=
  ⟨{ ready with media := { image := { map := [(mapKey 1 7, 9)] } } }, 1, 7, List.replicate 16384 1,
    by decide, List.length_replicate, by decide, by decide, by decide⟩

theorem test_meets_IntegerProductsDoNotDependOnOrder : ∃ l l' : List (Machine.Num × Machine.Num), l.Perm l' ∧ l ≠ l' :=
  ⟨[(.fin false 1 0, .fin false 2 0), (.fin true 3 0, .fin false 2 0)], _, List.Perm.swap _ _ _, by decide⟩

theorem test_meets_FloatCodesConvertToThemselves : ∃ c, c < 2 ^ (1 + fmtE4m3.expBits + fmtE4m3.man) ∧
    (fmtE4m3.decode c).isNan = false ∧ (fmtE4m3.decode c).isInf = false := ⟨0x39, by decide⟩

theorem test_meets_CheckedMessagesAreAccepted : ∃ (s t : State) (p : ChkParams), s.regsWf = true ∧ t.regsWf = true ∧
    s.regFld (chkCtx 0 0 4) 2 1 = 1 ∧ t.regFld (chkCtx 1 3 4) 2 1 = 1 ∧ s.chkParams 0 0 = { p with incoming := false } ∧
    t.chkParams 1 3 = { p with incoming := true } ∧ (8 ≤ p.width ∧ p.width ≤ 64) ∧ (p.alive = 0 ∨ (4 ≤ p.alive ∧ p.alive ≤ 16)) := by
  let s : State := { ready with regs := [(chkCtx 0 0 4, 4), (chkCtx 0 0 8, 0x04C11DB7)] }
  exact ⟨s, { ready with regs := [(chkCtx 1 3 0, 0x220), (chkCtx 1 3 4, 4), (chkCtx 1 3 8, 0x04C11DB7)] }, s.chkParams 0 0,
    by decide +kernel, by decide +kernel, by decide +kernel, by decide +kernel, by decide +kernel, by decide +kernel,
    by decide +kernel, by decide +kernel⟩

/-! Worked examples and tables of the spec. -/

/-- R194: the check values of the presets for the bytes 31 to 39. -/
def checkOf (preset : Nat) : List Byte :=
  match exec (.chkCtxWrite 0 0 0 (BitVec.ofNat 32 (2048 * preset + 8))) { ready with regs := [(0x411004, 1)] } with
  | .next t => let p := t.chkParams 0 0; p.bytes p.checkLen (p.fin (p.run p.start [0x31, 0x32, 0x33, 0x34, 0x35, 0x36, 0x37, 0x38, 0x39]))
  | _ => []

theorem test_check_values_8_to_24 : (List.range 5).map (fun i => checkOf (i + 1)) =
    [[0xF4], [0x3D, 0xBB], [0x29, 0xB1], [0x89, 0x21], [0x21, 0xCF, 0x02]] := by decide +kernel

theorem test_check_values_32_to_64 : (List.range 6).map (fun i => checkOf (i + 6)) =
    [[0x26, 0x39, 0xF4, 0xCB], [0xFC, 0x89, 0x19, 0x18], [0x03, 0x76, 0xE6, 0xE7], [0x83, 0x92, 0x06, 0xE3],
     [0x6C, 0x40, 0xDF, 0x5F, 0x0B, 0x49, 0x73, 0x47], [0xFA, 0x39, 0x19, 0xDF, 0xBB, 0xC9, 0x5D, 0x99]] := by decide +kernel

/-- R193: the split CRC of the example. -/
theorem test_check_split :
    let p : ChkParams :=
      { width := 8, refin := false, refout := false, incoming := false, big := false, alive := 0, maxGap := 0, poly := 7, init := 0,
        xorout := 0 }
    p.run p.start [0x31] = 0x97 ∧ p.fin (p.run 0x97 [0x32]) = 0x72 := by decide

/-- R65: the permutation of the example. -/
theorem test_wedge_diag : (List.range 10).map (fun p => WedgeKey.candidate { seed := 0, snap := 0, epoch := 0, n := 10, diag := true } p 0) =
    [8, 1, 2, 9, 4, 7, 6, 5, 0, 3] := by decide +kernel

/-- R14: the serial-number comparison of the example. -/
theorem test_serial : seqEarlier 8 250 3 = true ∧ seqEarlier 8 0 128 = false ∧ seqEarlier 8 128 0 = false := by decide

/-- R124: the map entry of the example. -/
theorem test_pma : pmaTarget 0x1B4C400005 = (6, 13) ∧ 0x1B4C400005 % 2 ^ 30 = (33450 * 4 + 2) * 1536 + 1029 := by decide

/-- R219: size, coordinates and value of the example. -/
theorem test_resize : resizeTo (.shortGraph 256) 1024 768 0 = some (341, 256) ∧ bilinCoord 100 1024 341 = (301, 302, 19314) ∧
    bilinCoord 50 768 256 = (151, 152, 0) := by decide +kernel

/-- R241, by hand: only cell (2, 0) changes, by 30, so the centre is (30 × 5 × 1,280 ÷ (64 × 30), 720 ÷ 64). -/
theorem test_motion : motionCentre 16 (1280, 720, [0, 0, 30]) (1280, 720, [0, 0, 0]) = some (100, 11) := by decide +kernel

/-- R259: the scan of the example, across its two buffers. -/
theorem test_scan : scanField [0x61, 0xE2, 0x82, 0xAC, 0x20, 0xC0, 0x41] =
    [.char 0x61 [0x61], .char 0x20AC [0xE2, 0x82, 0xAC], .char 0x20 [0x20], .bad 0xC0, .char 0x41 [0x41]] := by decide +kernel

/-- R269: the rows of the example. -/
theorem test_pack : packRows 8 2 [5, 4, 2] 0 0 = [⟨0, 0, 5, false⟩, ⟨1, 0, 4, false⟩, ⟨1, 4, 2, false⟩] := by decide

/-- R276: what the stop string of the example holds back. -/
theorem test_stop : heldSuffix [[0x3C, 0x2F, 0x73, 0x3E]] [0x6F, 0x6B, 0x20, 0x3C] = 1 ∧
    findStop [[0x3C, 0x2F, 0x73, 0x3E]] [0x6F, 0x6B, 0x20, 0x3C, 0x2F, 0x73, 0x3E, 0x78] = some (7, 4, 0) := by decide +kernel

/-- R298: the block of the example. -/
theorem test_quantise : quantBlock (.mx fmtE2m1 4) (fun _ => .rne)
    [.fin false 13 0, .fin false 5 (-1), (fmtFp32.decode 0x3F333333), (fmtFp32.decode 0xC0466666)] = (0x80, [0x7, 0x2, 0x1, 0xB]) := by
  decide +kernel

/-- R302: the chunk of the example, −3.25. -/
theorem test_matrix : fmtFp32.convert .rne false (matElement false (.fin false 5 (-2))
    { elems := [.fin false 6 0, .fin false 2 0, .fin false 1 0, .fin true 3 0], scales := [some 1] }
    { elems := [.fin false 3 (-1), .fin true 4 0, .fin false 1 (-1), .fin false 2 0], scales := [some (-1)] } 1) = 0xC0500000 := by
  decide +kernel

/-- R312: choices and places of the example. -/
theorem test_route : (placeRows 1 (([[0x3F666666, 0x3DCCCCCD, 0x3F666666, 0x3E99999A], [0x3E4CCCCD, 0x3F4CCCCD, 0x3DCCCCCD, 0x7FC00000],
      [0x3F333333, 0x3F333333, 0x3F19999A, 0]].map (fun r => rowChoices 2 (.inf true) (r.map fmtFp32.decode)))) 0 (List.replicate 4 [])).2 =
    ([[0], [1], [0], []], 3) := by decide +kernel

/-- R531: parity and recovery of the example. -/
theorem test_parity : let d : List (List Byte) := [[0x01], [0x02], [0x80]]
    parityP 1 d = [0x83] ∧ parityQ 1 ((List.range 3).zip d) = [0x3F] ∧
    recoverShare 1 [(0, [0x01])] (some [0x83]) (some [0x3F]) [1, 2] 1 = some [0x02] ∧
    recoverShare 1 [(0, [0x01])] (some [0x83]) (some [0x3F]) [1, 2] 2 = some [0x80] := by decide +kernel

/-- R498: the second request of the example, of 3,000 bytes while pool 4 of the net die has no free buffer. -/
theorem test_pool_fallback : after (exec (.bufferRequest 1 9 0 4 3000 0)
    { ready with regs := [(0x810200, 1), (0x810240, 4)],
                 pools := { bufs := [{ die := 1, pool := 4, index := 0, cls := 0, port := 3, unit := 0 }] } })
    (fun t => (t.pools.bufs.map (fun b => (b.pool, b.port)) == [(4, 3), (5, 9)]) && (t.reg (poolReg 1 5 0x24) == 1)) = true := by
  decide +kernel

/-- R524: the quorum of groups of 8 and 64. -/
theorem test_quorum : State.quorum { ready with regs := [(0xB00000, 0x11)] } = 5 ∧
    State.quorum { ready with regs := [(0xB00000, 0x81)] } = 33 := by decide +kernel

/-- R505: the port sends its frame, and nothing is left on it. -/
theorem test_egress : after (exec (.egressSelect 0) egState) (fun t => t.portBacklog 0 == 0) = true := by decide +kernel

/-- R569: SAG_QUOIN_SET1 sets bits 32 to 63. -/
theorem test_quoin : after (exec (.quoinSet true 3) ready) (fun t => t.trust.quoin == 0x300000000) = true := by decide +kernel

/-- RFC 1951 (R165): a fixed-code block with a literal run and a match, as zlib writes it. -/
theorem test_inflate : let r := (Inflate.fresh 1 [0x4B, 0x4C, 0x4A, 0x4E, 0x44, 0x45, 0x00] 100 (some 18)).decode false
    r.2.output = [0x61, 0x62, 0x63, 0x61, 0x62, 0x63, 0x61, 0x62, 0x63, 0x61, 0x62, 0x63, 0x61, 0x62, 0x63, 0x61, 0x62, 0x63] ∧
    (Inflate.outcome false 0 r).status = 0 := by decide +kernel

/-- R173, R176: the same block with room for 5 bytes stops full within its match; cut short it is truncated; a length beyond
EXPECTED_LENGTH is an overrun. -/
theorem test_inflate_stops :
    (let o := Inflate.outcome false 0 ((Inflate.fresh 1 [0x4B, 0x4C, 0x4A, 0x4E, 0x44, 0x45, 0x00] 5 none).decode false)
     o.status = 0x0709 ∧ o.output.length = 5 ∧ leField o.record 7 1 = 2 ∧ leField o.record 0x18 4 = 13 ∧ leField o.record 0x1C 4 = 3) ∧
    (Inflate.outcome false 0 ((Inflate.fresh 1 [0x4B, 0x4C, 0x4A] 100 none).decode false)).status = 0x0706 ∧
    (let o := Inflate.outcome false 0 ((Inflate.fresh 1 [0x4B, 0x4C, 0x4A, 0x4E, 0x44, 0x45, 0x00] 100 (some 17)).decode false)
     o.status = 0x0703 ∧ o.detail = 1 ∧ o.valueA = 17 ∧ o.valueB = 18 ∧ o.output.length = 4) := by decide +kernel

/-- RFC 1950 and 1952: stored blocks of "hi"; a wrong Adler-32, and an FDICT flag, end with their statuses (R165, R173). -/
theorem test_wrappers :
    (fieldPayload 2 2 [0x78, 0x01, 0x01, 0x02, 0x00, 0xFD, 0xFF, 0x68, 0x69, 0x01, 0x3B, 0x00, 0xD2] = ([0x68, 0x69], true)) ∧ (fieldPayload 3 2 [0x1F, 0x8B, 0x08, 0x00, 0x00, 0x00, 0x00, 0x00, 0x00, 0xFF, 0x01, 0x02, 0x00, 0xFD, 0xFF, 0x68, 0x69, 0xAC, 0x2A, 0x93, 0xD8, 0x02, 0x00, 0x00, 0x00] = ([0x68, 0x69], true)) ∧
    (let o := Inflate.outcome false 0 ((Inflate.fresh 2 [0x78, 0x01, 0x01, 0x02, 0x00, 0xFD, 0xFF, 0x68, 0x69, 0x01, 0x3B, 0x00, 0xD3] 9 none).decode false)
     o.status = 0x0705 ∧ o.detail = 3) ∧
    (let o := Inflate.outcome false 0 ((Inflate.fresh 2 [0x78, 0x20] 9 none).decode false)
     o.status = 0x0707 ∧ o.detail = 1) := by decide +kernel

/-- R180, R182: LEVEL 0 of zlib is the header 78 01 and stored blocks; LEVEL 1 gives a fixed-code block, and another FLG byte. -/
theorem test_compressed : compress 2 0 [0x68, 0x69] = [0x78, 0x01, 0x01, 0x02, 0x00, 0xFD, 0xFF, 0x68, 0x69, 0x01, 0x3B, 0x00, 0xD2] ∧
    (fieldPayload 2 2 (compress 2 1 [0x68, 0x69]) = ([0x68, 0x69], true)) := by decide +kernel

/-- Published check values: CRC-32 of "123456789", and the hashes of the empty string. -/
theorem test_checksums : crc32 [0x31, 0x32, 0x33, 0x34, 0x35, 0x36, 0x37, 0x38, 0x39] = 0xCBF43926 ∧ xxh32 [] = 0x02CC5D05 ∧
    xxh64 [] = 0xEF46DB3751D8E999 ∧ md5 [] = [0xD4, 0x1D, 0x8C, 0xD9, 0x8F, 0x00, 0xB2, 0x04, 0xE9, 0x80, 0x09, 0x98, 0xEC, 0xF8, 0x42, 0x7E] := by
  decide +kernel

/-- RFC 8878 (R165): a frame with sequences, as the reference library writes it, and an empty LZ4 frame. -/
theorem test_frames : fieldPayload 4 54 [0x28, 0xB5, 0x2F, 0xFD, 0x20, 0x36, 0x4D, 0x00, 0x00, 0x18, 0x61, 0x62, 0x63, 0x01, 0x00, 0xF0, 0x74, 0x43] = ((List.replicate 18 [0x61, 0x62, 0x63]).flatten, true) ∧
    fieldPayload 5 0 [0x04, 0x22, 0x4D, 0x18, 0x64, 0x40, 0xA7, 0, 0, 0, 0, 0x05, 0x5D, 0xCC, 0x02] = ([], true) := by decide +kernel

/-- ISO/IEC 15948 (R208, R685): a 2 x 2 grey picture with filters Sub and Up; its pass is charged at its first byte. -/
theorem test_png : let d := pngField { tag := 1, cls := .png, form := { channels := 1, deep := false } } [0x89, 0x50, 0x4E, 0x47, 0x0D, 0x0A, 0x1A, 0x0A, 0x00, 0x00, 0x00, 0x0D, 0x49, 0x48, 0x44, 0x52, 0x00, 0x00, 0x00, 0x02, 0x00, 0x00, 0x00, 0x02, 0x08, 0x00, 0x00, 0x00, 0x00, 0x57, 0xDD, 0x52, 0xF8, 0x00, 0x00, 0x00, 0x11, 0x49, 0x44, 0x41, 0x54, 0x78, 0x01, 0x01, 0x06, 0x00, 0xF9, 0xFF, 0x01, 0x0A, 0x05, 0x02, 0x01, 0x01, 0x00, 0x5B, 0x00, 0x15, 0x81, 0xC5, 0x38, 0x9C, 0x00, 0x00, 0x00, 0x00, 0x49, 0x45, 0x4E, 0x44, 0xAE, 0x42, 0x60, 0x82]
    d.held = some (.png 2 2 0 8 [10, 15, 11, 16] [] []) ∧ d.events.map (·.2) = [.pngPass 4] := by decide +kernel

/-- R213, R214: a WAV file of two 16-bit samples; without its last byte it is truncated. -/
theorem test_wav : let g : GraphField := { tag := 1, cls := .audio, form := { channels := 1, deep := false } }
    let b : List Byte := [0x52, 0x49, 0x46, 0x46, 0x28, 0x00, 0x00, 0x00, 0x57, 0x41, 0x56, 0x45, 0x66, 0x6D, 0x74, 0x20, 0x10, 0x00, 0x00, 0x00, 0x01, 0x00, 0x01, 0x00, 0x40, 0x1F, 0x00, 0x00, 0x80, 0x3E, 0x00, 0x00, 0x02, 0x00, 0x10, 0x00, 0x64, 0x61, 0x74, 0x61, 0x04, 0x00, 0x00, 0x00, 0xFE, 0xFF, 0x2C, 0x01]
    (wavField g b).held = some (.audio 1 8000 16 false [-2, 300]) ∧
    (wavField g (b.take 47)).events.map (·.2) = [.audioSamples 1, .fault 0x0504] := by decide +kernel

/-- RFC 3550, 6184 and 7798 (R235): a STAP-A after a CSRC and an extension, with padding; the first and the last fragment of
an FU-A; an HEVC fragment; and packet types that are not supported. -/
theorem test_rtp :
    (let p := rtpOf false [0xB1, 0xE0, 0, 9, 0, 0, 0, 90, 0, 0, 0, 7, 1, 2, 3, 4, 0xBE, 0xDE, 0, 1, 5, 6, 7, 8, 0x18, 0, 1, 0x67, 0, 2, 0x65, 0xAA, 0, 2]
     p.supported = true ∧ p.marker = true ∧ p.payloadType = 96 ∧ p.seq = 9 ∧ p.ssrc = 7 ∧ p.randomAccess = true ∧
     p.nal = [0, 0, 0, 1, 0x67, 0, 0, 0, 1, 0x65, 0xAA]) ∧
    h264Payload [0x7C, 0x85, 0xAA] = some ([0, 0, 0, 1, 0x65, 0xAA], true) ∧ h264Payload [0x7C, 0x41, 0xAA] = some ([0xAA], false) ∧
    hevcPayload [0x62, 0x01, 0x93, 0xBB] = some ([0, 0, 0, 1, 0x26, 0x01, 0xBB], true) ∧
    h264Payload [0x19, 0, 1] = none ∧ hevcPayload [0x64, 0x01, 0] = none := by decide +kernel

/-- FIPS 197, C.3: AES-256 of its example block; its S-box; the step of the XTS tweak (R558). -/
theorem test_aes : aesEncrypt (aesRoundKeys ((List.range 32).map (BitVec.ofNat 8))) ((List.range 16).map (fun i => BitVec.ofNat 8 (i * 17))) =
      [0x8E, 0xA2, 0xB7, 0xCA, 0x51, 0x67, 0x45, 0xBF, 0xEA, 0xFC, 0x49, 0x90, 0x4B, 0x49, 0x60, 0x89] ∧
    aesSub 0x53 = 0xED ∧ aesUnsub 0xED = 0x53 ∧ xtsNext (BitVec.twoPow 128 127) = 0x87 := by decide +kernel

/-- FIPS 180-4: SHA-384 of "abc" (R340). -/
theorem test_sha : (sha384 [0x61, 0x62, 0x63]).take 8 = [0xCB, 0x00, 0x75, 0x3F, 0x45, 0xA3, 0x5E, 0x8B] := by decide +kernel

end Sys2Proof.Tests
end

/-! PROOFS. Region resets, the soft resets of a tile's units, and the faults of tiles, regions and routers: the rules of their
state functions, and with them RegionResetAndResetRegisters, TileUnitResets and TileRegionAndRouterFaults. -/

namespace Sys2Proof.Machine

/-! What these commands mean: each runs the state function of its instruction. -/

theorem exec_rstRequestWrite (key : Word) (s : State) : exec (.rstRequestWrite key) s = .next (s.rstRequestWrite key) := rfl
theorem exec_regionReset (r : Nat) (s : State) : exec (.regionReset r) s = .next (s.regionReset r) := rfl
theorem exec_regionResetDone (d : Option Nat) (s : State) :
    exec (.regionResetDone d) s = .next (s.regionResetDone d) := rfl
theorem exec_bootCopyClear (a b : Bool) (s : State) : exec (.bootCopyClear a b) s = .next (s.bootCopyClear a b) := rfl
theorem exec_rstTimeoutWrite (b : Nat) (v : Word) (s : State) :
    exec (.rstTimeoutWrite b v) s = .next (s.rstTimeoutWrite b v) := rfl
theorem exec_tilResetMac (t : Nat) (s : State) : exec (.tilResetMac t) s = .next (s.tileUnitStart t 0) := rfl
theorem exec_tilResetVec (t : Nat) (s : State) : exec (.tilResetVec t) s = .next (s.tileUnitStart t 1) := rfl
theorem exec_tilResetDma (t : Nat) (s : State) : exec (.tilResetDma t) s = .next (s.tileUnitStart t 2) := rfl
theorem exec_tilResetCore (t : Nat) (s : State) : exec (.tilResetCore t) s = .next (s.tileUnitStart t 3) := rfl
theorem exec_tilResetSync (t : Nat) (s : State) : exec (.tilResetSync t) s = .next (s.tileUnitStart t 4) := rfl
theorem exec_tilResetObs (t : Nat) (s : State) : exec (.tilResetObs t) s = .next (s.tileUnitStart t 5) := rfl
theorem exec_tilResetStore (t : Nat) (s : State) : exec (.tilResetStore t) s = .next (s.tileUnitStart t 6) := rfl
theorem exec_tilResetRouter (t : Nat) (s : State) : exec (.tilResetRouter t) s = .next (s.tileUnitStart t 7) := rfl
theorem exec_tileFault (t : Nat) (np : Bool) (s : State) : exec (.tileFault t np) s = .next (s.tileFault t np) := rfl
theorem exec_regionFault (g : Nat) (c : RegionFaultCause) (s : State) :
    exec (.regionFault g c) s = .next (s.regionFault g c) := rfl
theorem exec_routerParityFault (t : Nat) (flows : List (Nat × Nat × Nat)) (s : State) :
    exec (.routerParityFault t flows) s = .next (s.routerFault t flows) := rfl

/-! The run that holds a region depends on the run table only. -/

theorem State.runOfRegion_congr {s u : State} (h : u.mgr = s.mgr) (g : Nat) : u.runOfRegion g = s.runOfRegion g := by
  unfold State.runOfRegion; rw [h]

@[simp] theorem State.log_runOfRegion (s : State) (st : Status) (b i0 i1 i2 d n g : Nat) :
    (s.log st b i0 i1 i2 d n).runOfRegion g = s.runOfRegion g := State.runOfRegion_congr (State.log_mgr ..) g

@[simp] theorem State.setTile_runOfRegion (s : State) (t : Nat) (x : TileState) (g : Nat) :
    (s.setTile t x).runOfRegion g = s.runOfRegion g := rfl

/-- A region of the part has a number below 48. -/
theorem State.regionActive_lt {s : State} {r : Nat} (h : s.regionActive r = true) : r < 48 := by
  rw [State.regionActive, Bool.and_eq_true, decide_eq_true_eq] at h
  exact h.1

/-- The run of a tile's region ends, at the tile's logical number. -/
theorem State.endTileRun_of_run {s : State} {t : Nat} {r : Run} (h : s.runOfRegion (t / 32) = some r) (st : Status) (d : Nat) :
    s.endTileRun t st d = s.endRun r.slot st d (r.regions.idxOf (t / 32) * 32 + t % 32) := by
  unfold State.endTileRun; rw [h]

/-! A region reset (R37, R615). -/

/-- A region reset may be asked for: none is under way, and the region's number is one of a region. -/
theorem State.regionReset_may {s : State} {r : Nat} (hn : s.rst.region = none) (hr : r < 48) :
    (s.rst.region.isSome || decide (r ≥ 48)) = false := by
  rw [hn, Option.isSome_none, Bool.false_or, decide_eq_false (Nat.not_le.mpr hr)]

/-- The start of a region reset: an active region that no run holds, while no other reset is under way. -/
theorem State.regionReset_starts {s : State} {r : Nat} (hn : s.rst.region = none) (ha : s.regionActive r = true)
    (ho : s.regionOwner r = none) : s.regionReset r =
      { (s.setReg regRstRegion (packFields [(0, r)])) with rst := { s.rst with region := some r, regionFault := none } } := by
  rw [State.regionReset, State.regionReset_may hn (State.regionActive_lt ha), ha, ho]
  rfl

theorem State.regionReset_busy {s : State} {r : Nat} (h : s.rst.region ≠ none ∨ r ≥ 48) :
    s.regionReset r = s.regionResetRefused 0x0101 r := by
  have hb : (s.rst.region.isSome || decide (r ≥ 48)) = true := by
    rwa [Bool.or_eq_true, decide_eq_true_eq, Option.isSome_iff_ne_none]
  rw [State.regionReset, if_pos hb]

theorem State.regionReset_inactive {s : State} {r : Nat} (hn : s.rst.region = none) (hr : r < 48)
    (ha : s.regionActive r = false) : s.regionReset r = s.regionResetRefused 0x0103 r := by
  simp only [State.regionReset, State.regionReset_may hn hr, ha, Bool.not_false, Bool.false_eq_true, if_false, if_true]

theorem State.regionReset_held {s : State} {r : Nat} (hn : s.rst.region = none) (ha : s.regionActive r = true)
    (ho : s.regionOwner r ≠ none) : s.regionReset r = s.regionResetRefused 0x0101 r := by
  simp only [State.regionReset, State.regionReset_may hn (State.regionActive_lt ha), ha, Option.isSome_iff_ne_none.mpr ho,
    Bool.not_true, Bool.false_eq_true, if_false, if_true]

/-- The end of a region reset whose region has not faulted again. -/
theorem State.regionResetDone_ok {s : State} {r : Nat} (h : s.rst.region = some r) (hf : s.rst.regionFault = none) :
    let u := (s.zeroRegion r).deisolateRegion r
    s.regionResetDone none = { u with
      rst := { u.rst with region := none, regionStatus := 0 },
      power := { u.power with
        doze := setBit u.power.doze r false, pllLock := setBit u.power.pllLock r true,
        waking := setBit u.power.waking r false,
        idleSince := (u.power.idleSince.filter (fun p => p.1 != r)) ++ [(r, u.now)] } } := by
  unfold State.regionResetDone
  rw [h, hf]
  rfl

/-- The end of a region reset whose region faults again. -/
theorem State.regionResetDone_fault {s : State} {r : Nat} (h : s.rst.region = some r) (d : Nat) :
    let u := s.isolateRegion r d
    s.regionResetDone (some d) = State.log
      { u with rst := { u.rst with region := none, regionFault := none, regionStatus := 0x090C } } 0x090C rstBase r 0 0 d := by
  unfold State.regionResetDone
  rw [h]
  rfl

theorem State.rstTimeoutWrite_unlocked {s : State} {b : Nat} (hb : b < 10) (hq : s.quoinSet 2 = false) (v : Word) :
    s.rstTimeoutWrite b v = if 10 ≤ fld v 0 17 ∧ fld v 0 17 ≤ 100000
      then s.plainWrite (regRstTimeout b) v else s.log 0x0101 rstBase (regRstTimeout b) := by
  rw [State.rstTimeoutWrite, if_neg (Nat.not_le.mpr hb), if_neg (ne_true_of_eq_false hq)]

/-- Settles O23, by the branches of each command: what a region reset does at its start and its end, and its refusals. -/
theorem regionResetAndResetRegisters : Obligations.RegionResetAndResetRegisters := by
  unfold Obligations.RegionResetAndResetRegisters
  refine ⟨fun s key => ⟨?_, fun hk => ?_⟩, fun s r hn ha ho => ?_,
    fun s r => ⟨fun h => ?_, fun hn hr ha => ?_, fun hn ha ho => ?_⟩, fun s r h hf => ?_, fun s r d h => ?_,
    fun s a b => exec_bootCopyClear a b s, fun s b v hb hq => ?_⟩
  · rw [exec_rstRequestWrite, State.rstRequestWrite, if_pos rfl, State.requestReset]
  · rw [exec_rstRequestWrite, State.rstRequestWrite, if_neg hk]
  · rw [exec_regionReset, State.regionReset_starts hn ha ho]
  · rw [exec_regionReset, State.regionReset_busy h]; rfl
  · rw [exec_regionReset, State.regionReset_inactive hn hr ha]; rfl
  · rw [exec_regionReset, State.regionReset_held hn ha ho]; rfl
  · refine ⟨_, (exec_regionResetDone none s).trans (congrArg _ (State.regionResetDone_ok h hf)), rfl, rfl, rfl, rfl, rfl⟩
  · rw [exec_regionResetDone, State.regionResetDone_fault h d]
  · rw [exec_rstTimeoutWrite, State.rstTimeoutWrite_unlocked hb hq]

/-! The soft reset of a tile's unit (R333, R603). -/

/-- No unit of a tile is under reset when none is listed for it. -/
theorem State.tileUnitHeld_of_absent {s : State} {t : Nat} (h : ∀ x ∈ s.rst.tiles, x.1 ≠ t) (b : Nat) :
    s.tileUnitHeld t b = false := by
  rw [State.tileUnitHeld, List.any_eq_false]
  intro x hx
  rw [beq_false_of_ne (h x hx), Bool.false_and]
  exact Bool.false_ne_true

/-- The end of a unit's reset when none is listed for the tile: the unit is cleared and the tile's run ends. -/
theorem State.tileUnitEnd_of_absent {s : State} {t : Nat} (h : ∀ x ∈ s.rst.tiles, x.1 ≠ t) (b : Nat) :
    s.tileUnitEnd t b = (s.tileUnitClear t b).tileUnitReset t := by
  have hf : s.rst.tiles.filter (fun x => !(x.1 == t && x.2.1 == b)) = s.rst.tiles := by
    rw [List.filter_eq_self]
    intro x hx
    rw [beq_false_of_ne (h x hx), Bool.false_and, Bool.not_false]
  rw [State.tileUnitEnd, hf]

/-- A reset asked of a unit that is idle and not under reset clears it at once. -/
theorem State.tileUnitStart_idle {s : State} {t b : Nat} (ha : s.regionActive (t / 32) = true)
    (h : ∀ x ∈ s.rst.tiles, x.1 ≠ t) (hi : s.tileUnitIdle t b = true) :
    s.tileUnitStart t b = (s.tileUnitClear t b).tileUnitReset t := by
  simp only [State.tileUnitStart, State.tileAccess, ha, State.tileUnitHeld_of_absent h, hi, State.tileUnitEnd_of_absent h,
    Bool.false_eq_true, if_false, if_true]

/-- A reset asked of a unit at work is noted with its start time. -/
theorem State.tileUnitStart_busy {s : State} {t b : Nat} (ha : s.regionActive (t / 32) = true)
    (h : ∀ x ∈ s.rst.tiles, x.1 ≠ t) (hi : s.tileUnitIdle t b = false) :
    s.tileUnitStart t b = { s with rst := { s.rst with tiles := s.rst.tiles ++ [(t, b, s.now)] } } := by
  simp only [State.tileUnitStart, State.tileAccess, ha, State.tileUnitHeld_of_absent h, hi, Bool.false_eq_true, if_false, if_true]

theorem State.tileUnitReset_of_free {s : State} {t : Nat} (h : s.runOfRegion (t / 32) = none) : s.tileUnitReset t = s := by
  unfold State.tileUnitReset; rw [h]

theorem State.tileUnitReset_of_run {s : State} {t : Nat} {r : Run} (h : s.runOfRegion (t / 32) = some r) :
    s.tileUnitReset t =
      (s.log 0x0105 tilBase t).endRun r.slot 0x090B 2 (r.regions.idxOf (t / 32) * 32 + t % 32) := by
  unfold State.tileUnitReset
  rw [h]
  exact State.endTileRun_of_run (by rw [State.log_runOfRegion, h]) 0x090B 2

/-! The end of a run (R346, R360). -/

/-- A run that is stopped: it has its status and its fault, and no operation left. -/
def Run.stopped (r : Run) (st : Status) (d t va : Nat) : Run :=
  { r with status := st, detail := d, tile := t, faultVaddr := va, susp := [], filling := [], flush := none,
           resumeQueued := false, order := 0 }

/-- A run that has gone to ENDING. -/
def Run.ended (r : Run) (st : Status) (d t va : Nat) : Run := { r.stopped st d t va with state := .ending }

/-- What a record in the log or the trace changes: these two, the event numbers, the registers that count records, and the kept
anchor records. `u` is `s` up to that. -/
def State.RecordsOnly (s u : State) : Prop :=
  ∃ ob ev el rg nd, u = { s with obs := ob, evt := ev, errlog := el, regs := rg, nand := nd }

theorem State.RecordsOnly.refl (s : State) : s.RecordsOnly s := ⟨_, _, _, _, _, rfl⟩

theorem State.RecordsOnly.trans {s u v : State} (h : s.RecordsOnly u) (h' : u.RecordsOnly v) : s.RecordsOnly v := by
  obtain ⟨_, _, _, _, _, rfl⟩ := h
  obtain ⟨_, _, _, _, _, rfl⟩ := h'
  exact ⟨_, _, _, _, _, rfl⟩

theorem State.recordsOnly_log (s : State) (st : Status) (b i0 i1 i2 d n : Nat) : s.RecordsOnly (s.log st b i0 i1 i2 d n) := by
  obtain ⟨_, _, _, _, h⟩ := s.log_frame st b i0 i1 i2 d n
  rw [h]
  exact ⟨_, _, _, _, _, rfl⟩

theorem State.recordsOnly_trace (s : State) (ty bit src run fl a0 a1 : Nat) :
    s.RecordsOnly (s.trace ty bit src run fl a0 a1) := by
  obtain ⟨_, _, _, _, h⟩ := s.trace_frame ty bit src run fl a0 a1
  rw [h]
  exact ⟨_, _, _, _, _, rfl⟩

theorem State.RecordsOnly.mgr_eq {s u : State} (h : s.RecordsOnly u) : u.mgr = s.mgr := by
  obtain ⟨_, _, _, _, _, rfl⟩ := h; rfl

theorem State.RecordsOnly.field_eq {s u : State} (h : s.RecordsOnly u) : u.field = s.field := by
  obtain ⟨_, _, _, _, _, rfl⟩ := h; rfl

theorem State.RecordsOnly.sync_eq {s u : State} (h : s.RecordsOnly u) : u.sync = s.sync := by
  obtain ⟨_, _, _, _, _, rfl⟩ := h; rfl

theorem State.RecordsOnly.runAt_eq {s u : State} (h : s.RecordsOnly u) (k : Nat) : u.runAt k = s.runAt k := by
  unfold State.runAt; rw [h.mgr_eq]

theorem State.RecordsOnly.updRun {s u : State} (h : s.RecordsOnly u) (slot : Nat) (f : Run → Run) :
    (s.updRun slot f).RecordsOnly (u.updRun slot f) := by
  obtain ⟨_, _, _, _, _, rfl⟩ := h
  exact ⟨_, _, _, _, _, rfl⟩

/-- Two changes of the run in a slot are one. -/
theorem State.updRun_updRun (s : State) (slot : Nat) (f g : Run → Run) (hf : ∀ r, (f r).slot = r.slot) :
    (s.updRun slot f).updRun slot g = s.updRun slot (fun r => g (f r)) := by
  unfold State.updRun State.setRuns
  simp only [List.map_map]
  congr 3
  funext r
  by_cases h : r.slot = slot
  · simp only [Function.comp_apply, h, beq_self_eq_true, if_true, hf]
  · simp only [Function.comp_apply, beq_false_of_ne h, Bool.false_eq_true, if_false]

/-- Entering a state changes the run's state, and is traced. -/
theorem State.recordsOnly_runState (s : State) (slot : Nat) (st : RunState) :
    (s.updRun slot (fun r => { r with state := st })).RecordsOnly (s.runState slot st) := by
  unfold State.runState
  simp only
  split
  · exact State.recordsOnly_trace ..
  · exact State.RecordsOnly.refl _

theorem State.stageRunEnded_of_no_stage (s : State) {r : Run} (h : r.stage = none) : s.stageRunEnded r = s := by
  unfold State.stageRunEnded; rw [h]

/-- A run that no stream uses ends: it becomes what `Run.ended` says, and beside it the records of the end alone change. -/
theorem State.recordsOnly_endRun {s : State} {slot : Nat} {r : Run} (h : s.runAt slot = some r)
    (hl : r.state ≠ .free ∧ r.state ≠ .ending) (hs : r.stage = none) (st : Status) (d t va : Nat) :
    (s.updRun slot (fun r => r.ended st d t va)).RecordsOnly (s.endRun slot st d t va) := by
  unfold State.endRun
  simp only [h, Bool.false_eq_true, if_false]
  rw [if_neg (not_or.mpr hl)]
  generalize hv : (if st = 0 ∨ st = 0x090E then _ else _ : State) = v
  have hrec : (s.updRun slot (fun r => r.stopped st d t va)).RecordsOnly v := by
    rw [← hv]
    split
    · exact State.RecordsOnly.refl _
    · exact (State.recordsOnly_log ..).trans (State.recordsOnly_trace ..)
  have hat : (v.runState slot .ending).runAt slot = some (r.ended st d t va) := by
    rw [State.runAt_runState, hrec.runAt_eq, State.runAt_updRun, h]
    · rfl
    · exact fun _ => rfl
  rw [hat]
  simp only
  rw [State.stageRunEnded_of_no_stage (r := r.ended st d t va) _ hs]
  have hend := (hrec.updRun slot (fun r => { r with state := .ending })).trans (v.recordsOnly_runState slot .ending)
  rw [State.updRun_updRun (f := fun r => r.stopped st d t va) (hf := fun _ => rfl)] at hend
  exact hend

/-- Settles O36, by the reset of one unit (idle, at work, ended) for each unit, and by what the end of a run changes. -/
theorem tileUnitResets : Obligations.TileUnitResets := by
  unfold Obligations.TileUnitResets
  refine ⟨fun s t ha h hd hw => ?_, fun s t ha h => ⟨fun hd => ?_, fun hw => ?_⟩, fun s t b a => ⟨rfl, memGet_memZero ..⟩,
    fun s t => ⟨State.tileUnitReset_of_free, fun r => State.tileUnitReset_of_run⟩, fun s slot d t va st r k hr hl hs hk => ?_⟩
  · have idle (b : Nat) (hb : s.tileUnitIdle t b = true) : s.tileUnitStart t b = (s.tileUnitClear t b).tileUnitReset t :=
      State.tileUnitStart_idle ha h hb
    rw [exec_tilResetMac, exec_tilResetVec, exec_tilResetDma, exec_tilResetCore, exec_tilResetSync, exec_tilResetObs,
      exec_tilResetStore, exec_tilResetRouter, idle 0 rfl, idle 1 rfl, idle 2 (List.isEmpty_iff.mpr hd), idle 3 rfl, idle 4 hw,
      idle 5 rfl, idle 6 rfl, idle 7 rfl]
    exact ⟨rfl, rfl, rfl, rfl, rfl, rfl, rfl, rfl⟩
  · rw [exec_tilResetDma, State.tileUnitStart_busy (b := 2) ha h (List.isEmpty_eq_false_iff.mpr hd)]
  · rw [exec_tilResetSync, State.tileUnitStart_busy (b := 4) ha h hw]
  · have hend := State.recordsOnly_endRun hr hl hs st d t va
    refine ⟨?_, ?_, hend.field_eq, hend.sync_eq⟩
    · rw [hend.runAt_eq, State.runAt_updRun, hr]
      · rfl
      · exact fun _ => rfl
    · rw [hend.runAt_eq, State.runAt_updRun_ne _ _ _ _ _ hk]
      exact fun _ => rfl

/-! Faults of tiles and regions (R32, R34). -/

theorem State.tileFault_of_run {s : State} {t : Nat} {r : Run} (h : s.runOfRegion (t / 32) = some r) (np : Bool) :
    s.tileFault t np = (s.setTile t { s.tile t with faulted := true }).endRun r.slot 0x090B (if np then 3 else 1)
      (r.regions.idxOf (t / 32) * 32 + t % 32) := by
  unfold State.tileFault
  rw [h]
  exact State.endTileRun_of_run (by rw [State.setTile_runOfRegion, h]) ..

theorem State.tileFault_of_free {s : State} {t : Nat} (h : s.runOfRegion (t / 32) = none) (np : Bool) : s.tileFault t np = s := by
  unfold State.tileFault; rw [h]

/-- The DETAIL of a region fault's cause (R34). -/
def faultDetail : RegionFaultCause → Nat
  | .pll => 1
  | .island => 2
  | .store => 3

/-- A fault of a region that a run holds isolates it; the isolation ends the run. -/
theorem State.regionFault_of_run {s : State} {g : Nat} {r : Run} (ha : s.regionActive g = true)
    (h : s.runOfRegion g = some r) (hr : s.rst.region ≠ some g) (c : RegionFaultCause) :
    s.regionFault g c = s.isolateRegion g (faultDetail c) := by
  cases c <;> simp only [State.regionFault, ha, h, hr, faultDetail, Bool.not_true, Bool.false_eq_true, if_false, Option.isNone_some]

/-- A fault of a region that no run holds is recorded, for no run's end records it. -/
theorem State.regionFault_of_free {s : State} {g : Nat} (ha : s.regionActive g = true) (h : s.runOfRegion g = none)
    (hr : s.rst.region ≠ some g) (c : RegionFaultCause) :
    s.regionFault g c = (s.log 0x090C stkBase g 0 0 (faultDetail c)).isolateRegion g (faultDetail c) := by
  cases c <;> simp only [State.regionFault, ha, h, hr, faultDetail, Bool.not_true, Bool.false_eq_true, if_false, Option.isNone_none, if_true]

/-- A fault of a region that is being reset is kept for the end of the reset. -/
theorem State.regionFault_in_reset {s : State} {g : Nat} (ha : s.regionActive g = true) (h : s.runOfRegion g = none)
    (hr : s.rst.region = some g) (c : RegionFaultCause) :
    s.regionFault g c = (State.log { s with rst := { s.rst with regionFault := some (faultDetail c) } } 0x090C stkBase g 0 0
      (faultDetail c)).isolateRegion g (faultDetail c) := by
  have h' (x : Rst) : State.runOfRegion { s with rst := x } g = none := h
  cases c <;> simp only [State.regionFault, ha, hr, h', faultDetail, Bool.not_true, Bool.false_eq_true, if_false, if_true,
    Option.isNone_none]

/-- The first part of a region's isolation (R34): it stands in the list of isolated regions. -/
def State.listIsolated (s : State) (g : Nat) : State :=
  { s with mgr := { s.mgr with isolated := if s.mgr.isolated.contains g then s.mgr.isolated else s.mgr.isolated ++ [g] } }

/-- The last part of it: the region's contents are lost and its power island is gated, its PLL with it. -/
def State.gateRegion (s : State) (g : Nat) : State :=
  let y := s.zeroRegion g
  { y with power := { y.power with
    doze := setBit y.power.doze g true, pllLock := setBit y.power.pllLock g false, waking := setBit y.power.waking g false } }

theorem State.isolateRegion_of_free {s : State} {g : Nat} (h : s.runOfRegion g = none) (d : Nat) :
    s.isolateRegion g d = (s.listIsolated g).gateRegion g := by
  have h' : (s.listIsolated g).runOfRegion g = none := h
  unfold State.isolateRegion
  rw [State.listIsolated] at h'
  simp only [h']
  rfl

theorem State.isolateRegion_of_run {s : State} {g : Nat} {r : Run} (h : s.runOfRegion g = some r) (d : Nat) :
    s.isolateRegion g d = ((s.listIsolated g).endRun r.slot 0x090C d).gateRegion g := by
  have h' : (s.listIsolated g).runOfRegion g = some r := h
  unfold State.isolateRegion
  rw [State.listIsolated] at h'
  simp only [h']
  rfl

/-- A number that is added to a list unless it stands there already is in the list. -/
theorem contains_added (l : List Nat) (g : Nat) : (if l.contains g then l else l ++ [g]).contains g = true := by
  split
  · assumption
  · exact List.contains_iff_mem.mpr (List.mem_append_right l (List.mem_singleton_self g))

/-! A router's parity fault (R36). -/

theorem State.routerFault_active {s : State} {t : Nat} (ha : s.regionActive (t / 32) = true) (flows : List (Nat × Nat × Nat)) :
    let u : State := { s with mgr := { s.mgr with
      routers := if s.mgr.routers.contains t then s.mgr.routers else s.mgr.routers ++ [t] } }
    s.routerFault t flows =
      flows.foldl (fun x f => x.moveFlow f) ((u.log 0x090C stkBase (t / 32) t 0 4).isolateRegion (t / 32) 4) := by
  simp only [State.routerFault, ha, Bool.not_true, Bool.false_eq_true, if_false]

section Flow

variable {s : State} {f : Nat × Nat × Nat} {r : Run} (h : s.runAt f.1 = some r) (hg : r.regions.contains (f.2.1 / 32) = true)
include h

/-- A flow whose route meets no faulted router stays. -/
theorem State.moveFlow_clear (hx : s.routeClear (xyRoute f.2.1 f.2.2) = true) : s.moveFlow f = s := by
  unfold State.moveFlow
  simp only [h, hx, Bool.or_true, if_true]

include hg

/-- A flow whose route meets a faulted router moves to YX routing where that route meets none. -/
theorem State.moveFlow_yx (hx : s.routeClear (xyRoute f.2.1 f.2.2) = false) (hy : s.routeClear (yxRoute f.2.1 f.2.2) = true) :
    s.moveFlow f = { s with mgr := { s.mgr with yxFlows := s.mgr.yxFlows.filter (· != f.2) ++ [f.2] } } := by
  unfold State.moveFlow
  rw [h]
  simp only [hg, hx, hy, Bool.true_or, Bool.not_true, Bool.or_false, Bool.false_eq_true, if_false, if_true]

/-- A flow with no route left ends its run. -/
theorem State.moveFlow_lost (hx : s.routeClear (xyRoute f.2.1 f.2.2) = false) (hy : s.routeClear (yxRoute f.2.1 f.2.2) = false) :
    s.moveFlow f = s.endRun f.1 0x090C 4 := by
  unfold State.moveFlow
  rw [h]
  simp only [hg, hx, hy, Bool.true_or, Bool.not_true, Bool.or_false, Bool.false_eq_true, if_false]

end Flow

/-! Between two tiles of the mesh (R36, R46). -/

theorem mem_between {a b n : Nat} : n ∈ between a b ↔ min a b ≤ n ∧ n ≤ max a b := by
  simp only [between, List.mem_map, List.mem_range]
  exact ⟨fun ⟨k, hk, e⟩ => by omega, fun h => ⟨n - min a b, by omega, by omega⟩⟩

/-- The tile at a tile's own place is that tile. -/
theorem tileAt_mesh (a : Nat) : tileAt (meshCol a) (meshRow a) = a := by
  unfold tileAt meshCol meshRow; omega

theorem meshCol_lt (a : Nat) : meshCol a < 32 := by unfold meshCol; omega

theorem meshRow_lt {a : Nat} (h : a < 1536) : meshRow a < 48 := by unfold meshRow; omega

theorem source_mem_xyRoute (a b : Nat) : a ∈ xyRoute a b :=
  List.mem_append_left _ (List.mem_map.mpr ⟨meshCol a, mem_between.mpr (by omega), tileAt_mesh a⟩)

theorem target_mem_xyRoute (a b : Nat) : b ∈ xyRoute a b :=
  List.mem_append_right _ (List.mem_map.mpr ⟨meshRow b, mem_between.mpr (by omega), tileAt_mesh b⟩)

theorem source_mem_yxRoute (a b : Nat) : a ∈ yxRoute a b :=
  List.mem_append_left _ (List.mem_map.mpr ⟨meshRow a, mem_between.mpr (by omega), tileAt_mesh a⟩)

theorem target_mem_yxRoute (a b : Nat) : b ∈ yxRoute a b :=
  List.mem_append_right _ (List.mem_map.mpr ⟨meshCol b, mem_between.mpr (by omega), tileAt_mesh b⟩)

/-- Settles O37, by the kind of the fault and what holds the region; a router's fault by the routes it leaves to a flow. -/
theorem tileRegionAndRouterFaults : Obligations.TileRegionAndRouterFaults := by
  unfold Obligations.TileRegionAndRouterFaults
  refine ⟨fun s t np r h => ?_, fun s t np h => ?_, fun s g r ha h hr => ?_, fun s g ha h hr => ?_, fun s g ha h hr => ?_,
    fun s g d => ⟨fun h => ?_, fun r h => ?_, contains_added ..⟩, fun s t flows ha => ?_,
    fun s f r h hg => ⟨State.moveFlow_clear h, fun hx hy => ?_, State.moveFlow_lost h hg⟩,
    fun a b ha _ => ⟨source_mem_xyRoute a b, target_mem_xyRoute a b, source_mem_yxRoute a b, target_mem_yxRoute a b,
      tileAt_mesh a, meshCol_lt a, meshRow_lt ha⟩⟩
  · rw [exec_tileFault, State.tileFault_of_run h]
  · rw [exec_tileFault, State.tileFault_of_free h]
  · simp only [exec_regionFault, State.regionFault_of_run ha h hr, faultDetail, and_self]
  · rw [exec_regionFault, State.regionFault_of_free ha h hr, faultDetail]
  · rw [exec_regionFault, State.regionFault_in_reset ha h hr, faultDetail]
  · exact State.isolateRegion_of_free h d
  · exact State.isolateRegion_of_run h d
  · rw [exec_routerParityFault, State.routerFault_active ha]
  · rw [State.moveFlow_yx h hg hx hy]
    exact ⟨List.contains_iff_mem.mpr (List.mem_append_right _ (List.mem_singleton_self f.2)), h⟩

end Sys2Proof.Machine

/-! PROOFS. The namespace features and the media registers: what each refusal rests on, what an admitted feature leaves,
what the register writes and a temperature sample do, and with them NamespaceFeaturesAndMediaRegisters. -/

namespace Sys2Proof.Machine

/-! What these commands mean: each runs the state function of its instruction. -/

theorem exec_nsCreate (p : ReqPath) (nsid cap : Nat) (k : Bool) (s : State) :
    exec (.nsCreate p nsid cap k) s = .next (s.nsCreate p nsid cap k) := rfl
theorem exec_nsDelete (p : ReqPath) (nsid : Nat) (k : Bool) (s : State) :
    exec (.nsDelete p nsid k) s = .next (s.nsDelete p nsid k) := rfl
theorem exec_nsSeal (p : ReqPath) (nsid : Nat) (s : State) : exec (.nsSeal p nsid) s = .next (s.nsSeal p nsid) := rfl
theorem exec_nsUnseal (p : ReqPath) (nsid : Nat) (s : State) : exec (.nsUnseal p nsid) s = .next (s.nsUnseal p nsid) := rfl
theorem exec_mapCkptConfigWrite (v : Word) (s : State) : exec (.mapCkptConfigWrite v) s = .next (s.ckptConfigWrite v) := rfl
theorem exec_medNandPadWrite (v : Word) (s : State) : exec (.medNandPadWrite v) s = .next (s.nandPadWrite v) := rfl
theorem exec_nandTemperatureSample (ts : List Int) (s : State) :
    exec (.nandTemperatureSample ts) s = .next (s.nandTemperature ts) := rfl

/-! Refusals (R126, R529, R557, R569). -/

/-- A gate that lets a feature bound by quoin bit 14 pass lets one pass that the bit does not bind. -/
theorem State.nsGate_unquoined {s : State} (h : s.nsGate true = none) : s.nsGate false = none := by
  unfold State.nsGate at h ⊢
  split at h
  · cases h
  · exact h

/-- A namespace outside the group is not refused on the group's account. -/
theorem State.groupRefusal_of_not_member {s : State} {nsid : Nat} (h : s.memberNs nsid = false) (p : ReqPath) :
    s.groupRefusal p nsid = none := by
  rw [State.groupRefusal, h, Bool.false_and, if_neg Bool.false_ne_true]

section Gates

variable {s : State} {nsid : Nat} (hm : s.memberNs nsid = false)
include hm

/-- Past the gate and the group's check, a feature's refusal is that of its own checks. -/
theorem State.orRefuse_own {q : Bool} (hg : s.nsGate q = none) (p : ReqPath) (own : Option (Status × Nat)) :
    orRefuse ((s.nsGate q).map (·, 0)) (orRefuse (s.groupRefusal p nsid) own) = own := by
  rw [hg, State.groupRefusal_of_not_member hm p]
  rfl

variable (hg : s.nsGate true = none)
include hg

theorem State.nsCreateRefusal_bad_id (h : nsid = 0 ∨ nsid > 256) (p : ReqPath) (cap : Nat) (k : Bool) :
    s.nsCreateRefusal p nsid cap k = some (0x0101, 1) := by
  rw [State.nsCreateRefusal, State.orRefuse_own hm hg, if_pos h]

theorem State.nsCreateRefusal_taken (h : 1 ≤ nsid ∧ nsid ≤ 256) (hi : (s.nsInfo nsid).isSome = true) (p : ReqPath)
    (cap : Nat) (k : Bool) : s.nsCreateRefusal p nsid cap k = some (0x0101, 2) := by
  rw [State.nsCreateRefusal, State.orRefuse_own hm hg, if_neg (by omega), if_pos hi]

theorem State.nsCreateRefusal_no_capacity (h : 1 ≤ nsid ∧ nsid ≤ 256) (hi : (s.nsInfo nsid).isSome = false) (p : ReqPath)
    (k : Bool) : s.nsCreateRefusal p nsid 0 k = some (0x0101, 3) := by
  rw [State.nsCreateRefusal, State.orRefuse_own hm hg, if_neg (by omega), if_neg (ne_true_of_eq_false hi), if_pos rfl]

/-- A namespace that an open stream witnesses into is in use: it is neither deleted nor sealed. -/
theorem State.nsDeleteRefusal_witnessed {x : NsInfo} (hi : s.nsInfo nsid = some x) (hw : s.streamWitness nsid = true)
    (p : ReqPath) (k : Bool) : s.nsDeleteRefusal p nsid k = some (0x0304, 0) := by
  rw [State.nsDeleteRefusal, State.orRefuse_own hm hg, hi, hw]
  exact if_pos (Bool.or_true _)

theorem State.nsSealRefusal_witnessed {x : NsInfo} (hi : s.nsInfo nsid = some x) (hw : s.streamWitness nsid = true)
    (p : ReqPath) : s.nsSealRefusal p nsid = some (0x0304, 0) := by
  rw [State.nsSealRefusal, State.orRefuse_own hm (State.nsGate_unquoined hg), hi, Option.isNone_some, if_neg Bool.false_ne_true, if_pos hw]

end Gates

/-- A refusal for anything but a key record is an answer and no more. -/
theorem State.nsRefuse_of_ne {r : Status × Nat} (h : r.1 ≠ 0x0F0A) (s : State) (p : ReqPath) :
    s.nsRefuse p r = s.reply p r.1 r.2 := by
  rw [State.nsRefuse, if_neg h, State.refuse]

/-! While nothing has stopped the media a feature is refused or admitted (R126). -/

section Running

variable {s : State} (hs : s.mediaStopped = false)
include hs

theorem State.nsCreate_refused {p : ReqPath} {nsid cap : Nat} {k : Bool} {r : Status × Nat}
    (h : s.nsCreateRefusal p nsid cap k = some r) : s.nsCreate p nsid cap k = s.nsRefuse p r := by
  rw [State.nsCreate, if_neg (ne_true_of_eq_false hs), h]

theorem State.nsCreate_admitted {p : ReqPath} {nsid cap : Nat} {k : Bool} (h : s.nsCreateRefusal p nsid cap k = none) :
    s.nsCreate p nsid cap k = s.nsMake p nsid cap := by
  rw [State.nsCreate, if_neg (ne_true_of_eq_false hs), h]

theorem State.nsDelete_refused {p : ReqPath} {nsid : Nat} {k : Bool} {r : Status × Nat}
    (h : s.nsDeleteRefusal p nsid k = some r) : s.nsDelete p nsid k = s.nsRefuse p r := by
  rw [State.nsDelete, if_neg (ne_true_of_eq_false hs), h]

theorem State.nsDelete_admitted {p : ReqPath} {nsid : Nat} {k : Bool} (h : s.nsDeleteRefusal p nsid k = none) :
    s.nsDelete p nsid k = s.nsRemove p nsid := by
  rw [State.nsDelete, if_neg (ne_true_of_eq_false hs), h]

theorem State.nsSeal_refused {p : ReqPath} {nsid : Nat} {r : Status × Nat} (h : s.nsSealRefusal p nsid = some r) :
    s.nsSeal p nsid = s.nsRefuse p r := by
  rw [State.nsSeal, if_neg (ne_true_of_eq_false hs), h]

theorem State.nsSeal_admitted {p : ReqPath} {nsid : Nat} (h : s.nsSealRefusal p nsid = none) :
    s.nsSeal p nsid = (s.nsFeature p (.nsSeal nsid) (some nsid)).pushTail := by
  rw [State.nsSeal, if_neg (ne_true_of_eq_false hs), h]

theorem State.nsUnseal_admitted {p : ReqPath} {nsid : Nat} (h : s.nsUnsealRefusal p nsid = none) :
    s.nsUnseal p nsid = s.nsFeature p (.nsUnseal nsid) none := by
  rw [State.nsUnseal, if_neg (ne_true_of_eq_false hs), h]

end Running

/-! An admitted feature: its entry is journaled, its request waits, and the keys stay (R126). -/

@[simp] theorem State.nsFeature_image (s : State) (p : ReqPath) (e : JEntry) (n : Option Nat) :
    (s.nsFeature p e n).media.image = applyJ s.nand.bands s.media.image e := s.journal_image e

@[simp] theorem State.nsFeature_trustKept (s : State) (p : ReqPath) (e : JEntry) (n : Option Nat) :
    (s.nsFeature p e n).trustKept = s.trustKept := by
  obtain ⟨_, _, _, h⟩ := s.journal_keeps e
  rw [State.nsFeature, h]

theorem State.nsFeature_waits (s : State) (p : ReqPath) (e : JEntry) (n : Option Nat) :
    (s.nsFeature p e n).media.waits = s.media.waits ++ [{
      path := p, kind := .nsFeature n, units := if n.isSome then s.media.buffered ++ s.heldPlaces else [],
      entries := s.media.appended + 1 }] := by
  obtain ⟨_, _, _, _, _, _, _, _, _, _, _, h⟩ := s.journal_frame e
  rw [State.nsFeature, h]

/-- A new namespace's key record has the next number, whichever key block holds it (R556). -/
theorem State.nsMake_keySeq (s : State) (p : ReqPath) (nsid cap : Nat) :
    (s.nsMake p nsid cap).trustKept.keyBlocks.seq = s.trustKept.keyBlocks.seq + 1 := by
  rw [State.nsMake, State.nsFeature_trustKept]
  simp only [State.drawKey, State.takeFree]
  split <;> rfl

theorem State.nsMake_nsKeys (s : State) (p : ReqPath) (nsid cap : Nat) :
    (s.nsMake p nsid cap).trustKept.nsKeys = (s.drawKey nsid).trustKept.nsKeys := by
  rw [State.nsMake, State.nsFeature_trustKept]
  rfl

/-- A deleted namespace is in the image no more. -/
theorem not_mem_of_nsDelete {held : List Band} {i : MediaImage} {nsid : Nat} {x : NsInfo}
    (h : x ∈ (applyJ held i (.nsDelete nsid)).ns) : x.id ≠ nsid :=
  bne_iff_ne.mp (List.mem_filter.mp h).2

/-! The media registers (R161, R164, R666). -/

theorem State.ckptConfigWrite_unlocked {s : State} (hq : s.quoinSet 4 = false) (v : Word) :
    s.ckptConfigWrite v = if 1 ≤ fld v 0 4 ∧ fld v 0 4 ≤ 8 ∧ 60 ≤ fld v 16 10 ∧ fld v 16 10 ≤ 600
      then s.plainWrite mapBase v else s.log 0x0101 mapBase mapBase := by
  rw [State.ckptConfigWrite, if_neg (ne_true_of_eq_false hq)]

theorem State.nandPadWrite_unlocked {s : State} (hq : s.quoinSet 4 = false) (v : Word) :
    s.nandPadWrite v = if fld v 4 3 ≤ 4 then s.plainWrite (medBase + 0x14) v
      else s.log 0x0101 medBase (medBase + 0x14) := by
  rw [State.nandPadWrite, if_neg (ne_true_of_eq_false hq)]
  by_cases h : fld v 4 3 ≤ 4
  · rw [if_pos h, if_neg (by omega)]
  · rw [if_neg h, if_pos (by omega)]

/-- A temperature's bin is one of counters 16 to 23. -/
theorem tempBin_range (t : Int) : 16 ≤ tempBin t ∧ tempBin t ≤ 23 := by
  unfold tempBin
  repeat' split
  all_goals omega

/-- From 16 on the health counters are 32 bits wide, and saturate. -/
theorem State.healthBump_ctr {i : Nat} (h : 16 ≤ i) (s : State) (n : Nat) :
    (s.healthBump i n).media.health.ctr =
      modAt s.media.health.ctr i (fun _ => min (s.media.health.ctr.getD i 0 + n) (2 ^ 32 - 1)) := by
  simp only [State.healthBump, if_pos (Or.inr h : (9 ≤ i ∧ i ≤ 14) ∨ 16 ≤ i)]

/-- What a sample whose hottest target is at `hot` makes of the health log, before it is counted. -/
def Health.sampled (h : Health) (hot : Int) : Health :=
  let first := (List.range 8).all (fun i => h.ctr.getD (16 + i) 0 == 0)
  { h with
    tempNow := hot, hot := decide (hot > 85),
    tempMax := if first then hot else max h.tempMax hot, tempMin := if first then hot else min h.tempMin hot }

theorem State.nandTemperature_cons (s : State) (t : Int) (ts : List Int) :
    s.nandTemperature (t :: ts) = State.healthBump
      { s with media := { s.media with health := s.media.health.sampled (ts.foldl max t) } } (tempBin (ts.foldl max t)) 1 := rfl

theorem Health.le_sampled_tempMax (h : Health) (hot : Int) : hot ≤ (h.sampled hot).tempMax := by
  unfold Health.sampled
  dsimp only
  split
  · exact Int.le_refl hot
  · exact Int.le_max_right _ _

theorem Health.sampled_tempMin_le (h : Health) (hot : Int) : (h.sampled hot).tempMin ≤ hot := by
  unfold Health.sampled
  dsimp only
  split
  · exact Int.le_refl hot
  · exact Int.min_le_right _ _

/-- Settles O31, by the refusals in their order, by what an admitted feature journals and keeps, and by each register's range. -/
theorem namespaceFeaturesAndMediaRegisters : Obligations.NamespaceFeaturesAndMediaRegisters := by
  unfold Obligations.NamespaceFeaturesAndMediaRegisters
  refine ⟨fun s p nsid cap h hs => ?_, fun s nsid cap k hg hm hs => ⟨fun hn => ?_, fun hn hi => ?_, fun hn hi hc => ?_,
      fun st d hr hk => ?_⟩, fun s p nsid h hs => ⟨?_, fun x hx => ?_⟩, fun s nsid x k hg hm hi hw hs => ⟨?_, ?_⟩,
    fun s p nsid h hs => ⟨?_, rfl⟩, fun s p nsid h hs => ⟨?_, rfl⟩, fun s v hq => ?_, fun s v hq => ?_, fun s t ts => ?_⟩
  · refine ⟨_, (exec_nsCreate ..).trans (congrArg _ (State.nsCreate_admitted hs h)), ?_, ?_, ?_, State.nsMake_keySeq ..,
      State.nsMake_nsKeys ..⟩
    · rw [State.nsMake, State.nsFeature_waits]; rfl
    · rw [State.nsMake, State.nsFeature_image]; rfl
    · rw [State.nsMake, State.nsFeature_image]; rfl
  · exact State.nsCreateRefusal_bad_id hm hg hn ..
  · exact State.nsCreateRefusal_taken hm hg hn hi ..
  · rw [hc, State.nsCreateRefusal_no_capacity hm hg hn hi]
  · rw [exec_nsCreate, State.nsCreate_refused hs hr, State.nsRefuse_of_ne hk]
  · rw [exec_nsDelete, State.nsDelete_admitted hs h, State.nsRemove]
  · rw [State.nsFeature_image] at hx
    exact not_mem_of_nsDelete hx
  · rw [exec_nsDelete, State.nsDelete_refused hs (State.nsDeleteRefusal_witnessed hm hg hi hw ..),
      State.nsRefuse_of_ne (by decide)]
  · rw [exec_nsSeal, State.nsSeal_refused hs (State.nsSealRefusal_witnessed hm hg hi hw ..), State.nsRefuse_of_ne (by decide)]
  · rw [exec_nsSeal, State.nsSeal_admitted hs h]
  · rw [exec_nsUnseal, State.nsUnseal_admitted hs h]
  · rw [exec_mapCkptConfigWrite, State.ckptConfigWrite_unlocked hq]
  · rw [exec_medNandPadWrite, State.nandPadWrite_unlocked hq]
  · have hb := (tempBin_range (ts.foldl max t)).1
    refine ⟨_, (exec_nandTemperatureSample ..).trans (congrArg _ (s.nandTemperature_cons t ts)), rfl, decide_eq_true_iff,
      Health.le_sampled_tempMax .., Health.sampled_tempMin_le .., rfl, rfl, rfl, ?_⟩
    rw [State.healthBump_ctr hb, if_pos hb]
    rfl

end Sys2Proof.Machine

/-! PROOFS. Streams: the checks of a Stream Open, the life of a context, resuming, and parameter pushes, and with them
StreamsOpenParameteriseAndClose. -/

namespace Sys2Proof.Machine

/-! What these commands mean: each runs the state function of its instruction. -/

theorem exec_streamOpen (p : ReqPath) (b : List Byte) (s : State) : exec (.streamOpen p b) s = .next (s.streamOpen p b) := rfl
theorem exec_streamClose (p : ReqPath) (id : Nat) (s : State) : exec (.streamClose p id) s = .next (s.streamClose p id) := rfl
theorem exec_streamCloseComplete (c : Nat) (s : State) :
    exec (.streamCloseComplete c) s = .next (s.streamCloseComplete c) := rfl
theorem exec_streamResume (p : ReqPath) (id m : Nat) (s : State) :
    exec (.streamResume p id m) s = .next (s.streamResume p id m) := rfl
theorem exec_streamParameters (p : ReqPath) (b : List Byte) (s : State) :
    exec (.streamParameters p b) s = .next (s.streamParameters p b) := rfl
theorem exec_formeRead (p : ReqPath) (id len : Nat) (s : State) :
    exec (.formeRead p id len) s = .next (s.formeRead p id len) := rfl

/-! The checks of a Stream Open, in their order (R70). -/

/-- The device has room for one stream more: a context, and its window among all windows. -/
def State.openRoom (s : State) (p : StreamParams) : Prop :=
  s.streamEng.ctxs.length < 512 ∧ (s.streamEng.ctxs.foldl (fun a x => a + x.2.params.windowOf) 0) + p.windowOf ≤ 1048576

theorem State.openRoom_check {s : State} {p : StreamParams} (h : s.openRoom p) :
    (decide (s.streamEng.ctxs.length ≥ 512) ||
      decide ((s.streamEng.ctxs.foldl (fun a x => a + x.2.params.windowOf) 0) + p.windowOf > 1048576)) = false := by
  rw [decide_eq_false (Nat.not_le.mpr h.1), decide_eq_false (Nat.not_lt.mpr h.2), Bool.or_false]

/-- A replay keeps the stream's number of the block that opens it (R107). -/
theorem StreamParams.replaying_streamId (p was : StreamParams) : (p.replaying was).streamId = p.streamId := rfl

section Open

variable {s : State} {b : List Byte} (hz : s.trust.zeroised = false)
include hz

theorem State.openChecks_already_open (h : (s.ctxByStream (streamParams b).streamId).isSome = true) :
    s.openChecks b = .error 0x0401 := by
  cases hr : s.replayRecord (streamParams b) <;>
    simp only [State.openChecks, hz, hr, h, StreamParams.replaying_streamId, Bool.false_eq_true, if_false, if_true]

theorem State.openChecks_no_context (hn : (s.ctxByStream (streamParams b).streamId).isSome = false)
    (h : 512 ≤ s.streamEng.ctxs.length) : s.openChecks b = .error 0x0407 := by
  cases hr : s.replayRecord (streamParams b) <;>
    simp only [State.openChecks, hz, hr, hn, StreamParams.replaying_streamId, ge_iff_le, decide_eq_true h, Bool.true_or,
      Bool.false_eq_true, if_false, if_true]

variable (hn : (s.ctxByStream (streamParams b).streamId).isSome = false) (hr : s.replayRecord (streamParams b) = none)
  (hroom : s.openRoom (streamParams b))
include hn hr hroom

section Snapshot

variable (hl : (streamParams b).live = false)
include hl

theorem State.openChecks_media_gate {st : Status} (h : s.mediaGate = some st) : s.openChecks b = .error st := by
  simp only [State.openChecks, hz, hr, hn, State.openRoom_check hroom, hl, h, Bool.false_eq_true, if_false]

variable (hg : s.mediaGate = none) (hm : s.memberNs (streamParams b).nsid = false)
include hg hm

theorem State.openChecks_no_snapshot (h : s.snapshotPlan (streamParams b) { params := streamParams b } = none) :
    s.openChecks b = .error 0x0403 := by
  simp only [State.openChecks, hz, hr, hn, State.openRoom_check hroom, hl, hg, hm, h, Bool.and_false, Bool.false_eq_true, if_false]

theorem State.openChecks_not_sealed (h : (s.snapshotPlan (streamParams b) { params := streamParams b }).isSome = true)
    (hs : s.nsSealedDone (streamParams b).nsid = false) : s.openChecks b = .error 0x0404 := by
  obtain ⟨o, ho⟩ := Option.isSome_iff_exists.mp h
  simp only [State.openChecks, hz, hr, hn, State.openRoom_check hroom, hl, hg, hm, ho, hs, Bool.and_false, Bool.not_false,
    Bool.and_self, Bool.false_eq_true, if_false, if_true]

end Snapshot

/-- Where check 3 and check 4 let the plan `o` pass, checks 5 to 7 decide. -/
theorem State.openChecks_pass {g : Graph} {o : OpenPlan}
    (hsrc : ((streamParams b).live = true ∧ s.channelFree (streamParams b).nsid = true ∧ o = { params := streamParams b }) ∨
      ((streamParams b).live = false ∧ s.mediaGate = none ∧
        (s.memberNs (streamParams b).nsid = false ∨ s.groupGate = none) ∧
        s.snapshotPlan (streamParams b) { params := streamParams b } = some o ∧
        s.nsSealedDone (streamParams b).nsid = true))
    (hgr : s.graphOf (streamParams b).graph = some g)
    (hsh : s.shapeOk b (streamParams b) o.sampleCount (some (graphFormeLength g (streamParams b).slots)) = true)
    (hw : s.witnessCheck (streamParams b) = none) :
    s.openChecks b = .ok { o with graph := g, replayId := none, replayStart := 0, replayEnd := 0 } := by
  rcases hsrc with ⟨hl, hc, rfl⟩ | ⟨hl, hg, hm, ho, hs⟩
  · simp only [State.openChecks, hz, hr, hn, State.openRoom_check hroom, hl, hc, hgr, hsh, hw, Option.map_some, Option.map_none,
      Option.getD_none, Option.isSome_none, Bool.not_true, Bool.false_and, Bool.false_eq_true, if_false, if_true]
  · have hgroup : (if s.memberNs (streamParams b).nsid = true then s.groupGate else none) = none := by
      rcases hm with hm | hm
      · rw [hm, if_neg Bool.false_ne_true]
      · rw [hm, ite_self]
    simp only [State.openChecks, hz, hr, hn, State.openRoom_check hroom, hl, hg, hgroup, ho, hs, hgr, hsh, hw, Option.map_some,
      Option.map_none, Option.getD_none, Option.isSome_none, Bool.not_true, Bool.not_false, Bool.true_and, Bool.and_false,
      Bool.false_eq_true, if_false]

end Open

/-- Only a block that asks for a replay starts from a record. -/
theorem State.replayRecord_of_no_replay {p : StreamParams} (h : p.replay = false) (s : State) : s.replayRecord p = none := by
  rw [State.replayRecord, if_neg (ne_true_of_eq_false h)]

/-! A Stream Open (R70). -/

theorem State.tableReply_alone (s : State) (p : ReqPath) (q : StreamParams) (c : Nat) (rm : Bool) (res : List Nat) :
    s.tableReply p false q c rm res = s.reply p 0 0 res := by
  rw [State.tableReply, if_neg Bool.false_ne_true]

theorem State.streamOpen_refused {s : State} {b : List Byte} {st : Status} (h : s.openChecks b = .error st) (p : ReqPath) :
    s.streamOpen p b = s.reply p st := by
  rw [State.streamOpen, h]

theorem State.streamOpen_no_stage {s : State} {b : List Byte} {o : OpenPlan} (h : s.openChecks b = .ok o)
    (hst : (s.startStages s.freeCtx o.params.seed o.graph.stageRuns).1 ≠ 0) (p : ReqPath) :
    s.streamOpen p b = s.reply p (s.startStages s.freeCtx o.params.seed o.graph.stageRuns).1 := by
  simp only [State.streamOpen, h, if_pos hst]

/-- A stream without a witness and outside the group is open at once. -/
theorem State.streamOpen_started {s t : State} {b : List Byte} {o : OpenPlan} {runs : List Nat} (h : s.openChecks b = .ok o)
    (hst : s.startStages s.freeCtx o.params.seed o.graph.stageRuns = (0, runs, t)) (hw : o.params.witness = false)
    (hg : t.groupCtx (s.planCtx o runs) = false) (p : ReqPath) :
    s.streamOpen p b = (t.takeCtx s.freeCtx (s.planCtx o runs)).reply p 0 0 [s.freeCtx] := by
  have hg' : (t.takeCtx s.freeCtx (s.planCtx o runs)).groupCtx (s.planCtx o runs) = false := hg
  simp only [State.streamOpen, h, hst, hw, ne_eq, not_true_eq_false, Bool.false_and, Bool.false_eq_true, if_false, hg',
    State.tableReply_alone]

/-! Requests on a stream that is not open, or is closing (R89, R90, R230, R419). -/

section Closed

variable {s : State} {id : Nat} (h : ∀ c x, s.ctxByStream id = some (c, x) → x.closing.isSome = true)
include h

theorem State.streamClose_not_open (p : ReqPath) : s.streamClose p id = s.reply p 0x0402 := by
  unfold State.streamClose
  split
  · rfl
  · rw [if_pos (h _ _ ‹_›)]

theorem State.streamResume_not_open (p : ReqPath) (m : Nat) : s.streamResume p id m = s.reply p 0x0402 := by
  unfold State.streamResume
  split
  · rfl
  · rw [if_pos (h _ _ ‹_›)]

theorem State.formeRead_not_open (p : ReqPath) (len : Nat) : s.formeRead p id len = s.reply p 0x0402 := by
  unfold State.formeRead
  split
  · rfl
  · rw [if_pos (h _ _ ‹_›)]

theorem State.streamParameters_not_open {b : List Byte} (hb : leField b 6 2 = id) (p : ReqPath) :
    s.streamParameters p b = s.reply p 0x0402 := by
  subst hb
  unfold State.streamParameters
  split
  · rfl
  · dsimp only
    rw [if_pos (h _ _ ‹_›)]

end Closed

/-! Closing a stream, and freeing its context (R90). -/

theorem State.streamClose_open {s : State} {id c : Nat} {x : StreamCtx} (h : s.ctxByStream id = some (c, x))
    (hc : x.closing = none) (p : ReqPath) :
    s.streamClose p id = x.formeReads.foldl (fun u q => u.reply q 0x0402)
      (x.stageRuns.foldl (fun u slot => u.endRun slot 0x090E)
        ((s.galleysDrop c (fun _ => true)).updCtx c (fun y => { y with closing := some p, formeReads := [], slots := [] }))) := by
  unfold State.streamClose
  simp only [h, hc, Option.isSome_none, Bool.false_eq_true, if_false]

theorem State.freeCtxOf_gone (s : State) (c : Nat) (x : StreamCtx) : (s.freeCtxOf c x).ctxOf c = none := by
  unfold State.freeCtxOf State.ctxOf
  dsimp only
  rw [find_filter_self, Option.map_none]

section CloseComplete

variable {s : State} {c : Nat} {x : StreamCtx} {p : ReqPath} (h : s.ctxOf c = some x) (hc : x.closing = some p)
include h hc

theorem State.streamCloseComplete_waits
    (hf : (x.inEgress.any (fun n => s.formeFlies c n) || x.held.any (fun h => h.path.isSome)) = true) :
    s.streamCloseComplete c = s := by
  unfold State.streamCloseComplete
  simp only [h, hc, hf, if_true]

theorem State.streamCloseComplete_frees
    (hf : (x.inEgress.any (fun n => s.formeFlies c n) || x.held.any (fun h => h.path.isSome)) = false)
    (hg : s.groupCtx x = false) : s.streamCloseComplete c = (s.freeCtxOf c x).reply p 0 0 [0] := by
  unfold State.streamCloseComplete
  simp only [h, hc, hf, hg, Bool.false_eq_true, if_false, State.tableReply_alone]

end CloseComplete

/-! Resuming a stream (R89). -/

theorem seqFrom_iff {n a b : Nat} : seqFrom n a b = true ↔ a % 2 ^ n = b % 2 ^ n ∨ seqEarlier n b a = true := by
  rw [seqFrom, Bool.or_eq_true, beq_iff_eq]

/-- The context of a stream that goes on from forme `m`, with the stage runs that were started afresh. -/
def StreamCtx.resumedAt (y : StreamCtx) (m : Nat) (runs : List Nat) : StreamCtx :=
  { y with
    stageRuns := y.stageRuns ++ runs, endedRuns := [], halted := none, next := m, done := y.done && m == y.next, slots := [],
    liveHist := y.liveHist.filter (fun (h : LiveHist) => decide (h.g < m * y.params.slots)) }.rewind (m * y.params.slots) y.liveHist

section Resume

variable {s : State} {id c m : Nat} {x : StreamCtx} (h : s.ctxByStream id = some (c, x)) (hc : x.closing = none)
include h hc

theorem State.streamResume_out_of_range (hm : seqFrom 48 m x.ack = false ∨ seqFrom 48 x.next m = false) (p : ReqPath) :
    s.streamResume p id m = s.streamRefuse p c 0x040E := by
  have hr : (seqFrom 48 m x.ack && seqFrom 48 x.next m) = false := Bool.and_eq_false_iff.mpr hm
  unfold State.streamResume
  simp only [h, hc, hr, Option.isSome_none, Bool.false_eq_true, if_false, Bool.not_false, if_true]

/-- A stream none of whose stage runs has ended goes on with those it has. -/
theorem State.streamResume_in_range (ha : seqFrom 48 m x.ack = true) (hn : seqFrom 48 x.next m = true)
    (he : x.endedRuns = []) (p : ReqPath) :
    s.streamResume p id m = ((s.galleysDrop c (fun _ => true)).updCtx c (fun y => y.resumedAt m [])).reply p 0 := by
  unfold State.streamResume State.resumeAt
  simp only [h, hc, ha, hn, he, Option.isSome_none, Bool.false_eq_true, if_false, Bool.and_self, Bool.not_true, List.map_nil,
    State.startStages, ne_eq, not_true_eq_false]
  rfl

end Resume

/-! A parameter push (R230, R231). -/

/-- The records of a push. -/
def pushRecords (b : List Byte) : List PushRecord :=
  (List.range (leField b 8 4)).map (fun i => pushRecord (slice b (32 + 80 * i) 80))

/-- A record of the push has the key of one that the stream holds. -/
def StreamCtx.holdsKey (x : StreamCtx) (rs : List PushRecord) : Bool :=
  rs.any (fun r => x.pushes.any (fun q => q.epoch == r.epoch && q.folio == r.folio))

theorem pushForm_passes {b : List Byte} {x : StreamCtx} (hf : pushFormOk b = true) (hl : x.paramLba = 0) :
    ¬(pushFormOk b = false ∨ x.paramLba ≠ 0) := not_or.mpr ⟨ne_false_of_eq_true hf, fun h => h hl⟩

theorem pushKeys_pass {rs : List PushRecord} {x : StreamCtx} (hd : keysDistinct rs = true) (hk : x.holdsKey rs = false) :
    ¬(keysDistinct rs = false ∨ x.holdsKey rs = true) := not_or.mpr ⟨ne_false_of_eq_true hd, ne_true_of_eq_false hk⟩

section Push

variable {s : State} {b : List Byte} {c : Nat} {x : StreamCtx} {rs : List PushRecord} (h : s.ctxByStream (leField b 6 2) = some (c, x))
  (hc : x.closing = none) (hr : x.params.replay = false) (hg : s.groupCtx x = false)
  (hrs : rs = pushRecords b)
include h hc hr hg hrs

/-- A push into an open stream outside the group that is no replay: each check with its status, and the store. -/
theorem State.streamParameters_open (p : ReqPath) : s.streamParameters p b =
    if pushFormOk b = false ∨ x.paramLba ≠ 0 then s.streamRefuse p c 0x050D
    else if keysDistinct rs = false ∨ x.holdsKey rs = true then s.streamRefuse p c 0x050B
    else if rs.all x.admissible = false then s.streamRefuse p c 0x050A
    else if 67108864 < s.pushesHeld + leField b 8 4 then s.streamRefuse p c 0x050C
    else if s.pushRoom x (leField b 8 4) = false then (s.haltStream c 0x040B x.next).streamRefuse p c 0x040B
    else s.storePush p c rs (if leField b 0xC 4 = 1 then some (leField b 0x10 4) else none) := by
  subst hrs
  unfold State.streamParameters
  simp only [h, hc, hr, hg, Option.isSome_none, Bool.or_eq_true, Bool.not_eq_true', bne_iff_ne, gt_iff_lt, Bool.false_and,
    Bool.false_eq_true, if_false]
  rfl

theorem State.streamParameters_malformed (hf : pushFormOk b = false ∨ x.paramLba ≠ 0) (p : ReqPath) :
    s.streamParameters p b = s.streamRefuse p c 0x050D := by
  rw [State.streamParameters_open h hc hr hg hrs, if_pos hf]

variable (hf : ¬(pushFormOk b = false ∨ x.paramLba ≠ 0))
include hf

theorem State.streamParameters_duplicate
    (hd : keysDistinct rs = false ∨ x.holdsKey rs = true) (p : ReqPath) :
    s.streamParameters p b = s.streamRefuse p c 0x050B := by
  rw [State.streamParameters_open h hc hr hg hrs, if_neg hf, if_pos hd]

variable (hd : ¬(keysDistinct rs = false ∨ x.holdsKey rs = true))
include hd

theorem State.streamParameters_inadmissible (ha : rs.all x.admissible = false) (p : ReqPath) :
    s.streamParameters p b = s.streamRefuse p c 0x050A := by
  rw [State.streamParameters_open h hc hr hg hrs, if_neg hf, if_neg hd, if_pos ha]

variable (ha : rs.all x.admissible = true)
include ha

theorem State.streamParameters_no_room (hn : 67108864 < s.pushesHeld + leField b 8 4) (p : ReqPath) :
    s.streamParameters p b = s.streamRefuse p c 0x050C := by
  rw [State.streamParameters_open h hc hr hg hrs, if_neg hf, if_neg hd, if_neg (ne_false_of_eq_true ha), if_pos hn]

theorem State.streamParameters_stored (hn : s.pushesHeld + leField b 8 4 ≤ 67108864)
    (hroom : s.pushRoom x (leField b 8 4) = true) (p : ReqPath) : s.streamParameters p b =
      s.storePush p c rs (if leField b 0xC 4 = 1 then some (leField b 0x10 4) else none) := by
  rw [State.streamParameters_open h hc hr hg hrs, if_neg hf, if_neg hd, if_neg (ne_false_of_eq_true ha),
    if_neg (Nat.not_lt.mpr hn), if_neg (ne_false_of_eq_true hroom)]

end Push

/-- A stream without a witness records nothing. -/
theorem State.witnessAppend_unwitnessed {s : State} {c : Nat} {x : StreamCtx} (h : s.ctxOf c = some x)
    (hw : x.params.witness = false) (type key : Nat) (payload : List Byte) :
    s.witnessAppend c type key payload = (true, s) := by
  unfold State.witnessAppend
  simp only [h, hw, Bool.not_false, if_true]

/-- The end of a push without an epoch leaves the context. -/
theorem State.storePush_nil (s : State) (p : ReqPath) (c : Nat) :
    s.storePush p c [] none = (s.updCtx c (fun x => x)).reply p 0 := by
  simp only [State.storePush]

theorem State.storePush_cons_unwitnessed {s : State} {c : Nat} {x : StreamCtx} (h : s.ctxOf c = some x)
    (hw : x.params.witness = false) (p : ReqPath) (r : PushRecord) (rs : List PushRecord) (e : Option Nat) :
    s.storePush p c (r :: rs) e = (s.updCtx c (fun x => { x with pushes := x.pushes ++ [r] })).storePush p c rs e := by
  rw [State.storePush, State.witnessAppend_unwitnessed h hw]

/-- Settles O51, by the checks of each request in their order, and by what is left where all of them pass. -/
theorem streamsOpenParameteriseAndClose : Obligations.StreamsOpenParameteriseAndClose := by
  unfold Obligations.StreamsOpenParameteriseAndClose
  refine ⟨fun s p b st h => ?_, fun s b hz => ⟨State.openChecks_already_open hz, State.openChecks_no_context hz,
      fun hn hr hlen hwin hl st => State.openChecks_media_gate hz hn hr ⟨hlen, hwin⟩ hl,
      fun hn hr hlen hwin hl hg hm o ho => ⟨fun h => ?_, fun h hs => ?_⟩⟩,
    fun s b p g o ⟨hz, hp, hn, hrep⟩ hroom hsrc hgr hsh hw => ?_, fun s t p b o runs h hst hw hg => ?_,
    fun s p b o h hst => ?_, fun s p id c x h hc => ?_, fun s p id m len b h hb => ?_,
    fun s p c x h hc => ⟨fun hf => ?_, fun hf hg => ?_, State.freeCtxOf_gone s c x⟩,
    fun s p id m c x h hc => ⟨fun hm => ?_, fun ha hn he => ?_, fun a b => seqFrom_iff⟩,
    fun s p b c x rs h hc hr hg hrs => ⟨fun hf => ?_, fun hf hl => ⟨fun hd => ?_, fun hd hk => ⟨fun ha => ?_,
      fun ha => ⟨fun hn => ?_, fun hn hroom => ?_⟩⟩⟩⟩, fun s p c x r h hw => ?_⟩
  · rw [exec_streamOpen, State.streamOpen_refused h]
  · exact State.openChecks_no_snapshot hz hn hr ⟨hlen, hwin⟩ hl hg hm (ho.trans h)
  · exact State.openChecks_not_sealed hz hn hr ⟨hlen, hwin⟩ hl hg hm (ho ▸ h) hs
  · subst hp
    exact State.openChecks_pass hz (Option.isSome_eq_false_iff.mpr (Option.isNone_iff_eq_none.mpr hn))
      (State.replayRecord_of_no_replay hrep s) hroom hsrc hgr hsh hw
  · rw [exec_streamOpen, State.streamOpen_started h hst hw hg]
  · rw [exec_streamOpen, State.streamOpen_no_stage h hst]
  · rw [exec_streamClose, State.streamClose_open h hc]
  · rw [exec_streamClose, State.streamClose_not_open h, exec_streamResume, State.streamResume_not_open h, exec_streamParameters,
      State.streamParameters_not_open h hb, exec_formeRead, State.formeRead_not_open h]
    exact ⟨rfl, rfl, rfl, rfl⟩
  · rw [exec_streamCloseComplete, State.streamCloseComplete_waits h hc hf]
  · rw [exec_streamCloseComplete, State.streamCloseComplete_frees h hc hf hg]
  · rw [exec_streamResume, State.streamResume_out_of_range h hc hm]
  · rw [exec_streamResume, State.streamResume_in_range h hc ha hn he]
    rfl
  · rw [exec_streamParameters, State.streamParameters_malformed h hc hr hg hrs hf]
  · rw [exec_streamParameters, State.streamParameters_duplicate h hc hr hg hrs (pushForm_passes hf hl) hd]
  · rw [exec_streamParameters, State.streamParameters_inadmissible h hc hr hg hrs (pushForm_passes hf hl) (pushKeys_pass hd hk) ha]
  · rw [exec_streamParameters, State.streamParameters_no_room h hc hr hg hrs (pushForm_passes hf hl) (pushKeys_pass hd hk) ha hn]
  · rw [exec_streamParameters, State.streamParameters_stored h hc hr hg hrs (pushForm_passes hf hl) (pushKeys_pass hd hk) ha hn hroom]
  · rw [State.storePush_cons_unwitnessed h hw, State.storePush_nil]

end Sys2Proof.Machine

/-! PROOFS. Check units: the contexts' registers, the checksum over a message, jobs on a context, and with them
CheckedMessagesAreAccepted and CheckJobsAndContexts. -/

namespace Sys2Proof.Machine

/-! What these commands mean: each runs the state function of its instruction. -/

theorem exec_checkJobEnd (e : Nat) (s : State) : exec (.checkJobEnd e) s = .next (s.checkJobEnd e) := rfl
theorem exec_chkCtxHold (die c : Nat) (v : Word) (s : State) : exec (.chkCtxHold die c v) s = .next (s.chkHold die c v) := rfl
theorem exec_chkCtxWrite (die c w : Nat) (v : Word) (s : State) :
    exec (.chkCtxWrite die c w v) s = .next (s.chkWrite die c w v) := rfl

/-! A field of a word, and the fields of a context's registers. -/

/-- Replacing the middle digit f of n = r + (f + g M) L by x. -/
theorem sub_add_digit {n L M q r f g : Nat} (hn : L * q + r = n) (hq : M * g + f = q) (x : Nat) :
    n - f * L + x * L = r + (x + g * M) * L := by
  subst hq hn
  rw [Nat.mul_add, Nat.add_mul, Nat.mul_comm L f, Nat.mul_comm L (M * g), Nat.mul_comm M g]
  omega

/-- A field reads as it was last set. -/
theorem fld_setFld (v : Word) {lo len : Nat} (x : Nat) (h : lo + len ≤ 32) : fld (setFld v lo len x) lo len = x % 2 ^ len := by
  have hy := sub_add_digit (Nat.div_add_mod v.toNat (2 ^ lo)) (Nat.div_add_mod (v.toNat / 2 ^ lo) (2 ^ len)) (x % 2 ^ len)
  have hlt : v.toNat % 2 ^ lo < 2 ^ lo := Nat.mod_lt _ (Nat.two_pow_pos lo)
  rw [fld, setFld, BitVec.toNat_ofNat, Nat.shiftRight_eq_div_pow, Nat.shiftRight_eq_div_pow, hy,
    show 2 ^ 32 = 2 ^ lo * 2 ^ (32 - lo) by rw [← Nat.pow_add]; congr 1; omega, Nat.mod_mul_right_div_self,
    Nat.mod_mod_of_dvd _ (Nat.pow_dvd_pow 2 (by omega)), Nat.add_mul_div_right _ _ (Nat.two_pow_pos lo),
    Nat.div_eq_of_lt hlt, Nat.zero_add, Nat.add_mul_mod_self_right, Nat.mod_mod]

theorem State.regFld_setBits (s : State) (off : Nat) {lo len : Nat} (x : Nat) (hw : s.regsWf = true) (h : lo + len ≤ 32) :
    (s.setBits off lo len x).regFld off lo len = x % 2 ^ len := by
  rw [State.regFld, State.setBits, State.reg_setReg _ _ _ hw, fld_setFld _ _ h]

/-- The words of one context are apart. -/
@[simp] theorem chkCtx_inj {die c w w' : Nat} : chkCtx die c w = chkCtx die c w' ↔ w = w' := by
  unfold chkCtx; omega

/-- RUNNING is two words of its own: the alive word stays. -/
theorem State.setRunning_alive (s : State) (die c v lo len : Nat) :
    (s.setRunning die c v).regFld (chkCtx die c 0x28) lo len = s.regFld (chkCtx die c 0x28) lo len := by
  simp only [State.regFld, State.setRunning]
  rw [State.reg_setReg_ne _ _ _ _ (by simp), State.reg_setReg_ne _ _ _ _ (by simp)]

/-- A counter of a context leaves its alive word. -/
theorem State.chkBump_alive (s : State) (die c i lo len : Nat) :
    (s.chkBump die c i).regFld (chkCtx die c 0x28) lo len = s.regFld (chkCtx die c 0x28) lo len := by
  rw [State.regFld, State.chkBump, State.bump, State.reg_bumpBy_ne _ _ _ _ _ _ (by rw [Ne, chkCtx_inj]; omega) (by simp)]
  rfl

/-! The checksum of a message (R186, R188). -/

namespace ChkParams

theorem bytes_length (p : ChkParams) (n v : Nat) : (p.bytes n v).length = n := by
  unfold ChkParams.bytes
  split <;> simp [leBytes_length]

/-- Bytes laid out in a context's order read back in that order. -/
theorem value_bytes (p : ChkParams) (n v : Nat) : p.value (p.bytes n v) = v % 256 ^ n := by
  unfold ChkParams.value ChkParams.bytes
  split <;> simp [leNat_leBytes]

/-- The check value fits its bytes. -/
theorem fin_lt (p : ChkParams) (r : Nat) : p.fin r < 256 ^ p.checkLen := by
  have hw : 2 ^ p.width ≤ 256 ^ p.checkLen := by
    rw [show 256 = 2 ^ 8 from rfl, ← Nat.pow_mul]
    exact Nat.pow_le_pow_right (by decide) (by unfold checkLen; omega)
  exact Nat.lt_of_lt_of_le (Nat.mod_lt _ (Nat.two_pow_pos _)) hw

theorem value_fin (p : ChkParams) (r : Nat) : p.value (p.bytes p.checkLen (p.fin r)) = p.fin r := by
  rw [value_bytes, Nat.mod_eq_of_lt (p.fin_lt r)]

theorem run_append (p : ChkParams) (r : Nat) (a b : List Byte) : p.run r (a ++ b) = p.run (p.run r a) b := List.foldl_append

/-- A whole message with its check value behind it. -/
def sealed (p : ChkParams) (m : List Byte) : List Byte := m ++ p.bytes p.checkLen (p.fin (p.run p.start m))

theorem sealed_length (p : ChkParams) (m : List Byte) : (p.sealed m).length = m.length + p.checkLen := by
  rw [sealed, List.length_append, bytes_length]

theorem sealed_take (p : ChkParams) (m : List Byte) : (p.sealed m).take m.length = m := List.take_left

theorem sealed_take_left (p : ChkParams) (a b : List Byte) : (p.sealed (a ++ b)).take a.length = a := by
  rw [sealed, List.append_assoc, List.take_left]

theorem value_sealed_drop (p : ChkParams) (m : List Byte) : p.value ((p.sealed m).drop m.length) = p.fin (p.run p.start m) := by
  rw [sealed, List.drop_left, value_fin]

/-- The direction of a context has no part in its checksum. -/
theorem sealed_incoming (p : ChkParams) (b : Bool) (m : List Byte) : ({ p with incoming := b } : ChkParams).sealed m = p.sealed m :=
  rfl

theorem aliveLen_zero {p : ChkParams} (h : p.alive = 0) : p.aliveLen = 0 := if_pos h

end ChkParams

/-! Jobs on a context (R187-R191). -/

section

variable {s : State} {die c : Nat}

/-- A context that is not VALID refuses its jobs (R187). -/
theorem State.checkRun_invalid (h : s.regFld (chkCtx die c 4) 2 1 = 0) (first last : Bool) (input : List Byte) :
    s.checkRun die c first last input = (0x0805, [], s) := by
  rw [State.checkRun, if_pos h]

/-- A message that is shorter than its trailer (R189). -/
theorem State.checkRun_short (h : s.regFld (chkCtx die c 4) 2 1 ≠ 0) (hi : (s.chkParams die c).incoming = true) {input : List Byte}
    (hl : input.length < (s.chkParams die c).checkLen + (s.chkParams die c).aliveLen) (first : Bool) :
    s.checkRun die c first true input = (0x0804, [], s) := by
  rw [State.checkRun, if_neg h, if_pos ⟨rfl, hi, hl⟩]

/-- A whole message on an outgoing context leaves sealed, with its alive field between (R188, R190). -/
theorem State.checkRun_outgoing (h : s.regFld (chkCtx die c 4) 2 1 ≠ 0) (hi : (s.chkParams die c).incoming = false)
    (input : List Byte) : (s.checkRun die c true true input).1 = 0 ∧
      ∃ field : List Byte, field.length = (s.chkParams die c).aliveLen ∧
        (s.checkRun die c true true input).2.1 = (s.chkParams die c).sealed (input ++ field) := by
  simp only [State.checkRun, if_neg h, hi, Bool.false_eq_true, false_and, and_false, if_false, if_true, Bool.not_true, Bool.not_false]
  refine ⟨trivial, _, ?_, by rw [ChkParams.sealed, ChkParams.run_append]⟩
  split
  case isTrue ha => rw [ChkParams.aliveLen_zero ha]; rfl
  case isFalse => exact ChkParams.bytes_length ..

/-- The first alive value after FIRST is taken as it is (R190). -/
theorem State.aliveTest_unsynced (h : s.regFld (chkCtx die c 0x28) 16 1 = 0) (v : Nat) :
    s.aliveTest die c v = (0, s.setAlive die c v true) := by
  simp [State.aliveTest, h]

/-- A sealed message on an incoming context ends with status 0 and leaves without its trailer (R189, R190). -/
theorem State.checkRun_sealed (hw : s.regsWf = true) (h : s.regFld (chkCtx die c 4) 2 1 ≠ 0)
    (hi : (s.chkParams die c).incoming = true) (input field : List Byte) (hf : field.length = (s.chkParams die c).aliveLen) :
    (s.checkRun die c true true ((s.chkParams die c).sealed (input ++ field))).1 = 0 ∧
      (s.checkRun die c true true ((s.chkParams die c).sealed (input ++ field))).2.1 = input := by
  have hl : ((s.chkParams die c).sealed (input ++ field)).length - (s.chkParams die c).checkLen = (input ++ field).length := by
    rw [ChkParams.sealed_length, Nat.add_sub_cancel]
  have hs : ¬((s.chkParams die c).sealed (input ++ field)).length < (s.chkParams die c).checkLen + (s.chkParams die c).aliveLen := by
    rw [ChkParams.sealed_length, List.length_append, hf]; omega
  have hm : (input ++ field).length - (s.chkParams die c).aliveLen = input.length := by
    rw [List.length_append, hf, Nat.add_sub_cancel]
  have hu := s.regFld_setBits (chkCtx die c 0x28) 0 hw (lo := 16) (len := 1) (by decide)
  simp only [State.checkRun, if_neg h, hi, hs, and_false, if_false, if_true, Bool.not_true, Bool.false_eq_true, hl,
    ChkParams.sealed_take, ChkParams.value_sealed_drop, ne_eq, not_true_eq_false, hm]
  split
  case isTrue ha =>
    rw [ChkParams.aliveLen_zero ha] at hf
    rw [List.eq_nil_of_length_eq_zero hf, List.append_nil]
    exact ⟨rfl, rfl⟩
  case isFalse =>
    rw [State.aliveTest_unsynced (by rw [State.chkBump_alive, State.setRunning_alive]; exact hu)]
    exact ⟨rfl, ChkParams.sealed_take_left ..⟩

/-- How far a received alive value is ahead of the last one (R190). -/
def State.aliveAhead (s : State) (die c v : Nat) : Nat :=
  (v + 2 ^ (s.chkParams die c).alive - s.regFld (chkCtx die c 0x28) 0 16 % 2 ^ (s.chkParams die c).alive) %
    2 ^ (s.chkParams die c).alive

/-- Once synced, the distance from the last value decides (R190). -/
theorem State.aliveTest_synced (h : s.regFld (chkCtx die c 0x28) 16 1 = 1) (v : Nat) :
    s.aliveTest die c v =
      if s.aliveAhead die c v = 1 then (0, s.setAlive die c v true)
      else if 2 ≤ s.aliveAhead die c v ∧ s.aliveAhead die c v ≤ (s.chkParams die c).maxGap + 1 ∧
          s.aliveAhead die c v < 2 ^ ((s.chkParams die c).alive - 1) then
        (0, (s.setAlive die c v true).chkBump die c 3)
      else if s.aliveAhead die c v = 0 ∨ s.aliveAhead die c v ≥ 2 ^ ((s.chkParams die c).alive - 1) then
        (0x0802, s.chkBump die c 2)
      else (0x0803, s.chkBump die c 3) := by
  simp only [State.aliveTest, h, decide_true, Bool.not_true, Bool.false_eq_true, if_false]
  rfl

theorem State.aliveTest_next (h : s.regFld (chkCtx die c 0x28) 16 1 = 1) {v : Nat} (h1 : s.aliveAhead die c v = 1) :
    s.aliveTest die c v = (0, s.setAlive die c v true) := by
  rw [State.aliveTest_synced h, if_pos h1]

theorem State.aliveTest_repeat (h : s.regFld (chkCtx die c 0x28) 16 1 = 1) {v : Nat} (h0 : s.aliveAhead die c v = 0) :
    s.aliveTest die c v = (0x0802, s.chkBump die c 2) := by
  rw [State.aliveTest_synced h, if_neg (by omega), if_neg (by omega), if_pos (Or.inl h0)]

theorem State.aliveTest_gap (h : s.regFld (chkCtx die c 0x28) 16 1 = 1) {v : Nat} (h2 : 2 ≤ s.aliveAhead die c v)
    (hg : s.aliveAhead die c v ≤ (s.chkParams die c).maxGap + 1)
    (hb : s.aliveAhead die c v < 2 ^ ((s.chkParams die c).alive - 1)) :
    s.aliveTest die c v = (0, (s.setAlive die c v true).chkBump die c 3) := by
  rw [State.aliveTest_synced h, if_neg (by omega), if_pos ⟨h2, hg, hb⟩]

theorem State.aliveTest_lost (h : s.regFld (chkCtx die c 0x28) 16 1 = 1) {v : Nat} (h2 : 2 ≤ s.aliveAhead die c v)
    (hg : (s.chkParams die c).maxGap + 1 < s.aliveAhead die c v)
    (hb : s.aliveAhead die c v < 2 ^ ((s.chkParams die c).alive - 1)) :
    s.aliveTest die c v = (0x0803, s.chkBump die c 3) := by
  rw [State.aliveTest_synced h, if_neg (by omega), if_neg (by omega),
    if_neg fun h => h.elim (by omega) (Nat.not_le.mpr hb)]

/-- A check job of a ring ends: its run on the context goes to the ring, where the output fits (R187). -/
theorem State.checkJobEnd_ring {e q : Nat} {j : CmpJob} (hj : s.cmp.jobs.find? (fun j => j.engine == e && j.desc.op == 3) = some j)
    (ho : j.owner = .ring q) {r : Status × List Byte × State}
    (hr : s.checkRun 0 j.desc.format (j.desc.flags.testBit 3) (j.desc.flags.testBit 4)
      (s.jobRead (.ring q) j.desc.inAddr j.desc.inLen) = r) (hl : r.2.1.length ≤ j.desc.outCap) :
    s.checkJobEnd e = (((r.2.2.dropJob j).jobWrite (.ring q) j.desc.outAddr r.2.1).jobCount r.1).jobComplete
      (.ring q) j.desc r.1 0 (if r.1 = 0x0804 ∨ r.1 = 0x0805 then 0 else 8 * j.desc.inLen) r.2.1.length 0 0 0
      (crc32c r.2.1) := by
  unfold State.checkJobEnd
  simp only [hj, ho, hr, if_neg (Nat.not_lt.mpr hl), State.jobRange]

end

/-! Writes of a context's words (R193, R194, R198). -/

section

variable {s : State} {die c w : Nat} {v : Word} (hd : die < 2 ∧ c < 256)
include hd

theorem State.chkHold_valid : s.chkHold die c v = s.plainWrite (chkCtx die c 4) v := if_pos hd

variable (hw : w % 4 = 0 ∧ w < 0x2C ∧ w ≠ 4)
include hw

/-- A word that only a held and idle context takes is discarded otherwise. -/
theorem State.chkWrite_refused (h : s.regFld (chkCtx die c 4) 0 1 = 0 ∨ s.chkIdle die c = false) :
    s.chkWrite die c w v = s.log 0x0806 cmpBase (chkCtx die c w) := by
  have h' : s.regFld (chkCtx die c 4) 0 1 = 0 ∨ (!s.chkIdle die c) = true := by rwa [Bool.not_eq_true']
  rw [State.chkWrite, if_neg (by omega), if_neg hw.2.2, if_neg (by omega), if_pos h']

/-- A held and idle context takes every word; CFG is checked, and a parameter takes the preset away. -/
theorem State.chkWrite_held (hh : s.regFld (chkCtx die c 4) 0 1 ≠ 0) (hi : s.chkIdle die c = true) :
    s.chkWrite die c w v = if w = 0 then s.chkCfgWrite die c v
      else if 8 ≤ w ∧ w < 0x20 then (s.plainWrite (chkCtx die c w) v).setBits (chkCtx die c 0) 11 5 0
      else s.plainWrite (chkCtx die c w) v := by
  have h' : ¬(s.regFld (chkCtx die c 4) 0 1 = 0 ∨ (!s.chkIdle die c) = true) := by
    rw [hi]; exact fun h => h.elim hh Bool.false_ne_true
  rw [State.chkWrite, if_neg (by omega), if_neg hw.2.2, if_neg (by omega), if_neg h']

end

theorem State.chkCfgWrite_refused {v : Word}
    (h : fld v 0 7 < 8 ∨ 64 < fld v 0 7 ∨ (1 ≤ fld v 16 5 ∧ fld v 16 5 ≤ 3) ∨ 16 < fld v 16 5 ∨ 11 < fld v 11 5)
    (s : State) (die c : Nat) : s.chkCfgWrite die c v = s.log 0x0101 cmpBase (chkCtx die c 0) v.toNat :=
  if_pos h

/-- Settles O50: the outgoing context seals the message, and FIRST makes the incoming one take any alive value. -/
theorem checkedMessagesAreAccepted : Obligations.CheckedMessagesAreAccepted := by
  unfold Obligations.CheckedMessagesAreAccepted
  intro s t die c die' c' p input _ ht hsv htv hs hr _ _
  obtain ⟨h0, field, hf, ho⟩ := State.checkRun_outgoing (by rw [hsv]; decide) (congrArg ChkParams.incoming hs) input
  have hlen : field.length = (t.chkParams die' c').aliveLen := by rw [hf, hs, hr]; rfl
  have hsame : (s.chkParams die c).sealed (input ++ field) = (t.chkParams die' c').sealed (input ++ field) := by
    rw [hs, hr, p.sealed_incoming false, p.sealed_incoming true]
  rw [ho, hsame]
  exact ⟨h0, State.checkRun_sealed ht (by rw [htv]; decide) (congrArg ChkParams.incoming hr) input field hlen⟩

/-- Settles O49: a job by its context, a received alive value by its distance from the last, a write by its word. -/
theorem checkJobsAndContexts : Obligations.CheckJobsAndContexts := by
  unfold Obligations.CheckJobsAndContexts
  refine ⟨fun s e q j hj ho hl => ?_, fun s die c first last input => ⟨fun h => ?_, fun h hi hl => ?_⟩,
    fun s die c v h => ?_, fun s die c v hd => ?_, fun s die c w v ⟨hd, hc, hw⟩ => ?_,
    fun s die c v h => State.chkCfgWrite_refused h s die c⟩
  · rw [exec_checkJobEnd, State.checkJobEnd_ring hj ho rfl hl]
  · exact State.checkRun_invalid h first last input
  · exact State.checkRun_short h hi hl first
  · exact ⟨State.aliveTest_next h, State.aliveTest_repeat h, fun ⟨h2, hg, hb⟩ => State.aliveTest_gap h h2 hg hb,
      fun ⟨hg, hb, h2⟩ => State.aliveTest_lost h h2 hg hb⟩
  · rw [exec_chkCtxHold, State.chkHold_valid hd]
  · rw [exec_chkCtxWrite]
    refine ⟨fun h => ?_, fun hh hi => ?_⟩
    · rw [State.chkWrite_refused ⟨hd, hc⟩ hw h]
    · rw [State.chkWrite_held ⟨hd, hc⟩ hw hh hi]
      refine ⟨fun h0 => ?_, fun hp => ?_, fun hr => ?_⟩
      · rw [if_pos h0]
      · rw [if_neg (by omega), if_pos hp]
      · rw [if_neg (by omega), if_neg (by omega)]

end Sys2Proof.Machine

/-! PROOFS. Job rings and compression engines: what a ring's job reads and writes, how a job starts, how each kind of job
ends, and with them CompressionJobsRunAndEnd. -/

namespace Sys2Proof.Machine

/-! What these commands mean: each runs the state function of its instruction. -/

theorem exec_cmpRingDoorbell (q : Nat) (v : Word) (s : State) : exec (.cmpRingDoorbell q v) s = .next (s.cmpDoorbell q v) := rfl
theorem exec_cmpJobStart (e : Nat) (q : Option Nat) (s : State) : exec (.cmpJobStart e q) s = .next (s.cmpJobStart e q) := rfl
theorem exec_decompressJobEnd (e stop : Nat) (s : State) :
    exec (.decompressJobEnd e stop) s = .next (s.decompressJobEnd e stop) := rfl
theorem exec_compressJobEnd (e : Nat) (bad : Option Nat) (s : State) :
    exec (.compressJobEnd e bad) s = .next (s.compressJobEnd e bad) := rfl

/-! What a ring's job reads and writes, and its completion (R170, R171). -/

/-- The words of one ring are apart. -/
@[simp] theorem cmpRing_inj {q w w' : Nat} : cmpRing q w = cmpRing q w' ↔ w = w' := by
  unfold cmpRing; omega

/-- Bytes written to bulk memory. -/
def State.bulkPut (s : State) (addr : Nat) (b : List Byte) : State := { s with bulkMem := memWrite s.bulkMem addr b }

theorem State.bulkPut_reg (s : State) (addr : Nat) (b : List Byte) (x : Nat) : (s.bulkPut addr b).reg x = s.reg x := rfl

theorem State.bulkPut_regsWf (s : State) (addr : Nat) (b : List Byte) : (s.bulkPut addr b).regsWf = s.regsWf := rfl

theorem State.bulkPut_ringEntries (s : State) (addr : Nat) (b : List Byte) (q : Nat) :
    (s.bulkPut addr b).ringEntries q = s.ringEntries q := rfl

theorem State.jobWrite_bulk {s : State} {q : Nat} (h : s.regFld (cmpRing q 0x10) 5 1 = 1) (addr : Nat) (b : List Byte) :
    s.jobWrite (.ring q) addr b = s.bulkPut addr b := by
  cases b with
  | nil => rfl
  | cons => simp only [State.jobWrite, List.isEmpty_cons, Bool.false_eq_true, if_false, h, if_true,
      State.bulkPut]

/-- The completion of a ring's job, as bytes. -/
def completionBytes (d : JobDesc) (st : Status) (detail inBits out va vb block check : Nat) : List Byte :=
  leBytes 2 st.toNat ++ leBytes 2 detail ++ leBytes 4 d.tag ++ leBytes 8 inBits ++ leBytes 8 out ++ leBytes 8 va ++
    leBytes 8 vb ++ leBytes 4 block ++ leBytes 4 check

/-- A ring's completion: its bytes behind HEAD, then HEAD and the status word. -/
def State.ringPut (s : State) (q : Nat) (st : Status) (b : List Byte) : State :=
  ((s.bulkPut (s.reg64 (cmpRing q 8) + 48 * (s.regFld (cmpRing q 0x18) 0 17 % s.ringEntries q)) b).setReg (cmpRing q 0x18)
    (BitVec.ofNat 32 ((s.regFld (cmpRing q 0x18) 0 17 + 1) % s.ringEntries q))).setReg (cmpRing q 0x1C) (BitVec.ofNat 32 st.toNat)

theorem State.ringPut_cfg (s : State) (q : Nat) (st : Status) (b : List Byte) (lo len : Nat) :
    (s.ringPut q st b).regFld (cmpRing q 0x10) lo len = s.regFld (cmpRing q 0x10) lo len := by
  rw [State.regFld, State.ringPut, State.reg_setReg_ne _ _ _ _ (by simp), State.reg_setReg_ne _ _ _ _ (by simp),
    State.bulkPut_reg]
  rfl

theorem State.ringPut_head {s : State} (h : s.regsWf = true) (q : Nat) (st : Status) (b : List Byte) :
    (s.ringPut q st b).reg (cmpRing q 0x18) = BitVec.ofNat 32 ((s.regFld (cmpRing q 0x18) 0 17 + 1) % s.ringEntries q) := by
  rw [State.ringPut, State.reg_setReg_ne _ _ _ _ (by simp), State.reg_setReg _ _ _ (by rw [State.bulkPut_regsWf, h])]

theorem State.ringPut_status {s : State} (h : s.regsWf = true) (q : Nat) (st : Status) (b : List Byte) :
    (s.ringPut q st b).reg (cmpRing q 0x1C) = BitVec.ofNat 32 st.toNat := by
  rw [State.ringPut, State.reg_setReg _ _ _ (State.setReg_regsWf _ _ _ (by rw [State.bulkPut_regsWf, h]))]

/-- Outside the registers a completion writes its bytes only. -/
theorem State.ringPut_frame (s : State) (q : Nat) (st : Status) (b : List Byte) :
    (s.ringPut q st b).bulkMem =
        memWrite s.bulkMem (s.reg64 (cmpRing q 8) + 48 * (s.regFld (cmpRing q 0x18) 0 17 % s.ringEntries q)) b ∧
      (s.ringPut q st b).out = s.out ∧ (s.ringPut q st b).hostMem = s.hostMem := by
  simp only [State.ringPut, State.setReg_bulkMem, State.setReg_out, State.setReg_hostMem, State.bulkPut, and_self]

/-- The completion of a ring in bulk memory that raises no vector. -/
theorem State.jobComplete_bulk {s : State} {q : Nat} (hb : s.regFld (cmpRing q 0x10) 5 1 = 1)
    (hv : s.regFld (cmpRing q 0x10) 19 1 = 0) (d : JobDesc) (st : Status) (det ib ob va vb bl ck : Nat) :
    s.jobComplete (.ring q) d st det ib ob va vb bl ck = s.ringPut q st (completionBytes d st det ib ob va vb bl ck) := by
  have hq : ¬(s.ringPut q st (completionBytes d st det ib ob va vb bl ck)).regFld (cmpRing q 0x10) 19 1 = 1 := by
    rw [State.ringPut_cfg, hv]; decide
  unfold State.jobComplete
  simp only [State.jobWrite_bulk hb, State.bulkPut_ringEntries]
  rw [State.ringPut, completionBytes] at hq ⊢
  exact if_neg hq

/-! A job starts (R171, R172, R192). -/

/-- The next descriptor of a ring has been taken. -/
def State.ringNext (s : State) (q : Nat) : State := { s with cmp := { s.cmp with
  started := modAt s.cmp.started q (fun _ => (s.cmp.started.getD q 0 % s.ringEntries q + 1) % s.ringEntries q),
  queue := s.cmp.queue.erase (.ring q) } }

theorem State.ringNext_regFld (s : State) (q off lo len : Nat) : (s.ringNext q).regFld off lo len = s.regFld off lo len := rfl
theorem State.ringNext_hostMem (s : State) (q : Nat) : (s.ringNext q).hostMem = s.hostMem := rfl

theorem State.jobRead_ringNext (s : State) (q addr n : Nat) :
    (s.ringNext q).jobRead (.ring q) addr n = s.jobRead (.ring q) addr n := by
  have hb : (s.ringNext q).bulkRead addr n = s.bulkRead addr n := State.bulkRead_congr (s := s) (t := s.ringNext q) rfl rfl addr n
  simp only [State.jobRead, hb, State.ringNext_regFld, State.ringNext_hostMem]

/-- The refusal of a ring's descriptor does not depend on the engines. -/
theorem State.jobRefusal_ringNext (s : State) (q : Nat) (d : JobDesc) :
    (s.ringNext q).jobRefusal (.ring q) d = s.jobRefusal (.ring q) d := by
  unfold State.jobRefusal
  rw [State.jobRead_ringNext]
  rfl

theorem State.cmpJobStart_ring {s : State} {q : Nat} (ho : s.ringOn q = true) (ha : s.ringAvail q ≠ 0) (e : Nat) :
    s.cmpJobStart e (some q) =
      if s.jobReady e (.ring q) (s.ringDesc q 0) (s.cmp.queue.takeWhile (· != .ring q)) then
        (s.ringNext q).jobTake e (.ring q) (s.ringDesc q 0) false
      else s := by
  have ha' : (s.ringAvail q == 0) = false := beq_eq_false_iff_ne.mpr ha
  simp only [State.cmpJobStart, ho, ha', Bool.not_true, Bool.false_or]
  cases s.jobReady e (.ring q) (s.ringDesc q 0) (s.cmp.queue.takeWhile (· != .ring q)) <;> rfl

section

variable {s : State} {o : JobOwner} {d : JobDesc}

theorem State.jobReady_refused {x : Status × Nat × Nat} (h : s.jobRefusal o d = some x) (e : Nat) (before : List CmpSub) :
    s.jobReady e o d before = true := by
  rw [State.jobReady, h]; rfl

theorem State.jobReady_accepted (h : s.jobRefusal o d = none) (e : Nat) (before : List CmpSub) :
    s.jobReady e o d before = (s.engineTakes e d && !(d.op == 3 && s.namesContext d.format [] before)) := by
  rw [State.jobReady, h]; rfl

theorem State.jobTake_refused {st : Status} {det va : Nat} (h : s.jobRefusal o d = some (st, det, va)) (e : Nat)
    (retried : Bool) : s.jobTake e o d retried = (s.jobCount st).jobComplete o d st det 0 0 va 0 0 0 := by
  rw [State.jobTake, h]

theorem State.jobTake_accepted (h : s.jobRefusal o d = none) (e : Nat) (retried : Bool) :
    s.jobTake e o d retried = { s with cmp := { s.cmp with
      jobs := s.cmp.jobs ++ [{ engine := e, owner := o, desc := d, retried := retried }] } } := by
  rw [State.jobTake, h]

end

/-- The oldest waiting job of a running run starts on an engine that takes it. -/
theorem State.cmpJobStart_run {s : State} {slot t desc : Nat} {d : JobDesc} {b : Bool} {r : Run} {rest : List CmpSub}
    (hq : s.cmp.queue = .run (.run slot t desc) d b :: rest) (hr : s.runAt slot = some r) (hs : r.state = .running) {e : Nat}
    (hready : s.jobReady e (.run slot t desc) d [] = true) :
    s.cmpJobStart e none = (s.setCmpQueue rest).jobTake e (.run slot t desc) d b := by
  simp only [State.cmpJobStart, hq, List.find?_cons, List.takeWhile_cons, List.erase_cons_head, hr, hs, beq_self_eq_true,
    Bool.not_true, Bool.false_eq_true, if_false, hready, if_true]

/-! A decompression ends (R173, R176). -/

section

variable {s : State} {j : CmpJob} {q : Nat} (ho : j.owner = .ring q)
include ho

theorem State.jobPreempted_ring : s.jobPreempted j = false := by
  rw [State.jobPreempted, ho]

theorem State.jobRoom_ring (n : Nat) : s.jobRoom j n = min j.desc.outCap (2 ^ 40 - 1) := by
  simp only [State.jobRoom, State.jobPreempted_ring ho, Bool.false_and, Bool.false_eq_true, if_false]

/-- A ring's job decompresses what it reads from the ring's memory, within its capacity. -/
theorem State.decompressOutcome_ring (stop : Nat) :
    let d := j.desc
    let more := d.flags.testBit 2
    let room := min d.outCap (2 ^ 40 - 1)
    let input := s.jobRead (.ring q) d.inAddr d.inLen
    let old := s.jobRead (.ring q) d.stateAddr 512
    let history := s.jobRead (.ring q) d.histAddr (min (recordWindow old) (leField old 0x10 8))
    s.decompressOutcome j stop =
      if d.format ≤ 3 then
        Inflate.outcome more s.fuses.partId ((if d.flags.testBit 1 then Inflate.resume old input room d.expects history
          else Inflate.fresh d.format input room d.expects).decode more)
      else
        Frames.outcome more s.fuses.partId ((if d.flags.testBit 1 then Frames.resume old input room d.expects history
          else Frames.fresh d.format input room d.expects).decode more) := by
  simp only [State.decompressOutcome, State.jobRoom_ring ho, State.jobHistory, ho]

theorem State.decompressJobEnd_ring {e : Nat} (hj : s.cmp.jobs.find? (fun j => j.engine == e && j.desc.op == 1) = some j)
    (stop : Nat) :
    let x := s.decompressOutcome j stop
    s.decompressJobEnd e stop = ((((s.dropJob j).jobWrite (.ring q) j.desc.outAddr x.output).jobWrite (.ring q)
      j.desc.stateAddr x.record).jobCount x.status).jobComplete (.ring q) j.desc x.status x.detail x.inBits x.output.length
        x.valueA x.valueB x.block (crc32c x.output) := by
  simp only [State.decompressJobEnd, hj, ho, State.jobRange, State.jobPreempted_ring ho, Bool.false_and, Bool.false_eq_true,
    if_false]

end

/-- However a decompression stops, its output is what it made. -/
theorem stopOutcome_output (more : Bool) (why : InfStop) (pos endPos start : Nat) (output : List Byte) (block : Nat)
    (record : List Byte) : (stopOutcome more why pos endPos start output block record).output = output := by
  cases why with
  | short => cases more <;> rfl
  | _ => rfl

/-- A first job of formats 1 to 3 never leaves its room. -/
theorem Inflate.outcome_fresh_room (format room : Nat) (input : List Byte) (expects : Option Nat) (more : Bool) (part : Nat) :
    (Inflate.outcome more part ((Inflate.fresh format input room expects).decode more)).output.length ≤ room := by
  rw [Inflate.outcome, stopOutcome_output]
  exact Inflate.output_room _ more (Nat.zero_le room)

section

variable {r : InfStop × Inflate}

/-- A job that stops for lack of room leaves a record of 512 bytes (R176). -/
theorem Inflate.outcome_full (h : r.1 = .full) (more : Bool) (part : Nat) :
    (Inflate.outcome more part r).status = 0x0709 ∧ (Inflate.outcome more part r).record.length = 512 := by
  rw [Inflate.outcome, h]
  exact ⟨rfl, Inflate.record_length ..⟩

/-- So does one whose input ends with MORE (R176). -/
theorem Inflate.outcome_short_more (h : r.1 = .short) (part : Nat) :
    (Inflate.outcome true part r).status = 0x070B ∧ (Inflate.outcome true part r).record.length = 512 := by
  rw [Inflate.outcome, h]
  exact ⟨rfl, Inflate.record_length ..⟩

theorem Inflate.outcome_short (h : r.1 = .short) (part : Nat) : (Inflate.outcome false part r).status = 0x0706 := by
  rw [Inflate.outcome, h]
  rfl

end

/-! A compression ends (R180-R185). -/

section

variable {s : State} {j : CmpJob} {e : Nat} (hj : s.cmp.jobs.find? (fun j => j.engine == e && j.desc.op == 2) = some j)
include hj

theorem State.compressJobEnd_ring {q : Nat} (ho : j.owner = .ring q) :
    let input := s.jobRead (.ring q) j.desc.inAddr j.desc.inLen
    let out := compress j.desc.format (j.desc.flags / 256 % 16) input
    s.compressJobEnd e none = (((s.dropJob j).jobWrite (.ring q) j.desc.outAddr out).jobCount 0).jobComplete
      (.ring q) j.desc 0 0 (8 * j.desc.inLen) out.length out.length 0 (compressBlocks j.desc.inLen - 1) (crc32c input) := by
  simp only [State.compressJobEnd, hj, ho, State.jobRange]

/-- Without PROOF no block can fail its proof. -/
theorem State.compressJobEnd_unproven (hp : j.desc.flags.testBit 0 = false) (k : Nat) : s.compressJobEnd e (some k) = s := by
  simp only [State.compressJobEnd, hj, hp, Bool.not_false, Bool.true_or, if_true]

end

/-- A mismatch takes the job from its engine, is recorded and counted, and takes the engine out of service (R184, R185). -/
def State.proofFailed (s : State) (e : Nat) (j : CmpJob) : State :=
  let u := ((s.dropJob j).log 0x070A cmpBase e).bump (cmpBase + 0x18) (cmpBase + 0x1C) 2
  { u with cmp := { u.cmp with oos := setBit u.cmp.oos e true } }

section

variable {s : State} {j : CmpJob} {e k : Nat} (hj : s.cmp.jobs.find? (fun j => j.engine == e && j.desc.op == 2) = some j)
  (hp : j.desc.flags.testBit 0 = true) (hk : k < compressBlocks j.desc.inLen)
include hj hp hk

/-- A ring's job ends with its proven blocks. -/
theorem State.compressJobEnd_mismatch_ring {q : Nat} (ho : j.owner = .ring q) :
    let input := s.jobRead (.ring q) j.desc.inAddr j.desc.inLen
    let out := compressProven j.desc.format (j.desc.flags / 256 % 16) input k
    s.compressJobEnd e (some k) = (((s.proofFailed e j).jobWrite (.ring q) j.desc.outAddr out).jobCount 0x070A).jobComplete
      (.ring q) j.desc 0x070A 0 (8 * j.desc.inLen) out.length out.length 0 (k - 1) (crc32c input) := by
  simp only [State.compressJobEnd, hj, hp, ho, decide_eq_false (Nat.not_le.mpr hk), ge_iff_le, Bool.not_true, Bool.or_false,
    Bool.false_eq_true, if_false, State.jobRange]
  rfl

/-- A run's job is submitted for the second time. -/
theorem State.compressJobEnd_mismatch_run {slot t desc : Nat} (ho : j.owner = .run slot t desc) (hr : j.retried = false) :
    s.compressJobEnd e (some k) = ((s.proofFailed e j).jobCount 0x070A).setCmpQueue
      ((s.proofFailed e j).cmp.queue ++ [.run j.owner j.desc true]) := by
  simp only [State.compressJobEnd, hj, hp, ho, hr, decide_eq_false (Nat.not_le.mpr hk), ge_iff_le, Bool.not_true, Bool.or_false,
    Bool.false_eq_true, if_false]
  rfl

end

/-- Settles O48: a start by the refusal of its descriptor and what the engine takes, an end by the job's kind and owner. -/
theorem compressionJobsRunAndEnd : Obligations.CompressionJobsRunAndEnd := by
  unfold Obligations.CompressionJobsRunAndEnd
  refine ⟨fun s q v hq => ?_,
    fun s e q ho ha => ⟨fun hr he hc => ?_, fun st det va hr => ?_, fun hr he => ?_, fun hr h3 hc => ?_⟩,
    fun s e slot t desc d b r rest hq hr hs hn he hn' => ?_, fun s e stop q j hj ho => ?_,
    fun s q stop j ho => ⟨fun hf hn => ?_, fun hf hn => ?_, fun hf hn => ?_, fun hf hn => ?_⟩,
    fun format room input expects more part => ⟨Inflate.outcome_fresh_room .., fun h => Inflate.outcome_full h ..,
      fun h hm => ?_, fun h hm => ?_⟩,
    fun s e q j hj ho => ?_, fun s e k j hj ⟨hp, hk⟩ => ⟨fun q ho => ?_, fun slot t desc ho hr => ?_⟩,
    fun s e k j hj hp => ?_, fun s q d st det ib ob va vb bl ck hw ⟨hb, hv⟩ => ?_⟩
  · rw [exec_cmpRingDoorbell, State.cmpDoorbell, if_pos hq]
  · rw [exec_cmpJobStart, State.cmpJobStart_ring ho ha, State.jobReady_accepted hr, he, if_pos (by simpa using hc),
      State.jobTake_accepted ((s.jobRefusal_ringNext q _).trans hr)]
    rfl
  · rw [exec_cmpJobStart, State.cmpJobStart_ring ho ha, State.jobReady_refused hr, if_pos rfl,
      State.jobTake_refused ((s.jobRefusal_ringNext q _).trans hr)]
    rfl
  · rw [exec_cmpJobStart, State.cmpJobStart_ring ho ha, State.jobReady_accepted hr, he, Bool.false_and,
      if_neg Bool.false_ne_true]
  · rw [exec_cmpJobStart, State.cmpJobStart_ring ho ha, State.jobReady_accepted hr, hc, if_neg (by simp [h3])]
  · rw [exec_cmpJobStart, State.cmpJobStart_run hq hr hs (by simp [State.jobReady_accepted hn, he, State.namesContext]),
      State.jobTake_accepted hn']
    rfl
  · rw [exec_decompressJobEnd, State.decompressJobEnd_ring ho hj]
  · rw [State.decompressOutcome_ring ho, if_pos hf, hn]; rfl
  · rw [State.decompressOutcome_ring ho, if_pos hf, hn]; rfl
  · rw [State.decompressOutcome_ring ho, if_neg (Nat.not_le.mpr hf), hn]; rfl
  · rw [State.decompressOutcome_ring ho, if_neg (Nat.not_le.mpr hf), hn]; rfl
  · subst hm; exact Inflate.outcome_short_more h part
  · subst hm; exact Inflate.outcome_short h part
  · rw [exec_compressJobEnd, State.compressJobEnd_ring hj ho]
  · rw [exec_compressJobEnd, State.compressJobEnd_mismatch_ring hj hp hk ho]; rfl
  · rw [exec_compressJobEnd, State.compressJobEnd_mismatch_run hj hp hk ho hr]; rfl
  · rw [exec_compressJobEnd, State.compressJobEnd_unproven hj hp]
  · intro head u
    have hu : u = s.ringPut q st (completionBytes d st det ib ob va vb bl ck) := State.jobComplete_bulk hb hv ..
    obtain ⟨hm, hout, hh⟩ := s.ringPut_frame q st (completionBytes d st det ib ob va vb bl ck)
    rw [hu]
    exact ⟨hm, State.ringPut_head hw .., State.ringPut_status hw .., hout, hh⟩

end Sys2Proof.Machine

/-! PROOFS. Decoder units and text lanes that fail, live ingest, and text generation: the branches of each state function,
and with them DecodersIngestAndGeneration. -/

namespace Sys2Proof.Machine

/-! What these commands mean: each runs the state function of its instruction. -/

theorem exec_decoderUnitFault (cls unit : Nat) (s : State) :
    exec (.decoderUnitFault cls unit) s = .next (s.unitFault cls unit) := rfl
theorem exec_decoderNoProgress (cls unit : Nat) (s : State) :
    exec (.decoderNoProgress cls unit) s = .next (s.unitFault cls unit) := rfl
theorem exec_laneFault (lane : Nat) (s : State) : exec (.laneFault lane) s = .next (s.laneFault lane) := rfl
theorem exec_laneNoProgress (lane : Nat) (s : State) : exec (.laneNoProgress lane) s = .next (s.laneFault lane) := rfl
theorem exec_rtpPacket (f : FrameInfo) (port : Nat) (b : List Byte) (s : State) :
    exec (.rtpPacket f port b) s = .next (s.rtpPacket f port b) := rfl
theorem exec_liveUnitTimeout (c : Nat) (s : State) : exec (.liveUnitTimeout c) s = .next (s.liveTimeout c) := rfl
theorem exec_decLiveCfgWrite (c : Nat) (v : Word) (s : State) :
    exec (.decLiveCfgWrite c v) s = .next (s.liveCfgWrite c v) := rfl
theorem exec_genOpen (p : ReqPath) (b : List Byte) (a : GenBuffers) (s : State) :
    exec (.genOpen p b a) s = .next (s.genOpen p b a) := rfl
theorem exec_genStep (lane idx token : Nat) (s : State) :
    exec (.genStep lane idx token) s = .next (s.genStep lane idx token) := rfl

/-! A fault of a decoder unit (R202) and of a text lane (R250). -/

/-- A unit in service goes out of service. -/
theorem State.unitFault_in_service {s : State} {cls unit : Nat} (hc : 1 ≤ cls ∧ cls ≤ 5) (hu : unit < decUnits cls)
    (h : (s.decode.oos cls).contains unit = false) : s.unitFault cls unit =
      { (s.log 0x0508 decBase unit cls) with decode := s.decode.setOos cls (s.decode.oos cls ++ [unit]) } := by
  rw [State.unitFault, decide_eq_true hc, decide_eq_true hu, h]
  rfl

theorem State.unitFault_out_of_service {s : State} {cls unit : Nat} (h : (s.decode.oos cls).contains unit = true) :
    s.unitFault cls unit = s := by
  rw [State.unitFault, h, Bool.not_true, Bool.and_false, if_neg Bool.false_ne_true]

/-- A lane in service goes out of service, and its generation requests end. -/
theorem State.laneFault_in_service {s : State} {lane : Nat} (hl : lane < 64) (h : s.text.oos.getLsbD lane = false) :
    s.laneFault lane = (s.text.gens.filter (fun g => g.lane == lane)).foldl (fun s g => s.genEnd g 0x060A 0 0)
      { (s.log 0x060A tokBase lane) with text := { s.text with oos := setBit s.text.oos lane true } } := by
  simp only [State.laneFault, decide_eq_true hl, h, Bool.not_false, Bool.and_true, if_true]

theorem State.laneFault_out_of_service {s : State} {lane : Nat} (h : s.text.oos.getLsbD lane = true) :
    s.laneFault lane = s := by
  rw [State.laneFault, h, Bool.not_true, Bool.and_false, if_neg Bool.false_ne_true]

/-! A received RTP packet (R235, R236, R511). -/

/-- The enabled channel that takes the packets of a UDP port. -/
def State.portChannel (s : State) (port : Nat) : Option Nat :=
  (List.range 64).find? (fun c => s.liveEnabled c && s.regFld (liveReg c 4) 0 16 == port)

/-- The packet that a channel's CODEC reads from some bytes. -/
def State.rtpAt (s : State) (c : Nat) (b : List Byte) : RtpPacket := rtpOf (s.regFld (liveReg c 0) 1 1 == 1) b

/-- A channel refuses a packet: its header, its payload or its source is not the channel's. -/
def State.rtpRefused (s : State) (c : Nat) (p : RtpPacket) : Bool :=
  decide (p.version ≠ 2 ∨ p.payloadType ≠ s.regFld (liveReg c 0) 2 7 ∨ p.supported = false ∨
    ((s.liveChan c).ssrc.isSome && (s.liveChan c).ssrc != some p.ssrc) = true)

/-- A packet belongs to a unit that has closed already, or to one before it. -/
def LiveChannel.isLate (l : LiveChannel) (p : RtpPacket) : Bool :=
  match l.lastClosed with
  | some (t, _) => t == p.timestamp || seqEarlier 32 p.timestamp t
  | none => false

/-- The lowest sequence number received since enable, with one more. -/
def LiveChannel.firstWith (l : LiveChannel) (seq : Nat) : Nat :=
  match l.firstSeq with
  | none => seq
  | some f => if seqEarlier 16 seq f then seq else f

/-- A packet counted, in its unit; the units that it makes whole close. -/
def State.rtpTaken (s : State) (c : Nat) (p : RtpPacket) : State :=
  ((s.liveBump c 0 1).setLiveChan c (fun l => { l with
    ssrc := some p.ssrc, firstSeq := some ((s.liveChan c).firstWith p.seq),
    units := markLater s.now p.timestamp (insertPacket p l.units) })).closeWhole c ((s.liveChan c).units.length + 1)

section

variable {s u : State} {f : FrameInfo} {port : Nat} {b : List Byte}

theorem State.rtpPacket_no_channel (hn : (s.wakeEvent .packet).portChannel port = none)
    (hp : (s.wakeEvent .packet).policeOther f none = (true, u)) : s.rtpPacket f port b = u.gnzBump 12 := by
  rw [State.portChannel] at hn
  simp only [State.rtpPacket, hn, Option.map_none, hp, Bool.not_true, Bool.false_eq_true, if_false]

theorem State.rtpPacket_policed_away (hn : (s.wakeEvent .packet).portChannel port = none)
    (hp : (s.wakeEvent .packet).policeOther f none = (false, u)) : s.rtpPacket f port b = u := by
  rw [State.portChannel] at hn
  simp only [State.rtpPacket, hn, Option.map_none, hp, Bool.not_false, if_true]

/-- What a policed packet meets at its channel, in the order of the checks. -/
theorem State.rtpPacket_channel {c : Nat} (hc : (s.wakeEvent .packet).portChannel port = some c)
    (hp : (s.wakeEvent .packet).policeOther f (some (0x200 + 4 * c)) = (true, u)) :
    s.rtpPacket f port b =
      if u.rtpRefused c (u.rtpAt c b) then u.liveBump c 6 1
      else if (u.liveChan c).isLate (u.rtpAt c b) then u.liveBump c 2 1
      else if u.poolHas 1 4 (max b.length 1) then u.rtpTaken c (u.rtpAt c b)
      else u.noGrant 1 (max b.length 1) := by
  have hnow : (u.liveBump c 0 1).now = u.now := State.bumpBy_now ..
  rw [State.portChannel] at hc
  simp only [State.rtpPacket, hc, Option.map_some, hp, Bool.not_true, Bool.false_eq_true, if_false, Bool.not_eq_true', hnow,
    State.rtpRefused, decide_eq_true_eq]
  refine ite_congr rfl (fun _ => rfl) (fun _ => ite_congr rfl (fun _ => rfl) (fun _ => ?_))
  cases u.poolHas 1 4 (max b.length 1) <;> rfl

end

/-! The oldest open unit of a channel (R236, R238). -/

theorem State.liveTimeout_closes {s : State} {c : Nat} {u : OpenUnit} {us : List OpenUnit}
    (hu : (s.liveChan c).units = u :: us) (hl : u.laterAt.isSome = true) (he : s.liveEnabled c = true) :
    s.liveTimeout c = (s.closeUnit c false).closeWhole c (us.length + 1) := by
  simp only [State.liveTimeout, hu, hl, he, Bool.and_self, if_true, List.length_cons]

theorem State.liveTimeout_stale {s : State} {c : Nat} {u : OpenUnit} {us : List OpenUnit}
    (hu : (s.liveChan c).units = u :: us) (h : u.laterAt.isSome = false ∨ s.liveEnabled c = false) :
    s.liveTimeout c = s := by
  have hb : (u.laterAt.isSome && s.liveEnabled c) = false := Bool.and_eq_false_iff.mpr h
  simp only [State.liveTimeout, hu, hb, Bool.false_eq_true, if_false]

section

variable {s : State} {c k : Nat} {x : StreamCtx} (hb : s.boundStream c = some (k, x)) (u : LiveUnit)
include hb

/-- A unit that the channel's buffer cannot hold is dropped. -/
theorem State.assignFolio_no_room (h : s.regFld (liveReg c 0) 16 13 * 2 ^ 20 < x.liveWaiting + 32 + u.nal.length) :
    s.assignFolio c u = s.liveBump c 5 1 := by
  simp only [State.assignFolio, hb, gt_iff_lt, decide_eq_true h, Bool.or_true, if_true]

/-- A unit takes the next folio of a stream that is open, is no replay and has no witness. -/
theorem State.assignFolio_takes (hr : x.params.replay = false) (ho : x.closing = none) (hw : x.params.witness = false)
    (hk : s.ctxOf k = some x) (h : x.liveWaiting + 32 + u.nal.length ≤ s.regFld (liveReg c 0) 16 13 * 2 ^ 20) :
    s.assignFolio c u = (s.updCtx k (fun x => { x with
      live := x.live ++ [(x.nextFolio, u)], nextFolio := x.nextFolio + 1 })).liveBump c 3 1 := by
  simp only [State.assignFolio, hb, hr, ho, gt_iff_lt, decide_eq_false (Nat.not_lt.mpr h), Option.isSome_none, Bool.or_self,
    Bool.false_eq_true, if_false, State.witnessAppend_unwitnessed hk hw]

end

/-! A write of a channel's configuration (R246). -/

section

variable {s : State} {c : Nat} {v : Word}

/-- The port of a channel that may be enabled is not 0 nor that of the clock's packets, and its buffer has a size in range. -/
theorem State.liveCfgOk_bounds (h : s.liveCfgOk c v = true) : s.regFld (liveReg c 4) 0 16 ≠ 0 ∧
    s.regFld (liveReg c 4) 0 16 ≠ 319 ∧ s.regFld (liveReg c 4) 0 16 ≠ 320 ∧ 16 ≤ fld v 16 13 ∧ fld v 16 13 ≤ 4096 := by
  simp only [State.liveCfgOk, Bool.and_eq_true, bne_iff_ne, decide_eq_true_eq] at h
  obtain ⟨⟨⟨⟨⟨h0, -⟩, h319⟩, h320⟩, -⟩, hsize⟩ := h
  exact ⟨h0, h319, h320, hsize⟩

variable (hc : c < 64)
include hc

theorem State.liveCfgWrite_enabled (he : s.liveEnabled c = true) : s.liveCfgWrite c v =
    if v.getLsbD 0 then s else (s.setBits (liveReg c 0) 0 1 0).setLiveChan c (fun l => { l with units := [] }) := by
  rw [State.liveCfgWrite, if_neg (Nat.not_le.mpr hc), if_pos he]

theorem State.liveCfgWrite_disabled (he : s.liveEnabled c = false) : s.liveCfgWrite c v =
    if v.getLsbD 0 then
      if s.liveCfgOk c v then (s.plainWrite (liveReg c 0) v).setLiveChan c (fun _ => {})
      else s.log 0x0101 decBase (liveReg c 0) v.toNat
    else s.plainWrite (liveReg c 0) v := by
  rw [State.liveCfgWrite, if_neg (Nat.not_le.mpr hc), if_neg (ne_true_of_eq_false he)]

end

/-! What a write to a run's space leaves: the text block (R352, R356). -/

@[simp] theorem State.vSet_text (s : State) (slot va : Nat) (b : Byte) : (s.vSet slot va b).text = s.text := by
  unfold State.vSet
  cases s.runAt slot with
  | none => rfl
  | some r => dsimp only; cases r.place va <;> rfl

@[simp] theorem State.vWrite_text (b : List Byte) : ∀ (s : State) (slot va : Nat), (s.vWrite slot va b).text = s.text := by
  induction b with
  | nil => intros; rfl
  | cons x b ih => intro s slot va; rw [State.vWrite, ih, State.vSet_text]

@[simp] theorem State.countReconstructs_text (s : State) (ns addr len : Nat) :
    (s.countReconstructs ns addr len).text = s.text := by
  unfold State.countReconstructs
  dsimp only
  split
  · rfl
  · exact State.bumpBy_text ..

@[simp] theorem State.placePage_text (s : State) (slot page : Nat) : (s.placePage slot page).text = s.text := by
  unfold State.placePage
  cases s.runAt slot with
  | none => rfl
  | some r =>
    dsimp only
    cases r.mapping page with
    | none => rfl
    | some m => exact s.countReconstructs_text ..

@[simp] theorem State.fillRange_text (slot va len : Nat) (write : Bool) (n : Nat) : ∀ s : State,
    (s.fillRange slot va len write n).text = s.text := by
  induction n with
  | zero => intro s; rfl
  | succ n ih =>
    intro s
    unfold State.fillRange
    cases s.runAt slot with
    | none => rfl
    | some r =>
      dsimp only
      cases r.check write va len with
      | fill p => exact (ih _).trans (s.placePage_text slot p)
      | _ => rfl

@[simp] theorem State.agentWrite_text (s : State) (slot addr : Nat) (b : List Byte) :
    (s.agentWrite slot addr b).text = s.text := by
  rw [State.agentWrite, State.vWrite_text, State.fillRange_text]

/-! A generation request (R271, R272). -/

theorem State.replyData_run_text (s : State) (k : Nat) (st : Status) (d : Nat) (r : List Nat) (b : List Byte) :
    (s.replyData (.run k) st d r b).text = s.text := rfl

/-- The context of an admitted request whose prompt has the tokens `ids`. -/
def GenCtx.opened (p : ReqPath) (b : List Byte) (a : GenBuffers) (l i : Nat) (v : Vocab) (ids : List Nat) : GenCtx :=
  { lane := l, idx := i, owner := p, vocab := v.slot, request := leField b 8 8, grammar := leField b 0x10 8,
    maxTokens := leField b 0x18 4, outCap := leField b 0x1C 4, includeStop := (leField b 7 1).testBit 0,
    addBos := (leField b 7 1).testBit 1, stops := stopTable b, prompt := ids, outAddr := a.outAddr, mailboxAddr := a.mailbox,
    maskAddr := a.mask, runCounter := a.counter }

/-- The mask of a context's grammar state is written, when it has a grammar. -/
def State.maskWrite (s : State) (g : GenCtx) (eos : Nat) : State :=
  match s.grammarOf g.grammar with
  | some gr => s.agentWrite g.slotOf g.maskAddr (grammarMask gr eos g.state)
  | none => s

theorem State.maskWrite_text (s : State) (g : GenCtx) (eos : Nat) : (s.maskWrite g eos).text = s.text := by
  unfold State.maskWrite
  cases s.grammarOf g.grammar with
  | none => rfl
  | some gr => exact State.agentWrite_text ..

/-- What an admitted request does: its prompt is read, which counts the lookups of one that is text; then its context opens,
its mask is written, and it is answered. -/
theorem State.genStart_parts (s : State) (p : ReqPath) (b : List Byte) (a : GenBuffers) (l i : Nat) (v : Vocab) :
    ∃ (u : State) (ids : List Nat), u.text = s.text ∧ s.genStart p b a l i v =
      ((u.setGens (u.text.gens ++ [.opened p b a l i v ids])).maskWrite (.opened p b a l i v ids) v.eos).replyData p 0 0
        [l * 16 + i] (ids.flatMap (leBytes 4)) := by
  refine ⟨_, _, ?_, rfl⟩
  split
  · rfl
  · rw [State.bumpBy_text, State.bumpBy_text, State.vocabLookups_text]

/-- An admitted request of a run has one context more. -/
theorem State.genStart_gens (s : State) (k l i : Nat) (b : List Byte) (a : GenBuffers) (v : Vocab) :
    ∃ ids, (s.genStart (.run k) b a l i v).text.gens = s.text.gens ++ [.opened (.run k) b a l i v ids] := by
  obtain ⟨u, ids, hu, h⟩ := s.genStart_parts (.run k) b a l i v
  refine ⟨ids, ?_⟩
  rw [h, State.replyData_run_text, State.maskWrite_text, State.setGens, hu]

section

variable {s : State} {k : Nat} {r : Run} (hr : s.runAt k = some r)
include hr

theorem State.genOpen_not_running (h : r.state ≠ .running) (b : List Byte) (a : GenBuffers) :
    s.genOpen (.run k) b a = s := by
  simp only [State.genOpen, hr, if_pos h]

variable (hs : r.state = .running) (hn : r.stage = none)
include hs hn

/-- A run outside a stream has its request checked, and then given a context. -/
theorem State.genOpen_running (b : List Byte) (a : GenBuffers) : s.genOpen (.run k) b a =
    if s.genOk b then
      match s.freeGen, s.vocabOf (leField b 6 1) with
      | some (l, i), some v => s.genStart (.run k) b a l i v
      | _, _ => s.reply (.run k) 0x0609
    else s.reply (.run k) 0x0608 := by
  simp only [State.genOpen, hr, hs, hn, ne_eq, not_true, if_false, Option.bind_none]
  cases s.genOk b <;> rfl

end

/-! A step of generation (R273-R277, R280, R282). -/

section

variable {s : State} {lane idx : Nat} {g : GenCtx} {v : Vocab} (hg : s.genAt lane idx = some g)
  (hv : s.vocabOf g.vocab = some v)
include hg hv

theorem State.genStep_no_grammar (h : s.grammarOf g.grammar = none) (token : Nat) :
    s.genStep lane idx token = s.vocabLookups.genText { g with tokens := g.tokens + 1 } v token := by
  simp only [State.genStep, hg, hv, h]

theorem State.genStep_violation {gr : Grammar} {token : Nat} {st : Status} (h : s.grammarOf g.grammar = some gr)
    (hq : grammarStep gr v.eos g.state token = .error st) :
    s.genStep lane idx token = s.vocabLookups.genEnd { g with tokens := g.tokens + 1 } st 0 0 := by
  simp only [State.genStep, hg, hv, h, hq]

theorem State.genStep_admitted {gr : Grammar} {token q : Nat} (h : s.grammarOf g.grammar = some gr)
    (hq : grammarStep gr v.eos g.state token = .ok q) :
    s.genStep lane idx token = s.vocabLookups.genText { g with tokens := g.tokens + 1, state := q } v token := by
  simp only [State.genStep, hg, hv, h, hq]

end

/-- A request ends once text has been released. -/
def State.releaseEnd (s : State) (g : GenCtx) (text : List Byte) (reason stop : Nat) : State :=
  let r := s.genRelease g text
  r.2.genEnd r.1 0 reason stop

/-- The text of a context that may be released: no stop string can begin in it. -/
def GenCtx.free (g : GenCtx) : List Byte := g.held.take (g.held.length - heldSuffix g.stops g.held)

/-- The whole text of a context, its incomplete character replaced. -/
def GenCtx.all (g : GenCtx) : List Byte := g.held ++ g.carry.flatMap (fun _ => replacement)

section

variable {g : GenCtx} {v : Vocab} {token : Nat} (s : State)

theorem State.genText_stop {e n i : Nat} (h : findStop (g.take v token).stops (g.take v token).held = some (e, n, i)) :
    s.genText g v token = s.releaseEnd (g.take v token)
      ((g.take v token).held.take (if (g.take v token).includeStop then e else e - n)) 2 i := by
  simp only [State.genText, h, State.releaseEnd]

variable (h : findStop (g.take v token).stops (g.take v token).held = none)
include h

theorem State.genText_eos (ht : token = v.eos) (he : v.eos ≠ 0xFFFFFFFF) :
    s.genText g v token = s.releaseEnd (g.take v token) (g.take v token).all 1 0 := by
  simp only [State.genText, h, if_pos (And.intro ht he), State.releaseEnd, GenCtx.all]

variable (ht : token ≠ v.eos ∨ v.eos = 0xFFFFFFFF)
include ht

theorem State.genText_full (ho : (g.take v token).outCap < (g.take v token).released + (g.take v token).free.length) :
    s.genText g v token = s.releaseEnd (g.take v token) (g.take v token).free 3 0 := by
  have hne : ¬(token = v.eos ∧ v.eos ≠ 0xFFFFFFFF) := fun ⟨ht', he⟩ => ht.elim (· ht') he
  rw [GenCtx.free] at ho
  simp only [State.genText, h, if_neg hne, gt_iff_lt, if_pos ho, State.releaseEnd, GenCtx.free]

theorem State.genText_token_limit (ho : (g.take v token).released + (g.take v token).free.length ≤ (g.take v token).outCap)
    (hm : (g.take v token).maxTokens ≤ (g.take v token).tokens) :
    s.genText g v token = s.releaseEnd (g.take v token) (g.take v token).all
      (if (g.take v token).released + (g.take v token).all.length > (g.take v token).outCap then 3 else 4) 0 := by
  have hne : ¬(token = v.eos ∧ v.eos ≠ 0xFFFFFFFF) := fun ⟨ht', he⟩ => ht.elim (· ht') he
  rw [GenCtx.free] at ho
  simp only [State.genText, h, if_neg hne, gt_iff_lt, if_neg (Nat.not_lt.mpr ho), ge_iff_le, if_pos hm, State.releaseEnd, GenCtx.all]

end

/-- Settles O53: a unit or lane by its service, a packet by its channel's checks, a write by ENABLE, a request by its run and
the free contexts, a step by the grammar and by what its text ends with. -/
theorem decodersIngestAndGeneration : Obligations.DecodersIngestAndGeneration := by
  unfold Obligations.DecodersIngestAndGeneration
  refine ⟨fun s cls unit hc hu => ⟨fun h => ?_, fun h => ?_⟩, fun s lane hl => ⟨fun h t ht => ?_, fun h => ?_⟩,
    fun s w u f port c b hw hc hp => ?_, fun s w u f port b hw hn => ⟨fun hp => ?_, fun hp => ?_⟩,
    fun s c u us hu => ⟨fun hl he => ?_, fun h => ?_⟩, fun s c k u x hb hr ho hw hk => ⟨fun h => ?_, fun h => ?_⟩,
    fun s c v hc => ⟨fun he hv => ?_, fun he hv => ?_, fun he hv => ?_, fun he hv hok => ?_, fun he hv hok => ?_,
      State.liveCfgOk_bounds⟩,
    fun s k l i b a r v hr hs hn hf hv => ⟨fun h => ?_, fun h => ?_, ?_⟩,
    fun s k b a r hr hf hok hn => ⟨fun hs => ?_, fun hs => ?_⟩,
    fun s lane idx token g v hg hv => ⟨fun h => ?_, fun gr st h hq => ?_, fun gr q h hq => ?_⟩,
    fun s g v token => ⟨fun e n i h => ?_, fun h => ⟨fun ht he => ?_, fun ht => ⟨fun ho => ?_, fun ho hm => ?_⟩⟩⟩⟩
  · rw [exec_decoderUnitFault, exec_decoderNoProgress, State.unitFault_in_service hc hu h]
    exact ⟨rfl, rfl⟩
  · rw [exec_decoderUnitFault, exec_decoderNoProgress, State.unitFault_out_of_service h]
    exact ⟨rfl, rfl⟩
  · rw [exec_laneFault, exec_laneNoProgress, State.laneFault_in_service hl h, ht]
    exact ⟨rfl, rfl⟩
  · rw [exec_laneFault, exec_laneNoProgress, State.laneFault_out_of_service h]
    exact ⟨rfl, rfl⟩
  · subst hw
    intro l p bad late room
    have hbad : u.rtpRefused c (u.rtpAt c b) = true ↔ bad := decide_eq_true_iff
    have hlate : (u.liveChan c).isLate (u.rtpAt c b) = true ↔ late := Iff.rfl
    rw [exec_rtpPacket, State.rtpPacket_channel hc hp]
    refine ⟨fun h => ?_, fun h h' => ?_, fun h h' hr => ?_, fun h h' hr => ?_⟩
    · rw [if_pos (hbad.mpr h)]
    · rw [if_neg (mt hbad.mp h), if_pos (hlate.mpr h')]
    · rw [if_neg (mt hbad.mp h), if_neg (mt hlate.mp h'), if_neg (ne_true_of_eq_false hr)]
    · rw [if_neg (mt hbad.mp h), if_neg (mt hlate.mp h'), if_pos hr]
      rfl
  · subst hw; rw [exec_rtpPacket, State.rtpPacket_no_channel hn hp]
  · subst hw; rw [exec_rtpPacket, State.rtpPacket_policed_away hn hp]
  · rw [exec_liveUnitTimeout, State.liveTimeout_closes hu hl he]
  · rw [exec_liveUnitTimeout, State.liveTimeout_stale hu h]
  · exact State.assignFolio_no_room hb u h
  · exact State.assignFolio_takes hb u hr ho hw hk h
  · rw [exec_decLiveCfgWrite, State.liveCfgWrite_enabled hc he, if_pos hv]
  · rw [exec_decLiveCfgWrite, State.liveCfgWrite_enabled hc he, if_neg (ne_true_of_eq_false hv)]
  · rw [exec_decLiveCfgWrite, State.liveCfgWrite_disabled hc he, if_neg (ne_true_of_eq_false hv)]
  · rw [exec_decLiveCfgWrite, State.liveCfgWrite_disabled hc he, if_pos hv, if_pos hok]
  · rw [exec_decLiveCfgWrite, State.liveCfgWrite_disabled hc he, if_pos hv, if_neg (ne_true_of_eq_false hok)]
    rfl
  · rw [exec_genOpen, State.genOpen_running hr hs hn, if_neg (ne_true_of_eq_false h)]
  · rw [exec_genOpen, State.genOpen_running hr hs hn, if_pos h, hf, hv]
  · obtain ⟨ids, h⟩ := s.genStart_gens k l i b a v
    exact ⟨_, h, rfl, rfl, rfl, rfl, rfl, rfl, rfl, rfl, rfl, rfl⟩
  · rw [exec_genOpen, State.genOpen_running hr hs hn, if_pos hok, hf]
  · rw [exec_genOpen, State.genOpen_not_running hr hs]
  · rw [exec_genStep, State.genStep_no_grammar hg hv h]
  · rw [exec_genStep, State.genStep_violation hg hv h hq]
  · rw [exec_genStep, State.genStep_admitted hg hv h hq]
  · rw [s.genText_stop h]; rfl
  · rw [s.genText_eos h ht he]; rfl
  · rw [s.genText_full h ht ho]; rfl
  · rw [s.genText_token_limit h ht ho hm]; rfl

end Sys2Proof.Machine

/-! PROOFS. Numerics: integer accumulation modulo 2^32 and the round trip of element codes, and with them
IntegerProductsDoNotDependOnOrder and FloatCodesConvertToThemselves. -/

namespace Sys2Proof.Machine

/-! Integer accumulation (R303). -/

/-- A number wrapped to a signed word lies in the range of S32. -/
theorem wrap32_signed_range (v : Int) : -(2 : Int) ^ 31 ≤ wrap32 true v ∧ wrap32 true v < (2 : Int) ^ 31 := by
  unfold wrap32
  simp only [true_and]
  split <;> omega

/-- Wrapping changes a number by a multiple of 2^32 only. -/
theorem wrap32_congr (sg : Bool) (v : Int) : (wrap32 sg v - v) % (2 : Int) ^ 32 = 0 := by
  unfold wrap32
  dsimp only
  split <;> omega

/-- An S8 element wraps its addend plus the sum of its products. -/
theorem matElementS8_eq_wrap32_sum (c : Int) (l : List (Num × Num)) :
    matElementS8 c (l.map (·.1)) (l.map (·.2)) = wrap32 true (c + (l.map (fun x => rneInt (x.1.mul x.2))).sum) := by
  have hzip : (l.map (·.1)).zip (l.map (·.2)) = l := by rw [List.zip_map', List.map_id']
  have hfold : ∀ c : Int, l.foldl (fun t x => t + rneInt (x.1.mul x.2)) c =
      c + (l.map (fun x => rneInt (x.1.mul x.2))).sum := by
    clear hzip
    induction l with
    | nil => intro c; exact (Int.add_zero c).symm
    | cons x t ih => intro c; rw [List.foldl_cons, ih, List.map_cons, List.sum_cons, Int.add_assoc]
  rw [matElementS8, hzip, hfold]

/-- A sum of integers does not depend on the order of its terms. -/
theorem sum_map_eq_of_perm {α : Type} (g : α → Int) {l l' : List α} (h : l.Perm l') : (l.map g).sum = (l'.map g).sum := by
  induction h with
  | nil => rfl
  | cons x _ ih => rw [List.map_cons, List.map_cons, List.sum_cons, List.sum_cons, ih]
  | swap x y l =>
    rw [List.map_cons, List.map_cons, List.map_cons, List.map_cons, List.sum_cons, List.sum_cons, List.sum_cons,
      List.sum_cons, Int.add_left_comm]
  | trans _ _ ih ih' => exact ih.trans ih'

/-- Settles O39: an element wraps a sum, and a sum does not depend on the order of its terms. -/
theorem integerProductsDoNotDependOnOrder : Obligations.IntegerProductsDoNotDependOnOrder := by
  intro c l l'
  simp only [matElementS8_eq_wrap32_sum]
  exact ⟨fun hp => by rw [sum_map_eq_of_perm _ hp], (wrap32_signed_range _).1, (wrap32_signed_range _).2, wrap32_congr true _⟩

/-! Codes of a floating-point format (R292). A code is its sign, its exponent field and its mantissa field. -/

/-- The significand and exponent that the fields of a finite code stand for. -/
def FloatFmt.fieldValue (f : FloatFmt) (e m : Nat) : Nat × Int :=
  if e = 0 then (m, f.minQ) else (2 ^ f.man + m, (e : Int) - 1 + f.minQ)

/-- The fields of a code. -/
theorem FloatFmt.code_fields (f : FloatFmt) {c : Nat} (h : c < 2 ^ (1 + f.expBits + f.man)) :
    c = f.withSign (c.testBit (f.expBits + f.man)) (c / 2 ^ f.man % 2 ^ f.expBits * 2 ^ f.man + c % 2 ^ f.man) := by
  have hp : 2 ^ (f.expBits + f.man) = 2 ^ f.man * 2 ^ f.expBits := by rw [Nat.add_comm, Nat.pow_add]
  have hlow : c / 2 ^ f.man % 2 ^ f.expBits * 2 ^ f.man + c % 2 ^ f.man = c % 2 ^ (f.expBits + f.man) := by
    rw [hp, Nat.mod_mul, Nat.mul_comm, Nat.add_comm]
  have hhigh : c / 2 ^ (f.expBits + f.man) < 2 := by
    rw [Nat.div_lt_iff_lt_mul (Nat.two_pow_pos _), ← Nat.pow_succ']
    rwa [Nat.add_assoc, Nat.add_comm] at h
  have hsplit := Nat.div_add_mod c (2 ^ (f.expBits + f.man))
  rw [hlow, FloatFmt.withSign, FloatFmt.signBit, Nat.testBit_eq_decide_div_mod_eq, Nat.mod_eq_of_lt hhigh]
  obtain h0 | h1 := Nat.le_one_iff_eq_zero_or_eq_one.mp (Nat.le_of_lt_succ hhigh)
  · rw [h0] at hsplit ⊢; simpa using hsplit.symm
  · rw [h1] at hsplit ⊢; simpa using hsplit.symm

/-- Fields whose code is neither an infinity nor a NaN. -/
def FloatFmt.finiteFields (f : FloatFmt) (e m : Nat) : Prop :=
  match f.top with
  | .ieee => e ≠ 2 ^ f.expBits - 1
  | .e4m3 => ¬(e = 2 ^ f.expBits - 1 ∧ m = 2 ^ f.man - 1)
  | .finite => True

/-- A code that is neither NaN nor infinity reads as the value of its fields. -/
theorem FloatFmt.decode_finite {f : FloatFmt} {c : Nat} (hn : (f.decode c).isNan = false) (hi : (f.decode c).isInf = false) :
    let e := c / 2 ^ f.man % 2 ^ f.expBits
    let m := c % 2 ^ f.man
    f.finiteFields e m ∧
      f.decode c = .fin (c.testBit (f.expBits + f.man)) (f.fieldValue e m).1 (f.fieldValue e m).2 := by
  have hvalue : ∀ (neg : Bool) (e m : Nat), (if e = 0 then Num.fin neg m f.minQ
      else .fin neg (2 ^ f.man + m) ((e : Int) - 1 + f.minQ)) = .fin neg (f.fieldValue e m).1 (f.fieldValue e m).2 := by
    intro neg e m
    unfold FloatFmt.fieldValue
    split <;> rfl
  unfold FloatFmt.decode at hn hi ⊢
  unfold FloatFmt.finiteFields
  simp only [hvalue] at hn hi ⊢
  cases ht : f.top <;> simp only [ht] at hn hi ⊢
  case finite => exact ⟨trivial, trivial⟩
  case e4m3 =>
    split at hn
    · simp [Num.isNan] at hn
    · exact ⟨‹_›, if_neg ‹_›⟩
  case ieee =>
    split at hn
    · rename_i he
      rw [if_pos he] at hi
      split at hn
      · rename_i hm; rw [if_pos hm] at hi; simp [Num.isInf] at hi
      · simp [Num.isNan] at hn
    · exact ⟨‹_›, if_neg ‹_›⟩

theorem two_pow_succ_eq_add (k : Nat) : 2 ^ (k + 1) = 2 ^ k + 2 ^ k := by
  rw [Nat.pow_succ, Nat.mul_two]

/-- A magnitude of no larger exponent lies within the finite values when the largest of them, in its units, is no smaller. -/
theorem FloatFmt.beyond_eq_false {f : FloatFmt} {n : Nat} {q : Int} (hq : q ≤ f.maxFinite.2)
    (h : n ≤ f.maxFinite.1 * 2 ^ (f.maxFinite.2 - q).toNat) : f.beyond n q = false := by
  have h' : (n : Int) ≤ f.maxFinite.1 * 2 ^ (f.maxFinite.2 - q).toNat := by exact_mod_cast h
  simpa only [FloatFmt.beyond, Num.lt, scaledInt, Int.min_eq_right hq, Int.sub_self, Int.toNat_zero, Int.pow_zero,
    Int.mul_one, Bool.false_eq_true, if_false, decide_eq_false_iff_not, Int.not_lt] using h'

section Fields

variable {f : FloatFmt} {e m : Nat} (hm : m < 2 ^ f.man)
include hm

/-- The significand of a code has one bit more than its mantissa field. -/
theorem FloatFmt.fieldValue_lt : (f.fieldValue e m).1 < 2 ^ (f.man + 1) := by
  have hpow := two_pow_succ_eq_add f.man
  unfold FloatFmt.fieldValue; split <;> simp only <;> omega

/-- A value a format holds is a multiple of its own unit: rounding leaves it (R295). -/
theorem FloatFmt.roundMag_fieldValue (mode : RoundMode) (h0 : (f.fieldValue e m).1 ≠ 0) :
    f.roundMag mode (f.fieldValue e m).1 (f.fieldValue e m).2 = f.fieldValue e m := by
  have hlt := FloatFmt.fieldValue_lt (e := e) hm
  have hq : max (floorLog2 (f.fieldValue e m).1 (f.fieldValue e m).2 - f.man) f.minQ = (f.fieldValue e m).2 := by
    have hlog : Nat.log2 (f.fieldValue e m).1 < f.man + 1 := (Nat.log2_lt h0).mpr hlt
    unfold floorLog2
    by_cases he : e = 0
    · have h2 : (f.fieldValue e m).2 = f.minQ := by rw [FloatFmt.fieldValue, if_pos he]
      omega
    · have h2 : (f.fieldValue e m).2 = (e : Int) - 1 + f.minQ := by rw [FloatFmt.fieldValue, if_neg he]
      have h1 : 2 ^ f.man ≤ (f.fieldValue e m).1 := by rw [FloatFmt.fieldValue, if_neg he]; exact Nat.le_add_right _ _
      have hge : f.man ≤ Nat.log2 (f.fieldValue e m).1 := (Nat.le_log2 h0).mpr h1
      omega
  have hunits : roundUnits mode (f.fieldValue e m).1 (f.fieldValue e m).2 (f.fieldValue e m).2 = (f.fieldValue e m).1 := by
    rw [roundUnits, if_pos (Int.le_refl _), Int.sub_self, Int.toNat_zero, Nat.pow_zero, Nat.mul_one]
  simp only [FloatFmt.roundMag, hq, hunits, ge_iff_le, if_neg (Nat.not_le.mpr hlt)]

/-- The magnitude's code is its two fields (R292). -/
theorem FloatFmt.encodeMag_fieldValue :
    f.encodeMag (f.fieldValue e m).1 (f.fieldValue e m).2 = e * 2 ^ f.man + m := by
  unfold FloatFmt.encodeMag FloatFmt.fieldValue
  by_cases he : e = 0
  · simp only [he, if_true, if_pos hm, Nat.zero_mul, Nat.zero_add]
  · have hexp : ((e : Int) - 1 + f.minQ - f.minQ + 1).toNat = e := by omega
    simp only [he, if_false, if_neg (Nat.not_lt.mpr (Nat.le_add_right _ _)), hexp, Nat.add_sub_cancel_left]

/-- A finite code's value is at most the largest one: of the largest exponent with no larger significand, or of a smaller
exponent. -/
theorem FloatFmt.fieldValue_le_maxFinite (hb : 2 ≤ f.expBits) (he : e < 2 ^ f.expBits) (hf : f.finiteFields e m) :
    (f.fieldValue e m).2 < f.maxFinite.2 ∨ (f.fieldValue e m).2 = f.maxFinite.2 ∧ (f.fieldValue e m).1 ≤ f.maxFinite.1 := by
  have htop : 2 ^ 2 ≤ 2 ^ f.expBits := Nat.pow_le_pow_right Nat.two_pos hb
  have hpow := two_pow_succ_eq_add f.man
  unfold FloatFmt.finiteFields at hf
  unfold FloatFmt.fieldValue FloatFmt.maxFinite FloatFmt.minQ
  cases ht : f.top <;> simp only [ht] at hf ⊢ <;> split <;> simp only <;> omega

/-- No finite code lies beyond the largest finite value. -/
theorem FloatFmt.beyond_fieldValue (hb : 2 ≤ f.expBits) (hman : 1 ≤ f.man) (he : e < 2 ^ f.expBits) (hf : f.finiteFields e m) :
    f.beyond (f.fieldValue e m).1 (f.fieldValue e m).2 = false := by
  have hlt := FloatFmt.fieldValue_lt (e := e) hm
  have htwice : 2 ^ (f.man + 1) ≤ 2 * f.maxFinite.1 := by
    have hp : 2 ^ 1 ≤ 2 ^ f.man := Nat.pow_le_pow_right Nat.two_pos hman
    have hpow := two_pow_succ_eq_add f.man
    unfold FloatFmt.maxFinite
    cases f.top <;> simp only <;> omega
  obtain hq | ⟨hq, hn⟩ := FloatFmt.fieldValue_le_maxFinite hm hb he hf
  · apply FloatFmt.beyond_eq_false (Int.le_of_lt hq)
    have hexp : 1 ≤ (f.maxFinite.2 - (f.fieldValue e m).2).toNat := by omega
    calc (f.fieldValue e m).1 ≤ f.maxFinite.1 * 2 ^ 1 := by omega
      _ ≤ f.maxFinite.1 * 2 ^ (f.maxFinite.2 - (f.fieldValue e m).2).toNat :=
        Nat.mul_le_mul_left _ (Nat.pow_le_pow_right Nat.two_pos hexp)
  · apply FloatFmt.beyond_eq_false (Int.le_of_eq hq)
    rw [hq, Int.sub_self, Int.toNat_zero, Nat.pow_zero, Nat.mul_one]
    exact hn

/-- The value of finite fields converts to the code of these fields, in either rounding mode and with SAT 0 or 1. -/
theorem FloatFmt.convert_fieldValue (hb : 2 ≤ f.expBits) (hman : 1 ≤ f.man) (he : e < 2 ^ f.expBits)
    (hf : f.finiteFields e m) (mode : RoundMode) (sat neg : Bool) :
    f.convert mode sat (.fin neg (f.fieldValue e m).1 (f.fieldValue e m).2) = f.withSign neg (e * 2 ^ f.man + m) := by
  have henc := FloatFmt.encodeMag_fieldValue (e := e) hm
  by_cases h0 : (f.fieldValue e m).1 = 0
  · rw [h0, FloatFmt.encodeMag, if_pos (Nat.two_pow_pos _)] at henc
    rw [FloatFmt.convert, if_pos h0, henc]
  · simp only [FloatFmt.convert, if_neg h0, FloatFmt.roundMag_fieldValue hm mode h0,
      FloatFmt.beyond_fieldValue hm hb hman he hf, Bool.false_eq_true, if_false, henc]

end Fields

/-- A finite code converts to itself. -/
theorem FloatFmt.convert_decode {f : FloatFmt} (hb : 2 ≤ f.expBits) (hman : 1 ≤ f.man) {c : Nat}
    (hc : c < 2 ^ (1 + f.expBits + f.man)) (hn : (f.decode c).isNan = false) (hi : (f.decode c).isInf = false)
    (mode : RoundMode) (sat : Bool) : f.convert mode sat (f.decode c) = c := by
  obtain ⟨hfin, hdec⟩ := FloatFmt.decode_finite hn hi
  rw [hdec, FloatFmt.convert_fieldValue (Nat.mod_lt _ (Nat.two_pow_pos _)) hb hman (Nat.mod_lt _ (Nat.two_pow_pos _)) hfin]
  exact (f.code_fields hc).symm

/-- Settles O40: a finite code converts to itself in every format of two exponent bits or more. -/
theorem floatCodesConvertToThemselves : Obligations.FloatCodesConvertToThemselves := by
  intro f hf c mode sat hc hn hi
  have hbits : ∀ f ∈ [fmtFp32, fmtFp16, fmtBf16, fmtE4m3, fmtE5m2, fmtE3m2, fmtE2m3, fmtE2m1],
      2 ≤ f.expBits ∧ 1 ≤ f.man := by decide
  exact ⟨FloatFmt.convert_decode (hbits f hf).1 (hbits f hf).2 hc hn hi mode sat, rfl⟩

end Sys2Proof.Machine

/-! PROOFS. Tile operations: the accesses of an operation, and dense and sparse matrix operations, with
MatrixOperationsOnTiles. -/

namespace Sys2Proof.Machine

/-! What these commands mean: each runs the state function of its instruction. -/

theorem exec_matrixOp (slot t : Nat) (o : MatrixOp) (s : State) :
    exec (.matrixOp slot t o) s = .next (s.matrixOp slot t o) := rfl
theorem exec_sparseMatrixOp (slot t md : Nat) (o : MatrixOp) (s : State) :
    exec (.sparseMatrixOp slot t o md) s = .next (s.sparseMatrixOp slot t o md) := rfl

/-! The accesses of an operation (R353, R360). -/

section Access

variable {s : State} {r : Run} {sp : List Span} (src : Nat) (op : TileOp) (go : State)

theorem State.access_ok (h : r.firstBad sp = .ok) : s.access r src op sp go = go.touchSpans r.slot sp := by
  rw [State.access, h]

theorem State.access_fault {st : Status} {va : Nat} (h : r.firstBad sp = .fault st va) :
    s.access r src op sp go = s.endRun r.slot st 0 (if src < 0x8000 then src else 0xFFFF) va := by
  rw [State.access, h]

theorem State.access_fill {p : Nat} (h : r.firstBad sp = .fill p) : s.access r src op sp go = s.suspendFill r.slot src op p := by
  rw [State.access, h]

theorem State.access_hostFail {va : Nat} (h : r.firstBad sp = .hostFail va) :
    s.access r src op sp go = s.holdRun r.slot 0x0A09 { source := src, op := op, vaddr := va } := by
  rw [State.access, h]

end Access

/-- Marking the pages of ranges keeps the run's slot. -/
theorem Run.touchSpans_slot (sp : List Span) (now : Nat) : ∀ r : Run,
    (sp.foldl (fun r x => r.touchRange x.1 x.2.1 x.2.2 now) r).slot = r.slot := by
  induction sp with
  | nil => exact fun _ => rfl
  | cons x t ih => exact fun r => ih _

/-- Marking the pages of a run leaves every other run. -/
theorem State.touchSpans_runAt_ne (s : State) {slot k : Nat} (sp : List Span) (hk : k ≠ slot) :
    (s.touchSpans slot sp).runAt k = s.runAt k :=
  s.runAt_updRun_ne slot k _ (Run.touchSpans_slot sp s.now) hk

/-! The checks of a matrix operation (R290, R300). -/

theorem matFault_of_no_pair {o : MatrixOp} (h : matrixPair o.fmtA o.fmtB = false) : matFault o = some 3 := by
  unfold matFault
  rw [h]
  split <;> rfl

theorem matCinFault_of_no_format {o : MatrixOp} {va f : Nat} (hc : o.c = some (va, f)) (h : arith f = none) :
    matCinFault o = some 3 := by
  simp only [matCinFault, hc, h]

/-- The dimension that an MX format does not allow. -/
theorem mxDimOk_eq_false_iff (k : ElemKind) (n : Nat) : mxDimOk k n = false ↔ k.isMx = true ∧ n % 32 ≠ 0 := by
  cases h : k.isMx <;> simp [mxDimOk, h]

/-- Formats that pair, without an addend: the fault is that of a row which is not of whole MX blocks. -/
theorem matFault_eq_four_iff {o : MatrixOp} {ka kb ko : ElemKind} (ha : arith o.fmtA = some ka) (hb : arith o.fmtB = some kb)
    (ho : arith o.fmtOut = some ko) (hp : matrixPair o.fmtA o.fmtB = true) (hm : ko.isMx = false) (hc : o.c = none) :
    matFault o = some 4 ↔ (ka.isMx = true ∨ kb.isMx = true) ∧ o.k % 32 ≠ 0 := by
  have hcin : matCinFault o = none := by simp only [matCinFault, hc]
  have hdims : (!mxDimOk ka o.k || !mxDimOk kb o.k) = true ↔ (ka.isMx = true ∨ kb.isMx = true) ∧ o.k % 32 ≠ 0 := by
    rw [Bool.or_eq_true, Bool.not_eq_true', Bool.not_eq_true', mxDimOk_eq_false_iff, mxDimOk_eq_false_iff, or_and_right]
  rw [← hdims]
  simp only [matFault, ha, hb, ho, hp, hm, hcin, Bool.not_true, Bool.or_self, Bool.false_eq_true, if_false]
  split <;> simp [*]

/-! An operation of one output tile, by its checks. -/

section Matrix

variable {s : State} {slot t : Nat} {o : MatrixOp} {r : Run} (hr : s.tileReady slot t = some r) (hs : matShape o = true)
include hr hs

theorem State.matrixOp_of_ready : s.matrixOp slot t o = s.matrixDense r t { o with meta24 := none } := by
  simp only [State.matrixOp, hr, hs, if_true, State.runTileOp]

theorem State.sparseMatrixOp_of_ready (md : Nat) :
    s.sparseMatrixOp slot t o md = s.matrixSparse r t { o with meta24 := some md } md := by
  simp only [State.sparseMatrixOp, hr, hs, if_true, State.runTileOp]

end Matrix

theorem State.matrixDense_fault {o : MatrixOp} {d : Nat} (h : matFault o = some d) (s : State) (r : Run) (t : Nat) :
    s.matrixDense r t o = s.operandFault r.slot d t := by
  simp only [State.matrixDense, h]

section Kinds

variable {o : MatrixOp} {ka kb ko : ElemKind} (hf : matFault o = none)
  (hk : elemKind o.fmtA = some ka ∧ elemKind o.fmtB = some kb ∧ elemKind o.fmtOut = some ko)
  {s : State} {r : Run} (t : Nat)
include hf hk

/-- A dense operation whose accesses are in order (R300 to R304, R310). -/
theorem State.matrixDense_ok (hok : r.firstBad (matSpans o ka kb ko) = .ok) :
    let ta := s.tensorAt r ka o.a (o.m * o.k)
    let tb := s.tensorAt r kb o.b (o.n * o.k)
    let chunks := (o.k + 31) / 32
    let skipped := chunkSkips ((List.range o.m).map (matRow ka ta o.k)) ((List.range o.n).map (matRow kb tb o.k)) chunks
    s.matrixDense r t o = State.touchSpans (s.matStore r t o ko (matValues o ka kb ta tb (s.matCin r o))
      (chunks - skipped) skipped) r.slot (matSpans o ka kb ko) := by
  obtain ⟨ha, hb, ho⟩ := hk
  simp only [State.matrixDense, hf, ha, hb, ho, State.access_ok _ _ _ hok]

section Sparse

variable {md : Nat} (h4 : o.k % 4 = 0) (hok : r.firstBad (sparseSpans o md ka kb ko) = .ok)
include h4 hok

/-- A sparse operation with an invalid metadata nibble (R308). -/
theorem State.matrixSparse_invalid_nibble
    (h : ((List.range o.n).map (sparseRowOf kb (s.vRead r o.b (sparseBytes kb o.n o.k))
      (s.vRead r md ((o.n * (o.k / 4) + 1) / 2)) o.n o.k)).any Option.isNone = true) :
    s.matrixSparse r t o md = (s.operandFault r.slot 1 t).touchSpans r.slot (sparseSpans o md ka kb ko) := by
  obtain ⟨ha, hb, ho⟩ := hk
  simp only [State.matrixSparse, hf, ha, hb, ho, h4, ne_eq, not_true_eq_false, if_false, State.access_ok _ _ _ hok, if_pos h]

/-- A sparse operation whose metadata names the kept positions (R308, R309). -/
theorem State.matrixSparse_ok :
    let bb := s.vRead r o.b (sparseBytes kb o.n o.k)
    let mm := s.vRead r md ((o.n * (o.k / 4) + 1) / 2)
    let rows := (List.range o.n).map (sparseRowOf kb bb mm o.n o.k)
    let ta := s.tensorAt r ka o.a (o.m * o.k)
    let cin := s.matCin r o
    let chunks := (o.k + 31) / 32
    let skipped := sparseSkips ((List.range o.m).map (matRow ka ta o.k)) (rows.filterMap id) chunks
    rows.any Option.isNone = false →
      s.matrixSparse r t o md = State.touchSpans (s.matStore r t o ko
        ((List.range (o.m * o.n)).map (fun x => match rows.getD (x % o.n) none with
          | some (b, sb) => sparseElement o.fmtA (cin.getD x Num.zero) (matRow ka ta o.k (x / o.n)) b sb chunks
          | none => Num.zero)) (chunks - skipped) skipped) r.slot (sparseSpans o md ka kb ko) := by
  obtain ⟨ha, hb, ho⟩ := hk
  intro bb mm rows ta cin chunks skipped h
  simp only [State.matrixSparse, hf, ha, hb, ho, h4, ne_eq, not_true_eq_false, if_false, State.access_ok _ _ _ hok]
  exact congrArg (State.touchSpans · _ _) (if_neg (ne_true_of_eq_false h))

end Sparse

end Kinds

/-- Settles O38: an operation by its checks, its accesses by the first that is not in order. -/
theorem matrixOperationsOnTiles : Obligations.MatrixOperationsOnTiles := by
  unfold Obligations.MatrixOperationsOnTiles
  refine ⟨fun s slot t o r ka kb ko hr hs hf hk hok => ?_, fun s slot t d o r hr hs hf => ?_,
    fun o => ⟨matFault_of_no_pair, fun ka kb ko ha hb ho hp hm hc => matFault_eq_four_iff ha hb ho hp hm hc,
      fun va f hc h => matCinFault_of_no_format hc h⟩,
    fun s slot t md o r ka kb ko hr hs hf hk h4 hok => ⟨fun hbad => ?_, fun hgood => ?_⟩,
    fun s r src op sp go h => ⟨State.access_ok src op go h, fun k hk => go.touchSpans_runAt_ne sp hk, rfl, rfl, rfl⟩,
    fun s r src op sp go => ⟨fun st va h => State.access_fault src op go h, fun p h => State.access_fill src op go h,
      fun va h => State.access_hostFail src op go h⟩⟩
  · rw [exec_matrixOp, State.matrixOp_of_ready hr hs]
    exact congrArg _ (State.matrixDense_ok (o := { o with meta24 := none }) hf hk t hok)
  · rw [exec_matrixOp, State.matrixOp_of_ready hr hs]
    exact congrArg _ (State.matrixDense_fault (o := { o with meta24 := none }) hf s r t)
  · rw [exec_sparseMatrixOp, State.sparseMatrixOp_of_ready hr hs]
    exact congrArg _ (State.matrixSparse_invalid_nibble (o := { o with meta24 := some md }) hf hk t h4 hok hbad)
  · rw [exec_sparseMatrixOp, State.sparseMatrixOp_of_ready hr hs]
    exact congrArg _ (State.matrixSparse_ok (o := { o with meta24 := some md }) hf hk t h4 hok hgood)

end Sys2Proof.Machine

/-! PROOFS. The vector unit: elementwise operations, reductions, special functions, conversion, routing, combination and tensor
watch, with VectorUnitOperations. -/

namespace Sys2Proof.Machine

/-! What these commands mean: each runs its operation at its tile. -/

theorem exec_vectorOp (slot t : Nat) (o : VectorOp) (s : State) :
    exec (.vectorOp slot t o) s = .next (s.tileOp slot t (.vector o)) := rfl
theorem exec_vectorReduce (slot t : Nat) (o : ReduceOp) (s : State) :
    exec (.vectorReduce slot t o) s = .next (s.tileOp slot t (.reduce o)) := rfl
theorem exec_specialFunction (slot t : Nat) (o : SpecialOp) (s : State) :
    exec (.specialFunction slot t o) s = .next (s.tileOp slot t (.special o)) := rfl
theorem exec_quantise (slot t : Nat) (o : QuantOp) (s : State) :
    exec (.quantise slot t o) s = .next (s.tileOp slot t (.quant o)) := rfl
theorem exec_route (slot t : Nat) (o : RouteOp) (s : State) :
    exec (.route slot t o) s = .next (s.tileOp slot t (.route o)) := rfl
theorem exec_combine (slot t : Nat) (o : CombineOp) (s : State) :
    exec (.combine slot t o) s = .next (s.tileOp slot t (.combine o)) := rfl
theorem exec_watch (slot t : Nat) (o : WatchOp) (s : State) :
    exec (.watch slot t o) s = .next (s.tileOp slot t (.watch o)) := rfl

/-- An operation runs at a tile that is free to issue it. -/
theorem State.tileOp_of_ready {s : State} {slot t : Nat} {r : Run} (h : s.tileReady slot t = some r) (op : TileOp) :
    s.tileOp slot t op = s.runTileOp r t op := by
  rw [State.tileOp, h]

/-- An element of a list given by its places. -/
theorem getD_map_range {α : Type} {n i : Nat} (h : i < n) (g : Nat → α) (d : α) : ((List.range n).map g).getD i d = g i := by
  rw [List.getD_eq_getElem?_getD, List.getElem?_map, List.getElem?_range h, Option.map_some, Option.getD_some]

section Operations

variable {s : State} {r : Run} (t : Nat)

/-! Elementwise operations (R305). -/

/-- The value of element i of an elementwise operation: integer arithmetic when all its operands are integers, otherwise
FP32. -/
def vecElement (o : VectorOp) (kx ky kz : ElemKind) (x y z : Num) : Num :=
  match kx, ky, kz with
  | .int _ sg, .int _ _, .int _ _ => .ofInt (vecInt o.kind sg o.sat (rneInt x) (rneInt y) (rneInt z))
  | _, _, _ => vecFloat o.kind (rne32 x) (rne32 y) (rne32 z)

/-- Operands that are no integers are operated on in FP32. -/
theorem vecElement_float (o : VectorOp) (f g h : FloatFmt) (x y z : Num) :
    vecElement o (.float f) (.float g) (.float h) x y z = vecFloat o.kind (rne32 x) (rne32 y) (rne32 z) := rfl

theorem State.vectorRun_ok {o : VectorOp} {kx ky kz ko : ElemKind} (hx : arith o.fmtX = some kx) (hy : arith o.fmtY = some ky)
    (hz : arith (if o.kind == VecKind.fma then o.fmtZ else o.fmtX) = some kz) (ho : arith o.fmtOut = some ko)
    (hd : [kx, ky, kz, ko].all (fun k => mxDimOk k o.n) = true) (hok : r.firstBad (vecSpans o kx ky kz ko) = .ok) :
    let xs := (s.tensorAt r kx o.x o.n).vals
    let ys := (s.tensorAt r ky o.y o.n).vals
    let zs := if o.kind == VecKind.fma then (s.tensorAt r kz o.z o.n).vals else []
    s.vectorRun r t o = (s.putTensor r t ko (r.rounding o.rnd) o.sat o.idxBase o.out ((List.range o.n).map (fun i =>
      vecElement o kx ky kz (xs.getD i Num.zero) (ys.getD i Num.zero) (zs.getD i Num.zero)))).touchSpans r.slot
        (vecSpans o kx ky kz ko) := by
  simp only [State.vectorRun, hx, hy, hz, ho, hd, Bool.not_true, Bool.false_eq_true, if_false, State.access_ok _ _ _ hok]
  congr 3
  funext i
  cases kx <;> cases ky <;> cases kz <;> rfl

/-! Reductions, special functions and conversions (R296, R306, R307). -/

/-- The word a reduction stores: FP32, or the low 32 bits of an integer. -/
def reduceCode (k : ElemKind) (v : Num) : Nat :=
  match k with
  | .int _ _ => ((rneInt v) % (2 : Int) ^ 32).toNat
  | _ => f32 v

theorem State.reduceRun_ok {o : ReduceOp} {k : ElemKind} (hk : arith o.fmt = some k) (hd : mxDimOk k o.n = true)
    (hok : r.firstBad [(false, o.src, tensorBytes k o.n), (true, o.out, 4)] = .ok) :
    let v := reduceValue o k (s.tensorAt r k o.src o.n).vals
    s.reduceRun r t o = State.touchSpans (((s.tileEvent r t 5 1).tileEvent r t 0x10 (bitOf v.isNan)).vWrite r.slot o.out
      (leBytes 4 (reduceCode k v))) r.slot [(false, o.src, tensorBytes k o.n), (true, o.out, 4)] := by
  simp only [State.reduceRun, hk, hd, Bool.not_true, Bool.false_eq_true, if_false, State.access_ok _ _ _ hok]
  rfl

theorem State.specialRun_ok {o : SpecialOp} (hok : r.firstBad (specialSpans o) = .ok) :
    let xs := (s.tensorAt r (.float fmtFp32) o.src o.n).vals
    let ys := if o.fn == SpecialFn.div then (s.tensorAt r (.float fmtFp32) o.src2 o.n).vals else []
    s.specialRun r t o = ((s.tileEvent r t 6 o.n).putTensor r t (.float fmtFp32) .rne false 0 o.out ((List.range o.n).map
      (fun i => specialFn o.fn (xs.getD i Num.zero) (ys.getD i Num.zero)))).touchSpans r.slot (specialSpans o) := by
  simp only [State.specialRun, State.access_ok _ _ _ hok]

theorem State.quantRun_ok {o : QuantOp} {ki ko : ElemKind} (hi : arith o.fmtIn = some ki) (ho : arith o.fmtOut = some ko)
    (hd : mxDimOk ki o.inner = true ∧ mxDimOk ko o.inner = true ∧ mxDimOk ki o.n = true ∧ mxDimOk ko o.n = true)
    (hok : r.firstBad [(false, o.src, tensorBytes ki o.n), (true, o.out, tensorBytes ko o.n)] = .ok) :
    s.quantRun r t o = (s.putTensor r t ko (r.rounding o.rnd) o.sat o.idxBase o.out (s.tensorAt r ki o.src o.n).vals).touchSpans
      r.slot [(false, o.src, tensorBytes ki o.n), (true, o.out, tensorBytes ko o.n)] := by
  obtain ⟨h1, h2, h3, h4⟩ := hd
  simp only [State.quantRun, hi, ho, h1, h2, h3, h4, Bool.not_true, Bool.or_self, Bool.false_eq_true, if_false,
    State.access_ok _ _ _ hok]

theorem State.quantRun_no_format {o : QuantOp} (h : arith o.fmtIn = none ∨ arith o.fmtOut = none) :
    s.quantRun r t o = s.operandFault r.slot 3 t := by
  unfold State.quantRun
  split
  · rename_i ki ko hi ho
    rw [hi, ho] at h
    simp at h
  · rfl

/-! Routing and the weighted combination (R311 to R313). -/

/-- The choices of every row, placed; the rows each expert took; and the number dropped. -/
def State.routePlaces (s : State) (r : Run) (o : RouteOp) : List (List Choice) × List (List Nat) × Nat :=
  placeRows o.c ((List.range o.n).map (fun i => rowChoices o.k (f32val o.tau.toNat)
    ((((s.tensorAt r (.float fmtFp32) o.g (o.n * o.e)).vals).drop (i * o.e)).take o.e))) 0 (List.replicate o.e [])

/-- ROUTE stores counts, rows, choices and the number dropped; an absent choice shows a free score. -/
theorem State.routeRun_ok {o : RouteOp} (h : 1 ≤ o.e ∧ o.e ≤ 256 ∧ 1 ≤ o.k ∧ o.k ≤ min 8 o.e ∧ 1 ≤ o.c ∧ o.c ≤ 65536)
    (hok : r.firstBad (routeSpans o) = .ok) :
    let score := (Config.freeWord s.takeFree.1).toNat
    let p := s.routePlaces r o
    s.routeRun r t o = State.touchSpans ((((List.range o.e).foldl (fun x e =>
        x.vWrite r.slot (o.rows + 4 * o.c * e) ((p.2.1.getD e []).flatMap (leBytes 4)))
      ((s.takeFree.2.tileEvent r t 5 1).vWrite r.slot o.counts (p.2.1.flatMap (fun l => leBytes 4 l.length)))).vWrite r.slot
        o.choices (p.1.flatMap (fun cs => (List.range o.k).flatMap (fun i => choiceBytes score cs[i]?)))).vWrite r.slot
          o.dropped (leBytes 4 p.2.2)) r.slot (routeSpans o) := by
  have hshape : ¬(o.e = 0 ∨ o.e > 256 ∨ o.k = 0 ∨ o.k > min 8 o.e ∨ o.c = 0 ∨ o.c > 65536) := by omega
  simp only [State.routeRun, if_neg hshape, State.access_ok _ _ _ hok]
  rfl

/-- The weight of a placed choice: read from the weights, or the choice's own score. -/
def State.combineWeight (s : State) (r : Run) (o : CombineOp) (i j : Nat) (score : Num) : Num :=
  match o.w with
  | some w => f32val (leNat (s.vRead r (w + 4 * (i * o.k + j)) 4))
  | none => score

/-- Element x of the combination: the weighted expert outputs of its row's choices, in rank order. -/
def State.combineValue (s : State) (r : Run) (o : CombineOp) (x : Nat) : Num :=
  combineElem ((readChoices (s.vRead r o.choices (12 * o.n * o.k)) o.k (x / o.d)).map (fun c =>
    (s.combineWeight r o (x / o.d) c.1 c.2.2.2,
      f32val (leNat (s.vRead r (o.y + 4 * ((c.2.1 * o.c + c.2.2.1) * o.d + x % o.d)) 4)))))

theorem State.combineRun_ok {o : CombineOp} (hok : r.firstBad (s.combineSpans r o) = .ok) :
    s.combineRun r t o = (s.putTensor r t (.float fmtFp32) .rne false 0 o.out
      ((List.range (o.n * o.d)).map (s.combineValue r o))).touchSpans r.slot (s.combineSpans r o) := by
  have hvalue : ∀ x ∈ List.range (o.n * o.d), combineElem ((((List.range o.n).map
      (readChoices (s.vRead r o.choices (12 * o.n * o.k)) o.k)).getD (x / o.d) []).map (fun c =>
        (s.combineWeight r o (x / o.d) c.1 c.2.2.2,
          f32val (leNat (s.vRead r (o.y + 4 * ((c.2.1 * o.c + c.2.2.1) * o.d + x % o.d)) 4))))) = s.combineValue r o x := by
    intro x hx
    rw [getD_map_range (Nat.div_lt_of_lt_mul (by rw [Nat.mul_comm]; exact List.mem_range.mp hx)), State.combineValue]
  rw [State.combineRun, State.access_ok _ _ _ hok, ← List.map_congr_left hvalue]
  rfl

/-! Tensor watch (R397, R398). -/

theorem State.watchRun_ok {o : WatchOp} {k : ElemKind} (hk : arith o.fmt = some k) (hd : mxDimOk k o.n = true)
    (hok : r.firstBad [(false, o.src, tensorBytes k o.n), (true, o.out, 64)] = .ok) :
    let b := s.vRead r o.src (tensorBytes k o.n)
    let w := watchRecord o.id o.fmt (readTensor k b o.n).vals (watchCodes k b o.n)
    s.watchRun r t o = (((s.tileEvent r t 0xF o.n).vWrite r.slot o.out w.1).trace 8 5 (sigTile ((r.physTile t).getD 0)) r.slot 0
      (o.id % 65536) w.2).touchSpans r.slot [(false, o.src, tensorBytes k o.n), (true, o.out, 64)] := by
  simp only [State.watchRun, hk, hd, Bool.not_true, Bool.false_eq_true, if_false, State.access_ok _ _ _ hok]

end Operations

/-- Settles O41: each operation by what it does when its accesses are in order. -/
theorem vectorUnitOperations : Obligations.VectorUnitOperations := by
  unfold Obligations.VectorUnitOperations
  refine ⟨fun s slot t o r hr hf hok => ?_, fun s r t k rnd sat base va vs => rfl,
    fun s slot t o r kx ky kz ko hr hk hd hok => ?_, fun s slot t o r k hr hk hd hok => ?_, fun s slot t o r hr hok => ?_,
    fun s slot t o r ki ko hr hk hd hok => ?_, fun s slot t o r hr h => ?_, fun s slot t o r hr h hok => ?_,
    fun s slot t o r hr hok => ?_, fun s slot t o r k hr hk hd hok => ?_⟩
  · obtain ⟨hx, hy, hz, ho⟩ := hf
    have hfmt : arith 0x10 = some (.float fmtFp32) := rfl
    rw [exec_vectorOp, State.tileOp_of_ready hr]
    have h := State.vectorRun_ok (s := s) t (hx ▸ hfmt) (hy ▸ hfmt) (by rw [hx, hz, ite_self]; exact hfmt) (ho ▸ hfmt)
      (by simp [mxDimOk, ElemKind.isMx]) hok
    simp only [vecElement_float] at h
    exact congrArg _ h
  · obtain ⟨hx, hy, hz, ho⟩ := hk
    rw [Completes, exec_vectorOp, State.tileOp_of_ready hr]
    refine ⟨_, congrArg _ (State.vectorRun_ok t hx hy hz ho hd hok), _, by simp, rfl, ?_⟩
    rintro i hi b sg b' sg' b'' sg'' rfl rfl rfl
    exact getD_map_range hi _ _
  · rw [exec_vectorReduce, State.tileOp_of_ready hr]
    exact congrArg _ (State.reduceRun_ok t hk hd hok)
  · rw [exec_specialFunction, State.tileOp_of_ready hr]
    exact congrArg _ (State.specialRun_ok t hok)
  · rw [exec_quantise, State.tileOp_of_ready hr]
    exact congrArg _ (State.quantRun_ok t hk.1 hk.2 hd hok)
  · rw [exec_quantise, State.tileOp_of_ready hr]
    exact congrArg _ (State.quantRun_no_format t h)
  · rw [Completes, exec_route, State.tileOp_of_ready hr]
    exact ⟨_, congrArg _ (State.routeRun_ok t h hok), _, _, rfl, rfl⟩
  · rw [Completes, exec_combine, State.tileOp_of_ready hr]
    refine ⟨_, congrArg _ (State.combineRun_ok t hok), _, by simp, fun x hx => ?_, rfl⟩
    exact getD_map_range hx _ _
  · rw [exec_watch, State.tileOp_of_ready hr]
    exact congrArg _ (State.watchRun_ok t hk hd hok)

end Sys2Proof.Machine

/-! PROOFS. Embedding tables: gathers, gradients, updates and write-back of rows, with EmbeddingTables. -/

namespace Sys2Proof.Machine

/-! What these commands mean: each runs the state function of its instruction. -/

theorem exec_embGather (slot e : Nat) (o : GatherOp) (s : State) :
    exec (.embGather slot e o) s = .next (s.embGather slot e o) := rfl
theorem exec_embRowReadDone (slot table row : Nat) (ok : Bool) (s : State) :
    exec (.embRowReadDone slot table row ok) s = .next (s.embRowReadDone slot table row ok) := rfl
theorem exec_embGrad (slot e : Nat) (cs : List GradContribution) (s : State) :
    exec (.embGrad slot e cs) s = .next (s.embGrad slot e cs) := rfl
theorem exec_embApply (slot e : Nat) (o : ApplyOp) (s : State) :
    exec (.embApply slot e o) s = .next (s.embApply slot e o) := rfl
theorem exec_embFlush (slot : Nat) (s : State) : exec (.embFlush slot) s = .next (s.embFlush slot) := rfl
theorem exec_embFlushDone (slot : Nat) (s : State) : exec (.embFlushDone slot) s = .next (s.embFlushDone slot) := rfl

/-- An operand fault of an engine names no tile (R290). -/
theorem State.operandFault_engine (s : State) (slot d e : Nat) :
    s.operandFault slot d (0x8000 + e) = s.endRun slot 0x090D d 0xFFFF := by
  rw [State.operandFault, if_neg (Nat.not_lt.mpr (Nat.le_add_right _ _))]

/-! Gathers (R317, R319, R320). -/

/-- The rows of the table that a gather uses, each once. -/
def gatherUsed (t : EmbTable) (idx : List Nat) : List Nat :=
  (idx.filter (fun i => decide (i < t.rows))).reverse.eraseDups.reverse

/-- The rows a gather uses that no cache holds. -/
def Run.gatherMissing (r : Run) (table : Nat) (t : EmbTable) (idx : List Nat) : List (Nat × Nat) :=
  ((gatherUsed t idx).filter (fun i => (r.cachedRow table i).isNone)).map (fun i => (table, i))

theorem mem_gatherUsed {t : EmbTable} {idx : List Nat} {i : Nat} : i ∈ gatherUsed t idx ↔ i ∈ idx ∧ i < t.rows := by
  rw [gatherUsed, List.mem_reverse, List.mem_eraseDups, List.mem_reverse, List.mem_filter, decide_eq_true_eq]

theorem Run.mem_gatherMissing {r : Run} {table : Nat} {t : EmbTable} {idx : List Nat} {x : Nat × Nat} :
    x ∈ r.gatherMissing table t idx ↔ (x.2 ∈ idx ∧ x.2 < t.rows) ∧ r.cachedRow table x.2 = none ∧ x.1 = table := by
  obtain ⟨a, i⟩ := x
  simp only [Run.gatherMissing, List.mem_map, List.mem_filter, mem_gatherUsed, Option.isNone_iff_eq_none, Prod.mk.injEq]
  constructor
  · rintro ⟨j, ⟨hj, hn⟩, rfl, rfl⟩
    exact ⟨hj, hn, rfl⟩
  · rintro ⟨hj, hn, rfl⟩
    exact ⟨i, ⟨hj, hn⟩, rfl, rfl⟩

/-- A bag of one row, summed from +0 (R319). -/
theorem poolElem_sum_single (w v : Num) : poolElem .sum [(w, v)] = rne32 (Num.zero.add v) := rfl

/-- An index without a cached row, in a gather within its table, is a missing row. -/
theorem Run.gatherMissing_ne_nil {r : Run} {table : Nat} {t : EmbTable} {idx : List Nat}
    (hall : idx.all (fun i => decide (i < t.rows)) = true) (hany : idx.any (fun i => (r.cachedRow table i).isNone) = true) :
    r.gatherMissing table t idx ≠ [] := by
  obtain ⟨i, hi, hn⟩ := List.any_eq_true.mp hany
  have hlt : i < t.rows := of_decide_eq_true (List.all_eq_true.mp hall i hi)
  exact List.ne_nil_of_mem (Run.mem_gatherMissing.mpr ⟨⟨hi, hlt⟩, Option.isNone_iff_eq_none.mp hn, rfl⟩ : (table, i) ∈ _)

/-- Indices within the table are not beyond it. -/
theorem any_ge_eq_false_of_all_lt {n : Nat} {idx : List Nat} (h : idx.all (fun i => decide (i < n)) = true) :
    idx.any (fun i => decide (i ≥ n)) = false := by
  rw [List.any_eq_false]
  intro i hi
  have hlt : i < n := of_decide_eq_true (List.all_eq_true.mp h i hi)
  rw [decide_eq_true_eq]
  exact Nat.not_le.mpr hlt

theorem State.embGather_of_ready {s : State} {slot e : Nat} {r : Run} (h : s.engineReady slot e = some r) (o : GatherOp) :
    s.embGather slot e o = s.gatherRun r (0x8000 + e) o := by
  simp only [State.embGather, h, State.runTileOp]

section Gather

variable {s : State} {r : Run} {o : GatherOp} {t : EmbTable} {ko : ElemKind} (src : Nat)

section Spans

variable (ht : r.table o.table = some t) (ho : arith o.fmtOut = some ko)
  (hok : r.firstBad (gatherSpans o t ko ((s.gatherOffsets r o).getLastD 0)) = .ok)
include ht ho hok

theorem State.gatherRun_beyond_table (hs : t.indexSkip = false)
    (hbad : (s.gatherIndices r o).any (fun i => decide (i ≥ t.rows)) = true) :
    s.gatherRun r src o = (s.operandFault r.slot 2 src).touchSpans r.slot
      (gatherSpans o t ko ((s.gatherOffsets r o).getLastD 0)) := by
  simp only [State.gatherRun, ht, ho, hs, hbad, State.access_ok _ _ _ hok, Bool.not_false, Bool.and_self, if_true]

/-- Rows that no cache holds suspend the gather, and are counted as misses. -/
theorem State.gatherRun_missing (hm : ko.isMx = false)
    (hall : (s.gatherIndices r o).all (fun i => decide (i < t.rows)) = true)
    (hmiss : r.gatherMissing o.table t (s.gatherIndices r o) ≠ []) :
    let rows := r.gatherMissing o.table t (s.gatherIndices r o)
    s.gatherRun r src o = ((s.suspendRows r.slot src (.gather o) rows).regionBump (r.engineRegion src) 1 rows.length).touchSpans
      r.slot (gatherSpans o t ko ((s.gatherOffsets r o).getLastD 0)) := by
  have hempty : (!(r.gatherMissing o.table t (s.gatherIndices r o)).isEmpty) = true := by
    rw [Bool.not_eq_true', List.isEmpty_eq_false_iff]; exact hmiss
  unfold Run.gatherMissing gatherUsed at hempty ⊢
  simp only [State.gatherRun, ht, ho, hm, any_ge_eq_false_of_all_lt hall, State.access_ok _ _ _ hok, Bool.false_and,
    Bool.false_eq_true, if_false, hempty, if_true]

end Spans

/-- A gather of one SUM bag over one cached row (R319, R320). -/
theorem State.gatherRun_one_row {i : Nat} {x : CachedRow} (ht : r.table o.table = some t)
    (ho : arith o.fmtOut = some (.float fmtFp32)) (hsum : o.mode = .sum) (hw : o.weights = none) (hb : o.bags = 1)
    (hoffs : s.gatherOffsets r o = [0, 1]) (hidx : s.gatherIndices r o = [i]) (hi : i < t.rows)
    (hx : r.cachedRow o.table i = some x)
    (hok : r.firstBad [(false, o.offsets, 8), (false, o.indices, 8), (true, o.out, 4 * t.dim)] = .ok) :
    s.gatherRun r src o = State.touchSpans (((((s.regionBump (r.engineRegion src) 0 ((t.stride + 255) / 256)).regionBump
      (r.engineRegion src) 2 0).rowInsert r.slot x)).vWrite r.slot o.out (writeTensor (.float fmtFp32) .rne o.sat 0
        ((List.range t.dim).map (fun d => rne32 (Num.zero.add ((t.values x.bytes).getD d Num.zero)))))) r.slot
      [(false, o.offsets, 8), (false, o.indices, 8), (true, o.out, 4 * t.dim)] := by
  have hbytes : tensorBytes (.float fmtFp32) t.dim = 4 * t.dim := by
    simp only [tensorBytes, ElemKind.isMx, elemBytes, ElemKind.bits, fmtFp32, Bool.false_eq_true, if_false]
    omega
  have hspans : gatherSpans o t (.float fmtFp32) 1 =
      [(false, o.offsets, 8), (false, o.indices, 8), (true, o.out, 4 * t.dim)] := by
    simp only [gatherSpans, hw, hb, hsum, reduceCtorEq, if_false, Nat.one_mul, hbytes]
    rfl
  have honce : [i].eraseDups = [i] := rfl
  have hin : ¬t.rows ≤ i := Nat.not_le.mpr hi
  simp [State.gatherRun, ht, ho, hoffs, hidx, hw, hb, hsum, hi, hin, hx, honce, hspans, State.access_ok _ _ _ hok,
    ElemKind.isMx, poolElem_sum_single]

end Gather

/-- The offsets of one bag. -/
theorem State.gatherOffsets_one_bag {o : GatherOp} (hb : o.bags = 1) (s : State) (r : Run) :
    s.gatherOffsets r o = [leNat (s.vRead r o.offsets 4), leNat (s.vRead r (o.offsets + 4) 4)] := by
  rw [State.gatherOffsets, hb]; rfl

/-- The indices of a gather of one. -/
theorem State.gatherIndices_one {s : State} {r : Run} {o : GatherOp} (h : (s.gatherOffsets r o).getLastD 0 = 1) :
    s.gatherIndices r o = [leNat (s.vRead r o.indices 8)] := by
  rw [State.gatherIndices, h]; rfl

/-! Rows read, gradients and updates (R317, R318, R321, R322). -/

section RowRead

variable {s : State} {slot table row : Nat} {r : Run} {x : Susp} {t : EmbTable} (hr : s.runAt slot = some r)
  (hx : r.susp.find? (fun x => x.rows.contains (table, row)) = some x) (ht : r.table table = some t)
include hr hx ht

theorem State.embRowReadDone_failed :
    s.embRowReadDone slot table row false = s.holdRun slot 0x0A03 { x with vaddr := row } := by
  simp only [State.embRowReadDone, hr, hx, ht, Bool.not_false, Bool.true_or, if_true]

theorem State.embRowReadDone_readable (h : s.nsReadable t.nsid (t.rowAt row) t.stride = true) :
    s.embRowReadDone slot table row true =
      (((s.countReconstructs t.nsid (t.rowAt row) t.stride).rowInsert slot
        { table := table, row := row, bytes := s.nsBytes t.nsid (t.rowAt row) t.stride, dirty := false }).updRun slot
          (fun r => { r with susp := r.susp.map (fun y => { y with rows := y.rows.filter (· != (table, row)) }) })).retryReady
            slot := by
  simp only [State.embRowReadDone, hr, hx, ht, h, Bool.not_true, Bool.or_self, Bool.false_eq_true, if_false]

end RowRead

/-- Gradients of the run's tables, each of its table's dimension, are taken. -/
theorem State.embGrad_takes {s : State} {slot e : Nat} {cs : List GradContribution} {r : Run}
    (hr : s.engineReady slot e = some r) (h : ∀ c ∈ cs, ∃ t, r.table c.table = some t ∧ c.grad.length = t.dim) :
    s.embGrad slot e cs = s.updRun slot (fun r => { r with grads := r.grads ++ cs }) := by
  unfold State.embGrad
  rw [hr]
  refine if_pos (List.all_eq_true.mpr fun c hc => ?_)
  obtain ⟨t, ht, hlen⟩ := h c hc
  simp only [ht, hlen, beq_self_eq_true]

theorem State.embApply_of_ready {s : State} {slot e : Nat} {r : Run} (h : s.engineReady slot e = some r) (o : ApplyOp) :
    s.embApply slot e o = s.applyRun r (0x8000 + e) o := by
  simp only [State.embApply, h, State.runTileOp]

/-- An apply whose rows are all in the table and cached updates each of them and consumes the table's gradients. -/
theorem State.applyRun_cached {s : State} {r : Run} {o : ApplyOp} {t : EmbTable} (src : Nat) (ht : r.table o.table = some t)
    (hopt : t.optimiser ≠ 0)
    (h : ∀ c ∈ r.grads, c.table = o.table → c.row < t.rows ∧ (r.cachedRow o.table c.row).isSome = true) :
    s.applyRun r src o = (((((r.grads.filter (fun c => c.table == o.table)).map (·.row)).eraseDups.filter
        (fun x => decide (x < t.rows))).foldl (fun x row => x.applyRow r (r.engineRegion src) t o row) s).updRun r.slot
      (fun r => { r with grads := r.grads.filter (fun c => c.table != o.table) })) := by
  have hrow : ∀ i ∈ ((r.grads.filter (fun c => c.table == o.table)).map (·.row)).eraseDups,
      i < t.rows ∧ (r.cachedRow o.table i).isSome = true := by
    intro i hi
    obtain ⟨c, hc, rfl⟩ := List.mem_map.mp (List.mem_eraseDups.mp hi)
    exact h c (List.mem_filter.mp hc).1 (beq_iff_eq.mp (List.mem_filter.mp hc).2)
  have hbeyond : (((r.grads.filter (fun c => c.table == o.table)).map (·.row)).eraseDups.any (fun x => decide (x ≥ t.rows))) =
      false := any_ge_eq_false_of_all_lt (List.all_eq_true.mpr fun i hi => decide_eq_true (hrow i hi).1)
  have hmissing : ((((r.grads.filter (fun c => c.table == o.table)).map (·.row)).eraseDups.filter
      (fun x => decide (x < t.rows))).filter (fun i => (r.cachedRow o.table i).isNone)) = [] := by
    rw [List.filter_eq_nil_iff]
    intro i hi
    rw [Option.isNone_iff_eq_none, ← ne_eq, ← Option.isSome_iff_ne_none]
    exact (hrow i (List.mem_filter.mp hi).1).2
  simp only [State.applyRun, ht, if_neg hopt, hbeyond, hmissing, Bool.false_and, Bool.false_eq_true, if_false, List.map_nil,
    List.isEmpty_nil, Bool.not_true]

theorem State.applyRow_same_step {r : Run} {t : EmbTable} {o : ApplyOp} {row : Nat} {x : CachedRow}
    (hx : r.cachedRow t.number row = some x) (h : leField x.bytes (t.stride - 4) 4 = o.step % 2 ^ 32) (s : State) (g : Nat) :
    s.applyRow r g t o row = s.regionBump g 3 1 := by
  simp only [State.applyRow, hx, h, if_true]

/-! Write-back of rows (R324). -/

theorem State.embFlush_starts {s : State} {slot : Nat} {r : Run} (hr : s.runAt slot = some r)
    (h : r.state = .running ∧ r.flush = none) :
    s.embFlush slot = s.updRun slot (fun r => { r with
      flush := some ((r.rows.filter (·.dirty)).map (fun x => (x.table, x.row))) }) := by
  obtain ⟨hstate, hflush⟩ := h
  simp only [State.embFlush, hr, hstate, hflush, ne_eq, not_true_eq_false, Option.isSome_none, Bool.false_eq_true, or_self,
    if_false]

theorem State.embFlushDone_acknowledged {s : State} {slot : Nat} {r : Run} {rows : List (Nat × Nat)}
    (hr : s.runAt slot = some r) (h : r.flush = some rows) :
    s.embFlushDone slot = (((r.rows.filter (fun x => x.dirty && rows.contains (x.table, x.row))).foldl
      (fun s x => s.rowWriteBack r x) s).updRun slot (fun r => { r with
        rows := r.rows.map (fun x => if x.dirty && rows.contains (x.table, x.row) then { x with dirty := false } else x),
        flush := none })).emit (.reply (.run slot) 0 0 [] []) := by
  simp only [State.embFlushDone, hr, h, State.reply, State.replyData]

/-- Settles O42: a gather by its indices and the cached rows, an apply by the rows with gradients, a flush by the dirty rows. -/
theorem embeddingTables : Obligations.EmbeddingTables := by
  unfold Obligations.EmbeddingTables
  refine ⟨fun s slot e o r t ko hr ht ho hs hbad hok => ?_, fun s slot e o r t ko hr ht ho hm hall hany hok => ?_,
    fun s slot e i o r t x hr ht ho hmem hx hok => ?_, fun s slot table row r x t hr hx ht => ⟨?_, fun h => ?_⟩,
    fun s slot e cs r hr h => ?_, fun s slot e o r t hr ht hopt h => ?_,
    fun s r g row t o x hx h => State.applyRow_same_step hx h s g, fun s slot r hr h => ?_, fun s slot r rows hr h => ?_⟩
  · rw [exec_embGather, State.embGather_of_ready hr, State.gatherRun_beyond_table _ ht ho hok hs hbad,
      State.operandFault_engine]
  · refine ⟨_, by rw [exec_embGather, State.embGather_of_ready hr],
      r.gatherMissing o.table t (s.gatherIndices r o), Run.gatherMissing_ne_nil hall hany, fun x hx => ?_, ?_⟩
    · obtain ⟨⟨-, hlt⟩, hnone, htable⟩ := Run.mem_gatherMissing.mp hx
      exact ⟨htable, hlt, hnone⟩
    · exact State.gatherRun_missing _ ht ho hok hm hall (Run.gatherMissing_ne_nil hall hany)
  · obtain ⟨hfmt, hsum, hw, hb⟩ := ho
    obtain ⟨h0, h1, rfl⟩ := hmem
    have hoffs : s.gatherOffsets r o = [0, 1] := by rw [State.gatherOffsets_one_bag hb, h0, h1]
    have hidx := State.gatherIndices_one (s := s) (r := r) (o := o) (by rw [hoffs]; rfl)
    rw [exec_embGather, State.embGather_of_ready hr,
      State.gatherRun_one_row _ ht (by rw [hfmt]; rfl) hsum hw hb hoffs hidx hx.1 hx.2 hok]
  · rw [exec_embRowReadDone, State.embRowReadDone_failed hr hx ht]
  · rw [exec_embRowReadDone, State.embRowReadDone_readable hr hx ht h]
  · rw [exec_embGrad, State.embGrad_takes hr h]
  · rw [exec_embApply, State.embApply_of_ready hr, State.applyRun_cached _ ht hopt h]
  · rw [exec_embFlush, State.embFlush_starts hr h]
  · rw [exec_embFlushDone, State.embFlushDone_acknowledged hr h]

end Sys2Proof.Machine

/-! PROOFS. Plates: the bytes of a plate, the checks of a load in their order, and unloading, with PlatesLoadAndUnload. -/

namespace Sys2Proof.Machine

/-! What these commands mean: each runs the state function of its instruction. -/

theorem exec_loadPlate (p : ReqPath) (src : PlateSource) (s : State) :
    exec (.loadPlate p src) s = .next (s.loadPlate p src) := rfl
theorem exec_unloadPlate (p : ReqPath) (d : Nat) (s : State) :
    exec (.unloadPlate p d) s = .next (s.unloadPlate p d) := rfl

/-! The bytes of a plate in a namespace (R336, R341). -/

/-- The length of a plate as its header gives it: a header without MAGIC is all there is to read. -/
def plateHeadLength (head : List Byte) : Nat :=
  if leField head 0 4 = 0x504C4154 then min (leField head 0x20 8) (2 ^ 32) else 256

theorem plateHeadLength_of_magic {head : List Byte} {len : Nat} (hm : leField head 0 4 = 0x504C4154)
    (hl : leField head 0x20 8 = len) (hmax : len ≤ 2 ^ 32) : plateHeadLength head = len := by
  rw [plateHeadLength, if_pos hm, hl, Nat.min_eq_left hmax]

section Media

variable {s : State} {nsid lba : Nat} {n : NsInfo} (hg : s.mediaGate = none) (hn : s.nsInfo nsid = some n)
include hg hn

theorem State.plateBytes_beyond_namespace (h : n.cap * 4 ≤ lba) : s.plateBytes (.media nsid lba) = (0x0301, []) := by
  simp only [State.plateBytes, hg, hn]
  exact if_pos h

variable (hlba : lba < n.cap * 4)
include hlba

theorem State.plateBytes_head_unreadable (h : s.nsReadable nsid (lba * 4096) 256 = false) :
    s.plateBytes (.media nsid lba) = (0x0201, []) := by
  simp only [State.plateBytes, hg, hn, ge_iff_le, Nat.not_le.mpr hlba, h, Bool.not_false, if_false, if_true]

/-- With its header read, a plate has the length of the header, within the namespace and readable throughout. -/
theorem State.plateBytes_of_head (h : s.nsReadable nsid (lba * 4096) 256 = true) {len : Nat}
    (hlen : plateHeadLength (s.nsBytes nsid (lba * 4096) 256) = len) :
    s.plateBytes (.media nsid lba) =
      if lba + (len + 4095) / 4096 > n.cap * 4 then (0x0301, [])
      else if s.nsReadable nsid (lba * 4096) len = false then (0x0201, [])
      else (0, s.nsBytes nsid (lba * 4096) len) := by
  subst hlen
  simp only [State.plateBytes, hg, hn, ge_iff_le, Nat.not_le.mpr hlba, h, Bool.not_true, Bool.false_eq_true, if_false,
    Bool.not_eq_true']
  rfl

end Media

/-! LOAD_PLATE: a load answers with the status of its checks (R341). -/

theorem State.loadPlate_unread {s : State} {src : PlateSource} (h : (s.plateBytes src).1 ≠ 0) (p : ReqPath) :
    s.loadPlate p src = s.reply p (s.plateBytes src).1 := by
  simp only [State.loadPlate, if_pos h]

theorem exec_loadPlate_of_check {s : State} {src : PlateSource} {b : List Byte} {st : Status} {u : State} (p : ReqPath)
    (h : s.plateBytes src = (0, b)) (hc : s.loadPlateCheck b = (st, u)) :
    exec (.loadPlate p src) s = .next (u.reply p st) := by
  simp only [exec_loadPlate, State.loadPlate, h, hc, ne_eq, not_true_eq_false, if_false]

/-- A plate without a graph has no text field to check. -/
theorem Text.graphOk_all (t : Text) (g : Option Graph) :
    g.all t.graphOk = match g with | some g => t.graphOk g | none => true := by
  cases g <;> rfl

section Checks

variable {s : State} {b : List Byte}

theorem State.loadPlateCheck_bad_head (h : plateHeadOk b = false) : s.loadPlateCheck b = (0x0901, s) := by
  simp only [State.loadPlateCheck, h, Bool.not_false, if_true]

theorem State.loadPlateCheck_bad_target (h1 : plateHeadOk b = true) (h : s.plateTargetOk b = false) :
    s.loadPlateCheck b = (0x0902, s) := by
  simp only [State.loadPlateCheck, h1, h, Bool.not_true, Bool.not_false, Bool.false_eq_true, if_false, if_true]

theorem State.loadPlateCheck_bad_signature (h1 : plateHeadOk b = true) (h2 : s.plateTargetOk b = true)
    (h : s.plateSigOk b = false) : s.loadPlateCheck b = (0x0903, s) := by
  simp only [State.loadPlateCheck, h1, h2, h, Bool.not_true, Bool.not_false, Bool.false_eq_true, if_false, if_true]

theorem State.loadPlateCheck_bad_table (h1 : plateHeadOk b = true) (h2 : s.plateTargetOk b = true)
    (h3 : s.plateSigOk b = true) (h : plateTableOk b = false) : s.loadPlateCheck b = (0x0901, s) := by
  simp only [State.loadPlateCheck, h1, h2, h3, h, Bool.not_true, Bool.not_false, Bool.false_eq_true, if_false, if_true]

section Intact

variable (h1 : plateHeadOk b = true) (h2 : s.plateTargetOk b = true) (h3 : s.plateSigOk b = true)
  (h4 : plateTableOk b = true)
include h1 h2 h3 h4

theorem State.loadPlateCheck_resident (h : (s.plateAt (plateDigest b)).isSome = true) : s.loadPlateCheck b = (0, s) := by
  simp only [State.loadPlateCheck, h1, h2, h3, h4, h, Bool.not_true, Bool.false_eq_true, if_false, if_true]

variable (hd : (s.plateAt (plateDigest b)).isSome = false)
include hd

theorem State.loadPlateCheck_bad_image {st : Status} (h : s.text.addImages (plateDigest b) (imageSects b) = .error st) :
    s.loadPlateCheck b = (st, s) := by
  have hdig : (plateOf b).digest = plateDigest b := rfl
  simp only [State.loadPlateCheck, h1, h2, h3, h4, hd, hdig, h, Bool.not_true, Bool.false_eq_true, if_false]

section Images

variable {t : Text} (ht : s.text.addImages (plateDigest b) (imageSects b) = .ok t)
include ht

/-- The checks after the images: the graph's text fields, the plates it names, and the room (R341). -/
theorem State.loadPlateCheck_of_images :
    s.loadPlateCheck b =
      if (plateOf b).graph.all t.graphOk = false then (0x0601, s)
      else if (plateOf b).refs.all (fun d => (s.plateAt d).isSome) = false then (0x0905, s)
      else if 256 ≤ s.mgr.plates.length ∨ 2 ^ 35 < (s.mgr.plates.foldl (fun a x => a + x.length) 0) + b.length then (0x0904, s)
      else (0, { s with text := t, mgr := { s.mgr with plates := s.mgr.plates ++ [plateOf b] } }) := by
  have hdig : (plateOf b).digest = plateDigest b := rfl
  rw [Text.graphOk_all]
  simp only [State.loadPlateCheck, h1, h2, h3, h4, hd, hdig, ht, Bool.not_true, Bool.false_eq_true, if_false,
    Bool.not_eq_true']
  rfl

theorem State.loadPlateCheck_bad_graph (h : (plateOf b).graph.all t.graphOk = false) : s.loadPlateCheck b = (0x0601, s) := by
  rw [State.loadPlateCheck_of_images h1 h2 h3 h4 hd ht, if_pos h]

variable (hgraph : (plateOf b).graph.all t.graphOk = true)
include hgraph

theorem State.loadPlateCheck_missing_ref (h : (plateOf b).refs.all (fun d => (s.plateAt d).isSome) = false) :
    s.loadPlateCheck b = (0x0905, s) := by
  rw [State.loadPlateCheck_of_images h1 h2 h3 h4 hd ht, if_neg (ne_false_of_eq_true hgraph), if_pos h]

variable (hrefs : (plateOf b).refs.all (fun d => (s.plateAt d).isSome) = true)
include hrefs

theorem State.loadPlateCheck_no_room
    (h : 256 ≤ s.mgr.plates.length ∨ 2 ^ 35 < (s.mgr.plates.foldl (fun a x => a + x.length) 0) + b.length) :
    s.loadPlateCheck b = (0x0904, s) := by
  rw [State.loadPlateCheck_of_images h1 h2 h3 h4 hd ht, if_neg (ne_false_of_eq_true hgraph),
    if_neg (ne_false_of_eq_true hrefs), if_pos h]

theorem State.loadPlateCheck_accepted
    (h : s.mgr.plates.length < 256 ∧ (s.mgr.plates.foldl (fun a x => a + x.length) 0) + b.length ≤ 2 ^ 35) :
    s.loadPlateCheck b = (0, { s with text := t, mgr := { s.mgr with plates := s.mgr.plates ++ [plateOf b] } }) := by
  have hroom := not_or.mpr ⟨Nat.not_le.mpr h.1, Nat.not_lt.mpr h.2⟩
  rw [State.loadPlateCheck_of_images h1 h2 h3 h4 hd ht, if_neg (ne_false_of_eq_true hgraph),
    if_neg (ne_false_of_eq_true hrefs), if_neg hroom]

end Images

end Intact

end Checks

/-! UNLOAD_PLATE (R342). -/

section Unload

variable {s : State} {d : Nat} (p : ReqPath)

theorem State.unloadPlate_absent (h : (s.plateAt d).isNone = true) : s.unloadPlate p d = s.reply p 0x0905 := by
  rw [State.unloadPlate, if_pos h]

theorem State.unloadPlate_in_use (hd : (s.plateAt d).isNone = false) (h : s.plateInUse d = true) :
    s.unloadPlate p d = s.reply p 0x0906 := by
  rw [State.unloadPlate, if_neg (ne_true_of_eq_false hd), if_pos h]

theorem State.unloadPlate_unused (hd : (s.plateAt d).isNone = false) (h : s.plateInUse d = false) :
    s.unloadPlate p d = State.reply { s with
      mgr := { s.mgr with plates := s.mgr.plates.filter (fun x => x.digest != d) },
      text := { s.text with vocabs := s.text.vocabs.filter (fun v => v.plate != d),
                            grammars := s.text.grammars.filter (fun g => g.plate != d) } } p 0 := by
  rw [State.unloadPlate, if_neg (ne_true_of_eq_false hd), if_neg (ne_true_of_eq_false h)]

/-- A run in its slot uses its plate. -/
theorem State.plateInUse_of_run {r : Run} (hr : r ∈ s.mgr.runs) (hp : r.plate = d) (hl : r.state ≠ .free) :
    s.plateInUse d = true := by
  have hrun : s.mgr.runs.any (fun r => r.plate == d && r.state != .free) = true :=
    List.any_eq_true.mpr ⟨r, hr, by rw [hp, beq_self_eq_true, Bool.true_and, bne_iff_ne]; exact hl⟩
  simp only [State.plateInUse, hrun, Bool.true_or]

end Unload

/-- Settles O43: a load by the first of its checks that fails, in their order; an unload by what uses the plate. -/
theorem platesLoadAndUnload : Obligations.PlatesLoadAndUnload := by
  unfold Obligations.PlatesLoadAndUnload
  refine ⟨fun s nsid lba n hg hn => ⟨fun b => rfl, State.plateBytes_beyond_namespace hg hn,
      State.plateBytes_head_unreadable hg hn, fun hlba hhead len hmax hmagic hlen => ?_⟩,
    fun s p src h => ?_, fun s p src b hb => ⟨fun h => ?_, fun h1 h => ?_, fun h1 h2 h => ?_, fun h1 h2 h3 h => ?_⟩,
    fun s p src b hb h1 h2 h3 h4 => ⟨fun h => ?_, fun hd st h => ?_, fun hd t ht h => ?_,
      fun hd t ht hgraph => ⟨fun h => ?_, fun hrefs => ⟨fun h => ?_, fun h => ?_⟩⟩⟩,
    fun s p d => ⟨fun h => ?_, fun hd h => ?_, fun hd h => ?_, fun ⟨r, hr, hp, hl⟩ => State.plateInUse_of_run hr hp hl⟩⟩
  · rw [State.plateBytes_of_head hg hn hlba hhead (plateHeadLength_of_magic hmagic hlen hmax)]
    refine ⟨fun h => if_pos h, fun h hr => ?_, fun h hr => ?_⟩
    · rw [if_neg (Nat.not_lt.mpr h), if_pos hr]
    · rw [if_neg (Nat.not_lt.mpr h), if_neg (ne_false_of_eq_true hr)]
  · rw [exec_loadPlate, State.loadPlate_unread h]
  · exact exec_loadPlate_of_check p hb (State.loadPlateCheck_bad_head h)
  · exact exec_loadPlate_of_check p hb (State.loadPlateCheck_bad_target h1 h)
  · exact exec_loadPlate_of_check p hb (State.loadPlateCheck_bad_signature h1 h2 h)
  · exact exec_loadPlate_of_check p hb (State.loadPlateCheck_bad_table h1 h2 h3 h)
  · exact exec_loadPlate_of_check p hb (State.loadPlateCheck_resident h1 h2 h3 h4 h)
  · exact exec_loadPlate_of_check p hb (State.loadPlateCheck_bad_image h1 h2 h3 h4 hd h)
  · exact exec_loadPlate_of_check p hb (State.loadPlateCheck_bad_graph h1 h2 h3 h4 hd ht ((t.graphOk_all _).trans h))
  · exact exec_loadPlate_of_check p hb (State.loadPlateCheck_missing_ref h1 h2 h3 h4 hd ht ((t.graphOk_all _).trans hgraph) h)
  · exact exec_loadPlate_of_check p hb (State.loadPlateCheck_no_room h1 h2 h3 h4 hd ht ((t.graphOk_all _).trans hgraph) hrefs h)
  · exact exec_loadPlate_of_check p hb (State.loadPlateCheck_accepted h1 h2 h3 h4 hd ht ((t.graphOk_all _).trans hgraph) hrefs h)
  · rw [exec_unloadPlate, State.unloadPlate_absent p h]
  · rw [exec_unloadPlate, State.unloadPlate_in_use p hd h]
  · rw [exec_unloadPlate, State.unloadPlate_unused p hd h]

end Sys2Proof.Machine

/-! PROOFS. Runs: the end of loading, STOP, the cleanup, and the head of the waiting list, with RunsLoadEndAndLeave. -/

namespace Sys2Proof.Machine

/-! What these commands mean: each runs the state function of its instruction. -/

theorem exec_runLoaded (slot : Nat) (bad : Option Nat) (s : State) :
    exec (.runLoaded slot bad) s = .next (s.runLoaded slot bad) := rfl
theorem exec_plateEnd (slot : Nat) (s : State) : exec (.plateEnd slot) s = .next (s.plateEnd slot) := rfl
theorem exec_stop (p : ReqPath) (slot : Nat) (s : State) : exec (.stop p slot) s = .next (s.stop p slot) := rfl
theorem exec_runCleanupDone (slot : Nat) (s : State) :
    exec (.runCleanupDone slot) s = .next (s.runCleanupDone slot) := rfl
theorem exec_runDequeue (s : State) : exec .runDequeue s = .next s.runDequeue := rfl

/-! The weights of a plate, read in their order (R347). -/

section Weights

variable {s : State} {bad : Option Nat} {i : Nat} {w : WeightRef} {rest : List WeightRef}

theorem State.weightsFault_unreadable
    (h : bad = some i ∨ s.nsInfo w.nsid = none ∨ s.nsReadable w.nsid (w.lba * 4096) w.length = false) :
    s.weightsFault bad i (w :: rest) = some 0x0A03 := by
  rw [← Option.isNone_iff_eq_none, ← Bool.not_eq_true'] at h
  rw [State.weightsFault, if_pos h]

/-- A weight that is read decides by its hash: another one ends the loading, its own leaves the rest to be read. -/
theorem State.weightsFault_readable
    (h : bad ≠ some i ∧ (s.nsInfo w.nsid).isSome = true ∧ s.nsReadable w.nsid (w.lba * 4096) w.length = true) :
    s.weightsFault bad i (w :: rest) =
      if sha384 (s.nsBytes w.nsid (w.lba * 4096) w.length) ≠ w.hash then some 0x0910
      else s.weightsFault bad (i + 1) rest := by
  obtain ⟨hbad, hns, hread⟩ := h
  have hnone : (s.nsInfo w.nsid).isNone = false := Option.isNone_eq_false_iff.mpr hns
  simp only [State.weightsFault, hbad, hnone, hread, Bool.not_true, Bool.false_eq_true, or_self, if_false]

end Weights

/-! RUN_LOADED (R347). -/

section Loaded

variable {s : State} {slot : Nat} {bad : Option Nat} {r : Run} {pl : Plate} (hr : s.runAt slot = some r)
  (hstate : r.state = .starting) (hawake : r.regions.any (fun g => s.power.doze.getLsbD g) = false)
  (hpl : s.plateAt r.plate = some pl)
include hr hstate hawake hpl

theorem State.runLoaded_weights_ok (h : s.weightsFault bad 0 pl.weights = none) :
    s.runLoaded slot bad =
      ((pl.weights.foldl (fun s w => s.countReconstructs w.nsid (w.lba * 4096) w.length) s).updRun
        slot (fun x => { x with mem := s.loadMem r pl })).runState slot .running := by
  simp only [State.runLoaded, hr, hstate, hawake, hpl, h, ne_eq, not_true_eq_false, Bool.false_eq_true, or_self, if_false]

theorem State.runLoaded_weights_fault {st : Status} (h : s.weightsFault bad 0 pl.weights = some st) :
    s.runLoaded slot bad = s.endRun slot st := by
  simp only [State.runLoaded, hr, hstate, hawake, hpl, h, ne_eq, not_true_eq_false, Bool.false_eq_true, or_self, if_false]

end Loaded

/-! The end of a plate, STOP, and the cleanup (R346, R348, R349). -/

section Ends

variable {s : State} {slot : Nat} {r : Run} (hr : s.runAt slot = some r)
include hr

theorem State.plateEnd_running (h : r.state = .running) : s.plateEnd slot = s.endRun slot 0 := by
  simp only [State.plateEnd, hr, h, if_true]

theorem State.liveRun_of_free (h : r.state = .free) : s.liveRun slot = none := by
  simp only [State.liveRun, hr, h, if_true]

theorem State.liveRun_of_not_free (h : r.state ≠ .free) : s.liveRun slot = some r := by
  simp only [State.liveRun, hr, if_neg h]

theorem State.stop_free_or_ending (p : ReqPath) (h : r.state = .free ∨ r.state = .ending) :
    s.stop p slot = s.reply p 0x0911 := by
  rcases h with hfree | hending
  · simp only [State.stop, State.liveRun_of_free hr hfree]
  · have hlive : r.state ≠ .free := by rw [hending]; decide
    simp only [State.stop, State.liveRun_of_not_free hr hlive, hending, if_true]

theorem State.stop_queued (p : ReqPath) (h : r.state = .queued) :
    s.stop p slot = ((s.updRun slot (fun r => { r with status := 0x090E })).freeRun slot).reply p 0 := by
  have hlive : r.state ≠ .free := by rw [h]; decide
  simp only [State.stop, State.liveRun_of_not_free hr hlive, h, reduceCtorEq, if_false, if_true]

theorem State.stop_ends_run (p : ReqPath) (h : r.state ≠ .free ∧ r.state ≠ .ending ∧ r.state ≠ .queued) :
    s.stop p slot = (s.endRun slot 0x090E).reply p 0 := by
  obtain ⟨hlive, hending, hqueued⟩ := h
  simp only [State.stop, State.liveRun_of_not_free hr hlive, if_neg hending, if_neg hqueued]

theorem State.runCleanupDone_ending (h : r.state = .ending) :
    s.runCleanupDone slot = (((r.pages.filter (fun p => p.dirty && p.resident)).map (·.va)).foldl
      (fun s p => s.pageWriteBack r p) s).freeRun slot := by
  simp only [State.runCleanupDone, hr, h, ne_eq, not_true_eq_false, if_false]

end Ends

/-! The head of the waiting list (R350). -/

section Dequeue

variable {s : State} {h : Run} {rest : List Run} (hw : s.waitList = h :: rest)
include hw

theorem State.runDequeue_fits {regs : List Nat} (hp : s.pickRegions h.regionMask (s.runRegions h) = some regs) :
    s.runDequeue = s.grant h.slot regs (if h.state = .queued then .starting else .resuming) := by
  simp only [State.runDequeue, hw, hp]

theorem State.runDequeue_waits (hp : s.pickRegions h.regionMask (s.runRegions h) = none) :
    s.runDequeue = s.schedulePreempt := by
  simp only [State.runDequeue, hw, hp]

end Dequeue

/-- Settles O45: RUN_LOADED by the weights in their order, STOP by the run's state, the rest by its one case each. -/
theorem runsLoadEndAndLeave : Obligations.RunsLoadEndAndLeave := by
  unfold Obligations.RunsLoadEndAndLeave
  refine ⟨fun s slot bad r pl hr hstate hawake hpl => ⟨fun h => ?_, fun st h => ?_, fun h => ?_, fun w rest hws => ?_⟩,
    fun s slot r hr h => ?_, fun s p slot r hr => ⟨fun h => ?_, fun h => ?_, fun h => ?_⟩, fun s slot r hr h => ?_,
    fun s h rest hw => ⟨fun regs hp => ?_, fun hp => ?_⟩⟩
  · rw [exec_runLoaded, State.runLoaded_weights_ok hr hstate hawake hpl h]
  · rw [exec_runLoaded, State.runLoaded_weights_fault hr hstate hawake hpl h]
  · rw [h, State.weightsFault]
  · rw [hws]
    refine ⟨State.weightsFault_unreadable, fun hread => ?_⟩
    rw [State.weightsFault_readable hread]
    exact ⟨fun hhash => if_pos hhash, fun hhash => if_neg (not_not_intro hhash)⟩
  · rw [exec_plateEnd, State.plateEnd_running hr h]
  · rw [exec_stop, State.stop_free_or_ending hr p h]
  · rw [exec_stop, State.stop_queued hr p h]
  · rw [exec_stop, State.stop_ends_run hr p h]
  · rw [exec_runCleanupDone, State.runCleanupDone_ending hr h]
  · rw [exec_runDequeue, State.runDequeue_fits hw hp]
  · rw [exec_runDequeue, State.runDequeue_waits hw hp]

end Sys2Proof.Machine

/-! PROOFS. Tile DMA and page fills: how a descriptor is issued, carried out and completed, and how a fill ends, with
TileDmaAndPageFills. -/

namespace Sys2Proof.Machine

/-! What these commands mean: each runs the state function of its instruction. -/

theorem exec_dmaCopy (slot t desc : Nat) (s : State) : exec (.dmaCopy slot t desc) s = .next (s.dmaIssue slot t desc 1) := rfl
theorem exec_dmaFill (slot t desc : Nat) (s : State) : exec (.dmaFill slot t desc) s = .next (s.dmaIssue slot t desc 2) := rfl
theorem exec_dmaEngine (slot t desc : Nat) (s : State) :
    exec (.dmaEngine slot t desc) s = .next (s.dmaIssue slot t desc 3) := rfl
theorem exec_dmaDescriptorDone (slot t : Nat) (s : State) :
    exec (.dmaDescriptorDone slot t) s = .next (s.dmaDescriptorDone slot t) := rfl
theorem exec_fillDone (slot page : Nat) (ok : Bool) (s : State) :
    exec (.fillDone slot page ok) s = .next (s.fillDone slot page ok) := rfl

/-! The issue of a descriptor (R357, R359). -/

/-- The queue's entry of a descriptor that is issued. -/
def DmaJob.issued (desc : Nat) (d : DmaDesc) : DmaJob :=
  { desc := desc, isLast := d.flags.testBit 0, signal := d.flags.testBit 1, sync := d.sync, done := false }

/-- A tile's state with a descriptor of its run queued. -/
def State.dmaQueued (s : State) (r : Run) (p desc : Nat) : TileState :=
  { s.tile p with dma := (s.tile p).dma ++ [DmaJob.issued desc (dmaDesc (s.vRead r desc 64))] }

section Issue

variable {s : State} {slot t desc p op : Nat} {r : Run} (hr : s.runAt slot = some r) (hp : r.physTile t = some p)
  (hstate : r.state = .running) (hsusp : r.suspended (0x4000 + t) = false) (hheld : s.tileUnitHeld p 2 = false)
include hr hp hstate hsusp hheld

/-- A tile's DMA that is free takes a descriptor unless it is a valid one of another operation. -/
theorem State.dmaIssue_takes
    (h : ¬(r.check false desc 64 = .ok ∧ (dmaDesc (s.vRead r desc 64)).ok = true ∧ (dmaDesc (s.vRead r desc 64)).op ≠ op)) :
    s.dmaIssue slot t desc op = (s.setTile p (s.dmaQueued r p desc)).dmaGo r t desc 0 0 0 := by
  simp only [State.dmaIssue, hr, hp, hstate, hsusp, hheld, ne_eq, not_true_eq_false, Bool.false_eq_true, or_self, if_false]
  exact if_neg h

theorem State.dmaIssue_own_op (h : (dmaDesc (s.vRead r desc 64)).op = op) :
    s.dmaIssue slot t desc op = (s.setTile p (s.dmaQueued r p desc)).dmaGo r t desc 0 0 0 :=
  State.dmaIssue_takes hr hp hstate hsusp hheld fun ⟨_, _, hne⟩ => hne h

theorem State.dmaIssue_invalid (hc : r.check false desc 64 = .ok) (h : (dmaDesc (s.vRead r desc 64)).ok = false) :
    s.dmaIssue slot t desc op = (s.setTile p (s.dmaQueued r p desc)).endRun r.slot 0x0A05 0 t desc := by
  rw [State.dmaIssue_takes hr hp hstate hsusp hheld fun ⟨_, hok, _⟩ => ne_true_of_eq_false h hok]
  simp only [State.dmaGo, hc, State.vRead_setTile, h, Bool.not_false, if_true]

end Issue

/-! An ENGINE descriptor (R358, R359). -/

section Engine

variable {s : State} {r : Run} {d : DmaDesc} (hc : r.check false d.src 64 = .ok) (t desc : Nat)
include hc

theorem State.dmaEngine_without_state
    (h : (jobDesc (s.vRead r d.src 64)).op = 1 ∧ (jobDesc (s.vRead r d.src 64)).stateAddr = 0) :
    s.dmaEngine r t desc d = s.endRun r.slot 0x0A05 0 t desc := by
  simp only [State.dmaEngine, hc, if_pos h]

theorem State.dmaEngine_submits
    (h : ¬((jobDesc (s.vRead r d.src 64)).op = 1 ∧ (jobDesc (s.vRead r d.src 64)).stateAddr = 0)) :
    s.dmaEngine r t desc d = { s with cmp := { s.cmp with
      queue := s.cmp.queue ++ [.run (.run r.slot t desc) (jobDesc (s.vRead r d.src 64)) false] } } := by
  simp only [State.dmaEngine, hc, if_neg h]

end Engine

/-! One unit of a COPY (R358). -/

/-- `u` is `s` up to the states of the tiles' units, where events are counted. -/
def State.TileStatesOnly (s u : State) : Prop := ∃ tl, u = { s with field := { s.field with tiles := tl } }

theorem State.TileStatesOnly.refl (s : State) : s.TileStatesOnly s := ⟨_, rfl⟩

theorem State.TileStatesOnly.trans {s u v : State} (h : s.TileStatesOnly u) (h' : u.TileStatesOnly v) : s.TileStatesOnly v := by
  obtain ⟨_, rfl⟩ := h
  obtain ⟨_, rfl⟩ := h'
  exact ⟨_, rfl⟩

theorem State.tileStatesOnly_tileEvent (s : State) (r : Run) (t c n : Nat) : s.TileStatesOnly (s.tileEvent r t c n) := by
  unfold State.tileEvent
  split
  · exact .refl s
  · split
    · exact .refl s
    · exact ⟨_, rfl⟩

theorem State.tileStatesOnly_ite {s u : State} (h : s.TileStatesOnly u) (c : Prop) [Decidable c] :
    s.TileStatesOnly (if c then u else s) := by
  split
  · exact h
  · exact .refl s

/-- The stores, the host's memory and the runs stay. -/
theorem State.TileStatesOnly.frame {s u : State} (h : s.TileStatesOnly u) :
    u.field.tileMem = s.field.tileMem ∧ u.field.regionMem = s.field.regionMem ∧ u.hostMem = s.hostMem ∧ u.mgr = s.mgr := by
  obtain ⟨_, rfl⟩ := h
  exact ⟨rfl, rfl, rfl, rfl⟩

/-- A row of at most 4,096 bytes is one unit: its bytes are read and written, its pages marked, its events counted (R358). -/
theorem State.dmaUnits_copy_row {s : State} {slot : Nat} {d : DmaDesc} {r : Run} (hr : s.runAt slot = some r) (t desc n : Nat)
    (hop : d.op = 1) (hmax : d.count0 ≤ 4096) (hrows : d.count1 = 1) (hplanes : d.count2 = 1)
    {src dst : Nat} (hsrc : vaOf (dmaRow d.src d.srcStride1 d.srcStride2 0 0) = src)
    (hdst : vaOf (dmaRow d.dst d.dstStride1 d.dstStride2 0 0) = dst)
    (hok : (r.check false src d.count0).then (r.check true dst d.count0) = .ok) :
    ∃ v : State, s.dmaUnits slot t desc d 0 0 0 (n + 1) = v.dmaUnits slot t desc d 1 0 0 n ∧
      ((s.vWrite slot dst (s.vRead r src d.count0)).touchSpans slot [(false, src, d.count0)]).TileStatesOnly v := by
  have hlen : min 4096 d.count0 = d.count0 := Nat.min_eq_right hmax
  rw [State.dmaUnits]
  simp only [hr, hplanes, hrows, hop, hsrc, hdst, hok, hlen, Nat.sub_zero, Nat.add_zero, Nat.zero_add, ge_iff_le,
    Nat.lt_irrefl, true_and, if_true, if_false]
  refine ⟨_, rfl, ?_⟩
  exact (State.tileStatesOnly_ite (State.tileStatesOnly_tileEvent ..) _).trans
    (State.tileStatesOnly_ite (State.tileStatesOnly_tileEvent ..) _)

/-! The end of a descriptor (R358). -/

/-- The counters of a run do not depend on the state of the tiles' units. -/
@[simp] theorem State.setTile_runCounter (s : State) (p : Nat) (x : TileState) (r : Run) (c : Nat) :
    (s.setTile p x).runCounter r c = s.runCounter r c := rfl

section Done

variable {s : State} {slot t p : Nat} {r : Run} {j : DmaJob} {rest : List DmaJob} (hr : s.runAt slot = some r)
  (hp : r.physTile t = some p) (hq : (s.tile p).dma = j :: rest) (hdone : j.done = true) (hstate : r.state = .running)
include hr hp hq hdone hstate

theorem State.dmaDescriptorDone_silent (h : j.signal = false) :
    s.dmaDescriptorDone slot t = s.setTile p { s.tile p with dma := rest } := by
  simp only [State.dmaDescriptorDone, hr, hp, hq, hdone, hstate, h, Bool.not_true, Bool.not_false, Bool.false_eq_true, ne_eq,
    not_true_eq_false, or_self, if_false, if_true]

theorem State.dmaDescriptorDone_signals (h : j.signal = true) {n : Nat} (hn : s.runCounter r j.sync = some n) :
    s.dmaDescriptorDone slot t =
      ((s.setTile p { s.tile p with dma := rest }).counterAdd n 1 (0x2000 + p) 0 t).2 := by
  simp only [State.dmaDescriptorDone, hr, hp, hq, hdone, hstate, h, State.setTile_runCounter, hn, Bool.not_true,
    Bool.false_eq_true, ne_eq, not_true_eq_false, or_self, if_false, sigDma]

theorem State.dmaDescriptorDone_no_counter (h : j.signal = true) (hn : s.runCounter r j.sync = none) :
    s.dmaDescriptorDone slot t = (s.setTile p { s.tile p with dma := rest }).endRun slot 0x0B03 j.sync t := by
  simp only [State.dmaDescriptorDone, hr, hp, hq, hdone, hstate, h, State.setTile_runCounter, hn, Bool.not_true,
    Bool.false_eq_true, ne_eq, not_true_eq_false, or_self, if_false]

end Done

/-! The end of a page fill (R356, R361, R362). -/

/-- A filled page is in its run: the fill is counted, and the operations that waited for it wait no more. -/
def Run.filled (r : Run) (page : Nat) : Run :=
  { r with
    fills := (satBump 32 r.fills 1 (r.ovf.getLsbD 0)).1, ovf := setBit r.ovf 0 (satBump 32 r.fills 1 (r.ovf.getLsbD 0)).2,
    susp := r.susp.map (fun x => if x.page == some page then { x with page := none } else x) }

section Fill

variable {s : State} {slot page : Nat} {r : Run} {m : Mapping} (hr : s.runAt slot = some r)
  (hfill : r.filling.contains page = true) (hstate : r.state = .running) (hm : r.mapping page = some m)
include hr hfill hstate hm

theorem State.fillDone_failed : s.fillDone slot page false = s.fillFails r page 0x0A03 := by
  simp only [State.fillDone, hr, hfill, hstate, hm, Bool.not_true, Bool.not_false, Bool.false_eq_true, reduceCtorEq, or_self,
    Bool.true_or, if_false, if_true]

variable (hread : s.nsReadable m.nsid (m.lba * 4096 + (page - m.vaddr)) 65536 = true)
include hread

theorem State.fillDone_with_room (h : r.residentPages < r.frameRoom) :
    s.fillDone slot page true = ((s.placePage slot page).updRun slot (fun r => r.filled page)).retryAll slot := by
  have hroom : decide (r.frameRoom ≤ r.residentPages) = false := decide_eq_false (Nat.not_le.mpr h)
  simp only [State.fillDone, hr, hfill, hstate, hm, hread, hroom, ge_iff_le, Bool.not_true, Bool.or_self, Bool.false_eq_true,
    reduceCtorEq, or_self, if_false]
  rfl

theorem State.fillDone_no_frame (h : r.frameRoom ≤ r.residentPages ∧ r.victim = none) :
    s.fillDone slot page true = s.fillFails r page 0x0A04 := by
  obtain ⟨hroom, hvictim⟩ := h
  simp only [State.fillDone, hr, hfill, hstate, hm, hread, hvictim, ge_iff_le, decide_eq_true hroom, Bool.not_true, Bool.or_self,
    Bool.false_eq_true, reduceCtorEq, or_self, if_false]

end Fill

/-- Settles O47: a descriptor by its operation and validity, its completion by its signal, a fill by the run's room. -/
theorem tileDmaAndPageFills : Obligations.TileDmaAndPageFills := by
  unfold Obligations.TileDmaAndPageFills
  refine ⟨fun s slot t desc p r hr hp hstate hsusp hheld _ _ => ⟨fun h => ?_, fun h => ?_, fun h => ?_⟩,
    fun s slot t desc p r hr hp hstate hsusp hheld hc h => ⟨_, exec_dmaCopy .., s.dmaQueued r p desc, ?_⟩,
    fun s r t desc d hc => ⟨State.dmaEngine_without_state hc t desc, State.dmaEngine_submits hc t desc⟩,
    fun s slot t desc n p d r hr _ hd hok => ?_,
    fun s slot t p r j rest hr hp hq hdone hstate => ⟨fun h => ?_, fun h n hn => ?_, fun h hn => ?_⟩,
    fun s slot page r m hr hfill hstate hm hread h => ⟨⟨_, exec_fillDone .., _, ?_, rfl⟩, ?_⟩,
    fun s slot page r m hr hfill hstate hm hread h => ?_⟩
  · rw [exec_dmaCopy, State.dmaIssue_own_op hr hp hstate hsusp hheld h]; rfl
  · rw [exec_dmaFill, State.dmaIssue_own_op hr hp hstate hsusp hheld h]; rfl
  · rw [exec_dmaEngine, State.dmaIssue_own_op hr hp hstate hsusp hheld h]; rfl
  · exact State.dmaIssue_invalid hr hp hstate hsusp hheld hc h
  · obtain ⟨hop, -, hmax, hrows, hplanes⟩ := hd
    obtain ⟨v, hv, hframe⟩ := State.dmaUnits_copy_row hr t desc (n + 1) hop hmax hrows hplanes rfl rfl hok
    exact ⟨v, hv, hframe.frame⟩
  · rw [exec_dmaDescriptorDone, State.dmaDescriptorDone_silent hr hp hq hdone hstate h]
  · rw [exec_dmaDescriptorDone, State.dmaDescriptorDone_signals hr hp hq hdone hstate h hn]
  · rw [exec_dmaDescriptorDone, State.dmaDescriptorDone_no_counter hr hp hq hdone hstate h hn]
  · exact State.fillDone_with_room hr hfill hstate hm hread h
  · rw [exec_fillDone, State.fillDone_failed hr hfill hstate hm]
  · rw [exec_fillDone, State.fillDone_no_frame hr hfill hstate hm hread h]

end Sys2Proof.Machine

/-! PROOFS. Sync counters: the waiters that go on after a rise, the operations of a run on the counters it names, barriers and their
release, and the debug view, with WaitersAreServedInOrder, CountersAreOperated and BarriersRelease. -/

namespace Sys2Proof.Machine

/-! What these commands mean: each runs the state function of its instruction. -/

theorem exec_syncAdd (c : CtrName) (i : SyncIssuer) (n : Nat) (s : State) : exec (.syncAdd c i n) s = .next (s.syncAdd c i n) := rfl
theorem exec_syncSub (slot t k n : Nat) (s : State) : exec (.syncSub slot t k n) s = .next (s.syncSub slot t k n) := rfl
theorem exec_syncWaitGe (slot : Nat) (i : SyncIssuer) (k v : Nat) (s : State) :
    exec (.syncWaitGe slot i k v) s = .next (s.syncWaitGe slot i k v) := rfl
theorem exec_syncWaitSub (slot t k n : Nat) (s : State) : exec (.syncWaitSub slot t k n) s = .next (s.syncWaitSub slot t k n) := rfl
theorem exec_syncArrive (slot t k : Nat) (g : Option Nat) (s : State) :
    exec (.syncArrive slot t k g) s = .next (s.syncArrive slot t k g) := rfl
theorem exec_syncRead (slot t k : Nat) (s : State) : exec (.syncRead slot t k) s = .next (s.syncRead slot t k) := rfl
theorem exec_syncAlloc (c : CtrName) (t : Nat) (remote : Bool) (pick : Nat) (s : State) :
    exec (.syncAlloc c t remote pick) s = .next (s.syncAlloc c t remote pick) := rfl
theorem exec_syncFree (slot t b : Nat) (s : State) : exec (.syncFree slot t b) s = .next (s.syncFree slot t b) := rfl
theorem exec_syncConfig (slot t k : Nat) (barrier : Bool) (parties : Nat) (pairs : List (Nat × Nat)) (s : State) :
    exec (.syncConfig slot t k barrier parties pairs) s = .next (s.syncConfig slot t k barrier parties pairs) := rfl
theorem exec_barrierRelease (p : Nat) (s : State) : exec (.barrierRelease p) s = .next (s.barrierRelease p) := rfl
theorem exec_synSwSignal (b : BusPath) (v : Word) (s : State) : exec (.synSwSignal b v) s = .next (s.synSwSignal b v) := rfl
theorem exec_synDbgSelWrite (v : Word) (s : State) : exec (.synDbgSelWrite v) s = .next (s.synDbgSelWrite v) := rfl

/-! A change of a counter's value (R386). -/

section Step

variable (c : Counter) (v who d now : Nat)

@[simp] theorem Counter.step_value : (c.step v who d now).value = v := rfl
@[simp] theorem Counter.step_seq : (c.step v who d now).seq = (c.seq + 1) % 2 ^ 32 := rfl
@[simp] theorem Counter.step_signaller : (c.step v who d now).signaller = who := rfl
@[simp] theorem Counter.step_device : (c.step v who d now).device = if who / 4096 = 6 then d else c.device := rfl
@[simp] theorem Counter.step_gen : (c.step v who d now).gen = c.gen := rfl
@[simp] theorem Counter.step_barrier : (c.step v who d now).barrier = c.barrier := rfl
@[simp] theorem Counter.step_owner : (c.step v who d now).owner = c.owner := rfl
@[simp] theorem Counter.step_waiters : (c.step v who d now).waiters = c.waiters := rfl

end Step

/-! The waiters of a counter (R377). -/

/-- The waiter does not go on at this value; a wait for a release goes on at none. -/
def Waiter.heldAt (w : Waiter) (value : Nat) : Prop :=
  match w.what with
  | .ge v => value < v
  | .sub n => value < n
  | .release _ => True

theorem Waiter.heldAt_of_le {w : Waiter} {a b : Nat} (hab : a ≤ b) (h : w.heldAt b) : w.heldAt a := by
  unfold Waiter.heldAt at h ⊢
  split at h
  · exact Nat.lt_of_le_of_lt hab h
  · exact Nat.lt_of_le_of_lt hab h
  · trivial

/-- The first waiter stays, and the rest see the counter as it is; or it goes on, and the rest see a value that is no higher. -/
theorem wakeWaiters_cons (now : Nat) (w : Waiter) (ws : List Waiter) (c : Counter) :
    (w.heldAt c.value ∧ wakeWaiters now (w :: ws) c = (w :: (wakeWaiters now ws c).1, (wakeWaiters now ws c).2)) ∨
    ∃ c' : Counter, (c'.value ≤ c.value ∧ c'.barrier = c.barrier ∧ c'.owner = c.owner) ∧
      wakeWaiters now (w :: ws) c = wakeWaiters now ws c' := by
  unfold Waiter.heldAt
  cases hw : w.what with
  | ge v =>
    by_cases h : c.value ≥ v
    · exact .inr ⟨c, ⟨Nat.le_refl _, rfl, rfl⟩, by simp only [wakeWaiters, hw, if_pos h]⟩
    · exact .inl ⟨Nat.not_le.mp h, by simp only [wakeWaiters, hw, if_neg h]⟩
  | sub n =>
    by_cases h : c.value ≥ n
    · exact .inr ⟨c.step (c.value - n) w.who 0 now, ⟨Nat.sub_le _ _, rfl, rfl⟩, by simp only [wakeWaiters, hw, if_pos h]⟩
    · exact .inl ⟨Nat.not_le.mp h, by simp only [wakeWaiters, hw, if_neg h]⟩
  | release g => exact .inl ⟨trivial, by simp only [wakeWaiters, hw]⟩

theorem wakeWaiters_counter (now : Nat) (ws : List Waiter) : ∀ c : Counter, (wakeWaiters now ws c).2.value ≤ c.value ∧
    (wakeWaiters now ws c).2.barrier = c.barrier ∧ (wakeWaiters now ws c).2.owner = c.owner := by
  induction ws with
  | nil => exact fun c => ⟨Nat.le_refl _, rfl, rfl⟩
  | cons w ws ih =>
    intro c
    obtain ⟨-, h⟩ | ⟨c', ⟨hv, hb, ho⟩, h⟩ := wakeWaiters_cons now w ws c
    · rw [h]; exact ih c
    · obtain ⟨hv', hb', ho'⟩ := ih c'
      rw [h]; exact ⟨Nat.le_trans hv' hv, hb'.trans hb, ho'.trans ho⟩

theorem wakeWaiters_sublist (now : Nat) (ws : List Waiter) : ∀ c : Counter, (wakeWaiters now ws c).1.Sublist ws := by
  induction ws with
  | nil => exact fun c => .slnil
  | cons w ws ih =>
    intro c
    obtain ⟨-, h⟩ | ⟨c', -, h⟩ := wakeWaiters_cons now w ws c
    · rw [h]; exact (ih c).cons_cons w
    · rw [h]; exact (ih c').cons w

/-- A waiter that stayed was held at the value it saw, and the value only falls after it. -/
theorem wakeWaiters_left_held (now : Nat) (ws : List Waiter) :
    ∀ c : Counter, ∀ w ∈ (wakeWaiters now ws c).1, w.heldAt (wakeWaiters now ws c).2.value := by
  induction ws with
  | nil => exact fun c w hw => absurd hw List.not_mem_nil
  | cons x ws ih =>
    intro c w
    obtain ⟨hx, h⟩ | ⟨c', -, h⟩ := wakeWaiters_cons now x ws c
    · rw [h, List.mem_cons]
      rintro (rfl | hw)
      · exact Waiter.heldAt_of_le (wakeWaiters_counter now ws c).1 hx
      · exact ih c w hw
    · rw [h]; exact ih c' w

/-- Settles O34: one induction on the waiters for the counter, for those left, and for what holds them. -/
theorem waitersAreServedInOrder : Obligations.WaitersAreServedInOrder := by
  unfold Obligations.WaitersAreServedInOrder
  intro now ws c
  obtain ⟨hvalue, hbarrier, howner⟩ := wakeWaiters_counter now ws c
  exact ⟨hvalue, wakeWaiters_sublist now ws c, hbarrier, howner, wakeWaiters_left_held now ws c⟩

/-! The run, the owner and the counters that a name gives do not depend on a tile's events or on another counter. -/

theorem State.runAt_of_running {s : State} {slot : Nat} {r : Run} (h : s.running slot = some r) : s.runAt slot = some r := by
  unfold State.running at h
  split at h
  · next q hq =>
    split at h
    · rw [hq, h]
    · cases h
  · cases h

@[simp] theorem State.syncIssued_core (s : State) (r : Run) (t : Nat) : s.syncIssued r (.core t) = s.tileEvent r t 0xD 1 := rfl

@[simp] theorem State.tileEvent_deviceId (s : State) (r : Run) (t c n : Nat) : (s.tileEvent r t c n).deviceId = s.deviceId := by
  obtain ⟨_, h⟩ := s.tileEvent_frame r t c n; rw [h]; rfl
@[simp] theorem State.tileEvent_text (s : State) (r : Run) (t c n : Nat) : (s.tileEvent r t c n).text = s.text := by
  obtain ⟨_, h⟩ := s.tileEvent_frame r t c n; rw [h]
@[simp] theorem State.tileEvent_pairOk (s : State) (r q : Run) (t c n k : Nat) :
    (s.tileEvent r t c n).pairOk q k = s.pairOk q k := by
  unfold State.pairOk; rw [State.tileEvent_runCounter]

@[simp] theorem State.syncIssued_runCounter (s : State) (r q : Run) (i : SyncIssuer) (k : Nat) :
    (s.syncIssued r i).runCounter q k = s.runCounter q k := by
  cases i with
  | core t => exact s.tileEvent_runCounter r q t 0xD 1 k
  | _ => rfl

@[simp] theorem State.syncIssued_ctr (s : State) (r : Run) (i : SyncIssuer) (p : Nat) : (s.syncIssued r i).ctr p = s.ctr p := by
  cases i with
  | core t => exact s.tileEvent_ctr r t 0xD 1 p
  | _ => rfl

@[simp] theorem State.setCtr_deviceId (s : State) (p : Nat) (c : Counter) : (s.setCtr p c).deviceId = s.deviceId := rfl

/-! ADD (R375, R377, R383, R384). -/

section Add

variable {s : State} {p n : Nat} (who d t : Nat)

theorem State.barrierDue_normal (h : (s.ctr p).barrier = false) : s.barrierDue p = s := by
  simp only [State.barrierDue, h, Bool.false_and, Bool.false_eq_true, if_false]

theorem State.barrierDue_complete (hb : (s.ctr p).barrier = true) (h : (s.ctr p).parties ≤ (s.ctr p).value) :
    (s.barrierDue p).sync.due.contains p = true ∧ (s.barrierDue p).sync.ctrs = s.sync.ctrs := by
  simp only [State.barrierDue, hb, ge_iff_le, decide_eq_true h, Bool.and_self, Bool.true_and]
  cases hd : s.sync.due.contains p with
  | true => simp only [Bool.not_true, Bool.false_eq_true, if_false, hd, and_self]
  | false => simp only [Bool.not_false, if_true, List.contains_append, List.contains_cons, beq_self_eq_true, Bool.true_or,
      Bool.or_true, and_self]

/-- Nobody waits: the examination of the waiters leaves the counter. -/
theorem State.ctr_wake_no_waiter (h : (s.ctr p).waiters = []) : (s.wake p).ctr p = s.ctr p := by
  unfold State.wake
  rw [State.ctr_setCtr, h]
  show ({ s.ctr p with waiters := [] } : Counter) = s.ctr p
  rw [← h]

theorem State.ctr_wake_ne {q : Nat} (hq : q ≠ p) : (s.wake p).ctr q = s.ctr q := State.ctr_setCtr_ne _ _ _ _ hq

theorem State.counterAdd_within (h : (s.ctr p).value + n ≤ 2 ^ 32 - 1) : s.counterAdd p n who d t =
    (0, ((s.setCtr p ((s.ctr p).step ((s.ctr p).value + n) who d s.now)).wake p).barrierDue p) := by
  simp only [State.counterAdd, gt_iff_lt, if_neg (Nat.not_lt.mpr h)]

theorem State.counterAdd_overflow (h : 2 ^ 32 - 1 < (s.ctr p).value + n) (hv : (s.ctr p).value < 2 ^ 32 - 1) :
    s.counterAdd p n who d t = (0x0B01, State.syncFault (s.setCtr p ((s.ctr p).step (2 ^ 32 - 1) who d s.now))
      (State.ownerOf (s.setCtr p ((s.ctr p).step (2 ^ 32 - 1) who d s.now)) p) p 0x0B01 t
      (State.logicalOf (s.setCtr p ((s.ctr p).step (2 ^ 32 - 1) who d s.now)) p)) := by
  simp only [State.counterAdd, gt_iff_lt, if_pos h, if_neg (Nat.ne_of_lt hv)]

/-- An ADD to a counter in NORMAL mode that nobody waits for is one step of its value. -/
theorem State.counterAdd_plain (h : (s.ctr p).value + n ≤ 2 ^ 32 - 1) (hw : (s.ctr p).waiters = [])
    (hb : (s.ctr p).barrier = false) : ∃ u, s.counterAdd p n who d t = (0, u) ∧
      u.ctr p = (s.ctr p).step ((s.ctr p).value + n) who d s.now ∧ (∀ q, q ≠ p → u.ctr q = s.ctr q) ∧
      u.mgr = s.mgr ∧ u.errlog = s.errlog := by
  have hc := s.ctr_setCtr p ((s.ctr p).step ((s.ctr p).value + n) who d s.now)
  have hwake := State.ctr_wake_no_waiter ((congrArg Counter.waiters hc).trans hw)
  refine ⟨_, State.counterAdd_within who d t h, ?_⟩
  rw [State.barrierDue_normal ((congrArg Counter.barrier (hwake.trans hc)).trans hb)]
  exact ⟨hwake.trans hc, fun q hq => (State.ctr_wake_ne hq).trans (s.ctr_setCtr_ne p q _ hq), rfl, rfl⟩

theorem State.syncAdd_run {slot k : Nat} {i : SyncIssuer} {r : Run} (hr : s.running slot = some r)
    (hi : s.issuerReady r i = true) (hp : s.runCounter r k = some p) (hn : 1 ≤ n ∧ n ≤ 65535) :
    s.syncAdd (.run slot k) i n = ((s.syncIssued r i).counterAdd p n (r.signaller i) 0 (issuerTile i)).2 := by
  have ha : ¬(n = 0 ∨ n > 65535) := by omega
  simp only [State.syncAdd, if_neg ha, hr, hi, Bool.not_true, Bool.false_eq_true, if_false, State.syncIssued_runCounter, hp]

theorem State.syncAdd_stream {c b : Nat} (hp : s.resolve (.stream c b) = some p) (hn : 1 ≤ n ∧ n ≤ 65535) :
    s.syncAdd (.stream c b) (.stream c) n = (s.counterAdd p n (sigStream c) 0 0xFFFF).2 := by
  have ha : ¬(n = 0 ∨ n > 65535) := by omega
  simp only [State.syncAdd, if_neg ha, hp, if_true]

end Add

theorem State.synSwSignal_adds {s : State} {v : Word}
    (h : 1 ≤ fld v 16 16 ∧ 49152 ≤ fld v 0 16 ∧ (s.ctr (fld v 0 16)).owner.isSome = true)
    (b : BusPath) : s.synSwSignal b v = (s.counterAdd (fld v 0 16) (fld v 16 16) (sigSoftware (busSig b)) 0 0xFFFF).2 := by
  obtain ⟨ha, hn, ho⟩ := h
  have hnot : ¬(fld v 16 16 = 0 ∨ fld v 0 16 < 49152 ∨ (s.ctr (fld v 0 16)).owner.isNone = true) := by
    rw [Option.isNone_iff_eq_none, ← Option.not_isSome_iff_eq_none]
    exact not_or.mpr ⟨by omega, not_or.mpr ⟨Nat.not_lt.mpr hn, fun hno => hno ho⟩⟩
  simp only [State.synSwSignal, if_neg hnot]

theorem State.synSwSignal_refused {s : State} {v : Word}
    (h : fld v 16 16 = 0 ∨ fld v 0 16 < 49152 ∨ (s.ctr (fld v 0 16)).owner = none)
    (b : BusPath) : s.synSwSignal b v = s.log 0x0101 synBase 0x30 v.toNat := by
  rw [← Option.isNone_iff_eq_none] at h
  simp only [State.synSwSignal, if_pos h]

/-! A tile core's operation on a counter that its run names (R375). -/

theorem syncAmount_ok {n : Nat} {ready : Bool} (hn : 1 ≤ n ∧ n ≤ 65535) (h : ready = true) :
    ¬(n = 0 ∨ n > 65535 ∨ (!ready) = true) := by
  simp only [h, Bool.not_true, Bool.false_eq_true, or_false]
  omega

section Core

variable {s : State} {slot t k : Nat} {r : Run} (hr : s.running slot = some r) (hi : s.issuerReady r (.core t) = true)

section Bad

variable {n : Nat} (hn : 1 ≤ n ∧ n ≤ 65535)
  (hbad : s.runCounter r k = none ∨ ∃ p, s.runCounter r k = some p ∧ (s.ctr p).barrier = true)
include hr hi hn hbad

theorem State.syncSub_bad : s.syncSub slot t k n = (s.tileEvent r t 0xD 1).badCounter r (.core t) k := by
  obtain h | ⟨p, h, hb⟩ := hbad
  · simp only [State.syncSub, hr, if_neg (syncAmount_ok hn hi), State.syncIssued_core, State.tileEvent_runCounter, h]
  · simp only [State.syncSub, hr, if_neg (syncAmount_ok hn hi), State.syncIssued_core, State.tileEvent_runCounter, h,
      State.tileEvent_ctr, hb, if_true]

theorem State.syncWaitSub_bad : s.syncWaitSub slot t k n = (s.tileEvent r t 0xD 1).badCounter r (.core t) k := by
  obtain h | ⟨p, h, hb⟩ := hbad
  · simp only [State.syncWaitSub, hr, if_neg (syncAmount_ok hn hi), State.syncIssued_core, State.tileEvent_runCounter, h]
  · simp only [State.syncWaitSub, hr, if_neg (syncAmount_ok hn hi), State.syncIssued_core, State.tileEvent_runCounter, h,
      State.tileEvent_ctr, hb, if_true]

end Bad

section Named

variable {p : Nat} (hp : s.runCounter r k = some p)

section Normal

variable (hb : (s.ctr p).barrier = false)

section Amount

variable {n : Nat} (hn : 1 ≤ n ∧ n ≤ 65535)
include hr hi hp hb hn

theorem State.syncSub_lowers (h : n ≤ (s.ctr p).value) : s.syncSub slot t k n =
    (s.tileEvent r t 0xD 1).setCtr p ((s.ctr p).step ((s.ctr p).value - n) (r.signaller (.core t)) 0 s.now) := by
  simp only [State.syncSub, hr, if_neg (syncAmount_ok hn hi), State.syncIssued_core, State.tileEvent_runCounter, hp,
    State.tileEvent_ctr, hb, Bool.false_eq_true, if_false, if_neg (Nat.not_lt.mpr h), State.tileEvent_now]

/-- The fault is raised on a state where the counter already reads 0. -/
theorem State.syncSub_underflow (h : (s.ctr p).value < n) :
    ∃ v : State, (v.ctr p).value = 0 ∧ s.syncSub slot t k n = v.syncFault (v.ownerOf p) p 0x0B02 t k := by
  refine ⟨(s.tileEvent r t 0xD 1).setCtr p
    (if (s.ctr p).value = 0 then s.ctr p else (s.ctr p).step 0 (r.signaller (.core t)) 0 s.now), ?_, ?_⟩
  · rw [State.ctr_setCtr]
    split
    · assumption
    · rfl
  · simp only [State.syncSub, hr, if_neg (syncAmount_ok hn hi), State.syncIssued_core, State.tileEvent_runCounter, hp,
      State.tileEvent_ctr, hb, Bool.false_eq_true, if_false, if_pos h, State.tileEvent_now]

theorem State.syncWaitSub_lowers (h : n ≤ (s.ctr p).value) : s.syncWaitSub slot t k n =
    (s.tileEvent r t 0xD 1).setCtr p ((s.ctr p).step ((s.ctr p).value - n) (r.signaller (.core t)) 0 s.now) := by
  simp only [State.syncWaitSub, hr, if_neg (syncAmount_ok hn hi), State.syncIssued_core, State.tileEvent_runCounter, hp,
    State.tileEvent_ctr, hb, Bool.false_eq_true, if_false, ge_iff_le, if_pos h, State.tileEvent_now]

theorem State.syncWaitSub_waits (h : (s.ctr p).value < n) : s.syncWaitSub slot t k n =
    (s.tileEvent r t 0xD 1).addWaiter p { who := r.signaller (.core t), tile := t, what := .sub n } := by
  simp only [State.syncWaitSub, hr, if_neg (syncAmount_ok hn hi), State.syncIssued_core, State.tileEvent_runCounter, hp,
    State.tileEvent_ctr, hb, Bool.false_eq_true, if_false, ge_iff_le, if_neg (Nat.not_le.mpr h)]

end Amount

end Normal

include hr hi hp

theorem State.syncRead_named : s.syncRead slot t k = (s.tileEvent r t 0xD 1).emit (.reply (.run slot) 0 0
    (if (s.ctr p).barrier then [(s.ctr p).value, (s.ctr p).bgen] else [(s.ctr p).value]) []) := by
  simp only [State.syncRead, hr, hi, Bool.not_true, Bool.false_eq_true, if_false, State.syncIssued_core, State.tileEvent_runCounter, hp,
    State.tileEvent_ctr, State.reply_run]

theorem State.syncConfig_barrier {parties : Nat} {pairs : List (Nat × Nat)}
    (hn : 1 ≤ parties ∧ parties ≤ 65536 ∧ pairs.length ≤ 8) (hk : 0xC000 ≤ k)
    (hpairs : pairs.all (fun x => s.pairOk r x.1 && s.pairOk r x.2) = true) (hc : (s.ctr p).value = 0 ∧ (s.ctr p).waiters = []) :
    s.syncConfig slot t k true parties pairs = (s.tileEvent r t 0xD 1).setCtr p { s.ctr p with
      barrier := true, parties := parties,
      pairs := pairs.map (fun x => ((s.runCounter r x.1).getD 0, (s.runCounter r x.2).getD 0)) } := by
  obtain ⟨hlo, hhi, hlen⟩ := hn
  obtain ⟨hvalue, hwaiters⟩ := hc
  have hargs : ¬(parties = 0 ∨ parties > 65536 ∨ pairs.length > 8 ∨ (!s.issuerReady r (.core t)) = true) := by
    rw [hi, Bool.not_true, Bool.false_eq_true, or_false]
    omega
  have hshared : decide (k < 0xC000) = false := decide_eq_false (Nat.not_lt.mpr hk)
  simp only [State.syncConfig, hr, if_neg hargs, State.syncIssued_core, State.tileEvent_runCounter, hp, State.tileEvent_ctr,
    State.tileEvent_pairOk, hshared, hpairs, hvalue, hwaiters, ne_eq, not_true_eq_false, decide_false, List.isEmpty_nil, Bool.not_true,
    Bool.or_self, Bool.false_eq_true, if_false, if_true]

theorem State.syncArrive_first (hb : (s.ctr p).barrier = true) : s.syncArrive slot t k none =
    (((s.tileEvent r t 0xD 1).addWaiter p
      { who := r.signaller (.core t), tile := t, what := .release (s.ctr p).bgen }).counterAdd p 1 (r.signaller (.core t)) 0 t).2 := by
  simp only [State.syncArrive, hr, hi, Bool.not_true, Bool.false_eq_true, if_false, State.syncIssued_core, State.tileEvent_runCounter,
    hp, State.tileEvent_ctr, hb]

theorem State.syncArrive_passed (hb : (s.ctr p).barrier = true) {g : Nat} (hg : seqEarlier 16 g (s.ctr p).bgen = true) :
    s.syncArrive slot t k (some g) = s.tileEvent r t 0xD 1 := by
  simp only [State.syncArrive, hr, hi, Bool.not_true, Bool.false_eq_true, if_false, State.syncIssued_core, State.tileEvent_runCounter,
    hp, State.tileEvent_ctr, hb, hg, if_true]

end Named

end Core

/-- A tile core and a lane may wait for a value (R375). -/
theorem State.syncWaitGe_named {s : State} {slot k p x : Nat} {r : Run} {i : SyncIssuer} (hw : i = .core x ∨ i = .lane x)
    (hr : s.running slot = some r) (hi : s.issuerReady r i = true) (hp : s.runCounter r k = some p)
    (hb : (s.ctr p).barrier = false) (v : Nat) :
    s.syncWaitGe slot i k v = if v ≤ (s.ctr p).value then s.syncIssued r i
      else (s.syncIssued r i).addWaiter p { who := r.signaller i, tile := issuerTile i, what := .ge v } := by
  obtain rfl | rfl := hw <;>
    simp only [State.syncWaitGe, hr, hi, Bool.not_true, Bool.or_self, Bool.false_eq_true, if_false, State.syncIssued_runCounter, hp,
      State.syncIssued_ctr, hb, ge_iff_le]

theorem State.issuerReady_lane {s : State} {r : Run} {l : Nat} (h : l < 64) : s.issuerReady r (.lane l) = true := by
  simp only [State.issuerReady, Run.hasIssuer, decide_eq_true h, Bool.and_self]

theorem State.addWaiter_tileEvent (s : State) (r : Run) (t p : Nat) (w : Waiter) : (s.tileEvent r t 0xD 1).addWaiter p w =
    (s.tileEvent r t 0xD 1).setCtr p { s.ctr p with waiters := (s.ctr p).waiters ++ [w] } := by
  simp only [State.addWaiter, State.tileEvent_ctr]

theorem State.badCounter_named {s : State} {r : Run} {k p : Nat} (h : s.runCounter r k = some p) (i : SyncIssuer) :
    s.badCounter r i k = (State.log (s.trace 4 1 (r.signaller i) r.slot 0 0x0B03 (p % 65536 + (s.ctr p).seq * 65536))
      0x0B03 synBase p (s.ctr p).signaller 0 k).endRun r.slot 0x0B03 k (issuerTile i) 0 true := by
  simp only [State.badCounter, h, Option.map_some, Option.getD_some]

/-! Binding and freeing shared counters (R372, R375). -/

section Alloc

variable {s : State} {slot b t pick : Nat} {r : Run} (hr : s.running slot = some r) (hb : b ≤ 255)

section Run

variable (hi : s.issuerReady r (.core t) = true)
include hr hi

section Binding

include hb

theorem State.syncAlloc_run_refused (h : (s.runCounter r (0xC000 + b)).isSome = true ∨ 16384 ≤ s.ctrsUsed) (remote : Bool) :
    s.syncAlloc (.run slot b) t remote pick = (s.tileEvent r t 0xD 1).emit (.reply (.run slot) 0x0B04 0 [] []) := by
  have hno : ((s.runCounter r (0xC000 + b)).isSome || decide (16384 ≤ s.ctrsUsed)) = true := by
    rwa [Bool.or_eq_true, decide_eq_true_eq]
  simp only [State.syncAlloc, bindingOf, State.allocOk, State.resolve, State.nameIssued, State.allocReply, hr,
    State.runAt_of_running hr, hi, gt_iff_lt, Nat.not_lt.mpr hb, Bool.not_true, Bool.false_eq_true, or_self, if_false, ge_iff_le, hno,
    if_true, State.syncIssued_core, State.reply_run]

theorem State.syncAlloc_run_binds (hn : s.runCounter r (0xC000 + b) = none) (hu : s.ctrsUsed < 16384) (hf : s.ctrFree pick = true)
    (remote : Bool) : s.syncAlloc (.run slot b) t remote pick =
      ((s.tileEvent r t 0xD 1).setCtr pick
        { gen := ((s.ctr pick).gen + 1) % 256, remote := remote, owner := some (.run slot b), changedAt := s.now }).emit
          (.reply (.run slot) 0 0 [s.deviceId, pick, ((s.ctr pick).gen + 1) % 256] []) := by
  have hroom : decide (16384 ≤ s.ctrsUsed) = false := decide_eq_false (Nat.not_le.mpr hu)
  simp only [State.syncAlloc, bindingOf, State.allocOk, State.resolve, State.nameIssued, State.allocReply, State.bindCounter, hr,
    State.runAt_of_running hr, hi, gt_iff_lt, Nat.not_lt.mpr hb, Bool.not_true, Bool.false_eq_true, or_self, if_false, ge_iff_le,
    hn, Option.isSome_none, Bool.or_self, hroom, hf, State.syncIssued_core, State.tileEvent_ctr, State.tileEvent_now, State.ctr_setCtr,
    State.setCtr_deviceId, State.tileEvent_deviceId, State.reply_run]

end Binding

theorem State.syncFree_named {p : Nat} (hp : s.runCounter r (0xC000 + b) = some p) (hw : (s.ctr p).waiters = [])
    (hg : s.text.gens.any (fun g => g.owner == ReqPath.run slot && g.runCounter == 0xC000 + b) = false) :
    s.syncFree slot t b = (s.tileEvent r t 0xD 1).freeCounter p := by
  simp only [State.syncFree, hr, hi, Bool.not_true, Bool.false_eq_true, if_false, State.syncIssued_core, State.tileEvent_runCounter, hp,
    State.tileEvent_text, State.tileEvent_ctr, hw, List.isEmpty_nil, hg, Bool.or_self]

end Run

include hb

theorem State.syncAlloc_stream_binds {ctx : Nat} (hx : (s.ctxOf ctx).isSome = true) (hn : s.resolve (.stream ctx b) = none)
    (hu : s.ctrsUsed < 16384) (hf : s.ctrFree pick = true) (remote : Bool) :
    s.syncAlloc (.stream ctx b) t remote pick = s.setCtr pick
      { gen := ((s.ctr pick).gen + 1) % 256, remote := remote, owner := some (.stream ctx b), changedAt := s.now } := by
  have hroom : decide (16384 ≤ s.ctrsUsed) = false := decide_eq_false (Nat.not_le.mpr hu)
  simp only [State.syncAlloc, bindingOf, State.allocOk, State.nameIssued, State.allocReply, State.bindCounter, hx, gt_iff_lt,
    Nat.not_lt.mpr hb, Bool.not_true, Bool.false_eq_true, or_self, if_false, ge_iff_le, hn, Option.isSome_none, Bool.or_self, hroom, hf]

end Alloc

/-! The debug view (R385). -/

theorem State.synDbgSelWrite_latches {s : State} (h : s.regsWf = true) (v : Word) :
    (s.synDbgSelWrite v).reg (synBase + 0x10) = BitVec.ofNat 32 (fld v 0 16) ∧
    (s.synDbgSelWrite v).reg (synBase + 0x14) = BitVec.ofNat 32 (s.ctr (fld v 0 16)).value ∧
    (s.synDbgSelWrite v).reg (synBase + 0x1C) = BitVec.ofNat 32 (s.ctr (fld v 0 16)).signaller ∧
    (s.synDbgSelWrite v).reg (synBase + 0x20) = BitVec.ofNat 32 (s.ctr (fld v 0 16)).seq := by
  have keep {u : State} {k : Nat} {v : Word} (hu : u.regsWf = true) : (u.setReg k v).regsWf = true := u.setReg_regsWf k v hu
  refine ⟨?_, ?_, ?_, ?_⟩ <;> simp only [State.synDbgSelWrite, State.reg_setReg_ne, ne_eq, Nat.add_left_cancel_iff, Nat.reduceEqDiff,
    not_false_eq_true]
  · exact State.reg_setReg _ _ _ h
  · exact State.reg_setReg _ _ _ (keep h)
  · exact State.reg_setReg _ _ _ (keep (keep (keep h)))
  · exact State.reg_setReg _ _ _ (keep (keep (keep (keep h))))

theorem State.synDbgSelWrite_frame (s : State) (v : Word) : (s.synDbgSelWrite v).sync = s.sync ∧ (s.synDbgSelWrite v).mgr = s.mgr ∧
    (s.synDbgSelWrite v).field = s.field ∧ (s.synDbgSelWrite v).out = s.out := by
  simp only [State.synDbgSelWrite, State.setReg_sync, State.setReg_mgr, State.setReg_field, State.setReg_out, and_self]

/-- Settles O32: each operation by the counter that the issuer's run names and by the value it finds there. -/
theorem countersAreOperated : Obligations.CountersAreOperated := by
  unfold Obligations.CountersAreOperated
  refine ⟨fun s slot k n p i r hr hi hp hn => ?_, fun s c b n p hp hn => ?_, fun s p n who d t q h hw hb hq => ?_,
    fun s p n who d t h hv => ?_, fun s slot k t n p r hr hi hp hb hn h => ?_, fun s slot k t n p r hr hi hp hb hn h => ?_,
    fun s b v => ⟨fun h => ?_, fun h => ?_⟩, fun s slot k v t p r hr hi hp hb => ?_, fun s slot k v l p r hr hl hp hb => ?_,
    fun s slot k n t p r hr hi hp hb hn => ⟨fun h => ?_, fun h => ?_⟩, fun s slot k t p r hr hi hp => ?_,
    fun s slot b t pick remote r hr hi hb hn hu hf => ⟨?_, rfl, rfl⟩, fun s ctx b t pick remote hx hb hn hu hf => ?_,
    fun s slot b t pick remote r hr hi hb h => ?_, fun s slot t b p r hr hi hp hw hg => ?_,
    fun s slot t k p parties pairs r hr hn hp hk hpairs hc hi => ?_, fun s slot t k n r hr hi h hn => ⟨?_, ?_⟩,
    fun s r i k p hp => State.badCounter_named hp i, fun s v h => ?_⟩
  · rw [exec_syncAdd, State.syncAdd_run hr hi hp hn]
    cases i <;> rfl
  · rw [exec_syncAdd, State.syncAdd_stream hp hn]; rfl
  · obtain ⟨u, hu, hc, hother, hmgr, hlog⟩ := State.counterAdd_plain who d t h hw hb
    rw [hu]
    exact ⟨rfl, by rw [hc]; rfl, by rw [hc]; rfl, by rw [hc]; rfl, by rw [hc]; rfl, by rw [hc]; rfl, hother q hq, hmgr, hlog⟩
  · have hfault := State.counterAdd_overflow who d t h hv
    exact ⟨congrArg Prod.fst hfault, by rw [State.ctr_setCtr]; rfl, congrArg Prod.snd hfault⟩
  · exact ⟨congrArg _ (State.syncSub_lowers hr hi hp hb hn h), rfl, rfl, rfl, rfl, rfl, rfl, rfl⟩
  · exact ⟨_, exec_syncSub .., State.syncSub_underflow hr hi hp hb hn h⟩
  · rw [exec_synSwSignal, State.synSwSignal_adds h]; rfl
  · rw [exec_synSwSignal, State.synSwSignal_refused h]
  · rw [exec_syncWaitGe, State.syncWaitGe_named (.inl rfl) hr hi hp hb, State.syncIssued_core, State.addWaiter_tileEvent]
    exact ⟨fun h => by rw [if_pos h], fun h => by rw [if_neg (Nat.not_le.mpr h)]; rfl⟩
  · rw [exec_syncWaitGe, State.syncWaitGe_named (.inr rfl) hr (State.issuerReady_lane hl) hp hb]
    exact ⟨fun h => by rw [if_pos h]; rfl, fun h => by rw [if_neg (Nat.not_le.mpr h)]; rfl⟩
  · rw [exec_syncWaitSub, State.syncWaitSub_lowers hr hi hp hb hn h]
  · rw [exec_syncWaitSub, State.syncWaitSub_waits hr hi hp hb hn h, State.addWaiter_tileEvent]
  · rw [exec_syncRead, State.syncRead_named hr hi hp]
  · rw [exec_syncAlloc, State.syncAlloc_run_binds hr hb hi hn hu hf]
  · rw [exec_syncAlloc, State.syncAlloc_stream_binds hb hx hn hu hf]
  · rw [exec_syncAlloc, State.syncAlloc_run_refused hr hb hi h]
  · rw [exec_syncFree, State.syncFree_named hr hi hp hw hg, State.freeCounter, State.tileEvent_ctr]
  · rw [exec_syncConfig, State.syncConfig_barrier hr hi hp hn hk hpairs hc]
  · rw [exec_syncSub, State.syncSub_bad hr hi hn h]
  · rw [exec_syncWaitSub, State.syncWaitSub_bad hr hi hn h]
  · obtain ⟨hsel, hvalue, hlast, hseq⟩ := State.synDbgSelWrite_latches h v
    exact ⟨_, exec_synDbgSelWrite .., hsel, hvalue, hlast, hseq, s.synDbgSelWrite_frame v⟩

/-! Barriers (R379, R380). -/

/-- A barrier after its release: the value 0, the next generation, and no waiter for a release. -/
def Counter.released (c : Counter) (now : Nat) : Counter :=
  { (c.step 0 0x8000 0 now) with
    bgen := (c.bgen + 1) % 65536, waiters := c.waiters.filter (fun w => match w.what with | .release _ => false | _ => true) }

theorem Counter.released_no_release {c : Counter} {now : Nat} {w : Waiter} (hw : w ∈ (c.released now).waiters) (g : Nat) :
    w.what ≠ .release g := by
  intro h
  have hkept := (List.mem_filter.mp hw).2
  rw [h] at hkept
  cases hkept

/-- Without pairs a due release sets the barrier, takes it off those due, and is traced. -/
theorem State.barrierRelease_no_pair {s : State} {p : Nat} (hd : s.sync.due.contains p = true) (hpairs : (s.ctr p).pairs = []) :
    ∃ run arg, s.barrierRelease p =
      (State.setCtr { s with sync := { s.sync with due := s.sync.due.filter (· != p) } } p ((s.ctr p).released s.now)).trace
        5 2 0x8000 run 0 (((s.ctr p).bgen + 1) % 65536) arg := by
  simp only [State.barrierRelease, hd, Bool.not_true, Bool.false_eq_true, if_false, hpairs, State.realignAll]
  exact ⟨_, _, rfl⟩

/-- What a realignment takes off one counter of a pair (R380). -/
def State.lowerCtr (s : State) (m n : Nat) : State :=
  if m = 0 then s else s.setCtr n ((s.ctr n).step ((s.ctr n).value - m) 0x8000 0 s.now)

theorem State.lowerCtr_value (s : State) (m n : Nat) : ((s.lowerCtr m n).ctr n).value = (s.ctr n).value - m := by
  unfold State.lowerCtr
  split
  · next h => rw [h, Nat.sub_zero]
  · rw [State.ctr_setCtr, Counter.step_value]

theorem State.lowerCtr_ctr_ne (s : State) (m : Nat) {n q : Nat} (h : q ≠ n) : (s.lowerCtr m n).ctr q = s.ctr q := by
  unfold State.lowerCtr
  split
  · rfl
  · rw [State.ctr_setCtr_ne _ _ _ _ h]

theorem State.realignPair_no_owner (s : State) (i a b : Nat) : s.realignPair none i (a, b) =
    (s.lowerCtr (min (s.ctr a).value (s.ctr b).value) a).lowerCtr (min (s.ctr a).value (s.ctr b).value) b := rfl

/-- Settles O33: an arrival by the barrier its run names, the release by what it leaves of the barrier, a pair counter by counter. -/
theorem barriersRelease : Obligations.BarriersRelease := by
  unfold Obligations.BarriersRelease
  refine ⟨fun s slot t k p r hr hi hp hb => ?_, fun s slot t k p g r hr hi hp hb hg => ?_,
    fun s p hb h => State.barrierDue_complete hb h, fun s p q hd hpairs hq => ⟨_, exec_barrierRelease .., ?_⟩,
    fun s i a b hab => ?_⟩
  · rw [exec_syncArrive, State.syncArrive_first hr hi hp hb, State.addWaiter_tileEvent]
  · rw [exec_syncArrive, State.syncArrive_passed hr hi hp hb hg]
  · obtain ⟨run, arg, h⟩ := State.barrierRelease_no_pair hd hpairs
    simp only [h, State.trace_ctr, State.trace_sync, State.trace_mgr, State.trace_field, State.ctr_setCtr,
      State.ctr_setCtr_ne _ _ _ _ hq, State.setCtr_due, State.setCtr_mgr, State.setCtr_field]
    refine ⟨rfl, rfl, rfl, fun w hw => Counter.released_no_release hw, ?_, rfl, trivial, trivial⟩
    simp
  · rw [State.realignPair_no_owner, State.lowerCtr_ctr_ne _ _ hab, State.lowerCtr_value, State.lowerCtr_value,
      State.lowerCtr_ctr_ne _ _ hab.symm]
    exact ⟨rfl, rfl⟩

end Sys2Proof.Machine

/-! PROOFS. The queue pairs of the Yalim queue interface: doorbells, freezing and restarting, what becomes of a fetched command,
completions, and the queues' life, with QueueRestartsAfterFreeze and QueuesFetchAndComplete. -/

namespace Sys2Proof.Machine

/-! What these commands mean: each runs the state function of its instruction. -/

theorem exec_queueRestartResume (p : ReqPath) (q : Nat) (s : State) :
    exec (.queueRestartResume p q) s = .next (s.queueRestart p q false) := rfl
theorem exec_queueRestartSkip (p : ReqPath) (q : Nat) (s : State) :
    exec (.queueRestartSkip p q) s = .next (s.queueRestart p q true) := rfl
theorem exec_sqTailDoorbell (fn q v : Nat) (s : State) : exec (.sqTailDoorbell fn q v) s = .next (s.sqTail fn q v) := rfl
theorem exec_cqHeadDoorbell (fn q v : Nat) (s : State) : exec (.cqHeadDoorbell fn q v) s = .next (s.cqHead fn q v) := rfl
theorem exec_commandFetch (a : HostAccess) (s : State) : exec (.commandFetch a) s = .next (s.commandFetch a) := rfl
theorem exec_parkedAdmit (s : State) : exec .parkedAdmit s = .next s.parkedAdmit := rfl
theorem exec_ioCommandComplete (fn q cid : Nat) (a : HostAccess) (s : State) :
    exec (.ioCommandComplete fn q cid a) s = .next (s.commandComplete fn q cid a) := rfl
theorem exec_coalesceTimeout (fn v : Nat) (s : State) : exec (.coalesceTimeout fn v) s = .next (s.coalesceTimeout fn v) := rfl
theorem exec_queueCreate (p : ReqPath) (q depth v : Nat) (irq : Bool) (sq cq : Nat) (s : State) :
    exec (.queueCreate p q depth v irq sq cq) s = .next (s.queueCreate p q depth v irq sq cq) := rfl
theorem exec_queueDelete (p : ReqPath) (q : Nat) (s : State) : exec (.queueDelete p q) s = .next (s.queueDelete p q) := rfl
theorem exec_queueDeleteDone (fn q : Nat) (s : State) :
    exec (.queueDeleteDone fn q) s = .next (s.queueDeleteDone fn q) := rfl
theorem exec_aqEnable (fn : Nat) (v : Word) (s : State) : exec (.aqEnable fn v) s = .next (s.aqEnable fn v) := rfl
theorem exec_aqDisable (fn : Nat) (v : Word) (s : State) : exec (.aqDisable fn v) s = .next (s.aqDisable fn v) := rfl
theorem exec_functionLevelReset (fn : Nat) (s : State) :
    exec (.functionLevelReset fn) s = .next (s.functionReset fn) := rfl
theorem exec_pcieLinkDown (l : Nat) (s : State) : exec (.pcieLinkDown l) s = .next (s.linkDown l) := rfl
theorem exec_pcieLinkUp (l : Nat) (flit : Bool) (speed width : Nat) (s : State) :
    exec (.pcieLinkUp l flit speed width) s = .next (s.linkUp l flit speed width) := rfl

/-! The restart of a queue (R432). -/

section Restart

variable {s : State} {fn q : Nat} (cid : Nat) (skip : Bool)

/-- The head a restart gives a queue: its tail, which skips the entries between, or where it froze. -/
def Queue.restartHead (x : Queue) (skip : Bool) : Nat := if skip then x.sqTail else x.resumeHead

/-- A queue that goes on from a head. -/
def Queue.restarted (x : Queue) (h : Nat) : Queue := { x with frozen := false, sqHead := h, resumeHead := 0 }

theorem State.queueRestart_frozen {x : Queue} (h : s.queueAt fn q = some x) (hf : x.frozen = true) :
    s.queueRestart (.yqi fn 0 cid) q skip =
      (s.updQueue fn q (·.restarted (x.restartHead skip))).reply (.yqi fn 0 cid) 0 0 [x.restartHead skip] := by
  simp only [State.queueRestart, pathFn, h, hf, Bool.not_true, Bool.false_eq_true, if_false]
  rfl

theorem State.queueRestart_refused (h : ∀ x, s.queueAt fn q = some x → x.frozen = false) :
    s.queueRestart (.yqi fn 0 cid) q skip = s.reply (.yqi fn 0 cid) 0x0101 := by
  cases hq : s.queueAt fn q with
  | none => simp only [State.queueRestart, pathFn, hq]
  | some x => simp only [State.queueRestart, pathFn, hq, h x hq, Bool.not_false, if_true]

theorem State.queueAt_restarted {x : Queue} (h : s.queueAt fn q = some x) (n : Nat) :
    (s.updQueue fn q (·.restarted n)).queueAt fn q = some (x.restarted n) :=
  s.queueAt_updQueue fn q x _ h fun _ => ⟨rfl, rfl⟩

end Restart

/-- Settles O54, by whether the queue exists and is frozen. -/
theorem queueRestartsAfterFreeze : Obligations.QueueRestartsAfterFreeze := by
  unfold Obligations.QueueRestartsAfterFreeze
  refine ⟨fun s fn q cid x h hf => ⟨?_, ?_⟩, fun s fn q cid h => ⟨?_, ?_⟩⟩
  · exact ⟨_, (exec_queueRestartResume ..).trans (congrArg _ (State.queueRestart_frozen cid false h hf)), rfl, _,
      State.queueAt_restarted h _, rfl, rfl, rfl, rfl⟩
  · exact ⟨_, (exec_queueRestartSkip ..).trans (congrArg _ (State.queueRestart_frozen cid true h hf)), rfl, _,
      State.queueAt_restarted h _, rfl, rfl, rfl, rfl⟩
  · rw [exec_queueRestartResume, State.queueRestart_refused cid false h]
  · rw [exec_queueRestartSkip, State.queueRestart_refused cid true h]

/-! Doorbells (R411). -/

section Doorbells

variable {s : State} {fn q v : Nat}

theorem State.sqTail_absent (h : s.queueAt fn q = none) : s.sqTail fn q v = s := by
  unfold State.sqTail; rw [h]

theorem State.cqHead_absent (h : s.queueAt fn q = none) : s.cqHead fn q v = s := by
  unfold State.cqHead; rw [h]

variable {x : Queue} (h : s.queueAt fn q = some x)
include h

theorem State.sqTail_eq : s.sqTail fn q v =
    if x.depth ≤ v then s.badDoorbell fn q else s.updQueue fn q (fun x => { x with sqTail := v }) := by
  unfold State.sqTail; rw [h]

theorem State.cqHead_eq : s.cqHead fn q v =
    if x.depth ≤ v ∨ ringDist x.depth x.cqHead x.cqTail < ringDist x.depth x.cqHead v then s.badDoorbell fn q
    else s.updQueue fn q (fun x => { x with cqHead := v }) := by
  unfold State.cqHead; rw [h]

end Doorbells

/-! A freeze (R430, R431). -/

/-- Where a queue that freezes now goes on: at its first command that waits, or at its head. -/
def State.freezeHead (s : State) (x : Queue) (fn q : Nat) : Nat :=
  ((s.waitingOf fn q).head?.map (fun (c : Cmd) => c.idx)).getD x.sqHead

/-- A queue that is frozen, with where it goes on. -/
def Queue.frozenAt (x : Queue) (h : Nat) : Queue := { x with frozen := true, resumeHead := h }

/-- The commands of a queue that wait for admission are dropped. -/
def State.dropWaiting (s : State) (fn q : Nat) : State :=
  { s with yqi := { s.yqi with
    parked := s.yqi.parked.filter (fun c => !(c.fn == fn && c.qid == q)),
    policed := s.yqi.policed.filter (fun (c : Cmd × Nat × Nat) => !(c.1.fn == fn && c.1.qid == q)) } }

theorem State.freezeQueue_admin (s : State) (fn : Nat) : s.freezeQueue fn 0 = s := by
  unfold State.freezeQueue
  split
  · rfl
  · rw [beq_self_eq_true, Bool.or_true, if_pos rfl]

section Freeze

variable {s : State} {fn q : Nat} {x : Queue} (h : s.queueAt fn q = some x) (hf : x.frozen = false) (hq : q ≠ 0)
include h hf hq

theorem State.freezeQueue_eq : s.freezeQueue fn q =
    ((s.bump (yqiBase + 0x14) yqiOvf 1).dropWaiting fn q).updQueue fn q (·.frozenAt (s.freezeHead x fn q)) := by
  unfold State.freezeQueue
  rw [h]
  simp only [hf, beq_false_of_ne hq, Bool.or_self, Bool.false_eq_true, if_false]
  rfl

theorem State.freezeQueue_yqi : (s.freezeQueue fn q).yqi = ((s.dropWaiting fn q).updQueue fn q
    (·.frozenAt (s.freezeHead x fn q))).yqi := by
  rw [State.freezeQueue_eq h hf hq]
  simp only [State.updQueue, State.dropWaiting, State.bump_yqi]

theorem State.queueAt_freezeQueue :
    (s.freezeQueue fn q).queueAt fn q = some (x.frozenAt (s.freezeHead x fn q)) := by
  rw [State.queueAt_congr _ _ fn q (State.freezeQueue_yqi h hf hq)]
  exact (s.dropWaiting fn q).queueAt_updQueue fn q x _ h fun _ => ⟨rfl, rfl⟩

end Freeze

/-! What becomes of a command that is fetched (R434, R435, R436). -/

section Fetch

variable {s : State} {x : Queue} {c : Cmd} {a : HostAccess}

/-- The arbiter's turn passes to a queue, or stays with it for one more command of its burst. -/
def State.takeTurn (s : State) (x : Queue) : State :=
  { s with yqi := { s.yqi with
    taken := if s.yqi.turn = some (x.fn, x.qid) then s.yqi.taken % 64 + 1 else 1, turn := some (x.fn, x.qid) } }

theorem State.commandFetch_idle (h : s.arbiter = none) : s.commandFetch a = s := by
  unfold State.commandFetch; rw [h]

theorem State.commandFetch_io (h : s.arbiter = some x) (hq : x.qid ≠ 0) : s.commandFetch a =
    ((s.updQueue x.fn x.qid (fun y => { y with sqHead := (y.sqHead + 1) % y.depth })).takeTurn x).arrive x
      { fn := x.fn, qid := x.qid, idx := x.sqHead, entry := s.sqAt x x.sqHead } a := by
  unfold State.commandFetch
  rw [h]
  simp only [if_neg hq]
  rfl

theorem State.arrive_refused {st : Status} {d : Nat} (h : s.cmdRefusal x c.entry a = some (st, d)) : s.arrive x c a =
    State.reply { s with yqi := { s.yqi with admitted := s.yqi.admitted ++ [c] } } (.yqi c.fn c.qid c.entry.cid) st d := by
  unfold State.arrive; rw [h]

theorem State.arrive_unpoliced (h : s.cmdRefusal x c.entry a = none) (hp : isPoliced c = false) :
    s.arrive x c a = s.takeIn c := by
  unfold State.arrive
  rw [h, hp]
  rfl

theorem State.takeIn_unlocked (h : lockOf c = none) :
    s.takeIn c = { s with yqi := { s.yqi with admitted := s.yqi.admitted ++ [c] } } := by
  unfold State.takeIn; rw [h]

theorem State.takeIn_locking {l : RangeLock} (h : lockOf c = some l) : s.takeIn c =
    if s.lockBlocked l s.yqi.parked then { s with yqi := { s.yqi with parked := s.yqi.parked ++ [c] } }
    else { s with yqi := { s.yqi with admitted := s.yqi.admitted ++ [c], locks := s.yqi.locks ++ [l] } } := by
  unfold State.takeIn; rw [h]

theorem State.parkedAdmit_none (h : s.firstClear [] s.yqi.parked = none) : s.parkedAdmit = s := by
  unfold State.parkedAdmit; rw [h]

/-- The locks with the one that a command takes, if it takes one. -/
def State.locksWith (s : State) (c : Cmd) : List RangeLock :=
  match lockOf c with
  | some l => s.yqi.locks ++ [l]
  | none => s.yqi.locks

theorem State.parkedAdmit_some (h : s.firstClear [] s.yqi.parked = some c) : s.parkedAdmit = { s with yqi := { s.yqi with
    parked := s.yqi.parked.erase c, admitted := s.yqi.admitted ++ [c], locks := s.locksWith c } } := by
  unfold State.parkedAdmit
  rw [h]
  rfl

end Fetch

/-! Completion (R415, R417, R430). -/

section Complete

variable {s : State} {fn q cid : Nat} {a : HostAccess} {d : CmdDone} {c : Cmd} {x : Queue}

theorem State.commandComplete_done (h : s.doneCmd fn q cid = some (d, c)) (hh : s.heldBy (.yqi fn q cid) = none) :
    s.commandComplete fn q cid a = (s.finishCmd d c a).2 := by
  unfold State.commandComplete
  rw [h]
  simp only [hh, Option.isSome_none, Bool.false_eq_true, if_false]

/-- A command leaves the lists of its queue with its lock. -/
def State.retire (s : State) (d : CmdDone) (c : Cmd) : State :=
  State.unlock { s with yqi := { s.yqi with done := s.yqi.done.erase d, admitted := s.yqi.admitted.erase c } }
    (.yqi d.fn d.qid d.cid)

theorem State.finishCmd_without_data (h : s.queueAt d.fn d.qid = some x) (hx : x.deleting = none) (hd : d.data = []) :
    s.finishCmd d c a = (d.status, (s.retire d c).writeCq d c) := by
  have hr : (s.retire d c).queueAt d.fn d.qid = some x := h
  unfold State.finishCmd
  rw [State.retire] at hr
  simp only [hr, hx, hd, Option.isSome_none, List.isEmpty_nil, Bool.not_true, Bool.false_eq_true, and_false, false_and, if_false]
  rfl

/-- A queue after one more CQ entry. -/
def Queue.entryWritten (y : Queue) (last : Prop) [Decidable last] : Queue :=
  { y with cqTail := (y.cqTail + 1) % y.depth, phase := if last then !y.phase else y.phase }

@[simp] theorem State.yqiLog_yqi (s : State) (st : Status) (d : Nat) (q : Queue) (cid op nsid i0 : Nat) (froze : Bool) :
    (s.yqiLog st d q cid op nsid i0 froze).yqi = s.yqi := State.logEntry_yqi ..

/-- The CQ entry of a command that failed leaves its queue frozen, with the entry in its completion ring. -/
theorem State.queueAt_writeCq_failed (h : s.queueAt d.fn d.qid = some x) (hs : d.status ≠ 0) (hq : d.qid ≠ 0)
    (hf : x.frozen = false) (hi : x.irqEn = false) : (s.writeCq d c).queueAt d.fn d.qid =
      some ((x.frozenAt (s.freezeHead x d.fn d.qid)).entryWritten (x.cqTail + 1 = x.depth)) := by
  have hfz := State.queueAt_freezeQueue h hf hq
  have hi' : (x.frozenAt (s.freezeHead x d.fn d.qid)).irqEn = false := hi
  have hq' : (d.qid != 0) = true := bne_iff_ne.mpr hq
  unfold State.writeCq
  simp only [h, hf, hs, hq', hfz, hi', ne_eq, not_false_eq_true, decide_true, Bool.not_false, Bool.and_self, if_true,
    Bool.false_eq_true, if_false]
  have hy : ((s.freezeQueue d.fn d.qid).updQueue d.fn d.qid (·.entryWritten (x.cqTail + 1 = x.depth))).queueAt d.fn d.qid =
      some _ := State.queueAt_updQueue _ _ _ _ _ hfz fun _ => ⟨rfl, rfl⟩
  refine (State.queueAt_congr _ _ _ _ ?_).trans hy
  rw [State.yqiLog_yqi, State.bump_yqi]
  rfl

end Complete

section Coalesce

variable {s : State} {fn v : Nat} {f : Fn}

theorem State.coalesceTimeout_eq {c : Coalesce} (h : s.fnAt fn = some f)
    (hc : f.coalesce.find? (fun c => c.vector == v) = some c) : s.coalesceTimeout fn v =
      if c.time ≠ 0 ∧ c.count ≠ 0 then (s.advance (c.firstAt + c.time * 1000)).raiseVector fn v else s := by
  unfold State.coalesceTimeout
  simp only [h, hc]

theorem State.raiseVector_unmasked (h : s.fnAt fn = some f) (hu : f.unmasked.contains v = true) :
    (s.raiseVector fn v).out = s.out ++ [.msix fn v] := by
  unfold State.raiseVector
  simp only [h, hu, if_true]
  rfl

end Coalesce

/-! The life of a queue (R408, R409, R424, R433, R442). -/

section Life

variable {s : State} {fn q cid depth v sq cq : Nat} {irq : Bool} {f : Fn}

/-- What a new queue pair must be (R408, R424): an I/O queue within the function's count and not there yet, with a legal depth,
one of the function's vectors, and aligned bases. -/
def State.MayCreate (s : State) (f : Fn) (fn q depth v sq cq : Nat) : Prop :=
  q ≠ 0 ∧ q < f.queues ∧ s.queueAt fn q = none ∧ 2 ≤ depth ∧ depth ≤ 65536 ∧ v < f.vectors ∧ sq % 4096 = 0 ∧ cq % 4096 = 0

theorem State.mayCreate_iff : s.MayCreate f fn q depth v sq cq ↔
    (decide (q = 0 ∨ q ≥ f.queues) || (s.queueAt fn q).isSome || decide (depth < 2 ∨ depth > 65536) || decide (v ≥ f.vectors) ||
      decide (sq % 4096 ≠ 0) || decide (cq % 4096 ≠ 0)) = false := by
  simp only [State.MayCreate, Bool.or_eq_false_iff, decide_eq_false_iff_not, not_or, Nat.not_le, Nat.not_lt, ge_iff_le, gt_iff_lt,
    ne_eq, Decidable.not_not, Option.isSome_eq_false_iff, Option.isNone_iff_eq_none, and_assoc]

theorem State.queueCreate_new (h : s.fnAt fn = some f) (hc : s.MayCreate f fn q depth v sq cq) :
    s.queueCreate (.yqi fn 0 cid) q depth v irq sq cq = State.reply { s with yqi := { s.yqi with
      queues := s.yqi.queues ++ [{ fn := fn, qid := q, depth := depth, sqBase := sq, cqBase := cq, vector := v, irqEn := irq }] } }
        (.yqi fn 0 cid) 0 := by
  unfold State.queueCreate
  simp only [pathFn, h, State.mayCreate_iff.mp hc, Bool.false_eq_true, if_false]

theorem State.queueCreate_refused (h : s.fnAt fn = some f) (hc : ¬ s.MayCreate f fn q depth v sq cq) :
    s.queueCreate (.yqi fn 0 cid) q depth v irq sq cq = s.reply (.yqi fn 0 cid) 0x0101 := by
  unfold State.queueCreate
  simp only [pathFn, h, eq_true_of_ne_false (mt State.mayCreate_iff.mpr hc), if_true]

theorem State.queueDelete_begins {x : Queue} (h : s.queueAt fn q = some x) (hq : q ≠ 0) (hx : x.deleting = none) :
    s.queueDelete (.yqi fn 0 cid) q = s.beginDelete fn q (some cid) := by
  simp only [State.queueDelete, pathFn, pathCid, h, hq, hx, Option.isSome_none, Bool.false_eq_true, or_self, if_false]

theorem State.queueDelete_refused (h : ∀ x, s.queueAt fn q = some x → q = 0 ∨ x.deleting.isSome = true) :
    s.queueDelete (.yqi fn 0 cid) q = s.reply (.yqi fn 0 cid) 0x0101 := by
  cases hq : s.queueAt fn q with
  | none => simp only [State.queueDelete, pathFn, hq]
  | some x => simp only [State.queueDelete, pathFn, hq, if_pos (h x hq)]

/-- The end of a delete: while an admitted command is left nothing changes; then the pair is freed, and the command that asked
for the delete completes. -/
theorem State.queueDeleteDone_eq {x : Queue} {asked : Option Nat} (h : s.queueAt fn q = some x) (hx : x.deleting = some asked) :
    s.queueDeleteDone fn q =
      if (s.admittedOf fn q).isEmpty then asked.elim (s.freeQueue fn q) (fun k => (s.freeQueue fn q).reply (.yqi fn 0 k) 0)
      else s := by
  cases he : (s.admittedOf fn q).isEmpty with
  | false => simp only [State.queueDeleteDone, h, hx, he, Bool.not_false, Bool.false_eq_true, if_true, if_false]
  | true =>
    simp only [State.queueDeleteDone, h, hx, he, Bool.not_true, Bool.false_eq_true, if_true, if_false]
    cases asked with
    | none => rfl
    | some k => rfl

end Life

section Admin

variable {s : State} {fn : Nat} {v : Word} {f : Fn} (h : s.fnAt fn = some f)
include h

theorem State.aqEnable_ready (hr : f.aqReady = true) : s.aqEnable fn v = s := by
  simp only [State.aqEnable, h, hr, Bool.true_or, if_true]

theorem State.aqEnable_eq (hr : f.aqReady = false) (hv : v.getLsbD 12 = true) (hq : f.queues ≠ 0) : s.aqEnable fn v =
    if fld v 0 12 = 0 ∨ f.aqSq % 4096 ≠ 0 ∨ f.aqCq % 4096 ≠ 0 then
      s.setFn fn (fun f => { f with badConfig := true, aqCfg := v &&& 0x0FFF0FFF })
    else
      let u := s.setFn fn (fun f => { f with badConfig := false, aqReady := true, aqCfg := v &&& 0x0FFF1FFF })
      { u with yqi := { u.yqi with queues := u.yqi.queues ++ [{
        fn := fn, qid := 0, depth := fld v 0 12 + 1, sqBase := f.aqSq, cqBase := f.aqCq, vector := fld v 16 11,
        irqEn := v.getLsbD 27 }] } } := by
  simp only [State.aqEnable, h, hr, hv, Bool.not_true, Bool.or_self, Bool.false_eq_true, if_false, if_neg hq]

theorem State.aqDisable_eq (hv : v.getLsbD 12 = false) : s.aqDisable fn v =
    if f.aqReady then s.flr fn else s.setFn fn (fun f => { f with aqCfg := v &&& 0x0FFF0FFF, badConfig := false }) := by
  simp only [State.aqDisable, h, hv, Bool.false_eq_true, if_false]

end Admin

/-! The links of the host (R438, R439, R440). -/

/-- The functions of a list are reset one after another. -/
def State.resetFns (s : State) (l : List Nat) : State := l.foldl (fun s g => s.flr g) s

theorem State.resetFns_links (l : List Nat) (s : State) :
    (s.resetFns l).yqi.link0 = s.yqi.link0 ∧ (s.resetFns l).yqi.link1 = s.yqi.link1 := by
  induction l generalizing s with
  | nil => exact ⟨rfl, rfl⟩
  | cons g l ih =>
    obtain ⟨h0, h1⟩ := ih (s.flr g)
    obtain ⟨k0, k1⟩ := s.flr_links g
    exact ⟨h0.trans k0, h1.trans k1⟩

/-- The state of one of the two links. -/
def State.setLink (s : State) (l : Nat) (k : PcieLink) : State :=
  { s with yqi := if l = 0 then { s.yqi with link0 := k } else { s.yqi with link1 := k } }

/-- The functions on a link. -/
def State.fnsOfLink (s : State) (l : Nat) : List Nat := (s.yqi.fns.filter (fun f => f.g / 32 == l)).map (·.g)

theorem State.linkDown_eq {s : State} {l : Nat} (hl : l < 2) : s.linkDown l = (s.resetFns (s.fnsOfLink l)).setLink l {} := by
  unfold State.linkDown State.setLink
  by_cases h : l = 0
  · simp only [if_pos h]; rfl
  · simp only [if_neg h, if_pos (show l = 1 by omega)]; rfl

theorem State.linkUp_eq {s : State} {l : Nat} (hl : l < 2) (flit : Bool) (speed width : Nat) :
    s.linkUp l flit speed width = s.setLink l { up := true, flit := flit, speed := speed, width := width } := by
  unfold State.linkUp State.setLink
  by_cases h : l = 0
  · simp only [if_pos h]
  · simp only [if_neg h, if_pos (show l = 1 by omega)]

/-- Settles O55, by the command of each clause and the branches of its state function. -/
theorem queuesFetchAndComplete : Obligations.QueuesFetchAndComplete := by
  unfold Obligations.QueuesFetchAndComplete
  refine ⟨fun s fn q v x h => ⟨fun hv => ?_, fun hv => ?_, fun hv hr => ?_, fun hv => ?_⟩,
    fun s fn q v h => ⟨?_, ?_⟩, fun s fn q x h hf hq => ?_, fun s a x h hq => ?_, fun s a h => ?_,
    fun s x c a => ⟨fun st d => State.arrive_refused, State.arrive_unpoliced, State.takeIn_unlocked, fun l hl hb => ?_,
      fun l hl hb => ?_⟩,
    fun s => ⟨fun h => ?_, fun c h => ?_, fun h => ?_⟩, fun s fn q cid a d c h hh => ⟨?_, fun x => State.finishCmd_without_data⟩,
    fun s d c x h hs hq hf hi => ⟨_, State.queueAt_writeCq_failed h hs hq hf hi, rfl, rfl, rfl, rfl⟩,
    fun s fn v f c h hc => ⟨fun ht hn => ?_, fun hn => ?_, State.raiseVector_unmasked h⟩,
    fun s fn cid q depth v sq cq irq f h => ⟨fun h1 h2 h3 h4 h5 h6 h7 h8 => ?_, fun hn => ?_⟩,
    fun s fn cid q => ⟨fun x h hq hx => ?_, fun h => ?_, rfl, rfl⟩,
    fun s fn q x asked h hx => ⟨fun he => ?_, fun k he ha => ?_, fun he ha => ?_, rfl, rfl⟩,
    fun s fn v f h => ⟨fun hr hv hq h0 hs hc => ?_, fun hr hv hq hb => ?_, fun hr => ?_, fun hr hv => ?_, fun hr hv => ?_⟩,
    fun s fn => ⟨fun h => ?_, fun h => ?_, fun f => s.flr_fn fn f, s.flr_queues fn⟩,
    fun s l speed width flit hl => ⟨⟨_, exec_pcieLinkDown .., ?_, ?_⟩, ?_, ?_⟩, fun s fn => s.freezeQueue_admin fn⟩
  -- doorbells, and a freeze
  · rw [exec_sqTailDoorbell, State.sqTail_eq h, if_neg (Nat.not_le.mpr hv)]
  · rw [exec_sqTailDoorbell, State.sqTail_eq h, if_pos hv]
  · rw [exec_cqHeadDoorbell, State.cqHead_eq h, if_neg (not_or.mpr ⟨Nat.not_le.mpr hv, Nat.not_lt.mpr hr⟩)]
  · rw [exec_cqHeadDoorbell, State.cqHead_eq h, if_pos hv]
  · rw [exec_sqTailDoorbell, State.sqTail_absent h]
  · rw [exec_cqHeadDoorbell, State.cqHead_absent h]
  · simp only [State.freezeQueue_yqi h hf hq]
    exact ⟨rfl, rfl, rfl⟩
  -- a fetch, and admission
  · exact congrArg _ (State.commandFetch_io h hq)
  · rw [exec_commandFetch, State.commandFetch_idle h]
  · rw [State.takeIn_locking hl, if_pos hb]
  · rw [State.takeIn_locking hl, hb, if_neg Bool.false_ne_true]
  · rw [exec_parkedAdmit, State.parkedAdmit_none h]
  · exact congrArg _ (State.parkedAdmit_some h)
  · rw [h]; rfl
  -- completion
  · rw [exec_ioCommandComplete, State.commandComplete_done h hh]
  · rw [exec_coalesceTimeout, State.coalesceTimeout_eq h hc, if_pos ⟨ht, hn⟩]
  · rw [exec_coalesceTimeout, State.coalesceTimeout_eq h hc, if_neg (fun hd => hn.elim hd.1 hd.2)]
  -- queues are created and deleted
  · rw [exec_queueCreate, State.queueCreate_new h ⟨Nat.one_le_iff_ne_zero.mp h1, h2, h3, h4, h5, h6, h7, h8⟩]
  · rw [exec_queueCreate, State.queueCreate_refused h]
    rintro ⟨h1, h2, h3, h4, h5, h6, h7, h8⟩
    simp only [h3, Option.isSome_none, Bool.false_eq_true, false_or] at hn
    omega
  · rw [exec_queueDelete, State.queueDelete_begins h hq hx]
  · rw [exec_queueDelete, State.queueDelete_refused h]
  · rw [exec_queueDeleteDone, State.queueDeleteDone_eq h hx, he, if_neg Bool.false_ne_true]
  · rw [exec_queueDeleteDone, State.queueDeleteDone_eq h hx, if_pos he, ha]; rfl
  · rw [exec_queueDeleteDone, State.queueDeleteDone_eq h hx, if_pos he, ha]; rfl
  -- the admin queue, a function's reset, and the links
  · rw [exec_aqEnable, State.aqEnable_eq h hr hv hq, if_neg (by simp only [h0, hs, hc, ne_eq, not_true, or_self, not_false_eq_true])]
  · rw [exec_aqEnable, State.aqEnable_eq h hr hv hq, if_pos hb]
  · rw [exec_aqEnable, State.aqEnable_ready h hr]
  · rw [exec_aqDisable, State.aqDisable_eq h hv, if_pos hr]
  · rw [exec_aqDisable, State.aqDisable_eq h hv, hr, if_neg Bool.false_ne_true]
  · rw [exec_functionLevelReset, State.functionReset, if_pos h]
  · rw [exec_functionLevelReset, State.functionReset, h, if_neg Bool.false_ne_true]
  · rw [State.linkDown_eq hl, State.setLink]
    split <;> rfl
  · rw [State.linkDown_eq hl, State.setLink]
    obtain ⟨h0, h1⟩ := s.resetFns_links (s.fnsOfLink l)
    split
    · exact h1
    · exact h0
  · rw [exec_pcieLinkDown, State.linkDown_eq hl]; rfl
  · rw [exec_pcieLinkUp, State.linkUp_eq hl]; rfl

end Sys2Proof.Machine

/-! PROOFS. The receiving side of the Gnoz transport: what becomes of a packet, the application of each message type, and
acknowledgements, with GnozMessagesAreReceived. -/

namespace Sys2Proof.Machine

/-! What these commands mean: each runs the state function of its instruction. -/

theorem exec_gnozFragmentReceive (p : GnozPacket) (s : State) :
    exec (.gnozFragmentReceive p) s = .next (s.fragmentReceive p) := rfl
theorem exec_gnozRxWrite (device msgId : Nat) (pl : Placement) (s : State) :
    exec (.gnozRxWrite device msgId pl) s = .next (s.rxWrite device msgId pl) := rfl
theorem exec_gnozRxSend (device msgId : Nat) (s : State) :
    exec (.gnozRxSend device msgId) s = .next (s.rxSend device msgId) := rfl
theorem exec_gnozRxForme (device msgId : Nat) (s : State) :
    exec (.gnozRxForme device msgId) s = .next (s.rxForme device msgId) := rfl
theorem exec_gnozRxStreamEvent (device msgId : Nat) (s : State) :
    exec (.gnozRxStreamEvent device msgId) s = .next (s.rxStreamEvent device msgId) := rfl
theorem exec_gnozRxRead (device msgId : Nat) (s : State) :
    exec (.gnozRxRead device msgId) s = .next (s.rxRead device msgId) := rfl
theorem exec_gnozRxReadData (device msgId : Nat) (s : State) :
    exec (.gnozRxReadData device msgId) s = .next (s.rxReadData device msgId) := rfl
theorem exec_gnozRxReply (device msgId : Nat) (s : State) :
    exec (.gnozRxReply device msgId) s = .next (s.rxReply device msgId) := rfl
theorem exec_gnozRxSyncAdd (device msgId : Nat) (s : State) :
    exec (.gnozRxSyncAdd device msgId) s = .next (s.rxSyncAdd device msgId) := rfl
theorem exec_gnozRxArm (device msgId : Nat) (s : State) :
    exec (.gnozRxArm device msgId) s = .next (s.rxArm device msgId) := rfl
theorem exec_gnozRxControl (device msgId : Nat) (s : State) :
    exec (.gnozRxControl device msgId) s = .next (s.rxControl device msgId) := rfl
theorem exec_gnozRxAck (device msgId : Nat) (s : State) :
    exec (.gnozRxAck device msgId) s = .next (s.rxAck device msgId) := rfl
theorem exec_dupEntryExpiry (device msgId : Nat) (s : State) :
    exec (.dupEntryExpiry device msgId) s = .next (s.dupExpiry device msgId) := rfl
theorem exec_reassemblyExpiry (device msgId : Nat) (s : State) :
    exec (.reassemblyExpiry device msgId) s = .next (s.reasmExpiry device msgId) := rfl
theorem exec_frameDiscard (f : FrameInfo) (c : DiscardCause) (s : State) :
    exec (.frameDiscard f c) s = .next (s.frameDiscard f c) := rfl

/-! What the removal of a message from the inbox leaves: queues, keys, routes and messages under way. -/

section DropIn

variable (s : State) (m : InMsg)

@[simp] theorem State.dropIn_gq (q : Nat) : (s.dropIn m).gq q = s.gq q := rfl
@[simp] theorem State.dropIn_gqEnabled (q : Nat) : (s.dropIn m).gqEnabled q = s.gqEnabled q := rfl
@[simp] theorem State.dropIn_keyAt (rkey : Nat) : (s.dropIn m).keyAt rkey = s.keyAt rkey := rfl
@[simp] theorem State.dropIn_permits (x : InMsg) (bit : Nat) : (s.dropIn m).permits x bit = s.permits x bit := rfl
@[simp] theorem State.dropIn_bulkRead (a n : Nat) : (s.dropIn m).bulkRead a n = s.bulkRead a n :=
  State.bulkRead_congr (s := s) (t := s.dropIn m) rfl rfl a n
@[simp] theorem State.dropIn_outMsgs : (s.dropIn m).gnoz.out = s.gnoz.out := rfl

end DropIn

/-! A packet (R443, R447, R456, R460): policed, checked, matched against the duplicate table, and placed. -/

/-- The second policer of a packet, that of its type. -/
def packetPolicer (p : GnozPacket) : Option Nat :=
  if beField p.header 1 1 < 16 then some (0x100 + 4 * beField p.header 1 1) else none

/-- The message that a packet brings, with its payload in clear. -/
def State.packetMsg (u : State) (p : GnozPacket) (ce : Bool) : InMsg :=
  { hdr := parseHdr p.header, attempt := beField p.header 4 1, sendTime := beField p.header 0x38 4, path := beField p.header 8 1,
    port := p.port, ce := p.ce || ce,
    payload := ((u.route (parseHdr p.header).route).bind (fun r => u.openPacket r p.header p.payload p.tag)).getD p.payload }

/-- The duplicate-table entry of a message. -/
def State.dupOf (s : State) (h : GnozHdr) : Option DupEntry :=
  s.gnoz.dups.find? (fun d => d.device == h.device && d.msgId == h.msgId)

/-- A reassembly context is open for a message. -/
def State.reasmOpen (s : State) (h : GnozHdr) : Bool :=
  s.gnoz.reasm.any (fun x => x.hdr.device == h.device && x.hdr.msgId == h.msgId)

section Packet

variable {s u : State} {p : GnozPacket} {ce : Bool}

theorem State.fragmentReceive_stopped (h : s.netFenced = true ∨ s.power.tripAt.isSome = true) : s.fragmentReceive p = s := by
  rw [State.fragmentReceive, if_pos (Bool.or_eq_true_iff.mpr h)]

variable (hf : s.netFenced = false) (ht : s.power.tripAt = none)
include hf ht

theorem State.fragmentReceive_policed
    (hp : (s.wakeEvent .packet).policeFrame p.port (p.frameBytes + 20) p.dscp (packetPolicer p) = (false, ce, u)) :
    s.fragmentReceive p = u := by
  rw [packetPolicer] at hp
  simp only [State.fragmentReceive, hf, ht, hp, Option.isSome_none, Bool.or_self, Bool.false_eq_true, Bool.not_false, Bool.true_or,
    if_false, if_true]

variable (hp : (s.wakeEvent .packet).policeFrame p.port (p.frameBytes + 20) p.dscp (packetPolicer p) = (true, ce, u))
include hp

theorem State.fragmentReceive_disabled (he : u.gnozEnabled = false) : s.fragmentReceive p = u := by
  rw [packetPolicer] at hp
  simp only [State.fragmentReceive, hf, ht, hp, he, Option.isSome_none, Bool.or_self, Bool.false_eq_true, Bool.not_false,
    Bool.or_true, if_false, if_true]

variable (he : u.gnozEnabled = true)
include he

theorem State.fragmentReceive_dropped {c : Nat} (hd : u.packetDrop p = some c) : s.fragmentReceive p = u.gnzBump c := by
  rw [packetPolicer] at hp
  simp only [State.fragmentReceive, hf, ht, hp, he, hd, Option.isSome_none, Bool.or_self, Bool.false_eq_true, Bool.not_true,
    if_false]

variable (hd : u.packetDrop p = none)
include hd

theorem State.fragmentReceive_duplicate {d : DupEntry} (hn : u.dupOf (parseHdr p.header) = some d) :
    s.fragmentReceive p =
      d.result.elim (u.gnzBump 3) (fun x => (u.gnzBump 3).sendAck (u.packetMsg p ce) x.1 x.2) := by
  rw [packetPolicer] at hp
  rw [State.dupOf] at hn
  simp only [State.fragmentReceive, hf, ht, hp, he, hd, hn, Option.isSome_none, Bool.or_self, Bool.false_eq_true, Bool.not_true,
    if_false]
  cases d.result <;> rfl

variable (hn : u.dupOf (parseHdr p.header) = none)
include hn

/-- A packet of a message without an entry: one that opens its message takes a buffer, or is dropped. -/
theorem State.fragmentReceive_new : s.fragmentReceive p =
    let count := beField p.header 0x14 2
    let b := if count == 1 || !u.reasmOpen (parseHdr p.header) then u.rxBuffer (parseHdr p.header) p.port p.payload.length
      else (true, u)
    if !b.1 then b.2
    else if count = 1 then (b.2.complete (u.packetMsg p ce)).2
    else b.2.reassemble (u.packetMsg p ce) (beField p.header 0x12 2) count (beField p.header 0x16 1) := by
  rw [packetPolicer] at hp
  rw [State.dupOf] at hn
  simp only [State.fragmentReceive, hf, ht, hp, he, hd, hn, Option.isSome_none, Bool.or_self, Bool.false_eq_true, Bool.not_true,
    if_false]
  rfl

theorem State.fragmentReceive_no_buffer {v : State}
    (ho : beField p.header 0x14 2 = 1 ∨ u.reasmOpen (parseHdr p.header) = false)
    (hv : u.rxBuffer (parseHdr p.header) p.port p.payload.length = (false, v)) : s.fragmentReceive p = v := by
  have hb : (beField p.header 0x14 2 == 1 || !u.reasmOpen (parseHdr p.header)) = true := by simpa using ho
  simp only [State.fragmentReceive_new hf ht hp he hd hn, hb, hv, Bool.not_false, if_true]

theorem State.fragmentReceive_whole {v : State} (hc : beField p.header 0x14 2 = 1)
    (hv : u.rxBuffer (parseHdr p.header) p.port p.payload.length = (true, v)) :
    s.fragmentReceive p = (v.complete (u.packetMsg p ce)).2 := by
  simp only [State.fragmentReceive_new hf ht hp he hd hn, hc, hv, beq_self_eq_true, Bool.true_or, Bool.not_true,
    Bool.false_eq_true, if_true, if_false]

theorem State.fragmentReceive_first {v : State} (hc : beField p.header 0x14 2 ≠ 1)
    (ho : u.reasmOpen (parseHdr p.header) = false)
    (hv : u.rxBuffer (parseHdr p.header) p.port p.payload.length = (true, v)) :
    s.fragmentReceive p =
      v.reassemble (u.packetMsg p ce) (beField p.header 0x12 2) (beField p.header 0x14 2) (beField p.header 0x16 1) := by
  simp only [State.fragmentReceive_new hf ht hp he hd hn, hc, ho, hv, Bool.not_true, Bool.not_false, Bool.or_true,
    Bool.false_eq_true, if_true, if_false]

theorem State.fragmentReceive_further (hc : beField p.header 0x14 2 ≠ 1) (ho : u.reasmOpen (parseHdr p.header) = true) :
    s.fragmentReceive p =
      u.reassemble (u.packetMsg p ce) (beField p.header 0x12 2) (beField p.header 0x14 2) (beField p.header 0x16 1) := by
  simp only [State.fragmentReceive_new hf ht hp he hd hn, hc, ho, beq_false_of_ne hc, Bool.not_true, Bool.or_self,
    Bool.false_eq_true, if_false]

end Packet

/-! A complete message and its duplicate-table entry (R456, R457). -/

section Complete

variable {s : State} {m : InMsg}

theorem State.complete_without_entry (h : takesEntry m.hdr.kind m.hdr.flags = false) :
    s.complete m = (true, { s with gnoz := { s.gnoz with inbox := s.gnoz.inbox ++ [m] } }) := by
  rw [State.complete, h, Bool.not_false, if_pos rfl]

theorem State.complete_with_entry (h : takesEntry m.hdr.kind m.hdr.flags = true) :
    s.complete m = if s.gnoz.dups.length ≥ 65536 then (false, (s.gnzBump 7).sendAck m 0x0C01)
      else (true, { s with gnoz := { s.gnoz with
        dups := s.gnoz.dups ++ [{ device := m.hdr.device, msgId := m.hdr.msgId }], inbox := s.gnoz.inbox ++ [m] } }) := by
  rw [State.complete, h, Bool.not_true, if_neg Bool.false_ne_true]

end Complete

/-! WRITE (R464, R470, R476). -/

section Write

variable {s : State} {device msgId : Nat} {pl : Placement} {m : InMsg}

theorem State.placeFragment_write (h : m.hdr.kind = 1) (off : Nat) (b : List Byte) : s.placeFragment m.hdr off b =
    if s.keyCheck true m.hdr.rkey m.hdr.remoteAddr m.hdr.length ≠ 0 then
      (s.keyCheck true m.hdr.rkey m.hdr.remoteAddr m.hdr.length, s)
    else (0, s.keyStore m.hdr.rkey (m.hdr.remoteAddr + off) b) := by
  rw [State.placeFragment, if_neg (not_not.mpr h)]

theorem State.keyStore_bulk {rkey : Nat} {k : GnozKey} (h : s.keyAt rkey = some k) (hk : k.kind = .bulk) (addr : Nat)
    (b : List Byte) : s.keyStore rkey addr b = { s with bulkMem := memWrite s.bulkMem (k.base + addr) b } := by
  simp only [State.keyStore, h, hk]

theorem State.rxWrite_absent (h : s.inMsg device msgId 1 = none) : s.rxWrite device msgId pl = s := by
  rw [State.rxWrite, h]

theorem State.ingestWrite_not_permitted (h : s.permits m 5 = false) (k : GnozKey) (ns : Nat) :
    s.ingestWrite m k ns pl = s.writeEnd m 0x0C08 := by
  rw [State.ingestWrite, h, Bool.not_false, if_pos rfl]

variable (hm : s.inMsg device msgId 1 = some m)
include hm

/-- A WRITE that is not placed yet and fails its key's checks. -/
theorem State.rxWrite_refused (hp : m.placed = false) (hk : m.hdr.kind = 1)
    (h : s.keyCheck true m.hdr.rkey m.hdr.remoteAddr m.hdr.length ≠ 0) : s.rxWrite device msgId pl =
      s.writeEnd m (s.keyCheck true m.hdr.rkey m.hdr.remoteAddr m.hdr.length) := by
  simp only [State.rxWrite, hm, hp, State.placeFragment_write hk, if_pos h, Bool.false_eq_true, if_false]

/-- A WRITE to bulk memory is stored within its key. -/
theorem State.rxWrite_bulk {k : GnozKey} (hp : m.placed = false) (hk : m.hdr.kind = 1)
    (h : s.keyCheck true m.hdr.rkey m.hdr.remoteAddr m.hdr.length = 0) (hr : s.keyAt m.hdr.rkey = some k) (hb : k.kind = .bulk) :
    s.rxWrite device msgId pl = (s.keyStore m.hdr.rkey m.hdr.remoteAddr m.payload).writeEnd m 0 := by
  simp only [State.rxWrite, hm, hp, State.placeFragment_write hk, if_neg (not_not.mpr h), hr, hb, Nat.add_zero,
    Bool.false_eq_true, ne_eq, not_true, if_false]

theorem State.rxWrite_placed_refused (hp : m.placed = true) (h : m.status ≠ 0) :
    s.rxWrite device msgId pl = s.writeEnd m m.status := by
  simp only [State.rxWrite, hm, hp, if_true, if_pos h]

theorem State.rxWrite_placed_range {k : GnozKey} {ns : Nat} (hp : m.placed = true) (h : m.status = 0)
    (hr : s.keyAt m.hdr.rkey = some k) (hb : k.kind = .nsRange ns) : s.rxWrite device msgId pl = s.ingestWrite m k ns pl := by
  simp only [State.rxWrite, hm, hp, if_true, if_neg (not_not.mpr h), hr, hb]

end Write

/-! SEND, FORME and STREAM_EVENT go into the next posted receive (R474). -/

section Receive

variable {s : State} {m : InMsg}

theorem State.rxSend_some {device msgId : Nat} (h : s.inMsg device msgId 2 = some m) :
    s.rxSend device msgId = s.intoReceive m := by
  rw [State.rxSend, h]

theorem State.rxForme_some {device msgId : Nat} (h : s.inMsg device msgId 9 = some m) :
    s.rxForme device msgId = s.intoReceive m := by
  rw [State.rxForme, h]

theorem State.rxStreamEvent_some {device msgId : Nat} (h : s.inMsg device msgId 0xA = some m) :
    s.rxStreamEvent device msgId = s.intoReceive m := by
  rw [State.rxStreamEvent, h]

/-- The check context of a posted receive is held. -/
def State.recvHeld (s : State) (w : WorkReq) : Bool := w.flags.testBit 2 && s.regFld (chkCtx 1 w.checkCtx 4) 0 1 == 1

theorem State.intoReceive_none_posted (hr : (s.gq m.hdr.dstQueue).recvs = []) : s.intoReceive m =
    if s.gqEnabled m.hdr.dstQueue then ((s.dropIn m).ackApplied m 0x0C06).dropEntry m
    else (s.dropIn m).ackApplied m 0x0C02 := by
  simp only [State.intoReceive, State.dropIn_gq, State.dropIn_gqEnabled, hr, Bool.false_eq_true, if_false]
  cases s.gqEnabled m.hdr.dstQueue <;> rfl

variable {i : Nat} {w : WorkReq} {rest : List (Nat × WorkReq)} (hr : (s.gq m.hdr.dstQueue).recvs = (i, w) :: rest)
include hr

theorem State.intoReceive_held (hh : s.recvHeld w = true) : s.intoReceive m = s := by
  rw [State.recvHeld] at hh
  simp only [State.intoReceive, hr, hh, if_true]

variable (hh : s.recvHeld w = false)
include hh

theorem State.intoReceive_disabled (he : s.gqEnabled m.hdr.dstQueue = false) :
    s.intoReceive m = (s.dropIn m).ackApplied m 0x0C02 := by
  rw [State.recvHeld] at hh
  simp only [State.intoReceive, State.dropIn_gqEnabled, hr, hh, he, Bool.false_eq_true, if_false, Bool.not_false, if_true]

variable (he : s.gqEnabled m.hdr.dstQueue = true)
include he

theorem State.intoReceive_too_long (hl : w.length < m.payload.length) :
    s.intoReceive m = (s.dropIn m).ackApplied m 0x0C07 := by
  rw [State.recvHeld] at hh
  simp only [State.intoReceive, State.dropIn_gq, State.dropIn_gqEnabled, hr, hh, he, Bool.false_eq_true, if_false, Bool.not_true,
    if_pos hl]

omit hh in
/-- A receive without a check takes the message's bytes as they are, and completes. -/
theorem State.intoReceive_unchecked (hl : m.payload.length ≤ w.length) (hc : w.flags.testBit 2 = false) :
    s.intoReceive m = (((((s.dropIn m).setGq { (s.dropIn m).gq m.hdr.dstQueue with recvs := rest }).gqWrite m.hdr.dstQueue
      w.localAddr m.payload).gqComplete m.hdr.dstQueue i 7 0 0 m.hdr.immediate m.payload.length m.hdr.device).ackApplied m 0) := by
  simp only [State.intoReceive, State.dropIn_gq, State.dropIn_gqEnabled, hr, hc, he, Bool.false_and, Bool.false_eq_true, if_false,
    Bool.not_true, if_neg (Nat.not_lt.mpr hl), if_true]

end Receive

/-! READ of bulk memory (R464, R477). -/

section Read

variable {s : State} {device msgId : Nat} {m : InMsg} {k : GnozKey}

theorem State.keyRead_bulk {rkey : Nat} (hr : s.keyAt rkey = some k) (hk : k.kind = .bulk) (addr n : Nat) :
    s.keyRead rkey addr n = s.bulkRead (k.base + addr) n := by
  simp only [State.keyRead, hr, hk]

/-- A READ of bulk memory waits for nothing: it is refused for its key or its length, or answered with the data. -/
theorem State.rxRead_bulk (hm : s.inMsg device msgId 3 = some m) (hr : s.keyAt m.hdr.rkey = some k) (hk : k.kind = .bulk) :
    s.rxRead device msgId =
      if s.keyCheck false m.hdr.rkey m.hdr.remoteAddr (m.hdr.immediate % 2 ^ 32) ≠ 0 then
        (s.dropIn m).ackApplied m (s.keyCheck false m.hdr.rkey m.hdr.remoteAddr (m.hdr.immediate % 2 ^ 32))
      else if m.hdr.immediate % 2 ^ 32 > 16777216 then (s.dropIn m).ackApplied m 0x0C05
      else ((s.dropIn m).gnzBump 1).sendMsg {
        kind := 4, device := m.hdr.device, route := m.hdr.route, dstQueue := m.hdr.srcQueue, srcQueue := m.hdr.dstQueue,
        msgId := 0, length := 0, immediate := m.hdr.msgId }
        (s.bulkRead (k.base + m.hdr.remoteAddr) (m.hdr.immediate % 2 ^ 32)) .reply := by
  have hw : s.readWaits m k (m.hdr.immediate % 2 ^ 32) = false := by rw [State.readWaits, hk]
  have hn : (s.dropIn m).nsReadRefusal k m.hdr.remoteAddr (m.hdr.immediate % 2 ^ 32) = none := by rw [State.nsReadRefusal, hk]
  have hd : (s.dropIn m).keyAt m.hdr.rkey = some k := hr
  simp only [State.rxRead, hm, hr, hd, hw, hn, State.keyRead_bulk hd hk, State.dropIn_bulkRead, Option.map_some,
    Option.getD_some, Bool.and_false, Bool.false_eq_true, if_false, Option.bind_some]

end Read

/-! READ_DATA and REPLY (R458, R477, R481). -/

section Returned

variable {s : State} {device msgId : Nat} {m : InMsg}

theorem State.rxReadData_some (h : s.inMsg device msgId 4 = some m) : s.rxReadData device msgId = s.returned m 3 3 := by
  rw [State.rxReadData, h]

theorem State.rxReply_some (h : s.inMsg device msgId 8 = some m) : s.rxReply device msgId = s.returned m 7 5 := by
  rw [State.rxReply, h]

/-- The request of this device that a returned message answers. -/
def State.requestOf (s : State) (m : InMsg) (kind : Nat) : Option OutMsg :=
  s.gnoz.out.find? (fun o => o.minted && o.hdr.kind == kind && o.hdr.msgId == m.hdr.immediate % 2 ^ 48 &&
    o.hdr.device == m.hdr.device)

variable {kind op : Nat}

theorem State.returned_unmatched (h : s.requestOf m kind = none) : s.returned m kind op = s.dropIn m := by
  rw [State.requestOf] at h
  simp only [State.returned, State.dropIn_outMsgs, h]

/-- Data that fits its request's place is written there, and completes it. -/
theorem State.returned_fits {o : OutMsg} {q i x addr cap : Nat} (h : s.requestOf m kind = some o)
    (ho : o.owner = .wr q i x addr cap) (hl : m.payload.length ≤ cap) : s.returned m kind op =
      (((((s.dropIn m).endOut o).gqWrite q addr m.payload).gqComplete q i op 0 0 0 m.payload.length m.hdr.device).ackApplied m 0) := by
  rw [State.requestOf] at h
  simp only [State.returned, State.dropIn_outMsgs, h, ho, decide_eq_false (Nat.not_lt.mpr hl), Bool.false_eq_true, if_false]

end Returned

/-! SYNC_ADD (R381 to R383, R478). -/

section SyncAdd

variable {s : State} {device msgId imm : Nat} {m : InMsg}

theorem State.rxSyncAdd_not_permitted (h : s.inMsg device msgId 5 = some m) (hp : s.permits m 6 = false) :
    s.rxSyncAdd device msgId = (s.dropIn m).ackApplied m 0x0C08 := by
  simp only [State.rxSyncAdd, h, State.dropIn_permits, hp, Bool.not_false, if_true]

theorem State.rxSyncAdd_permitted (h : s.inMsg device msgId 5 = some m) (hp : s.permits m 6 = true) :
    s.rxSyncAdd device msgId =
      ((s.dropIn m).remoteAdd device m.hdr.immediate).2.ackApplied m ((s.dropIn m).remoteAdd device m.hdr.immediate).1 := by
  simp only [State.rxSyncAdd, h, State.dropIn_permits, hp, Bool.not_true, Bool.false_eq_true, if_false]

theorem State.remoteAdd_fenced (h : s.fieldFenced = true) : s.remoteAdd device imm = (0x1002, s) := by
  rw [State.remoteAdd, if_pos h]

/-- The counters below 49152 are the runs' own. -/
theorem State.remoteAdd_own (h : s.fieldFenced = false) (hp : imm % 65536 < 49152) : s.remoteAdd device imm = (0x0B05, s) := by
  simp only [State.remoteAdd, h, Bool.false_eq_true, if_false, hp, true_or, if_true, ite_self]

theorem State.remoteAdd_adds (h : s.fieldFenced = false) (hr : imm / 2 ^ 40 = 0) (hp : 49152 ≤ imm % 65536)
    (hn : imm / 2 ^ 24 % 65536 ≠ 0) (ho : (s.ctr (imm % 65536)).owner.isSome = true) (hs : (s.ctr (imm % 65536)).remote = true)
    (hg : (s.ctr (imm % 65536)).gen = imm / 2 ^ 16 % 256) : s.remoteAdd device imm =
      ((s.counterAdd (imm % 65536) (imm / 2 ^ 24 % 65536) (sigRemote device) device 0xFFFF).1,
       (s.counterAdd (imm % 65536) (imm / 2 ^ 24 % 65536) (sigRemote device) device 0xFFFF).2.bump
         (synBase + 0x40) (synBase + 0x48) 0) := by
  have hi : (s.ctr (imm % 65536)).owner.isNone = false := by rw [← Option.not_isSome, ho]; rfl
  simp only [State.remoteAdd, h, hr, hn, Nat.not_lt.mpr hp, hi, hs, hg, Bool.false_eq_true, Bool.true_eq_false, ne_eq, not_true,
    or_self, if_false]

end SyncAdd

/-! ARM (R473) and CONTROL (R481). -/

section ArmAndControl

variable {s : State} {device msgId : Nat} {m : InMsg}

theorem State.rxArm_some (h : s.inMsg device msgId 0xB = some m) : s.rxArm device msgId =
    let g := (s.dropIn m).gq m.hdr.dstQueue
    let rel := g.armed.filter (fun x => x.2.armTag == m.hdr.immediate % 65536)
    State.ackApplied (if rel.isEmpty then s.dropIn m else (s.dropIn m).setGq { g with
      armed := g.armed.filter (fun x => !(x.2.armTag == m.hdr.immediate % 65536)), released := g.released ++ rel })
      m 0 rel.length := by
  rw [State.rxArm, h]

/-- The entry under which the control service holds a request. -/
def controlOf (device msgId : Nat) (m : InMsg) : ControlReq :=
  { device := device, msgId := msgId, queue := m.hdr.srcQueue, route := m.hdr.route, path := m.path }

/-- The control service takes a request. -/
def State.takeControl (s : State) (c : ControlReq) : State :=
  { s with gnoz := { s.gnoz with controls := s.gnoz.controls ++ [c] } }

theorem State.rxControl_some (h : s.inMsg device msgId 7 = some m) : s.rxControl device msgId =
    if m.hdr.dstQueue ≠ 0 then (s.dropIn m).ackApplied m 0x0C02
    else if !s.permits m 4 then (s.dropIn m).ackApplied m 0x0C08
    else if !controlOk m.payload then (s.dropIn m).ackApplied m 0x0C0A
    else
      let t := (s.dropIn m).takeControl (controlOf device msgId m)
      if s.trust.pending then t.controlReply (controlOf device msgId m) 0x0F03 0 0 [] else t := by
  rw [State.rxControl, h]
  rfl

end ArmAndControl

/-! Acknowledgements (R454, R455, R457, R469). -/

section Ack

variable {s : State} {device msgId : Nat} {a : InMsg} (ha : s.inMsg device msgId 0xC = some a)
include ha

theorem State.rxAck_unmatched (ho : s.gnoz.out = []) : s.rxAck device msgId =
    (if a.hdr.flags.testBit 2 then (s.dropIn a).gnzBump 10 else s.dropIn a).gnzBump 9 := by
  have hu : (if a.hdr.flags.testBit 2 then (s.dropIn a).gnzBump 10 else s.dropIn a).gnoz.out = [] := by
    split
    · rw [State.gnzBump, State.bump_gnoz, State.dropIn_outMsgs, ho]
    · rw [State.dropIn_outMsgs, ho]
  simp only [State.rxAck, ha, hu, List.findIdx?_nil]

/-- The status that an acknowledgement carries. -/
def ackStatus (a : InMsg) : Status := BitVec.ofNat 16 (a.hdr.immediate / 2 ^ 48)

section Matched

variable {i : Nat} {m : OutMsg}
  (hi : s.gnoz.out.findIdx? (fun o => o.minted && !o.ended && o.hdr.msgId == a.hdr.immediate % 2 ^ 48 && o.hdr.device == device) =
    some i)
  (hm : s.gnoz.out[i]? = some m) (he : a.hdr.flags.testBit 2 = false) (hb : a.hdr.flags.testBit 3 = false) (hf : m.flight = [])
include hi hm he hb hf

/-- What an acknowledgement without a bitmap does to its message, none of whose fragments is in flight. -/
theorem State.rxAck_matched : s.rxAck device msgId =
    if ackStatus a = 0x0C01 then
      if m.attempt ≥ 255 ∨ s.now ≥ m.bornAt + 400000000 then
        ((s.dropIn a).setOut i { m with busy := true }).giveUp { m with busy := true }
      else ((s.dropIn a).setOut i { m with busy := true }).retransmit i { m with busy := true }
    else if ackStatus a = 0x0C06 ∧ m.hdr.kind = 2 then (s.dropIn a).setOut i { m with refused := ackStatus a, busy := false }
    else if ackStatus a = 0 ∧ (m.hdr.kind = 3 ∨ m.hdr.kind = 7) then
      ((s.dropIn a).setOut i { m with flight := [], resend := [], acked := true }).pump
    else (s.dropIn a).messageEnd m (ackStatus a) (if ackStatus a = 0x0C04 then (if m.attempt = 0 then 1 else 2) else 0)
      (a.hdr.remoteAddr / 2 ^ 32) := by
  simp only [State.rxAck, ha, State.dropIn_outMsgs, hi, hm, he, hb, hf, Bool.false_eq_true, if_false, List.map_nil,
    List.eraseDups_nil, List.foldl_nil]
  cases (s.dropIn a).route m.hdr.route <;> rfl

/-- A status that is final ends the message: not that of a busy receiver nor of a SEND without a receive, and not the status 0 of a
request whose data is still to come. -/
theorem State.rxAck_ends (h1 : ackStatus a ≠ 0x0C01) (h2 : ackStatus a ≠ 0x0C06 ∨ m.hdr.kind ≠ 2)
    (h3 : ackStatus a ≠ 0 ∨ (m.hdr.kind ≠ 3 ∧ m.hdr.kind ≠ 7)) : s.rxAck device msgId =
      (s.dropIn a).messageEnd m (ackStatus a) (if ackStatus a = 0x0C04 then (if m.attempt = 0 then 1 else 2) else 0)
        (a.hdr.remoteAddr / 2 ^ 32) := by
  have h2' : ¬(ackStatus a = 0x0C06 ∧ m.hdr.kind = 2) := not_and_or.mpr h2
  have h3' : ¬(ackStatus a = 0 ∧ (m.hdr.kind = 3 ∨ m.hdr.kind = 7)) := not_and_or.mpr (h3.imp_right not_or.mpr)
  rw [State.rxAck_matched ha hi hm he hb hf, if_neg h1, if_neg h2', if_neg h3']

theorem State.rxAck_no_receive (h : ackStatus a = 0x0C06) (hk : m.hdr.kind = 2) :
    s.rxAck device msgId = (s.dropIn a).setOut i { m with refused := ackStatus a, busy := false } := by
  have h1 : ackStatus a ≠ 0x0C01 := by rw [h]; decide
  rw [State.rxAck_matched ha hi hm he hb hf, if_neg h1, if_pos ⟨h, hk⟩]

theorem State.rxAck_busy (h : ackStatus a = 0x0C01) (hl : m.attempt < 255) (ht : s.now < m.bornAt + 400000000) :
    s.rxAck device msgId = ((s.dropIn a).setOut i { m with busy := true }).retransmit i { m with busy := true } := by
  rw [State.rxAck_matched ha hi hm he hb hf, if_pos h, if_neg (not_or.mpr ⟨Nat.not_le.mpr hl, Nat.not_le.mpr ht⟩)]

end Matched

end Ack

/-! Expiry of an entry and of a reassembly context (R456, R461). -/

section Expiry

variable (s : State) (device msgId : Nat)

theorem State.dupExpiry_eq : s.dupExpiry device msgId = if 500 < s.ageTicks msgId ∧ s.ageTicks msgId < 65486 then
    { s with gnoz := { s.gnoz with dups := s.gnoz.dups.filter (fun e => !(e.device == device && e.msgId == msgId)) } }
    else s := rfl

theorem State.reasmExpiry_eq : s.reasmExpiry device msgId = if 500 < s.ageTicks msgId ∧ s.ageTicks msgId < 65486 then
    { s with gnoz := { s.gnoz with reasm := s.gnoz.reasm.filter (fun x => !(x.hdr.device == device && x.hdr.msgId == msgId)) } }
    else s := rfl

end Expiry

theorem State.frameDiscard_eq {s u : State} {f : FrameInfo} {b : Bool} (h : s.policeOther f none = (b, u)) (c : DiscardCause) :
    s.frameDiscard f c = if b then u.gnzBump 12 else u := by
  simp only [State.frameDiscard, h]

/-- Settles O57, by the message type of each clause and the branches of its state function. -/
theorem gnozMessagesAreReceived : Obligations.GnozMessagesAreReceived := by
  unfold Obligations.GnozMessagesAreReceived
  refine ⟨?_, fun s p h => congrArg _ (State.fragmentReceive_stopped h), ?_, ?_,
    fun s m => ⟨State.complete_without_entry, fun h => ⟨fun hl => ?_, fun hl => ?_⟩⟩,
    fun s device msgId pl m hm hp hk => ⟨fun h => congrArg _ (State.rxWrite_refused hm hp hk h), fun h k hr hb =>
      ⟨State.keyStore_bulk hr hb _ _, congrArg _ (State.rxWrite_bulk hm hp hk h hr hb)⟩⟩,
    fun s device msgId pl => ⟨fun h => congrArg _ (State.rxWrite_absent h),
      fun m hm hp h => congrArg _ (State.rxWrite_placed_refused hm hp h),
      fun m k ns hm hp h hr hb => congrArg _ (State.rxWrite_placed_range hm hp h hr hb),
      fun m k ns h => State.ingestWrite_not_permitted h k ns⟩,
    fun s device msgId m => ⟨fun h => congrArg _ (State.rxSend_some h), fun h => congrArg _ (State.rxForme_some h),
      fun h => congrArg _ (State.rxStreamEvent_some h)⟩,
    fun s m => ⟨fun he hr => ?_, fun he hr => ?_, fun i w rest hr => ⟨State.intoReceive_held hr,
      State.intoReceive_disabled hr, State.intoReceive_too_long hr, State.intoReceive_unchecked hr⟩⟩,
    fun s device msgId m k hm hr hk => ⟨fun h => ?_, fun h hl => ?_, fun h hl => ?_⟩,
    fun s device msgId m => ⟨fun h => congrArg _ (State.rxReadData_some h), fun h => congrArg _ (State.rxReply_some h),
      fun kind op => State.returned_unmatched, fun kind op o q i x addr cap => State.returned_fits⟩,
    fun s device msgId m hm => ⟨fun h => congrArg _ (State.rxSyncAdd_not_permitted hm h),
      fun h => congrArg _ (State.rxSyncAdd_permitted hm h), State.remoteAdd_fenced, State.remoteAdd_own, State.remoteAdd_adds⟩,
    fun s device msgId m hm => ⟨fun h => ?_, fun h => ?_⟩,
    fun s device msgId m hm => ⟨fun hq => ?_, fun hq hp => ?_, fun hq hp hc => ?_,
      fun hq hp hc => ⟨fun ht => ?_, fun ht => ?_⟩⟩,
    fun s device msgId a ha ho => ⟨fun he => ?_, fun he => ?_⟩,
    fun s device msgId i a m ha hi hm he hb hf => ⟨fun h1 h2 h3 => congrArg _ (State.rxAck_ends ha hi hm he hb hf h1 h2 h3),
      fun h hk => congrArg _ (State.rxAck_no_receive ha hi hm he hb hf h hk),
      fun h hl ht => congrArg _ (State.rxAck_busy ha hi hm he hb hf h hl ht)⟩,
    fun s device msgId => ⟨fun h => ?_, fun h => ?_⟩, fun s u f c => ⟨fun h => ?_, fun h => ?_⟩⟩
  -- packets
  · rintro s w u p ce hf ht rfl
    refine ⟨fun hp => congrArg _ (State.fragmentReceive_policed hf ht hp), fun hp =>
      ⟨fun he => congrArg _ (State.fragmentReceive_disabled hf ht hp he),
        fun he c hd => congrArg _ (State.fragmentReceive_dropped hf ht hp he hd)⟩⟩
  · rintro s w u p ce d hf ht rfl hp he hd hn
    have h := State.fragmentReceive_duplicate hf ht hp he hd hn
    refine ⟨fun hr => ?_, fun st r hr => ?_⟩
    · rw [exec_gnozFragmentReceive, h, hr]; rfl
    · rw [exec_gnozFragmentReceive, h, hr]; rfl
  · rintro s w u v p ce hf ht rfl hp he hd hn
    exact ⟨fun ho hv => congrArg _ (State.fragmentReceive_no_buffer hf ht hp he hd hn ho hv),
      fun hc hv => congrArg _ (State.fragmentReceive_whole hf ht hp he hd hn hc hv),
      fun hc ho hv => congrArg _ (State.fragmentReceive_first hf ht hp he hd hn hc ho hv),
      fun hc ho => congrArg _ (State.fragmentReceive_further hf ht hp he hd hn hc ho)⟩
  -- a complete message
  · rw [State.complete_with_entry h, if_pos hl]
  · rw [State.complete_with_entry h, if_neg (Nat.not_le.mpr hl)]
  -- a queue without a posted receive
  · rw [State.intoReceive_none_posted hr, he, if_neg Bool.false_ne_true]
  · rw [State.intoReceive_none_posted hr, he, if_pos rfl]
  -- READ
  · rw [exec_gnozRxRead, State.rxRead_bulk hm hr hk, if_pos h]
  · rw [exec_gnozRxRead, State.rxRead_bulk hm hr hk, if_neg (not_not.mpr h), if_pos hl]
  · rw [exec_gnozRxRead, State.rxRead_bulk hm hr hk, if_neg (not_not.mpr h), if_neg (Nat.not_lt.mpr hl)]
  -- ARM
  · rw [exec_gnozRxArm, State.rxArm_some hm]
    simp only [h, List.isEmpty_nil, if_true, List.length_nil]
  · rw [exec_gnozRxArm, State.rxArm_some hm]
    simp only [List.isEmpty_iff, if_neg h]
  -- CONTROL
  · rw [exec_gnozRxControl, State.rxControl_some hm, if_pos hq]
  · rw [exec_gnozRxControl, State.rxControl_some hm, if_neg (not_not.mpr hq), hp, Bool.not_false, if_pos rfl]
  · rw [exec_gnozRxControl, State.rxControl_some hm, if_neg (not_not.mpr hq), hp, hc]; rfl
  · rw [exec_gnozRxControl, State.rxControl_some hm, if_neg (not_not.mpr hq), hp, hc, ht]; rfl
  · rw [exec_gnozRxControl, State.rxControl_some hm, if_neg (not_not.mpr hq), hp, hc, ht]; rfl
  -- ACK
  · rw [exec_gnozRxAck, State.rxAck_unmatched ha ho, he, if_neg Bool.false_ne_true]
  · rw [exec_gnozRxAck, State.rxAck_unmatched ha ho, if_pos he]
  -- entries expire
  · rw [exec_dupEntryExpiry, exec_reassemblyExpiry, State.dupExpiry_eq, State.reasmExpiry_eq, if_pos h, if_pos h]
    exact ⟨rfl, rfl⟩
  · have hn : ¬(500 < s.ageTicks msgId ∧ s.ageTicks msgId < 65486) := by omega
    rw [exec_dupEntryExpiry, exec_reassemblyExpiry, State.dupExpiry_eq, State.reasmExpiry_eq, if_neg hn, if_neg hn]
    exact ⟨rfl, rfl⟩
  · rw [exec_frameDiscard, State.frameDiscard_eq h, if_pos rfl]
  · rw [exec_frameDiscard, State.frameDiscard_eq h, if_neg Bool.false_ne_true]

end Sys2Proof.Machine

/-! PROOFS. The sending side and the configuration of the Gnoz transport: work requests, retransmission and expiry, the tables,
queues, clock and ports, with GnozSendsAndIsConfigured. -/

namespace Sys2Proof.Machine

/-! What these commands mean: each runs the state function of its instruction. -/

theorem exec_gnzQDoorbell (q : Nat) (v : Word) (s : State) : exec (.gnzQDoorbell q v) s = .next (s.gqDoorbell q v) := rfl
theorem exec_wrWrite (q : Nat) (s : State) : exec (.wrWrite q) s = .next (s.wrStart q 1) := rfl
theorem exec_wrSend (q : Nat) (s : State) : exec (.wrSend q) s = .next (s.wrStart q 2) := rfl
theorem exec_wrRead (q : Nat) (s : State) : exec (.wrRead q) s = .next (s.wrStart q 3) := rfl
theorem exec_wrSyncAdd (q : Nat) (s : State) : exec (.wrSyncAdd q) s = .next (s.wrStart q 4) := rfl
theorem exec_wrControl (q : Nat) (s : State) : exec (.wrControl q) s = .next (s.wrStart q 5) := rfl
theorem exec_wrArm (q : Nat) (s : State) : exec (.wrArm q) s = .next (s.wrStart q 6) := rfl
theorem exec_wrRecv (q : Nat) (s : State) : exec (.wrRecv q) s = .next (s.wrStart q 7) := rfl
theorem exec_rtoExpiry (i : Nat) (s : State) : exec (.rtoExpiry i) s = .next (s.rtoExpiry i) := rfl
theorem exec_messageExpiry (i : Nat) (s : State) : exec (.messageExpiry i) s = .next (s.messageExpiry i) := rfl
theorem exec_formeResend (s : State) : exec .formeResend s = .next s.formeResend := rfl
theorem exec_gnozHoldoffEnd (s : State) : exec .gnozHoldoffEnd s = .next s.holdoffEnd := rfl
theorem exec_gnzTableRead (s : State) : exec .gnzTableRead s = .next s.tableRead := rfl
theorem exec_gnzTableWrite (s : State) : exec .gnzTableWrite s = .next s.tableWrite := rfl
theorem exec_gnzTableInvalidate (s : State) : exec .gnzTableInvalidate s = .next s.tableInvalidate := rfl
theorem exec_keyRegister (slot i base len : Nat) (w r : Bool) (notify : Nat) (s : State) :
    exec (.keyRegister slot i base len w r notify) s = .next (s.keyRegister slot i base len w r notify) := rfl
theorem exec_gnzQueueAlloc (slot k wr cq : Nat) (s : State) :
    exec (.gnzQueueAlloc slot k wr cq) s = .next (s.queueAlloc slot k wr cq) := rfl
theorem exec_gnzClockWrite (v : Word) (s : State) : exec (.gnzClockWrite v) s = .next (s.clockWrite v) := rfl
theorem exec_ptpMessage (f : FrameInfo) (offset : Int) (locked : Bool) (d : Option Nat) (s : State) :
    exec (.ptpMessage f offset locked d) s = .next (s.ptpMessage f offset locked d) := rfl
theorem exec_arpNeighbourRx (f : FrameInfo) (addr : List Byte) (s : State) :
    exec (.arpNeighbourRx f addr) s = .next (s.arpNeighbour f addr) := rfl
theorem exec_icmpEchoRx (f : FrameInfo) (payload : List Byte) (s : State) :
    exec (.icmpEchoRx f payload) s = .next (s.icmpEcho f payload) := rfl
theorem exec_gnzEthModeWrite (v : Word) (s : State) : exec (.gnzEthModeWrite v) s = .next (s.ethModeWrite v) := rfl
theorem exec_ethPortLinkChange (lp : Nat) (up : Bool) (s : State) :
    exec (.ethPortLinkChange lp up) s = .next (s.ethLinkChange lp up) := rfl
theorem exec_gnzCfgWrite (timing : Bool) (v : Word) (s : State) :
    exec (.gnzCfgWrite timing v) s = .next (s.gnzCfgWrite timing v) := rfl

/-! Fields of registers. -/

/-- A field that is set from the same field of another word reads as that one. -/
theorem State.fld_reg_setBits {s : State} (hw : s.regsWf = true) (off : Nat) (v : Word) {lo len : Nat} (h : lo + len ≤ 32) :
    fld ((s.setBits off lo len (fld v lo len)).reg off) lo len = fld v lo len :=
  (State.regFld_setBits s off _ hw h).trans (Nat.mod_mod _ _)

theorem State.reg_setBits_ne (s : State) {off o : Nat} (lo len x : Nat) (h : o ≠ off) : (s.setBits off lo len x).reg o = s.reg o :=
  s.reg_setReg_ne _ _ _ h

/-- A doorbell sets TAIL of its queue. -/
theorem State.gqDoorbell_eq {q : Nat} (hq : q < 4096) (s : State) (v : Word) :
    s.gqDoorbell q v = s.setBits (0xA10018 + q * 0x40) 0 17 (fld v 0 17) := by
  have ht : gnzQ q 0x18 = 0xA10018 + q * 0x40 := by rw [gnzQ, gnzBase]; omega
  rw [State.gqDoorbell, if_pos hq, ht]

/-! Tables of the transport: an entry reads as it was last set. -/

/-- What a test was filtered out of does not pass it. -/
theorem find?_filter_not {α : Type} (l : List α) (p : α → Bool) : (l.filter (fun x => !p x)).find? p = none :=
  List.find?_eq_none.mpr fun x hx hp => by simpa only [hp, Bool.not_true, Bool.false_eq_true] using (List.mem_filter.mp hx).2

/-- A test finds the entry that stands in the place of those that pass it. -/
theorem find?_replaced {α : Type} (l : List α) {p : α → Bool} {x : α} (h : p x = true) :
    (l.filter (fun y => !p y) ++ [x]).find? p = some x := by
  rw [List.find?_append, find?_filter_not, Option.none_or, List.find?_singleton, if_pos h]

theorem State.gq_setGq (s : State) (x : GnozQueue) : (s.setGq x).gq x.q = x :=
  congrArg (·.getD { q := x.q }) (find?_replaced s.gnoz.queues (p := fun y => y.q == x.q) (beq_self_eq_true x.q))

theorem State.keyEntry_setKey (s : State) (k : GnozKey) : (s.setKey k).keyEntry k.index = some k :=
  find?_replaced s.gnoz.keys (p := fun y => y.index == k.index) (beq_self_eq_true k.index)

/-- The state of a path carries the path's own route and number. -/
theorem State.pathState_key (s : State) (r p : Nat) : (s.pathState r p).route = r ∧ (s.pathState r p).path = p := by
  unfold State.pathState
  cases h : s.gnoz.paths.find? (fun x => x.route == r && x.path == p) with
  | none => exact ⟨rfl, rfl⟩
  | some x =>
    have hx := List.find?_some h
    rwa [Bool.and_eq_true, beq_iff_eq, beq_iff_eq] at hx

theorem State.pathState_setPath (s : State) {x : PathState} {r p : Nat} (hr : x.route = r) (hp : x.path = p) :
    (s.setPath x).pathState r p = x := by
  subst hr hp
  have hx : (x.route == x.route && x.path == x.path) = true := by rw [beq_self_eq_true, beq_self_eq_true]; rfl
  exact congrArg (·.getD { route := x.route, path := x.path })
    (find?_replaced s.gnoz.paths (p := fun y => y.route == x.route && y.path == x.path) hx)

/-! The next request of a queue (R467 to R473). -/

section Start

variable {s : State} {q i : Nat} {w : WorkReq} {armed : Bool}

/-- A sealed write of a queue whose group has ended and whose check context is free. -/
def State.sealReady (s : State) (q : Nat) : Option (Nat × WorkReq × List Nat) :=
  (s.gq q).sealWaits.find? (fun x => x.2.2.isEmpty && !s.wrHeld x.2.1)

theorem State.wrStart_sealed {x : Nat × WorkReq × List Nat} (h : s.sealReady q = some x) :
    s.wrStart q 1 = (s.setGq { s.gq q with sealWaits := (s.gq q).sealWaits.erase x }).sendChecked q x.1 x.2.1 := by
  rw [State.sealReady] at h
  simp only [State.wrStart, h, if_true]

variable (hn : s.gqNext q = some (i, w, armed)) (hb : s.blockHeld 7 = false) (hs : s.sealReady q = none)
include hn hs

/-- A request of another operation that the table has is left to its own command. -/
theorem State.wrStart_other {op : Nat} (h : w.op ≠ op) (h1 : 1 ≤ w.op) (h7 : w.op ≤ 7) : s.wrStart q op = s := by
  rw [State.sealReady] at hs
  simp only [State.wrStart, hs, hn, ite_self]
  exact if_pos (Or.inl ⟨h, h1, h7⟩)

include hb

/-- What becomes of a queue's next request, in the order of the checks. -/
theorem State.wrStart_next : s.wrStart q w.op =
    if s.netFenced then (s.gqTake q armed).wrRefuse q i w 0x1002
    else if !s.wrOk q w then (s.gqTake q armed).wrRefuse q i w 0x0C09
    else if w.flags.testBit 1 && !armed then
      let u := s.gqTake q false
      if (u.gq q).armed.length ≥ 256 then u.wrRefuse q i w 0x0C09 else u.setGq { u.gq q with armed := (u.gq q).armed ++ [(i, w)] }
    else if !s.wrReady w || s.wrHeld w then s.setGq { s.gq q with waiting := true }
    else (s.gqTake q armed).wrRun q i w := by
  rw [State.sealReady] at hs
  simp only [State.wrStart, hs, hn, hb, ite_self, ne_eq, not_true, false_and, false_or, Bool.false_eq_true, if_false]

theorem State.wrStart_fenced (hf : s.netFenced = true) : s.wrStart q w.op = (s.gqTake q armed).wrRefuse q i w 0x1002 := by
  rw [State.wrStart_next hn hb hs, if_pos hf]

variable (hf : s.netFenced = false)
include hf

theorem State.wrStart_malformed (ho : s.wrOk q w = false) :
    s.wrStart q w.op = (s.gqTake q armed).wrRefuse q i w 0x0C09 := by
  rw [State.wrStart_next hn hb hs, hf, ho, if_neg Bool.false_ne_true, Bool.not_false, if_pos rfl]

variable (ho : s.wrOk q w = true)
include ho

theorem State.wrStart_arms (hw : w.flags.testBit 1 = true) (ha : armed = false) : s.wrStart q w.op =
    let u := s.gqTake q false
    if (u.gq q).armed.length ≥ 256 then u.wrRefuse q i w 0x0C09
    else u.setGq { u.gq q with armed := (u.gq q).armed ++ [(i, w)] } := by
  simp only [State.wrStart_next hn hb hs, hf, ho, hw, ha, Bool.not_true, Bool.not_false, Bool.and_self, Bool.false_eq_true, if_false,
    if_true]

variable (ha : w.flags.testBit 1 = false ∨ armed = true)
include ha

theorem State.wrStart_waits (h : s.wrReady w = false ∨ s.wrHeld w = true) :
    s.wrStart q w.op = s.setGq { s.gq q with waiting := true } := by
  have hw : (w.flags.testBit 1 && !armed) = false := Bool.and_eq_false_iff.mpr (ha.imp_right (congrArg not))
  have hr : (!s.wrReady w || s.wrHeld w) = true := by simpa using h
  simp only [State.wrStart_next hn hb hs, hf, ho, hw, hr, Bool.not_true, Bool.false_eq_true, if_false, if_true]

theorem State.wrStart_runs (hr : s.wrReady w = true) (hh : s.wrHeld w = false) :
    s.wrStart q w.op = (s.gqTake q armed).wrRun q i w := by
  have hw : (w.flags.testBit 1 && !armed) = false := Bool.and_eq_false_iff.mpr (ha.imp_right (congrArg not))
  simp only [State.wrStart_next hn hb hs, hf, ho, hw, hr, hh, Bool.not_true, Bool.or_self, Bool.false_eq_true, if_false]

end Start

/-! A request that starts (R449, R470, R474, R475, R477). -/

section Runs

variable {s : State} {q i : Nat} {w : WorkReq}

theorem State.wrRun_recv (h : w.op = 7) : s.wrRun q i w = s.setGq { s.gq q with recvs := (s.gq q).recvs ++ [(i, w)] } := by
  rw [State.wrRun, if_pos h]

theorem State.wrRun_no_destination (h : w.op ≠ 7) (hd : (s.handle w.dest).isNone = true) :
    s.wrRun q i w = s.wrRefuse q i w 0x0C02 := by
  rw [State.wrRun, if_neg h, if_pos hd]

/-- A payload without a check goes as it lies in memory. -/
theorem State.wrPayload_unchecked (hc : w.flags.testBit 2 = false) (hl : (s.gqRead q w.localAddr w.length).length ≤ 16777216) :
    s.wrPayload q w = (0, s.gqRead q w.localAddr w.length, s) := by
  simp only [State.wrPayload, hc, Bool.false_eq_true, if_false, gt_iff_lt, Nat.not_lt.mpr hl, and_false]

variable (hd : (s.handle w.dest).isSome = true)
include hd

/-- The request of a valid destination, by its operation. -/
theorem State.wrRun_of_destination (h : w.op ≠ 7) : s.wrRun q i w =
    if w.op = 3 then if w.length > w.replyCap then s.wrRefuse q i w 0x0C07 else s.sendWr q i w []
    else if w.op = 4 ∨ w.op = 6 then s.sendWr q i w []
    else if w.op = 1 then s.sendWrite q i w
    else s.sendChecked q i w := by
  have hn : ¬(s.handle w.dest).isNone = true := by rw [← Option.not_isSome, hd]; decide
  rw [State.wrRun, if_neg h, if_neg hn]

theorem State.wrRun_read_too_long (h : w.op = 3) (hl : w.replyCap < w.length) : s.wrRun q i w = s.wrRefuse q i w 0x0C07 := by
  rw [State.wrRun_of_destination hd (by omega), if_pos h, if_pos hl]

theorem State.wrRun_read (h : w.op = 3) (hl : w.length ≤ w.replyCap) : s.wrRun q i w = s.sendWr q i w [] := by
  rw [State.wrRun_of_destination hd (by omega), if_pos h, if_neg (Nat.not_lt.mpr hl)]

theorem State.wrRun_bare (h : w.op = 4 ∨ w.op = 6) : s.wrRun q i w = s.sendWr q i w [] := by
  rw [State.wrRun_of_destination hd (by omega), if_neg (by omega), if_pos h]

theorem State.wrRun_unchecked (h : w.op = 2 ∨ w.op = 5) (hc : w.flags.testBit 2 = false)
    (hl : (s.gqRead q w.localAddr w.length).length ≤ 16777216) :
    s.wrRun q i w = s.sendWr q i w (s.gqRead q w.localAddr w.length) := by
  rw [State.wrRun_of_destination hd (by omega), if_neg (by omega), if_neg (by omega), if_neg (by omega)]
  simp only [State.sendChecked, State.wrPayload_unchecked hc hl, ne_eq, not_true, if_false]

theorem State.wrRun_write (h : w.op = 1) (hs : w.flags.testBit 0 = false) (hc : w.flags.testBit 2 = false)
    (hl : (s.gqRead q w.localAddr w.length).length ≤ 16777216) : s.wrRun q i w =
      (s.setGq { s.gq q with group := (s.gq q).group ++ [i] }).sendWr q i w (s.gqRead q w.localAddr w.length) := by
  rw [State.wrRun_of_destination hd (by omega), if_neg (by omega), if_neg (by omega), if_pos h]
  simp only [State.sendWrite, hs, State.wrPayload_unchecked hc hl, Bool.not_false, if_true, ne_eq, not_true, if_false]

end Runs

/-! Expiry of an RTO and of a message (R455). -/

section Expiry

variable {s : State} {i : Nat} {m : OutMsg} (hm : s.gnoz.out[i]? = some m)

theorem State.giveUp_eq : s.giveUp m =
    if m.refused ≠ 0 then s.messageEnd m m.refused 0 0 else s.messageEnd m 0x0C01 (if m.busy then 2 else 1) 0 := rfl

include hm

theorem State.rtoExpiry_idle (h : m.minted = false ∨ m.acked = true ∨ m.ended = true ∨ m.nextFrag < m.frags) :
    s.rtoExpiry i = s := by
  have hb : (!m.minted || m.acked || m.ended || decide (m.nextFrag < m.frags)) = true := by
    simpa [or_assoc] using h
  simp only [State.rtoExpiry, hm, hb, if_true]

/-- The RTO of a message that has gone out whole and waits for its acknowledgement. -/
theorem State.rtoExpiry_due (h1 : m.minted = true) (h2 : m.acked = false) (h3 : m.ended = false) (h4 : m.frags ≤ m.nextFrag) :
    s.rtoExpiry i = if m.attempt ≥ 255 ∨ (s.advance m.rtoAt).now ≥ m.bornAt + 400000000 then (s.advance m.rtoAt).giveUp m
      else (s.advance m.rtoAt).retransmit i m := by
  simp only [State.rtoExpiry, hm, h1, h2, h3, decide_eq_false (Nat.not_lt.mpr h4), Bool.not_true, Bool.or_self, Bool.false_eq_true,
    if_false]

theorem State.messageExpiry_ended (h : m.acked = true ∨ m.ended = true) : s.messageExpiry i = s := by
  have hb : (m.acked || m.ended) = true := Bool.or_eq_true_iff.mpr h
  simp only [State.messageExpiry, hm, hb, if_true]

theorem State.messageExpiry_open (h1 : m.acked = false) (h2 : m.ended = false) : s.messageExpiry i =
    if m.attempt < 255 then (s.advance (m.bornAt + 400000000)).giveUp m else s.giveUp m := by
  simp only [State.messageExpiry, hm, h1, h2, Bool.or_self, Bool.false_eq_true, if_false]

end Expiry

/-! Sending again, while the transport sends nothing (R453, R455, R480). -/

section Quiet

variable {s : State} (h : s.gnozSends = false)
include h

theorem State.pump_of_not_sending : s.pump = s := by
  rw [State.pump, h, if_neg Bool.false_ne_true]

/-- A message that is sent again: the next ATTEMPT, a doubled RTO, its last fragment to go. -/
def OutMsg.again (m : OutMsg) : OutMsg :=
  { m with attempt := m.attempt + 1, rto := min 25600000 (2 * m.rto), flight := [], resend := [m.frags - 1],
           probe := decide (m.frags > 1) }

theorem State.retransmit_of_not_sending {m : OutMsg} (hf : m.flight = []) (i : Nat) : s.retransmit i m =
    (s.setPath { s.pathState m.hdr.route m.lastPath with window := 16384 }).setOut i (OutMsg.again m) := by
  simp only [State.retransmit, hf, List.foldl_nil]
  exact State.pump_of_not_sending h

theorem State.retransmit_out {i : Nat} {m : OutMsg} (hm : s.gnoz.out[i]? = some m) (hf : m.flight = []) :
    (s.retransmit i m).gnoz.out[i]? = some (OutMsg.again m) := by
  rw [State.retransmit_of_not_sending h hf]
  exact (modAt_getElem? s.gnoz.out i i _).trans (by rw [if_pos rfl, hm, Option.map_some])

theorem State.retransmit_window {m : OutMsg} (hf : m.flight = []) (i : Nat) :
    ((s.retransmit i m).pathState m.hdr.route m.lastPath).window = 16384 := by
  obtain ⟨hr, hp⟩ := s.pathState_key m.hdr.route m.lastPath
  rw [State.retransmit_of_not_sending h hf]
  exact congrArg PathState.window
    (s.pathState_setPath (x := { s.pathState m.hdr.route m.lastPath with window := 16384 }) hr hp)

/-- A forme or event that has ended stays only while its stream is open. -/
def State.keepsOut (s : State) (m : OutMsg) : Bool :=
  match m.owner with
  | .forme c _ => !m.ended || s.ctxServed c
  | .event c _ _ => !m.ended || s.ctxServed c
  | _ => true

/-- An ended message as a new one. -/
def State.renewed (s : State) (m : OutMsg) : OutMsg :=
  { hdr := { m.hdr with msgId := 0 }, payload := m.payload, owner := m.owner, shift := m.shift, bornAt := s.now }

theorem State.formeResend_of_not_sending : s.formeResend = { s with gnoz := { s.gnoz with
    out := (s.gnoz.out.filter s.keepsOut).map (fun m => if m.ended then s.renewed m else m) } } :=
  State.pump_of_not_sending h

/-- An ended forme of an open stream goes again as a new message. -/
theorem State.formeResend_renews {c n : Nat} {m : OutMsg} (hm : m ∈ s.gnoz.out) (ho : m.owner = .forme c n)
    (he : m.ended = true) (hc : s.ctxServed c = true) : s.renewed m ∈ s.formeResend.gnoz.out := by
  have hk : s.keepsOut m = true := by simp only [State.keepsOut, ho, hc, Bool.or_true]
  rw [State.formeResend_of_not_sending h]
  exact List.mem_map.mpr ⟨m, List.mem_filter.mpr ⟨hm, hk⟩, by rw [if_pos he]⟩

end Quiet

theorem State.holdoffEnd_eq (s : State) : s.holdoffEnd =
    if s.ready then State.pump { s with gnoz := { s.gnoz with started := true } } else s := rfl

/-! The route table (R450, R451, R488, R569). -/

section Routes

variable {s : State} {i : Nat} {b : List Byte}

/-- A route that the table may not hold: a device beyond 24 bits, a reserved bit or byte, no path, or a port that is not there. -/
def illFormedRoute (r : Route) (b : List Byte) : Prop :=
  2 ^ 24 ≤ r.device ∨ r.flag 7 = true ∨ r.pathMask = 0 ∨ r.pathPort.any (fun p => decide (p ≥ 64)) = true ∨
    leField b 0x2C 20 ≠ 0

/-- An unsealed route outside Provisioned, or a sealed one whose key the saggar does not hold. -/
def State.routeKeyMissing (s : State) (r : Route) : Prop :=
  (r.flag 2 = false ∧ s.lc ≠ .provisioned) ∨ (r.flag 2 = true ∧ s.pairHeld r.keyId = false)

theorem illFormedRoute_iff {r : Route} : illFormedRoute r b ↔
    (decide (r.device ≥ 2 ^ 24) || r.flag 7 || r.pathMask == 0 || r.pathPort.any (fun p => decide (p ≥ 64)) ||
      leField b 0x2C 20 != 0) = true := by
  simp only [illFormedRoute, Bool.or_eq_true, decide_eq_true_eq, beq_iff_eq, bne_iff_ne, ge_iff_le, or_assoc]

theorem State.routeKeyMissing_iff {r : Route} : s.routeKeyMissing r ↔
    (!r.flag 2 && s.lc != .provisioned || r.flag 2 && !s.pairHeld r.keyId) = true := by
  simp only [State.routeKeyMissing, Bool.or_eq_true, Bool.and_eq_true, Bool.not_eq_true', bne_iff_ne]

theorem State.tableWrite_route (h : s.tableSel = (false, i)) : s.tableWrite = s.routeWrite i s.tableBytes := by
  rw [State.tableWrite, h]; rfl

theorem State.tableWrite_key (h : s.tableSel = (true, i)) : s.tableWrite = s.keyWrite i s.tableBytes := by
  rw [State.tableWrite, h]; rfl

theorem State.tableInvalidate_route (h : s.tableSel = (false, i)) : s.tableInvalidate =
    if s.quoinSet 8 then s.tableEnd 0x0F01
    else State.tableEnd { s with gnoz := { s.gnoz with
      routes := s.gnoz.routes.map (fun (r : Route) => if r.index = i then { r with flags := r.flags / 2 * 2 } else r) } } 0 := by
  rw [State.tableInvalidate, h]; rfl

theorem State.routeWrite_locked (hq : s.quoinSet 8 = true) : s.routeWrite i b = s.tableEnd 0x0F01 := by
  rw [State.routeWrite, if_pos hq]

variable (hq : s.quoinSet 8 = false)
include hq

theorem State.routeWrite_ill_formed (h : illFormedRoute (parseRoute i b) b) : s.routeWrite i b = s.tableEnd 0x0101 := by
  simp only [State.routeWrite, hq, illFormedRoute_iff.mp h, Bool.false_eq_true, if_false, if_true]

variable (hb : ¬illFormedRoute (parseRoute i b) b)
include hb

theorem State.routeWrite_no_key (h : s.routeKeyMissing (parseRoute i b)) :
    s.routeWrite i b = (s.log 0x0C0D 0xA00000 i).tableEnd 0x0C0D := by
  simp only [State.routeWrite, hq, eq_false_of_ne_true (mt illFormedRoute_iff.mpr hb), State.routeKeyMissing_iff.mp h,
    Bool.false_eq_true, if_false, if_true]
  rfl

/-- The key that a route had, where the new route has another: it is tried for one more second. -/
def State.prevKeysAfter (s : State) (i : Nat) (r : Route) : List (Nat × Nat × Nat) :=
  match (s.route i).filter (fun x => x.flag 2 && x.keyId != r.keyId) with
  | some x => s.gnoz.prevKeys.filter (fun (y : Nat × Nat × Nat) => y.1 != i) ++ [(i, x.keyId, s.now)]
  | none => s.gnoz.prevKeys

theorem State.routeWrite_enters (h : ¬s.routeKeyMissing (parseRoute i b)) : s.routeWrite i b =
    State.tableEnd { s with gnoz := { s.gnoz with
      routes := (s.gnoz.routes.filter (fun (x : Route) => x.index != i)) ++ [parseRoute i b],
      prevKeys := s.prevKeysAfter i (parseRoute i b),
      paths := s.gnoz.paths.filter (fun (x : PathState) => x.route != i) } } 0 := by
  simp only [State.routeWrite, hq, eq_false_of_ne_true (mt illFormedRoute_iff.mpr hb),
    eq_false_of_ne_true (mt State.routeKeyMissing_iff.mpr h), Bool.false_eq_true, if_false]
  rfl

end Routes

/-! The key table (R466, R488). -/

section Keys

variable {s : State} {i : Nat} {k : GnozKey}

section Invalidate

variable (hs : s.tableSel = (true, i)) (hr : s.runKey i = none)
include hs hr

theorem State.tableInvalidate_key (hk : s.keyEntry i = some k) : s.tableInvalidate =
    (if k.valid then s.setKey { k with valid := false, gen := (k.gen + 1) % 256 } else s).tableEnd 0 := by
  simp only [State.tableInvalidate, hs, hr, hk, Option.isSome_none, Bool.false_eq_true, if_false, if_true]

theorem State.tableInvalidate_absent (hk : s.keyEntry i = none) : s.tableInvalidate = s.tableEnd 0 := by
  simp only [State.tableInvalidate, hs, hr, hk, Option.isSome_none, Bool.false_eq_true, if_false, if_true]

end Invalidate

variable {base len notify : Nat} {w r : Bool} {kind : KeyKind}

/-- The entry that a registration sets. -/
def State.newKey (s : State) (i : Nat) (kind : KeyKind) (base len : Nat) (w r : Bool) (notify gen : Nat) : GnozKey :=
  { index := i, valid := true, kind := kind, base := base, length := len, write := w, read := r, notify := notify, gen := gen,
    registeredAt := s.coarse }

theorem State.registerKey_soon (hk : s.keyEntry i = some k) (h : (s.coarse + 65536 - k.registeredAt) % 65536 < 4) :
    s.registerKey i kind base len w r notify = (0x0C0B, s) := by
  simp only [State.registerKey, hk, decide_eq_true h, if_true]

theorem State.registerKey_again (hk : s.keyEntry i = some k) (h : 4 ≤ (s.coarse + 65536 - k.registeredAt) % 65536) :
    s.registerKey i kind base len w r notify =
      (0, s.setKey (s.newKey i kind base len w r notify ((k.gen + 1) % 256))) := by
  simp only [State.registerKey, hk, decide_eq_false (Nat.not_lt.mpr h), Bool.false_eq_true, if_false]
  rfl

theorem State.registerKey_first (hk : s.keyEntry i = none) :
    s.registerKey i kind base len w r notify = (0, s.setKey (s.newKey i kind base len w r notify 1)) := by
  simp only [State.registerKey, hk, Bool.false_eq_true, if_false]
  rfl

section Write

variable {b : List Byte}

/-- The kind of key that a written entry names: software may register bulk memory and namespace ranges. -/
def writtenKind (b : List Byte) : Option KeyKind :=
  if leField b 0 4 % 4 = 1 then some .bulk else if leField b 0 4 % 4 = 3 then some (.nsRange (leField b 0x14 4)) else none

/-- A written entry's range lies within what its kind has. -/
def State.writtenFits (s : State) (b : List Byte) : Bool :=
  if leField b 0 4 % 4 = 1 then decide (leField b 4 8 + leField b 0xC 8 ≤ 2 ^ 41)
  else match s.nsSeen (leField b 0x14 4) with
    | some x => decide (leField b 4 8 + (leField b 0xC 8 + 4095) / 4096 ≤ 4 * x.cap)
    | none => false

/-- A reserved field of a written entry is not 0. -/
def writtenReserved (b : List Byte) : Prop := leField b 0 4 / 16 % 4096 ≠ 0 ∨ leField b 0x1C 36 ≠ 0

theorem writtenReserved_iff : writtenReserved b ↔
    (decide (leField b 0 4 / 16 % 4096 ≠ 0) || leField b 0x1C 36 != 0) = true := by
  rw [writtenReserved, Bool.or_eq_true, decide_eq_true_eq, bne_iff_ne]

theorem writtenKind_bulk (h : leField b 0 4 % 4 = 1) : writtenKind b = some .bulk := by
  rw [writtenKind, if_pos h]

theorem writtenKind_range (h : leField b 0 4 % 4 = 3) : writtenKind b = some (.nsRange (leField b 0x14 4)) := by
  rw [writtenKind, if_neg (by omega), if_pos h]

theorem writtenKind_none (h : leField b 0 4 % 4 = 0 ∨ leField b 0 4 % 4 = 2) : writtenKind b = none := by
  rw [writtenKind, if_neg (by omega), if_neg (by omega)]

theorem State.writtenFits_bulk (h : leField b 0 4 % 4 = 1) :
    s.writtenFits b = decide (leField b 4 8 + leField b 0xC 8 ≤ 2 ^ 41) := by
  rw [State.writtenFits, if_pos h]

theorem State.writtenFits_range {x : NsInfo} (h : leField b 0 4 % 4 = 3) (hx : s.nsSeen (leField b 0x14 4) = some x) :
    s.writtenFits b = decide (leField b 4 8 + (leField b 0xC 8 + 4095) / 4096 ≤ 4 * x.cap) := by
  rw [State.writtenFits, if_neg (by omega), hx]

theorem State.writtenFits_absent (h : leField b 0 4 % 4 = 3) (hx : s.nsSeen (leField b 0x14 4) = none) :
    s.writtenFits b = false := by
  rw [State.writtenFits, if_neg (by omega), hx]

theorem State.keyWrite_no_kind (h : writtenKind b = none) : s.keyWrite i b = s.tableEnd 0x0101 := by
  rw [writtenKind] at h
  simp only [State.keyWrite, h]

theorem State.keyWrite_of_kind (h : writtenKind b = some kind) : s.keyWrite i b =
    if (s.runKey i).isSome || !s.writtenFits b || (decide (leField b 0 4 / 16 % 4096 ≠ 0) || leField b 0x1C 36 != 0) then
      s.tableEnd 0x0101
    else
      let x := s.registerKey i kind (leField b 4 8) (leField b 0xC 8) ((leField b 0 4).testBit 2) ((leField b 0 4).testBit 3)
        (leField b 0 4 / 65536)
      x.2.tableEnd x.1.toNat := by
  rw [writtenKind] at h
  simp only [State.keyWrite, h, ← Bool.or_assoc]
  rfl

theorem State.keyWrite_refused (h : writtenKind b = none ∨ s.writtenFits b = false ∨ writtenReserved b) :
    s.keyWrite i b = s.tableEnd 0x0101 := by
  cases hk : writtenKind b with
  | none => exact State.keyWrite_no_kind hk
  | some kd =>
    rw [State.keyWrite_of_kind hk]
    refine if_pos ?_
    rcases h with h | h | h
    · rw [hk] at h; cases h
    · rw [h, Bool.not_false, Bool.or_true, Bool.true_or]
    · rw [writtenReserved_iff.mp h, Bool.or_true]

theorem State.keyWrite_registers (hr : s.runKey i = none) (hk : writtenKind b = some kind) (hf : s.writtenFits b = true)
    (ho : ¬writtenReserved b) : s.keyWrite i b =
      let x := s.registerKey i kind (leField b 4 8) (leField b 0xC 8) ((leField b 0 4).testBit 2) ((leField b 0 4).testBit 3)
        (leField b 0 4 / 65536)
      x.2.tableEnd x.1.toNat := by
  rw [State.keyWrite_of_kind hk, hr, hf, eq_false_of_ne_true (mt writtenReserved_iff.mpr ho)]
  rfl

end Write

/-! A run registers a key (R463, R466). -/

variable {slot : Nat} {x : Run} (hx : s.running slot = some x) (hi : i ≤ 65535)
include hx hi

/-- An index that another owner holds is refused. -/
theorem State.keyRegister_foreign (hk : s.keyEntry i = some k) (hv : k.valid = true) (ho : k.kind ≠ .run slot) :
    s.keyRegister slot i base len w r notify = s.reply (.run slot) 0x0C0B := by
  have hf : (k.valid && k.kind != .run slot) = true := by rw [hv, bne_iff_ne.mpr ho]; rfl
  simp only [State.keyRegister, hx, hk, hf, if_neg (Nat.not_lt.mpr hi), gt_iff_lt, if_true]

/-- A first registration of an index has generation 1. -/
theorem State.keyRegister_first (hk : s.keyEntry i = none) : s.keyRegister slot i base len w r notify =
    (s.setKey (s.newKey i (.run slot) base len w r notify 1)).reply (.run slot) 0 0 [1] := by
  have hn : (s.setKey (s.newKey i (.run slot) base len w r notify 1)).keyEntry i =
      some (s.newKey i (.run slot) base len w r notify 1) := s.keyEntry_setKey _
  simp only [State.keyRegister, hx, hk, State.registerKey_first hk, hn, if_neg (Nat.not_lt.mpr hi), gt_iff_lt, Bool.false_eq_true,
    if_false]
  rfl

end Keys

/-! A run takes a queue (R467). -/

section Alloc

variable {s : State} {slot k wr cq : Nat} {x : Run} (hx : s.running slot = some x) (hk : 4 ≤ k ∧ k ≤ 16)
  (ha : wr % 64 = 0 ∧ cq % 64 = 0)

/-- The queues that a run has. -/
def State.queuesOf (s : State) (slot : Nat) : Nat := (s.gnoz.queues.filter (fun q => q.run == some slot)).length

/-- The lowest queue but 0 that nobody uses. -/
def State.freeQueueNo (s : State) : Option Nat :=
  (List.range 4096).find? (fun q => q != 0 && !s.gqEnabled q && (s.gq q).run.isNone)

/-- A queue in a run's hands: its state is new, its registers are set. -/
def State.giveGq (s : State) (slot k wr cq q : Nat) : State :=
  ((((s.setGq { q := q, run := some slot }).setReg (gnzQ q 0) (BitVec.ofNat 32 (k + 64))).setReg64 (gnzQ q 8) wr).setReg64
    (gnzQ q 0x10) cq).setReg (gnzQ q 0x18) 0

theorem State.giveGq_gq (s : State) (slot k wr cq q : Nat) : (s.giveGq slot k wr cq q).gq q = { q := q, run := some slot } := by
  have hg : (s.giveGq slot k wr cq q).gnoz = (s.setGq { q := q, run := some slot }).gnoz := by
    simp only [State.giveGq, State.setReg64, State.setReg_gnoz]
  rw [State.gq, hg]
  exact s.gq_setGq { q := q, run := some slot }

theorem State.giveGq_mgr (s : State) (slot k wr cq q : Nat) : (s.giveGq slot k wr cq q).mgr = s.mgr := by
  simp only [State.giveGq, State.setReg64, State.setReg_mgr, State.setGq_mgr]

include hx hk ha

theorem State.queueAlloc_eq : s.queueAlloc slot k wr cq =
    if s.queuesOf slot ≥ 64 then s.reply (.run slot) 0x0C0E
    else s.freeQueueNo.elim (s.reply (.run slot) 0x0C0E)
      (fun q => (s.giveGq slot k wr cq q).reply (.run slot) 0 0 [q]) := by
  have h : (decide (k < 4 ∨ k > 16) || decide (wr % 64 ≠ 0) || decide (cq % 64 ≠ 0)) = false := by
    simp only [Bool.or_eq_false_iff, decide_eq_false_iff_not]; omega
  simp only [State.queueAlloc, hx, h, Bool.false_eq_true, if_false]
  rw [State.freeQueueNo]
  cases (List.range 4096).find? (fun q => q != 0 && !s.gqEnabled q && (s.gq q).run.isNone) <;> rfl

theorem State.queueAlloc_full (h : 64 ≤ s.queuesOf slot) : s.queueAlloc slot k wr cq = s.reply (.run slot) 0x0C0E := by
  rw [State.queueAlloc_eq hx hk ha, if_pos h]

variable (h : s.queuesOf slot < 64)
include h

theorem State.queueAlloc_none_free (hn : s.freeQueueNo = none) :
    s.queueAlloc slot k wr cq = s.reply (.run slot) 0x0C0E := by
  rw [State.queueAlloc_eq hx hk ha, if_neg (Nat.not_le.mpr h), hn, Option.elim_none]

theorem State.queueAlloc_takes {q : Nat} (hq : s.freeQueueNo = some q) :
    s.queueAlloc slot k wr cq = (s.giveGq slot k wr cq q).reply (.run slot) 0 0 [q] := by
  rw [State.queueAlloc_eq hx hk ha, if_neg (Nat.not_le.mpr h), hq, Option.elim_some]

end Alloc

/-! The clock (R452) and its packets (R445). -/

theorem State.clockWrite_locked {s : State} (h : s.gnoz.ptpLocked = true) (v : Word) : s.clockWrite v = s := by
  rw [State.clockWrite, if_pos h]

theorem State.clockWrite_free {s : State} (h : s.gnoz.ptpLocked = false) (v : Word) : s.clockWrite v =
    { s with gnoz := { s.gnoz with
      clockOffset := ((v.toNat * 2 ^ 32 + (s.reg 0xA00018).toNat : Nat) : Int) - (s.now : Int), timeSet := true } } := by
  rw [State.clockWrite, h, if_neg Bool.false_ne_true]
  rfl

/-- After a write of the clock Gnoz time is what was written. -/
theorem State.clockWrite_time {s : State} (h : s.gnoz.ptpLocked = false) (v : Word) :
    (s.clockWrite v).gnozTime = v.toNat * 2 ^ 32 + (s.reg 0xA00018).toNat := by
  rw [State.clockWrite_free h]
  show ((s.now : Int) + (((v.toNat * 2 ^ 32 + (s.reg 0xA00018).toNat : Nat) : Int) - (s.now : Int))).toNat = _
  rw [add_sub_cancel, Int.toNat_natCast]

section Frames

variable {s u : State} {f : FrameInfo} (hp : s.policeOther f none = (true, u))
include hp

theorem State.ptpMessage_elsewhere (h : u.regFld 0xA00014 0 1 = 0 ∨ u.regFld 0xA00014 1 6 ≠ f.port) (offset : Int)
    (locked : Bool) (d : Option Nat) : s.ptpMessage f offset locked d = u.gnzBump 12 := by
  simp only [State.ptpMessage, hp, Bool.not_true, Bool.false_eq_true, if_false]
  exact if_pos h

theorem State.ptpMessage_servo (h1 : u.regFld 0xA00014 0 1 ≠ 0) (h2 : u.regFld 0xA00014 1 6 = f.port) (offset : Int)
    (locked : Bool) : s.ptpMessage f offset locked none =
      { u with gnoz := { u.gnoz with clockOffset := offset, ptpLocked := locked } } := by
  simp only [State.ptpMessage, hp, Bool.not_true, Bool.false_eq_true, if_false]
  exact if_neg (not_or.mpr ⟨h1, not_not.mpr h2⟩)

/-! Frames to a port's own address (R443, R506). -/

theorem State.arpNeighbour_eq (addr : List Byte) : s.arpNeighbour f addr =
    if (u.portAddrs f.port).contains addr && addr.any (· != 0) then
      u.enqueueSp0 f.port { wire := if addr.length = 4 then 84 else 106, gnoz := false, send := .ethFrame f.port 1 addr }
    else u := by
  simp only [State.arpNeighbour, hp, Bool.not_true, Bool.false_eq_true, if_false]

theorem State.icmpEcho_eq (payload : List Byte) : s.icmpEcho f payload =
    u.enqueueSp0 f.port { wire := f.wire, gnoz := false, send := .ethFrame f.port 2 payload } := by
  simp only [State.icmpEcho, hp, Bool.not_true, Bool.false_eq_true, if_false]

end Frames

/-! Ports (R444) and the configuration (R487). -/

section Ports

variable {s : State} {lp : Nat} {up : Bool}

theorem State.ethLinkChange_none (h : s.portExists lp = false ∨ s.netFenced = true) : s.ethLinkChange lp up = s := by
  have hb : (!s.portExists lp || s.netFenced) = true := Bool.or_eq_true_iff.mpr (h.imp_left (congrArg not))
  rw [State.ethLinkChange, if_pos hb]

theorem State.ethLinkChange_port (he : s.portExists lp = true) (hf : s.netFenced = false) : s.ethLinkChange lp up =
    State.pump { s with gnoz := { s.gnoz with
      portsUp := (if up then s.gnoz.portsUp.filter (fun (p : Nat × Nat) => p.1 != lp) ++ [(lp, s.portSpeed lp)]
        else s.gnoz.portsUp.filter (fun (p : Nat × Nat) => p.1 != lp)) } } := by
  simp only [State.ethLinkChange, he, hf, Bool.not_true, Bool.or_self, Bool.false_eq_true, if_false]

theorem State.ethModeWrite_eq (v : Word) : s.ethModeWrite v =
    { s.setBits 0xA00010 0 16 (fld v 0 16) with gnoz := { s.gnoz with portsUp := s.gnoz.portsUp.filter (fun (p : Nat × Nat) =>
      s.ethMode (p.1 / 8) == (s.setBits 0xA00010 0 16 (fld v 0 16)).ethMode (p.1 / 8)) } } := rfl

end Ports

section Cfg

variable {s : State} {v : Word}

theorem State.gnzCfgWrite_timing : s.gnzCfgWrite true v =
    if fld v 0 10 < 10 ∨ fld v 0 10 > 1000 then s.log 0x0101 0xA00000 0xA0000C v.toNat else s.plainWrite 0xA0000C v := rfl

theorem State.gnzCfgWrite_main : s.gnzCfgWrite false v =
    if !s.quoinSet 6 && s.udpPortBad (fld v 0 16) then s.log 0x0101 0xA00000 0xA00004 v.toNat
    else (s.plainWrite 0xA00004 v).pump := rfl

/-- Port 0 and the ports of the clock's packets are no UDP_PORT. -/
theorem State.udpPortBad_reserved (s : State) : s.udpPortBad 0 = true ∧ s.udpPortBad 319 = true ∧ s.udpPortBad 320 = true :=
  ⟨rfl, rfl, rfl⟩

end Cfg

/-- Settles O58, by the command of each clause and the branches of its state function. -/
theorem gnozSendsAndIsConfigured : Obligations.GnozSendsAndIsConfigured := by
  unfold Obligations.GnozSendsAndIsConfigured
  refine ⟨fun s q v hw hq => ⟨_, (exec_gnzQDoorbell q v s).trans (congrArg _ (State.gqDoorbell_eq hq s v)),
      State.fld_reg_setBits hw _ v (by decide), fun o ho => s.reg_setBits_ne _ _ _ ho, rfl⟩,
    ?_, fun s q x h => congrArg _ (State.wrStart_sealed h),
    fun s q i w => ⟨State.wrRun_recv, State.wrRun_no_destination, fun hd => ⟨State.wrRun_read_too_long hd, State.wrRun_read hd,
      State.wrRun_bare hd, State.wrRun_unchecked hd, State.wrRun_write hd⟩⟩,
    fun s i m hm => ⟨fun h => congrArg _ (State.rtoExpiry_idle hm h), fun h1 h2 h3 h4 => ⟨fun hl ht => ?_, fun h => ?_⟩,
      fun h => congrArg _ (State.messageExpiry_ended hm h), fun h1 h2 hl => ?_, fun h1 h2 hl => ?_, fun h => ?_, fun h => ?_⟩,
    fun s i m hm hq hf => ⟨State.retransmit_out hq hm hf, State.retransmit_window hq hf i⟩,
    fun s c n m hq hm ho he hc => ⟨_, exec_formeResend s, ?_, State.formeResend_renews hq hm ho he hc⟩,
    fun s => ⟨fun h => ?_, fun h => ?_⟩, fun s => ⟨_, exec_gnzTableRead s, rfl, rfl, rfl, rfl, rfl⟩,
    fun s i hs => ⟨fun hq => ⟨?_, ?_⟩, fun hq hb => ?_, fun hq hb hk => ?_, fun hq hb hk => ?_, fun hq => ?_⟩,
    fun s i base len notify w r kind hs hr => ⟨fun k hk hv => ?_, fun k hk hv => ?_,
      fun hk => congrArg _ (State.tableInvalidate_absent hs hr hk),
      fun k => State.registerKey_soon, fun k => State.registerKey_again,
      fun h => ?_, fun h ho hl => ?_, fun h hl => ?_, fun x h ho hx hl => ?_, fun h hx => ?_⟩,
    fun s k i base len notify w r x hx hi => ⟨fun y hk hv ho => congrArg _ (State.keyRegister_foreign hx hi hk hv ho),
      fun hk => congrArg _ (State.keyRegister_first hx hi hk)⟩,
    fun s k n wr cq x hx hk ha => ⟨fun h => congrArg _ (State.queueAlloc_full hx hk ha h),
      fun h => ⟨fun hn => congrArg _ (State.queueAlloc_none_free hx hk ha h hn), fun q hq =>
        ⟨s.giveGq k n wr cq q, congrArg _ (State.queueAlloc_takes hx hk ha h hq), ?_, ?_, s.giveGq_mgr k n wr cq q⟩⟩⟩,
    fun s v => ⟨fun h => congrArg _ (State.clockWrite_locked h v),
      fun h => ⟨_, exec_gnzClockWrite v s, ?_, s.clockWrite_time h v, ?_, ?_⟩⟩,
    fun s u f offset locked hp => ⟨fun h d => congrArg _ (State.ptpMessage_elsewhere hp h offset locked d),
      fun h1 h2 => congrArg _ (State.ptpMessage_servo hp h1 h2 offset locked)⟩,
    fun s u f addr payload hp => ⟨fun h hz => ?_, fun h => ?_, congrArg _ (State.icmpEcho_eq hp payload)⟩,
    fun s v lp up hw => ⟨⟨_, exec_gnzEthModeWrite v s, State.fld_reg_setBits hw _ v (by decide),
        fun o ho => s.reg_setBits_ne _ _ _ ho, rfl⟩,
      fun h => congrArg _ (State.ethLinkChange_none h), fun he hf => congrArg _ (State.ethLinkChange_port he hf)⟩,
    fun s v => ⟨fun h => ?_, fun h1 h2 => ?_, fun hq hb => ?_, fun h => ?_, s.udpPortBad_reserved⟩⟩
  -- work requests
  · intro s q i w armed hn hb hs goes
    have run : ∀ op, goes → w.op = op → s.wrStart q op = (s.gqTake q armed).wrRun q i w := by
      rintro op ⟨hf, ho, ha, hr, hh⟩ rfl
      exact State.wrStart_runs hn hb hs hf ho ha hr hh
    exact ⟨fun op h h1 h7 => State.wrStart_other hn hs h h1 h7, State.wrStart_fenced hn hb hs, State.wrStart_malformed hn hb hs,
      State.wrStart_arms hn hb hs, State.wrStart_waits hn hb hs, fun hg h => congrArg _ (run 1 hg h),
      fun hg h => congrArg _ (run 2 hg h), fun hg h => congrArg _ (run 3 hg h), fun hg h => congrArg _ (run 4 hg h),
      fun hg h => congrArg _ (run 5 hg h), fun hg h => congrArg _ (run 6 hg h), fun hg h => congrArg _ (run 7 hg h)⟩
  -- expiry
  · rw [exec_rtoExpiry, State.rtoExpiry_due hm h1 h2 h3 h4, if_neg (not_or.mpr ⟨Nat.not_le.mpr hl, Nat.not_le.mpr ht⟩)]
  · rw [exec_rtoExpiry, State.rtoExpiry_due hm h1 h2 h3 h4, if_pos h]
  · rw [exec_messageExpiry, State.messageExpiry_open hm h1 h2, if_neg (Nat.not_lt.mpr hl)]
  · rw [exec_messageExpiry, State.messageExpiry_open hm h1 h2, if_pos hl]
  · rw [State.giveUp_eq, if_neg (not_not.mpr h)]
  · rw [State.giveUp_eq, if_pos h]
  -- FORME_RESEND and the hold-off
  · rw [State.formeResend_of_not_sending hq]
  · rw [exec_gnozHoldoffEnd, State.holdoffEnd_eq, if_pos h]
  · rw [exec_gnozHoldoffEnd, State.holdoffEnd_eq, h, if_neg Bool.false_ne_true]
  -- routes
  · rw [exec_gnzTableWrite, State.tableWrite_route hs, State.routeWrite_locked hq]
  · rw [exec_gnzTableInvalidate, State.tableInvalidate_route hs, if_pos hq]
  · rw [exec_gnzTableWrite, State.tableWrite_route hs, State.routeWrite_ill_formed hq hb]
  · rw [exec_gnzTableWrite, State.tableWrite_route hs, State.routeWrite_no_key hq hb hk]
  · rw [exec_gnzTableWrite, State.tableWrite_route hs, State.routeWrite_enters hq hb hk]
    rfl
  · rw [exec_gnzTableInvalidate, State.tableInvalidate_route hs, hq, if_neg Bool.false_ne_true]
  -- keys
  · rw [exec_gnzTableInvalidate, State.tableInvalidate_key hs hr hk, if_pos hv]
  · rw [exec_gnzTableInvalidate, State.tableInvalidate_key hs hr hk, hv, if_neg Bool.false_ne_true]
  · rw [exec_gnzTableWrite, State.tableWrite_key hs, State.keyWrite_refused]
    rcases h with h | h | h
    · exact .inl (writtenKind_none (.inl h))
    · exact .inl (writtenKind_none (.inr h))
    · exact .inr (.inr h)
  · rw [exec_gnzTableWrite, State.tableWrite_key hs,
      State.keyWrite_registers hr (writtenKind_bulk h) ((State.writtenFits_bulk h).trans (decide_eq_true hl)) ho]
  · rw [exec_gnzTableWrite, State.tableWrite_key hs, State.keyWrite_refused
      (.inr (.inl ((State.writtenFits_bulk h).trans (decide_eq_false (Nat.not_le.mpr hl)))))]
  · rw [exec_gnzTableWrite, State.tableWrite_key hs,
      State.keyWrite_registers hr (writtenKind_range h) ((State.writtenFits_range h hx).trans (decide_eq_true hl)) ho]
  · rw [exec_gnzTableWrite, State.tableWrite_key hs, State.keyWrite_refused (.inr (.inl (State.writtenFits_absent h hx)))]
  -- a run's new queue
  · rw [State.giveGq_gq]
  · rw [State.giveGq_gq]
  -- the clock
  · rw [State.clockWrite_free h]
  · rw [State.clockWrite_free h]
  · rw [State.clockWrite_free h]
  -- frames to a port's own address
  · rw [exec_arpNeighbourRx, State.arpNeighbour_eq hp, h, hz]
    rfl
  · rw [exec_arpNeighbourRx, State.arpNeighbour_eq hp, h]
    rfl
  -- GNZ_CFG and GNZ_TIMING
  · rw [exec_gnzCfgWrite, State.gnzCfgWrite_timing, if_pos h]
  · rw [exec_gnzCfgWrite, State.gnzCfgWrite_timing, if_neg (by omega)]
  · rw [exec_gnzCfgWrite, State.gnzCfgWrite_main, hq, hb]
    rfl
  · have hb : (!s.quoinSet 6 && s.udpPortBad (fld v 0 16)) = false := Bool.and_eq_false_iff.mpr (h.imp_left (congrArg not))
    rw [exec_gnzCfgWrite, State.gnzCfgWrite_main, hb, if_neg Bool.false_ne_true]

end Sys2Proof.Machine

namespace Sys2Proof.Machine

/-! ### Quoin bits

Every operation but the write of SAG_QUOIN_SET0 or SET1 leaves the quoin bits (R569): one lemma per operation, each from those
of the operations it calls. The bus writes that can reach SAG_QUOIN_SET keep what is set. -/

@[simp] theorem ite_quoin (c : Prop) [Decidable c] (a b : State) :
    (if c then a else b).trust.quoin = if c then a.trust.quoin else b.trust.quoin := by split <;> rfl

/-- Two states with the same quoin bits. -/
def SameQuoin (s t : State) : Prop := t.trust.quoin = s.trust.quoin

@[simp] theorem sameQuoin_iff (s t : State) : SameQuoin s t ↔ t.trust.quoin = s.trust.quoin := by rw [SameQuoin]

@[simp] theorem foldl_quoin {α : Type} (f : State → α → State) (h : ∀ s a, SameQuoin s (f s a)) (l : List α) (s : State) :
    (l.foldl f s).trust.quoin = s.trust.quoin := by
  induction l generalizing s with
  | nil => rfl
  | cons x l ih => rw [List.foldl_cons, ih, h]

/-- Where a block takes a bus write, the quoin bits stay. -/
def KeepsQuoin (s : State) (r : Option State) : Prop := ∀ t, r = some t → t.trust.quoin = s.trust.quoin

@[simp] theorem keepsQuoin_some (s t : State) : KeepsQuoin s (some t) ↔ t.trust.quoin = s.trust.quoin := by
  simp [KeepsQuoin]

@[simp] theorem keepsQuoin_none (s : State) : KeepsQuoin s none := fun _ h => nomatch h

theorem KeepsQuoin.ite {s : State} {c : Prop} [Decidable c] {a b : Option State} (ha : KeepsQuoin s a)
    (hb : KeepsQuoin s b) : KeepsQuoin s (if c then a else b) := ite_holds ha hb


/-! The operations of Machine/Ops. -/

@[simp] theorem State.writeAnchorWith_quoin (s : State) (flushed img startSeq) :
    (s.writeAnchorWith flushed img startSeq).trust.quoin = s.trust.quoin := by simp [State.writeAnchorWith]
@[simp] theorem State.writeAnchor_quoin (s : State) (flushed) : (s.writeAnchor flushed).trust.quoin = s.trust.quoin := by
  unfold State.writeAnchor; split <;> simp
@[simp] theorem State.issueSeq_quoin (s : State) : s.issueSeq.2.trust.quoin = s.trust.quoin := by simp [State.issueSeq]
@[simp] theorem State.releaseHeldLog_quoin (s : State) : s.releaseHeldLog.trust.quoin = s.trust.quoin := by
  simp [State.releaseHeldLog]
@[simp] theorem State.quoinDenied_quoin (s : State) (off bit) : (s.quoinDenied off bit).trust.quoin = s.trust.quoin := by
  simp [State.quoinDenied]
@[simp] theorem State.plainWrite_quoin (s : State) (off new) : (s.plainWrite off new).trust.quoin = s.trust.quoin := by
  unfold State.plainWrite; split <;> simp
@[simp] theorem State.setFn_quoin (s : State) (g f) : (s.setFn g f).trust.quoin = s.trust.quoin := by simp [State.setFn]
@[simp] theorem State.raiseVector_quoin (s : State) (fn v) : (s.raiseVector fn v).trust.quoin = s.trust.quoin := by
  unfold State.raiseVector; split <;> simp
@[simp] theorem State.wakeEvent_quoin (s : State) (c) : (s.wakeEvent c).trust.quoin = s.trust.quoin := by
  unfold State.wakeEvent; (repeat' split) <;> simp

/-! The operations of Machine/MediaMap. -/

@[simp] theorem State.healthBump_quoin (s : State) (i n) : (s.healthBump i n).trust.quoin = s.trust.quoin := by
  simp [State.healthBump]
@[simp] theorem State.countReconstructs_quoin (s : State) (ns addr len) :
    (s.countReconstructs ns addr len).trust.quoin = s.trust.quoin := by simp [State.countReconstructs]

/-! The operations of Machine/NetOps. -/

@[simp] theorem State.poolWarn_quoin (s : State) (die i) : (s.poolWarn die i).trust.quoin = s.trust.quoin := by
  simp [State.poolWarn]
@[simp] theorem State.poolGive_quoin (s : State) (die q index c port unit home) :
    (s.poolGive die q index c port unit home).trust.quoin = s.trust.quoin := by simp [State.poolGive]
@[simp] theorem State.noGrant_quoin (s : State) (die size) : (s.noGrant die size).trust.quoin = s.trust.quoin := by
  simp [State.noGrant]
@[simp] theorem State.poolReturn_quoin (s : State) (b) : (s.poolReturn b).trust.quoin = s.trust.quoin := by
  simp only [State.poolReturn]; split <;> simp
@[simp] theorem State.poolPass_quoin (s : State) (die c port unit size) :
    (s.poolPass die c port unit size).2.trust.quoin = s.trust.quoin := by
  simp only [State.poolPass]; split <;> simp
@[simp] theorem State.setPol_quoin (s : State) (die n tc te) : (s.setPol die n tc te).trust.quoin = s.trust.quoin := by
  simp [State.setPol]
@[simp] theorem State.police_quoin (s : State) (die n bits pc) : (s.police die n bits pc).2.trust.quoin = s.trust.quoin := by
  simp only [State.police]; split <;> simp
@[simp] theorem State.policeFrame_quoin (s : State) (port wire dscp second) :
    (s.policeFrame port wire dscp second).2.2.trust.quoin = s.trust.quoin := by
  simp only [State.policeFrame]; (repeat' split) <;> simp
@[simp] theorem State.policeOther_quoin (s : State) (f second) : (s.policeOther f second).2.trust.quoin = s.trust.quoin := by
  unfold State.policeOther; split <;> simp
@[simp] theorem State.setInst_quoin (s : State) (i) : (s.setInst i).trust.quoin = s.trust.quoin := by simp [State.setInst]
@[simp] theorem State.enqueue_quoin (s : State) (port q f) : (s.enqueue port q f).trust.quoin = s.trust.quoin := by
  simp [State.enqueue]
@[simp] theorem State.enqueueSp0_quoin (s : State) (port f) : (s.enqueueSp0 port f).trust.quoin = s.trust.quoin := by
  simp [State.enqueueSp0]
@[simp] theorem State.sendHead_quoin (s : State) (i) : (s.sendHead i).trust.quoin = s.trust.quoin := by
  cases h : i.frames with
  | nil => simp [State.sendHead, h]
  | cons f l =>
    obtain ⟨_, _, _, _, _, -, -, -, hs⟩ := s.sendHead_frame i f l h
    rw [hs]

/-! The operations of Machine/RunMem. -/

@[simp] theorem State.setRuns_quoin (s : State) (rs) : (s.setRuns rs).trust.quoin = s.trust.quoin := by simp [State.setRuns]
@[simp] theorem State.updRun_quoin (s : State) (slot f) : (s.updRun slot f).trust.quoin = s.trust.quoin := by
  simp [State.updRun]
@[simp] theorem State.vSet_quoin (s : State) (slot va b) : (s.vSet slot va b).trust.quoin = s.trust.quoin := by
  unfold State.vSet; (repeat' split) <;> simp
@[simp] theorem State.vWrite_quoin (s : State) (slot va bs) : (s.vWrite slot va bs).trust.quoin = s.trust.quoin := by
  induction bs generalizing s va with
  | nil => rfl
  | cons b bs ih => rw [State.vWrite, ih, State.vSet_quoin]

@[simp] theorem State.placePage_quoin (s : State) (slot page) : (s.placePage slot page).trust.quoin = s.trust.quoin := by
  unfold State.placePage; (repeat' split) <;> simp
@[simp] theorem State.fillRange_quoin (s : State) (slot va len write n) :
    (s.fillRange slot va len write n).trust.quoin = s.trust.quoin := by
  induction n generalizing s with
  | zero => rfl
  | succ n ih =>
    rw [State.fillRange]
    split
    · rfl
    · split
      · simp [ih]
      · rfl

/-! The operations of Machine/GnozOps. -/

@[simp] theorem State.gnzBump_quoin (s : State) (i) : (s.gnzBump i).trust.quoin = s.trust.quoin := by simp [State.gnzBump]
@[simp] theorem State.setPath_quoin (s : State) (p) : (s.setPath p).trust.quoin = s.trust.quoin := by simp [State.setPath]
@[simp] theorem State.addFlight_quoin (s : State) (route path len) :
    (s.addFlight route path len).trust.quoin = s.trust.quoin := by simp [State.addFlight]
@[simp] theorem State.subFlight_quoin (s : State) (route path len) :
    (s.subFlight route path len).trust.quoin = s.trust.quoin := by simp [State.subFlight]
@[simp] theorem State.mintId_quoin (s : State) : s.mintId.2.trust.quoin = s.trust.quoin := by simp [State.mintId]
@[simp] theorem State.setOut_quoin (s : State) (i m) : (s.setOut i m).trust.quoin = s.trust.quoin := by simp [State.setOut]
@[simp] theorem State.pumpStep_quoin (s : State) (i) : (s.pumpStep i).2.trust.quoin = s.trust.quoin := by
  obtain ⟨_, _, _, h⟩ := s.pumpStep_frame i
  rw [h]
@[simp] theorem State.pumpMsg_quoin (s : State) (i n) : (s.pumpMsg i n).trust.quoin = s.trust.quoin := by
  obtain ⟨_, _, _, h⟩ := State.pumpMsg_frame i n s
  rw [h]
@[simp] theorem State.pump_quoin (s : State) : s.pump.trust.quoin = s.trust.quoin := by
  rw [State.pump_eq]
@[simp] theorem State.sendMsg_quoin (s : State) (hdr payload owner) :
    (s.sendMsg hdr payload owner).trust.quoin = s.trust.quoin := by simp [State.sendMsg]
@[simp] theorem State.sendAck_quoin (s : State) (m status result bitmap) :
    (s.sendAck m status result bitmap).trust.quoin = s.trust.quoin := by
  simp only [State.sendAck]; (repeat' split) <;> simp
@[simp] theorem State.gqWrite_quoin (s : State) (q addr b) : (s.gqWrite q addr b).trust.quoin = s.trust.quoin := by
  unfold State.gqWrite; split <;> simp
@[simp] theorem State.gqComplete_quoin (s : State) (q idx op status detail immediate length source) :
    (s.gqComplete q idx op status detail immediate length source).trust.quoin = s.trust.quoin := by simp [State.gqComplete]
@[simp] theorem State.keyStore_quoin (s : State) (rkey addr b) : (s.keyStore rkey addr b).trust.quoin = s.trust.quoin := by
  unfold State.keyStore; (repeat' split) <;> simp
@[simp] theorem State.dupResult_quoin (s : State) (device msgId st result) :
    (s.dupResult device msgId st result).trust.quoin = s.trust.quoin := by simp [State.dupResult]
@[simp] theorem State.ackApplied_quoin (s : State) (m st result) : (s.ackApplied m st result).trust.quoin = s.trust.quoin := by
  simp [State.ackApplied]
@[simp] theorem State.writeEnd_quoin (s : State) (m st) : (s.writeEnd m st).trust.quoin = s.trust.quoin := by
  simp only [State.writeEnd]; (repeat' split) <;> simp
@[simp] theorem State.dropIn_quoin (s : State) (m) : (s.dropIn m).trust.quoin = s.trust.quoin := by simp [State.dropIn]

/-! The operations of Machine/Reply. -/

@[simp] theorem State.controlReply_quoin (s : State) (c st detail result data) :
    (s.controlReply c st detail result data).trust.quoin = s.trust.quoin := by simp [State.controlReply]
@[simp] theorem State.replyData_quoin (s : State) (p st detail result data) :
    (s.replyData p st detail result data).trust.quoin = s.trust.quoin := by
  simp only [State.replyData]; (repeat' split) <;> simp
@[simp] theorem State.reply_quoin (s : State) (p st detail result) :
    (s.reply p st detail result).trust.quoin = s.trust.quoin := by simp [State.reply]

/-! The operations of Machine/MediaOps. -/

@[simp] theorem State.pushTail_quoin (s : State) : s.pushTail.trust.quoin = s.trust.quoin := by simp [State.pushTail]
@[simp] theorem State.openTail_quoin (s : State) : s.openTail.trust.quoin = s.trust.quoin := by simp [State.openTail]
@[simp] theorem State.journal_quoin (s : State) (e) : (s.journal e).trust.quoin = s.trust.quoin := by simp [State.journal]
@[simp] theorem State.journalDiscard_quoin (s : State) (ns lmu f n) :
    (s.journalDiscard ns lmu f n).trust.quoin = s.trust.quoin := by
  induction f generalizing s lmu n with
  | zero => rfl
  | succ f ih => cases n with
    | zero => rfl
    | succ n => rw [State.journalDiscard, ih, State.journal_quoin]

@[simp] theorem State.checkWorn_quoin (s : State) : s.checkWorn.trust.quoin = s.trust.quoin := by simp [State.checkWorn]
@[simp] theorem State.checkSpare_quoin (s : State) : s.checkSpare.trust.quoin = s.trust.quoin := by simp [State.checkSpare]
@[simp] theorem State.spareChanged_quoin (s : State) : s.spareChanged.trust.quoin = s.trust.quoin := by
  simp [State.spareChanged]
@[simp] theorem State.checkWornExit_quoin (s : State) : s.checkWornExit.trust.quoin = s.trust.quoin := by
  simp [State.checkWornExit]
@[simp] theorem State.openBands_quoin (s : State) (gc bs) : (s.openBands gc bs).trust.quoin = s.trust.quoin := by
  induction bs generalizing s with
  | nil => rfl
  | cons b bs ih =>
    rw [State.openBands]
    split <;> simp [ih]

@[simp] theorem State.programPage_quoin (s : State) (pma) : (s.programPage pma).trust.quoin = s.trust.quoin := by
  simp [State.programPage]
@[simp] theorem State.pageProgrammed_quoin (s : State) (pma) : (s.pageProgrammed pma).trust.quoin = s.trust.quoin := by
  simp [State.pageProgrammed]
@[simp] theorem State.storeUnit_quoin (s : State) (ns u pma data) :
    (s.storeUnit ns u pma data).trust.quoin = s.trust.quoin := by simp [State.storeUnit]
@[simp] theorem State.placeUnit_quoin (s : State) (ns u pma data) :
    (s.placeUnit ns u pma data).trust.quoin = s.trust.quoin := by simp [State.placeUnit]
@[simp] theorem State.moveUnit_quoin (s : State) (ns u pma) : (s.moveUnit ns u pma).trust.quoin = s.trust.quoin := by
  unfold State.moveUnit; split <;> simp
@[simp] theorem State.settle_quoin (s : State) (features) : (s.settle features).trust.quoin = s.trust.quoin := by
  simp [State.settle]
@[simp] theorem State.drawKey_quoin (s : State) (ns) : (s.drawKey ns).trust.quoin = s.trust.quoin := by simp [State.drawKey]
@[simp] theorem State.dropKey_quoin (s : State) (ns) : (s.dropKey ns).trust.quoin = s.trust.quoin := by simp [State.dropKey]
@[simp] theorem State.cryptoEraseRecord_quoin (s : State) : s.cryptoEraseRecord.trust.quoin = s.trust.quoin := by
  simp [State.cryptoEraseRecord]
@[simp] theorem State.cryptoEraseAll_quoin (s : State) : (s.cryptoEraseAll).trust.quoin = s.trust.quoin := by
  simp [State.cryptoEraseAll]
@[simp] theorem State.mediaHandover_quoin (s : State) : s.mediaHandover.trust.quoin = s.trust.quoin := by
  simp [State.mediaHandover]
@[simp] theorem State.flushAllMedia_quoin (s : State) : s.flushAllMedia.trust.quoin = s.trust.quoin := by
  simp [State.flushAllMedia]
@[simp] theorem State.lastGaspStart_quoin (s : State) : s.lastGaspStart.trust.quoin = s.trust.quoin := by
  simp [State.lastGaspStart]
@[simp] theorem State.gaspProgram_quoin (s : State) (n) : (s.gaspProgram n).trust.quoin = s.trust.quoin := by
  simp [State.gaspProgram]
@[simp] theorem State.lastGaspFinish_quoin (s : State) (us) : (s.lastGaspFinish us).trust.quoin = s.trust.quoin := by
  simp [State.lastGaspFinish]

/-! The operations of Machine/StreamBase. -/

@[simp] theorem State.jobCount_quoin (s : State) (st) : (s.jobCount st).trust.quoin = s.trust.quoin := by simp [State.jobCount]
@[simp] theorem State.updCtx_quoin (s : State) (c f) : (s.updCtx c f).trust.quoin = s.trust.quoin := by simp [State.updCtx]
@[simp] theorem State.groupSend_quoin (s : State) (kind n body) : (s.groupSend kind n body).trust.quoin = s.trust.quoin := by
  simp [State.groupSend]
@[simp] theorem State.groupCast_quoin (s : State) (kind body) : (s.groupCast kind body).trust.quoin = s.trust.quoin := by
  simp [State.groupCast]
@[simp] theorem State.sendStreamEvent_quoin (s : State) (c x st forme) :
    (s.sendStreamEvent c x st forme).trust.quoin = s.trust.quoin := by simp [State.sendStreamEvent]
@[simp] theorem State.haltStream_quoin (s : State) (c st forme) : (s.haltStream c st forme).trust.quoin = s.trust.quoin := by
  unfold State.haltStream; split <;> simp
@[simp] theorem State.streamUnreadable_quoin (s : State) (c) : (s.streamUnreadable c).trust.quoin = s.trust.quoin := by
  unfold State.streamUnreadable; (repeat' split) <;> simp
theorem State.autoPlaceOpen_some_quoin {s t : State} {p} (h : s.autoPlaceOpen = some (p, t)) :
    t.trust.quoin = s.trust.quoin := by
  unfold State.autoPlaceOpen at h
  simp only at h
  repeat' split at h
  all_goals simp only [reduceCtorEq, Option.some.injEq, Prod.mk.injEq] at h
  all_goals obtain ⟨-, rfl⟩ := h; simp

theorem State.putShare_quoin (s : State) (ns stripe j b) {t} (h : s.putShare ns stripe j b = some t) :
    t.trust.quoin = s.trust.quoin := by
  unfold State.putShare at h
  split at h
  · split at h
    · rename_i hp
      cases h
      rw [State.placeUnit_quoin, State.autoPlaceOpen_some_quoin hp]
    · cases h
  · cases h; rfl

theorem State.putShares_quoin (s : State) (ns stripe l) {t} (h : s.putShares ns stripe l = some t) :
    t.trust.quoin = s.trust.quoin := by
  induction l generalizing s with
  | nil => cases h; rfl
  | cons x l ih =>
    rw [State.putShares] at h
    split at h
    · rename_i hp
      rw [ih _ h, State.putShare_quoin _ _ _ _ _ hp]
    · cases h

theorem State.deviceWrite_quoin (s : State) (ns addr b n) {t} (h : s.deviceWrite ns addr b n = some t) :
    t.trust.quoin = s.trust.quoin := by
  induction n generalizing s addr b with
  | zero =>
    rw [State.deviceWrite] at h
    split at h
    · cases h; rfl
    · cases h
  | succ n ih =>
    simp only [State.deviceWrite] at h
    split at h
    · cases h; rfl
    · split at h
      · split at h
        · cases h
        · split at h
          · cases h
          · rename_i hp
            rw [ih _ _ _ h, State.putShares_quoin _ _ _ _ hp]
      · split at h
        · cases h
        · rename_i hp
          rw [ih _ _ _ h, State.placeUnit_quoin, State.autoPlaceOpen_some_quoin hp]

@[simp] theorem State.setWitnessEnd_quoin (s : State) (ns e) : (s.setWitnessEnd ns e).trust.quoin = s.trust.quoin := by
  simp [State.setWitnessEnd]
@[simp] theorem State.getD_deviceWrite_quoin (s : State) (ns addr b n) :
    ((s.deviceWrite ns addr b n).getD s).trust.quoin = s.trust.quoin := by
  cases h : s.deviceWrite ns addr b n with
  | none => rfl
  | some t => exact State.deviceWrite_quoin _ _ _ _ _ h

theorem State.witnessWrite_quoin (s : State) (ns type streamId key payload) {t}
    (h : s.witnessWrite ns type streamId key payload = some t) : t.trust.quoin = s.trust.quoin := by
  unfold State.witnessWrite at h
  simp only at h
  split at h
  · cases h
  · split at h
    · cases h
    · split at h
      · cases h
      · rename_i hw
        cases h
        rw [State.setWitnessEnd_quoin, State.deviceWrite_quoin _ _ _ _ _ hw, State.issueSeq_quoin]

@[simp] theorem State.witnessAppend_quoin (s : State) (c ty key p) :
    (s.witnessAppend c ty key p).2.trust.quoin = s.trust.quoin := by
  unfold State.witnessAppend
  split
  · rfl
  · split
    · rfl
    · split
      · rename_i hw; exact State.witnessWrite_quoin _ _ _ _ _ _ hw
      · simp

/-! The operations of Machine/RunOps. -/

@[simp] theorem State.traceWrite_quoin (s : State) (b) : (s.traceWrite b).trust.quoin = s.trust.quoin := by
  simp [State.traceWrite]
@[simp] theorem State.trace_quoin (s : State) (type bit source run flags arg0 arg1) :
    (s.trace type bit source run flags arg0 arg1).trust.quoin = s.trust.quoin := by simp [State.trace]
@[simp] theorem State.runState_quoin (s : State) (slot st) : (s.runState slot st).trust.quoin = s.trust.quoin := by
  simp only [State.runState]; split <;> simp
@[simp] theorem State.deliverRecord_quoin (s : State) (slot) : (s.deliverRecord slot).trust.quoin = s.trust.quoin := by
  simp only [State.deliverRecord]; (repeat' split) <;> simp
@[simp] theorem State.stageRunEnded_quoin (s : State) (r) : (s.stageRunEnded r).trust.quoin = s.trust.quoin := by
  unfold State.stageRunEnded; (repeat' split) <;> simp
@[simp] theorem State.endRun_quoin (s : State) (slot st detail tile va logged) :
    (s.endRun slot st detail tile va logged).trust.quoin = s.trust.quoin := by
  simp only [State.endRun]; (repeat' split) <;> simp
@[simp] theorem State.holdRun_quoin (s : State) (slot st x) : (s.holdRun slot st x).trust.quoin = s.trust.quoin := by
  unfold State.holdRun; split <;> simp
@[simp] theorem State.syncFault_quoin (s : State) (owner n st tile logical) :
    (s.syncFault owner n st tile logical).trust.quoin = s.trust.quoin := by
  simp only [State.syncFault]; (repeat' split) <;> simp
@[simp] theorem State.wake_quoin (s : State) (n) : (s.wake n).trust.quoin = s.trust.quoin := by simp [State.wake]
@[simp] theorem State.barrierDue_quoin (s : State) (n) : (s.barrierDue n).trust.quoin = s.trust.quoin := by
  simp [State.barrierDue]
@[simp] theorem State.counterAdd_quoin (s : State) (n amount who device tile) :
    (s.counterAdd n amount who device tile).2.trust.quoin = s.trust.quoin := by
  simp only [State.counterAdd]; split <;> simp
@[simp] theorem State.freeCounter_quoin (s : State) (p) : (s.freeCounter p).trust.quoin = s.trust.quoin := by
  simp [State.freeCounter]
@[simp] theorem State.tileEvent_quoin (s : State) (r logical code n) :
    (s.tileEvent r logical code n).trust.quoin = s.trust.quoin := by
  unfold State.tileEvent; (repeat' split) <;> simp
@[simp] theorem State.setRegionSt_quoin (s : State) (g t) : (s.setRegionSt g t).trust.quoin = s.trust.quoin := by
  simp [State.setRegionSt]
@[simp] theorem State.regionBump_quoin (s : State) (g i n) : (s.regionBump g i n).trust.quoin = s.trust.quoin := by
  simp [State.regionBump]
@[simp] theorem State.zeroRegion_quoin (s : State) (g) : (s.zeroRegion g).trust.quoin = s.trust.quoin := by
  simp [State.zeroRegion]
@[simp] theorem State.isolateRegion_quoin (s : State) (g detail) : (s.isolateRegion g detail).trust.quoin = s.trust.quoin := by
  simp only [State.isolateRegion]; split <;> simp

/-! The operations of Machine/Tiles. -/

@[simp] theorem State.operandFault_quoin (s : State) (slot detail source) :
    (s.operandFault slot detail source).trust.quoin = s.trust.quoin := by simp [State.operandFault]
@[simp] theorem State.suspendFill_quoin (s : State) (slot source op page) :
    (s.suspendFill slot source op page).trust.quoin = s.trust.quoin := by
  simp only [State.suspendFill]; split <;> simp
@[simp] theorem State.touchSpans_quoin (s : State) (slot spans) : (s.touchSpans slot spans).trust.quoin = s.trust.quoin := by
  simp [State.touchSpans]
@[simp] theorem State.access_quoin (s : State) (r so op sp go) (h : go.trust.quoin = s.trust.quoin) :
    (s.access r so op sp go).trust.quoin = s.trust.quoin := by
  unfold State.access
  split <;> simp [h]

@[simp] theorem State.drainTile_quoin (s : State) (r tile acc) : (s.drainTile r tile acc).trust.quoin = s.trust.quoin := by
  unfold State.drainTile; split <;> simp
@[simp] theorem State.putTensor_quoin (s : State) (r tile k rnd sat base va vs) :
    (s.putTensor r tile k rnd sat base va vs).trust.quoin = s.trust.quoin := by simp [State.putTensor]
@[simp] theorem State.matStore_quoin (s : State) (r tile o ko vs done skipped) :
    (s.matStore r tile o ko vs done skipped).trust.quoin = s.trust.quoin := by simp [State.matStore]
@[simp] theorem State.matrixDense_quoin (s : State) (r tile o) : (s.matrixDense r tile o).trust.quoin = s.trust.quoin := by
  unfold State.matrixDense; split <;> simp
@[simp] theorem State.matrixSparse_quoin (s : State) (r tile o metaAt) :
    (s.matrixSparse r tile o metaAt).trust.quoin = s.trust.quoin := by
  unfold State.matrixSparse; split <;> simp
@[simp] theorem State.vectorRun_quoin (s : State) (r tile o) : (s.vectorRun r tile o).trust.quoin = s.trust.quoin := by
  simp only [State.vectorRun]; split <;> simp
@[simp] theorem State.reduceRun_quoin (s : State) (r tile o) : (s.reduceRun r tile o).trust.quoin = s.trust.quoin := by
  unfold State.reduceRun; split <;> simp
@[simp] theorem State.specialRun_quoin (s : State) (r tile o) : (s.specialRun r tile o).trust.quoin = s.trust.quoin := by
  simp [State.specialRun]
@[simp] theorem State.quantRun_quoin (s : State) (r tile o) : (s.quantRun r tile o).trust.quoin = s.trust.quoin := by
  unfold State.quantRun; split <;> simp
@[simp] theorem State.routeRun_quoin (s : State) (r tile o) : (s.routeRun r tile o).trust.quoin = s.trust.quoin := by
  simp [State.routeRun]
@[simp] theorem State.combineRun_quoin (s : State) (r tile o) : (s.combineRun r tile o).trust.quoin = s.trust.quoin := by
  simp [State.combineRun]
@[simp] theorem State.watchRun_quoin (s : State) (r tile o) : (s.watchRun r tile o).trust.quoin = s.trust.quoin := by
  unfold State.watchRun; split <;> simp
@[simp] theorem State.rowWriteBack_quoin (s : State) (r x) : (s.rowWriteBack r x).trust.quoin = s.trust.quoin := by
  unfold State.rowWriteBack
  split <;> simp
@[simp] theorem State.rowInsert_quoin (s : State) (slot x) : (s.rowInsert slot x).trust.quoin = s.trust.quoin := by
  simp only [State.rowInsert]; (repeat' split) <;> simp
@[simp] theorem State.suspendRows_quoin (s : State) (slot source op rows) :
    (s.suspendRows slot source op rows).trust.quoin = s.trust.quoin := by simp [State.suspendRows]
@[simp] theorem State.gatherRun_quoin (s : State) (r source o) : (s.gatherRun r source o).trust.quoin = s.trust.quoin := by
  unfold State.gatherRun
  split
  · refine State.access_quoin _ _ _ _ _ _ ?_
    split
    · simp
    · split
      · simp
      · simp only
        split
        · simp
        · rw [State.vWrite_quoin]
          refine (foldl_quoin _ (fun s i => ?_) _ _).trans (by simp)
          split <;> simp
  · simp

@[simp] theorem State.applyRow_quoin (s : State) (r g t o row) : (s.applyRow r g t o row).trust.quoin = s.trust.quoin := by
  unfold State.applyRow; split <;> simp
@[simp] theorem State.applyRun_quoin (s : State) (r source o) : (s.applyRun r source o).trust.quoin = s.trust.quoin := by
  unfold State.applyRun; split <;> simp
@[simp] theorem State.runTileOp_quoin (s : State) (r source x3) : (s.runTileOp r source x3).trust.quoin = s.trust.quoin := by
  unfold State.runTileOp; (repeat' split) <;> simp
@[simp] theorem State.matrixOp_quoin (s : State) (slot tile o) : (s.matrixOp slot tile o).trust.quoin = s.trust.quoin := by
  unfold State.matrixOp; split <;> simp
@[simp] theorem State.sparseMatrixOp_quoin (s : State) (slot tile o metaAt) :
    (s.sparseMatrixOp slot tile o metaAt).trust.quoin = s.trust.quoin := by
  unfold State.sparseMatrixOp; split <;> simp
@[simp] theorem State.tileOp_quoin (s : State) (slot tile op) : (s.tileOp slot tile op).trust.quoin = s.trust.quoin := by
  unfold State.tileOp; split <;> simp
@[simp] theorem State.embGather_quoin (s : State) (slot e o) : (s.embGather slot e o).trust.quoin = s.trust.quoin := by
  unfold State.embGather; split <;> simp
@[simp] theorem State.retryReady_quoin (s : State) (x) : (s.retryReady x).trust.quoin = s.trust.quoin := by
  unfold State.retryReady
  split
  · rfl
  · split
    · rfl
    · refine foldl_quoin _ (fun s y => ?_) _ _
      simp only
      split <;> simp

@[simp] theorem State.embRowReadDone_quoin (s : State) (slot table row ok) :
    (s.embRowReadDone slot table row ok).trust.quoin = s.trust.quoin := by
  unfold State.embRowReadDone; (repeat' split) <;> simp
@[simp] theorem State.embGrad_quoin (s : State) (slot e cs) : (s.embGrad slot e cs).trust.quoin = s.trust.quoin := by
  unfold State.embGrad; split <;> simp
@[simp] theorem State.embApply_quoin (s : State) (slot e o) : (s.embApply slot e o).trust.quoin = s.trust.quoin := by
  unfold State.embApply; split <;> simp
@[simp] theorem State.embFlush_quoin (s : State) (slot) : (s.embFlush slot).trust.quoin = s.trust.quoin := by
  unfold State.embFlush; split <;> simp
@[simp] theorem State.embFlushDone_quoin (s : State) (slot) : (s.embFlushDone slot).trust.quoin = s.trust.quoin := by
  unfold State.embFlushDone; (repeat' split) <;> simp

/-! The operations of Machine/Dma. -/

@[simp] theorem State.pageWriteBack_quoin (s : State) (r x) : (s.pageWriteBack r x).trust.quoin = s.trust.quoin := by
  unfold State.pageWriteBack
  split <;> simp
@[simp] theorem State.dmaStop_quoin (s : State) (slot tile op x4) :
    (s.dmaStop slot tile op x4).trust.quoin = s.trust.quoin := by
  simp only [State.dmaStop]; (repeat' split) <;> simp
@[simp] theorem State.dmaMoved_quoin (s : State) (phys desc) : (s.dmaMoved phys desc).trust.quoin = s.trust.quoin := by
  simp only [State.dmaMoved]; split <;> simp
@[simp] theorem State.dmaUnits_quoin (s : State) (slot tile desc d i2 i1 off n) :
    (s.dmaUnits slot tile desc d i2 i1 off n).trust.quoin = s.trust.quoin := by
  induction n generalizing s i2 i1 off with
  | zero => rfl
  | succ n ih =>
    simp only [State.dmaUnits]
    split
    · rfl
    · split
      · split <;> simp
      · split <;> simp [ih]

@[simp] theorem State.dmaEngine_quoin (s : State) (r tile desc d) :
    (s.dmaEngine r tile desc d).trust.quoin = s.trust.quoin := by
  unfold State.dmaEngine; split <;> simp
@[simp] theorem State.dmaGo_quoin (s : State) (r tile desc i2 i1 off) :
    (s.dmaGo r tile desc i2 i1 off).trust.quoin = s.trust.quoin := by
  unfold State.dmaGo; split <;> simp
@[simp] theorem State.dmaIssue_quoin (s : State) (slot tile desc op) :
    (s.dmaIssue slot tile desc op).trust.quoin = s.trust.quoin := by
  unfold State.dmaIssue; (repeat' split) <;> simp
@[simp] theorem State.dmaDescriptorDone_quoin (s : State) (slot tile) :
    (s.dmaDescriptorDone slot tile).trust.quoin = s.trust.quoin := by
  simp only [State.dmaDescriptorDone]; (repeat' split) <;> simp
@[simp] theorem State.retryDma_quoin (s : State) (x) : (s.retryDma x).trust.quoin = s.trust.quoin := by
  unfold State.retryDma
  split
  · rfl
  · split
    · rfl
    · refine foldl_quoin _ (fun s y => ?_) _ _
      simp only
      split <;> simp

@[simp] theorem State.retryAll_quoin (s : State) (slot) : (s.retryAll slot).trust.quoin = s.trust.quoin := by
  simp [State.retryAll]
@[simp] theorem State.evict_quoin (s : State) (r e) : (s.evict r e).trust.quoin = s.trust.quoin := by simp [State.evict]
@[simp] theorem State.fillFails_quoin (s : State) (r page st) : (s.fillFails r page st).trust.quoin = s.trust.quoin := by
  unfold State.fillFails; split <;> simp
@[simp] theorem State.fillDone_quoin (s : State) (slot page ok) : (s.fillDone slot page ok).trust.quoin = s.trust.quoin := by
  simp only [State.fillDone]; (repeat' split) <;> simp

/-! The operations of Machine/Plates. -/

@[simp] theorem State.loadPlateCheck_quoin (s : State) (b) : (s.loadPlateCheck b).2.trust.quoin = s.trust.quoin := by
  simp only [State.loadPlateCheck]; (repeat' split) <;> simp
@[simp] theorem State.loadPlate_quoin (s : State) (p src) : (s.loadPlate p src).trust.quoin = s.trust.quoin := by
  simp [State.loadPlate]
@[simp] theorem State.unloadPlate_quoin (s : State) (p digest) : (s.unloadPlate p digest).trust.quoin = s.trust.quoin := by
  simp [State.unloadPlate]

/-! The operations of Machine/Sync. -/

@[simp] theorem State.badCounter_quoin (s : State) (r by_ logical) :
    (s.badCounter r by_ logical).trust.quoin = s.trust.quoin := by simp [State.badCounter]
@[simp] theorem State.syncIssued_quoin (s : State) (r x2) : (s.syncIssued r x2).trust.quoin = s.trust.quoin := by
  unfold State.syncIssued; split <;> simp
@[simp] theorem State.syncAdd_quoin (s : State) (c by_ n) : (s.syncAdd c by_ n).trust.quoin = s.trust.quoin := by
  simp only [State.syncAdd]; (repeat' split) <;> simp
@[simp] theorem State.syncSub_quoin (s : State) (slot tile k n) : (s.syncSub slot tile k n).trust.quoin = s.trust.quoin := by
  simp only [State.syncSub]; (repeat' split) <;> simp
@[simp] theorem State.addWaiter_quoin (s : State) (p w) : (s.addWaiter p w).trust.quoin = s.trust.quoin := by
  simp [State.addWaiter]
@[simp] theorem State.syncWaitGe_quoin (s : State) (slot by_ k v) :
    (s.syncWaitGe slot by_ k v).trust.quoin = s.trust.quoin := by
  simp only [State.syncWaitGe]; (repeat' split) <;> simp
@[simp] theorem State.syncWaitSub_quoin (s : State) (slot tile k n) :
    (s.syncWaitSub slot tile k n).trust.quoin = s.trust.quoin := by
  simp only [State.syncWaitSub]; (repeat' split) <;> simp
@[simp] theorem State.syncArrive_quoin (s : State) (slot tile k reissued) :
    (s.syncArrive slot tile k reissued).trust.quoin = s.trust.quoin := by
  simp only [State.syncArrive]; (repeat' split) <;> simp
@[simp] theorem State.syncRead_quoin (s : State) (slot tile k) : (s.syncRead slot tile k).trust.quoin = s.trust.quoin := by
  simp only [State.syncRead]; (repeat' split) <;> simp
@[simp] theorem State.bindCounter_quoin (s : State) (p o remote) : (s.bindCounter p o remote).trust.quoin = s.trust.quoin := by
  simp [State.bindCounter]
@[simp] theorem State.nameIssued_quoin (s : State) (tile x2) : (s.nameIssued tile x2).trust.quoin = s.trust.quoin := by
  unfold State.nameIssued; (repeat' split) <;> simp
@[simp] theorem State.allocReply_quoin (s : State) (c st vals) : (s.allocReply c st vals).trust.quoin = s.trust.quoin := by
  unfold State.allocReply; split <;> simp
@[simp] theorem State.syncAlloc_quoin (s : State) (c tile remote pick) :
    (s.syncAlloc c tile remote pick).trust.quoin = s.trust.quoin := by simp [State.syncAlloc]
@[simp] theorem State.syncFree_quoin (s : State) (slot tile b) : (s.syncFree slot tile b).trust.quoin = s.trust.quoin := by
  simp only [State.syncFree]; (repeat' split) <;> simp
@[simp] theorem State.syncConfig_quoin (s : State) (slot tile k barrier parties pairs) :
    (s.syncConfig slot tile k barrier parties pairs).trust.quoin = s.trust.quoin := by
  simp only [State.syncConfig]; (repeat' split) <;> simp
@[simp] theorem State.writeRealign_quoin (s : State) (o i m) : (s.writeRealign o i m).trust.quoin = s.trust.quoin := by
  unfold State.writeRealign
  split
  · split <;> simp
  · rfl

@[simp] theorem State.realignPair_quoin (s : State) (o i pc) : (s.realignPair o i pc).trust.quoin = s.trust.quoin := by
  simp [State.realignPair]
@[simp] theorem State.realignAll_quoin (s : State) (o i l) : (s.realignAll o i l).trust.quoin = s.trust.quoin := by
  induction l generalizing s i with
  | nil => rfl
  | cons p l ih => rw [State.realignAll, ih, State.realignPair_quoin]

@[simp] theorem State.barrierRelease_quoin (s : State) (p) : (s.barrierRelease p).trust.quoin = s.trust.quoin := by
  simp [State.barrierRelease]
@[simp] theorem State.synDbgSelWrite_quoin (s : State) (v) : (s.synDbgSelWrite v).trust.quoin = s.trust.quoin := by
  simp [State.synDbgSelWrite]
@[simp] theorem State.synSwSignal_quoin (s : State) (p v) : (s.synSwSignal p v).trust.quoin = s.trust.quoin := by
  simp [State.synSwSignal]
theorem writeSync_quoin (s : State) (p off v) : KeepsQuoin s (writeSync s p off v) := by
  unfold writeSync
  repeat' refine .ite ?_ ?_
  all_goals simp

/-! The operations of Machine/Runs. -/

@[simp] theorem State.clearEvents_quoin (s : State) (regs) : (s.clearEvents regs).trust.quoin = s.trust.quoin := by
  simp [State.clearEvents]
@[simp] theorem State.grant_quoin (s : State) (slot regs st) : (s.grant slot regs st).trust.quoin = s.trust.quoin := by
  simp [State.grant]
@[simp] theorem State.startPreempt_quoin (s : State) (slot) : (s.startPreempt slot).trust.quoin = s.trust.quoin := by
  simp [State.startPreempt]
@[simp] theorem State.schedulePreempt_quoin (s : State) : s.schedulePreempt.trust.quoin = s.trust.quoin := by
  simp only [State.schedulePreempt]; (repeat' split) <;> simp
@[simp] theorem State.newRun_quoin (s : State) (p q slot pl) : (s.newRun p q slot pl).trust.quoin = s.trust.quoin := by
  simp [State.newRun]
@[simp] theorem State.joinList_quoin (s : State) (slot) : (s.joinList slot).trust.quoin = s.trust.quoin := by
  simp [State.joinList]
@[simp] theorem State.startRun_quoin (s : State) (p q) : (s.startRun p q).2.2.2.trust.quoin = s.trust.quoin := by
  simp only [State.startRun]; (repeat' split) <;> simp
@[simp] theorem State.start_quoin (s : State) (p q) : (s.start p q).trust.quoin = s.trust.quoin := by simp [State.start]
@[simp] theorem State.preempt_quoin (s : State) (p slot) : (s.preempt p slot).trust.quoin = s.trust.quoin := by
  unfold State.preempt; split <;> simp
@[simp] theorem State.retryHeld_quoin (s : State) (slot) : (s.retryHeld slot).trust.quoin = s.trust.quoin := by
  simp [State.retryHeld]
@[simp] theorem State.resume_quoin (s : State) (p slot) : (s.resume p slot).trust.quoin = s.trust.quoin := by
  unfold State.resume; (repeat' split) <;> simp
@[simp] theorem State.freeRun_quoin (s : State) (b) : (s.freeRun b).trust.quoin = s.trust.quoin := by
  unfold State.freeRun
  split <;> simp
@[simp] theorem State.stop_quoin (s : State) (p slot) : (s.stop p slot).trust.quoin = s.trust.quoin := by
  unfold State.stop; split <;> simp
@[simp] theorem State.runLoaded_quoin (s : State) (slot bad) : (s.runLoaded slot bad).trust.quoin = s.trust.quoin := by
  unfold State.runLoaded; (repeat' split) <;> simp
@[simp] theorem State.runDequeue_quoin (s : State) : s.runDequeue.trust.quoin = s.trust.quoin := by
  unfold State.runDequeue; (repeat' split) <;> simp
@[simp] theorem State.plateEnd_quoin (s : State) (slot) : (s.plateEnd slot).trust.quoin = s.trust.quoin := by
  unfold State.plateEnd; split <;> simp
@[simp] theorem State.runCleanupDone_quoin (s : State) (slot) : (s.runCleanupDone slot).trust.quoin = s.trust.quoin := by
  unfold State.runCleanupDone; split <;> simp
@[simp] theorem State.preemptSaveDone_quoin (s : State) (slot pa) :
    (s.preemptSaveDone slot pa).trust.quoin = s.trust.quoin := by
  unfold State.preemptSaveDone
  split
  · rfl
  · simp only
    split
    · rfl
    · split
      · split <;> simp
      · simp

@[simp] theorem State.restore_quoin (s : State) (r a) : (s.restore r a).trust.quoin = s.trust.quoin := by
  simp only [State.restore]
  refine (foldl_quoin _ (fun s w => ?_) _ _).trans ((foldl_quoin _ (fun s c => ?_) _ _).trans ?_)
  · split
    · rfl
    · split <;> simp
  · split <;> simp
  · simp

@[simp] theorem State.resumeRestoreDone_quoin (s : State) (slot ok) :
    (s.resumeRestoreDone slot ok).trust.quoin = s.trust.quoin := by
  unfold State.resumeRestoreDone; (repeat' split) <;> simp
theorem writeStk_quoin (s : State) (off v) : KeepsQuoin s (writeStk s off v) := by
  unfold writeStk
  repeat' refine .ite ?_ ?_
  all_goals simp

/-! The operations of Machine/Streams. -/

@[simp] theorem State.startStages_quoin (s : State) (c seed l) : (s.startStages c seed l).2.2.trust.quoin = s.trust.quoin := by
  induction l generalizing s with
  | nil => rfl
  | cons d ds ih => 
    simp only [State.startStages]
    split
    · rfl
    · simp [ih]

@[simp] theorem State.tableReply_quoin (s : State) (p group params ctx removal res) :
    (s.tableReply p group params ctx removal res).trust.quoin = s.trust.quoin := by simp [State.tableReply]
@[simp] theorem State.takeCtx_quoin (s : State) (c x) : (s.takeCtx c x).trust.quoin = s.trust.quoin := by simp [State.takeCtx]
@[simp] theorem State.getD_witnessWrite_quoin (s : State) (ns ty id key p) :
    ((s.witnessWrite ns ty id key p).getD s).trust.quoin = s.trust.quoin := by
  cases h : s.witnessWrite ns ty id key p with
  | none => rfl
  | some t => exact State.witnessWrite_quoin _ _ _ _ _ _ h

@[simp] theorem State.streamOpen_quoin (s : State) (p b) : (s.streamOpen p b).trust.quoin = s.trust.quoin := by
  unfold State.streamOpen
  split
  · simp
  · rename_i o _
    simp only
    split
    · simp
    · split
      · simp
      · rename_i w hw
        have hw : w.trust.quoin = s.trust.quoin := by
          split at hw
          · rw [State.witnessWrite_quoin _ _ _ _ _ _ hw]; simp
          · cases hw; simp
        simp [hw]

@[simp] theorem State.streamRefuse_quoin (s : State) (p c st) : (s.streamRefuse p c st).trust.quoin = s.trust.quoin := by
  simp [State.streamRefuse]
@[simp] theorem State.galleyPlace_quoin (s : State) (size) : (s.galleyPlace size).2.trust.quoin = s.trust.quoin := by
  simp only [State.galleyPlace]; (repeat' split) <;> simp
@[simp] theorem State.galleyTake_quoin (s : State) (c x n) : (s.galleyTake c x n).trust.quoin = s.trust.quoin := by
  simp [State.galleyTake]
@[simp] theorem State.galleysDrop_quoin (s : State) (c gone) : (s.galleysDrop c gone).trust.quoin = s.trust.quoin := by
  unfold State.galleysDrop
  split
  · rfl
  · rw [foldl_quoin]
    · simp
    · intro s y; split <;> simp

@[simp] theorem State.streamClose_quoin (s : State) (p id) : (s.streamClose p id).trust.quoin = s.trust.quoin := by
  unfold State.streamClose; split <;> simp
@[simp] theorem State.freeCtxOf_quoin (s : State) (c x) : (s.freeCtxOf c x).trust.quoin = s.trust.quoin := by
  simp [State.freeCtxOf]
@[simp] theorem State.streamCloseComplete_quoin (s : State) (c) : (s.streamCloseComplete c).trust.quoin = s.trust.quoin := by
  unfold State.streamCloseComplete; (repeat' split) <;> simp
@[simp] theorem State.storePush_quoin (s : State) (p c l e) : (s.storePush p c l e).trust.quoin = s.trust.quoin := by
  induction l generalizing s with
  | nil => simp [State.storePush]
  | cons r rs ih =>
    rw [State.storePush]
    have h := s.witnessAppend_quoin c 2 r.folio (leBytes 4 r.epoch ++ leBytes 4 0 ++ r.entry)
    split <;> rename_i hw <;> simp only [hw] at h
    · simp [h]
    · simp [ih, h]

@[simp] theorem State.streamParameters_quoin (s : State) (p b) : (s.streamParameters p b).trust.quoin = s.trust.quoin := by
  unfold State.streamParameters; split <;> simp
@[simp] theorem State.resumeAt_quoin (s : State) (c x m) : (s.resumeAt c x m).2.trust.quoin = s.trust.quoin := by
  simp only [State.resumeAt]; split <;> simp
@[simp] theorem State.streamResume_quoin (s : State) (p id m) : (s.streamResume p id m).trust.quoin = s.trust.quoin := by
  unfold State.streamResume; split <;> simp
@[simp] theorem State.decoderFault_quoin (s : State) (st streamId folio tag content) :
    (s.decoderFault st streamId folio tag content).trust.quoin = s.trust.quoin := by simp [State.decoderFault]
@[simp] theorem State.decodeBuffer_quoin (s : State) (port unit size) :
    (s.decodeBuffer port unit size).trust.quoin = s.trust.quoin := by simp [State.decodeBuffer]
@[simp] theorem State.showEffect_quoin (s : State) (x folio x3) : (s.showEffect x folio x3).trust.quoin = s.trust.quoin := by
  unfold State.showEffect; split <;> simp
@[simp] theorem State.updSlot_quoin (s : State) (c g f) : (s.updSlot c g f).trust.quoin = s.trust.quoin := by
  simp [State.updSlot]
@[simp] theorem State.updCand_quoin (s : State) (c g j f) : (s.updCand c g j f).trust.quoin = s.trust.quoin := by
  simp [State.updCand]
@[simp] theorem State.resolveSlot_quoin (s : State) (c g) : (s.resolveSlot c g).trust.quoin = s.trust.quoin := by
  unfold State.resolveSlot; (repeat' split) <;> simp
@[simp] theorem State.candEffects_quoin (s : State) (c g j es) : (s.candEffects c g j es).trust.quoin = s.trust.quoin := by
  unfold State.candEffects; split <;> simp
@[simp] theorem State.showKept_quoin (s : State) (c g) : (s.showKept c g).trust.quoin = s.trust.quoin := by
  unfold State.showKept; (repeat' split) <;> simp
@[simp] theorem State.haltEnded_quoin (s : State) (c g) : (s.haltEnded c g).trust.quoin = s.trust.quoin := by
  unfold State.haltEnded; (repeat' split) <;> simp
@[simp] theorem State.failCand_quoin (s : State) (c g j k) : (s.failCand c g j k).trust.quoin = s.trust.quoin := by
  simp only [State.failCand]; (repeat' split) <;> simp
@[simp] theorem State.takeLive_quoin (s : State) (c x g) : (s.takeLive c x g).2.trust.quoin = s.trust.quoin := by
  unfold State.takeLive
  split
  · rfl
  · split
    · rfl
    · simp only
      split
      · simp
      · rename_i r _
        have h := s.witnessAppend_quoin c 3 g r.payload
        split
        · simp
        · split <;> rename_i hw <;> simp only [hw] at h
          · exact h
          · simp [h]

@[simp] theorem State.addSlot_quoin (s : State) (c x y) : (s.addSlot c x y).trust.quoin = s.trust.quoin := by
  simp [State.addSlot]
@[simp] theorem State.candidateStart_quoin (s : State) (c g j) : (s.candidateStart c g j).trust.quoin = s.trust.quoin := by
  unfold State.candidateStart
  split
  · rfl
  · rename_i x _
    have h := s.takeLive_quoin c x g
    split
    · rfl
    · split
      · split
        · rfl
        · split <;> rename_i hw <;> simp only [hw] at h
          · exact h
          · simp [h]
      · split
        · split <;> simp
        · split
          · simp
          · split <;> simp

@[simp] theorem State.passStage_quoin (s : State) (c g j wu f) : (s.passStage c g j wu f).trust.quoin = s.trust.quoin := by
  simp [State.passStage]
@[simp] theorem State.failDecode_quoin (s : State) (c g j st tag content k) :
    (s.failDecode c g j st tag content k).trust.quoin = s.trust.quoin := by simp [State.failDecode]
@[simp] theorem State.stageRecord_quoin (s : State) (c g j x y z) :
    (s.stageRecord c g j x y z).trust.quoin = s.trust.quoin := by
  simp only [State.stageRecord]; (repeat' split) <;> simp
@[simp] theorem State.stageText_quoin (s : State) (c g j x f t bytes packed wu) :
    (s.stageText c g j x f t bytes packed wu).trust.quoin = s.trust.quoin := by
  simp only [State.stageText]; (repeat' split) <;> simp
@[simp] theorem State.liveDecoded_quoin (s : State) (c nal d random) :
    (s.liveDecoded c nal d random).trust.quoin = s.trust.quoin := by
  unfold State.liveDecoded; split <;> simp
@[simp] theorem State.stageField_quoin (s : State) (c g j x z f content unit bytes packed) :
    (s.stageField c g j x z f content unit bytes packed).trust.quoin = s.trust.quoin := by
  simp only [State.stageField]; (repeat' split) <;> simp
@[simp] theorem State.stageDecode_quoin (s : State) (c g j x z f) :
    (s.stageDecode c g j x z f).trust.quoin = s.trust.quoin := by
  unfold State.stageDecode; (repeat' split) <;> simp
@[simp] theorem State.stageOp_quoin (s : State) (c g j x z f k) : (s.stageOp c g j x z f k).trust.quoin = s.trust.quoin := by
  simp only [State.stageOp]; (repeat' split) <;> simp
@[simp] theorem State.stageSieve_quoin (s : State) (c g j x z cost plate) :
    (s.stageSieve c g j x z cost plate).trust.quoin = s.trust.quoin := by simp [State.stageSieve]
@[simp] theorem State.stageGen_quoin (s : State) (c g j x z sect plate) :
    (s.stageGen c g j x z sect plate).trust.quoin = s.trust.quoin := by simp [State.stageGen]
@[simp] theorem State.stageComplete_quoin (s : State) (c g j stage) :
    (s.stageComplete c g j stage).trust.quoin = s.trust.quoin := by
  simp only [State.stageComplete]; (repeat' split) <;> simp
@[simp] theorem State.paramLookup_quoin (s : State) (c g j) : (s.paramLookup c g j).trust.quoin = s.trust.quoin := by
  unfold State.paramLookup
  split
  · rfl
  · rename_i x y z _
    split
    · rfl
    · simp only
      split
      · rfl
      · simp
      · simp
      · simp
      · rename_i r _
        have h := s.witnessAppend_quoin c 2 r.folio (leBytes 4 r.epoch ++ leBytes 4 0 ++ r.entry)
        split
        · rename_i s1 hw
          split at hw
          · simp only [hw] at h; exact h
          · cases hw
        · rename_i s1 hw
          have h1 : s1.trust.quoin = s.trust.quoin := by
            split at hw
            · simp only [hw] at h; exact h
            · cases hw; rfl
          simp [h1]

@[simp] theorem State.endStream_quoin (s : State) (c) : (s.endStream c).trust.quoin = s.trust.quoin := by
  unfold State.endStream; split <;> simp
@[simp] theorem State.haltReads_quoin (s : State) (c x st) : (s.haltReads c x st).trust.quoin = s.trust.quoin := by
  simp [State.haltReads]
@[simp] theorem State.formeHandoff_quoin (s : State) (c) : (s.formeHandoff c).trust.quoin = s.trust.quoin := by
  simp only [State.formeHandoff]; (repeat' split) <;> simp
@[simp] theorem State.credit_quoin (s : State) (id a l) : (s.credit id a l).2.trust.quoin = s.trust.quoin := by
  simp only [State.credit]; (repeat' split) <;> simp
@[simp] theorem State.wdgDiagWrite_quoin (s : State) (v) : (s.wdgDiagWrite v).trust.quoin = s.trust.quoin := by
  simp [State.wdgDiagWrite]
@[simp] theorem State.wdgSelftestDone_quoin (s : State) (ok) : (s.wdgSelftestDone ok).trust.quoin = s.trust.quoin := by
  simp [State.wdgSelftestDone]
@[simp] theorem State.clearOvf_quoin (s : State) (c v) : (s.clearOvf c v).trust.quoin = s.trust.quoin := by
  simp [State.clearOvf]
theorem writeWdg_quoin (s : State) (off v) : KeepsQuoin s (writeWdg s off v) := by
  unfold writeWdg
  repeat' refine .ite ?_ ?_
  all_goals simp

/-! The operations of Machine/Ingest. -/

@[simp] theorem State.unitFault_quoin (s : State) (cls unit) : (s.unitFault cls unit).trust.quoin = s.trust.quoin := by
  simp [State.unitFault]
@[simp] theorem State.liveBump_quoin (s : State) (c i n) : (s.liveBump c i n).trust.quoin = s.trust.quoin := by
  simp [State.liveBump]
@[simp] theorem State.setLiveChan_quoin (s : State) (c f) : (s.setLiveChan c f).trust.quoin = s.trust.quoin := by
  simp [State.setLiveChan]
@[simp] theorem State.assignFolio_quoin (s : State) (c u) : (s.assignFolio c u).trust.quoin = s.trust.quoin := by
  unfold State.assignFolio
  split
  · simp
  · rename_i k x _
    have h := s.witnessAppend_quoin k 3 x.nextFolio (liveUnitBytes u)
    simp only
    split
    · simp
    · split <;> rename_i hw <;> simp only [hw] at h <;> simp [h]

@[simp] theorem State.closeUnit_quoin (s : State) (c byMarker) : (s.closeUnit c byMarker).trust.quoin = s.trust.quoin := by
  simp only [State.closeUnit]; split <;> simp
@[simp] theorem State.closeWhole_quoin (s : State) (c n) : (s.closeWhole c n).trust.quoin = s.trust.quoin := by
  induction n generalizing s with
  | zero => rfl
  | succ n ih =>
    simp only [State.closeWhole]
    split
    · simp [ih]
    · rfl

@[simp] theorem State.rtpPacket_quoin (s : State) (f port b) : (s.rtpPacket f port b).trust.quoin = s.trust.quoin := by
  simp only [State.rtpPacket]; (repeat' split) <;> simp
@[simp] theorem State.liveTimeout_quoin (s : State) (c) : (s.liveTimeout c).trust.quoin = s.trust.quoin := by
  simp only [State.liveTimeout]; split <;> simp
@[simp] theorem State.liveCfgWrite_quoin (s : State) (c v) : (s.liveCfgWrite c v).trust.quoin = s.trust.quoin := by
  simp [State.liveCfgWrite]
theorem writeDec_quoin (s : State) (off v) : KeepsQuoin s (writeDec s off v) := by
  unfold writeDec
  refine .ite ?_ (by simp)
  split
  · simp
  · exact .ite (by simp) (by simp)
  · simp

/-! The operations of Machine/Jobs. -/

@[simp] theorem State.chkBump_quoin (s : State) (die c i) : (s.chkBump die c i).trust.quoin = s.trust.quoin := by
  simp [State.chkBump]
@[simp] theorem State.setRunning_quoin (s : State) (die c v) : (s.setRunning die c v).trust.quoin = s.trust.quoin := by
  simp [State.setRunning]
@[simp] theorem State.setAlive_quoin (s : State) (die c last synced) :
    (s.setAlive die c last synced).trust.quoin = s.trust.quoin := by simp [State.setAlive]
@[simp] theorem State.aliveTest_quoin (s : State) (die c v) : (s.aliveTest die c v).2.trust.quoin = s.trust.quoin := by
  simp only [State.aliveTest]; (repeat' split) <;> simp
@[simp] theorem State.checkRun_quoin (s : State) (die c first last input) :
    (s.checkRun die c first last input).2.2.trust.quoin = s.trust.quoin := by
  simp only [State.checkRun]; (repeat' split) <;> simp
@[simp] theorem State.jobWrite_quoin (s : State) (o addr b) : (s.jobWrite o addr b).trust.quoin = s.trust.quoin := by
  unfold State.jobWrite; (repeat' split) <;> simp
@[simp] theorem State.jobComplete_quoin (s : State) (o d st detail inBits out va vb block check) :
    (s.jobComplete o d st detail inBits out va vb block check).trust.quoin = s.trust.quoin := by
  simp only [State.jobComplete]; (repeat' split) <;> simp
@[simp] theorem State.setCmpQueue_quoin (s : State) (l) : (s.setCmpQueue l).trust.quoin = s.trust.quoin := by
  simp [State.setCmpQueue]
@[simp] theorem State.cmpDoorbell_quoin (s : State) (q v) : (s.cmpDoorbell q v).trust.quoin = s.trust.quoin := by
  simp [State.cmpDoorbell]
@[simp] theorem State.ringResync_quoin (s : State) (q) : (s.ringResync q).trust.quoin = s.trust.quoin := by
  simp [State.ringResync]
@[simp] theorem State.jobTake_quoin (s : State) (e o d retried) : (s.jobTake e o d retried).trust.quoin = s.trust.quoin := by
  unfold State.jobTake; split <;> simp
@[simp] theorem State.cmpJobStart_quoin (s : State) (e q) : (s.cmpJobStart e q).trust.quoin = s.trust.quoin := by
  simp only [State.cmpJobStart]; (repeat' split) <;> simp
@[simp] theorem State.dropJob_quoin (s : State) (j) : (s.dropJob j).trust.quoin = s.trust.quoin := by simp [State.dropJob]
@[simp] theorem State.jobRange_quoin (s : State) (o w a n go) (h : go.trust.quoin = s.trust.quoin) :
    (s.jobRange o w a n go).trust.quoin = s.trust.quoin := by
  unfold State.jobRange
  repeat' split
  all_goals simp [h]

@[simp] theorem State.decompressJobEnd_quoin (s : State) (e stop) :
    (s.decompressJobEnd e stop).trust.quoin = s.trust.quoin := by
  unfold State.decompressJobEnd; split <;> simp
@[simp] theorem State.compressJobEnd_quoin (s : State) (e bad) : (s.compressJobEnd e bad).trust.quoin = s.trust.quoin := by
  unfold State.compressJobEnd; (repeat' split) <;> simp
@[simp] theorem State.checkJobEnd_quoin (s : State) (e) : (s.checkJobEnd e).trust.quoin = s.trust.quoin := by
  unfold State.checkJobEnd; split <;> simp
@[simp] theorem State.chkHold_quoin (s : State) (die c v) : (s.chkHold die c v).trust.quoin = s.trust.quoin := by
  simp [State.chkHold]
@[simp] theorem State.setReg64_quoin (s : State) (off v) : (s.setReg64 off v).trust.quoin = s.trust.quoin := by
  simp [State.setReg64]
@[simp] theorem State.chkCfgWrite_quoin (s : State) (die c v) : (s.chkCfgWrite die c v).trust.quoin = s.trust.quoin := by
  unfold State.chkCfgWrite; (repeat' split) <;> simp
@[simp] theorem State.chkWrite_quoin (s : State) (die c w v) : (s.chkWrite die c w v).trust.quoin = s.trust.quoin := by
  simp [State.chkWrite]
theorem writeCmp_quoin (s : State) (off v) : KeepsQuoin s (writeCmp s off v) := by
  unfold writeCmp
  refine .ite (by simp) (.ite ?_ ?_)
  · split
    · simp
    · exact .ite (by simp) (by simp)
    · exact .ite (by simp) (by simp)
  · exact .ite (by simp) (.ite (by simp) (by simp))

/-! The operations of Machine/Media. -/

@[simp] theorem State.refuse_quoin (s : State) (p st detail) : (s.refuse p st detail).trust.quoin = s.trust.quoin := by
  simp [State.refuse]
@[simp] theorem State.placeAll_quoin (s : State) (ns lba data us ps) :
    (s.placeAll ns lba data us ps).trust.quoin = s.trust.quoin := by
  induction us generalizing s ps with
  | nil => rfl
  | cons u us ih => cases ps with
    | nil => rfl
    | cons p ps => rw [State.placeAll, ih, State.placeUnit_quoin]

@[simp] theorem State.waitsFor_quoin (s : State) (ps) : (s.waitsFor ps).trust.quoin = s.trust.quoin := by simp [State.waitsFor]
@[simp] theorem State.endWrite_quoin (s : State) (p nsid lba w) : (s.endWrite p nsid lba w).trust.quoin = s.trust.quoin := by
  simp [State.endWrite]
@[simp] theorem State.finishRead_quoin (s : State) (r) : (s.finishRead r).trust.quoin = s.trust.quoin := by
  unfold State.finishRead; (repeat' split) <;> simp
@[simp] theorem State.mediaRead_quoin (s : State) (p nsid lba count dataLen) :
    (s.mediaRead p nsid lba count dataLen).trust.quoin = s.trust.quoin := by
  unfold State.mediaRead; (repeat' split) <;> simp
@[simp] theorem State.queueRelocate_quoin (s : State) (block) : (s.queueRelocate block).trust.quoin = s.trust.quoin := by
  simp [State.queueRelocate]
@[simp] theorem State.uncorrectable_quoin (s : State) (pma idx) : (s.uncorrectable pma idx).trust.quoin = s.trust.quoin := by
  simp only [State.uncorrectable]; split <;> simp
@[simp] theorem State.countPage_quoin (s : State) (pma r) : (s.countPage pma r).trust.quoin = s.trust.quoin := by
  simp [State.countPage]
@[simp] theorem State.pageArrived_quoin (s : State) (pma) : (s.pageArrived pma).trust.quoin = s.trust.quoin := by
  simp [State.pageArrived]
@[simp] theorem State.nandReadComplete_quoin (s : State) (pma r) : (s.nandReadComplete pma r).trust.quoin = s.trust.quoin := by
  simp [State.nandReadComplete]
@[simp] theorem State.patrolRead_quoin (s : State) (block rs) : (s.patrolRead block rs).trust.quoin = s.trust.quoin := by
  simp [State.patrolRead]
@[simp] theorem State.mediaWrite_quoin (s : State) (p nsid lba data pl fua) :
    (s.mediaWrite p nsid lba data pl fua).trust.quoin = s.trust.quoin := by
  simp only [State.mediaWrite]; (repeat' split) <;> simp
theorem State.groupDiscard_quoin (s : State) (ns u n) {t} (h : s.groupDiscard ns u n = some t) : t.trust.quoin = s.trust.quoin := by
  induction n generalizing s u with
  | zero => cases h; rfl
  | succ n ih =>
    simp only [State.groupDiscard] at h
    split at h
    · cases h
    · rename_i hp
      rw [ih _ _ h, ite_quoin]
      simp [State.putShares_quoin _ _ _ _ hp]

@[simp] theorem State.mediaDiscard_quoin (s : State) (p nsid lba count) :
    (s.mediaDiscard p nsid lba count).trust.quoin = s.trust.quoin := by
  simp only [State.mediaDiscard]
  split
  · rfl
  · split
    · simp
    · split
      · split
        · simp
        · split
          · rfl
          · split
            · rename_i hd; simp [State.groupDiscard_quoin _ _ _ _ hd]
            · rfl
      · split <;> simp

@[simp] theorem State.mediaFlush_quoin (s : State) (p nsid) : (s.mediaFlush p nsid).trust.quoin = s.trust.quoin := by
  unfold State.mediaFlush; (repeat' split) <;> simp
@[simp] theorem State.flushComplete_quoin (s : State) : s.flushComplete.trust.quoin = s.trust.quoin := by
  simp [State.flushComplete]
@[simp] theorem State.pageProgramDone_quoin (s : State) (pmas) : (s.pageProgramDone pmas).trust.quoin = s.trust.quoin := by
  simp [State.pageProgramDone]
@[simp] theorem State.settlePage_quoin (s : State) (w) : (s.settlePage w).trust.quoin = s.trust.quoin := by
  simp only [State.settlePage]; split <;> simp
@[simp] theorem State.bandVerifyDone_quoin (s : State) (id weak) : (s.bandVerifyDone id weak).trust.quoin = s.trust.quoin := by
  unfold State.bandVerifyDone; split <;> simp
@[simp] theorem State.moveAll_quoin (s : State) (es ps) : (s.moveAll es ps).trust.quoin = s.trust.quoin := by
  induction es generalizing s ps with
  | nil => rfl
  | cons u us ih => cases ps with
    | nil => rfl
    | cons p ps => rw [State.moveAll, ih, State.moveUnit_quoin]

@[simp] theorem State.retireBlock_quoin (s : State) (block ctr st) :
    (s.retireBlock block ctr st).trust.quoin = s.trust.quoin := by simp [State.retireBlock]
@[simp] theorem State.programFail_quoin (s : State) (pma dests) : (s.programFail pma dests).trust.quoin = s.trust.quoin := by
  simp [State.programFail]
@[simp] theorem State.eraseFail_quoin (s : State) (block) : (s.eraseFail block).trust.quoin = s.trust.quoin := by
  simp [State.eraseFail]
@[simp] theorem State.targetLost_quoin (s : State) (c t) : (s.targetLost c t).trust.quoin = s.trust.quoin := by
  simp [State.targetLost]
@[simp] theorem State.journalTailTimeout_quoin (s : State) : s.journalTailTimeout.trust.quoin = s.trust.quoin := by
  simp [State.journalTailTimeout]
@[simp] theorem State.journalPageCommit_quoin (s : State) : s.journalPageCommit.trust.quoin = s.trust.quoin := by
  unfold State.journalPageCommit; split <;> simp
@[simp] theorem State.checkpointStart_quoin (s : State) : s.checkpointStart.trust.quoin = s.trust.quoin := by
  simp only [State.checkpointStart]; (repeat' split) <;> simp
@[simp] theorem State.checkpointDone_quoin (s : State) (dir places) :
    (s.checkpointDone dir places).trust.quoin = s.trust.quoin := by
  unfold State.checkpointDone; split <;> simp
@[simp] theorem State.checkpointStall_quoin (s : State) : s.checkpointStall.trust.quoin = s.trust.quoin := by
  simp [State.checkpointStall]
@[simp] theorem State.gcBlockStart_quoin (s : State) (pl) : (s.gcBlockStart pl).trust.quoin = s.trust.quoin := by
  unfold State.gcBlockStart; split <;> simp
@[simp] theorem State.gcCommitUnit_quoin (s : State) (src c) : (s.gcCommitUnit src c).trust.quoin = s.trust.quoin := by
  unfold State.gcCommitUnit; split <;> simp
@[simp] theorem State.gcVerifyDone_quoin (s : State) (src) : (s.gcVerifyDone src).trust.quoin = s.trust.quoin := by
  unfold State.gcVerifyDone; split <;> simp
@[simp] theorem State.gcErase_quoin (s : State) (src) : (s.gcErase src).trust.quoin = s.trust.quoin := by
  unfold State.gcErase; split <;> simp
@[simp] theorem State.lastGasp_quoin (s : State) (ns) : (s.lastGasp ns).trust.quoin = s.trust.quoin := by simp [State.lastGasp]
@[simp] theorem State.lastGaspDoneEvent_quoin (s : State) (us) : (s.lastGaspDoneEvent us).trust.quoin = s.trust.quoin := by
  simp [State.lastGaspDoneEvent]
@[simp] theorem State.lastGaspResetRequest_quoin (s : State) : s.lastGaspResetRequest.trust.quoin = s.trust.quoin := by
  simp [State.lastGaspResetRequest]
@[simp] theorem State.sanitizeStart_quoin (s : State) (p nsid action keyOk) :
    (s.sanitizeStart p nsid action keyOk).trust.quoin = s.trust.quoin := by
  unfold State.sanitizeStart; (repeat' split) <;> simp
@[simp] theorem State.sanitizeBlock_quoin (s : State) (p nsid keyOk) :
    (s.sanitizeBlock p nsid keyOk).trust.quoin = s.trust.quoin := by simp [State.sanitizeBlock]
@[simp] theorem State.sanitizeFormat_quoin (s : State) (p nsid keyOk) :
    (s.sanitizeFormat p nsid keyOk).trust.quoin = s.trust.quoin := by simp [State.sanitizeFormat]
@[simp] theorem State.eraseTarget_quoin (s : State) (t) : (s.eraseTarget t).trust.quoin = s.trust.quoin := by
  simp [State.eraseTarget]
@[simp] theorem State.sanitizeEnd_quoin (s : State) (j factoryBad) :
    (s.sanitizeEnd j factoryBad).trust.quoin = s.trust.quoin := by simp [State.sanitizeEnd]
@[simp] theorem State.sanitizeTargetDone_quoin (s : State) (factoryBad) :
    (s.sanitizeTargetDone factoryBad).trust.quoin = s.trust.quoin := by
  unfold State.sanitizeTargetDone; (repeat' split) <;> simp
@[simp] theorem State.nsFeature_quoin (s : State) (p e sealNs) : (s.nsFeature p e sealNs).trust.quoin = s.trust.quoin := by
  simp [State.nsFeature]
@[simp] theorem State.nsMake_quoin (s : State) (p nsid cap) : (s.nsMake p nsid cap).trust.quoin = s.trust.quoin := by
  simp [State.nsMake]
@[simp] theorem State.nsRefuse_quoin (s : State) (p r) : (s.nsRefuse p r).trust.quoin = s.trust.quoin := by
  simp [State.nsRefuse]
@[simp] theorem State.nsCreate_quoin (s : State) (p nsid cap keyOk) :
    (s.nsCreate p nsid cap keyOk).trust.quoin = s.trust.quoin := by
  unfold State.nsCreate; (repeat' split) <;> simp
@[simp] theorem State.nsRemove_quoin (s : State) (p nsid) : (s.nsRemove p nsid).trust.quoin = s.trust.quoin := by
  simp [State.nsRemove]
@[simp] theorem State.nsDelete_quoin (s : State) (p nsid keyOk) : (s.nsDelete p nsid keyOk).trust.quoin = s.trust.quoin := by
  unfold State.nsDelete; (repeat' split) <;> simp
@[simp] theorem State.nsSeal_quoin (s : State) (p nsid) : (s.nsSeal p nsid).trust.quoin = s.trust.quoin := by
  unfold State.nsSeal; (repeat' split) <;> simp
@[simp] theorem State.nsUnseal_quoin (s : State) (p nsid) : (s.nsUnseal p nsid).trust.quoin = s.trust.quoin := by
  unfold State.nsUnseal; (repeat' split) <;> simp
@[simp] theorem State.ckptConfigWrite_quoin (s : State) (v) : (s.ckptConfigWrite v).trust.quoin = s.trust.quoin := by
  simp [State.ckptConfigWrite]
@[simp] theorem State.nandTemperature_quoin (s : State) (temps) : (s.nandTemperature temps).trust.quoin = s.trust.quoin := by
  unfold State.nandTemperature; split <;> simp
@[simp] theorem State.nandPadWrite_quoin (s : State) (v) : (s.nandPadWrite v).trust.quoin = s.trust.quoin := by
  simp [State.nandPadWrite]
theorem writeMedia_quoin (s : State) (off v) : KeepsQuoin s (writeMedia s off v) := by
  unfold writeMedia
  repeat' refine .ite ?_ ?_
  all_goals simp

/-! The operations of Machine/Yqi. -/

@[simp] theorem State.updQueue_quoin (s : State) (fn q f) : (s.updQueue fn q f).trust.quoin = s.trust.quoin := by
  simp [State.updQueue]
@[simp] theorem State.yqiLog_quoin (s : State) (st detail q cid opcode nsid info0 froze) :
    (s.yqiLog st detail q cid opcode nsid info0 froze).trust.quoin = s.trust.quoin := by simp [State.yqiLog]
@[simp] theorem State.freezeQueue_quoin (s : State) (fn q) : (s.freezeQueue fn q).trust.quoin = s.trust.quoin := by
  unfold State.freezeQueue; split <;> simp
@[simp] theorem State.badDoorbell_quoin (s : State) (fn q) : (s.badDoorbell fn q).trust.quoin = s.trust.quoin := by
  simp only [State.badDoorbell]; (repeat' split) <;> simp
@[simp] theorem State.sqTail_quoin (s : State) (fn q v) : (s.sqTail fn q v).trust.quoin = s.trust.quoin := by
  unfold State.sqTail; split <;> simp
@[simp] theorem State.cqHead_quoin (s : State) (fn q v) : (s.cqHead fn q v).trust.quoin = s.trust.quoin := by
  unfold State.cqHead; split <;> simp
@[simp] theorem State.aqEnable_quoin (s : State) (fn v) : (s.aqEnable fn v).trust.quoin = s.trust.quoin := by
  unfold State.aqEnable; split <;> simp
@[simp] theorem State.loseReads_quoin (s : State) (gone) : (s.loseReads gone).trust.quoin = s.trust.quoin := by
  simp [State.loseReads]
@[simp] theorem State.unlock_quoin (s : State) (p) : (s.unlock p).trust.quoin = s.trust.quoin := by simp [State.unlock]
@[simp] theorem State.freeQueue_quoin (s : State) (fn q) : (s.freeQueue fn q).trust.quoin = s.trust.quoin := by
  simp [State.freeQueue]
@[simp] theorem State.beginDelete_quoin (s : State) (fn q cid) : (s.beginDelete fn q cid).trust.quoin = s.trust.quoin := by
  simp [State.beginDelete]
@[simp] theorem State.flr_quoin (s : State) (fn) : (s.flr fn).trust.quoin = s.trust.quoin := by
  simp [State.flr]
@[simp] theorem State.aqDisable_quoin (s : State) (fn v) : (s.aqDisable fn v).trust.quoin = s.trust.quoin := by
  unfold State.aqDisable; split <;> simp
@[simp] theorem State.functionReset_quoin (s : State) (fn) : (s.functionReset fn).trust.quoin = s.trust.quoin := by
  simp [State.functionReset]
@[simp] theorem State.linkDown_quoin (s : State) (l) : (s.linkDown l).trust.quoin = s.trust.quoin := by simp [State.linkDown]
@[simp] theorem State.linkUp_quoin (s : State) (l flit speed width) :
    (s.linkUp l flit speed width).trust.quoin = s.trust.quoin := by simp [State.linkUp]
@[simp] theorem State.takeIn_quoin (s : State) (c) : (s.takeIn c).trust.quoin = s.trust.quoin := by
  unfold State.takeIn; split <;> simp
@[simp] theorem State.policeCmd_quoin (s : State) (c st) : (s.policeCmd c st).2.trust.quoin = s.trust.quoin := by
  simp only [State.policeCmd]
  split
  · cases s.polMap 0 (4 * c.fn) with
    | none =>
      simp only
      cases s.polMap 0 (0x100 + 4 * (c.entry.nsid - 1)) with
      | none => rfl
      | some n => simp only; split <;> simp
    | some n =>
      simp only
      split
      · rename_i hp; split at hp <;> cases hp; simp
      · rename_i hp
        split at hp <;> cases hp
        cases (s.police 0 n (8 * c.entry.dataLen) .green).2.polMap 0 (0x100 + 4 * (c.entry.nsid - 1)) with
        | none => simp
        | some n => simp only; split <;> simp
  · cases s.polMap 0 (0x100 + 4 * (c.entry.nsid - 1)) with
    | none => rfl
    | some n => simp only; split <;> simp

@[simp] theorem State.arrive_quoin (s : State) (x c a) : (s.arrive x c a).trust.quoin = s.trust.quoin := by
  unfold State.arrive
  have h := s.policeCmd_quoin c 0
  split
  · simp
  · split
    · split <;> rename_i hw <;> simp only [hw] at h <;> simp [h]
    · simp

@[simp] theorem State.commandFetch_quoin (s : State) (a) : (s.commandFetch a).trust.quoin = s.trust.quoin := by
  unfold State.commandFetch; split <;> simp
@[simp] theorem State.parkedAdmit_quoin (s : State) : s.parkedAdmit.trust.quoin = s.trust.quoin := by
  unfold State.parkedAdmit; split <;> simp
@[simp] theorem State.countEntry_quoin (s : State) (fn v froze) : (s.countEntry fn v froze).trust.quoin = s.trust.quoin := by
  unfold State.countEntry; split <;> simp
@[simp] theorem State.putData_quoin (s : State) (fn l b) : (s.putData fn l b).trust.quoin = s.trust.quoin := by
  induction l generalizing s b with
  | nil => rfl
  | cons x l ih =>
    rw [State.putData]
    split
    · rfl
    · simp [ih]

@[simp] theorem State.writeCq_quoin (s : State) (d c) : (s.writeCq d c).trust.quoin = s.trust.quoin := by
  simp only [State.writeCq]; (repeat' split) <;> simp
@[simp] theorem State.finishCmd_quoin (s : State) (d c a) : (s.finishCmd d c a).2.trust.quoin = s.trust.quoin := by
  simp only [State.finishCmd]; (repeat' split) <;> simp
@[simp] theorem State.commandComplete_quoin (s : State) (fn q cid a) :
    (s.commandComplete fn q cid a).trust.quoin = s.trust.quoin := by
  unfold State.commandComplete; split <;> simp
@[simp] theorem State.formeRead_quoin (s : State) (p id len) : (s.formeRead p id len).trust.quoin = s.trust.quoin := by
  unfold State.formeRead; (repeat' split) <;> simp
@[simp] theorem State.formeReadComplete_quoin (s : State) (fn q cid a) :
    (s.formeReadComplete fn q cid a).trust.quoin = s.trust.quoin := by
  simp only [State.formeReadComplete]; split <;> simp
@[simp] theorem State.coalesceTimeout_quoin (s : State) (fn v) : (s.coalesceTimeout fn v).trust.quoin = s.trust.quoin := by
  unfold State.coalesceTimeout; (repeat' split) <;> simp
@[simp] theorem State.queueCreate_quoin (s : State) (p q depth v irq sq cq) :
    (s.queueCreate p q depth v irq sq cq).trust.quoin = s.trust.quoin := by
  simp only [State.queueCreate]; split <;> simp
@[simp] theorem State.queueDelete_quoin (s : State) (p q) : (s.queueDelete p q).trust.quoin = s.trust.quoin := by
  simp only [State.queueDelete]; split <;> simp
@[simp] theorem State.queueDeleteDone_quoin (s : State) (fn q) : (s.queueDeleteDone fn q).trust.quoin = s.trust.quoin := by
  unfold State.queueDeleteDone; (repeat' split) <;> simp
@[simp] theorem State.queueRestart_quoin (s : State) (p q skip) : (s.queueRestart p q skip).trust.quoin = s.trust.quoin := by
  simp only [State.queueRestart]; split <;> simp
@[simp] theorem State.bar2Write_quoin (s : State) (fn off v) : (s.bar2Write fn off v).trust.quoin = s.trust.quoin := by
  unfold State.bar2Write; (repeat' split) <;> simp
@[simp] theorem State.setMsixMask_quoin (s : State) (fn vec masked) :
    (s.setMsixMask fn vec masked).trust.quoin = s.trust.quoin := by
  unfold State.setMsixMask; split <;> simp
@[simp] theorem State.setVfEnable_quoin (s : State) (l n) : (s.setVfEnable l n).trust.quoin = s.trust.quoin := by
  simp [State.setVfEnable]

/-! The operations of Machine/GnozRx. -/

@[simp] theorem State.rxBuffer_quoin (s : State) (h port len) : (s.rxBuffer h port len).2.trust.quoin = s.trust.quoin := by
  simp only [State.rxBuffer]; (repeat' split) <;> simp
@[simp] theorem State.complete_quoin (s : State) (m) : (s.complete m).2.trust.quoin = s.trust.quoin := by
  unfold State.complete; (repeat' split) <;> simp
@[simp] theorem State.placeFragment_quoin (s : State) (h off b) : (s.placeFragment h off b).2.trust.quoin = s.trust.quoin := by
  simp only [State.placeFragment]; (repeat' split) <;> simp
@[simp] theorem State.reassemble_quoin (s : State) (m frag count shift) :
    (s.reassemble m frag count shift).trust.quoin = s.trust.quoin := by simp [State.reassemble]
@[simp] theorem State.fragmentReceive_quoin (s : State) (p) : (s.fragmentReceive p).trust.quoin = s.trust.quoin := by
  simp only [State.fragmentReceive]; (repeat' split) <;> simp
@[simp] theorem State.ingestWrite_quoin (s : State) (m k ns pl) : (s.ingestWrite m k ns pl).trust.quoin = s.trust.quoin := by
  simp [State.ingestWrite]
@[simp] theorem State.rxWrite_quoin (s : State) (device msgId pl) :
    (s.rxWrite device msgId pl).trust.quoin = s.trust.quoin := by
  unfold State.rxWrite; (repeat' split) <;> simp
@[simp] theorem State.dropEntry_quoin (s : State) (m) : (s.dropEntry m).trust.quoin = s.trust.quoin := by simp [State.dropEntry]
@[simp] theorem State.intoReceive_quoin (s : State) (m) : (s.intoReceive m).trust.quoin = s.trust.quoin := by
  simp only [State.intoReceive]; (repeat' split) <;> simp
@[simp] theorem State.rxSend_quoin (s : State) (device msgId) : (s.rxSend device msgId).trust.quoin = s.trust.quoin := by
  unfold State.rxSend; split <;> simp
@[simp] theorem State.rxForme_quoin (s : State) (device msgId) : (s.rxForme device msgId).trust.quoin = s.trust.quoin := by
  unfold State.rxForme; split <;> simp
@[simp] theorem State.rxStreamEvent_quoin (s : State) (device msgId) :
    (s.rxStreamEvent device msgId).trust.quoin = s.trust.quoin := by
  unfold State.rxStreamEvent; split <;> simp
@[simp] theorem State.rxRead_quoin (s : State) (device msgId) : (s.rxRead device msgId).trust.quoin = s.trust.quoin := by
  simp only [State.rxRead]; (repeat' split) <;> simp
@[simp] theorem State.endOut_quoin (s : State) (m) : (s.endOut m).trust.quoin = s.trust.quoin := by
  simp [State.endOut]
@[simp] theorem State.returned_quoin (s : State) (m kind op) : (s.returned m kind op).trust.quoin = s.trust.quoin := by
  simp only [State.returned]; (repeat' split) <;> simp
@[simp] theorem State.rxReadData_quoin (s : State) (device msgId) :
    (s.rxReadData device msgId).trust.quoin = s.trust.quoin := by
  unfold State.rxReadData; split <;> simp
@[simp] theorem State.rxReply_quoin (s : State) (device msgId) : (s.rxReply device msgId).trust.quoin = s.trust.quoin := by
  unfold State.rxReply; split <;> simp
@[simp] theorem State.remoteAdd_quoin (s : State) (device imm) : (s.remoteAdd device imm).2.trust.quoin = s.trust.quoin := by
  simp only [State.remoteAdd]; (repeat' split) <;> simp
@[simp] theorem State.rxSyncAdd_quoin (s : State) (device msgId) : (s.rxSyncAdd device msgId).trust.quoin = s.trust.quoin := by
  unfold State.rxSyncAdd; split <;> simp
@[simp] theorem State.rxArm_quoin (s : State) (device msgId) : (s.rxArm device msgId).trust.quoin = s.trust.quoin := by
  simp only [State.rxArm]; (repeat' split) <;> simp
@[simp] theorem State.rxCredit_quoin (s : State) (device msgId) : (s.rxCredit device msgId).trust.quoin = s.trust.quoin := by
  unfold State.rxCredit; split <;> simp
@[simp] theorem State.rxControl_quoin (s : State) (device msgId) : (s.rxControl device msgId).trust.quoin = s.trust.quoin := by
  unfold State.rxControl; split <;> simp
@[simp] theorem State.frameDiscard_quoin (s : State) (f _cause) : (s.frameDiscard f _cause).trust.quoin = s.trust.quoin := by
  simp [State.frameDiscard]
@[simp] theorem State.dupExpiry_quoin (s : State) (device msgId) : (s.dupExpiry device msgId).trust.quoin = s.trust.quoin := by
  simp [State.dupExpiry]
@[simp] theorem State.reasmExpiry_quoin (s : State) (device msgId) :
    (s.reasmExpiry device msgId).trust.quoin = s.trust.quoin := by simp [State.reasmExpiry]

/-! The operations of Machine/GnozTx. -/

@[simp] theorem State.gqDoorbell_quoin (s : State) (q v) : (s.gqDoorbell q v).trust.quoin = s.trust.quoin := by
  simp [State.gqDoorbell]
@[simp] theorem State.gqTake_quoin (s : State) (q wasArmed) : (s.gqTake q wasArmed).trust.quoin = s.trust.quoin := by
  simp [State.gqTake]
@[simp] theorem State.groupFail_quoin (s : State) (q idx) : (s.groupFail q idx).trust.quoin = s.trust.quoin := by
  simp [State.groupFail]
@[simp] theorem State.sendWr_quoin (s : State) (q idx w payload) : (s.sendWr q idx w payload).trust.quoin = s.trust.quoin := by
  simp [State.sendWr]
@[simp] theorem State.wrPayload_quoin (s : State) (q w) : (s.wrPayload q w).2.2.trust.quoin = s.trust.quoin := by
  simp only [State.wrPayload]; (repeat' split) <;> simp
@[simp] theorem State.sendChecked_quoin (s : State) (q idx w) : (s.sendChecked q idx w).trust.quoin = s.trust.quoin := by
  simp [State.sendChecked]
@[simp] theorem State.wrRefuse_quoin (s : State) (q idx w st) : (s.wrRefuse q idx w st).trust.quoin = s.trust.quoin := by
  simp [State.wrRefuse]
@[simp] theorem State.sendWrite_quoin (s : State) (q idx w) : (s.sendWrite q idx w).trust.quoin = s.trust.quoin := by
  simp only [State.sendWrite]; (repeat' split) <;> simp
@[simp] theorem State.wrRun_quoin (s : State) (q idx w) : (s.wrRun q idx w).trust.quoin = s.trust.quoin := by simp [State.wrRun]
@[simp] theorem State.wrStart_quoin (s : State) (q op) : (s.wrStart q op).trust.quoin = s.trust.quoin := by
  unfold State.wrStart; (repeat' split) <;> simp
@[simp] theorem State.groupEnd_quoin (s : State) (q idx st) : (s.groupEnd q idx st).trust.quoin = s.trust.quoin := by
  simp only [State.groupEnd]; split <;> simp
@[simp] theorem State.formeDone_quoin (s : State) (ctx n) : (s.formeDone ctx n).trust.quoin = s.trust.quoin := by
  simp [State.formeDone]
@[simp] theorem State.messageEnd_quoin (s : State) (m st detail result) :
    (s.messageEnd m st detail result).trust.quoin = s.trust.quoin := by
  unfold State.messageEnd; split <;> simp
@[simp] theorem State.congest_quoin (s : State) (r path ece rtt acked) :
    (s.congest r path ece rtt acked).trust.quoin = s.trust.quoin := by simp [State.congest]
@[simp] theorem State.retransmit_quoin (s : State) (i m) : (s.retransmit i m).trust.quoin = s.trust.quoin := by
  simp [State.retransmit]
@[simp] theorem State.giveUp_quoin (s : State) (m) : (s.giveUp m).trust.quoin = s.trust.quoin := by simp [State.giveUp]
@[simp] theorem State.rtoExpiry_quoin (s : State) (i) : (s.rtoExpiry i).trust.quoin = s.trust.quoin := by
  unfold State.rtoExpiry; split <;> simp
@[simp] theorem State.messageExpiry_quoin (s : State) (i) : (s.messageExpiry i).trust.quoin = s.trust.quoin := by
  unfold State.messageExpiry; split <;> simp
@[simp] theorem State.rxAck_quoin (s : State) (device msgId) : (s.rxAck device msgId).trust.quoin = s.trust.quoin := by
  unfold State.rxAck
  split
  · rfl
  · simp only
    split
    · simp
    · split
      · simp
      · split <;> split <;> simp
        all_goals split <;> simp

@[simp] theorem State.formeResend_quoin (s : State) : s.formeResend.trust.quoin = s.trust.quoin := by simp [State.formeResend]
@[simp] theorem State.holdoffEnd_quoin (s : State) : s.holdoffEnd.trust.quoin = s.trust.quoin := by simp [State.holdoffEnd]

/-! The operations of Machine/GnozCfg. -/

@[simp] theorem State.tableEnd_quoin (s : State) (st) : (s.tableEnd st).trust.quoin = s.trust.quoin := by simp [State.tableEnd]
@[simp] theorem State.setKey_quoin (s : State) (k) : (s.setKey k).trust.quoin = s.trust.quoin := by simp [State.setKey]
@[simp] theorem State.tableRead_quoin (s : State) : s.tableRead.trust.quoin = s.trust.quoin := by simp [State.tableRead]
@[simp] theorem State.routeWrite_quoin (s : State) (i b) : (s.routeWrite i b).trust.quoin = s.trust.quoin := by
  simp [State.routeWrite]
@[simp] theorem State.registerKey_quoin (s : State) (i kind base len write read notify) :
    (s.registerKey i kind base len write read notify).2.trust.quoin = s.trust.quoin := by
  simp only [State.registerKey]; (repeat' split) <;> simp
@[simp] theorem State.keyWrite_quoin (s : State) (i b) : (s.keyWrite i b).trust.quoin = s.trust.quoin := by
  simp only [State.keyWrite]; split <;> simp
@[simp] theorem State.tableWrite_quoin (s : State) : s.tableWrite.trust.quoin = s.trust.quoin := by simp [State.tableWrite]
@[simp] theorem State.tableInvalidate_quoin (s : State) : s.tableInvalidate.trust.quoin = s.trust.quoin := by
  simp only [State.tableInvalidate]; (repeat' split) <;> simp
@[simp] theorem State.tableCmd_quoin (s : State) (v) : (s.tableCmd v).trust.quoin = s.trust.quoin := by
  unfold State.tableCmd; split <;> simp
@[simp] theorem State.keyRegister_quoin (s : State) (slot i base len write read notify) :
    (s.keyRegister slot i base len write read notify).trust.quoin = s.trust.quoin := by
  unfold State.keyRegister; split <;> simp
@[simp] theorem State.queueAlloc_quoin (s : State) (slot k wr cq) :
    (s.queueAlloc slot k wr cq).trust.quoin = s.trust.quoin := by
  simp only [State.queueAlloc]; (repeat' split) <;> simp
@[simp] theorem State.clockWrite_quoin (s : State) (v) : (s.clockWrite v).trust.quoin = s.trust.quoin := by
  simp [State.clockWrite]
@[simp] theorem State.ptpMessage_quoin (s : State) (f offset locked delayReq) :
    (s.ptpMessage f offset locked delayReq).trust.quoin = s.trust.quoin := by
  unfold State.ptpMessage; split <;> simp
@[simp] theorem State.ethModeWrite_quoin (s : State) (v) : (s.ethModeWrite v).trust.quoin = s.trust.quoin := by
  simp [State.ethModeWrite]
@[simp] theorem State.ethLinkChange_quoin (s : State) (lp up) : (s.ethLinkChange lp up).trust.quoin = s.trust.quoin := by
  simp [State.ethLinkChange]
@[simp] theorem State.arpNeighbour_quoin (s : State) (f addr) : (s.arpNeighbour f addr).trust.quoin = s.trust.quoin := by
  simp [State.arpNeighbour]
@[simp] theorem State.icmpEcho_quoin (s : State) (f payload) : (s.icmpEcho f payload).trust.quoin = s.trust.quoin := by
  simp [State.icmpEcho]
@[simp] theorem State.gnzCfgWrite_quoin (s : State) (timing v) : (s.gnzCfgWrite timing v).trust.quoin = s.trust.quoin := by
  simp [State.gnzCfgWrite]
@[simp] theorem State.gqWriteReg_quoin (s : State) (q w v) : (s.gqWriteReg q w v).trust.quoin = s.trust.quoin := by
  simp [State.gqWriteReg]
theorem writeGnz_quoin (s : State) (off v) : KeepsQuoin s (writeGnz s off v) := by
  unfold writeGnz
  repeat' refine .ite ?_ ?_
  all_goals simp

/-! The operations of Machine/Group. -/

@[simp] theorem State.showGroup_quoin (s : State) : s.showGroup.trust.quoin = s.trust.quoin := by simp [State.showGroup]
@[simp] theorem State.setEntry_quoin (s : State) (n device route st) :
    (s.setEntry n device route st).trust.quoin = s.trust.quoin := by simp [State.setEntry]
@[simp] theorem State.keepTable_quoin (s : State) : s.keepTable.trust.quoin = s.trust.quoin := by simp [State.keepTable]
@[simp] theorem State.groupRefuse_quoin (s : State) (n st) : (s.groupRefuse n st).trust.quoin = s.trust.quoin := by
  simp [State.groupRefuse]
@[simp] theorem State.takeStream_quoin (s : State) (e m) : (s.takeStream e m).trust.quoin = s.trust.quoin := by
  unfold State.takeStream; split <;> simp
@[simp] theorem State.setStreamEntry_quoin (s : State) (e) : (s.setStreamEntry e).trust.quoin = s.trust.quoin := by
  simp [State.setStreamEntry]
@[simp] theorem State.rehome_quoin (s : State) (n e) : (s.rehome n e).trust.quoin = s.trust.quoin := by
  unfold State.rehome
  simp only
  split
  · split <;> simp
  · split <;> simp

@[simp] theorem State.loseStripes_quoin (s : State) : s.loseStripes.trust.quoin = s.trust.quoin := by
  simp only [State.loseStripes]; split <;> simp
@[simp] theorem State.bringIn_quoin (s : State) (n) : (s.bringIn n).trust.quoin = s.trust.quoin := by simp [State.bringIn]
@[simp] theorem State.changeTable_quoin (s : State) (ch) : (s.changeTable ch).trust.quoin = s.trust.quoin := by
  simp only [State.changeTable]; (repeat' split) <;> simp
@[simp] theorem State.stripeEnded_quoin (s : State) (w st) : (s.stripeEnded w st).trust.quoin = s.trust.quoin := by
  simp [State.stripeEnded]
@[simp] theorem State.stripeCommitted_quoin (s : State) (w) : (s.stripeCommitted w).trust.quoin = s.trust.quoin := by
  simp [State.stripeCommitted]
@[simp] theorem State.advanceWrite_quoin (s : State) (w) : (s.advanceWrite w).trust.quoin = s.trust.quoin := by
  unfold State.advanceWrite; (repeat' split) <;> simp
@[simp] theorem State.writeHeard_quoin (s : State) (id n ph) : (s.writeHeard id n ph).trust.quoin = s.trust.quoin := by
  unfold State.writeHeard; split <;> simp
@[simp] theorem State.commitGroup_quoin (s : State) (ch) : (s.commitGroup ch).trust.quoin = s.trust.quoin := by
  unfold State.commitGroup; split <;> simp
@[simp] theorem State.propose_quoin (s : State) (ch) : (s.propose ch).trust.quoin = s.trust.quoin := by
  simp only [State.propose]; split <;> simp
@[simp] theorem State.tryFail_quoin (s : State) (n) : (s.tryFail n).trust.quoin = s.trust.quoin := by simp [State.tryFail]
@[simp] theorem State.ackProposal_quoin (s : State) (g n) : (s.ackProposal g n).trust.quoin = s.trust.quoin := by
  unfold State.ackProposal; split <;> simp
@[simp] theorem State.heartbeatSend_quoin (s : State) : s.heartbeatSend.trust.quoin = s.trust.quoin := by
  simp [State.heartbeatSend]
@[simp] theorem State.adoptSpace_quoin (s : State) (g) : (s.adoptSpace g).trust.quoin = s.trust.quoin := by
  simp [State.adoptSpace]
@[simp] theorem State.adoptTable_quoin (s : State) (a) : (s.adoptTable a).trust.quoin = s.trust.quoin := by
  simp [State.adoptTable]
@[simp] theorem State.catchUp_quoin (s : State) (gen t) : (s.catchUp gen t).trust.quoin = s.trust.quoin := by
  unfold State.catchUp; (repeat' split) <;> simp
@[simp] theorem State.noteDigest_quoin (s : State) (n same) : (s.noteDigest n same).trust.quoin = s.trust.quoin := by
  simp [State.noteDigest]
@[simp] theorem State.spareEnables_quoin (s : State) (gen) : (s.spareEnables gen).trust.quoin = s.trust.quoin := by
  simp only [State.spareEnables]; (repeat' split) <;> simp
@[simp] theorem State.heartbeatReceive_quoin (s : State) (n gen digest t) :
    (s.heartbeatReceive n gen digest t).trust.quoin = s.trust.quoin := by simp [State.heartbeatReceive]
@[simp] theorem State.addSuspect_quoin (s : State) (by_ n) : (s.addSuspect by_ n).trust.quoin = s.trust.quoin := by
  simp [State.addSuspect]
@[simp] theorem State.peerSuspect_quoin (s : State) (n) : (s.peerSuspect n).trust.quoin = s.trust.quoin := by
  simp [State.peerSuspect]
@[simp] theorem State.proposalRx_quoin (s : State) (n gen ch t) : (s.proposalRx n gen ch t).trust.quoin = s.trust.quoin := by
  unfold State.proposalRx; (repeat' split) <;> simp
@[simp] theorem State.storeStream_quoin (s : State) (e removal) : (s.storeStream e removal).trust.quoin = s.trust.quoin := by
  simp [State.storeStream]
@[simp] theorem State.tableStored_quoin (s : State) (id n) : (s.tableStored id n).trust.quoin = s.trust.quoin := by
  unfold State.tableStored; split <;> simp
@[simp] theorem State.mirrorStored_quoin (s : State) (id) : (s.mirrorStored id).trust.quoin = s.trust.quoin := by
  unfold State.mirrorStored; (repeat' split) <;> simp
@[simp] theorem State.nsApplied_quoin (s : State) (nsid n st) : (s.nsApplied nsid n st).trust.quoin = s.trust.quoin := by
  unfold State.nsApplied; split <;> simp
@[simp] theorem State.writeEnded_quoin (s : State) (id st) : (s.writeEnded id st).trust.quoin = s.trust.quoin := by
  unfold State.writeEnded; split <;> simp
@[simp] theorem State.voteRx_quoin (s : State) (n gen v) : (s.voteRx n gen v).trust.quoin = s.trust.quoin := by
  unfold State.voteRx; (repeat' split) <;> simp
@[simp] theorem State.quorumHold_quoin (s : State) : s.quorumHold.trust.quoin = s.trust.quoin := by simp [State.quorumHold]
@[simp] theorem State.quorumLost_quoin (s : State) : s.quorumLost.trust.quoin = s.trust.quoin := by simp [State.quorumLost]
@[simp] theorem State.spareAdd_quoin (s : State) (device ready) : (s.spareAdd device ready).trust.quoin = s.trust.quoin := by
  unfold State.spareAdd; (repeat' split) <;> simp
@[simp] theorem State.nsApply_quoin (s : State) (action nsid stripes keyOk) :
    (s.nsApply action nsid stripes keyOk).2.trust.quoin = s.trust.quoin := by
  simp only [State.nsApply]; (repeat' split) <;> simp
@[simp] theorem State.nsCtrl_quoin (s : State) (action nsid origin stripes keyOk) :
    (s.nsCtrl action nsid origin stripes keyOk).trust.quoin = s.trust.quoin := by
  unfold State.nsCtrl; split <;> simp
@[simp] theorem State.groupNsCreate_quoin (s : State) (nsid origin stripes keyOk) :
    (s.groupNsCreate nsid origin stripes keyOk).trust.quoin = s.trust.quoin := by simp [State.groupNsCreate]
@[simp] theorem State.groupNsDelete_quoin (s : State) (nsid origin keyOk) :
    (s.groupNsDelete nsid origin keyOk).trust.quoin = s.trust.quoin := by simp [State.groupNsDelete]
@[simp] theorem State.groupNsSeal_quoin (s : State) (nsid origin) :
    (s.groupNsSeal nsid origin).trust.quoin = s.trust.quoin := by simp [State.groupNsSeal]
@[simp] theorem State.groupNsUnseal_quoin (s : State) (nsid origin) :
    (s.groupNsUnseal nsid origin).trust.quoin = s.trust.quoin := by simp [State.groupNsUnseal]
@[simp] theorem State.startStripe_quoin (s : State) (p ns stripe new) :
    (s.startStripe p ns stripe new).trust.quoin = s.trust.quoin := by
  simp only [State.startStripe]; split <;> simp
@[simp] theorem State.groupWrite_quoin (s : State) (p nsid lba data) :
    (s.groupWrite p nsid lba data).trust.quoin = s.trust.quoin := by
  simp only [State.groupWrite]; (repeat' split) <;> simp
@[simp] theorem State.stripePrepare_quoin (s : State) (n gen write ns stripe share data) :
    (s.stripePrepare n gen write ns stripe share data).trust.quoin = s.trust.quoin := by simp [State.stripePrepare]
@[simp] theorem State.applyPrepared_quoin (s : State) (p pl) : (s.applyPrepared p pl).trust.quoin = s.trust.quoin := by
  simp [State.applyPrepared]
@[simp] theorem State.stripeCommit_quoin (s : State) (write pl) : (s.stripeCommit write pl).trust.quoin = s.trust.quoin := by
  unfold State.stripeCommit; split <;> simp
@[simp] theorem State.prepareResolve_quoin (s : State) (write commit pl) :
    (s.prepareResolve write commit pl).trust.quoin = s.trust.quoin := by
  simp only [State.prepareResolve]; (repeat' split) <;> simp
@[simp] theorem State.setRebuild_quoin (s : State) (r) : (s.setRebuild r).trust.quoin = s.trust.quoin := by
  simp [State.setRebuild]
@[simp] theorem State.rebuildStripe_quoin (s : State) (pos shares pl) :
    (s.rebuildStripe pos shares pl).trust.quoin = s.trust.quoin := by
  simp only [State.rebuildStripe]; (repeat' split) <;> simp
@[simp] theorem State.rebuildComplete_quoin (s : State) (pos) : (s.rebuildComplete pos).trust.quoin = s.trust.quoin := by
  unfold State.rebuildComplete; split <;> simp
@[simp] theorem State.mirrorUpdate_quoin (s : State) (n gen m) : (s.mirrorUpdate n gen m).trust.quoin = s.trust.quoin := by
  simp [State.mirrorUpdate]
@[simp] theorem State.streamTableUpdate_quoin (s : State) (n gen block ctx primary partner removal) :
    (s.streamTableUpdate n gen block ctx primary partner removal).trust.quoin = s.trust.quoin := by simp [State.streamTableUpdate]
@[simp] theorem State.rehomeResend_quoin (s : State) (c) : (s.rehomeResend c).trust.quoin = s.trust.quoin := by
  unfold State.rehomeResend; split <;> simp
@[simp] theorem State.grpCfgWrite_quoin (s : State) (v) : (s.grpCfgWrite v).trust.quoin = s.trust.quoin := by
  simp [State.grpCfgWrite]
@[simp] theorem State.groupRejoin_quoin (s : State) : s.groupRejoin.trust.quoin = s.trust.quoin := by
  unfold State.groupRejoin; split <;> simp
theorem writeGrp_quoin (s : State) (off v) : KeepsQuoin s (writeGrp s off v) := by
  unfold writeGrp
  repeat' refine .ite ?_ ?_
  all_goals simp

/-! The operations of Machine/Observe. -/

@[simp] theorem State.tileAccess_quoin (s : State) (t off f) (h : SameQuoin s (f s)) :
    (s.tileAccess t off f).trust.quoin = s.trust.quoin := by
  unfold State.tileAccess
  split
  · exact h
  · simp
@[simp] theorem State.tilEvtClear_quoin (s : State) (t) : (s.tilEvtClear t).trust.quoin = s.trust.quoin := by
  simp [State.tilEvtClear]
@[simp] theorem State.tilEvtSelWrite_quoin (s : State) (t n v) : (s.tilEvtSelWrite t n v).trust.quoin = s.trust.quoin := by
  simp [State.tilEvtSelWrite]
@[simp] theorem State.tilEvtCntLoRead_quoin (s : State) (p t n) : (s.tilEvtCntLoRead p t n).trust.quoin = s.trust.quoin := by
  simp [State.tilEvtCntLoRead]
@[simp] theorem State.setDepth_quoin (s : State) (src d) : (s.setDepth src d).trust.quoin = s.trust.quoin := by
  unfold State.setDepth; (repeat' split) <;> simp
@[simp] theorem State.markBegin_quoin (s : State) (src id user) : (s.markBegin src id user).trust.quoin = s.trust.quoin := by
  unfold State.markBegin; split <;> simp
@[simp] theorem State.markEnd_quoin (s : State) (src id user) : (s.markEnd src id user).trust.quoin = s.trust.quoin := by
  unfold State.markEnd; split <;> simp
@[simp] theorem State.markInstant_quoin (s : State) (src id user) :
    (s.markInstant src id user).trust.quoin = s.trust.quoin := by
  unfold State.markInstant; split <;> simp
@[simp] theorem State.traceFree_quoin (s : State) : s.traceFree.trust.quoin = s.trust.quoin := by simp [State.traceFree]
@[simp] theorem State.obsCfgWrite_quoin (s : State) (v) : (s.obsCfgWrite v).trust.quoin = s.trust.quoin := by
  simp [State.obsCfgWrite]
@[simp] theorem State.traceEnable_quoin (s : State) (v) : (s.traceEnable v).trust.quoin = s.trust.quoin := by
  simp [State.traceEnable]
@[simp] theorem State.traceDisable_quoin (s : State) (v) : (s.traceDisable v).trust.quoin = s.trust.quoin := by
  simp [State.traceDisable]
@[simp] theorem State.traceRelease_quoin (s : State) (v) : (s.traceRelease v).trust.quoin = s.trust.quoin := by
  simp [State.traceRelease]
@[simp] theorem State.endTileRun_quoin (s : State) (t st detail) : (s.endTileRun t st detail).trust.quoin = s.trust.quoin := by
  unfold State.endTileRun; split <;> simp
@[simp] theorem State.tileFault_quoin (s : State) (t noProgress) : (s.tileFault t noProgress).trust.quoin = s.trust.quoin := by
  unfold State.tileFault; split <;> simp
@[simp] theorem State.regionFault_quoin (s : State) (g c) : (s.regionFault g c).trust.quoin = s.trust.quoin := by
  simp [State.regionFault]
@[simp] theorem State.moveFlow_quoin (s : State) (f) : (s.moveFlow f).trust.quoin = s.trust.quoin := by
  unfold State.moveFlow; split <;> simp
@[simp] theorem State.routerFault_quoin (s : State) (t flows) : (s.routerFault t flows).trust.quoin = s.trust.quoin := by
  simp [State.routerFault]
@[simp] theorem State.tileUnitReset_quoin (s : State) (t) : (s.tileUnitReset t).trust.quoin = s.trust.quoin := by
  unfold State.tileUnitReset; split <;> simp
@[simp] theorem State.tileUnitClear_quoin (s : State) (t x2) : (s.tileUnitClear t x2).trust.quoin = s.trust.quoin := by
  unfold State.tileUnitClear; split <;> simp
@[simp] theorem State.tileUnitEnd_quoin (s : State) (t bit) : (s.tileUnitEnd t bit).trust.quoin = s.trust.quoin := by
  simp [State.tileUnitEnd]
@[simp] theorem State.tileUnitStart_quoin (s : State) (t bit) : (s.tileUnitStart t bit).trust.quoin = s.trust.quoin := by
  simp [State.tileUnitStart]
@[simp] theorem State.tilResetMac_quoin (s : State) (t) : (s.tilResetMac t).trust.quoin = s.trust.quoin := by
  simp [State.tilResetMac]
@[simp] theorem State.tilResetVec_quoin (s : State) (t) : (s.tilResetVec t).trust.quoin = s.trust.quoin := by
  simp [State.tilResetVec]
@[simp] theorem State.tilResetDma_quoin (s : State) (t) : (s.tilResetDma t).trust.quoin = s.trust.quoin := by
  simp [State.tilResetDma]
@[simp] theorem State.tilResetCore_quoin (s : State) (t) : (s.tilResetCore t).trust.quoin = s.trust.quoin := by
  simp [State.tilResetCore]
@[simp] theorem State.tilResetSync_quoin (s : State) (t) : (s.tilResetSync t).trust.quoin = s.trust.quoin := by
  simp [State.tilResetSync]
@[simp] theorem State.tilResetObs_quoin (s : State) (t) : (s.tilResetObs t).trust.quoin = s.trust.quoin := by
  simp [State.tilResetObs]
@[simp] theorem State.tilResetStore_quoin (s : State) (t) : (s.tilResetStore t).trust.quoin = s.trust.quoin := by
  simp [State.tilResetStore]
@[simp] theorem State.tilResetRouter_quoin (s : State) (t) : (s.tilResetRouter t).trust.quoin = s.trust.quoin := by
  simp [State.tilResetRouter]
theorem writeObserve_quoin (s : State) (p off v) : KeepsQuoin s (writeObserve s p off v) := by
  unfold writeObserve
  refine .ite (by simp) (.ite ?_ (by simp))
  split <;> simp

@[simp] theorem State.tileResetBits_quoin (s : State) (t v) : (s.tileResetBits t v).trust.quoin = s.trust.quoin := by
  simp [State.tileResetBits]
@[simp] theorem State.writeTile_quoin (s : State) (t off v) : (s.writeTile t off v).trust.quoin = s.trust.quoin := by
  simp [State.writeTile]

/-! The operations of Machine/Pools. -/

@[simp] theorem State.bufferRequest_quoin (s : State) (die port unit cls size idx) :
    (s.bufferRequest die port unit cls size idx).trust.quoin = s.trust.quoin := by
  simp only [State.bufferRequest]; (repeat' split) <;> simp
@[simp] theorem State.setBuf_quoin (s : State) (h f) : (s.setBuf h f).trust.quoin = s.trust.quoin := by simp [State.setBuf]
@[simp] theorem State.bufRefuse_quoin (s : State) (st h port unit) :
    (s.bufRefuse st h port unit).trust.quoin = s.trust.quoin := by simp [State.bufRefuse]
@[simp] theorem State.bufferFree_quoin (s : State) (h port unit) : (s.bufferFree h port unit).trust.quoin = s.trust.quoin := by
  unfold State.bufferFree; split <;> simp
@[simp] theorem State.bufferDrop_quoin (s : State) (h port unit) : (s.bufferDrop h port unit).trust.quoin = s.trust.quoin := by
  unfold State.bufferDrop; split <;> simp
@[simp] theorem State.bufferShare_quoin (s : State) (h port unit new) :
    (s.bufferShare h port unit new).trust.quoin = s.trust.quoin := by
  unfold State.bufferShare; split <;> simp
@[simp] theorem State.bufferHandover_quoin (s : State) (h port unit newPort newUnit) :
    (s.bufferHandover h port unit newPort newUnit).trust.quoin = s.trust.quoin := by
  unfold State.bufferHandover; split <;> simp
@[simp] theorem State.shadowWrite_quoin (s : State) (off v) : (s.shadowWrite off v).trust.quoin = s.trust.quoin := by
  simp [State.shadowWrite]
@[simp] theorem State.checkLayout_quoin (s : State) (i) : (s.checkLayout i).trust.quoin = s.trust.quoin := by
  simp only [State.checkLayout]
  split <;> simp
@[simp] theorem State.configTick_quoin (s : State) : s.configTick.trust.quoin = s.trust.quoin := by simp [State.configTick]
@[simp] theorem State.remeter_quoin (s : State) (x) : (s.remeter x).trust.quoin = s.trust.quoin := by
  simp only [State.remeter]
  split
  · simp
  · split
    · split <;> rename_i hw
      · have h := congrArg (·.2.trust.quoin) hw
        simp at h
        simp [h]
      · have h := congrArg (·.2.trust.quoin) hw
        simp at h
        simp [h]
    · simp

@[simp] theorem State.policerTick_quoin (s : State) : s.policerTick.trust.quoin = s.trust.quoin := by simp [State.policerTick]
@[simp] theorem State.egressSelect_quoin (s : State) (port) : (s.egressSelect port).trust.quoin = s.trust.quoin := by
  unfold State.egressSelect; (repeat' split) <;> simp
@[simp] theorem State.calendarTick_quoin (s : State) : s.calendarTick.trust.quoin = s.trust.quoin := by
  simp only [State.calendarTick]; split <;> simp
theorem writeNet_quoin (s : State) (off v) : KeepsQuoin s (writeNet s off v) := by
  unfold writeNet
  exact .ite (by simp) (by simp)

/-! The operations of Machine/TextGen. -/

@[simp] theorem State.setGens_quoin (s : State) (l) : (s.setGens l).trust.quoin = s.trust.quoin := by simp [State.setGens]
@[simp] theorem State.agentWrite_quoin (s : State) (slot addr b) : (s.agentWrite slot addr b).trust.quoin = s.trust.quoin := by
  simp [State.agentWrite]
@[simp] theorem State.genRelease_quoin (s : State) (g text) : (s.genRelease g text).2.trust.quoin = s.trust.quoin := by
  simp [State.genRelease]
@[simp] theorem State.genSignal_quoin (s : State) (g code reason) :
    (s.genSignal g code reason).trust.quoin = s.trust.quoin := by
  simp only [State.genSignal]; (repeat' split) <;> simp
@[simp] theorem State.genEnd_quoin (s : State) (g st reason stop) :
    (s.genEnd g st reason stop).trust.quoin = s.trust.quoin := by simp [State.genEnd]
@[simp] theorem State.laneFault_quoin (s : State) (lane) : (s.laneFault lane).trust.quoin = s.trust.quoin := by
  simp [State.laneFault]
@[simp] theorem State.genInput_quoin (s : State) (c x plate b) : (s.genInput c x plate b).2.trust.quoin = s.trust.quoin := by
  simp only [State.genInput]; (repeat' split) <;> simp
@[simp] theorem State.genStart_quoin (s : State) (p b a lane idx v) :
    (s.genStart p b a lane idx v).trust.quoin = s.trust.quoin := by
  simp only [State.genStart]; split <;> simp
@[simp] theorem State.genOpen_quoin (s : State) (p b a) : (s.genOpen p b a).trust.quoin = s.trust.quoin := by
  unfold State.genOpen
  simp only
  split
  · rfl
  · rename_i r _
    split
    · rfl
    · split
      · rename_i hs
        split at hs
        · rename_i c x _
          have h := s.genInput_quoin c x r.plate b
          simp only [hs] at h
          exact h
        · cases hs
      · rename_i b1 s1 hs
        have h : s1.trust.quoin = s.trust.quoin := by
          split at hs
          · rename_i c x _
            have h := s.genInput_quoin c x r.plate b
            simp only [hs] at h
            exact h
          · cases hs; rfl
        clear hs
        split
        · simp [h]
        · split
          · cases hr : r.stage with
            | none => simp [h]
            | some c =>
              have h2 := s1.witnessAppend_quoin c 4 (leField b1 8 8) b1
              simp only
              split <;> rename_i hw <;> simp only [hw] at h2 <;> simp [h, h2]
          · simp [h]

@[simp] theorem State.genText_quoin (s : State) (g v token) : (s.genText g v token).trust.quoin = s.trust.quoin := by
  simp only [State.genText]; (repeat' split) <;> simp
@[simp] theorem State.genStep_quoin (s : State) (lane idx token) : (s.genStep lane idx token).trust.quoin = s.trust.quoin := by
  simp only [State.genStep]; (repeat' split) <;> simp

/-! The operations of Machine/YqiAdmin. -/

@[simp] theorem State.identify_quoin (s : State) (p cns nsid) : (s.identify p cns nsid).trust.quoin = s.trust.quoin := by
  unfold State.identify; (repeat' split) <;> simp
@[simp] theorem State.getLog_quoin (s : State) (p page off len) : (s.getLog p page off len).trust.quoin = s.trust.quoin := by
  unfold State.getLog; (repeat' split) <;> simp
@[simp] theorem State.getFeature_quoin (s : State) (p id sel) : (s.getFeature p id sel).trust.quoin = s.trust.quoin := by
  simp only [State.getFeature]; (repeat' split) <;> simp
@[simp] theorem State.setArbitration_quoin (s : State) (p burst) : (s.setArbitration p burst).trust.quoin = s.trust.quoin := by
  simp [State.setArbitration]
@[simp] theorem State.setCoalescing_quoin (s : State) (p v threshold time) :
    (s.setCoalescing p v threshold time).trust.quoin = s.trust.quoin := by simp [State.setCoalescing]
@[simp] theorem State.ensureFn_quoin (s : State) (g) : (s.ensureFn g).trust.quoin = s.trust.quoin := by simp [State.ensureFn]
@[simp] theorem State.setVfResources_quoin (s : State) (p vf queues vectors) :
    (s.setVfResources p vf queues vectors).trust.quoin = s.trust.quoin := by
  unfold State.setVfResources; split <;> simp
@[simp] theorem State.setNsVisibility_quoin (s : State) (p vf map) :
    (s.setNsVisibility p vf map).trust.quoin = s.trust.quoin := by simp [State.setNsVisibility]
@[simp] theorem State.setMediaLayout_quoin (s : State) (p cell opHalf) :
    (s.setMediaLayout p cell opHalf).trust.quoin = s.trust.quoin := by simp [State.setMediaLayout]
@[simp] theorem State.firmwareDownload_quoin (s : State) (p off chunk) :
    (s.firmwareDownload p off chunk).trust.quoin = s.trust.quoin := by simp [State.firmwareDownload]
@[simp] theorem State.flashAccess_quoin (s : State) : s.flashAccess.trust.quoin = s.trust.quoin := by simp [State.flashAccess]
@[simp] theorem State.firmwareCommit_quoin (s : State) (p activate flashOk) :
    (s.firmwareCommit p activate flashOk).trust.quoin = s.trust.quoin := by simp [State.firmwareCommit]

/-! The operations of Machine/Busy. -/

@[simp] theorem State.deisolateRegion_quoin (s : State) (r) : (s.deisolateRegion r).trust.quoin = s.trust.quoin := by
  simp [State.deisolateRegion]
@[simp] theorem State.fieldDieLost_quoin (s : State) : s.fieldDieLost.trust.quoin = s.trust.quoin := by
  simp [State.fieldDieLost]
@[simp] theorem State.clearUnwrappedKeys_quoin (s : State) : s.clearUnwrappedKeys.trust.quoin = s.trust.quoin := by
  simp [State.clearUnwrappedKeys]

/-! The operations of Machine/Power. -/

@[simp] theorem State.flitError_quoin (s : State) (l recovered) : (s.flitError l recovered).trust.quoin = s.trust.quoin := by
  simp [State.flitError]
@[simp] theorem State.pllUnlock_quoin (s : State) (pll) : (s.pllUnlock pll).trust.quoin = s.trust.quoin := by
  simp [State.pllUnlock]
@[simp] theorem State.pllRelock_quoin (s : State) (pll ok die) : (s.pllRelock pll ok die).trust.quoin = s.trust.quoin := by
  unfold State.pllRelock; split <;> simp
@[simp] theorem State.refclkLoss_quoin (s : State) : s.refclkLoss.trust.quoin = s.trust.quoin := by simp [State.refclkLoss]
@[simp] theorem State.regionDoze_quoin (s : State) (r) : (s.regionDoze r).trust.quoin = s.trust.quoin := by
  simp [State.regionDoze]
@[simp] theorem State.regionWakeDone_quoin (s : State) (r) : (s.regionWakeDone r).trust.quoin = s.trust.quoin := by
  simp [State.regionWakeDone]
@[simp] theorem State.powerRefused_quoin (s : State) (detail) : (s.powerRefused detail).trust.quoin = s.trust.quoin := by
  simp [State.powerRefused]
@[simp] theorem State.idleRequest_quoin (s : State) : s.idleRequest.trust.quoin = s.trust.quoin := by
  unfold State.idleRequest; (repeat' split) <;> simp
@[simp] theorem State.idleEntered_quoin (s : State) : s.idleEntered.trust.quoin = s.trust.quoin := by
  simp only [State.idleEntered]
  split <;> simp
@[simp] theorem State.offRequest_quoin (s : State) (key) : (s.offRequest key).trust.quoin = s.trust.quoin := by
  unfold State.offRequest; (repeat' split) <;> simp
@[simp] theorem State.offFlushDone_quoin (s : State) : s.offFlushDone.trust.quoin = s.trust.quoin := by
  simp [State.offFlushDone]
@[simp] theorem State.wakeComplete_quoin (s : State) : s.wakeComplete.trust.quoin = s.trust.quoin := by
  simp [State.wakeComplete]
@[simp] theorem State.alignmentTick_quoin (s : State) : s.alignmentTick.trust.quoin = s.trust.quoin := by
  simp [State.alignmentTick]
@[simp] theorem State.wdtKick_quoin (s : State) (key) : (s.wdtKick key).trust.quoin = s.trust.quoin := by simp [State.wdtKick]
@[simp] theorem State.wdtProbe_quoin (s : State) (field media net) :
    (s.wdtProbe field media net).trust.quoin = s.trust.quoin := by simp [State.wdtProbe]
@[simp] theorem State.wdtExpiry_quoin (s : State) : s.wdtExpiry.trust.quoin = s.trust.quoin := by
  unfold State.wdtExpiry; split <;> simp
@[simp] theorem State.wdtCfgWrite_quoin (s : State) (v) : (s.wdtCfgWrite v).trust.quoin = s.trust.quoin := by
  simp [State.wdtCfgWrite]
@[simp] theorem State.applyTileClock_quoin (s : State) : s.applyTileClock.trust.quoin = s.trust.quoin := by
  simp [State.applyTileClock]
@[simp] theorem State.limiterCut_quoin (s : State) : s.limiterCut.trust.quoin = s.trust.quoin := by simp [State.limiterCut]
@[simp] theorem State.powerSample_quoin (s : State) (total tiles) :
    (s.powerSample total tiles).trust.quoin = s.trust.quoin := by simp [State.powerSample]
@[simp] theorem State.thermalSample_quoin (s : State) (temps) : (s.thermalSample temps).trust.quoin = s.trust.quoin := by
  simp [State.thermalSample]
@[simp] theorem State.thermalTrip_quoin (s : State) (diode) : (s.thermalTrip diode).trust.quoin = s.trust.quoin := by
  simp [State.thermalTrip]
@[simp] theorem State.tripPowerOff_quoin (s : State) : s.tripPowerOff.trust.quoin = s.trust.quoin := by
  unfold State.tripPowerOff; split <;> simp
@[simp] theorem State.pwrConfigWrite_quoin (s : State) (off v) : (s.pwrConfigWrite off v).trust.quoin = s.trust.quoin := by
  simp [State.pwrConfigWrite]
theorem writePower_quoin (s : State) (off v) : KeepsQuoin s (writePower s off v) := by
  unfold writePower
  repeat' refine .ite ?_ ?_
  all_goals simp

/-! The operations of Machine/BlockClear. -/

@[simp] theorem State.poolCleanup_quoin (s : State) (b unit) : (s.poolCleanup b unit).trust.quoin = s.trust.quoin := by
  simp [State.poolCleanup]
@[simp] theorem State.cutJobs_quoin (s : State) (which) : (s.cutJobs which).trust.quoin = s.trust.quoin := by
  simp [State.cutJobs]
@[simp] theorem State.cutGens_quoin (s : State) (which) : (s.cutGens which).trust.quoin = s.trust.quoin := by
  simp [State.cutGens]
@[simp] theorem State.gnozCleared_quoin (s : State) : s.gnozCleared.trust.quoin = s.trust.quoin := by simp [State.gnozCleared]
@[simp] theorem State.blockCleared_quoin (s : State) (b f) : (s.blockCleared b f).trust.quoin = s.trust.quoin := by
  unfold State.blockCleared
  simp only
  repeat' split
  all_goals simp

@[simp] theorem State.unitCleared_quoin (s : State) (cls idx forced) :
    (s.unitCleared cls idx forced).trust.quoin = s.trust.quoin := by
  unfold State.unitCleared; split <;> simp

/-! The operations of Machine/SoftReset. -/

@[simp] theorem State.rstRequestWrite_quoin (s : State) (key) : (s.rstRequestWrite key).trust.quoin = s.trust.quoin := by
  simp [State.rstRequestWrite]
@[simp] theorem State.blockSoftReset_quoin (s : State) (bits) : (s.blockSoftReset bits).trust.quoin = s.trust.quoin := by
  simp [State.blockSoftReset]
@[simp] theorem State.unitSoftReset_quoin (s : State) (cls index) :
    (s.unitSoftReset cls index).trust.quoin = s.trust.quoin := by simp [State.unitSoftReset]
@[simp] theorem State.blockResetEnd_quoin (s : State) (b forced) : (s.blockResetEnd b forced).trust.quoin = s.trust.quoin := by
  simp [State.blockResetEnd]
@[simp] theorem State.unitResetEnd_quoin (s : State) (u forced) : (s.unitResetEnd u forced).trust.quoin = s.trust.quoin := by
  simp [State.unitResetEnd]
@[simp] theorem State.softResetQuiesced_quoin (s : State) (x1) : (s.softResetQuiesced x1).trust.quoin = s.trust.quoin := by
  unfold State.softResetQuiesced; (repeat' split) <;> simp
@[simp] theorem State.quiesceTimeoutEvent_quoin (s : State) (x1) : (s.quiesceTimeoutEvent x1).trust.quoin = s.trust.quoin := by
  unfold State.quiesceTimeoutEvent; (repeat' split) <;> simp
@[simp] theorem State.regionResetRefused_quoin (s : State) (st r) :
    (s.regionResetRefused st r).trust.quoin = s.trust.quoin := by simp [State.regionResetRefused]
@[simp] theorem State.regionReset_quoin (s : State) (r) : (s.regionReset r).trust.quoin = s.trust.quoin := by
  simp [State.regionReset]
@[simp] theorem State.regionResetDone_quoin (s : State) (fault) : (s.regionResetDone fault).trust.quoin = s.trust.quoin := by
  unfold State.regionResetDone; (repeat' split) <;> simp
@[simp] theorem State.bootCopyClear_quoin (s : State) (a b) : (s.bootCopyClear a b).trust.quoin = s.trust.quoin := by
  simp [State.bootCopyClear]
@[simp] theorem State.rstTimeoutWrite_quoin (s : State) (b v) : (s.rstTimeoutWrite b v).trust.quoin = s.trust.quoin := by
  simp [State.rstTimeoutWrite]
theorem writeReset_quoin (s : State) (off v) : KeepsQuoin s (writeReset s off v) := by
  unfold writeReset
  repeat' refine .ite ?_ ?_
  all_goals simp

/-! The operations of Machine/Trust. -/

@[simp] theorem State.setMbox_quoin (s : State) (m x) : (s.setMbox m x).trust.quoin = s.trust.quoin := by
  unfold State.setMbox Trust.setMbox; split <;> rfl
@[simp] theorem State.newNonce_quoin (s : State) (m) : (s.newNonce m).trust.quoin = s.trust.quoin := by simp [State.newNonce]
@[simp] theorem State.mboxEnd_quoin (s : State) (m st resp) : (s.mboxEnd m st resp).trust.quoin = s.trust.quoin := by
  simp [State.mboxEnd]
@[simp] theorem State.mboxCmdWrite_quoin (s : State) (m v) : (s.mboxCmdWrite m v).trust.quoin = s.trust.quoin := by
  simp [State.mboxCmdWrite]
@[simp] theorem State.getNonce_quoin (s : State) (m) : (s.getNonce m).trust.quoin = s.trust.quoin := by simp [State.getNonce]
@[simp] theorem State.getIdentity_quoin (s : State) (m) : (s.getIdentity m).trust.quoin = s.trust.quoin := by
  simp [State.getIdentity]
@[simp] theorem State.attest_quoin (s : State) (m draws) : (s.attest m draws).trust.quoin = s.trust.quoin := by
  simp [State.attest]
@[simp] theorem State.sagRefuse_quoin (s : State) (m st) : (s.sagRefuse m st).trust.quoin = s.trust.quoin := by
  simp [State.sagRefuse]
@[simp] theorem State.signed_quoin (s : State) (m op ok f) (h : ∀ b, (f b s).trust.quoin = s.trust.quoin) :
    (s.signed m op ok f).trust.quoin = s.trust.quoin := by
  simp [State.signed, h]
@[simp] theorem State.keyRecordAppend_quoin (s : State) : s.keyRecordAppend.trust.quoin = s.trust.quoin := by
  simp [State.keyRecordAppend]
@[simp] theorem State.installKey_quoin (s : State) (m keyOk) : (s.installKey m keyOk).trust.quoin = s.trust.quoin := by
  simp [State.installKey]
@[simp] theorem State.removeKey_quoin (s : State) (m keyOk) : (s.removeKey m keyOk).trust.quoin = s.trust.quoin := by
  simp [State.removeKey]
@[simp] theorem State.pair_quoin (s : State) (m keyOk) : (s.pair m keyOk).trust.quoin = s.trust.quoin := by simp [State.pair]
@[simp] theorem State.unpair_quoin (s : State) (m keyOk) : (s.unpair m keyOk).trust.quoin = s.trust.quoin := by
  simp [State.unpair]
@[simp] theorem State.zeroiseKeys_quoin (s : State) : s.zeroiseKeys.trust.quoin = s.trust.quoin := by simp [State.zeroiseKeys]
@[simp] theorem State.debugUnlock_quoin (s : State) (m level) : (s.debugUnlock m level).trust.quoin = s.trust.quoin := by
  simp [State.debugUnlock]
@[simp] theorem State.lcTransition_quoin (s : State) (m keyOk) : (s.lcTransition m keyOk).trust.quoin = s.trust.quoin := by
  simp [State.lcTransition]
@[simp] theorem State.zeroiseCmd_quoin (s : State) (viaMbox key) : (s.zeroiseCmd viaMbox key).trust.quoin = s.trust.quoin := by
  unfold State.zeroiseCmd; split <;> simp
@[simp] theorem State.timeFloorUpdate_quoin (s : State) : s.timeFloorUpdate.trust.quoin = s.trust.quoin := by
  simp [State.timeFloorUpdate]

/-! The operations of Machine/Bus. -/

@[simp] theorem State.fencedAccess_quoin (s : State) (field) : (s.fencedAccess field).trust.quoin = s.trust.quoin := by
  simp [State.fencedAccess]
@[simp] theorem State.unassignedAccess_quoin (s : State) (off) : (s.unassignedAccess off).trust.quoin = s.trust.quoin := by
  simp [State.unassignedAccess]
@[simp] theorem State.pwrCtrlWrite_quoin (s : State) (p v) : (s.pwrCtrlWrite p v).trust.quoin = s.trust.quoin := by
  unfold State.pwrCtrlWrite; split <;> simp
@[simp] theorem State.busWake_quoin (s : State) (p) : (s.busWake p).trust.quoin = s.trust.quoin := by simp [State.busWake]
@[simp] theorem State.holdAccess_quoin (s : State) (p off write bytes) :
    (s.holdAccess p off write bytes).trust.quoin = s.trust.quoin := by simp [State.holdAccess]
@[simp] theorem State.useLatch_quoin (s : State) (off) : (s.useLatch off).trust.quoin = s.trust.quoin := by
  simp [State.useLatch]
@[simp] theorem State.busRead_quoin (s : State) (p off) : (s.busRead p off).2.trust.quoin = s.trust.quoin := by
  simp only [State.busRead]; split <;> simp
@[simp] theorem State.wideRead_quoin (s : State) (p off bytes) : (s.wideRead p off bytes).trust.quoin = s.trust.quoin := by
  have hb := State.busRead_quoin
  unfold State.wideRead
  split
  · simp
  · have h1 := s.busRead_quoin p off
    split
    · simp_all
    · split
      · rename_i s1 _ _
        have h2 := s1.busRead_quoin p (off + 4)
        split <;> simp_all
      · simp_all

@[simp] theorem State.badAccess_quoin (s : State) (p off bytes) : (s.badAccess p off bytes).trust.quoin = s.trust.quoin := by
  simp [State.badAccess]
@[simp] theorem State.ceilingRaise_quoin (s : State) : s.ceilingRaise.trust.quoin = s.trust.quoin := by
  simp [State.ceilingRaise]
@[simp] theorem State.smbSetOffset_quoin (s : State) (off pecOk) : (s.smbSetOffset off pecOk).trust.quoin = s.trust.quoin := by
  simp [State.smbSetOffset]
@[simp] theorem State.smbRead_quoin (s : State) (a) : (s.smbRead a).trust.quoin = s.trust.quoin := by
  have h := s.busRead_quoin .sideband s.sideband.offset
  simp only [State.smbRead]
  split
  · simp
  · split
    · simp
    · split <;> rename_i hw <;> simp only [hw] at h <;> simp [h]

@[simp] theorem State.alertResponse_quoin (s : State) : s.alertResponse.trust.quoin = s.trust.quoin := by
  simp [State.alertResponse]

/-! The operations of Machine/Boot. -/

@[simp] theorem State.bootLinks_quoin (s : State) (i) : (s.bootLinks i).trust.quoin = s.trust.quoin := by simp [State.bootLinks]
@[simp] theorem State.bootTraining_quoin (s : State) (i) : (s.bootTraining i).trust.quoin = s.trust.quoin := by
  simp [State.bootTraining]
@[simp] theorem State.bootNand_quoin (s : State) (i) : (s.bootNand i).trust.quoin = s.trust.quoin := by simp [State.bootNand]
@[simp] theorem State.resumeNumbers_quoin (s : State) (i) : (s.resumeNumbers i).trust.quoin = s.trust.quoin := by
  simp [State.resumeNumbers]
@[simp] theorem State.recoverGasp_quoin (s : State) (ps) : (s.recoverGasp ps).trust.quoin = s.trust.quoin := by
  simp [State.recoverGasp]
@[simp] theorem State.rebuildFrom_quoin (s : State) (a older i) : (s.rebuildFrom a older i).trust.quoin = s.trust.quoin := by
  simp [State.rebuildFrom]
@[simp] theorem State.rebuildHandover_quoin (s : State) (h) : (s.rebuildHandover h).trust.quoin = s.trust.quoin := by
  simp [State.rebuildHandover]
@[simp] theorem State.bootRebuild_quoin (s : State) (i) : (s.bootRebuild i).trust.quoin = s.trust.quoin := by
  simp only [State.bootRebuild]; (repeat' split) <;> simp
@[simp] theorem State.tryCopy_quoin (s : State) (b i) : (s.tryCopy b i).2.trust.quoin = s.trust.quoin := by
  simp only [State.tryCopy]; (repeat' split) <;> simp
@[simp] theorem State.pickCopy_quoin (s : State) (i l) : (s.pickCopy i l).2.trust.quoin = s.trust.quoin := by
  induction l generalizing s with
  | nil => rfl
  | cons b l ih =>
    simp only [State.pickCopy]
    split <;> simp [ih]

@[simp] theorem State.rereadCopy_quoin (s : State) (i n l) : (s.rereadCopy i n l).2.trust.quoin = s.trust.quoin := by
  induction n generalizing s l with
  | zero => rfl
  | succ n ih => cases l with
    | none => rfl
    | some p => 
      simp only [State.rereadCopy]
      (repeat' split) <;> simp [ih]

@[simp] theorem State.applyNamespace_quoin (s : State) (b keyOk) :
    (s.applyNamespace b keyOk).2.trust.quoin = s.trust.quoin := by
  simp only [State.applyNamespace]; (repeat' split) <;> simp
@[simp] theorem State.applyArmed_quoin (s : State) (b) : (s.applyArmed b).2.trust.quoin = s.trust.quoin := by
  simp only [State.applyArmed]; (repeat' split) <;> simp
@[simp] theorem State.bootStep_quoin (s : State) (i p f) (h : ∀ s : State, (f s).trust.quoin = s.trust.quoin) :
    (s.bootStep i p f).trust.quoin = s.trust.quoin := by
  simp [State.bootStep, h]
@[simp] theorem State.reportPending_quoin (s : State) : s.reportPending.trust.quoin = s.trust.quoin := by
  simp [State.reportPending]
@[simp] theorem State.bootWipe_quoin (s : State) (i) : (s.bootWipe i).2.trust.quoin = s.trust.quoin := by
  simp only [State.bootWipe]; split <;> simp
@[simp] theorem State.loadMacs_quoin (s : State) (i l) : (s.loadMacs i l).trust.quoin = s.trust.quoin := by
  induction l generalizing s i with
  | nil => rfl
  | cons p l ih => simp [State.loadMacs, ih]

@[simp] theorem State.loadFuses_quoin (s : State) (i) : (s.loadFuses i).trust.quoin = s.trust.quoin := by simp [State.loadFuses]

/-! The operations of Machine/Fences. -/

@[simp] theorem State.failQueue_quoin (s : State) (q st) : (s.failQueue q st).trust.quoin = s.trust.quoin := by
  simp [State.failQueue]
@[simp] theorem State.netDieLost_quoin (s : State) : s.netDieLost.trust.quoin = s.trust.quoin := by simp [State.netDieLost]
/-! What a bus write, and what uses one, keeps. -/

theorem QuoinKept.of_eq {s t : State} (h : t.trust.quoin = s.trust.quoin) : QuoinKept s t := by
  rw [QuoinKept, h, BitVec.and_self]

theorem QuoinKept.refl (s : State) : QuoinKept s s := .of_eq rfl

theorem QuoinKept.trans {s t u : State} (h : QuoinKept s t) (k : QuoinKept t u) : QuoinKept s u := by
  unfold QuoinKept at *
  rw [← h, BitVec.and_assoc, k]

/-- A state with other quoin bits after the first change: only the bits count. -/
theorem QuoinKept.of_left {s s' t : State} (h : s'.trust.quoin = s.trust.quoin) (k : QuoinKept s' t) : QuoinKept s t :=
  (QuoinKept.of_eq h).trans k

theorem QuoinKept.foldl {α : Type} {f : State → α → State} (h : ∀ s a, QuoinKept s (f s a)) (l : List α) (s : State) :
    QuoinKept s (l.foldl f s) := by
  induction l generalizing s with
  | nil => exact .refl s
  | cons x l ih => exact (h s x).trans (ih (f s x))

theorem State.quoinSetWrite_kept (s : State) (hi v) : QuoinKept s (s.quoinSetWrite hi v) := by
  have h (a b : BitVec 64) : a &&& (a ||| b) = a := by
    rw [BitVec.and_or_distrib_left, BitVec.and_self]
    ext i; simp +contextual
  exact h _ _

theorem writeSag_kept (s : State) (p off v) {t} (h : writeSag s p off v = some t) : QuoinKept s t := by
  unfold writeSag at h
  extract_lets mine o at h
  split at h
  · cases h
  split at h
  · cases h; exact s.quoinSetWrite_kept false v
  split at h
  · cases h; exact s.quoinSetWrite_kept true v
  split at h
  · cases h; exact .of_eq (s.zeroiseCmd_quoin none v)
  split at h
  · cases h; exact .of_eq (by simp)
  split at h
  · cases h; exact .of_eq (by simp)
  · cases h

/-- A bus write keeps the quoin bits where a block takes it. -/
def TakenKept (s : State) (r : Option State) : Prop := ∀ t, r = some t → QuoinKept s t

theorem TakenKept.of_quoin {s : State} {r : Option State} (h : KeepsQuoin s r) : TakenKept s r := fun t hr => .of_eq (h t hr)

theorem TakenKept.some {s t : State} (h : t.trust.quoin = s.trust.quoin) : TakenKept s (some t) :=
  fun _ hr => .of_eq (Option.some.inj hr ▸ h)

theorem TakenKept.none (s : State) : TakenKept s none := fun _ h => nomatch h

theorem TakenKept.getD {s d : State} {r : Option State} (hr : TakenKept s r) (hd : QuoinKept s d) : QuoinKept s (r.getD d) := by
  cases r with
  | none => exact hd
  | some t => exact hr t rfl

theorem State.blockWrite_kept (s : State) (p off v) : QuoinKept s (s.blockWrite p off v) :=
  TakenKept.getD (s := s)
    (ite_holds (.some (s.pwrCtrlWrite_quoin p v)) <|
      ite_holds (.of_quoin (writePower_quoin s off v)) <| ite_holds (.of_quoin (writeReset_quoin s off v)) <|
      ite_holds (.of_quoin (writePower_quoin s off v)) <| ite_holds (fun _ => writeSag_kept s p off v) <| ite_holds (.none s) <|
      ite_holds (.of_quoin (writeMedia_quoin s off v)) <| ite_holds (.of_quoin (writeCmp_quoin s off v)) <|
      ite_holds (.of_quoin (writeDec_quoin s off v)) <| ite_holds (.none s) <| ite_holds (.of_quoin (writeWdg_quoin s off v)) <|
      ite_holds (.of_quoin (writeNet_quoin s off v)) <| ite_holds (.of_quoin (writeGnz_quoin s off v)) <|
      ite_holds (.of_quoin (writeGrp_quoin s off v)) <| ite_holds (.of_quoin (writeSync_quoin s p off v)) <|
      ite_holds (.of_quoin (writeObserve_quoin s p off v)) <|
      ite_holds (.of_quoin (writeStk_quoin s off v)) (.some (s.writeTile_quoin (offTile off) ((off - tilBase) % 0x8000) v)))
    (.of_eq (s.plainWrite_quoin off v))

theorem State.busWrite_kept (s : State) (p off v) : QuoinKept s (s.busWrite p off v) := by
  simp only [State.busWrite]
  split
  · exact .of_eq (by simp)
  · split
    · exact .of_left (by simp) (State.blockWrite_kept _ p off v)
    all_goals exact .of_eq (by simp)

theorem State.busAccess_kept (s : State) (p off w) : QuoinKept s (s.busAccess p off w) := by
  cases w with
  | none => exact .of_eq (s.wideRead_quoin p off 4)
  | some v => exact s.busWrite_kept p off v

theorem State.registerWrite_kept (s : State) (t v hi) : QuoinKept s (s.registerWrite t v hi) := by
  cases t with
  | bar0 p off =>
    simp only [State.registerWrite]
    split
    · exact .refl s
    · cases hi with
      | none => exact s.busWrite_kept p off v
      | some h => exact (s.busWrite_kept p off v).trans (State.busWrite_kept _ p (off + 4) h)
  | bar2 fn off =>
    refine .of_eq ?_
    simp only [State.registerWrite]
    split
    · rfl
    · cases hi <;> simp
  | msixMask fn vec => exact .of_eq (by simp [State.registerWrite])
  | vfEnable l => exact .of_eq (by simp [State.registerWrite])

theorem State.inactiveTileAccess_kept (s : State) (p off w) : QuoinKept s (s.inactiveTileAccess p off w) := by
  unfold State.inactiveTileAccess
  split
  · exact s.busAccess_kept p off w
  · exact .refl s

theorem State.unassignedRangeAccess_kept (s : State) (p off w) : QuoinKept s (s.unassignedRangeAccess p off w) := by
  unfold State.unassignedRangeAccess
  split
  · exact s.busAccess_kept p off w
  · exact .refl s

theorem State.fencedDieAccess_kept (s : State) (p off w) : QuoinKept s (s.fencedDieAccess p off w) := by
  unfold State.fencedDieAccess
  split
  · exact s.busAccess_kept p off w
  · exact .refl s

theorem State.replayHeld_kept (s : State) (l) : QuoinKept s (s.replayHeld l) := by
  have h (t : State) (go : List (BusPath × Nat × Option Word × Nat)) : QuoinKept t (go.foldl (fun s x => match x.2.2.1 with
      | some v => s.busWrite x.1 x.2.1 v
      | none => s.wideRead x.1 x.2.1 x.2.2.2) t) := .foldl (fun s x => by
    split
    · exact s.busWrite_kept _ _ _
    · exact .of_eq (s.wideRead_quoin _ _ _)) go t
  exact .of_left (s' := { s with links := { s.links with held := s.links.held.filter (fun x => !(offLink x.2.1 == some l)) } }) rfl
    (h _ _)

theorem State.linkRetrainDone_kept (s : State) (l ok) : QuoinKept s (s.linkRetrainDone l ok) := by
  simp only [State.linkRetrainDone]
  split
  · exact .refl s
  · split
    · exact .of_eq (by simp)
    · exact .of_left (by simp) (State.replayHeld_kept _ l)

theorem State.jtagAccess_kept (s : State) (a) : QuoinKept s (s.jtagAccess a) := by
  unfold State.jtagAccess
  split
  · split
    · exact s.busWrite_kept _ _ _
    all_goals exact .of_eq (by simp)
  · exact .of_eq (by simp)

theorem State.smbWrite_kept (s : State) (off v pecOk answered) : QuoinKept s (s.smbWrite off v pecOk answered) := by
  unfold State.smbWrite
  split
  · exact s.busWrite_kept _ _ _
  · exact .refl s

theorem State.applyRegister_kept (s : State) (b) : QuoinKept s (s.applyRegister b).2 := by
  simp only [State.applyRegister]
  split
  · exact .refl s
  · split
    · exact .refl s
    · split
      · exact s.blockWrite_kept _ _ _
      all_goals exact .of_eq (by simp)

theorem State.applyEntry_kept (s : State) (i type sec n b) : QuoinKept s (s.applyEntry i type sec n b).2 := by
  unfold State.applyEntry
  simp only
  split
  · exact s.applyRegister_kept b
  · exact .of_eq (by simp)
  · exact .of_eq (by simp)
  · split <;> exact .of_eq (by simp)
  · exact .of_eq (by simp)
  · split <;> exact .of_eq (by simp)
  · exact .of_eq (by simp)
  · exact (s.quoinSetWrite_kept _ _).trans (State.quoinSetWrite_kept _ _ _)

theorem State.applyCounted_kept (s : State) (i x) : QuoinKept s (s.applyCounted i x) := by
  simp only [State.applyCounted]
  split
  · exact s.applyEntry_kept i _ _ _ _
  · exact (s.applyEntry_kept i x.1 x.2.1 x.2.2.1 x.2.2.2).trans (.of_eq (by simp))

theorem State.bootApply_kept (s : State) (i pick) : QuoinKept s (s.bootApply i pick) := by
  simp only [State.bootApply]
  split
  · exact .of_eq (by simp)
  · have h (es : List (Nat × Nat × Nat × List Byte)) :
        QuoinKept s (es.foldl (fun s x => s.applyCounted i x) (s.groupRejoin.rereadCopy i 2 pick).2) :=
      .of_left (by simp) (.foldl (fun s x => s.applyCounted_kept i x) es _)
    split
    · exact h _
    · exact h _

theorem State.bootStep_kept (s : State) (i p) {f : State → State} (h : ∀ s, QuoinKept s (f s)) :
    QuoinKept s (s.bootStep i p f) := by
  unfold State.bootStep
  split
  · exact .of_left (s' := { s with boot := { s.boot with phase := p } }) rfl (h _)
  · exact .refl s

/-- The reset sequence from the trim load to the end of link training: steps 1 to 6 of R584. -/
def State.bootTrained (s : State) (i : BootInputs) : State :=
  let s := { s with boot := { s.boot with resetHeld := false, phase := .trim,
                                          trimTries := if i.trim = 0 ∨ i.trim > 3 then 3 else i.trim } }
  (((s.loadFuses i).bootStep i .clocks (fun s => s.reportPending)).bootStep i .links (fun s => s.bootLinks i)).bootStep i
    .training (fun s => s.bootTraining i)

/-- Steps 7 and 8: the copies of the configuration that pass, and the state after them. -/
def State.bootWiped (s : State) (i : BootInputs) : Option (Bool × List Bool) × State :=
  if BootPhase.wipe.rank ≤ i.reach.rank then State.bootWipe { s with boot := { s.boot with phase := .wipe } } i else (none, s)

/-- Steps 9 to 11. -/
def State.bootFinished (s : State) (i : BootInputs) (pick : Option (Bool × List Bool)) : State :=
  ((s.bootStep i .rebuild (fun s => (s.resumeNumbers i).bootRebuild i)).bootStep i .apply (fun s =>
    if s.lc == .provisioned || s.lc == .deployed then s.bootApply i pick else s.groupRejoin)).bootStep i .ready id

theorem State.resetRelease_loaded (s : State) (i : BootInputs) (hr : (!s.boot.resetHeld || s.boot.porHeld) = false)
    (ht : ¬(i.trim = 0 ∨ i.trim > 3)) :
    s.resetRelease i = ((s.bootTrained i).bootWiped i).2.bootFinished i ((s.bootTrained i).bootWiped i).1 := by
  rw [State.resetRelease, hr, if_neg Bool.false_ne_true, if_neg ht]
  rfl

@[simp] theorem State.bootTrained_quoin (s : State) (i) : (s.bootTrained i).trust.quoin = s.trust.quoin := by
  simp [State.bootTrained]

@[simp] theorem State.bootWiped_quoin (s : State) (i) : (s.bootWiped i).2.trust.quoin = s.trust.quoin := by
  unfold State.bootWiped
  split <;> simp

theorem State.bootFinished_kept (s : State) (i pick) : QuoinKept s (s.bootFinished i pick) :=
  .trans (.of_left (by simp) (State.bootStep_kept (s.bootStep i .rebuild _) i .apply fun t => by
    split
    · exact t.bootApply_kept i pick
    · exact .of_eq t.groupRejoin_quoin)) (State.bootStep_kept _ i .ready QuoinKept.refl)

theorem State.resetRelease_kept (s : State) (i) : QuoinKept s (s.resetRelease i) := by
  cases hr : !s.boot.resetHeld || s.boot.porHeld with
  | true => rw [State.resetRelease, hr, if_pos rfl]; exact .refl s
  | false =>
    by_cases ht : i.trim = 0 ∨ i.trim > 3
    · rw [State.resetRelease, hr, if_neg Bool.false_ne_true, if_pos ht]
      exact .of_eq (by rw [State.emit_trust])
    · rw [s.resetRelease_loaded i hr ht]
      exact .of_left (by simp) (State.bootFinished_kept _ _ _)

theorem exec_keeps_quoin {c : Instr} {s t : State} (h : exec c s = .next t) (hc : isReset c = false) : QuoinKept s t := by
  cases c with
  | registerWrite x v hi => cases h; exact s.registerWrite_kept x v hi
  | inactiveTileAccess p off w => cases h; exact s.inactiveTileAccess_kept p off w
  | unassignedAccess p off w => cases h; exact s.unassignedRangeAccess_kept p off w
  | fencedDieAccess p off w => cases h; exact s.fencedDieAccess_kept p off w
  | linkRetrainDone l ok => cases h; exact s.linkRetrainDone_kept l ok
  | quoinSet hi v => cases h; exact s.quoinSetWrite_kept hi v
  | jtagTapAccess a => cases h; exact s.jtagAccess_kept a
  | resetRelease b => cases h; exact s.resetRelease_kept b
  | smbWrite off v p a => cases h; exact s.smbWrite_kept off v p a
  | powerOn | resetNAssert | powerLoss => cases hc
  | _ => exact Host.Outcome.next.inj h ▸ .of_eq (by simp)

/-! ### The step, and the three statements about every command -/

theorem State.tick_eq (s : State) : s.tick = { s with now := s.now + 1000 } := by
  rw [State.tick, State.advance, max_eq_right (Nat.le_add_right s.now 1000)]

/-- Settles O1, by the definition of a step: the queue's front and the queue's rest. -/
theorem stepRunsTheFrontCommand : Obligations.StepRunsTheFrontCommand := by
  unfold Obligations.StepRunsTheFrontCommand
  refine ⟨fun c rest s => rfl, fun s h => ?_⟩
  have ht : step s = .next s.tick := by unfold step; rw [h]
  rw [ht, State.tick_eq]

/-- Settles O2: each command of the table runs one state function. -/
theorem noCommandFaultsOrIsRefused : Obligations.NoCommandFaultsOrIsRefused := by
  unfold Obligations.NoCommandFaultsOrIsRefused
  intro c s
  cases c with
  | _ => exact ⟨_, rfl⟩

/-- Settles O4: time leaves the bits, and each command that is no reset keeps them. -/
theorem quoinBitsOnlyClearAtReset : Obligations.QuoinBitsOnlyClearAtReset := by
  unfold Obligations.QuoinBitsOnlyClearAtReset
  intro s t h hc
  unfold step at h
  cases hp : s.pending with
  | nil =>
    rw [hp] at h
    exact Host.Outcome.next.inj h ▸ .refl s
  | cons c rest =>
    rw [hp] at h
    exact .of_left (s' := { s with pending := rest }) rfl (exec_keeps_quoin h (hc c rest hp))

end Sys2Proof.Machine

namespace Sys2Proof.Machine

/-! ### Memories -/

/-- A byte written reads as written, and no other byte changes, in a memory of canonical form. -/
theorem memGet_memSet {m : Memory} {lo : Nat} (w : memWfFrom lo m = true) (k : Nat) (v : Byte) (a : Nat) :
    memGet (memSet m k v) a = if a = k then v else memGet m a := by
  induction m generalizing lo with
  | nil =>
    rw [memSet]
    split
    · next hv => simp [memGet, hv]
    · rfl
  | cons c rest ih =>
    obtain ⟨x, b⟩ := c
    simp only [memWfFrom, Bool.and_eq_true] at w
    obtain ⟨-, hr⟩ := w
    have below (h : a ≤ x) : memGet rest a = 0 := memGet_below hr (Nat.lt_succ_of_le h)
    rw [memSet]
    split
    · split
      · simp only [memGet]; grind
      · simp only [memGet]
    · split
      · split <;> (simp only [memGet]; grind)
      · simp only [memGet, ih hr]; grind

/-- A write of a byte string leaves the bytes outside it. -/
theorem memGet_memWrite_of_outside {m : Memory} (w : Memory.wf m = true) {addr a : Nat} {bs : List Byte}
    (h : a < addr ∨ addr + bs.length ≤ a) : memGet (memWrite m addr bs) a = memGet m a := by
  induction bs generalizing m addr with
  | nil => rfl
  | cons b bs ih =>
    rw [List.length_cons] at h
    rw [memWrite, ih (memSet_wf addr b w) (by omega), memGet_memSet w, if_neg (by omega)]

/-- A written byte string reads back whole. -/
theorem memRead_memWrite {m : Memory} (w : Memory.wf m = true) (addr : Nat) (bs : List Byte) :
    memRead (memWrite m addr bs) addr bs.length = bs := by
  induction bs generalizing m addr with
  | nil => rfl
  | cons b bs ih =>
    have w' := memSet_wf addr b w
    rw [memWrite, List.length_cons, memRead, ih w', memGet_memWrite_of_outside w' (.inl (Nat.lt_succ_self addr)),
      memGet_memSet w, if_pos rfl]

/-- Settles O7, by induction on the byte string and the rule of one byte. -/
theorem memoryReadsAsWritten : Obligations.MemoryReadsAsWritten := by
  unfold Obligations.MemoryReadsAsWritten
  intro m addr bs w
  exact ⟨memRead_memWrite w addr bs, fun a h => memGet_memWrite_of_outside w h, fun lo hi a => memGet_memZero m lo hi a⟩

end Sys2Proof.Machine

namespace Sys2Proof.Machine

/-! ### The saggar

What these commands mean: each runs the state function of its instruction. -/

theorem exec_getNonce (m : Nat) (s : State) : exec (.getNonce m) s = .next (s.getNonce m) := rfl
theorem exec_getIdentity (m : Nat) (s : State) : exec (.getIdentity m) s = .next (s.getIdentity m) := rfl
theorem exec_attest (m : Nat) (d : SignDraws) (s : State) : exec (.attest m d) s = .next (s.attest m d) := rfl
theorem exec_zeroise (v : Option Nat) (k : Word) (s : State) : exec (.zeroise v k) s = .next (s.zeroiseCmd v k) := rfl
theorem exec_lcTransition (m : Nat) (ok : Bool) (s : State) : exec (.lcTransition m ok) s = .next (s.lcTransition m ok) := rfl
theorem exec_installKey (m : Nat) (ok : Bool) (s : State) : exec (.installKey m ok) s = .next (s.installKey m ok) := rfl
theorem exec_removeKey (m : Nat) (ok : Bool) (s : State) : exec (.removeKey m ok) s = .next (s.removeKey m ok) := rfl
theorem exec_pair (m : Nat) (ok : Bool) (s : State) : exec (.pair m ok) s = .next (s.pair m ok) := rfl
theorem exec_unpair (m : Nat) (ok : Bool) (s : State) : exec (.unpair m ok) s = .next (s.unpair m ok) := rfl
theorem exec_debugUnlock (m l : Nat) (s : State) : exec (.debugUnlock m l) s = .next (s.debugUnlock m l) := rfl
theorem exec_quoinSet (hi : Bool) (v : Word) (s : State) : exec (.quoinSet hi v) s = .next (s.quoinSetWrite hi v) := rfl
theorem exec_timeFloorUpdate (s : State) : exec .timeFloorUpdate s = .next s.timeFloorUpdate := rfl

/-! Mailboxes (R562, R565). -/

@[simp] theorem State.mbox_setMbox_same (s : State) (m : Nat) (x : Mailbox) : (s.setMbox m x).mbox m = x := by
  unfold State.mbox State.setMbox Trust.mbox Trust.setMbox
  by_cases h : m = 0
  · simp only [if_pos h]
  · simp only [if_neg h]

theorem State.mbox_setMbox_other (s : State) {m : Nat} (h : m < 2) (x : Mailbox) : (s.setMbox m x).mbox (1 - m) = s.mbox (1 - m) := by
  unfold State.mbox State.setMbox Trust.mbox Trust.setMbox
  by_cases h0 : m = 0
  · subst h0; rfl
  · have h1 : 1 - m = 0 := by omega
    simp only [if_neg h0, if_pos h1]

@[simp] theorem State.setMbox_zeroised (s : State) (m : Nat) (x : Mailbox) : (s.setMbox m x).trust.zeroised = s.trust.zeroised := by
  unfold State.setMbox Trust.setMbox; split <;> rfl
@[simp] theorem State.setMbox_trust_pending (s : State) (m : Nat) (x : Mailbox) :
    (s.setMbox m x).trust.pending = s.trust.pending := by
  unfold State.setMbox Trust.setMbox; split <;> rfl

/-- A request ends in the saggar's state only. -/
theorem State.mboxEnd_frame (s : State) (m : Nat) (st : Status) (resp : List Byte) :
    s.mboxEnd m st resp = { s with trust := (s.mboxEnd m st resp).trust } := rfl

/-- The end of a request whose mailbox draws a new nonce. -/
theorem State.renewed_frame (s : State) (m : Nat) (st : Status) :
    (s.newNonce m).mboxEnd m st = { s with trust := ((s.newNonce m).mboxEnd m st).trust, freeCtr := s.freeCtr + 1 } := rfl

@[simp] theorem State.renewed_zeroised (s : State) (m : Nat) (st : Status) :
    ((s.newNonce m).mboxEnd m st).trust.zeroised = s.trust.zeroised := by
  unfold State.mboxEnd State.newNonce; simp
@[simp] theorem State.renewed_trust_pending (s : State) (m : Nat) (st : Status) :
    ((s.newNonce m).mboxEnd m st).trust.pending = s.trust.pending := by
  unfold State.mboxEnd State.newNonce; simp
theorem State.renewed_quoin (s : State) (m : Nat) (st : Status) :
    ((s.newNonce m).mboxEnd m st).trust.quoin = s.trust.quoin := by
  rw [State.mboxEnd_quoin, State.newNonce_quoin]

/-- A request that is under way stands in one of the two mailboxes. -/
theorem State.getNonce_serves {s : State} {m : Nat} (h : s.mboxServes m 0x01 = true) (hl : (s.mbox m).length = 0) :
    s.getNonce m = s.mboxEnd m 0 (leBytes 48 (s.mbox m).nonce.toNat) := by
  rw [State.getNonce, if_pos h, hl]; rfl

theorem State.getIdentity_serves {s : State} {m : Nat} (h : s.mboxServes m 0x02 = true) (hl : (s.mbox m).length = 0) :
    s.getIdentity m = s.mboxEnd m 0 (publicPoint s.trustKept.ik ++ s.trustKept.cert) := by
  rw [State.getIdentity, if_pos h, hl]; rfl

theorem State.attest_zeroised {s : State} {m : Nat} (d : SignDraws) (h : s.mboxServes m 0x03 = true)
    (hz : s.trust.zeroised = true) : s.attest m d = s.mboxEnd m 0x0F08 := by
  rw [State.attest, if_pos h, if_pos hz]

theorem State.attest_blank {s : State} {m : Nat} (d : SignDraws) (h : s.mboxServes m 0x03 = true)
    (hz : s.trust.zeroised = false) (hb : s.lc = .blank) : s.attest m d = s.mboxEnd m 0x0F03 := by
  rw [State.attest, if_pos h, hz, hb]; rfl

theorem State.attest_report {s : State} {m : Nat} (d : SignDraws) (h : s.mboxServes m 0x03 = true)
    (hl : (s.mbox m).length = 48) (hz : s.trust.zeroised = false) (hp : s.trust.pending = false) (hb : s.lc ≠ .blank) :
    let v := s.issueSeq.2
    let body := v.attestBody s.issueSeq.1 (signK d.ak) (slice (v.mbox m).buf 0 48)
    s.attest m d = v.mboxEnd m 0 (body ++ makeTrailer v.attestKey (signK d.report) (digest8 (publicPoint v.attestKey)) body) := by
  have hs : (s.lc == LcState.blank || s.trust.pending) = false := by rw [hp, Bool.or_false, beq_eq_false_iff_ne]; exact hb
  rw [State.attest, if_pos h, hz, if_neg Bool.false_ne_true, hs, if_neg Bool.false_ne_true, hl]
  rfl

/-- Settles O11, by the branches of each command that carries no signature. -/
theorem unsignedMailboxCommands : Obligations.UnsignedMailboxCommands := by
  unfold Obligations.UnsignedMailboxCommands
  refine ⟨fun s m st resp hm => ?_, fun s m h hl => ?_, fun s m h hl => ?_, fun s m d h hl hz hp hb => ?_,
    fun s m d h => ⟨fun hz => ?_, fun hz hb => ?_⟩, fun s => ⟨rfl, fun key hk => ?_⟩, fun s m key h hl => ?_⟩
  · have hs := State.mbox_setMbox_same s m { s.mbox m with
      busy := false, done := true, status := st, rlen := resp.length, buf := resp ++ (s.mbox m).buf.drop resp.length }
    simp only [State.mboxEnd, hs, State.mbox_setMbox_other s hm, true_and]
    rfl
  · rw [exec_getNonce, State.getNonce_serves h hl]
  · rw [exec_getIdentity, State.getIdentity_serves h hl]
  · exact congrArg _ (State.attest_report d h hl hz hp hb)
  · rw [exec_attest, State.attest_zeroised d h hz]
  · rw [exec_attest, State.attest_blank d h hz hb]
  · rw [exec_zeroise, State.zeroiseCmd, if_neg hk]
  · rw [exec_zeroise, State.zeroiseCmd, if_pos h, hl]
    rfl


/-! Signed requests (R564, R565). -/

section Signed

variable {s : State} {m op : Nat} {f : List Byte → State → State}

theorem State.signed_refused (ok : Bool) (h : s.mboxServes m op = true) (hc : s.sagCheck m op ≠ 0) :
    s.signed m op ok f = s.sagRefuse m (s.sagCheck m op) := by
  simp only [State.signed, if_pos h, if_pos hc]

theorem State.signed_unrecorded (h : s.mboxServes m op = true) (hc : s.sagCheck m op = 0) :
    s.signed m op false f = (s.sagRefuse m 0x0F0A).log 0x0F0A sagBase := by
  simp only [State.signed, if_pos h, hc, ne_eq, not_true_eq_false, if_false, Bool.not_false, if_true]

theorem State.signed_runs (h : s.mboxServes m op = true) (hc : s.sagCheck m op = 0) :
    s.signed m op true f = ((f (s.sagBody m) s).newNonce m).mboxEnd m 0 := by
  simp only [State.signed, if_pos h, hc, ne_eq, not_true_eq_false, if_false, Bool.not_true, Bool.false_eq_true]

end Signed

theorem State.debugUnlock_named (s : State) (m : Nat) : s.debugUnlock m (leField (s.sagBody m) 0 1) =
    s.signed m 0x15 true (fun _ t =>
      let t := if t.lc == .deployed then t.zeroiseKeys else t
      { t with trust := { t.trust with debug := max t.trust.debug (leField (s.sagBody m) 0 1), debugUsed := true } }) :=
  if_pos rfl

/-! The order of the checks (R565). -/

/-- The request in a mailbox is laid out as R564 says. -/
def State.sagFormed (s : State) (m op : Nat) : Prop :=
  let b := (s.mbox m).buf
  let bl := leField b 0x48 4
  leField b 0 4 = 0x53524551 ∧ leField b 4 2 = 1 ∧ leField b 6 1 = op ∧ leField b 7 1 = 0 ∧ leField b 0x4C 4 = 0 ∧
    bl = sagBodyLen op (slice b 80 bl) ∧ (s.mbox m).length = 208 + bl ∧ sagBodyOk op (slice b 80 bl) = true

/-- It names this part and holds the mailbox's nonce. -/
def State.sagFresh (s : State) (m : Nat) : Prop :=
  leField (s.mbox m).buf 8 16 = s.trustKept.uid.toNat ∧ leField (s.mbox m).buf 0x18 48 = (s.mbox m).nonce.toNat

/-- The KEY_ID of the request in a mailbox. -/
def State.sagKid (s : State) (m : Nat) : Nat := leField (s.mbox m).buf (80 + leField (s.mbox m).buf 0x48 4 + 8) 8

section Checks

variable {s : State} {m op : Nat}

theorem State.sagCheck_ill_formed (h : ¬ s.sagFormed m op) : s.sagCheck m op = 0x0F0D := by
  refine if_pos ?_
  simp only [State.sagFormed, not_and_or] at h
  simpa only [Bool.not_eq_true', Bool.not_eq_true] using h

theorem State.sagCheck_formed (h : s.sagFormed m op) : s.sagCheck m op =
    if leField (s.mbox m).buf 8 16 ≠ s.trustKept.uid.toNat ∨ leField (s.mbox m).buf 0x18 48 ≠ (s.mbox m).nonce.toNat then 0x0F04
    else match s.sagKey op (s.sagKid m) (s.sagBody m) with
      | none => 0x0F06
      | some q =>
        if !trailerVerifies (slice (s.mbox m).buf 0 (208 + leField (s.mbox m).buf 0x48 4)) (s.sagKid m) q then 0x0F02
        else if !s.sagStateOk op (s.sagBody m) then 0x0F03
        else if (match sagQuoin op with | some q => s.quoinSet q | none => false) then 0x0F01
        else if (match sagPoint op (s.sagBody m) with | some q => (pointOf q).isNone | none => false) then 0x0F0B
        else s.sagRoom op (s.sagBody m) := by
  refine if_neg ?_
  obtain ⟨h0, h1, h2, h3, h4, h5, h6, h7⟩ := h
  simp only [not_or, ne_eq, not_not, Bool.not_eq_true', Bool.not_eq_false]
  exact ⟨h0, h1, h2, h3, h4, h5, h6, h7⟩

theorem State.sagCheck_stale (h : s.sagFormed m op) (hf : ¬ s.sagFresh m) : s.sagCheck m op = 0x0F04 := by
  rw [State.sagCheck_formed h, if_pos (not_and_or.mp hf)]

theorem State.sagCheck_other_key (h : s.sagFormed m op) (hf : s.sagFresh m)
    (hk : s.sagKey op (s.sagKid m) (s.sagBody m) = none) : s.sagCheck m op = 0x0F06 := by
  rw [State.sagCheck_formed h, if_neg (fun hn => hn.elim (· hf.1) (· hf.2)), hk]

theorem State.sagCheck_unverified (h : s.sagFormed m op) (hf : s.sagFresh m) {q : List Byte}
    (hk : s.sagKey op (s.sagKid m) (s.sagBody m) = some q)
    (hv : trailerVerifies (slice (s.mbox m).buf 0 (208 + leField (s.mbox m).buf 0x48 4)) (s.sagKid m) q = false) :
    s.sagCheck m op = 0x0F02 := by
  rw [State.sagCheck_formed h, if_neg (fun hn => hn.elim (· hf.1) (· hf.2)), hk]
  simp only [hv, Bool.not_false, if_true]

end Checks

/-! LC_TRANSITION (R572, R573, R574). -/

/-- What a transition that raises the owner epoch leaves before its mailbox is answered. -/
def State.handedOver (s : State) (m : Nat) : State :=
  let t := (State.cryptoEraseAll { s with trust := { s.trust with pending := true } }).mediaHandover
  let root : OwnerKey := { keyId := digest8 (slice (s.sagBody m) 4 97), point := slice (s.sagBody m) 4 97 }
  (State.zeroiseKeys { t with trustKept := { t.trustKept with
    lcSlots := t.trustKept.lcSlots ++ [.provisioned], ownerEpoch := t.trustKept.ownerEpoch + 1,
    keys := some root :: List.replicate 15 none, pairs := [] } }).requestReset 2

theorem State.lcTransition_handsOver {s : State} {m : Nat} (h : s.mboxServes m 0x10 = true) (hc : s.sagCheck m 0x10 = 0)
    (hd : leField (s.sagBody m) 1 1 = 1) (hl : s.lc = .blank ∨ s.lc = .returned) :
    s.lcTransition m true = ((s.handedOver m).newNonce m).mboxEnd m 0 := by
  have hr : (LcState.provisioned == LcState.provisioned && (s.lc == .blank || s.lc == .returned)) = true := by
    rcases hl with hl | hl <;> rw [hl] <;> rfl
  unfold State.lcTransition
  rw [hd]
  exact (State.signed_runs h hc).trans (by simp only [hd, LcState.ofCode, Option.getD_some, hr, if_true]; rfl)

/-- What a transition to Deployed leaves before its mailbox is answered. -/
def State.deployed (s : State) : State :=
  (State.zeroiseKeys { s with
    trust := { s.trust with pending := true },
    trustKept := { s.trustKept with lcSlots := s.trustKept.lcSlots ++ [.deployed] } }).requestReset 2

theorem State.lcTransition_deploys {s : State} {m : Nat} (ok : Bool) (h : s.mboxServes m 0x10 = true)
    (hc : s.sagCheck m 0x10 = 0) (hd : leField (s.sagBody m) 1 1 = 2) :
    s.lcTransition m ok = (s.deployed.newNonce m).mboxEnd m 0 := by
  unfold State.lcTransition
  rw [hd]
  have hk : (ok || !(LcState.ofCode 2 != some .deployed)) = true := Bool.or_true ok
  simp only [hk]
  exact (State.signed_runs h hc).trans (by simp only [hd]; rfl)

/-- Settles O12: a request whose checks pass runs its effect, and its mailbox is renewed. -/
theorem signedRequestsTakeEffect : Obligations.SignedRequestsTakeEffect := by
  unfold Obligations.SignedRequestsTakeEffect
  refine ⟨fun s m h hc => ?_, fun s m h hc => ?_, fun s m h hc => ?_, fun s m h hc => ?_, fun s m h hc hl => ?_,
    fun s m h hc hl => ?_, fun s m h hc hd hl => ?_, fun s m ok h hc hd => ?_⟩
  · rw [exec_installKey, State.installKey, State.signed_runs h hc]
  · rw [exec_removeKey, State.removeKey, State.signed_runs h hc]
  · rw [exec_pair, State.pair, State.signed_runs h hc]
  · rw [exec_unpair, State.unpair, State.signed_runs h hc]
  · rw [exec_debugUnlock, State.debugUnlock_named, State.signed_runs h hc, beq_false_of_ne hl]
    rfl
  · rw [exec_debugUnlock, State.debugUnlock_named, State.signed_runs h hc, hl]
    rfl
  · refine ⟨_, (exec_lcTransition m true s).trans (congrArg _ (State.lcTransition_handsOver h hc hd hl)), ?_⟩
    beta_reduce
    rw [State.renewed_trust_pending, State.renewed_zeroised, State.renewed_quoin, State.renewed_frame]
    obtain ⟨kb, nk, md, nd, ev, fc, he⟩ := State.cryptoEraseAll_keeps { s with trust := { s.trust with pending := true } }
    rw [State.handedOver, he]
    exact ⟨rfl, rfl, rfl, rfl, rfl, rfl, rfl, rfl, rfl, rfl, rfl, rfl, rfl, (List.append_assoc ..)⟩
  · refine ⟨_, (exec_lcTransition m ok s).trans (congrArg _ (State.lcTransition_deploys ok h hc hd)), ?_⟩
    beta_reduce
    rw [State.renewed_trust_pending, State.renewed_zeroised, State.renewed_quoin, State.renewed_frame]
    exact ⟨rfl, List.getLastD_concat .., rfl, rfl, rfl, rfl, rfl, List.append_assoc .., rfl⟩

/-- Settles O13, by the order of the checks and what a refusal writes. -/
theorem signedRequestsRefused : Obligations.SignedRequestsRefused := by
  unfold Obligations.SignedRequestsRefused
  refine ⟨fun s m ok => ⟨?_, ?_, ?_, ?_, ?_, ?_⟩, fun s m st hm => ?_, fun s m op => ?_, fun s m h hc => ?_⟩
  · intro h hc; rw [exec_lcTransition, State.lcTransition, State.signed_refused _ h hc]
  · intro h hc; rw [exec_installKey, State.installKey, State.signed_refused _ h hc]
  · intro h hc; rw [exec_removeKey, State.removeKey, State.signed_refused _ h hc]
  · intro h hc; rw [exec_pair, State.pair, State.signed_refused _ h hc]
  · intro h hc; rw [exec_unpair, State.unpair, State.signed_refused _ h hc]
  · intro h hc; rw [exec_debugUnlock, State.debugUnlock_named, State.signed_refused _ h hc]
  · refine ⟨?_, ?_, ?_, ?_, ?_⟩
    · simp [State.sagRefuse, State.mboxEnd]
    · simp [State.sagRefuse, State.mboxEnd]
    · exact State.renewed_quoin s m st
    · simp [State.sagRefuse, State.mboxEnd, State.newNonce, State.takeFree]
    · exact State.renewed_frame s m st
  · exact ⟨fun h => State.sagCheck_ill_formed h, fun h hf => State.sagCheck_stale h hf,
      fun h hf hk => State.sagCheck_other_key h hf hk, fun h hf q hk hv => State.sagCheck_unverified h hf hk hv⟩
  · rw [exec_installKey, State.installKey, State.signed_unrecorded h hc]

/-- Settles O14, by the bits of an OR and the two states of Gnoz time. -/
theorem quoinBitsAndTimeFloor : Obligations.QuoinBitsAndTimeFloor := by
  unfold Obligations.QuoinBitsAndTimeFloor
  refine ⟨fun s hi v => ⟨_, exec_quoinSet hi v s, rfl, fun i hi64 => ?_⟩, fun s h => ?_, fun s h => ?_⟩
  · have hb : (s.quoinSetWrite hi v).trust.quoin.getLsbD i = (s.trust.quoin.getLsbD i ||
        (if hi then v.setWidth 64 <<< 32 else v.setWidth 64 : BitVec 64).getLsbD i) := BitVec.getLsbD_or
    rw [hb]
    cases hi
    · simp [hi64]
    · by_cases h32 : i < 32
      · simp [h32, Nat.not_le.mpr h32]
      · simp [hi64, h32, Nat.not_lt.mp h32]
  · rw [exec_timeFloorUpdate, State.timeFloorUpdate, if_pos h]
  · rw [exec_timeFloorUpdate, State.timeFloorUpdate, if_neg (ne_true_of_eq_false h)]

end Sys2Proof.Machine

namespace Sys2Proof.Machine

/-! ### Power states and the watchdog

What these commands mean: each runs the state function of its instruction. -/

theorem exec_idleRequest (s : State) : exec .idleRequest s = .next s.idleRequest := rfl
theorem exec_idleEntered (s : State) : exec .idleEntered s = .next s.idleEntered := rfl
theorem exec_offRequest (key : Nat) (s : State) : exec (.offRequest key) s = .next (s.offRequest key) := rfl
theorem exec_offFlushDone (s : State) : exec .offFlushDone s = .next s.offFlushDone := rfl
theorem exec_wakeEvent (c : WakeCause) (s : State) : exec (.wakeEvent c) s = .next (s.wakeEvent c) := rfl
theorem exec_wakeComplete (s : State) : exec .wakeComplete s = .next s.wakeComplete := rfl
theorem exec_regionDoze (r : Nat) (s : State) : exec (.regionDoze r) s = .next (s.regionDoze r) := rfl
theorem exec_regionWakeDone (r : Nat) (s : State) : exec (.regionWakeDone r) s = .next (s.regionWakeDone r) := rfl
theorem exec_wdtExpiry (s : State) : exec .wdtExpiry s = .next s.wdtExpiry := rfl
theorem exec_wdtKick (key : Word) (s : State) : exec (.wdtKick key) s = .next (s.wdtKick key) := rfl

/-! The watchdog (R629). -/

theorem State.wdtExpiry_warns {s : State} {d : Nat} (h : s.power.wdtDeadline = some d) (hw : s.power.wdtWarned = false) :
    s.wdtExpiry = State.log { s with now := max s.now d, power := { s.power with
      wdtWarned := true, wdtDeadline := some (max s.now d + s.regFld regAonWdtCfg 16 16 * 1000000) } } 0x1010 aonBase := by
  unfold State.wdtExpiry
  rw [h]
  simp only [State.advance_power, hw, Bool.false_eq_true, if_false]
  rfl

theorem State.wdtExpiry_requests {s : State} {d : Nat} (h : s.power.wdtDeadline = some d) (hw : s.power.wdtWarned = true) :
    s.wdtExpiry = { (s.advance d).requestReset 1 with power := { s.power with
      wdtDeadline := some (max s.now d + s.regFld regAonWdtCfg 16 16 * 1000000) } } := by
  unfold State.wdtExpiry
  rw [h]
  simp only [State.advance_power, hw, if_true]
  rfl

/-- Settles O17, by the two expiries and the key. -/
theorem watchdogExpires : Obligations.WatchdogExpires := by
  unfold Obligations.WatchdogExpires
  refine ⟨fun s d h hw => ?_, fun s d h hw => ?_, fun s => ?_⟩
  · rw [exec_wdtExpiry, State.wdtExpiry_warns h hw]
  · refine ⟨_, (exec_wdtExpiry s).trans (congrArg _ (State.wdtExpiry_requests h hw)), rfl, List.append_assoc .., rfl, rfl⟩
  · refine ⟨_, exec_wdtKick _ s, ?_⟩
    rw [State.wdtKick, if_pos rfl]
    simp only
    split <;> rfl

/-! The causes that refuse Idle and Off, in their order (R622, R626). -/

section Blocker

variable {s : State}

theorem State.idleBlocker_run (g : Bool) (h : s.mgr.runs.any (fun r => r.state != .free) = true) : s.idleBlocker g = some 1 := by
  rw [State.idleBlocker, if_pos h]

theorem State.idleBlocker_stream (g : Bool) (hr : s.mgr.runs.any (fun r => r.state != .free) = false)
    (h : s.streamEng.ctxs ≠ []) : s.idleBlocker g = some 2 := by
  have hs : (!s.streamEng.ctxs.isEmpty || !s.text.gens.isEmpty) = true := by
    rw [List.isEmpty_eq_false_iff.mpr h]; rfl
  rw [State.idleBlocker, hr, if_neg Bool.false_ne_true, if_pos hs]

/-- Without runs, streams, generation contexts and a sanitize, a group refuses Idle, and Off only waits for the queues. -/
theorem State.idleBlocker_quiet (g : Bool) (hr : s.mgr.runs = []) (hc : s.streamEng.ctxs = []) (hg : s.text.gens = [])
    (hz : s.media.sanitize = none) : s.idleBlocker g =
      if g && s.regFld grpBase 0 1 == 1 then some 4 else if s.queuesBusy then some 5 else none := by
  unfold State.idleBlocker
  rw [hr, hc, hg, hz]
  rfl

end Blocker

theorem State.idleRequest_run {s : State} (h : s.power.state = .run) : s.idleRequest =
    match s.idleBlocker true with
    | some d => s.powerRefused d
    | none => { s with power := { s.power with state := .enteringIdle } } := by
  rw [State.idleRequest, h, if_neg (by decide)] <;> rfl

theorem State.offRequest_keyed {s : State} (h : s.power.offPending = false) : s.offRequest 0x4F46 =
    match s.idleBlocker false with
    | some d => s.powerRefused d
    | none => { s with power := { s.power with offPending := true } } := by
  rw [State.offRequest, if_neg (by decide), h, if_neg Bool.false_ne_true] <;> rfl

/-- A wake counts: it is no probe of a watchdog that is off. -/
theorem State.wakeEvent_counts {s : State} {c : WakeCause} (h : c ≠ .watchdogProbe ∨ s.regFld regAonWdtCfg 0 2 ≠ 0) :
    (c == .watchdogProbe && s.regFld regAonWdtCfg 0 2 == 0) = false := by
  simpa only [Bool.and_eq_false_iff, beq_eq_false_iff_ne] using h

theorem State.regionDoze_idle {s : State} {r : Nat} (ha : s.regionActive r = true) (ho : s.regionOwner r = none)
    (hd : s.power.doze.getLsbD r = false) :
    let u := (s.advance (s.dozeAt r)).zeroRegion r
    s.regionDoze r = { u with power := { u.power with
      doze := setBit u.power.doze r true, pllLock := setBit u.power.pllLock r false } } := by
  unfold State.regionDoze
  rw [ha, ho, hd]
  rfl

/-- Settles O16, by the branches of each command and the order of the causes. -/
theorem powerStatesChange : Obligations.PowerStatesChange := by
  unfold Obligations.PowerStatesChange
  refine ⟨fun s d h hb => ?_, fun s h hb => ?_, fun s => ⟨fun h => ?_, fun hr h => ?_, fun hr hc hg hz hon => ⟨?_, ?_⟩⟩,
    fun s h => ?_, fun s key => ⟨fun hk => ?_, fun d h hb => ?_, fun h hb => ?_⟩, fun s h hm => ?_,
    fun s c hc => ⟨fun h => ?_, fun h => ?_⟩, fun s h => ?_, fun s r ha ho hd => ?_, fun s r h => ?_⟩
  · rw [exec_idleRequest, State.idleRequest_run h, hb]; rfl
  · rw [exec_idleRequest, State.idleRequest_run h, hb]
  · exact State.idleBlocker_run true h
  · exact State.idleBlocker_stream true hr h
  · rw [State.idleBlocker_quiet true hr hc hg hz, hon]; rfl
  · rw [State.idleBlocker_quiet false hr hc hg hz]
    rw [Bool.false_and, if_neg Bool.false_ne_true]
    cases s.queuesBusy <;> decide
  · rw [exec_idleEntered, State.idleEntered, h, if_neg (by decide)]
  · rw [exec_offRequest, State.offRequest, if_pos (bne_iff_ne.mpr hk)]
  · rw [exec_offRequest, State.offRequest_keyed h, hb]; rfl
  · rw [exec_offRequest, State.offRequest_keyed h, hb]
  · rw [exec_offFlushDone, State.offFlushDone, h, hm]; rfl
  · rw [exec_wakeEvent, State.wakeEvent, State.wakeEvent_counts hc, if_neg Bool.false_ne_true, h]
  · rw [exec_wakeEvent, State.wakeEvent, State.wakeEvent_counts hc, if_neg Bool.false_ne_true, h]
  · rw [exec_wakeComplete, State.wakeComplete, h]; rfl
  · rw [exec_regionDoze, State.regionDoze_idle ha ho hd]
  · rw [exec_regionWakeDone, State.regionWakeDone, if_pos h]

end Sys2Proof.Machine


-- Package reset, power loss and the reset sequence: what each keeps, and where the sequence ends.
namespace Sys2Proof.Machine

/-! ### Package reset and power loss (O20) -/

theorem exec_resetNAssert (s : State) (ns pages : Nat) (refclk done : Bool) :
    exec (.resetNAssert ns refclk ⟨done, pages⟩) s = .next (s.resetN ns refclk done pages) := rfl

theorem exec_powerOn (s : State) (a : Nat) : exec (.powerOn a) s = .next (s.powerOn a) := rfl

theorem exec_powerLoss (s : State) (vbat done : Bool) (pages : Nat) :
    exec (.powerLoss vbat ⟨done, pages⟩) s = .next (s.powerLoss vbat done pages) := rfl

/-- A flush or a loss touches the media, what the NAND holds, and the event numbers. -/
def SameButMedia (s t : State) : Prop := ∃ md nd ev, t = { s with media := md, nand := nd, evt := ev }

theorem SameButMedia.trans {s t u : State} (h : SameButMedia s t) (k : SameButMedia t u) : SameButMedia s u := by
  obtain ⟨_, _, _, rfl⟩ := h
  obtain ⟨_, _, _, rfl⟩ := k
  exact ⟨_, _, _, rfl⟩

theorem State.healthBump_sameButMedia (s : State) (i n : Nat) : SameButMedia s (s.healthBump i n) := by
  obtain ⟨h, o, e⟩ := s.healthBump_frame i n
  exact ⟨_, _, _, e⟩

theorem State.writeAnchor_sameButMedia (s : State) (f : Bool) : SameButMedia s (s.writeAnchor f) := by
  obtain ⟨a0, a1, c, e⟩ := s.writeAnchor_frame f
  exact ⟨_, _, _, e⟩

theorem State.gaspProgram_sameButMedia (s : State) (n : Nat) : SameButMedia s (s.gaspProgram n) :=
  ite_holds ⟨_, _, _, rfl⟩ (.trans ⟨_, _, _, rfl⟩ (State.healthBump_sameButMedia _ _ _))

theorem State.lastGaspFinish_sameButMedia (s : State) (us : Nat) : SameButMedia s (s.lastGaspFinish us) :=
  have hp := (s.healthBump_sameButMedia 12 1).trans (State.gaspProgram_sameButMedia _ s.lgSequence.length)
  (hp.trans ⟨_, _, _, rfl⟩).trans (State.writeAnchor_sameButMedia _ true)

theorem State.notePages_sameButMedia (s : State) : SameButMedia s s.notePages :=
  ite_holds ⟨_, _, _, rfl⟩ ⟨_, _, _, rfl⟩

theorem State.loseVolatile_sameButMedia (s : State) : SameButMedia s s.loseVolatile := ⟨_, _, _, rfl⟩

theorem State.resetFlush_sameButMedia (s : State) (done : Bool) (pages : Nat) : SameButMedia s (s.resetFlush done pages) :=
  ite_holds s.notePages_sameButMedia
    (ite_holds ((s.lastGaspFinish_sameButMedia 0).trans (State.notePages_sameButMedia _))
      (((s.gaspProgram_sameButMedia pages).trans (State.notePages_sameButMedia _)).trans (State.loseVolatile_sameButMedia _)))

/-- An accepted reset is `kept` with the count, the cause and the outputs changed. -/
theorem State.resetAccepted_eq (s : State) (p : Bool) : ∃ o, s.resetAccepted p = { s.kept with
    boot := { s.kept.boot with fromPowerOn := p },
    backup := { s.backup with resetCount := min (s.backup.resetCount + 1) (2 ^ 32 - 1), causePowerOn := p, causePin := !p },
    out := o } := by
  unfold State.resetAccepted
  cases s.pins.mainPwrEn
  · exact ⟨_, rfl⟩
  · exact ⟨_, rfl⟩

theorem State.resetN_accepted {s : State} {ns : Nat} (h : ns ≥ 10000) (hr : s.boot.resetHeld = false) (hp : s.boot.porHeld = false)
    (done : Bool) (pages : Nat) : s.resetN ns true done pages =
      let u := (s.resetFlush done pages).resetAccepted false
      { u with boot := { u.boot with refclkOk := true, phase := if s.media.lgDone then .reset else .flush } } := by
  have hlt : ¬ ns < 1000 := by omega
  unfold State.resetN
  simp [hr, hp, h, hlt]

theorem State.resetN_ignored {s : State} {ns : Nat} {refclk : Bool}
    (h : ns < 1000 ∨ refclk = false ∨ s.boot.resetHeld = true ∨ s.boot.porHeld = true) (done : Bool) (pages : Nat) :
    s.resetN ns refclk done pages = s := by
  apply if_pos
  rcases h with h | h | h | h <;> simp [h]

theorem State.powerLoss_idle {s : State} (h : s.media.lgActive = false) (vbat done : Bool) (pages : Nat) :
    s.powerLoss vbat done pages =
      let k := s.notePages.loseVolatile.kept
      let u := if vbat then k
        else { k with backup := { lost := true, osc := k.backup.osc }, evt := { k.evt with backup := none } }
      { u with boot := { u.boot with porHeld := true }, pins := { u.pins with mainPwrEn := false } } := by
  rw [State.powerLoss, h]
  rfl

/-- Settles O20: the flush touches the media alone, and `kept` names what a package reset keeps. -/
theorem packageResetIsAccepted : Obligations.PackageResetIsAccepted := by
  unfold Obligations.PackageResetIsAccepted
  refine ⟨fun s ns pages flushed h hr hp => ?_, fun s ns pages refclk flushed h => ?_, fun s smbAddr => ?_,
    fun s vbat done pages h => ?_⟩
  · refine ⟨_, exec_resetNAssert .., ?_⟩
    obtain ⟨md, nd, ev, hf⟩ := s.resetFlush_sameButMedia flushed pages
    obtain ⟨o, ha⟩ := (s.resetFlush flushed pages).resetAccepted_eq false
    rw [State.resetN_accepted h hr hp, ha, hf]
    simp [State.kept]
  · rw [exec_resetNAssert, State.resetN_ignored h]
  · refine ⟨_, exec_powerOn .., ?_⟩
    obtain ⟨md, nd, ev, hf⟩ := s.notePages_sameButMedia.trans s.notePages.loseVolatile_sameButMedia
    obtain ⟨o, ha⟩ := s.notePages.loseVolatile.resetAccepted_eq true
    rw [State.powerOn, ha, hf]
    simp [State.kept]
  · refine ⟨_, exec_powerLoss .., ?_⟩
    obtain ⟨md, nd, ev, hf⟩ := s.notePages_sameButMedia.trans s.notePages.loseVolatile_sameButMedia
    rw [State.powerLoss_idle h, hf]
    cases vbat <;> simp [State.kept]

/-! ### The reset sequence (O21) -/

theorem exec_resetRelease (s : State) (b : BootInputs) : exec (.resetRelease b) s = .next (s.resetRelease b) := rfl

/-- A step that the sequence reaches enters its phase. -/
theorem State.bootStep_reached {i : BootInputs} {p : BootPhase} (h : p.rank ≤ i.reach.rank) (s : State) (f : State → State) :
    s.bootStep i p f = f { s with boot := { s.boot with phase := p } } := if_pos h

theorem State.bootStep_cut {i : BootInputs} {p : BootPhase} (h : ¬ p.rank ≤ i.reach.rank) (s : State) (f : State → State) :
    s.bootStep i p f = s := if_neg h

/-- A sequence that is not cut off ends at READY, whatever its steps found. -/
theorem State.bootFinished_ready {i : BootInputs} (h : i.reach = .ready) (s : State) (pick : Option (Bool × List Bool)) :
    (s.bootFinished i pick).ready = true := by
  have hr : BootPhase.ready.rank ≤ i.reach.rank := by rw [h]
  rw [State.bootFinished, State.bootStep_reached hr]
  rfl

theorem State.resetRelease_cutAtTrim {s : State} {i : BootInputs} (hr : s.boot.resetHeld = true) (hp : s.boot.porHeld = false)
    (ht : i.trim = 1) (hc : i.reach = .trim) : s.resetRelease i =
      State.loadFuses { s with boot := { s.boot with resetHeld := false, phase := .trim, trimTries := 1 } } i := by
  have late : ∀ p : BootPhase, 2 < p.rank → ¬ p.rank ≤ i.reach.rank := fun p hlt => by
    rw [hc]
    exact Nat.not_le.mpr hlt
  rw [s.resetRelease_loaded i (by rw [hr, hp]; rfl) (by rw [ht]; decide), State.bootFinished,
    State.bootStep_cut (late .ready (by decide)), State.bootStep_cut (late .apply (by decide)),
    State.bootStep_cut (late .rebuild (by decide)), State.bootWiped, if_neg (late .wipe (by decide)), State.bootTrained,
    State.bootStep_cut (late .training (by decide)), State.bootStep_cut (late .links (by decide)),
    State.bootStep_cut (late .clocks (by decide)), ht]
  rfl

/-- The fused MAC addresses enter registers and nothing else. -/
theorem State.loadMacs_frame (s : State) (p : Nat) (ms : List (BitVec 48)) : ∃ rg, s.loadMacs p ms = { s with regs := rg } := by
  induction ms generalizing s p with
  | nil => exact ⟨s.regs, rfl⟩
  | cons m rest ih =>
    obtain ⟨rg, h⟩ := ih ((s.setReg (gnzPort p 0) (m.setWidth 32)).setReg (gnzPort p 4) ((m >>> 32).setWidth 32)) (p + 1)
    exact ⟨rg, h⟩

/-- Trim load with a well-formed operand shows what the fuses hold. -/
theorem State.loadFuses_eq {i : BootInputs} (h : i.fuses.wf = true) (s : State) : s.loadFuses i =
    let f := s.fuseArray.getD i.fuses
    ({ s with fuseArray := some f, fuses := f }).loadMacs 0 (f.macs.take 64) := by
  rw [State.loadFuses, h, if_pos rfl]

/-- The event-number ceiling of the media: that of the current anchor record, else of a handover record (R684). -/
def State.mediaCeiling (s : State) (i : BootInputs) : Option Nat :=
  match (s.nand.readAnchors i).current with
  | some a => some a.ceiling
  | none => s.nand.handover.map (·.ceiling)

/-- With no record held, step 9 leaves the log's entries and takes the numbering from the ceilings. -/
theorem State.resumeNumbers_unheld {s : State} (h : s.errlog.held = []) (i : BootInputs) : s.resumeNumbers i =
    let anc := s.mediaCeiling i
    let e : EventSeq := { s.evt with next := max 1 (max (s.evt.backup.getD 0) (anc.getD 0)), anchor := anc }
    { s with evt := e.raise, boot := { s.boot with phase := .rebuild }, errlog := { s.errlog with held := [] } } := by
  unfold State.resumeNumbers State.releaseHeldLog
  simp only [h, List.foldl_nil]
  rfl

/-- The record of a link that did not train, when there is one to make. -/
def State.logUntrained (s : State) (ok : Bool) (l : Nat) : State := if ok then s else s.log 0x1001 aonBase l

theorem State.logUntrained_frame (s : State) (ok : Bool) (l : Nat) :
    ∃ er ev rg nd, s.logUntrained ok l = { s with errlog := er, evt := ev, regs := rg, nand := nd } := by
  cases ok
  · obtain ⟨ev, er, rg, a0, a1, h⟩ := s.logEntry_frame
      { seq := 0, status := 0x1001, block := aonBase / 2 ^ 16, info0 := l, info1 := 0, info2 := 0, detail := 0, nsid := 0 }
    exact ⟨er, ev, rg, _, h⟩
  · exact ⟨_, _, _, _, rfl⟩

/-- The state of a die link after its training at reset (R584 step 5). -/
def trainedLink (ok : Bool) : LinkState := { state := if ok then 0 else 2 }

theorem State.bootLinks_frame (s : State) (i : BootInputs) : ∃ er ev rg nd, s.bootLinks i = { s with
    links := { s.links with fm := trainedLink i.fm, fn := trainedLink i.fn, mn := trainedLink i.mn },
    power := { s.power with alignPending := true }, errlog := er, evt := ev, regs := rg, nand := nd } := by
  let s1 : State := { s with
    links := { s.links with fm := trainedLink i.fm, fn := trainedLink i.fn, mn := trainedLink i.mn },
    power := { s.power with alignPending := true } }
  have hs : s.bootLinks i = ((s1.logUntrained i.fm 0).logUntrained i.fn 1).logUntrained i.mn 2 := rfl
  obtain ⟨er, ev, rg, nd, h1⟩ := s1.logUntrained_frame i.fm 0
  obtain ⟨er2, ev2, rg2, nd2, h2⟩ := (s1.logUntrained i.fm 0).logUntrained_frame i.fn 1
  obtain ⟨er3, ev3, rg3, nd3, h3⟩ := ((s1.logUntrained i.fm 0).logUntrained i.fn 1).logUntrained_frame i.mn 2
  exact ⟨er3, ev3, rg3, nd3, by rw [hs, h3, h2, h1]⟩

/-- Settles O21, by the steps of the sequence that its input reaches. -/
theorem resetSequenceReachesReady : Obligations.ResetSequenceReachesReady := by
  unfold Obligations.ResetSequenceReachesReady
  refine ⟨fun s b hr hp ht hc => ?_, fun s b hr hp ht => ?_, fun s b hr hp ht hc => ?_, fun s b h => ?_, fun s b hw => ?_,
    fun s b h => ?_, fun s b => ?_⟩
  · refine ⟨_, exec_resetRelease .., ?_⟩
    rw [s.resetRelease_loaded b (by rw [hr, hp]; rfl) (by omega)]
    exact State.bootFinished_ready hc _ _
  · rw [exec_resetRelease, State.resetRelease, hr, hp, ht]
    rfl
  · rw [exec_resetRelease, State.resetRelease_cutAtTrim hr hp ht hc]
  · rw [exec_resetRelease, State.resetRelease, if_pos]
    rcases h with h | h <;> simp [h]
  · obtain ⟨rg, hf⟩ := State.loadMacs_frame { s with fuseArray := some (s.fuseArray.getD b.fuses), fuses := s.fuseArray.getD b.fuses } 0
      ((s.fuseArray.getD b.fuses).macs.take 64)
    refine ⟨?_, ?_, fun hm => ?_⟩
    · rw [State.loadFuses_eq hw, hf]
    · rw [State.loadFuses_eq hw, hf]
    · rw [State.loadFuses_eq hw]; dsimp only; rw [hm]; rfl
  · rw [State.resumeNumbers_unheld h]
    exact ⟨rfl, rfl, rfl, rfl, rfl⟩
  · obtain ⟨er, ev, rg, nd, h⟩ := s.bootLinks_frame b
    rw [h]
    exact ⟨rfl, rfl, rfl, rfl, rfl⟩

end Sys2Proof.Machine


-- The buffer pools, the shadow configuration, the policers and the egress scheduler (O59).
namespace Sys2Proof.Machine

/-! ### The choice of a pool -/

theorem exec_bufferRequest (s : State) (die port unit cls size idx : Nat) :
    exec (.bufferRequest die port unit cls size idx) s = .next (s.bufferRequest die port unit cls size idx) := rfl

/-- The home pool is the smallest one that holds the size (R496). -/
theorem homePool_spec {size : Nat} (h : size ≤ 2 ^ 23) :
    homePool size ≤ 15 ∧ size ≤ 256 * 2 ^ homePool size ∧ ∀ i, i < homePool size → 256 * 2 ^ i < size := by
  obtain ⟨q, hq⟩ : ∃ q, (List.range 16).find? (fun i => decide (size ≤ poolSize i)) = some q :=
    Option.isSome_iff_exists.mp (List.find?_isSome.mpr ⟨15, by decide, decide_eq_true h⟩)
  have hh : homePool size = q := by rw [homePool, hq]; rfl
  obtain ⟨hs, hlt, hmin⟩ := List.find?_range_eq_some.mp hq
  rw [hh]
  refine ⟨by have := List.mem_range.mp hlt; omega, of_decide_eq_true hs, fun i hi =>
    Nat.lt_of_not_le fun hle => absurd (hmin i hi) (by simp [show size ≤ poolSize i from hle])⟩

/-- The pools from `p` up, in order. -/
theorem mem_poolsFrom {p q : Nat} : q ∈ poolsFrom p ↔ q ≤ 15 ∧ p ≤ q := by
  simp only [poolsFrom, List.mem_filter, List.mem_range, decide_eq_true_eq]
  omega

theorem find?_filter_range {p : Nat → Bool} {n lo q : Nat} (hq : q < n) (hlo : lo ≤ q) (hp : p q = true)
    (hmin : ∀ i, lo ≤ i → i < q → p i = false) :
    ((List.range n).filter (fun i => decide (lo ≤ i))).find? p = some q := by
  rw [List.find?_filter, List.find?_range_eq_some]
  refine ⟨by simp [hlo, hp], List.mem_range.mpr hq, fun i hi => ?_⟩
  by_cases h : lo ≤ i
  · simp [hmin i h hi]
  · simp [h]

/-- The first pool from `p` up that grants is the one that R497 picks. -/
theorem State.poolPick_eq_some {s : State} {die p q c : Nat} (hp : p ≤ q) (hq : q ≤ 15) (hg : s.poolGrants die q c = true)
    (hmin : ∀ i, p ≤ i → i < q → s.poolGrants die i c = false) : s.poolPick die p c = some q :=
  find?_filter_range (by omega) hp hg hmin

theorem State.poolPick_eq_none {s : State} {die p c : Nat} (h : ∀ q, p ≤ q → q ≤ 15 → s.poolGrants die q c = false) :
    s.poolPick die p c = none := by
  rw [State.poolPick, List.find?_eq_none]
  intro q hq
  obtain ⟨hle, hp⟩ := mem_poolsFrom.mp hq
  simp [h q hp hle]

theorem State.poolGrants_iff (s : State) (die q c : Nat) : s.poolGrants die q c = true ↔ 0 < s.poolFree die q ∧
    (s.poolUsed die q c < s.poolReserve die q c ∨ s.poolOwed die q c < s.poolFree die q) := by
  simp only [State.poolGrants, Bool.and_eq_true, Bool.or_eq_true, decide_eq_true_eq, gt_iff_lt]

/-- A well-formed request is granted from the pool that R497 picks, waits, or is counted. -/
theorem State.bufferRequest_valid {s : State} {die cls size : Nat} (hd : die ≤ 1 ∧ cls ≤ 7) (hs : 1 ≤ size ∧ size ≤ 2 ^ 23)
    (port unit idx : Nat) : s.bufferRequest die port unit cls size idx =
      match s.poolPick die (homePool size) cls with
      | some q => s.poolGive die q (s.bufIndex die q idx) cls port unit (homePool size)
      | none =>
        if classWaits die cls then
          ({ s with pools := { s.pools with waits := s.pools.waits ++
            [{ die := die, port := port, unit := unit, cls := cls, home := homePool size }] } } : State).bump
              (poolReg die (homePool size) 0x28) (poolReg die (homePool size) 0x34) 2
        else s.noGrant die size := by
  have hbad : ¬(die > 1 ∨ cls > 7 ∨ size = 0 ∨ size > 2 ^ 23) := by omega
  exact if_neg hbad

theorem State.bufferRequest_granted {s : State} {die cls size q : Nat} (hd : die ≤ 1 ∧ cls ≤ 7) (hs : 1 ≤ size ∧ size ≤ 2 ^ 23)
    (hq : s.poolPick die (homePool size) cls = some q) (port unit idx : Nat) :
    let t := s.bufferRequest die port unit cls size idx
    t.pools.waits = s.pools.waits ∧ t.pools.bufs = s.pools.bufs ++
      [{ die := die, pool := q, index := s.bufIndex die q idx, cls := cls, port := port, unit := unit }] := by
  obtain ⟨w, rg, ev, el, nd, h⟩ := s.poolGive_frame die q (s.bufIndex die q idx) cls port unit (homePool size)
  rw [State.bufferRequest_valid hd hs, hq]
  dsimp only
  rw [h]
  exact ⟨rfl, rfl⟩

theorem State.bufferRequest_ungranted {s : State} {die cls size : Nat} (hd : die ≤ 1 ∧ cls ≤ 7) (hs : 1 ≤ size ∧ size ≤ 2 ^ 23)
    (hq : s.poolPick die (homePool size) cls = none) (port unit idx : Nat) : ∃ r,
    s.bufferRequest die port unit cls size idx = { s with regs := r, pools := { s.pools with
      waits := s.pools.waits ++ (if classWaits die cls then
        [{ die := die, port := port, unit := unit, cls := cls, home := homePool size }] else []) } } := by
  rw [State.bufferRequest_valid hd hs, hq]
  cases classWaits die cls
  · obtain ⟨r, h⟩ := s.bump_frame (poolReg die (homePool size) 0x2C) (poolReg die (homePool size) 0x34) 3
    exact ⟨r, by simpa [State.noGrant] using h⟩
  · exact State.bump_frame _ _ _ _

/-! ### Operations on a granted buffer -/

theorem exec_bufferFree (s : State) (h port unit : Nat) : exec (.bufferFree h port unit) s = .next (s.bufferFree h port unit) := rfl

theorem exec_bufferDrop (s : State) (h port unit : Nat) : exec (.bufferDrop h port unit) s = .next (s.bufferDrop h port unit) := rfl

theorem exec_bufferShare (s : State) (h port unit : Nat) (new : List (Nat × Nat)) :
    exec (.bufferShare h port unit new) s = .next (s.bufferShare h port unit new) := rfl

theorem exec_bufferHandover (s : State) (h port unit p u : Nat) :
    exec (.bufferHandover h port unit p u) s = .next (s.bufferHandover h port unit p u) := rfl

@[simp] theorem State.bufRefuse_pools (s : State) (st : Status) (h port unit : Nat) : (s.bufRefuse st h port unit).pools = s.pools := by
  rw [State.bufRefuse, State.log_pools]
  exact State.bumpBy_pools ..

/-- A drop takes one holder away. -/
theorem dropHolder_length {l : List (Nat × Nat)} (h : l ≠ []) (x : Nat × Nat) : (dropHolder l x).length + 1 = l.length := by
  have hpos := List.length_pos_iff.mpr h
  cases hc : l.contains x with
  | true =>
    rw [dropHolder, hc, if_pos rfl, List.length_erase_of_mem (List.contains_iff_mem.mp hc)]
    omega
  | false =>
    rw [dropHolder, hc, if_neg Bool.false_ne_true, List.length_drop]
    omega

section
variable {s : State} {h : Nat} {b : Buffer} (hb : s.bufAt h = some b)
include hb

theorem State.bufferFree_at (port unit : Nat) : s.bufferFree h port unit =
    if b.port ≠ port ∨ b.unit ≠ unit then s.bufRefuse 0x0D01 h port unit
    else if b.holders.isEmpty then s.poolReturn b
    else s.setBuf h (fun b => { b with freePending := true }) := by
  rw [State.bufferFree, hb]

theorem State.bufferHandover_at (port unit p u : Nat) : s.bufferHandover h port unit p u =
    if b.port ≠ port ∨ b.unit ≠ unit then s.bufRefuse 0x0D01 h port unit
    else s.setBuf h (fun b => { b with port := p, unit := u }) := by
  rw [State.bufferHandover, hb]

theorem State.bufferDrop_at (port unit : Nat) : s.bufferDrop h port unit =
    if b.holders.isEmpty then s.bufRefuse 0x0D03 h port unit
    else if (dropHolder b.holders (port, unit)).isEmpty && b.freePending then s.poolReturn b
    else s.setBuf h (fun x => { x with holders := dropHolder b.holders (port, unit) }) := by
  rw [State.bufferDrop, hb]

theorem State.bufferShare_at (port unit : Nat) (new : List (Nat × Nat)) : s.bufferShare h port unit new =
    if b.holders.length + new.length > 255 then s.bufRefuse 0x0D02 h port unit
    else s.setBuf h (fun b => { b with holders := b.holders ++ new }) := by
  rw [State.bufferShare, hb]

/-- A drop that leaves a reference, or a buffer whose FREE has not come, keeps the buffer. -/
theorem State.bufferDrop_kept {port unit : Nat} (hl : 2 ≤ b.holders.length ∨ b.holders.length = 1 ∧ b.freePending = false) :
    s.bufferDrop h port unit = s.setBuf h (fun x => { x with holders := dropHolder b.holders (port, unit) }) ∧
      (dropHolder b.holders (port, unit)).length + 1 = b.holders.length := by
  have hne : b.holders ≠ [] := by
    intro e
    rw [e] at hl
    simp at hl
  have hd := dropHolder_length hne (port, unit)
  refine ⟨?_, hd⟩
  rw [State.bufferDrop_at hb, if_neg (by simpa using hne), if_neg]
  rcases hl with hl | ⟨-, hf⟩
  · intro hc
    rw [Bool.and_eq_true, List.isEmpty_iff] at hc
    rw [hc.1] at hd
    simp only [List.length_nil] at hd
    omega
  · simp [hf]

end

section
variable {s : State} {h : Nat} (hb : s.bufAt h = none)
include hb

theorem State.bufferFree_absent (port unit : Nat) : s.bufferFree h port unit = s.bufRefuse 0x0D04 h port unit := by
  rw [State.bufferFree, hb]

theorem State.bufferHandover_absent (port unit p u : Nat) : s.bufferHandover h port unit p u = s.bufRefuse 0x0D04 h port unit := by
  rw [State.bufferHandover, hb]

theorem State.bufferDrop_absent (port unit : Nat) : s.bufferDrop h port unit = s.bufRefuse 0x0D04 h port unit := by
  rw [State.bufferDrop, hb]

theorem State.bufferShare_absent (port unit : Nat) (new : List (Nat × Nat)) :
    s.bufferShare h port unit new = s.bufRefuse 0x0D04 h port unit := by
  rw [State.bufferShare, hb]

end

/-- The state in which a buffer has left its pool, and nobody has been given it yet. -/
def State.buffersWithout (s : State) (b : Buffer) : State :=
  State.poolWarn { s with pools := { s.pools with
    bufs := s.pools.bufs.filter (fun x => !(x.die == b.die && x.pool == b.pool && x.index == b.index)) } } b.die b.pool

theorem State.buffersWithout_pools (s : State) (b : Buffer) : ∃ w, (s.buffersWithout b).pools = {
    bufs := s.pools.bufs.filter (fun x => !(x.die == b.die && x.pool == b.pool && x.index == b.index)),
    waits := s.pools.waits, warn := w } := by
  obtain ⟨w, rg, ev, el, nd, h⟩ := State.poolWarn_frame { s with pools := { s.pools with
    bufs := s.pools.bufs.filter (fun x => !(x.die == b.die && x.pool == b.pool && x.index == b.index)) } } b.die b.pool
  exact ⟨w, by rw [State.buffersWithout, h]⟩

theorem State.poolReturn_eq (s : State) (b : Buffer) : s.poolReturn b =
    match (s.buffersWithout b).pools.waits.find? (fun w =>
      w.die == b.die && decide (w.home ≤ b.pool) && (s.buffersWithout b).poolGrants b.die b.pool w.cls) with
    | none => s.buffersWithout b
    | some w => State.poolGive { s.buffersWithout b with pools := { (s.buffersWithout b).pools with
        waits := (s.buffersWithout b).pools.waits.erase w } } b.die b.pool b.index w.cls w.port w.unit w.home := rfl

/-- With nobody waiting, the buffer is free. -/
theorem State.poolReturn_unwaited {s : State} (h : s.pools.waits = []) (b : Buffer) : s.poolReturn b = s.buffersWithout b := by
  obtain ⟨w, hp⟩ := s.buffersWithout_pools b
  rw [State.poolReturn_eq, hp, h]
  rfl

/-- The oldest waiting request gets the buffer when the pool may grant it (R499). -/
theorem State.poolReturn_waited {s : State} {b : Buffer} {w : BufWait} {l : List BufWait} (h : s.pools.waits = w :: l)
    (hd : w.die = b.die) (hh : w.home ≤ b.pool) (hg : (s.buffersWithout b).poolGrants b.die b.pool w.cls = true) :
    s.poolReturn b = State.poolGive { s.buffersWithout b with pools := { (s.buffersWithout b).pools with waits := l } }
      b.die b.pool b.index w.cls w.port w.unit w.home := by
  obtain ⟨wn, hp⟩ := s.buffersWithout_pools b
  have hw : (s.buffersWithout b).pools.waits = w :: l := by rw [hp, ← h]
  rw [State.poolReturn_eq, hw, List.find?_cons_of_pos (by simp [hd, hh, hg])]
  simp only [List.erase_cons_head]


/-! ### The shadow configuration -/

theorem exec_configShadowWrite (s : State) (o : Nat) (v : Word) :
    exec (.configShadowWrite o v) s = .next (s.shadowWrite o v) := rfl

theorem exec_configTick (s : State) : exec .configTick s = .next s.configTick := rfl

/-- A value in force before the tick: that of the first entry, else the register's (R516). -/
theorem State.cfg_eq (s : State) (x : Nat) : s.cfg x = ((s.shadow.inForce.find? (fun p => p.1 == x)).map (·.2)).getD (s.reg x) := by
  rw [State.cfg]
  cases s.shadow.inForce.find? (fun p => p.1 == x) <;> rfl

/-- A legal configuration write enters the shadow copy; the first one keeps the value in force. -/
theorem State.shadowWrite_legal {s : State} {o : Nat} {v : Word} (hs : isShadow o = true) (hk : s.shadowOk o v = true) :
    s.shadowWrite o v = { s.plainWrite o v with shadow := { s.shadow with
      inForce := s.shadow.inForce ++ (if s.shadow.inForce.any (fun p => p.1 == o) then [] else [(o, s.reg o)]) } } := by
  rw [State.shadowWrite, hs, hk]
  simp only [Bool.not_true, Bool.false_eq_true, if_false, State.plainWrite_shadow]
  cases s.shadow.inForce.any (fun p => p.1 == o)
  · rfl
  · simp only [if_true, List.append_nil]
    rw [← State.plainWrite_shadow s o v]

theorem State.shadowWrite_illegal {s : State} {o : Nat} {v : Word} (hs : isShadow o = true) (hk : s.shadowOk o v = false) :
    s.shadowWrite o v = s.log 0x0101 (if o < egsBase then poolBase else egsBase) o v.toNat := by
  rw [State.shadowWrite, hs, hk]
  rfl

/-- A plain write in the POOL or EGS block leaves their other words. -/
theorem State.reg_plainWrite_net (s : State) {o x : Nat} (v : Word) (hx : poolBase ≤ x) (hx' : x < egsBase + 0x100000) (h : x ≠ o) :
    (s.plainWrite o v).reg x = s.reg x := by
  have range : ∀ k, k < poolBase ∨ egsBase + 0x100000 ≤ k → x ≠ k := by omega
  exact s.reg_plainWrite_ne o v x h (range _ (by decide)) (range _ (by decide)) (range _ (by decide))

/-- A legal configuration write leaves every value in force as it was. -/
theorem State.cfg_shadowWrite {s : State} {o : Nat} {v : Word} (hs : isShadow o = true) (hk : s.shadowOk o v = true) {x : Nat}
    (hx : poolBase ≤ x) (hx' : x < egsBase + 0x100000) : (s.shadowWrite o v).cfg x = s.cfg x := by
  rw [State.shadowWrite_legal hs hk, State.cfg_eq, State.cfg_eq s]
  show ((List.find? _ (s.shadow.inForce ++ _)).map _).getD ((s.plainWrite o v).reg x) = _
  rw [List.find?_append]
  by_cases hxo : x = o
  · subst hxo
    cases ha : s.shadow.inForce.any (fun p => p.1 == x) with
    | true =>
      obtain ⟨p, hp⟩ := Option.isSome_iff_exists.mp (List.find?_isSome.mpr (List.any_eq_true.mp ha))
      simp [hp]
    | false =>
      have hn : s.shadow.inForce.find? (fun p => p.1 == x) = none := by simpa using ha
      simp [hn]
  · rw [State.reg_plainWrite_net s v hx hx' hxo]
    cases s.shadow.inForce.any (fun p => p.1 == o) <;> simp [Ne.symm hxo]

/-! ### The configuration tick -/

/-- A layout that is refused sets its words back to the values in force. -/
theorem State.setRegs_frame (l : List (Nat × Word)) (s : State) : ∃ rg,
    l.foldl (fun s (p : Nat × Word) => s.setReg p.1 p.2) s = { s with regs := rg } := by
  induction l generalizing s with
  | nil => exact ⟨s.regs, rfl⟩
  | cons p l ih => exact ih (s.setReg p.1 p.2)

theorem State.checkLayout_ok {s : State} {d : Nat} (h : s.layoutOk d = true) : s.checkLayout d = s := by
  rw [State.checkLayout, h, Bool.or_true, if_pos rfl]

/-- A pending layout that breaks R492 takes the values in force again, and is recorded (R493). -/
theorem State.checkLayout_refused {s : State} {d : Nat} (h : s.layoutOk d = false)
    (hp : ∃ p ∈ s.shadow.inForce, isLayout d p.1 = true) : s.checkLayout d =
      ((s.shadow.inForce.filter (fun (p : Nat × Word) => isLayout d p.1)).foldl
        (fun s (p : Nat × Word) => s.setReg p.1 p.2) s).log 0x0D05 poolBase d := by
  obtain ⟨p, hm, hl⟩ := hp
  have hne : s.shadow.inForce.filter (fun (p : Nat × Word) => isLayout d p.1) ≠ [] :=
    List.ne_nil_of_mem (List.mem_filter.mpr ⟨hm, hl⟩)
  rw [State.checkLayout, h, Bool.or_false, List.isEmpty_eq_false_iff.mpr hne]
  rfl

theorem State.checkLayout_frame (s : State) (d : Nat) : ∃ rg ev el nd,
    s.checkLayout d = { s with regs := rg, evt := ev, errlog := el, nand := nd } := by
  unfold State.checkLayout
  dsimp only
  split
  · exact ⟨_, _, _, _, rfl⟩
  · obtain ⟨rg, h⟩ := State.setRegs_frame (s.shadow.inForce.filter (fun (p : Nat × Word) => isLayout d p.1)) s
    obtain ⟨ev, el, rg', nd, h2⟩ := State.log_frame { s with regs := rg } 0x0D05 poolBase d 0 0 0 0
    rw [h, h2]
    exact ⟨_, _, _, _, rfl⟩

/-- Neither a pool's counter of warnings nor its overflow bits are configuration. -/
theorem isShadow_warnWords : ∀ d < 2, ∀ i < 16, isShadow (poolReg d i 0x30) = false ∧ isShadow (poolReg d i 0x34) = false := by
  decide +kernel

/-- A pool's warning sets no configuration word. -/
theorem State.reg_poolWarn (s : State) {d i x : Nat} (hd : d < 2) (hi : i < 16) (hx : isShadow x = true) :
    (s.poolWarn d i).reg x = s.reg x := by
  have away : ∀ k, isShadow k = false → x ≠ k := fun k hk e => by rw [e, hk] at hx; cases hx
  obtain ⟨h1, h2⟩ := isShadow_warnWords d hd i hi
  unfold State.poolWarn
  dsimp only
  split
  · rw [State.reg_log_ne _ _ _ _ _ _ _ _ _ (away _ (by decide)), State.bump, State.reg_bumpBy_ne _ _ _ _ _ _ (away _ h1) (away _ h2)]
    rfl
  · split <;> rfl

/-- What `t` keeps of `s` through warnings of pools: all but the warnings, counters, records and numbers. -/
def SameButWarn (s t : State) : Prop :=
  (∃ w rg ev el nd, t = { s with pools := { s.pools with warn := w }, regs := rg, evt := ev, errlog := el, nand := nd }) ∧
    ∀ x, isShadow x = true → t.reg x = s.reg x

theorem SameButWarn.refl (s : State) : SameButWarn s s := ⟨⟨_, _, _, _, _, rfl⟩, fun _ _ => rfl⟩

theorem SameButWarn.trans {s t u : State} (h : SameButWarn s t) (k : SameButWarn t u) : SameButWarn s u := by
  obtain ⟨⟨_, _, _, _, _, rfl⟩, hr⟩ := h
  obtain ⟨⟨_, _, _, _, _, rfl⟩, kr⟩ := k
  exact ⟨⟨_, _, _, _, _, rfl⟩, fun x hx => (kr x hx).trans (hr x hx)⟩

theorem SameButWarn.foldl {α : Type} {f : State → α → State} {l : List α} (h : ∀ s, ∀ a ∈ l, SameButWarn s (f s a)) (s : State) :
    SameButWarn s (l.foldl f s) := by
  induction l generalizing s with
  | nil => exact .refl s
  | cons a l ih => exact (h s a List.mem_cons_self).trans (ih (fun s b hb => h s b (List.mem_cons_of_mem _ hb)) _)

/-- Every pool's warning is looked at again after a tick. -/
def State.allWarn (s : State) : State :=
  (List.range 2).foldl (fun s d => (List.range 16).foldl (fun s i => s.poolWarn d i) s) s

theorem State.allWarn_same (s : State) : SameButWarn s s.allWarn :=
  SameButWarn.foldl (fun s _ hd => SameButWarn.foldl (fun s _ hi =>
    ⟨s.poolWarn_frame _ _, fun _ hx => s.reg_poolWarn (List.mem_range.mp hd) (List.mem_range.mp hi) hx⟩) s) s

/-- The state that a tick applies: the layouts checked, nothing pending, and the policers that stay enabled. -/
def State.ticked (s u : State) : State :=
  { u with shadow := { inForce := [], policers := u.shadow.policers.filter (fun (p : Policer) =>
      s.cfgFld (polReg p.die p.n 0) 0 1 == 1 && u.regFld (polReg p.die p.n 0) 0 1 == 1) } }

theorem State.configTick_eq (s : State) : s.configTick = (s.ticked ((s.checkLayout 0).checkLayout 1)).allWarn := rfl

/-- A tick applies every pending word, and keeps buffers, waits, queues and the policers that stay enabled. -/
theorem State.configTick_applies (s : State) :
    let u := (s.checkLayout 0).checkLayout 1
    let t := s.configTick
    t.shadow.inForce = [] ∧ (∀ x, t.cfg x = t.reg x) ∧ (∀ x, isShadow x = true → t.cfg x = u.reg x) ∧
      t.pools.bufs = s.pools.bufs ∧ t.pools.waits = s.pools.waits ∧ t.egress = s.egress ∧
      t.shadow.policers = s.shadow.policers.filter (fun (p : Policer) =>
        s.cfgFld (polReg p.die p.n 0) 0 1 == 1 && u.regFld (polReg p.die p.n 0) 0 1 == 1) := by
  obtain ⟨r0, v0, l0, n0, h0⟩ := s.checkLayout_frame 0
  obtain ⟨r1, v1, l1, n1, h1⟩ := (s.checkLayout 0).checkLayout_frame 1
  have hk : ((s.checkLayout 0).checkLayout 1).pools = s.pools ∧ ((s.checkLayout 0).checkLayout 1).egress = s.egress ∧
      ((s.checkLayout 0).checkLayout 1).shadow = s.shadow := by
    rw [h1, h0]
    exact ⟨rfl, rfl, rfl⟩
  dsimp only
  rw [State.configTick_eq]
  generalize (s.checkLayout 0).checkLayout 1 = u at hk ⊢
  obtain ⟨hp, he, hs⟩ := hk
  obtain ⟨⟨w, rg, ev, el, nd, ht⟩, hr⟩ := (s.ticked u).allWarn_same
  have hi : (s.ticked u).allWarn.shadow.inForce = [] := by rw [ht]; rfl
  have hc : ∀ x, (s.ticked u).allWarn.cfg x = (s.ticked u).allWarn.reg x := fun x => by rw [State.cfg, hi]; rfl
  refine ⟨hi, hc, fun x hx => (hc x).trans (hr x hx), ?_, ?_, ?_, ?_⟩
  · rw [ht, ← hp]; rfl
  · rw [ht, ← hp]; rfl
  · rw [ht]; exact he
  · rw [ht, ← hs]; rfl

/-! ### The policers -/

theorem exec_policerTick (s : State) : exec .policerTick s = .next s.policerTick := rfl

theorem State.refillOne_disabled {s : State} {p : Policer} (h : s.cfgFld (polReg p.die p.n 0) 0 1 = 0) : s.refillOne p = p :=
  if_pos h

theorem refill_twoRate {cbs ebs tc te : Nat} (hc : tc ≤ cbs) (he : te ≤ ebs) (cir pir : Nat) :
    refill true cir pir cbs ebs tc te = (min cbs (tc + cir), min ebs (te + pir)) := by
  rw [refill, Nat.min_eq_left hc, Nat.min_eq_left he, if_pos rfl]

/-- The first bucket takes what it has room for, the second what is left (R512). -/
theorem refill_oneRate {cbs ebs tc te : Nat} (hc : tc ≤ cbs) (he : te ≤ ebs) (cir pir : Nat) :
    refill false cir pir cbs ebs tc te = (tc + min cir (cbs - tc), min ebs (te + cir - min cir (cbs - tc))) := by
  rw [refill, Nat.min_eq_left hc, Nat.min_eq_left he, if_neg Bool.false_ne_true]

theorem refill_fits {cbs ebs tc te cir : Nat} (hc : tc ≤ cbs) (he : te ≤ ebs) (h : tc + cir ≤ cbs) (pir : Nat) :
    refill false cir pir cbs ebs tc te = (tc + cir, te) := by
  rw [refill_oneRate hc he, Nat.min_eq_left (by omega), Nat.add_sub_cancel, Nat.min_eq_right he]

theorem refill_overflows {cbs ebs tc te cir : Nat} (hc : tc ≤ cbs) (he : te ≤ ebs) (h : cbs < tc + cir) (pir : Nat) :
    refill false cir pir cbs ebs tc te = (cbs, min ebs (te + (tc + cir - cbs))) := by
  rw [refill_oneRate hc he, Nat.min_eq_right (by omega), Nat.add_sub_cancel' hc]
  congr 2
  omega

theorem refill_clamped (two : Bool) (cir pir cbs ebs tc te : Nat) :
    (refill two cir pir cbs ebs tc te).1 ≤ cbs ∧ (refill two cir pir cbs ebs tc te).2 ≤ ebs := by
  cases two <;> simp only [refill, Bool.false_eq_true, if_true, if_false] <;> omega

/-- What R512 gives for the colours of the single-rate meter. -/
theorem meter_oneRate (tc te b : Nat) (c : Colour) :
    (b ≤ tc → meter false tc te b .green = (.green, tc - b, te)) ∧
    (tc < b → b ≤ te → meter false tc te b .green = (.yellow, tc, te - b)) ∧
    (b ≤ te → meter false tc te b .yellow = (.yellow, tc, te - b)) ∧
    (tc < b → te < b → meter false tc te b c = (.red, tc, te)) := by
  refine ⟨fun h => ?_, fun h k => ?_, fun h => ?_, fun h k => ?_⟩
  · simp [meter, h]
  · simp [meter, Nat.not_le.mpr h, k]
  · simp [meter, h]
  · simp [meter, Nat.not_le.mpr h, Nat.not_le.mpr k]

/-- What R512 gives for the colours of the two-rate meter. -/
theorem meter_twoRate (tc te b : Nat) (c : Colour) :
    (te < b → meter true tc te b c = (.red, tc, te)) ∧
    (b ≤ te → tc < b → meter true tc te b .green = (.yellow, tc, te - b)) ∧
    (b ≤ te → meter true tc te b .yellow = (.yellow, tc, te - b)) ∧
    (b ≤ te → b ≤ tc → meter true tc te b .green = (.green, tc - b, te - b)) := by
  refine ⟨fun h => ?_, fun h k => ?_, fun h => ?_, fun h k => ?_⟩
  · simp [meter, h]
  · simp [meter, Nat.not_lt.mpr h, k]
  · simp [meter, Nat.not_lt.mpr h]
  · simp [meter, Nat.not_lt.mpr h, Nat.not_lt.mpr k]

theorem meter_red (two : Bool) (tc te b : Nat) : meter two tc te b .red = (.red, tc, te) := by
  cases two <;> simp [meter]

/-! ### The egress scheduler -/

theorem exec_egressSelect (s : State) (port : Nat) : exec (.egressSelect port) s = .next (s.egressSelect port) := rfl

/-- A queue of a port that may send now: it has a frame and waits for no slot. -/
def QueueInst.canSend (port : Nat) (i : QueueInst) : Bool := i.port == port && !i.frames.isEmpty && i.slot.isNone

theorem QueueInst.canSend_iff {port : Nat} {i : QueueInst} : i.canSend port = true ↔ i.port = port ∧ i.frames ≠ [] ∧ i.slot = none := by
  simp [QueueInst.canSend, and_assoc]

/-- The strict queues that may send, by number. -/
def State.strictReady (s : State) (port : Nat) : List QueueInst :=
  (List.range 4).filterMap (fun n => s.egress.insts.find? (fun i => i.canSend port && i.sel == QueueSel.strict n))

theorem leastTag_mem {l : List QueueInst} {i : QueueInst} (h : leastTag l = some i) : i ∈ l := by
  induction l generalizing i with
  | nil => cases h
  | cons a l ih =>
    rw [leastTag] at h
    cases hl : leastTag l with
    | none =>
      simp only [hl, Option.some.injEq] at h
      exact h ▸ List.mem_cons_self
    | some b =>
      simp only [hl] at h
      exact ite_holds (P := fun o => o = some i → i ∈ a :: l) (fun e => List.mem_cons_of_mem _ (ih (hl.trans e)))
        (fun e => Option.some.inj e ▸ List.mem_cons_self) h

/-- The queue that sends next is a strict one that may send, or, when there is none, a weighted one that may send. -/
theorem State.nextQueue_cases {s : State} {port : Nat} {i : QueueInst} (h : s.nextQueue port = some i) :
    (∃ l, s.strictReady port = i :: l) ∨ s.strictReady port = [] ∧ i ∈ s.egress.insts ∧ i.canSend port = true := by
  have hn : s.nextQueue port = match s.strictReady port with
      | i :: _ => some i
      | [] => leastTag (s.egress.insts.filter (fun i =>
          i.canSend port && (match i.sel with | .weighted _ => true | _ => false))) := rfl
  rw [hn] at h
  cases hs : s.strictReady port with
  | cons j l =>
    simp only [hs, Option.some.injEq] at h
    exact .inl ⟨l, by rw [h]⟩
  | nil =>
    simp only [hs] at h
    obtain ⟨hm, hc⟩ := List.mem_filter.mp (leastTag_mem h)
    exact .inr ⟨rfl, hm, (Bool.and_eq_true _ _ ▸ hc).1⟩

theorem State.mem_strictReady {s : State} {port : Nat} {i : QueueInst} (h : i ∈ s.strictReady port) :
    i ∈ s.egress.insts ∧ i.canSend port = true := by
  obtain ⟨n, -, hf⟩ := List.mem_filterMap.mp h
  have hc := List.find?_some hf
  rw [Bool.and_eq_true] at hc
  exact ⟨List.mem_of_find?_eq_some hf, hc.1⟩

/-- The first of a filtered range comes from the least number that gives one. -/
theorem head_filterMap_range {α : Type} {f : Nat → Option α} {n : Nat} {a : α} {l : List α}
    (h : (List.range n).filterMap f = a :: l) : ∃ m, f m = some a ∧ ∀ k < m, f k = none := by
  obtain ⟨l1, m, l2, hl, hno, hm, -⟩ := List.filterMap_eq_cons_iff.mp h
  refine ⟨m, hm, fun k hk => hno k ?_⟩
  have hs : (List.range n).Pairwise (· < ·) := List.pairwise_lt_range
  have hmem : m < n := List.mem_range.mp (hl ▸ by simp)
  have hkm : k ∈ l1 ++ m :: l2 := hl ▸ List.mem_range.mpr (hk.trans hmem)
  rw [hl, List.pairwise_append] at hs
  rcases List.mem_append.mp hkm with h1 | h2
  · exact h1
  · rcases List.mem_cons.mp h2 with rfl | h3
    · omega
    · have := (List.pairwise_cons.mp hs.2.1).1 k h3
      omega

/-- A strict queue that may send is not passed over for one of a greater number, nor for a weighted one. -/
theorem State.nextQueue_strict {s : State} {port n : Nat} {i j : QueueInst} (h : s.nextQueue port = some i) (hj : j ∈ s.egress.insts)
    (hc : j.canSend port = true) (hn : n < 4) (hs : j.sel = .strict n) : ∃ m, i.sel = .strict m ∧ m ≤ n := by
  have hf : s.egress.insts.find? (fun i => i.canSend port && i.sel == QueueSel.strict n) ≠ none := fun e => by
    have := List.find?_eq_none.mp e j hj
    simp [hc, hs] at this
  rcases State.nextQueue_cases h with ⟨l, hl⟩ | ⟨he, -, -⟩
  · obtain ⟨m, hm, hmin⟩ := head_filterMap_range hl
    have hsel := List.find?_some hm
    rw [Bool.and_eq_true, beq_iff_eq] at hsel
    refine ⟨m, hsel.2, Nat.le_of_not_lt fun hlt => hf (hmin n hlt)⟩
  · exact absurd (List.filterMap_eq_nil_iff.mp he n (List.mem_range.mpr hn)) hf

theorem State.nextQueue_ready {s : State} {port : Nat} {i : QueueInst} (h : s.nextQueue port = some i) :
    i ∈ s.egress.insts ∧ i.canSend port = true := by
  rcases State.nextQueue_cases h with ⟨l, hl⟩ | ⟨-, hm, hc⟩
  · exact State.mem_strictReady (hl ▸ List.mem_cons_self)
  · exact ⟨hm, hc⟩

theorem State.egressSelect_sends {s : State} {port : Nat} {i : QueueInst}
    (hs : s.portUp port = true ∧ s.netFenced = false ∧ s.power.tripAt = none ∧ s.clockDown 50 = false)
    (hq : s.nextQueue port = some i) : s.egressSelect port = (s.sendHead i).pump := by
  obtain ⟨hu, hf, ht, hc⟩ := hs
  rw [State.egressSelect, hu, hf, ht, hc, hq]
  rfl

theorem State.egressSelect_idle {s : State} {port : Nat} (h : s.portUp port = false ∨ s.netFenced = true ∨
    s.power.tripAt.isSome = true ∨ s.clockDown 50 = true ∨ s.nextQueue port = none) : s.egressSelect port = s := by
  unfold State.egressSelect
  split
  · rfl
  · rename_i hn
    simp only [Bool.or_eq_true, Bool.not_eq_true', not_or, Bool.not_eq_false, Bool.not_eq_true] at hn
    obtain ⟨⟨⟨hu, hf⟩, ht⟩, hc⟩ := hn
    rcases h with h | h | h | h | h
    · rw [hu] at h; cases h
    · rw [hf] at h; cases h
    · rw [ht] at h; cases h
    · rw [hc] at h; cases h
    · rw [h]

/-- A queue that ends the list is the one found, when no other of its port and queue stands before it. -/
theorem State.inst_of_last {s : State} {l : List QueueInst} {i' : QueueInst} {port : Nat} {q : QueueSel}
    (h : s.egress.insts = l.filter (fun x => !(x.port == port && x.sel == q)) ++ [i']) (hp : i'.port = port) (hq : i'.sel = q) :
    s.inst port q = i' := by
  have hno : (l.filter (fun x => !(x.port == port && x.sel == q))).find? (fun i => i.port == port && i.sel == q) = none := by
    rw [List.find?_eq_none]
    intro x hx
    have hne := (List.mem_filter.mp hx).2
    rw [Bool.not_eq_true'] at hne
    rw [hne]
    exact Bool.false_ne_true
  rw [State.inst, h, List.find?_append, hno, Option.none_or, List.find?_cons_of_pos (by simp [hp, hq])]
  rfl

/-- The head frame of a queue goes out; the rest of its frames stay. -/
theorem State.sendHead_sends {s : State} {i : QueueInst} {f : Frame} {l : List Frame} (h : i.frames = f :: l) :
    ((s.sendHead i).inst i.port i.sel).frames = l ∧
    (∃ q ce, (s.sendHead i).out = s.out ++ [f.send, .frameOut i.port q f.wire ce]) ∧
    (s.sendHead i).mgr = s.mgr ∧ (s.sendHead i).gnoz = s.gnoz ∧ (s.sendHead i).pools = s.pools := by
  obtain ⟨i', vt, rg, q, ce, hp, hs, hf, he⟩ := s.sendHead_frame i f l h
  refine ⟨?_, ⟨q, ce, ?_⟩, ?_, ?_, ?_⟩
  · rw [State.inst_of_last (l := s.egress.insts) (by rw [he]) hp hs, hf]
  all_goals rw [he]

/-! ### The calendar -/

theorem exec_calendarSlot (s : State) : exec .calendarSlot s = .next s.calendarTick := rfl

/-- A queue whose slot has begun becomes eligible, or is placed again. -/
def QueueInst.atSlot (now : Nat) (i : QueueInst) : QueueInst :=
  match i.slot with
  | some k => if k ≤ now / 64 then { i with slot := calendarSlot now i.eligAt } else i
  | none => i

theorem QueueInst.atSlot_unplaced {i : QueueInst} (h : i.slot = none) (now : Nat) : i.atSlot now = i := by
  rw [QueueInst.atSlot, h]

theorem State.calendarTick_unplaced {s : State} (h : ∀ i ∈ s.egress.insts, i.slot = none) : s.calendarTick = s := by
  have hn : s.egress.insts.filterMap (fun (i : QueueInst) => i.slot) = [] := List.filterMap_eq_nil_iff.mpr h
  have hm : s.egress.insts.map (QueueInst.atSlot s.now) = s.egress.insts :=
    (List.map_congr_left fun i hi => QueueInst.atSlot_unplaced (h i hi) _).trans (List.map_id _)
  have ht : s.calendarTick = { s with egress := { s.egress with insts := s.egress.insts.map (QueueInst.atSlot s.now) } } := by
    rw [State.calendarTick, hn]
    rfl
  rw [ht, hm]

theorem State.calendarTick_placed {s : State} {k : Nat} {ks : List Nat}
    (h : s.egress.insts.filterMap (fun (i : QueueInst) => i.slot) = k :: ks) :
    let now := max s.now (ks.foldl min k * 64)
    s.calendarTick = { s with now := now, egress := { s.egress with insts := s.egress.insts.map (QueueInst.atSlot now) } } := by
  rw [State.calendarTick, h]
  rfl

/-- Settles O59, by the choice of a pool, the operations on a buffer, the shadow copy, the meter and the queues. -/
theorem poolsPolicersAndEgress : Obligations.PoolsPolicersAndEgress := by
  unfold Obligations.PoolsPolicersAndEgress
  refine ⟨fun s die port unit cls size idx hd hs => ?_, State.poolGrants_iff, fun s h port unit b new p u hb => ?_,
    fun s h port unit new p u hb => ?_, fun s b => ?_, fun s o v ho => ⟨fun hk => ?_, fun hk => ?_⟩, fun s => ?_, fun s h => ?_,
    fun s p two cir pir cbs ebs tc te b c => ?_, fun s port i f l hs hq hf => ?_, fun s port h => ?_,
    fun s => ⟨fun h => ?_, fun k ks h => ?_⟩⟩
  · obtain ⟨h15, hfit, hmin⟩ := homePool_spec hs.2
    refine ⟨h15, hfit, hmin, fun q hq hq' hg hno => ⟨_, exec_bufferRequest .., ?_⟩, fun hno => ⟨_, exec_bufferRequest .., ?_⟩⟩
    · exact State.bufferRequest_granted hd hs (State.poolPick_eq_some hq hq' hg hno) port unit idx
    · obtain ⟨r, h⟩ := State.bufferRequest_ungranted hd hs (State.poolPick_eq_none hno) port unit idx
      rw [h]
      exact ⟨rfl, r, rfl⟩
  · simp only [exec_bufferFree, exec_bufferHandover, exec_bufferDrop, exec_bufferShare, State.bufferFree_at hb,
      State.bufferHandover_at hb, State.bufferShare_at hb]
    refine ⟨fun h => ?_, fun hp hu => ?_, fun hp hu hh => ?_, fun hp hu hh => ?_, fun hh => ?_, fun hh hfp => ?_, fun hl => ?_,
      fun hl => ?_, fun hl => ?_⟩
    · rw [if_pos h, if_pos h]; exact ⟨rfl, rfl⟩
    · rw [if_neg (by simp [hp, hu])]
    · rw [if_neg (by simp [hp, hu]), hh]; rfl
    · rw [if_neg (by simp [hp, hu]), if_neg (by simpa using hh)]
    · rw [State.bufferDrop_at hb, hh]; rfl
    · rw [State.bufferDrop_at hb, hh, hfp]; simp [dropHolder]
    · obtain ⟨he, hn⟩ := State.bufferDrop_kept hb hl (port := port) (unit := unit)
      exact ⟨by rw [he], hn⟩
    · rw [if_neg (by omega)]
    · rw [if_pos hl]
  · rw [exec_bufferFree, exec_bufferHandover, exec_bufferDrop, exec_bufferShare, State.bufferFree_absent hb,
      State.bufferHandover_absent hb, State.bufferDrop_absent hb, State.bufferShare_absent hb]
    exact ⟨rfl, rfl, rfl, rfl, fun st => s.bufRefuse_pools st h port unit⟩
  · obtain ⟨w, hp⟩ := s.buffersWithout_pools b
    exact ⟨congrArg Pools.bufs hp, fun h => State.poolReturn_unwaited h b,
      fun w l h hd hh hg => State.poolReturn_waited h hd hh hg⟩
  · refine ⟨_, exec_configShadowWrite .., fun x hx hx' => State.cfg_shadowWrite ho hk hx hx', fun x hx hx' hne => ?_, ?_⟩
    · rw [State.shadowWrite_legal ho hk]
      exact State.reg_plainWrite_net s v hx hx' hne
    · rw [State.shadowWrite_legal ho hk]
      exact ⟨rfl, s.plainWrite_pools o v, s.plainWrite_egress o v, rfl⟩
  · rw [exec_configShadowWrite, State.shadowWrite_illegal ho hk]
  · exact ⟨⟨_, exec_configTick s, s.configTick_applies⟩, fun d => State.checkLayout_ok, fun d => State.checkLayout_refused⟩
  · rw [exec_policerTick, State.policerTick]
    simp only [h, List.foldl_nil]
  · obtain ⟨m1, m2, m3, m4⟩ := meter_oneRate tc te b c
    obtain ⟨n1, n2, n3, n4⟩ := meter_twoRate tc te b c
    exact ⟨State.refillOne_disabled, fun hc he => ⟨refill_twoRate hc he cir pir, fun h => refill_fits hc he h pir,
      fun h => refill_overflows hc he h pir⟩, refill_clamped .., m1, m2, m3, m4, n1, n2, n3, n4, meter_red ..⟩
  · obtain ⟨hm, hc⟩ := State.nextQueue_ready hq
    obtain ⟨hport, -, hslot⟩ := QueueInst.canSend_iff.mp hc
    obtain ⟨hl, ho, hmgr, hg, hp⟩ := State.sendHead_sends (s := s) hf
    exact ⟨by rw [exec_egressSelect, State.egressSelect_sends hs hq], hl, ho, hmgr, hg, hp, hport, hslot, hm,
      fun j hj hjp hjf hjs n hn hjn => State.nextQueue_strict hq hj (QueueInst.canSend_iff.mpr ⟨hjp, hjf, hjs⟩) hn hjn⟩
  · rw [exec_egressSelect, State.egressSelect_idle h]
  · rw [exec_calendarSlot, State.calendarTick_unplaced h]
  · refine ⟨_, exec_calendarSlot s, ?_⟩
    rw [State.calendarTick_placed h]
    exact ⟨rfl, rfl, rfl⟩

end Sys2Proof.Machine


-- Stripe groups: what each message, timer and request does (O60).
namespace Sys2Proof.Machine

/-! ### What the shared operations keep of the group -/

theorem State.groupCast_group (s : State) (k : Nat) (b : List Nat) : (s.groupCast k b).group = s.group := by
  rw [State.groupCast_eq]

theorem State.journal_group (s : State) (e : JEntry) : (s.journal e).group = s.group := by
  obtain ⟨md, nd, ev, h⟩ := s.journal_keeps e
  rw [h]

theorem State.spareChanged_group (s : State) : s.spareChanged.group = s.group := by
  obtain ⟨_, _, _, _, _, _, _, _, h⟩ := s.spareChanged_frame
  rw [h]

theorem State.placeUnit_group (s : State) (ns u pma : Nat) (data : List Byte) : (s.placeUnit ns u pma data).group = s.group :=
  State.journal_group _ _

theorem State.openBands_group (s : State) (gc : Bool) (bs : List BandSpec) : (s.openBands gc bs).group = s.group := by
  induction bs generalizing s with
  | nil => rfl
  | cons b bs ih =>
    rw [State.openBands]
    split
    · rw [ih, State.spareChanged_group, State.journal_group]
    · exact ih s

theorem State.registerKey_group (s : State) (i : Nat) (kind : KeyKind) (base len : Nat) (w r : Bool) (n : Nat) :
    (s.registerKey i kind base len w r n).2.group = s.group := by
  unfold State.registerKey
  exact ite_holds (P := fun r : Status × State => r.2.group = s.group) rfl rfl

theorem State.groupSend_group (s : State) (kind n : Nat) (body : List Nat) : (s.groupSend kind n body).group = s.group :=
  ite_holds (P := fun t : State => t.group = s.group) rfl rfl

/-- A message to another device is recorded, and nothing else changes. -/
theorem State.groupSend_other {s : State} {n : Nat} (h : n ≠ s.group.self) (kind : Nat) (body : List Nat) :
    s.groupSend kind n body = { s with
      out := s.out ++ [.groupMsg kind (s.entryDevice n) ([(s.reg 0xB00004).toNat, s.group.gen] ++ body)] } :=
  if_neg h

/-! ### Messages: the checks before their effect -/

theorem exec_heartbeatSend (s : State) : exec .heartbeatSend s = .next s.heartbeatSend := rfl

theorem exec_heartbeatReceive (s : State) (n gen dg : Nat) (t : Option GroupRecord) :
    exec (.heartbeatReceive n gen dg t) s = .next (s.heartbeatReceive n gen dg t) := rfl

theorem exec_peerSuspect (s : State) (n : Nat) : exec (.peerSuspect n) s = .next (s.peerSuspect n) := rfl

theorem exec_proposalRx (s : State) (n gen : Nat) (ch : GroupChange) (t : Option GroupRecord) :
    exec (.proposalRx n gen ch t) s = .next (s.proposalRx n gen ch t) := rfl

theorem exec_voteRx (s : State) (n gen : Nat) (v : GroupVote) : exec (.voteRx n gen v) s = .next (s.voteRx n gen v) := rfl

theorem exec_stripePrepare (s : State) (n gen w ns st sh : Nat) (data : List Byte) :
    exec (.stripePrepare n gen w ns st sh data) s = .next (s.stripePrepare n gen w ns st sh data) := rfl

theorem exec_mirrorUpdate (s : State) (n gen : Nat) (m : Mirror) :
    exec (.mirrorUpdate n gen m) s = .next (s.mirrorUpdate n gen m) := rfl

theorem exec_streamTableUpdate (s : State) (n gen : Nat) (block : List Byte) (c p q : Nat) (rm : Bool) :
    exec (.streamTableUpdate n gen block c p q rm) s = .next (s.streamTableUpdate n gen block c p q rm) := rfl

/-- A device that has joined has ENABLE set, an entry, a net die in use, and a state that is neither 0 nor 5. -/
theorem State.groupJoined_iff {s : State} : s.groupJoined = true ↔
    s.groupOn = true ∧ s.regFld grpBase 0 1 = 1 ∧ s.netFenced = false ∧ s.group.state ≠ 0 ∧ s.group.state ≠ 5 := by
  simp only [State.groupJoined, State.groupOn, Bool.and_eq_true, beq_iff_eq, decide_eq_true_eq, Bool.not_eq_true']
  tauto

theorem State.groupBar_eq_some {s : State} {n gen r : Nat} (h : s.groupBar n gen = some r) :
    (s.entryPermits n = false → r = 0x0C08) ∧ (s.entryPermits n = true → r = 0x0E03 ∧ s.groupStale gen = true) := by
  refine ⟨fun hp => ?_, fun hp => ?_⟩
  · rw [State.groupBar, hp] at h
    exact (Option.some.inj h).symm
  · rw [State.groupBar, hp] at h
    cases hg : s.groupStale gen with
    | true => rw [hg] at h; exact ⟨(Option.some.inj h).symm, rfl⟩
    | false => rw [hg] at h; cases h

/-- A generation is not earlier than itself (R17, R522). -/
theorem State.groupStale_self {s : State} (h : s.group.gen < 2 ^ 32) : s.groupStale s.group.gen = false := by
  have hd : (s.group.gen + 2 ^ 32 - s.group.gen % 2 ^ 32) % 2 ^ 32 = 0 := by
    rw [Nat.mod_eq_of_lt h, Nat.add_sub_cancel_left, Nat.mod_self]
  simp only [State.groupStale, seqEarlier, hd]
  decide

/-- A message of the present generation over a route that permits control passes. -/
theorem State.groupBar_pass {s : State} {n : Nat} (h : s.entryPermits n = true ∧ s.group.gen < 2 ^ 32) :
    s.groupBar n s.group.gen = none := by
  rw [State.groupBar, h.1, State.groupStale_self h.2]
  rfl

section
variable {s : State} {n gen r : Nat} (hj : s.groupJoined = true) (hb : s.groupBar n gen = some r)
include hj hb

theorem State.heartbeatReceive_barred (hn : n ≠ s.group.self ∧ n ≤ 64) (dg : Nat) (t : Option GroupRecord) :
    s.heartbeatReceive n gen dg t = s.groupRefuse n r := by
  obtain ⟨ho, -⟩ := State.groupJoined_iff.mp hj
  rw [State.heartbeatReceive, ho, hb, if_neg (by decide), if_neg (by omega), if_pos (by simp)]
  rfl

theorem State.proposalRx_barred (ch : GroupChange) (t : Option GroupRecord) : s.proposalRx n gen ch t = s.groupRefuse n r := by
  obtain ⟨-, he, hf, -⟩ := State.groupJoined_iff.mp hj
  unfold State.proposalRx
  simp [hf, he, hj, hb]

theorem State.voteRx_barred (v : GroupVote) : s.voteRx n gen v = s.groupRefuse n r := by
  unfold State.voteRx
  simp [hj, hb]

theorem State.stripePrepare_barred (hm : s.mediaStopped = false) (w ns st sh : Nat) (data : List Byte) :
    s.stripePrepare n gen w ns st sh data = s.groupRefuse n r := by
  unfold State.stripePrepare
  simp [hj, hb, hm]

theorem State.mirrorUpdate_barred (m : Mirror) : s.mirrorUpdate n gen m = s.groupRefuse n r := by
  unfold State.mirrorUpdate
  simp [hj, hb]

theorem State.streamTableUpdate_barred (block : List Byte) (c p q : Nat) (rm : Bool) :
    s.streamTableUpdate n gen block c p q rm = s.groupRefuse n r := by
  unfold State.streamTableUpdate
  simp [hj, hb]

end

/-! ### Heartbeats and suspicion -/

/-- A list of entries with one more, which may be in it already. -/
def addEntry (l : List Nat) (n : Nat) : List Nat := if l.contains n then l else l ++ [n]

theorem mem_addEntry (l : List Nat) (n : Nat) : n ∈ addEntry l n := by
  unfold addEntry
  split
  · rename_i h; exact List.contains_iff_mem.mp h
  · simp

/-- A heartbeat with this device's generation and digest, when the device has joined and holds nothing. -/
theorem State.heartbeatReceive_same {s : State} {n : Nat} (hj : s.groupJoined = true) (hn : n ≠ s.group.self ∧ n ≤ 64)
    (hp : s.entryPermits n = true ∧ s.group.gen < 2 ^ 32) (hh : s.group.holding = false) :
    s.heartbeatReceive n s.group.gen s.groupDigest none = s.setGroup { s.group with
      heard := s.group.heard.filter (fun h => decide (h.1 ≠ n)) ++ [(n, s.now)],
      suspects := s.group.suspects.filter (fun x => x != (s.group.self, n)),
      digestSame := addEntry s.group.digestSame n, digestOther := s.group.digestOther.filter (· != n) } := by
  obtain ⟨ho, -, -, hs, -⟩ := State.groupJoined_iff.mp hj
  have hd : ∀ g, (s.groupDigest == (s.setGroup g).groupDigest) = true := fun g => beq_self_eq_true s.groupDigest
  rw [State.heartbeatReceive, ho, if_neg (by decide), if_neg (by omega), State.groupBar_pass hp, if_neg (by simp)]
  simp only [hd, State.noteDigest, if_true]
  simp only [State.setGroup, hs, hh, addEntry, ne_eq, not_false_eq_true, not_true_eq_false, if_true, if_false, Bool.false_and,
    Bool.false_eq_true]

theorem State.peerSuspect_joined {s : State} {n : Nat} (hj : s.groupJoined = true)
    (hn : n ≠ s.group.self ∧ (s.entryState n = 1 ∨ s.entryState n = 2)) : s.peerSuspect n =
      ((s.advance (((s.group.heard.find? (fun h => h.1 == n)).map (·.2)).elim 0 (· + 50000000))).groupCast 1 [n]).addSuspect
        s.group.self n := by
  have ha : s.aliveAt n = true := by
    rcases hn.2 with h | h <;> simp [State.aliveAt, h]
  rw [State.peerSuspect, if_pos (by simp [hj, hn.1, ha])]
  rfl

/-- A new suspicion that makes no quorum is kept. -/
theorem State.addSuspect_few {s : State} {b n : Nat} (hn : (b, n) ∉ s.group.suspects)
    (hq : (s.group.suspects.filter (fun x => decide (x.2 = n))).length + 1 < s.quorum) :
    s.addSuspect b n = s.setGroup { s.group with suspects := s.group.suspects ++ [(b, n)] } := by
  have hc : s.group.suspects.contains (b, n) = false := by simpa using hn
  have hl : ((s.group.suspects ++ [(b, n)]).filter (fun x => decide (x.2 = n))).length =
      (s.group.suspects.filter (fun x => decide (x.2 = n))).length + 1 := by simp
  rw [State.addSuspect, hc]
  show State.tryFail (s.setGroup _) n = _
  rw [State.tryFail]
  apply if_neg
  show ¬ (decide (((s.group.suspects ++ [(b, n)]).filter (fun x => decide (x.2 = n))).length ≥ s.quorum) && _ && _ && _ && _) = true
  rw [hl, decide_eq_false (by omega)]
  simp

/-! ### Proposals, votes and commits -/

/-- A proposal that this device keeps. -/
def State.withProposal (s : State) (p : Proposal) : State := s.setGroup { s.group with proposal := some p }

/-- An acknowledgement by another entry of the proposal that is kept. -/
theorem State.ackProposal_kept {s : State} {p : Proposal} {n : Nat} (hp : s.group.proposal = some p) (hn : n ∉ p.acks) :
    s.ackProposal p.gen n =
      if p.acks.length + 1 ≥ s.quorum then (s.withProposal { p with acks := p.acks ++ [n] }).commitGroup p.change
      else s.withProposal { p with acks := p.acks ++ [n] } := by
  have hc : p.acks.contains n = false := by simpa using hn
  rw [State.ackProposal, hp]
  simp only [hc, ne_eq, not_true_eq_false, if_false, Bool.false_eq_true, List.length_append, List.length_singleton]
  rfl

theorem State.ackProposal_other {s : State} {p : Proposal} {g : Nat} (hp : s.group.proposal = some p) (hg : g ≠ p.gen) (n : Nat) :
    s.ackProposal g n = s := by
  rw [State.ackProposal, hp]
  exact if_pos (Ne.symm hg)

/-- A proposal of the present generation is kept, and every device is told. -/
theorem State.proposalRx_kept {s : State} {n : Nat} (hj : s.groupJoined = true) (hp : s.entryPermits n = true ∧ s.group.gen < 2 ^ 32)
    (hn : n ≠ s.group.self) (hq : 3 ≤ s.quorum) (ch : GroupChange) : s.proposalRx n s.group.gen ch none =
      { s.withProposal { gen := (s.group.gen + 1) % 2 ^ 32, change := ch, acks := [n, s.group.self], table := none } with
        out := (s.groupCast 3 [(s.group.gen + 1) % 2 ^ 32]).out } := by
  obtain ⟨-, he, hf, -⟩ := State.groupJoined_iff.mp hj
  let p : Proposal := { gen := (s.group.gen + 1) % 2 ^ 32, change := ch, acks := [n], table := none }
  have hr : s.proposalRx n s.group.gen ch none = ((s.withProposal p).groupCast 3 [p.gen]).ackProposal p.gen s.group.self := by
    unfold State.proposalRx
    simp only [hf, he, hj, State.groupBar_pass hp, Bool.false_eq_true, if_false, Nat.one_ne_zero, Bool.not_true, ne_eq,
      not_true_eq_false]
    rfl
  have hk : ((s.withProposal p).groupCast 3 [p.gen]).group.proposal = some p := by
    rw [State.groupCast_group]
    rfl
  have hq' : ((s.withProposal p).groupCast 3 [p.gen]).quorum = s.quorum := by
    rw [State.groupCast_eq]
    rfl
  rw [hr, State.ackProposal_kept hk (by simpa [p] using Ne.symm hn), if_neg (by rw [hq']; simp [p]; omega), State.groupCast_eq,
    State.groupCast_eq]
  rfl

theorem State.voteRx_pass {s : State} {n : Nat} (hj : s.groupJoined = true) (hp : s.entryPermits n = true ∧ s.group.gen < 2 ^ 32) :
    (∀ g, s.voteRx n s.group.gen (.ack g) = s.ackProposal g n) ∧ ∀ x, s.voteRx n s.group.gen (.suspect x) = s.addSuspect n x := by
  constructor <;> intro x <;> rw [State.voteRx, hj, State.groupBar_pass hp] <;> rfl

/-- Showing the state changes GRP_STATE alone. -/
theorem State.showGroup_frame (s : State) : ∃ st, s.showGroup = s.setGroup { s.group with state := st } := ⟨_, rfl⟩

/-- The table's last steps of a commit change GRP_STATE and the group record. -/
theorem State.commitGroup_active (s : State) (x : Nat) : ∃ st, (s.commitGroup (.active x)).group = { s.group with
    gen := (s.group.gen + 1) % 2 ^ 32, proposal := none, states := modAt s.group.states x (fun _ => 1),
    rebuilds := s.group.rebuilds.filter (fun (r : Rebuild) => decide (r.pos ≠ x)), state := st } := by
  let u : State := (s.setGroup { s.group with gen := (s.group.gen + 1) % 2 ^ 32, proposal := none }).changeTable (.active x)
  have hu : u.group = { s.group with
      gen := (s.group.gen + 1) % 2 ^ 32, proposal := none, states := modAt s.group.states x (fun _ => 1),
      rebuilds := s.group.rebuilds.filter (fun (r : Rebuild) => decide (r.pos ≠ x)) } := State.log_group ..
  have hc : s.commitGroup (.active x) =
      if u.keepTable.group.state = 0 ∨ u.keepTable.group.state = 5 then u.keepTable else u.keepTable.showGroup := rfl
  have hk : u.keepTable.group = u.group := rfl
  rw [hc]
  split
  · exact ⟨s.group.state, by rw [hk, hu]⟩
  · obtain ⟨st, hs⟩ := u.keepTable.showGroup_frame
    exact ⟨st, by rw [hs]; show ({ u.group with state := st } : Group) = _; rw [hu]⟩

/-! ### Quorum and spares -/

theorem exec_quorumHold (s : State) : exec .quorumHold s = .next s.quorumHold := rfl

theorem exec_quorumLost (s : State) : exec .quorumLost s = .next s.quorumLost := rfl

theorem exec_grpSpareAdd (s : State) (d : Nat) (ready : Bool) : exec (.grpSpareAdd d ready) s = .next (s.spareAdd d ready) := rfl

theorem State.quorumHold_few {s : State} (hj : s.groupJoined = true) (hq : s.heardNow + 1 < s.quorum) :
    s.quorumHold = s.setGroup { s.group with holding := true } := by
  have h : ¬ s.heardNow + 1 ≥ s.quorum := by omega
  unfold State.quorumHold
  simp [hj, h, hq]

theorem State.quorumLost_eq {s : State} (hj : s.groupJoined = true) :
    s.quorumLost = if s.group.holding then s.setGroup { s.group with state := 4 } else s := by
  rw [State.quorumLost, hj, Bool.true_and]

theorem State.groupGate_cases (s : State) : (s.group.state = 0 ∨ s.group.state = 5 → s.groupGate = some 0x0E01) ∧
    (s.group.state = 4 → s.groupGate = some 0x0E02) ∧
    (s.group.state ≠ 0 → s.group.state ≠ 4 → s.group.state ≠ 5 → s.groupGate = none) := by
  refine ⟨fun h => ?_, fun h => if_pos h, fun h0 h4 h5 => ?_⟩
  · rw [State.groupGate, if_neg (by omega), if_pos h]
  · rw [State.groupGate, if_neg h4, if_neg (by simp [h0, h5])]

theorem State.spareAdd_gated {s : State} {st : Status} (h : s.groupGate = some st) (d : Nat) (ready : Bool) :
    s.spareAdd d ready = s.setGroup { s.group with spareStatus := st.toNat } := by
  rw [State.spareAdd, h]

theorem State.spareAdd_refused {s : State} (h : s.groupGate = none) {d : Nat} {ready : Bool}
    (hr : s.entryState 64 ≠ 0 ∨ ready = false ∨ s.routeTo d = none) :
    s.spareAdd d ready = s.setGroup { s.group with spareStatus := 0x0E08 } := by
  rw [State.spareAdd, h]
  cases hd : s.routeTo d with
  | none => rfl
  | some r =>
    rw [hd] at hr
    exact if_pos (by simpa using hr)

theorem State.spareAdd_proposes {s : State} (h : s.groupGate = none) {d : Nat} {r : Route} (hr : s.routeTo d = some r)
    (he : s.entryState 64 = 0) : s.spareAdd d true = s.propose (.spare d r.index) := by
  rw [State.spareAdd, h, hr]
  exact if_neg (by simp [he])

theorem State.propose_spare_group (s : State) (d r : Nat) : (s.propose (.spare d r)).group = { s.group with
    proposal := some { gen := (s.group.gen + 1) % 2 ^ 32, change := .spare d r, acks := [s.group.self],
                       table := some s.groupTable } } :=
  State.groupCast_group _ _ _

/-! ### Group namespaces -/

theorem exec_groupNsCreate (s : State) (ns : Nat) (o : Option Nat) (st : Nat) (ok : Bool) :
    exec (.groupNsCreate ns o st ok) s = .next (s.nsCtrl 1 ns o st ok) := rfl

theorem exec_groupNsDelete (s : State) (ns : Nat) (o : Option Nat) (ok : Bool) :
    exec (.groupNsDelete ns o ok) s = .next (s.nsCtrl 2 ns o 0 ok) := rfl

theorem exec_groupNsSeal (s : State) (ns : Nat) (o : Option Nat) :
    exec (.groupNsSeal ns o) s = .next (s.nsCtrl 3 ns o 0 true) := rfl

theorem exec_groupNsUnseal (s : State) (ns : Nat) (o : Option Nat) :
    exec (.groupNsUnseal ns o) s = .next (s.nsCtrl 4 ns o 0 true) := rfl

/-- A request of another member is applied and answered. -/
theorem State.nsCtrl_member (s : State) (a ns n st : Nat) (ok : Bool) : s.nsCtrl a ns (some n) st ok =
    State.groupSend (s.nsApply a ns st ok).2 3 n [ns, (s.nsApply a ns st ok).1.toNat] := rfl

/-- What software's request came to, shown in GRP_NS_STATUS. -/
def shownNs (r : Status × State) : State := r.2.setGroup { r.2.group with nsStatus := r.1.toNat }

/-- A request that this device has applied, on its way to every member. -/
def askedNs (a ns : Nat) (r : Status × State) : State :=
  State.nsApplied (State.groupCast (r.2.setGroup { r.2.group with nsRequest := some { action := a, nsid := ns, acks := [] } }) 11
    [a, ns, r.2.reg64 0xB00044]) ns r.2.group.self 0

theorem State.nsCtrl_refused {s : State} {a ns : Nat} {ok : Bool} (h : (s.nsApply a ns (s.reg64 0xB00044) ok).1 ≠ 0) (st : Nat) :
    s.nsCtrl a ns none st ok = shownNs (s.nsApply a ns (s.reg64 0xB00044) ok) := if_pos h

theorem State.nsCtrl_asked {s : State} {a ns : Nat} {ok : Bool} (h : (s.nsApply a ns (s.reg64 0xB00044) ok).1 = 0) (st : Nat) :
    s.nsCtrl a ns none st ok = askedNs a ns (s.nsApply a ns (s.reg64 0xB00044) ok) := if_neg (not_not_intro h)

theorem State.nsApply_gated {s : State} {st : Status} (h : s.groupGate = some st) (a ns k : Nat) (ok : Bool) :
    s.nsApply a ns k ok = (st, s) := by
  unfold State.nsApply
  rw [h]

section
variable {s : State} (hg : s.groupGate = none)
include hg

/-- A namespace that this member does not hold (R529, R570). -/
theorem State.nsApply_absent {a ns : Nat} (ha : a ≠ 1) (hm : s.memberNs ns = false) (k : Nat) (ok : Bool) :
    s.nsApply a ns k ok = if a ≠ 3 ∧ s.quoinSet 14 = true then (0x0F01, s) else (0x0302, s) := by
  unfold State.nsApply
  rw [hg]
  exact if_pos (by simp [ha, hm])

theorem State.nsApply_create (ns k : Nat) (ok : Bool) : s.nsApply 1 ns k ok =
    if s.quoinSet 14 then (0x0F01, s)
    else if k = 0 ∨ k % s.groupG ≠ 0 then (0x0101, s)
    else match s.nsCreateRefusal .register ns (k * s.groupW / s.groupG) ok with
      | some r => (r.1, s)
      | none =>
        let u := s.nsMake .register ns (k * s.groupW / s.groupG)
        let u := u.setGroup { u.group with namespaces := u.group.namespaces ++ [{ nsid := ns, stripes := k }] }
        (0, (u.registerKey (65536 - ns) (.member ns) 0 (k * s.groupW / s.groupG * 16384) false true 0).2) := by
  unfold State.nsApply
  rw [hg] <;> rfl

theorem State.nsApply_made {ns k : Nat} {ok : Bool} (hq : s.quoinSet 14 = false) (hk : k ≠ 0) (hd : k % s.groupG = 0)
    (hr : s.nsCreateRefusal .register ns (k * s.groupW / s.groupG) ok = none) :
    (s.nsApply 1 ns k ok).1 = 0 ∧ { nsid := ns, stripes := k } ∈ (s.nsApply 1 ns k ok).2.group.namespaces := by
  rw [State.nsApply_create hg, hq, if_neg Bool.false_ne_true, if_neg (by simp [hk, hd]), hr]
  refine ⟨rfl, ?_⟩
  dsimp only
  rw [State.registerKey_group]
  exact List.mem_append_right _ (List.mem_singleton.mpr rfl)

section
variable {ns : Nat} (hm : s.memberNs ns = true)
include hm

theorem State.nsApply_removed {ok : Bool} (hr : s.nsDeleteRefusal .register ns ok = none) (k : Nat) :
    (s.nsApply 2 ns k ok).1 = 0 ∧ (s.nsApply 2 ns k ok).2.group.namespaces =
      (s.nsRemove .register ns).group.namespaces.filter (fun (g : GroupNs) => g.nsid != ns) := by
  unfold State.nsApply
  rw [hg]
  simp only [hm, hr, ne_eq, OfNat.ofNat_ne_one, not_false_eq_true, Bool.not_true, Bool.false_eq_true, and_false, if_false,
    true_and]
  split
  · split <;> rfl
  · rfl

/-- The namespaces of the group with the mark of one set. -/
theorem State.nsApply_sealed (hr : s.nsSealRefusal .register ns = none) (k : Nat) (ok : Bool) :
    (s.nsApply 3 ns k ok).1 = 0 ∧ ∃ l : List GroupNs, (s.nsApply 3 ns k ok).2.group.namespaces =
      l.map (fun (g : GroupNs) => if g.nsid = ns then { g with isSealed := true } else g) := by
  unfold State.nsApply
  rw [hg]
  simp only [hm, hr, Bool.not_true, Bool.false_eq_true, and_false, if_false]
  exact ⟨trivial, _, rfl⟩

theorem State.nsApply_unsealed (hr : s.nsUnsealRefusal .register ns = none) (k : Nat) (ok : Bool) :
    (s.nsApply 4 ns k ok).1 = 0 ∧ ∃ l : List GroupNs, (s.nsApply 4 ns k ok).2.group.namespaces =
      l.map (fun (g : GroupNs) => if g.nsid = ns then { g with isSealed := false } else g) := by
  unfold State.nsApply
  rw [hg]
  simp only [hm, hr, Bool.not_true, Bool.false_eq_true, and_false, if_false]
  exact ⟨trivial, _, rfl⟩

end
end

/-- After one namespace's mark is set, every entry that names it carries the mark. -/
theorem isSealed_of_mem_mark {l : List GroupNs} {ns : Nat} {b : Bool} {g : GroupNs}
    (h : g ∈ l.map (fun (g : GroupNs) => if g.nsid = ns then { g with isSealed := b } else g)) (hn : g.nsid = ns) :
    g.isSealed = b := by
  obtain ⟨x, -, rfl⟩ := List.mem_map.mp h
  by_cases hx : x.nsid = ns
  · rw [if_pos hx]
  · rw [if_neg hx] at hn
    exact absurd hn hx

/-! ### Stripe writes -/

theorem exec_groupWrite (s : State) (p : ReqPath) (ns lba : Nat) (data : List Byte) :
    exec (.groupWrite p ns lba data) s = .next (s.groupWrite p ns lba data) := rfl

theorem exec_stripeCommit (s : State) (w : Nat) (pl : Placement) : exec (.stripeCommit w pl) s = .next (s.stripeCommit w pl) := rfl

theorem exec_prepareResolve (s : State) (w : Nat) (b : Bool) (pl : Placement) :
    exec (.prepareResolve w b pl) s = .next (s.prepareResolve w b pl) := rfl

/-- A write of a group namespace is not admitted yet: no quorum, a lock, or no space for its shares (R157, R526, R533). -/
def State.writeWaits (s : State) (ns lba count : Nat) : Prop :=
  let stripes := ((unitsTouched lba count).map s.unitStripe).eraseDups
  s.group.holding = true ∨ (∃ x ∈ stripes, s.stripeLocked ns x = true) ∨ s.roomFor stripes.length = false ∨
    s.spaceFor stripes.length = false

/-- A write covers a part of a unit that no tier can read (R125). -/
def State.mergesUnreadable (s : State) (ns lba count : Nat) : Prop :=
  ∃ u ∈ unitsTouched lba count, coversUnit lba count u = false ∧ s.nsReadable ns (u * 16384) 16384 = false

section
variable {s : State} {p : ReqPath} {ns lba : Nat} {data : List Byte}
  (hs : s.memberNs ns = true ∧ s.mediaStopped = false ∧ s.admissionHeld = false)
  (hd : data.length % 4096 = 0 ∧ 0 < data.length ∧ data.length ≤ 16777216)
include hs hd

/-- A well-formed write of a group namespace, past the first checks. -/
theorem State.groupWrite_formed : s.groupWrite p ns lba data =
    let us := unitsTouched lba (data.length / 4096)
    let stripes := (us.map s.unitStripe).eraseDups
    match s.groupWriteRefusal p ns lba (data.length / 4096) with
    | some st => s.refuse p st
    | none =>
      if s.group.holding || stripes.any (s.stripeLocked ns) || !s.roomFor stripes.length || !s.spaceFor stripes.length then s
      else if us.any (fun u => !coversUnit lba (data.length / 4096) u && !s.nsReadable ns (u * 16384) 16384) then s.refuse p 0x0201
      else stripes.foldl (fun t st => t.startStripe p ns st ((us.filter (fun u => s.unitStripe u == st)).map (fun u =>
        (s.unitShare u, mergeUnit (s.unitSeen ns u) data u lba)))) s := by
  obtain ⟨hm, hst, ha⟩ := hs
  have hc : ¬(data.length / 4096 = 0 ∨ data.length / 4096 > 4096 ∨ data.length % 4096 ≠ 0) := by omega
  rw [State.groupWrite, hm, hst, ha, if_neg (by decide), if_neg hc] <;> rfl

theorem State.groupWrite_refused {st : Status} (hr : s.groupWriteRefusal p ns lba (data.length / 4096) = some st) :
    s.groupWrite p ns lba data = s.refuse p st := by
  rw [State.groupWrite_formed hs hd, hr]

theorem State.groupWrite_held (hr : s.groupWriteRefusal p ns lba (data.length / 4096) = none)
    (hh : s.writeWaits ns lba (data.length / 4096)) : s.groupWrite p ns lba data = s := by
  rw [State.groupWrite_formed hs hd, hr]
  refine if_pos ?_
  simpa only [State.writeWaits, Bool.or_eq_true, Bool.not_eq_true', List.any_eq_true, or_assoc] using hh

theorem State.groupWrite_unheld (hr : s.groupWriteRefusal p ns lba (data.length / 4096) = none)
    (hh : ¬s.writeWaits ns lba (data.length / 4096)) : s.groupWrite p ns lba data =
    let us := unitsTouched lba (data.length / 4096)
    if us.any (fun u => !coversUnit lba (data.length / 4096) u && !s.nsReadable ns (u * 16384) 16384) then s.refuse p 0x0201
    else ((us.map s.unitStripe).eraseDups).foldl (fun t st => t.startStripe p ns st
      ((us.filter (fun u => s.unitStripe u == st)).map (fun u => (s.unitShare u, mergeUnit (s.unitSeen ns u) data u lba)))) s := by
  rw [State.groupWrite_formed hs hd, hr]
  refine if_neg fun hc => hh ?_
  simpa only [State.writeWaits, Bool.or_eq_true, Bool.not_eq_true', List.any_eq_true, or_assoc] using hc

/-- A write that merges with a unit that no tier can read ends with 0x0201 (R125). -/
theorem State.groupWrite_unreadable (hr : s.groupWriteRefusal p ns lba (data.length / 4096) = none)
    (hh : ¬s.writeWaits ns lba (data.length / 4096))
    (hb : s.mergesUnreadable ns lba (data.length / 4096)) :
    s.groupWrite p ns lba data = s.refuse p 0x0201 := by
  rw [State.groupWrite_unheld hs hd hr hh]
  refine if_pos ?_
  simpa only [State.mergesUnreadable, List.any_eq_true, Bool.and_eq_true, Bool.not_eq_true'] using hb

theorem State.groupWrite_oneStripe (hr : s.groupWriteRefusal p ns lba (data.length / 4096) = none)
    (hh : ¬s.writeWaits ns lba (data.length / 4096))
    (hb : ¬s.mergesUnreadable ns lba (data.length / 4096))
    {x : Nat} (hx : ((unitsTouched lba (data.length / 4096)).map s.unitStripe).eraseDups = [x]) :
    s.groupWrite p ns lba data = s.startStripe p ns x (((unitsTouched lba (data.length / 4096)).filter
      (fun u => s.unitStripe u == x)).map (fun u => (s.unitShare u, mergeUnit (s.unitSeen ns u) data u lba))) := by
  rw [State.groupWrite_unheld hs hd hr hh]
  dsimp only
  rw [hx]
  refine if_neg fun hc => hb ?_
  simpa only [State.mergesUnreadable, List.any_eq_true, Bool.and_eq_true, Bool.not_eq_true'] using hc

end

/-- The coordinator is the P holder while that is alive (R533). -/
theorem State.coordinator_alive {s : State} {x : Nat} (h : s.aliveAt (s.sharePos x (s.groupW - 2)) = true) :
    s.coordinator x = s.sharePos x (s.groupW - 2) := by
  unfold State.coordinator
  simp only [List.cons_append, List.map_cons, List.find?_cons_of_pos h, Option.getD_some]

/-- A write whose stripe another device coordinates is forwarded to it. -/
theorem State.startStripe_forwarded {s : State} {x : Nat} (h : s.coordinator x ≠ s.group.self) (p : ReqPath) (ns : Nat)
    (new : List (Nat × List Byte)) :
    let id := s.group.self * 2 ^ 32 + s.group.nextWrite
    s.startStripe p ns x new = { s with
      group := { s.group with nextWrite := s.group.nextWrite + 1, writes := s.group.writes ++
        [{ write := id, path := p, nsid := ns, stripe := x, shares := s.newShares ns x new, phase := .forwarded,
           waiting := [s.coordinator x] }] },
      out := s.out ++ [.groupMsg 8 (s.entryDevice (s.coordinator x)) [(s.reg 0xB00004).toNat, s.group.gen, id, ns, x]] } := by
  have hf : ∀ (g : Group) (body : List Nat), g.self = s.group.self → (s.setGroup g).groupSend 8 (s.coordinator x) body =
      { s with group := g, out := s.out ++ [.groupMsg 8 (s.entryDevice (s.coordinator x))
        ([(s.reg 0xB00004).toNat, g.gen] ++ body)] } := fun g body hg =>
    State.groupSend_other (s := s.setGroup g) (by rw [show (s.setGroup g).group = g from rfl, hg]; exact h) _ _
  have hs : s.startStripe p ns x new = State.groupSend (s.setGroup { s.group with
      nextWrite := s.group.nextWrite + 1, writes := s.group.writes ++
        [{ write := s.group.self * 2 ^ 32 + s.group.nextWrite, path := p, nsid := ns, stripe := x, shares := s.newShares ns x new,
           phase := .forwarded, waiting := [s.coordinator x] }] }) 8 (s.coordinator x)
        [s.group.self * 2 ^ 32 + s.group.nextWrite, ns, x] := if_pos h
  exact hs.trans (hf _ _ rfl)

theorem State.stripePrepare_held {s : State} {n ns st sh : Nat} {data : List Byte}
    (hj : s.groupJoined = true ∧ s.mediaStopped = false) (hp : s.entryPermits n = true ∧ s.group.gen < 2 ^ 32)
    (hs : s.memberNs ns = true ∧ s.sharePos st sh = s.group.self ∧ data.length = 16384)
    (hr : s.roomFor 1 = true ∧ s.spaceFor 1 = true) (w : Nat) : s.stripePrepare n s.group.gen w ns st sh data =
      State.groupSend (s.setGroup { s.group with prepared := s.group.prepared ++
        [{ write := w, coord := n, nsid := ns, stripe := st, share := sh, data := data }] }) 3 n [w] := by
  obtain ⟨hjoin, hm⟩ := hj
  obtain ⟨hmem, hpos, hlen⟩ := hs
  unfold State.stripePrepare
  simp only [hjoin, hm, State.groupBar_pass hp, hmem, hpos, hlen, hr.1, hr.2, Bool.not_true, Bool.or_false, Bool.false_eq_true,
    if_false, ne_eq, not_true_eq_false, decide_false]

section
variable {s : State} {w : Nat} {p : Prepared} (hp : s.group.prepared.find? (fun (p : Prepared) => p.write == w) = some p)
include hp

/-- A COMMIT that decides nothing here. -/
theorem State.stripeCommit_decided (h : p.share + 1 ≠ s.groupW ∨ s.group.decisions.contains w = true) (pl : Placement) :
    s.stripeCommit w pl = if p.coord = s.group.self ∧ p.decided = false then s else s.applyPrepared p pl := by
  have hd : (decide (p.share + 1 = s.groupW) && !s.group.decisions.contains w) = false := by
    rcases h with h | h
    · simp [h]
    · simp only [h, Bool.not_true, Bool.and_false]
  rw [State.stripeCommit, hp]
  simp only [hd, Bool.false_eq_true, if_false, Bool.not_eq_true']

/-- A COMMIT at the Q holder, which journals the decision and tells the coordinator. -/
theorem State.stripeCommit_deciding (hw : p.share + 1 = s.groupW) (hd : s.group.decisions.contains w = false)
    (hc : p.coord ≠ s.group.self) (pl : Placement) : s.stripeCommit w pl =
      State.applyPrepared ((s.setGroup { s.group with decisions := s.group.decisions ++ [w] }).groupSend 3 p.coord [w]) p pl := by
  rw [State.stripeCommit, hp]
  simp only [hw, hd, decide_true, Bool.not_false, Bool.and_true, if_true]
  refine if_neg fun h => hc (h.1.trans ?_)
  rw [State.groupSend_group]
  rfl

end

/-- A prepared share whose place is free is journaled there and released. -/
theorem State.applyPrepared_placed {s : State} {p : Prepared} {pl : Placement}
    (ho : (s.openBands false pl.bands).placesOk pl.pmas = true) (hl : pl.pmas.length = 1) : s.applyPrepared p pl =
      State.setGroup ((s.openBands false pl.bands).placeUnit p.nsid (s.shareUnit p.stripe p.share) (pl.pmas.headD 0) p.data)
        { s.group with prepared := s.group.prepared.erase p } := by
  rw [State.applyPrepared, ho, hl]
  show State.setGroup _ { (State.placeUnit _ _ _ _ _).group with prepared := (State.placeUnit _ _ _ _ _).group.prepared.erase p } = _
  rw [State.placeUnit_group, State.openBands_group]

/-- This device knows the decision on a write (R534). -/
def State.decisionKnown (s : State) (w : Nat) : Bool :=
  s.group.decisions.contains w || s.group.prepared.any (fun (p : Prepared) => p.write == w && p.decided)

theorem State.prepareResolve_unknown {s : State} {w : Nat} (hk : s.decisionKnown w = false) (pl : Placement) :
    s.prepareResolve w false pl =
      let u := s.groupCast 13 [w]
      let dropped := u.setGroup { u.group with prepared := u.group.prepared.filter (fun (p : Prepared) => p.write != w) }
      match s.group.writes.find? (fun (x : StripeWrite) => x.write == w) with
      | some x => dropped.stripeEnded x 0x0E0B
      | none => dropped := by
  rw [State.decisionKnown] at hk
  unfold State.prepareResolve
  simp only [Bool.false_or, hk, Bool.false_eq_true, if_false, State.groupCast_group] <;> rfl

theorem State.prepareResolve_known {s : State} {w : Nat} {b : Bool} (hb : b = true ∨ s.decisionKnown w = true)
    (hw : s.group.writes.find? (fun (x : StripeWrite) => x.write == w) = none) (pl : Placement) : s.prepareResolve w b pl =
      match s.group.prepared.find? (fun (p : Prepared) => p.write == w) with
      | some p => (s.groupCast 13 [w]).applyPrepared p pl
      | none => s.groupCast 13 [w] := by
  have hc : (b || s.decisionKnown w) = true := by simpa using hb
  rw [State.decisionKnown] at hc
  unfold State.prepareResolve
  simp only [hc, if_true, State.groupCast_group, hw] <;> rfl

theorem State.stripeEnded_last {s : State} {x : StripeWrite} (h : s.group.writes = [x]) :
    (x.failed = false → s.stripeEnded x 0 = (s.setGroup { s.group with writes := [] }).reply x.path 0) ∧
      s.stripeEnded x 0x0E0B = (State.bump (s.setGroup { s.group with writes := [] }) 0xB00038 0xB0003C 2).reply x.path 0x0E0B := by
  have hl : s.group.writes.filter (fun (y : StripeWrite) => y.write != x.write) = [] := by
    rw [h]
    simp
  refine ⟨fun hf => ?_, ?_⟩
  · rw [State.stripeEnded, hl, hf]
    rfl
  · rw [State.stripeEnded, hl]
    simp
    rfl

/-! ### Bring-ins -/

theorem exec_rebuildStripe (s : State) (pos : Nat) (sh : List (Nat × List Byte)) (pl : Placement) :
    exec (.rebuildStripe pos sh pl) s = .next (s.rebuildStripe pos sh pl) := rfl

theorem exec_rebuildComplete (s : State) (pos : Nat) : exec (.rebuildComplete pos) s = .next (s.rebuildComplete pos) := rfl

section
variable {s : State} {pos : Nat} {r : Rebuild} (hr : s.group.rebuilds.find? (fun (r : Rebuild) => r.pos == pos) = some r)
include hr

theorem State.rebuildComplete_at : s.rebuildComplete pos =
    if r.nsIndex ≥ s.group.namespaces.length then s.commitGroup (.active pos) else s := by
  rw [State.rebuildComplete, hr]

theorem State.rebuildStripe_done (h : s.group.namespaces.length ≤ r.nsIndex) (sh : List (Nat × List Byte)) (pl : Placement) :
    s.rebuildStripe pos sh pl = s := by
  rw [State.rebuildStripe, hr]
  simp only [List.getElem?_eq_none h]

section
variable {g : GroupNs} (hg : s.group.namespaces[r.nsIndex]? = some g)
include hg

theorem State.rebuildStripe_locked (hl : s.stripeLocked g.nsid r.next = true) (sh : List (Nat × List Byte)) (pl : Placement) :
    s.rebuildStripe pos sh pl = s := by
  rw [State.rebuildStripe, hr]
  simp only [hg, hl, if_true]

/-- A device that is not the one brought in notes the stripe. -/
theorem State.rebuildStripe_elsewhere (hl : s.stripeLocked g.nsid r.next = false) (hp : s.group.self ≠ pos)
    (sh : List (Nat × List Byte)) (pl : Placement) : s.rebuildStripe pos sh pl = s.setRebuild (r.step g.stripes) := by
  rw [State.rebuildStripe, hr]
  simp only [hg, hl, Bool.false_eq_true, if_false]
  exact if_pos (.inl hp)

/-- The spare decodes its share of the stripe and writes it. -/
theorem State.rebuildStripe_written {sh : List (Nat × List Byte)} {pl : Placement} {b : List Byte}
    (h : s.group.self = pos ∧ s.stripeLocked g.nsid r.next = false ∧ s.stripeLost g.nsid r.next = false ∧ sh ≠ [])
    (hb : let j := (pos + s.groupG - r.next % s.groupG) % s.groupG
      j < s.groupW ∧ rebuildShare s.groupW j (sh.filter (fun x => decide (x.1 ≠ j))) = some b)
    (ho : (s.openBands false pl.bands).placesOk pl.pmas = true ∧ pl.pmas.length = 1) :
    let j := (pos + s.groupG - r.next % s.groupG) % s.groupG
    let u := (s.openBands false pl.bands).placeUnit g.nsid (s.shareUnit r.next j) (pl.pmas.headD 0) b
    s.rebuildStripe pos sh pl = State.setRebuild (u.setGroup { u.group with
      remoteShares := sh.foldl (fun m x => memWrite m (shareKey g.nsid r.next x.1) x.2) u.group.remoteShares }) (r.step g.stripes) := by
  obtain ⟨hself, hl, hlost, hsh⟩ := h
  obtain ⟨hj, hb⟩ := hb
  rw [State.rebuildStripe, hr]
  simp only [hg, hl, Bool.false_eq_true, if_false]
  rw [if_neg (by simp [hself, hlost, hsh, hj]), hb]
  simp only [ho.1, ho.2, beq_self_eq_true, Bool.and_self, if_true]

end
end

theorem Rebuild.step_pos (r : Rebuild) (n : Nat) : (r.step n).pos = r.pos := by
  unfold Rebuild.step
  split <;> rfl

/-! ### Streams of the group -/

theorem exec_rehomeEventResend (s : State) (c : Nat) : exec (.rehomeEventResend c) s = .next (s.rehomeResend c) := rfl

section
variable {s : State} {n : Nat} (hj : s.groupJoined = true) (hp : s.entryPermits n = true ∧ s.group.gen < 2 ^ 32)
include hj hp

theorem State.mirrorUpdate_stored (m : Mirror) : s.mirrorUpdate n s.group.gen m = State.groupSend (s.setGroup { s.group with
    mirrors := s.group.mirrors.filter (fun (x : Mirror) => x.streamId != m.streamId) ++ [m] }) 3 n [m.streamId] := by
  rw [State.mirrorUpdate, hj, State.groupBar_pass hp]
  rfl

theorem State.streamTableUpdate_stored (block : List Byte) (c p q : Nat) (rm : Bool) :
    s.streamTableUpdate n s.group.gen block c p q rm =
      let e : GroupStream := { params := streamParams block, ctx := c, primary := p, partner := q }
      (s.storeStream e rm).groupSend 3 n [e.params.streamId] := by
  rw [State.streamTableUpdate, hj, State.groupBar_pass hp]
  rfl

end

theorem State.rehomeResend_at {s : State} {c : Nat} {x : StreamCtx} (h : s.ctxOf c = some x) : s.rehomeResend c =
    if s.group.rehoming.contains c then s.sendStreamEvent c x 0x0E0C x.ack else s := by
  rw [State.rehomeResend, h]

/-! ### GRP_CFG -/

theorem exec_grpCfgWrite (s : State) (v : Word) : exec (.grpCfgWrite v) s = .next (s.grpCfgWrite v) := rfl

theorem State.grpCfgWrite_on {s : State} (h : s.regFld 0xB00000 0 1 = 1) (v : Word) : s.grpCfgWrite v =
    if v.getLsbD 0 then s
    else (s.setBits 0xB00000 0 1 0).setGroup {
      gen := s.group.gen, namespaces := s.group.namespaces, prepared := s.group.prepared, decisions := s.group.decisions,
      remoteShares := s.group.remoteShares, nextWrite := s.group.nextWrite } := by
  have ho : (s.regFld grpBase 0 1 == 1) = true := beq_iff_eq.mpr h
  unfold State.grpCfgWrite
  simp only [ho, Bool.true_and, if_true]
  rfl

/-- The states of the entries when a group of `m` positions begins: its positions, and a spare that has a device. -/
def startStates (s : State) (m : Nat) : List Nat :=
  (List.range 65).map (fun n => if n < m then 1 else if n = 64 ∧ s.entryDevice 64 ≠ 0 then 1 else 0)

/-- The state in which ENABLE has risen with `m` members. -/
def State.enabled (s : State) (m : Nat) : State :=
  let u := s.setReg 0xB00000 (BitVec.ofNat 32 (1 + 2 * m))
  let u := u.setGroup { u.group with states := startStates u m, proposal := none }
  u.setGroup { u.group with self := u.ownEntry }

theorem State.grpCfgWrite_off {s : State} (h : s.regFld 0xB00000 0 1 ≠ 1) (v : Word) : s.grpCfgWrite v =
    if v.getLsbD 0 then
      if decide (8 ≤ fld v 1 7 ∧ fld v 1 7 ≤ 64) && s.positionsOk (fld v 1 7) then s.enabled (fld v 1 7) else s.log 0x0E08 0xB00000
    else s.setReg 0xB00000 (BitVec.ofNat 32 (2 * fld v 1 7)) := by
  have ho : (s.regFld grpBase 0 1 == 1) = false := beq_eq_false_iff_ne.mpr h
  unfold State.grpCfgWrite
  simp only [ho, Bool.false_and, Bool.false_eq_true, if_false]
  rfl

theorem startStates_getD (s : State) (m : Nat) {n : Nat} (hn : n < 64) : (startStates s m).getD n 0 = if n < m then 1 else 0 := by
  have h : n ≠ 64 := by omega
  simp [startStates, List.getD_eq_getElem?_getD, List.getElem?_range (show n < 65 by omega), h]

theorem State.enabled_entryState (s : State) (m : Nat) {n : Nat} (hn : n < 64) :
    (s.enabled m).entryState n = if n < m then 1 else 0 := startStates_getD _ m hn

/-- Settles O60, by the checks and the effect of each message, timer and request. -/
theorem stripeGroupsWork : Obligations.StripeGroupsWork := by
  unfold Obligations.StripeGroupsWork
  refine ⟨fun s => ⟨fun h => ?_, fun h => ?_, fun k b => ⟨?_, ?_⟩⟩,
    fun s n gen dg r ch v m t w ns st sh data block c p q rm hj hb hn hm => ?_, fun s n hj hn hp hh => ?_,
    fun s n hj hn => ⟨?_, fun hq hs => ?_⟩, fun s n ch hj hp hn hq => ?_, fun s n p hj hp hpr hn => ?_,
    fun s hj => ⟨fun hq => ?_, fun hh => ?_, fun hh => ?_⟩, fun s d ready => ?_, fun s ns n st ok => ?_, fun s ns k ok => ?_,
    fun s p ns lba data hs hd => ⟨fun st hr => ?_, fun hr => ⟨fun hh => ?_, fun hh hbad => ?_, fun hh hbad x hx => ?_⟩⟩,
    fun s p ns x new => ⟨State.coordinator_alive, fun hc => State.startStripe_forwarded hc p ns new⟩,
    fun s n w ns st sh data hj hp hs hr => ?_, fun s w pl p hp => ?_, fun s w pl => ?_, fun s x h => State.stripeEnded_last h,
    fun s pos sh pl r hr => ?_, fun s pos sh pl r g b hr hg h hb ho => ?_, fun s n m block c p q hj hp => ?_,
    fun s c x hx => ⟨fun h => ?_, fun h => ?_⟩, fun s v => ?_⟩
  · rw [exec_heartbeatSend, State.heartbeatSend, if_pos h]
  · rw [exec_heartbeatSend, State.heartbeatSend, h, if_neg Bool.false_ne_true]
  · rw [State.groupCast_eq]; rfl
  · rw [State.groupCast_eq]
  · obtain ⟨hno, hyes⟩ := State.groupBar_eq_some hb
    rw [exec_heartbeatReceive, exec_proposalRx, exec_voteRx, exec_stripePrepare, exec_mirrorUpdate, exec_streamTableUpdate,
      State.heartbeatReceive_barred hj hb hn, State.proposalRx_barred hj hb, State.voteRx_barred hj hb,
      State.stripePrepare_barred hj hb hm, State.mirrorUpdate_barred hj hb, State.streamTableUpdate_barred hj hb]
    exact ⟨hno, hyes, rfl, rfl, rfl, rfl, rfl, rfl, State.groupSend_other hn.1 9 [r]⟩
  · refine ⟨_, exec_heartbeatReceive .., ?_⟩
    rw [State.heartbeatReceive_same hj hn hp hh]
    refine ⟨rfl, ?_, fun x hx hxn => ?_, fun m hm x hx => ?_, ?_, mem_addEntry _ n, ?_, rfl, rfl, rfl⟩
    · simp [State.setGroup]
    · rcases List.mem_append.mp hx with hx | hx
      · exact absurd hxn (of_decide_eq_true (List.mem_filter.mp hx).2)
      · rw [List.mem_singleton.mp hx]
    · exact List.mem_append_left _ (List.mem_filter.mpr ⟨hx, decide_eq_true hm⟩)
    · simp [State.setGroup]
    · simp [State.setGroup]
  · rw [exec_peerSuspect, State.peerSuspect_joined hj hn]
  · rw [State.groupCast_eq]
    exact State.addSuspect_few hs hq
  · refine ⟨_, exec_proposalRx .., ?_⟩
    rw [State.proposalRx_kept hj hp hn hq]
    exact ⟨rfl, rfl, rfl⟩
  · obtain ⟨hack, hsus⟩ := State.voteRx_pass hj hp
    refine ⟨fun hq => ?_, fun hq => ?_, fun g hg => ?_, fun x => ?_, fun x => ?_⟩
    · rw [exec_voteRx, hack, State.ackProposal_kept hpr hn, if_neg (by omega)]; rfl
    · rw [exec_voteRx, hack, State.ackProposal_kept hpr hn, if_pos hq]; rfl
    · rw [exec_voteRx, hack, State.ackProposal_other hpr hg]
    · rw [exec_voteRx, hsus]
    · obtain ⟨st, h⟩ := s.commitGroup_active x
      rw [h]
      exact ⟨rfl, rfl, rfl, fun r hr => of_decide_eq_true (List.mem_filter.mp hr).2⟩
  · rw [exec_quorumHold, State.quorumHold_few hj hq]
  · rw [exec_quorumLost, State.quorumLost_eq hj, if_pos hh]
  · rw [exec_quorumLost, State.quorumLost_eq hj, hh, if_neg Bool.false_ne_true]
  · obtain ⟨hout, hlost, hopen⟩ := s.groupGate_cases
    refine ⟨fun h => ?_, fun h => ?_, fun h0 h4 h5 => ⟨fun hr => ?_, fun r hr he hready => ⟨?_, ?_, ?_⟩⟩⟩
    · rw [exec_grpSpareAdd, State.spareAdd_gated (hout h)]; rfl
    · rw [exec_grpSpareAdd, State.spareAdd_gated (hlost h)]; rfl
    · rw [exec_grpSpareAdd, State.spareAdd_refused (hopen h0 h4 h5) hr]
    · rw [exec_grpSpareAdd, hready, State.spareAdd_proposes (hopen h0 h4 h5) hr he]
    · rw [State.propose_spare_group]
    · rw [State.propose_spare_group]
  · simp only [exec_groupNsCreate, exec_groupNsDelete, exec_groupNsSeal, exec_groupNsUnseal]
    refine ⟨fun h => ?_, fun h => ?_, fun h => ?_, fun h => ?_, fun h => ?_, fun h => ?_, fun h => ?_, fun h => ?_, rfl, rfl, rfl, rfl⟩
    · rw [State.nsCtrl_refused h]; rfl
    · rw [State.nsCtrl_asked h]; rfl
    · rw [State.nsCtrl_refused h]; rfl
    · rw [State.nsCtrl_asked h]; rfl
    · rw [State.nsCtrl_refused h]; rfl
    · rw [State.nsCtrl_asked h]; rfl
    · rw [State.nsCtrl_refused h]; rfl
    · rw [State.nsCtrl_asked h]; rfl
  · refine ⟨fun a st h => State.nsApply_gated h a ns k ok, fun hg hq => ?_, fun hg hq hk => ?_, fun hg hm => ⟨?_, fun hq => ⟨?_, ?_⟩⟩,
      fun hg hq hk hd hr => State.nsApply_made hg hq hk hd hr, fun hg hm hr => ?_, fun hg hm hr => ?_, fun hg hm hr => ?_⟩
    · rw [State.nsApply_create hg, if_pos hq]
    · rw [State.nsApply_create hg, hq, if_neg Bool.false_ne_true, if_pos hk]
    · rw [State.nsApply_absent hg (by decide) hm, if_neg (by simp)]
    · rw [State.nsApply_absent hg (by decide) hm, hq, if_neg (by simp)]
    · rw [State.nsApply_absent hg (by decide) hm, hq, if_neg (by simp)]
    · obtain ⟨h0, hl⟩ := State.nsApply_removed hg hm hr k
      exact ⟨h0, by rw [State.memberNs, hl]; simp⟩
    · obtain ⟨h0, l, hl⟩ := State.nsApply_sealed hg hm hr k ok
      exact ⟨h0, fun g hmem hn => isSealed_of_mem_mark (hl ▸ hmem) hn⟩
    · obtain ⟨h0, l, hl⟩ := State.nsApply_unsealed hg hm hr k ok
      exact ⟨h0, fun g hmem hn => isSealed_of_mem_mark (hl ▸ hmem) hn⟩
  · rw [exec_groupWrite, State.groupWrite_refused hs hd hr]
  · rw [exec_groupWrite, State.groupWrite_held hs hd hr hh]
  · rw [exec_groupWrite, State.groupWrite_unreadable hs hd hr hh hbad]
  · rw [exec_groupWrite, State.groupWrite_oneStripe hs hd hr hh hbad hx]
  · rw [exec_stripePrepare, State.stripePrepare_held hj hp hs hr]
  · refine ⟨fun h => ⟨fun hc => ?_, fun hc hdec => ?_⟩, fun hw hd hc => ?_, State.applyPrepared_placed⟩
    · rw [exec_stripeCommit, State.stripeCommit_decided hp h, if_neg (by rcases hc with hc | hc <;> simp [hc])]
    · rw [exec_stripeCommit, State.stripeCommit_decided hp h, if_pos ⟨hc, hdec⟩]
    · rw [exec_stripeCommit, State.stripeCommit_deciding hp hw hd hc]
  · refine ⟨fun hk hw => ?_, fun hk x hw => ?_, fun b hb hw => ⟨fun p hp => ?_, fun hp => ?_⟩⟩
    · rw [exec_prepareResolve, State.prepareResolve_unknown hk, hw]
    · rw [exec_prepareResolve, State.prepareResolve_unknown hk, hw]
    · rw [exec_prepareResolve, State.prepareResolve_known hb hw, hp]
    · rw [exec_prepareResolve, State.prepareResolve_known hb hw, hp]
  · refine ⟨fun g hg => ⟨fun hl => ?_, fun hl hp => ?_⟩, fun h => ⟨?_, ?_⟩, fun h => ?_⟩
    · rw [exec_rebuildStripe, State.rebuildStripe_locked hr hg hl]
    · rw [exec_rebuildStripe, State.rebuildStripe_elsewhere hr hg hl hp]; rfl
    · rw [exec_rebuildStripe, State.rebuildStripe_done hr h]
    · rw [exec_rebuildComplete, State.rebuildComplete_at hr, if_pos h]
    · rw [exec_rebuildComplete, State.rebuildComplete_at hr, if_neg (by omega)]
  · refine ⟨_, exec_rebuildStripe .., ?_⟩
    rw [State.rebuildStripe_written hr hg h hb ho]
    constructor
    · simp only [State.setRebuild, State.setGroup, Rebuild.step_pos, State.placeUnit_group, State.openBands_group]
    · simp only [State.setRebuild, State.setGroup]
  · rw [exec_mirrorUpdate, exec_streamTableUpdate, exec_streamTableUpdate, State.mirrorUpdate_stored hj hp,
      State.streamTableUpdate_stored hj hp, State.streamTableUpdate_stored hj hp]
    exact ⟨rfl, rfl, rfl⟩
  · rw [exec_rehomeEventResend, State.rehomeResend_at hx, if_pos h]
  · rw [exec_rehomeEventResend, State.rehomeResend_at hx, h, if_neg Bool.false_ne_true]
  · refine ⟨fun ho hv => ?_, fun ho hv => ⟨_, exec_grpCfgWrite .., ?_⟩, fun ho hv hm => ?_,
      fun ho hv h8 h64 hok => ⟨_, exec_grpCfgWrite .., ?_⟩, fun ho hv => ?_⟩
    · rw [exec_grpCfgWrite, State.grpCfgWrite_on ho, if_pos hv]
    · rw [State.grpCfgWrite_on ho, hv, if_neg Bool.false_ne_true]
      exact ⟨rfl, rfl, rfl, rfl, rfl, rfl, rfl, rfl⟩
    · rw [exec_grpCfgWrite, State.grpCfgWrite_off ho, if_pos hv, if_neg]
      intro h
      rw [Bool.and_eq_true, decide_eq_true_eq] at h
      rcases hm with hm | hm | hm
      · omega
      · omega
      · rw [hm] at h; cases h.2
    · rw [State.grpCfgWrite_off ho, if_pos hv, if_pos (by rw [hok, decide_eq_true ⟨h8, h64⟩]; rfl)]
      refine ⟨rfl, rfl, fun n hn => ?_, fun n hn hn' => ?_, rfl, rfl⟩
      · rw [State.enabled_entryState s _ (by omega), if_pos hn]
      · rw [State.enabled_entryState s _ hn', if_neg (by omega)]
    · rw [exec_grpCfgWrite, State.grpCfgWrite_off ho, hv, if_neg Bool.false_ne_true]

end Sys2Proof.Machine

namespace Sys2Proof.Machine

/-! ### The reset state and the register file -/

/-- Settles O3: every field of the reset state has its default. -/
theorem resetStateIsCanonical : Obligations.ResetStateIsCanonical := by
  unfold Obligations.ResetStateIsCanonical
  exact ⟨rfl, rfl, rfl, fun _ => rfl, rfl, rfl⟩

/-- Settles O6, by the rules of a read after a write. -/
theorem registerFileReadsAsWritten : Obligations.RegisterFileReadsAsWritten := by
  unfold Obligations.RegisterFileReadsAsWritten
  exact fun s off v h => ⟨s.reg_setReg off v h, fun o ho => s.reg_setReg_ne off o v ho, s.setReg_regsWf off v h⟩

end Sys2Proof.Machine


namespace Sys2Proof.Machine

-- One proof after another: each lemma waits for those it uses, and hundreds of waiting threads exhaust the memory for stacks.
set_option Elab.async false

/-! ### The register file and the memories stay canonical

`State.stores` is what the canonical form speaks of. An update of other fields leaves it; every write of a register or of a byte
goes through `assocSet`, `memSet` or `memZero`, which keep the form. So each operation of the model keeps it: one lemma per
operation, each from those of the operations it calls. -/

/-- The register words and the bytes that a state stores. -/
structure Stores where
  regs : List (Nat × Word)
  bulk : Memory
  host : Memory
  nand : Memory
  tile : Memory
  region : Memory
  staging : Memory
  trace : Memory
  shares : Memory
  runs : List Memory

def State.stores (s : State) : Stores where
  regs := s.regs
  bulk := s.bulkMem
  host := s.hostMem
  nand := s.nand.store
  tile := s.field.tileMem
  region := s.field.regionMem
  staging := s.yqi.staging
  trace := s.obs.mem
  shares := s.group.remoteShares
  runs := s.mgr.runs.map (·.mem)

/-- The canonical form of what is stored, part by part. -/
structure Stores.Canon (x : Stores) : Prop where
  regs : regsWfFrom 0 x.regs = true
  bulk : Memory.wf x.bulk = true
  host : Memory.wf x.host = true
  nand : Memory.wf x.nand = true
  tile : Memory.wf x.tile = true
  region : Memory.wf x.region = true
  staging : Memory.wf x.staging = true
  trace : Memory.wf x.trace = true
  shares : Memory.wf x.shares = true
  runs : ∀ m ∈ x.runs, Memory.wf m = true

/-- What a state stores is in the canonical form. -/
def State.Canon (s : State) : Prop := s.stores.Canon

theorem State.storesWf_iff (s : State) : s.storesWf = true ↔ s.Canon := by
  have hr : (∀ m ∈ s.stores.runs, Memory.wf m = true) ↔ s.mgr.runs.all (fun r => Memory.wf r.mem) = true := by
    simp [State.stores]
  rw [State.storesWf]
  simp only [Bool.and_eq_true, ← hr]
  exact ⟨fun ⟨⟨⟨⟨⟨⟨⟨⟨⟨a, b⟩, c⟩, d⟩, e⟩, f⟩, g⟩, h⟩, i⟩, j⟩ => ⟨a, b, c, d, e, f, g, h, i, j⟩,
    fun ⟨a, b, c, d, e, f, g, h, i, j⟩ => ⟨⟨⟨⟨⟨⟨⟨⟨⟨a, b⟩, c⟩, d⟩, e⟩, f⟩, g⟩, h⟩, i⟩, j⟩⟩

namespace State.Canon

/-- An update of fields that store no register word and no byte keeps the form. Both sides of the equation are written out, so
that it is checked field by field. -/
theorem update {s t : State} (h : s.Canon)
    (e : Stores.mk t.regs t.bulkMem t.hostMem t.nand.store t.field.tileMem t.field.regionMem t.yqi.staging t.obs.mem
        t.group.remoteShares (t.mgr.runs.map (·.mem)) =
      Stores.mk s.regs s.bulkMem s.hostMem s.nand.store s.field.tileMem s.field.regionMem s.yqi.staging s.obs.mem
        s.group.remoteShares (s.mgr.runs.map (·.mem)) := by rfl) : t.Canon := by
  rw [State.Canon, State.stores, e]
  exact h

theorem ite {c : Prop} [Decidable c] {s t : State} (hs : s.Canon) (ht : t.Canon) : (if c then s else t).Canon :=
  ite_holds hs ht

theorem foldl {α : Type} {f : State → α → State} {s : State} (h : s.Canon) (hf : ∀ s x, s.Canon → (f s x).Canon) (l : List α) :
    (l.foldl f s).Canon := by
  induction l generalizing s with
  | nil => exact h
  | cons x l ih => exact ih (hf s x h)

/-- The state of a pair that an operation returns. -/
theorem of_pair {α : Type} {p : α × State} (h : p.2.Canon) {a : α} {s : State} (e : p = (a, s)) : s.Canon := by
  rw [e] at h
  exact h

/-! Writes of a register word or of bytes, store by store. -/

theorem setReg {s : State} (h : s.Canon) (off v) : (s.setReg off v).Canon :=
  { h with regs := s.setReg_regsWf off v h.regs }

theorem setBulk {s : State} (h : s.Canon) {m : Memory} (hm : Memory.wf m = true) : State.Canon { s with bulkMem := m } :=
  { h with bulk := hm }

theorem setHost {s : State} (h : s.Canon) {m : Memory} (hm : Memory.wf m = true) : State.Canon { s with hostMem := m } :=
  { h with host := hm }

theorem setNand {s : State} (h : s.Canon) {k : MediaKept} (hm : Memory.wf k.store = true) : State.Canon { s with nand := k } :=
  { h with nand := hm }

theorem setTileMem {s : State} (h : s.Canon) {m : Memory} (hm : Memory.wf m = true) :
    State.Canon { s with field := { s.field with tileMem := m } } :=
  { h with tile := hm }

theorem setRegionMem {s : State} (h : s.Canon) {m : Memory} (hm : Memory.wf m = true) :
    State.Canon { s with field := { s.field with regionMem := m } } :=
  { h with region := hm }

theorem setYqi {s : State} (h : s.Canon) {y : Yqi} (hm : Memory.wf y.staging = true) : State.Canon { s with yqi := y } :=
  { h with staging := hm }

theorem setObs {s : State} (h : s.Canon) {o : Obs} (hm : Memory.wf o.mem = true) : State.Canon { s with obs := o } :=
  { h with trace := hm }

theorem setShares {s : State} (h : s.Canon) {g : Group} (hm : Memory.wf g.remoteShares = true) : State.Canon { s with group :=
    g } :=
  { h with shares := hm }

theorem setMgr {s : State} (h : s.Canon) {m : RunMgr} (hm : ∀ r ∈ m.runs, Memory.wf r.mem = true) : State.Canon { s with mgr :=
    m } :=
  { h with runs := List.forall_mem_map.2 hm }

theorem run_mem {s : State} (h : s.Canon) {r : Run} (hr : r ∈ s.mgr.runs) : Memory.wf r.mem = true :=
  h.runs r.mem (List.mem_map.2 ⟨r, hr, rfl⟩)

end State.Canon

/-- Where a block takes a bus write, its state is canonical. -/
def TakenCanon (r : Option State) : Prop := ∀ t, r = some t → t.Canon

namespace TakenCanon

theorem some {t : State} (h : t.Canon) : TakenCanon (some t) := fun _ e => Option.some.inj e ▸ h
theorem none : TakenCanon none := fun _ e => nomatch e

theorem ite {c : Prop} [Decidable c] {a b : Option State} (ha : TakenCanon a) (hb : TakenCanon b) :
    TakenCanon (if c then a else b) := ite_holds ha hb

theorem getD {r : Option State} (hr : TakenCanon r) {d : State} (hd : d.Canon) : (r.getD d).Canon := by
  cases r with
  | none => exact hd
  | some t => exact hr t rfl

end TakenCanon

/-- Steps that each keep a memory canonical keep it so together. -/
theorem memFoldl_wf {α : Type} {f : Memory → α → Memory} (hf : ∀ m x, Memory.wf m = true → Memory.wf (f m x) = true)
    (l : List α) {m : Memory} (hm : Memory.wf m = true) : Memory.wf (l.foldl f m) = true := by
  induction l generalizing m with
  | nil => exact hm
  | cons x l ih => exact ih (hf m x hm)

/-- Marking pages as used leaves what a run's memory holds. -/
@[simp] theorem Run.touch_mem (r : Run) (write page now) : (r.touch write page now).mem = r.mem := rfl

namespace State.Canon

/-! Updates of one block's state. -/

theorem setTile {s : State} (h : s.Canon) (n t) : (s.setTile n t).Canon := h.update
theorem setCtr {s : State} (h : s.Canon) (n c) : (s.setCtr n c).Canon := h.update
theorem setCtxs {s : State} (h : s.Canon) (l) : (s.setCtxs l).Canon := h.update
theorem setGq {s : State} (h : s.Canon) (x) : (s.setGq x).Canon := h.update
theorem requestReset {s : State} (h : s.Canon) (reason) : (s.requestReset reason).Canon := h.update

/-- An update of the group that keeps its shares. -/
theorem setGroup {s : State} (h : s.Canon) {g : Group} (e : g.remoteShares = s.group.remoteShares := by rfl) :
    (s.setGroup g).Canon :=
  h.setShares (e ▸ h.shares)

theorem setRuns {s : State} (h : s.Canon) {rs : List Run} (hr : ∀ r ∈ rs, Memory.wf r.mem = true) : (s.setRuns rs).Canon :=
  h.setMgr hr

/-- An update of a run that keeps its memory, or writes it byte by byte. -/
theorem updRun {s : State} (h : s.Canon) {slot : Nat} {f : Run → Run}
    (hf : ∀ r, Memory.wf r.mem = true → Memory.wf (f r).mem = true := by exact fun _ h => h) : (s.updRun slot f).Canon :=
  h.setRuns <| List.forall_mem_map.2 fun r hr => by
    split
    · exact hf r (h.run_mem hr)
    · exact h.run_mem hr

/-! The operations of Machine/Ops. -/

@[simp] theorem setBits {s : State} (h : s.Canon) (off lo len x) : (s.setBits off lo len x).Canon := h.setReg ..
@[simp] theorem emit {s : State} (h : s.Canon) (e) : (s.emit e).Canon := h.update
@[simp] theorem advance {s : State} (h : s.Canon) (n) : (s.advance n).Canon := h.update
@[simp] theorem takeFree {s : State} (h : s.Canon) : s.takeFree.2.Canon := h.update

@[simp] theorem bumpBy {s : State} (h : s.Canon) (off o b n) : (s.bumpBy off o b n).Canon := by
  unfold State.bumpBy
  exact .ite ((h.setReg ..).setBits ..) (h.setReg ..)

@[simp] theorem bump {s : State} (h : s.Canon) (off o b) : (s.bump off o b).Canon := h.bumpBy ..
@[simp] theorem vocabLookups {s : State} (h : s.Canon) : s.vocabLookups.Canon := (h.update.bumpBy ..).bumpBy ..

@[simp] theorem writeAnchorWith {s : State} (h : s.Canon) (flushed img startSeq) :
    (s.writeAnchorWith flushed img startSeq).Canon := by
  obtain ⟨_, _, _, e⟩ := s.writeAnchorWith_frame flushed img startSeq
  rw [e]
  exact h.update

@[simp] theorem writeAnchor {s : State} (h : s.Canon) (flushed) : (s.writeAnchor flushed).Canon := by
  obtain ⟨_, _, _, e⟩ := s.writeAnchor_frame flushed
  rw [e]
  exact h.update

@[simp] theorem issueSeq {s : State} (h : s.Canon) : s.issueSeq.2.Canon := by
  obtain ⟨_, _, _, e⟩ := s.issueSeq_frame
  rw [e]
  exact h.update

@[simp] theorem logEntry {s : State} (h : s.Canon) (e) : (s.logEntry e).Canon := by
  unfold State.logEntry
  split
  · exact .ite h.update h.update
  · exact .ite (h.issueSeq.update.setBits ..) h.issueSeq.update

@[simp] theorem log {s : State} (h : s.Canon) (st block i0 i1 i2 detail nsid) : (s.log st block i0 i1 i2 detail nsid).Canon :=
  h.logEntry ..

/-! The operations of Machine/Ops. -/

@[simp] theorem releaseHeldLog {s : State} (h : s.Canon) : s.releaseHeldLog.Canon := by
  unfold State.releaseHeldLog
  exact h.update.foldl (fun _ _ h => h.logEntry ..) _

@[simp] theorem quoinDenied {s : State} (h : s.Canon) (off bit) : (s.quoinDenied off bit).Canon := by
  unfold State.quoinDenied
  exact .ite (((h.bump ..).log ..).update) (h.bump ..)

@[simp] theorem plainWrite {s : State} (h : s.Canon) (off new) : (s.plainWrite off new).Canon := by
  unfold State.plainWrite
  split
  · exact h
  · exact (Canon.ite (h.quoinDenied ..) h).setReg ..

@[simp] theorem setFn {s : State} (h : s.Canon) (g f) : (s.setFn g f).Canon := by
  unfold State.setFn
  exact h.update

@[simp] theorem raiseVector {s : State} (h : s.Canon) (fn v) : (s.raiseVector fn v).Canon := by
  unfold State.raiseVector
  split
  · exact h
  · exact .ite ((h.setFn ..).emit ..) ((h.setFn ..).setFn ..)

@[simp] theorem wakeEvent {s : State} (h : s.Canon) (c) : (s.wakeEvent c).Canon := by
  unfold State.wakeEvent
  split
  · exact h
  · split
    · exact h.update
    · exact h.update
    · exact h

/-! The operations of Machine/MediaMap. -/

@[simp] theorem healthBump {s : State} (h : s.Canon) (i n) : (s.healthBump i n).Canon := by
  unfold State.healthBump
  exact h.update

@[simp] theorem countReconstructs {s : State} (h : s.Canon) (ns addr len) : (s.countReconstructs ns addr len).Canon := by
  unfold State.countReconstructs
  exact .ite h ((h.healthBump ..).bumpBy ..)

/-! The operations of Machine/NetOps. -/

@[simp] theorem poolWarn {s : State} (h : s.Canon) (die i) : (s.poolWarn die i).Canon := by
  unfold State.poolWarn
  exact .ite ((h.update.bump ..).log ..) (.ite h.update h)

@[simp] theorem poolGive {s : State} (h : s.Canon) (die q index c port unit home) :
    (s.poolGive die q index c port unit home).Canon := by
  unfold State.poolGive
  exact (Canon.ite ((h.update.bump ..).bump ..) (h.update.bump ..)).poolWarn ..

@[simp] theorem noGrant {s : State} (h : s.Canon) (die size) : (s.noGrant die size).Canon := by
  unfold State.noGrant
  exact h.bump ..

@[simp] theorem poolReturn {s : State} (h : s.Canon) (b) : (s.poolReturn b).Canon := by
  unfold State.poolReturn
  extract_lets gone _ s1 s2 _
  have h1 : s1.Canon := h.update
  have h2 : s2.Canon := h1.poolWarn ..
  split
  · exact h2
  · exact h2.update.poolGive ..

@[simp] theorem poolPass {s : State} (h : s.Canon) (die c port unit size) : (s.poolPass die c port unit size).2.Canon := by
  simp only [State.poolPass]
  split
  · exact h.noGrant ..
  · exact (h.poolGive ..).poolReturn ..

@[simp] theorem setPol {s : State} (h : s.Canon) (die n tc te) : (s.setPol die n tc te).Canon := by
  unfold State.setPol
  exact h.update

@[simp] theorem police {s : State} (h : s.Canon) (die n bits pc) : (s.police die n bits pc).2.Canon := by
  simp only [State.police]
  split
  · exact h
  · exact (h.setPol ..).bump ..

@[simp] theorem policeFrame {s : State} (h : s.Canon) (port wire dscp second) :
    (s.policeFrame port wire dscp second).2.2.Canon := by
  simp only [State.policeFrame]
  split
  · split
    · exact h
    · split
      · split
        · exact h
        · exact h
      · split
        · exact h.police ..
        · exact h.police ..
  · split
    · exact h.police ..
    · split
      · split
        · exact h.police ..
        · exact h.police ..
      · split
        · exact (h.police ..).police ..
        · exact (h.police ..).police ..

@[simp] theorem policeOther {s : State} (h : s.Canon) (f second) : (s.policeOther f second).2.Canon := by
  unfold State.policeOther
  split
  · exact h
  · exact h.policeFrame ..

@[simp] theorem setInst {s : State} (h : s.Canon) (i) : (s.setInst i).Canon := by
  unfold State.setInst
  exact h.update

@[simp] theorem enqueue {s : State} (h : s.Canon) (port q f) : (s.enqueue port q f).Canon := by
  unfold State.enqueue
  exact h.setInst ..

@[simp] theorem enqueueSp0 {s : State} (h : s.Canon) (port f) : (s.enqueueSp0 port f).Canon := by
  unfold State.enqueueSp0
  exact .ite (h.noGrant ..) (.ite (h.enqueue ..) (h.bump ..))

@[simp] theorem sendHead {s : State} (h : s.Canon) (i) : (s.sendHead i).Canon := by
  unfold State.sendHead
  split
  · exact h
  · extract_lets rate elig head i' s1 _ s2 ecn portEcn ce s3 q
    have h1 : s1.Canon := h.setInst ..
    have h2 : s2.Canon := by
      unfold s2
      split
      · exact h1.update
      · exact h1
    have h3 : s3.Canon := .ite (h2.bump ..) h2
    exact (h3.emit ..).emit ..

/-! The operations of Machine/RunMem. -/

@[simp] theorem vSet {s : State} (h : s.Canon) (slot va b) : (s.vSet slot va b).Canon := by
  unfold State.vSet
  split
  · exact h
  · split
    · exact h.setTileMem (memSet_wf _ _ h.tile)
    · exact h.setRegionMem (memSet_wf _ _ h.region)
    · exact h.updRun fun _ hm => memSet_wf _ _ hm
    · exact h.setHost (memSet_wf _ _ h.host)
    · exact h

@[simp] theorem vWrite {s : State} (h : s.Canon) (slot va bs) : (s.vWrite slot va bs).Canon := by
  induction bs generalizing s va with
  | nil => exact h
  | cons b bs ih => exact ih (h.vSet ..) _

@[simp] theorem placePage {s : State} (h : s.Canon) (slot page) : (s.placePage slot page).Canon := by
  unfold State.placePage
  split
  · exact h
  · split
    · exact h
    · exact (h.countReconstructs ..).takeFree.updRun fun _ hm => memWrite_wf _ _ (memZero_wf _ _ hm)

@[simp] theorem fillRange {s : State} (h : s.Canon) (slot va len write n) : (s.fillRange slot va len write n).Canon := by
  induction n generalizing s with
  | zero => exact h
  | succ n ih =>
    rw [State.fillRange]
    split
    · exact h
    · split
      · exact ih (h.placePage ..).updRun
      · exact h

/-! The operations of Machine/GnozOps. -/

@[simp] theorem gnzBump {s : State} (h : s.Canon) (i) : (s.gnzBump i).Canon := by
  unfold State.gnzBump
  exact h.bump ..

@[simp] theorem setPath {s : State} (h : s.Canon) (p) : (s.setPath p).Canon := by
  unfold State.setPath
  exact h.update

@[simp] theorem addFlight {s : State} (h : s.Canon) (route path len) : (s.addFlight route path len).Canon := by
  unfold State.addFlight
  exact h.setPath ..

@[simp] theorem subFlight {s : State} (h : s.Canon) (route path len) : (s.subFlight route path len).Canon := by
  unfold State.subFlight
  exact h.setPath ..

@[simp] theorem mintId {s : State} (h : s.Canon) : s.mintId.2.Canon := by
  unfold State.mintId
  exact h.update.gnzBump ..

@[simp] theorem setOut {s : State} (h : s.Canon) (i m) : (s.setOut i m).Canon := by
  unfold State.setOut
  exact h.update

@[simp] theorem pumpStep {s : State} (h : s.Canon) (i) : (s.pumpStep i).2.Canon := by
  simp only [State.pumpStep]
  split
  · exact h
  · split
    · split
      · exact h
      · split
        · exact h
        · split
          · exact h
          · split
            · exact .ite h ((h.setOut ..).bump ..)
            · split
              · split
                · exact (((h.enqueue ..).gnzBump ..).setOut ..).addFlight ..
                · exact (((h.mintId.enqueue ..).gnzBump ..).setOut ..).addFlight ..
              · split
                · exact ((h.enqueue ..).setOut ..).addFlight ..
                · exact ((h.mintId.enqueue ..).setOut ..).addFlight ..
    · exact h

@[simp] theorem pumpMsg {s : State} (h : s.Canon) (i n) : (s.pumpMsg i n).Canon := by
  induction n generalizing s with
  | zero => exact h
  | succ n ih =>
    rw [State.pumpMsg]
    have hs := h.pumpStep i
    split
    · next he => exact ih (hs.of_pair he)
    · next he => exact hs.of_pair he

@[simp] theorem pump {s : State} (h : s.Canon) : s.pump.Canon := by
  unfold State.pump
  refine .ite (h.foldl (fun s i h => ?_) _) h
  split
  · exact h.pumpMsg ..
  · exact h

@[simp] theorem sendMsg {s : State} (h : s.Canon) (hdr payload owner) : (s.sendMsg hdr payload owner).Canon := by
  unfold State.sendMsg
  exact h.update.pump

@[simp] theorem sendAck {s : State} (h : s.Canon) (m status result bitmap) : (s.sendAck m status result bitmap).Canon := by
  unfold State.sendAck
  split
  · exact h
  · split
    · exact h
    · exact .ite h ((h.update.gnzBump ..).enqueueSp0 ..)

@[simp] theorem gqWrite {s : State} (h : s.Canon) (q addr b) : (s.gqWrite q addr b).Canon := by
  unfold State.gqWrite
  split
  · exact (h.fillRange ..).vWrite ..
  · exact .ite ((h.setHost (memWrite_wf _ _ h.host)).emit ..) (h.setBulk (memWrite_wf _ _ h.bulk))

@[simp] theorem gqComplete {s : State} (h : s.Canon) (q idx op status detail immediate length source) :
    (s.gqComplete q idx op status detail immediate length source).Canon := by
  simp only [State.gqComplete]
  exact (h.issueSeq.gqWrite ..).setGq ..

@[simp] theorem keyStore {s : State} (h : s.Canon) (rkey addr b) : (s.keyStore rkey addr b).Canon := by
  unfold State.keyStore
  split
  · exact h
  · split
    · exact h.setBulk (memWrite_wf _ _ h.bulk)
    · exact (h.fillRange ..).vWrite ..
    · exact h
    · exact h

@[simp] theorem dupResult {s : State} (h : s.Canon) (device msgId st result) : (s.dupResult device msgId st result).Canon := by
  unfold State.dupResult
  exact h.update

@[simp] theorem ackApplied {s : State} (h : s.Canon) (m st result) : (s.ackApplied m st result).Canon := by
  unfold State.ackApplied
  exact (Canon.ite ((h.dupResult ..).gnzBump ..) (.ite ((h.dupResult ..).gnzBump ..) (h.dupResult ..))).sendAck ..

@[simp] theorem writeEnd {s : State} (h : s.Canon) (m st) : (s.writeEnd m st).Canon := by
  simp only [State.writeEnd]
  split
  · split
    · exact (Canon.ite (h.update.gqComplete ..) h.update).ackApplied ..
    · exact h.update.ackApplied ..
  · exact h.update.ackApplied ..

@[simp] theorem dropIn {s : State} (h : s.Canon) (m) : (s.dropIn m).Canon := by
  unfold State.dropIn
  exact h.update

/-! The operations of Machine/Reply. -/

@[simp] theorem controlReply {s : State} (h : s.Canon) (c st detail result data) :
    (s.controlReply c st detail result data).Canon := by
  unfold State.controlReply
  exact (h.update.ackApplied ..).sendMsg ..

@[simp] theorem replyData {s : State} (h : s.Canon) (p st detail result data) :
    (s.replyData p st detail result data).Canon := by
  simp only [State.replyData]
  split
  · exact (h.emit ..).update
  · split
    · exact (h.emit ..).controlReply ..
    · split
      · exact (h.emit ..).writeEnd ..
      · exact h.emit ..
  · exact h.emit ..

@[simp] theorem reply {s : State} (h : s.Canon) (p st detail result) : (s.reply p st detail result).Canon := by
  unfold State.reply
  exact h.replyData ..

/-! The operations of Machine/MediaOps. -/

@[simp] theorem pushTail {s : State} (h : s.Canon) : s.pushTail.Canon := by
  unfold State.pushTail
  exact .ite h h.update

@[simp] theorem openTail {s : State} (h : s.Canon) : s.openTail.Canon := by
  unfold State.openTail
  exact .ite h.issueSeq.update h

@[simp] theorem journal {s : State} (h : s.Canon) (e) : (s.journal e).Canon := by
  unfold State.journal
  exact .ite h.openTail.update.pushTail h.openTail.update

@[simp] theorem journalDiscard {s : State} (h : s.Canon) (ns lmu f n) : (s.journalDiscard ns lmu f n).Canon := by
  induction f generalizing s lmu n with
  | zero => exact h
  | succ f ih => cases n with
    | zero => exact h
    | succ n => exact ih (h.journal ..) ..

@[simp] theorem checkWorn {s : State} (h : s.Canon) : s.checkWorn.Canon := by
  unfold State.checkWorn
  exact .ite h (.ite (((h.log ..).update).writeAnchor ..) h)

@[simp] theorem checkSpare {s : State} (h : s.Canon) : s.checkSpare.Canon := by
  unfold State.checkSpare
  exact .ite ((h.log ..).update) h.update

@[simp] theorem spareChanged {s : State} (h : s.Canon) : s.spareChanged.Canon := by
  unfold State.spareChanged
  exact h.checkSpare.checkWorn

@[simp] theorem checkWornExit {s : State} (h : s.Canon) : s.checkWornExit.Canon := by
  unfold State.checkWornExit
  exact .ite (h.update.writeAnchor ..) h

@[simp] theorem openBands {s : State} (h : s.Canon) (gc bs) : (s.openBands gc bs).Canon := by
  induction bs generalizing s with
  | nil => exact h
  | cons b bs ih =>
    rw [State.openBands]
    exact .ite (ih (h.update.journal ..).spareChanged) (ih h)

@[simp] theorem programPage {s : State} (h : s.Canon) (pma) : (s.programPage pma).Canon := by
  unfold State.programPage
  exact .ite (h.update.healthBump ..) h

@[simp] theorem pageProgrammed {s : State} (h : s.Canon) (pma) : (s.pageProgrammed pma).Canon := by
  unfold State.pageProgrammed
  exact .ite (h.programPage ..) h

@[simp] theorem storeUnit {s : State} (h : s.Canon) (ns u pma data) : (s.storeUnit ns u pma data).Canon :=
  (h.setNand (memWrite_wf _ _ h.nand)).update

@[simp] theorem placeUnit {s : State} (h : s.Canon) (ns u pma data) : (s.placeUnit ns u pma data).Canon := by
  unfold State.placeUnit
  extract_lets old s1 _ s2
  have h1 : s1.Canon := h.storeUnit ..
  have h2 : s2.Canon := h1.update
  exact h2.journal ..

@[simp] theorem moveUnit {s : State} (h : s.Canon) (ns u pma) : (s.moveUnit ns u pma).Canon := by
  unfold State.moveUnit
  split
  · exact h
  · exact ((h.storeUnit ..).update).journal ..

@[simp] theorem settle {s : State} (h : s.Canon) (features) : (s.settle features).Canon := by
  unfold State.settle
  exact h.update.foldl (fun _ _ h => h.reply ..) _

@[simp] theorem drawKey {s : State} (h : s.Canon) (ns) : (s.drawKey ns).Canon := by
  unfold State.drawKey
  exact h.takeFree.update

@[simp] theorem dropKey {s : State} (h : s.Canon) (ns) : (s.dropKey ns).Canon := by
  unfold State.dropKey
  exact h.update

@[simp] theorem cryptoEraseRecord {s : State} (h : s.Canon) : s.cryptoEraseRecord.Canon := by
  unfold State.cryptoEraseRecord
  exact h.update

@[simp] theorem cryptoEraseAll {s : State} (h : s.Canon) : (s.cryptoEraseAll).Canon := by
  unfold State.cryptoEraseAll
  exact (h.cryptoEraseRecord.foldl (fun _ _ h => h.drawKey ..) _).foldl (fun _ _ h => h.journalDiscard ..) _

@[simp] theorem mediaHandover {s : State} (h : s.Canon) : s.mediaHandover.Canon := by
  unfold State.mediaHandover
  exact h.update

@[simp] theorem flushAllMedia {s : State} (h : s.Canon) : s.flushAllMedia.Canon := by
  unfold State.flushAllMedia
  exact ((h.foldl (fun _ _ h => h.programPage ..) _).pushTail).update

@[simp] theorem lastGaspStart {s : State} (h : s.Canon) : s.lastGaspStart.Canon := by
  unfold State.lastGaspStart
  exact .ite h (h.update.wakeEvent ..)

@[simp] theorem gaspProgram {s : State} (h : s.Canon) (n) : (s.gaspProgram n).Canon := by
  unfold State.gaspProgram
  exact .ite h.update (h.update.healthBump ..)

@[simp] theorem lastGaspFinish {s : State} (h : s.Canon) (us) : (s.lastGaspFinish us).Canon := by
  unfold State.lastGaspFinish
  exact (((h.healthBump ..).gaspProgram ..).update).writeAnchor ..

/-! The operations of Machine/StreamBase. -/

@[simp] theorem jobCount {s : State} (h : s.Canon) (st) : (s.jobCount st).Canon := by
  unfold State.jobCount
  exact .ite (h.bump ..) ((h.bump ..).bump ..)

@[simp] theorem updCtx {s : State} (h : s.Canon) (c f) : (s.updCtx c f).Canon := by
  unfold State.updCtx
  exact h.setCtxs ..

@[simp] theorem groupSend {s : State} (h : s.Canon) (kind n body) : (s.groupSend kind n body).Canon := by
  unfold State.groupSend
  exact .ite h (h.emit ..)

@[simp] theorem groupCast {s : State} (h : s.Canon) (kind body) : (s.groupCast kind body).Canon := by
  unfold State.groupCast
  exact h.foldl (fun _ _ h => h.groupSend ..) _

@[simp] theorem sendStreamEvent {s : State} (h : s.Canon) (c x st forme) : (s.sendStreamEvent c x st forme).Canon := by
  unfold State.sendStreamEvent
  exact .ite (h.emit ..) ((h.emit ..).sendMsg ..)

@[simp] theorem haltStream {s : State} (h : s.Canon) (c st forme) : (s.haltStream c st forme).Canon := by
  unfold State.haltStream
  split
  · exact h
  · exact .ite h (((h.updCtx ..).log ..).sendStreamEvent ..)

@[simp] theorem streamUnreadable {s : State} (h : s.Canon) (c) : (s.streamUnreadable c).Canon := by
  unfold State.streamUnreadable
  split
  · exact h
  · split
    · exact h
    · exact h.haltStream ..

@[simp] theorem autoPlaceOpen {s : State} (h : s.Canon) {p t} (e : s.autoPlaceOpen = some (p, t)) : t.Canon := by
  unfold State.autoPlaceOpen at e
  split at e
  · cases e; exact h
  · dsimp only at e
    split at e
    · cases e; exact h.openBands ..
    · cases e

@[simp] theorem putShare {s : State} (h : s.Canon) (ns stripe j b) {t} (e : s.putShare ns stripe j b = some t) : t.Canon := by
  unfold State.putShare at e
  split at e
  · split at e
    · next hp => cases e; exact (h.autoPlaceOpen hp).placeUnit ..
    · cases e
  · cases e; exact h.setShares (memWrite_wf _ _ h.shares)

@[simp] theorem putShares {s : State} (h : s.Canon) (ns stripe l) {t} (e : s.putShares ns stripe l = some t) : t.Canon := by
  induction l generalizing s with
  | nil => cases e; exact h
  | cons x l ih =>
    rw [State.putShares] at e
    split at e
    · next hp => exact ih (h.putShare _ _ _ _ hp) e
    · cases e

@[simp] theorem deviceWrite {s : State} (h : s.Canon) (ns addr b n) {t} (e : s.deviceWrite ns addr b n = some t) : t.Canon := by
  induction n generalizing s addr b with
  | zero =>
    rw [State.deviceWrite] at e
    split at e
    · cases e; exact h
    · cases e
  | succ n ih =>
    simp only [State.deviceWrite] at e
    split at e
    · cases e; exact h
    · split at e
      · split at e
        · cases e
        · split at e
          · cases e
          · next hp => exact ih (h.putShares _ _ _ hp) _ _ e
      · split at e
        · cases e
        · next hp => exact ih ((h.autoPlaceOpen hp).placeUnit ..) _ _ e

@[simp] theorem setWitnessEnd {s : State} (h : s.Canon) (ns e) : (s.setWitnessEnd ns e).Canon := by
  unfold State.setWitnessEnd
  exact h.update

@[simp] theorem getD_deviceWrite {s : State} (h : s.Canon) (ns addr b n) : ((s.deviceWrite ns addr b n).getD s).Canon := by
  cases e : s.deviceWrite ns addr b n with
  | none => exact h
  | some t => exact h.deviceWrite _ _ _ _ e

@[simp] theorem witnessWrite {s : State} (h : s.Canon) (ns type streamId key payload) {t}
    (e : s.witnessWrite ns type streamId key payload = some t) : t.Canon := by
  unfold State.witnessWrite at e
  simp only at e
  split at e
  · cases e
  · split at e
    · cases e
    · split at e
      · cases e
      · next hw => cases e; exact (h.issueSeq.deviceWrite _ _ _ _ hw).setWitnessEnd ..

@[simp] theorem witnessAppend {s : State} (h : s.Canon) (c ty key p) : (s.witnessAppend c ty key p).2.Canon := by
  unfold State.witnessAppend
  split
  · exact h
  · split
    · exact h
    · split
      · next hw => exact h.witnessWrite _ _ _ _ _ hw
      · exact h.haltStream ..

/-! The operations of Machine/RunOps. -/

@[simp] theorem traceWrite {s : State} (h : s.Canon) (b) : (s.traceWrite b).Canon := h.setObs (memWrite_wf _ _ h.trace)

@[simp] theorem trace {s : State} (h : s.Canon) (type bit source run flags arg0 arg1) :
    (s.trace type bit source run flags arg0 arg1).Canon := by
  unfold State.trace
  refine .ite h (.ite (h.bump ..).update ?_)
  extract_lets s1
  have h1 : s1.Canon := .ite h (h.issueSeq.update.traceWrite _)
  exact h1.issueSeq.traceWrite _

@[simp] theorem runState {s : State} (h : s.Canon) (slot st) : (s.runState slot st).Canon := by
  unfold State.runState
  extract_lets s1
  have h1 : s1.Canon := h.updRun
  split
  · exact h1.trace ..
  · exact h1

@[simp] theorem deliverRecord {s : State} (h : s.Canon) (slot) : (s.deliverRecord slot).Canon := by
  unfold State.deliverRecord
  split
  · exact h
  · have hs := h.issueSeq
    generalize s.issueSeq = p at hs
    obtain ⟨q, s1⟩ := p
    dsimp only at hs ⊢
    split
    · exact .ite (hs.emit _) ((((hs.emit _).setHost (memWrite_wf _ _ hs.host)).emit _).raiseVector ..)
    · exact .ite (hs.emit _) ((hs.emit _).sendMsg ..)
    · exact .ite (hs.emit _) ((hs.emit _).sendMsg ..)
    · exact hs.emit _

@[simp] theorem stageRunEnded {s : State} (h : s.Canon) (r) : (s.stageRunEnded r).Canon := by
  unfold State.stageRunEnded
  split
  · exact h
  · split
    · exact h
    · exact .ite (h.updCtx ..) ((h.updCtx ..).haltStream ..)

@[simp] theorem endRun {s : State} (h : s.Canon) (slot st detail tile va logged) :
    (s.endRun slot st detail tile va logged).Canon := by
  unfold State.endRun
  split
  · exact h
  · split
    · exact h
    · extract_lets s1 s2 s3
      have h1 : s1.Canon := h.updRun
      have h2 : s2.Canon := .ite h1 ((Canon.ite h1 (h1.log ..)).trace ..)
      have h3 : s3.Canon := h2.runState ..
      split
      · exact h3.stageRunEnded ..
      · exact h3

@[simp] theorem holdRun {s : State} (h : s.Canon) (slot st x) : (s.holdRun slot st x).Canon := by
  unfold State.holdRun
  split
  · exact h
  · exact .ite h.updRun.updRun ((((h.updRun.log ..).trace ..).runState ..).deliverRecord ..)

@[simp] theorem syncFault {s : State} (h : s.Canon) (owner n st tile logical) :
    (s.syncFault owner n st tile logical).Canon := by
  simp only [State.syncFault]
  split
  · exact ((h.trace ..).log ..).endRun ..
  · split
    · exact ((h.trace ..).log ..).haltStream ..
    · exact (h.trace ..).log ..
  · exact (h.trace ..).log ..

@[simp] theorem wake {s : State} (h : s.Canon) (n) : (s.wake n).Canon := by
  unfold State.wake
  exact h.setCtr ..

@[simp] theorem barrierDue {s : State} (h : s.Canon) (n) : (s.barrierDue n).Canon := by
  unfold State.barrierDue
  exact .ite h.update h

@[simp] theorem counterAdd {s : State} (h : s.Canon) (n amount who device tile) :
    (s.counterAdd n amount who device tile).2.Canon := by
  unfold State.counterAdd
  extract_lets c c' s1
  have h1 : s1.Canon := h.setCtr ..
  split
  · exact h1.syncFault ..
  · exact ((h.setCtr ..).wake ..).barrierDue ..

@[simp] theorem freeCounter {s : State} (h : s.Canon) (p) : (s.freeCounter p).Canon := by
  unfold State.freeCounter
  exact h.update.setCtr ..

@[simp] theorem tileEvent {s : State} (h : s.Canon) (r logical code n) : (s.tileEvent r logical code n).Canon := by
  unfold State.tileEvent
  split
  · exact h
  · split
    · exact h
    · exact h.setTile ..

@[simp] theorem setRegionSt {s : State} (h : s.Canon) (g t) : (s.setRegionSt g t).Canon := by
  unfold State.setRegionSt
  exact h.update

@[simp] theorem regionBump {s : State} (h : s.Canon) (g i n) : (s.regionBump g i n).Canon := by
  unfold State.regionBump
  exact h.setRegionSt ..

@[simp] theorem zeroRegion {s : State} (h : s.Canon) (g) : (s.zeroRegion g).Canon :=
  ((h.setTileMem (memZero_wf _ _ h.tile)).setRegionMem (memZero_wf _ _ h.region)).update

@[simp] theorem isolateRegion {s : State} (h : s.Canon) (g detail) : (s.isolateRegion g detail).Canon := by
  unfold State.isolateRegion
  extract_lets _ s1 s2 s3 _
  have h1 : s1.Canon := h.update
  have h2 : s2.Canon := by
    unfold s2
    split
    · exact h1.endRun ..
    · exact h1
  have h3 : s3.Canon := h2.zeroRegion ..
  exact h3.update

/-! The operations of Machine/Tiles. -/

@[simp] theorem operandFault {s : State} (h : s.Canon) (slot detail source) : (s.operandFault slot detail source).Canon := by
  unfold State.operandFault
  exact h.endRun ..

@[simp] theorem suspendFill {s : State} (h : s.Canon) (slot source op page) : (s.suspendFill slot source op page).Canon := by
  unfold State.suspendFill
  extract_lets s1
  have h1 : s1.Canon := h.updRun
  split
  · exact .ite (h1.tileEvent ..) h1
  · exact h1

@[simp] theorem touchSpans {s : State} (h : s.Canon) (slot spans) : (s.touchSpans slot spans).Canon :=
  h.updRun fun r hm => by
    suffices hs : ∀ r : Run, (spans.foldl (fun r x => r.touchRange x.1 x.2.1 x.2.2 s.now) r).mem = r.mem by rwa [hs]
    intro r
    induction spans generalizing r with
    | nil => rfl
    | cons x l ih => exact ih _

theorem access {s : State} (h : s.Canon) (r so op sp) {go : State} (hg : go.Canon) : (s.access r so op sp go).Canon := by
  unfold State.access
  split
  · exact hg.touchSpans ..
  · exact h.endRun ..
  · exact h.suspendFill ..
  · exact h.holdRun ..

@[simp] theorem drainTile {s : State} (h : s.Canon) (r tile acc) : (s.drainTile r tile acc).Canon := by
  unfold State.drainTile
  split
  · exact h
  · exact h.setTile ..

@[simp] theorem putTensor {s : State} (h : s.Canon) (r tile k rnd sat base va vs) :
    (s.putTensor r tile k rnd sat base va vs).Canon := by
  unfold State.putTensor
  exact ((h.tileEvent ..).tileEvent ..).vWrite ..

@[simp] theorem matStore {s : State} (h : s.Canon) (r tile o ko vs done skipped) :
    (s.matStore r tile o ko vs done skipped).Canon := by
  unfold State.matStore
  exact (((h.drainTile ..).tileEvent ..).tileEvent ..).vWrite ..

@[simp] theorem matrixDense {s : State} (h : s.Canon) (r tile o) : (s.matrixDense r tile o).Canon := by
  unfold State.matrixDense
  split
  · exact h.access _ _ _ _ (h.matStore ..)
  · exact h.operandFault ..
  · exact h.operandFault ..

@[simp] theorem matrixSparse {s : State} (h : s.Canon) (r tile o metaAt) : (s.matrixSparse r tile o metaAt).Canon := by
  unfold State.matrixSparse
  split
  · exact .ite (h.operandFault ..) (h.access _ _ _ _ (.ite (h.operandFault ..) (h.matStore ..)))
  · exact h.operandFault ..
  · exact h.operandFault ..

@[simp] theorem vectorRun {s : State} (h : s.Canon) (r tile o) : (s.vectorRun r tile o).Canon := by
  unfold State.vectorRun
  extract_lets fma isInt
  split
  · exact .ite (h.operandFault ..) (h.access _ _ _ _ (h.putTensor ..))
  · exact h.operandFault ..

@[simp] theorem reduceRun {s : State} (h : s.Canon) (r tile o) : (s.reduceRun r tile o).Canon := by
  unfold State.reduceRun
  split
  · exact .ite (h.operandFault ..) (h.access _ _ _ _ (((h.tileEvent ..).tileEvent ..).vWrite ..))
  · exact h.operandFault ..

@[simp] theorem specialRun {s : State} (h : s.Canon) (r tile o) : (s.specialRun r tile o).Canon := by
  unfold State.specialRun
  exact h.access _ _ _ _ ((h.tileEvent ..).putTensor ..)

@[simp] theorem quantRun {s : State} (h : s.Canon) (r tile o) : (s.quantRun r tile o).Canon := by
  unfold State.quantRun
  split
  · exact .ite (h.operandFault ..) (h.access _ _ _ _ (h.putTensor ..))
  · exact h.operandFault ..

@[simp] theorem routeRun {s : State} (h : s.Canon) (r tile o) : (s.routeRun r tile o).Canon := by
  unfold State.routeRun
  split
  · exact h
  · extract_lets g rows t
    split
    · rename_i he2
      extract_lets noScore s1 s2 s3 s4
      have h1 : s1.Canon := (h.takeFree.of_pair he2).tileEvent ..
      have h2 : s2.Canon := h1.vWrite ..
      have h3 : s3.Canon := h2.foldl (fun _ _ h => h.vWrite ..) _
      have h4 : s4.Canon := h3.vWrite ..
      exact h.access _ _ _ _ (h4.vWrite ..)

@[simp] theorem combineRun {s : State} (h : s.Canon) (r tile o) : (s.combineRun r tile o).Canon := by
  unfold State.combineRun
  exact h.access _ _ _ _ (h.putTensor ..)

@[simp] theorem watchRun {s : State} (h : s.Canon) (r tile o) : (s.watchRun r tile o).Canon := by
  unfold State.watchRun
  split
  · exact .ite (h.operandFault ..) (h.access _ _ _ _ (((h.tileEvent ..).vWrite ..).trace ..))
  · exact h.operandFault ..

@[simp] theorem rowWriteBack {s : State} (h : s.Canon) (r x) : (s.rowWriteBack r x).Canon := by
  unfold State.rowWriteBack
  split
  · exact h
  · exact h.getD_deviceWrite ..

@[simp] theorem rowInsert {s : State} (h : s.Canon) (slot x) : (s.rowInsert slot x).Canon := by
  simp only [State.rowInsert]
  split
  · exact h
  · split
    · exact .ite (h.updRun.rowWriteBack ..) h.updRun
    · exact h.updRun

@[simp] theorem suspendRows {s : State} (h : s.Canon) (slot source op rows) : (s.suspendRows slot source op rows).Canon := by
  unfold State.suspendRows
  exact h.updRun

@[simp] theorem gatherRun {s : State} (h : s.Canon) (r source o) : (s.gatherRun r source o).Canon := by
  unfold State.gatherRun
  split
  · refine h.access _ _ _ _ (.ite (h.operandFault ..) (.ite (h.operandFault ..) (.ite ?_ ?_)))
    · exact (h.suspendRows ..).regionBump ..
    · refine (((h.regionBump ..).regionBump ..).foldl (fun s i h => ?_) _).vWrite ..
      split
      · exact h.rowInsert ..
      · exact h
  · exact h.operandFault ..

@[simp] theorem applyRow {s : State} (h : s.Canon) (r g t o row) : (s.applyRow r g t o row).Canon := by
  unfold State.applyRow
  split
  · exact h
  · exact .ite (h.regionBump ..) (h.rowInsert ..)

@[simp] theorem applyRun {s : State} (h : s.Canon) (r source o) : (s.applyRun r source o).Canon := by
  unfold State.applyRun
  split
  · exact h.operandFault ..
  · exact .ite h (.ite (h.operandFault ..) (.ite ((h.suspendRows ..).regionBump ..) ((h.foldl
      (fun _ _ h => h.applyRow ..) _).updRun)))

@[simp] theorem runTileOp {s : State} (h : s.Canon) (r source x3) : (s.runTileOp r source x3).Canon := by
  unfold State.runTileOp
  split
  · split
    · exact h.matrixDense ..
    · exact h.matrixSparse ..
  · exact h.vectorRun ..
  · exact h.reduceRun ..
  · exact h.specialRun ..
  · exact h.quantRun ..
  · exact h.routeRun ..
  · exact h.combineRun ..
  · exact h.watchRun ..
  · exact h.gatherRun ..
  · exact h.applyRun ..
  · exact h

@[simp] theorem matrixOp {s : State} (h : s.Canon) (slot tile o) : (s.matrixOp slot tile o).Canon := by
  unfold State.matrixOp
  split
  · exact .ite (h.runTileOp ..) h
  · exact h

@[simp] theorem sparseMatrixOp {s : State} (h : s.Canon) (slot tile o metaAt) :
    (s.sparseMatrixOp slot tile o metaAt).Canon := by
  unfold State.sparseMatrixOp
  split
  · exact .ite (h.runTileOp ..) h
  · exact h

@[simp] theorem tileOp {s : State} (h : s.Canon) (slot tile op) : (s.tileOp slot tile op).Canon := by
  unfold State.tileOp
  split
  · exact h.runTileOp ..
  · exact h

@[simp] theorem embGather {s : State} (h : s.Canon) (slot e o) : (s.embGather slot e o).Canon := by
  unfold State.embGather
  split
  · exact h.runTileOp ..
  · exact h

@[simp] theorem retryReady {s : State} (h : s.Canon) (x) : (s.retryReady x).Canon := by
  unfold State.retryReady
  split
  · exact h
  · refine .ite h (h.foldl (fun s y h => ?_) _)
    dsimp only
    split
    · exact .ite (h.updRun.runTileOp ..) h.updRun
    · exact h.updRun

@[simp] theorem embRowReadDone {s : State} (h : s.Canon) (slot table row ok) : (s.embRowReadDone slot table row ok).Canon := by
  unfold State.embRowReadDone
  split
  · exact h
  · split
    · exact .ite (h.holdRun ..) ((((h.countReconstructs ..).rowInsert ..).updRun).retryReady ..)
    · exact h

@[simp] theorem embGrad {s : State} (h : s.Canon) (slot e cs) : (s.embGrad slot e cs).Canon := by
  unfold State.embGrad
  split
  · exact h
  · exact .ite h.updRun h

@[simp] theorem embApply {s : State} (h : s.Canon) (slot e o) : (s.embApply slot e o).Canon := by
  unfold State.embApply
  split
  · exact h.runTileOp ..
  · exact h

@[simp] theorem embFlush {s : State} (h : s.Canon) (slot) : (s.embFlush slot).Canon := by
  unfold State.embFlush
  split
  · exact h
  · exact .ite h h.updRun

@[simp] theorem embFlushDone {s : State} (h : s.Canon) (slot) : (s.embFlushDone slot).Canon := by
  unfold State.embFlushDone
  split
  · exact h
  · split
    · exact h
    · exact ((h.foldl (fun _ _ h => h.rowWriteBack ..) _).updRun).reply ..

/-! The operations of Machine/Dma. -/

@[simp] theorem pageWriteBack {s : State} (h : s.Canon) (r x) : (s.pageWriteBack r x).Canon := by
  unfold State.pageWriteBack
  split
  · exact h
  · exact h.getD_deviceWrite ..

@[simp] theorem dmaStop {s : State} (h : s.Canon) (slot tile op x4) : (s.dmaStop slot tile op x4).Canon := by
  unfold State.dmaStop
  split
  · exact h
  · exact h.endRun ..
  · extract_lets s1
    have h1 : s1.Canon := h.updRun
    split
    · exact h1.tileEvent ..
    · exact h1
  · exact h.holdRun ..

@[simp] theorem dmaMoved {s : State} (h : s.Canon) (phys desc) : (s.dmaMoved phys desc).Canon := by
  unfold State.dmaMoved
  extract_lets t
  split
  · exact h.setTile ..
  · exact h

@[simp] theorem dmaUnits {s : State} (h : s.Canon) (slot tile desc d i2 i1 off n) :
    (s.dmaUnits slot tile desc d i2 i1 off n).Canon := by
  induction n generalizing s i2 i1 off with
  | zero => exact h
  | succ n ih =>
    rw [State.dmaUnits]
    split
    · exact h
    · split
      · split
        · exact h.dmaMoved ..
        · exact h
      · extract_lets len src dst a b s1 s2 s3
        clear_value a
        split
        · have h1 : s1.Canon := (h.vWrite ..).touchSpans ..
          have h2 : s2.Canon := .ite (h1.tileEvent ..) h1
          have h3 : s3.Canon := .ite (h2.tileEvent ..) h2
          exact .ite (ih h3 ..) (.ite (ih h3 ..) (ih h3 ..))
        · exact h.dmaStop ..

@[simp] theorem dmaEngine {s : State} (h : s.Canon) (r tile desc d) : (s.dmaEngine r tile desc d).Canon := by
  unfold State.dmaEngine
  split
  · exact .ite (h.endRun ..) h.update
  · exact h.dmaStop ..

@[simp] theorem dmaGo {s : State} (h : s.Canon) (r tile desc i2 i1 off) : (s.dmaGo r tile desc i2 i1 off).Canon := by
  unfold State.dmaGo
  split
  · exact .ite (h.endRun ..) (.ite (h.dmaEngine ..) (h.dmaUnits ..))
  · exact h.dmaStop ..

@[simp] theorem dmaIssue {s : State} (h : s.Canon) (slot tile desc op) : (s.dmaIssue slot tile desc op).Canon := by
  unfold State.dmaIssue
  split
  · exact h
  · split
    · exact h
    · exact .ite h (.ite h ((h.setTile ..).dmaGo ..))

@[simp] theorem dmaDescriptorDone {s : State} (h : s.Canon) (slot tile) : (s.dmaDescriptorDone slot tile).Canon := by
  unfold State.dmaDescriptorDone
  split
  · exact h
  · split
    · exact h
    · split
      · exact h
      · refine .ite h (.ite (h.setTile ..) ?_)
        split
        · exact (h.setTile ..).counterAdd ..
        · exact (h.setTile ..).endRun ..

@[simp] theorem retryDma {s : State} (h : s.Canon) (x) : (s.retryDma x).Canon := by
  unfold State.retryDma
  split
  · exact h
  · split
    · exact h
    · extract_lets ready
      refine h.foldl (fun s x h => ?_) _
      dsimp only
      split
      · exact .ite (h.updRun.dmaGo ..) h.updRun
      · exact h.updRun

@[simp] theorem retryAll {s : State} (h : s.Canon) (slot) : (s.retryAll slot).Canon := by
  unfold State.retryAll
  exact (h.retryReady ..).retryDma ..

@[simp] theorem evict {s : State} (h : s.Canon) (r e) : (s.evict r e).Canon := by
  unfold State.evict
  extract_lets s1
  have h1 : s1.Canon := .ite (h.pageWriteBack ..) h
  exact h1.updRun fun _ hm => memZero_wf _ _ hm

@[simp] theorem fillFails {s : State} (h : s.Canon) (r page st) : (s.fillFails r page st).Canon := by
  unfold State.fillFails
  extract_lets s1
  have h1 : s1.Canon := h.updRun
  split
  · exact h1
  · exact .ite (h1.holdRun ..) h1.updRun

@[simp] theorem fillDone {s : State} (h : s.Canon) (slot page ok) : (s.fillDone slot page ok).Canon := by
  unfold State.fillDone
  split
  · exact h
  · split
    · exact h
    · split
      · exact h
      · split
        · exact h.fillFails ..
        · extract_lets full
          split
          · exact h.fillFails ..
          · extract_lets s1 s2
            have h1 : s1.Canon := by
              unfold s1
              split
              · exact h.evict ..
              · exact h
            have h2 : s2.Canon := (h1.placePage ..).updRun
            exact h2.retryAll ..

/-! The operations of Machine/Plates. -/

@[simp] theorem loadPlateCheck {s : State} (h : s.Canon) (b) : (s.loadPlateCheck b).2.Canon := by
  simp only [State.loadPlateCheck]
  split
  · exact h
  · split
    · exact h
    · split
      · exact h
      · split
        · exact h
        · split
          · exact h
          · split
            · exact h
            · split
              · split
                · exact h
                · split
                  · exact h
                  · split
                    · exact h
                    · exact h.update
              · split
                · exact h
                · split
                  · exact h
                  · split
                    · exact h
                    · exact h.update

@[simp] theorem loadPlate {s : State} (h : s.Canon) (p src) : (s.loadPlate p src).Canon := by
  unfold State.loadPlate
  exact .ite (h.reply ..) ((h.loadPlateCheck ..).reply ..)

@[simp] theorem unloadPlate {s : State} (h : s.Canon) (p digest) : (s.unloadPlate p digest).Canon := by
  unfold State.unloadPlate
  exact .ite (h.reply ..) (.ite (h.reply ..) (h.update.reply ..))

/-! The operations of Machine/Sync. -/

@[simp] theorem badCounter {s : State} (h : s.Canon) (r by_ logical) : (s.badCounter r by_ logical).Canon := by
  unfold State.badCounter
  exact ((h.trace ..).log ..).endRun ..

@[simp] theorem syncIssued {s : State} (h : s.Canon) (r x2) : (s.syncIssued r x2).Canon := by
  unfold State.syncIssued
  split
  · exact h.tileEvent ..
  · exact h

@[simp] theorem syncAdd {s : State} (h : s.Canon) (c by_ n) : (s.syncAdd c by_ n).Canon := by
  simp only [State.syncAdd]
  split
  · exact h
  · split
    · split
      · exact h
      · split
        · exact h
        · split
          · exact (h.syncIssued ..).badCounter ..
          · exact (h.syncIssued ..).counterAdd ..
    · split
      · exact .ite (h.counterAdd ..) h
      · exact h

@[simp] theorem syncSub {s : State} (h : s.Canon) (slot tile k n) : (s.syncSub slot tile k n).Canon := by
  unfold State.syncSub
  split
  · exact h
  · split
    · exact h
    · extract_lets s1 who
      have h1 : s1.Canon := h.syncIssued ..
      split
      · exact h1.badCounter ..
      · exact .ite (h1.badCounter ..) (.ite ((h1.setCtr ..).syncFault ..) (h1.setCtr ..))

@[simp] theorem addWaiter {s : State} (h : s.Canon) (p w) : (s.addWaiter p w).Canon := by
  unfold State.addWaiter
  exact h.setCtr ..

@[simp] theorem syncWaitGe {s : State} (h : s.Canon) (slot by_ k v) : (s.syncWaitGe slot by_ k v).Canon := by
  simp only [State.syncWaitGe]
  split
  · exact h
  · split
    · split
      · exact h
      · split
        · exact (h.syncIssued ..).badCounter ..
        · exact .ite ((h.syncIssued ..).badCounter ..) (.ite (h.syncIssued ..) ((h.syncIssued ..).addWaiter ..))
    · split
      · exact h
      · split
        · exact (h.syncIssued ..).badCounter ..
        · exact .ite ((h.syncIssued ..).badCounter ..) (.ite (h.syncIssued ..) ((h.syncIssued ..).addWaiter ..))
    · split
      · exact h
      · split
        · exact (h.syncIssued ..).badCounter ..
        · exact .ite ((h.syncIssued ..).badCounter ..) (.ite (h.syncIssued ..) ((h.syncIssued ..).addWaiter ..))

@[simp] theorem syncWaitSub {s : State} (h : s.Canon) (slot tile k n) : (s.syncWaitSub slot tile k n).Canon := by
  unfold State.syncWaitSub
  split
  · exact h
  · split
    · exact h
    · extract_lets s1
      have h1 : s1.Canon := h.syncIssued ..
      split
      · exact h1.badCounter ..
      · exact .ite (h1.badCounter ..) (.ite (h1.setCtr ..) (h1.addWaiter ..))

@[simp] theorem syncArrive {s : State} (h : s.Canon) (slot tile k reissued) : (s.syncArrive slot tile k reissued).Canon := by
  simp only [State.syncArrive]
  split
  · exact h
  · split
    · exact h
    · split
      · exact (h.syncIssued ..).badCounter ..
      · split
        · exact (h.syncIssued ..).badCounter ..
        · split
          · exact .ite (h.syncIssued ..) ((h.syncIssued ..).addWaiter ..)
          · exact ((h.syncIssued ..).addWaiter ..).counterAdd ..

@[simp] theorem syncRead {s : State} (h : s.Canon) (slot tile k) : (s.syncRead slot tile k).Canon := by
  simp only [State.syncRead]
  split
  · exact h
  · split
    · exact h
    · split
      · exact (h.syncIssued ..).badCounter ..
      · exact (h.syncIssued ..).reply ..

@[simp] theorem bindCounter {s : State} (h : s.Canon) (p o remote) : (s.bindCounter p o remote).Canon := by
  unfold State.bindCounter
  exact h.setCtr ..

@[simp] theorem nameIssued {s : State} (h : s.Canon) (tile x2) : (s.nameIssued tile x2).Canon := by
  unfold State.nameIssued
  split
  · split
    · exact h.syncIssued ..
    · exact h
  · exact h

@[simp] theorem allocReply {s : State} (h : s.Canon) (c st vals) : (s.allocReply c st vals).Canon := by
  unfold State.allocReply
  split
  · exact h.reply ..
  · exact h

@[simp] theorem syncAlloc {s : State} (h : s.Canon) (c tile remote pick) : (s.syncAlloc c tile remote pick).Canon := by
  unfold State.syncAlloc
  exact .ite h (.ite ((h.nameIssued ..).allocReply ..) (.ite h (((h.nameIssued ..).bindCounter ..).allocReply ..)))

@[simp] theorem syncFree {s : State} (h : s.Canon) (slot tile b) : (s.syncFree slot tile b).Canon := by
  simp only [State.syncFree]
  split
  · exact h
  · split
    · exact h
    · split
      · exact (h.syncIssued ..).badCounter ..
      · exact .ite ((h.syncIssued ..).badCounter ..) ((h.syncIssued ..).freeCounter ..)

@[simp] theorem syncConfig {s : State} (h : s.Canon) (slot tile k barrier parties pairs) :
    (s.syncConfig slot tile k barrier parties pairs).Canon := by
  unfold State.syncConfig
  split
  · exact h
  · split
    · exact h
    · extract_lets s1 ph
      have h1 : s1.Canon := h.syncIssued ..
      split
      · exact h1.badCounter ..
      · exact .ite (h1.badCounter ..) (h1.setCtr ..)

@[simp] theorem writeRealign {s : State} (h : s.Canon) (o i m) : (s.writeRealign o i m).Canon := by
  unfold State.writeRealign
  split
  · split
    · exact h
    · exact h.foldl (fun _ _ h => h.setTile ..) _
  · exact h

@[simp] theorem realignPair {s : State} (h : s.Canon) (o i pc) : (s.realignPair o i pc).Canon := by
  unfold State.realignPair
  exact (Canon.ite (.ite h (h.setCtr ..)) ((Canon.ite h (h.setCtr ..)).setCtr ..)).writeRealign ..

@[simp] theorem realignAll {s : State} (h : s.Canon) (o i l) : (s.realignAll o i l).Canon := by
  induction l generalizing s i with
  | nil => exact h
  | cons p l ih => exact ih (h.realignPair ..) _

@[simp] theorem barrierRelease {s : State} (h : s.Canon) (p) : (s.barrierRelease p).Canon := by
  unfold State.barrierRelease
  exact .ite h (((h.update.realignAll ..).setCtr ..).trace ..)

@[simp] theorem synDbgSelWrite {s : State} (h : s.Canon) (v) : (s.synDbgSelWrite v).Canon := by
  unfold State.synDbgSelWrite
  exact ((((((h.setReg ..).setReg ..).setReg ..).setReg ..).setReg ..).setReg ..).setReg ..

@[simp] theorem synSwSignal {s : State} (h : s.Canon) (p v) : (s.synSwSignal p v).Canon := by
  unfold State.synSwSignal
  exact .ite (h.log ..) (h.counterAdd ..)

theorem writeSync {s : State} (h : s.Canon) (p off v) : TakenCanon (Machine.writeSync s p off v) := by
  unfold Machine.writeSync
  exact .ite (.some (h.synDbgSelWrite ..)) (.ite (.some (h.synSwSignal ..)) .none)

/-! The operations of Machine/Runs. -/

@[simp] theorem clearEvents {s : State} (h : s.Canon) (regs) : (s.clearEvents regs).Canon := by
  unfold State.clearEvents
  exact h.update

@[simp] theorem grant {s : State} (h : s.Canon) (slot regs st) : (s.grant slot regs st).Canon := by
  unfold State.grant
  extract_lets wake s1 _ _ s2
  have h1 : s1.Canon := h.updRun
  have h2 : s2.Canon := h1.update
  exact (h2.clearEvents ..).runState ..

@[simp] theorem startPreempt {s : State} (h : s.Canon) (slot) : (s.startPreempt slot).Canon := by
  unfold State.startPreempt
  exact h.runState ..

@[simp] theorem schedulePreempt {s : State} (h : s.Canon) : s.schedulePreempt.Canon := by
  unfold State.schedulePreempt
  split
  · exact h
  · extract_lets n free fits cands
    split
    · exact h
    · split
      · exact h
      · exact h.foldl (fun _ _ h => h.updRun.startPreempt ..) _

@[simp] theorem newRun {s : State} (h : s.Canon) (p q slot pl) : (s.newRun p q slot pl).Canon := by
  refine (h.setMgr fun r hr => ?_).update
  rcases List.mem_append.1 hr with hr | hr
  · exact h.run_mem (List.mem_of_mem_filter hr)
  · rw [List.mem_singleton.1 hr]; rfl

@[simp] theorem joinList {s : State} (h : s.Canon) (slot) : (s.joinList slot).Canon := by
  unfold State.joinList
  extract_lets s1 _
  have h1 : s1.Canon := h.updRun
  exact h1.update

@[simp] theorem startRun {s : State} (h : s.Canon) (p q) : (s.startRun p q).2.2.2.Canon := by
  simp only [State.startRun]
  split
  · exact h
  · split
    · split
      · exact (h.newRun ..).grant ..
      · split
        · exact (((h.newRun ..).runState ..).joinList ..).schedulePreempt
        · exact h
    · exact h

@[simp] theorem start {s : State} (h : s.Canon) (p q) : (s.start p q).Canon := by
  unfold State.start
  exact .ite ((h.startRun ..).reply ..) ((h.startRun ..).reply ..)

@[simp] theorem preempt {s : State} (h : s.Canon) (p slot) : (s.preempt p slot).Canon := by
  unfold State.preempt
  split
  · exact .ite ((h.updRun.startPreempt ..).reply ..) (h.reply ..)
  · exact h.reply ..

@[simp] theorem retryHeld {s : State} (h : s.Canon) (slot) : (s.retryHeld slot).Canon := by
  unfold State.retryHeld
  exact h.updRun.retryAll ..

@[simp] theorem resume {s : State} (h : s.Canon) (p slot) : (s.resume p slot).Canon := by
  unfold State.resume
  split
  · exact h.reply ..
  · split
    · exact ((h.runState ..).reply ..).retryHeld ..
    · split
      · split
        · exact (h.grant ..).reply ..
        · exact .ite (((Canon.ite h (h.updRun.joinList ..)).reply ..).schedulePreempt) (h.reply ..)
      · exact h.reply ..

@[simp] theorem freeRun {s : State} (h : s.Canon) (b) : (s.freeRun b).Canon := by
  unfold State.freeRun
  split
  · exact h
  · next r _ =>
    have hz : (r.regions.foldl (fun s g => s.zeroRegion g) s).Canon := h.foldl (fun _ _ h => h.zeroRegion _) _
    extract_lets s1 at_ tls _ s2 mine s3 qs s4 idle pl _ _ _ _ _ s5 s6
    have h2 : s2.Canon := Canon.update (s := s1) hz
    have h3 : s3.Canon := h2.foldl (fun _ _ h => h.freeCounter _) _
    have h4 : s4.Canon := h3.foldl (fun _ _ h => h.setReg ..) _
    have h5 : s5.Canon := h4.update
    exact ((h5.runState ..).deliverRecord _).updRun fun _ _ => rfl

@[simp] theorem stop {s : State} (h : s.Canon) (p slot) : (s.stop p slot).Canon := by
  unfold State.stop
  split
  · exact h.reply ..
  · exact .ite (h.reply ..) (.ite ((h.updRun.freeRun ..).reply ..) ((h.endRun ..).reply ..))

theorem loadMem_wf (s : State) (r pl) : Memory.wf (s.loadMem r pl) = true :=
  memFoldl_wf (fun _ _ hm => memWrite_wf _ _ hm) _
    (memFoldl_wf (fun _ _ hm => memWrite_wf _ _ hm) _ (memWrite_wf _ _ rfl))

@[simp] theorem runLoaded {s : State} (h : s.Canon) (slot bad) : (s.runLoaded slot bad).Canon := by
  unfold State.runLoaded
  split
  · exact h
  · split
    · exact h
    · split
      · exact h
      · split
        · exact h.endRun ..
        · exact ((h.foldl (fun _ _ h => h.countReconstructs ..) _).updRun fun _ _ => loadMem_wf ..).runState ..

@[simp] theorem runDequeue {s : State} (h : s.Canon) : s.runDequeue.Canon := by
  unfold State.runDequeue
  split
  · exact h
  · split
    · exact h.grant ..
    · exact h.schedulePreempt

@[simp] theorem plateEnd {s : State} (h : s.Canon) (slot) : (s.plateEnd slot).Canon := by
  unfold State.plateEnd
  split
  · exact .ite (h.endRun ..) h
  · exact h

@[simp] theorem runCleanupDone {s : State} (h : s.Canon) (slot) : (s.runCleanupDone slot).Canon := by
  unfold State.runCleanupDone
  split
  · exact h
  · exact .ite h ((h.foldl (fun _ _ h => h.pageWriteBack ..) _).freeRun ..)

@[simp] theorem preemptSaveDone {s : State} (h : s.Canon) (slot pa) : (s.preemptSaveDone slot pa).Canon := by
  unfold State.preemptSaveDone
  split
  · exact h
  · extract_lets held area keep
    split
    · exact h
    · split
      · extract_lets s1
        have h1 : s1.Canon := h.endRun ..
        split
        · exact h1.isolateRegion ..
        · exact h1
      · split
        · rename_i he4
          exact .ite (((((((h.issueSeq.of_pair he4).update).foldl
            (fun _ _ h => h.zeroRegion ..) _).updRun).runState ..).deliverRecord ..).joinList ..)
            ((((((h.issueSeq.of_pair he4).update).foldl (fun _ _ h => h.zeroRegion ..) _).updRun).runState ..).deliverRecord ..)

theorem mergeMem_wf {into : Memory} (hm : Memory.wf into = true) (m : Memory) : Memory.wf (mergeMem into m) = true :=
  memFoldl_wf (fun _ _ h => memSet_wf _ _ h) m hm

@[simp] theorem restore {s : State} (h : s.Canon) (r a) : (s.restore r a).Canon := by
  unfold State.restore
  extract_lets idx s1 tileNs s2 s3
  have h1 : s1.Canon := h.foldl (fun _ _ h => h.setRegionMem (mergeMem_wf h.region _)) _
  have h2 : s2.Canon := h1.foldl (fun _ _ h => (h.setTileMem (mergeMem_wf h.tile _)).setTile ..) _
  have h3 : s3.Canon := by
    refine h2.foldl (fun s c h => ?_) _
    split
    · exact h.setCtr ..
    · exact h
  refine h3.foldl (fun s w h => ?_) _
  split
  · exact h
  · exact .ite h ((h.setCtr ..).wake _)

@[simp] theorem resumeRestoreDone {s : State} (h : s.Canon) (slot ok) : (s.resumeRestoreDone slot ok).Canon := by
  unfold State.resumeRestoreDone
  split
  · exact h
  · split
    · exact h
    · split
      · exact h
      · exact .ite (h.endRun ..) ((((h.restore ..).updRun).runState ..).retryHeld ..)

theorem writeStk {s : State} (h : s.Canon) (off v) : TakenCanon (Machine.writeStk s off v) := by
  unfold Machine.writeStk
  exact .ite (.some h.updRun) (.ite (.some h) .none)

/-! The operations of Machine/Streams. -/

@[simp] theorem startStages {s : State} (h : s.Canon) (c seed l) : (s.startStages c seed l).2.2.Canon := by
  induction l generalizing s with
  | nil => exact h
  | cons d ds ih =>
    simp only [State.startStages]
    split
    · exact h
    · exact ih (h.startRun ..).updRun

@[simp] theorem tableReply {s : State} (h : s.Canon) (p group params ctx removal res) :
    (s.tableReply p group params ctx removal res).Canon := by
  unfold State.tableReply
  exact .ite (h.update.groupCast ..) (h.reply ..)

@[simp] theorem takeCtx {s : State} (h : s.Canon) (c x) : (s.takeCtx c x).Canon := by
  unfold State.takeCtx
  exact h.update

@[simp] theorem getD_witnessWrite {s : State} (h : s.Canon) (ns ty id key p) :
    ((s.witnessWrite ns ty id key p).getD s).Canon := by
  cases e : s.witnessWrite ns ty id key p with
  | none => exact h
  | some t => exact h.witnessWrite _ _ _ _ _ e

@[simp] theorem streamOpen {s : State} (h : s.Canon) (p b) : (s.streamOpen p b).Canon := by
  unfold State.streamOpen
  split
  · exact h.reply ..
  · extract_lets c st x s1 ns s2 w
    have h1 : s1.Canon := h.startStages ..
    have h2 : s2.Canon := .ite (h1.setWitnessEnd ..) h1
    have hw : TakenCanon w := .ite (fun _ e => h2.witnessWrite _ _ _ _ _ e) (.some h2)
    refine .ite (h.reply ..) ?_
    clear_value w
    split
    · exact h.reply ..
    · exact ((hw _ rfl).takeCtx ..).tableReply ..

@[simp] theorem streamRefuse {s : State} (h : s.Canon) (p c st) : (s.streamRefuse p c st).Canon := by
  unfold State.streamRefuse
  exact (Canon.ite (h.updCtx ..) h).reply ..

@[simp] theorem galleyPlace {s : State} (h : s.Canon) (size) : (s.galleyPlace size).2.Canon := by
  simp only [State.galleyPlace]
  split
  · exact h
  · split
    · exact h.noGrant ..
    · exact h.poolGive ..

@[simp] theorem galleyTake {s : State} (h : s.Canon) (c x n) : (s.galleyTake c x n).Canon := by
  unfold State.galleyTake
  exact .ite h ((h.galleyPlace ..).updCtx ..)

@[simp] theorem galleysDrop {s : State} (h : s.Canon) (c gone) : (s.galleysDrop c gone).Canon := by
  unfold State.galleysDrop
  split
  · exact h
  · refine (h.updCtx ..).foldl (fun s y h => ?_) _
    split
    · exact h.poolReturn _
    · exact h

@[simp] theorem streamClose {s : State} (h : s.Canon) (p id) : (s.streamClose p id).Canon := by
  unfold State.streamClose
  split
  · exact h.reply ..
  · exact .ite (h.reply ..) ((((h.galleysDrop ..).updCtx ..).foldl (fun _ _ h => h.endRun ..) _).foldl
      (fun _ _ h => h.reply ..) _)

@[simp] theorem freeCtxOf {s : State} (h : s.Canon) (c x) : (s.freeCtxOf c x).Canon := by
  unfold State.freeCtxOf
  exact ((Canon.ite (h.getD_witnessWrite ..) h).foldl (fun _ _ h => h.freeCounter ..) _).update

@[simp] theorem streamCloseComplete {s : State} (h : s.Canon) (c) : (s.streamCloseComplete c).Canon := by
  unfold State.streamCloseComplete
  split
  · exact h
  · split
    · exact h
    · exact .ite h ((h.freeCtxOf ..).tableReply ..)

@[simp] theorem storePush {s : State} (h : s.Canon) (p c rs e) : (s.storePush p c rs e).Canon := by
  induction rs generalizing s with
  | nil => exact (h.updCtx ..).reply ..
  | cons r rs ih =>
    rw [State.storePush]
    have hw := h.witnessAppend c 2 r.folio (leBytes 4 r.epoch ++ leBytes 4 0 ++ r.entry)
    split
    · next he => exact (hw.of_pair he).streamRefuse ..
    · next he => exact ih ((hw.of_pair he).updCtx ..)

@[simp] theorem streamParameters {s : State} (h : s.Canon) (p b) : (s.streamParameters p b).Canon := by
  unfold State.streamParameters
  split
  · exact h.reply ..
  · exact .ite (h.reply ..) (.ite (h.streamRefuse ..) (.ite (h.reply ..) (.ite (h.streamRefuse ..) (.ite (h.streamRefuse ..)
      (.ite (h.streamRefuse ..) (.ite ((h.haltStream ..).streamRefuse ..) (.ite (h.update.groupSend ..) (h.storePush ..))))))))

@[simp] theorem resumeAt {s : State} (h : s.Canon) (c x m) : (s.resumeAt c x m).2.Canon := by
  simp only [State.resumeAt]
  split
  · exact h
  · exact ((h.startStages ..).galleysDrop ..).updCtx ..

@[simp] theorem streamResume {s : State} (h : s.Canon) (p id m) : (s.streamResume p id m).Canon := by
  unfold State.streamResume
  split
  · exact h.reply ..
  · exact .ite (h.reply ..) (.ite (h.streamRefuse ..) (.ite (h.streamRefuse ..) ((h.resumeAt ..).reply ..)))

@[simp] theorem decoderFault {s : State} (h : s.Canon) (st streamId folio tag content) :
    (s.decoderFault st streamId folio tag content).Canon := by
  unfold State.decoderFault
  exact ((((h.setReg ..).setReg ..).setReg ..).setReg ..).bump ..

@[simp] theorem decodeBuffer {s : State} (h : s.Canon) (port unit size) : (s.decodeBuffer port unit size).Canon := by
  unfold State.decodeBuffer
  exact .ite h (h.poolPass ..)

@[simp] theorem showEffect {s : State} (h : s.Canon) (x folio x3) : (s.showEffect x folio x3).Canon := by
  unfold State.showEffect
  split
  · exact h.decoderFault ..
  · exact h.bump ..
  · exact .ite (((h.vocabLookups.bumpBy ..).bumpBy ..).bump ..) ((h.vocabLookups.bumpBy ..).bumpBy ..)
  · exact h.countReconstructs ..
  · exact h.jobCount ..
  · exact h.decodeBuffer ..

@[simp] theorem updSlot {s : State} (h : s.Canon) (c g f) : (s.updSlot c g f).Canon := by
  unfold State.updSlot
  exact h.updCtx ..

@[simp] theorem updCand {s : State} (h : s.Canon) (c g j f) : (s.updCand c g j f).Canon := by
  unfold State.updCand
  exact h.updSlot ..

@[simp] theorem resolveSlot {s : State} (h : s.Canon) (c g) : (s.resolveSlot c g).Canon := by
  unfold State.resolveSlot
  split
  · exact h
  · split
    · exact h
    · split
      · exact h
      · split
        · exact h
        · exact (h.updSlot ..).updCtx ..

@[simp] theorem candEffects {s : State} (h : s.Canon) (c g j es) : (s.candEffects c g j es).Canon := by
  unfold State.candEffects
  split
  · exact h
  · exact .ite (h.foldl (fun _ _ h => h.showEffect ..) _) (h.updCand ..)

@[simp] theorem showKept {s : State} (h : s.Canon) (c g) : (s.showKept c g).Canon := by
  unfold State.showKept
  split
  · exact h
  · split
    · exact h
    · exact (h.foldl (fun _ _ h => h.foldl (fun _ _ h => h.showEffect ..) _) _).updSlot ..

@[simp] theorem haltEnded {s : State} (h : s.Canon) (c g) : (s.haltEnded c g).Canon := by
  unfold State.haltEnded
  split
  · exact h
  · split
    · exact h.haltStream ..
    · exact h

@[simp] theorem failCand {s : State} (h : s.Canon) (c g j k) : (s.failCand c g j k).Canon := by
  simp only [State.failCand]
  split
  · split
    · exact (((Canon.ite (h.updCand ..) ((h.updCand ..).updSlot ..)).showKept ..).resolveSlot ..).haltEnded ..
    · exact (((h.updCand ..).showKept ..).resolveSlot ..).haltEnded ..
  · exact (((h.updCand ..).showKept ..).resolveSlot ..).haltEnded ..

@[simp] theorem takeLive {s : State} (h : s.Canon) (c x g) : (s.takeLive c x g).2.Canon := by
  unfold State.takeLive
  split
  · exact h
  · split
    · exact h
    · extract_lets n t
      split
      · exact h.haltStream ..
      · split
        · exact h.haltStream ..
        · split
          · rename_i he5
            exact (h.witnessAppend ..).of_pair he5
          · rename_i he5
            exact ((h.witnessAppend ..).of_pair he5).updCtx ..

@[simp] theorem addSlot {s : State} (h : s.Canon) (c x y) : (s.addSlot c x y).Canon := by
  unfold State.addSlot
  exact (h.galleyTake ..).updCtx ..

@[simp] theorem candidateStart {s : State} (h : s.Canon) (c g j) : (s.candidateStart c g j).Canon := by
  unfold State.candidateStart
  split
  · exact h
  · split
    · exact h
    · split
      · split
        · exact h
        · split
          · rename_i he4
            exact (h.takeLive ..).of_pair he4
          · rename_i he4
            exact (((h.takeLive ..).of_pair he4).updCtx ..).addSlot ..
      · split
        · exact .ite h ((h.addSlot ..).updCtx ..)
        · split
          · exact h.addSlot ..
          · exact .ite h (h.updSlot ..)

@[simp] theorem passStage {s : State} (h : s.Canon) (c g j wu f) : (s.passStage c g j wu f).Canon := by
  unfold State.passStage
  exact (h.updCand ..).resolveSlot ..

@[simp] theorem failDecode {s : State} (h : s.Canon) (c g j st tag content k) :
    (s.failDecode c g j st tag content k).Canon := by
  unfold State.failDecode
  exact (h.candEffects ..).failCand ..

@[simp] theorem stageRecord {s : State} (h : s.Canon) (c g j x y z) : (s.stageRecord c g j x y z).Canon := by
  simp only [State.stageRecord]
  split
  · split
    · exact h
    · exact .ite ((h.updCtx ..).failDecode ..) (.ite (h.failDecode ..) (h.passStage ..))
  · split
    · exact .ite (h.haltStream ..) h
    · exact h.failCand ..
    · split
      · exact h.failCand ..
      · split
        · exact (h.candEffects ..).failCand ..
        · exact (h.candEffects ..).passStage ..

@[simp] theorem stageText {s : State} (h : s.Canon) (c g j x f t bytes packed wu) :
    (s.stageText c g j x f t bytes packed wu).Canon := by
  simp only [State.stageText]
  split
  · exact h
  · split
    · exact (h.candEffects ..).failCand ..
    · exact (h.candEffects ..).passStage ..

@[simp] theorem liveDecoded {s : State} (h : s.Canon) (c nal d random) : (s.liveDecoded c nal d random).Canon := by
  unfold State.liveDecoded
  split
  · exact h.updCtx ..
  · exact h

@[simp] theorem stageField {s : State} (h : s.Canon) (c g j x z f content unit bytes packed) :
    (s.stageField c g j x z f content unit bytes packed).Canon := by
  simp only [State.stageField]
  split
  · exact .ite (h.failCand ..) (h.failDecode ..)
  · exact h
  · split
    · exact h.failDecode ..
    · exact (Canon.ite ((h.candEffects ..).liveDecoded ..) (h.candEffects ..)).passStage ..

@[simp] theorem stageDecode {s : State} (h : s.Canon) (c g j x z f) : (s.stageDecode c g j x z f).Canon := by
  unfold State.stageDecode
  split
  · split
    · exact h
    · split
      · split
        · exact h.stageText ..
        · exact h.stageField ..
      · split
        · exact (h.candEffects ..).stageText ..
        · exact (h.candEffects ..).stageField ..

@[simp] theorem stageOp {s : State} (h : s.Canon) (c g j x z f k) : (s.stageOp c g j x z f k).Canon := by
  simp only [State.stageOp]
  split
  · split
    · exact h.failDecode ..
    · exact .ite (h.failCand ..) ((h.candEffects ..).passStage ..)
  · exact h

@[simp] theorem stageSieve {s : State} (h : s.Canon) (c g j x z cost plate) : (s.stageSieve c g j x z cost plate).Canon := by
  unfold State.stageSieve
  exact .ite (h.failCand ..) (.ite ((Canon.ite (h.updCtx ..) h).passStage ..) ((Canon.ite (h.updCtx ..) h).failCand ..))

@[simp] theorem stageGen {s : State} (h : s.Canon) (c g j x z sect plate) : (s.stageGen c g j x z sect plate).Canon := by
  unfold State.stageGen
  exact .ite (h.passStage ..) (h.failCand ..)

@[simp] theorem stageComplete {s : State} (h : s.Canon) (c g j stage) : (s.stageComplete c g j stage).Canon := by
  simp only [State.stageComplete]
  split
  · exact h
  · split
    · exact h
    · split
      · exact h.stageRecord ..
      · split
        · exact h.stageDecode ..
        · exact h
      · split
        · exact h.stageOp ..
        · exact h
      · split
        · exact .ite (h.stageGen ..) h
        · exact h
      · split
        · exact .ite (h.stageSieve ..) h
        · exact h
      · exact h

@[simp] theorem paramLookup {s : State} (h : s.Canon) (c g j) : (s.paramLookup c g j).Canon := by
  unfold State.paramLookup
  split
  · exact h
  · split
    · exact h
    · extract_lets n e
      split
      · exact h
      · exact h.haltStream ..
      · exact (h.log ..).haltStream ..
      · exact h.haltStream ..
      · extract_lets seen w
        have hw : w.2.Canon := ite_holds (P := fun w : Bool × State => w.2.Canon) (h.witnessAppend ..) h
        clear_value w
        split
        · exact hw
        · extract_lets s1 s2
          have h1 : s1.Canon := .ite (hw.updCtx ..) hw
          have h2 : s2.Canon := h1.updCtx ..
          exact .ite (h2.updCand ..) (h2.failDecode ..)

@[simp] theorem endStream {s : State} (h : s.Canon) (c) : (s.endStream c).Canon := by
  unfold State.endStream
  split
  · exact h
  · exact .ite h ((Canon.ite (h.updCtx ..) (.ite ((h.updCtx ..).emit ..) ((h.updCtx ..).sendStreamEvent ..))).foldl
      (fun _ _ h => h.reply ..) _)

@[simp] theorem haltReads {s : State} (h : s.Canon) (c x st) : (s.haltReads c x st).Canon := by
  unfold State.haltReads
  exact (h.updCtx ..).foldl (fun _ _ h => h.reply ..) _

@[simp] theorem formeHandoff {s : State} (h : s.Canon) (c) : (s.formeHandoff c).Canon := by
  simp only [State.formeHandoff]
  split
  · exact h
  · split
    · exact h.haltReads ..
    · split
      · exact h
      · split
        · exact h
        · split
          · exact h
          · split
            · exact ((((((h.trace ..).emit ..).galleysDrop ..).updCtx ..).updCtx ..).sendMsg ..).endStream ..
            · split
              · exact ((((h.trace ..).emit ..).galleysDrop ..).updCtx ..).endStream ..
              · exact ((((((h.trace ..).emit ..).galleysDrop ..).updCtx ..).updCtx ..).replyData ..).endStream ..

@[simp] theorem credit {s : State} (h : s.Canon) (id a l) : (s.credit id a l).2.Canon := by
  simp only [State.credit]
  split
  · exact h
  · split
    · exact h
    · split
      · exact h.updCtx ..
      · split
        · exact h.updCtx ..
        · split
          · split
            · exact ((h.updCtx ..).update).resumeAt ..
            · exact (h.updCtx ..).update
          · exact h.updCtx ..

@[simp] theorem wdgDiagWrite {s : State} (h : s.Canon) (v) : (s.wdgDiagWrite v).Canon := by
  unfold State.wdgDiagWrite
  exact .ite (((h.plainWrite ..).setBits ..).update) (h.plainWrite ..)

@[simp] theorem wdgSelftestDone {s : State} (h : s.Canon) (ok) : (s.wdgSelftestDone ok).Canon := by
  unfold State.wdgSelftestDone
  exact .ite ((h.setBits ..).update) h

@[simp] theorem clearOvf {s : State} (h : s.Canon) (c v) : (s.clearOvf c v).Canon := by
  unfold State.clearOvf
  extract_lets s1 _
  have h1 : s1.Canon := h.updCtx ..
  exact h1.update

theorem writeWdg {s : State} (h : s.Canon) (off v) : TakenCanon (Machine.writeWdg s off v) := by
  unfold Machine.writeWdg
  exact .ite (.some (h.wdgDiagWrite ..)) (.ite (.ite (.some (h.clearOvf ..)) (.some h)) .none)

/-! The operations of Machine/Ingest. -/

@[simp] theorem unitFault {s : State} (h : s.Canon) (cls unit) : (s.unitFault cls unit).Canon := by
  unfold State.unitFault
  exact .ite ((h.log ..).update) h

@[simp] theorem liveBump {s : State} (h : s.Canon) (c i n) : (s.liveBump c i n).Canon := by
  unfold State.liveBump
  exact h.bumpBy ..

@[simp] theorem setLiveChan {s : State} (h : s.Canon) (c f) : (s.setLiveChan c f).Canon := by
  unfold State.setLiveChan
  exact h.update

@[simp] theorem assignFolio {s : State} (h : s.Canon) (c u) : (s.assignFolio c u).Canon := by
  unfold State.assignFolio
  split
  · exact h.liveBump ..
  · extract_lets size
    split
    · exact h.liveBump ..
    · split
      · rename_i he3
        exact ((h.witnessAppend ..).of_pair he3).liveBump ..
      · rename_i he3
        exact (((h.witnessAppend ..).of_pair he3).updCtx ..).liveBump ..

@[simp] theorem closeUnit {s : State} (h : s.Canon) (c byMarker) : (s.closeUnit c byMarker).Canon := by
  simp only [State.closeUnit]
  split
  · exact h
  · exact (Canon.ite (((h.setLiveChan ..).liveBump ..).liveBump ..) ((h.setLiveChan ..).liveBump ..)).assignFolio ..

@[simp] theorem closeWhole {s : State} (h : s.Canon) (c n) : (s.closeWhole c n).Canon := by
  induction n generalizing s with
  | zero => exact h
  | succ n ih =>
    simp only [State.closeWhole]
    split
    · exact .ite (ih (h.closeUnit ..)) h
    · exact h

@[simp] theorem rtpPacket {s : State} (h : s.Canon) (f port b) : (s.rtpPacket f port b).Canon := by
  simp only [State.rtpPacket]
  split
  · exact (h.wakeEvent ..).policeOther ..
  · split
    · exact ((h.wakeEvent ..).policeOther ..).gnzBump ..
    · exact .ite (((h.wakeEvent ..).policeOther ..).liveBump ..) (.ite (((h.wakeEvent ..).policeOther ..).liveBump ..) (.ite
        (((h.wakeEvent ..).policeOther ..).noGrant ..) (((((h.wakeEvent ..).policeOther ..).liveBump ..).setLiveChan
        ..).closeWhole ..)))

@[simp] theorem liveTimeout {s : State} (h : s.Canon) (c) : (s.liveTimeout c).Canon := by
  simp only [State.liveTimeout]
  split
  · exact h
  · exact .ite ((h.closeUnit ..).closeWhole ..) h

@[simp] theorem liveCfgWrite {s : State} (h : s.Canon) (c v) : (s.liveCfgWrite c v).Canon := by
  unfold State.liveCfgWrite
  exact .ite h (.ite (.ite h ((h.setBits ..).setLiveChan ..)) (.ite (.ite ((h.plainWrite ..).setLiveChan ..) (h.log ..))
    (h.plainWrite ..)))

theorem writeDec {s : State} (h : s.Canon) (off v) : TakenCanon (Machine.writeDec s off v) := by
  unfold Machine.writeDec
  split
  · extract_lets c
    split
    · exact .some (h.liveCfgWrite ..)
    · exact .ite (.some h) .none
    · exact .none
  · exact .none

/-! The operations of Machine/Jobs. -/

@[simp] theorem chkBump {s : State} (h : s.Canon) (die c i) : (s.chkBump die c i).Canon := by
  unfold State.chkBump
  exact h.bump ..

@[simp] theorem setRunning {s : State} (h : s.Canon) (die c v) : (s.setRunning die c v).Canon := by
  unfold State.setRunning
  exact (h.setReg ..).setReg ..

@[simp] theorem setAlive {s : State} (h : s.Canon) (die c last synced) : (s.setAlive die c last synced).Canon := by
  unfold State.setAlive
  exact h.setReg ..

@[simp] theorem aliveTest {s : State} (h : s.Canon) (die c v) : (s.aliveTest die c v).2.Canon := by
  simp only [State.aliveTest]
  split
  · exact h.setAlive ..
  · split
    · exact h.setAlive ..
    · split
      · exact (h.setAlive ..).chkBump ..
      · split
        · exact h.chkBump ..
        · exact h.chkBump ..

@[simp] theorem checkRun {s : State} (h : s.Canon) (die c first last input) :
    (s.checkRun die c first last input).2.2.Canon := by
  unfold State.checkRun
  extract_lets p s1 r next field r' s2 n r'' s3 m t
  have h1 : s1.Canon := .ite (h.setBits ..) h
  have h2 : s2.Canon := .ite h1 (h1.setBits ..)
  have h3 : s3.Canon := (h1.setRunning ..).chkBump ..
  have h4 : t.2.Canon := h3.aliveTest ..
  split
  · exact h
  · split
    · exact h
    · split
      · exact h1.setRunning ..
      · split
        · exact (h2.setRunning ..).chkBump ..
        · split
          · exact h3.chkBump ..
          · split
            · exact h3
            · exact h4

@[simp] theorem jobWrite {s : State} (h : s.Canon) (o addr b) : (s.jobWrite o addr b).Canon := by
  unfold State.jobWrite
  refine .ite h ?_
  split
  · exact .ite (h.setBulk (memWrite_wf _ _ h.bulk)) ((h.setHost (memWrite_wf _ _ h.host)).emit _)
  · exact (h.fillRange ..).vWrite ..

@[simp] theorem jobComplete {s : State} (h : s.Canon) (o d st detail inBits out va vb block check) :
    (s.jobComplete o d st detail inBits out va vb block check).Canon := by
  simp only [State.jobComplete]
  split
  · exact .ite ((((h.jobWrite ..).setReg ..).setReg ..).raiseVector ..) (((h.jobWrite ..).setReg ..).setReg ..)
  · split
    · split
      · exact (h.emit ..).dmaMoved ..
      · exact h.emit ..
    · exact h.emit ..

@[simp] theorem setCmpQueue {s : State} (h : s.Canon) (l) : (s.setCmpQueue l).Canon := by
  unfold State.setCmpQueue
  exact h.update

@[simp] theorem cmpDoorbell {s : State} (h : s.Canon) (q v) : (s.cmpDoorbell q v).Canon := by
  unfold State.cmpDoorbell
  exact .ite ((h.plainWrite ..).setCmpQueue ..) h

@[simp] theorem ringResync {s : State} (h : s.Canon) (q) : (s.ringResync q).Canon := by
  unfold State.ringResync
  exact h.setCmpQueue ..

@[simp] theorem jobTake {s : State} (h : s.Canon) (e o d retried) : (s.jobTake e o d retried).Canon := by
  unfold State.jobTake
  split
  · exact (h.jobCount ..).jobComplete ..
  · exact h.update

@[simp] theorem cmpJobStart {s : State} (h : s.Canon) (e q) : (s.cmpJobStart e q).Canon := by
  simp only [State.cmpJobStart]
  split
  · exact .ite h (h.update.jobTake ..)
  · split
    · exact .ite ((h.setCmpQueue ..).jobTake ..) h
    · exact h

@[simp] theorem dropJob {s : State} (h : s.Canon) (j) : (s.dropJob j).Canon := by
  unfold State.dropJob
  exact h.update

theorem jobRange {s : State} (h : s.Canon) (o w a n) {go : State} (hg : go.Canon) : (s.jobRange o w a n go).Canon := by
  unfold State.jobRange
  split
  · exact hg
  · split
    · exact h
    · split
      · exact h.endRun ..
      · exact hg

@[simp] theorem decompressJobEnd {s : State} (h : s.Canon) (e stop) : (s.decompressJobEnd e stop).Canon := by
  unfold State.decompressJobEnd
  split
  · exact h
  · extract_lets d o from_ s1 s2 go
    have h2 : s2.Canon := ((h.dropJob _).jobWrite ..).jobWrite ..
    exact h.jobRange _ _ _ _ (.ite (h2.setCmpQueue _) ((h2.jobCount _).jobComplete ..))

@[simp] theorem compressJobEnd {s : State} (h : s.Canon) (e bad) : (s.compressJobEnd e bad).Canon := by
  unfold State.compressJobEnd
  split
  · exact h
  · next j _ =>
    extract_lets d level input end_ s1 _ s2
    have hend {s : State} (h : s.Canon) (st out block) : (end_ s st out block).Canon :=
      h.jobRange _ _ _ _ (((h.jobWrite ..).jobCount _).jobComplete ..)
    have hd := h.dropJob j
    split
    · exact hend hd ..
    · refine .ite h ?_
      have h2 : s2.Canon := Canon.update (s := s1) ((hd.log ..).bump ..)
      split
      · exact (h2.jobCount _).setCmpQueue _
      · exact hend h2 ..

@[simp] theorem checkJobEnd {s : State} (h : s.Canon) (e) : (s.checkJobEnd e).Canon := by
  unfold State.checkJobEnd
  split
  · exact h
  · next j _ =>
    extract_lets d r
    have hr : r.2.2.Canon := h.checkRun ..
    exact .ite (((h.dropJob _).jobCount _).jobComplete ..)
      (h.jobRange _ _ _ _ ((((hr.dropJob _).jobWrite ..).jobCount _).jobComplete ..))

@[simp] theorem chkHold {s : State} (h : s.Canon) (die c v) : (s.chkHold die c v).Canon := by
  unfold State.chkHold
  exact .ite (h.plainWrite ..) h

@[simp] theorem setReg64 {s : State} (h : s.Canon) (off v) : (s.setReg64 off v).Canon := by
  unfold State.setReg64
  exact (h.setReg ..).setReg ..

@[simp] theorem chkCfgWrite {s : State} (h : s.Canon) (die c v) : (s.chkCfgWrite die c v).Canon := by
  unfold State.chkCfgWrite
  split
  · exact .ite (h.log ..) (h.plainWrite ..)
  · split
    · exact .ite (h.log ..) ((((((((h.plainWrite ..).setBits ..).setBits ..).setBits ..).setBits ..).setReg64 ..).setReg64
        ..).setReg64 ..)
    · exact .ite (h.log ..) (((((((h.plainWrite ..).setBits ..).setBits ..).setBits ..).setReg64 ..).setReg64 ..).setReg64 ..)

@[simp] theorem chkWrite {s : State} (h : s.Canon) (die c w v) : (s.chkWrite die c w v).Canon := by
  unfold State.chkWrite
  exact .ite h (.ite (h.chkHold ..) (.ite (h.plainWrite ..) (.ite (h.log ..) (.ite (h.chkCfgWrite ..) (.ite
    ((h.plainWrite ..).setBits ..) (h.plainWrite ..))))))

theorem writeCmp {s : State} (h : s.Canon) (off v) : TakenCanon (Machine.writeCmp s off v) := by
  unfold Machine.writeCmp
  split
  · exact .none
  · extract_lets o q
    split
    · split
      · exact .some (h.cmpDoorbell ..)
      · exact .ite (.some ((h.setBits ..).ringResync ..)) (.some ((h.plainWrite ..).ringResync ..))
      · exact .ite (.some h) (.some (h.plainWrite ..))
    · exact .ite (.some (h.chkWrite ..)) (.ite (.some (h.chkWrite ..)) (.some (h.plainWrite ..)))

/-! The operations of Machine/Media. -/

@[simp] theorem refuse {s : State} (h : s.Canon) (p st detail) : (s.refuse p st detail).Canon := by
  unfold State.refuse
  exact h.reply ..

@[simp] theorem placeAll {s : State} (h : s.Canon) (ns lba data us ps) : (s.placeAll ns lba data us ps).Canon := by
  induction us generalizing s ps with
  | nil => exact h
  | cons u us ih => cases ps with
    | nil => exact h
    | cons p ps => exact ih (h.placeUnit ..) _

@[simp] theorem waitsFor {s : State} (h : s.Canon) (ps) : (s.waitsFor ps).Canon := by
  unfold State.waitsFor
  exact h.update

@[simp] theorem endWrite {s : State} (h : s.Canon) (p nsid lba w) : (s.endWrite p nsid lba w).Canon := by
  unfold State.endWrite
  extract_lets count us s1 d _
  have h1 : s1.Canon := ((h.placeAll ..).healthBump ..).waitsFor ..
  exact .ite (h.reply ..) (.ite h1.update.pushTail (h1.reply ..))

@[simp] theorem finishRead {s : State} (h : s.Canon) (r) : (s.finishRead r).Canon := by
  unfold State.finishRead
  split
  · exact h.endWrite ..
  · split
    · exact ((h.healthBump ..).countReconstructs ..).replyData ..
    · split
      · exact h.streamUnreadable ..
      · exact h.reply ..

@[simp] theorem mediaRead {s : State} (h : s.Canon) (p nsid lba count dataLen) :
    (s.mediaRead p nsid lba count dataLen).Canon := by
  unfold State.mediaRead
  split
  · exact h
  · split
    · exact h.refuse ..
    · split
      · exact h.refuse ..
      · split
        · exact h.refuse ..
        · exact .ite (h.refuse ..) (.ite (h.refuse ..) (.ite (h.finishRead ..) h.update))

@[simp] theorem queueRelocate {s : State} (h : s.Canon) (block) : (s.queueRelocate block).Canon := by
  unfold State.queueRelocate
  exact .ite h h.update

@[simp] theorem uncorrectable {s : State} (h : s.Canon) (pma idx) : (s.uncorrectable pma idx).Canon := by
  simp only [State.uncorrectable]
  split
  · exact (h.update.healthBump ..).log ..
  · exact (h.update.healthBump ..).log ..

@[simp] theorem countPage {s : State} (h : s.Canon) (pma r) : (s.countPage pma r).Canon := by
  unfold State.countPage
  exact .ite (.ite ((Canon.ite (((Canon.ite ((((h.healthBump ..).healthBump ..).healthBump ..).healthBump ..)
    (((h.healthBump ..).healthBump ..).healthBump ..)).healthBump ..).bump ..) (.ite
    ((((h.healthBump ..).healthBump ..).healthBump ..).healthBump ..)
    (((h.healthBump ..).healthBump ..).healthBump ..))).queueRelocate ..) (.ite (((Canon.ite
    ((((h.healthBump ..).healthBump ..).healthBump ..).healthBump ..)
    (((h.healthBump ..).healthBump ..).healthBump ..)).healthBump ..).bump ..) (.ite
    ((((h.healthBump ..).healthBump ..).healthBump ..).healthBump ..) (((h.healthBump ..).healthBump ..).healthBump ..))))
    ((Canon.ite ((Canon.ite (((Canon.ite ((((h.healthBump ..).healthBump ..).healthBump ..).healthBump ..)
    (((h.healthBump ..).healthBump ..).healthBump ..)).healthBump ..).bump ..) (.ite
    ((((h.healthBump ..).healthBump ..).healthBump ..).healthBump ..)
    (((h.healthBump ..).healthBump ..).healthBump ..))).queueRelocate ..) (.ite (((Canon.ite
    ((((h.healthBump ..).healthBump ..).healthBump ..).healthBump ..)
    (((h.healthBump ..).healthBump ..).healthBump ..)).healthBump ..).bump ..) (.ite
    ((((h.healthBump ..).healthBump ..).healthBump ..).healthBump ..)
    (((h.healthBump ..).healthBump ..).healthBump ..)))).uncorrectable ..)

@[simp] theorem pageArrived {s : State} (h : s.Canon) (pma) : (s.pageArrived pma).Canon := by
  unfold State.pageArrived
  exact h.update.foldl (fun _ _ h => h.finishRead ..) _

@[simp] theorem nandReadComplete {s : State} (h : s.Canon) (pma r) : (s.nandReadComplete pma r).Canon := by
  unfold State.nandReadComplete
  exact .ite ((h.countPage ..).pageArrived ..) h

@[simp] theorem patrolRead {s : State} (h : s.Canon) (block rs) : (s.patrolRead block rs).Canon := by
  unfold State.patrolRead
  exact .ite (h.foldl (fun _ _ h => .ite h (h.countPage ..)) _) h

@[simp] theorem mediaWrite {s : State} (h : s.Canon) (p nsid lba data pl fua) :
    (s.mediaWrite p nsid lba data pl fua).Canon := by
  simp only [State.mediaWrite]
  split
  · exact h
  · split
    · exact h.refuse ..
    · split
      · exact h.refuse ..
      · exact .ite (.ite ((h.openBands ..).endWrite ..) ((h.openBands ..).update)) h

@[simp] theorem groupDiscard {s : State} (h : s.Canon) (ns u n) {t} (e : s.groupDiscard ns u n = some t) : t.Canon := by
  induction n generalizing s u with
  | zero => cases e; exact h
  | succ n ih =>
    simp only [State.groupDiscard] at e
    split at e
    · cases e
    · next hp =>
      have hs := h.putShares _ _ _ hp
      exact ih (.ite (hs.journal _) (hs.setShares (memZero_wf _ _ hs.shares))) _ e

@[simp] theorem mediaDiscard {s : State} (h : s.Canon) (p nsid lba count) : (s.mediaDiscard p nsid lba count).Canon := by
  unfold State.mediaDiscard
  refine .ite h (.ite (h.refuse ..) (.ite ?_ ?_))
  · split
    · exact h.refuse ..
    · refine .ite h ?_
      split
      · next he => exact (h.groupDiscard _ _ _ he).reply ..
      · exact h
  · split
    · exact h.refuse ..
    · exact (h.journalDiscard ..).reply ..

@[simp] theorem mediaFlush {s : State} (h : s.Canon) (p nsid) : (s.mediaFlush p nsid).Canon := by
  unfold State.mediaFlush
  split
  · exact h
  · split
    · exact h.refuse ..
    · exact .ite (h.refuse ..) h.update.pushTail

@[simp] theorem flushComplete {s : State} (h : s.Canon) : s.flushComplete.Canon := by
  unfold State.flushComplete
  exact h.settle ..

@[simp] theorem pageProgramDone {s : State} (h : s.Canon) (pmas) : (s.pageProgramDone pmas).Canon := by
  unfold State.pageProgramDone
  exact (h.foldl (fun _ _ h => h.pageProgrammed ..) _).settle ..

@[simp] theorem settlePage {s : State} (h : s.Canon) (w) : (s.settlePage w).Canon := by
  simp only [State.settlePage]
  split
  · exact .ite ((Canon.ite h ((Canon.ite (h.healthBump ..) h).countPage ..)).moveUnit ..) (.ite h ((Canon.ite
      (h.healthBump ..) h).countPage ..))
  · exact .ite h ((Canon.ite (h.healthBump ..) h).countPage ..)

@[simp] theorem bandVerifyDone {s : State} (h : s.Canon) (id weak) : (s.bandVerifyDone id weak).Canon := by
  unfold State.bandVerifyDone
  split
  · exact h
  · next b _ =>
    extract_lets s1 _ s2 s3 n _ s4
    have h1 : s1.Canon := h.foldl (fun _ _ h => h.settlePage _) _
    have h2 : s2.Canon := h1.update
    have h3 : s3.Canon := h2.journal _
    have h4 : s4.Canon := .ite h3.update h3
    exact .ite h (h4.spareChanged.checkWornExit.settle _)

@[simp] theorem moveAll {s : State} (h : s.Canon) (es ps) : (s.moveAll es ps).Canon := by
  induction es generalizing s ps with
  | nil => exact h
  | cons u us ih => cases ps with
    | nil => exact h
    | cons p ps => exact ih (h.moveUnit ..) _

@[simp] theorem retireBlock {s : State} (h : s.Canon) (block ctr st) : (s.retireBlock block ctr st).Canon := by
  unfold State.retireBlock
  exact (((((h.journal ..).update).healthBump ..).healthBump ..).log ..).spareChanged

@[simp] theorem programFail {s : State} (h : s.Canon) (pma dests) : (s.programFail pma dests).Canon := by
  unfold State.programFail
  exact .ite ((((h.moveAll ..).update).retireBlock ..).settle ..) h

@[simp] theorem eraseFail {s : State} (h : s.Canon) (block) : (s.eraseFail block).Canon := by
  unfold State.eraseFail
  exact h.retireBlock ..

@[simp] theorem targetLost {s : State} (h : s.Canon) (c t) : (s.targetLost c t).Canon := by
  unfold State.targetLost
  extract_lets mine blocks close _ _ _ s1 s2
  have h1 : s1.Canon := h.update
  have h2 : s2.Canon := (h1.log ..).spareChanged
  exact .ite h (.ite h2.update h2)

@[simp] theorem journalTailTimeout {s : State} (h : s.Canon) : s.journalTailTimeout.Canon := by
  unfold State.journalTailTimeout
  exact .ite h ((h.advance ..).pushTail)

@[simp] theorem journalPageCommit {s : State} (h : s.Canon) : s.journalPageCommit.Canon := by
  unfold State.journalPageCommit
  split
  · exact h
  · exact .ite (h.update.settle ..) h.update

@[simp] theorem checkpointStart {s : State} (h : s.Canon) : s.checkpointStart.Canon := by
  simp only [State.checkpointStart]
  split
  · exact h
  · split
    · exact h.update
    · exact h.update

@[simp] theorem checkpointDone {s : State} (h : s.Canon) (dir places) : (s.checkpointDone dir places).Canon := by
  unfold State.checkpointDone
  split
  · exact h
  · next k _ =>
    extract_lets s1 segs _ s2 s3 s4 keep
    have h1 : s1.Canon := (h.foldl (fun _ _ h => h.programPage _) _).healthBump ..
    have h2 : s2.Canon := h1.update
    have h4 : s4.Canon := ((h2.journal _).healthBump ..).writeAnchorWith ..
    exact .ite h h4.update

@[simp] theorem checkpointStall {s : State} (h : s.Canon) : s.checkpointStall.Canon := by
  unfold State.checkpointStall
  split
  · extract_lets s1 _
    have h1 : s1.Canon := h.healthBump ..
    exact h1.update
  · exact h

@[simp] theorem gcBlockStart {s : State} (h : s.Canon) (pl) : (s.gcBlockStart pl).Canon := by
  unfold State.gcBlockStart
  split
  · exact h
  · exact .ite (((h.openBands ..).foldl (fun _ _ h => (h.storeUnit ..).programPage ..) _).update) h

@[simp] theorem gcCommitUnit {s : State} (h : s.Canon) (src c) : (s.gcCommitUnit src c).Canon := by
  unfold State.gcCommitUnit
  split
  · exact .ite (h.journal ..) h
  · exact h

@[simp] theorem gcVerifyDone {s : State} (h : s.Canon) (src) : (s.gcVerifyDone src).Canon := by
  unfold State.gcVerifyDone
  split
  · exact h
  · exact .ite h (.ite ((((h.foldl (fun _ _ h => h.gcCommitUnit ..) _).journal ..).pushTail).update) (((h.foldl
      (fun _ _ h => h.gcCommitUnit ..) _).pushTail).update))

@[simp] theorem gcErase {s : State} (h : s.Canon) (src) : (s.gcErase src).Canon := by
  unfold State.gcErase
  split
  · exact h
  · exact .ite h (h.setNand (memZero_wf _ _ h.nand)).update

@[simp] theorem lastGasp {s : State} (h : s.Canon) (ns) : (s.lastGasp ns).Canon := by
  unfold State.lastGasp
  exact .ite h h.update.lastGaspStart

@[simp] theorem lastGaspDoneEvent {s : State} (h : s.Canon) (us) : (s.lastGaspDoneEvent us).Canon := by
  unfold State.lastGaspDoneEvent
  exact .ite (h.lastGaspFinish ..) h

@[simp] theorem lastGaspResetRequest {s : State} (h : s.Canon) : s.lastGaspResetRequest.Canon := by
  unfold State.lastGaspResetRequest
  exact .ite ((h.update.emit ..).emit ..) h

@[simp] theorem sanitizeStart {s : State} (h : s.Canon) (p nsid action keyOk) :
    (s.sanitizeStart p nsid action keyOk).Canon := by
  unfold State.sanitizeStart
  split
  · exact h
  · split
    · exact h.refuse ..
    · exact .ite ((h.refuse ..).log ..) ((h.cryptoEraseAll.update.writeAnchorWith ..).reply ..)

@[simp] theorem sanitizeBlock {s : State} (h : s.Canon) (p nsid keyOk) : (s.sanitizeBlock p nsid keyOk).Canon := by
  unfold State.sanitizeBlock
  exact h.sanitizeStart ..

@[simp] theorem sanitizeFormat {s : State} (h : s.Canon) (p nsid keyOk) : (s.sanitizeFormat p nsid keyOk).Canon := by
  unfold State.sanitizeFormat
  exact h.sanitizeStart ..

@[simp] theorem eraseTarget {s : State} (h : s.Canon) (t) : (s.eraseTarget t).Canon := h.setNand (memZero_wf _ _ h.nand)

@[simp] theorem sanitizeEnd {s : State} (h : s.Canon) (j factoryBad) : (s.sanitizeEnd j factoryBad).Canon := by
  unfold State.sanitizeEnd
  split
  · split
    · exact h.update.update.update.update.writeAnchorWith ..
    · exact h.update.update.writeAnchorWith ..
  · split
    · exact h.update.update.update.writeAnchorWith ..
    · exact h.update.writeAnchorWith ..

@[simp] theorem sanitizeTargetDone {s : State} (h : s.Canon) (factoryBad) : (s.sanitizeTargetDone factoryBad).Canon := by
  unfold State.sanitizeTargetDone
  split
  · exact h
  · split
    · exact h
    · split
      · exact h.sanitizeEnd ..
      · exact .ite ((((Canon.ite (h.eraseTarget ..) h).journal ..).update).sanitizeEnd ..) (((Canon.ite
          (h.eraseTarget ..) h).journal ..).update)

@[simp] theorem nsFeature {s : State} (h : s.Canon) (p e sealNs) : (s.nsFeature p e sealNs).Canon := by
  unfold State.nsFeature
  exact (h.journal ..).update

@[simp] theorem nsMake {s : State} (h : s.Canon) (p nsid cap) : (s.nsMake p nsid cap).Canon := by
  unfold State.nsMake
  exact (h.update.drawKey ..).nsFeature ..

@[simp] theorem nsRefuse {s : State} (h : s.Canon) (p r) : (s.nsRefuse p r).Canon := by
  unfold State.nsRefuse
  exact .ite ((h.refuse ..).log ..) (h.refuse ..)

@[simp] theorem nsCreate {s : State} (h : s.Canon) (p nsid cap keyOk) : (s.nsCreate p nsid cap keyOk).Canon := by
  unfold State.nsCreate
  split
  · exact h
  · split
    · exact h.nsRefuse ..
    · exact h.nsMake ..

@[simp] theorem nsRemove {s : State} (h : s.Canon) (p nsid) : (s.nsRemove p nsid).Canon := by
  unfold State.nsRemove
  extract_lets s1 _
  have h1 : s1.Canon := (h.cryptoEraseRecord.dropKey _).nsFeature ..
  have h2 : State.Canon { s1 with media := { s1.media with wornDelete := s1.media.health.worn } } := h1.update
  exact h2.checkWornExit

@[simp] theorem nsDelete {s : State} (h : s.Canon) (p nsid keyOk) : (s.nsDelete p nsid keyOk).Canon := by
  unfold State.nsDelete
  split
  · exact h
  · split
    · exact h.nsRefuse ..
    · exact h.nsRemove ..

@[simp] theorem nsSeal {s : State} (h : s.Canon) (p nsid) : (s.nsSeal p nsid).Canon := by
  unfold State.nsSeal
  split
  · exact h
  · split
    · exact h.nsRefuse ..
    · exact (h.nsFeature ..).pushTail

@[simp] theorem nsUnseal {s : State} (h : s.Canon) (p nsid) : (s.nsUnseal p nsid).Canon := by
  unfold State.nsUnseal
  split
  · exact h
  · split
    · exact h.nsRefuse ..
    · exact h.nsFeature ..

@[simp] theorem ckptConfigWrite {s : State} (h : s.Canon) (v) : (s.ckptConfigWrite v).Canon := by
  unfold State.ckptConfigWrite
  exact .ite (h.plainWrite ..) (.ite (h.plainWrite ..) (h.log ..))

@[simp] theorem nandTemperature {s : State} (h : s.Canon) (temps) : (s.nandTemperature temps).Canon := by
  unfold State.nandTemperature
  split
  · exact h
  · exact h.update.healthBump ..

@[simp] theorem nandPadWrite {s : State} (h : s.Canon) (v) : (s.nandPadWrite v).Canon := by
  unfold State.nandPadWrite
  exact .ite (h.plainWrite ..) (.ite (h.log ..) (h.plainWrite ..))

theorem writeMedia {s : State} (h : s.Canon) (off v) : TakenCanon (Machine.writeMedia s off v) := by
  unfold Machine.writeMedia
  exact .ite (.some (.ite h.update h)) (.ite (.some h.update) (.ite (.some (h.nandPadWrite ..)) (.ite (.some
    (h.ckptConfigWrite ..)) .none)))

/-! The operations of Machine/Yqi. -/

@[simp] theorem updQueue {s : State} (h : s.Canon) (fn q f) : (s.updQueue fn q f).Canon := by
  unfold State.updQueue
  exact h.update

@[simp] theorem yqiLog {s : State} (h : s.Canon) (st detail q cid opcode nsid info0 froze) :
    (s.yqiLog st detail q cid opcode nsid info0 froze).Canon := by
  unfold State.yqiLog
  exact h.logEntry ..

@[simp] theorem freezeQueue {s : State} (h : s.Canon) (fn q) : (s.freezeQueue fn q).Canon := by
  unfold State.freezeQueue
  split
  · exact h
  · exact .ite h (((h.bump ..).update).updQueue ..)

@[simp] theorem badDoorbell {s : State} (h : s.Canon) (fn q) : (s.badDoorbell fn q).Canon := by
  simp only [State.badDoorbell]
  split
  · exact h
  · split
    · exact (Canon.ite ((h.freezeQueue ..).updQueue ..) (h.freezeQueue ..)).yqiLog ..
    · exact .ite ((h.freezeQueue ..).updQueue ..) (h.freezeQueue ..)

@[simp] theorem sqTail {s : State} (h : s.Canon) (fn q v) : (s.sqTail fn q v).Canon := by
  unfold State.sqTail
  split
  · exact h
  · exact .ite (h.badDoorbell ..) (h.updQueue ..)

@[simp] theorem cqHead {s : State} (h : s.Canon) (fn q v) : (s.cqHead fn q v).Canon := by
  unfold State.cqHead
  split
  · exact h
  · exact .ite (h.badDoorbell ..) (h.updQueue ..)

@[simp] theorem aqEnable {s : State} (h : s.Canon) (fn v) : (s.aqEnable fn v).Canon := by
  unfold State.aqEnable
  split
  · exact h
  · split
    · exact h
    · split
      · exact h.setFn ..
      · split
        · exact h.setFn ..
        · extract_lets s1 _
          have h1 : s1.Canon := h.setFn ..
          exact h1.update

@[simp] theorem loseReads {s : State} (h : s.Canon) (gone) : (s.loseReads gone).Canon := by
  unfold State.loseReads
  exact h.setCtxs ..

@[simp] theorem unlock {s : State} (h : s.Canon) (p) : (s.unlock p).Canon := by
  unfold State.unlock
  exact h.update

@[simp] theorem freeQueue {s : State} (h : s.Canon) (fn q) : (s.freeQueue fn q).Canon := by
  unfold State.freeQueue
  exact (h.loseReads ..).update

@[simp] theorem beginDelete {s : State} (h : s.Canon) (fn q cid) : (s.beginDelete fn q cid).Canon := by
  unfold State.beginDelete
  exact (h.update.update.updQueue ..).loseReads ..

@[simp] theorem flr {s : State} (h : s.Canon) (fn) : (s.flr fn).Canon := by
  unfold State.flr
  extract_lets qs s1 s2 s3
  have h1 : s1.Canon := h.foldl (fun _ _ h => h.beginDelete ..) _
  have h2 : s2.Canon := h1.foldl (fun _ _ h => .ite (h.freeQueue ..) h) _
  have h3 : s3.Canon := h2.setFn ..
  refine h3.setRuns (List.forall_mem_map.2 fun r hr => ?_)
  have hm := h3.run_mem hr
  split
  · exact ite_holds (P := fun r : Run => Memory.wf r.mem = true) hm hm
  · exact hm

@[simp] theorem aqDisable {s : State} (h : s.Canon) (fn v) : (s.aqDisable fn v).Canon := by
  unfold State.aqDisable
  split
  · exact h
  · exact .ite h (.ite (h.flr ..) (h.setFn ..))

@[simp] theorem functionReset {s : State} (h : s.Canon) (fn) : (s.functionReset fn).Canon := by
  unfold State.functionReset
  exact .ite (h.flr ..) h

@[simp] theorem linkDown {s : State} (h : s.Canon) (l) : (s.linkDown l).Canon := by
  unfold State.linkDown
  split
  · exact (h.foldl (fun _ _ h => h.flr ..) _).update
  · split
    · exact (h.foldl (fun _ _ h => h.flr ..) _).update
    · exact (h.foldl (fun _ _ h => h.flr ..) _).update

@[simp] theorem linkUp {s : State} (h : s.Canon) (l flit speed width) : (s.linkUp l flit speed width).Canon := by
  unfold State.linkUp
  split
  · exact h.update
  · split
    · exact h.update
    · exact h.update

@[simp] theorem takeIn {s : State} (h : s.Canon) (c) : (s.takeIn c).Canon := by
  unfold State.takeIn
  split
  · exact h.update
  · exact .ite h.update h.update

@[simp] theorem policeCmd {s : State} (h : s.Canon) (c stage) : (s.policeCmd c stage).2.Canon := by
  unfold State.policeCmd
  extract_lets bits one second
  have h1 {s : State} (h : s.Canon) (off : Nat) : (one s off).2.Canon := by
    unfold one
    split
    · exact h
    · next n _ =>
      have hp := h.police 0 n bits .green
      dsimp only
      split
      · exact hp
      · exact hp
  have h2 {s : State} (h : s.Canon) : (second s).2.Canon := h1 h _
  split
  · have hs := h1 h (4 * c.fn)
    split
    · next he => exact hs.of_pair he
    · next he => exact h2 (hs.of_pair he)
  · exact h2 h

@[simp] theorem arrive {s : State} (h : s.Canon) (x c a) : (s.arrive x c a).Canon := by
  unfold State.arrive
  split
  · exact h.update.reply ..
  · split
    · split
      · rename_i he2
        exact ((h.policeCmd ..).of_pair he2).update
      · rename_i he2
        exact ((h.policeCmd ..).of_pair he2).takeIn ..
    · exact h.takeIn ..

@[simp] theorem commandFetch {s : State} (h : s.Canon) (a) : (s.commandFetch a).Canon := by
  unfold State.commandFetch
  split
  · exact h
  · extract_lets c s1 _ s2
    have h1 : s1.Canon := h.updQueue ..
    have h2 : s2.Canon := .ite h1 h1.update
    exact h2.arrive ..

@[simp] theorem parkedAdmit {s : State} (h : s.Canon) : s.parkedAdmit.Canon := by
  unfold State.parkedAdmit
  split
  · exact h
  · exact h.update

@[simp] theorem countEntry {s : State} (h : s.Canon) (fn v froze) : (s.countEntry fn v froze).Canon := by
  unfold State.countEntry
  split
  · exact h
  · exact .ite ((h.setFn ..).raiseVector ..) (h.setFn ..)

@[simp] theorem putData {s : State} (h : s.Canon) (fn ss b) : (s.putData fn ss b).Canon := by
  induction ss generalizing s b with
  | nil => exact h
  | cons x ss ih =>
    rw [State.putData]
    exact .ite h (ih ((h.setHost (memWrite_wf _ _ h.host)).emit _) _)

@[simp] theorem writeCq {s : State} (h : s.Canon) (d c) : (s.writeCq d c).Canon := by
  unfold State.writeCq
  split
  · exact h
  · next x _ =>
    extract_lets froze s1 r
    have h1 : s1.Canon := .ite (h.freezeQueue ..) h
    split
    · exact h1
    · extract_lets b addr s2 s3 last s4 s5 s6
      have h2 : s2.Canon := h1.setHost (memWrite_wf _ _ h1.host)
      have h5 : s5.Canon := ((h2.emit _).updQueue ..).bump ..
      have h6 : s6.Canon := .ite (h5.yqiLog ..) h5
      exact .ite (h6.countEntry ..) h6

@[simp] theorem finishCmd {s : State} (h : s.Canon) (d c a) : (s.finishCmd d c a).2.Canon := by
  simp only [State.finishCmd]
  split
  · exact h.update.unlock ..
  · split
    · exact h.update.unlock ..
    · exact (Canon.ite ((h.update.unlock ..).putData ..) (h.update.unlock ..)).writeCq ..

@[simp] theorem commandComplete {s : State} (h : s.Canon) (fn q cid a) : (s.commandComplete fn q cid a).Canon := by
  unfold State.commandComplete
  split
  · exact h
  · exact .ite h (h.finishCmd ..)

@[simp] theorem formeRead {s : State} (h : s.Canon) (p id len) : (s.formeRead p id len).Canon := by
  unfold State.formeRead
  split
  · exact h.reply ..
  · split
    · exact h.reply ..
    · split
      · exact h.reply ..
      · split
        · exact h.reply ..
        · split
          · exact .ite (h.streamRefuse ..) ((h.updCtx ..).replyData ..)
          · split
            · exact .ite (h.streamRefuse ..) (h.reply ..)
            · split
              · exact .ite (h.streamRefuse ..) (h.reply ..)
              · exact .ite (h.streamRefuse ..) (h.updCtx ..)

@[simp] theorem formeReadComplete {s : State} (h : s.Canon) (fn q cid a) : (s.formeReadComplete fn q cid a).Canon := by
  simp only [State.formeReadComplete]
  split
  · exact .ite ((h.finishCmd ..).updCtx ..) ((h.finishCmd ..).updCtx ..)
  · exact h

@[simp] theorem coalesceTimeout {s : State} (h : s.Canon) (fn v) : (s.coalesceTimeout fn v).Canon := by
  unfold State.coalesceTimeout
  split
  · exact h
  · split
    · exact .ite ((h.advance ..).raiseVector ..) h
    · exact h

@[simp] theorem queueCreate {s : State} (h : s.Canon) (p q depth v irq sq cq) :
    (s.queueCreate p q depth v irq sq cq).Canon := by
  simp only [State.queueCreate]
  split
  · exact h.reply ..
  · exact .ite (h.reply ..) (h.update.reply ..)

@[simp] theorem queueDelete {s : State} (h : s.Canon) (p q) : (s.queueDelete p q).Canon := by
  simp only [State.queueDelete]
  split
  · exact h.reply ..
  · exact .ite (h.reply ..) (h.beginDelete ..)

@[simp] theorem queueDeleteDone {s : State} (h : s.Canon) (fn q) : (s.queueDeleteDone fn q).Canon := by
  unfold State.queueDeleteDone
  split
  · exact h
  · split
    · exact h
    · split
      · exact h
      · split
        · exact (h.freeQueue ..).reply ..
        · exact h.freeQueue ..

@[simp] theorem queueRestart {s : State} (h : s.Canon) (p q skip) : (s.queueRestart p q skip).Canon := by
  simp only [State.queueRestart]
  split
  · exact h.reply ..
  · exact .ite (h.reply ..) ((h.updQueue ..).reply ..)

@[simp] theorem bar2Write {s : State} (h : s.Canon) (fn off v) : (s.bar2Write fn off v).Canon := by
  unfold State.bar2Write
  split
  · exact h
  · split
    · exact h.sqTail ..
    · split
      · exact h.cqHead ..
      · split
        · exact .ite (h.aqEnable ..) (h.aqDisable ..)
        · split
          · exact h
          · split
            · exact h.setFn ..
            · exact h.setFn ..
            · exact h.setFn ..
            · exact h.setFn ..
            · exact h

@[simp] theorem setMsixMask {s : State} (h : s.Canon) (fn vec masked) : (s.setMsixMask fn vec masked).Canon := by
  unfold State.setMsixMask
  split
  · exact h
  · exact .ite (h.setFn ..) (.ite ((h.setFn ..).emit ..) (h.setFn ..))

@[simp] theorem setVfEnable {s : State} (h : s.Canon) (l n) : (s.setVfEnable l n).Canon := by
  unfold State.setVfEnable
  split
  · exact h
  · extract_lets s1 missing _
    have h1 : s1.Canon := h.setFn ..
    exact h1.update

/-! The operations of Machine/GnozRx. -/

@[simp] theorem rxBuffer {s : State} (h : s.Canon) (hd port len) : (s.rxBuffer hd port len).2.Canon := by
  unfold State.rxBuffer
  extract_lets size
  split
  · exact h
  · split
    · split
      · exact h.poolPass ..
      · exact h.noGrant ..
    · exact h.poolPass ..

@[simp] theorem complete {s : State} (h : s.Canon) (m) : (s.complete m).2.Canon := by
  unfold State.complete
  split
  · exact h.update
  · split
    · exact (h.gnzBump ..).sendAck ..
    · exact h.update

@[simp] theorem placeFragment {s : State} (h : s.Canon) (hd off b) : (s.placeFragment hd off b).2.Canon := by
  unfold State.placeFragment
  split
  · exact h
  · extract_lets st
    split
    · exact h
    · exact h.keyStore ..

@[simp] theorem reassemble {s : State} (h : s.Canon) (m frag count shift) : (s.reassemble m frag count shift).Canon := by
  unfold State.reassemble
  extract_lets probe mine old s1 x r got x' rest s2 _ s3 whole s4 c s5 _
  have h1 : s1.Canon := h.gnzBump ..
  have h2 : s2.Canon := h.placeFragment ..
  have h3 : s3.Canon := h2.update
  have h4 : s4.Canon := h2.update
  have h5 : s5.Canon := h4.complete ..
  exact .ite (h.gnzBump ..) (.ite (.ite (h1.sendAck ..) h1) (.ite (.ite (h3.sendAck ..) h3) (.ite (h4.complete ..) h5.update)))

@[simp] theorem fragmentReceive {s : State} (h : s.Canon) (p) : (s.fragmentReceive p).Canon := by
  simp only [State.fragmentReceive]
  split
  · exact h
  · split
    · split
      · exact (h.wakeEvent ..).policeFrame ..
      · split
        · exact ((h.wakeEvent ..).policeFrame ..).gnzBump ..
        · split
          · split
            · exact (((h.wakeEvent ..).policeFrame ..).gnzBump ..).sendAck ..
            · exact ((h.wakeEvent ..).policeFrame ..).gnzBump ..
          · split
            · exact .ite (((h.wakeEvent ..).policeFrame ..).rxBuffer ..) (.ite
                ((((h.wakeEvent ..).policeFrame ..).rxBuffer ..).complete ..)
                ((((h.wakeEvent ..).policeFrame ..).rxBuffer ..).reassemble ..))
            · exact .ite ((h.wakeEvent ..).policeFrame ..) (.ite (((h.wakeEvent ..).policeFrame ..).complete ..)
                (((h.wakeEvent ..).policeFrame ..).reassemble ..))
    · split
      · exact (h.wakeEvent ..).policeFrame ..
      · split
        · exact ((h.wakeEvent ..).policeFrame ..).gnzBump ..
        · split
          · split
            · exact (((h.wakeEvent ..).policeFrame ..).gnzBump ..).sendAck ..
            · exact ((h.wakeEvent ..).policeFrame ..).gnzBump ..
          · split
            · exact .ite (((h.wakeEvent ..).policeFrame ..).rxBuffer ..) (.ite
                ((((h.wakeEvent ..).policeFrame ..).rxBuffer ..).complete ..)
                ((((h.wakeEvent ..).policeFrame ..).rxBuffer ..).reassemble ..))
            · exact .ite ((h.wakeEvent ..).policeFrame ..) (.ite (((h.wakeEvent ..).policeFrame ..).complete ..)
                (((h.wakeEvent ..).policeFrame ..).reassemble ..))

@[simp] theorem ingestWrite {s : State} (h : s.Canon) (m k ns pl) : (s.ingestWrite m k ns pl).Canon := by
  unfold State.ingestWrite
  exact .ite (h.writeEnd ..) (.ite (h.writeEnd ..) (.ite (h.writeEnd ..) (.ite h (.ite (h.mediaWrite ..) (.ite (h.writeEnd ..)
    (.ite h ((h.mediaWrite ..).writeEnd ..)))))))

@[simp] theorem rxWrite {s : State} (h : s.Canon) (device msgId pl) : (s.rxWrite device msgId pl).Canon := by
  unfold State.rxWrite
  split
  · exact h
  · split
    · split
      · split
        · exact .ite (h.writeEnd ..) (h.ingestWrite ..)
        · exact .ite (h.writeEnd ..) (h.writeEnd ..)
      · exact .ite (h.writeEnd ..) (h.writeEnd ..)
    · split
      · split
        · exact .ite ((h.placeFragment ..).writeEnd ..) (h.ingestWrite ..)
        · exact .ite ((h.placeFragment ..).writeEnd ..) ((h.placeFragment ..).writeEnd ..)
      · exact .ite ((h.placeFragment ..).writeEnd ..) ((h.placeFragment ..).writeEnd ..)

@[simp] theorem dropEntry {s : State} (h : s.Canon) (m) : (s.dropEntry m).Canon := by
  unfold State.dropEntry
  exact h.update

@[simp] theorem intoReceive {s : State} (h : s.Canon) (m) : (s.intoReceive m).Canon := by
  unfold State.intoReceive
  extract_lets q held s1 _
  have h1 : s1.Canon := h.dropIn ..
  split
  · exact h
  · split
    · exact h1.ackApplied ..
    · split
      · exact (h1.ackApplied ..).dropEntry ..
      · split
        · exact h1.ackApplied ..
        · split
          · exact ((((h1.setGq ..).checkRun ..).gqWrite ..).gqComplete ..).ackApplied ..
          · exact (((h1.setGq ..).gqWrite ..).gqComplete ..).ackApplied ..

@[simp] theorem rxSend {s : State} (h : s.Canon) (device msgId) : (s.rxSend device msgId).Canon := by
  unfold State.rxSend
  split
  · exact h
  · exact h.intoReceive ..

@[simp] theorem rxForme {s : State} (h : s.Canon) (device msgId) : (s.rxForme device msgId).Canon := by
  unfold State.rxForme
  split
  · exact h
  · exact h.intoReceive ..

@[simp] theorem rxStreamEvent {s : State} (h : s.Canon) (device msgId) : (s.rxStreamEvent device msgId).Canon := by
  unfold State.rxStreamEvent
  split
  · exact h
  · exact h.intoReceive ..

@[simp] theorem rxRead {s : State} (h : s.Canon) (device msgId) : (s.rxRead device msgId).Canon := by
  simp only [State.rxRead]
  split
  · exact h
  · split
    · exact h
    · split
      · exact (h.dropIn ..).ackApplied ..
      · split
        · exact (h.dropIn ..).ackApplied ..
        · split
          · exact (h.dropIn ..).ackApplied ..
          · exact ((h.dropIn ..).gnzBump ..).sendMsg ..

@[simp] theorem endOut {s : State} (h : s.Canon) (m) : (s.endOut m).Canon := by
  unfold State.endOut
  exact (h.foldl (fun _ _ h => h.subFlight ..) _).update

@[simp] theorem returned {s : State} (h : s.Canon) (m kind op) : (s.returned m kind op).Canon := by
  simp only [State.returned]
  split
  · exact h.dropIn ..
  · split
    · exact ((Canon.ite ((h.dropIn ..).endOut ..) (((h.dropIn ..).endOut ..).gqWrite ..)).gqComplete ..).ackApplied ..
    · exact h.dropIn ..

@[simp] theorem rxReadData {s : State} (h : s.Canon) (device msgId) : (s.rxReadData device msgId).Canon := by
  unfold State.rxReadData
  split
  · exact h
  · exact h.returned ..

@[simp] theorem rxReply {s : State} (h : s.Canon) (device msgId) : (s.rxReply device msgId).Canon := by
  unfold State.rxReply
  split
  · exact h
  · exact h.returned ..

@[simp] theorem remoteAdd {s : State} (h : s.Canon) (device imm) : (s.remoteAdd device imm).2.Canon := by
  simp only [State.remoteAdd]
  split
  · exact h
  · split
    · exact h
    · split
      · exact h
      · split
        · exact h.bump ..
        · exact (h.counterAdd ..).bump ..

@[simp] theorem rxSyncAdd {s : State} (h : s.Canon) (device msgId) : (s.rxSyncAdd device msgId).Canon := by
  unfold State.rxSyncAdd
  split
  · exact h
  · exact .ite ((h.dropIn ..).ackApplied ..) (((h.dropIn ..).remoteAdd ..).ackApplied ..)

@[simp] theorem rxArm {s : State} (h : s.Canon) (device msgId) : (s.rxArm device msgId).Canon := by
  unfold State.rxArm
  split
  · exact h
  · exact (Canon.ite (h.dropIn ..) ((h.dropIn ..).setGq ..)).ackApplied ..

@[simp] theorem rxCredit {s : State} (h : s.Canon) (device msgId) : (s.rxCredit device msgId).Canon := by
  unfold State.rxCredit
  split
  · exact h
  · exact .ite ((h.dropIn ..).ackApplied ..) (.ite ((h.dropIn ..).ackApplied ..) (((h.dropIn ..).credit ..).ackApplied ..))

@[simp] theorem rxControl {s : State} (h : s.Canon) (device msgId) : (s.rxControl device msgId).Canon := by
  unfold State.rxControl
  split
  · exact h
  · extract_lets s1 c _ s2
    have h1 : s1.Canon := h.dropIn ..
    have h2 : s2.Canon := h1.update
    exact .ite (h1.ackApplied ..) (.ite (h1.ackApplied ..) (.ite (h1.ackApplied ..) (.ite (h2.controlReply ..) h2)))

@[simp] theorem frameDiscard {s : State} (h : s.Canon) (f _cause) : (s.frameDiscard f _cause).Canon := by
  unfold State.frameDiscard
  exact .ite ((h.policeOther ..).gnzBump ..) (h.policeOther ..)

@[simp] theorem dupExpiry {s : State} (h : s.Canon) (device msgId) : (s.dupExpiry device msgId).Canon := by
  unfold State.dupExpiry
  exact .ite h.update h

@[simp] theorem reasmExpiry {s : State} (h : s.Canon) (device msgId) : (s.reasmExpiry device msgId).Canon := by
  unfold State.reasmExpiry
  exact .ite h.update h

/-! The operations of Machine/GnozTx. -/

@[simp] theorem gqDoorbell {s : State} (h : s.Canon) (q v) : (s.gqDoorbell q v).Canon := by
  unfold State.gqDoorbell
  exact .ite (h.setBits ..) h

@[simp] theorem gqTake {s : State} (h : s.Canon) (q wasArmed) : (s.gqTake q wasArmed).Canon := by
  unfold State.gqTake
  exact h.setGq ..

@[simp] theorem groupFail {s : State} (h : s.Canon) (q idx) : (s.groupFail q idx).Canon := by
  unfold State.groupFail
  exact h.setGq ..

@[simp] theorem sendWr {s : State} (h : s.Canon) (q idx w payload) : (s.sendWr q idx w payload).Canon := by
  unfold State.sendWr
  exact h.sendMsg ..

@[simp] theorem wrPayload {s : State} (h : s.Canon) (q w) : (s.wrPayload q w).2.2.Canon := by
  simp only [State.wrPayload]
  split
  · split
    · exact h.checkRun ..
    · exact h.checkRun ..
  · split
    · exact h
    · exact h

@[simp] theorem sendChecked {s : State} (h : s.Canon) (q idx w) : (s.sendChecked q idx w).Canon := by
  unfold State.sendChecked
  exact .ite ((h.wrPayload ..).gqComplete ..) ((h.wrPayload ..).sendWr ..)

@[simp] theorem wrRefuse {s : State} (h : s.Canon) (q idx w st) : (s.wrRefuse q idx w st).Canon := by
  unfold State.wrRefuse
  exact .ite (.ite ((h.gqComplete ..).setGq ..) ((h.gqComplete ..).groupFail ..)) (h.gqComplete ..)

@[simp] theorem sendWrite {s : State} (h : s.Canon) (q idx w) : (s.sendWrite q idx w).Canon := by
  unfold State.sendWrite
  extract_lets g r s1
  have h1 : s1.Canon := h.setGq ..
  split
  · exact .ite ((h.wrPayload ..).wrRefuse ..) (((h.wrPayload ..).setGq ..).sendWr ..)
  · split
    · exact h1.gqComplete ..
    · exact .ite (h1.sendChecked ..) (h1.setGq ..)

@[simp] theorem wrRun {s : State} (h : s.Canon) (q idx w) : (s.wrRun q idx w).Canon := by
  unfold State.wrRun
  exact .ite (h.setGq ..) (.ite (h.wrRefuse ..) (.ite (.ite (h.wrRefuse ..) (h.sendWr ..)) (.ite (h.sendWr ..) (.ite
    (h.sendWrite ..) (h.sendChecked ..)))))

@[simp] theorem wrStart {s : State} (h : s.Canon) (q op) : (s.wrStart q op).Canon := by
  unfold State.wrStart
  split
  · exact (h.setGq ..).sendChecked ..
  · split
    · exact h
    · exact .ite h (.ite ((h.gqTake ..).wrRefuse ..) (.ite ((h.gqTake ..).wrRefuse ..) (.ite (.ite ((h.gqTake ..).wrRefuse ..)
        ((h.gqTake ..).setGq ..)) (.ite (h.setGq ..) ((h.gqTake ..).wrRun ..)))))

@[simp] theorem groupEnd {s : State} (h : s.Canon) (q idx st) : (s.groupEnd q idx st).Canon := by
  unfold State.groupEnd
  extract_lets g s1 g' hit
  have h1 : s1.Canon := .ite (h.setGq ..) h
  split
  · exact h1
  · exact .ite ((h1.setGq ..).gqComplete ..) (.ite ((h1.setGq ..).sendChecked ..) (h1.setGq ..))

@[simp] theorem formeDone {s : State} (h : s.Canon) (ctx n) : (s.formeDone ctx n).Canon := by
  unfold State.formeDone
  exact h.updCtx ..

@[simp] theorem messageEnd {s : State} (h : s.Canon) (m st detail result) : (s.messageEnd m st detail result).Canon := by
  unfold State.messageEnd
  split
  · exact (Canon.ite (((h.endOut ..).gqComplete ..).groupEnd ..) ((h.endOut ..).gqComplete ..)).pump
  · exact .ite (((h.endOut ..).formeDone ..).pump) (((h.endOut ..).update).pump)
  · exact .ite ((h.endOut ..).pump) (((h.endOut ..).update).pump)
  · exact (h.endOut ..).pump

@[simp] theorem congest {s : State} (h : s.Canon) (r path ece rtt acked) : (s.congest r path ece rtt acked).Canon := by
  unfold State.congest
  exact .ite (h.setPath ..) (h.setPath ..)

@[simp] theorem retransmit {s : State} (h : s.Canon) (i m) : (s.retransmit i m).Canon := by
  unfold State.retransmit
  exact (((h.setPath ..).foldl (fun _ _ h => h.subFlight ..) _).setOut ..).pump

@[simp] theorem giveUp {s : State} (h : s.Canon) (m) : (s.giveUp m).Canon := by
  unfold State.giveUp
  exact .ite (h.messageEnd ..) (h.messageEnd ..)

@[simp] theorem rtoExpiry {s : State} (h : s.Canon) (i) : (s.rtoExpiry i).Canon := by
  unfold State.rtoExpiry
  split
  · exact h
  · exact .ite h (.ite ((h.advance ..).giveUp ..) ((h.advance ..).retransmit ..))

@[simp] theorem messageExpiry {s : State} (h : s.Canon) (i) : (s.messageExpiry i).Canon := by
  unfold State.messageExpiry
  split
  · exact h
  · exact .ite h (.ite ((h.advance ..).giveUp ..) (h.giveUp ..))

@[simp] theorem rxAck {s : State} (h : s.Canon) (device msgId) : (s.rxAck device msgId).Canon := by
  simp only [State.rxAck]
  split
  · exact h
  · split
    · exact (Canon.ite ((h.dropIn ..).gnzBump ..) (h.dropIn ..)).gnzBump ..
    · split
      · exact .ite ((h.dropIn ..).gnzBump ..) (h.dropIn ..)
      · split
        · split
          · split
            · exact (((Canon.ite ((h.dropIn ..).gnzBump ..) (h.dropIn ..)).foldl (fun _ _ h => h.congest ..) _).foldl
                (fun _ _ h => h.subFlight ..) _).giveUp ..
            · exact ((Canon.ite ((h.dropIn ..).gnzBump ..) (h.dropIn ..)).foldl (fun _ _ h => h.subFlight ..) _).giveUp ..
          · split
            · exact ((((Canon.ite ((h.dropIn ..).gnzBump ..) (h.dropIn ..)).foldl (fun _ _ h => h.congest ..) _).foldl
                (fun _ _ h => h.subFlight ..) _).setOut ..).pump
            · exact (((Canon.ite ((h.dropIn ..).gnzBump ..) (h.dropIn ..)).foldl
                (fun _ _ h => h.subFlight ..) _).setOut ..).pump
        · split
          · split
            · exact .ite ((((Canon.ite ((h.dropIn ..).gnzBump ..) (h.dropIn ..)).foldl
                (fun _ _ h => h.congest ..) _).setOut ..).giveUp ..) ((((Canon.ite ((h.dropIn ..).gnzBump ..)
                (h.dropIn ..)).foldl (fun _ _ h => h.congest ..) _).setOut ..).retransmit ..)
            · exact .ite (((Canon.ite ((h.dropIn ..).gnzBump ..) (h.dropIn ..)).setOut ..).giveUp ..) (((Canon.ite
                ((h.dropIn ..).gnzBump ..) (h.dropIn ..)).setOut ..).retransmit ..)
          · split
            · split
              · exact ((Canon.ite ((h.dropIn ..).gnzBump ..) (h.dropIn ..)).foldl (fun _ _ h => h.congest ..) _).setOut ..
              · exact (Canon.ite ((h.dropIn ..).gnzBump ..) (h.dropIn ..)).setOut ..
            · split
              · split
                · exact ((((Canon.ite ((h.dropIn ..).gnzBump ..) (h.dropIn ..)).foldl (fun _ _ h => h.congest ..) _).foldl
                    (fun _ _ h => h.subFlight ..) _).setOut ..).pump
                · exact (((Canon.ite ((h.dropIn ..).gnzBump ..) (h.dropIn ..)).foldl
                    (fun _ _ h => h.subFlight ..) _).setOut ..).pump
              · split
                · exact ((Canon.ite ((h.dropIn ..).gnzBump ..) (h.dropIn ..)).foldl (fun _ _ h => h.congest ..) _).messageEnd ..
                · exact (Canon.ite ((h.dropIn ..).gnzBump ..) (h.dropIn ..)).messageEnd ..

@[simp] theorem formeResend {s : State} (h : s.Canon) : s.formeResend.Canon := by
  unfold State.formeResend
  exact h.update.pump

@[simp] theorem holdoffEnd {s : State} (h : s.Canon) : s.holdoffEnd.Canon := by
  unfold State.holdoffEnd
  exact .ite h.update.pump h

/-! The operations of Machine/GnozCfg. -/

@[simp] theorem tableEnd {s : State} (h : s.Canon) (st) : (s.tableEnd st).Canon := by
  unfold State.tableEnd
  exact h.update

@[simp] theorem setKey {s : State} (h : s.Canon) (k) : (s.setKey k).Canon := by
  unfold State.setKey
  exact h.update

@[simp] theorem tableRead {s : State} (h : s.Canon) : s.tableRead.Canon := by
  unfold State.tableRead
  exact h.update

@[simp] theorem routeWrite {s : State} (h : s.Canon) (i b) : (s.routeWrite i b).Canon := by
  unfold State.routeWrite
  exact .ite (h.tableEnd ..) (.ite (h.tableEnd ..) (.ite ((h.log ..).tableEnd ..) (h.update.tableEnd ..)))

@[simp] theorem registerKey {s : State} (h : s.Canon) (i kind base len write read notify) :
    (s.registerKey i kind base len write read notify).2.Canon := by
  simp only [State.registerKey]
  split
  · split
    · exact h
    · exact h.setKey ..
  · split
    · exact h
    · exact h.setKey ..

@[simp] theorem keyWrite {s : State} (h : s.Canon) (i b) : (s.keyWrite i b).Canon := by
  simp only [State.keyWrite]
  split
  · exact h.tableEnd ..
  · exact .ite (h.tableEnd ..) ((h.registerKey ..).tableEnd ..)

@[simp] theorem tableWrite {s : State} (h : s.Canon) : s.tableWrite.Canon := by
  unfold State.tableWrite
  exact .ite (h.keyWrite ..) (h.routeWrite ..)

@[simp] theorem tableInvalidate {s : State} (h : s.Canon) : s.tableInvalidate.Canon := by
  simp only [State.tableInvalidate]
  split
  · split
    · exact h.tableEnd ..
    · split
      · exact (Canon.ite (h.setKey ..) h).tableEnd ..
      · exact h.tableEnd ..
  · exact .ite (h.tableEnd ..) (h.update.tableEnd ..)

@[simp] theorem tableCmd {s : State} (h : s.Canon) (v) : (s.tableCmd v).Canon := by
  unfold State.tableCmd
  split
  · exact h.tableRead
  · exact h.tableWrite
  · exact h.tableInvalidate
  · exact h.tableEnd ..

@[simp] theorem keyRegister {s : State} (h : s.Canon) (slot i base len write read notify) :
    (s.keyRegister slot i base len write read notify).Canon := by
  unfold State.keyRegister
  split
  · exact h
  · exact .ite (h.reply ..) (.ite (h.reply ..) ((h.registerKey ..).reply ..))

@[simp] theorem queueAlloc {s : State} (h : s.Canon) (slot k wr cq) : (s.queueAlloc slot k wr cq).Canon := by
  unfold State.queueAlloc
  split
  · exact h
  · extract_lets mine free
    clear_value free
    refine .ite (h.reply ..) (.ite (h.reply ..) ?_)
    split
    · exact h.reply ..
    · exact (((((h.setGq _).setReg ..).setReg64 ..).setReg64 ..).setReg ..).reply ..

@[simp] theorem clockWrite {s : State} (h : s.Canon) (v) : (s.clockWrite v).Canon := by
  unfold State.clockWrite
  exact .ite h h.update

@[simp] theorem ptpMessage {s : State} (h : s.Canon) (f offset locked delayReq) :
    (s.ptpMessage f offset locked delayReq).Canon := by
  unfold State.ptpMessage
  split
  · exact .ite (h.policeOther ..) (.ite ((h.policeOther ..).gnzBump ..) (((h.policeOther ..).update).enqueueSp0 ..))
  · exact .ite (h.policeOther ..) (.ite ((h.policeOther ..).gnzBump ..) ((h.policeOther ..).update))

@[simp] theorem ethModeWrite {s : State} (h : s.Canon) (v) : (s.ethModeWrite v).Canon := by
  unfold State.ethModeWrite
  exact (h.setBits ..).update

@[simp] theorem ethLinkChange {s : State} (h : s.Canon) (lp up) : (s.ethLinkChange lp up).Canon := by
  unfold State.ethLinkChange
  exact .ite h h.update.pump

@[simp] theorem arpNeighbour {s : State} (h : s.Canon) (f addr) : (s.arpNeighbour f addr).Canon := by
  unfold State.arpNeighbour
  exact .ite (h.policeOther ..) (.ite ((h.policeOther ..).enqueueSp0 ..) (h.policeOther ..))

@[simp] theorem icmpEcho {s : State} (h : s.Canon) (f payload) : (s.icmpEcho f payload).Canon := by
  unfold State.icmpEcho
  exact .ite (h.policeOther ..) ((h.policeOther ..).enqueueSp0 ..)

@[simp] theorem gnzCfgWrite {s : State} (h : s.Canon) (timing v) : (s.gnzCfgWrite timing v).Canon := by
  unfold State.gnzCfgWrite
  exact .ite (.ite (h.log ..) (h.plainWrite ..)) (.ite (h.log ..) ((h.plainWrite ..).pump))

@[simp] theorem gqWriteReg {s : State} (h : s.Canon) (q w v) : (s.gqWriteReg q w v).Canon := by
  unfold State.gqWriteReg
  exact .ite h (.ite (h.gqDoorbell ..) (.ite (.ite ((h.setBits ..).update) h) (.ite ((h.plainWrite ..).update)
    (h.plainWrite ..))))

theorem writeGnz {s : State} (h : s.Canon) (off v) : TakenCanon (Machine.writeGnz s off v) := by
  unfold Machine.writeGnz
  exact .ite .none (.ite (.some (h.gnzCfgWrite ..)) (.ite (.some (h.gnzCfgWrite ..)) (.ite (.some (h.ethModeWrite ..)) (.ite
    (.some (.ite h (h.plainWrite ..))) (.ite (.some (h.clockWrite ..)) (.ite (.some (h.tableCmd ..)) (.ite (.some h.update)
    (.ite (.some (.ite (h.plainWrite ..) h)) (.ite (.some (h.gqWriteReg ..)) .none)))))))))

/-! The operations of Machine/Group. -/

@[simp] theorem showGroup {s : State} (h : s.Canon) : s.showGroup.Canon := by
  unfold State.showGroup
  exact h.setGroup

@[simp] theorem setEntry {s : State} (h : s.Canon) (n device route st) : (s.setEntry n device route st).Canon := by
  unfold State.setEntry
  exact ((h.setReg ..).setReg ..).setGroup

@[simp] theorem keepTable {s : State} (h : s.Canon) : s.keepTable.Canon := by
  unfold State.keepTable
  exact h.update

@[simp] theorem groupRefuse {s : State} (h : s.Canon) (n st) : (s.groupRefuse n st).Canon := by
  unfold State.groupRefuse
  exact h.groupSend ..

@[simp] theorem takeStream {s : State} (h : s.Canon) (e m) : (s.takeStream e m).Canon := by
  unfold State.takeStream
  split
  · exact h
  · exact ((((Canon.ite (h.setWitnessEnd ..) h).takeCtx ..).setGroup).bump ..).sendStreamEvent ..

@[simp] theorem setStreamEntry {s : State} (h : s.Canon) (e) : (s.setStreamEntry e).Canon := by
  unfold State.setStreamEntry
  exact h.setGroup

@[simp] theorem rehome {s : State} (h : s.Canon) (n e) : (s.rehome n e).Canon := by
  simp only [State.rehome]
  split
  · split
    · exact h
    · exact .ite (((h.setStreamEntry ..).takeStream ..).groupSend ..) (h.setStreamEntry ..)
  · exact .ite (.ite ((h.setStreamEntry ..).groupSend ..) (h.setStreamEntry ..)) h

@[simp] theorem loseStripes {s : State} (h : s.Canon) : s.loseStripes.Canon := by
  unfold State.loseStripes
  exact .ite h (h.setGroup.log ..)

@[simp] theorem bringIn {s : State} (h : s.Canon) (n) : (s.bringIn n).Canon := by
  unfold State.bringIn
  exact (((h.setEntry ..).setEntry ..).setGroup).setGroup

@[simp] theorem changeTable {s : State} (h : s.Canon) (ch) : (s.changeTable ch).Canon := by
  unfold State.changeTable
  split
  · exact .ite ((h.log ..).setGroup) (.ite (((h.log ..).setGroup).bringIn ..) (((h.log ..).setGroup).log ..))
  · extract_lets s1 _ s2
    have h1 : s1.Canon := h.setEntry ..
    have h2 : s2.Canon := h1.setGroup
    split
    · exact h2.bringIn ..
    · exact h2
  · exact h.setGroup.log ..

@[simp] theorem stripeEnded {s : State} (h : s.Canon) (w st) : (s.stripeEnded w st).Canon := by
  unfold State.stripeEnded
  exact .ite (.ite (h.setGroup.bump ..) h.setGroup) ((Canon.ite (h.setGroup.bump ..) h.setGroup).reply ..)

@[simp] theorem stripeCommitted {s : State} (h : s.Canon) (w) : (s.stripeCommitted w).Canon := by
  unfold State.stripeCommitted
  extract_lets far mem _ s1 s2
  have h1 : s1.Canon := h.setShares (memFoldl_wf (fun _ _ hm => memWrite_wf _ _ hm) _ h.shares)
  have h2 : s2.Canon := .ite h1 (h1.foldl (fun _ _ h => h.groupSend ..) _)
  exact h2.stripeEnded ..

@[simp] theorem advanceWrite {s : State} (h : s.Canon) (w) : (s.advanceWrite w).Canon := by
  unfold State.advanceWrite
  split
  · exact h
  · split
    · exact h
    · exact h.stripeCommitted ..
    · exact .ite (h.setGroup.stripeCommitted ..) (h.setGroup.setGroup.groupSend ..)

@[simp] theorem writeHeard {s : State} (h : s.Canon) (id n ph) : (s.writeHeard id n ph).Canon := by
  unfold State.writeHeard
  split
  · exact h
  · exact .ite h (h.setGroup.advanceWrite ..)

@[simp] theorem commitGroup {s : State} (h : s.Canon) (ch) : (s.commitGroup ch).Canon := by
  unfold State.commitGroup
  extract_lets _ s1 s2 s3 s4 s5
  have h1 : s1.Canon := h.setGroup
  have h2 : s2.Canon := h1.changeTable ..
  have h3 : s3.Canon := h2.loseStripes
  have h4 : s4.Canon := by
    unfold s4
    split
    · exact (h3.foldl (fun _ _ h => h.writeHeard ..) _).foldl (fun _ _ h => h.rehome ..) _
    · exact h2
  have h5 : s5.Canon := h4.keepTable
  exact .ite h5 h5.showGroup

@[simp] theorem propose {s : State} (h : s.Canon) (ch) : (s.propose ch).Canon := by
  unfold State.propose
  extract_lets g t _ s1
  have h1 : s1.Canon := h.setGroup
  split
  · exact h1.groupCast ..
  · exact (h1.groupCast ..).emit ..
  · exact h1.groupCast ..

@[simp] theorem tryFail {s : State} (h : s.Canon) (n) : (s.tryFail n).Canon := by
  unfold State.tryFail
  exact .ite (h.propose ..) h

@[simp] theorem ackProposal {s : State} (h : s.Canon) (g n) : (s.ackProposal g n).Canon := by
  unfold State.ackProposal
  split
  · exact h
  · exact .ite h (.ite (h.setGroup.commitGroup ..) h.setGroup)

@[simp] theorem heartbeatSend {s : State} (h : s.Canon) : s.heartbeatSend.Canon := by
  unfold State.heartbeatSend
  exact .ite (h.groupCast ..) h

@[simp] theorem adoptSpace {s : State} (h : s.Canon) (g) : (s.adoptSpace g).Canon := by
  unfold State.adoptSpace
  exact .ite (.ite h h.setGroup) (.ite (((Canon.ite h h.setGroup).nsMake ..).nsFeature ..) ((Canon.ite h h.setGroup).nsMake ..))

@[simp] theorem adoptTable {s : State} (h : s.Canon) (a) : (s.adoptTable a).Canon := by
  unfold State.adoptTable
  exact ((((((h.setBits ..).setReg ..).foldl (fun _ _ h => h.setEntry ..) _).setGroup).setGroup).foldl
    (fun _ _ h => h.adoptSpace ..) _).keepTable

@[simp] theorem catchUp {s : State} (h : s.Canon) (gen t) : (s.catchUp gen t).Canon := by
  unfold State.catchUp
  split
  · split
    · exact h.commitGroup ..
    · split
      · exact (h.adoptTable ..).showGroup
      · exact h
  · split
    · exact (h.adoptTable ..).showGroup
    · exact h

@[simp] theorem noteDigest {s : State} (h : s.Canon) (n same) : (s.noteDigest n same).Canon := by
  unfold State.noteDigest
  exact .ite h.setGroup (.ite h.setGroup.showGroup (.ite ((h.setGroup.log ..).setGroup) h.setGroup))

@[simp] theorem spareEnables {s : State} (h : s.Canon) (gen) : (s.spareEnables gen).Canon := by
  unfold State.spareEnables
  split
  · split
    · split
      · extract_lets s1 s2 s3 _
        have h1 : s1.Canon := h.setBits ..
        have h2 : s2.Canon := h1.adoptTable ..
        have h3 : s3.Canon := by
          unfold s3
          split
          · exact h2.bringIn ..
          · exact h2
        exact h3.setGroup.keepTable.showGroup
      · exact h
    · exact h
  · exact h

@[simp] theorem heartbeatReceive {s : State} (h : s.Canon) (n gen digest t) : (s.heartbeatReceive n gen digest t).Canon := by
  unfold State.heartbeatReceive
  exact .ite (.ite h (h.spareEnables ..)) (.ite h (.ite (h.groupRefuse ..) (.ite (.ite (((Canon.ite
    ((h.setGroup.noteDigest ..).catchUp ..) (h.setGroup.noteDigest ..)).setGroup).showGroup) ((Canon.ite
    ((h.setGroup.noteDigest ..).catchUp ..) (h.setGroup.noteDigest ..)).setGroup)) (.ite
    ((h.setGroup.noteDigest ..).catchUp ..) (h.setGroup.noteDigest ..)))))

@[simp] theorem addSuspect {s : State} (h : s.Canon) (by_ n) : (s.addSuspect by_ n).Canon := by
  unfold State.addSuspect
  exact (Canon.ite h h.setGroup).tryFail ..

@[simp] theorem peerSuspect {s : State} (h : s.Canon) (n) : (s.peerSuspect n).Canon := by
  unfold State.peerSuspect
  exact .ite (((h.advance ..).groupCast ..).addSuspect ..) h

@[simp] theorem proposalRx {s : State} (h : s.Canon) (n gen ch t) : (s.proposalRx n gen ch t).Canon := by
  unfold State.proposalRx
  extract_lets p _ s1
  have h1 : s1.Canon := h.setGroup
  split
  · exact h
  · split
    · split
      · exact .ite h.setGroup h
      · exact h
    · exact .ite h (.ite (h.groupRefuse ..) (.ite h ((h1.groupCast ..).ackProposal ..)))

@[simp] theorem storeStream {s : State} (h : s.Canon) (e removal) : (s.storeStream e removal).Canon := by
  unfold State.storeStream
  exact h.setGroup

@[simp] theorem tableStored {s : State} (h : s.Canon) (id n) : (s.tableStored id n).Canon := by
  unfold State.tableStored
  split
  · exact h
  · exact .ite ((h.setGroup.storeStream ..).reply ..) h.setGroup

@[simp] theorem mirrorStored {s : State} (h : s.Canon) (id) : (s.mirrorStored id).Canon := by
  unfold State.mirrorStored
  split
  · exact h
  · split
    · exact h
    · exact h.setGroup.storePush ..

@[simp] theorem nsApplied {s : State} (h : s.Canon) (nsid n st) : (s.nsApplied nsid n st).Canon := by
  unfold State.nsApplied
  split
  · exact h
  · exact .ite h (.ite h.setGroup (.ite h.setGroup h.setGroup))

@[simp] theorem writeEnded {s : State} (h : s.Canon) (id st) : (s.writeEnded id st).Canon := by
  unfold State.writeEnded
  split
  · exact h
  · exact .ite (h.stripeCommitted ..) (h.stripeEnded ..)

@[simp] theorem voteRx {s : State} (h : s.Canon) (n gen v) : (s.voteRx n gen v).Canon := by
  unfold State.voteRx
  split
  · exact h
  · split
    · exact h.groupRefuse ..
    · split
      · exact h.addSuspect ..
      · exact h.ackProposal ..
      · exact h.tableStored ..
      · exact h.mirrorStored ..
      · exact h.writeHeard ..
      · exact h.writeHeard ..
      · exact h.nsApplied ..
      · exact h.writeEnded ..

@[simp] theorem quorumHold {s : State} (h : s.Canon) : s.quorumHold.Canon := by
  unfold State.quorumHold
  exact .ite ((Canon.ite (h.advance ..) h).setGroup) (.ite (h.advance ..) h)

@[simp] theorem quorumLost {s : State} (h : s.Canon) : s.quorumLost.Canon := by
  unfold State.quorumLost
  exact .ite h.setGroup h

@[simp] theorem spareAdd {s : State} (h : s.Canon) (device ready) : (s.spareAdd device ready).Canon := by
  unfold State.spareAdd
  split
  · exact h.setGroup
  · split
    · exact h.setGroup
    · exact .ite h.setGroup (h.propose ..)

@[simp] theorem nsApply {s : State} (h : s.Canon) (action nsid stripes keyOk) :
    (s.nsApply action nsid stripes keyOk).2.Canon := by
  unfold State.nsApply
  extract_lets flag
  have hflag {s : State} (h : s.Canon) (b : Bool) : (flag b s).Canon := h.setGroup
  clear_value flag
  split
  · exact h
  · split
    · split
      · exact h
      · exact h
    · split
      · split
        · exact h
        · split
          · exact h
          · split
            · exact h
            · exact (h.nsMake ..).setGroup.registerKey ..
      · split
        · exact h
        · have hr := h.nsRemove .register nsid
          split
          · split
            · exact (hr.setShares (memZero_wf _ _ hr.shares)).setKey ..
            · exact hr.setShares (memZero_wf _ _ hr.shares)
          · exact hr.setShares (memZero_wf _ _ hr.shares)
      · split
        · exact h
        · exact hflag (h.nsFeature ..).pushTail _
      · split
        · exact h
        · exact hflag (h.nsFeature ..) _

@[simp] theorem nsCtrl {s : State} (h : s.Canon) (action nsid origin stripes keyOk) :
    (s.nsCtrl action nsid origin stripes keyOk).Canon := by
  unfold State.nsCtrl
  split
  · exact (h.nsApply ..).groupSend ..
  · exact .ite ((h.nsApply ..).setGroup) ((((h.nsApply ..).setGroup).groupCast ..).nsApplied ..)

@[simp] theorem groupNsCreate {s : State} (h : s.Canon) (nsid origin stripes keyOk) :
    (s.groupNsCreate nsid origin stripes keyOk).Canon := by
  unfold State.groupNsCreate
  exact h.nsCtrl ..

@[simp] theorem groupNsDelete {s : State} (h : s.Canon) (nsid origin keyOk) : (s.groupNsDelete nsid origin keyOk).Canon := by
  unfold State.groupNsDelete
  exact h.nsCtrl ..

@[simp] theorem groupNsSeal {s : State} (h : s.Canon) (nsid origin) : (s.groupNsSeal nsid origin).Canon := by
  unfold State.groupNsSeal
  exact h.nsCtrl ..

@[simp] theorem groupNsUnseal {s : State} (h : s.Canon) (nsid origin) : (s.groupNsUnseal nsid origin).Canon := by
  unfold State.groupNsUnseal
  exact h.nsCtrl ..

@[simp] theorem startStripe {s : State} (h : s.Canon) (p ns stripe new) : (s.startStripe p ns stripe new).Canon := by
  unfold State.startStripe
  exact .ite (h.setGroup.setGroup.groupSend ..) ((h.setGroup.setGroup.foldl (fun _ _ h => h.groupSend ..) _).advanceWrite ..)

@[simp] theorem groupWrite {s : State} (h : s.Canon) (p nsid lba data) : (s.groupWrite p nsid lba data).Canon := by
  simp only [State.groupWrite]
  split
  · exact h
  · split
    · exact h.refuse ..
    · split
      · exact h.refuse ..
      · exact .ite h (.ite (h.refuse ..) (h.foldl (fun _ _ h => h.startStripe ..) _))

@[simp] theorem stripePrepare {s : State} (h : s.Canon) (n gen write ns stripe share data) :
    (s.stripePrepare n gen write ns stripe share data).Canon := by
  unfold State.stripePrepare
  exact .ite h (.ite (h.groupRefuse ..) (.ite h (h.setGroup.groupSend ..)))

@[simp] theorem applyPrepared {s : State} (h : s.Canon) (p pl) : (s.applyPrepared p pl).Canon := by
  unfold State.applyPrepared
  exact .ite (((h.openBands ..).placeUnit ..).setGroup) h

@[simp] theorem stripeCommit {s : State} (h : s.Canon) (write pl) : (s.stripeCommit write pl).Canon := by
  unfold State.stripeCommit
  split
  · exact h
  · exact .ite (.ite (h.setGroup.groupSend ..) h) ((Canon.ite (h.setGroup.groupSend ..) h).applyPrepared ..)

@[simp] theorem prepareResolve {s : State} (h : s.Canon) (write commit pl) : (s.prepareResolve write commit pl).Canon := by
  simp only [State.prepareResolve]
  split
  · split
    · split
      · exact ((h.groupCast ..).stripeCommitted ..).applyPrepared ..
      · exact (h.groupCast ..).applyPrepared ..
    · split
      · exact (h.groupCast ..).stripeCommitted ..
      · exact h.groupCast ..
  · split
    · exact ((h.groupCast ..).setGroup).stripeEnded ..
    · exact (h.groupCast ..).setGroup

@[simp] theorem setRebuild {s : State} (h : s.Canon) (r) : (s.setRebuild r).Canon := by
  unfold State.setRebuild
  exact h.setGroup

@[simp] theorem rebuildStripe {s : State} (h : s.Canon) (pos shares pl) : (s.rebuildStripe pos shares pl).Canon := by
  unfold State.rebuildStripe
  split
  · exact h
  · split
    · exact h
    · extract_lets w j done
      have hd : done.Canon := h.setRebuild ..
      clear_value done
      refine .ite h (.ite hd ?_)
      split
      · exact hd
      · extract_lets s2 mem _
        have h2 : s2.Canon := (h.openBands ..).placeUnit ..
        have hm : Memory.wf mem = true := memFoldl_wf (fun _ _ hm => memWrite_wf _ _ hm) _ h2.shares
        exact .ite ((h2.setShares hm).setRebuild ..) h

@[simp] theorem rebuildComplete {s : State} (h : s.Canon) (pos) : (s.rebuildComplete pos).Canon := by
  unfold State.rebuildComplete
  split
  · exact h
  · exact .ite (h.commitGroup ..) h

@[simp] theorem mirrorUpdate {s : State} (h : s.Canon) (n gen m) : (s.mirrorUpdate n gen m).Canon := by
  unfold State.mirrorUpdate
  exact .ite h (.ite (h.groupRefuse ..) (h.setGroup.groupSend ..))

@[simp] theorem streamTableUpdate {s : State} (h : s.Canon) (n gen block ctx primary partner removal) :
    (s.streamTableUpdate n gen block ctx primary partner removal).Canon := by
  unfold State.streamTableUpdate
  exact .ite h (.ite (h.groupRefuse ..) ((h.storeStream ..).groupSend ..))

@[simp] theorem rehomeResend {s : State} (h : s.Canon) (c) : (s.rehomeResend c).Canon := by
  unfold State.rehomeResend
  split
  · exact .ite (h.sendStreamEvent ..) h
  · exact h

@[simp] theorem grpCfgWrite {s : State} (h : s.Canon) (v) : (s.grpCfgWrite v).Canon := by
  unfold State.grpCfgWrite
  exact .ite h (.ite ((h.setBits ..).setGroup) (.ite (.ite (((h.setReg ..).setGroup).setGroup) (h.log ..)) (h.setReg ..)))

@[simp] theorem groupRejoin {s : State} (h : s.Canon) : s.groupRejoin.Canon := by
  unfold State.groupRejoin
  split
  · exact h
  · exact (h.setBits ..).adoptTable ..

theorem writeGrp {s : State} (h : s.Canon) (off v) : TakenCanon (Machine.writeGrp s off v) := by
  unfold Machine.writeGrp
  exact .ite (.some (h.grpCfgWrite ..)) (.ite (.ite (.some h) .none) (.ite (.some (h.takeFree.spareAdd ..)) (.ite (.ite (.some
    (h.takeFree.nsCtrl ..)) (.some h.setGroup)) (.ite (.ite (.some h) .none) .none))))

/-! The operations of Machine/Observe. -/

theorem tileAccess {s : State} (h : s.Canon) (t off f) (hf : (f s).Canon) : (s.tileAccess t off f).Canon := by
  unfold State.tileAccess
  exact .ite hf (h.log ..)

@[simp] theorem tilEvtClear {s : State} (h : s.Canon) (t) : (s.tilEvtClear t).Canon :=
  h.tileAccess _ _ _ (h.setTile ..)

@[simp] theorem tilEvtSelWrite {s : State} (h : s.Canon) (t n v) : (s.tilEvtSelWrite t n v).Canon := by
  unfold State.tilEvtSelWrite
  exact .ite h (h.tileAccess _ _ _ (.ite (h.log ..) (h.setTile ..)))

@[simp] theorem tilEvtCntLoRead {s : State} (h : s.Canon) (p t n) : (s.tilEvtCntLoRead p t n).Canon :=
  (h.tileAccess _ _ _ (h.setTile ..)).emit ..

@[simp] theorem setDepth {s : State} (h : s.Canon) (src d) : (s.setDepth src d).Canon := by
  unfold State.setDepth
  split
  · split
    · split
      · exact h.setTile ..
      · exact h
    · exact h
  · exact h.update

@[simp] theorem markBegin {s : State} (h : s.Canon) (src id user) : (s.markBegin src id user).Canon := by
  unfold State.markBegin
  split
  · exact h
  · exact (h.setDepth ..).trace ..

@[simp] theorem markEnd {s : State} (h : s.Canon) (src id user) : (s.markEnd src id user).Canon := by
  unfold State.markEnd
  split
  · exact h
  · exact (h.setDepth ..).trace ..

@[simp] theorem markInstant {s : State} (h : s.Canon) (src id user) : (s.markInstant src id user).Canon := by
  unfold State.markInstant
  split
  · exact h
  · exact h.trace ..

@[simp] theorem traceFree {s : State} (h : s.Canon) : s.traceFree.Canon :=
  { h with trace := rfl }

@[simp] theorem obsCfgWrite {s : State} (h : s.Canon) (v) : (s.obsCfgWrite v).Canon := by
  unfold State.obsCfgWrite
  exact .ite (h.log ..) (.ite (.ite ((h.setReg ..).update) (h.setReg ..)) (.ite ((Canon.ite h.traceFree h).setReg ..) (.ite
    (h.log ..) ((((Canon.ite h.traceFree h).update).update).setReg ..))))

@[simp] theorem traceEnable {s : State} (h : s.Canon) (v) : (s.traceEnable v).Canon := by
  unfold State.traceEnable
  exact h.obsCfgWrite ..

@[simp] theorem traceDisable {s : State} (h : s.Canon) (v) : (s.traceDisable v).Canon := by
  unfold State.traceDisable
  exact h.obsCfgWrite ..

@[simp] theorem traceRelease {s : State} (h : s.Canon) (v) : (s.traceRelease v).Canon := by
  unfold State.traceRelease
  exact h.obsCfgWrite ..

@[simp] theorem endTileRun {s : State} (h : s.Canon) (t st detail) : (s.endTileRun t st detail).Canon := by
  unfold State.endTileRun
  split
  · exact h
  · exact h.endRun ..

@[simp] theorem tileFault {s : State} (h : s.Canon) (t noProgress) : (s.tileFault t noProgress).Canon := by
  unfold State.tileFault
  split
  · exact h
  · exact (h.setTile ..).endTileRun ..

@[simp] theorem regionFault {s : State} (h : s.Canon) (g c) : (s.regionFault g c).Canon := by
  unfold State.regionFault
  exact .ite h ((Canon.ite ((Canon.ite h.update h).log ..) (.ite h.update h)).isolateRegion ..)

@[simp] theorem moveFlow {s : State} (h : s.Canon) (f) : (s.moveFlow f).Canon := by
  unfold State.moveFlow
  split
  · exact h
  · exact .ite h (.ite h.update (h.endRun ..))

@[simp] theorem routerFault {s : State} (h : s.Canon) (t flows) : (s.routerFault t flows).Canon := by
  unfold State.routerFault
  exact .ite h (((h.update.log ..).isolateRegion ..).foldl (fun _ _ h => h.moveFlow ..) _)

@[simp] theorem tileUnitReset {s : State} (h : s.Canon) (t) : (s.tileUnitReset t).Canon := by
  unfold State.tileUnitReset
  split
  · exact h
  · exact (h.log ..).endTileRun ..

@[simp] theorem tileUnitClear {s : State} (h : s.Canon) (t bit) : (s.tileUnitClear t bit).Canon := by
  unfold State.tileUnitClear
  split
  · exact h.setTile ..
  · exact h.setTile ..
  · exact h.update
  · exact h.setTile ..
  · exact h.setTileMem (memZero_wf _ _ h.tile)
  · exact h

@[simp] theorem tileUnitEnd {s : State} (h : s.Canon) (t bit) : (s.tileUnitEnd t bit).Canon := by
  unfold State.tileUnitEnd
  exact (h.update.tileUnitClear ..).tileUnitReset ..

@[simp] theorem tileUnitStart {s : State} (h : s.Canon) (t bit) : (s.tileUnitStart t bit).Canon :=
  h.tileAccess _ _ _ (.ite h (.ite (h.tileUnitEnd ..) h.update))

@[simp] theorem tilResetMac {s : State} (h : s.Canon) (t) : (s.tilResetMac t).Canon := by
  unfold State.tilResetMac
  exact h.tileUnitStart ..

@[simp] theorem tilResetVec {s : State} (h : s.Canon) (t) : (s.tilResetVec t).Canon := by
  unfold State.tilResetVec
  exact h.tileUnitStart ..

@[simp] theorem tilResetDma {s : State} (h : s.Canon) (t) : (s.tilResetDma t).Canon := by
  unfold State.tilResetDma
  exact h.tileUnitStart ..

@[simp] theorem tilResetCore {s : State} (h : s.Canon) (t) : (s.tilResetCore t).Canon := by
  unfold State.tilResetCore
  exact h.tileUnitStart ..

@[simp] theorem tilResetSync {s : State} (h : s.Canon) (t) : (s.tilResetSync t).Canon := by
  unfold State.tilResetSync
  exact h.tileUnitStart ..

@[simp] theorem tilResetObs {s : State} (h : s.Canon) (t) : (s.tilResetObs t).Canon := by
  unfold State.tilResetObs
  exact h.tileUnitStart ..

@[simp] theorem tilResetStore {s : State} (h : s.Canon) (t) : (s.tilResetStore t).Canon := by
  unfold State.tilResetStore
  exact h.tileUnitStart ..

@[simp] theorem tilResetRouter {s : State} (h : s.Canon) (t) : (s.tilResetRouter t).Canon := by
  unfold State.tilResetRouter
  exact h.tileUnitStart ..

theorem writeObserve {s : State} (h : s.Canon) (p off v) : TakenCanon (Machine.writeObserve s p off v) := by
  unfold Machine.writeObserve
  split
  · exact .some (h.obsCfgWrite ..)
  · split
    · extract_lets id user
      split
      · exact .some (h.markBegin ..)
      · exact .some (h.markEnd ..)
      · exact .some (h.markInstant ..)
      · exact .some h
    · exact .none

@[simp] theorem tileResetBits {s : State} (h : s.Canon) (t v) : (s.tileResetBits t v).Canon := by
  unfold State.tileResetBits
  exact .ite ((Canon.ite ((Canon.ite ((Canon.ite ((Canon.ite ((Canon.ite ((Canon.ite ((Canon.ite
    (h.tilResetMac ..) h).tilResetVec ..) (.ite (h.tilResetMac ..) h)).tilResetDma ..) (.ite ((Canon.ite
    (h.tilResetMac ..) h).tilResetVec ..) (.ite (h.tilResetMac ..) h))).tilResetCore ..) (.ite ((Canon.ite ((Canon.ite
    (h.tilResetMac ..) h).tilResetVec ..) (.ite (h.tilResetMac ..) h)).tilResetDma ..) (.ite ((Canon.ite
    (h.tilResetMac ..) h).tilResetVec ..) (.ite (h.tilResetMac ..) h)))).tilResetSync ..) (.ite ((Canon.ite ((Canon.ite
    ((Canon.ite (h.tilResetMac ..) h).tilResetVec ..) (.ite (h.tilResetMac ..) h)).tilResetDma ..) (.ite ((Canon.ite
    (h.tilResetMac ..) h).tilResetVec ..) (.ite (h.tilResetMac ..) h))).tilResetCore ..) (.ite ((Canon.ite ((Canon.ite
    (h.tilResetMac ..) h).tilResetVec ..) (.ite (h.tilResetMac ..) h)).tilResetDma ..) (.ite ((Canon.ite
    (h.tilResetMac ..) h).tilResetVec ..) (.ite (h.tilResetMac ..) h))))).tilResetObs ..) (.ite ((Canon.ite ((Canon.ite
    ((Canon.ite ((Canon.ite (h.tilResetMac ..) h).tilResetVec ..) (.ite (h.tilResetMac ..) h)).tilResetDma ..) (.ite
    ((Canon.ite (h.tilResetMac ..) h).tilResetVec ..) (.ite (h.tilResetMac ..) h))).tilResetCore ..) (.ite ((Canon.ite
    ((Canon.ite (h.tilResetMac ..) h).tilResetVec ..) (.ite (h.tilResetMac ..) h)).tilResetDma ..) (.ite ((Canon.ite
    (h.tilResetMac ..) h).tilResetVec ..) (.ite (h.tilResetMac ..) h)))).tilResetSync ..) (.ite ((Canon.ite ((Canon.ite
    ((Canon.ite (h.tilResetMac ..) h).tilResetVec ..) (.ite (h.tilResetMac ..) h)).tilResetDma ..) (.ite ((Canon.ite
    (h.tilResetMac ..) h).tilResetVec ..) (.ite (h.tilResetMac ..) h))).tilResetCore ..) (.ite ((Canon.ite ((Canon.ite
    (h.tilResetMac ..) h).tilResetVec ..) (.ite (h.tilResetMac ..) h)).tilResetDma ..) (.ite ((Canon.ite
    (h.tilResetMac ..) h).tilResetVec ..) (.ite (h.tilResetMac ..) h)))))).tilResetStore ..) (.ite ((Canon.ite ((Canon.ite
    ((Canon.ite ((Canon.ite ((Canon.ite (h.tilResetMac ..) h).tilResetVec ..) (.ite (h.tilResetMac ..) h)).tilResetDma ..)
    (.ite ((Canon.ite (h.tilResetMac ..) h).tilResetVec ..) (.ite (h.tilResetMac ..) h))).tilResetCore ..) (.ite ((Canon.ite
    ((Canon.ite (h.tilResetMac ..) h).tilResetVec ..) (.ite (h.tilResetMac ..) h)).tilResetDma ..) (.ite ((Canon.ite
    (h.tilResetMac ..) h).tilResetVec ..) (.ite (h.tilResetMac ..) h)))).tilResetSync ..) (.ite ((Canon.ite ((Canon.ite
    ((Canon.ite (h.tilResetMac ..) h).tilResetVec ..) (.ite (h.tilResetMac ..) h)).tilResetDma ..) (.ite ((Canon.ite
    (h.tilResetMac ..) h).tilResetVec ..) (.ite (h.tilResetMac ..) h))).tilResetCore ..) (.ite ((Canon.ite ((Canon.ite
    (h.tilResetMac ..) h).tilResetVec ..) (.ite (h.tilResetMac ..) h)).tilResetDma ..) (.ite ((Canon.ite
    (h.tilResetMac ..) h).tilResetVec ..) (.ite (h.tilResetMac ..) h))))).tilResetObs ..) (.ite ((Canon.ite ((Canon.ite
    ((Canon.ite ((Canon.ite (h.tilResetMac ..) h).tilResetVec ..) (.ite (h.tilResetMac ..) h)).tilResetDma ..) (.ite
    ((Canon.ite (h.tilResetMac ..) h).tilResetVec ..) (.ite (h.tilResetMac ..) h))).tilResetCore ..) (.ite ((Canon.ite
    ((Canon.ite (h.tilResetMac ..) h).tilResetVec ..) (.ite (h.tilResetMac ..) h)).tilResetDma ..) (.ite ((Canon.ite
    (h.tilResetMac ..) h).tilResetVec ..) (.ite (h.tilResetMac ..) h)))).tilResetSync ..) (.ite ((Canon.ite ((Canon.ite
    ((Canon.ite (h.tilResetMac ..) h).tilResetVec ..) (.ite (h.tilResetMac ..) h)).tilResetDma ..) (.ite ((Canon.ite
    (h.tilResetMac ..) h).tilResetVec ..) (.ite (h.tilResetMac ..) h))).tilResetCore ..) (.ite ((Canon.ite ((Canon.ite
    (h.tilResetMac ..) h).tilResetVec ..) (.ite (h.tilResetMac ..) h)).tilResetDma ..) (.ite ((Canon.ite
    (h.tilResetMac ..) h).tilResetVec ..) (.ite (h.tilResetMac ..) h))))))).tilResetRouter ..) (.ite ((Canon.ite ((Canon.ite
    ((Canon.ite ((Canon.ite ((Canon.ite ((Canon.ite (h.tilResetMac ..) h).tilResetVec ..) (.ite
    (h.tilResetMac ..) h)).tilResetDma ..) (.ite ((Canon.ite (h.tilResetMac ..) h).tilResetVec ..) (.ite
    (h.tilResetMac ..) h))).tilResetCore ..) (.ite ((Canon.ite ((Canon.ite (h.tilResetMac ..) h).tilResetVec ..) (.ite
    (h.tilResetMac ..) h)).tilResetDma ..) (.ite ((Canon.ite (h.tilResetMac ..) h).tilResetVec ..) (.ite
    (h.tilResetMac ..) h)))).tilResetSync ..) (.ite ((Canon.ite ((Canon.ite ((Canon.ite (h.tilResetMac ..) h).tilResetVec ..)
    (.ite (h.tilResetMac ..) h)).tilResetDma ..) (.ite ((Canon.ite (h.tilResetMac ..) h).tilResetVec ..) (.ite
    (h.tilResetMac ..) h))).tilResetCore ..) (.ite ((Canon.ite ((Canon.ite (h.tilResetMac ..) h).tilResetVec ..) (.ite
    (h.tilResetMac ..) h)).tilResetDma ..) (.ite ((Canon.ite (h.tilResetMac ..) h).tilResetVec ..) (.ite
    (h.tilResetMac ..) h))))).tilResetObs ..) (.ite ((Canon.ite ((Canon.ite ((Canon.ite ((Canon.ite
    (h.tilResetMac ..) h).tilResetVec ..) (.ite (h.tilResetMac ..) h)).tilResetDma ..) (.ite ((Canon.ite
    (h.tilResetMac ..) h).tilResetVec ..) (.ite (h.tilResetMac ..) h))).tilResetCore ..) (.ite ((Canon.ite ((Canon.ite
    (h.tilResetMac ..) h).tilResetVec ..) (.ite (h.tilResetMac ..) h)).tilResetDma ..) (.ite ((Canon.ite
    (h.tilResetMac ..) h).tilResetVec ..) (.ite (h.tilResetMac ..) h)))).tilResetSync ..) (.ite ((Canon.ite ((Canon.ite
    ((Canon.ite (h.tilResetMac ..) h).tilResetVec ..) (.ite (h.tilResetMac ..) h)).tilResetDma ..) (.ite ((Canon.ite
    (h.tilResetMac ..) h).tilResetVec ..) (.ite (h.tilResetMac ..) h))).tilResetCore ..) (.ite ((Canon.ite ((Canon.ite
    (h.tilResetMac ..) h).tilResetVec ..) (.ite (h.tilResetMac ..) h)).tilResetDma ..) (.ite ((Canon.ite
    (h.tilResetMac ..) h).tilResetVec ..) (.ite (h.tilResetMac ..) h)))))).tilResetStore ..) (.ite ((Canon.ite ((Canon.ite
    ((Canon.ite ((Canon.ite ((Canon.ite (h.tilResetMac ..) h).tilResetVec ..) (.ite (h.tilResetMac ..) h)).tilResetDma ..)
    (.ite ((Canon.ite (h.tilResetMac ..) h).tilResetVec ..) (.ite (h.tilResetMac ..) h))).tilResetCore ..) (.ite ((Canon.ite
    ((Canon.ite (h.tilResetMac ..) h).tilResetVec ..) (.ite (h.tilResetMac ..) h)).tilResetDma ..) (.ite ((Canon.ite
    (h.tilResetMac ..) h).tilResetVec ..) (.ite (h.tilResetMac ..) h)))).tilResetSync ..) (.ite ((Canon.ite ((Canon.ite
    ((Canon.ite (h.tilResetMac ..) h).tilResetVec ..) (.ite (h.tilResetMac ..) h)).tilResetDma ..) (.ite ((Canon.ite
    (h.tilResetMac ..) h).tilResetVec ..) (.ite (h.tilResetMac ..) h))).tilResetCore ..) (.ite ((Canon.ite ((Canon.ite
    (h.tilResetMac ..) h).tilResetVec ..) (.ite (h.tilResetMac ..) h)).tilResetDma ..) (.ite ((Canon.ite
    (h.tilResetMac ..) h).tilResetVec ..) (.ite (h.tilResetMac ..) h))))).tilResetObs ..) (.ite ((Canon.ite ((Canon.ite
    ((Canon.ite ((Canon.ite (h.tilResetMac ..) h).tilResetVec ..) (.ite (h.tilResetMac ..) h)).tilResetDma ..) (.ite
    ((Canon.ite (h.tilResetMac ..) h).tilResetVec ..) (.ite (h.tilResetMac ..) h))).tilResetCore ..) (.ite ((Canon.ite
    ((Canon.ite (h.tilResetMac ..) h).tilResetVec ..) (.ite (h.tilResetMac ..) h)).tilResetDma ..) (.ite ((Canon.ite
    (h.tilResetMac ..) h).tilResetVec ..) (.ite (h.tilResetMac ..) h)))).tilResetSync ..) (.ite ((Canon.ite ((Canon.ite
    ((Canon.ite (h.tilResetMac ..) h).tilResetVec ..) (.ite (h.tilResetMac ..) h)).tilResetDma ..) (.ite ((Canon.ite
    (h.tilResetMac ..) h).tilResetVec ..) (.ite (h.tilResetMac ..) h))).tilResetCore ..) (.ite ((Canon.ite ((Canon.ite
    (h.tilResetMac ..) h).tilResetVec ..) (.ite (h.tilResetMac ..) h)).tilResetDma ..) (.ite ((Canon.ite
    (h.tilResetMac ..) h).tilResetVec ..) (.ite (h.tilResetMac ..) h)))))))

@[simp] theorem writeTile {s : State} (h : s.Canon) (t off v) : (s.writeTile t off v).Canon := by
  unfold State.writeTile
  exact .ite (h.tileResetBits ..) (.ite (.ite (h.tilEvtClear ..) h) (.ite (h.setTile ..) (.ite (h.tilEvtSelWrite ..) (.ite
    (h.setRegionSt ..) h))))

/-! The operations of Machine/Pools. -/

@[simp] theorem bufferRequest {s : State} (h : s.Canon) (die port unit cls size idx) :
    (s.bufferRequest die port unit cls size idx).Canon := by
  simp only [State.bufferRequest]
  split
  · exact h
  · split
    · exact h.poolGive ..
    · exact .ite (h.update.bump ..) (h.noGrant ..)

@[simp] theorem setBuf {s : State} (h : s.Canon) (hdl f) : (s.setBuf hdl f).Canon := h.update

@[simp] theorem bufRefuse {s : State} (h : s.Canon) (st hdl port unit) : (s.bufRefuse st hdl port unit).Canon := by
  unfold State.bufRefuse
  exact (h.bump ..).log ..

@[simp] theorem bufferFree {s : State} (h : s.Canon) (hdl port unit) : (s.bufferFree hdl port unit).Canon := by
  unfold State.bufferFree
  split
  · exact h.bufRefuse ..
  · exact .ite (h.bufRefuse ..) (.ite (h.poolReturn ..) (h.setBuf ..))

@[simp] theorem bufferDrop {s : State} (h : s.Canon) (hdl port unit) : (s.bufferDrop hdl port unit).Canon := by
  unfold State.bufferDrop
  split
  · exact h.bufRefuse ..
  · exact .ite (h.bufRefuse ..) (.ite (h.poolReturn ..) (h.setBuf ..))

@[simp] theorem bufferShare {s : State} (h : s.Canon) (hdl port unit new) : (s.bufferShare hdl port unit new).Canon := by
  unfold State.bufferShare
  split
  · exact h.bufRefuse ..
  · exact .ite (h.bufRefuse ..) (h.setBuf ..)

@[simp] theorem bufferHandover {s : State} (h : s.Canon) (hdl port unit newPort newUnit) :
    (s.bufferHandover hdl port unit newPort newUnit).Canon := by
  unfold State.bufferHandover
  split
  · exact h.bufRefuse ..
  · exact .ite (h.bufRefuse ..) (h.setBuf ..)

@[simp] theorem shadowWrite {s : State} (h : s.Canon) (off v) : (s.shadowWrite off v).Canon := by
  unfold State.shadowWrite
  exact .ite h (.ite (h.log ..) (.ite (h.plainWrite ..) ((h.plainWrite ..).update)))

@[simp] theorem checkLayout {s : State} (h : s.Canon) (i) : (s.checkLayout i).Canon := by
  unfold State.checkLayout
  exact .ite h ((h.foldl (fun _ _ h => h.setReg ..) _).log ..)

@[simp] theorem configTick {s : State} (h : s.Canon) : s.configTick.Canon := by
  unfold State.configTick
  exact ((((h.checkLayout ..).checkLayout ..).update).update).foldl (fun _ _ h => h.foldl (fun _ _ h => h.poolWarn ..) _) _

@[simp] theorem remeter {s : State} (h : s.Canon) (x) : (s.remeter x).Canon := by
  unfold State.remeter
  extract_lets r s1 _ s2
  have h1 : s1.Canon := h.police ..
  have h2 : s2.Canon := h1.update
  split
  · exact h1
  · split
    · split
      · rename_i he3
        exact ((h2.policeCmd ..).of_pair he3).update
      · rename_i he3
        exact ((h2.policeCmd ..).of_pair he3).takeIn ..
    · exact h2.takeIn ..

@[simp] theorem policerTick {s : State} (h : s.Canon) : s.policerTick.Canon := by
  unfold State.policerTick
  exact h.update.foldl (fun _ _ h => h.remeter ..) _

@[simp] theorem egressSelect {s : State} (h : s.Canon) (port) : (s.egressSelect port).Canon := by
  unfold State.egressSelect
  split
  · exact h
  · split
    · exact h
    · exact (h.sendHead ..).pump

@[simp] theorem calendarTick {s : State} (h : s.Canon) : s.calendarTick.Canon := by
  unfold State.calendarTick
  extract_lets slots s1 one
  have h1 : s1.Canon := by
    unfold s1
    clear_value slots
    split
    · exact h
    · exact h.advance ..
  clear_value s1 one
  exact h1.update

theorem writeNet {s : State} (h : s.Canon) (off v) : TakenCanon (Machine.writeNet s off v) := by
  unfold Machine.writeNet
  exact .ite (.some (h.shadowWrite ..)) .none

/-! The operations of Machine/TextGen. -/

@[simp] theorem setGens {s : State} (h : s.Canon) (l) : (s.setGens l).Canon := by
  unfold State.setGens
  exact h.update

@[simp] theorem agentWrite {s : State} (h : s.Canon) (slot addr b) : (s.agentWrite slot addr b).Canon := by
  unfold State.agentWrite
  exact (h.fillRange ..).vWrite ..

@[simp] theorem genRelease {s : State} (h : s.Canon) (g text) : (s.genRelease g text).2.Canon := by
  unfold State.genRelease
  exact h.agentWrite ..

@[simp] theorem genSignal {s : State} (h : s.Canon) (g code reason) : (s.genSignal g code reason).Canon := by
  unfold State.genSignal
  extract_lets s1
  have h1 : s1.Canon := h.agentWrite ..
  clear_value s1
  split
  · split
    · exact h1.counterAdd ..
    · exact h1
  · exact h1

@[simp] theorem genEnd {s : State} (h : s.Canon) (g st reason stop) : (s.genEnd g st reason stop).Canon := by
  simp only [State.genEnd]
  exact (Canon.ite ((((h.issueSeq.agentWrite ..).setGens ..).bump ..).bump ..)
    (((h.issueSeq.agentWrite ..).setGens ..).bump ..)).genSignal ..

@[simp] theorem laneFault {s : State} (h : s.Canon) (lane) : (s.laneFault lane).Canon := by
  unfold State.laneFault
  exact .ite (((h.log ..).update).foldl (fun _ _ h => h.genEnd ..) _) h

@[simp] theorem genInput {s : State} (h : s.Canon) (c x plate b) : (s.genInput c x plate b).2.Canon := by
  simp only [State.genInput]
  split
  · exact h
  · split
    · split
      · exact h
      · exact h.haltStream ..
    · exact h.haltStream ..

@[simp] theorem genStart {s : State} (h : s.Canon) (p b a lane idx v) : (s.genStart p b a lane idx v).Canon := by
  simp only [State.genStart]
  split
  · exact (((Canon.ite h ((h.vocabLookups.bumpBy ..).bumpBy ..)).setGens ..).agentWrite ..).replyData ..
  · exact ((Canon.ite h ((h.vocabLookups.bumpBy ..).bumpBy ..)).setGens ..).replyData ..

@[simp] theorem genOpen {s : State} (h : s.Canon) (p b a) : (s.genOpen p b a).Canon := by
  unfold State.genOpen
  extract_lets slot
  split
  · exact h
  · refine .ite h ?_
    extract_lets src
    have hsrc : src.2.Canon := by
      unfold src
      split
      · exact h.genInput ..
      · exact h
    clear_value src
    split
    · exact hsrc
    · refine .ite (hsrc.reply ..) ?_
      split
      · extract_lets w
        have hw : w.2.Canon := by
          unfold w
          split
          · exact hsrc.witnessAppend ..
          · exact hsrc
        clear_value w
        split
        · exact hw.reply ..
        · exact hw.genStart ..
      · exact hsrc.reply ..

@[simp] theorem genText {s : State} (h : s.Canon) (g v token) : (s.genText g v token).Canon := by
  simp only [State.genText]
  split
  · exact (h.genRelease ..).genEnd ..
  · split
    · exact (h.genRelease ..).genEnd ..
    · split
      · exact (h.genRelease ..).genEnd ..
      · split
        · exact (h.genRelease ..).genEnd ..
        · split
          · exact (((h.genRelease ..).setGens ..).agentWrite ..).genSignal ..
          · exact ((h.genRelease ..).setGens ..).genSignal ..

@[simp] theorem genStep {s : State} (h : s.Canon) (lane idx token) : (s.genStep lane idx token).Canon := by
  simp only [State.genStep]
  split
  · exact h
  · split
    · exact h
    · split
      · exact h.vocabLookups.genText ..
      · split
        · exact h.vocabLookups.genEnd ..
        · exact h.vocabLookups.genText ..

/-! The operations of Machine/YqiAdmin. -/

@[simp] theorem identify {s : State} (h : s.Canon) (p cns nsid) : (s.identify p cns nsid).Canon := by
  unfold State.identify
  split
  · exact h.replyData ..
  · split
    · exact .ite (h.replyData ..) (h.reply ..)
    · exact h.reply ..
  · exact h.replyData ..
  · exact h.reply ..

@[simp] theorem getLog {s : State} (h : s.Canon) (p page off len) : (s.getLog p page off len).Canon := by
  unfold State.getLog
  split
  · exact h.reply ..
  · split
    · exact h.reply ..
    · split
      · exact h.replyData ..
      · exact h.update.replyData ..
      · exact h.replyData ..
      · exact h.replyData ..
      · exact h.replyData ..
      · exact h.reply ..

@[simp] theorem getFeature {s : State} (h : s.Canon) (p id sel) : (s.getFeature p id sel).Canon := by
  unfold State.getFeature
  split
  · exact h.reply ..
  · split
    · exact h.reply ..
    · exact .ite (h.reply ..) (h.reply ..)
    · exact .ite (h.reply ..) (h.reply ..)
    · exact h.update.reply ..
    · exact .ite (h.reply ..) (h.replyData ..)
    · exact h.reply ..
    · exact h.reply ..

@[simp] theorem setArbitration {s : State} (h : s.Canon) (p burst) : (s.setArbitration p burst).Canon := by
  unfold State.setArbitration
  exact .ite (h.reply ..) ((h.setFn ..).reply ..)

@[simp] theorem setCoalescing {s : State} (h : s.Canon) (p v threshold time) : (s.setCoalescing p v threshold time).Canon := by
  unfold State.setCoalescing
  exact .ite (h.reply ..) ((h.setFn ..).reply ..)

@[simp] theorem ensureFn {s : State} (h : s.Canon) (g) : (s.ensureFn g).Canon := by
  unfold State.ensureFn
  exact .ite h h.update

@[simp] theorem setVfResources {s : State} (h : s.Canon) (p vf queues vectors) :
    (s.setVfResources p vf queues vectors).Canon := by
  unfold State.setVfResources
  split
  · exact h.reply ..
  · exact .ite (h.reply ..) (.ite (h.reply ..) (.ite (h.reply ..) ((((h.ensureFn ..).setFn ..).setFn ..).reply ..)))

@[simp] theorem setNsVisibility {s : State} (h : s.Canon) (p vf map) : (s.setNsVisibility p vf map).Canon := by
  unfold State.setNsVisibility
  exact .ite (h.reply ..) (.ite (h.reply ..) (((h.ensureFn ..).setFn ..).reply ..))

@[simp] theorem setMediaLayout {s : State} (h : s.Canon) (p cell opHalf) : (s.setMediaLayout p cell opHalf).Canon := by
  unfold State.setMediaLayout
  exact .ite (h.reply ..) (.ite (h.reply ..) (.ite (h.reply ..) (h.update.reply ..)))

@[simp] theorem firmwareDownload {s : State} (h : s.Canon) (p off chunk) : (s.firmwareDownload p off chunk).Canon := by
  unfold State.firmwareDownload
  exact .ite (h.reply ..) ((h.setYqi (memWrite_wf _ _ h.staging)).reply ..)

@[simp] theorem flashAccess {s : State} (h : s.Canon) : s.flashAccess.Canon := by
  unfold State.flashAccess
  exact h.setBits ..

@[simp] theorem firmwareCommit {s : State} (h : s.Canon) (p activate flashOk) :
    (s.firmwareCommit p activate flashOk).Canon := by
  unfold State.firmwareCommit
  exact .ite (h.reply ..) (.ite (h.reply ..) (.ite (h.takeFree.flashAccess.update.reply ..) (h.flashAccess.update.reply ..)))

/-! The operations of Machine/Busy. -/

@[simp] theorem deisolateRegion {s : State} (h : s.Canon) (r) : (s.deisolateRegion r).Canon := by
  unfold State.deisolateRegion
  exact h.update

@[simp] theorem fieldDieLost {s : State} (h : s.Canon) : s.fieldDieLost.Canon := by
  unfold State.fieldDieLost
  exact h.foldl (fun _ _ h => h.endRun ..) _

@[simp] theorem clearUnwrappedKeys {s : State} (h : s.Canon) : s.clearUnwrappedKeys.Canon := by
  unfold State.clearUnwrappedKeys
  exact h.update

/-! The operations of Machine/Power. -/

@[simp] theorem flitError {s : State} (h : s.Canon) (l recovered) : (s.flitError l recovered).Canon := by
  unfold State.flitError
  exact .ite h h.update

@[simp] theorem pllUnlock {s : State} (h : s.Canon) (pll) : (s.pllUnlock pll).Canon := by
  unfold State.pllUnlock
  exact .ite h (h.update.log ..)

@[simp] theorem pllRelock {s : State} (h : s.Canon) (pll ok die) : (s.pllRelock pll ok die).Canon := by
  unfold State.pllRelock
  split
  · exact h
  · exact .ite h (.ite h.update h.update)

@[simp] theorem refclkLoss {s : State} (h : s.Canon) : s.refclkLoss.Canon := by
  unfold State.refclkLoss
  exact h.update

@[simp] theorem regionDoze {s : State} (h : s.Canon) (r) : (s.regionDoze r).Canon := by
  unfold State.regionDoze
  exact .ite (((h.advance ..).zeroRegion ..).update) h

@[simp] theorem regionWakeDone {s : State} (h : s.Canon) (r) : (s.regionWakeDone r).Canon := by
  unfold State.regionWakeDone
  exact .ite ((h.zeroRegion ..).update) h

@[simp] theorem powerRefused {s : State} (h : s.Canon) (detail) : (s.powerRefused detail).Canon := by
  unfold State.powerRefused
  exact h.update.reply ..

@[simp] theorem idleRequest {s : State} (h : s.Canon) : s.idleRequest.Canon := by
  unfold State.idleRequest
  split
  · exact h
  · split
    · exact h.powerRefused ..
    · exact h.update

@[simp] theorem idleEntered {s : State} (h : s.Canon) : s.idleEntered.Canon := by
  simp only [State.idleEntered]
  have hz := h.foldl (fun _ r h => h.zeroRegion r) (List.range 48)
  split
  · exact h
  · generalize (List.range 48).foldl (fun s r => s.zeroRegion r) s = u at hz ⊢
    exact hz.update

@[simp] theorem offRequest {s : State} (h : s.Canon) (key) : (s.offRequest key).Canon := by
  unfold State.offRequest
  split
  · exact h.log ..
  · split
    · exact h
    · split
      · exact h.powerRefused ..
      · exact h.update

@[simp] theorem offFlushDone {s : State} (h : s.Canon) : s.offFlushDone.Canon := by
  unfold State.offFlushDone
  exact .ite (((h.flushAllMedia.writeAnchor ..).update).emit ..) h

@[simp] theorem wakeComplete {s : State} (h : s.Canon) : s.wakeComplete.Canon := by
  unfold State.wakeComplete
  exact .ite h.update h

@[simp] theorem alignmentTick {s : State} (h : s.Canon) : s.alignmentTick.Canon := by
  unfold State.alignmentTick
  exact h.update

@[simp] theorem wdtKick {s : State} (h : s.Canon) (key) : (s.wdtKick key).Canon := by
  unfold State.wdtKick
  exact .ite (.ite h.update.update h.update) h

@[simp] theorem wdtProbe {s : State} (h : s.Canon) (field media net) : (s.wdtProbe field media net).Canon := by
  unfold State.wdtProbe
  split
  · extract_lets s1 all _
    have h1 : s1.Canon := h.advance ..
    exact h1.update
  · exact h

@[simp] theorem wdtExpiry {s : State} (h : s.Canon) : s.wdtExpiry.Canon := by
  unfold State.wdtExpiry
  split
  · exact h
  · extract_lets s1 s2 _ s3
    have h1 : s1.Canon := h.advance ..
    have h2 : s2.Canon := h1.requestReset ..
    have h3 : s3.Canon := h1.update
    exact .ite h2.update (h3.log ..)

@[simp] theorem wdtCfgWrite {s : State} (h : s.Canon) (v) : (s.wdtCfgWrite v).Canon := by
  unfold State.wdtCfgWrite
  exact .ite (h.plainWrite ..) (.ite (h.log ..) ((h.plainWrite ..).update))

@[simp] theorem applyTileClock {s : State} (h : s.Canon) : s.applyTileClock.Canon := by
  unfold State.applyTileClock
  exact .ite h ((h.bump ..).update)

@[simp] theorem limiterCut {s : State} (h : s.Canon) : s.limiterCut.Canon := by
  simp only [State.limiterCut]
  split
  · exact h
  · split
    · exact (((h.bump ..).log ..).update).update
    · exact (h.bump ..).update

@[simp] theorem powerSample {s : State} (h : s.Canon) (total tiles) : (s.powerSample total tiles).Canon := by
  unfold State.powerSample
  exact (Canon.ite h.update.limiterCut (.ite h.update.limiterCut (.ite
    (.ite h.update.update.update h.update.update) h.update))).applyTileClock

@[simp] theorem thermalSample {s : State} (h : s.Canon) (temps) : (s.thermalSample temps).Canon := by
  unfold State.thermalSample
  extract_lets hot wasOn ticks due dbl _ s1 s2 s3 _ s4 s5 _ s6 _ f _ s7
  have h1 : s1.Canon := h.update
  have h2 : s2.Canon := h1.bump ..
  have h3 : s3.Canon := h2.log ..
  have h4 : s4.Canon := .ite h1 (.ite h3.update h2)
  have h5 : s5.Canon := .ite h4 (h4.wakeEvent ..)
  have h6 : s6.Canon := h5.update
  have h7 : s7.Canon := .ite (.ite h6.update (.ite h6.update h6)) (.ite h1.update h1)
  exact h7.applyTileClock

@[simp] theorem thermalTrip {s : State} (h : s.Canon) (diode) : (s.thermalTrip diode).Canon := by
  simp only [State.thermalTrip]
  split
  · exact h
  · have h1 := h.fieldDieLost
    have h2 : State.Canon { s.fieldDieLost with field := {} } := { h1 with tile := rfl, region := rfl }
    exact (h2.update.emit ..).lastGaspStart

@[simp] theorem tripPowerOff {s : State} (h : s.Canon) : s.tripPowerOff.Canon := by
  unfold State.tripPowerOff
  split
  · exact h
  · exact .ite (.ite h (h.advance ..)) (((Canon.ite h (h.advance ..)).update).emit ..)

@[simp] theorem pwrConfigWrite {s : State} (h : s.Canon) (off v) : (s.pwrConfigWrite off v).Canon := by
  unfold State.pwrConfigWrite
  exact .ite (.ite (h.plainWrite ..) (h.log ..)) (.ite (h.plainWrite ..) (.ite (.ite (h.plainWrite ..) (h.log ..)) (.ite (.ite
    ((h.plainWrite ..).applyTileClock) (h.log ..)) h)))

theorem writePower {s : State} (h : s.Canon) (off v) : TakenCanon (Machine.writePower s off v) := by
  unfold Machine.writePower
  exact .ite (.some h.update) (.ite (.some (.ite h.update h)) (.ite (.some (h.wdtCfgWrite ..)) (.ite (.some (h.wdtKick ..))
    (.ite (.some (.ite h.update h)) (.ite (.some (.ite h.update h)) (.ite (.some (.ite h.update h)) (.ite (.some
    (h.pwrConfigWrite ..)) .none)))))))

/-! The operations of Machine/BlockClear. -/

@[simp] theorem poolCleanup {s : State} (h : s.Canon) (b unit) : (s.poolCleanup b unit).Canon := by
  unfold State.poolCleanup
  exact h.update.foldl (fun _ _ h => h.poolReturn ..) _

@[simp] theorem cutJobs {s : State} (h : s.Canon) (which) : (s.cutJobs which).Canon := by
  unfold State.cutJobs
  exact h.foldl (fun _ _ h => ((h.dropJob ..).jobCount ..).jobComplete ..) _

@[simp] theorem cutGens {s : State} (h : s.Canon) (which) : (s.cutGens which).Canon := by
  unfold State.cutGens
  exact h.foldl (fun _ _ h => h.genEnd ..) _

@[simp] theorem gnozCleared {s : State} (h : s.Canon) : s.gnozCleared.Canon := by
  unfold State.gnozCleared
  exact h.update.foldl (fun _ _ h => h.messageEnd ..) _

theorem setCmp {s : State} (h : s.Canon) (c : Cmp) : State.Canon { s with cmp := c } := h.update
theorem setDecode {s : State} (h : s.Canon) (d : Decode) : State.Canon { s with decode := d } := h.update
theorem setText {s : State} (h : s.Canon) (x : Text) : State.Canon { s with text := x } := h.update

@[simp] theorem blockCleared {s : State} (h : s.Canon) (b forced) : (s.blockCleared b forced).Canon := by
  have hend {u : State} (hu : u.Canon) : (if forced then u.poolCleanup b none else u).Canon := .ite (hu.poolCleanup ..) hu
  have hcut : (if forced then s.cutJobs (fun j => j.desc.op != 3) else s).Canon := .ite (h.cutJobs _) h
  have hrings := hcut.foldl (fun _ q h => h.setBits (cmpRing q 0x10) 6 1 0) (List.range 16)
  have hlive := h.foldl (fun _ c h => h.setBits (liveReg c 0) 0 1 0) (List.range 64)
  unfold State.blockCleared
  apply hend
  split
  · exact hrings.setCmp _
  · exact .ite (h.cutJobs _) h
  · exact hlive.setDecode _
  · exact (h.cutGens _).setText _
  · exact h.foldl (fun _ _ h => h.haltStream ..) _
  · exact h.update
  · exact h.gnozCleared
  · exact (h.setBits ..).setObs (Stores.Canon.trace h)
  · exact h

@[simp] theorem unitCleared {s : State} (h : s.Canon) (cls idx forced) : (s.unitCleared cls idx forced).Canon := by
  unfold State.unitCleared
  split
  · exact .ite (((Canon.ite (h.cutJobs ..) h).update).poolCleanup ..) ((Canon.ite (h.cutJobs ..) h).update)
  · exact .ite (((Canon.ite (h.cutGens ..) h).update).poolCleanup ..) ((Canon.ite (h.cutGens ..) h).update)
  · exact .ite ((Canon.ite (h.cutJobs ..) h).poolCleanup ..) (.ite (h.cutJobs ..) h)
  · exact .ite (h.poolCleanup ..) h
  · exact .ite ((h.tileUnitReset ..).poolCleanup ..) (h.tileUnitReset ..)
  · exact .ite (h.update.poolCleanup ..) h.update

/-! The operations of Machine/SoftReset. -/

@[simp] theorem rstRequestWrite {s : State} (h : s.Canon) (key) : (s.rstRequestWrite key).Canon := by
  unfold State.rstRequestWrite
  exact .ite (h.requestReset ..) h

@[simp] theorem blockSoftReset {s : State} (h : s.Canon) (bits) : (s.blockSoftReset bits).Canon := by
  unfold State.blockSoftReset
  exact h.update

@[simp] theorem unitSoftReset {s : State} (h : s.Canon) (cls index) : (s.unitSoftReset cls index).Canon := by
  unfold State.unitSoftReset
  exact .ite (h.log ..) ((h.setReg ..).update)

@[simp] theorem blockResetEnd {s : State} (h : s.Canon) (b forced) : (s.blockResetEnd b forced).Canon := by
  unfold State.blockResetEnd
  exact (h.blockCleared ..).update

@[simp] theorem unitResetEnd {s : State} (h : s.Canon) (u forced) : (s.unitResetEnd u forced).Canon := by
  unfold State.unitResetEnd
  exact (h.unitCleared ..).update

@[simp] theorem softResetQuiesced {s : State} (h : s.Canon) (x1) : (s.softResetQuiesced x1).Canon := by
  unfold State.softResetQuiesced
  split
  · exact .ite (h.blockResetEnd ..) h
  · split
    · exact h
    · exact .ite h (h.unitResetEnd ..)
  · exact .ite (h.tileUnitEnd ..) h

@[simp] theorem quiesceTimeoutEvent {s : State} (h : s.Canon) (x1) : (s.quiesceTimeoutEvent x1).Canon := by
  unfold State.quiesceTimeoutEvent
  split
  · split
    · exact h
    · exact ((h.advance ..).blockResetEnd ..).log ..
  · split
    · exact h
    · exact .ite h (((h.advance ..).unitResetEnd ..).log ..)
  · split
    · exact h
    · exact ((h.advance ..).tileUnitEnd ..).log ..

@[simp] theorem regionResetRefused {s : State} (h : s.Canon) (st r) : (s.regionResetRefused st r).Canon := by
  unfold State.regionResetRefused
  exact h.update.log ..

@[simp] theorem regionReset {s : State} (h : s.Canon) (r) : (s.regionReset r).Canon := by
  unfold State.regionReset
  exact .ite (h.regionResetRefused ..) (.ite (h.regionResetRefused ..) (.ite (h.regionResetRefused ..) ((h.setReg ..).update)))

@[simp] theorem regionResetDone {s : State} (h : s.Canon) (fault) : (s.regionResetDone fault).Canon := by
  unfold State.regionResetDone
  split
  · exact h
  · split
    · exact ((h.isolateRegion ..).update).log ..
    · exact ((h.zeroRegion ..).deisolateRegion ..).update

@[simp] theorem bootCopyClear {s : State} (h : s.Canon) (a b) : (s.bootCopyClear a b).Canon := by
  unfold State.bootCopyClear
  exact h.update

@[simp] theorem rstTimeoutWrite {s : State} (h : s.Canon) (b v) : (s.rstTimeoutWrite b v).Canon := by
  unfold State.rstTimeoutWrite
  exact .ite h (.ite (h.plainWrite ..) (.ite (h.plainWrite ..) (h.log ..)))

theorem writeReset {s : State} (h : s.Canon) (off v) : TakenCanon (Machine.writeReset s off v) := by
  unfold Machine.writeReset
  exact .ite (.some (h.bootCopyClear ..)) (.ite (.some (.ite h.update h)) (.ite (.some (h.rstRequestWrite ..)) (.ite (.some
    (h.blockSoftReset ..)) (.ite (.some h.update) (.ite (.some (.ite (h.unitSoftReset ..) (h.plainWrite ..))) (.ite (.some
    (.ite (h.regionReset ..) (h.plainWrite ..))) (.ite (.some (h.rstTimeoutWrite ..)) .none)))))))

/-! The operations of Machine/Trust. -/

@[simp] theorem setMbox {s : State} (h : s.Canon) (m x) : (s.setMbox m x).Canon := by
  unfold State.setMbox
  exact h.update

@[simp] theorem newNonce {s : State} (h : s.Canon) (m) : (s.newNonce m).Canon := by
  unfold State.newNonce
  exact h.update.setMbox ..

@[simp] theorem mboxEnd {s : State} (h : s.Canon) (m st resp) : (s.mboxEnd m st resp).Canon := by
  unfold State.mboxEnd
  exact h.setMbox ..

@[simp] theorem mboxCmdWrite {s : State} (h : s.Canon) (m v) : (s.mboxCmdWrite m v).Canon := by
  unfold State.mboxCmdWrite
  exact .ite (.ite (h.setMbox ..) (.ite (h.setMbox ..) ((h.setMbox ..).mboxEnd ..))) (.ite h (h.setMbox ..))

@[simp] theorem getNonce {s : State} (h : s.Canon) (m) : (s.getNonce m).Canon := by
  unfold State.getNonce
  exact .ite (.ite (h.mboxEnd ..) (h.mboxEnd ..)) h

@[simp] theorem getIdentity {s : State} (h : s.Canon) (m) : (s.getIdentity m).Canon := by
  unfold State.getIdentity
  exact .ite (.ite (h.mboxEnd ..) (h.mboxEnd ..)) h

@[simp] theorem attest {s : State} (h : s.Canon) (m draws) : (s.attest m draws).Canon := by
  simp only [State.attest]
  exact .ite (.ite (h.mboxEnd ..) (.ite (h.mboxEnd ..) (.ite (h.mboxEnd ..) (h.issueSeq.mboxEnd ..)))) h

@[simp] theorem sagRefuse {s : State} (h : s.Canon) (m st) : (s.sagRefuse m st).Canon := by
  unfold State.sagRefuse
  exact (h.newNonce ..).mboxEnd ..

theorem signed {s : State} (h : s.Canon) (m op ok f) (hf : ∀ b, (f b s).Canon) : (s.signed m op ok f).Canon := by
  unfold State.signed
  exact .ite (.ite (h.sagRefuse ..) (.ite ((h.sagRefuse ..).log ..) (((hf _).newNonce _).mboxEnd ..))) h

@[simp] theorem keyRecordAppend {s : State} (h : s.Canon) : s.keyRecordAppend.Canon := by
  unfold State.keyRecordAppend
  exact h.update

@[simp] theorem installKey {s : State} (h : s.Canon) (m keyOk) : (s.installKey m keyOk).Canon :=
  h.signed _ _ _ _ fun _ => keyRecordAppend h.update

@[simp] theorem removeKey {s : State} (h : s.Canon) (m keyOk) : (s.removeKey m keyOk).Canon :=
  h.signed _ _ _ _ fun _ => keyRecordAppend h.update

@[simp] theorem pair {s : State} (h : s.Canon) (m keyOk) : (s.pair m keyOk).Canon :=
  h.signed _ _ _ _ fun _ => keyRecordAppend h.update

@[simp] theorem unpair {s : State} (h : s.Canon) (m keyOk) : (s.unpair m keyOk).Canon :=
  h.signed _ _ _ _ fun _ => keyRecordAppend h.update

@[simp] theorem zeroiseKeys {s : State} (h : s.Canon) : s.zeroiseKeys.Canon := by
  unfold State.zeroiseKeys
  exact h.clearUnwrappedKeys.update

@[simp] theorem debugUnlock {s : State} (h : s.Canon) (m level) : (s.debugUnlock m level).Canon := by
  have hz : (if s.lc == .deployed then s.zeroiseKeys else s).Canon := .ite h.zeroiseKeys h
  exact .ite (h.signed _ _ _ _ fun _ => hz.update) h

@[simp] theorem lcTransition {s : State} (h : s.Canon) (m keyOk) : (s.lcTransition m keyOk).Canon := by
  unfold State.lcTransition
  extract_lets dest erases
  refine h.signed _ _ _ _ fun body => ?_
  extract_lets old new _ s1 s2 raises s3 root k k1 k2
  have h1 : s1.Canon := h.update
  have h2 : s2.Canon := .ite h1.cryptoEraseAll h1
  have h3 : s3.Canon := .ite h2.mediaHandover h2
  clear_value s3 k2
  have h4 : State.Canon { s3 with trustKept := k2 } := h3.update
  exact h4.zeroiseKeys.requestReset _

@[simp] theorem zeroiseCmd {s : State} (h : s.Canon) (viaMbox key) : (s.zeroiseCmd viaMbox key).Canon := by
  unfold State.zeroiseCmd
  split
  · exact .ite h.zeroiseKeys h
  · exact .ite (.ite (h.mboxEnd ..) (h.zeroiseKeys.mboxEnd ..)) h

@[simp] theorem timeFloorUpdate {s : State} (h : s.Canon) : s.timeFloorUpdate.Canon := by
  unfold State.timeFloorUpdate
  exact .ite h.update (.ite h ((h.log ..).update))

/-! The operations of Machine/Bus. -/

@[simp] theorem fencedAccess {s : State} (h : s.Canon) (field) : (s.fencedAccess field).Canon := by
  unfold State.fencedAccess
  exact .ite h (.ite ((h.log ..).update) ((h.log ..).update))

@[simp] theorem unassignedAccess {s : State} (h : s.Canon) (off) : (s.unassignedAccess off).Canon := by
  unfold State.unassignedAccess
  exact .ite ((h.log ..).update) h

@[simp] theorem pwrCtrlWrite {s : State} (h : s.Canon) (p v) : (s.pwrCtrlWrite p v).Canon := by
  unfold State.pwrCtrlWrite
  split
  · exact .ite (h.wakeEvent ..) h
  · exact h.idleRequest
  · exact h.offRequest ..
  · exact h.log ..

@[simp] theorem busWake {s : State} (h : s.Canon) (p) : (s.busWake p).Canon := by
  unfold State.busWake
  exact .ite (h.wakeEvent ..) h

@[simp] theorem holdAccess {s : State} (h : s.Canon) (p off write bytes) : (s.holdAccess p off write bytes).Canon := by
  unfold State.holdAccess
  exact h.update

@[simp] theorem useLatch {s : State} (h : s.Canon) (off) : (s.useLatch off).Canon := by
  unfold State.useLatch
  exact .ite (.ite (h.setTile ..) (h.setTile ..)) h

@[simp] theorem busRead {s : State} (h : s.Canon) (p off) : (s.busRead p off).2.Canon := by
  simp only [State.busRead]
  split
  · exact (h.busWake ..).useLatch ..
  · exact h.busWake ..
  · exact (h.busWake ..).unassignedAccess ..
  · exact (h.busWake ..).fencedAccess ..
  · exact (h.busWake ..).log ..
  · exact h.busWake ..
  · exact (h.busWake ..).holdAccess ..
  · exact h.busWake ..

@[simp] theorem wideRead {s : State} (h : s.Canon) (p off bytes) : (s.wideRead p off bytes).Canon := by
  unfold State.wideRead
  split
  · exact (h.busWake ..).holdAccess ..
  · split
    · rename_i he1
      exact (h.busRead ..).of_pair he1
    · rename_i he1
      split
      · split
        · rename_i he3
          exact ((((h.busRead ..).of_pair he1).busRead ..).of_pair he3).emit ..
        · rename_i he3
          exact (((h.busRead ..).of_pair he1).busRead ..).of_pair he3
      · exact ((h.busRead ..).of_pair he1).emit ..

@[simp] theorem badAccess {s : State} (h : s.Canon) (p off bytes) : (s.badAccess p off bytes).Canon := by
  unfold State.badAccess
  exact .ite h (.ite (h.wideRead ..) (.ite (((h.busWake ..).emit ..).log ..) ((h.busWake ..).emit ..)))

@[simp] theorem ceilingRaise {s : State} (h : s.Canon) : s.ceilingRaise.Canon := by
  unfold State.ceilingRaise
  exact .ite h.update h

@[simp] theorem smbSetOffset {s : State} (h : s.Canon) (off pecOk) : (s.smbSetOffset off pecOk).Canon := by
  unfold State.smbSetOffset
  exact .ite h.update h

@[simp] theorem smbRead {s : State} (h : s.Canon) (a) : (s.smbRead a).Canon := by
  unfold State.smbRead
  extract_lets off fin
  have hfin {s : State} (h : s.Canon) (st) (v : Word) : (fin s st v).Canon := (h.emit (.smbus [st, v.toNat])).update
  clear_value fin
  refine .ite (hfin h ..) (.ite (hfin h ..) ?_)
  have hr := h.busRead .sideband off
  split
  · next he => exact hfin (hr.of_pair he) ..
  · next he => exact hfin (hr.of_pair he) ..

@[simp] theorem alertResponse {s : State} (h : s.Canon) : s.alertResponse.Canon := by
  unfold State.alertResponse
  split
  · split
    · exact h
    · extract_lets s1 _
      have h1 : s1.Canon := h.emit ..
      exact h1.update
  · exact h.update

/-! The operations of Machine/Boot. -/

@[simp] theorem bootLinks {s : State} (h : s.Canon) (i) : (s.bootLinks i).Canon := by
  unfold State.bootLinks
  exact .ite (.ite (.ite h.update (h.update.log ..)) ((Canon.ite h.update (h.update.log ..)).log ..)) ((Canon.ite
    (.ite h.update (h.update.log ..)) ((Canon.ite h.update (h.update.log ..)).log ..)).log ..)

@[simp] theorem bootTraining {s : State} (h : s.Canon) (i) : (s.bootTraining i).Canon := by
  unfold State.bootTraining
  exact ((h.foldl (fun _ _ h => h.log ..) _).foldl (fun _ _ h => h.log ..) _).update

@[simp] theorem bootNand {s : State} (h : s.Canon) (i) : (s.bootNand i).Canon := by
  unfold State.bootNand
  exact (h.foldl (fun _ _ h => h.log ..) _).update

@[simp] theorem resumeNumbers {s : State} (h : s.Canon) (i) : (s.resumeNumbers i).Canon := by
  unfold State.resumeNumbers
  exact h.update.releaseHeldLog

@[simp] theorem recoverGasp {s : State} (h : s.Canon) (ps) : (s.recoverGasp ps).Canon := by
  unfold State.recoverGasp
  extract_lets units copy k used fresh
  have hcopy (k : MediaKept) (x) (hk : Memory.wf k.store = true) : Memory.wf (copy k x).store = true := by
    unfold copy
    extract_lets k1
    have h1 : Memory.wf k1.store = true := by
      simp only [k1]
      exact memWrite_wf _ _ hk
    clear_value k1
    split
    · exact h1
    · exact h1
  have hk : Memory.wf k.store = true :=
    List.foldlRecOn (motive := fun k => Memory.wf k.store = true) units copy h.nand fun k hk x _ => hcopy k x hk
  clear_value k units
  refine .ite h ?_
  have h1 : State.Canon { s with nand := k } := h.setNand hk
  exact h1.update

theorem dropPlaces_wf {k : MediaKept} (h : Memory.wf k.store = true) (gone) : Memory.wf (k.dropPlaces gone).store = true :=
  memFoldl_wf (fun _ _ hm => memZero_wf _ _ hm) gone h

@[simp] theorem rebuildFrom {s : State} (h : s.Canon) (a older i) : (s.rebuildFrom a older i).Canon := by
  unfold State.rebuildFrom
  extract_lets good k a pages lg img moves es img saved lostBands img erase next _ health job
  have hk : Memory.wf k.store = true := dropPlaces_wf h.nand _
  clear_value img job health k
  split
  next n s1 he =>
    have h1 : s1.Canon := h.issueSeq.of_pair he
    extract_lets extra bytes _ s2 s3 s4 _ _ s5
    clear_value extra
    have hn : State.Canon { s1 with nand := k } := h1.setNand hk
    have h2 : s2.Canon := hn.update
    have h3 : s3.Canon := h2.recoverGasp _
    have h4 : s4.Canon := (h3.log ..).healthBump ..
    clear_value s3 s4
    have h5 : s5.Canon := .ite h3 h4.update
    exact h5.spareChanged.writeAnchor _

@[simp] theorem rebuildHandover {s : State} (h : s.Canon) (hdl) : (s.rebuildHandover hdl).Canon := by
  unfold State.rebuildHandover
  extract_lets _ s1 _ _ _ s2
  have h1 : s1.Canon := h.update
  have h2 : s2.Canon := { h1 with nand := rfl }
  exact (h2.writeAnchorWith ..).spareChanged

@[simp] theorem bootRebuild {s : State} (h : s.Canon) (i) : (s.bootRebuild i).Canon := by
  simp only [State.bootRebuild]
  split
  · exact h.update
  · split
    · exact h.update
    · split
      · exact .ite (h.update.rebuildFrom ..) ((h.log ..).update)
      · split
        · exact h.rebuildHandover ..
        · exact .ite h.update ((h.log ..).update)

@[simp] theorem tryCopy {s : State} (h : s.Canon) (b i) : (s.tryCopy b i).2.Canon := by
  unfold State.tryCopy
  extract_lets r tries bytes fail k s1 c
  have hfail {s : State} (h : s.Canon) (st d) : (fail s st d).2.Canon := (h.log ..).update
  have h1 : s1.Canon := h.update
  clear_value fail c
  split
  · exact hfail h ..
  · split
    · exact hfail h1 ..
    · split
      · exact hfail h1 ..
      · exact h1

@[simp] theorem pickCopy {s : State} (h : s.Canon) (i l) : (s.pickCopy i l).2.Canon := by
  induction l generalizing s with
  | nil => exact h
  | cons b l ih =>
    have h1 := h.tryCopy b i
    rw [State.pickCopy]
    split
    · exact h1
    · exact ih h1

@[simp] theorem rereadCopy {s : State} (h : s.Canon) (i n l) : (s.rereadCopy i n l).2.Canon := by
  induction n generalizing s l with
  | zero => exact h
  | succ n ih =>
    cases l with
    | none => exact h
    | some x =>
      rw [State.rereadCopy]
      extract_lets s1 _ s2 r
      have h1 : s1.Canon := h.log ..
      have h2 : s2.Canon := h1.update
      exact ite_holds (P := fun p : Option Bool × State => p.2.Canon) h (ih (h2.pickCopy ..) _)

@[simp] theorem applyNamespace {s : State} (h : s.Canon) (b keyOk) : (s.applyNamespace b keyOk).2.Canon := by
  simp only [State.applyNamespace]
  split
  · exact h
  · split
    · split
      · split
        · split
          · split
            · exact h
            · split
              · exact h
              · exact h.nsSeal ..
          · exact h
        · exact h
      · exact h
    · split
      · exact .ite (h.log ..) h
      · split
        · split
          · split
            · exact h.nsMake ..
            · split
              · exact h.nsMake ..
              · exact (h.nsMake ..).nsSeal ..
          · exact h.nsMake ..
        · exact h.nsMake ..

@[simp] theorem applyArmed {s : State} (h : s.Canon) (b) : (s.applyArmed b).2.Canon := by
  unfold State.applyArmed
  extract_lets q w f g
  have hf : f.2.Canon := h.takeFree
  clear_value f
  split
  · exact h
  · split
    · exact h
    · exact hf.setGq _

theorem bootStep {s : State} (h : s.Canon) (i p f) (hf : ∀ u : State, u.Canon → (f u).Canon) : (s.bootStep i p f).Canon :=
  .ite (hf _ h.update) h

@[simp] theorem reportPending {s : State} (h : s.Canon) : s.reportPending.Canon := by
  unfold State.reportPending
  exact (Canon.ite ((Canon.ite (h.log ..) h).log ..) (.ite (h.log ..) h)).update

@[simp] theorem bootWipe {s : State} (h : s.Canon) (i) : (s.bootWipe i).2.Canon := by
  unfold State.bootWipe
  extract_lets s1 s2 loads flash _ _ s3
  have h1 : s1.Canon := h.bootNand ..
  have h2 : s2.Canon := (h1.newNonce _).newNonce _
  clear_value s2
  have h3 : s3.Canon := h2.update
  split
  · exact h3.pickCopy ..
  · exact h3

@[simp] theorem loadMacs {s : State} (h : s.Canon) (p l) : (s.loadMacs p l).Canon := by
  induction l generalizing s p with
  | nil => exact h
  | cons m l ih => exact ih ((h.setReg ..).setReg ..) _

@[simp] theorem loadFuses {s : State} (h : s.Canon) (i) : (s.loadFuses i).Canon := by
  unfold State.loadFuses
  exact h.update.loadMacs ..

/-! The operations of Machine/Fences. -/

@[simp] theorem failQueue {s : State} (h : s.Canon) (q st) : (s.failQueue q st).Canon := by
  unfold State.failQueue
  exact (h.setGq ..).foldl (fun _ _ h => h.gqComplete ..) _

@[simp] theorem netDieLost {s : State} (h : s.Canon) : s.netDieLost.Canon := by
  unfold State.netDieLost
  exact (h.update.foldl (fun _ _ h => h.messageEnd ..) _).foldl (fun _ _ h => h.failQueue ..) _

/-! What a bus write, and what uses one, leaves in the form. -/

@[simp] theorem quoinSetWrite {s : State} (h : s.Canon) (hi v) : (s.quoinSetWrite hi v).Canon := h.update

theorem writeSag {s : State} (h : s.Canon) (p off v) : TakenCanon (Machine.writeSag s p off v) := by
  unfold Machine.writeSag
  exact .ite .none (.ite (.some (h.quoinSetWrite ..)) (.ite (.some (h.quoinSetWrite ..)) (.ite (.some (h.zeroiseCmd ..))
    (.ite (.some (.ite (h.mboxCmdWrite ..) h)) (.ite (.some (.ite (h.setMbox ..) h)) .none)))))

@[simp] theorem blockWrite {s : State} (h : s.Canon) (p off v) : (s.blockWrite p off v).Canon :=
  TakenCanon.getD
    (.ite (.some (h.pwrCtrlWrite ..)) <| .ite (h.writePower off v) <| .ite (h.writeReset off v) <| .ite (h.writePower off v) <|
      .ite (h.writeSag p off v) <| .ite .none <| .ite (h.writeMedia off v) <| .ite (h.writeCmp off v) <| .ite
        (h.writeDec off v) <|
      .ite .none <| .ite (h.writeWdg off v) <| .ite (h.writeNet off v) <| .ite (h.writeGnz off v) <| .ite (h.writeGrp off v) <|
      .ite (h.writeSync p off v) <| .ite (h.writeObserve p off v) <| .ite (h.writeStk off v) <| .some (h.writeTile ..))
    (h.plainWrite ..)

@[simp] theorem busWrite {s : State} (h : s.Canon) (p off v) : (s.busWrite p off v).Canon := by
  unfold State.busWrite
  extract_lets s1
  have h1 : s1.Canon := h.busWake ..
  clear_value s1
  refine .ite h1 ?_
  split
  · exact h1.blockWrite ..
  · exact h1.unassignedAccess ..
  · exact h1.fencedAccess ..
  · exact h1.log ..
  · exact h1.holdAccess ..
  all_goals exact h1

@[simp] theorem busAccess {s : State} (h : s.Canon) (p off w) : (s.busAccess p off w).Canon := by
  cases w with
  | none => exact h.wideRead ..
  | some v => exact h.busWrite ..

@[simp] theorem registerWrite {s : State} (h : s.Canon) (t v hi) : (s.registerWrite t v hi).Canon := by
  cases t with
  | bar0 p off =>
    refine .ite h ?_
    have h1 := h.busWrite p off v
    cases hi with
    | none => exact h1
    | some w => exact h1.busWrite ..
  | bar2 fn off =>
    refine .ite h ?_
    have h1 : (if s.power.state = .run then s else s.wakeEvent .doorbell).Canon := .ite h (h.wakeEvent ..)
    cases hi with
    | none => exact h1.bar2Write ..
    | some w => exact (h1.bar2Write ..).bar2Write ..
  | msixMask fn vec => exact .ite h (h.setMsixMask ..)
  | vfEnable l => exact .ite h (h.setVfEnable ..)

@[simp] theorem inactiveTileAccess {s : State} (h : s.Canon) (p off w) : (s.inactiveTileAccess p off w).Canon := .ite
    (h.busAccess ..) h

@[simp] theorem unassignedRangeAccess {s : State} (h : s.Canon) (p off w) : (s.unassignedRangeAccess p off w).Canon :=
  .ite (h.busAccess ..) h

@[simp] theorem fencedDieAccess {s : State} (h : s.Canon) (p off w) : (s.fencedDieAccess p off w).Canon := by
  unfold State.fencedDieAccess
  split
  · exact h.busAccess ..
  · exact h

@[simp] theorem replayHeld {s : State} (h : s.Canon) (l) : (s.replayHeld l).Canon := by
  unfold State.replayHeld
  extract_lets mine go _ s1
  have h1 : s1.Canon := h.update
  refine h1.foldl (fun s x h => ?_) _
  split
  · exact h.busWrite ..
  · exact h.wideRead ..

@[simp] theorem linkRetrainDone {s : State} (h : s.Canon) (l ok) : (s.linkRetrainDone l ok).Canon := by
  unfold State.linkRetrainDone
  extract_lets x fieldWas netWas y s1 s2 s3 s4
  have h1 : s1.Canon := h.update
  have h2 : s2.Canon := .ite (h1.log ..) h1
  have h3 : s3.Canon := .ite h2.fieldDieLost h2
  have h4 : s4.Canon := .ite h3.netDieLost h3
  exact .ite h (.ite h4 (h4.replayHeld _))

@[simp] theorem jtagAccess {s : State} (h : s.Canon) (a) : (s.jtagAccess a).Canon := by
  unfold State.jtagAccess
  refine .ite ?_ (h.emit _)
  split
  · exact h.busWrite ..
  · exact h.wideRead ..
  · exact h.emit _
  · exact h.emit _

@[simp] theorem smbWrite {s : State} (h : s.Canon) (off v pecOk answered) : (s.smbWrite off v pecOk answered).Canon :=
  .ite (h.busWrite ..) h

/-! The reset sequence. -/

@[simp] theorem applyRegister {s : State} (h : s.Canon) (b) : (s.applyRegister b).2.Canon := by
  simp only [State.applyRegister]
  split
  · exact h
  · split
    · exact h
    · split
      · exact h.blockWrite ..
      · exact h.fencedAccess ..
      · exact h.unassignedAccess ..

@[simp] theorem applyEntry {s : State} (h : s.Canon) (i type sec n b) : (s.applyEntry i type sec n b).2.Canon := by
  simp only [State.applyEntry]
  split
  · exact h.applyRegister b
  · exact h.applyNamespace ..
  · exact h.loadPlate ..
  · split
    · exact h
    · exact h.loadPlate ..
  · exact h.streamOpen ..
  · split
    · exact h
    · exact h.start ..
  · exact h.applyArmed ..
  · exact (h.quoinSetWrite ..).quoinSetWrite ..

@[simp] theorem applyCounted {s : State} (h : s.Canon) (i x) : (s.applyCounted i x).Canon := by
  have h1 := h.applyEntry i x.1 x.2.1 x.2.2.1 x.2.2.2
  simp only [State.applyCounted]
  exact .ite h1 ((h1.log ..).update)

@[simp] theorem bootApply {s : State} (h : s.Canon) (i pick) : (s.bootApply i pick).Canon := by
  have h1 := h.groupRejoin.rereadCopy i 2 pick
  unfold State.bootApply
  extract_lets _ r
  change r.2.Canon at h1
  clear_value r
  split
  · exact h1.log ..
  · extract_lets bytes cut s1
    have h2 : s1.Canon := h1.foldl (fun _ _ h => h.applyCounted ..) _
    clear_value s1
    exact .ite h2 h2.update

@[simp] theorem bootTrained {s : State} (h : s.Canon) (i) : (s.bootTrained i).Canon := by
  unfold State.bootTrained
  extract_lets _ s1
  have h1 : s1.Canon := h.update
  exact (((h1.loadFuses i).bootStep _ _ _ fun _ h => h.reportPending).bootStep _ _ _ fun _ h => h.bootLinks i).bootStep _ _ _
    fun _ h => h.bootTraining i

@[simp] theorem bootWiped {s : State} (h : s.Canon) (i) : (s.bootWiped i).2.Canon := by
  unfold State.bootWiped
  split
  · exact bootWipe h.update i
  · exact h

@[simp] theorem bootFinished {s : State} (h : s.Canon) (i pick) : (s.bootFinished i pick).Canon :=
  ((h.bootStep _ _ _ fun _ h => (h.resumeNumbers i).bootRebuild i).bootStep _ _ _
    fun _ h => .ite (h.bootApply ..) h.groupRejoin).bootStep _ _ _ fun _ h => h

@[simp] theorem resetRelease {s : State} (h : s.Canon) (i) : (s.resetRelease i).Canon := by
  cases hr : !s.boot.resetHeld || s.boot.porHeld with
  | true => rw [State.resetRelease, hr, if_pos rfl]; exact h
  | false =>
    by_cases ht : i.trim = 0 ∨ i.trim > 3
    · rw [State.resetRelease, hr, if_neg Bool.false_ne_true, if_pos ht]
      exact h.update.emit _
    · rw [s.resetRelease_loaded i hr ht]
      exact ((h.bootTrained i).bootWiped i).bootFinished ..

/-! Resets and losses of power. -/

@[simp] theorem notePages {s : State} (h : s.Canon) : s.notePages.Canon := .ite h.update h

@[simp] theorem loseVolatile {s : State} (h : s.Canon) : s.loseVolatile.Canon := by
  unfold State.loseVolatile
  extract_lets saved _ k
  have hk : Memory.wf k.store = true := h.nand
  exact h.setNand (dropPlaces_wf hk _)

/-- What a reset leaves at its defaults stores nothing. -/
theorem kept {s : State} (h : s.Canon) : s.kept.Canon where
  regs := rfl
  bulk := rfl
  host := h.host
  nand := h.nand
  tile := rfl
  region := rfl
  staging := rfl
  trace := rfl
  shares := h.shares
  runs := fun _ hm => nomatch hm

@[simp] theorem resetAccepted {s : State} (h : s.Canon) (b) : (s.resetAccepted b).Canon := by
  unfold State.resetAccepted
  extract_lets was s1 _ _ s2
  have h1 : s1.Canon := h.kept
  clear_value s1
  have h2 : s2.Canon := h1.update
  exact .ite h2 (h2.emit _)

@[simp] theorem resetFlush {s : State} (h : s.Canon) (done pages) : (s.resetFlush done pages).Canon := by
  unfold State.resetFlush
  exact .ite h.notePages (.ite (h.lastGaspFinish _).notePages (h.gaspProgram _).notePages.loseVolatile)

@[simp] theorem powerOn {s : State} (h : s.Canon) (a) : (s.powerOn a).Canon := by
  have h1 := h.notePages.loseVolatile.resetAccepted true
  unfold State.powerOn
  extract_lets _ s1
  change s1.Canon at h1
  clear_value s1
  exact h1.update

@[simp] theorem resetN {s : State} (h : s.Canon) (ns refclk flushed pages) : (s.resetN ns refclk flushed pages).Canon := by
  unfold State.resetN
  extract_lets f accepted s1 lg s2
  have h1 : s1.Canon := .ite h h.takeFree
  have h2 : s2.Canon := (h1.resetFlush ..).resetAccepted _
  clear_value s1 s2 f
  exact .ite h (.ite h2.update h1)

@[simp] theorem powerLoss {s : State} (h : s.Canon) (vbat gaspDone pages) : (s.powerLoss vbat gaspDone pages).Canon := by
  unfold State.powerLoss
  extract_lets s1 s2 _ s3
  have h1 : s1.Canon := .ite (.ite (h.lastGaspFinish _) (h.gaspProgram _)) h
  have h2 : s2.Canon := h1.notePages.loseVolatile.kept
  clear_value s2
  have h3 : s3.Canon := .ite h2 h2.update
  clear_value s3
  exact h3.update

end State.Canon

/-- Each command runs one operation. -/
theorem exec_canon {c : Instr} {s t : State} (h : exec c s = .next t) (hs : s.Canon) : t.Canon := by
  cases c with
  | _ => exact Host.Outcome.next.inj h ▸ (by simp [hs])

/-- Settles O5: time stores nothing, and the operation of each command keeps the form. -/
theorem storesStayCanonical : Obligations.StoresStayCanonical := by
  unfold Obligations.StoresStayCanonical
  intro s t hs h
  rw [State.storesWf_iff] at hs ⊢
  unfold step at h
  cases hp : s.pending with
  | nil =>
    rw [hp] at h
    exact Host.Outcome.next.inj h ▸ hs.advance _
  | cons c rest =>
    rw [hp] at h
    have hq : State.Canon { s with pending := rest } := hs.update
    exact exec_canon h hq

end Sys2Proof.Machine

namespace Sys2Proof.Machine

/-! ### A written unit -/

theorem natGet_natSet (m : List (Nat × Nat)) (k v j : Nat) : natGet (natSet m k v) j = if j = k then some v else natGet m j := by
  induction m with
  | nil => rfl
  | cons x rest ih =>
    obtain ⟨a, b⟩ := x
    rw [natSet]
    split
    · rfl
    · split
      · next h => simp only [natGet, h]; split <;> rfl
      · simp only [natGet, ih]; grind

theorem find?_infoSet {α : Type} (l : List (Nat × α)) (k : Nat) (v : α) (j : Nat) :
    (infoSet l k v).find? (fun x => x.1 == j) = if j = k then some (k, v) else l.find? (fun x => x.1 == j) := by
  induction l with
  | nil => simp only [infoSet, List.find?]; grind
  | cons x rest ih =>
    obtain ⟨a, b⟩ := x
    rw [infoSet]
    split
    · rw [List.find?_cons]; grind
    · split
      · rw [List.find?_cons, List.find?_cons]; grind
      · rw [List.find?_cons, List.find?_cons, ih]; grind

/-- A read beside a write returns what it did before. -/
theorem memRead_memWrite_disjoint {m : Memory} (w : Memory.wf m = true) {addr a n : Nat} {bs : List Byte}
    (h : a + n ≤ addr ∨ addr + bs.length ≤ a) : memRead (memWrite m addr bs) a n = memRead m a n := by
  induction n generalizing a with
  | zero => rfl
  | succ n ih => rw [memRead, memRead, ih (by omega), memGet_memWrite_of_outside w (by omega)]

/-- What a placed unit leaves: the map entry, the bytes, their metadata, and the keys as they were. -/
theorem State.placeUnit_parts (s : State) (ns u pma : Nat) {data : List Byte} (hl : data.length = 16384) :
    let t := s.placeUnit ns u pma data
    t.media.image.map = natSet s.media.image.map (mapKey ns u) pma ∧
    t.nand.store = memWrite s.nand.store (pma * 16384) data ∧
    t.nand.info = infoSet s.nand.info pma { ns := ns, unit := u, jseq := s.media.nextJSeq, key := s.engineKey ns } ∧
    t.engineKey = s.engineKey := by
  have hd : slice data 0 16384 = data := by simp [slice, ← hl]
  simp only [State.placeUnit, hd]
  obtain ⟨tl, te, ts, ch, pr, nj, jb, cb, ev, a0, a1, e⟩ := State.journal_frame { s.storeUnit ns u pma data with
    nand := { (s.storeUnit ns u pma data).nand with
      badBlocks := (s.storeUnit ns u pma data).nand.badBlocks.filter (fun p => some (p / 4) != s.pmaOf ns u) } } (.map ns u 1 pma)
  rw [e]
  exact ⟨rfl, rfl, rfl, rfl⟩

/-- Settles O26: the map, the store and the metadata answer for the new place, and for no other. -/
theorem writtenUnitReadsBack : Obligations.WrittenUnitReadsBack := by
  unfold Obligations.WrittenUnitReadsBack
  intro s ns u pma data hw hl _
  obtain ⟨hmap, hstore, hinfo, hkey⟩ := s.placeUnit_parts ns u pma hl
  have hpma (ns' u') : (s.placeUnit ns u pma data).pmaOf ns' u' =
      if mapKey ns' u' = mapKey ns u then some pma else s.pmaOf ns' u' := by
    rw [State.pmaOf, hmap, natGet_natSet, State.pmaOf]
  have hnew : (s.placeUnit ns u pma data).unitAtPlace pma = data := by
    have hr := memRead_memWrite hw (pma * 16384) data
    rw [hl] at hr
    simp only [State.unitAtPlace, State.infoAt, hstore, hinfo, hkey, find?_infoSet, if_true, Option.map_some, beq_self_eq_true, hr]
  have hold (p) (hp : p ≠ pma) : (s.placeUnit ns u pma data).unitAtPlace p = s.unitAtPlace p := by
    have hr : memRead (memWrite s.nand.store (pma * 16384) data) (p * 16384) 16384 = memRead s.nand.store (p * 16384) 16384 :=
      memRead_memWrite_disjoint hw (by omega)
    simp only [State.unitAtPlace, State.infoAt, hstore, hinfo, hkey, find?_infoSet, if_neg hp, hr]
  refine ⟨by rw [hpma, if_pos rfl], by rw [State.unitBytes, hpma, if_pos rfl]; exact hnew, fun ns' u' hk hp => ?_⟩
  have hsame := hpma ns' u'
  rw [if_neg hk] at hsame
  refine ⟨hsame, ?_⟩
  rw [State.unitBytes, State.unitBytes, hsame]
  cases h : s.pmaOf ns' u' with
  | none => rfl
  | some p => exact hold p fun e => hp (e ▸ h)

end Sys2Proof.Machine

namespace Sys2Proof.Machine

/-! ### The journal

Entries and pages as the NAND holds them (R137, R138). -/

theorem leField_at {b : List Byte} {off n x : Nat} (a c : List Byte) (hb : b = a ++ leBytes n x ++ c) (ha : a.length = off) :
    leField b off n = x % 256 ^ n := by
  rw [hb, ← ha, leField_mid]

/-- The fields of an entry stand at their places. -/
theorem JEntry.leField_bytes (e : JEntry) :
    leField e.bytes 0 1 = e.fields.type % 256 ^ 1 ∧ leField e.bytes 1 1 = nsCode e.fields.type e.fields.ns % 256 ^ 1 ∧
    leField e.bytes 2 2 = e.fields.count % 256 ^ 2 ∧ leField e.bytes 4 5 = e.fields.lmu % 256 ^ 5 ∧
    leField e.bytes 9 5 = e.fields.pma % 256 ^ 5 := by
  rw [JEntry.bytes]
  generalize e.fields = f
  refine ⟨leField_at [] (leBytes 1 (nsCode f.type f.ns) ++ leBytes 2 f.count ++ leBytes 5 f.lmu ++ leBytes 5 f.pma ++ leBytes 2 0)
      ?_ ?_,
    leField_at (leBytes 1 f.type) (leBytes 2 f.count ++ leBytes 5 f.lmu ++ leBytes 5 f.pma ++ leBytes 2 0) ?_ ?_,
    leField_at (leBytes 1 f.type ++ leBytes 1 (nsCode f.type f.ns)) (leBytes 5 f.lmu ++ leBytes 5 f.pma ++ leBytes 2 0) ?_ ?_,
    leField_at (leBytes 1 f.type ++ leBytes 1 (nsCode f.type f.ns) ++ leBytes 2 f.count) (leBytes 5 f.pma ++ leBytes 2 0) ?_ ?_,
    leField_at (leBytes 1 f.type ++ leBytes 1 (nsCode f.type f.ns) ++ leBytes 2 f.count ++ leBytes 5 f.lmu) (leBytes 2 0) ?_ ?_⟩
  all_goals simp only [List.append_assoc, List.nil_append, List.length_append, leBytes_length, List.length_nil]

/-- Numeric bounds that an entry's fields keep where it fits. -/
theorem JEntry.fields_lt {e : JEntry} (h : e.fits = true) :
    e.fields.type < 256 ^ 1 ∧ nsCode e.fields.type e.fields.ns < 256 ^ 1 ∧ e.fields.count < 256 ^ 2 ∧ e.fields.lmu < 256 ^ 5 ∧
      e.fields.pma < 256 ^ 5 := by
  simp only [JEntry.fits, Bool.and_eq_true, decide_eq_true_eq] at h
  obtain ⟨⟨⟨hc, hl⟩, hp⟩, hn⟩ := h
  refine ⟨?_, ?_, by omega, by omega, by omega⟩
  · cases e <;> simp [JEntry.fields]
  · cases e <;> simp [JEntry.fields, nsCode] at hn ⊢ <;> omega

/-- The namespace of an entry comes back from its code. -/
theorem JEntry.ns_of_code {e : JEntry} (h : e.fits = true) :
    (if e.fields.type ≤ 3 ∨ 8 ≤ e.fields.type ∧ e.fields.type ≤ 11 then nsCode e.fields.type e.fields.ns + 1 else 0) =
      e.fields.ns := by
  simp only [JEntry.fits, Bool.and_eq_true, decide_eq_true_eq] at h
  obtain ⟨-, hn⟩ := h
  cases e <;> simp [JEntry.fields, nsCode] at hn ⊢ <;> omega

/-- An entry's fields stand for it. -/
theorem JEntry.entry_fields {e : JEntry} (h : e.fits = true) : e.fields.entry = some e := by
  simp only [JEntry.fits, Bool.and_eq_true] at h
  obtain ⟨-, hn⟩ := h
  cases e with
  | sanitizeProgress a t =>
    have ht : t < 2 ^ 32 := of_decide_eq_true hn
    simp only [JEntry.fields, JFields.entry, Option.some.injEq, JEntry.sanitizeProgress.injEq]
    omega
  | _ => rfl

theorem parseEntry_bytes {e : JEntry} (h : e.fits = true) : parseEntry e.bytes = some e := by
  obtain ⟨ht, hn, hc, hl, hp⟩ := e.leField_bytes
  obtain ⟨bt, bn, bc, bl, bp⟩ := JEntry.fields_lt h
  rw [Nat.mod_eq_of_lt bt] at ht
  rw [Nat.mod_eq_of_lt bn] at hn
  rw [Nat.mod_eq_of_lt bc] at hc
  rw [Nat.mod_eq_of_lt bl] at hl
  rw [Nat.mod_eq_of_lt bp] at hp
  simp only [parseEntry, ht, hn, hc, hl, hp, JEntry.ns_of_code h]
  exact JEntry.entry_fields h

theorem parseEntries_flatMap (es : List JEntry) (h : es.all JEntry.fits = true) (c : List Byte) :
    parseEntries es.length (es.flatMap JEntry.bytes ++ c) = some es := by
  induction es with
  | nil => rfl
  | cons e es ih =>
    rw [List.all_cons, Bool.and_eq_true] at h
    have hd : (e.bytes ++ (es.flatMap JEntry.bytes ++ c)).drop 16 = es.flatMap JEntry.bytes ++ c :=
      List.drop_left' e.bytes_length
    have ht : (e.bytes ++ (es.flatMap JEntry.bytes ++ c)).take 16 = e.bytes := List.take_left' e.bytes_length
    rw [List.length_cons, parseEntries, List.flatMap_cons, List.append_assoc, hd, ht, parseEntry_bytes h.1, ih h.2]

/-- The bytes of a page in front of its CRC. -/
def JPage.head (p : JPage) : List Byte :=
  leBytes 4 0x4A524E4C ++ leBytes 2 1 ++ leBytes 2 p.entries.length ++ leBytes 8 p.seq ++ leBytes 8 p.evt ++ leBytes 8 p.ckpt ++
    List.replicate 0x1C 0

/-- The bytes of a page behind its CRC. -/
def JPage.body (p : JPage) : List Byte := slice (p.entries.flatMap JEntry.bytes) 0 (16384 - 0x40)

/-- The CRC of a page. -/
def JPage.crc (p : JPage) : Nat := crc32c (p.head ++ leBytes 4 0 ++ p.body)

theorem JPage.bytes_eq (p : JPage) : p.bytes = p.head ++ leBytes 4 p.crc ++ p.body := rfl

theorem JPage.head_length (p : JPage) : p.head.length = 0x3C := by
  simp only [JPage.head, List.length_append, leBytes_length, List.length_replicate]

theorem slice_length (b : List Byte) (off len : Nat) : (slice b off len).length = len := by
  simp [slice]

/-- The fields of a page stand at their places. -/
theorem JPage.leField_bytes (p : JPage) :
    leField p.bytes 0 4 = 0x4A524E4C % 256 ^ 4 ∧ leField p.bytes 4 2 = 1 % 256 ^ 2 ∧
    leField p.bytes 6 2 = p.entries.length % 256 ^ 2 ∧ leField p.bytes 8 8 = p.seq % 256 ^ 8 ∧ leField p.bytes 0x10 8 = p.evt % 256 ^ 8 ∧
    leField p.bytes 0x18 8 = p.ckpt % 256 ^ 8 := by
  rw [JPage.bytes_eq, JPage.head]
  generalize leBytes 4 p.crc = k
  refine ⟨leField_at [] (leBytes 2 1 ++ leBytes 2 p.entries.length ++ leBytes 8 p.seq ++ leBytes 8 p.evt ++ leBytes 8 p.ckpt ++
      List.replicate 0x1C 0 ++ k ++ p.body) ?_ ?_,
    leField_at (leBytes 4 0x4A524E4C) (leBytes 2 p.entries.length ++ leBytes 8 p.seq ++ leBytes 8 p.evt ++ leBytes 8 p.ckpt ++
      List.replicate 0x1C 0 ++ k ++ p.body) ?_ ?_,
    leField_at (leBytes 4 0x4A524E4C ++ leBytes 2 1) (leBytes 8 p.seq ++ leBytes 8 p.evt ++ leBytes 8 p.ckpt ++
      List.replicate 0x1C 0 ++ k ++ p.body) ?_ ?_,
    leField_at (leBytes 4 0x4A524E4C ++ leBytes 2 1 ++ leBytes 2 p.entries.length) (leBytes 8 p.evt ++ leBytes 8 p.ckpt ++
      List.replicate 0x1C 0 ++ k ++ p.body) ?_ ?_,
    leField_at (leBytes 4 0x4A524E4C ++ leBytes 2 1 ++ leBytes 2 p.entries.length ++ leBytes 8 p.seq) (leBytes 8 p.ckpt ++
      List.replicate 0x1C 0 ++ k ++ p.body) ?_ ?_,
    leField_at (leBytes 4 0x4A524E4C ++ leBytes 2 1 ++ leBytes 2 p.entries.length ++ leBytes 8 p.seq ++ leBytes 8 p.evt)
      (List.replicate 0x1C 0 ++ k ++ p.body) ?_ ?_⟩
  all_goals simp only [List.append_assoc, List.nil_append, List.length_append, leBytes_length, List.length_nil]

theorem JPage.slice_head (p : JPage) : slice p.bytes 0 0x3C = p.head := by
  rw [JPage.bytes_eq, List.append_assoc]
  exact slice_mid [] p.head (leBytes 4 p.crc ++ p.body) 0 0x3C rfl p.head_length.symm

theorem JPage.slice_body (p : JPage) : slice p.bytes 0x40 (16384 - 0x40) = p.body := by
  have hl : (p.head ++ leBytes 4 p.crc).length = 0x40 := by rw [List.length_append, p.head_length, leBytes_length]
  have hb : p.body.length = 16384 - 0x40 := slice_length ..
  have h := slice_mid (p.head ++ leBytes 4 p.crc) p.body [] 0x40 (16384 - 0x40) hl.symm hb.symm
  rwa [List.append_nil] at h

theorem JPage.drop_bytes (p : JPage) : p.bytes.drop 0x40 = p.body := by
  have hl : (p.head ++ leBytes 4 p.crc).length = 0x40 := by rw [List.length_append, p.head_length, leBytes_length]
  rw [p.bytes_eq]
  exact List.drop_left' hl

theorem crc32c_lt (b : List Byte) : crc32c b < 256 ^ 4 := BitVec.isLt _

theorem JPage.leField_crc (p : JPage) : leField p.bytes 0x3C 4 = p.crc :=
  (leField_at p.head p.body p.bytes_eq p.head_length).trans (Nat.mod_eq_of_lt (crc32c_lt _))

/-- The entries fill the start of a page's body. -/
theorem JPage.body_eq {p : JPage} (h : p.entries.length ≤ 1020) : ∃ c, p.body = p.entries.flatMap JEntry.bytes ++ c := by
  have hl := entries_length p.entries
  have ht : (p.entries.flatMap JEntry.bytes).length ≤ 16384 - 0x40 := by omega
  simp only [JPage.body, slice, List.drop_zero, List.take_of_length_le ht]
  exact ⟨_, rfl⟩

theorem parsePage_bytes {p : JPage} (hs : p.seq < 2 ^ 64) (he : p.evt < 2 ^ 64) (hc : p.ckpt < 2 ^ 64) (h1 : 1 ≤ p.entries.length)
    (hn : p.entries.length ≤ 1020) (hf : p.entries.all JEntry.fits = true) :
    parsePage p.bytes = some { seq := p.seq, evt := p.evt, ckpt := p.ckpt, entries := p.entries } := by
  obtain ⟨fm, fv, fn, fs, fe, fc⟩ := p.leField_bytes
  rw [Nat.mod_eq_of_lt (by omega)] at fn fs fe fc
  obtain ⟨c, hb⟩ := JPage.body_eq hn
  have hp := parseEntries_flatMap p.entries hf c
  have hk : crc32c (p.head ++ leBytes 4 0 ++ p.body) = p.crc := rfl
  simp only [parsePage, fm, fv, fn, fs, fe, fc, p.slice_head, p.slice_body, p.leField_crc, p.drop_bytes, hk, beq_self_eq_true,
    h1, hn, and_self, decide_true, Bool.and_true]
  rw [hb, hp]
  rfl

/-! The programming of pages, and the checkpoints (R136, R139, R141, R142). What these commands mean: each runs the state function of
its instruction. -/

theorem exec_journalTailTimeout (s : State) : exec .journalTailTimeout s = .next s.journalTailTimeout := rfl
theorem exec_journalPageCommit (s : State) : exec .journalPageCommit s = .next s.journalPageCommit := rfl
theorem exec_checkpointStart (s : State) : exec .checkpointStart s = .next s.checkpointStart := rfl
theorem exec_checkpointStall (s : State) : exec .checkpointStall s = .next s.checkpointStall := rfl
theorem exec_checkpointDone (d : Nat) (ps : List Nat) (s : State) :
    exec (.checkpointDone ⟨d, ps⟩) s = .next (s.checkpointDone d ps) := rfl
theorem exec_write (p : ReqPath) (nsid lba : Nat) (d : List Byte) (f : Bool) (pl : Placement) (s : State) :
    exec (.write p nsid lba d f pl) s = .next (s.mediaWrite p nsid lba d pl f) := rfl

theorem State.pushTail_nonempty {s : State} (h : s.media.tail ≠ []) :
    let places := s.media.journalPlaces s.media.nextJSeq
    s.pushTail = { s with media := { s.media with
      tail := [], nextJSeq := s.media.nextJSeq + 1, journalBytes := s.media.journalBytes + 16384,
      ckptBytes := s.media.ckptBytes + 16384,
      programming := s.media.programming ++
        [{ seq := s.media.nextJSeq, evt := s.media.tailEvt, ckpt := s.media.ckptSeq, entries := s.media.tail,
           place0 := places.1, place1 := places.2 }] } } :=
  if_neg fun he => h (List.isEmpty_iff.mp he)

theorem State.journalTailTimeout_nonempty {s : State} (h : s.media.tail ≠ []) :
    s.journalTailTimeout = (s.advance (s.media.tailSince + 10000000)).pushTail :=
  if_neg fun he => h (List.isEmpty_iff.mp he)

theorem State.openTail_nonempty {s : State} (h : s.media.tail ≠ []) : s.openTail = s :=
  if_neg fun he => h (List.isEmpty_iff.mp he)

theorem State.openTail_empty {s : State} (h : s.media.tail = []) :
    s.openTail = { s.issueSeq.2 with
      media := { s.issueSeq.2.media with tailEvt := s.issueSeq.1, tailSince := s.issueSeq.2.now } } := by
  rw [State.openTail, h, List.isEmpty_nil, if_pos rfl]

/-- An entry that does not fill the tail waits there. -/
theorem State.journal_waits {s : State} {e : JEntry} (h : s.openTail.media.tail.length < 1019) :
    s.journal e = { s.openTail with media := { s.openTail.media with
      image := applyJ s.openTail.nand.bands s.openTail.media.image e, tail := s.openTail.media.tail ++ [e],
      appended := s.openTail.media.appended + 1,
      changed := addNew s.openTail.media.changed (e.segments s.openTail.media.image) } } := by
  refine if_neg ?_
  simp only [List.length_append, List.length_singleton]
  omega

theorem State.issueSeq_media (s : State) : s.issueSeq.2.media = s.media := by
  obtain ⟨_, _, _, e⟩ := s.issueSeq_frame
  rw [e]

theorem State.journalPageCommit_last {s : State} {pg : JPage} {rest : List JPage} (h : s.media.programming = pg :: rest)
    (hp : pg.passed0 = true) : s.journalPageCommit = State.settle { s with
      nand := { s.nand with journal := s.nand.journal ++ [{ pg with passed1 := true }] },
      media := { s.media with programming := rest, committed := s.media.committed + pg.entries.length } } true := by
  rw [State.journalPageCommit, h]
  exact if_pos hp

theorem State.journalPageCommit_first {s : State} {pg : JPage} {rest : List JPage} (h : s.media.programming = pg :: rest)
    (hp : pg.passed0 = false) : s.journalPageCommit = { s with media := { s.media with
      programming := { pg with passed0 := true } :: rest } } := by
  rw [State.journalPageCommit, h]
  exact if_neg (ne_true_of_eq_false hp)

theorem State.checkpointStart_runs {s : State} (hk : s.media.ckpt = none) (hm : s.mediaStopped = false) (hl : s.media.mapLoaded = true)
    (hz : s.media.sanitize = none) :
    s.checkpointStart =
      (let t := if s.media.ckptBytes ≥ s.regFld mapBase 0 4 * 2 ^ 30 then s
        else s.advance (s.media.ckptStartedAt + s.regFld mapBase 16 10 * 1000000000)
      { t with media := { t.media with
        ckpt := some { image := t.media.image, start := t.media.nextJSeq, segments := t.media.changed },
        changed := [], ckptStartedAt := t.now, ckptBytes := 0 } }) := by
  refine if_neg ?_
  rw [hk, hm, hl, hz]
  decide

theorem State.checkpointDone_runs {s : State} {k : Checkpoint} {dir : Nat} {places : List Nat} (hk : s.media.ckpt = some k)
    (hm : s.mediaStopped = false) (hl : s.media.mapLoaded = true) (hn : places.length = k.segments.length)
    (hp : s.placesFree places = true) :
    let x := (places.foldl (fun s p => s.programPage p) s).healthBump 2 (places.length * 40959)
    let a := State.journal { x with media := { x.media with
      ckptSeq := x.media.ckptSeq + 1, dir := dir,
      segments := (k.segments.zip places).foldl (fun l x => natSet l x.1 x.2) x.media.segments } }
      (.checkpointDone (x.media.ckptSeq + 1) dir)
    let b := (a.healthBump 15 1).writeAnchorWith false k.image k.start
    let keep := b.nand.journal.filter (fun p => decide (p.seq ≥ k.start))
    s.checkpointDone dir places = { b with
      nand := { b.nand with journal := keep },
      media := { b.media with
        ckpt := none, stalled := false, journalBytes := (keep.length + b.media.programming.length) * 16384 } } := by
  simp only [State.checkpointDone, hk, hm, hl, hn, hp]
  exact if_neg (by simp)

/-- The anchor record written last is the current one. -/
theorem State.writeAnchorWith_current {s : State} {a b : Anchor} (ha : s.nand.anchor0 = some a) (hb : s.nand.anchor1 = some b)
    (flushed : Bool) (img : MediaImage) (start : Nat) :
    (s.writeAnchorWith flushed img start).nand.current = some {
      seq := max a.seq b.seq + 1, flushed := flushed, layout := s.media.layout, userCap := s.media.userCap,
      ckptSeq := s.media.ckptSeq, startSeq := start, image := img, health := s.media.health,
      ceiling := max s.evt.ceiling s.evt.pendingAnchor, geometry := s.media.geometry, dir := s.media.dir,
      segments := s.media.segments, startAt := (s.media.journalPlaces start).1, lgBlocks := s.nand.lgBlocks,
      sanitize := s.media.sanitize } := by
  simp only [State.writeAnchorWith, ha, hb]
  split
  · exact if_pos (Nat.lt_succ_of_le (le_max_right a.seq b.seq))
  · exact if_neg (Nat.not_lt.mpr (Nat.le_succ_of_le (le_max_left a.seq b.seq)))

theorem State.checkpointStall_runs {s : State} (h : s.media.stalled = false) (hb : s.media.journalBytes ≥ 12 * 2 ^ 30) :
    s.checkpointStall = { s.healthBump 14 1 with media := { (s.healthBump 14 1).media with stalled := true } } := by
  refine if_pos ?_
  rw [h, decide_eq_true hb]
  rfl

/-- A stall holds a write back. -/
theorem State.mediaWrite_stalled {s : State} (h : s.media.stalled = true) (p : ReqPath) (nsid lba : Nat) (d : List Byte)
    (pl : Placement) (f : Bool) : s.mediaWrite p nsid lba d pl f = s := by
  refine if_pos ?_
  rw [State.admissionHeld, h]
  simp

/-- Settles O28: the pages by the branches of each command, the formats by reading the fields back where they were laid out. -/
theorem journalAndCheckpoints : Obligations.JournalAndCheckpoints := by
  unfold Obligations.JournalAndCheckpoints
  refine ⟨fun s e es h => ?_, fun s h => State.pushTail_nonempty h, fun s e h => ⟨fun ht => ?_, fun ht => ?_⟩,
    fun s pg rest h hp => ?_, fun s pg rest h hp => ?_, fun e h => parseEntry_bytes h,
    fun seq evt ckpt es hs he hc h1 hn hf => parsePage_bytes hs he hc h1 hn hf, fun s hk hm hl hz hb => ?_,
    fun s hk hm hl hz hb => ?_, fun s dir places k hk hm hl hn hp => ?_, fun s flushed img start a b ha hb => ?_,
    fun s h hb => ⟨?_, fun p nsid lba d pl f => ?_⟩⟩
  · rw [exec_journalTailTimeout, State.journalTailTimeout_nonempty (by rw [h]; exact List.cons_ne_nil e es)]
    rfl
  · have ho := State.openTail_nonempty ht
    rw [State.journal_waits (by rw [ho]; exact h), ho]
  · have ho := State.openTail_empty ht
    have hm := s.issueSeq_media
    rw [State.journal_waits (by rw [ho, hm]; exact h), ho]
    simp only [hm, ht, List.nil_append]
  · rw [exec_journalPageCommit, State.journalPageCommit_last h hp]
  · rw [exec_journalPageCommit, State.journalPageCommit_first h hp]
  · rw [exec_checkpointStart, State.checkpointStart_runs hk hm hl hz, if_pos hb]
  · rw [exec_checkpointStart, State.checkpointStart_runs hk hm hl hz, if_neg (Nat.not_le.mpr hb)]
    rfl
  · refine ⟨_, (exec_checkpointDone dir places s).trans (congrArg _ (State.checkpointDone_runs hk hm hl hn hp)), ?_⟩
    exact ⟨rfl, rfl, rfl, rfl, rfl, rfl, rfl, rfl⟩
  · exact ⟨_, ⟨rfl, rfl, rfl, rfl, rfl, rfl, rfl, rfl, rfl, rfl, rfl, rfl, rfl⟩,
      State.writeAnchorWith_current ha hb flushed img start, rfl⟩
  · rw [exec_checkpointStall, State.checkpointStall_runs h hb]
  · rw [exec_write, State.mediaWrite_stalled rfl]

end Sys2Proof.Machine

namespace Sys2Proof.Machine

/-! ### Register writes -/

theorem exec_registerWrite (t : RegTarget) (v : Word) (hi : Option Word) (s : State) :
    exec (.registerWrite t v hi) s = .next (s.registerWrite t v hi) := rfl

theorem State.busWake_run {s : State} (h : s.power.state = .run) (p : BusPath) : s.busWake p = s := by
  refine if_neg ?_
  rw [h]
  simp

theorem State.resetHeld_of_mainHeld {s : State} (h : s.mainHeld = false) : s.boot.resetHeld = false := by
  rw [State.mainHeld, Bool.or_assoc, Bool.or_eq_false_iff] at h
  exact h.1

/-! Ranges of BAR0 (R675). -/

theorem offUnassigned_iff (off : Nat) :
    offUnassigned off = true ↔ (0x50000 ≤ off ∧ off < 0x100000) ∨ (0xF00000 ≤ off ∧ off < 0x1000000) := by
  simp only [offUnassigned, Bool.or_eq_true, Bool.and_eq_true, decide_eq_true_eq]

theorem offField_low {off : Nat} (h : off < synBase) : offField off = false := by
  simp only [offField, Bool.or_eq_false_iff, Bool.and_eq_false_iff, decide_eq_false_iff_not]
  unfold synBase obsBase tilBase at *
  omega

theorem offField_gap {off : Nat} (h1 : obsBase ≤ off) (h2 : off < tilBase) : offField off = false := by
  simp only [offField, Bool.or_eq_false_iff, Bool.and_eq_false_iff, decide_eq_false_iff_not]
  unfold synBase obsBase tilBase at *
  omega

theorem offField_tile {off : Nat} (h : tilBase ≤ off) : offField off = true := by
  rw [offField, decide_eq_true h, Bool.or_true]

theorem offNet_low {off : Nat} (h : off < 0x420000) : offNet off = false := by
  simp only [offNet, Bool.or_eq_false_iff, Bool.and_eq_false_iff, decide_eq_false_iff_not]
  unfold egsBase grpBase cmpBase poolBase
  omega

theorem offNet_high {off : Nat} (h : grpBase ≤ off) : offNet off = false := by
  simp only [offNet, Bool.or_eq_false_iff, Bool.and_eq_false_iff, decide_eq_false_iff_not]
  unfold egsBase grpBase cmpBase poolBase at *
  omega

/-- From READY on, with the main domains up, the queue interface answers its own range. -/
theorem State.served_yqi {s : State} (hr : s.ready = true) (hm : s.mainHeld = false) {off : Nat} (h1 : yqiBase ≤ off)
    (h2 : off < medBase) (p : BusPath) : s.served p off = .block := by
  unfold yqiBase at h1
  unfold medBase at h2
  have hf : offField off = false := offField_low (by unfold synBase; omega)
  have hn : offNet off = false := offNet_low (by omega)
  have hu : offUnassigned off = false := by
    rw [← Bool.not_eq_true, offUnassigned_iff]
    omega
  have hb : ¬ off ≥ 0x4000000 := by omega
  have ht : ¬ tilBase ≤ off := by unfold tilBase; omega
  simp [State.served, State.clamped, State.linkRetrains, offLink, hb, hr, hm, hu, hf, hn, ht]

theorem State.busWrite_block {s : State} {p : BusPath} {off : Nat} (hm : s.mainHeld = false) (hp : s.power.state = .run)
    (h : s.served p off = .block) (v : Word) : s.busWrite p off v = s.blockWrite p off v := by
  simp only [State.busWrite, s.busWake_run hp, State.resetHeld_of_mainHeld hm, Bool.false_eq_true, if_false, h]

/-- The words of the queue interface are plain. -/
theorem State.blockWrite_yqi (s : State) (p : BusPath) {off : Nat} (h1 : yqiBase ≤ off) (h2 : off < medBase) (v : Word) :
    s.blockWrite p off v = s.plainWrite off v := by
  have h0 : ¬ off = pwrBase + 4 := by simp only [yqiBase, pwrBase] at h1 ⊢; omega
  have hb : ¬ off < bootBase := by simp only [yqiBase, bootBase] at h1 ⊢; omega
  have hp : ¬ off < pwrBase := by simp only [yqiBase, pwrBase] at h1 ⊢; omega
  have hs : ¬ off < sagBase := by simp only [yqiBase, sagBase] at h1 ⊢; omega
  rw [State.blockWrite, if_neg h0, if_neg hb, if_neg hp, if_neg hs, if_neg (Nat.not_lt.mpr h1), if_pos h2]
  rfl

theorem State.plainWrite_unlocked {s : State} {off : Nat} {r : RegRow} (h : findRow off = some r)
    (hq : r.rwq = 0 ∨ s.quoinSet r.quoin = false) (v : Word) : s.plainWrite off v = s.setReg off (r.write false (s.reg off) v) := by
  have hl : (r.rwq != 0 && s.quoinSet r.quoin) = false := by
    rcases hq with hq | hq
    · rw [hq]; rfl
    · rw [hq, Bool.and_false]
  simp only [State.plainWrite, h, hl, Bool.false_and, Bool.false_eq_true, if_false]

theorem State.plainWrite_denied {s : State} {off : Nat} {r : RegRow} {v : Word} (h : findRow off = some r) (hr : r.rwq ≠ 0)
    (hq : s.quoinSet r.quoin = true) (hd : r.lockedDiffers (s.reg off) v = true) :
    s.plainWrite off v = (s.quoinDenied off r.quoin).setReg off (r.write true (s.reg off) v) := by
  have hl : (r.rwq != 0 && s.quoinSet r.quoin) = true := by rw [hq, Bool.and_true]; exact bne_iff_ne.mpr hr
  simp only [State.plainWrite, h, hl, hd, Bool.and_self, if_true]

/-- The access codes, bit by bit. -/
theorem RegRow.getLsbD_write (r : RegRow) (locked : Bool) (old new : Word) {i : Nat} (hi : i < 32) :
    (r.write locked old new).getLsbD i =
      ((((if r.rw.testBit i || (!locked && r.rwq.testBit i) then new.getLsbD i else old.getLsbD i) &&
        !(new.getLsbD i && r.w1c.testBit i))) || (new.getLsbD i && r.w1s.testBit i)) := by
  have hm : (BitVec.ofNat 32 (if locked then r.rw else r.rw ||| r.rwq)).getLsbD i =
      (r.rw.testBit i || (!locked && r.rwq.testBit i)) := by
    cases locked <;> simp [BitVec.getLsbD_ofNat, hi, -BitVec.getLsbD_eq_getElem]
  simp only [RegRow.write, BitVec.getLsbD_or, BitVec.getLsbD_and, BitVec.getLsbD_not, hm, BitVec.getLsbD_ofNat, hi, decide_true,
    Bool.true_and]
  cases r.rw.testBit i || (!locked && r.rwq.testBit i) <;> simp

theorem State.registerWrite_bar0 {p : BusPath} {off : Nat} (hp : p ≠ .image) (ho : off % 4 = 0) (s : State) (v : Word) :
    s.registerWrite (.bar0 p off) v none = s.busWrite p off v :=
  if_neg (by simp [hp, ho])

theorem State.registerWrite_bar0_wide {p : BusPath} {off : Nat} (hp : p ≠ .image) (ho : off % 8 = 0) (s : State) (v h : Word) :
    s.registerWrite (.bar0 p off) v (some h) = (s.busWrite p off v).busWrite p (off + 4) h :=
  if_neg (by simp [hp, ho]; omega)

/-- Settles O8, by the block that answers, the row of the word, and the bits of a write. -/
theorem registerWriteSetsUnlockedFields : Obligations.RegisterWriteSetsUnlockedFields := by
  unfold Obligations.RegisterWriteSetsUnlockedFields
  refine ⟨fun s p off v r hr hm hs hp ho h1 h2 hf hq => ?_, fun s off v r hf hn hq hd => State.plainWrite_denied hf hn hq hd,
    fun r locked old new i hi => RegRow.getLsbD_write r locked old new hi, fun s p off v h hp ho => ?_⟩
  · rw [exec_registerWrite, State.registerWrite_bar0 hp ho, State.busWrite_block hm hs (State.served_yqi hr hm h1 h2 p),
      s.blockWrite_yqi p h1 h2, State.plainWrite_unlocked hf hq]
  · rw [exec_registerWrite, State.registerWrite_bar0_wide hp ho]

end Sys2Proof.Machine

namespace Sys2Proof.Machine

/-! ### Accesses that no register answers

What these commands mean: each runs the state function of its instruction. -/

theorem exec_badAccess (p : BusPath) (off bytes : Nat) (s : State) :
    exec (.badAccess p off bytes) s = .next (s.badAccess p off bytes) := rfl
theorem exec_inactiveTileAccess (p : BusPath) (off : Nat) (w : Option Word) (s : State) :
    exec (.inactiveTileAccess p off w) s = .next (s.inactiveTileAccess p off w) := rfl
theorem exec_unassignedAccess (p : BusPath) (off : Nat) (w : Option Word) (s : State) :
    exec (.unassignedAccess p off w) s = .next (s.unassignedRangeAccess p off w) := rfl
theorem exec_fencedDieAccess (p : BusPath) (off : Nat) (w : Option Word) (s : State) :
    exec (.fencedDieAccess p off w) s = .next (s.fencedDieAccess p off w) := rfl

/-! Who answers (R40, R43, R587, R675, R677). -/

section Served

variable {s : State} {p : BusPath} {off : Nat}

/-- The always-on blocks answer at any time. -/
theorem State.served_early (hm : s.mainHeld = false) (h : off < 0x50000) (p : BusPath) : s.served p off = .block := by
  have hf : offField off = false := offField_low (by unfold synBase; omega)
  have hn : offNet off = false := offNet_low (by omega)
  have hu : offUnassigned off = false := by
    rw [← Bool.not_eq_true, offUnassigned_iff]
    omega
  have he : offEarly off = true := by rw [offEarly, decide_eq_true h, Bool.true_or]
  have hb : ¬ off ≥ 0x4000000 := by omega
  have ht : ¬ tilBase ≤ off := by unfold tilBase; omega
  simp [State.served, State.clamped, State.linkRetrains, offLink, hb, hm, hu, hf, hn, ht, he]

variable (hr : s.ready = true) (hm : s.mainHeld = false)
include hr hm

theorem State.served_unassigned (h : offUnassigned off = true) (p : BusPath) : s.served p off = .unassigned := by
  have hx := (offUnassigned_iff off).mp h
  have hf : offField off = false := by
    rcases hx with hx | hx
    · exact offField_low (by unfold synBase; omega)
    · exact offField_gap (by unfold obsBase; omega) (by unfold tilBase; omega)
  have hn : offNet off = false := by
    rcases hx with hx | hx
    · exact offNet_low (by omega)
    · exact offNet_high (by unfold grpBase; omega)
  have hb : ¬ off ≥ 0x4000000 := by omega
  simp [State.served, State.clamped, hb, hr, hm, h, hf, hn]

theorem State.served_tile (h1 : tilBase ≤ off) (h2 : off < 0x4000000) (ht : s.power.tripAt = none) (p : BusPath) :
    s.served p off = if s.fieldFenced then .fenced true
      else if !s.regionActive (offTile off / 32) then .inactiveTile else if s.linkRetrains p off then .held else .block := by
  have hn : offNet off = false := offNet_high (by unfold grpBase; unfold tilBase at h1; omega)
  have hu : offUnassigned off = false := by
    rw [← Bool.not_eq_true, offUnassigned_iff]
    unfold tilBase at h1
    omega
  have hb : ¬ off ≥ 0x4000000 := by omega
  simp [State.served, State.clamped, hb, hr, hm, hu, ht, offField_tile h1, hn, h1]

theorem State.served_net (h1 : egsBase ≤ off) (h2 : off < grpBase) (ht : s.power.tripAt = none) (hf : s.netFenced = true)
    (p : BusPath) : s.served p off = .fenced false := by
  have hn : offNet off = true := by rw [offNet, decide_eq_true h1, decide_eq_true h2]; rfl
  have hl : offField off = false := offField_low (by unfold grpBase at h2; unfold synBase; omega)
  have hu : offUnassigned off = false := by
    rw [← Bool.not_eq_true, offUnassigned_iff]
    unfold egsBase at h1
    unfold grpBase at h2
    omega
  have hb : ¬ off ≥ 0x4000000 := by unfold grpBase at h2; omega
  simp [State.served, State.clamped, hb, hr, hm, hu, ht, hl, hn, hf]

end Served

/-! What an access does, by who answers. -/

section Access

variable {s : State} {p : BusPath} {off : Nat} (hm : s.mainHeld = false) (hp : s.power.state = .run)
include hm hp

theorem State.busWrite_inactiveTile (h : s.served p off = .inactiveTile) (v : Word) :
    s.busWrite p off v = s.log 0x0103 tilBase off := by
  simp only [State.busWrite, s.busWake_run hp, State.resetHeld_of_mainHeld hm, Bool.false_eq_true, if_false, h]

theorem State.busWrite_unassigned (h : s.served p off = .unassigned) (v : Word) :
    s.busWrite p off v = s.unassignedAccess off := by
  simp only [State.busWrite, s.busWake_run hp, State.resetHeld_of_mainHeld hm, Bool.false_eq_true, if_false, h]

theorem State.busWrite_fenced {f : Bool} (h : s.served p off = .fenced f) (v : Word) : s.busWrite p off v = s.fencedAccess f := by
  simp only [State.busWrite, s.busWake_run hp, State.resetHeld_of_mainHeld hm, Bool.false_eq_true, if_false, h]

omit hm in
theorem State.wideRead_word {w : Word} {t : State} (hh : s.served p off ≠ .held) (h : s.busRead p off = (some w, t)) :
    s.wideRead p off 4 = t.emit (.readData p off [w]) := by
  rw [State.wideRead, s.busWake_run hp, if_neg hh, h]
  rfl

theorem State.inactiveTileAccess_discards (h : s.served p off = .inactiveTile) (v : Word) :
    s.inactiveTileAccess p off (some v) = s.log 0x0103 tilBase off ∧
    s.inactiveTileAccess p off none = (s.log 0x0103 tilBase off).emit (.readData p off [0]) := by
  have hr : s.busRead p off = (some 0, s.log 0x0103 tilBase off) := by rw [State.busRead, s.busWake_run hp, h]
  rw [State.inactiveTileAccess, State.inactiveTileAccess, s.busWake_run hp, if_pos h, if_pos h]
  exact ⟨State.busWrite_inactiveTile hm hp h v, State.wideRead_word hp (by rw [h]; decide) hr⟩

theorem State.unassignedRangeAccess_discards (h : s.served p off = .unassigned) (v : Word) :
    s.unassignedRangeAccess p off (some v) = s.unassignedAccess off ∧
    s.unassignedRangeAccess p off none = (s.unassignedAccess off).emit (.readData p off [0]) := by
  have hr : s.busRead p off = (some 0, s.unassignedAccess off) := by rw [State.busRead, s.busWake_run hp, h]
  rw [State.unassignedRangeAccess, State.unassignedRangeAccess, s.busWake_run hp, if_pos h, if_pos h]
  exact ⟨State.busWrite_unassigned hm hp h v, State.wideRead_word hp (by rw [h]; decide) hr⟩

theorem State.fencedDieAccess_discards {f : Bool} (h : s.served p off = .fenced f) (v : Word) :
    s.fencedDieAccess p off (some v) = s.fencedAccess f ∧
    s.fencedDieAccess p off none = (s.fencedAccess f).emit (.readData p off [0xFFFFFFFF]) := by
  have hr : s.busRead p off = (some 0xFFFFFFFF, s.fencedAccess f) := by rw [State.busRead, s.busWake_run hp, h]
  rw [State.fencedDieAccess, State.fencedDieAccess, s.busWake_run hp, h]
  exact ⟨State.busWrite_fenced hm hp h v, State.wideRead_word hp (by rw [h]; nofun) hr⟩

theorem State.badAccess_refused (hr : s.ready = true) {bytes : Nat} (ha : accessOk off bytes = false) (h : off < 0x4000000) :
    s.badAccess .pcie0 off bytes = (s.emit (.unsupportedRequest .pcie0)).log 0x0106 (off / 2 ^ 16 * 2 ^ 16) off := by
  have hb : ¬ off ≥ 0x4000000 := by omega
  have hr' : (s.emit (.unsupportedRequest .pcie0)).ready = true := hr
  simp [State.badAccess, hm, hb, ha, s.busWake_run hp, hr']

/-- Two words of the always-on blocks, lower address first. -/
theorem State.badAccess_wide (h8 : off % 8 = 0) (h : off < 0x50000) :
    s.badAccess .pcie0 off 8 = s.emit (.readData .pcie0 off [s.blockWord .pcie0 off, s.blockWord .pcie0 (off + 4)]) := by
  have hb : ¬ off ≥ 0x4000000 := by omega
  have ha : accessOk off 8 = true := by simp [accessOk, h8]
  have hs (o : Nat) (ho : o < 0x50000) : s.busRead .pcie0 o = (some (s.blockWord .pcie0 o), s) := by
    have hl : s.useLatch o = s := if_neg (by rw [decide_eq_false (by unfold tilBase; omega)]; exact Bool.false_ne_true)
    rw [State.busRead, s.busWake_run hp, State.served_early hm ho]
    exact congrArg _ hl
  have hh : s.served .pcie0 off ≠ .held := by rw [State.served_early hm h]; decide
  simp [State.badAccess, hm, hb, ha, State.wideRead, s.busWake_run hp, hh, hs off h, hs (off + 4) (by omega)]

end Access

theorem State.unassignedAccess_first {s : State} (h : s.rst.unassignedAt = none) (off : Nat) :
    s.unassignedAccess off = { (s.log 0x0101 0 off) with rst := { s.rst with unassignedAt := some s.now } } := by
  simp [State.unassignedAccess, h, secondPassed]

theorem State.unassignedAccess_soon {s : State} {t : Nat} (h : s.rst.unassignedAt = some t) (ht : s.now < t + 1000000000)
    (off : Nat) : s.unassignedAccess off = s := by
  refine if_neg ?_
  rw [h, secondPassed, decide_eq_true_eq]
  omega

theorem State.fencedAccess_first {s : State} (h : s.links.fieldLogged = false) :
    s.fencedAccess true = { (s.log 0x1002 aonBase) with links := { s.links with fieldLogged := true } } := by
  have hl : (s.log 0x1002 aonBase).links = s.links := State.log_links ..
  simp only [State.fencedAccess, if_true, h, Bool.false_eq_true, if_false, hl]

theorem State.fencedAccess_again {s : State} (h : s.links.netLogged = true) : s.fencedAccess false = s := by
  simp only [State.fencedAccess, h, Bool.false_eq_true, if_false, if_true]

/-- Settles O9, by who answers the access and what that answer records. -/
theorem accessesThatReachNoRegister : Obligations.AccessesThatReachNoRegister := by
  unfold Obligations.AccessesThatReachNoRegister
  refine ⟨fun s off bytes hr hm hp ha h => ?_, fun s off hm hp h8 h => ?_, fun s p off v hr hm hp h1 h2 hf hx ht => ?_,
    fun s p off v hr hm hp ho hu => ?_, fun s p off t v hr hm hp ho hu ht => ?_,
    fun s p off v hr hm hp h1 h2 hf hl ht => ?_, fun s p off v hr hm hp h1 h2 hf hl ht => ?_⟩
  · rw [exec_badAccess, State.badAccess_refused hm hp hr ha h]
  · rw [exec_badAccess, State.badAccess_wide hm hp h8 h]
  · have hs : s.served p off = .inactiveTile := by rw [State.served_tile hr hm h1 h2 ht, hf, hx]; rfl
    obtain ⟨hw, hr⟩ := State.inactiveTileAccess_discards hm hp hs v
    rw [exec_inactiveTileAccess, exec_inactiveTileAccess, hw, hr]
    exact ⟨rfl, rfl⟩
  · have hs := State.served_unassigned hr hm ((offUnassigned_iff off).mpr ho) p
    obtain ⟨hw, hr⟩ := State.unassignedRangeAccess_discards hm hp hs v
    rw [exec_unassignedAccess, exec_unassignedAccess, hw, hr, State.unassignedAccess_first hu]
    exact ⟨rfl, rfl⟩
  · have hs := State.served_unassigned hr hm ((offUnassigned_iff off).mpr ho) p
    obtain ⟨hw, -⟩ := State.unassignedRangeAccess_discards hm hp hs v
    rw [exec_unassignedAccess, hw, State.unassignedAccess_soon hu ht]
  · have hs : s.served p off = .fenced true := by rw [State.served_tile hr hm h1 h2 ht, hf]; rfl
    obtain ⟨hw, hr⟩ := State.fencedDieAccess_discards hm hp hs v
    rw [exec_fencedDieAccess, exec_fencedDieAccess, hw, hr, State.fencedAccess_first hl]
    exact ⟨rfl, rfl⟩
  · obtain ⟨hw, hr⟩ := State.fencedDieAccess_discards hm hp (State.served_net hr hm h1 h2 ht hf p) v
    rw [exec_fencedDieAccess, exec_fencedDieAccess, hw, hr, State.fencedAccess_again hl]
    exact ⟨rfl, rfl⟩

end Sys2Proof.Machine

namespace Sys2Proof.Machine

/-! ### The sideband and JTAG

What these commands mean: each runs the state function of its instruction. -/

theorem exec_smbSetOffset (off : Word) (ok : Bool) (s : State) : exec (.smbSetOffset off ok) s = .next (s.smbSetOffset off ok) := rfl
theorem exec_smbRead (a : Bool) (s : State) : exec (.smbRead a) s = .next (s.smbRead a) := rfl
theorem exec_smbWrite (off v : Word) (ok a : Bool) (s : State) :
    exec (.smbWrite off v ok a) s = .next (s.smbWrite off v ok a) := rfl
theorem exec_smbAlertResponse (s : State) : exec .smbAlertResponse s = .next s.alertResponse := rfl
theorem exec_jtagTapAccess (a : JtagAccess) (s : State) : exec (.jtagTapAccess a) s = .next (s.jtagAccess a) := rfl
theorem exec_eventSeqCeilingRaise (s : State) : exec .eventSeqCeilingRaise s = .next s.ceilingRaise := rfl

theorem smbRange_of_beyond {off : Nat} (h : off > 0xFFFFFF ∨ off % 4 ≠ 0) : smbRange off = if off > 0xFFFFFF then 2 else 3 := by
  rw [smbRange]
  split
  · rfl
  · next hn => exact if_pos (h.resolve_left hn)

theorem smbRange_eq_zero_iff (off : Nat) : smbRange off = 0 ↔ off ≤ 0xFFFFFF ∧ off % 4 = 0 := by
  rw [smbRange]
  split
  · next h => exact ⟨fun h0 => absurd h0 (by decide), fun h0 => absurd h (Nat.not_lt.mpr h0.1)⟩
  · next h =>
    split
    · next h4 => exact ⟨fun h0 => absurd h0 (by decide), fun h0 => absurd h0.2 h4⟩
    · next h4 => exact ⟨fun _ => ⟨Nat.not_lt.mp h, not_not.mp h4⟩, fun _ => rfl⟩

section SmbRead

variable {s : State}

theorem State.smbRead_beyond (h : s.sideband.offset > 0xFFFFFF ∨ s.sideband.offset % 4 ≠ 0) (a : Bool) :
    s.smbRead a = { (s.emit (.smbus [if s.sideband.offset > 0xFFFFFF then 2 else 3, 0xFFFFFFFF])) with
      sideband := { s.sideband with offset := (s.sideband.offset + 4) % 2 ^ 32 } } := by
  have hr := smbRange_of_beyond h
  have h0 : smbRange s.sideband.offset ≠ 0 := by rw [hr]; split <;> decide
  rw [State.smbRead, if_pos h0, hr]
  rfl

theorem State.smbRead_word {w : Word} {t : State} (h : smbRange s.sideband.offset = 0)
    (hb : s.busRead .sideband s.sideband.offset = (some w, t)) :
    s.smbRead true = { (t.emit (.smbus [0, w.toNat])) with
      sideband := { t.sideband with offset := (s.sideband.offset + 4) % 2 ^ 32 } } := by
  rw [State.smbRead, if_neg (not_not.mpr h), Bool.true_or, Bool.not_true, if_neg Bool.false_ne_true, hb]

theorem State.smbRead_silent (h : smbRange s.sideband.offset = 0) (hs : sagBase ≤ s.sideband.offset) :
    s.smbRead false = { (s.emit (.smbus [1, 0xFFFFFFFF])) with
      sideband := { s.sideband with offset := (s.sideband.offset + 4) % 2 ^ 32 } } := by
  have ha : smbAlways s.sideband.offset = false := decide_eq_false (Nat.not_lt.mpr hs)
  rw [State.smbRead, if_neg (not_not.mpr h), ha, Bool.false_or, Bool.not_false, if_pos rfl]
  rfl

end SmbRead

theorem State.smbWrite_reaches {off : Word} (h : smbRange off.toNat = 0) (s : State) (v : Word) :
    s.smbWrite off v true true = s.busWrite .sideband off.toNat v := by
  rw [State.smbWrite, h]
  rfl

theorem State.smbWrite_beyond {off : Word} (h : smbRange off.toNat ≠ 0) (s : State) (v : Word) (ok a : Bool) :
    s.smbWrite off v ok a = s := by
  have hz : (smbRange off.toNat == 0) = false := beq_false_of_ne h
  refine if_neg ?_
  rw [hz, Bool.and_false, Bool.false_and]
  exact Bool.false_ne_true

theorem State.alertLow_iff (s : State) :
    s.alertLow = true ↔ s.power.wdtWarned = true ∨ s.power.throttle = true ∨ s.trust.mbox1.done = true := by
  have h1 : s.mbox 1 = s.trust.mbox1 := rfl
  rw [State.alertLow, h1, Bool.or_eq_true, Bool.or_eq_true, or_assoc]

/-- A register is open to JTAG in Blank and Returned, and under a debug unlock. -/
theorem State.jtagOpen_register {s : State} (h : s.lc = .blank ∨ s.lc = .returned ∨ s.trust.debug ≥ 1) (off : Nat)
    (w : Option Word) : s.jtagOpen (.registerAccess off w) = true := by
  rcases h with h | h | h
  · rw [State.jtagOpen, h]; rfl
  · rw [State.jtagOpen, h]; rfl
  · rw [State.jtagOpen, decide_eq_true h, Bool.or_true]

theorem EventSeq.raise_of_covering {e : EventSeq} {c : Nat} (hb : e.backup = some c) (ha : e.anchor.getD 0 ≤ c) :
    e.raise = { e with backup := some (c + 2 ^ 36), pendingAnchor := c + 2 ^ 36 } := by
  rw [EventSeq.raise, hb, Option.getD_some, max_eq_left ha]

/-- Settles O10, by the branches of each command. -/
theorem sidebandAndDebugAccess : Obligations.SidebandAndDebugAccess := by
  unfold Obligations.SidebandAndDebugAccess
  refine ⟨fun s off => ⟨rfl, rfl⟩, fun s a h => ?_, fun s w t h hb => ?_, fun s h hs => ?_, fun s off v h1 h4 => ⟨?_, rfl⟩,
    fun s off v ok a h => ?_, fun s h => ?_, fun s a h => ?_, fun s off v h => ?_, fun s => ⟨rfl, rfl, fun hl hd => ?_, fun hl => ?_⟩,
    fun s c hb hn ha => ?_, fun s h => ?_⟩
  · rw [exec_smbRead, State.smbRead_beyond h]
  · rw [exec_smbRead, State.smbRead_word h hb]
  · rw [exec_smbRead, State.smbRead_silent h hs]
  · rw [exec_smbWrite, State.smbWrite_reaches ((smbRange_eq_zero_iff _).mpr ⟨h1, h4⟩)]
  · have h0 : smbRange off.toNat ≠ 0 := by
      rw [Ne, smbRange_eq_zero_iff, not_and_or, Nat.not_le]
      exact h
    rw [exec_smbWrite, State.smbWrite_beyond h0]
  · rw [exec_smbAlertResponse, State.alertResponse, if_pos (s.alertLow_iff.mpr h)]
  · exact congrArg _ (if_neg (ne_true_of_eq_false h))
  · rw [exec_jtagTapAccess, State.jtagAccess, if_pos (State.jtagOpen_register h off (some v))]
  · simp only [State.jtagOpen, hl, hd]
    exact ⟨rfl, rfl, fun _ _ => rfl⟩
  · simp only [State.jtagOpen, hl]
    exact ⟨rfl, rfl⟩
  · have hr : s.evt.near = true := by
      rw [EventSeq.near, EventSeq.ceiling, hb]
      exact decide_eq_true hn
    rw [exec_eventSeqCeilingRaise, State.ceilingRaise, if_pos hr, EventSeq.raise_of_covering hb ha]
  · have hr : s.evt.near = false := decide_eq_false (Nat.not_le.mpr h)
    rw [exec_eventSeqCeilingRaise, State.ceilingRaise, hr, if_neg Bool.false_ne_true]

end Sys2Proof.Machine

namespace Sys2Proof.Machine

/-! ### Die links and PLLs

What these commands mean: each runs the state function of its instruction. -/

theorem exec_flitError (l : DieLink) (r : Bool) (s : State) : exec (.flitError l r) s = .next (s.flitError l r) := rfl
theorem exec_linkRetrainDone (l : DieLink) (ok : Bool) (s : State) :
    exec (.linkRetrainDone l ok) s = .next (s.linkRetrainDone l ok) := rfl
theorem exec_pllUnlock (n : Nat) (s : State) : exec (.pllUnlock n) s = .next (s.pllUnlock n) := rfl
theorem exec_pllRelock (n : Nat) (ok : Bool) (d : Nat) (s : State) : exec (.pllRelock n ok d) s = .next (s.pllRelock n ok d) := rfl

theorem State.flitError_recovered (s : State) (l : DieLink) : s.flitError l true = s := rfl

theorem State.flitError_retrains {s : State} {l : DieLink} (h : (s.links.get l).state = 0) :
    s.flitError l false = { s with links := s.links.set l { s.links.get l with state := 1 } } := by
  refine if_neg ?_
  rw [h]
  decide

/-! The end of a retrain (R41, R45). -/

theorem LinkState.retrained_state (x : LinkState) (now : Nat) (ok : Bool) :
    (x.retrained now ok).state =
      if (x.retrained now ok).failRun ≥ 3 ∨ (x.retrained now ok).recent.length > 16 then 2 else if ok then 0 else 1 := by
  simp only [LinkState.retrained, Bool.or_eq_true, decide_eq_true_eq]

theorem LinkState.retrained_count (x : LinkState) (now : Nat) (ok : Bool) :
    (x.retrained now ok).count = min (x.count + 1) 255 ∧ (x.count + 1 ≥ 255 → (x.retrained now ok).ovf = true) ∧
      (x.ovf = true → (x.retrained now ok).ovf = true) := by
  simp only [LinkState.retrained, satBump, Bool.or_eq_true, beq_iff_eq]
  exact ⟨rfl, fun h => .inr (min_eq_right h), .inl⟩

/-- Whether a die is fenced depends on the links' states alone. -/
theorem State.fenced_congr {s t : State} (hf : s.links.fm.state = t.links.fm.state) (hn : s.links.fn.state = t.links.fn.state)
    (hm : s.links.mn.state = t.links.mn.state) : s.fieldFenced = t.fieldFenced ∧ s.netFenced = t.netFenced := by
  rw [State.fieldFenced, State.netFenced, hf, hn, hm]
  exact ⟨rfl, rfl⟩

/-- A link that is not failed fences no die. -/
theorem State.fenced_set_up {s : State} {l : DieLink} {y : LinkState} (hx : (s.links.get l).state ≠ 2) (hy : y.state ≠ 2) :
    State.fieldFenced { s with links := s.links.set l y } = s.fieldFenced ∧
    State.netFenced { s with links := s.links.set l y } = s.netFenced := by
  have hx' := beq_false_of_ne hx
  have hy' := beq_false_of_ne hy
  cases l with
  | _ =>
    simp only [Links.get] at hx'
    simp only [State.fieldFenced, State.netFenced, Links.set, hx', hy', Bool.false_and, Bool.false_or, Bool.or_false,
      and_self]

/-- A failed link fences the dies that its state fences. -/
theorem State.fenced_set_failed (s : State) (l : DieLink) {y : LinkState} (hy : y.state = 2) :
    State.fieldFenced { s with links := s.links.set l y } = State.fieldFenced { s with links := s.links.set l { state := 2 } } ∧
    State.netFenced { s with links := s.links.set l y } = State.netFenced { s with links := s.links.set l { state := 2 } } := by
  cases l with
  | fm => exact State.fenced_congr hy rfl rfl
  | fn => exact State.fenced_congr rfl hy rfl
  | mn => exact State.fenced_congr rfl rfl hy

/-- The number of a link in a record. -/
def linkNumber : DieLink → Nat
  | .fm => 0
  | .fn => 1
  | .mn => 2

section RetrainDone

variable {s : State} {l : DieLink} {ok : Bool} (hx : (s.links.get l).state = 1 ∨ (s.links.get l).state = 3)
include hx

theorem State.linkRetrainDone_up (hy : ((s.links.get l).retrained s.now ok).state ≠ 2) (hf : s.fieldFenced = false)
    (hn : s.netFenced = false) :
    let y := (s.links.get l).retrained s.now ok
    let u := { s with links := s.links.set l y }
    s.linkRetrainDone l ok = if y.state = 1 then u else u.replayHeld l := by
  have hb : ((s.links.get l).state != 1 && (s.links.get l).state != 3) = false := by rcases hx with h | h <;> rw [h] <;> rfl
  have h2 : (s.links.get l).state ≠ 2 := by rcases hx with h | h <;> rw [h] <;> decide
  obtain ⟨hfu, hnu⟩ := State.fenced_set_up h2 hy
  intro y u
  unfold State.linkRetrainDone
  extract_lets x fieldWas netWas y' u' t2 t3 t4
  have e2 : t2 = u := if_neg (by rw [beq_false_of_ne (show y'.state ≠ 2 from hy)]; exact Bool.false_ne_true)
  have e3 : t3 = t2 := if_neg (by rw [e2, show u.fieldFenced = false from hfu.trans hf]; exact Bool.false_ne_true)
  have e4 : t4 = t3 := if_neg (by rw [e3, e2, show u.netFenced = false from hnu.trans hn]; exact Bool.false_ne_true)
  rw [e4, e3, e2]
  exact if_neg (by rw [hb]; exact Bool.false_ne_true)

theorem State.linkRetrainDone_fails (hy : ((s.links.get l).retrained s.now ok).state = 2)
    (hf : State.fieldFenced { s with links := s.links.set l { state := 2 } } = s.fieldFenced)
    (hn : State.netFenced { s with links := s.links.set l { state := 2 } } = s.netFenced) :
    s.linkRetrainDone l ok =
      State.replayHeld (State.log { s with links := s.links.set l ((s.links.get l).retrained s.now ok) } 0x1001 aonBase (linkNumber l))
        l := by
  have hb : ((s.links.get l).state != 1 && (s.links.get l).state != 3) = false := by rcases hx with h | h <;> rw [h] <;> rfl
  obtain ⟨hfu, hnu⟩ := s.fenced_set_failed l hy
  unfold State.linkRetrainDone
  extract_lets x fieldWas netWas y u t2 t3 t4
  have e2 : t2 = u.log 0x1001 aonBase (linkNumber l) := (if_pos (beq_iff_eq.mpr hy)).trans (by cases l <;> rfl)
  have hk : t2.links = u.links := by rw [e2]; exact State.log_links ..
  obtain ⟨hft, hnt⟩ : t2.fieldFenced = u.fieldFenced ∧ t2.netFenced = u.netFenced :=
    State.fenced_congr (by rw [hk]) (by rw [hk]) (by rw [hk])
  have e3 : t3 = t2 := if_neg (by rw [hft.trans (hfu.trans hf), Bool.and_not_self]; exact Bool.false_ne_true)
  have e4 : t4 = t3 := if_neg (by rw [e3, hnt.trans (hnu.trans hn), Bool.and_not_self]; exact Bool.false_ne_true)
  have hy1 : y.state ≠ 1 := by rw [show y.state = 2 from hy]; decide
  rw [e4, e3, e2, if_neg hy1]
  exact if_neg (by rw [hb]; exact Bool.false_ne_true)

end RetrainDone

theorem State.replayHeld_none {s : State} {l : DieLink} (h : ∀ x ∈ s.links.held, offLink x.2.1 ≠ some l) :
    s.replayHeld l = s := by
  have hm : ∀ x ∈ s.links.held, (offLink x.2.1 == some l) = false := fun x hx => beq_false_of_ne (h x hx)
  have h1 : s.links.held.filter (fun x => offLink x.2.1 == some l) = [] :=
    List.filter_eq_nil_iff.mpr fun x hx => ne_true_of_eq_false (hm x hx)
  have h2 : s.links.held.filter (fun x => !(offLink x.2.1 == some l)) = s.links.held :=
    List.filter_eq_self.mpr fun x hx => by rw [hm x hx]; rfl
  simp only [State.replayHeld, h1, h2, List.foldl_nil]

theorem State.replayHeld_write {s : State} {l : DieLink} {p : BusPath} {off : Nat} {v : Word} (hl : offLink off = some l)
    (h : s.links.held = [(p, off, some v, 4)]) :
    s.replayHeld l = State.busWrite { s with links := { s.links with held := [] } } p off v := by
  have hm : (offLink off == some l) = true := beq_iff_eq.mpr hl
  have h1 : s.links.held.filter (fun x => offLink x.2.1 == some l) = [(p, off, some v, 4)] := by
    rw [h, List.filter_singleton, hm]
    rfl
  have h2 : s.links.held.filter (fun x => !(offLink x.2.1 == some l)) = [] := by
    rw [h, List.filter_singleton, hm]
    rfl
  simp only [State.replayHeld, h1, h2, List.foldl_cons, List.foldl_nil]

/-! PLLs (R618, R640). -/

theorem State.pllUnlock_logged {s : State} {pll : Nat} (h : s.power.pllDown.any (fun p => p.1 == pll) = false) :
    s.pllUnlock pll =
      State.log { s with power := { s.power with pllDown := s.power.pllDown ++ [(pll, 0)] } } 0x1014 pwrBase pll :=
  if_neg (ne_true_of_eq_false h)

theorem State.pllRelock_locked {s : State} {pll n : Nat} (h : s.power.pllDown.find? (fun p => p.1 == pll) = some (pll, n))
    (hn : n < 16) (die : Nat) :
    let re := fun (x : LinkState) => if x.state = 0 then { x with state := 1 } else x
    s.pllRelock pll true die = { s with
      power := { s.power with pllDown := s.power.pllDown.filter (fun p => p.1 != pll), alignPending := true },
      links := { s.links with fm := if die = 0 ∨ die = 2 then re s.links.fm else s.links.fm,
                              fn := if die = 1 ∨ die = 2 then re s.links.fn else s.links.fn,
                              mn := if die = 0 ∨ die = 1 then re s.links.mn else s.links.mn } } := by
  have hn' : ¬ n ≥ 16 := Nat.not_le.mpr hn
  simp only [State.pllRelock, h, if_neg hn', if_true, Bool.or_eq_true, beq_iff_eq]
  by_cases h0 : die = 0
  · subst h0; rfl
  · by_cases h1 : die = 1
    · subst h1; rfl
    · by_cases h2 : die = 2
      · subst h2; rfl
      · simp only [h0, h1, h2, or_self, if_false]

theorem State.pllRelock_failed {s : State} {pll n : Nat} (h : s.power.pllDown.find? (fun p => p.1 == pll) = some (pll, n))
    (die : Nat) : s.pllRelock pll false die = if n ≥ 16 then s else { s with power := { s.power with
        pllDown := s.power.pllDown.map (fun p => if p.1 == pll then (p.1, p.2 + 1) else p) } } := by
  simp only [State.pllRelock, h, Bool.false_eq_true, if_false]

/-- Settles O15, by the states of the links and the branches of each command. -/
theorem dieLinksAndClocks : Obligations.DieLinksAndClocks := by
  unfold Obligations.DieLinksAndClocks
  refine ⟨fun s l => ⟨rfl, fun h => ?_⟩, fun x now ok => ?_, fun s l ok hx hy hf hn => ?_, fun s l ok hx hy hf hn => ?_,
    fun s l => ⟨State.replayHeld_none, fun p off v hl h => State.replayHeld_write hl h⟩, fun s pll h => ?_,
    fun s pll die n h hn => ?_, fun s pll die n h => ?_, fun s => ⟨_, rfl, rfl, rfl, rfl⟩, fun s => rfl⟩
  · rw [exec_flitError, State.flitError_retrains h]
  · obtain ⟨hc, ho, hk⟩ := x.retrained_count now ok
    exact ⟨hc, ho, hk, rfl, rfl, x.retrained_state now ok⟩
  · exact congrArg _ (State.linkRetrainDone_up hx hy hf hn)
  · refine congrArg _ ((State.linkRetrainDone_fails hx hy hf hn).trans ?_)
    cases l with
    | _ => rfl
  · rw [exec_pllUnlock, State.pllUnlock_logged h]
  · exact congrArg _ (State.pllRelock_locked h hn die)
  · rw [exec_pllRelock, State.pllRelock_failed h]

end Sys2Proof.Machine

namespace Sys2Proof.Machine

/-! ### The watchdog's configuration -/

theorem exec_aonWdtCfgWrite (v : Word) (s : State) : exec (.aonWdtCfgWrite v) s = .next (s.wdtCfgWrite v) := rfl
theorem exec_wdtProbe (f m n : Bool) (s : State) : exec (.wdtProbe f m n) s = .next (s.wdtProbe f m n) := rfl

theorem State.wdtCfgWrite_unlocked {s : State} (h : s.quoinSet 0 = false) (v : Word) :
    s.wdtCfgWrite v = if fld v 16 16 < 10 ∨ fld v 0 2 = 3 then s.log 0x0101 aonBase regAonWdtCfg
      else { s.plainWrite regAonWdtCfg v with power := { (s.plainWrite regAonWdtCfg v).power with
        wdtDeadline := if fld v 0 2 = 0 then none else some ((s.plainWrite regAonWdtCfg v).now + fld v 16 16 * 1000000),
        wdtProbeAt := (s.plainWrite regAonWdtCfg v).now + fld v 16 16 * 250000 } } := by
  simp only [State.wdtCfgWrite, h, Bool.false_eq_true, if_false, Bool.or_eq_true, decide_eq_true_eq, beq_iff_eq]

theorem State.wdtKick_restarts {s : State} (h : s.regFld regAonWdtCfg 0 2 = 1) :
    s.wdtKick 0x4B49434B = { s with power := { s.power with
      wdtWarned := false, wdtDeadline := some (s.now + s.regFld regAonWdtCfg 16 16 * 1000000) } } := by
  rw [State.wdtKick, if_pos rfl]
  exact if_pos (beq_iff_eq.mpr h)

theorem State.wdtKick_other {k : Word} (h : k ≠ 0x4B49434B) (s : State) : s.wdtKick k = s := if_neg h

theorem State.wdtProbe_quarter {s : State} (h : s.regFld regAonWdtCfg 0 2 = 2) (field media net : Bool) :
    s.wdtProbe field media net = { s with
      now := max s.now s.power.wdtProbeAt, power := { s.power with
        wdtProbeAt := max s.now s.power.wdtProbeAt + s.regFld regAonWdtCfg 16 16 * 1000000 / 4,
        wdtDeadline := if (field || s.fieldFenced) && media && (net || s.netFenced) then
            some (max s.now s.power.wdtProbeAt + s.regFld regAonWdtCfg 16 16 * 1000000)
          else s.power.wdtDeadline } } :=
  if_pos (beq_iff_eq.mpr h)

/-- Settles O18, by the branches of each command. -/
theorem watchdogIsSetAndFed : Obligations.WatchdogIsSetAndFed := by
  unfold Obligations.WatchdogIsSetAndFed
  refine ⟨fun s v h => ?_, fun s => ⟨fun h => ?_, fun k h => ?_⟩, fun s field media net h => ?_⟩
  · rw [exec_aonWdtCfgWrite, State.wdtCfgWrite_unlocked h]
  · rw [exec_wdtKick, State.wdtKick_restarts h]
  · rw [exec_wdtKick, State.wdtKick_other h]
  · rw [exec_wdtProbe, State.wdtProbe_quarter h]

end Sys2Proof.Machine

namespace Sys2Proof.Machine

/-! ### The limiter, the throttle and the trip

What these commands mean: each runs the state function of its instruction. -/

theorem exec_powerSample (total tiles : Nat) (s : State) : exec (.powerSample total tiles) s = .next (s.powerSample total tiles) := rfl
theorem exec_thermalSample (temps : List Nat) (s : State) : exec (.thermalSample temps) s = .next (s.thermalSample temps) := rfl
theorem exec_thermalTrip (d : Nat) (s : State) : exec (.thermalTrip d) s = .next (s.thermalTrip d) := rfl
theorem exec_tripPowerOff (s : State) : exec .tripPowerOff s = .next s.tripPowerOff := rfl
theorem exec_pwrConfigWrite (off : Nat) (v : Word) (s : State) : exec (.pwrConfigWrite off v) s = .next (s.pwrConfigWrite off v) := rfl

/-! The limiter (R631, R632, R633). -/

section PowerSample

variable {s : State} {total tiles : Nat}

theorem State.powerSample_burst (h : total ≥ s.regFld regPwrLimit 16 12) :
    s.powerSample total tiles = State.applyTileClock (State.limiterCut { s with power := { s.power with
      totalW := total, tilesW := tiles,
      overSamples := if total > s.regFld regPwrLimit 0 12 then s.power.overSamples + 1 else 0,
      limTicks := s.power.limTicks + 1 } }) :=
  congrArg State.applyTileClock (if_pos h)

theorem State.powerSample_sustained (hb : total < s.regFld regPwrLimit 16 12) (hs : total > s.regFld regPwrLimit 0 12)
    (ho : s.power.overSamples ≥ 999) :
    s.powerSample total tiles = State.applyTileClock (State.limiterCut { s with power := { s.power with
      totalW := total, tilesW := tiles, overSamples := s.power.overSamples + 1, limTicks := s.power.limTicks + 1 } }) := by
  have ho' : s.power.overSamples + 1 ≥ 1000 := Nat.succ_le_succ ho
  simp only [State.powerSample, if_neg (Nat.not_le.mpr hb), if_pos hs, if_pos ho']

theorem State.powerSample_rise (hb : total < s.regFld regPwrLimit 16 12) (hs : total ≤ s.regFld regPwrLimit 0 12)
    (hl : s.power.limMhz < 1600) (ht : s.power.limTicks ≥ 99)
    (hp : total * s.power.tileMhz + tiles * 50 ≤ s.regFld regPwrLimit 0 12 * s.power.tileMhz) :
    s.powerSample total tiles = State.applyTileClock { s with power := { s.power with
      totalW := total, tilesW := tiles, overSamples := 0, limTicks := 0, limMhz := min (s.power.limMhz + 50) 1600 } } := by
  have hr : (decide (s.power.limMhz < 1600) && decide (s.power.limTicks + 1 ≥ 100)) = true := by
    rw [decide_eq_true hl, decide_eq_true (Nat.succ_le_succ ht)]
    rfl
  simp only [State.powerSample, if_neg (Nat.not_le.mpr hb), if_neg (Nat.not_lt.mpr hs), if_neg (show ¬ 0 ≥ 1000 by decide), hr,
    if_true, if_pos hp]

end PowerSample

theorem State.limiterCut_logged {s : State} (h : s.power.limMhz ≠ 800) (hl : s.power.limitLoggedAt = none) :
    let u := (s.bump regPwrLimitEvents regPwrOvf 0).log 0x1013 pwrBase s.power.totalW
    s.limiterCut = { u with power := { s.power with limitLoggedAt := some s.now, limMhz := 800, limTicks := 0 } } := by
  simp only [State.limiterCut, if_neg h, State.bump_power, State.bump_now, hl, secondPassed, if_true, State.log_power,
    State.log_now]

theorem State.applyTileClock_eq (s : State) :
    let f := min (min s.power.limMhz s.power.thermMhz) (s.regFld regClkTile 16 11)
    s.applyTileClock = if f = s.power.tileMhz then s else
      { (s.bump regPwrDvfsEvents regPwrOvf 2) with power := { s.power with tileMhz := f, alignPending := true } } := by
  simp only [State.applyTileClock, State.bump_power]

/-! The throttle (R634, R635). -/

/-- A wake outside Idle and its entry changes nothing. -/
theorem State.wakeEvent_run {s : State} (h : s.power.state = .run) (c : WakeCause) : s.wakeEvent c = s := by
  rw [State.wakeEvent, h]
  exact ite_self s

/-- Counting and recording read nothing of the power state. -/
theorem State.bump_setPower (s : State) (p : Power) (off o b : Nat) :
    State.bump { s with power := p } off o b = { s.bump off o b with power := p } := by
  have e : State.reg { s with power := p } off = s.reg off := rfl
  simp only [State.bump, State.bumpBy, e]
  by_cases h : min ((s.reg off).toNat + 1) (2 ^ 32 - 1) = 2 ^ 32 - 1
  · simp only [if_pos h]; rfl
  · simp only [if_neg h]; rfl

theorem State.log_setPower (s : State) (p : Power) (st : Status) (b i0 i1 i2 d n : Nat) :
    State.log { s with power := p } st b i0 i1 i2 d n = { s.log st b i0 i1 i2 d n with power := p } := by
  simp only [State.log, State.logEntry_parts]

section ThermalSample

variable {s : State} {temps : List Nat}

theorem State.thermalSample_hot (h : (hottestOf 0 temps (0, 0)).1 ≥ 100) (ht : s.power.throttle = true) :
    s.thermalSample temps = State.applyTileClock { s with power := { s.power with
      hottest := (hottestOf 0 temps (0, 0)).1, sensor := (hottestOf 0 temps (0, 0)).2, thermTicks := 0, thermMhz := 800,
      hbmDouble := (List.range 6).foldl (fun (v : BitVec 6) i => setBit v i (decide (temps.getD (56 + i) 0 ≥ 95))) 0 } } := by
  have h95 : (hottestOf 0 temps (0, 0)).1 ≥ 95 := le_trans (by decide) h
  simp only [State.thermalSample, if_pos h95, if_pos h, ht, if_true]

theorem State.thermalSample_throttles (h95 : (hottestOf 0 temps (0, 0)).1 ≥ 95) (h100 : (hottestOf 0 temps (0, 0)).1 < 100)
    (ht : s.power.throttle = false) (hl : s.power.thermLoggedAt = none) (hr : s.power.state = .run) :
    let h := hottestOf 0 temps (0, 0)
    let u := (s.bump regPwrThermEvents regPwrOvf 1).log 0x1011 pwrBase h.1 h.2
    s.thermalSample temps = State.applyTileClock { u with power := { s.power with
      hottest := h.1, sensor := h.2, throttle := true, thermLoggedAt := some s.now, thermTicks := 0,
      thermMhz := max (s.power.thermMhz - 50) 800,
      hbmDouble := (List.range 6).foldl (fun (v : BitVec 6) i => setBit v i (decide (temps.getD (56 + i) 0 ≥ 95))) 0 } } := by
  simp only [State.thermalSample, if_pos h95, ht, Bool.false_eq_true, if_false, State.bump_setPower, hl, secondPassed, if_true,
    State.log_setPower]
  rw [State.wakeEvent_run (by exact hr)]
  simp only [if_neg (Nat.not_le.mpr h100), Bool.not_false, Bool.or_true, if_true, State.log_now, State.bump_now]

end ThermalSample

/-! The trip (R636, R646). -/

theorem State.thermalTrip_runs {s : State} (h : s.power.tripAt = none) (diode : Nat) :
    let u := s.fieldDieLost
    s.thermalTrip diode = State.lastGaspStart (State.emit { u with
      backup := { u.backup with tripped := true, tripDiode := diode % 16, tripPending := true },
      power := { u.power with tripAt := some u.now }, pins := { u.pins with thermtripN := false },
      field := {}, sync := {}, egress := {}, gnoz := { u.gnoz with started := false } } (.pin .thermtripN false)) :=
  if_neg (by rw [h]; decide)

theorem State.fieldDieLost_idle {s : State} (h : s.mgr.runs = []) : s.fieldDieLost = s := by
  rw [State.fieldDieLost, h]
  rfl

theorem State.lastGaspStart_run {s : State} (ha : s.media.lgActive = false) (hd : s.media.lgDone = false)
    (h : s.power.state = .run) : s.lastGaspStart = { s with media := { s.media with lgActive := true } } := by
  rw [State.lastGaspStart, ha, hd, Bool.or_self, if_neg Bool.false_ne_true]
  exact State.wakeEvent_run (s := { s with media := { s.media with lgActive := true } }) h .pwrFail

theorem State.tripPowerOff_runs {s : State} {t0 : Nat} (h : s.power.tripAt = some t0) (hm : s.power.mainOff = false) :
    s.tripPowerOff = State.emit { s with
      now := if s.media.lgDone then s.now else max s.now (t0 + 30000000),
      power := { s.power with mainOff := true }, pins := { s.pins with mainPwrEn := false } } (.pin .mainPwrEn false) := by
  rw [State.tripPowerOff, h]
  cases hd : s.media.lgDone with
  | true => simp only [State.lastGaspDone, hd, if_true, hm, Bool.false_eq_true, if_false]
  | false => simp only [State.lastGaspDone, hd, Bool.false_eq_true, if_false, State.advance_power, hm]; rfl

/-! The configuration words (R646, R647). -/

section Config

variable {s : State} {v : Word}

theorem State.pwrConfigWrite_doze (s : State) (v : Word) : s.pwrConfigWrite regPwrDozeDelay v =
    if 10 ≤ fld v 0 20 ∧ fld v 0 20 ≤ 1000000 then s.plainWrite regPwrDozeDelay v else s.log 0x0101 pwrBase regPwrDozeDelay :=
  if_pos rfl

theorem State.pwrConfigWrite_limit (h : s.quoinSet 3 = false) : s.pwrConfigWrite regPwrLimit v =
    if 1000 ≤ fld v 0 12 ∧ fld v 0 12 ≤ 2800 ∧ fld v 0 12 ≤ fld v 16 12 ∧ fld v 16 12 ≤ 3100 then s.plainWrite regPwrLimit v
    else s.log 0x0101 pwrBase regPwrLimit := by
  rw [State.pwrConfigWrite, if_neg (by decide), h, if_neg Bool.false_ne_true, if_pos rfl]

theorem State.pwrConfigWrite_cap (h : s.quoinSet 3 = false) : s.pwrConfigWrite regClkTile v =
    if 800 ≤ fld v 16 11 ∧ fld v 16 11 ≤ 1600 ∧ fld v 16 11 % 50 = 0 then (s.plainWrite regClkTile v).applyTileClock
    else s.log 0x0101 pwrBase regClkTile := by
  rw [State.pwrConfigWrite, if_neg (by decide), h, if_neg Bool.false_ne_true, if_neg (by decide), if_pos rfl]

end Config

/-- Settles O19, by the branches of each command. -/
theorem powerAndThermalLimits : Obligations.PowerAndThermalLimits := by
  unfold Obligations.PowerAndThermalLimits
  refine ⟨fun s total tiles h => congrArg _ (State.powerSample_burst h), fun s total tiles hb hs ho => ?_,
    fun s total tiles hb hs hl ht hp => ?_, fun s h hl => State.limiterCut_logged h hl, fun s => s.applyTileClock_eq, fun s temps h ht => ?_,
    fun s temps h95 h100 ht hl hr => congrArg _ (State.thermalSample_throttles h95 h100 ht hl hr),
    fun s diode h => congrArg _ (State.thermalTrip_runs h diode), fun s diode h hr hm ha hd h12 => ?_, fun s t0 h hm => ?_,
    fun s v => ⟨fun h1 h2 => ?_, fun h => ?_, fun hq h1 h2 h3 h4 => ?_, fun hq h => ?_⟩, fun s v hq => ⟨fun h => ?_, fun h => ?_⟩⟩
  · rw [exec_powerSample, State.powerSample_sustained hb hs ho]
  · rw [exec_powerSample, State.powerSample_rise hb hs hl ht hp]
  · rw [exec_thermalSample, State.thermalSample_hot h ht]
  · rw [exec_thermalTrip, State.thermalTrip_runs h, State.fieldDieLost_idle hm, Nat.mod_eq_of_lt (by omega : diode < 16)]
    exact congrArg _ (State.lastGaspStart_run ha hd hr)
  · rw [exec_tripPowerOff, State.tripPowerOff_runs h hm]
  · rw [exec_pwrConfigWrite, State.pwrConfigWrite_doze, if_pos ⟨h1, h2⟩]
  · rw [exec_pwrConfigWrite, State.pwrConfigWrite_doze, if_neg (by omega)]
  · rw [exec_pwrConfigWrite, State.pwrConfigWrite_limit hq, if_pos ⟨h1, h2, h3, h4⟩]
  · rw [exec_pwrConfigWrite, State.pwrConfigWrite_limit hq, if_neg (by omega)]
  · rw [exec_pwrConfigWrite, State.pwrConfigWrite_cap hq, if_pos h]
  · rw [exec_pwrConfigWrite, State.pwrConfigWrite_cap hq, if_neg h]

end Sys2Proof.Machine

namespace Sys2Proof.Machine

/-! ### Reads of a namespace, and the correction tiers

What these commands mean: each runs the state function of its instruction. -/

theorem exec_read (p : ReqPath) (nsid lba count len : Nat) (s : State) :
    exec (.read p nsid lba count len) s = .next (s.mediaRead p nsid lba count len) := rfl
theorem exec_nandReadComplete (pma : Nat) (r : NandResult) (s : State) :
    exec (.nandReadComplete pma r) s = .next (s.nandReadComplete pma r) := rfl
theorem exec_patrolRead (b : Nat) (rs : List (Nat × NandResult)) (s : State) :
    exec (.patrolRead b rs) s = .next (s.patrolRead b rs) := rfl

/-! A namespace of the part alone is no group's. -/

section NotMember

variable {s : State} {nsid : Nat} (h : s.memberNs nsid = false)
include h

theorem State.groupNs_of_not_member : s.groupNs nsid = none :=
  List.find?_eq_none.mpr fun g hg hn => by
    rw [State.memberNs, List.any_eq_false] at h
    exact h g hg hn

theorem State.nsSeen_of_not_member : s.nsSeen nsid = s.nsInfo nsid := by
  rw [State.nsSeen, State.groupNs_of_not_member h]
  exact Option.map_id'

theorem State.pmaSeen_of_not_member (u : Nat) : s.pmaSeen nsid u = s.pmaOf nsid u := by
  rw [State.pmaSeen, h, if_neg Bool.false_ne_true]

theorem State.countReconstructs_of_not_member (addr len : Nat) : s.countReconstructs nsid addr len = s := by
  refine if_pos ?_
  rw [State.reconstructs, h, if_neg Bool.false_ne_true]

end NotMember

/-! READ (R115, R116, R118). -/

/-- The pages that a read must wait for. -/
def State.pagesWaited (s : State) (nsid lba count : Nat) : List Nat :=
  ((unitsTouched lba count).filterMap (fun u => s.pmaOf nsid u)).eraseDups.filter (fun x => !s.media.buffered.contains x)

theorem State.mediaRead_granted {s : State} {nsid lba count : Nat} {ns : NsInfo} (hs : s.mediaStopped = false)
    (hg : s.mediaGate = none) (hm : s.memberNs nsid = false) (hn : s.nsInfo nsid = some ns) (hc : 1 ≤ count ∧ count ≤ 4096)
    (hl : lba + count ≤ ns.cap * 4) (p : ReqPath) :
    let r : PendingRead := { path := p, nsid := nsid, lba := lba, count := count, waiting := s.pagesWaited nsid lba count }
    s.mediaRead p nsid lba count (count * 4096) = if r.waiting.isEmpty then s.finishRead r
      else { s with media := { s.media with reads := s.media.reads ++ [r] } } := by
  have hc' : ¬ (count = 0 ∨ count > 4096 ∨ count * 4096 ≠ count * 4096) := by omega
  have hl' : ¬ lba + count > ns.cap * 4 := Nat.not_lt.mpr hl
  have hp : (fun u => s.pmaSeen nsid u) = fun u => s.pmaOf nsid u := funext (State.pmaSeen_of_not_member hm)
  simp only [State.mediaRead, hs, hg, State.nsSeen_of_not_member hm, hn, hm, Bool.false_eq_true, if_false, if_neg hc', if_neg hl',
    hp, Bool.false_and, Bool.not_false, Bool.and_true, State.pagesWaited]
  rfl

/-- Pages that the protected region holds are not waited for. -/
theorem State.pagesWaited_buffered {s : State} {nsid lba count : Nat}
    (h : ∀ u ∈ unitsTouched lba count, ∀ x, s.pmaOf nsid u = some x → x ∈ s.media.buffered) : s.pagesWaited nsid lba count = [] := by
  refine List.filter_eq_nil_iff.mpr fun x hx => ?_
  rw [List.mem_eraseDups, List.mem_filterMap] at hx
  obtain ⟨u, hu, hp⟩ := hx
  simpa using h u hu x hp

theorem State.finishRead_read {s : State} {r : PendingRead} (hw : r.write = none)
    (hr : s.nsReadable r.nsid (r.lba * 4096) (r.count * 4096) = true) (hm : s.memberNs r.nsid = false) :
    s.finishRead r =
      (s.healthBump 0 r.count).replyData r.path 0 0 [] ((s.healthBump 0 r.count).blocksBytes r.nsid r.lba r.count) := by
  have hm' : (s.healthBump 0 r.count).memberNs r.nsid = false := hm
  simp only [State.finishRead, hw, hr, if_true, State.countReconstructs_of_not_member hm']

theorem State.finishRead_unreadable {s : State} {r : PendingRead} (hw : r.write = none)
    (hr : s.nsReadable r.nsid (r.lba * 4096) (r.count * 4096) = false) (hp : ∀ c, r.path ≠ .stream c) :
    s.finishRead r = s.reply r.path 0x0201 := by
  simp only [State.finishRead, hw, hr, Bool.false_eq_true, if_false]

/-- The read that waited for only this page ends. -/
theorem State.pageArrived_last {s : State} {pma : Nat} {x : PendingRead} (h : s.media.reads = [x]) (hx : x.waiting = [pma]) :
    s.pageArrived pma = State.finishRead { s with media := { s.media with reads := [] } } { x with waiting := [] } := by
  have hw : x.waiting.filter (· != pma) = [] := by rw [hx]; simp
  simp only [State.pageArrived, h, List.map_cons, List.map_nil, hw]
  rfl

/-! The tiers (R110, R116, R117, R135). -/

theorem State.codewordTier_own {s : State} {pma i : Nat} (hl : s.media.lost.contains (pmaTarget pma) = false)
    (hk : s.keyOk pma = true) (hb : s.nand.badBlocks.contains (pma * 4 + i) = false) (r : NandResult) :
    let ok := fun t => cwAccepted (s.codewordCrc pma i) ((r.codewords.getD i []).getD (t - 1) .miss)
    s.codewordTier pma r i = if ok 1 then 1 else if ok 2 && !s.media.noTier2.contains (pmaTarget pma) then 2 else if ok 3 then 3
      else if s.parityCovers pma && r.parityOk then 4 else if s.memberPage pma && r.groupOk then 5 else 0 := by
  simp only [State.codewordTier, hl, hk, hb, Bool.not_false, Bool.and_self, Bool.true_and, Bool.and_true]

theorem State.queueRelocate_contains (s : State) (block : Nat) : (s.queueRelocate block).media.relocate.contains block = true := by
  rw [State.queueRelocate]
  split
  · next h => exact h
  · simp

theorem State.pageTiers_length (s : State) (pma : Nat) (r : NandResult) : (s.pageTiers pma r).length = 4 := by
  rw [State.pageTiers, List.length_map, List.length_range]

/-! What a page read counts (R116, R118, R119). -/

section CountPage

variable {s : State} {pma : Nat} {r : NandResult}

/-- The codewords that tier 1 corrected. -/
def State.firstTier (s : State) (pma : Nat) (r : NandResult) : Nat :=
  ((List.range 4).filter (fun i => (s.pageTiers pma r).getD i 0 == 1 && cwCorrected r i)).length

/-- The counts of a page read. -/
def State.countTiers (s : State) (pma : Nat) (r : NandResult) : State :=
  ((s.healthBump 3 (s.firstTier pma r)).healthBump 4 ((s.pageTiers pma r).count 2)).healthBump 5 ((s.pageTiers pma r).count 3)

theorem State.countPage_first (h : s.pageTiers pma r = [1, 1, 1, 1]) : s.countPage pma r = s.countTiers pma r := by
  unfold State.countPage State.countTiers State.firstTier
  rw [h]
  rfl

theorem State.countPage_failed (h : s.pageTiers pma r = [0, 0, 0, 0]) :
    s.countPage pma r = (s.countTiers pma r).uncorrectable pma [0, 1, 2, 3] := by
  unfold State.countPage State.countTiers State.firstTier
  rw [h]
  rfl

/-- A codeword at tier 2 or 3 queues the block, and none fails. -/
theorem State.countPage_relocates (h : ∀ t ∈ s.pageTiers pma r, t = 1 ∨ t = 2 ∨ t = 3) (hn : s.pageTiers pma r ≠ [1, 1, 1, 1]) :
    s.countPage pma r = (s.countTiers pma r).queueRelocate ((s.countTiers pma r).blockOf pma) := by
  have hl := s.pageTiers_length pma r
  have h4 : (s.pageTiers pma r).contains 4 = false := by
    rw [← Bool.not_eq_true, List.contains_iff_mem]
    exact fun hm => absurd (h 4 hm) (by decide)
  have h5 : (s.pageTiers pma r).contains 5 = false := by
    rw [← Bool.not_eq_true, List.contains_iff_mem]
    exact fun hm => absurd (h 5 hm) (by decide)
  have h2 : (s.pageTiers pma r).any (fun t => decide (t ≥ 2)) = true := by
    rw [← Bool.not_eq_false, List.any_eq_false]
    refine fun ha => hn ?_
    refine List.eq_replicate_iff.mpr ⟨hl, fun t ht => (h t ht).resolve_right fun h23 => ha t ht ?_⟩
    rw [decide_eq_true_eq]
    omega
  have hf : (List.range 4).filter (fun i => (s.pageTiers pma r).getD i 0 == 0) = [] := by
    refine List.filter_eq_nil_iff.mpr fun i hi h0 => ?_
    have hi' : i < (s.pageTiers pma r).length := hl ▸ List.mem_range.mp hi
    have h0' : (s.pageTiers pma r)[i] = 0 := by
      rw [← List.getD_eq_getElem _ 0 hi']
      exact beq_iff_eq.mp h0
    have := h _ (List.getElem_mem hi')
    omega
  unfold State.countPage State.countTiers State.firstTier
  simp only [h4, h5, h2, hf, Bool.false_eq_true, if_false, if_true, List.isEmpty_nil]

end CountPage

/-! Codewords that failed every tier (R118). -/

theorem State.uncorrectable_unit {s : State} {pma ns u : Nat} (h : s.unitAt pma = some (ns, u)) (idx : List Nat) :
    s.uncorrectable pma idx =
      (State.healthBump { s with nand := { s.nand with badBlocks := addNew s.nand.badBlocks (idx.map (fun i => pma * 4 + i)) } }
        8 1).log 0x0201 medBase (u * 4 + idx.headD 0) pma 0 0 ns := by
  have h' : (State.healthBump { s with nand := { s.nand with
      badBlocks := addNew s.nand.badBlocks (idx.map (fun i => pma * 4 + i)) } } 8 1).unitAt pma = some (ns, u) := h
  simp only [State.uncorrectable, h']

theorem State.uncorrectable_badBlocks (s : State) (pma : Nat) (idx : List Nat) :
    (s.uncorrectable pma idx).nand.badBlocks = addNew s.nand.badBlocks (idx.map (fun i => pma * 4 + i)) := by
  simp only [State.uncorrectable]
  split
  · rw [State.log_nand_badBlocks]; rfl
  · rw [State.log_nand_badBlocks]; rfl

theorem addNew_contains {l new : List Nat} {x : Nat} (h : x ∈ new) : (addNew l new).contains x = true := by
  rw [addNew, List.contains_iff_mem, List.mem_append, List.mem_filter]
  by_cases hx : x ∈ l
  · exact .inl hx
  · exact .inr ⟨h, by simpa using hx⟩

/-- Settles O24, by the pages a read waits for, the tiers in their order, and what their list counts. -/
theorem mediaReadsAndCorrection : Obligations.MediaReadsAndCorrection := by
  unfold Obligations.MediaReadsAndCorrection
  refine ⟨fun s p nsid lba count ns hs hg hm hn hc hl hb hr => ?_, fun s p nsid lba count ns hs hg hm hn hc hl hw => ?_,
    fun s p nsid lba count len hs => ⟨fun st hg => ?_, fun hg hn => ?_⟩,
    fun s pma i r hl hk hb => ?_, fun s pma r => ⟨State.countPage_first, State.countPage_relocates, State.countPage_failed⟩,
    fun s pma r h => ?_, fun s pma x h hx => ⟨State.pageArrived_last h hx, fun p nsid lba count he hp hr => ?_⟩,
    fun s pma idx => ⟨fun i hi => ?_, fun ns u h => State.uncorrectable_unit h idx⟩, fun s block rs hb hs hp => ⟨?_, rfl⟩,
    fun s block => s.queueRelocate_contains block⟩
  · have hw := State.pagesWaited_buffered hb
    rw [exec_read, State.mediaRead_granted hs hg hm hn hc hl p]
    simp only [hw, List.isEmpty_nil, if_true]
    exact congrArg _ (State.finishRead_read rfl hr hm)
  · have hw' : (s.pagesWaited nsid lba count).isEmpty = false := by
      rw [Bool.eq_false_iff, Ne, List.isEmpty_iff]
      exact hw
    rw [exec_read, State.mediaRead_granted hs hg hm hn hc hl p]
    simp only [hw', Bool.false_eq_true, if_false]
    rfl
  · simp only [exec_read, State.mediaRead, hs, hg, Bool.false_eq_true, if_false]
    rfl
  · have hn' : s.nsSeen nsid = none := by rw [State.nsSeen, hn]; rfl
    simp only [exec_read, State.mediaRead, hs, hg, hn', Bool.false_eq_true, if_false]
    rfl
  · have ht := State.codewordTier_own hl hk hb r
    dsimp only at ht ⊢
    refine ⟨fun h1 => ?_, fun h1 h2 hn => ?_, fun h1 h2 h3 => ?_, fun h1 h2 h3 hc ho => ?_, fun h1 h2 h3 hc hm => ?_⟩
    · simp only [ht, h1, if_true]
    · simp only [ht, h1, h2, hn, Bool.false_eq_true, if_false, Bool.not_false, Bool.and_self, if_true]
    · simp only [ht, h1, h2, h3, Bool.false_and, Bool.false_eq_true, if_false, if_true]
    · simp only [ht, h1, h2, h3, hc, ho, Bool.false_and, Bool.false_eq_true, if_false, Bool.and_self, if_true]
    · simp only [ht, h1, h2, h3, hc, hm, Bool.false_and, Bool.false_eq_true, if_false]
  · rw [exec_nandReadComplete, State.nandReadComplete, if_pos h]
  · subst he
    rw [State.pageArrived_last h rfl]
    exact State.finishRead_unreadable rfl hr hp
  · rw [State.uncorrectable_badBlocks]
    exact addNew_contains (List.mem_map.mpr ⟨i, hi, rfl⟩)
  · rw [exec_patrolRead, State.patrolRead, hb, hs]
    exact congrArg _ (if_pos (by rw [beq_iff_eq.mpr hp]; rfl))

end Sys2Proof.Machine

namespace Sys2Proof.Machine

/-! ### Writes, Discards and Flushes

What these commands mean: each runs the state function of its instruction. -/

theorem exec_discard (p : ReqPath) (nsid lba count : Nat) (s : State) :
    exec (.discard p nsid lba count) s = .next (s.mediaDiscard p nsid lba count) := rfl
theorem exec_flush (p : ReqPath) (nsid : Nat) (s : State) : exec (.flush p nsid) s = .next (s.mediaFlush p nsid) := rfl
theorem exec_flushComplete (s : State) : exec .flushComplete s = .next s.flushComplete := rfl
theorem exec_pageProgramDone (pmas : List Nat) (s : State) :
    exec (.pageProgramDone pmas) s = .next (s.pageProgramDone pmas) := rfl

/-! WRITE (R125, R130). -/

section Write

variable {s : State} {nsid lba : Nat} {data : List Byte} {pl : Placement}

/-- A Write whose room and places are there is admitted: it ends, or waits for the pages that its merges read. -/
theorem State.mediaWrite_admitted {p : ReqPath} (hs : s.mediaStopped = false) (ha : s.admissionHeld = false)
    (hm : s.memberNs nsid = false) (hr : s.roomFor (unitsTouched lba (data.length / 4096)).length = true)
    (hd : data.length % 4096 = 0 ∧ 4096 ≤ data.length ∧ data.length ≤ 16777216)
    (hw : s.writeRefusal p nsid lba (data.length / 4096) = none) (hp : (s.openBands false pl.bands).placesOk pl.pmas = true)
    (hl : pl.pmas.length = (unitsTouched lba (data.length / 4096)).length) (fua : Bool) :
    let u := s.openBands false pl.bands
    let w : PendingWrite := { data := data, pmas := pl.pmas, fua := fua }
    let wait := u.mergeReads nsid lba (data.length / 4096)
    s.mediaWrite p nsid lba data pl fua = if wait.isEmpty then u.endWrite p nsid lba w
      else { u with media := { u.media with reads := u.media.reads ++
        [{ path := p, nsid := nsid, lba := lba, count := data.length / 4096, waiting := wait, write := some w }] } } := by
  have hg : (s.mediaStopped || s.admissionHeld || !s.roomFor (unitsTouched lba (data.length / 4096)).length || s.memberNs nsid) =
      false := by
    rw [hs, ha, hr, hm]
    rfl
  have hc : ¬ (data.length / 4096 = 0 ∨ data.length / 4096 > 4096 ∨ data.length % 4096 ≠ 0) := by omega
  simp only [State.mediaWrite, hg, Bool.false_eq_true, if_false, if_neg hc, hw, hp, hl, beq_self_eq_true, Bool.and_self, if_true]

/-- The state that a Write leaves when every unit has been placed. -/
def State.written (s : State) (nsid lba : Nat) (data : List Byte) (pmas : List Nat) : State :=
  ((s.placeAll nsid lba data (unitsTouched lba (data.length / 4096)) pmas).healthBump 1 (data.length / 4096)).waitsFor pmas

theorem State.endWrite_good {p : ReqPath} {w : PendingWrite}
    (h : ∀ u ∈ unitsTouched lba (w.data.length / 4096), s.keptBad nsid lba (w.data.length / 4096) u = false) :
    s.endWrite p nsid lba w = (let u := s.written nsid lba w.data w.pmas
      if w.fua then State.pushTail { u with media := { u.media with waits := u.media.waits ++
        [{ path := p, kind := .flush, units := w.pmas, entries := u.media.appended }] } }
      else u.reply p 0) := by
  have hk : (unitsTouched lba (w.data.length / 4096)).any (fun u => s.keptBad nsid lba (w.data.length / 4096) u) = false :=
    List.any_eq_false.mpr fun u hu => ne_true_of_eq_false (h u hu)
  exact if_neg (ne_true_of_eq_false hk)

end Write

/-- The refusals of a Write, in their order: range, seal, wear. -/
theorem State.writeRefusal_found {s : State} {nsid : Nat} {ns : NsInfo} (hg : s.mediaGate = none) (hn : s.nsInfo nsid = some ns)
    (p : ReqPath) (lba count : Nat) :
    (lba + count > ns.cap * 4 → s.writeRefusal p nsid lba count = some 0x0301) ∧
    (lba + count ≤ ns.cap * 4 → ns.isSealed = true → s.writeRefusal p nsid lba count = some 0x0303) ∧
    (lba + count ≤ ns.cap * 4 → ns.isSealed = false → s.media.health.worn = true →
      s.writeRefusal p nsid lba count = some 0x0307) := by
  unfold State.writeRefusal
  rw [hg, hn]
  refine ⟨fun hl => if_pos hl, fun hl hs => ?_, fun hl hs hw => ?_⟩
  · exact (if_neg (Nat.not_lt.mpr hl)).trans (if_pos hs)
  · exact (if_neg (Nat.not_lt.mpr hl)).trans ((if_neg (ne_true_of_eq_false hs)).trans (if_pos hw))

/-! DISCARD (R127). -/

theorem State.mediaDiscard_granted {s : State} {p : ReqPath} {nsid lba count : Nat}
    (hs : (s.mediaStopped || s.admissionHeld || s.memberNs nsid) = false) (hc : 1 ≤ count ∧ count ≤ 16777216)
    (hw : s.writeRefusal p nsid lba count = none) :
    let first := (lba + 3) / 4
    let n := (lba + count) / 4 - first
    s.mediaDiscard p nsid lba count = (s.journalDiscard nsid first (n / 65535 + 1) n).reply p 0 := by
  obtain ⟨hs, hm⟩ := Bool.or_eq_false_iff.mp hs
  have hc' : ¬ (count = 0 ∨ count > 16777216) := by omega
  simp only [State.mediaDiscard, hs, hm, Bool.false_eq_true, if_false, if_neg hc', hw]

/-- A run that one entry holds is journaled by that entry. -/
theorem State.journalDiscard_single {n : Nat} (h : 1 ≤ n ∧ n ≤ 65535) (s : State) (ns u : Nat) :
    s.journalDiscard ns u (n / 65535 + 1) n = s.journal (.discard ns u n) := by
  obtain ⟨m, rfl⟩ : ∃ m, n = m + 1 := ⟨n - 1, by omega⟩
  have hz (t : State) (l f : Nat) : t.journalDiscard ns l f 0 = t := by cases f <;> rfl
  rw [State.journalDiscard, min_eq_left h.2, Nat.sub_self, hz]

theorem natGet_filter {m : List (Nat × Nat)} {f : Nat × Nat → Bool} {k : Nat} (h : ∀ v, f (k, v) = false) :
    natGet (m.filter f) k = none := by
  induction m with
  | nil => rfl
  | cons x rest ih =>
    obtain ⟨a, b⟩ := x
    rw [List.filter_cons]
    split
    · next hf =>
      have hk : k ≠ a := fun e => absurd (h b) (by rw [e, hf]; decide)
      rw [natGet, if_neg hk, ih]
    · exact ih

theorem State.pmaOf_discarded (s : State) {ns u n v : Nat} (h : u ≤ v ∧ v < u + n) :
    (s.journal (.discard ns u n)).pmaOf ns v = none := by
  rw [State.pmaOf, State.journal_image]
  refine natGet_filter fun x => ?_
  have h1 : ¬ mapKey ns v < mapKey ns u := by unfold mapKey; omega
  have h2 : ¬ mapKey ns (u + n) ≤ mapKey ns v := by unfold mapKey; omega
  rw [decide_eq_false h1, decide_eq_false h2]
  rfl

/-! FLUSH and its end (R130, R136). -/

theorem State.mediaFlush_granted {s : State} {nsid : Nat} (hs : s.mediaStopped = false) (hg : s.mediaGate = none)
    (hn : nsid = 0xFFFFFFFF ∨ (s.nsInfo nsid).isSome = true) (p : ReqPath) :
    s.mediaFlush p nsid = State.pushTail { s with media := { s.media with waits := s.media.waits ++
      [{ path := p, kind := .flush, units := s.media.buffered, entries := s.media.appended }] } } := by
  have hn' : ¬ (nsid ≠ 0xFFFFFFFF ∧ (s.nsInfo nsid).isNone = true) := by
    rintro ⟨h1, h2⟩
    rw [Option.isNone_iff_eq_none] at h2
    rw [h2] at hn
    exact hn.elim h1 (by decide)
  simp only [State.mediaFlush, hs, hg, Bool.false_eq_true, if_false, if_neg hn']

theorem State.flushComplete_durable {s : State} {w : DurWait} (h : s.media.waits = [w]) (hk : w.kind = .flush)
    (hd : s.durable w = true) :
    s.flushComplete = State.reply { s with media := { s.media with waits := [] } } w.path 0 := by
  simp only [State.flushComplete, State.settle, h, List.filter_cons, hk, hd, beq_self_eq_true, Bool.and_self, if_true,
    Bool.not_true, Bool.false_eq_true, if_false, List.filter_nil, List.foldl_cons, List.foldl_nil]

theorem State.flushComplete_waits {s : State} {w : DurWait} (h : s.media.waits = [w]) (hd : s.durable w = false) :
    s.flushComplete = s := by
  have e : { s with media := { s.media with waits := [w] } } = s := by rw [← h]
  simp only [State.flushComplete, State.settle, h, List.filter_cons, hd, Bool.and_false, Bool.false_eq_true, if_false,
    Bool.not_false, if_true, List.filter_nil, List.foldl_nil]
  exact e

/-! PAGE_PROGRAM_DONE (R132). -/

theorem State.pageProgrammed_open {s : State} {pma : Nat} {b : Band} (h : s.media.image.bands = [b])
    (hb : b.state = .opened ∧ b.blocks.contains (s.blockOf pma) = true ∧ b.programmed.contains pma = false)
    (ha : s.accumulators < 512) :
    s.pageProgrammed pma = State.healthBump { s with media := { s.media with
      image := { s.media.image with bands := [b.program s.media.geometry pma] },
      buffered := s.media.buffered.filter (· != pma) } } 2 1 := by
  obtain ⟨ho, hc, hp⟩ := hb
  have hm : (b.state == .opened && b.blocks.contains (s.blockOf pma) && !b.programmed.contains pma) = true := by
    rw [ho, hc, hp]
    rfl
  have hp' : s.pageProgrammed pma = s.programPage pma := if_pos (by rw [decide_eq_true ha, Bool.or_true])
  simp only [hp', State.programPage, h, List.any_cons, List.any_nil, hm, Bool.or_false, if_true, List.map_cons, List.map_nil]

/-- Settles O25, by the branches of each command and the entries they journal. -/
theorem mediaWritesAndFlush : Obligations.MediaWritesAndFlush := by
  unfold Obligations.MediaWritesAndFlush
  refine ⟨fun s p nsid lba data pl hs ha hm hr hd hw hp hl hg hk => ?_, fun s p nsid lba data pl fua hs ha hm hr hd hw hp hl hg => ?_,
    fun s p nsid lba count ns hg hn => State.writeRefusal_found hg hn p lba count, fun s p nsid lba count hs hc hw => ?_,
    fun s ns u n v hn hv _ => ?_, fun s p nsid hs hg hn => ?_, fun s w h hk hd => ?_, fun s w h hd => ?_,
    fun s pma b hb h ho ha => ⟨?_, State.pageProgrammed_open h ho ha⟩⟩
  · have hrun (fua : Bool) : s.mediaWrite p nsid lba data pl fua = _ :=
      (State.mediaWrite_admitted hs ha hm hr hd hw hp hl fua).trans (if_pos (List.isEmpty_iff.mpr hg))
    rw [exec_write, exec_write, hrun false, hrun true, State.endWrite_good hk, State.endWrite_good hk]
    exact ⟨rfl, rfl⟩
  · have hg' : ¬ ((s.openBands false pl.bands).mergeReads nsid lba (data.length / 4096)).isEmpty = true :=
      fun h => hg (List.isEmpty_iff.mp h)
    exact congrArg _ ((State.mediaWrite_admitted hs ha hm hr hd hw hp hl fua).trans (if_neg hg'))
  · exact congrArg _ (State.mediaDiscard_granted hs hc hw)
  · rw [State.journalDiscard_single hn, State.pmaOf_discarded s hv]
  · rw [exec_flush, State.mediaFlush_granted hs hg hn]
  · rw [exec_flushComplete, State.flushComplete_durable h hk hd]
  · rw [exec_flushComplete, State.flushComplete_waits h hd]
  · rw [exec_pageProgramDone, State.pageProgramDone, List.filter_singleton, hb]
    rfl

end Sys2Proof.Machine

namespace Sys2Proof.Machine

/-! ### Bands, blocks and targets

What these commands mean: each runs the state function of its instruction. -/

theorem exec_bandVerifyDone (id : Nat) (weak : List WeakPage) (s : State) :
    exec (.bandVerifyDone id weak) s = .next (s.bandVerifyDone id weak) := rfl
theorem exec_programFail (pma : Nat) (dests : List Nat) (s : State) :
    exec (.programFail pma dests) s = .next (s.programFail pma dests) := rfl
theorem exec_eraseFail (block : Nat) (s : State) : exec (.eraseFail block) s = .next (s.eraseFail block) := rfl
theorem exec_targetLost (c t : Nat) (s : State) : exec (.targetLost c t) s = .next (s.targetLost c t) := rfl

/-! The read-back of a band (R133). -/

/-- What becomes of a parity block whose bands are all verified. -/
def State.freeParity (s : State) (parity : Nat) : State :=
  { s with nand := { s.nand with
    freeBlocks := s.nand.freeBlocks ++ [parity],
    eraseCounts := natSet s.nand.eraseCounts parity ((s.nand.eraseCounts.find? (fun e => e.1 == parity)).elim 0 (·.2) + 1) } }

theorem State.bandVerifyDone_runs {s : State} {id : Nat} {b : Band} {weak : List WeakPage}
    (hb : s.media.image.bands.find? (fun x => x.id == id) = some b) (hu : b.state = .unverified) (hs : s.mediaStopped = false)
    (hv : s.verifyOk b weak = true) :
    let x := weak.foldl (fun s w => s.settlePage w) s
    let u := State.journal { x with media := { x.media with
      buffered := x.media.buffered.filter (fun p => !b.blocks.contains (x.blockOf p)) } } (.bandVerified id)
    s.bandVerifyDone id weak = State.settle (State.checkWornExit (State.spareChanged
      (if u.media.image.bands.all (fun x => x.parity != b.parity || x.state == .verified) then u.freeParity b.parity else u))) true := by
  have hg : (b.state != .unverified || s.mediaStopped || !s.verifyOk b weak) = false := by
    rw [hu, hs, hv]
    rfl
  simp only [State.bandVerifyDone, hb, hg, Bool.false_eq_true, if_false]
  rfl

@[simp] theorem State.uncorrectable_image (s : State) (pma : Nat) (idx : List Nat) :
    (s.uncorrectable pma idx).media.image = s.media.image := by
  simp only [State.uncorrectable]
  split
  · rw [State.log_media]; rfl
  · rw [State.log_media]; rfl

@[simp] theorem State.queueRelocate_image (s : State) (block : Nat) : (s.queueRelocate block).media.image = s.media.image := by
  rw [State.queueRelocate]
  split
  · rfl
  · rfl

/-- Counting a page leaves the map. -/
theorem State.countPage_image (s : State) (pma : Nat) (r : NandResult) : (s.countPage pma r).media.image = s.media.image := by
  unfold State.countPage
  extract_lets ts first failed s1 s2 s3 s4
  have h1 : s1.media.image = s.media.image := rfl
  have h2 : s2.media.image = s.media.image := ite_holds (P := fun t : State => t.media.image = s.media.image) h1 h1
  have h3 : s3.media.image = s.media.image :=
    ite_holds (P := fun t : State => t.media.image = s.media.image) ((congrArg Media.image (State.bump_media ..)).trans h2) h2
  have h4 : s4.media.image = s.media.image :=
    ite_holds (P := fun t : State => t.media.image = s.media.image) ((State.queueRelocate_image ..).trans h3) h3
  exact ite_holds (P := fun t : State => t.media.image = s.media.image) h4 ((State.uncorrectable_image ..).trans h4)

theorem State.unitAt_congr {s t : State} (h : s.media.image = t.media.image) (pma : Nat) : s.unitAt pma = t.unitAt pma := by
  rw [State.unitAt, State.unitAt, h]

section SettlePage

variable {s : State} {w : WeakPage} {ns u : Nat} (h : s.unitAt w.pma = some (ns, u))
include h

/-- A page of the protected region is moved. -/
theorem State.settlePage_buffered (hb : s.media.buffered.contains w.pma = true) : s.settlePage w = s.moveUnit ns u w.dest := by
  have hm : s.weakMoves w = true := by rw [State.weakMoves, h, hb]; rfl
  simp only [State.settlePage, hb, h, hm, if_true]

variable (hb : s.media.buffered.contains w.pma = false) (h3 : (s.pageTiers w.pma w.result).contains 3 = false)
include hb h3

/-- A page on the media is counted, and moved when it is weak and whole. -/
theorem State.settlePage_counted :
    s.settlePage w = if (s.pageTiers w.pma w.result).any (fun t => decide (t ≥ 3)) && !(s.pageTiers w.pma w.result).contains 0 then
      (s.countPage w.pma w.result).moveUnit ns u w.dest else s.countPage w.pma w.result := by
  have hm : s.weakMoves w =
      ((s.pageTiers w.pma w.result).any (fun t => decide (t ≥ 3)) && !(s.pageTiers w.pma w.result).contains 0) := by
    simp only [State.weakMoves, h, hb, Option.isSome_some, Bool.true_and, Bool.false_or]
  have hu := (State.unitAt_congr (s.countPage_image w.pma w.result) w.pma).trans h
  simp only [State.settlePage, hb, hm, h3, Bool.false_and, Bool.false_eq_true, if_false, hu]

end SettlePage

/-! Failed programs and erases (R134). -/

theorem State.programFail_runs {s : State} {pma : Nat} {dests : List Nat} (hr : s.nand.retired.contains (s.blockOf pma) = false)
    (hp : s.placesFree dests = true)
    (hl : ((s.unitsIn (s.blockOf pma)).filter (fun e => s.unitGood e.2)).length = dests.length)
    (hd : ∀ d ∈ dests, (s.bandOf (s.blockOf d)).map (·.id) ≠ (s.bandOf (s.blockOf pma)).map (·.id)) :
    let b := s.blockOf pma
    let u := s.moveAll ((s.unitsIn b).filter (fun e => s.unitGood e.2)) dests
    s.programFail pma dests = (State.retireBlock
      { u with media := { u.media with buffered := u.media.buffered.filter (fun x => u.blockOf x != b) } } b 9 0x0202).settle true := by
  have ha : dests.all (fun d => ((s.bandOf (s.blockOf d)).map (·.id)) != ((s.bandOf (s.blockOf pma)).map (·.id))) = true :=
    List.all_eq_true.mpr fun d hd' => bne_iff_ne.mpr (hd d hd')
  refine if_pos ?_
  rw [hr, hp, ha, beq_iff_eq.mpr hl]
  rfl

/-- A retired block is in no list of blocks the device uses. -/
theorem State.retireBlock_gone (s : State) (block ctr : Nat) (st : Status) :
    let u := s.retireBlock block ctr st
    u.nand.retired.contains block = true ∧ u.nand.freeBlocks.contains block = false ∧ (∀ j ∈ u.media.gc, j.src ≠ block) ∧
      block ∉ u.media.relocate := by
  obtain ⟨hr, hf, hg, hq, -⟩ := s.retireBlock_parts block ctr st
  dsimp only
  rw [hr, hf, hg, hq]
  refine ⟨addNew_contains (List.mem_singleton_self block), ?_, fun j hj => bne_iff_ne.mp (List.mem_filter.mp hj).2,
    fun h => absurd rfl (bne_iff_ne.mp (List.mem_filter.mp h).2)⟩
  rw [← Bool.not_eq_true, List.contains_iff_mem]
  exact fun h => absurd rfl (bne_iff_ne.mp (List.mem_filter.mp h).2)

/-! A lost target (R135). -/

/-- The state with a target lost, before that is recorded. -/
def State.withoutTarget (s : State) (c t : Nat) : State :=
  let mine (b : Nat) : Bool := pmaTarget b == (c, t)
  let blocks := (s.media.image.bands.flatMap (·.blocks)).filter mine
  let close (b : Band) : Band :=
    if b.state == .opened && (b.blocks.any mine || mine b.parity) then
      { b with state := .unverified, rows := b.rows ++ b.accRows s.media.geometry }
    else b
  { s with
    nand := { s.nand with
      freeBlocks := s.nand.freeBlocks.filter (fun b => !mine b), lgBlocks := s.nand.lgBlocks.filter (fun b => !mine b) },
    media := { s.media with
      usable := s.media.usable.filter (· != (c, t)), lost := s.media.lost ++ [(c, t)],
      excluded := s.media.excluded ++ [(c, t)],
      image := { s.media.image with bands := s.media.image.bands.map close },
      relocate := blocks ++ s.media.relocate.filter (fun b => !blocks.contains b) } }

theorem State.targetLost_usable {s : State} {c t : Nat} (h : s.media.usable.contains (c, t) = true) :
    s.targetLost c t = (let v := ((s.withoutTarget c t).log 0x0206 medBase c t).spareChanged
      if v.media.usable.length < 32 then { v with media := { v.media with state := .noMedia } } else v) :=
  if_neg (by rw [h]; decide)

/-- No open band keeps a block on the target. -/
theorem State.withoutTarget_closed {s : State} {c t : Nat} {b : Band} (h : b ∈ (s.withoutTarget c t).media.image.bands)
    (ho : b.state = .opened) : (b.blocks ++ [b.parity]).any (fun x => pmaTarget x == (c, t)) = false := by
  obtain ⟨x, -, rfl⟩ := List.mem_map.mp h
  revert ho
  split
  · exact nofun
  · next hn =>
    intro ho
    rw [ho, beq_self_eq_true, Bool.true_and, Bool.not_eq_true, Bool.or_eq_false_iff] at hn
    rw [List.any_append, hn.1, Bool.false_or, List.any_cons, List.any_nil, Bool.or_false]
    exact hn.2

theorem State.withoutTarget_queued {s : State} {c t b : Nat} (h : b ∈ s.media.image.bands.flatMap (·.blocks))
    (hb : pmaTarget b = (c, t)) : b ∈ (s.withoutTarget c t).media.relocate :=
  List.mem_append_left _ (List.mem_filter.mpr ⟨h, beq_iff_eq.mpr hb⟩)

theorem State.withoutTarget_unused {s : State} {c t b : Nat}
    (h : b ∈ (s.withoutTarget c t).nand.freeBlocks ++ (s.withoutTarget c t).nand.lgBlocks) : pmaTarget b ≠ (c, t) := by
  have hb : (!(pmaTarget b == (c, t))) = true := (List.mem_append.mp h).elim (fun h => (List.mem_filter.mp h).2)
    fun h => (List.mem_filter.mp h).2
  exact bne_iff_ne.mp hb

/-- Settles O27, by the branches of each command and the lists that a retired block and a lost target leave. -/
theorem bandsBlocksAndTargets : Obligations.BandsBlocksAndTargets := by
  unfold Obligations.BandsBlocksAndTargets
  refine ⟨fun s id b weak hb hu hs hv => congrArg _ (State.bandVerifyDone_runs hb hu hs hv),
    fun s w ns u h => ⟨State.settlePage_buffered h, fun hb ha h0 h3 => ?_, fun hb h0 h3 => ?_⟩,
    fun s pma dests hr hp hl hd => congrArg _ (State.programFail_runs hr hp hl hd),
    fun s block => ⟨exec_eraseFail block s, s.retireBlock_gone block 10 0x0203⟩, fun s c t h => ?_⟩
  · rw [State.settlePage_counted h hb h3, ha, h0]
    rfl
  · rw [State.settlePage_counted h hb h3, h0, Bool.not_true, Bool.and_false]
    rfl
  · exact ⟨s.withoutTarget c t, congrArg _ (State.targetLost_usable h), rfl, rfl, rfl, rfl, fun b => State.withoutTarget_closed,
      fun b => State.withoutTarget_queued, fun b => State.withoutTarget_unused, rfl⟩

end Sys2Proof.Machine

namespace Sys2Proof.Machine

/-! ### Identify, log pages, features, and the configuration image

What these commands mean: each runs the state function of its instruction. -/

theorem exec_identify (p : ReqPath) (cns nsid : Nat) (s : State) :
    exec (.identify p cns nsid) s = .next (s.identify p cns nsid) := rfl
theorem exec_getLog (p : ReqPath) (page off len : Nat) (s : State) :
    exec (.getLog p page off len) s = .next (s.getLog p page off len) := rfl
theorem exec_getFeature (p : ReqPath) (id sel : Nat) (s : State) :
    exec (.getFeature p id sel) s = .next (s.getFeature p id sel) := rfl
theorem exec_setArbitration (p : ReqPath) (burst : Nat) (s : State) :
    exec (.setArbitration p burst) s = .next (s.setArbitration p burst) := rfl
theorem exec_setCoalescing (p : ReqPath) (v threshold time : Nat) (s : State) :
    exec (.setCoalescing p v threshold time) s = .next (s.setCoalescing p v threshold time) := rfl
theorem exec_setVfResources (p : ReqPath) (vf queues vectors : Nat) (s : State) :
    exec (.setVfResources p vf queues vectors) s = .next (s.setVfResources p vf queues vectors) := rfl
theorem exec_setNsVisibility (p : ReqPath) (vf : Nat) (map : BitVec 256) (s : State) :
    exec (.setNsVisibility p vf map) s = .next (s.setNsVisibility p vf map) := rfl
theorem exec_setMediaLayout (p : ReqPath) (cell opHalf : Nat) (s : State) :
    exec (.setMediaLayout p cell opHalf) s = .next (s.setMediaLayout p cell opHalf) := rfl
theorem exec_firmwareDownload (p : ReqPath) (off : Nat) (chunk : List Byte) (s : State) :
    exec (.firmwareDownload p off chunk) s = .next (s.firmwareDownload p off chunk) := rfl
theorem exec_firmwareCommit (p : ReqPath) (activate ok : Bool) (s : State) :
    exec (.firmwareCommit p activate ok) s = .next (s.firmwareCommit p activate ok) := rfl

/-! IDENTIFY (R424, R425). -/

theorem State.identify_namespace {s : State} {p : ReqPath} {nsid : Nat} {x : NsInfo} (h : s.nsSeen nsid = some x)
    (hv : s.nsVisible (pathFn p) nsid = true) :
    s.identify p 1 nsid = s.replyData p 0 0 [0] (slice (s.identifyNs x) 0 4096) := by
  simp only [State.identify, h, hv, if_true]

theorem State.identify_namespace_unseen {s : State} {p : ReqPath} {nsid : Nat}
    (h : s.nsSeen nsid = none ∨ s.nsVisible (pathFn p) nsid = false) : s.identify p 1 nsid = s.reply p 0x0302 := by
  cases hn : s.nsSeen nsid with
  | none => simp only [State.identify, hn]
  | some x =>
    have hv : s.nsVisible (pathFn p) nsid = false := h.resolve_left (by simp [hn])
    simp only [State.identify, hn, hv, Bool.false_eq_true, if_false]

theorem State.identify_other {cns : Nat} (h : 2 < cns) (s : State) (p : ReqPath) (nsid : Nat) :
    s.identify p cns nsid = s.reply p 0x0101 := by
  obtain ⟨n, rfl⟩ : ∃ n, cns = n + 3 := ⟨cns - 3, by omega⟩
  rfl

theorem identify_rules (s : State) (p : ReqPath) (nsid cns : Nat) :
    exec (.identify p 0 nsid) s = .next (s.replyData p 0 0 [0] (slice (s.identifyDevice p) 0 4096)) ∧
    exec (.identify p 2 nsid) s = .next (s.replyData p 0 0 [0] (slice (identifyFn ((s.fnOf p).getD { g := pathFn p })) 0 4096)) ∧
    (∀ x, s.nsSeen nsid = some x → s.nsVisible (pathFn p) nsid = true →
      exec (.identify p 1 nsid) s = .next (s.replyData p 0 0 [0] (slice (s.identifyNs x) 0 4096))) ∧
    ((s.nsSeen nsid = none ∨ s.nsVisible (pathFn p) nsid = false) → exec (.identify p 1 nsid) s = .next (s.reply p 0x0302)) ∧
    (2 < cns → exec (.identify p cns nsid) s = .next (s.reply p 0x0101)) := by
  refine ⟨rfl, rfl, fun x h hv => ?_, fun h => ?_, fun h => ?_⟩ <;> rw [exec_identify]
  · rw [State.identify_namespace h hv]
  · rw [State.identify_namespace_unseen h]
  · rw [State.identify_other h]

/-! GET_LOG (R426). -/

/-- What a read of the health page clears. -/
def State.healthSeen (s : State) : State :=
  { s with media := { s.media with health := { s.media.health with lgIncomplete := false } } }

section PhysicalLog

variable {p : ReqPath} {off : Nat} (ho : off % 64 = 0) (hv : isVf p = false) (s : State) (len : Nat)
include ho hv

theorem State.getLog_errors : s.getLog p 1 off len =
    let b := s.errlog.page none off (min len (64 + 64 * 4096 - off)); s.replyData p 0 0 [b.length] b := by
  simp [State.getLog, ho, hv]

theorem State.getLog_health : s.getLog p 2 off len =
    let b := (s.healthBytes.drop off).take len; s.healthSeen.replyData p 0 0 [b.length] b := by
  simp [State.getLog, ho, hv, pagePart, State.healthSeen]

theorem State.getLog_trace : s.getLog p 3 off len =
    let b := memRead s.obs.mem off (min len (s.obs.pages * 2 ^ 21 - off)); s.replyData p 0 0 [b.length] b := by
  simp [State.getLog, ho, hv]

theorem State.getLog_config : s.getLog p 4 off len =
    let b := (s.configPage.drop off).take len; s.replyData p 0 0 [b.length] b := by
  simp [State.getLog, ho, hv, pagePart]

theorem State.getLog_sanitize : s.getLog p 5 off len =
    let b := (s.sanitizePage.drop off).take len; s.replyData p 0 0 [b.length] b := by
  simp [State.getLog, ho, hv, pagePart]

omit ho hv in
theorem State.getLog_other {page : Nat} (h : 5 < page) (p : ReqPath) (off : Nat) : s.getLog p page off len = s.reply p 0x0101 := by
  obtain ⟨n, rfl⟩ : ∃ n, page = n + 6 := ⟨page - 6, by omega⟩
  simp [State.getLog]

end PhysicalLog

theorem State.getLog_refused {p : ReqPath} {page off : Nat} (h : off % 64 ≠ 0 ∨ (isVf p = true ∧ page ≠ 1 ∧ page ≠ 2))
    (s : State) (len : Nat) : s.getLog p page off len = s.reply p 0x0101 := by
  by_cases ho : off % 64 = 0
  · obtain ⟨hv, hp⟩ := h.resolve_left (not_not_intro ho)
    simp only [State.getLog, ho, hv, hp, ne_eq, not_true_eq_false, if_false, not_false_eq_true, and_self, decide_true,
      Bool.and_self, if_true]
  · exact if_pos ho

theorem getLog_rules (s : State) (p : ReqPath) (page off len : Nat) (ho : off % 64 = 0) (hv : isVf p = false) :
    exec (.getLog p 1 off len) s = .next (let b := s.errlog.page none off (min len (64 + 64 * 4096 - off)); s.replyData p 0 0 [b.length] b) ∧
    exec (.getLog p 2 off len) s = .next (let b := (s.healthBytes.drop off).take len; s.healthSeen.replyData p 0 0 [b.length] b) ∧
    exec (.getLog p 3 off len) s = .next (let b := memRead s.obs.mem off (min len (s.obs.pages * 2 ^ 21 - off)); s.replyData p 0 0 [b.length] b) ∧
    exec (.getLog p 4 off len) s = .next (let b := (s.configPage.drop off).take len; s.replyData p 0 0 [b.length] b) ∧
    exec (.getLog p 5 off len) s = .next (let b := (s.sanitizePage.drop off).take len; s.replyData p 0 0 [b.length] b) ∧
    (5 < page → exec (.getLog p page off len) s = .next (s.reply p 0x0101)) :=
  ⟨congrArg _ (State.getLog_errors ho hv s len), congrArg _ (State.getLog_health ho hv s len),
    congrArg _ (State.getLog_trace ho hv s len), congrArg _ (State.getLog_config ho hv s len),
    congrArg _ (State.getLog_sanitize ho hv s len), fun h => congrArg _ (State.getLog_other s len h p off)⟩

/-! GET_FEATURE (R427). -/

section PhysicalFeature

variable {s : State} {p : ReqPath} (hv : isVf p = false) (sel : Nat)
include hv

theorem State.getFeature_burst {f : Fn} (hf : s.fnOf p = some f) : s.getFeature p 1 sel = s.reply p 0 0 [f.burst] := by
  simp [State.getFeature, hv, hf]

theorem State.getFeature_coalescing {f : Fn} (hf : s.fnOf p = some f) (h : sel < f.vectors) :
    s.getFeature p 2 sel = s.reply p 0 0 [(f.coal sel).threshold + (f.coal sel).time * 2 ^ 16] := by
  simp [State.getFeature, hv, hf, h]

theorem State.getFeature_vfResources {v : Fn} (h : 1 ≤ sel ∧ sel ≤ 31) (hf : s.fnAt (vfOf p sel) = some v) :
    s.getFeature p 3 sel = s.reply p 0 0 [v.queues + v.vectors * 2 ^ 16] := by
  have hs : ¬ (sel = 0 ∨ sel > 31) := by omega
  simp only [State.getFeature, hv, Bool.false_and, Bool.false_eq_true, if_false, if_neg hs, hf, Option.getD_some]

theorem State.getFeature_nsVisibility {v : Fn} (h : 1 ≤ sel ∧ sel ≤ 31) (hf : s.fnAt (vfOf p sel) = some v) :
    s.getFeature p 5 sel = s.replyData p 0 0 [0] (leBytes 32 v.nsVis.toNat) := by
  have hs : ¬ (sel = 0 ∨ sel > 31) := by omega
  simp only [State.getFeature, hv, Bool.false_and, Bool.false_eq_true, if_false, if_neg hs, hf, Option.getD_some]

theorem State.getFeature_mediaLayout :
    s.getFeature p 6 sel = s.reply p 0 0 [(s.media.nextLayout.getD s.media.layout).cell +
      (s.media.nextLayout.getD s.media.layout).opHalf * 2 ^ 16] := by
  simp only [State.getFeature, hv, Bool.false_and, Bool.false_eq_true, if_false]

end PhysicalFeature

theorem getFeature_rules (s : State) (p : ReqPath) (sel : Nat) (f : Fn) (hf : s.fnOf p = some f) (hv : isVf p = false) :
    exec (.getFeature p 1 sel) s = .next (s.reply p 0 0 [f.burst]) ∧
    (sel < f.vectors → exec (.getFeature p 2 sel) s = .next (s.reply p 0 0 [(f.coal sel).threshold + (f.coal sel).time * 2 ^ 16])) ∧
    (1 ≤ sel → sel ≤ 31 → ∀ v, s.fnAt (vfOf p sel) = some v →
      exec (.getFeature p 3 sel) s = .next (s.reply p 0 0 [v.queues + v.vectors * 2 ^ 16]) ∧
      exec (.getFeature p 5 sel) s = .next (s.replyData p 0 0 [0] (leBytes 32 v.nsVis.toNat))) ∧
    (∀ c o, s.media.nextLayout.getD s.media.layout = { cell := c, opHalf := o } →
      exec (.getFeature p 6 sel) s = .next (s.reply p 0 0 [c + o * 2 ^ 16])) := by
  simp only [exec_getFeature]
  refine ⟨?_, fun h => ?_, fun h1 h31 v hn => ⟨?_, ?_⟩, fun c o hl => ?_⟩
  · rw [State.getFeature_burst hv sel hf]
  · rw [State.getFeature_coalescing hv sel hf h]
  · rw [State.getFeature_vfResources hv sel ⟨h1, h31⟩ hn]
  · rw [State.getFeature_nsVisibility hv sel ⟨h1, h31⟩ hn]
  · rw [State.getFeature_mediaLayout hv, hl]

/-! The features that a function sets (R406, R427, R428). -/

theorem setArbitration_rules (s : State) (p : ReqPath) (b : Nat) :
    (1 ≤ b ∧ b ≤ 64 → exec (.setArbitration p b) s = .next ((s.setFn (pathFn p) (fun f => { f with burst := b })).reply p 0 0 [0])) ∧
    (b = 0 ∨ 64 < b → exec (.setArbitration p b) s = .next (s.reply p 0x0101)) := by
  rw [exec_setArbitration, State.setArbitration]
  constructor <;> intro h
  · rw [if_neg (by omega)]
  · rw [if_pos h]

theorem setCoalescing_rules (s : State) (p : ReqPath) (v th t : Nat) (f : Fn) (hf : s.fnOf p = some f) :
    (v < f.vectors → 1 ≤ th ∧ th ≤ 256 → t ≤ 255 → exec (.setCoalescing p v th t) s = .next ((s.setFn (pathFn p) (fun g => { g with
      coalesce := g.coalesce.filter (fun x => x.vector != v) ++ [{ f.coal v with threshold := th, time := t }] })).reply p 0 0 [0])) ∧
    (f.vectors ≤ v ∨ th = 0 ∨ 256 < th ∨ 255 < t → exec (.setCoalescing p v th t) s = .next (s.reply p 0x0101)) := by
  simp only [exec_setCoalescing, State.setCoalescing, hf, Option.getD_some, Bool.or_eq_true, decide_eq_true_eq]
  constructor
  · intro hv hth ht
    rw [if_neg (by omega)]
  · intro h
    rw [if_pos (by omega)]

/-- SET_VF_RESOURCES: a virtual function takes queues and vectors of its physical one, which keeps the rest. -/
def State.moveVfResources (s : State) (g queues vectors : Nat) (f v : Fn) : State :=
  ((s.ensureFn g).setFn g (fun x => { x with queues := queues, vectors := vectors })).setFn f.g
    (fun x => { x with queues := f.queues + v.queues - queues, vectors := f.vectors + v.vectors - vectors })

theorem setVfResources_rules (s : State) (p : ReqPath) (vf q n : Nat) (f : Fn) (hf : s.fnOf p = some f) (hp : isVf p = false) :
    let v := (s.fnAt (vfOf p vf)).getD { g := vfOf p vf }
    (1 ≤ vf → vf ≤ 31 → f.vfEnabled = 0 → q ≤ f.queues + v.queues → n ≤ f.vectors + v.vectors →
      exec (.setVfResources p vf q n) s = .next ((s.moveVfResources (vfOf p vf) q n f v).reply p 0 0 [0])) ∧
    (vf = 0 ∨ 31 < vf ∨ f.vfEnabled ≠ 0 ∨ f.queues + v.queues < q ∨ f.vectors + v.vectors < n →
      exec (.setVfResources p vf q n) s = .next (s.reply p 0x0101)) := by
  intro v
  simp only [exec_setVfResources, State.setVfResources, hf, hp, Bool.false_eq_true, if_false, Bool.or_eq_true,
    decide_eq_true_eq, bne_iff_ne]
  constructor
  · intro h1 h31 he hq hn
    rw [if_neg (by omega), if_neg (not_or.mpr ⟨Nat.not_lt.mpr hq, Nat.not_lt.mpr hn⟩)]
    rfl
  · intro h
    by_cases hs : (vf = 0 ∨ vf > 31) ∨ f.vfEnabled ≠ 0
    · rw [if_pos hs]
    · have hx : f.queues + v.queues < q ∨ f.vectors + v.vectors < n := by tauto
      rw [if_neg hs, if_pos hx]

theorem setNsVisibility_rules (s : State) (p : ReqPath) (vf : Nat) (map : BitVec 256) (hp : isVf p = false) :
    (1 ≤ vf ∧ vf ≤ 31 → exec (.setNsVisibility p vf map) s =
      .next (((s.ensureFn (vfOf p vf)).setFn (vfOf p vf) (fun x => { x with nsVis := map })).reply p 0 0 [0])) ∧
    (vf = 0 ∨ 31 < vf → exec (.setNsVisibility p vf map) s = .next (s.reply p 0x0101)) := by
  rw [exec_setNsVisibility, State.setNsVisibility, hp, if_neg Bool.false_ne_true]
  constructor <;> intro h
  · rw [if_neg (by omega)]
  · rw [if_pos h]

theorem physical_features_refused (s : State) (p : ReqPath) (vf q n c o : Nat) (map : BitVec 256) (f : Fn) (hp : isVf p = true)
    (hf : s.fnOf p = some f) :
    exec (.setVfResources p vf q n) s = .next (s.reply p 0x0102) ∧ exec (.setNsVisibility p vf map) s = .next (s.reply p 0x0102) ∧
    exec (.setMediaLayout p c o) s = .next (s.reply p 0x0102) := by
  refine ⟨?_, ?_, ?_⟩
  · simp only [exec_setVfResources, State.setVfResources, hf, hp, if_true]
  · rw [exec_setNsVisibility, State.setNsVisibility, if_pos hp]
  · rw [exec_setMediaLayout, State.setMediaLayout, if_pos hp]

theorem setMediaLayout_rules (s : State) (p : ReqPath) (c o : Nat) (hp : isVf p = false) :
    (s.quoinSet 15 = true → exec (.setMediaLayout p c o) s = .next (s.reply p 0x0F01)) ∧
    (s.quoinSet 15 = false → 1 ≤ c ∧ c ≤ 2 → 14 ≤ o ∧ o ≤ 100 → exec (.setMediaLayout p c o) s =
      .next (State.reply { s with media := { s.media with nextLayout := some { cell := c, opHalf := o } } } p 0 0 [0])) ∧
    (s.quoinSet 15 = false → c = 0 ∨ 2 < c ∨ o < 14 ∨ 100 < o → exec (.setMediaLayout p c o) s = .next (s.reply p 0x0101)) := by
  simp only [exec_setMediaLayout, State.setMediaLayout, hp, Bool.false_eq_true, if_false, Bool.or_eq_true, decide_eq_true_eq]
  refine ⟨fun hq => ?_, fun hq hc ho => ?_, fun hq h => ?_⟩ <;> rw [hq]
  · rw [if_pos rfl]
  · rw [if_neg Bool.false_ne_true, if_neg (by omega)]
  · rw [if_neg Bool.false_ne_true, if_pos (by omega)]

/-! FIRMWARE_DOWNLOAD and the checks of an image (R429, R597). -/

theorem firmwareDownload_rules (s : State) (p : ReqPath) (off : Nat) (b : List Byte) :
    (off % 4096 = 0 → b.length % 4096 = 0 → off + b.length ≤ 2 ^ 28 → exec (.firmwareDownload p off b) s =
      .next (State.reply { s with yqi := { s.yqi with staging := memWrite s.yqi.staging off b } } p 0 0 [0])) ∧
    (off % 4096 ≠ 0 ∨ b.length % 4096 ≠ 0 ∨ 2 ^ 28 < off + b.length → exec (.firmwareDownload p off b) s = .next (s.reply p 0x0101)) := by
  rw [exec_firmwareDownload, State.firmwareDownload]
  constructor
  · intro ho hb hl
    rw [if_neg (by omega)]
  · intro h
    rw [if_pos h]

theorem State.configCheck_badHead {s : State} {b : List Byte}
    (h : configHeadOk b s.flash.copyArea = false ∨ b.length < leField b 0x10 8) : s.configCheck b = (0x1004, 1) :=
  if_pos (by simpa using h)

/-- Past the first check, the image is judged on its own length. -/
theorem State.configCheck_goodHead {s : State} {b : List Byte} (hh : configHeadOk b s.flash.copyArea = true)
    (hl : leField b 0x10 8 ≤ b.length) : s.configCheck b =
    let c := b.take (leField b 0x10 8)
    if !s.configTargetOk c then (0x1004, 2)
    else if !s.chainedKey (leField c 0x18 8) then (0x0F06, 0)
    else if !s.keyVerifies c (leField c 0x18 8) then (0x0F02, 0)
    else if !configSectsOk c then (0x1004, 3)
    else (0, 0) :=
  if_neg (by simpa [hh] using hl)

theorem configCheck_rules (s : State) (b c : List Byte) (hc : c = b.take (leField b 0x10 8)) :
    (configHeadOk b s.flash.copyArea = false ∨ b.length < leField b 0x10 8 → s.configCheck b = (0x1004, 1)) ∧
    (configHeadOk b s.flash.copyArea = true → leField b 0x10 8 ≤ b.length →
      (s.configTargetOk c = false → s.configCheck b = (0x1004, 2)) ∧
      (s.configTargetOk c = true →
        (s.chainedKey (leField c 0x18 8) = false → s.configCheck b = (0x0F06, 0)) ∧
        (s.chainedKey (leField c 0x18 8) = true →
          (s.keyVerifies c (leField c 0x18 8) = false → s.configCheck b = (0x0F02, 0)) ∧
          (s.keyVerifies c (leField c 0x18 8) = true →
            (configSectsOk c = false → s.configCheck b = (0x1004, 3)) ∧
            (configSectsOk c = true → s.configCheck b = (0, 0)))))) := by
  refine ⟨State.configCheck_badHead, fun hh hl => ?_⟩
  subst hc
  simp only [State.configCheck_goodHead hh hl]
  refine ⟨fun ht => ?_, fun ht => ⟨fun hk => ?_, fun hk => ⟨fun hs => ?_, fun hs => ⟨fun hx => ?_, fun hx => ?_⟩⟩⟩⟩
  · rw [ht]; rfl
  · rw [ht, hk]; rfl
  · rw [ht, hk, hs]; rfl
  · rw [ht, hk, hs, hx]; rfl
  · rw [ht, hk, hs, hx]; rfl

/-! FIRMWARE_COMMIT (R429, R594, R597). -/

theorem firmwareCommit_refused (s : State) (p : ReqPath) (act ok : Bool) :
    (s.quoinSet 13 = true → exec (.firmwareCommit p act ok) s = .next (s.reply p 0x0F01)) ∧
    (s.quoinSet 13 = false → (s.configCheck s.stagedImage).1 ≠ 0 → exec (.firmwareCommit p act ok) s =
      .next (s.reply p (s.configCheck s.stagedImage).1 (s.configCheck s.stagedImage).2)) := by
  constructor
  · intro hq
    rw [exec_firmwareCommit, State.firmwareCommit, if_pos hq]
  · intro hq hc
    simp only [exec_firmwareCommit, State.firmwareCommit, hq, Bool.false_eq_true, if_false, if_pos hc]

/-- The flash with a copy written. -/
def BootFlash.writeCopy (f : BootFlash) (toB : Bool) (b : List Byte) : BootFlash :=
  if toB then { f with copyB := b } else { f with copyA := b }

@[simp] theorem BootFlash.writeCopy_selector (f : BootFlash) (toB : Bool) (b : List Byte) :
    (f.writeCopy toB b).selector = f.selector := by cases toB <;> rfl

@[simp] theorem BootFlash.writeCopy_sector0 (f : BootFlash) (toB : Bool) (b : List Byte) :
    (f.writeCopy toB b).sector0 = f.sector0 := by cases toB <;> rfl

@[simp] theorem BootFlash.writeCopy_sector1 (f : BootFlash) (toB : Bool) (b : List Byte) :
    (f.writeCopy toB b).sector1 = f.sector1 := by cases toB <;> rfl

/-- The sequence number that follows the one in force. -/
def BootFlash.nextSeq (f : BootFlash) : Nat := match f.selector with | some (x, _) => (x.seq + 1) % 2 ^ 32 | none => 1

/-- The next selector record goes to sector 1. -/
def BootFlash.nextIn1 (f : BootFlash) : Bool := match f.selector with | some (_, one) => !one | none => false

/-- The flash with the selector record that follows the one in force, in the other sector. -/
def BootFlash.writeSelector (f : BootFlash) (toB : Bool) : BootFlash :=
  if f.nextIn1 then { f with sector1 := some { seq := f.nextSeq, preferB := toB } }
  else { f with sector0 := some { seq := f.nextSeq, preferB := toB } }

theorem BootFlash.writeSelector_first {f : BootFlash} (h : f.selector = none) (toB : Bool) :
    f.writeSelector toB = { f with sector0 := some { seq := 1, preferB := toB } } := by
  simp only [BootFlash.writeSelector, BootFlash.nextIn1, BootFlash.nextSeq, h, Bool.false_eq_true, if_false]

theorem BootFlash.writeSelector_after1 {f : BootFlash} {x : Selector} (h : f.selector = some (x, true)) (toB : Bool) :
    f.writeSelector toB = { f with sector0 := some { seq := (x.seq + 1) % 2 ^ 32, preferB := toB } } := by
  simp only [BootFlash.writeSelector, BootFlash.nextIn1, BootFlash.nextSeq, h, Bool.not_true, Bool.false_eq_true, if_false]

theorem BootFlash.writeSelector_after0 {f : BootFlash} {x : Selector} (h : f.selector = some (x, false)) (toB : Bool) :
    f.writeSelector toB = { f with sector1 := some { seq := (x.seq + 1) % 2 ^ 32, preferB := toB } } := by
  simp only [BootFlash.writeSelector, BootFlash.nextIn1, BootFlash.nextSeq, h, Bool.not_false, if_true]

@[simp] theorem BootFlash.writeSelector_copyA (f : BootFlash) (toB : Bool) : (f.writeSelector toB).copyA = f.copyA := by
  unfold BootFlash.writeSelector; split <;> rfl

@[simp] theorem BootFlash.writeSelector_copyB (f : BootFlash) (toB : Bool) : (f.writeSelector toB).copyB = f.copyB := by
  unfold BootFlash.writeSelector; split <;> rfl

/-- The flash after an accepted commit of `b`. -/
def BootFlash.commit (f : BootFlash) (toB activate : Bool) (b : List Byte) : BootFlash :=
  if activate then (f.writeCopy toB b).writeSelector toB else f.writeCopy toB b

/-- The backup domain with the boot attempts of a copy at 0. -/
def Backup.clearAttempts (k : Backup) (toB : Bool) : Backup :=
  if toB then { k with attemptsB := 0 } else { k with attemptsA := 0 }

/-- The state in which an accepted commit answers. -/
def State.imageCommitted (s : State) (activate : Bool) : State :=
  { s.flashAccess with
    flash := s.flash.commit s.inactiveB activate s.stagedImage
    backup := s.backup.clearAttempts s.inactiveB
    boot := { s.boot with preferB := (s.flash.commit s.inactiveB activate s.stagedImage).prefersB } }

theorem State.firmwareCommit_accepted {s : State} (hq : s.quoinSet 13 = false) (hc : (s.configCheck s.stagedImage).1 = 0)
    (p : ReqPath) (act : Bool) :
    s.firmwareCommit p act true = (s.imageCommitted act).reply p 0 0 [bitOf s.inactiveB] := by
  have hi : s.flashAccess.inactiveB = s.inactiveB := rfl
  simp only [State.firmwareCommit, hq, hc, hi, Bool.false_eq_true, if_false, ne_eq, not_true_eq_false, Bool.not_true]
  cases act <;> rfl

section Committed

variable {s : State} {act : Bool}

theorem State.imageCommitted_toB (h : s.inactiveB = true) :
    let t := s.imageCommitted act
    t.flash.copyB = s.stagedImage ∧ t.flash.copyA = s.flash.copyA ∧ t.backup.attemptsB = 0 ∧
      t.backup.attemptsA = s.backup.attemptsA := by
  cases act <;> simp [State.imageCommitted, BootFlash.commit, h, BootFlash.writeCopy, Backup.clearAttempts]

theorem State.imageCommitted_toA (h : s.inactiveB = false) :
    let t := s.imageCommitted act
    t.flash.copyA = s.stagedImage ∧ t.flash.copyB = s.flash.copyB ∧ t.backup.attemptsA = 0 ∧
      t.backup.attemptsB = s.backup.attemptsB := by
  cases act <;> simp [State.imageCommitted, BootFlash.commit, h, BootFlash.writeCopy, Backup.clearAttempts]

theorem State.imageCommitted_inactive (h : act = false) :
    (s.imageCommitted act).flash.sector0 = s.flash.sector0 ∧ (s.imageCommitted act).flash.sector1 = s.flash.sector1 := by
  simp [State.imageCommitted, BootFlash.commit, h]

theorem State.imageCommitted_active (h : act = true) :
    let t := s.imageCommitted act
    (s.flash.selector = none → t.flash.sector0 = some { seq := 1, preferB := s.inactiveB } ∧ t.flash.sector1 = s.flash.sector1) ∧
    (∀ x, s.flash.selector = some (x, true) →
      t.flash.sector0 = some { seq := (x.seq + 1) % 2 ^ 32, preferB := s.inactiveB } ∧ t.flash.sector1 = s.flash.sector1) ∧
    (∀ x, s.flash.selector = some (x, false) →
      t.flash.sector1 = some { seq := (x.seq + 1) % 2 ^ 32, preferB := s.inactiveB } ∧ t.flash.sector0 = s.flash.sector0) := by
  refine ⟨fun hx => ?_, fun x hx => ?_, fun x hx => ?_⟩ <;>
    simp [State.imageCommitted, BootFlash.commit, h, BootFlash.writeSelector_first, BootFlash.writeSelector_after0,
      BootFlash.writeSelector_after1, hx]

end Committed

theorem firmwareCommit_rules (s : State) (p : ReqPath) (act : Bool) (hq : s.quoinSet 13 = false)
    (hc : (s.configCheck s.stagedImage).1 = 0) :
    exec (.firmwareCommit p act true) s = .next ((s.imageCommitted act).reply p 0 0 [bitOf s.inactiveB]) :=
  congrArg _ (State.firmwareCommit_accepted hq hc p act)

/-- Settles O56, by the rules above of each command and, for an accepted commit, the parts of the flash it leaves. -/
theorem adminCommands : Obligations.AdminCommands := by
  unfold Obligations.AdminCommands
  refine ⟨identify_rules, getLog_rules, fun s p page off len h => congrArg _ (State.getLog_refused h s len), getFeature_rules,
    setArbitration_rules, setCoalescing_rules, setVfResources_rules, setNsVisibility_rules, physical_features_refused,
    setMediaLayout_rules, firmwareDownload_rules, firmwareCommit_refused, configCheck_rules, ?_⟩
  exact fun s p act hq hc => ⟨s.imageCommitted act, firmwareCommit_rules s p act hq hc, State.imageCommitted_toB,
    State.imageCommitted_toA, State.imageCommitted_inactive, State.imageCommitted_active, rfl⟩

end Sys2Proof.Machine
